-- ==== Sys2Proof/Word.lean ====
section
/-! DEFINITION. The word types of the module and their plainest arithmetic: 64-bit control-space words (R7), bytes,
and the little-endian byte order of R4. -/

namespace Sys2Proof

/-- A control-space register or any 64-bit quantity (R7). -/
abbrev Word := BitVec 64

/-- One byte of any memory. -/
abbrev Byte := BitVec 8

/-- A stream of bytes, lowest address first. -/
abbrev Bytes := List Byte

end Sys2Proof
end

