-- ==== Sys2Proof/Syntax.lean ====
section
/-! DEFINITION. The commands of the module: one constructor of `Instr` per row of spec/opcode_table.json, with the
operands the row's rule gives it. A command is a register write, a host frame, a trail message, a mesh or skyline flit,
the issue of a looper step or foreman instruction, or an event of the hardware (a timer, a sensor, a link, a contact). -/

namespace Sys2Proof

/-- Who writes a register: a KCT session, or firmware (R8, R494). -/
inductive Src where
  | kct (session : Nat)
  | firmware
deriving DecidableEq, Repr

/-- An IP address as ETH_ACL compares it: 128 bits, or 32 bits with `v4` (R489, R508). -/
structure NetAddr where
  v4 : Bool
  ip : BitVec 128
deriving DecidableEq, Repr

/-- A KCT frame as it arrives on Ethernet port `port` (R482): the 32-byte header's fields and the payload. -/
structure KctFrame where
  port     : Nat
  source   : NetAddr
  udp      : BitVec 16
  magic    : BitVec 16
  version  : Byte
  op       : Byte
  status   : Byte
  reserved : Byte
  length   : BitVec 16
  session  : BitVec 32
  seq      : BitVec 32
  address  : Word
  count    : BitVec 16
  reserved2 : BitVec 16
  check    : BitVec 32
  payload  : Bytes
deriving DecidableEq, Repr

/-- A block's foreman: region 0 to 71 and local block 0 to 29 (R35). -/
structure FmId where
  region : Nat
  block  : Nat
deriving DecidableEq, Repr

/-- A target of an image load: a cell or a foreman (R50, R51). -/
inductive Target where
  | cell (n : Nat)
  | foreman (f : FmId)
deriving DecidableEq, Repr

/-- One target's entry in a foreman's miss message: up to 16 sequence numbers, or overflow (R64). -/
structure MissList where
  target   : Target
  seqs     : List Nat
  overflow : Bool
deriving DecidableEq, Repr

/-- The engines of a cell that a step runs on (R87, R100). -/
inductive Engine where
  | looper | array | vector | move | exchange
deriving DecidableEq, Repr

/-- The five ports of a router, numbered as R295 and R298 number them. -/
inductive Port where
  | north | east | south | west | loc
deriving DecidableEq, Repr

/-- The traffic classes of the mesh (R265). -/
inductive FlitClass where
  | compiled | credit | detour
deriving DecidableEq, Repr

/-- A mesh flit: 64 data bytes and the 72-bit sideband (R264, R265). -/
structure Flit where
  data     : Bytes
  sideband : BitVec 72
deriving DecidableEq, Repr

/-- The scopes of a partial reset (R616, R631). -/
inductive Scope where
  | cell | block | region | partition
deriving DecidableEq, Repr

/-- The two modes of a partial reset (R618, R619). -/
inductive ResetMode where
  | drain | absorb
deriving DecidableEq, Repr

/-- A hub of the barrier tree (R280). -/
inductive Hub where
  | foreman (f : FmId)
  | region (r : Nat)
  | root
deriving DecidableEq, Repr

/-- The sender of a barrier entry: a cell, a block, a region, or a module of the sync group (R281, R282). -/
inductive Entrant where
  | cell (n : Nat)
  | block (f : FmId)
  | region (r : Nat)
  | module (m : Nat)
deriving DecidableEq, Repr

/-- A fault notice on its way up (R286, R576, R579): the code, the unit that raised it and what the raising rule
records with it. `slot` is the partition slot concerned, when there is one. -/
structure Notice where
  code     : Nat
  slot     : Option Nat
  unit     : Nat
  detail   : Nat
  position : Nat
deriving DecidableEq, Repr

/-- A PTP Announce dataset as R515 compares it (IEEE 1588-2019). -/
structure Announce where
  priority1 : Nat
  clockClass : Nat
  accuracy  : Nat
  variance  : Nat
  priority2 : Nat
  identity  : Nat
  steps     : Nat
  domain    : Nat
deriving DecidableEq, Repr

/-- The event messages of PTP that the beat unit follows (R515). -/
inductive PtpKind where
  | sync | followUp | delayResp
deriving DecidableEq, Repr

/-- The requests that a port answers from its own address (R476). -/
inductive NeighborKind where
  | arp | nd | echo4 | echo6
deriving DecidableEq, Repr

/-- A 24-byte cycle frame of the beat fibre (R511). -/
structure CycleFrame where
  cycle     : BitVec 64
  nominal   : Byte
  quality   : Byte
  delayNs   : BitVec 32
  campusId  : BitVec 32
  reserved  : BitVec 16
  check     : BitVec 32
deriving DecidableEq, Repr

/-- Why a beat source was lost (R518). -/
inductive BeatLoss where
  | markers | frames | ptp
deriving DecidableEq, Repr

/-- What the sensors read at one tick (R394, R549, R560): the input power in units of 0.1 kW, the junction temperature
of each listed clock half and the temperature of each listed stack, in degrees Celsius; the rest read as before. -/
structure Samples where
  power    : Nat
  junction : List (Nat × Nat)
  stack    : List (Nat × Nat)
deriving DecidableEq, Repr

/-- What the power controller measures over one mains cycle (R548, R550, R561, R565): mean input power P and floor in
0.1 kW, the input energy in mJ, each region's core energy in mJ, the coolant flow in 0.1 L/min and inlet in 0.1 °C. -/
structure CycleMeasure where
  mean    : Nat
  floor   : Nat
  energy  : Nat
  regions : List (Nat × Nat)
  flow    : Nat
  inlet   : Nat
deriving DecidableEq, Repr

/-- A skyline flit (R454): the link header, 240 payload bytes and the CRC-64. -/
structure SkyFlit where
  header  : Word
  payload : Bytes
  crc     : Word
deriving DecidableEq, Repr

/-- The request and answer of admission (R466). -/
structure AdmitReq where
  standId : BitVec 32
  sx : Nat
  sy : Nat
  sz : Nat
  x  : Nat
  y  : Nat
  z  : Nat
  serial : Word
deriving DecidableEq, Repr

/-- A contribution tile on its way to an owner (R424, R425, R427): its sending module, slot, layer, position and step,
and the SIGN1 payload of 16 groups of 48 bytes. -/
structure Contribution where
  slot     : Nat
  module   : Nat
  layer    : Nat
  position : Nat
  step     : Nat
  final    : Bool
  payload  : Bytes
deriving DecidableEq, Repr

/-- What a boot stage found (R608, R609, R612): outcomes of the physical tests, which are inputs of the model. `fuseCells`
and `cruiseCells` list the bad positions (region, block row 0 to 239, position 0 to 8); `dimms` lists slot, GB, rated speed
and rank organisation; `cxl` the ports that trained with width, rate, devices, devices left and bytes; `ports` the skyline
ports with a live partner, the mask of lanes that fail the test, and the partner's serial. -/
structure StageReport where
  elapsedMs   : Nat
  coolantOk   : Bool
  supplyOk    : Bool
  fuseCells   : List (Nat × Nat × Nat)
  cruiseCells : List (Nat × Nat × Nat)
  fuseFms     : List FmId
  cruiseFms   : List FmId
  lostRegions : List Nat
  unitFail    : Bool
  thoraxDead  : List Nat
  badChannels : List Nat
  c6Cells     : List Nat
  c6Regions   : List Nat
  dimms       : List (Nat × Nat × Nat × Nat)
  cxl         : List (Nat × Nat × Nat × Nat × Nat × Nat)
  ports       : List (Nat × Nat × Word)
deriving DecidableEq, Repr

/-- The tests of R590. -/
inductive Kat where
  | array | vector | convert | tables | router | cell | region | reducer
deriving DecidableEq, Repr

/-- What a test ran on (R590, R593). -/
inductive KatUnit where
  | cell (n : Nat)
  | region (r : Nat)
  | reducer
deriving DecidableEq, Repr

/-- Where an extent copy ended (R353, R356). -/
inductive CopyResult where
  | ok | readError | badHeader
deriving DecidableEq, Repr

/-- The commands. Each constructor's docstring names the rule that gives the command its effect. A `held` operand is the
number of clocks the step was held since it was last offered; a time operand is in nanoseconds. -/
inductive Instr where
  /-- R10 -/
  | registerWrite (src : Src) (addr : Nat) (value : Word)
  -- Kloath control transport
  /-- R487 -/
  | kctOpen (f : KctFrame)
  /-- R487 -/
  | kctClose (f : KctFrame)
  /-- R485 -/
  | kctRead (f : KctFrame)
  /-- R485 -/
  | kctWrite (f : KctFrame)
  /-- R487 -/
  | sessionIdleTimeout (session : Nat)
  -- mailbox
  /-- R641 -/
  | getCert (f : KctFrame)
  /-- R642 -/
  | attest (f : KctFrame)
  /-- R646 -/
  | fwStage (f : KctFrame)
  /-- R646 -/
  | fwStageTimeout
  /-- R646 -/
  | fwActivate (f : KctFrame)
  /-- R643 -/
  | ownerSet (f : KctFrame)
  /-- R643 -/
  | ownerRevoke (f : KctFrame)
  /-- R643 -/
  | ownerRelease (f : KctFrame)
  /-- R648 -/
  | licenceInstall (f : KctFrame)
  /-- R644 -/
  | licenceGet (f : KctFrame)
  /-- R640 -/
  | revokeRelease (f : KctFrame)
  -- bulk port and RoCEv2
  /-- R498, R501: `writeFail` says that the tier refuses the write -/
  | bulkData (f : KctFrame) (writeFail : Bool)
  /-- R499 -/
  | bulkAckTimer (window : Nat)
  /-- R500: `bad` lists the frames whose read the tier flags as uncorrectable -/
  | bulkRead (f : KctFrame) (bad : List Nat)
  /-- R494 -/
  | bulkOpen (src : Src) (window : Nat) (value : Word)
  /-- R502 -/
  | bulkClose (src : Src) (window : Nat) (value : Word)
  /-- R480 -/
  | roceConnect (port : Nat) (source : NetAddr)
  /-- R480: the KCT request `f` travels on queue pair `qp` -/
  | rdmaSend (qp : Nat) (f : KctFrame)
  /-- R503, R477: `fill` is the priority's receive buffer after the frame, in bytes -/
  | rdmaWrite (qp : Nat) (rkey : BitVec 32) (offset : Nat) (data : Bytes) (writeFail : Bool) (fill : Nat)
  /-- R503 -/
  | rdmaRead (qp : Nat) (rkey : BitVec 32) (offset : Nat) (length : Nat) (bad : Bool)
  /-- R481 -/
  | ecnCeReceived (qp : Nat) (time : Nat)
  /-- R481 -/
  | cnpReceived (qp : Nat)
  /-- R481 -/
  | rateIncreaseTimer (qp : Nat)
  /-- R477: PAUSE, or its end, of one priority; `fill` is the module's own receive buffer of that priority -/
  | pauseReceived (port : Nat) (prio : Nat) (on : Bool) (fill : Nat)
  /-- R478 -/
  | lldpTransmitTimer
  /-- R478 -/
  | lldpReceived (port : Nat) (ttl : Nat) (mac : BitVec 48)
  /-- R476 -/
  | neighborRequest (port : Nat) (kind : NeighborKind) (source : NetAddr) (target : NetAddr)
  /-- R479 -/
  | ptpEventMessage (port : Nat) (kind : PtpKind) (seq : Nat) (timestamp : Nat)
  /-- R515 -/
  | ptpAnnounce (port : Nat) (a : Announce)
  /-- R515 -/
  | announceReceiptTimeout (port : Nat)
  /-- R514: PTP time `tai` in TAI nanoseconds, the offset from the time transmitter in nanoseconds, TAI−UTC in seconds -/
  | ptpSync (port : Nat) (kind : PtpKind) (tai : Nat) (offset : Int) (utc : Nat)
  /-- R504 -/
  | ethLinkDown (port : Nat)
  /-- R504 -/
  | ethLinkUp (port : Nat)
  -- image loader
  /-- R63 -/
  | imgStart (src : Src) (value : Word)
  /-- R69 -/
  | imgAbort (src : Src) (value : Word)
  /-- R63 -/
  | loadVerifyDone
  /-- R63 -/
  | loadOpenRetry
  /-- R63 -/
  | loadBroadcastDone
  /-- R64 -/
  | repairRound
  /-- R64 -/
  | missReportWindowEnd
  /-- R53, R55 -/
  | chunkLead (target : Target) (header : BitVec 128) (crc : BitVec 32)
  /-- R53, R55 -/
  | chunkData (target : Target) (data : Bytes)
  /-- R51 -/
  | loadOpen (target : Target)
  /-- R64 -/
  | loadCheck
  /-- R63 -/
  | loadConfigure
  /-- R64 -/
  | miss (f : FmId) (lists : List MissList)
  -- looper steps
  /-- R102 -/
  | stepNop (cell : Nat) (held : Nat)
  /-- R138 -/
  | stepMatrix (cell : Nat) (held : Nat)
  /-- R218 -/
  | stepVector (cell : Nat) (held : Nat)
  /-- R94 -/
  | stepLoad (cell : Nat) (held : Nat)
  /-- R94 -/
  | stepStore (cell : Nat) (held : Nat)
  /-- R273 -/
  | stepExchange (cell : Nat) (held : Nat)
  /-- R106 -/
  | gateWait (cell : Nat) (held : Nat)
  /-- R106 -/
  | gateBarrierEnter (cell : Nat) (held : Nat)
  /-- R128 -/
  | gateSignal (cell : Nat) (held : Nat)
  /-- R227 -/
  | stepScalar (cell : Nat) (held : Nat)
  /-- R118 -/
  | stepEnd (cell : Nat) (held : Nat)
  /-- R102: `wait` is the number of clocks the engine waited since it was last offered -/
  | stepComplete (cell : Nat) (engine : Engine) (wait : Nat)
  /-- R109 -/
  | gateTimeout (cell : Nat)
  -- foreman program
  /-- R127 -/
  | fmnNop (f : FmId)
  /-- R127 -/
  | fmnLdi (f : FmId)
  /-- R127 -/
  | fmnLdhi (f : FmId)
  /-- R127 -/
  | fmnAdd (f : FmId)
  /-- R127 -/
  | fmnSub (f : FmId)
  /-- R127 -/
  | fmnAddi (f : FmId)
  /-- R127 -/
  | fmnAnd (f : FmId)
  /-- R127 -/
  | fmnOr (f : FmId)
  /-- R127 -/
  | fmnXor (f : FmId)
  /-- R127 -/
  | fmnShl (f : FmId)
  /-- R127 -/
  | fmnShr (f : FmId)
  /-- R127 -/
  | fmnCmplt (f : FmId)
  /-- R127 -/
  | fmnCmpeq (f : FmId)
  /-- R127 -/
  | fmnFadd (f : FmId)
  /-- R127 -/
  | fmnFmul (f : FmId)
  /-- R127 -/
  | fmnJmp (f : FmId)
  /-- R127 -/
  | fmnBz (f : FmId)
  /-- R127 -/
  | fmnBnz (f : FmId)
  /-- R127 -/
  | fmnHalt (f : FmId)
  /-- R127 -/
  | fmnRdstep (f : FmId)
  /-- R127 -/
  | fmnRdcurve (f : FmId)
  /-- R127 -/
  | fmnStart (f : FmId)
  /-- R127 -/
  | fmnStop (f : FmId)
  /-- R127 -/
  | fmnLatch (f : FmId)
  /-- R128 -/
  | fmnWaitev (f : FmId)
  /-- R128 -/
  | fmnWaitdone (f : FmId)
  /-- R250 -/
  | buildBegin (f : FmId)
  /-- R252 -/
  | score (f : FmId)
  /-- R253 -/
  | buildEnd (f : FmId)
  /-- R444 -/
  | fmnCurve (f : FmId)
  /-- R259 -/
  | scoreTimeout (f : FmId)
  -- trail network
  /-- R616 -/
  | reset (scope : Scope) (mode : ResetMode) (target : Nat)
  /-- R117 -/
  | fence (cell : Nat)
  /-- R282 -/
  | barrierEnter (sender : Entrant) (slot : Nat) (word : BitVec 32)
  /-- R282 -/
  | barrierRelease (slot : Nat) (half : Nat)
  /-- R283 -/
  | barrierTimerExpiry (hub : Hub) (slot : Nat)
  /-- R283 -/
  | barrierProbe (hub : Hub) (slot : Nat)
  /-- R283 -/
  | probeAnswerTimeout (f : FmId) (slot : Nat)
  /-- R283 -/
  | barrierFail (slot : Nat)
  /-- R106 -/
  | windowFlag (slot : Nat) (flag : Nat) (on : Bool)
  /-- R579 -/
  | faultNotice (n : Notice)
  /-- R191 -/
  | numericsNotice (cell : Nat) (word : BitVec 32)
  /-- R289 -/
  | absorbed (src : Nat) (dest : Nat) (xtag : Nat)
  /-- R128 -/
  | complete (cell : Nat)
  /-- R117 -/
  | looperStart (cell : Nat) (index : Nat)
  /-- R117 -/
  | looperStop (cell : Nat) (clear : Bool)
  /-- R227 -/
  | scalarWrite (cell : Nat) (entry : Nat) (value : Word)
  /-- R277 -/
  | grant (cell : Nat) (slot : Nat)
  /-- R255 -/
  | countReturn (f : FmId) (tag : Nat) (count : Nat)
  /-- R123 -/
  | tallyRead (cell : Nat) (index : Nat)
  /-- R32 -/
  | tallyReply (cell : Nat) (index : Nat) (value : Word)
  /-- R123 -/
  | tallyClear (cell : Nat)
  /-- R317 -/
  | fetchList (f : FmId) (list : Bytes)
  -- mesh
  /-- R270: `loses` says that the flit loses the arbitration of R269 in this clock -/
  | flitArrive (router : Nat) (port : Port) (flit : Flit) (loses : Bool)
  /-- R288: a credit for `cls` returns to `router` on its output `port` -/
  | creditReturn (router : Nat) (port : Port) (cls : FlitClass)
  /-- R273 -/
  | exchangeEpoch (half : Nat) (slot : Nat)
  /-- R291: a router, or with `link` the link that leaves it by that port -/
  | routerDead (cell : Nat) (link : Option Port)
  /-- R296 -/
  | detourClear (src : Src) (region : Nat) (value : Word)
  -- skidder
  /-- R308 -/
  | streamDeliver (slot : Nat)
  /-- R317 -/
  | streamGather (slot : Nat)
  /-- R307 -/
  | streamRecorded (slot : Nat)
  /-- R321 -/
  | streamNear (slot : Nat)
  /-- R307 -/
  | streamLoop (slot : Nat)
  /-- R313 -/
  | streamEnd (slot : Nat)
  /-- R310: the oldest unread fill of entry `entry`; `bad` says that the tier returns a read error -/
  | fillReadStart (slot : Nat) (entry : Nat) (bad : Bool)
  /-- R303 -/
  | fillLaneAssign (region : Nat)
  /-- R321: fill number `fill` of the slot's deck reaches `cell` -/
  | fillLanded (slot : Nat) (fill : Nat) (cell : Nat) (parityBad : Bool)
  /-- R255 -/
  | listMerge (slot : Nat) (tag : Nat)
  /-- R331 -/
  | skidderStop (src : Src) (value : Word)
  -- time
  /-- R6 -/
  | tick (m : Samples)
  -- yarder
  /-- R352 -/
  | create (src : Src) (value : Word)
  /-- R352 -/
  | destroy (src : Src) (value : Word)
  /-- R352 -/
  | promote (src : Src) (value : Word)
  /-- R352 -/
  | demote (src : Src) (value : Word)
  /-- R351 -/
  | pin (src : Src) (value : Word)
  /-- R351 -/
  | unpin (src : Src) (value : Word)
  /-- R353 -/
  | extentCopyDone (handle : Nat) (result : CopyResult)
  /-- R362 -/
  | allocationRetry
  /-- R362 -/
  | allocationWaitLimit (handle : Nat)
  -- stacks, board, far memory
  /-- R386: `second` says that the retry failed as well -/
  | caParityError (channel : Nat) (second : Bool)
  /-- R390 -/
  | stackUncorrectableRead (channel : Nat)
  /-- R395 -/
  | wrapperGo (src : Src) (stack : Nat) (value : Word)
  /-- R400 -/
  | rdimmFail (slot : Nat)
  /-- R406: poison, or a time-out when `poison` is false -/
  | cxlReadTimeout (port : Nat) (poison : Bool)
  /-- R406 -/
  | cxlLinkDown (port : Nat)
  /-- R405: capacity added, in bytes -/
  | dcdAdd (port : Nat) (bytes : Nat)
  /-- R405: a device asks to release far pool extents -/
  | dcdRelease (port : Nat) (first : Nat) (count : Nat)
  /-- R406 -/
  | cxlRescan (src : Src) (value : Word)
  -- reduction and update
  /-- R423 -/
  | outboxTake (cell : Nat) (slot : Nat)
  /-- R427 -/
  | contribTileArrive (t : Contribution)
  /-- R425 -/
  | contribAck (slot : Nat) (layer : Nat) (position : Nat) (owner : Nat)
  /-- R428 -/
  | lateRefusal (slot : Nat) (layer : Nat) (step : Nat)
  /-- R426 -/
  | contribSetClose (slot : Nat) (layer : Nat)
  /-- R426 -/
  | contribSetNotice (slot : Nat) (layer : Nat) (members : List Nat)
  /-- R426 -/
  | setGraceExpiry (slot : Nat) (layer : Nat)
  /-- R433: `record` is the update record index, `data` the PUBLISHED tile's payload -/
  | parameterBroadcastTile (slot : Nat) (layer : Nat) (record : Nat) (position : Nat) (step : Nat) (last : Bool) (data : Bytes)
  /-- R432 -/
  | commitMarker (slot : Nat) (layer : Nat)
  /-- R439 -/
  | shadowDigest (slot : Nat) (layer : Nat) (step : Nat) (digest : BitVec 128)
  /-- R439 -/
  | verdictArrive (slot : Nat) (child : Nat) (step : Nat) (ok : Bool) (replay : Bool)
  /-- R436 -/
  | confirm (slot : Nat) (step : Nat)
  /-- R583 -/
  | rollback (slot : Nat) (step : Nat) (replay : Bool) (origin : BitVec 32)
  /-- R439 -/
  | verdictTimeout (slot : Nat)
  /-- R448 -/
  | slotRollback (src : Src) (value : Word)
  /-- R599 -/
  | redStepWrite (src : Src) (slot : Nat) (value : Word)
  /-- R583 -/
  | replayOrigin (slot : Nat)
  -- skyline
  /-- R458 -/
  | skyFlitReceive (port : Nat) (flit : SkyFlit)
  /-- R458 -/
  | skyAckTimer (port : Nat)
  /-- R456 -/
  | meshFlitSendTimer (port : Nat)
  /-- R461: `failing` lists the lanes that fail the test -/
  | portRetrain (port : Nat) (failing : List Nat)
  /-- R461 -/
  | retrainAttemptTimeout (port : Nat)
  /-- R469: the partner's serial when a live partner answers -/
  | trainingAttempt (port : Nat) (partner : Option Word)
  /-- R474 -/
  | skyRetrainCommand (src : Src) (port : Nat) (value : Word)
  /-- R466 -/
  | admitGo (src : Src) (value : Word)
  /-- R466 -/
  | admitReqSend
  /-- R466 -/
  | admitReq (port : Nat) (r : AdmitReq) (target : BitVec 32)
  /-- R466: the partner's module number -/
  | admitAck (port : Nat) (peer : Nat)
  /-- R466 -/
  | admitNak (port : Nat) (reason : Nat)
  /-- R466 -/
  | admissionTimeout
  /-- R470 -/
  | admitLeave (src : Src) (value : Word)
  /-- R470 -/
  | leave (port : Nat)
  -- beat
  /-- R511: `skew` is the boundary's distance from the prediction in nanoseconds -/
  | tickMarker (bits : Byte) (skew : Nat)
  /-- R511 -/
  | cycleFrame (f : CycleFrame)
  /-- R518 -/
  | beatSourceLoss (cause : BeatLoss)
  /-- R525 -/
  | eventWindow (index : Nat)
  /-- R529 -/
  | windowClose (index : Nat)
  /-- R554 -/
  | eventBallast (index : Nat)
  /-- R554 -/
  | eventRamp (index : Nat)
  /-- R525 -/
  | eventCkpt (index : Nat)
  /-- R525 -/
  | ckptEnd (index : Nat)
  /-- R525 -/
  | eventDigest (index : Nat)
  /-- R591 -/
  | eventKat (index : Nat)
  /-- R530 -/
  | slack (slot : Nat) (w : Nat) (n : Nat)
  /-- R530 -/
  | shiftDecision (slot : Nat) (w : Nat)
  /-- R530 -/
  | shift (slot : Nat) (w : Nat) (s : Nat)
  /-- R531 -/
  | beatSlackSend (src : Src) (value : Word)
  /-- R535 -/
  | beatTimeSecRead
  -- power and thermal
  /-- R548 -/
  | mainsCycle (m : CycleMeasure)
  /-- R547 -/
  | pwrCapWrite (src : Src) (value : Word)
  /-- R548 -/
  | pwrRampWrite (src : Src) (value : Word)
  /-- R545 -/
  | opChangeDone (half : Nat)
  /-- R542 -/
  | breakerTrip (region : Nat)
  /-- R543 -/
  | breakerClear (src : Src) (region : Nat) (value : Word)
  /-- R543 -/
  | softStartDone (region : Nat)
  /-- R557: percent below nominal -/
  | droopCrossing (f : FmId) (half : Nat) (percent : Nat)
  /-- R558 -/
  | stretchRelease (half : Nat)
  /-- R559 -/
  | droopSevere (half : Nat)
  /-- R560 -/
  | junctionOvertemp (half : Nat)
  /-- R567 -/
  | chrysalisEnter (src : Src) (value : Word)
  /-- R569 -/
  | chrysalisWake (src : Src) (value : Word)
  -- known-answer tests, watch list, jobs
  /-- R592 -/
  | katRun (src : Src) (value : Word)
  /-- R589: `pass` says that the signature equals the expected one -/
  | testComplete (unit : KatUnit) (test : Kat) (pass : Bool)
  /-- R593 -/
  | watchRemove (src : Src) (value : Word)
  /-- R584 -/
  | jobRestart (src : Src) (slot : Nat) (value : Word)
  -- bring-up, resets, hot plug
  /-- R608 -/
  | bootStageComplete (r : StageReport)
  /-- R615: the cruise ends; `phase` is the code of the phase that failed first, 0 none -/
  | regionCruise (region : Nat) (phase : Nat) (r : StageReport)
  /-- R611 -/
  | moduleReset (src : Src) (value : Word)
  /-- R626 -/
  | retire (src : Src) (value : Word)
  /-- R626 -/
  | powerOff (src : Src) (value : Word)
  /-- R626 -/
  | powerOn (src : Src) (value : Word)
  /-- R616 -/
  | modResetGo (src : Src) (value : Word)
  /-- R622 -/
  | jobStart (src : Src) (value : Word)
  /-- R622 -/
  | jobOrigin (slot : Nat)
  /-- R623 -/
  | jobDrain (src : Src) (value : Word)
  -- ranger
  /-- R646 -/
  | rangerRestart (src : Src) (value : Word)
  /-- R665 -/
  | presentLoopChange (closed : Bool)
  /-- R584 -/
  | stagingCheckDone (slot : Nat)
  /-- R395: `data` is what the wrapper shifted out -/
  | wrapperInstructionDone (stack : Nat) (data : Word)
  /-- R406: lanes and GT/s reached, devices configured and left, capacity in bytes; `up` false when training failed -/
  | cxlTrainingDone (port : Nat) (up : Bool) (width : Nat) (rate : Nat) (devices : Nat) (unsupported : Nat) (bytes : Nat)
  /-- R461: `failing` lists the lanes that fail the test -/
  | retrainComplete (port : Nat) (failing : List Nat)
  /-- R480 -/
  | roceDisconnect (qp : Nat)
  -- events of power, the ranger and the test path that carry nothing
  /-- R561 -/
  | inputUndervoltage
  /-- R667 -/
  | inputOvervoltage
  /-- R667 -/
  | inputReclose
  /-- R567 -/
  | chrysalisTarget
  /-- R569 -/
  | wakeComplete
  /-- R592 -/
  | katIdleTimer
  /-- R592 -/
  | katWatchTimer
  /-- R654 -/
  | nextTestDue
  /-- R625 -/
  | powerContactsMated
  /-- R625 -/
  | prechargeComplete
  /-- R618 -/
  | resetQuiet
  /-- R618 -/
  | drainLimitExpiry
  /-- R627 -/
  | matedOpen
  /-- R635 -/
  | watchdogExpiry
  /-- R649 -/
  | licenceExpiry
  /-- R651 -/
  | logbookFlush
  /-- R625 -/
  | busBelow700V
  /-- R625 -/
  | busRestored
  /-- R607 -/
  | standbyPowerLoss
deriving DecidableEq, Repr

end Sys2Proof
end

