-- ==== Sys2Proof/Decode.lean ====
section
/-! DEFINITION. The reading of table words. The module is a block: no row of spec/opcode_table.json gives a command any bits,
so no word spells a command. -/

namespace Sys2Proof

/-- The command that a word of the table's bits spells: none, since the table gives no row bits. Log 140 (DESIGN CHOICE). -/
def decodeTableWord (_nbits _w : Nat) : Option Instr := none

end Sys2Proof
end

