-- ==== Sys2Proof/Machine/Bits.lean ====
section
/-! DEFINITION. Bit fields, byte order and saturating counts: R3 numbers bits from the least significant, R4 stores
multi-byte values little-endian. -/

namespace Sys2Proof.Machine

open Sys2Proof

/-- The field `[hi:lo]` of a natural number read as bits (R3). -/
def natBits (hi lo w : Nat) : Nat := w / 2 ^ lo % 2 ^ (hi + 1 - lo)

/-- The field `[hi:lo]` of a word, as a number (R3). -/
def bits {n : Nat} (hi lo : Nat) (w : BitVec n) : Nat := natBits hi lo w.toNat

/-- Bit `k` of a word (R3). -/
def bit {n : Nat} (k : Nat) (w : BitVec n) : Bool := w.getLsbD k

/-- The value `v` placed in field `[hi:lo]`, cut to the field's width. -/
def field (hi lo v : Nat) : Nat := v % 2 ^ (hi + 1 - lo) * 2 ^ lo

/-- The mask of field `[hi:lo]`. -/
def mask (hi lo : Nat) : Nat := (2 ^ (hi + 1 - lo) - 1) * 2 ^ lo

/-- The word with field `[hi:lo]` replaced by `v`, every other bit kept. -/
def setBits {n : Nat} (hi lo v : Nat) (w : BitVec n) : BitVec n :=
  BitVec.ofNat n (w.toNat - bits hi lo w * 2 ^ lo + field hi lo v)

/-- One or zero. -/
def ofBool (b : Bool) : Nat := if b then 1 else 0

/-- A counter that stops at the largest value of `w` bits. -/
def satAdd (w a b : Nat) : Nat := min (a + b) (2 ^ w - 1)

/-- The word with the saturating counter in field `[hi:lo]` raised by `v`. -/
def satField {n : Nat} (hi lo v : Nat) (w : BitVec n) : BitVec n :=
  setBits hi lo (satAdd (hi + 1 - lo) (bits hi lo w) v) w

/-- The number whose little-endian bytes are `bs` (R4). -/
def ofLE : Bytes → Nat
  | [] => 0
  | b :: bs => b.toNat + 256 * ofLE bs

/-- The `n` little-endian bytes of `v` (R4). -/
def toLE : Nat → Nat → Bytes
  | 0, _ => []
  | n + 1, v => BitVec.ofNat 8 v :: toLE n (v / 256)

/-- The number whose big-endian bytes are `bs`. -/
def ofBE (bs : Bytes) : Nat := ofLE bs.reverse

/-- The `n` big-endian bytes of `v`. -/
def toBE (n v : Nat) : Bytes := (toLE n v).reverse

/-- `n` bytes of `bs` from byte `off`; bytes past the end are zero. -/
def slice (bs : Bytes) (off n : Nat) : Bytes :=
  let got := (bs.drop off).take n
  got ++ List.replicate (n - got.length) 0

/-- The little-endian number in `n` bytes of `bs` at byte `off`. -/
def leAt (bs : Bytes) (off n : Nat) : Nat := ofLE (slice bs off n)

/-- `bs` with the bytes `v` written over it at byte `off`. -/
def splice (bs : Bytes) (off : Nat) (v : Bytes) : Bytes :=
  slice bs 0 off ++ v ++ bs.drop (off + v.length)

/-- `bs` cut into pieces of `n` bytes; `fuel` bounds the number of pieces. -/
def piecesAux (n : Nat) : Nat → Bytes → List Bytes
  | 0, _ => []
  | _ + 1, [] => []
  | fuel + 1, bs => bs.take n :: piecesAux n fuel (bs.drop n)

/-- `bs` cut into pieces of `n` bytes, the last perhaps shorter. -/
def pieces (n : Nat) (bs : Bytes) : List Bytes := piecesAux n bs.length bs

/-- `a ÷ b` rounded up. -/
def ceilDiv (a b : Nat) : Nat := (a + b - 1) / b

/-- The two's-complement value of the low `w` bits of `v`. -/
def signed (w v : Nat) : Int :=
  let u := v % 2 ^ w
  if u < 2 ^ (w - 1) then u else (u : Int) - 2 ^ w

/-- The `w`-bit two's-complement encoding of an integer, wrapped. -/
def unsigned (w : Nat) (v : Int) : Nat := (v % (2 ^ w : Int)).toNat

end Sys2Proof.Machine
end

