-- ==== Sys2Proof/Machine/Crc.lean ====
section
/-! DEFINITION. The two cyclic redundancy checks: CRC-32C (R45, R52, R254, R369, R482) and CRC-64/XZ (R454). -/

namespace Sys2Proof.Machine

open Sys2Proof

/-- `n` shifts of a reflected CRC register with polynomial `poly`. -/
def crcShift {w : Nat} (poly : BitVec w) : Nat → BitVec w → BitVec w
  | 0, r => r
  | n + 1, r => crcShift poly n (if bit 0 r then (r >>> 1) ^^^ poly else r >>> 1)

/-- A reflected CRC over bytes, from register value `r`. -/
def crcFold {w : Nat} (poly : BitVec w) (r : BitVec w) (bs : Bytes) : BitVec w :=
  bs.foldl (fun r b => crcShift poly 8 (r ^^^ b.setWidth w)) r

/-- CRC-32C: polynomial 0x1EDC6F41 reflected, initial value and final XOR all ones. Log 160 (PRESUMED). -/
def crc32c (bs : Bytes) : BitVec 32 := ~~~ crcFold 0x82F63B78#32 0xFFFFFFFF#32 bs

/-- CRC-64/XZ as R454 gives it. Log 160 (PRESUMED). -/
def crc64 (bs : Bytes) : Word := ~~~ crcFold 0xC96C5795D7870F42#64 0xFFFFFFFFFFFFFFFF#64 bs

end Sys2Proof.Machine
end

