-- ==== Sys2Proof/Config.lean ====
section
/-! DEFINITION. What an implementation fixes and the spec does not: constants without a body, so that nothing can be
proved about their values. Each is named in the assumption log. -/

namespace Sys2Proof.Config

open Sys2Proof

/-- The byte that address `a` of a memory holds once its contents are undefined; `k` numbers the occasion (R71, R122,
R343, R368). Log 3 (DESIGN CHOICE). -/
opaque freeByte (k a : Nat) : Byte

/-- The 64-bit value number `k` that the spec leaves undefined (R386 and others). Log 3 (DESIGN CHOICE). -/
opaque freeWord (k : Nat) : Word

/-- Row `r` of an accumulator file after an event that leaves the accumulators undefined (R122). Log 3 (DESIGN CHOICE). -/
opaque freeRow (k r : Nat) : BitVec 3840

/-- Which of the binary32 values within 2 ulp a module produces for operation `op` on the operand's bits (R223).
Log 13 (DESIGN CHOICE). -/
opaque ulpPick (op : Nat) (operand : BitVec 64) : Nat

/-- The fuses (R13): serial number, MAC address of a port, silicon stepping and carrier build. Log 76 (DESIGN CHOICE). -/
opaque serial : Word
/-- Log 76 (DESIGN CHOICE). -/
opaque mac (port : Nat) : BitVec 48
/-- Log 76 (DESIGN CHOICE). -/
opaque stepping : Byte
/-- Log 76 (DESIGN CHOICE). -/
opaque carrier : Byte

/-- The wrapper instruction, with its data, is a hard repair: its channel, row and repair kind (R396).
Log 104 (DESIGN CHOICE). -/
opaque hardRepair (instruction : Nat) (data : Word) : Option (Nat × Nat × Nat)

/-- The public key in a release key slot (R638), 32 bytes. Log 76 (DESIGN CHOICE). -/
opaque releaseKey (slot : Nat) : Bytes

/-- The secret seed of the identity key and the module's certificate (R639, R641). Log 76 (DESIGN CHOICE). -/
opaque identitySeed : Bytes
/-- Log 76 (DESIGN CHOICE). -/
opaque certificate : Bytes

/-- The measure of the firmware that bank A left the factory with (R636, R642), 64 bytes. Log 76 (DESIGN CHOICE). -/
opaque factoryMeasure : Bytes

end Sys2Proof.Config
end

