-- ==== Sys2Proof/Machine/Geometry.lean ====
section
/-! DEFINITION. The geometry and numbering of cells, blocks, regions and clock halves (R15, R19, R21). -/

namespace Sys2Proof.Machine

open Sys2Proof

def rowOf (c : Nat) : Nat := c / 512
def colOf (c : Nat) : Nat := c % 512
def cellAt (r c : Nat) : Nat := r * 512 + c

/-- The cell lies on the grid of 288 rows and 480 columns (R15). -/
def onGrid (c : Nat) : Bool := decide (rowOf c < 288) && decide (colOf c < 480)

/-- The region of a cell (R15). -/
def regionOf (c : Nat) : Nat := rowOf c / 48 * 12 + colOf c / 40

/-- The clock half of a cell (R15, R19). -/
def halfOf (c : Nat) : Nat := regionOf c * 2 + (if colOf c % 40 < 20 then 0 else 1)

/-- The foreman of a cell's block (R15, R35). -/
def fmOf (c : Nat) : FmId := ⟨regionOf c, rowOf c % 48 / 8 * 5 + colOf c % 40 / 8⟩

/-- A cell's position within its block, 8 × row + column (R127). -/
def posOf (c : Nat) : Nat := rowOf c % 8 * 8 + colOf c % 8

/-- The key of a foreman in the foremen's table. -/
def fmKey (f : FmId) : Nat := f.region * 30 + f.block

/-- The foreman of a key. -/
def fmOfKey (k : Nat) : FmId := ⟨k / 30, k % 30⟩

/-- The foreman exists: 72 regions of 30 blocks (R15). -/
def fmOk (f : FmId) : Bool := decide (f.region < 72) && decide (f.block < 30)

def regionRow (r : Nat) : Nat := r / 12
def regionCol (r : Nat) : Nat := r % 12

/-- The wing of a region (R15). -/
def wingOf (r : Nat) : Nat := regionCol r / 6

/-- The first (north-west) cell of a region. -/
def regionCell (r : Nat) : Nat := cellAt (regionRow r * 48) (regionCol r * 40)

/-- The north-west cell of a block. -/
def blockCell (f : FmId) : Nat :=
  cellAt (regionRow f.region * 48 + f.block / 5 * 8) (regionCol f.region * 40 + f.block % 5 * 8)

/-- The cell at position `p` of a block. -/
def cellOfPos (f : FmId) (p : Nat) : Nat := blockCell f + p / 8 * 512 + p % 8

/-- The 64 cells of a block in ascending cell number. -/
def blockCells (f : FmId) : List Nat := (List.range 64).map (cellOfPos f)

/-- The 30 foremen of a region. -/
def regionFms (r : Nat) : List FmId := (List.range 30).map (fun b => ⟨r, b⟩)

/-- The clock half that holds the block: blocks whose columns 0 to 19 lie west and 20 to 39 east straddle it; the half is
that of the block's north-west cell (R15). -/
def fmHalf (f : FmId) : Nat := halfOf (blockCell f)

/-- The global block number, block-row × 60 + block-column (R15). -/
def globalBlock (f : FmId) : Nat := rowOf (blockCell f) / 8 * 60 + colOf (blockCell f) / 8

/-- The block row of a cell within its region, 0 to 239, and its column in it (R21). -/
def blockRowOf (c : Nat) : Nat := (fmOf c).block * 8 + rowOf c % 8

/-- The physical position of logical column `j` of a block row whose bad position is `b`, 8 when it has none (R21). -/
def physPos (b j : Nat) : Nat := if j < b then j else j + 1

end Sys2Proof.Machine
end

