-- ==== Sys2Proof/Machine/Tables.lean ====
section
/-! DEFINITION. Sparse tables in one canonical form: a list of (key, value) pairs with strictly rising keys and no entry
equal to what an unlisted key reads as. Register banks, memories and the tables of cells, foremen and regions use it. -/

namespace Sys2Proof.Machine

/-- A sparse table. -/
abbrev Tbl (α : Type) := List (Nat × α)

/-- The entry listed at key `k`. -/
def Tbl.find {α : Type} (k : Nat) : Tbl α → Option α
  | [] => none
  | (j, v) :: t => if j = k then some v else Tbl.find k t

/-- What key `k` reads as, `d` when unlisted. -/
def Tbl.get {α : Type} (d : α) (k : Nat) (t : Tbl α) : α := (t.find k).getD d

/-- The table without key `k`. -/
def Tbl.del {α : Type} (k : Nat) : Tbl α → Tbl α
  | [] => []
  | (j, v) :: t => if j = k then Tbl.del k t else (j, v) :: Tbl.del k t

/-- The table with `v` listed at key `k`, the keys kept rising. -/
def Tbl.put {α : Type} (k : Nat) (v : α) : Tbl α → Tbl α
  | [] => [(k, v)]
  | (j, w) :: t =>
    if k < j then (k, v) :: (j, w) :: t
    else if j = k then (k, v) :: t
    else (j, w) :: Tbl.put k v t

/-- The table in which key `k` reads as `v`; a value equal to the default `d` is not listed. -/
def Tbl.set {α : Type} [DecidableEq α] (d : α) (k : Nat) (v : α) (t : Tbl α) : Tbl α :=
  if v = d then t.del k else t.put k v

/-- The table with the value at key `k` changed by `f`. -/
def Tbl.upd {α : Type} [DecidableEq α] (d : α) (k : Nat) (f : α → α) (t : Tbl α) : Tbl α :=
  t.set d k (f (t.get d k))

/-- The keys rise strictly above `b`. -/
def Tbl.rising {α : Type} (b : Nat) : Tbl α → Bool
  | [] => true
  | (k, _) :: t => decide (b < k) && Tbl.rising k t

/-- The canonical form: strictly rising keys, and no entry equal to the default `d k` of its key. -/
def Tbl.wf {α : Type} [DecidableEq α] (d : Nat → α) : Tbl α → Bool
  | [] => true
  | (k, v) :: t => Tbl.rising k t && decide (v ≠ d k) && Tbl.wf d t

end Sys2Proof.Machine
end

