-- ==== Sys2Proof/Machine/RegMap.lean ====
section
/-! DEFINITION. The control-space map: the block ranges of R34 and R35, and one row for every register of the spec's
register tables with its address, its reset value and its fields' access codes (R10, R12, R13). -/

namespace Sys2Proof.Machine

open Sys2Proof

/-- A register, or an array of registers: the address of its first, how it repeats as (count, stride) from the outside in,
the reset value, and the masks of its RW, RWS and W1C fields. Every other field ignores writes (RO, reserved) or acts
without being held (WO). -/
structure RegRow where
  base : Nat
  dims : List (Nat × Nat) := []
  reset : Nat := 0
  rw   : Nat := 0
  rws  : Nat := 0
  w1c  : Nat := 0
deriving DecidableEq, Repr

/-- The offset is that of one of the row's registers. -/
def dimsHit : List (Nat × Nat) → Nat → Bool
  | [], off => off == 0
  | (n, st) :: r, off => decide (off / st < n) && dimsHit r (off % st)

def RegRow.hit (r : RegRow) (a : Nat) : Bool := decide (r.base ≤ a) && dimsHit r.dims (a - r.base)

/-- The blocks of R34 with the region blocks last: first and last address. -/
def blockRanges : List (Nat × Nat) :=
  [(0x0000_0000, 0x000E_FFFF), (0x0100_0000, 0x0147_FFFF)]

/-- The address lies in a block's range (R34). -/
def inBlock (a : Nat) : Bool := blockRanges.any (fun b => decide (b.1 ≤ a) && decide (a ≤ b.2))

def regionBase (r : Nat) : Nat := 0x0100_0000 + r * 0x1_0000
def fmBase (f : FmId) : Nat := regionBase f.region + 0x8000 + f.block * 0x200

/-- The address lies in a foreman's range (R35): its region and block. -/
def fmRange (a : Nat) : Option FmId :=
  if 0x0100_0000 ≤ a ∧ a ≤ 0x0147_FFFF then
    let off := (a - 0x0100_0000) % 0x1_0000
    if 0x8000 ≤ off ∧ off < 0xBC00 then some ⟨(a - 0x0100_0000) / 0x1_0000, (off - 0x8000) / 0x200⟩ else none
  else none

/-! The addresses that rules name. -/
namespace Reg

def imgCtrl : Nat := 0x000D_0000
def imgStatus : Nat := 0x000D_0008
def imgError : Nat := 0x000D_0010
def imgLen : Nat := 0x000D_0018
def imgStageBase : Nat := 0x000D_0020
def imgStageSize : Nat := 0x000D_0028
def imgProgress : Nat := 0x000D_0030
def imgRepair : Nat := 0x000D_0038
def imgPart (n : Nat) : Nat := 0x000D_0080 + n * 8
def imgPartId (n : Nat) : Nat := 0x000D_00C0 + n * 8
def imgMeasure (p w : Nat) : Nat := 0x000D_0100 + p * 0x40 + w * 8
def fltPolicy : Nat := 0x000E_0000
def fltLogStatus : Nat := 0x000E_0008
def fltLogSel : Nat := 0x000E_0010
def fltLogData (w : Nat) : Nat := 0x000E_0018 + w * 8
def fltKatCtrl : Nat := 0x000E_0040
def fltKatRun : Nat := 0x000E_0048
def fltKatStatus : Nat := 0x000E_0050
def fltWatchStatus : Nat := 0x000E_0058
def fltWatchSel : Nat := 0x000E_0060
def fltWatchEntry : Nat := 0x000E_0068
def fltMismatch : Nat := 0x000E_0070
def fltJob (n : Nat) : Nat := 0x000E_0100 + n * 0x20
def fltStepSel (n : Nat) : Nat := 0x000E_0108 + n * 0x20
def fltStepHi (n : Nat) : Nat := 0x000E_0110 + n * 0x20
def fltStepLo (n : Nat) : Nat := 0x000E_0118 + n * 0x20
def redStep (n : Nat) : Nat := 0x0006_0100 + n * 0x20
def beatCtrl : Nat := 0x0002_0000
def beatStatus : Nat := 0x0002_0008
def beatCounter : Nat := 0x0002_0010
def beatPeriod : Nat := 0x0002_0018
def beatPtpEpoch : Nat := 0x0002_0020
def beatTimeSec : Nat := 0x0002_0028
def beatTimeNs : Nat := 0x0002_0030
def beatSlack : Nat := 0x0002_0038
def beatEvents : Nat := 0x0002_0040
def beatOrigin (n : Nat) : Nat := 0x0002_0100 + n * 0x20
def beatSlot (n : Nat) : Nat := 0x0002_0108 + n * 0x20
def beatSlackTally (n : Nat) : Nat := 0x0002_0110 + n * 0x20
def skdCtrl : Nat := 0x0005_0000
def skdFault : Nat := 0x0005_0008
def skdDeck : Nat := 0x0005_0010
def skdProg (n : Nat) : Nat := 0x0005_0100 + n * 0x20
def skdLate (n : Nat) : Nat := 0x0005_0108 + n * 0x20
def skdBytes (n : Nat) : Nat := 0x0005_0110 + n * 0x20
def skdLists (n : Nat) : Nat := 0x0005_0118 + n * 0x20
def rgnStarve (r : Nat) : Nat := regionBase r + 0x300
def ethPortStatus (q : Nat) : Nat := 0x000A_0000 + q * 0x400
def ethPortCtrl (q : Nat) : Nat := 0x000A_0008 + q * 0x400
def ethVlan (q : Nat) : Nat := 0x000A_0010 + q * 0x400
def ethMac (q : Nat) : Nat := 0x000A_0018 + q * 0x400
def ethIp6Hi (q : Nat) : Nat := 0x000A_0020 + q * 0x400
def ethIp6Lo (q : Nat) : Nat := 0x000A_0028 + q * 0x400
def ethIp4 (q : Nat) : Nat := 0x000A_0030 + q * 0x400
def ethRx (q : Nat) : Nat := 0x000A_0038 + q * 0x400
def ethTx (q : Nat) : Nat := 0x000A_0040 + q * 0x400
def ethDrops (q : Nat) : Nat := 0x000A_0048 + q * 0x400
def ethLldp (q : Nat) : Nat := 0x000A_0050 + q * 0x400
def ethPtp (q : Nat) : Nat := 0x000A_0058 + q * 0x400
def ethAcl (n : Nat) : Nat := 0x000A_1000 + n * 0x20
def ethKct : Nat := 0x000A_1200
def ethRoce : Nat := 0x000A_1208
def bulkAddr (w : Nat) : Nat := 0x000A_8000 + w * 0x40
def bulkLen (w : Nat) : Nat := 0x000A_8008 + w * 0x40
def bulkStride (w : Nat) : Nat := 0x000A_8010 + w * 0x40
def bulkCtrl (w : Nat) : Nat := 0x000A_8018 + w * 0x40
def bulkStatus (w : Nat) : Nat := 0x000A_8020 + w * 0x40
def bulkProgress (w : Nat) : Nat := 0x000A_8028 + w * 0x40
def bulkRejects (w : Nat) : Nat := 0x000A_8030 + w * 0x40
def redCtrl : Nat := 0x0006_0000
def redLayerSel : Nat := 0x0006_0008
def redLayerInfo : Nat := 0x0006_0010
def redDigestHi : Nat := 0x0006_0018
def redDigestLo : Nat := 0x0006_0020
def redFault : Nat := 0x0006_0028
def redSlotStatus (n : Nat) : Nat := 0x0006_0108 + n * 0x20
def redRounds (n : Nat) : Nat := 0x0006_0110 + n * 0x20
def redLate (n : Nat) : Nat := 0x0006_0118 + n * 0x20
def yrdWaitLimit : Nat := 0x0004_0000
def yrdCmd : Nat := 0x0004_0008
def yrdArg : Nat := 0x0004_0010
def yrdCmdStatus : Nat := 0x0004_0018
def yrdFault : Nat := 0x0004_0020
def yrdObjSel : Nat := 0x0004_0028
def yrdObjInfo : Nat := 0x0004_0030
def yrdObjStamp : Nat := 0x0004_0038
def yrdTally : Nat := 0x0004_0040
def yrdMoves : Nat := 0x0004_0048
def yrdPool (t : Nat) : Nat := 0x0004_0100 + t * 8
def yrdQuota (n t : Nat) : Nat := 0x0004_0200 + n * 0x20 + t * 8
def stkStatus (k : Nat) : Nat := 0x0007_0000 + k * 0x400
def stkMapout (k : Nat) : Nat := 0x0007_0008 + k * 0x400
def stkErrors (k : Nat) : Nat := 0x0007_0010 + k * 0x400
def stkGeometry (k : Nat) : Nat := 0x0007_0018 + k * 0x400
def stkWrapCmd (k : Nat) : Nat := 0x0007_0020 + k * 0x400
def stkWrapData (k : Nat) : Nat := 0x0007_0028 + k * 0x400
def brdStatus : Nat := 0x0008_0000
def brdFailed : Nat := 0x0008_0008
def brdErrors : Nat := 0x0008_0010
def brdSpeedLimit : Nat := 0x0008_0018
def cxlPortStatus (p : Nat) : Nat := 0x0008_8000 + p * 0x40
def cxlPortExtents (p : Nat) : Nat := 0x0008_8008 + p * 0x40
def cxlDcd (p : Nat) : Nat := 0x0008_8010 + p * 0x40
def cxlErrors (p : Nat) : Nat := 0x0008_8018 + p * 0x40
def cxlCtrl : Nat := 0x0008_8100
def skyStand : Nat := 0x0009_8000
def skyCoord : Nat := 0x0009_8008
def skyAdmit : Nat := 0x0009_8010
def skyPortStatus (p : Nat) : Nat := 0x0009_0000 + p * 0x800
def skyPortCtrl (p : Nat) : Nat := 0x0009_0008 + p * 0x800
def skyPeer (p : Nat) : Nat := 0x0009_0010 + p * 0x800
def skyLinkErrors (p : Nat) : Nat := 0x0009_0018 + p * 0x800
def skyFec (p : Nat) : Nat := 0x0009_0020 + p * 0x800
def skyTx (p : Nat) : Nat := 0x0009_0028 + p * 0x800
def skyRx (p : Nat) : Nat := 0x0009_0030 + p * 0x800
def skyHeld (p : Nat) : Nat := 0x0009_0038 + p * 0x800
def fmnSreg (f : FmId) (n : Nat) : Nat := fmBase f + n * 8
def fmnNumerics (f : FmId) : Nat := fmBase f + 0x100
def fmnFetchStatus (f : FmId) : Nat := fmBase f + 0x140
def fmnFetchTally (f : FmId) : Nat := fmBase f + 0x148
def fmnProgStatus (f : FmId) : Nat := fmBase f + 0x1C0
def rgnNumerics (r : Nat) : Nat := regionBase r + 0x100
def rgnNumericsLast (r : Nat) : Nat := regionBase r + 0x108
def rgnFabricCtrl (r : Nat) : Nat := regionBase r + 0x200
def rgnFabricStatus (r : Nat) : Nat := regionBase r + 0x208
def rgnXchgStall (r : Nat) : Nat := regionBase r + 0x210
def rgnKerfTally (r : Nat) : Nat := regionBase r + 0x218
def rgnAbsorbLog (r : Nat) : Nat := regionBase r + 0x220
def rgnBarrierStatus (r : Nat) : Nat := regionBase r + 0x228
def rgnDetour (r n : Nat) : Nat := regionBase r + 0x240 + n * 8
def fmnBarrierStatus (f : FmId) : Nat := fmBase f + 0x180
def fmnBarrierMissing (f : FmId) : Nat := fmBase f + 0x188
def fmnSnag (f : FmId) : Nat := fmBase f + 0x190
def fmnAbsorbed (f : FmId) : Nat := fmBase f + 0x198
def pwrCap : Nat := 0x0003_0000
def pwrRamp : Nat := 0x0003_0008
def pwrInput : Nat := 0x0003_0010
def pwrFloor : Nat := 0x0003_0018
def pwrStatus : Nat := 0x0003_0020
def pwrOpLimit : Nat := 0x0003_0028
def pwrAlarm : Nat := 0x0003_0030
def pwrChrysalis : Nat := 0x0003_0038
def pwrEnergyModule : Nat := 0x0003_0040
def pwrEnergyIdle : Nat := 0x0003_0048
def pwrEnergyJob (n : Nat) : Nat := 0x0003_0100 + n * 0x20
def pwrEnergyLoad (n : Nat) : Nat := 0x0003_0108 + n * 0x20
def pwrSlot (n : Nat) : Nat := 0x0003_0110 + n * 0x20
def pwrRegion (r : Nat) : Nat := 0x0003_1000 + r * 8
def rgnBreaker (r : Nat) : Nat := regionBase r + 0x400
def rgnBreakerClear (r : Nat) : Nat := regionBase r + 0x408
def rgnDroop (r : Nat) : Nat := regionBase r + 0x410
def modId : Nat := 0x0000_0000
def modSerial : Nat := 0x0000_0008
def modBootStage : Nat := 0x0000_0010
def modState : Nat := 0x0000_0018
def modCtrl : Nat := 0x0000_0020
def modReset : Nat := 0x0000_0028
def modResetStatus : Nat := 0x0000_0030
def modJobCtrl : Nat := 0x0000_0038
def modHotplug : Nat := 0x0000_0040
def modResetCause : Nat := 0x0000_0048
def modCruiseA : Nat := 0x0000_0050
def modCruiseB : Nat := 0x0000_0058
def rgnMap (r : Nat) : Nat := regionBase r
def rgnCruise (r : Nat) : Nat := regionBase r + 8
def rgnSpare (r k : Nat) : Nat := regionBase r + 0x40 + k * 8
def rngStatus : Nat := 0x0001_0000
def rngMbox : Nat := 0x0001_0008
def rngCtrl : Nat := 0x0001_0010
def rngBank (k : Nat) : Nat := 0x0001_0020 + k * 8
def secIdPub (w : Nat) : Nat := 0x000B_0000 + w * 8
def secRelease : Nat := 0x000B_0020
def secOwner : Nat := 0x000B_0028
def secOwnerPub (n w : Nat) : Nat := 0x000B_0100 + n * 0x20 + w * 8
def secLicence : Nat := 0x000B_0200
def secLicenceExpiry : Nat := 0x000B_0208
def logStatus : Nat := 0x000C_0000
def logPower : Nat := 0x000C_0008
def logEnergy : Nat := 0x000C_0010
def logCycles : Nat := 0x000C_0018
def logStressSel : Nat := 0x000C_0020
def logStress : Nat := 0x000C_0028
def logTimeSeen : Nat := 0x000C_0030
def logNextTest : Nat := 0x000C_0038
def logJournalSel : Nat := 0x000C_0040
def skidderSlots : Nat := 0x0005_0100
def reducerSlots : Nat := 0x0006_0100
def jobSlots : Nat := 0x000E_0100
def logJournalData (w : Nat) : Nat := 0x000C_0048 + w * 8

end Reg

/-- The dimensions of the registers of every region, and of every foreman. -/
def perRegion : List (Nat × Nat) := [(72, 0x1_0000)]
def perForeman : List (Nat × Nat) := [(72, 0x1_0000), (30, 0x200)]
def regionOff (o : Nat) : Nat := 0x0100_0000 + o
def fmOff (o : Nat) : Nat := 0x0100_8000 + o

/-- IMG_ (R76 to R79). -/
def imgRows : List RegRow :=
  [ { base := Reg.imgCtrl, rw := mask 11 8 },
    { base := Reg.imgStatus },
    { base := Reg.imgError, reset := field 63 48 0xFFFF },
    { base := Reg.imgLen, rw := mask 32 0 },
    { base := Reg.imgStageBase },
    { base := Reg.imgStageSize, reset := 0x1_0000_0000 },
    { base := Reg.imgProgress },
    { base := Reg.imgRepair },
    { base := 0x000D_0080, dims := [(8, 8)] },
    { base := 0x000D_00C0, dims := [(8, 8)] },
    { base := 0x000D_0100, dims := [(8, 0x40), (8, 8)] } ]

/-- FLT_ (R603, R604, R606). -/
def fltRows : List RegRow :=
  [ { base := Reg.fltPolicy, reset := field 15 8 2 + field 3 3 1 + field 1 1 1 + field 0 0 1,
      rws := mask 15 8 + mask 3 0 },
    { base := Reg.fltLogStatus },
    { base := Reg.fltLogSel, rw := mask 11 0 },
    { base := 0x000E_0018, dims := [(4, 8)] },
    { base := Reg.fltKatCtrl, reset := field 63 32 3000 + field 31 16 50, rws := mask 63 16 },
    { base := Reg.fltKatRun, rw := mask 59 44 },
    { base := Reg.fltKatStatus },
    { base := Reg.fltWatchStatus },
    { base := Reg.fltWatchSel, rw := mask 7 0 },
    { base := Reg.fltWatchEntry },
    { base := Reg.fltMismatch },
    { base := 0x000E_0100, dims := [(8, 0x20)] },
    { base := 0x000E_0108, dims := [(8, 0x20)], rw := mask 9 0 },
    { base := 0x000E_0110, dims := [(8, 0x20)] },
    { base := 0x000E_0118, dims := [(8, 0x20)] } ]

/-- FMN_ (R130, R193, R261, R262, R299). -/
def fmnRows : List RegRow :=
  [ { base := fmOff 0, dims := perForeman ++ [(32, 8)] },
    { base := fmOff 0x100, dims := perForeman },
    { base := fmOff 0x140, dims := perForeman },
    { base := fmOff 0x148, dims := perForeman },
    { base := fmOff 0x180, dims := perForeman },
    { base := fmOff 0x188, dims := perForeman },
    { base := fmOff 0x190, dims := perForeman },
    { base := fmOff 0x198, dims := perForeman },
    { base := fmOff 0x1C0, dims := perForeman } ]

/-- RGN_ (R194, R195, R296 to R298). -/
def rgnRows : List RegRow :=
  [ { base := regionOff 0x100, dims := perRegion },
    { base := regionOff 0x108, dims := perRegion },
    { base := regionOff 0x200, dims := perRegion, reset := field 63 32 0x2000, rw := mask 63 32 + mask 1 1 },
    { base := regionOff 0x208, dims := perRegion },
    { base := regionOff 0x210, dims := perRegion },
    { base := regionOff 0x218, dims := perRegion },
    { base := regionOff 0x220, dims := perRegion },
    { base := regionOff 0x228, dims := perRegion },
    { base := regionOff 0x240, dims := perRegion ++ [(4, 8)] },
    { base := regionOff 0x300, dims := perRegion } ]

/-- YRD_ (R379 to R383). -/
def yrdRows : List RegRow :=
  [ { base := Reg.yrdWaitLimit, reset := 0x1000, rw := mask 31 0 },
    { base := Reg.yrdCmd },
    { base := Reg.yrdArg, rw := mask 18 0 },
    { base := Reg.yrdCmdStatus },
    { base := Reg.yrdFault },
    { base := Reg.yrdObjSel, rw := mask 23 0 },
    { base := Reg.yrdObjInfo },
    { base := Reg.yrdObjStamp },
    { base := Reg.yrdTally },
    { base := Reg.yrdMoves },
    { base := 0x0004_0108, dims := [(3, 8)] },
    { base := 0x0004_0208, dims := [(8, 0x20), (3, 8)], rw := mask 31 0 } ]

/-- STK_, BRD_ and CXL_ (R408 to R410). -/
def memRows : List RegRow :=
  [ { base := 0x0007_0000, dims := [(24, 0x400)] },
    { base := 0x0007_0008, dims := [(24, 0x400)], rws := mask 31 0 },
    { base := 0x0007_0010, dims := [(24, 0x400)] },
    { base := 0x0007_0018, dims := [(24, 0x400)] },
    { base := 0x0007_0020, dims := [(24, 0x400)], rw := mask 39 0 },
    { base := 0x0007_0028, dims := [(24, 0x400)], rw := mask 63 0 },
    { base := Reg.brdStatus },
    { base := Reg.brdFailed },
    { base := Reg.brdErrors },
    { base := Reg.brdSpeedLimit, reset := 6400, rws := mask 15 0 },
    { base := 0x0008_8000, dims := [(4, 0x40)] },
    { base := 0x0008_8008, dims := [(4, 0x40)] },
    { base := 0x0008_8010, dims := [(4, 0x40)] },
    { base := 0x0008_8018, dims := [(4, 0x40)] },
    { base := Reg.cxlCtrl } ]

/-- SKY_ (R473, R474). -/
def skyRows : List RegRow :=
  [ { base := Reg.skyStand, rw := mask 63 32 + mask 20 16 + mask 11 8 + mask 3 0 },
    { base := Reg.skyCoord, rw := mask 20 16 + mask 11 8 + mask 3 0 },
    { base := Reg.skyAdmit, rw := mask 63 32 },
    { base := 0x0009_0000, dims := [(16, 0x800)] },
    { base := 0x0009_0008, dims := [(16, 0x800)], rws := mask 1 1 },
    { base := 0x0009_0010, dims := [(16, 0x800)] },
    { base := 0x0009_0018, dims := [(16, 0x800)] },
    { base := 0x0009_0020, dims := [(16, 0x800)] },
    { base := 0x0009_0028, dims := [(16, 0x800)] },
    { base := 0x0009_0030, dims := [(16, 0x800)] },
    { base := 0x0009_0038, dims := [(16, 0x800)] } ]

/-- RED_ (R448, R449). -/
def redRows : List RegRow :=
  [ { base := Reg.redCtrl, rw := mask 7 0 },
    { base := Reg.redLayerSel, rw := mask 14 0 },
    { base := Reg.redLayerInfo },
    { base := Reg.redDigestHi },
    { base := Reg.redDigestLo },
    { base := Reg.redFault },
    { base := 0x0006_0100, dims := [(8, 0x20)], rw := mask 63 0 },
    { base := 0x0006_0108, dims := [(8, 0x20)] },
    { base := 0x0006_0110, dims := [(8, 0x20)] },
    { base := 0x0006_0118, dims := [(8, 0x20)] } ]

/-- SKD_ (R332 to R334). -/
def skdRows : List RegRow :=
  [ { base := Reg.skdCtrl },
    { base := Reg.skdFault },
    { base := Reg.skdDeck },
    { base := 0x0005_0100, dims := [(8, 0x20)] },
    { base := 0x0005_0108, dims := [(8, 0x20)] },
    { base := 0x0005_0110, dims := [(8, 0x20)] },
    { base := 0x0005_0118, dims := [(8, 0x20)] } ]

/-- ETH_ (R507, R508). -/
def ethRows : List RegRow :=
  [ { base := 0x000A_0000, dims := [(2, 0x400)] },
    { base := 0x000A_0008, dims := [(2, 0x400)], reset := field 5 3 4 + field 2 0 3, rws := mask 31 30 + mask 5 0 },
    { base := 0x000A_0010, dims := [(2, 0x400)], reset := 1, rws := mask 11 0 },
    { base := 0x000A_0018, dims := [(2, 0x400)] },
    { base := 0x000A_0020, dims := [(2, 0x400)], rws := mask 63 0 },
    { base := 0x000A_0028, dims := [(2, 0x400)], rws := mask 63 0 },
    { base := 0x000A_0030, dims := [(2, 0x400)], reset := field 47 40 64, rws := mask 47 40 + mask 32 0 },
    { base := 0x000A_0038, dims := [(2, 0x400)] },
    { base := 0x000A_0040, dims := [(2, 0x400)] },
    { base := 0x000A_0048, dims := [(2, 0x400)] },
    { base := 0x000A_0050, dims := [(2, 0x400)] },
    { base := 0x000A_0058, dims := [(2, 0x400)], reset := 1, rws := mask 15 8 + mask 0 0 },
    { base := 0x000A_1000, dims := [(16, 0x20)], rws := mask 63 0 },
    { base := 0x000A_1008, dims := [(16, 0x20)], rws := mask 63 0 },
    { base := 0x000A_1010, dims := [(16, 0x20)], rws := mask 63 62 + mask 7 0 },
    { base := Reg.ethKct, reset := field 47 32 0xBE00, rws := mask 0 0 },
    { base := Reg.ethRoce, reset := 1, rws := mask 0 0 } ]

/-- BULK_ (R509). -/
def bulkRows : List RegRow :=
  [ { base := 0x000A_8000, dims := [(4, 0x40)], rw := mask 63 0 },
    { base := 0x000A_8008, dims := [(4, 0x40)], rw := mask 39 0 },
    { base := 0x000A_8010, dims := [(4, 0x40)], rw := mask 63 0 },
    { base := 0x000A_8018, dims := [(4, 0x40)], rw := mask 2 2 },
    { base := 0x000A_8020, dims := [(4, 0x40)] },
    { base := 0x000A_8028, dims := [(4, 0x40)] },
    { base := 0x000A_8030, dims := [(4, 0x40)] } ]

/-- BEAT_ (R538). -/
def beatRows : List RegRow :=
  [ { base := Reg.beatCtrl, reset := 3, rws := mask 2 0 },
    { base := Reg.beatStatus, w1c := mask 8 8 },
    { base := Reg.beatCounter },
    { base := Reg.beatPeriod },
    { base := Reg.beatPtpEpoch, rws := mask 63 0 },
    { base := Reg.beatTimeSec, rw := mask 55 0 },
    { base := Reg.beatTimeNs, rw := mask 29 0 },
    { base := Reg.beatSlack },
    { base := Reg.beatEvents },
    { base := 0x0002_0100, dims := [(8, 0x20)], rw := mask 63 0 },
    { base := 0x0002_0108, dims := [(8, 0x20)] },
    { base := 0x0002_0110, dims := [(8, 0x20)] } ]

/-- PWR_ and the RGN_ power registers (R573, R574). -/
def pwrRows : List RegRow :=
  [ { base := Reg.pwrCap, reset := 840, rws := mask 9 0 },
    { base := Reg.pwrRamp, reset := 20, rws := mask 9 0 },
    { base := Reg.pwrInput },
    { base := Reg.pwrFloor },
    { base := Reg.pwrStatus },
    { base := Reg.pwrOpLimit, rws := mask 3 0 },
    { base := Reg.pwrAlarm, w1c := mask 3 1 },
    { base := Reg.pwrChrysalis, rw := mask 31 0 },
    { base := Reg.pwrEnergyModule },
    { base := Reg.pwrEnergyIdle },
    { base := 0x0003_0100, dims := [(8, 0x20)] },
    { base := 0x0003_0108, dims := [(8, 0x20)] },
    { base := 0x0003_0110, dims := [(8, 0x20)] },
    { base := 0x0003_1000, dims := [(72, 8)] },
    { base := regionOff 0x400, dims := perRegion },
    { base := regionOff 0x408, dims := perRegion },
    { base := regionOff 0x410, dims := perRegion } ]

/-- MOD_ and the region cruise registers (R629 to R632). -/
def modRows : List RegRow :=
  [ { base := Reg.modId, reset := field 63 48 0x5657 + field 47 32 0x72A0 },
    { base := Reg.modSerial },
    { base := Reg.modBootStage },
    { base := Reg.modState },
    { base := Reg.modCtrl, rw := mask 62 62 },
    { base := Reg.modReset, rw := mask 62 56 + mask 17 0 },
    { base := Reg.modResetStatus },
    { base := Reg.modJobCtrl, rw := mask 61 59 + mask 11 0 },
    { base := Reg.modHotplug },
    { base := Reg.modResetCause },
    { base := Reg.modCruiseA },
    { base := Reg.modCruiseB },
    { base := regionOff 0, dims := perRegion },
    { base := regionOff 8, dims := perRegion },
    { base := regionOff 0x40, dims := perRegion ++ [(15, 8)] } ]

/-- RNG_, SEC_ and LOG_ (R656 to R658). -/
def rngRows : List RegRow :=
  [ { base := Reg.rngStatus },
    { base := Reg.rngMbox },
    { base := Reg.rngCtrl },
    { base := 0x0001_0020, dims := [(2, 8)] },
    { base := 0x000B_0000, dims := [(4, 8)] },
    { base := Reg.secRelease },
    { base := Reg.secOwner },
    { base := 0x000B_0100, dims := [(4, 0x20), (4, 8)] },
    { base := Reg.secLicence },
    { base := Reg.secLicenceExpiry },
    { base := Reg.logStatus },
    { base := Reg.logPower },
    { base := Reg.logEnergy },
    { base := Reg.logCycles },
    { base := Reg.logStressSel, rw := mask 9 0 },
    { base := Reg.logStress },
    { base := Reg.logTimeSeen },
    { base := Reg.logNextTest, reset := field 63 48 90, rws := mask 63 0 },
    { base := Reg.logJournalSel, rw := mask 25 0 },
    { base := 0x000C_0048, dims := [(8, 8)] } ]

/-- Every register of the control space. -/
def regRows : List RegRow := imgRows ++ fltRows ++ fmnRows ++ rgnRows ++ yrdRows ++ memRows ++ skyRows ++ redRows ++ skdRows ++ ethRows ++
  bulkRows ++ beatRows ++ pwrRows ++ modRows ++ rngRows

/-- The row of an address, if a register lies there. -/
def regRow (a : Nat) : Option RegRow := regRows.find? (fun r => r.hit a)

/-- The reset value of the register at `a` (R13); zero where none lies (R9). -/
def resetOf (a : Nat) : Word :=
  match regRow a with
  | some r => BitVec.ofNat 64 r.reset
  | none => 0

end Sys2Proof.Machine
end

