-- ==== Sys2Proof/Machine/State.lean ====
section
/-! DEFINITION. The state of the module as plain data: the control-space registers, the cells, foremen, regions, mesh,
skidder, tiers and yarder, reducer, skyline, Ethernet, beat, power, faults, boot and ranger, the messages in flight
inside the module, what it has sent out, and the queue of waiting commands. -/

namespace Sys2Proof.Machine

open Sys2Proof

/-- A byte memory. `cells` lists bytes in canonical form; an unlisted byte reads as 0, or as an undefined byte inside a
range of `lost` (start, length, occasion, number of the first undefined byte of that occasion). The ranges are disjoint. -/
structure Mem where
  cells : Tbl Byte
  lost  : List (Nat × Nat × Nat × Nat)
deriving DecidableEq, Repr

/-- A memory with nothing listed. -/
def Mem.empty : Mem := ⟨[], []⟩

/-! ## The cell (R80 to R130, R199 to R229) -/

/-- The two views of an accumulator row (R199). -/
inductive View where
  | w40 | b32
deriving DecidableEq, Repr

/-- An entry of the finished-tile queue (R211): the entries of 64 × width in tile element order, encoded in the view. -/
structure QEntry where
  width : Nat
  view  : View
  tile  : Nat
  word  : BitVec 32
  vals  : List Nat
deriving DecidableEq, Repr

/-- A step of the step table (R86). -/
abbrev Step := BitVec 128

/-- Why an engine's running step waits (R104, R107, R146, R213, R422, R423, R437). -/
inductive Hold where
  | none | queueFull | tileWait | outbox | dHold
deriving DecidableEq, Repr

/-- An issued step on an engine (R100): its table index and bits, the sequence index of its first execution, whether it
is in the last iteration, the epoch and execution number it was issued with (R179), the layout in force at issue (R201),
how far it has come, and the lane group of src_b that hold_b keeps (R217). -/
structure Run where
  index  : Nat
  bits   : Step
  seq0   : Nat
  lastIter : Bool
  epoch  : BitVec 32
  exec0  : BitVec 32
  width  : Nat
  view   : View
  next   : Nat
  hold   : Hold
  done   : Bool
  heldB  : Option Bytes
deriving DecidableEq, Repr

/-- An engine's running and pending step (R100). -/
structure EngSt where
  running : Option Run
  pending : Option Run
deriving DecidableEq, Repr

/-- The looper's states (R116). -/
inductive LoopSt where
  | unconfigured | idle | running | halted | snag
deriving DecidableEq, Repr

/-- An entry of the loop stack (R112): the body's first step, the remaining count and the loop_count it began with. -/
structure LoopEnt where
  start     : Nat
  remaining : Nat
  count     : Nat
deriving DecidableEq, Repr

/-- A running EXCHANGE step's progress (R273 to R277): whether it needs an exchange epoch and which half-sync entry of the
cell it paired with, whether its sends have begun, the SEND and SCORE entries of its range, those still to be sent as
CREDIT entries and the flits already sent of the first, the entries still to be received (entry, xtag, flits), and whether
a SCORE entry's request or grant is standing. -/
structure XRun where
  needEpoch : Bool
  number  : Nat
  started : Bool
  entries : List Nat
  todo    : List Nat
  flit    : Nat
  recvs   : List (Nat × Nat × Nat)
  asked   : Bool
  granted : Bool
deriving DecidableEq, Repr

/-- What the image loader keeps at a target (R51, R55, R64): the run table, N and d of the load-open command, the chunks
held, the chunk being received, and whether NEAR runs are part of the load (R586). -/
structure LoadSt where
  opened  : Bool
  total   : Nat
  dirs    : Nat
  runs    : List (BitVec 128)
  held    : List Nat
  lead    : Option (BitVec 128 × BitVec 32)
  data    : Bytes
  near    : Bool
deriving DecidableEq, Repr

def LoadSt.reset : LoadSt := ⟨false, 0, 0, [], [], none, [], true⟩

/-- One cell. -/
structure CellSt where
  near   : Mem
  under  : Mem
  stepMem : Mem
  xchgMem : Mem
  cfg    : Mem
  stepEcc : List (Nat × Bool)
  xchgEcc : List (Nat × Bool)
  land0  : Bytes
  land1  : Bytes
  valid0 : Bool
  valid1 : Bool
  acc    : Vector (BitVec 3840) 64
  hid    : Tbl (BitVec 4)
  width  : Nat
  view   : View
  queue  : List QEntry
  cursor : Nat
  latch  : Vector Word 16
  looper : LoopSt
  configured : Bool
  pc     : Nat
  stack  : List LoopEnt
  occ    : Option Run
  array  : EngSt
  vector : EngSt
  move   : EngSt
  exch   : EngSt
  xrun   : Option XRun
  passShape : Option Nat
  fault  : Option (Nat × Nat × Nat)
  stopping : Option Bool
  entered : Nat
  passed : Nat
  epoch  : BitVec 32
  execNo : BitVec 32
  satNarrow : Bool
  tallies : Tbl Word
  word   : BitVec 32
  noticed : Bool
  notice : Option (BitVec 32)
  arrivals : Tbl Nat
  errCb  : BitVec 64
  errD   : BitVec 64
  outbox : List Nat
  outNew : List Nat
  load   : LoadSt
  testing : Option Kat
  heldPass : Nat
  resetting : Option ResetMode
  hsEntered : Nat
  hsEpochs : Nat
deriving DecidableEq, Repr

def EngSt.idle : EngSt := ⟨none, none⟩

/-- A cell after a module reset and at power-on. Log 4 (DESIGN CHOICE). -/
def CellSt.reset : CellSt :=
  { near := .empty, under := .empty, stepMem := .empty, xchgMem := .empty, cfg := .empty, stepEcc := [], xchgEcc := [],
    land0 := [], land1 := [], valid0 := false, valid1 := false, acc := Vector.replicate 64 0, hid := [], width := 0,
    view := .w40, queue := [], cursor := 0, latch := Vector.replicate 16 0, looper := .unconfigured, configured := false,
    pc := 0, stack := [], occ := none, array := .idle, vector := .idle, move := .idle, exch := .idle, xrun := none,
    passShape := none, fault := none, stopping := none, entered := 0, passed := 0, epoch := 0, execNo := 0,
    satNarrow := false, tallies := [], word := 0, noticed := false, notice := none, arrivals := [], errCb := 0, errD := 0,
    outbox := [], outNew := [], load := .reset, testing := none, heldPass := 0, resetting := none,
    hsEntered := 0, hsEpochs := 0 }

/-! ## The foreman (R125 to R130, R249 to R263, R277, R280) -/

/-- The states of a foreman program (R130). -/
inductive ProgSt where
  | idle | running | waiting | halted | faulted
deriving DecidableEq, Repr

/-- A score counted by a TOPK build: the token (cell position and row), the score's binary32 bits, the candidate. -/
structure Pick where
  token : Nat
  score : Nat
  fmt   : Nat
  cand  : Nat
deriving DecidableEq, Repr

/-- An open fetch-list build (R250 to R253). -/
structure Build where
  desc   : Word
  picked : List Nat
  picks  : List Pick
  stepTag : Option Nat
deriving DecidableEq, Repr

/-- A barrier hub (R280 to R283, R423): who has entered the barrier it gathers, the merged word, whether it has sent its
entry upward and awaits the release, whether its timer has expired, whether the barrier failed, whether it has answered the
last probe, and, once all have entered, the outbox tiles (cell, slot) that must still be taken. Its timer runs while
someone has entered. -/
structure HubSt where
  entered : List Entrant
  word    : BitVec 32
  closed  : Bool
  expired : Bool
  failed  : Bool
  answered : Bool
  owed    : Option (List (Nat × Nat))
deriving DecidableEq, Repr

def HubSt.reset : HubSt := ⟨[], 0, false, false, false, true, none⟩

/-- One block foreman. -/
structure FmSt where
  sregs  : Vector Word 32
  pc     : Nat
  done   : BitVec 64
  events : List Word
  heldRelease : Option Word
  prog   : ProgSt
  fprog  : Mem
  fcurve : Mem
  fprogEcc : List (Nat × Bool)
  fcurveEcc : Bool
  configured : Bool
  signals : List (Nat × Nat)
  score0 : Bytes
  score1 : Bytes
  svalid0 : Bool
  svalid1 : Bool
  build  : Option Build
  sent   : List (Nat × Nat)
  requests : List (Nat × Nat)
  grant0 : Bool
  grant1 : Bool
  hub    : HubSt
  load   : LoadSt
deriving DecidableEq, Repr

/-- Log 4 (DESIGN CHOICE). -/
def FmSt.reset : FmSt :=
  { sregs := Vector.replicate 32 0, pc := 0, done := 0, events := [], heldRelease := none, prog := .idle, fprog := .empty,
    fcurve := .empty, fprogEcc := [], fcurveEcc := false, configured := false, signals := [],
    score0 := [], score1 := [], svalid0 := false, svalid1 := false, build := none, sent := [], requests := [], grant0 := false,
    grant1 := false, hub := .reset, load := .reset }

/-! ## Partition slots (R37 to R43, R63, R75) -/

/-- The states of a partition slot (R79). -/
inductive SlotState where
  | empty | loading | loaded
deriving DecidableEq, Repr

/-- A partition rectangle, in region rows and columns (R37). -/
structure Rect where
  rowFirst : Nat
  rowLast  : Nat
  colFirst : Nat
  colLast  : Nat
deriving DecidableEq, Repr

/-- A step record (R605). -/
structure StepRec where
  release : Nat
  step    : Nat
  summary : BitVec 32
  discarded : Bool
  replay  : Bool
  fault   : Bool
deriving DecidableEq, Repr

/-- A partition slot: its rectangle and ports, what the loaded image's header and required region map say, its owner key slot, its window
flags (R106), the participants of the barrier that is gathering (R281), the module root's hub, the releases since it was
loaded, the step summary of the last release until its record is written (R191, R605), the other modules of its sync
group (R526), and its ring of step records, newest first (R605). -/
structure SlotSt where
  state    : SlotState
  rect     : Rect
  ports    : BitVec 16
  features : BitVec 32
  granted  : BitVec 6
  digestInterval : Nat
  gateTimeout : Nat
  seed     : Word
  required : List (BitVec 32)
  owner    : Nat
  wflags   : BitVec 8
  parts    : Option (List Nat)
  root     : HubSt
  releases : Nat
  summary  : Option (BitVec 32)
  sync     : List Nat
  records  : List StepRec
deriving DecidableEq, Repr

def SlotSt.reset : SlotSt :=
  { state := .empty, rect := ⟨0, 0, 0, 0⟩, ports := 0, features := 0, granted := 0,
    digestInterval := 0, gateTimeout := 0, seed := 0, required := [], owner := 0,
    wflags := 0, parts := none, root := .reset, releases := 0, summary := none, sync := [],
    records := [] }

/-! ## The mesh (R264 to R300) -/

/-- A router: CREDIT and DETOUR flits that wait in its input buffers, COMPILED flits in its slip registers, whether it
raised SCHED_SLIP in this exchange epoch, and the credits in use at its outputs (keys of `Fabric`) (R268, R269). -/
structure RouterSt where
  wait    : List (Port × Flit)
  slips   : List (Port × Flit)
  slipped : Bool
  used    : Tbl Nat
deriving DecidableEq, Repr

def RouterSt.reset : RouterSt := ⟨[], [], false, []⟩

/-- A region controller and its station: the blocks present (R24, R43), the superstep word (R191), the barrier hub, the
detour table and whether R293 was reached, and for RGN_XCHG_STALL the slips of the superstep, whether a half sync was
held and whether a CREDIT flit waited (R298); whether it is unpowered (R542), and whether it is held in region reset; and for R326
and R327 the cells held at a landing gate at the last tick (with their execution numbers), the consecutive starved ticks and the ballast request. -/
structure RgnSt where
  map     : BitVec 30
  word    : BitVec 32
  hub     : HubSt
  dead    : List (Nat × Option Port)
  detourNone : Bool
  slips   : Nat
  synced  : Bool
  waited  : Bool
  dark    : Bool
  held    : Bool
  gated   : List (Nat × BitVec 32)
  run     : Nat
  asking  : Bool
deriving DecidableEq, Repr

/-- Log 4 (DESIGN CHOICE). -/
def RgnSt.reset : RgnSt := ⟨0, 0, .reset, [], false, 0, false, false, false, false, [], 0, false⟩

/-! ## The skyline (R451 to R475) -/

/-- The states of a port (R474). -/
inductive PortState where
  | dark | training | up | admitted | retrain | down | quiesced | idleLp
deriving DecidableEq, Repr

/-- A skyline port: its state and the one it returns to, its lanes active and mapped out, the sequence numbers and replay
buffer of R458, the acknowledgements owed, the attempts of a retrain, the credits of R460, the mesh flits at its station
(with their exit cells, and inward with their attachment cells), the tiles, trail messages and control messages that wait
to be sent, the tile in reception, and what a nak received in RETRAIN asked for. -/
structure SkyPort where
  state   : PortState
  back    : PortState
  lanes   : BitVec 16
  mapped  : BitVec 16
  expect  : Nat
  nakSent : Bool
  nextSeq : Nat
  replay  : List SkyFlit
  resent  : Nat × Nat
  owed    : Nat
  tries   : Nat
  credits : Nat × Nat × Nat
  freed   : Nat × Nat × Nat
  tileTurn : Bool
  mesh    : List (Nat × Flit)
  meshIn  : List (Nat × Flit)
  tiles   : List Bytes
  tileBusy : Bool
  tileIn  : Bytes
  warned  : Bool
  nakHeld : Option Nat
  leaving : Bool
deriving DecidableEq, Repr

def SkyPort.reset : SkyPort :=
  { state := .dark, back := .dark, lanes := 0, mapped := 0, expect := 0, nakSent := false, nextSeq := 0, replay := [],
    resent := (0, 0), owed := 0, tries := 0, credits := (0, 0, 0), freed := (0, 0, 0), tileTurn := false, mesh := [],
    meshIn := [], tiles := [], tileBusy := false, tileIn := [], warned := false, nakHeld := none, leaving := false }

/-- Admission and leave beside SKY_ADMIT: the ports whose answer to ADMIT_REQ is awaited, and whether the module leaves the
stand (R466, R470). -/
structure AdmitSt where
  asked   : List Nat
  leaving : Bool
deriving DecidableEq, Repr

def AdmitSt.reset : AdmitSt := ⟨[], false⟩

/-! ## Memory tiers and the yarder (R337 to R411) -/

/-- The states of a CXL port (R410). -/
inductive CxlState where
  | off | training | active | down | unlicensed
deriving DecidableEq, Repr

/-- A CXL port: its state, the width and rate it reached, its devices configured and left unconfigured. -/
structure CxlPort where
  state   : CxlState
  width   : Nat
  rate    : Nat
  devices : Nat
  unsupported : Nat
deriving DecidableEq, Repr

def CxlPort.reset : CxlPort := ⟨.off, 0, 0, 0, 0⟩

/-- What a stack's temperature has brought about (R394): the last reading and the actions in force. -/
structure StackTemp where
  temp     : Nat
  hot      : Bool
  limit2   : Bool
  limit5   : Bool
  overtemp : Bool
deriving DecidableEq, Repr

def StackTemp.reset : StackTemp := ⟨0, false, false, false, false⟩

/-- The pools T1, T2 and T3: their bytes by pool offset, their extents in all and free (runs of first extent and length),
the channels mapped out at the last cruise, each channel's uncorrected count since the module reset, the stacks'
temperatures, the RDIMMs (slot and GB used) with their speed and state, the CXL ports, which port holds which run of
far pool extents, and the CXL far tier licence as the memories stage found it (R650). -/
structure TierSt where
  mem1 : Mem
  mem2 : Mem
  mem3 : Mem
  total1 : Nat
  total2 : Nat
  total3 : Nat
  free1 : List (Nat × Nat)
  free2 : List (Nat × Nat)
  free3 : List (Nat × Nat)
  dead  : List Nat
  uncorrected : Tbl Nat
  temps : Tbl StackTemp
  dimms : List (Nat × Nat)
  speed : Nat
  board : Nat
  cxl   : Tbl CxlPort
  far   : List (Nat × Nat × Nat)
  farTier : Bool
deriving DecidableEq, Repr

/-- Log 4 (DESIGN CHOICE). -/
def TierSt.reset : TierSt :=
  { mem1 := .empty, mem2 := .empty, mem3 := .empty, total1 := 0, total2 := 0, total3 := 0, free1 := [], free2 := [],
    free3 := [], dead := [], uncorrected := [], temps := [], dimms := [], speed := 0, board := 0, cxl := [], far := [], farTier := false }

/-- The states of an object (R350). -/
inductive ObjState where
  | free | resident | moving | pinned | evicting
deriving DecidableEq, Repr

/-- A T0 object's placement (R342): first slot, slots, first and last cell. -/
structure T0Place where
  slot  : Nat
  slots : Nat
  first : Nat
  last  : Nat
deriving DecidableEq, Repr

/-- An object (R344 to R352): owner, the slot charged, attributes, extents per buffer, T0 placement, state, tier, its
extents there as runs, pin and reference counts, beat stamp, damaged flag, and the extents whose confirmed and dirty bits
are set (R435). -/
structure Obj where
  owner   : Nat
  charged : Nat
  shared  : Bool
  param   : Bool
  tiled   : Bool
  pitch   : Nat
  prefer  : Option Nat
  extents : Nat
  t0      : Option T0Place
  state   : ObjState
  tier    : Nat
  place   : List (Nat × Nat)
  pins    : Nat
  refs    : Nat
  stamp   : Word
  damaged : Bool
  cb      : List Nat
  dirty   : List Nat
deriving DecidableEq, Repr

/-- What an allocation is for (R349): a host CREATE, an object of a load, or a move. -/
inductive AllocKind where
  | create | load | promote | demote | evict
deriving DecidableEq, Repr

/-- An allocation with the move it serves (R349, R353, R362): the object (for a creation, as it will be), destination tier,
slot charged, extents still to be reserved and those reserved, extents copied, and whether it is the host command in
progress. -/
structure Alloc where
  handle : Nat
  kind   : AllocKind
  obj    : Obj
  dest   : Nat
  slot   : Nat
  need   : Nat
  got    : List (Nat × Nat)
  copied : Nat
  cmd    : Bool
deriving DecidableEq, Repr

/-- The yarder: the objects by handle, its allocations and moves oldest first, the promotions queued behind evictions
(handle, tier, slot, host command) (R352), the objects freed at a load that their moves still hold, and the slots whose
load found no room (R368). -/
structure YardSt where
  objs   : Tbl Obj
  allocs : List Alloc
  queued : List (Nat × Nat × Nat × Bool)
  dying  : List Nat
  failed : List Nat
deriving DecidableEq, Repr

def YardSt.reset : YardSt := ⟨[], [], [], [], []⟩

/-! ## The skidder (R301 to R336) -/

/-- The states of a stream program (R334). -/
inductive StreamState where
  | idle | running | waitList | done | stopped | halted
deriving DecidableEq, Repr

/-- A stream entry whose fills are being read (R310): its index, the loop iteration it was reached in, its fills read and in
all, the object offset reached by a DELIVER, whether it holds its read references, and, for GATHER and RECORDED, the list
(none while it waits for it) and the kind it is read with, 0 COLUMN or 1 ROW. -/
structure OpenEntry where
  index  : Nat
  iter   : Nat
  read   : Nat
  fills  : Nat
  pos    : Nat
  refs   : Bool
  needsList : Bool
  list   : Option (List Nat)
  kind   : Nat
deriving DecidableEq, Repr

/-- A fill in the deck (R310, R320): its number in the slot, entry, target rectangle, kind (NEAR or LANDING), landing slot,
first granule, bytes, the regions that gave it a lane, the cells still to be written, whether it was counted late, and
whether it is its entry's last. -/
structure Fill where
  number : Nat
  entry  : Nat
  first  : Nat
  last   : Nat
  near   : Bool
  slot   : Nat
  granule : Nat
  bytes  : Bytes
  lanes  : List Nat
  left   : List Nat
  late   : Bool
  final  : Bool
deriving DecidableEq, Repr

/-- Fetch lists of one list_tag held by the skidder (R255, R318): who has sent one, the candidates so far, the header fields
and whether the merge is done. -/
structure HeldList where
  tag     : Nat
  froms   : List FmId
  cands   : List Nat
  trunc   : Bool
  stepTag : Nat
  kind    : Nat
  source  : Nat
  merged  : Bool
deriving DecidableEq, Repr

/-- A prefetch entry of the manifest (R366). -/
structure Prefetch where
  entry  : Nat
  after  : Bool
  action : Nat
  tier   : Nat
  handle : Nat
deriving DecidableEq, Repr

/-- A slot's stream program and what the skidder holds for it. A loop of the stack is its LOOP entry and the iterations
done and in all (R307, R313). -/
structure StreamSt where
  prog  : List (BitVec 256)
  state : StreamState
  pc    : Nat
  loops : List (Nat × Nat × Nat)
  opens : List OpenEntry
  deck  : List Fill
  number : Nat
  lists : List HeldList
  prefetch : List Prefetch
  ending : Bool
deriving DecidableEq, Repr

def StreamSt.reset : StreamSt :=
  { prog := [], state := .idle, pc := 0, loops := [], opens := [], deck := [], number := 0, lists := [], prefetch := [],
    ending := false }

/-! ## The reducer (R412 to R450) -/

/-- A layer entry of the reducer plan (R417). -/
structure LayerPlan where
  kind : Nat
  role : Nat
  primary : Nat
  shadow : Nat
  every : Nat
  phase : Nat
  master : Nat
  slab : Nat
  stateA : Nat
  stateB : Nat
  error : Nat
  record : Nat
  maskObj : Nat
  stamp : Nat
  positions : Nat
  cap : Nat
  deadline : Nat
  grace : Nat
  contributors : Nat
  wfmt : Nat
  masterFmt : Nat
  stateFmt : Nat
deriving DecidableEq, Repr

/-- A route entry (R418). -/
structure RoutePlan where
  first : Nat
  last : Nat
  layer : Nat
  out : Nat
  slotFirst : Nat
  slotCount : Nat
  base : Nat
  stride : Nat
deriving DecidableEq, Repr

/-- A layer of a slot: its plan, last committed version, modules in the last set, verify code, the digests of the last
commit and at C (R438), the contributions of the step and the set once it closed (R426), the shadow's notice, the
positions of the step's records, the consecutive late steps and whether the step is late (R428), the write hold, whether
the step's commit has begun, the records written by route kind, whether the last broadcast tile has come, the step the layer
is unverified for, the shadow's digest when it comes before the own commit, and the step of the last matching comparison
(R597). -/
structure LayerSt where
  plan : LayerPlan
  version : Nat
  received : Nat
  verify : Nat
  last1 : Nat
  last2 : Nat
  conf1 : Nat
  conf2 : Nat
  contribs : List Contribution
  set : Option (List Nat)
  notice : Option (List Nat)
  touched : List Nat
  streak : Nat
  late : Bool
  hold : Bool
  begun : Bool
  written : List (Nat × Nat)
  lastIn : Bool
  unverified : Option Nat
  shadowDig : Option (Nat × Nat)
  lastMatch : Nat
deriving DecidableEq, Repr

/-- A layer as its plan entry leaves it, at version `v`. -/
def LayerSt.fresh (p : LayerPlan) (v : Nat) : LayerSt :=
  { plan := p, version := v, received := 0, verify := 0, last1 := 0, last2 := 0, conf1 := 0, conf2 := 0, contribs := [],
    set := none, notice := none, touched := [], streak := 0, late := false, hold := false, begun := false, written := [],
    lastIn := false, unverified := none, shadowDig := none, lastMatch := 0 }

/-- A tile of the send store (R425): its layer, position, step, the owners that have not acknowledged it, where its error
memory lies (cell and window byte, or the error object), and its SIGN1 payload. -/
structure SentTile where
  layer : Nat
  position : Nat
  step : Nat
  owners : List Nat
  cell : Nat
  errAt : Nat
  payload : Bytes
deriving DecidableEq, Repr

/-- The reducer's state for a slot: the plan header (R416), layers, routes, takes of each outbox slot in the step (R424), the
send store, the children heard from, their verdicts and the own one with its replay wish (R439), whether the verdict was
sent and whether its limit ran out, the confirmation that waits for a checkpoint (R441), the digest
and verdict messages that wait for a DIGEST occurrence (R525), and whether the slot was rolled back
last. -/
structure RedSt where
  jobId : Word
  lateDrop : Nat
  parent : Nat
  children : Nat
  limit : Nat
  key1 : Nat
  key2 : Nat
  layers : List LayerSt
  routes : List RoutePlan
  takes : Tbl Nat
  sent : List SentTile
  kids : List Nat
  verdicts : List (Nat × Bool × Bool)
  own : Option Bool
  upSent : Bool
  timedOut : Bool
  waiting : Option Nat
  mail : List (Nat × Instr)
  rolled : Bool
  replayWish : Bool
deriving DecidableEq, Repr

def RedSt.reset : RedSt :=
  { jobId := 0, lateDrop := 2, parent := 0xFFFF, children := 0, limit := 0, key1 := 0, key2 := 0, layers := [], routes := [],
    takes := [], sent := [], kids := [], verdicts := [], own := none, upSent := false, timedOut := false, waiting := none,
    mail := [], rolled := false, replayWish := false }

/-! ## Host attachment (R476 to R510) -/

/-- A KCT session (R487, R488): the source it is bound to, the highest seq executed and the kept responses, newest first. -/
structure Session where
  source : NetAddr
  udp    : BitVec 16
  high   : Option Nat
  kept   : List KctFrame
deriving DecidableEq, Repr

/-- A queue pair (R480, R481): its port, whether it is in the error state, its rate in bit/s and when it last sent a CNP. -/
structure QpSt where
  port    : Nat
  failed  : Bool
  rate    : Nat
  lastCnp : Option Nat
deriving DecidableEq, Repr

/-- The states of a bulk window (R509). -/
inductive WinState where
  | closed | opened | full | error
deriving DecidableEq, Repr

/-- A bulk window (R493 to R503): state, owner, direction (true: reads), rkey, bytes accepted or read, frames last
acknowledged, frames accepted since, and where its frames come from. -/
structure WinSt where
  state    : WinState
  owner    : Nat
  reads    : Bool
  rkey     : BitVec 32
  accepted : Nat
  acked    : Nat
  since    : Nat
  peer     : Option (Nat × NetAddr × BitVec 16)
deriving DecidableEq, Repr

def WinSt.reset : WinSt := ⟨.closed, 0, false, 0, 0, 0, 0, none⟩

/-- An Ethernet port: link up, priorities paused by the partner and those it has paused (R477, R504). -/
structure EthPort where
  link    : Bool
  paused  : BitVec 8
  pausing : BitVec 8
deriving DecidableEq, Repr

def EthPort.reset : EthPort := ⟨false, 0, 0⟩

structure EthSt where
  ports    : Tbl EthPort
  sessions : Tbl Session
  qps      : Tbl QpSt
  wins     : Tbl WinSt
deriving DecidableEq, Repr

def EthSt.reset : EthSt := ⟨[], [], [], []⟩

/-! ## Bring-up and resets (R608 to R633, R660 to R672) -/

/-- Bring-up: boot stage (the codes of R630), whether a boot is under way that keeps the input on (module reset or ranger
restart), the ms since its start, whether 0x4092 and 0x4093 were raised in its stage 1, the bits of MOD_STATE.degraded,
whether the contacts and the present loop are closed, the state of the input (0 OFF, 1 PRECHARGE, 2 ON), and whether the
bus is below 700 V (R624, R625, R631). -/
structure BootSt where
  stage    : Nat
  ms       : Nat
  asked    : Bool × Bool
  degraded : BitVec 8
  mated    : Bool
  present  : Bool
  input    : Nat
  busLow   : Bool
deriving DecidableEq, Repr

def BootSt.reset : BootSt := ⟨0, 0, (false, false), 0, false, false, 0, false⟩

/-- A partial reset that runs (R616 to R619): scope, mode, target (cell, global block, region or slot), the slot whose
repair ordered it, when it is a fault-recovery restart (R584), whether MOD_RESET ordered it, and the flits that its boundary
waits for. -/
structure ResetRun where
  scope  : Scope
  mode   : ResetMode
  target : Nat
  repair : Option Nat
  host   : Bool
  awaits : List Nat
deriving DecidableEq, Repr

/-! ## The image loader (R60 to R79) -/

/-- Repair rounds (R64): the blocks whose targets they check, the rounds begun, whether the report window is open, the blocks
that raised MISSING and the miss messages that came. -/
structure RoundSt where
  blocks  : List FmId
  round   : Nat
  window  : Bool
  missing : List FmId
  reports : List (FmId × List MissList)
deriving DecidableEq, Repr

def RoundSt.reset : RoundSt := ⟨[], 0, false, [], []⟩

/-- The loader: whether step 3 of the current load has begun, whether it waits for a reset to complete (R70), the targets
that have not acknowledged load-open and the attempts made, the suspects, the rounds, whether the configure broadcast is on
its way, and the objects that its manifest created. -/
structure LdrSt where
  claimed : Bool
  waits   : Bool
  unacked : List Target
  tries   : Nat
  suspects : List Target
  rounds  : RoundSt
  commit  : Bool
  made    : List Nat
deriving DecidableEq, Repr

def LdrSt.reset : LdrSt := ⟨false, false, [], 0, [], .reset, false, []⟩

/-! ## Power and thermal control (R540 to R575) -/

/-- A clock half: the operating point it runs at, its thermal limit, the tick at which a severe droop's limit ends, its
junction temperature, whether 105 °C holds it at OP5, the stretch of its clock in steps of 6.25 %, and whether the release
of the stretch has begun (R544 to R546, R557 to R560). -/
structure HalfSt where
  op      : Nat
  thermal : Nat
  droop   : Option Nat
  temp    : Nat
  hot     : Bool
  stretch : Nat
  easing  : Bool
deriving DecidableEq, Repr

/-- Log 86 (DESIGN CHOICE). -/
def HalfSt.reset : HalfSt := ⟨0, 0, none, 0, false, 0, false⟩

/-- A slot's power plan (R554, R556, R564): plan_op, flags, the plan's hold level and the one in force, whether a limit holds
a half below plan_op, and the tick whose throttle asks for slack. -/
structure PlanSt where
  op    : Nat
  flags : Nat
  level : Nat
  hold  : Nat
  throttled : Bool
  since : Option Nat
deriving DecidableEq, Repr

/-- Log 86 (DESIGN CHOICE). -/
def PlanSt.reset : PlanSt := ⟨0, 0, 0, 0, false, none⟩

/-- The power controller, in units of 0.1 kW: effective cap E, mean power P of the last cycle, ceiling and hold, floor and
Chrysalis draw, ramp target (0 none), whether the cap is to apply at once, the coolant allowance and whether coolant is out
of range; the power limit, pace level, ballast in sixteenths, draw in W to be made up after a trip; the ticks owed to pacing
in 64ths, whether this tick is gated, and the same per region at 105 °C; the halves, the slots' plans, each region's energy
of the last cycle in mJ, whether ramps are exempt until the next cycle, and whether parity is lost. -/
structure PowerSt where
  e       : Nat
  p       : Nat
  ceiling : Nat
  hold    : Nat
  floor   : Nat
  chrysalis : Nat
  ramp    : Nat
  now     : Bool
  allow   : Nat
  warm    : Bool
  op      : Nat
  pace    : Nat
  ballast : Nat
  makeup  : Nat
  debt    : Nat
  gated   : Bool
  debts   : Tbl Nat
  hotGated : List Nat
  halves  : Tbl HalfSt
  plans   : Tbl PlanSt
  energy  : Tbl Nat
  exempt  : Bool
  parityLost : Bool
deriving DecidableEq, Repr

/-- Log 86 (DESIGN CHOICE). -/
def PowerSt.reset : PowerSt :=
  { e := 840, p := 0, ceiling := 840, hold := 0, floor := 0, chrysalis := 0, ramp := 0, now := false, allow := 840, warm := false,
    op := 0, pace := 0, ballast := 0, makeup := 0, debt := 0, gated := false, debts := [], hotGated := [], halves := [],
    plans := [], energy := [], exempt := true, parityLost := false }

/-! ## Faults, tests and jobs (R576 to R607) -/

/-- A record of the fault log (R576) and whether the host has read it. -/
structure FaultRec where
  beat     : Word
  code     : Nat
  cls      : Nat
  slot     : Nat
  unit     : Nat
  detail   : Nat
  position : Nat
  action   : Nat
  count    : Nat
  seq      : Nat
  read     : Bool
deriving DecidableEq, Repr

/-- An entry of the watch list (R593, R606): kind 1 cell, 2 block, 3 region; consecutive passes, fails, the code that listed
the unit, and the unit. -/
structure WatchEnt where
  kind   : Nat
  passes : Nat
  fails  : Nat
  reason : Nat
  unit   : Nat
deriving DecidableEq, Repr

/-- The fault log newest first and the records written in all; the watch list with the entries dropped, the units marked bad
(kind, unit; a cell with its physical position from bit 18 up) and their count; the tests that wait for a permitted moment (cell, test, last tick), the region tests and
whether the reducer test runs, and the tests that FLT_KAT_RUN still awaits with whether one failed. -/
structure FltSt where
  log     : List FaultRec
  total   : Nat
  watch   : List WatchEnt
  dropped : Nat
  bad     : List (Nat × Nat)
  marked  : Nat
  waits   : List (Nat × Kat × Nat)
  regions : List Nat
  reducer : Bool
  host    : List (KatUnit × Kat)
  failed  : Bool
deriving DecidableEq, Repr

def FltSt.reset : FltSt := ⟨[], 0, [], 0, [], 0, [], [], false, [], false⟩

/-- The repair path of a slot (R584, R588): its step, the regions whose restart is awaited, the lost regions, the blocks to
be reloaded and their rounds. -/
structure RepairSt where
  step    : Nat
  regions : List Nat
  lost    : List Nat
  blocks  : List FmId
  rounds  : RoundSt
deriving DecidableEq, Repr

/-- A slot's job beside FLT_JOB (R581 to R584, R622): start_index, the origin a start or a replay waits for, the cells with a
class HW record since the last repair, and the repair. -/
structure JobSt where
  index  : Nat
  armed  : Option Nat
  replay : Option Nat
  hw     : List Nat
  repair : Option RepairSt
deriving DecidableEq, Repr

def JobSt.reset : JobSt := ⟨0, none, none, [], none⟩

/-! ## The ranger (R634 to R659) -/

/-- A bank of the firmware store (R636): its bytes, and whether it holds the image it left the factory with, whose signature
and digest are good. -/
structure BankSt where
  bytes   : Mem
  factory : Bool
deriving DecidableEq, Repr

/-- An owner key slot (R643): 0 EMPTY, 1 VALID, 2 REVOKED, and its key. -/
structure OwnerSt where
  state : Nat
  key   : Bytes
deriving DecidableEq, Repr

def OwnerSt.reset : OwnerSt := ⟨0, []⟩

/-- The ranger: both banks, the running one (1 is B), security counter, revoke fuses, the session that staging is bound to and
whether a bank was activated, the owner key slots and counter, the licence and whether it has expired. -/
structure RngSt where
  bankA   : BankSt
  bankB   : BankSt
  running : Nat
  counter : Nat
  revoked : BitVec 4
  staging : Option Nat
  owners  : Tbl OwnerSt
  owner   : BitVec 32
  licence : Option Bytes
  expired : Bool
deriving DecidableEq, Repr

/-- A journal record (R652). -/
structure JournalRec where
  kind : Nat
  seq  : Nat
  tai  : Nat
  beat : Word
  body : Bytes
deriving DecidableEq, Repr

/-- The lifetime counters (R651): seconds powered, energy in mJ, thermal cycles of each wing, closings of MATED, seconds in
each junction bin (key region × 8 + bin). -/
structure LifeSt where
  powerOn : Nat
  energy  : Nat
  cycles  : Nat × Nat
  hotPlug : Nat
  stress  : Tbl Nat
deriving DecidableEq, Repr

def LifeSt.reset : LifeSt := ⟨0, 0, (0, 0), 0, []⟩

/-- The log book: the general and permanent areas newest first with the records written to each, the next sequence number,
the lifetime counters in SRAM and in flash, whether a wing has exceeded 75 °C since it was below 35 °C, the latest time
seen, and the picoseconds of the second in progress (R649, R651 to R654). -/
structure LogSt where
  general   : List JournalRec
  permanent : List JournalRec
  generals  : Nat
  permanents : Nat
  seq    : Nat
  life   : LifeSt
  flash  : LifeSt
  warm   : Bool × Bool
  seen   : Nat
  ps     : Nat
deriving DecidableEq, Repr

def LogSt.reset : LogSt := ⟨[], [], 0, 0, 0, .reset, .reset, (false, false), 0, 0⟩

/-- The header of the factory's image in bank A: format 1, release key slot 0, security version 0, build 0, a body of one
byte. Log 129 (DEDUCED). -/
def factoryHeader : Mem :=
  ⟨[(0, 0x54), (1, 0x57), (2, 0x32), (3, 0x52), (4, 0x4E), (5, 0x47), (6, 0x46), (7, 0x57), (8, 0x01), (12, 0x01)], []⟩

def RngSt.reset : RngSt :=
  { bankA := ⟨factoryHeader, true⟩, bankB := ⟨.empty, false⟩, running := 0, counter := 0, revoked := 0, staging := none,
    owners := [], owner := 0, licence := none, expired := false }

/-! ## The beat unit (R511 to R539) -/

/-- The states of the beat unit (R517). -/
inductive BeatState where
  | unlocked | acquiring | locked | holdover
deriving DecidableEq, Repr

/-- The sources of the beat (R538). -/
inductive BeatSource where
  | none | fibre | ptp
deriving DecidableEq, Repr

/-- The states of a slot's schedule (R538). -/
inductive SchedState where
  | idle | armed | running | stopped
deriving DecidableEq, Repr

/-- A slot's beat schedule (R524, R527 to R530): the sync group's other fields, the state, the origin in force, the shift S, the open
occurrences (entry and closing tick), and the slack requests collected (tick and ticks asked). -/
structure BeatSlot where
  members  : List Nat
  group    : Nat
  parent   : Nat
  lead     : Nat
  maxSlack : Nat
  state    : SchedState
  origin   : Nat
  shift    : Nat
  opens    : List (Nat × Nat)
  slacks   : List (Nat × Nat)
deriving DecidableEq, Repr

def BeatSlot.reset : BeatSlot := ⟨[], 0, 0xFFFF, 2, 1, .idle, 0, 0, [], []⟩

/-- What the fibre has brought (R511, R518): whether the source is present and LOCKED, the last good cycle number, the
markers since its frame, the last marker's bits, the consecutive cycles that obeyed R518, the consecutive bad markers and
frames, the delay and campus identifier in use. -/
structure FibreSt where
  present   : Bool
  locked    : Bool
  cycle     : Option Nat
  marks     : Nat
  bits      : Option Nat
  run       : Nat
  badMarks  : Nat
  badFrames : Nat
  delay     : Nat
  campus    : Nat
deriving DecidableEq, Repr

def FibreSt.reset : FibreSt := ⟨false, false, none, 0, none, 0, 0, 0, 0, 0⟩

/-- What PTP has brought (R479, R514, R515): the best Announce of each port, the selected port, the consecutive Sync messages
within and outside the bound, whether it is LOCKED, the last PTP time, and each port's last event timestamp. -/
structure PtpSt where
  best     : Tbl Announce
  port     : Option Nat
  good     : Nat
  bad      : Nat
  locked   : Bool
  tai      : Option Nat
  stamps   : Tbl (Nat × Nat)
deriving DecidableEq, Repr

def PtpSt.reset : PtpSt := ⟨[], none, 0, 0, false, none, []⟩

/-- The calendar (R534, R535): whether it is set, TAI seconds, picoseconds, TAI−UTC, and the nanoseconds latched. -/
structure Calendar where
  valid : Bool
  sec   : Nat
  ps    : Nat
  utc   : Nat
  latch : Nat
deriving DecidableEq, Repr

def Calendar.reset : Calendar := ⟨false, 0, 0, 0, 0⟩

/-- The beat unit: its state and source, fibre and PTP, the measured frequency in 0.01 Hz and tick period in ps, a forward
step due at the next tick, the ticks still held (R521), the event table with each entry's next occurrence, the slots'
schedules. -/
structure BeatSt where
  state  : BeatState
  active : BeatSource
  fibre  : FibreSt
  ptp    : PtpSt
  freq   : Nat
  period : Nat
  jump   : Nat
  hold   : Nat
  table  : Tbl (BitVec 128)
  next   : Tbl Nat
  slots  : Tbl BeatSlot
  cal    : Calendar
deriving DecidableEq, Repr

def BeatSt.reset : BeatSt :=
  { state := .unlocked, active := .none, fibre := .reset, ptp := .reset, freq := 0, period := 4882812, jump := 0, hold := 0,
    table := [], next := [], slots := [], cal := .reset }

/-! ## The whole machine -/

/-- Why a step faults. No command of this block stops the machine. -/
inductive Fault where
  /-- Raised by nothing: the spec gives every command an effect; safe. -/
  | never
deriving DecidableEq, Repr

/-- Why a command has no meaning. -/
inductive Refusal where
  /-- An instruction the model does not give a meaning to, by its mnemonic; safe. -/
  | notModelled (mnemonic : String)
deriving DecidableEq, Repr

/-- What an Ethernet port sends beside KCT frames: PAUSE of a priority or its end (R477), LLDP with its management address
(R478), an answer to a neighbour (R476), a CNP (R481), the answer to a connection request (R480), the completion of an RDMA
operation with the data read (R503), and a KCT answer on a queue pair (R480). -/
inductive EthSend where
  | pause (prio : Nat) (on : Bool)
  | lldp (serial : Word) (ttl : Nat) (addr : NetAddr)
  | neighbor (kind : NeighborKind) (to_ : NetAddr)
  | cnp (qp : Nat)
  | connect (qp : Option Nat)
  | rdma (qp : Nat) (ok : Bool) (data : Bytes)
  | send (qp : Nat) (f : KctFrame)
deriving DecidableEq, Repr

/-- What the module has sent to the outside. Log 161 (DESIGN CHOICE). -/
inductive Emission where
  | kct (f : KctFrame)
  | eth (port : Nat) (e : EthSend)
  /-- the echo of a tick marker on the beat fibre, 200 ns after it (R512) -/
  | echo (bits : Byte)
  /-- a trail message for another module of the stand (R463) -/
  | trail (module : Nat) (m : Instr)
  /-- a flit on a skyline port (R454) -/
  | sky (port : Nat) (f : SkyFlit)
  /-- a link control message on a skyline port, named by the command that delivers it at the partner (R455, R466, R470) -/
  | ctrl (port : Nat) (m : Instr)
deriving DecidableEq, Repr

/-- The state of the module. `eras` lists the regions whose dies have lost their contents: the first number of the undefined
values of that occasion, and whether the understoreys have been cleared since (R122, R608). `nap` is the first number of
the undefined values that the last Chrysalis left. -/
structure State where
  pending  : List Instr
  inFlight : List Instr
  out      : List Emission
  freeCtr  : Nat
  regs     : Tbl Word
  cells    : Tbl CellSt
  fms      : Tbl FmSt
  slots    : Tbl SlotSt
  spares   : Tbl Nat
  routers  : Tbl RouterSt
  rgns     : Tbl RgnSt
  foreign  : List Nat
  skys     : Tbl SkyPort
  admission    : AdmitSt
  eras     : Tbl (Nat × Bool)
  nap      : Option Nat
  tilesHeld : List (Nat × Nat × Bytes)
  tiers    : TierSt
  yard     : YardSt
  streams  : Tbl StreamSt
  reds     : Tbl RedSt
  eth      : EthSt
  boot     : BootSt
  beats    : BeatSt
  power    : PowerSt
  ldr      : LdrSt
  flt      : FltSt
  jobs     : Tbl JobSt
  resets   : List ResetRun
  rng      : RngSt
  book     : LogSt
  tallyLast : Tbl Word
deriving DecidableEq, Repr

/-- The module right after power-on reset. Log 4 (DESIGN CHOICE). -/
def State.reset : State :=
  { pending := [], inFlight := [], out := [], freeCtr := 0, regs := [], cells := [], fms := [], slots := [], spares := [],
    routers := [], rgns := [], foreign := [], skys := [], admission := .reset, eras := [], nap := none, tilesHeld := [], tiers := .reset, yard := .reset, streams := [], reds := [], eth := .reset,
    boot := .reset, beats := .reset, power := .reset, ldr := .reset, flt := .reset, jobs := [], resets := [], rng := .reset,
    book := .reset, tallyLast := [] }

end Sys2Proof.Machine
end

