-- ==== Sys2Proof/Machine/Ops.lean ====
section
/-! DEFINITION. The named operations over memories, the register bank, the tables of cells, foremen and slots, messages
in flight, fault notices and free values. -/

namespace Sys2Proof.Machine

open Sys2Proof

/-! ## Memories -/

/-- The undefined range that holds the address: its occasion and the byte's number. -/
def lostAt (a : Nat) : List (Nat × Nat × Nat × Nat) → Option (Nat × Nat)
  | [] => none
  | (st, n, k, o) :: r => if st ≤ a ∧ a < st + n then some (k, o + (a - st)) else lostAt a r

/-- What an address that lists no byte reads as: 0, or an undefined byte (R122, R343). Log 4 (DESIGN CHOICE). -/
def Mem.unlisted (m : Mem) (a : Nat) : Byte :=
  match lostAt a m.lost with
  | some (k, j) => Config.freeByte k j
  | none => 0

/-- One byte of a memory. -/
def Mem.byte (m : Mem) (a : Nat) : Byte :=
  match m.cells.find a with
  | some b => b
  | none => m.unlisted a

/-- `n` bytes from address `a`. -/
def Mem.read (m : Mem) (a n : Nat) : Bytes := (List.range n).map (fun k => m.byte (a + k))

/-- The memory with byte `b` at address `a`; a zero outside the undefined ranges is not listed. -/
def Mem.set (m : Mem) (a : Nat) (b : Byte) : Mem :=
  match lostAt a m.lost with
  | some _ => { m with cells := m.cells.put a b }
  | none => { m with cells := m.cells.set 0 a b }

/-- The memory with bytes `bs` written from address `a` up. -/
def Mem.write (m : Mem) (a : Nat) : Bytes → Mem
  | [] => m
  | b :: bs => (m.set a b).write (a + 1) bs

/-- The part of an undefined range that lies in `[a, b)`. -/
def lostPart (a b : Nat) (l : Nat × Nat × Nat × Nat) : List (Nat × Nat × Nat × Nat) :=
  let lo := max a l.1
  let hi := min b (l.1 + l.2.1)
  if lo < hi then [(lo, hi - lo, l.2.2.1, l.2.2.2 + (lo - l.1))] else []

/-- The memory with `n` bytes from address `a` zero. -/
def Mem.zero (m : Mem) (a n : Nat) : Mem :=
  ⟨m.cells.filter (fun e => !(decide (a ≤ e.1) && decide (e.1 < a + n))),
   m.lost.flatMap (fun l => lostPart 0 a l ++ lostPart (a + n) (l.1 + l.2.1) l)⟩

/-- The memory with `n` bytes from address `a` undefined, on occasion `k`. Log 3 (DESIGN CHOICE). -/
def Mem.lose (m : Mem) (a n k : Nat) : Mem :=
  let z := m.zero a n
  if n = 0 then z else { z with lost := (a, n, k, 0) :: z.lost }

/-- Memory `d` with `n` bytes of `m` from address `a` copied to its address `b`, undefined bytes as such. -/
def Mem.copyTo (m : Mem) (a n : Nat) (d : Mem) (b : Nat) : Mem :=
  let z := d.zero b n
  let own := (m.cells.filter (fun e => decide (a ≤ e.1) && decide (e.1 < a + n))).map (fun e => (e.1 - a + b, e.2))
  ⟨z.cells.filter (fun e => decide (e.1 < b)) ++ own ++ z.cells.filter (fun e => decide (b ≤ e.1)),
   (m.lost.flatMap (lostPart a (a + n))).map (fun l => (l.1 - a + b, l.2)) ++ z.lost⟩

/-- The canonical form of a memory: rising addresses, and no zero listed outside the undefined ranges. -/
def Mem.wfAux (lost : List (Nat × Nat × Nat × Nat)) : Tbl Byte → Bool
  | [] => true
  | (a, b) :: t => Tbl.rising a t && (decide (b ≠ 0) || (lostAt a lost).isSome) && Mem.wfAux lost t

def Mem.wf (m : Mem) : Bool := Mem.wfAux m.lost m.cells

/-- A little-endian 64-bit word of a memory (R4). -/
def Mem.word (m : Mem) (a : Nat) : Word := BitVec.ofNat 64 (ofLE (m.read a 8))

/-! ## The register bank (R7 to R13) -/

/-- The word held for the register at `a`. -/
def State.reg (s : State) (a : Nat) : Word :=
  match s.regs.find a with
  | some w => w
  | none => resetOf a

/-- The state with `w` held for the register at `a`. -/
def State.setReg (s : State) (a : Nat) (w : Word) : State := { s with regs := s.regs.set (resetOf a) a w }

/-- Field `[hi:lo]` of the register at `a`. -/
def State.regF (s : State) (a hi lo : Nat) : Nat := bits hi lo (s.reg a)

/-- The state with field `[hi:lo]` of the register at `a` set to `v`. -/
def State.setRegF (s : State) (a hi lo v : Nat) : State := s.setReg a (setBits hi lo v (s.reg a))

/-- The state with the saturating count in field `[hi:lo]` raised by `v`. -/
def State.satReg (s : State) (a hi lo v : Nat) : State := s.setReg a (satField hi lo v (s.reg a))

/-- The state with the count in field `[hi:lo]` raised by `v`, modulo its width. -/
def State.addReg (s : State) (a hi lo v : Nat) : State := s.setRegF a hi lo (s.regF a hi lo + v)

/-- The state with every held register for which `p` holds back at its reset value. -/
def State.clearRegs (s : State) (p : Nat → Bool) : State := { s with regs := s.regs.filter (fun e => !p e.1) }

/-! ## Tables -/

/-- The bytes of a cell's near SRAM and of its understorey (R83). -/
def nearBytes : Nat := 0x6_0000
def underBytes : Nat := 0x4_0000

/-- Undefined accumulator rows, and undefined latch words from occasion `k` on. -/
def freeRows (k : Nat) : Vector (BitVec 3840) 64 := ⟨((List.range 64).map (Config.freeRow k)).toArray, by simp⟩
/-- Log 18 (DESIGN CHOICE). -/
def freeLatch (k : Nat) : Vector Word 16 := ⟨((List.range 16).map (fun i => Config.freeWord (k + i))).toArray, by simp⟩

/-- A cell whose die lost its power: every memory is undefined (occasions `k` to `k + 4`), the looper UNCONFIGURED (R122).
Log 98 (DEDUCED). -/
def CellSt.unpowered (k : Nat) : CellSt :=
  { CellSt.reset with
    near := Mem.empty.lose 0 nearBytes k, under := Mem.empty.lose 0 underBytes (k + 1),
    stepMem := Mem.empty.lose 0 0x1_0000 (k + 2), xchgMem := Mem.empty.lose 0 0x1_0000 (k + 3),
    cfg := Mem.empty.lose 0 0x1000 (k + 4), acc := freeRows k,
    latch := freeLatch (k + 5) }

/-- A foreman whose die lost its power. -/
def FmSt.unpowered (k : Nat) : FmSt :=
  { FmSt.reset with fprog := Mem.empty.lose 0 0x1_0000 k, fcurve := Mem.empty.lose 0 0x2_0000 (k + 1) }

/-- The undefined values that one loss of a region's contents takes: 24 for each cell number and foreman. -/
def eraSize : Nat := 24 * (0x4_0000 + 2160)

/-- A cell whose die slept: near SRAM, accumulators and latch are lost, on the occasions from `k` on (R122). -/
def CellSt.slept (x : CellSt) (k : Nat) : CellSt :=
  { x with near := Mem.empty.lose 0 nearBytes k, acc := freeRows (k + 1),
           latch := freeLatch (k + 2) }

/-- A cell that the table does not list: as after power-on, or with the undefined contents that its region's last loss and
the last Chrysalis left. Log 98 (DEDUCED). -/
def State.freshCell (s : State) (c : Nat) : CellSt :=
  let x := match s.eras.find (regionOf c) with
    | none => .reset
    | some (k, cleared) =>
      let x := CellSt.unpowered (k + 24 * c)
      if cleared then { x with under := .empty } else x
  match s.nap with
  | none => x
  | some k => x.slept (k + 24 * c)

/-- A foreman that the table does not list. Log 98 (DEDUCED). -/
def State.freshFm (s : State) (f : FmId) : FmSt :=
  match s.eras.find f.region with
  | none => .reset
  | some (k, _) => FmSt.unpowered (k + 24 * (0x4_0000 + fmKey f))

def State.cell (s : State) (c : Nat) : CellSt :=
  match s.cells.find c with
  | some x => x
  | none => s.freshCell c
def State.setCell (s : State) (c : Nat) (x : CellSt) : State := { s with cells := s.cells.put c x }
def State.modCell (s : State) (c : Nat) (f : CellSt → CellSt) : State := s.setCell c (f (s.cell c))

def State.fm (s : State) (f : FmId) : FmSt :=
  match s.fms.find (fmKey f) with
  | some x => x
  | none => s.freshFm f
def State.setFm (s : State) (f : FmId) (x : FmSt) : State := { s with fms := s.fms.put (fmKey f) x }
def State.modFm (s : State) (f : FmId) (g : FmSt → FmSt) : State := s.setFm f (g (s.fm f))

def State.slot (s : State) (n : Nat) : SlotSt := s.slots.get .reset n
def State.setSlot (s : State) (n : Nat) (x : SlotSt) : State := { s with slots := s.slots.put n x }
def State.modSlot (s : State) (n : Nat) (f : SlotSt → SlotSt) : State := s.setSlot n (f (s.slot n))

def State.router (s : State) (c : Nat) : RouterSt := s.routers.get .reset c
def State.setRouter (s : State) (c : Nat) (x : RouterSt) : State := { s with routers := s.routers.put c x }
def State.modRouter (s : State) (c : Nat) (f : RouterSt → RouterSt) : State := s.setRouter c (f (s.router c))

def State.rgn (s : State) (r : Nat) : RgnSt := s.rgns.get .reset r
def State.setRgn (s : State) (r : Nat) (x : RgnSt) : State := { s with rgns := s.rgns.put r x }
def State.modRgn (s : State) (r : Nat) (f : RgnSt → RgnSt) : State := s.setRgn r (f (s.rgn r))

def State.sky (s : State) (p : Nat) : SkyPort := s.skys.get .reset p
def State.setSky (s : State) (p : Nat) (x : SkyPort) : State := { s with skys := s.skys.put p x }
def State.modSky (s : State) (p : Nat) (f : SkyPort → SkyPort) : State := s.setSky p (f (s.sky p))

def State.stream (s : State) (n : Nat) : StreamSt := s.streams.get .reset n
def State.setStream (s : State) (n : Nat) (x : StreamSt) : State := { s with streams := s.streams.put n x }
def State.modStream (s : State) (n : Nat) (f : StreamSt → StreamSt) : State := s.setStream n (f (s.stream n))

def State.red (s : State) (n : Nat) : RedSt := s.reds.get .reset n
def State.setRed (s : State) (n : Nat) (x : RedSt) : State := { s with reds := s.reds.put n x }
def State.modRed (s : State) (n : Nat) (f : RedSt → RedSt) : State := s.setRed n (f (s.red n))

/-! ## Messages, notices and free values -/

/-- The state with a message put in flight inside the module. Log 5 (DESIGN CHOICE). -/
def State.send (s : State) (m : Instr) : State := { s with inFlight := s.inFlight ++ [m] }

def State.sendAll (s : State) (ms : List Instr) : State := { s with inFlight := s.inFlight ++ ms }

/-- The state with a message taken from the flight as it is delivered. Log 5 (DESIGN CHOICE). -/
def State.deliver (s : State) (m : Instr) : State := { s with inFlight := s.inFlight.erase m }

/-- The state with something sent to the outside. Log 161 (DESIGN CHOICE). -/
def State.emit (s : State) (e : Emission) : State := { s with out := s.out ++ [e] }

/-- The number of the next undefined value, and the state past it. Log 3 (DESIGN CHOICE). -/
def State.fresh (s : State) : Nat × State := (s.freeCtr, { s with freeCtr := s.freeCtr + 1 })

/-- A fault raised: its notice is on its way to the module root (R286, R579). `position` is 15 where no cell position is
concerned (R576). Log 6 (DEDUCED). -/
def State.raise (s : State) (code : Nat) (slot : Option Nat) (unit detail : Nat) (position : Nat := 15) : State :=
  s.send (.faultNotice ⟨code, slot, unit, detail, position⟩)

/-- The refusal of R2: no effect but the fault record of 0x4071. Log 136 (DEDUCED). -/
def State.reject (s : State) (slot : Option Nat := none) (unit : Nat := 0) : State := s.raise 0x4071 slot unit 0

/-! ## Partitions -/

/-- The region lies in the rectangle (R37). -/
def Rect.has (r : Rect) (n : Nat) : Bool :=
  decide (r.rowFirst ≤ regionRow n) && decide (regionRow n ≤ r.rowLast) &&
  decide (r.colFirst ≤ regionCol n) && decide (regionCol n ≤ r.colLast)

/-- The regions of a rectangle in row-major order (R42). -/
def Rect.regions (r : Rect) : List Nat := (List.range 72).filter r.has

/-- The occupied slots (R38). -/
def State.occupied (s : State) (n : Nat) : Bool := (s.slot n).state != .empty

/-- The slot whose rectangle holds a region (R38). -/
def State.slotOfRegion (s : State) (r : Nat) : Option Nat :=
  (List.range 8).find? (fun n => s.occupied n && (s.slot n).rect.has r)

def State.slotOfCell (s : State) (c : Nat) : Option Nat := s.slotOfRegion (regionOf c)

/-- A cell that takes part in a slot's work: listed, configured, in the slot's rectangle. -/
def State.slotCells (s : State) (n : Nat) : List Nat :=
  (s.cells.filter (fun e => e.2.configured && (s.slot n).rect.has (regionOf e.1))).map (fun e => e.1)

/-- The configured foremen of a slot. -/
def State.slotFms (s : State) (n : Nat) : List FmId :=
  (s.fms.filter (fun e => e.2.configured && (s.slot n).rect.has (fmOfKey e.1).region)).map (fun e => fmOfKey e.1)

/-- The gate timeout of a slot's image in ticks (R45, R109). -/
def SlotSt.timeout (x : SlotSt) : Nat := if x.gateTimeout = 0 then 4096 else x.gateTimeout

/-- The job state of a slot (R581, R604), and whether its job runs. -/
def State.jobState (s : State) (n : Nat) : Nat := s.regF (Reg.fltJob n) 3 0
def State.jobRuns (s : State) (n : Nat) : Bool := s.jobState n == 1 || s.jobState n == 2
def State.anyJob (s : State) : Bool := (List.range 8).any s.jobRuns

/-- A load is active: IMG_STATUS.state is VERIFYING to RELOAD (R61, R77). -/
def State.loadActive (s : State) : Bool :=
  decide (1 ≤ s.regF Reg.imgStatus 3 0) && decide (s.regF Reg.imgStatus 3 0 ≤ 5)

/-- The published and confirmed step of a slot, and its digest interval D (R412, R416). -/
def State.stepP (s : State) (n : Nat) : Nat := s.regF (Reg.redStep n) 31 0
def State.stepC (s : State) (n : Nat) : Nat := s.regF (Reg.redStep n) 63 32
def SlotSt.d (x : SlotSt) : Nat := max 1 x.digestInterval

/-- The slot is in the D-hold: P = C + D (R437). -/
def State.dHold (s : State) (n : Nat) : Bool := decide (s.stepP n = s.stepC n + (s.slot n).d)

/-- The bad position of a block row, 9 when it has none and 15 in a hole (R632), and a cell's physical position (R21). -/
def State.spareOf (s : State) (region row : Nat) : Nat := s.spares.get 9 (region * 240 + row)
def State.posOfCell (s : State) (c : Nat) : Nat := physPos (s.spareOf (regionOf c) (blockRowOf c)) (colOf c % 8)

/-- A fault of a cell: its slot, number and physical position go with the code (R576). -/
def State.raiseCell (s : State) (code c detail : Nat) : State :=
  s.raise code (s.slotOfCell c) c detail (s.posOfCell c)

/-- A fault of a region: its slot, and region and local block in the unit, 0x1F where no block is concerned (R576). -/
def State.raiseRgn (s : State) (code r detail : Nat) (block : Nat := 0x1F) : State :=
  s.raise code (s.slotOfRegion r) (r + block * 256) detail

end Sys2Proof.Machine
end

