-- ==== Sys2Proof/Machine/SkyLink.lean ====
section
/-! DEFINITION. The skyline's link layer: mesh sidebands (R265), attachments (R452, R453), flits and their classes (R454 to
R456), sequenced delivery, replay and credits (R458, R460), and the stations' mesh queues (R453, R462, R468). -/

namespace Sys2Proof.Machine

open Sys2Proof

/-! ## The sideband (R265) -/

def sbKind (b : BitVec 72) : Nat := bits 69 68 b
def sbXtag (b : BitVec 72) : Nat := bits 67 64 b
def sbPort (b : BitVec 72) : Nat := bits 63 60 b
def sbDest (b : BitVec 72) : Nat := bits 59 42 b
def sbSrc (b : BitVec 72) : Nat := bits 41 24 b
def sbGranule (b : BitVec 72) : Nat := bits 23 11 b
def sbLast (b : BitVec 72) : Bool := bit 10 b
def sbSky (b : BitVec 72) : Bool := bit 9 b

def sbClass (b : BitVec 72) : Option FlitClass :=
  match bits 71 70 b with
  | 0 => some .compiled
  | 1 => some .credit
  | 2 => some .detour
  | _ => none

def classCode : FlitClass → Nat
  | .compiled => 0
  | .credit => 1
  | .detour => 2

/-- Even parity holds over the sideband with its parity bit (R265). Log 144 (DEDUCED). -/
def sbGood (b : BitVec 72) : Bool := ((List.range 72).filter (fun k => bit k b)).length % 2 == 0

/-- The sideband with its parity bit formed anew. -/
def sbSeal (b : BitVec 72) : BitVec 72 :=
  let b := setBits 0 0 0 b
  if sbGood b then b else setBits 0 0 1 b

/-- The flit with its class changed. -/
def flitClassed (f : Flit) (k : FlitClass) : Flit := { f with sideband := sbSeal (setBits 71 70 (classCode k) f.sideband) }

/-- The flit as it enters the neighbouring module: sky and port 0 (R453). -/
def flitLanded (f : Flit) : Flit := { f with sideband := sbSeal (setBits 63 60 0 (setBits 9 9 0 f.sideband)) }

/-! ## Attachments (R452, R453) -/

/-- The attachment of a skyline port: its edge port, and whether it is a column edge (rows run along it) with the first
row or column and their count. -/
def attachment (p : Nat) : Port × Nat × Nat :=
  match p with
  | 4 => (.north, 0, 120)
  | 12 => (.north, 240, 120)
  | 5 => (.south, 0, 120)
  | 13 => (.south, 240, 120)
  | 6 => (.north, 120, 120)
  | 14 => (.north, 360, 120)
  | 7 => (.south, 120, 120)
  | 15 => (.south, 360, 120)
  | p => if p < 4 then (.west, 72 * p, 72) else (.east, 72 * (p - 8), 72)

/-- The attachment cell of port `p` in row or column `k`, the nearest in its range (R453). -/
def attachCell (p k : Nat) : Nat :=
  let (e, lo, n) := attachment p
  let j := max lo (min k (lo + n - 1))
  match e with
  | .north => cellAt 0 j
  | .south => cellAt 287 j
  | .west => cellAt j 0
  | _ => cellAt j 479

/-- The row, for X ports, or column, for Y and Z ports, of a cell. -/
def alongEdge (p c : Nat) : Nat :=
  match (attachment p).1 with
  | .west => rowOf c
  | .east => rowOf c
  | _ => colOf c

/-- The exit cell of a flit with sky = 1 (R453). -/
def exitCell (p src : Nat) : Nat := attachCell p (alongEdge p src)

/-- The partner port on the neighbouring module (R452). Log 40 (DEDUCED). -/
def partnerPort (p : Nat) : Nat :=
  if p < 4 then p + 8 else if p < 8 then (if p % 2 = 0 then p + 1 else p - 1)
  else if p < 12 then p - 8 else (if p % 2 = 0 then p + 1 else p - 1)

/-! ## Counting -/

/-- A count of clocks that no command gives: undefined to a reader of the model once it is not 0. -/
def State.freeCount (s : State) (a hi lo : Nat) : State :=
  let k := s.fresh
  k.2.setRegF a hi lo (Config.freeWord k.1).toNat

/-! ## Flits (R454, R455) -/

def skyType (f : SkyFlit) : Nat := bits 63 60 f.header
def skySeq (f : SkyFlit) : Nat := bits 59 48 f.header
def skyAck (f : SkyFlit) : Nat := bits 47 36 f.header
def skyNak (f : SkyFlit) : Bool := bit 35 f.header
def skyVc (f : SkyFlit) : Nat := bits 34 33 f.header
def skyCredit (f : SkyFlit) : Nat := bits 32 23 f.header
def skySlots (f : SkyFlit) : Nat := bits 22 21 f.header

/-- The CRC of a flit's header and payload (R454). -/
def skyCrc (header : Word) (payload : Bytes) : Word := crc64 (toLE 8 header.toNat ++ slice payload 0 240)

def skyGood (f : SkyFlit) : Bool := f.crc == skyCrc f.header f.payload

/-- A mesh flit's slot of 80 bytes, and the mesh flit in a slot (R455). -/
def meshSlot (f : Flit) : Bytes := slice f.data 0 64 ++ toLE 9 f.sideband.toNat ++ List.replicate 7 0
def slotMesh (b : Bytes) : Flit := ⟨slice b 0 64, BitVec.ofNat 72 (leAt b 64 9)⟩

/-- Credits to return with the next flit: the first class that has any (R454, R460). -/
def returnVc (f : Nat × Nat × Nat) : Nat × Nat × (Nat × Nat × Nat) :=
  let (m, t, r) := f
  if 0 < m then (0, min m 1023, (m - min m 1023, t, r))
  else if 0 < t then (1, min t 1023, (m, t - min t 1023, r))
  else (2, min r 1023, (m, t, r - min r 1023))

/-- A port that carries sequenced flits. -/
def PortState.linked : PortState → Bool
  | .up => true
  | .admitted => true
  | .quiesced => true
  | _ => false

/-- Fewer than 2,048 flits await acknowledgement (R458). Log 31 (DESIGN CHOICE). -/
def SkyPort.room (x : SkyPort) : Bool := decide (x.replay.length < 2048)

/-- A flit of `type` sent on port `p`: sequenced unless IDLE, with the acknowledgement and credits that are due (R454,
R458). -/
def State.sendSky (s : State) (p type slots : Nat) (payload : Bytes) (nak : Bool := false) : State :=
  let x := s.sky p
  let (vc, n, rest) := returnVc x.freed
  let seq := if type = 0 then 0 else x.nextSeq
  let h := BitVec.ofNat 64 (field 63 60 type + field 59 48 seq + field 47 36 (x.expect + 4095) + field 35 35 (ofBool nak) +
    field 34 33 vc + field 32 23 n + field 22 21 slots)
  let f : SkyFlit := ⟨h, slice payload 0 240, skyCrc h payload⟩
  let x := { x with freed := rest, owed := 0 }
  let x := if type = 0 then x else { x with nextSeq := (x.nextSeq + 1) % 4096, replay := x.replay ++ [f] }
  let s := (s.setSky p x).emit (.sky p f)
  if type = 0 then s else s.addReg (Reg.skyTx p) 63 0 1

/-- Payload bytes that the spec does not lay out (R455: TRAIL and CTRL messages). Log 38 (DESIGN CHOICE). -/
def State.freeBytes (s : State) (n : Nat) : Bytes × State :=
  let k := s.fresh
  ((List.range n).map (Config.freeByte k.1), k.2)

/-- A link control message on port `p` (R455). Log 38 (DESIGN CHOICE). -/
def State.sendCtrl (s : State) (p : Nat) (m : Instr) : State :=
  let s := s.emit (.ctrl p m)
  let b := s.freeBytes 240
  if (s.sky p).room then b.2.sendSky p 4 0 b.1 else s

/-- A trail message for another module leaves by the lowest-numbered ADMITTED port of its direction (R463); `p` is that
port. The TRAIL flit holds one message. Log 38 (DESIGN CHOICE). -/
def State.sendTrail (s : State) (m : Nat) (p : Option Nat) (msg : Instr) : State :=
  let s := s.emit (.trail m msg)
  match p with
  | some p =>
    let x := s.sky p
    if x.room && decide (0 < x.credits.2.2) then
      let b := s.freeBytes 224
      (b.2.modSky p (fun x => { x with credits := (x.credits.1, x.credits.2.1, x.credits.2.2 - 1) })).sendSky p 3 0
        (b.1 ++ List.replicate 16 0)
    else s
  | none => s

/-! ## Stations (R453, R456, R460, R468) -/

/-- Up to three waiting mesh flits leave station `p` in one MESH flit; their routers' credits return. -/
def State.sendMesh (s : State) (p : Nat) : State :=
  let x := s.sky p
  let go := x.mesh.take 3
  let e := (attachment p).1
  let s := s.setSky p { x with mesh := x.mesh.drop 3, credits := (x.credits.1 - 1, x.credits.2), tileTurn := true }
  let s := s.sendSky p 1 go.length (go.flatMap (fun g => meshSlot g.2))
  s.sendAll (go.map (fun g => .creditReturn g.1 e .credit))

/-- One flit of the oldest waiting tile leaves port `p`. -/
def State.sendTileFlit (s : State) (p : Nat) : State :=
  let x := s.sky p
  match x.tiles with
  | [] => s
  | t :: r =>
    let x := { x with tiles := if t.length ≤ 240 then r else t.drop 240 :: r, tileBusy := decide (240 < t.length),
                      credits := (x.credits.1, x.credits.2.1 - 1, x.credits.2.2), tileTurn := false }
    (s.setSky p x).sendSky p 2 0 (slice t 0 240)

/-- Flits sent while the port is ADMITTED (or finishes a tile it had begun, R471), the replay buffer has room and credits
are held: MESH and TILE in turn (R456, R460, R468). `due` says that the oldest mesh flit has waited 16 ns. -/
def State.drainSky : Nat → State → Nat → Bool → State
  | 0, s, _, _ => s
  | n + 1, s, p, due =>
    let x := s.sky p
    let meshReady := x.state == .admitted && (decide (3 ≤ x.mesh.length) || (due && !x.mesh.isEmpty))
    let mesh := meshReady && decide (0 < x.credits.1)
    let tile := (x.state == .admitted || x.tileBusy) && !x.tiles.isEmpty && decide (0 < x.credits.2.1)
    if !x.state.linked || !x.room then s
    else if mesh && (!tile || !x.tileTurn) then State.drainSky n (s.sendMesh p) p due
    else if tile then State.drainSky n (s.sendTileFlit p) p due
    else if meshReady then s.freeCount (Reg.skyHeld p) 62 32
    else s

/-- The flits that may leave a port now. -/
def State.drainPort (s : State) (p : Nat) (due : Bool := false) : State :=
  let x := s.sky p
  s.drainSky (x.mesh.length + (x.tiles.map List.length).sum + 1) p due

/-- A mesh flit that its router hands to station `p` (R453, R462): a failed parity discards it, counts it and raises 0x4063;
on a port that is not ADMITTED it waits, and 0x4065 is raised once per beat window (R468). Log 37 (DESIGN CHOICE). -/
def State.toStation (s : State) (p c : Nat) (f : Flit) : State :=
  if !sbGood f.sideband then
    ((s.satReg (Reg.skyHeld p) 31 0 1).raise 0x4063 none p 0).send (.creditReturn c (attachment p).1 .credit)
  else
    let x := s.sky p
    let s := s.setSky p { x with mesh := x.mesh ++ [(c, f)] }
    if x.state = .admitted then s.drainPort p
    else if x.warned then s
    else (s.modSky p (fun x => { x with warned := true })).raise 0x4065 none p 0

/-- A tile for port `p` (R455, R463). -/
def State.toTileQueue (s : State) (p : Nat) (t : Bytes) : State :=
  (s.modSky p (fun x => { x with tiles := x.tiles ++ [t] })).drainPort p

end Sys2Proof.Machine
end

