-- ==== Sys2Proof/Machine/Ethernet.lean ====
section
/-! DEFINITION. The Ethernet ports (R476 to R479, R490, R504), KCT frames and sessions (R482 to R489, R491) and RoCEv2 queue
pairs (R480, R481). Bulk windows are in Bulk; what a request does is in Control. -/

namespace Sys2Proof.Machine

open Sys2Proof

/-! ## Ports (R476, R477, R490) -/

def State.ethPort (s : State) (q : Nat) : EthPort := s.eth.ports.get .reset q
def State.setEthPort (s : State) (q : Nat) (x : EthPort) : State :=
  { s with eth := { s.eth with ports := s.eth.ports.put q x } }

/-- The service modes of a port (R507). -/
inductive PortMode where
  | dark | mgmt | full | recovery
deriving DecidableEq, Repr

def PortMode.code : PortMode → Nat
  | .dark => 0
  | .mgmt => 1
  | .full => 2
  | .recovery => 3

/-- The mode of a port by the module's boot stage (R490). -/
def State.portMode (s : State) (q : Nat) : PortMode :=
  if bit 31 (s.reg (Reg.ethPortCtrl q)) then .dark
  else match s.boot.stage with
    | 0 => .dark
    | 1 => .dark
    | 6 => .full
    | 8 => .full
    | 0xF => .recovery
    | _ => .mgmt

/-- The port carries frames. -/
def State.portLive (s : State) (q : Nat) : Bool := (s.ethPort q).link && s.portMode q != .dark

def State.countRx (s : State) (q : Nat) : State := s.addReg (Reg.ethRx q) 63 0 1

/-- A frame sent. -/
def State.sendEth (s : State) (q : Nat) (e : EthSend) : State := (s.emit (.eth q e)).addReg (Reg.ethTx q) 63 0 1

/-- The port's receive buffer of a priority holds `fill` bytes: PAUSE goes out when it passes 75 % of 4 MiB, and its end when
it no longer does (R477). -/
def State.buffer (s : State) (q prio fill : Nat) : State :=
  let x := s.ethPort q
  let on := decide (3145728 < fill)
  let mine := prio = s.regF (Reg.ethPortCtrl q) 2 0 ∨ prio = s.regF (Reg.ethPortCtrl q) 5 3
  if mine ∧ on ≠ bit prio x.pausing then
    (s.setEthPort q { x with pausing := setBits prio prio (ofBool on) x.pausing }).sendEth q (.pause prio on)
  else s

/-- The link-local address that the MAC address forms. Log 72 (PRESUMED). -/
def linkLocal (q : Nat) : BitVec 128 :=
  let m := (Config.mac q).toNat
  BitVec.ofNat 128 (0xFE80 * 2 ^ 112 + (m / 2 ^ 24 ^^^ 0x020000) * 2 ^ 40 + 0xFFFE * 2 ^ 24 + m % 2 ^ 24)

/-- The port's own addresses: link-local, static IPv6, static IPv4 (R476). -/
def State.ownAddr (s : State) (q : Nat) (a : NetAddr) : Bool :=
  if a.v4 then bit 32 (s.reg (Reg.ethIp4 q)) && bits 31 0 a.ip == s.regF (Reg.ethIp4 q) 31 0
  else
    let ip := (s.reg (Reg.ethIp6Hi q)).toNat * 2 ^ 64 + (s.reg (Reg.ethIp6Lo q)).toNat
    a.ip == linkLocal q || (ip != 0 && a.ip.toNat == ip)

/-- The management address of R478. -/
def State.mgmtAddr (s : State) (q : Nat) : NetAddr :=
  let ip := (s.reg (Reg.ethIp6Hi q)).toNat * 2 ^ 64 + (s.reg (Reg.ethIp6Lo q)).toNat
  if ip ≠ 0 then ⟨false, BitVec.ofNat 128 ip⟩
  else if bit 32 (s.reg (Reg.ethIp4 q)) then ⟨true, BitVec.ofNat 128 (s.regF (Reg.ethIp4 q) 31 0)⟩
  else ⟨false, linkLocal q⟩

def State.dropOther (s : State) (q : Nat) : State := s.satReg (Reg.ethDrops q) 15 0 1

/-- NEIGHBOR_REQUEST: ARP, Neighbor Discovery and echo answered for the port's own addresses; others are dropped and
counted (R476, R490). -/
def execNeighborRequest (q : Nat) (kind : NeighborKind) (source target : NetAddr) (s : State) :
    Host.Outcome State Fault Refusal :=
  .next (
    if !s.portLive q then s
    else
      let s := s.countRx q
      let v4 := match kind with
        | .arp => true
        | .echo4 => true
        | _ => false
      if target.v4 = v4 ∧ s.ownAddr q target = true then s.sendEth q (.neighbor kind source) else s.dropOther q)

/-- LLDP_TRANSMIT_TIMER (R478). -/
def execLldpTransmitTimer (s : State) : Host.Outcome State Fault Refusal :=
  .next (([0, 1] : List Nat).foldl (fun s q =>
    if s.portLive q then s.sendEth q (.lldp Config.serial 120 (s.mgmtAddr q)) else s) s)

/-- LLDP_RECEIVED (R478, R507). Log 73 (DESIGN CHOICE). -/
def execLldpReceived (q ttl : Nat) (mac : BitVec 48) (s : State) : Host.Outcome State Fault Refusal :=
  .next (if s.portLive q then
      (s.countRx q).setReg (Reg.ethLldp q) (BitVec.ofNat 64 (field 63 48 ttl + field 47 0 mac.toNat))
    else s)

/-- PAUSE_RECEIVED (R477). -/
def execPauseReceived (q prio : Nat) (on : Bool) (fill : Nat) (s : State) : Host.Outcome State Fault Refusal :=
  .next (if s.portLive q then
      let s := s.countRx q
      let x := s.ethPort q
      let mine := prio = s.regF (Reg.ethPortCtrl q) 2 0 ∨ prio = s.regF (Reg.ethPortCtrl q) 5 3
      (if mine then s.setEthPort q { x with paused := setBits prio prio (ofBool on) x.paused } else s).buffer q prio fill
    else s)

/-- ETH_LINK_UP: the partner has trained (R504); a DARK port's transmitter is off (R490). -/
def execEthLinkUp (q : Nat) (s : State) : Host.Outcome State Fault Refusal :=
  .next (if s.portMode q = .dark then s else s.setEthPort q { s.ethPort q with link := true })

/-! ## The access list (R489, R508) -/

/-- An access-list entry matches a source address. -/
def State.aclHit (s : State) (n : Nat) (a : NetAddr) : Bool :=
  let ctl := s.reg (Reg.ethAcl n + 16)
  let len := bits 7 0 ctl
  let hi := s.reg (Reg.ethAcl n)
  let lo := s.reg (Reg.ethAcl n + 8)
  if !bit 63 ctl || bit 62 ctl != a.v4 then false
  else if a.v4 then
    let l := min len 32
    bits 31 0 lo / 2 ^ (32 - l) == bits 31 0 a.ip / 2 ^ (32 - l)
  else
    let l := min len 128
    (hi.toNat * 2 ^ 64 + lo.toNat) / 2 ^ (128 - l) == a.ip.toNat / 2 ^ (128 - l)

def State.aclOk (s : State) (a : NetAddr) : Bool :=
  !bit 0 (s.reg Reg.ethKct) || (List.range 16).any (fun n => s.aclHit n a)

/-! ## KCT frames (R482 to R486) -/

namespace Kct

def ok : Nat := 0x00
def badAddress : Nat := 0x01
def notReady : Nat := 0x02
def busy : Nat := 0x03
def rejected : Nat := 0x04
def badFrame : Nat := 0x05
def badSession : Nat := 0x06
def sequence : Nat := 0x07
def window : Nat := 0x08
def tierError : Nat := 0x09
def denied : Nat := 0x0A

end Kct

/-- Bytes 0x00 to 0x1B of a frame's header (R482). -/
def kctHeader (f : KctFrame) : Bytes :=
  toLE 2 f.magic.toNat ++ [f.version, f.op, f.status, f.reserved] ++ toLE 2 f.length.toNat ++ toLE 4 f.session.toNat ++
  toLE 4 f.seq.toNat ++ toLE 8 f.address.toNat ++ toLE 2 f.count.toNat ++ toLE 2 f.reserved2.toNat

/-- What an answer carries. -/
structure Reply where
  status  : Nat
  address : Nat
  count   : Nat
  payload : Bytes
deriving DecidableEq, Repr

def replyOf (status : Nat) (address : Nat := 0) : Reply := ⟨status, address, 0, []⟩

/-- The answer frame of a request, in session `sess`. -/
def kctAnswer (f : KctFrame) (sess : Nat) (r : Reply) : KctFrame :=
  let g : KctFrame := { f with
    magic := 0x544B, version := 1, op := f.op ||| 0x80, status := BitVec.ofNat 8 r.status, reserved := 0,
    length := BitVec.ofNat 16 r.payload.length, session := BitVec.ofNat 32 sess, address := BitVec.ofNat 64 r.address,
    count := BitVec.ofNat 16 r.count, reserved2 := 0, payload := r.payload }
  { g with check := crc32c (kctHeader g) }

/-- An answer sent where its request came from: on its port, or on queue pair `qp` (R480). -/
def State.sendAnswer (s : State) (qp : Option Nat) (g : KctFrame) : State :=
  match qp with
  | none => (s.emit (.kct g)).addReg (Reg.ethTx g.port) 63 0 1
  | some q => s.sendEth g.port (.send q g)

def State.answer (s : State) (qp : Option Nat) (f : KctFrame) (r : Reply) : State :=
  s.sendAnswer qp (kctAnswer f f.session.toNat r)

/-- The operations of R484 that a host sends. -/
def kctOps : List Byte := [0x01, 0x02, 0x10, 0x11, 0x20, 0x30, 0x31]

/-- The retry time of R491 while booting: at least 100 ms, and within the time that stage 5 ends at most.
Log 71 (DESIGN CHOICE). -/
def State.retryTime (s : State) : Nat × State :=
  match s.boot.stage with
  | 0xF => (0xFFFF_FFFF_FFFF_FFFF, s)
  | 7 => (30, s)
  | _ =>
    let k := s.fresh
    (100 + (Config.freeWord k.1).toNat % 5801, k.2)

/-- Log 71 (DESIGN CHOICE). -/
def State.answerNotReady (s : State) (qp : Option Nat) (f : KctFrame) : State :=
  let t := s.retryTime
  t.2.answer qp f (replyOf Kct.notReady t.1)

/-! ## Sessions (R487, R488) -/

def State.session (s : State) (k : Nat) : Option Session := s.eth.sessions.find k

def State.setSession (s : State) (k : Nat) (x : Session) : State :=
  { s with eth := { s.eth with sessions := s.eth.sessions.put k x } }

def State.win (s : State) (w : Nat) : WinSt := s.eth.wins.get .reset w
def State.setWin (s : State) (w : Nat) (x : WinSt) : State := { s with eth := { s.eth with wins := s.eth.wins.put w x } }

/-- A window closes (R33, R502). -/
def State.closeWin (s : State) (w : Nat) : State :=
  s.setWin w { s.win w with state := .closed, owner := 0, since := 0, peer := none }

/-- A session ends, and its windows close (R487). -/
def State.closeSession (s : State) (k : Nat) : State :=
  let s := { s with eth := { s.eth with sessions := s.eth.sessions.del k } }
  (List.range 4).foldl (fun s w => if (s.win w).state ≠ .closed ∧ (s.win w).owner = k then s.closeWin w else s) s

/-- The session of a frame: open, and bound to the frame's source. Log 70 (DEDUCED). -/
def State.sessionOf (s : State) (f : KctFrame) : Option Session :=
  match s.session f.session.toNat with
  | some x => if x.source = f.source ∧ x.udp = f.udp then some x else none
  | none => none

/-- SESSION_IDLE_TIMEOUT (R487). -/
def execSessionIdleTimeout (k : Nat) (s : State) : Host.Outcome State Fault Refusal :=
  .next (if (s.session k).isSome then s.closeSession k else s)

/-! ## The front end of a request (R483, R488, R489, R490) -/

/-- What the front end makes of a frame. -/
inductive Front where
  | done (s : State)
  | run (s : State)

/-- In the present mode the operation is served at all (R490, R492); READ and WRITE are checked per register, and MAILBOX
per command. -/
def opServed (m : PortMode) (stage : Nat) (op : Byte) : Bool :=
  match m with
  | .full => true
  | .mgmt => op == 0x01 || op == 0x02 || op == 0x10 || (stage == 7 && op != 0x30 && op != 0x31)
  | .recovery => op == 0x01 || op == 0x02 || op == 0x10 || op == 0x20
  | .dark => false

/-- The checks that precede a request's execution, in this order: magic and check, access list, frame, mode, session and
sequence. Bulk frames carry no sequence number. Log 70 (DEDUCED). -/
def State.kctFront (s : State) (qp : Option Nat) (f : KctFrame) : Front :=
  if !s.portLive f.port then .done s
  else
    let s := if qp.isNone then s.countRx f.port else s
    if f.magic ≠ 0x544B ∨ f.check ≠ crc32c (kctHeader f) then .done (s.satReg (Reg.ethDrops f.port) 62 48 1)
    else if !s.aclOk f.source then .done ((s.satReg (Reg.ethDrops f.port) 31 16 1).answer qp f (replyOf Kct.denied))
    else if f.version ≠ 1 ∨ 8192 < f.length.toNat ∨ f.length.toNat ≠ f.payload.length ∨ !kctOps.contains f.op then
      .done (s.answer qp f (replyOf Kct.badFrame))
    else if !opServed (s.portMode f.port) s.boot.stage f.op then .done (s.answerNotReady qp f)
    else if f.op = 0x01 then .run s
    else match s.sessionOf f with
      | none => .done (s.answer qp f (replyOf Kct.badSession))
      | some x =>
        if f.op = 0x30 ∨ f.op = 0x31 then .run s
        else match x.high with
          | none => .run s
          | some h =>
            if h < f.seq.toNat then .run s
            else match x.kept.find? (fun g => g.seq == f.seq) with
              | some g => .done (s.sendAnswer qp { g with port := f.port, source := f.source, udp := f.udp })
              | none => .done (s.answer qp f (replyOf Kct.sequence))

/-- An executed request's answer is sent, and kept for its session with the last 255 before it (R488). Log 70 (DEDUCED). -/
def State.finish (s : State) (qp : Option Nat) (f : KctFrame) (r : Reply) : State :=
  let g := kctAnswer f f.session.toNat r
  let s := match s.session f.session.toNat with
    | some x => s.setSession f.session.toNat { x with high := some f.seq.toNat, kept := (g :: x.kept).take 256 }
    | none => s
  s.sendAnswer qp g

/-- OPEN: the lowest free session, bound to the request's source, or BUSY (R487). Log 70 (DEDUCED). -/
def State.kctOpen (s : State) (qp : Option Nat) (f : KctFrame) : State :=
  match (List.range 16).find? (fun k => (s.session (k + 1)).isNone) with
  | some k => (s.setSession (k + 1) ⟨f.source, f.udp, none, []⟩).sendAnswer qp (kctAnswer f (k + 1) (replyOf Kct.ok))
  | none => s.answer qp f (replyOf Kct.busy)

/-- CLOSE (R487). -/
def State.kctClose (s : State) (qp : Option Nat) (f : KctFrame) : State :=
  (s.closeSession f.session.toNat).answer qp f (replyOf Kct.ok)

/-! ## Queue pairs (R480, R481) -/

def lineRate : Nat := 800000000000

def State.qp (s : State) (k : Nat) : Option QpSt := s.eth.qps.find k
def State.setQp (s : State) (k : Nat) (x : QpSt) : State := { s with eth := { s.eth with qps := s.eth.qps.put k x } }

/-- A RoCEv2 frame is taken on a port in FULL mode; in another mode it is dropped and counted (R490). -/
def State.roceFrame (s : State) (q : Nat) (act : State → State) : State :=
  if !s.portLive q then s
  else if s.portMode q = .full then act (s.countRx q)
  else (s.countRx q).satReg (Reg.ethDrops q) 47 32 1

/-- ROCE_CONNECT: a queue pair bound to the port, refused by the access list or when 64 are open (R480, R489). -/
def execRoceConnect (q : Nat) (source : NetAddr) (s : State) : Host.Outcome State Fault Refusal :=
  .next (s.roceFrame q (fun s =>
    if !s.aclOk source then (s.satReg (Reg.ethDrops q) 31 16 1).sendEth q (.connect none)
    else match (List.range 64).find? (fun k => (s.qp k).isNone) with
      | some k => (s.setQp k ⟨q, false, lineRate, none⟩).sendEth q (.connect (some k))
      | none => s.sendEth q (.connect none)))

/-- ROCE_DISCONNECT (R480). -/
def execRoceDisconnect (k : Nat) (s : State) : Host.Outcome State Fault Refusal :=
  .next { s with eth := { s.eth with qps := s.eth.qps.del k } }

/-- ECN_CE_RECEIVED: a CNP at most once every 50 µs for each queue pair (R481). -/
def execEcnCeReceived (k time : Nat) (s : State) : Host.Outcome State Fault Refusal :=
  .next (match s.qp k with
    | some x =>
      let due := match x.lastCnp with
        | some t => decide (t + 50000 ≤ time)
        | none => true
      s.roceFrame x.port (fun s =>
        if due && !x.failed then (s.setQp k { x with lastCnp := some time }).sendEth x.port (.cnp k) else s)
    | none => s)

/-- CNP_RECEIVED: the queue pair halves its rate, down to 1 Gbit/s, unless ecn_react is 0 (R481). -/
def execCnpReceived (k : Nat) (s : State) : Host.Outcome State Fault Refusal :=
  .next (match s.qp k with
    | some x => s.roceFrame x.port (fun s =>
        if bit 0 (s.reg Reg.ethRoce) then s.setQp k { x with rate := max 1000000000 (x.rate / 2) } else s)
    | none => s)

/-- RATE_INCREASE_TIMER: 55 µs without a CNP (R481). -/
def execRateIncreaseTimer (k : Nat) (s : State) : Host.Outcome State Fault Refusal :=
  .next (match s.qp k with
    | some x => s.setQp k { x with rate := min lineRate (x.rate + lineRate / 20) }
    | none => s)

end Sys2Proof.Machine
end

