-- ==== Sys2Proof/Machine/Numerics.lean ====
section
/-! DEFINITION. Number formats, exact values, rounding and conversions (R165 to R184), the events they raise, and the
elementary functions of R223. -/

namespace Sys2Proof.Machine

open Sys2Proof

/-- An exact value: `(−1)^neg × m × 2^e` (a signed zero when `m = 0`), an infinity, or a NaN (R165, R168). -/
inductive Num where
  | fin (neg : Bool) (m : Nat) (e : Int)
  | inf (neg : Bool)
  | nan
deriving DecidableEq, Repr

/-- The event flags of R184 in the order of the numerics word: INV, OVF, UNF, NANIN, SAT, EMPTY from bit 5 down. -/
abbrev Ev := BitVec 6

def evNone : Ev := 0#6
def evInv : Ev := 32#6
def evOvf : Ev := 16#6
def evUnf : Ev := 8#6
def evNanin : Ev := 4#6
def evSat : Ev := 2#6
def evEmpty : Ev := 1#6

def Num.zero : Num := .fin false 0 0
def Num.one : Num := .fin false 1 0

def Num.isNan : Num → Bool
  | .nan => true
  | _ => false

def Num.isInf : Num → Bool
  | .inf _ => true
  | _ => false

def Num.isZero : Num → Bool
  | .fin _ 0 _ => true
  | _ => false

def Num.sign : Num → Bool
  | .fin n _ _ => n
  | .inf n => n
  | .nan => false

def Num.neg : Num → Num
  | .fin n m e => .fin (!n) m e
  | .inf n => .inf (!n)
  | .nan => .nan

def Num.abs : Num → Num
  | .fin _ m e => .fin false m e
  | .inf _ => .inf false
  | .nan => .nan

/-- An integer as an exact value. -/
def Num.ofInt (i : Int) : Num := .fin (decide (i < 0)) i.natAbs 0

/-- The value times `2^k`. -/
def Num.scale (k : Int) : Num → Num
  | .fin n m e => .fin n m (e + k)
  | v => v

/-- `m × 2^e` as an integer multiple of `2^q`, for `q ≤ e`. -/
def mantAt (q : Int) : Num → Int
  | .fin n m e => (if n then -1 else 1) * (m : Int) * 2 ^ (e - q).toNat
  | _ => 0

/-- The exponent of an exact finite value. -/
def Num.exp : Num → Int
  | .fin _ _ e => e
  | _ => 0

/-- The exact sum of finite and infinite addends, by R167 and R184: a NaN addend gives a NaN, infinities of both signs
give a NaN with INV, and an exact zero is −0 only when every addend is a zero with the sign −. Log 54 (DEDUCED). -/
def Num.sum (vs : List Num) : Num × Ev :=
  if vs.any Num.isNan then (.nan, evNone)
  else
    let infs := vs.filter Num.isInf
    match infs with
    | v :: _ => if infs.all (fun w => w.sign == v.sign) then (v, evNone) else (.nan, evInv)
    | [] =>
      let q := vs.foldl (fun a v => min a v.exp) 0
      let t := vs.foldl (fun a v => a + mantAt q v) (0 : Int)
      if t = 0 then (.fin (!vs.isEmpty && vs.all (fun v => v.isZero && v.sign)) 0 0, evNone)
      else (.fin (decide (t < 0)) t.natAbs q, evNone)

/-- The exact sum of two values. -/
def Num.add (a b : Num) : Num × Ev := Num.sum [a, b]

/-- The exact product (R167): 0 × ∞ gives a NaN with INV (R184). -/
def Num.mul : Num → Num → Num × Ev
  | .nan, _ => (.nan, evNone)
  | _, .nan => (.nan, evNone)
  | .inf a, .inf b => (.inf (xor a b), evNone)
  | .inf a, .fin b m _ => if m = 0 then (.nan, evInv) else (.inf (xor a b), evNone)
  | .fin a m _, .inf b => if m = 0 then (.nan, evInv) else (.inf (xor a b), evNone)
  | .fin a m e, .fin b n f => (.fin (xor a b) (m * n) (e + f), evNone)

/-- Exact comparison of values that are not NaN: `a < b`, zeros of either sign equal. -/
def Num.lt : Num → Num → Bool
  | .nan, _ => false
  | _, .nan => false
  | .inf a, .inf b => a && !b
  | .inf a, .fin _ _ _ => a
  | .fin _ _ _, .inf b => !b
  | .fin a m e, .fin b n f =>
    let q := min e f
    decide (mantAt q (.fin a m e) < mantAt q (.fin b n f))

/-- The order of R218 and R225: exact, with +0.0 above −0.0. -/
def Num.below (a b : Num) : Bool :=
  a.lt b || (a.isZero && b.isZero && a.sign && !b.sign)

def Num.maxZ (a b : Num) : Num := if Num.below a b then b else a
def Num.minZ (a b : Num) : Num := if Num.below b a then b else a

/-- A floating-point format of R165: exponent bits, fraction bits, bias, and whether it has infinities (R166). -/
structure FloatFmt where
  ebits : Nat
  fbits : Nat
  bias  : Nat
  hasInf : Bool
deriving DecidableEq, Repr

/-- The format of a format code (R165, R170, R171, R173). -/
inductive Fmt where
  | float (f : FloatFmt)
  | int (bytes : Nat) (isSigned : Bool)
  | mx (f : FloatFmt) (emax : Nat)
  | mxint
  | sign1
deriving DecidableEq, Repr

def fBF16 : FloatFmt := ⟨8, 7, 127, true⟩
def fFP16 : FloatFmt := ⟨5, 10, 15, true⟩
def fE4M3 : FloatFmt := ⟨4, 3, 7, false⟩
def fE5M2 : FloatFmt := ⟨5, 2, 15, true⟩
def fFP32 : FloatFmt := ⟨8, 23, 127, true⟩
def fW40 : FloatFmt := ⟨8, 31, 127, true⟩
def fFP64 : FloatFmt := ⟨11, 52, 1023, true⟩

/-- The format codes of R165, R170, R171 and R173. -/
def fmtOf : Nat → Option Fmt
  | 0x00 => some (.float fBF16)
  | 0x01 => some (.float fFP16)
  | 0x02 => some (.float fE4M3)
  | 0x03 => some (.float fE5M2)
  | 0x04 => some (.int 1 true)
  | 0x05 => some (.int 1 false)
  | 0x06 => some (.int 2 true)
  | 0x07 => some (.int 2 false)
  | 0x08 => some (.mx fE4M3 8)
  | 0x09 => some (.mx fE5M2 15)
  | 0x0A => some .mxint
  | 0x10 => some (.float fFP32)
  | 0x11 => some (.float fW40)
  | 0x12 => some (.float fFP64)
  | 0x13 => some (.int 4 true)
  | 0x20 => some .sign1
  | _ => none

/-- The bytes of one element of a format in a memory; an MX element is one byte beside its scales (R172). -/
def Fmt.bytes : Fmt → Nat
  | .float f => (1 + f.ebits + f.fbits + 7) / 8
  | .int b _ => b
  | .mx _ _ => 1
  | .mxint => 1
  | .sign1 => 0

def Fmt.isMx : Fmt → Bool
  | .mx _ _ => true
  | .mxint => true
  | _ => false

/-- The value that the bits `w` of a floating-point format encode (R165, R166, R168). -/
def FloatFmt.decode (f : FloatFmt) (w : Nat) : Num :=
  let frac := w % 2 ^ f.fbits
  let ex := w / 2 ^ f.fbits % 2 ^ f.ebits
  let sg := decide (w / 2 ^ (f.fbits + f.ebits) % 2 = 1)
  if ex = 2 ^ f.ebits - 1 ∧ f.hasInf then
    if frac = 0 then .inf sg else .nan
  else if ex = 2 ^ f.ebits - 1 ∧ frac = 2 ^ f.fbits - 1 then .nan
  else if ex = 0 then .fin sg frac (1 - (f.bias : Int) - f.fbits)
  else .fin sg (2 ^ f.fbits + frac) ((ex : Int) - f.bias - f.fbits)

/-- The canonical NaN of a format, sign + (R165, R168). -/
def FloatFmt.nanBits (f : FloatFmt) : Nat :=
  if f.hasInf then (2 ^ f.ebits - 1) * 2 ^ f.fbits + 2 ^ (f.fbits - 1)
  else (2 ^ f.ebits - 1) * 2 ^ f.fbits + (2 ^ f.fbits - 1)

def FloatFmt.signBit (f : FloatFmt) (n : Bool) : Nat := if n then 2 ^ (f.ebits + f.fbits) else 0

/-- The bits of the largest finite value (R165). -/
def FloatFmt.maxBits (f : FloatFmt) : Nat :=
  if f.hasInf then (2 ^ f.ebits - 1) * 2 ^ f.fbits - 1
  else (2 ^ f.ebits - 1) * 2 ^ f.fbits + (2 ^ f.fbits - 2)

/-- The bits of infinity, or of the largest finite value of a format without one (R180). -/
def FloatFmt.infBits (f : FloatFmt) : Nat :=
  if f.hasInf then (2 ^ f.ebits - 1) * 2 ^ f.fbits else f.maxBits

/-- The rounding modes of R176. -/
inductive Rnd where
  | nearest | zero | stoch
deriving DecidableEq, Repr

/-- The rnd field's codes (R92, R176); 3 is reserved. -/
def rndOf : Nat → Option Rnd
  | 0 => some .nearest
  | 1 => some .zero
  | 2 => some .stoch
  | _ => none

/-- `m ÷ 2^sh` rounded to an integer (R176, R177): the kept digits, one more when the discarded fraction rounds up. -/
def roundShift (rnd : Rnd) (draw : Nat) (m sh : Nat) : Nat :=
  let k := m / 2 ^ sh
  let rem := m % 2 ^ sh
  match rnd with
  | .nearest => if 2 * rem > 2 ^ sh ∨ (2 * rem = 2 ^ sh ∧ k % 2 = 1 ∧ 0 < sh) then k + 1 else k
  | .zero => k
  | .stoch => if draw < rem * 2 ^ 32 / 2 ^ sh then k + 1 else k

/-- A value converted to a floating-point format under rnd (R180): its bits and the OVF and UNF events. `sat` is
sat_narrow (R198). The canonical NaN of the format stands for a NaN. -/
def FloatFmt.encode (f : FloatFmt) (rnd : Rnd) (draw : Nat) (sat : Bool) : Num → Nat × Ev
  | .nan => (f.nanBits, evNone)
  | .inf n => (f.signBit n + f.infBits, if f.hasInf then evNone else evOvf)
  | .fin n 0 _ => (f.signBit n, evNone)
  | .fin n m e =>
    let top : Int := (Nat.log2 m : Int) + e
    let q : Int := max top (1 - (f.bias : Int)) - f.fbits
    let k := if e ≥ q then m * 2 ^ (e - q).toNat else roundShift rnd draw m (q - e).toNat
    -- k × 2^q; k may have reached the next power of two, which the sum below carries into the exponent field
    let lead : Nat := (q + f.fbits + f.bias - 1).toNat
    let w := lead * 2 ^ f.fbits + k
    if k = 0 then (f.signBit n, evUnf)
    else if w > f.maxBits then
      (f.signBit n + (if sat ∨ rnd = .zero then f.maxBits else f.infBits), evOvf)
    else (f.signBit n + w, evNone)

/-- The least and greatest values of an integer format (R170). -/
def intMin (bytes : Nat) (isSigned : Bool) : Int := if isSigned then -(2 ^ (8 * bytes - 1) : Nat) else 0
def intMax (bytes : Nat) (isSigned : Bool) : Int :=
  if isSigned then ((2 ^ (8 * bytes - 1) : Nat) : Int) - 1 else ((2 ^ (8 * bytes) : Nat) : Int) - 1

/-- A value rounded to an integer under rnd (R181). -/
def roundInt (rnd : Rnd) (draw : Nat) (n : Bool) (m : Nat) (e : Int) : Int :=
  let k : Nat := if e ≥ 0 then m * 2 ^ e.toNat else roundShift rnd draw m (-e).toNat
  if n then -(k : Int) else k

/-- A value converted to an integer format (R181, R182): out of range takes the nearest end with SAT, a negative value in an
unsigned format gives 0 with SAT, a NaN gives 0 with INV (R184). -/
def encodeInt (bytes : Nat) (isSigned : Bool) (rnd : Rnd) (draw : Nat) : Num → Int × Ev
  | .nan => (0, evInv)
  | .inf n => (if n then intMin bytes isSigned else intMax bytes isSigned, evSat)
  | .fin n m e =>
    let v := roundInt rnd draw n m e
    if v < intMin bytes isSigned then (intMin bytes isSigned, evSat)
    else if intMax bytes isSigned < v then (intMax bytes isSigned, evSat)
    else (v, if !isSigned && n && decide (m ≠ 0) then evSat else evNone)

/-- The value that element bits `w` of a format encode; MX elements without their scale. -/
def Fmt.decode : Fmt → Nat → Num
  | .float f, w => f.decode w
  | .int b s, w => Num.ofInt (if s then signed (8 * b) w else (w % 2 ^ (8 * b) : Nat))
  | .mx f _, w => f.decode w
  | .mxint, w => (Num.ofInt (signed 8 w)).scale (-6)
  | .sign1, _ => .zero

/-- A value converted to an element of a format that has one element at a time (R180 to R182). -/
def Fmt.encode (f : Fmt) (rnd : Rnd) (draw : Nat) (sat : Bool) (v : Num) : Nat × Ev :=
  match f with
  | .float ff => ff.encode rnd draw sat v
  | .int b s => let r := encodeInt b s rnd draw v; (unsigned (8 * b) r.1, r.2)
  | .mx _ _ => (0, evNone)
  | .mxint => (0, evNone)
  | .sign1 => (0, evNone)

/-- The power of two of an E8M0 scale byte; 0xFF is a NaN (R171). -/
def mxScaled (scale : Nat) (v : Num) : Num :=
  if scale = 0xFF then .nan else v.scale ((scale : Int) - 127)

/-- A value rounded to binary32 nearest-even (R178). -/
def r32 (sat : Bool) (v : Num) : Num × Ev :=
  let r := fFP32.encode .nearest 0 sat v
  (fFP32.decode r.1, r.2)

/-- One block of 32 values converted to an MX format (R183): the element bytes, the scale byte and the INV event of a
block that holds an infinity and no NaN. `draws` gives one draw per element. -/
def encodeMxBlock (f : Fmt) (rnd : Rnd) (draws : List Nat) (vs : List Num) : List Nat × Nat × Ev :=
  let hasNan := vs.any Num.isNan
  let hasInf := vs.any Num.isInf
  if hasNan ∨ hasInf then (vs.map (fun _ => 0), 0xFF, if hasNan then evNone else evInv)
  else
    let amax := vs.foldl (fun a v => Num.maxZ a v.abs) Num.zero
    let emax : Int := match f with
      | .mx _ e => e
      | _ => 0
    let scale : Nat := match amax with
      | .fin _ 0 _ => 0x7F
      | .fin _ m e => (min 254 (max 0 ((Nat.log2 m : Int) + e - emax + 127))).toNat
      | _ => 0x7F
    let one := fun (v : Num) (d : Nat) =>
      let u := v.scale (127 - (scale : Int))
      match f with
      | .mx ff _ => (ff.encode rnd d true u).1
      | _ =>
        let i := match u.scale 6 with
          | .fin n m e => roundInt rnd d n m e
          | _ => 0
        unsigned 8 (max (-127) (min 127 i))
    (List.zipWith one vs draws, scale, evNone)

/-! The stochastic generator of R179. -/

/-- The mixing function of R179. -/
def mix (a : BitVec 32) : BitVec 32 :=
  let a := a ^^^ (a >>> 16)
  let a := a * 0x6C8E9CF5#32
  let a := a ^^^ (a >>> 15)
  let a := a * 0x9E3B2A63#32
  a ^^^ (a >>> 16)

/-- The generator's state at the start of an execution (R179). -/
def seedExecution (seed : Word) (cell step : Nat) (epoch execNo : BitVec 32) : BitVec 32 :=
  let lo := BitVec.ofNat 32 (bits 31 0 seed)
  let hi := BitVec.ofNat 32 (bits 63 32 seed)
  let k := mix (lo ^^^ mix hi)
  let k := mix (k ^^^ (BitVec.ofNat 32 (cell * 4096)) ^^^ BitVec.ofNat 32 step)
  let k := mix (k ^^^ epoch)
  let k := mix (k ^^^ execNo)
  if k = 0#32 then 0x5EED0001#32 else k

/-- One draw: the next state, which is the draw's value (R179). -/
def drawNext (x : BitVec 32) : BitVec 32 :=
  let x := x ^^^ (x <<< 13)
  let x := x ^^^ (x >>> 17)
  x ^^^ (x <<< 5)

/-- The first `n` draws from state `x`. -/
def draws : Nat → BitVec 32 → List Nat
  | 0, _ => []
  | n + 1, x => (drawNext x).toNat :: draws n (drawNext x)

/-! The elementary functions (R222, R223). Values are formed in fixed point with `prec` fraction bits, far beyond
binary32, and truncated; `ulpPick` then chooses one of the four binary32 values that lie within 2 ulp. -/

/-- Fraction bits of the fixed-point work. -/
def prec : Nat := 512

/-- `x ÷ y` with a sticky last bit, enough for one correct rounding. -/
def quotNum (neg : Bool) (x y : Nat) (e : Int) : Num :=
  let n := x * 2 ^ 128
  .fin neg (2 * (n / y) + (if n % y = 0 then 0 else 1)) (e - 129)

/-- √(m × 2^e) with a sticky last bit. -/
def sqrtNum (m : Nat) (e : Int) : Num :=
  let odd := decide (e % 2 ≠ 0)
  let m' := (if odd then 2 * m else m) * 2 ^ 256
  let e' := (if odd then e - 1 else e) - 256
  let r := Nat.sqrt m'
  .fin false (2 * r + (if r * r = m' then 0 else 1)) (e' / 2 - 1)

/-- Σ over `n` terms of `t`, each term `t` passed to the next by `next i t`. -/
def seriesSum (next : Nat → Int → Int) : Nat → Nat → Int → Int
  | 0, _, _ => 0
  | n + 1, i, t => t + seriesSum next n (i + 1) (next i t)

/-- ln 2 in fixed point. -/
def lnTwo : Nat := ((List.range prec).map (fun k => 2 ^ prec / ((k + 1) * 2 ^ (k + 1)))).sum

/-- A finite value in fixed point. -/
def toFixed : Num → Int
  | .fin n m e =>
    let s : Int := if n then -1 else 1
    let k := e + prec
    s * (if k ≥ 0 then (m * 2 ^ k.toNat : Nat) else (m / 2 ^ (-k).toNat : Nat))
  | _ => 0

/-- A fixed-point number as an exact value. -/
def ofFixed (x : Int) : Num := .fin (decide (x < 0)) x.natAbs (-(prec : Int))

/-- eˣ of a fixed-point argument, as an exact value: x = k ln 2 + r, and the series of eʳ. -/
def expFixed (x : Int) : Num :=
  let k := x / lnTwo
  let r := x % lnTwo
  let s := seriesSum (fun i t => t * r / 2 ^ prec / (i + 1)) 100 0 (2 ^ prec : Nat)
  (ofFixed s).scale k

/-- ln of `m × 2^e`: the exponent's part and 2 artanh((x − 1) ÷ (x + 1)) for x in [1, 2). -/
def logFixed (m : Nat) (e : Int) : Int :=
  let l := Nat.log2 m
  let x : Int := (m * 2 ^ prec / 2 ^ l : Nat)
  let one : Int := (2 ^ prec : Nat)
  let z := (x - one) * one / (x + one)
  let z2 := z * z / one
  let terms := (List.range 170).foldl (fun (acc : Int × Int) i => (acc.1 + acc.2 / (2 * i + 1), acc.2 * z2 / one)) (0, z)
  ((l : Int) + e) * lnTwo + 2 * terms.1

/-- cos of a fixed-point argument. -/
def cosFixed (x : Int) : Int :=
  let one : Int := (2 ^ prec : Nat)
  let x2 := x * x / one
  seriesSum (fun i t => -(t * x2 / one) / (((2 * i + 1) * (2 * i + 2) : Nat) : Int)) 90 0 one

/-- The truncated binary32 magnitude of a non-zero exact value, or its neighbours, as ulpPick chooses (R223): the
truncation, the value below it, or one of the two above it. Log 13 (DESIGN CHOICE). -/
def within2ulp (op : Nat) (arg : BitVec 64) (v : Num) : Num × Ev :=
  let w := (fFP32.encode .zero 0 false v.abs).1
  let c := w + Config.ulpPick op arg % 4 - 1
  let c := if c < fFP32.infBits then c else fFP32.infBits
  let ev := if c = 0 then evUnf else if c = fFP32.infBits then evOvf else evNone
  (fFP32.decode (fFP32.signBit v.sign + c), ev)

/-- RECIP, SQRT, RSQRT, EXP, LOG and TANH of a value (R222, R223). `enc` is the operand's binary64 encoding, which is exact
for every format that a lane can read. Log 13 (DESIGN CHOICE). -/
def elementary (sat : Bool) (op : Nat) (enc : BitVec 64) (a : Num) : Num × Ev :=
  match op, a with
  | _, .nan => (.nan, evNanin)
  | 0x10, .inf n => (.fin n 0 0, evNone)
  | 0x10, .fin n 0 _ => (.inf n, evOvf)
  | 0x10, .fin n m e => r32 sat (quotNum n 1 m (-e))
  | 0x11, .fin n 0 _ => (.fin n 0 0, evNone)
  | 0x11, .inf false => (.inf false, evNone)
  | 0x11, .fin false m e => r32 sat (sqrtNum m e)
  | 0x11, _ => (.nan, evInv)
  | 0x12, .fin n 0 _ => (.inf n, evOvf)
  | 0x12, .inf false => (.zero, evNone)
  | 0x12, .fin false m e =>
    match sqrtNum m e with
    | .fin _ r f => within2ulp op enc (quotNum false 1 r (-f))
    | v => (v, evNone)
  | 0x12, _ => (.nan, evInv)
  | 0x13, .inf n => (if n then .zero else .inf false, evNone)
  | 0x13, .fin n 0 _ => (.fin false 1 0, if n then evNone else evNone)
  | 0x13, .fin n m e =>
    if Num.lt (.fin false 200 0) (.fin false m e) then
      (if n then (.zero, evUnf)
       else (if sat then fFP32.decode fFP32.maxBits else .inf false, evOvf))
    else
      let r := within2ulp op enc (expFixed (toFixed (.fin n m e)))
      if r.2 = evOvf ∧ sat then (fFP32.decode fFP32.maxBits, evOvf) else r
  | 0x14, .fin _ 0 _ => (.inf true, evOvf)
  | 0x14, .inf false => (.inf false, evNone)
  | 0x14, .fin false m e =>
    let l := logFixed m e
    if m = 2 ^ Nat.log2 m ∧ (Nat.log2 m : Int) + e = 0 then (.zero, evNone)
    else within2ulp op enc (ofFixed l)
  | 0x14, _ => (.nan, evInv)
  | _, .inf n => (.fin n 1 0, evNone)
  | _, .fin n 0 _ => (.fin n 0 0, evNone)
  | _, .fin n m e =>
    -- tanh x = (e²ˣ − 1) ÷ (e²ˣ + 1) of the magnitude; from 16 on it lies within an ulp of 1
    if Num.lt (.fin false 16 0) (.fin false m e) then
      within2ulp op enc (.fin n (2 ^ 60 - 1) (-60))
    else if Num.lt (.fin false m e) (.fin false 1 (-100)) then within2ulp op enc (.fin n m e)
    else
      match expFixed (2 * toFixed (.fin false m e)) with
      | .fin _ x f =>
        let p : Int := mantAt (min f 0) (.fin false x f)
        let one : Int := 2 ^ (-(min f 0)).toNat
        within2ulp op enc ((quotNum n (p - one).toNat (p + one).toNat 0))
      | v => (v, evNone)

/-- binary32 encoding of a binary32 value. -/
def bits32Of (v : Num) : BitVec 32 := BitVec.ofNat 32 (fFP32.encode .nearest 0 false v).1

/-- binary64 encoding of a value that binary64 holds exactly. -/
def bits64Of (v : Num) : BitVec 64 := BitVec.ofNat 64 (fFP64.encode .nearest 0 false v).1

/-- Binary32 addition, multiplication and division on bits, nearest-even (R127, R443, R444). -/
def fadd32 (a b : BitVec 32) : BitVec 32 := bits32Of (Num.add (fFP32.decode a.toNat) (fFP32.decode b.toNat)).1
def fmul32 (a b : BitVec 32) : BitVec 32 := bits32Of (Num.mul (fFP32.decode a.toNat) (fFP32.decode b.toNat)).1
def fsub32 (a b : BitVec 32) : BitVec 32 := bits32Of (Num.add (fFP32.decode a.toNat) (fFP32.decode b.toNat).neg).1
def fdiv32 (a b : BitVec 32) : BitVec 32 :=
  match fFP32.decode a.toNat, fFP32.decode b.toNat with
  | .nan, _ => bits32Of .nan
  | _, .nan => bits32Of .nan
  | .inf _, .inf _ => bits32Of .nan
  | .inf n, v => bits32Of (.inf (xor n v.sign))
  | v, .inf n => bits32Of (.fin (xor n v.sign) 0 0)
  | .fin n m e, .fin k p f =>
    if p = 0 then (if m = 0 then bits32Of .nan else bits32Of (.inf (xor n k)))
    else if m = 0 then bits32Of (.fin (xor n k) 0 0)
    else bits32Of (quotNum (xor n k) m p (e - f))
def fsqrt32 (a : BitVec 32) : BitVec 32 := bits32Of (elementary false 0x11 (a.setWidth 64) (fFP32.decode a.toNat)).1
def fcos32 (a : BitVec 32) : BitVec 32 :=
  let c := cosFixed (toFixed (fFP32.decode a.toNat))
  if c = 0 then 0#32 else bits32Of (within2ulp 0x16 (a.setWidth 64) (ofFixed c)).1
def ofNat32 (n : Nat) : BitVec 32 := bits32Of (.fin false n 0)

end Sys2Proof.Machine
end

