-- ==== Sys2Proof/Machine/Flags.lean ====
section
/-! DEFINITION. The numerics word: forming it from event elements, merging two words, and the hierarchy word (R185 to
R191). -/

namespace Sys2Proof.Machine

open Sys2Proof

/-- A numerics word from its event flags, SRND, position field [24:7] and count (R185). -/
def numWord (ev : Ev) (srnd : Bool) (pos count : Nat) : BitVec 32 :=
  BitVec.ofNat 32 (field 31 26 ev.toNat + field 25 25 (ofBool srnd) + field 24 7 pos + field 6 0 (min count 127))

/-- The event flags of a word, bits [31:26]. -/
def wordEv (w : BitVec 32) : Ev := BitVec.ofNat 6 (bits 31 26 w)

def wordHasEvent (w : BitVec 32) : Bool := wordEv w != evNone

/-- The merge of R189: flags ORed, counts added and saturated, the lower position of the words with an event. -/
def mergeWords (a b : BitVec 32) : BitVec 32 :=
  let pos :=
    match wordHasEvent a, wordHasEvent b with
    | true, true => min (bits 24 7 a) (bits 24 7 b)
    | true, false => bits 24 7 a
    | false, true => bits 24 7 b
    | false, false => 0
  BitVec.ofNat 32 (field 31 25 (bits 31 25 (a ||| b)) + field 24 7 pos +
    field 6 0 (min 127 (bits 6 0 a + bits 6 0 b)))

/-- The position field of row and column (R185). -/
def tilePos (row col : Nat) : Nat := field 17 12 row + field 11 0 col

/-- The position of output element `e`: row and column of a tile `cols` wide, or of a flat transfer when `cols` is 0
(R186). Log 17 (DEDUCED). -/
def elemPos (cols e : Nat) : Nat :=
  if cols = 0 then tilePos (min 63 (e / 4096)) (e % 4096) else tilePos (min 63 (e / cols)) (e % cols)

/-- The word of a list of output elements, each with its position field and its events (R186): an element with no event
does not count. Log 17 (DEDUCED). -/
def wordOfElems (srnd : Bool) (es : List (Nat × Ev)) : BitVec 32 :=
  let hits := es.filter (fun e => e.2 != evNone)
  match hits with
  | [] => numWord evNone srnd 0 0
  | (p, _) :: _ =>
    numWord (hits.foldl (fun a e => a ||| e.2) evNone) srnd (hits.foldl (fun a e => min a e.1) p) hits.length

/-- A tile word as the hierarchy word of one cell (R185, R190): the cell number stands in place of the position. -/
def hierWord (cell : Nat) (w : BitVec 32) : BitVec 32 :=
  if wordHasEvent w then setBits 24 7 cell w else setBits 24 7 0 w

/-- A notice's word: the event flags and the cell number, no count (R190). -/
def noticeWord (cell : Nat) (w : BitVec 32) : BitVec 32 := numWord (wordEv w) false cell 0

end Sys2Proof.Machine
end

