-- ==== Sys2Proof/Machine/Operands.lean ====
section
/-! DEFINITION. The 128-bit step's fields (R86 to R98), every operand form of R88 with its effective address (R89), tile
headers (R369, R370), the understorey through its error window (R422), the accumulator file (R199 to R203) and the
reading and writing of runs of elements in any format (R165 to R174). -/

namespace Sys2Proof.Machine

open Sys2Proof

/-! ## Step fields -/

def Step.cls (b : Step) : Nat := bits 127 124 b
def Step.gLand (b : Step) : Bool := bit 123 b
def Step.gBarrier (b : Step) : Bool := bit 122 b
def Step.gQueue (b : Step) : Bool := bit 121 b
def Step.gWindow (b : Step) : Bool := bit 120 b
def Step.lslot (b : Step) : Nat := bits 119 119 b
def Step.release (b : Step) : Bool := bit 118 b
def Step.window (b : Step) : Nat := bits 117 115 b
def Step.sync (b : Step) : Bool := bit 114 b
def Step.repeats (b : Step) : Nat := bits 113 102 b
def Step.loop (b : Step) : Nat := bits 101 100 b
def Step.loopCount (b : Step) : Nat := bits 99 88 b

/-- An operand reference (R88); `bad` is an internal reference with a reserved code or a set reserved bit. Addresses are
in units of 16 bytes. -/
inductive Ref where
  | near (u : Nat)
  | under (u : Nat)
  | land (u : Nat)
  | head
  | latch (q : Nat)
  | tile (t : Nat)
  | bad
deriving DecidableEq, Repr

def refOf (w : Nat) : Ref :=
  let a := w % 65536
  match w / 65536 % 4 with
  | 0 => .near a
  | 1 => .under a
  | 2 => .land a
  | _ =>
    if a / 16 % 1024 ≠ 0 then .bad
    else match a / 16384 with
      | 0 => if a % 16 = 0 then .head else .bad
      | 1 => .latch (a % 16)
      | 2 => .tile (a % 16)
      | _ => .bad

/-- The effective byte address base + s × stride in units of 16 bytes (R89). -/
def effAddr (u s : Nat) (stride : Int) : Int := 16 * ((u : Int) + (s : Int) * stride)

def slotBytes : Nat := 0x4000

/-- The range of `n` bytes from `a` lies within a space of `size` bytes; its natural address when it does. -/
def inSpace (size : Nat) (a : Int) (n : Nat) : Option Nat :=
  if 0 ≤ a ∧ a + n ≤ size then some a.toNat else none

/-! ## CELLCFG words (R198, R209, R421, R442) -/

def CellSt.spillWord (x : CellSt) : Word := x.cfg.word 0x08
def CellSt.reduceWord (x : CellSt) : Word := x.cfg.word 0x10
def CellSt.obFirst (x : CellSt) : Nat := bits 39 34 x.reduceWord
def CellSt.obSlots (x : CellSt) : Nat := bits 33 28 x.reduceWord
def CellSt.obPages (x : CellSt) : Nat := bits 27 23 x.reduceWord
def CellSt.errFirst (x : CellSt) : Nat := bits 11 6 x.reduceWord
def CellSt.errPages (x : CellSt) : Nat := bits 5 0 x.reduceWord

/-! ## The error window (R422) -/

/-- Page `p` of the understorey lies in the error window, or in the second area behind it. -/
def CellSt.inErr (x : CellSt) (p : Nat) : Bool := decide (x.errFirst ≤ p) && decide (p < x.errFirst + x.errPages)
def CellSt.inErr1 (x : CellSt) (p : Nat) : Bool :=
  decide (x.errFirst + x.errPages ≤ p) && decide (p < x.errFirst + 2 * x.errPages)

/-- The page of area `k` behind window page `p`. -/
def CellSt.errPage (x : CellSt) (p k : Nat) : Nat := if k = 0 then p else p + x.errPages

/-- The page that a read of page `p` reaches: area 1 − cb when d = 1, area cb otherwise (R422). -/
def CellSt.readPage (x : CellSt) (p : Nat) : Nat :=
  if x.inErr p then
    let cb := ofBool (bit p x.errCb)
    x.errPage p (if bit p x.errD then 1 - cb else cb)
  else p

/-- One understorey byte as the cell's steps read it. -/
def CellSt.underByte (x : CellSt) (a : Nat) : Byte := x.under.byte (x.readPage (a / 4096) * 4096 + a % 4096)

def CellSt.underRead (x : CellSt) (a n : Nat) : Bytes := (List.range n).map (fun k => x.underByte (a + k))

/-- The cell with page `p` of the error window made ready for a write: its first write copies the page from area cb to
area 1 − cb and sets d (R422). -/
def CellSt.dirtyPage (x : CellSt) (p : Nat) : CellSt :=
  if x.inErr p && !bit p x.errD then
    let cb := ofBool (bit p x.errCb)
    let src := x.errPage p cb * 4096
    let dst := x.errPage p (1 - cb) * 4096
    { x with under := x.under.write dst (x.under.read src 4096), errD := x.errD ||| BitVec.ofNat 64 (2 ^ p) }
  else x

/-- The cell with bytes written to its understorey as its steps write them. -/
def CellSt.underWrite (x : CellSt) (a : Nat) (bs : Bytes) : CellSt :=
  let pages := (List.range (if bs.isEmpty then 0 else (a + bs.length - 1) / 4096 + 1 - a / 4096)).map (fun k => a / 4096 + k)
  let x := pages.foldl CellSt.dirtyPage x
  (List.range bs.length).foldl
    (fun x k => { x with under := x.under.set (x.readPage ((a + k) / 4096) * 4096 + (a + k) % 4096) (bs.getD k 0) }) x

/-- The range of `n` bytes at `a` touches the error window. -/
def CellSt.touchesErr (x : CellSt) (a n : Nat) : Bool :=
  (List.range ((a + n + 4095) / 4096 - a / 4096)).any (fun k => x.inErr (a / 4096 + k))

/-- The range of `n` bytes at `a` touches area 1 of the error window, which no step may name (R422). -/
def CellSt.touchesErr1 (x : CellSt) (a n : Nat) : Bool :=
  (List.range ((a + n + 4095) / 4096 - a / 4096)).any (fun k => x.inErr1 (a / 4096 + k))

/-! ## The landing (R80, R108) -/

def CellSt.landSlot (x : CellSt) (k : Nat) : Bytes := if k = 0 then x.land0 else x.land1
def CellSt.valid (x : CellSt) (k : Nat) : Bool := if k = 0 then x.valid0 else x.valid1
def CellSt.setValid (x : CellSt) (k : Nat) (v : Bool) : CellSt :=
  if k = 0 then { x with valid0 := v } else { x with valid1 := v }
def CellSt.setLand (x : CellSt) (k : Nat) (bs : Bytes) : CellSt :=
  if k = 0 then { x with land0 := bs } else { x with land1 := bs }

/-! ## The accumulator file (R199 to R203) -/

def View.width : View → Nat
  | .w40 => 40
  | .b32 => 32
def View.fmt : View → FloatFmt
  | .w40 => fW40
  | .b32 => fFP32
def View.code : View → Nat
  | .w40 => 0x11
  | .b32 => 0x10
def View.entries : View → Nat
  | .w40 => 96
  | .b32 => 120

/-- The view of a format code (R199). -/
def viewOf : Nat → Option View
  | 0x10 => some .b32
  | 0x11 => some .w40
  | _ => none

/-- Tiles in progress T (R200). -/
def tilesOf (v : View) (n : Nat) : Nat := v.entries / n

/-- Entry `k` of row `r` in view `v`. -/
def CellSt.accAt (x : CellSt) (v : View) (r k : Nat) : Nat :=
  (x.acc[r]?.getD 0).toNat / 2 ^ (v.width * k) % 2 ^ v.width

/-- The accumulator file with entry `k` of row `r` set in view `v`. -/
def CellSt.setAcc (x : CellSt) (v : View) (r k w : Nat) : CellSt :=
  let row := x.acc[r]?.getD 0
  { x with acc := x.acc.setIfInBounds r (setBits (v.width * k + v.width - 1) (v.width * k) w row) }

def CellSt.hidAt (x : CellSt) (r k : Nat) : BitVec 4 := x.hid.get 0 (r * 120 + k)
def CellSt.setHid (x : CellSt) (r k : Nat) (h : BitVec 4) : CellSt := { x with hid := x.hid.set 0 (r * 120 + k) h }

/-- Hidden flags as event flags and back: INV, OVF, UNF, NANIN (R187, R206). -/
def hidEv (h : BitVec 4) : Ev := BitVec.ofNat 6 (h.toNat * 4)
def evHid (e : Ev) : BitVec 4 := BitVec.ofNat 4 (e.toNat / 4)

/-- The tile word of R187: the entries of rows below `m` of the tile in order. -/
def CellSt.tileWord (x : CellSt) (n tile m : Nat) : BitVec 32 :=
  wordOfElems false ((List.range (m * n)).map
    (fun e => (elemPos n e, hidEv (x.hidAt (e / n) (tile * n + e % n)))))

/-! ## Numerics and tallies of a cell -/

/-- Log 26 (DESIGN CHOICE), 142 (DEDUCED). -/
def CellSt.tally (x : CellSt) (k n : Nat) : CellSt :=
  { x with tallies := x.tallies.set 0 k (x.tallies.get 0 k + BitVec.ofNat 64 n) }

/-- A word counted in the tallies numerics_events and numerics_or and merged into the superstep word (R123, R190); the
first word with an event of a superstep leaves a notice to send. -/
def CellSt.countWord (x : CellSt) (cell : Nat) (w : BitVec 32) : CellSt :=
  let x := x.tally 13 (bits 6 0 w)
  let o := (x.tallies.get 0 14).setWidth 32
  let pos := if wordHasEvent o then bits 24 7 o else if wordHasEvent w then bits 24 7 w else 0
  let o' := BitVec.ofNat 64 (field 31 25 (bits 31 25 (o ||| w)) + field 24 7 pos)
  let x := { x with tallies := x.tallies.set 0 14 o', word := mergeWords x.word (hierWord cell w) }
  if wordHasEvent w && !x.noticed then { x with noticed := true, notice := some (noticeWord cell w) } else x

/-! ## Tile headers (R369 to R371) -/

/-- The fields of a tile header. -/
structure TileHdr where
  handle  : Nat
  offset  : Nat
  rows    : Nat
  cols    : Nat
  format  : Nat
  layout  : Nat
  stepTag : Nat
  version : Nat
  numerics : BitVec 32
  source  : Nat
  flags   : Nat
  length  : Nat
deriving DecidableEq, Repr

/-- The 32 bytes of a header, its check formed anew. -/
def TileHdr.bytes (h : TileHdr) : Bytes :=
  let v := field 255 232 h.handle + field 231 196 h.offset + field 195 184 h.rows + field 183 172 h.cols +
    field 171 166 h.format + field 165 164 h.layout + field 163 140 h.stepTag + field 139 124 h.version +
    field 123 92 h.numerics.toNat + field 91 74 h.source + field 73 66 h.flags + field 65 49 h.length
  let body := (toLE 32 v).drop 4
  toLE 4 (crc32c body).toNat ++ body

/-- The header that 32 bytes hold. -/
def tileHdrOf (bs : Bytes) : TileHdr :=
  let v := ofLE bs
  { handle := natBits 255 232 v, offset := natBits 231 196 v, rows := natBits 195 184 v, cols := natBits 183 172 v,
    format := natBits 171 166 v, layout := natBits 165 164 v, stepTag := natBits 163 140 v,
    version := natBits 139 124 v, numerics := BitVec.ofNat 32 (natBits 123 92 v), source := natBits 91 74 v,
    flags := natBits 73 66 v, length := natBits 65 49 v }

/-- The check of 32 header bytes holds: CRC-32C over bytes 4 to 31. Log 50 (DEDUCED). -/
def tileHdrGood (bs : Bytes) : Bool := decide ((crc32c ((bs.take 32).drop 4)).toNat = ofLE (bs.take 4))

/-! ## Runs of elements -/

/-- How many elements `len + 1` units of 16 bytes hold (R172, R173, R202). -/
def Fmt.count (f : Fmt) (units : Nat) : Nat :=
  match f with
  | .sign1 => 256 * (16 * units / 48)
  | .mx _ _ => 32 * (16 * units / 33)
  | .mxint => 32 * (16 * units / 33)
  | f => 16 * units / f.bytes

/-- The bytes that `n` elements occupy (R172); a SIGN1 run is padded to the next whole group (R173). -/
def Fmt.size (f : Fmt) (n : Nat) : Nat :=
  match f with
  | .sign1 => 48 * ceilDiv n 256
  | .mx _ _ => 16 * ceilDiv (33 * n) 512
  | .mxint => 16 * ceilDiv (33 * n) 512
  | f => n * f.bytes

/-- Element `e` of a SIGN1 group of 48 bytes (R173). -/
def sign1Elem (g : Bytes) (e : Nat) : Num :=
  let v := fFP32.decode (leAt g (32 + 4 * (e / 64)) 4)
  if bit (e % 8) (g.getD (e / 8) 0) then v.neg else v

/-- The values of a run of `n` elements in the bytes `bs` (R165 to R173). -/
def Fmt.values (f : Fmt) (n : Nat) (bs : Bytes) : List Num :=
  match f with
  | .sign1 => (List.range n).map (fun e => sign1Elem (slice bs (48 * (e / 256)) 48) (e % 256))
  | .mx ff _ => (List.range n).map (fun e => mxScaled (bs.getD (n + e / 32) 0).toNat (ff.decode (bs.getD e 0).toNat))
  | .mxint => (List.range n).map (fun e => mxScaled (bs.getD (n + e / 32) 0).toNat (Fmt.mxint.decode (bs.getD e 0).toNat))
  | f => (List.range n).map (fun e => f.decode (leAt bs (e * f.bytes) f.bytes))

/-- An MX run written from values (R172, R183): 32 values a block, a last partial block filled up with +0.0.
Log 14 (DESIGN CHOICE). -/
def mxBytes (f : Fmt) (rnd : Rnd) (ds : List Nat) (vs : List Num) : Bytes × List Ev :=
  let nb := ceilDiv vs.length 32
  let blocks := (List.range nb).map (fun k =>
    let v := (vs.drop (32 * k)).take 32
    let d := (ds.drop (32 * k)).take 32
    encodeMxBlock f rnd (d ++ List.replicate (32 - d.length) 0) (v ++ List.replicate (32 - v.length) Num.zero))
  let elems := blocks.flatMap (fun b => b.1.map (BitVec.ofNat 8))
  let scales := blocks.map (fun b => BitVec.ofNat 8 b.2.1)
  let pad := 16 * ceilDiv (33 * (32 * nb)) 512 - 33 * nb
  (elems ++ scales ++ List.replicate pad 0,
   (List.range vs.length).map (fun e =>
     let b := blocks.getD (e / 32) ([], 0, evNone)
     let blk := (vs.drop (32 * (e / 32))).take 32
     match blk.findIdx? Num.isInf with
     | some k => if k = e % 32 then b.2.2 else evNone
     | none => evNone))

/-- Values written in a format: the bytes, and each element's events with NANIN for a NaN that was read (R180 to R184).
Log 14 (DESIGN CHOICE). -/
def Fmt.writeValues (f : Fmt) (rnd : Rnd) (ds : List Nat) (sat : Bool) (vs : List Num) : Bytes × List Ev :=
  let nan := fun (v : Num) => if v.isNan then evNanin else evNone
  if f.isMx then
    let r := mxBytes f rnd ds vs
    (r.1, List.zipWith (fun v e => nan v ||| e) vs r.2)
  else
    let r := (List.zipWith (fun v d => (v, d)) vs (ds ++ List.replicate (vs.length - ds.length) 0)).map
      (fun p => let c := f.encode rnd p.2 sat p.1; (toLE f.bytes c.1, nan p.1 ||| c.2))
    (r.flatMap (fun p => p.1), r.map (fun p => p.2))

/-! ## The cell's memory operands -/

/-- Bytes of a memory operand: near SRAM, understorey or landing slot, at a byte address already checked. -/
def CellSt.readAt (x : CellSt) (r : Ref) (a n : Nat) : Bytes :=
  match r with
  | .near _ => x.near.read a n
  | .under _ => x.underRead a n
  | .land _ => slice (x.landSlot (a / slotBytes)) (a % slotBytes) n
  | _ => []

/-- The address of a memory operand's access of `n` bytes, when the whole access lies in the space, in the landing in the
slot `lslot`, and not in area 1 of the error window (R88, R107, R422). -/
def CellSt.checkAt (x : CellSt) (r : Ref) (lslot : Nat) (a : Int) (n : Nat) : Option Nat :=
  match r with
  | .near _ => inSpace nearBytes a n
  | .under _ =>
    match inSpace underBytes a n with
    | some k => if x.touchesErr1 k n then none else some k
    | none => none
  | .land _ =>
    match inSpace (2 * slotBytes) a n with
    | some k => if k / slotBytes = lslot ∧ (k + n - 1) / slotBytes = lslot then some k else none
    | none => none
  | _ => none

/-- The cell with bytes written to a near SRAM or understorey operand. -/
def CellSt.writeAt (x : CellSt) (r : Ref) (a : Nat) (bs : Bytes) : CellSt :=
  match r with
  | .near _ => { x with near := x.near.write a bs }
  | .under _ => x.underWrite a bs
  | _ => x

/-- The outbox slot that an understorey address begins (R421, R423). -/
def CellSt.outboxSlot (x : CellSt) (a : Nat) : Option Nat :=
  (List.range x.obSlots).find? (fun j =>
    decide ((x.obFirst + j * x.obPages) * 4096 ≤ a) && decide (a < (x.obFirst + (j + 1) * x.obPages) * 4096))

end Sys2Proof.Machine
end

