-- ==== Sys2Proof/Machine/Tiers.lean ====
section
/-! DEFINITION. Tier addresses (R340), the pools and their allocators (R337, R348), the stack, board and far mappings (R387,
R399, R404), and an object's bytes wherever they lie (R342, R345, R353). -/

namespace Sys2Proof.Machine

open Sys2Proof

/-- Bytes of an extent (R337), and the extents of the staging area (R388). -/
def extentBytes : Nat := 262144
def stagingExtents : Nat := 16384

/-! ## Runs of extents -/

/-- The extents in a list of runs. -/
def runsCount (l : List (Nat × Nat)) : Nat := (l.map (fun r => r.2)).sum

/-- The `i`-th extent of a list of runs. -/
def runsAt : List (Nat × Nat) → Nat → Option Nat
  | [], _ => none
  | (st, n) :: t, i => if i < n then some (st + i) else runsAt t (i - n)

/-- The first `n` extents of a list of runs, and the rest. -/
def runsTake : Nat → List (Nat × Nat) → List (Nat × Nat) × List (Nat × Nat)
  | _, [] => ([], [])
  | 0, l => ([], l)
  | n, (st, k) :: t =>
    if k ≤ n then
      let r := runsTake (n - k) t
      ((st, k) :: r.1, r.2)
    else ([(st, n)], (st + n, k - n) :: t)

/-- A run put into a sorted list of disjoint runs, merged with its neighbours (R348). Log 41 (DESIGN CHOICE). -/
def runsPut (a n : Nat) : List (Nat × Nat) → List (Nat × Nat)
  | [] => [(a, n)]
  | (st, k) :: t =>
    if a + n < st then (a, n) :: (st, k) :: t
    else if a + n = st then (a, n + k) :: t
    else if st + k = a then runsPut st (k + n) t
    else (st, k) :: runsPut a n t

def runsPutAll (rs l : List (Nat × Nat)) : List (Nat × Nat) := rs.foldl (fun l r => runsPut r.1 r.2 l) l

/-- The runs without the extents of `[a, a + n)`. -/
def runsCut (a n : Nat) (l : List (Nat × Nat)) : List (Nat × Nat) :=
  l.flatMap (fun r =>
    (if r.1 < a then [(r.1, min r.2 (a - r.1))] else []) ++
    (if a + n < r.1 + r.2 then [(max r.1 (a + n), r.1 + r.2 - max r.1 (a + n))] else []))

/-- The blocks, as exponents, that an allocation of `n` extents takes (R348). -/
def buddySizes (n : Nat) : List Nat :=
  if 2 ^ 19 ≤ n then [18, 18] else (List.range 19).reverse.filter (fun k => n.testBit k)

/-- The lowest free block of 2^k extents. Log 41 (DESIGN CHOICE). -/
def buddyBlock (k : Nat) (l : List (Nat × Nat)) : Option Nat :=
  l.findSome? (fun r =>
    let a := ceilDiv r.1 (2 ^ k) * 2 ^ k
    if a + 2 ^ k ≤ r.1 + r.2 then some a else none)

/-- Log 41 (DESIGN CHOICE). -/
def buddyTake : List Nat → List (Nat × Nat) → List (Nat × Nat) × List (Nat × Nat)
  | [], l => ([], l)
  | k :: ks, l =>
    match buddyBlock k l with
    | some a =>
      let r := buddyTake ks (runsCut a (2 ^ k) l)
      ((a, 2 ^ k) :: r.1, r.2)
    | none => buddyTake ks l

/-- `n` free extents, or all that are free: a block for each set bit of `n`, the lowest that is free, and where none of that
size is free the lowest free extents (R348, R349). Log 41 (DESIGN CHOICE). -/
def runsAlloc (n : Nat) (l : List (Nat × Nat)) : List (Nat × Nat) × List (Nat × Nat) :=
  let r := buddyTake (buddySizes n) l
  let q := runsTake (n - runsCount r.1) r.2
  (r.1 ++ q.1, q.2)

/-- An extent lies in the runs. -/
def runsHas (l : List (Nat × Nat)) (x : Nat) : Bool := l.any (fun r => decide (r.1 ≤ x) && decide (x < r.1 + r.2))

/-! ## Pools -/

def TierSt.mem (x : TierSt) : Nat → Mem
  | 1 => x.mem1
  | 2 => x.mem2
  | _ => x.mem3

def TierSt.setMem (x : TierSt) (t : Nat) (m : Mem) : TierSt :=
  match t with
  | 1 => { x with mem1 := m }
  | 2 => { x with mem2 := m }
  | _ => { x with mem3 := m }

def TierSt.total (x : TierSt) : Nat → Nat
  | 1 => x.total1
  | 2 => x.total2
  | 3 => x.total3
  | _ => 0

def TierSt.free (x : TierSt) : Nat → List (Nat × Nat)
  | 1 => x.free1
  | 2 => x.free2
  | 3 => x.free3
  | _ => []

def TierSt.setFree (x : TierSt) (t : Nat) (l : List (Nat × Nat)) : TierSt :=
  match t with
  | 1 => { x with free1 := l }
  | 2 => { x with free2 := l }
  | 3 => { x with free3 := l }
  | _ => x

/-- The tier's pool as a space code, and back (R337). -/
def tierOfSpace : Nat → Option Nat
  | 2 => some 1
  | 3 => some 2
  | 4 => some 3
  | _ => none

/-! ## Mappings (R387, R399, R404) -/

def channelBytes : Nat := 3000000000

/-- The stripe count S (R388). -/
def stripes (live : Nat) : Nat := channelBytes * live / 786432

def TierSt.live (x : TierSt) : Nat := 768 - x.dead.length

/-- The extents of the stack pool, and of T1 (R388, R391). -/
def stackExtents (live : Nat) : Nat := 3 * stripes live
def t1Extents (live : Nat) : Nat := stackExtents live - stagingExtents

/-- The channel and channel address of a stack pool byte offset (R387). -/
def stackPlace (dead : List Nat) (o : Nat) : Nat × Nat :=
  let live := (List.range 768).filter (fun c => !dead.contains c)
  let e := o / 2 ^ 18
  let g := o / 2 ^ 8 % 1024
  let k := e / 3
  let p := e % 3
  let s := Nat.xor g (Nat.xor (Nat.xor (e % 1024) (e / 1024 % 1024)) (e / 2 ^ 20 % 16))
  let q := s + 1024 * p
  let c := q % 768
  if !dead.contains c then (c, k * 1024 + q / 768 * 256 + o % 256)
  else
    let m := dead.length
    let j := ((List.range q).filter (fun r => dead.contains (r % 768))).length
    let t := k * 4 * m + j
    (live.getD (t % live.length) 0, stripes live.length * 1024 + t / live.length * 256 + o % 256)

/-- The RDIMM slot of a board pool offset (R399). -/
def TierSt.boardSlot (x : TierSt) (o : Nat) : Nat := (x.dimms.getD (o / 256 % max 1 x.dimms.length) (0, 0)).1

/-- The CXL port of a far pool extent (R404). -/
def TierSt.farPort (x : TierSt) (e : Nat) : Option Nat :=
  (x.far.find? (fun r => decide (r.2.1 ≤ e) && decide (e < r.2.1 + r.2.2))).map (fun r => r.1)

def State.cxl (s : State) (p : Nat) : CxlPort := s.tiers.cxl.get .reset p
def State.setCxl (s : State) (p : Nat) (x : CxlPort) : State := { s with tiers := { s.tiers with cxl := s.tiers.cxl.put p x } }

/-- A read of a pool byte completes as a tier read error: its RDIMM has failed or its port is down (R400, R406). -/
def State.poolBad (s : State) (t o : Nat) : Bool :=
  match t with
  | 2 => bit (s.tiers.boardSlot o) (s.reg Reg.brdFailed)
  | 3 => match s.tiers.farPort (o / extentBytes) with
    | some p => (s.cxl p).state != .active
    | none => false
  | _ => false

/-- A tier read error counted for the board pool (R400, R409). Log 49 (DEDUCED). -/
def State.countBoard (s : State) (t : Nat) : State := if t = 2 then s.satReg Reg.brdErrors 62 32 1 else s

/-! ## Tier addresses (R340) -/

/-- Where a tier address leads. -/
inductive Place where
  | near (cell off : Nat)
  | under (cell off : Nat)
  | pool (tier off : Nat)
  | obj (handle off : Nat)
deriving DecidableEq, Repr

/-- A tier address resolved; none when it is invalid. -/
def placeOf (a : Word) : Option Place :=
  let cell := bits 39 22 a
  let off := bits 21 0 a
  match bits 63 60 a with
  | 0 => if bits 59 40 a = 0 ∧ onGrid cell ∧ off < nearBytes then some (.near cell off) else none
  | 1 => if bits 59 40 a = 0 ∧ onGrid cell ∧ off < underBytes then some (.under cell off) else none
  | 2 => some (.pool 1 (bits 59 0 a))
  | 3 => some (.pool 2 (bits 59 0 a))
  | 4 => some (.pool 3 (bits 59 0 a))
  | 8 => some (.obj (bits 59 36 a) (bits 35 0 a))
  | _ => none

/-- The tier address of an object's byte. -/
def objAddr (h o : Nat) : Word := BitVec.ofNat 64 (field 63 60 8 + field 59 36 h + field 35 0 o)

/-! ## Objects -/

/-- The object of a live handle. -/
def State.obj (s : State) (h : Nat) : Option Obj := s.yard.objs.find h

def State.setObj (s : State) (h : Nat) (o : Obj) : State := { s with yard := { s.yard with objs := s.yard.objs.put h o } }
def State.modObj (s : State) (h : Nat) (f : Obj → Obj) : State :=
  match s.obj h with
  | some o => s.setObj h (f o)
  | none => s

def State.delObj (s : State) (h : Nat) : State := { s with yard := { s.yard with objs := s.yard.objs.del h } }

/-- The extents of both buffers together (R347). -/
def Obj.all (o : Obj) : Nat := if o.param then 2 * o.extents else o.extents

/-- The blocks of a T0 object in ascending global block number (R342). -/
def T0Place.blocks (p : T0Place) : List FmId :=
  let rows := (List.range 36).filter (fun r => decide (rowOf p.first / 8 ≤ r) && decide (r ≤ rowOf p.last / 8))
  let cols := (List.range 60).filter (fun c => decide (colOf p.first / 8 ≤ c) && decide (c ≤ colOf p.last / 8))
  rows.flatMap (fun r => cols.map (fun c => fmOf (cellAt (r * 8) (c * 8))))

/-- The extents of a T0 placement. -/
def T0Place.count (p : T0Place) : Nat := p.blocks.length * p.slots

/-- The cell and understorey byte of byte `o` of T0 extent `x` (R342). -/
def T0Place.byteAt (p : T0Place) (x o : Nat) : Nat × Nat :=
  let f := p.blocks.getD (x / max 1 p.slots) ⟨0, 0⟩
  (cellOfPos f (o / 4096), (p.slot + x % max 1 p.slots) * 4096 + o % 4096)

/-- The move that is copying an object, if one is. -/
def State.moveOf (s : State) (h : Nat) : Option Alloc :=
  s.yard.allocs.find? (fun a => a.handle == h && a.kind != .create && a.kind != .load)

/-- Where extent `i` of an object lies: its tier, and its pool extent, or its own number in T0 (R345, R353). -/
def State.extentAt (s : State) (h : Nat) (o : Obj) (i : Nat) : Nat × Nat :=
  match s.moveOf h with
  | some m =>
    if i < m.copied then (m.dest, if m.dest = 0 then i else (runsAt m.got i).getD 0)
    else (o.tier, if o.tier = 0 then i else (runsAt o.place i).getD 0)
  | none => (o.tier, if o.tier = 0 then i else (runsAt o.place i).getD 0)

/-- One byte of extent `i` of an object. -/
def State.extentByte (s : State) (h : Nat) (o : Obj) (i off : Nat) : Byte :=
  match s.extentAt h o i with
  | (0, x) =>
    (match o.t0 with
     | some p => let a := p.byteAt x off; (s.cell a.1).under.byte a.2
     | none => 0)
  | (t, x) => (s.tiers.mem t).byte (x * extentBytes + off)

/-- `n` bytes of an object from byte `off` of buffer `buf`. -/
def State.objRead (s : State) (h : Nat) (o : Obj) (buf off n : Nat) : Bytes :=
  (List.range n).map (fun k =>
    let a := off + k
    s.extentByte h o (buf * o.extents + a / extentBytes) (a % extentBytes))

/-- The state with one byte of extent `i` of an object written. -/
def State.putExtentByte (s : State) (h : Nat) (o : Obj) (i off : Nat) (b : Byte) : State :=
  match s.extentAt h o i with
  | (0, x) =>
    (match o.t0 with
     | some p => let a := p.byteAt x off; s.modCell a.1 (fun y => { y with under := y.under.set a.2 b })
     | none => s)
  | (t, x) => { s with tiers := s.tiers.setMem t ((s.tiers.mem t).set (x * extentBytes + off) b) }

def putExtentBytes (h : Nat) (o : Obj) (buf : Nat) : State → Nat → Bytes → State
  | s, _, [] => s
  | s, a, b :: t =>
    putExtentBytes h o buf (s.putExtentByte h o (buf * o.extents + a / extentBytes) (a % extentBytes) b) (a + 1) t

/-- The state with bytes written to an object from byte `off` of buffer `buf`. -/
def State.objWrite (s : State) (h : Nat) (o : Obj) (buf off : Nat) (bs : Bytes) : State := putExtentBytes h o buf s off bs

/-- A read of an object's bytes meets a tier read error (R400, R406). -/
def State.objBad (s : State) (h : Nat) (o : Obj) (buf off n : Nat) : Bool :=
  (List.range n).any (fun k =>
    let a := off + k
    match s.extentAt h o (buf * o.extents + a / extentBytes) with
    | (0, _) => false
    | (t, x) => s.poolBad t (x * extentBytes + a % extentBytes))

/-- The buffer that extent `x` of an object resolves to (R435). -/
def Obj.bufOf (o : Obj) (x : Nat) : Nat :=
  if o.param then
    let cb := ofBool (o.cb.contains x)
    if o.dirty.contains x then 1 - cb else cb
  else 0

/-- `n` bytes of an object from byte `off` as readers are given them (R345, R435). Log 159 (DEDUCED). -/
def State.objReadV (s : State) (h : Nat) (o : Obj) (off n : Nat) : Bytes :=
  (List.range n).map (fun k =>
    let x := (off + k) / extentBytes
    s.extentByte h o (o.bufOf x * o.extents + x) ((off + k) % extentBytes))

/-- A read as readers are given it meets a tier read error. Log 49 (DEDUCED), 159 (DEDUCED). -/
def State.objBadV (s : State) (h : Nat) (o : Obj) (off n : Nat) : Bool :=
  (List.range n).any (fun k =>
    let x := (off + k) / extentBytes
    match s.extentAt h o (o.bufOf x * o.extents + x) with
    | (0, _) => false
    | (t, e) => s.poolBad t (e * extentBytes + (off + k) % extentBytes))

/-- One extent of a pool copied to another. -/
def State.copyPool (s : State) (src dst : Nat × Nat) : State :=
  { s with tiers := s.tiers.setMem dst.1 ((s.tiers.mem src.1).copyTo (src.2 * extentBytes) extentBytes
      (s.tiers.mem dst.1) (dst.2 * extentBytes)) }

/-- The first write to a clean extent of a versioned object copies it to its other buffer and sets its dirty bit (R435). -/
def State.dirtyExtent (s : State) (h : Nat) (x : Nat) : State :=
  match s.obj h with
  | some o =>
    if o.param && !o.dirty.contains x then
      let b := o.bufOf x
      let src := s.extentAt h o (b * o.extents + x)
      let dst := s.extentAt h o ((1 - b) * o.extents + x)
      (s.copyPool src dst).setObj h { o with dirty := x :: o.dirty }
    else s
  | none => s

/-- Bytes written to an object from byte `off` as its writers write them (R435). -/
def State.objWriteV (s : State) (h : Nat) (off : Nat) (bs : Bytes) : State :=
  let last := if bs.isEmpty then off else off + bs.length - 1
  let s := (List.range (last / extentBytes + 1 - off / extentBytes)).foldl
    (fun s k => s.dirtyExtent h (off / extentBytes + k)) s
  match s.obj h with
  | some o =>
    (List.range bs.length).foldl (fun s k =>
      let x := (off + k) / extentBytes
      s.putExtentByte h o (o.bufOf x * o.extents + x) ((off + k) % extentBytes) (bs.getD k 0)) s
  | none => s

/-- The beat counter (R516). -/
def State.beat (s : State) : Word := s.reg Reg.beatCounter

/-- A use of an object stamps it (R359). -/
def State.useObj (s : State) (h : Nat) : State := s.modObj h (fun o => { o with stamp := s.beat })

/-- One extent copied from where it lies to place `d` of tier `t`: T0 places go by the object's T0 placement. -/
def State.copyExtent (s : State) (o : Obj) (st sx dt dx : Nat) : State :=
  let cells := fun (p : T0Place) (x : Nat) => (List.range 64).map (fun k => p.byteAt x (k * 4096))
  match st, dt, o.t0 with
  | 0, 0, _ => s
  | 0, t, some p =>
    (cells p sx).zipIdx.foldl (fun s e =>
      { s with tiers := s.tiers.setMem t ((s.cell e.1.1).under.copyTo e.1.2 4096 (s.tiers.mem t)
          (dx * extentBytes + e.2 * 4096)) }) s
  | t, 0, some p =>
    (cells p dx).zipIdx.foldl (fun s e =>
      s.modCell e.1.1 (fun y => { y with under := (s.tiers.mem t).copyTo (sx * extentBytes + e.2 * 4096) 4096 y.under e.1.2 })) s
  | a, b, _ =>
    { s with tiers := s.tiers.setMem b ((s.tiers.mem a).copyTo (sx * extentBytes) extentBytes (s.tiers.mem b)
        (dx * extentBytes)) }

/-- The state with an object's extents undefined, where they lie. -/
def State.loseExtents (s : State) (t : Nat) (runs : List (Nat × Nat)) : State :=
  runs.foldl (fun s r =>
    let k := s.fresh
    { k.2 with tiers := k.2.tiers.setMem t ((k.2.tiers.mem t).lose (r.1 * extentBytes) (r.2 * extentBytes) k.1) }) s

/-- A T0 object's bytes undefined (R368). -/
def State.loseT0 (s : State) (p : T0Place) : State :=
  p.blocks.foldl (fun s f => (blockCells f).foldl (fun s c =>
    let k := s.fresh
    k.2.modCell c (fun y => { y with under := y.under.lose (p.slot * 4096) (p.slots * 4096) k.1 })) s) s

end Sys2Proof.Machine
end

