-- ==== Sys2Proof/Machine/Yarder.lean ====
section
/-! DEFINITION. The yarder: allocation, eviction, moves and the object commands (R344 to R363, R378 to R383). -/

namespace Sys2Proof.Machine

open Sys2Proof

/-! ## Use and quotas (R359, R360) -/

def Obj.size (o : Obj) (t : Nat) : Nat :=
  if t = 0 then match o.t0 with
    | some p => p.count
    | none => o.all
  else o.all

/-- The extents of an object that its source tier still holds. -/
def State.heldIn (s : State) (h : Nat) (o : Obj) : Nat :=
  match s.moveOf h with
  | some m => runsCount o.place - m.copied
  | none => runsCount o.place

/-- The extents that a slot is charged for in a tier (R360). Log 46 (DEDUCED). -/
def State.useOf (s : State) (n t : Nat) : Nat :=
  (s.yard.objs.map (fun e => if e.2.charged = n ∧ e.2.tier = t ∧ t ≠ 0 then s.heldIn e.1 e.2 else 0)).sum +
  (s.yard.allocs.map (fun a => if a.slot = n ∧ a.dest = t then runsCount a.got else 0)).sum

/-- Log 46 (DEDUCED). -/
def State.overQuota (s : State) (n t : Nat) : Bool := decide (s.regF (Reg.yrdQuota n t) 31 0 < s.useOf n t)

/-- An object that eviction may choose in tier `t` (R359). -/
def Obj.evictable (o : Obj) (t : Nat) : Bool := o.state == .resident && o.tier == t && o.refs == 0

/-- The older of two objects, the lower handle between equal stamps. -/
def older (a b : Nat × Obj) : Nat × Obj :=
  if b.2.stamp.toNat < a.2.stamp.toNat ∨ (b.2.stamp = a.2.stamp ∧ b.1 < a.1) then b else a

def oldestOf : List (Nat × Obj) → Option (Nat × Obj)
  | [] => none
  | a :: t => some (t.foldl older a)

/-- The candidate of R359 for slot `p` in tier `t`. -/
def State.candidate (s : State) (t p : Nat) : Option (Nat × Obj) :=
  let can := s.yard.objs.filter (fun e => e.2.evictable t)
  match oldestOf (can.filter (fun e => s.overQuota e.2.charged t)) with
  | some e => some e
  | none => oldestOf (can.filter (fun e => e.2.charged == p))

/-! ## Command status and faults (R378, R382, R383) -/

/-- The host command ends with a result: DONE for OK, else FAILED. -/
def State.endCmd (s : State) (result : Nat) : State :=
  s.setRegF (Reg.yrdCmdStatus) 23 0 (field 23 16 result + (if result = 0 then 2 else 3))

/-- The host command's move is abandoned: it FAILED with a result that no rule names. Log 43 (DESIGN CHOICE). -/
def State.endCmdOpen (s : State) : State :=
  let k := s.fresh
  k.2.endCmd (1 + (Config.freeWord k.1).toNat % 255)

def State.yrdRaise (s : State) (code h x : Nat) : State :=
  (s.setReg Reg.yrdFault (BitVec.ofNat 64 (field 63 40 h + field 39 22 x + field 15 0 code))).raise code
    ((s.obj h).map (fun o => o.charged)) h 0

/-! ## Serving allocations (R349) -/

def State.setAllocs (s : State) (l : List Alloc) : State := { s with yard := { s.yard with allocs := l } }
def State.setTierFree (s : State) (t : Nat) (l : List (Nat × Nat)) : State := { s with tiers := s.tiers.setFree t l }

/-- A created object in its initial tier; its contents are undefined (R352, R368). -/
def State.finishCreate (s : State) (a : Alloc) : State :=
  let s := s.setAllocs (s.yard.allocs.erase a)
  let s := s.loseExtents a.dest a.got
  let s := s.setObj a.handle { a.obj with place := a.got, tier := a.dest, stamp := s.beat }
  if a.cmd then s.endCmd 0 else s

/-- Free extents of tier `t` given to its waiting allocations, oldest first; creations that have all they need are made. -/
def State.serve (s : State) (t : Nat) : State :=
  s.yard.allocs.foldl (fun s a =>
    if a.dest = t ∧ 0 < a.need then
      let r := runsAlloc a.need (s.tiers.free t)
      let b := { a with got := a.got ++ r.1, need := a.need - runsCount r.1 }
      let s := (s.setTierFree t r.2).setAllocs (s.yard.allocs.map (fun x => if x = a then b else x))
      if b.need = 0 ∧ (b.kind = .create ∨ b.kind = .load) then s.finishCreate b else s
    else s) s

/-- Extents of tier `t` freed: they merge with their neighbours and go to waiting allocations (R348, R349). -/
def State.freeExtents (s : State) (t : Nat) (runs : List (Nat × Nat)) : State :=
  if t = 0 ∨ runs.isEmpty then s else (s.setTierFree t (runsPutAll runs (s.tiers.free t))).serve t

/-! ## Eviction (R359, R361) -/

/-- The extents that the allocations of tier `t` still need, and those that evictions from it are about to free.
Log 48 (DEDUCED). -/
def State.needIn (s : State) (t : Nat) : Nat := (s.yard.allocs.map (fun a => if a.dest = t then a.need else 0)).sum
/-- Log 46 (DEDUCED). -/
def State.pledged (s : State) (t : Nat) : Nat :=
  (s.yard.allocs.map (fun a => if a.kind = .evict ∧ a.obj.tier = t then a.obj.all - a.copied else 0)).sum

/-- The eviction of an object from tier `t` can start: the next tier exists and has room or a candidate (R361). -/
def State.canEvict (s : State) (o : Obj) (t : Nat) : Bool :=
  decide (t < 3) && decide (o.all ≤ s.tiers.total (t + 1)) &&
  (decide (o.all ≤ runsCount (s.tiers.free (t + 1))) || (s.candidate (t + 1) o.charged).isSome)

/-- The object that is evicted from tier `t` for slot `p` (R359, R361). -/
def State.victim (s : State) (t p : Nat) : Option (Nat × Obj) :=
  match s.candidate t p with
  | some e => if s.canEvict e.2 t then some e else none
  | none => none

/-- Objects chosen and their evictions started until the waiting allocations of tier `t` can be met (R359).
Log 145 (DEDUCED). -/
def State.evictFor : Nat → State → Nat → State
  | 0, s, _ => s
  | n + 1, s, t =>
    if s.needIn t ≤ s.pledged t then s
    else match (s.yard.allocs.filter (fun a => a.dest == t && decide (0 < a.need))).findSome? (fun w => s.victim t w.slot) with
      | none => s
      | some (h, o) =>
        let o := { o with state := .evicting, stamp := s.beat }
        let a : Alloc := { handle := h, kind := .evict, obj := o, dest := t + 1, slot := o.charged, need := o.all,
                           got := [], copied := 0, cmd := false }
        let s := ((s.setObj h o).addReg Reg.yrdTally 31 0 1).setAllocs (s.yard.allocs ++ [a])
        let s := State.evictFor n (s.serve (t + 1)) (t + 1)
        State.evictFor n s t

/-- A bound on the evictions that can start. -/
def State.evictFuel (s : State) : Nat := s.yard.objs.length + 1

/-! ## Allocation outcomes (R356, R362) -/

/-- The state an object takes when its move ends. -/
def Obj.settled (o : Obj) : ObjState := if 0 < o.pins then .pinned else .resident

/-- An object freed at a load once its move has ended (R368). -/
def State.buryObj (s : State) (h : Nat) : State :=
  if s.yard.dying.contains h then
    match s.obj h with
    | some o => ({ s.delObj h with yard := { (s.delObj h).yard with dying := s.yard.dying.erase h } }).freeExtents o.tier o.place
    | none => s
  else s

/-- An allocation that cannot be met fails with NOSPACE: what it reserved is released, a move ends without change (R362). -/
def State.failAlloc (s : State) (a : Alloc) : State :=
  let s := s.setAllocs (s.yard.allocs.erase a)
  let s := (s.satReg Reg.yrdTally 62 48 1).yrdRaise 0x4030 a.handle 0
  let s := match a.kind with
    | .create => s
    | .load => { s with yard := { s.yard with failed := s.yard.failed ++ [a.slot] } }
    | _ => s.modObj a.handle (fun o => { o with state := o.settled })
  let s := if a.cmd then s.endCmd 3 else s
  (s.freeExtents a.dest a.got).buryObj a.handle

/-- An allocation begun (R349, R359, R362). -/
def State.startAlloc (s : State) (a : Alloc) : State :=
  let s := s.setAllocs (s.yard.allocs ++ [a])
  if s.tiers.total a.dest < a.need then s.failAlloc a
  else
    let s := s.serve a.dest
    if s.yard.allocs.any (fun b => b.handle == a.handle && b.kind == a.kind && decide (0 < b.need)) then
      (s.satReg Reg.yrdTally 47 32 1).evictFor s.evictFuel a.dest
    else s

/-- A move to tier `t` begun for slot `n` (R352, R358, R360): the object is MOVING and stamped. Log 44 (DEDUCED). -/
def State.startMove (s : State) (h : Nat) (o : Obj) (t n : Nat) (kind : AllocKind) (cmd : Bool) : State :=
  let o := { o with state := .moving, stamp := s.beat, charged := if o.shared ∧ kind = .promote then n else o.charged }
  (s.setObj h o).startAlloc { handle := h, kind := kind, obj := o, dest := t, slot := o.charged,
                              need := if t = 0 then 0 else o.all, got := [], copied := 0, cmd := cmd }

/-! ## The object events (R351, R352, R380, R382) -/

/-- PROMOTE or DEMOTE of an object: the result, or none while the move runs.
Log 44 (DEDUCED), 45 (DEDUCED), 48 (DEDUCED), 145 (DEDUCED). -/
def State.moveObj (s : State) (h t n : Nat) (up cmd : Bool) : State × Option Nat :=
  match s.obj h with
  | none => (s, some 1)
  | some o =>
    if t = 3 ∧ !s.tiers.farTier then (s, some 6)
    else match o.state with
      | .moving => if (s.moveOf h).map (fun m => m.dest) = some t then (s, some 0) else (s, some 5)
      | .evicting =>
        if up then
          (if t ≤ o.tier then ({ s with yard := { s.yard with queued := s.yard.queued ++ [(h, t, n, cmd)] } }, none)
           else (s, some 4))
        else (s, some 5)
      | .resident =>
        if (up && decide (o.tier ≤ t)) || (!up && decide (t ≤ o.tier)) || (t == 0 && o.t0.isNone) then (s, some 4)
        else (s.startMove h o t n (if up then .promote else .demote) cmd, none)
      | _ => (s, some 5)

def State.pinObj (s : State) (h : Nat) : State × Option Nat :=
  match s.obj h with
  | none => (s, some 1)
  | some o =>
    if 255 ≤ o.pins then (s, some 5)
    else
      let st := if o.state = .resident then .pinned else o.state
      (s.setObj h { o with pins := o.pins + 1, state := st, stamp := s.beat }, some 0)

def State.unpinObj (s : State) (h : Nat) : State × Option Nat :=
  match s.obj h with
  | none => (s, some 1)
  | some o =>
    if o.pins = 0 then (s, some 5)
    else
      let st := if o.state = .pinned ∧ o.pins = 1 then .resident else o.state
      (s.setObj h { o with pins := o.pins - 1, state := st }, some 0)

def State.destroyObj (s : State) (h : Nat) : State × Option Nat :=
  match s.obj h with
  | none => (s, some 1)
  | some o =>
    if o.state ≠ .resident ∧ o.state ≠ .pinned then (s, some 5)
    else if 0 < o.refs then (s, some 2)
    else ((s.delObj h).freeExtents o.tier o.place, some 0)

def liveLimit : Nat := 1048576

/-- CREATE (R338, R344, R352, R382). Log 45 (DEDUCED). -/
def State.createObj (s : State) (h t n : Nat) (shared : Bool) : State × Option Nat :=
  let e := s.regF Reg.yrdArg 18 0
  if h = 0 then (s, some 1)
  else if (s.obj h).isSome ∨ s.yard.allocs.any (fun a => a.handle == h) then (s, some 2)
  else if t = 0 then (s, some 4)
  else if t = 3 ∧ !s.tiers.farTier then (s, some 6)
  else if liveLimit ≤ s.yard.objs.length then (s, some 3)
  else
    let o : Obj := { owner := n, charged := n, shared := shared, param := false, tiled := false, pitch := 0, prefer := none,
                     extents := e, t0 := none, state := .resident, tier := t, place := [], pins := 0, refs := 0,
                     stamp := s.beat, damaged := false, cb := [], dirty := [] }
    (s.startAlloc { handle := h, kind := .create, obj := o, dest := t, slot := n, need := e, got := [], copied := 0,
                    cmd := true }, none)

/-- A write of YRD_CMD (R380): rejected while BUSY, for another operation code, and for a CREATE of no extents or too
many. -/
def State.yrdCommand (s : State) (value : Word) : State × Bool :=
  let op := bits 63 60 value
  let t := bits 59 58 value
  let h := bits 23 0 value
  let e := s.regF Reg.yrdArg 18 0
  if s.regF Reg.yrdCmdStatus 1 0 = 1 ∨ op = 0 ∨ 6 < op ∨ (op = 1 ∧ (e = 0 ∨ 262144 < e)) then (s.reject none h, false)
  else
    let s := s.setReg Reg.yrdCmdStatus (BitVec.ofNat 64 (field 47 24 h + 1))
    let n := ((s.obj h).map (fun o => o.charged)).getD 0
    let r := match op with
      | 1 => s.createObj h t (bits 57 55 value) (bit 54 value)
      | 2 => s.destroyObj h
      | 3 => s.moveObj h t n true true
      | 4 => s.moveObj h t n false true
      | 5 => s.pinObj h
      | _ => s.unpinObj h
    (match r.2 with
     | some res => r.1.endCmd res
     | none => r.1, true)

/-! ## Moves (R353 to R356, R371, R372) -/

/-- The move is an eviction that an allocation waits for (R355). -/
def State.urgent (s : State) (a : Alloc) : Bool :=
  a.kind == .evict && s.yard.allocs.any (fun w => w.dest == a.obj.tier && decide (0 < w.need))

/-- The moves that run: at most 8, those begun, then urgent evictions, then the oldest (R355). -/
def State.running (s : State) : List Alloc :=
  let ready := s.yard.allocs.filter (fun a => a.kind != .create && a.kind != .load && a.need == 0)
  let fresh := ready.filter (fun a => a.copied == 0)
  (ready.filter (fun a => a.copied != 0) ++ fresh.filter s.urgent ++ fresh.filter (fun a => !s.urgent a)).take 8

/-- Every occupied tile position of extent `i` of a tiled object has a good header (R371, R372). -/
def State.tilesGood (s : State) (h : Nat) (o : Obj) (i : Nat) : Bool :=
  !o.tiled || o.pitch == 0 || (List.range (extentBytes / (o.pitch * 16))).all (fun k =>
    let bs := (List.range 32).map (fun j => s.extentByte h o i (k * o.pitch * 16 + j))
    bs.all (fun b => b == 0) || tileHdrGood bs)

/-- Queued promotions of an object start when its eviction has ended (R352). Log 145 (DEDUCED). -/
def State.startQueued (s : State) (h : Nat) : State :=
  match s.yard.queued.find? (fun q => q.1 == h) with
  | some q =>
    let s := { s with yard := { s.yard with queued := s.yard.queued.erase q } }
    let r := s.moveObj h q.2.1 q.2.2.1 true q.2.2.2
    (match r.2 with
     | some res => if q.2.2.2 then r.1.endCmd res else r.1
     | none => r.1)
  | none => s

/-- The move ends with its last extent switched (R352, R383). -/
def State.endMove (s : State) (a : Alloc) : State :=
  let s := s.setAllocs (s.yard.allocs.erase a)
  let s := s.modObj a.handle (fun o => { o with tier := a.dest, place := a.got, state := o.settled })
  let s := if a.dest < a.obj.tier then s.addReg Reg.yrdMoves 63 32 1 else s.addReg Reg.yrdMoves 31 0 1
  let s := if a.cmd then s.endCmd 0 else s
  (s.buryObj a.handle).startQueued a.handle

/-- The source extents of an abandoned move taken back: those that are free or that a waiting allocation holds; in place of
one that another object holds by now, a free one, and failing that one numbered past the pool. Log 42 (DESIGN CHOICE). -/
def takeBack (s : State) (t : Nat) (x : Nat) : State × Nat :=
  if runsHas (s.tiers.free t) x then (s.setTierFree t (runsCut x 1 (s.tiers.free t)), x)
  else match s.yard.allocs.find? (fun a => a.dest == t && decide (0 < a.need) && runsHas a.got x) with
    | some a =>
      (s.setAllocs (s.yard.allocs.map (fun b => if b = a then { a with got := runsCut x 1 a.got, need := a.need + 1 } else b)), x)
    | none =>
      match runsTake 1 (s.tiers.free t) with
      | ((st, _) :: _, rest) => (s.setTierFree t rest, st)
      | _ =>
        let top := s.yard.objs.foldl (fun m e => e.2.place.foldl (fun m r => max m (r.1 + r.2)) m) (s.tiers.total t + stagingExtents)
        (s, top)

/-- A move abandoned (R356): the map is switched back for every extent copied, the destination is freed, and the object
returns to its source tier with every byte written since. Log 42 (DESIGN CHOICE), 43 (DESIGN CHOICE). -/
def State.abandonMove (s : State) (a : Alloc) : State :=
  let o := (s.obj a.handle).getD a.obj
  let n := o.size o.tier
  let back := (List.range (min a.copied n)).foldl (fun (p : State × List (Nat × Nat)) i =>
    let s := p.1
    let dx := if a.dest = 0 then i else (runsAt a.got i).getD 0
    if o.tier = 0 then (s.copyExtent o a.dest dx 0 i, p.2)
    else
      let r := takeBack s o.tier ((runsAt o.place i).getD 0)
      (r.1.copyExtent o a.dest dx o.tier r.2, p.2 ++ [(r.2, 1)])) (s, [])
  let s := back.1
  let place := back.2 ++ (runsTake a.copied o.place).2
  let s := s.setAllocs (s.yard.allocs.filter (fun b => !(b.handle == a.handle && b.kind == a.kind)))
  let s := s.modObj a.handle (fun o => { o with state := o.settled, place := if o.tier = 0 then [] else place })
  let s := if a.cmd then s.endCmdOpen else s
  let s := s.freeExtents a.dest a.got
  ((s.evictFor s.evictFuel a.obj.tier).buryObj a.handle).startQueued a.handle

/-- An extent copied: the next extent's map entry switches and its source extent is freed; a read error or a bad tile header
abandons the move (R353, R354, R356). -/
def State.extentCopyDone (s : State) (h : Nat) (result : CopyResult) : State :=
  match s.running.find? (fun a => a.handle == h), s.obj h with
    | some a, some o =>
      let i := a.copied
      let sx := if o.tier = 0 then i else (runsAt o.place i).getD 0
      let bad := (List.range 64).any (fun k => s.poolBad o.tier (sx * extentBytes + k * 4096))
      match (if bad then .readError else if s.tilesGood h o i then result else .badHeader : CopyResult) with
      | .readError => ((s.countBoard o.tier).yrdRaise 0x4035 h i).abandonMove a
      | .badHeader => (s.yrdRaise 0x4031 h i).abandonMove a
      | .ok =>
        let dx := if a.dest = 0 then i else (runsAt a.got i).getD 0
        let s := s.copyExtent o o.tier sx a.dest dx
        let b := { a with copied := i + 1 }
        let s := s.setAllocs (s.yard.allocs.map (fun x => if x = a then b else x))
        let s := if o.tier = 0 then s else s.freeExtents o.tier [(sx, 1)]
        if o.size o.tier ≤ i + 1 then s.endMove b else s
    | _, _ => s

/-- The waiting allocations examine the candidates again (R362). -/
def State.allocationRetry (s : State) : State :=
  ([1, 2, 3] : List Nat).foldl (fun s t => (s.serve t).evictFor s.evictFuel t) s

/-- An allocation has waited YRD_WAIT_LIMIT ticks (R356, R362). -/
def State.allocationLimit (s : State) (h : Nat) : State :=
  match s.yard.allocs.find? (fun a => a.handle == h && decide (0 < a.need)) with
  | some a => (s.failAlloc a).startQueued h
  | none => s

/-! ## Losses (R343, R400, R406) -/

/-- The T0-resident objects that hold bytes of the cells are damaged and 0x4034 is raised for each; the lent slots' bytes
become undefined (R343). -/
def State.loseT0Cells (s : State) (cells : Nat → Bool) : State :=
  s.yard.objs.foldl (fun s e =>
    match e.2.t0 with
    | some p =>
      if e.2.tier = 0 ∧ p.blocks.any (fun f => (blockCells f).any cells) then
        let s := p.blocks.foldl (fun s f => ((blockCells f).filter cells).foldl (fun s c =>
          let k := s.fresh
          k.2.modCell c (fun y => { y with under := y.under.lose (p.slot * 4096) (p.slots * 4096) k.1 })) s) s
        (s.modObj e.1 (fun o => { o with damaged := true })).yrdRaise 0x4034 e.1 0
      else s
    | none => s) s

/-- The objects with an extent for which `p` holds become damaged. -/
def State.damage (s : State) (p : Nat → Nat → Bool) : State :=
  s.yard.objs.foldl (fun s e =>
    if (List.range (e.2.size e.2.tier)).any (fun i => let x := s.extentAt e.1 e.2 i; p x.1 x.2) then
      s.modObj e.1 (fun o => { o with damaged := true })
    else s) s

end Sys2Proof.Machine
end

