-- ==== Sys2Proof/Machine/Bulk.lean ====
section
/-! DEFINITION. The bulk port: windows and their spaces (R493 to R497), frames (R498 to R502) and RDMA access (R503). -/

namespace Sys2Proof.Machine

open Sys2Proof

/-! ## Windows and spaces (R493, R494, R496) -/

def State.winLen (s : State) (w : Nat) : Nat := s.regF (Reg.bulkLen w) 39 0
def State.winAddr (s : State) (w : Nat) : Nat := (s.reg (Reg.bulkAddr w)).toNat
def State.winRow (s : State) (w : Nat) : Nat := s.regF (Reg.bulkStride w) 31 0
def State.winStride (s : State) (w : Nat) : Nat := s.regF (Reg.bulkStride w) 63 32

/-- The tier address of stream byte `i` (R493). -/
def State.streamAddr (s : State) (w i : Nat) : Nat :=
  let row := s.winRow w
  if row = 0 then s.winAddr w + i else s.winAddr w + i / row * s.winStride w + i % row

/-- The rows of `n` stream bytes from byte `i`: address and length of each. -/
def State.streamRows (s : State) (w i n : Nat) : List (Nat × Nat) :=
  let row := s.winRow w
  if n = 0 then []
  else if row = 0 then [(s.winAddr w + i, n)]
  else (List.range ((i + n - 1) / row + 1 - i / row)).map (fun k =>
    let r := i / row + k
    let lo := max i (r * row)
    let hi := min (i + n) ((r + 1) * row)
    (s.winAddr w + r * s.winStride w + lo % row, hi - lo))

/-- The end of the highest address that a window reaches. -/
def State.winEnd (s : State) (w : Nat) : Nat :=
  let row := s.winRow w
  let len := s.winLen w
  if row = 0 ∨ len ≤ row then s.winAddr w + len
  else
    let last := (len - 1) / row
    max (s.winAddr w + last * s.winStride w + (len - last * row)) (s.winAddr w + (last - 1) * s.winStride w + row)

/-- The window's fields obey R493 and it does not wrap the address space. -/
def State.winFields (s : State) (w : Nat) : Bool :=
  s.winAddr w % 16 == 0 && s.winLen w % 16 == 0 && s.winRow w % 16 == 0 && s.winStride w % 16 == 0 &&
  decide (16 ≤ s.winLen w) && decide (s.winLen w ≤ 2 ^ 40 - 16) && decide (s.winEnd w ≤ 2 ^ 64)

/-- The window reaches a byte of `[lo, hi)`: the first of its rows that ends above `lo` begins below `hi`. -/
def State.winMeets (s : State) (w lo hi : Nat) : Bool :=
  let a := s.winAddr w
  let len := s.winLen w
  let row := if s.winRow w = 0 then len else s.winRow w
  let st := s.winStride w
  let rows := ceilDiv len row
  let k := if lo < a + row ∨ st = 0 then 0 else (lo - a - row) / st + 1
  let size := fun (k : Nat) => if k + 1 = rows then len - k * row else row
  decide (k < rows) && decide (a + k * st < hi) && decide (lo < a + k * st + size k)

/-- IMG_STAGE_BASE (R388). -/
def stageBase : Nat := 0x2000_0000_0000_0000
def stageSize : Nat := 0x1_0000_0000

/-- The pool extents that objects and allocations hold in a tier. -/
def State.heldRuns (s : State) (t : Nat) : List (Nat × Nat) :=
  s.yard.objs.flatMap (fun e => if e.2.tier = t then e.2.place else []) ++
  s.yard.allocs.flatMap (fun a => if a.dest = t then a.got else [])

/-- The extents of a pool, the staging area's included. -/
def State.poolExtents (s : State) (t : Nat) : Nat :=
  if s.tiers.total t = 0 then 0 else s.tiers.total t + (if t = 1 then stagingExtents else 0)

/-- The space rule of R496 for a window that obeys R493. -/
def State.winSpace (s : State) (w : Nat) : Bool :=
  let a := s.winAddr w
  let hi := s.winEnd w
  let code := a / 2 ^ 60
  if (hi - 1) / 2 ^ 60 ≠ code then false
  else if stageBase ≤ a ∧ hi ≤ stageBase + stageSize then decide (0 < s.tiers.total 1)
  else match code with
    | 8 => (match s.obj (a / 2 ^ 36 % 2 ^ 24) with
        | some o => decide ((hi - 1) / 2 ^ 36 = a / 2 ^ 36) && decide (hi - (a - a % 2 ^ 36) ≤ o.extents * extentBytes)
        | none => false)
    | c =>
      if c = 2 ∨ c = 3 ∨ c = 4 then
        let t := c - 1
        let base := c * 2 ^ 60
        decide (hi - base ≤ s.poolExtents t * extentBytes) &&
        !(t == 1 && s.winMeets w stageBase (stageBase + stageSize)) &&
        (s.heldRuns t).all (fun r => !s.winMeets w (base + r.1 * extentBytes) (base + (r.1 + r.2) * extentBytes))
      else false

/-- The window touches the staging area. -/
def State.winStaging (s : State) (w : Nat) : Bool := s.winMeets w stageBase (stageBase + stageSize)

/-- A write of open = 1 or close = 1 (R494, R502): the state and the status. `sess` is the writer's session, 0 for
firmware. -/
def State.bulkCtrl (s : State) (sess w : Nat) (value : Word) : State × Nat :=
  let x := s.win w
  if bit 1 value then
    (if x.state = .closed then (s.setRegF (Reg.bulkCtrl w) 2 2 (bits 2 2 value), Kct.ok)
     else if x.owner ≠ sess then (s, Kct.badSession)
     else ((s.closeWin w).setRegF (Reg.bulkCtrl w) 2 2 (bits 2 2 value), Kct.ok))
  else if bit 0 value then
    (if x.state ≠ .closed then (s, Kct.busy)
     else if !s.winFields w then (s.reject none w, Kct.rejected)
     else if !s.winSpace w then (s, Kct.badAddress)
     else if s.portMode 0 ≠ .full ∧ s.portMode 1 ≠ .full then (s, Kct.notReady)
     else if s.loadActive = true ∧ s.winStaging w = true then (s, Kct.busy)
     else
       let k := s.fresh
       let key := BitVec.ofNat 32 (x.rkey.toNat + 1 + (Config.freeWord k.1).toNat % (2 ^ 32 - 1))
       let s := k.2.setWin w ⟨.opened, sess, bit 2 value, key, 0, 0, 0, none⟩
       (s.setRegF (Reg.bulkCtrl w) 2 2 (bits 2 2 value), Kct.ok))
  else (s.setRegF (Reg.bulkCtrl w) 2 2 (bits 2 2 value), Kct.ok)

def srcSession : Src → Nat
  | .kct k => k
  | .firmware => 0

/-! ## Bytes of a window (R435, R441, R493, R497) -/

/-- The row of `n` bytes at tier address `a` is still open to the window (R497). -/
def State.rowOpen (s : State) (a n : Nat) : Bool :=
  let c := a / 2 ^ 60
  if c = 8 then (s.obj (a / 2 ^ 36 % 2 ^ 24)).isSome
  else
    let base := c * 2 ^ 60
    (s.heldRuns (c - 1)).all (fun r =>
      decide (a + n ≤ base + r.1 * extentBytes) || decide (base + (r.1 + r.2) * extentBytes ≤ a))

/-- Bytes of an object for a checkpoint read: buffer cb of every extent (R441). -/
def State.objReadCb (s : State) (h : Nat) (o : Obj) (off n : Nat) : Bytes :=
  (List.range n).map (fun k =>
    let x := (off + k) / extentBytes
    s.extentByte h o ((if o.param then ofBool (o.cb.contains x) else 0) * o.extents + x) ((off + k) % extentBytes))

/-- `n` bytes from tier address `a`, and whether a tier read error meets them. -/
def State.rowRead (s : State) (a n : Nat) : Bytes × Bool :=
  let c := a / 2 ^ 60
  if c = 8 then
    let h := a / 2 ^ 36 % 2 ^ 24
    let off := a % 2 ^ 36
    match s.obj h with
    | some o =>
      if bit o.owner (s.reg Reg.redCtrl) && decide (o.owner < 8) then (s.objReadCb h o off n, s.objBadV h o off n)
      else (s.objReadV h o off n, s.objBadV h o off n)
    | none => (List.replicate n 0, true)
  else
    let off := a % 2 ^ 60
    ((s.tiers.mem (c - 1)).read off n, (List.range n).any (fun k => s.poolBad (c - 1) (off + k)))

/-- Bytes written at tier address `a`. -/
def State.rowWrite (s : State) (a : Nat) (bs : Bytes) : State :=
  let c := a / 2 ^ 60
  if c = 8 then
    let h := a / 2 ^ 36 % 2 ^ 24
    (s.objWriteV h (a % 2 ^ 36) bs).useObj h
  else { s with tiers := s.tiers.setMem (c - 1) ((s.tiers.mem (c - 1)).write (a % 2 ^ 60) bs) }

def State.streamOpen (s : State) (w i n : Nat) : Bool := (s.streamRows w i n).all (fun r => s.rowOpen r.1 r.2)

/-- The refusal of an access that a row of the window forbids: the owning session and the row's address are recorded (R2, R339,
R497, R506). -/
def State.rejectRow (s : State) (w i n : Nat) : State :=
  match (s.streamRows w i n).find? (fun r => !s.rowOpen r.1 r.2) with
  | some r => s.raise 0x4071 none (s.win w).owner (r.1 % 2 ^ 32)
  | none => s

def State.streamRead (s : State) (w i n : Nat) : Bytes × Bool :=
  let rs := (s.streamRows w i n).map (fun r => s.rowRead r.1 r.2)
  (rs.flatMap (fun r => r.1), rs.any (fun r => r.2))

def State.streamWrite (s : State) (w i : Nat) (bs : Bytes) : State :=
  ((s.streamRows w i bs.length).foldl (fun (acc : State × Bytes) r =>
    (acc.1.rowWrite r.1 (acc.2.take r.2), acc.2.drop r.2)) (s, bs)).1

/-- An object read by the window is used (R359). Log 74 (DESIGN CHOICE). -/
def State.useWin (s : State) (w : Nat) : State :=
  if s.winAddr w / 2 ^ 60 = 8 then s.useObj (s.winAddr w / 2 ^ 36 % 2 ^ 24) else s

/-! ## Frames (R498 to R501) -/

def frameBytes : Nat := 8192

/-- A frame's answer other than OK counts in rejected (R509). -/
def State.bulkRefuse (s : State) (qp : Option Nat) (f : KctFrame) (w status : Nat) : State :=
  let s := s.satReg (Reg.bulkRejects w) 62 32 1
  let s := if status = Kct.tierError then s.satReg (Reg.bulkRejects w) 31 0 1 else s
  if status = Kct.notReady then s.answerNotReady qp f else s.answer qp f (replyOf status)

/-- The cumulative acknowledgement of a write window (R499). Log 75 (DEDUCED). -/
def State.bulkAck (s : State) (w : Nat) (f : KctFrame) : State :=
  let n := ceilDiv (s.win w).accepted frameBytes
  let n := if (s.win w).state = .full then n else (s.win w).accepted / frameBytes
  (s.setWin w { s.win w with acked := n, since := 0 }).sendAnswer none (kctAnswer f f.session.toNat (replyOf Kct.ok n))

/-- A BULK_DATA frame (R494, R497 to R499, R501, R505). Log 75 (DEDUCED). -/
def State.bulkData (s : State) (qp : Option Nat) (f : KctFrame) (writeFail : Bool) : State :=
  let w := bits 63 61 f.address
  let n := bits 60 0 f.address
  let x := s.win w
  let len := s.winLen w
  if 3 < w ∨ x.state = .closed ∨ x.state = .error ∨ x.reads = true then s.bulkRefuse qp f (min w 3) Kct.window
  else if x.owner ≠ f.session.toNat then s.bulkRefuse qp f w Kct.badSession
  else if s.loadActive = true ∧ s.winStaging w = true then s.bulkRefuse qp f w Kct.busy
  else
    let got := if x.state = .full then ceilDiv len frameBytes else x.accepted / frameBytes
    if n < got then s.bulkAck w f
    else if x.state = .full ∨ len ≤ n * frameBytes then s.bulkRefuse qp f w Kct.window
    else if n ≠ got ∨ x.accepted % frameBytes ≠ 0 ∨ x.acked + 256 ≤ n then s.bulkRefuse qp f w Kct.sequence
    else
      let size := min frameBytes (len - n * frameBytes)
      if f.payload.length ≠ size then s.bulkRefuse qp f w Kct.badFrame
      else if !s.streamOpen w (n * frameBytes) size then (s.rejectRow w (n * frameBytes) size).bulkRefuse qp f w Kct.rejected
      else if writeFail then (s.setWin w { x with state := .error }).bulkRefuse qp f w Kct.tierError
      else
        let s := s.streamWrite w (n * frameBytes) f.payload
        let done := x.accepted + size
        let s := s.setWin w { x with accepted := done, since := x.since + 1, peer := some (f.port, f.source, f.udp),
                                     state := if done = len then .full else .opened }
        if 16 ≤ x.since + 1 then s.bulkAck w f else s

/-- BULK_ACK_TIMER: 10 µs have passed since a frame was accepted (R499). -/
def execBulkAckTimer (w : Nat) (s : State) : Host.Outcome State Fault Refusal :=
  .next (
    let x := s.win w
    match x.peer with
    | some p =>
      if x.since = 0 then s
      else s.bulkAck w { port := p.1, source := p.2.1, udp := p.2.2, magic := 0x544B, version := 1, op := 0x30, status := 0,
                         reserved := 0, length := 0, session := BitVec.ofNat 32 x.owner, seq := 0, address := 0, count := 0,
                         reserved2 := 0, check := 0, payload := [] }
    | none => s)

/-- One BULK_READ_DATA frame (R500); `bad` lists the frames whose read the tier flags. -/
def State.readFrame (s : State) (qp : Option Nat) (f : KctFrame) (w n : Nat) (bad : List Nat) : State :=
  let len := s.winLen w
  let size := min frameBytes (len - n * frameBytes)
  let f := { f with op := 0x32 }
  let at_ := w * 2 ^ 61 + n
  if !s.streamOpen w (n * frameBytes) size then
    ((s.rejectRow w (n * frameBytes) size).satReg (Reg.bulkRejects w) 62 32 1).answer qp f ⟨Kct.rejected, at_, 0, []⟩
  else
    let r := s.streamRead w (n * frameBytes) size
    if r.2 || bad.contains n then
      let s := if s.winAddr w / 2 ^ 60 = 3 ∨ (s.winAddr w / 2 ^ 60 = 8 ∧
          ((s.obj (s.winAddr w / 2 ^ 36 % 2 ^ 24)).map (fun o => o.tier)) = some 2) then s.countBoard 2 else s
      let b := s.freeBytes size
      (((b.2.satReg (Reg.bulkRejects w) 62 32 1).satReg (Reg.bulkRejects w) 31 0 1)).answer qp f ⟨Kct.tierError, at_, 0, b.1⟩
    else
      let x := s.win w
      ((s.setWin w { x with accepted := (x.accepted + size) % 2 ^ 40 }).useWin w).answer qp f ⟨Kct.ok, at_, 0, r.1⟩

/-- A BULK_READ request (R496, R500, R505). Log 75 (DEDUCED), 159 (DEDUCED). -/
def State.bulkRead (s : State) (qp : Option Nat) (f : KctFrame) (bad : List Nat) : State :=
  let w := bits 63 61 f.address
  let n := bits 60 0 f.address
  let x := s.win w
  let k := f.count.toNat
  let len := s.winLen w
  if 3 < w ∨ x.state ≠ .opened ∨ x.reads = false then s.bulkRefuse qp f (min w 3) Kct.window
  else if x.owner ≠ f.session.toNat then s.bulkRefuse qp f w Kct.badSession
  else if k = 0 ∨ 256 < k then s.bulkRefuse qp f w Kct.badFrame
  else if s.loadActive = true ∧ s.winStaging w = true then s.bulkRefuse qp f w Kct.busy
  else
    let here := (List.range k).filter (fun i => decide ((n + i) * frameBytes < len))
    let s := here.foldl (fun s i => s.readFrame qp f w (n + i) bad) s
    if here.length < k then s.bulkRefuse qp f w Kct.window else s

/-- A bulk frame's front end. -/
def State.bulkFrame (s : State) (f : KctFrame) (act : State → State) : State :=
  match s.kctFront none f with
  | .done s => s
  | .run s => act s

/-- BULK_DATA (R498, R501). -/
def execBulkData (f : KctFrame) (writeFail : Bool) (s : State) : Host.Outcome State Fault Refusal :=
  .next (if f.op = 0x30 then s.bulkFrame f (fun s => s.bulkData none f writeFail) else s)

/-- BULK_READ (R500). -/
def execBulkRead (f : KctFrame) (bad : List Nat) (s : State) : Host.Outcome State Fault Refusal :=
  .next (if f.op = 0x31 then s.bulkFrame f (fun s => s.bulkRead none f bad) else s)

/-! ## RDMA (R480, R503) -/

/-- The open window of an rkey. -/
def State.winOfKey (s : State) (rkey : BitVec 32) : Option Nat :=
  (List.range 4).find? (fun w => (s.win w).state != .closed && (s.win w).rkey == rkey)

/-- A queue pair that works, on its port. -/
def State.onQp (s : State) (k : Nat) (act : State → QpSt → State) : State :=
  match s.qp k with
  | some x => s.roceFrame x.port (fun s => if x.failed then s else act s x)
  | none => s

/-- RDMA_WRITE (R477, R480, R501, R503). -/
def execRdmaWrite (k : Nat) (rkey : BitVec 32) (off : Nat) (data : Bytes) (writeFail : Bool) (fill : Nat) (s : State) :
    Host.Outcome State Fault Refusal :=
  .next (s.onQp k (fun s q =>
    let s := s.buffer q.port (s.regF (Reg.ethPortCtrl q.port) 2 0) fill
    let fail := s.sendEth q.port (.rdma k false [])
    match s.winOfKey rkey with
    | none => fail
    | some w =>
      let x := s.win w
      let len := s.winLen w
      if x.state ≠ .opened ∨ x.reads = true ∨ off ≠ x.accepted ∨ len < off + data.length ∨
          (s.loadActive = true ∧ s.winStaging w = true) then fail
      else if !s.streamOpen w off data.length then (s.rejectRow w off data.length).sendEth q.port (.rdma k false [])
      else if writeFail then
        ((s.setWin w { x with state := .error }).satReg (Reg.bulkRejects w) 31 0 1).sendEth q.port (.rdma k false [])
      else
        let s := s.streamWrite w off data
        let done := off + data.length
        (s.setWin w { x with accepted := done, state := if done = len then .full else .opened }).sendEth q.port
          (.rdma k true [])))

/-- RDMA_READ (R480, R503); a tier read error completes as a remote access error. -/
def execRdmaRead (k : Nat) (rkey : BitVec 32) (off n : Nat) (bad : Bool) (s : State) : Host.Outcome State Fault Refusal :=
  .next (s.onQp k (fun s q =>
    let fail := s.sendEth q.port (.rdma k false [])
    match s.winOfKey rkey with
    | none => fail
    | some w =>
      let x := s.win w
      if x.state ≠ .opened ∨ x.reads = false ∨ s.winLen w < off + n ∨ (s.loadActive = true ∧ s.winStaging w = true) then fail
      else if !s.streamOpen w off n then (s.rejectRow w off n).sendEth q.port (.rdma k false [])
      else
        let r := s.streamRead w off n
        if r.2 || bad then (s.satReg (Reg.bulkRejects w) 31 0 1).sendEth q.port (.rdma k false [])
        else ((s.setWin w { x with accepted := (x.accepted + n) % 2 ^ 40 }).useWin w).sendEth q.port (.rdma k true r.1)))

end Sys2Proof.Machine
end

