-- ==== Sys2Proof/Machine/Crypto.lean ====
section
/-! DEFINITION. SHA-512 (FIPS 180-4) and Ed25519 (RFC 8032, pure), with which images, firmware, licences and owner commands are
checked and reports signed (R57, R636, R642, R643, R647). -/

namespace Sys2Proof.Machine

open Sys2Proof

namespace Sha512

def k0 : List (BitVec 64) :=
  [0x428A2F98D728AE22, 0x7137449123EF65CD, 0xB5C0FBCFEC4D3B2F, 0xE9B5DBA58189DBBC,
   0x3956C25BF348B538, 0x59F111F1B605D019, 0x923F82A4AF194F9B, 0xAB1C5ED5DA6D8118,
   0xD807AA98A3030242, 0x12835B0145706FBE, 0x243185BE4EE4B28C, 0x550C7DC3D5FFB4E2,
   0x72BE5D74F27B896F, 0x80DEB1FE3B1696B1, 0x9BDC06A725C71235, 0xC19BF174CF692694,
   0xE49B69C19EF14AD2, 0xEFBE4786384F25E3, 0x0FC19DC68B8CD5B5, 0x240CA1CC77AC9C65]
def k1 : List (BitVec 64) :=
  [0x2DE92C6F592B0275, 0x4A7484AA6EA6E483, 0x5CB0A9DCBD41FBD4, 0x76F988DA831153B5,
   0x983E5152EE66DFAB, 0xA831C66D2DB43210, 0xB00327C898FB213F, 0xBF597FC7BEEF0EE4,
   0xC6E00BF33DA88FC2, 0xD5A79147930AA725, 0x06CA6351E003826F, 0x142929670A0E6E70,
   0x27B70A8546D22FFC, 0x2E1B21385C26C926, 0x4D2C6DFC5AC42AED, 0x53380D139D95B3DF,
   0x650A73548BAF63DE, 0x766A0ABB3C77B2A8, 0x81C2C92E47EDAEE6, 0x92722C851482353B]
def k2 : List (BitVec 64) :=
  [0xA2BFE8A14CF10364, 0xA81A664BBC423001, 0xC24B8B70D0F89791, 0xC76C51A30654BE30,
   0xD192E819D6EF5218, 0xD69906245565A910, 0xF40E35855771202A, 0x106AA07032BBD1B8,
   0x19A4C116B8D2D0C8, 0x1E376C085141AB53, 0x2748774CDF8EEB99, 0x34B0BCB5E19B48A8,
   0x391C0CB3C5C95A63, 0x4ED8AA4AE3418ACB, 0x5B9CCA4F7763E373, 0x682E6FF3D6B2B8A3,
   0x748F82EE5DEFB2FC, 0x78A5636F43172F60, 0x84C87814A1F0AB72, 0x8CC702081A6439EC]
def k3 : List (BitVec 64) :=
  [0x90BEFFFA23631E28, 0xA4506CEBDE82BDE9, 0xBEF9A3F7B2C67915, 0xC67178F2E372532B,
   0xCA273ECEEA26619C, 0xD186B8C721C0C207, 0xEADA7DD6CDE0EB1E, 0xF57D4F7FEE6ED178,
   0x06F067AA72176FBA, 0x0A637DC5A2C898A6, 0x113F9804BEF90DAE, 0x1B710B35131C471B,
   0x28DB77F523047D84, 0x32CAAB7B40C72493, 0x3C9EBE0A15C9BEBC, 0x431D67C49C100D4C,
   0x4CC5D4BECB3E42B6, 0x597F299CFC657E2A, 0x5FCB6FAB3AD6FAEC, 0x6C44198C4A475817]

/-- The round constants. -/
def ks : List (BitVec 64) := k0 ++ k1 ++ k2 ++ k3

/-- The initial hash value. -/
def iv : List (BitVec 64) :=
  [0x6A09E667F3BCC908, 0xBB67AE8584CAA73B, 0x3C6EF372FE94F82B, 0xA54FF53A5F1D36F1,
   0x510E527FADE682D1, 0x9B05688C2B3E6C1F, 0x1F83D9ABFB41BD6B, 0x5BE0CD19137E2179]

def rotr (x : BitVec 64) (n : Nat) : BitVec 64 := x.rotateRight n

/-- The next `n` words of the message schedule, from the 16 last ones. -/
def schedule : Nat → List (BitVec 64) → List (BitVec 64)
  | 0, _ => []
  | n + 1, w =>
    let at_ := fun i => w.getD i 0
    let a := at_ 1
    let b := at_ 14
    let s0 := rotr a 1 ^^^ rotr a 8 ^^^ (a >>> 7)
    let s1 := rotr b 19 ^^^ rotr b 61 ^^^ (b >>> 6)
    let v := at_ 0 + s0 + at_ 9 + s1
    v :: schedule n (w.drop 1 ++ [v])

/-- One round on the eight working variables. -/
def round (h : List (BitVec 64)) (kw : BitVec 64 × BitVec 64) : List (BitVec 64) :=
  match h with
  | [a, b, c, d, e, f, g, x] =>
    let t1 := x + (rotr e 14 ^^^ rotr e 18 ^^^ rotr e 41) + ((e &&& f) ^^^ (~~~ e &&& g)) + kw.1 + kw.2
    let t2 := (rotr a 28 ^^^ rotr a 34 ^^^ rotr a 39) + ((a &&& b) ^^^ (a &&& c) ^^^ (b &&& c))
    [t1 + t2, a, b, c, d + t1, e, f, g]
  | l => l

/-- The hash value after one block of 128 bytes. -/
def block (h : List (BitVec 64)) (bs : Bytes) : List (BitVec 64) :=
  let w := (pieces 8 bs).map (fun b => BitVec.ofNat 64 (ofBE b))
  let r := (ks.zip (w ++ schedule 64 w)).foldl round h
  (h.zip r).map (fun p => p.1 + p.2)

/-- The message with its padding. -/
def pad (bs : Bytes) : Bytes :=
  let z := (111 + 128 - bs.length % 128) % 128
  bs ++ [0x80] ++ List.replicate z 0 ++ toBE 16 (bs.length * 8)

end Sha512

/-- The SHA-512 digest of a message, 64 bytes. Log 160 (PRESUMED). -/
def sha512 (bs : Bytes) : Bytes :=
  ((pieces 128 (Sha512.pad bs)).foldl Sha512.block Sha512.iv).flatMap (fun w => toBE 8 w.toNat)

namespace Ed25519

/-- The field prime, the group order, the curve constant, the square root of −1 and the base point. -/
def p : Nat := 57896044618658097711785492504343953926634992332820282019728792003956564819949
def order : Nat := 7237005577332262213973186563042994240857116359379907606001950938285454250989
def d : Nat := 37095705934669439343138083508754565189542113879843219016388785533085940283555
def sqrtM1 : Nat := 19681161376707505956807079304988542015446066515923890162744021073123829784752
def baseX : Nat := 15112221349535400772501151409588531511454012693041857206046113283949847762202
def baseY : Nat := 46316835694926478169428394003475163141307993866256225615783033603165251855960

def sub (a b : Nat) : Nat := (a + p - b % p) % p

/-- `a ^ e` in the field; `n` bounds the bits of `e`. -/
def pow : Nat → Nat → Nat → Nat
  | 0, _, _ => 1
  | n + 1, a, e => (if e % 2 = 1 then a else 1) * pow n (a * a % p) (e / 2) % p

def inv (a : Nat) : Nat := pow 256 a (p - 2)

/-- A point in extended coordinates X, Y, Z, T. -/
structure Point where
  x : Nat
  y : Nat
  z : Nat
  t : Nat
deriving DecidableEq, Repr

def zero : Point := ⟨0, 1, 1, 0⟩
def base : Point := ⟨baseX, baseY, 1, baseX * baseY % p⟩

def add (q r : Point) : Point :=
  let a := sub q.y q.x * sub r.y r.x % p
  let b := (q.y + q.x) * (r.y + r.x) % p
  let c := 2 * q.t * r.t * d % p
  let e := 2 * q.z * r.z % p
  let h := sub b a
  let f := sub e c
  let g := (e + c) % p
  let k := (b + a) % p
  ⟨h * f % p, g * k % p, f * g % p, h * k % p⟩

/-- `k` times a point; `n` bounds the bits of `k`. -/
def mul : Nat → Nat → Point → Point
  | 0, _, _ => zero
  | n + 1, k, q =>
    let r := mul n (k / 2) (add q q)
    if k % 2 = 1 then add r q else r

/-- The points are equal. -/
def same (q r : Point) : Bool := q.x * r.z % p == r.x * q.z % p && q.y * r.z % p == r.y * q.z % p

/-- The 32 bytes of a point. -/
def encode (q : Point) : Bytes :=
  let i := inv q.z
  toLE 32 (q.y * i % p + (q.x * i % p) % 2 * 2 ^ 255)

/-- The point of 32 bytes, if they name one. -/
def decode (bs : Bytes) : Option Point :=
  let w := ofLE bs
  let y := w % 2 ^ 255
  let odd := w / 2 ^ 255 % 2
  if bs.length ≠ 32 ∨ p ≤ y then none
  else
    let u := sub (y * y) 1
    let v := (d * (y * y % p) + 1) % p
    let v3 := v * v % p * v % p
    let x := u * v3 % p * pow 256 (u * (v3 * v3 % p * v % p) % p) ((p - 5) / 8) % p
    let vx := v * (x * x % p) % p
    let root := if vx = u % p then some x else if vx = sub 0 u then some (x * sqrtM1 % p) else none
    match root with
    | none => none
    | some x =>
      if x = 0 ∧ odd = 1 then none
      else
        let x := if x % 2 = odd then x else p - x
        some ⟨x, y, 1, x * y % p⟩

def mul8 (q : Point) : Point := mul 4 8 q

end Ed25519

/-- The signature is one of the message under the public key: [8][S]B = [8]R + [8][k]A (RFC 8032, 5.1.7). Log 160 (PRESUMED). -/
def edVerify (key msg sig : Bytes) : Bool :=
  let r := sig.take 32
  let s := ofLE (sig.drop 32)
  match Ed25519.decode key, Ed25519.decode r with
  | some a, some rp =>
    let k := ofLE (sha512 (r ++ key ++ msg)) % Ed25519.order
    decide (sig.length = 64) && decide (s < Ed25519.order) &&
      Ed25519.same (Ed25519.mul8 (Ed25519.mul 256 s Ed25519.base))
        (Ed25519.add (Ed25519.mul8 rp) (Ed25519.mul8 (Ed25519.mul 256 k a)))
  | _, _ => false

/-- The secret scalar of a 32-byte private key, and the second half of its hash (RFC 8032, 5.1.5). -/
def edSecret (seed : Bytes) : Nat × Bytes :=
  let h := sha512 seed
  let a := ofLE (h.take 32)
  (a % 2 ^ 254 / 8 * 8 + 2 ^ 254, h.drop 32)

/-- The public key of a private key. -/
def edPublic (seed : Bytes) : Bytes := Ed25519.encode (Ed25519.mul 256 (edSecret seed).1 Ed25519.base)

/-- The signature of a message (RFC 8032, 5.1.6). Log 160 (PRESUMED). -/
def edSign (seed msg : Bytes) : Bytes :=
  let a := edSecret seed
  let key := edPublic seed
  let r := ofLE (sha512 (a.2 ++ msg)) % Ed25519.order
  let rp := Ed25519.encode (Ed25519.mul 256 r Ed25519.base)
  let k := ofLE (sha512 (rp ++ key ++ msg)) % Ed25519.order
  rp ++ toLE 32 ((r + k * a.1) % Ed25519.order)

end Sys2Proof.Machine
end

