-- ==== Sys2Proof/Machine/Matrix.lean ====
section
/-! DEFINITION. One execution of a MATRIX step: the slab and its checks (R230 to R238), the weight groups and the entry
update of each mode and pass (R131 to R160), and the finished tile (R146, R187, R211). -/

namespace Sys2Proof.Machine

open Sys2Proof

/-- What an execution needs to know beyond its cell: its number, the image seed (R45), whether the slot is in the D-hold
(R437) and whether the routing class is licensed (R91). -/
structure CellEnv where
  cell  : Nat
  seed  : Word
  dHold : Bool
  routing : Bool
deriving DecidableEq, Repr

/-- What comes of offering one execution: it is made, it waits, or it raises a cell fault (R120, R121). -/
inductive ExecOut where
  | ok (x : CellSt)
  | wait (h : Hold)
  | fault (code : Nat)
deriving DecidableEq, Repr

/-! ## MATRIX fields (R90) -/

def Step.shape (b : Step) : Nat := bits 87 85 b
def Step.mode (b : Step) : Nat := bits 84 82 b
def Step.pass (b : Step) : Nat := bits 81 79 b
def Step.inFmt (b : Step) : Nat := bits 78 73 b
def Step.win (b : Step) : Ref := refOf (bits 72 55 b)
def Step.winStride (b : Step) : Int := signed 12 (bits 54 43 b)
def Step.rows (b : Step) : Nat := bits 42 37 b + 1
def Step.accTile (b : Step) : Nat := bits 36 33 b
def Step.accStep (b : Step) : Nat := bits 32 29 b
def Step.accView (b : Step) : View := if bit 28 b then .b32 else .w40
def Step.accInit (b : Step) : Nat := bits 27 26 b
def Step.finish (b : Step) : Nat := bits 25 24 b

/-! ## The slab (R230 to R239) -/

/-- The header fields that the array acts on (R232), with the slab's offset in its slot. -/
structure Slab where
  off     : Nat
  layout  : Nat
  wfmt    : Nat
  n       : Nat
  cont    : Nat
  payload : Nat
  dirCheck : Nat
deriving DecidableEq, Repr

def slabAt (land : Bytes) (off : Nat) : Slab :=
  let h := leAt land off 32
  { off := off, layout := natBits 255 254 h, wfmt := natBits 253 248 h, n := 8 * 2 ^ natBits 247 246 h,
    cont := natBits 243 237 h, payload := 16 * natBits 236 226 h, dirCheck := natBits 63 32 h }

/-- The offset of slab `r`, counted from the start of the slot by the earlier slabs' lengths (R138, R230). -/
def slabOffset (land : Bytes) : Nat → Nat
  | 0 => 0
  | r + 1 => slabOffset land r + 32 + (slabAt land (slabOffset land r)).payload

/-- Directory entry `k`: column, cont, count, and whether its reserved bits are zero (R233). -/
def Slab.entry (l : Slab) (land : Bytes) (k : Nat) : Nat := leAt land (l.off + 32 + 2 * k) 2

/-- The directory obeys R233. -/
def Slab.dirOk (l : Slab) (land : Bytes) : Bool :=
  (List.range l.n).all (fun j =>
    let e := l.entry land j
    natBits 15 14 e == 0 && natBits 13 8 e == j && natBits 7 7 e == 0 && decide (natBits 6 0 e ≤ 64)) &&
  (List.range l.cont).all (fun k =>
    let e := l.entry land (l.n + k)
    natBits 15 14 e == 0 && decide (natBits 13 8 e < l.n) && natBits 7 7 e == 1 && decide (1 ≤ natBits 6 0 e) &&
    decide (natBits 6 0 e ≤ 64) &&
    (k == 0 || decide (natBits 13 8 (l.entry land (l.n + k - 1)) ≤ natBits 13 8 e)))

/-- The records of a slab: column and pair count, in directory order (R236); empty for DENSE. -/
def Slab.records (l : Slab) (land : Bytes) : List (Nat × Nat) :=
  (List.range (l.n + l.cont)).map (fun k => let e := l.entry land k; (natBits 13 8 e, natBits 6 0 e))

/-- Bytes of one weight value (R235, R236). -/
def wBytes (wfmt : Nat) : Nat :=
  match fmtOf wfmt with
  | some f => f.bytes
  | none => 1

def Slab.isMx (l : Slab) : Bool := decide (8 ≤ l.wfmt)

/-- The bytes of directory and scale block, each padded to 16 (R230, R239). -/
def Slab.dirSize (l : Slab) : Nat := if l.layout = 1 then 16 * ceilDiv (2 * (l.n + l.cont)) 16 else 0
def Slab.scaleSize (l : Slab) : Nat := if l.isMx then 16 * ceilDiv (2 * l.n) 16 else 0

/-- The payload size that the directory's counts and the width of wfmt give (R239). -/
def Slab.needed (l : Slab) (land : Bytes) : Nat :=
  let b := wBytes l.wfmt
  if l.layout = 1 then
    let g := (l.records land).foldl (fun a r => a + ceilDiv r.2 8) 0
    l.dirSize + l.scaleSize + 16 * ceilDiv (g * (8 * b + 6)) 16
  else l.scaleSize + 64 * b * l.n

/-- The checks of R238 in order, then the other conditions of R160; the first fault that applies. Log 12 (DEDUCED). -/
def matrixCheck (b : Step) (land : Bytes) (r : Nat) (winAddr : Option Nat) : Option Nat :=
  let off := slabOffset land r
  let l := slabAt land off
  if slotBytes < off + 32 then some 0x1006
  else if (crc32c (slice land (off + 4) 28)).toNat ≠ leAt land off 4 then some 0x1007
  else if 2 ≤ l.layout then some 0x1007
  else if 0x0A < l.wfmt then some 0x1006
  else if slotBytes < off + 32 + l.payload then some 0x1006
  else if l.layout = 0 ∧ l.cont ≠ 0 then some 0x1007
  else if l.layout = 1 ∧ (64 < l.cont ∨ l.payload < 2 * (l.n + l.cont)) then some 0x1007
  else if l.layout = 1 ∧ (crc32c (slice land (off + 32) (2 * (l.n + l.cont)))).toNat ≠ l.dirCheck then some 0x1007
  else if l.layout = 1 ∧ !l.dirOk land then some 0x1007
  else if l.payload < l.needed land then some 0x1007
  else if winAddr.isNone then some 0x1006
  else if b.winStride % 4 ≠ 0 then some 0x1006
  else if b.pass ≠ 0 ∧ b.mode ≠ 0 then some 0x1006
  else if 8 ≤ b.inFmt ∧ b.mode ≠ 0 then some 0x1006
  else if (l.isMx ∨ l.layout = 1) ∧ b.mode ≠ 0 then some 0x1006
  else if l.layout = 1 ∧ b.shape ≠ 0 then some 0x1006
  else none

/-! ## Weight groups (R132, R133, R139, R150) -/

/-- The scale byte of K-value `k` of column `j`, 0x7F (one) for formats without scales (R234). -/
def Slab.scale (l : Slab) (land : Bytes) (j k : Nat) : Nat :=
  if l.isMx then (land.getD (l.off + 32 + l.dirSize + 2 * j + k / 32) 0).toNat else 0x7F

/-- The column area's offset in the slot. -/
def Slab.area (l : Slab) : Nat := l.off + 32 + l.dirSize + l.scaleSize

def weightVal (wfmt : Nat) (land : Bytes) (at_ : Nat) : Num :=
  match fmtOf wfmt with
  | some f => f.decode (leAt land at_ f.bytes)
  | none => .zero

/-- The issue list of a slab: for each weight group its column and its (K-index, weight) pairs. `w` is the weights per
clock of a dense column. -/
def Slab.groups (l : Slab) (land : Bytes) (w : Nat) : List (Nat × List (Nat × Num)) :=
  let b := wBytes l.wfmt
  let val := fun j k (a : Nat) =>
    let v := weightVal l.wfmt land a
    if l.isMx then mxScaled (l.scale land j k) v else v
  if l.layout = 0 then
    (List.range l.n).flatMap (fun j => (List.range (64 / w)).map (fun q =>
      (j, (List.range w).map (fun i => let k := q * w + i; (k, val j k (l.area + 64 * b * j + k * b))))))
  else
    let step := fun (acc : Nat × List (Nat × List (Nat × Num))) (r : Nat × Nat) =>
      let gs := (List.range (ceilDiv r.2 8)).map (fun q =>
        let base := l.area + acc.1 + q * (8 * b + 6)
        let idx := leAt land (base + 8 * b) 6
        (r.1, (List.range (min 8 (r.2 - 8 * q))).map (fun p =>
          let k := natBits (6 * p + 5) (6 * p) idx
          (k, val r.1 k (base + p * b)))))
      (acc.1 + ceilDiv r.2 8 * (8 * b + 6), acc.2 ++ (if r.2 = 0 then [(r.1, [])] else gs))
    ((l.records land).foldl step (0, [])).2

/-! ## The entry update (R148 to R158) -/

/-- The contribution of one weight group to an entry: the new exact or rounded value and the events (R148, R153, R156,
R158, R184): an entry that holds a NaN passes it on and gains NANIN alone. `isInt` says that both operands are integers.
Log 10 (DEDUCED), 11 (DEDUCED), 151 (DEDUCED). -/
def entryUpdate (mode pass : Nat) (sat isInt : Bool) (e : Num) (pairs : List (Num × Num)) : Num × Ev :=
  let nanin := if pairs.any (fun p => p.1.isNan || p.2.isNan) then evNanin else evNone
  if e.isNan then (.nan, nanin) else
  let lane := fun (r : Num × Ev) => if isInt then r else let q := r32 sat r.1; (q.1, r.2 ||| q.2)
  let evs := fun (rs : List (Num × Ev)) => rs.foldl (fun a r => a ||| r.2) evNone
  match mode with
  | 0 =>
    let ps := pairs.map (fun p => Num.mul p.1 p.2)
    let fix := fun (v : Num) => match pass with
      | 1 => v.neg
      | 2 => v.scale (-11)
      | 3 => v.scale (-11)
      | _ => v
    let t := Num.sum (e :: ps.map (fun r => fix r.1))
    (t.1, nanin ||| evs ps ||| t.2)
  | 1 =>
    let ls := pairs.map (fun p => let r := lane (Num.add p.1 p.2.neg); (r.1.abs, r.2))
    let t := Num.sum (e :: ls.map (fun r => r.1))
    (t.1, nanin ||| evs ls ||| t.2)
  | 2 =>
    let ls := pairs.map (fun p => let r := lane (Num.add p.1 p.2.neg); ((Num.mul r.1 r.1).1, r.2))
    let t := Num.sum (e :: ls.map (fun r => r.1))
    (t.1, nanin ||| evs ls ||| t.2)
  | 5 =>
    let n := (pairs.filter (fun p => Num.lt p.2 p.1)).length
    let t := Num.sum [e, .fin false n 0]
    (t.1, nanin ||| t.2)
  | m =>
    let ls := pairs.map (fun p => lane (Num.add p.1 p.2))
    let bad := ls.any (fun r => r.1.isNan)
    let pick := if m = 3 then Num.minZ else Num.maxZ
    if bad then (.nan, nanin ||| evs ls ||| evInv)
    else (ls.foldl (fun a r => pick a r.1) e, nanin ||| evs ls)

/-- The identity of a mode in a view (R156, R157). -/
def identityBits (mode : Nat) (v : View) : Nat :=
  match mode with
  | 3 => v.fmt.infBits
  | 4 => v.fmt.signBit true + v.fmt.infBits
  | _ => 0

/-- The window value of row `m` at K-index `k` (R135, R149). -/
def windowVal (x : CellSt) (fmt rows a m k : Nat) : Num :=
  match fmtOf fmt with
  | some f =>
    let i := m * 64 + k
    let v := f.decode (ofLE (x.near.read (a + i * f.bytes) f.bytes))
    if f.isMx then mxScaled (x.near.byte (a + rows * 64 + i / 32)).toNat v else v
  | none => .zero

/-- One weight group added into the entries of its column in rows 0 to M − 1 (R133, R134, R140). -/
def groupStep (b : Step) (sat : Bool) (n tile a wfmt : Nat) (x : CellSt) (g : Nat × List (Nat × Num)) : CellSt :=
  let v := b.accView
  let isInt := decide (4 ≤ b.inFmt ∧ b.inFmt ≤ 7 ∧ 4 ≤ wfmt ∧ wfmt ≤ 7)
  (List.range b.rows).foldl (fun x m =>
    let k := tile * n + g.1
    let pairs := g.2.map (fun p => (windowVal x b.inFmt b.rows a m p.1, p.2))
    if pairs.isEmpty then x
    else
      let r := entryUpdate b.mode b.pass sat isInt (v.fmt.decode (x.accAt v m k)) pairs
      let w := v.fmt.encode .nearest 0 false r.1
      (x.setAcc v m k w.1).setHid m k (x.hidAt m k ||| evHid (r.2 ||| w.2))) x

/-- The tile's rows 0 to M − 1 set to the identity, hidden flags cleared (R147, R187). -/
def clearTile (b : Step) (n tile : Nat) (x : CellSt) : CellSt :=
  (List.range (b.rows * n)).foldl (fun x e =>
    (x.setAcc b.accView (e / n) (tile * n + e % n) (identityBits b.mode b.accView)).setHid (e / n) (tile * n + e % n) 0) x

/-- The tile copied to the finished-tile queue with its word (R146, R187, R211): rows from M on hold +0.0. Log 9 (DEDUCED). -/
def enqueueTile (env : CellEnv) (b : Step) (n tile : Nat) (x : CellSt) : CellSt :=
  let w := x.tileWord n tile b.rows
  let vals := (List.range (64 * n)).map (fun e =>
    if e / n < b.rows then x.accAt b.accView (e / n) (tile * n + e % n) else 0)
  let entry : QEntry := ⟨n, b.accView, tile, w, vals⟩
  ({ x with queue := x.queue ++ [entry] } : CellSt).countWord env.cell w

/-- Weights per clock of a dense column: min(L, 32 B ÷ weight width) (R132). -/
def weightsPerClock (shape b : Nat) : Nat := min (8 * 2 ^ shape) (32 / b)

/-- Execution `k` of a MATRIX step: slab `k` of its landing slot into its accumulator tile. A finishing execution waits
while the finished-tile queue is full (R104, R146). Log 8 (DESIGN CHOICE), 9 (DEDUCED), 12 (DEDUCED). -/
def matrixExec (env : CellEnv) (x : CellSt) (r : Run) (k : Nat) : ExecOut :=
  let b := r.bits
  let s := r.seq0 + k
  let land := x.landSlot b.lslot
  let winAddr : Option Nat := match b.win with
    | .near u =>
      let a := effAddr u s b.winStride
      if a % 64 = 0 ∧ 0 ≤ a then some a.toNat else none
    | _ => none
  -- an address outside near SRAM is an effective address outside its space (R121)
  let winOut : Bool := match b.win with
    | .near u =>
      let f := (fmtOf b.inFmt).getD (.int 1 false)
      let need := b.rows * 64 * f.bytes + (if f.isMx then 2 * b.rows else 0)
      (inSpace nearBytes (effAddr u s b.winStride) need).isNone
    | _ => false
  match (if winOut then some 0x1002 else matrixCheck b land k winAddr) with
  | some code => .fault code
  | none =>
    let l := slabAt land (slabOffset land k)
    let fin := b.finish = 2 ∨ (b.finish = 1 ∧ r.lastIter = true ∧ k = b.repeats)
    if fin ∧ 4 ≤ x.queue.length then .wait .queueFull
    else
      let tile := (b.accTile + s * b.accStep) % tilesOf b.accView l.n
      let gs := l.groups land (weightsPerClock b.shape (wBytes l.wfmt))
      let x := { x with width := l.n, view := b.accView }
      let x := if b.accInit = 2 ∨ (b.accInit = 1 ∧ s = 0) then clearTile b l.n tile x else x
      let x := gs.foldl (groupStep b x.satNarrow l.n tile (winAddr.getD 0) l.wfmt) x
      let x := x.tally 1 (gs.length + (if x.passShape = some b.shape then 0 else 63))
      let x := { x with passShape := some b.shape }
      .ok (if fin then enqueueTile env b l.n tile x else x)

end Sys2Proof.Machine
end

