-- ==== Sys2Proof/Machine/Packer.lean ====
section
/-! DEFINITION. Mask objects (R244) and the store-path packer of the region reducers (R241 to R247). -/

namespace Sys2Proof.Machine

open Sys2Proof

/-! ## Slabs in an object -/

def hdrTrans (h : Nat) : Bool := natBits 245 245 h == 1
def hdrCols (h : Nat) : Nat := 8 * 2 ^ natBits 247 246 h
def hdrChunk (h : Nat) : Nat := natBits 211 196 h
def hdrBase (h : Nat) : Nat := natBits 195 172 h

/-- The slabs of an object in ascending offset, each as its offset and header. A slab begins where 32 bytes hold a header
with a good check; bytes that do not are passed over 16 at a time. Log 62 (DEDUCED). -/
def slabWalk (rd : Nat → Nat → Bytes) (size : Nat) : Nat → Nat → List (Nat × Nat)
  | 0, _ => []
  | fuel + 1, off =>
    if size < off + 32 then []
    else
      let h := rd off 32
      if (crc32c (h.drop 4)).toNat = leAt h 0 4 then
        (off, ofLE h) :: slabWalk rd size fuel (off + 32 + 16 * natBits 236 226 (ofLE h))
      else slabWalk rd size fuel (off + 16)

/-! ## Mask objects (R244) -/

/-- The entries of a mask object: each header word with its bitmaps. Log 62 (DEDUCED). -/
def maskWalk (rd : Nat → Nat → Bytes) (size : Nat) : Nat → Nat → List (Nat × List Nat)
  | 0, _ => []
  | fuel + 1, off =>
    if size < off + 16 then []
    else
      let w := leAt (rd off 8) 0 8
      let n := 8 * 2 ^ natBits 59 58 w
      if size < off + 16 + 8 * n then []
      else (w, (List.range n).map (fun j => leAt (rd (off + 16 + 8 * j) 8) 0 8)) :: maskWalk rd size fuel (off + 16 + 8 * n)

/-- The mask positions of a layer in the order of R431: gradient position, column, K-position. -/
def maskElems (entries : List (Nat × List Nat)) : List (Nat × Nat × Nat) :=
  ((entries.filter (fun e => natBits 61 61 e.1 == 0)).zipIdx).flatMap (fun e =>
    (e.1.2.zipIdx).flatMap (fun w =>
      ((List.range 64).filter (fun k => natBits k k w.1 == 1)).map (fun k => (e.2, w.2, k))))

/-! ## Packing a slab (R242, R245, R247) -/

/-- A stored value of a slab: column, K-position, byte address, and whether it is the lo term of a pair of two (R242). -/
structure SlabCell where
  col  : Nat
  k    : Nat
  at_  : Nat
  lo   : Bool
deriving DecidableEq, Repr

def recordCells (land : Bytes) (b base j count : Nat) : List SlabCell :=
  let idx := fun (p : Nat) => natBits (6 * (p % 8) + 5) (6 * (p % 8)) (leAt land (base + p / 8 * (8 * b + 6) + 8 * b) 6)
  (List.range count).map (fun p =>
    ⟨j, idx p, base + p / 8 * (8 * b + 6) + p % 8 * b, decide (0 < p) && idx p == idx (p - 1)⟩)

/-- The stored values of a slab (R235, R236). -/
def Slab.stored (l : Slab) (land : Bytes) : List SlabCell :=
  let b := wBytes l.wfmt
  if l.layout = 0 then
    (List.range l.n).flatMap (fun j => (List.range 64).map (fun k => ⟨j, k, l.area + 64 * b * j + k * b, false⟩))
  else
    ((l.records land).foldl (fun (acc : Nat × List SlabCell) r =>
      (acc.1 + ceilDiv r.2 8 * (8 * b + 6), acc.2 ++ recordCells land b (l.area + acc.1) r.1 r.2)) (0, [])).2

/-- One value of a format without scales stored: hi = v, or lo = v − hi, nearest-even (R242, R247). Log 63 (DESIGN CHOICE). -/
def packPlain (f : Fmt) (bs : Bytes) (c : SlabCell) (v : Num) : Bytes :=
  let hi := f.encode .nearest 0 false v
  let w := if c.lo then (f.encode .nearest 0 false (Num.add v (f.decode hi.1).neg).1).1 else hi.1
  splice bs c.at_ (toLE f.bytes w)

/-- The block of K-positions 32q to 32q + 31 of a column formed anew in an MX format (R183, R234). Log 63 (DESIGN CHOICE). -/
def packBlock (f : Fmt) (l : Slab) (cells : List SlabCell) (cover : SlabCell → Option Num) (bs : Bytes) (j q : Nat) : Bytes :=
  let mine := cells.filter (fun c => c.col == j && c.k / 32 == q)
  if mine.all (fun c => (cover c).isNone) then bs
  else
    let old := fun (c : SlabCell) => mxScaled (l.scale bs j c.k) (f.decode (bs.getD c.at_ 0).toNat)
    let his := mine.filter (fun c => !c.lo)
    let vals := (List.range 32).map (fun k =>
      match his.find? (fun c => c.k % 32 == k) with
      | some c => (cover c).getD (old c)
      | none => Num.zero)
    let blk := encodeMxBlock f .nearest (List.replicate 32 0) vals
    let elem := fun (c : SlabCell) =>
      let e := blk.1.getD (c.k % 32) 0
      if c.lo then
        let rest := (Num.add (vals.getD (c.k % 32) Num.zero) (mxScaled blk.2.1 (f.decode e)).neg).1
        match f with
        | .mx ff _ => (ff.encode .nearest 0 true (rest.scale (127 - (blk.2.1 : Int)))).1
        | _ => unsigned 8 (max (-127) (min 127 (match (rest.scale (133 - (blk.2.1 : Int))) with
            | .fin n m e => roundInt .nearest 0 n m e
            | _ => 0)))
      else e
    let bs := mine.foldl (fun bs c => splice bs c.at_ [BitVec.ofNat 8 (elem c)]) bs
    splice bs (l.off + 32 + l.dirSize + 2 * j + q) [BitVec.ofNat 8 blk.2.1]

/-- The slab with a new version and its checks formed anew (R247). -/
def sealSlab (l : Slab) (version : Nat) (bs : Bytes) : Bytes :=
  let dir := if l.layout = 1 then (crc32c (slice bs 32 (2 * (l.n + l.cont)))).toNat else 0
  let h := BitVec.ofNat 256 (leAt bs 0 32)
  let body := (toLE 32 (setBits 63 32 dir (setBits 155 140 version h)).toNat).drop 4
  toLE 4 (crc32c body).toNat ++ body ++ bs.drop 32

/-- A slab with the values of W that `cover` gives (row = K-position, column) stored in it; trans = 1 holds Wᵀ. -/
def packSlab (cover : Nat → Nat → Option Num) (version : Nat) (bs : Bytes) : Bytes :=
  let h := leAt bs 0 32
  let l := slabAt bs 0
  let of_ := fun (c : SlabCell) =>
    if hdrTrans h then cover (hdrBase h + c.col) (hdrChunk h * 64 + c.k) else cover (hdrChunk h * 64 + c.k) (hdrBase h + c.col)
  let cells := l.stored bs
  match fmtOf l.wfmt with
  | none => bs
  | some f =>
    if cells.all (fun c => (of_ c).isNone) then bs
    else
      let bs := if f.isMx then
          (List.range l.n).foldl (fun bs j => packBlock f l cells of_ (packBlock f l cells of_ bs j 0) j 1) bs
        else cells.foldl (fun bs c => match of_ c with
          | some v => packPlain f bs c v
          | none => bs) bs
      sealSlab l version bs

/-- The values of W that the tile of gradient position `t` of a DENSE layer covers: the `t`-th trans = 0 slab's.
Log 62 (DEDUCED). -/
def coverDense (slabs : List (Nat × Nat)) (t : Nat) (vals : List Num) (k c : Nat) : Option Num :=
  match (slabs.filter (fun e => !hdrTrans e.2))[t]? with
  | some e =>
    let k0 := hdrChunk e.2 * 64
    let c0 := hdrBase e.2
    if k0 ≤ k ∧ k < k0 + 64 ∧ c0 ≤ c ∧ c < c0 + hdrCols e.2 then vals[(k - k0) * 64 + (c - c0)]? else none
  | none => none

/-- The values of W that compressed position `t` of a MASKED layer covers (R431). Log 63 (DESIGN CHOICE). -/
def coverMasked (entries : List (Nat × List Nat)) (t : Nat) (vals : List Num) (k c : Nat) : Option Num :=
  let fwd := entries.filter (fun e => natBits 61 61 e.1 == 0)
  let mine := ((maskElems entries).drop (4096 * t)).take 4096
  match mine.findIdx? (fun e =>
    let w := ((fwd[e.1]?).map (fun x => x.1)).getD 0
    natBits 33 18 w * 64 + e.2.2 == k && natBits 57 34 w + e.2.1 == c) with
  | some i => vals[i]?
  | none => none

end Sys2Proof.Machine
end

