-- ==== Sys2Proof/Machine/Vector.lean ====
section
/-! DEFINITION. One execution of a VECTOR step: its operands, the lane operations of R218, masks and permutations (R220,
R221), special cases (R222), reductions (R225, R226) and the SIGN1 operations (R224). -/

namespace Sys2Proof.Machine

open Sys2Proof

/-! ## VECTOR fields (R92, R217) -/

def Step.holdB (b : Step) : Bool := bit 87 b
def Step.masked (b : Step) : Bool := bit 86 b
def Step.vop (b : Step) : Nat := bits 85 80 b
def Step.srcA (b : Step) : Ref := refOf (bits 79 62 b)
def Step.srcB (b : Step) : Ref := refOf (bits 61 44 b)
def Step.srcBits (b : Step) : Nat := bits 61 44 b
def Step.vdst (b : Step) : Ref := refOf (bits 43 26 b)
def Step.vsrcFmt (b : Step) : Nat := bits 25 20 b
def Step.vdstFmt (b : Step) : Nat := bits 19 14 b
def Step.vrnd (b : Step) : Nat := bits 13 12 b
def Step.vstride (b : Step) : Int := signed 12 (bits 11 0 b)

/-- The operations that read src_a alone (R218). -/
def unaryOps : List Nat :=
  [0x00, 0x07, 0x08, 0x09, 0x10, 0x11, 0x12, 0x13, 0x14, 0x15, 0x20, 0x21, 0x24, 0x25,
   0x30, 0x31, 0x32, 0x33, 0x34, 0x35, 0x36, 0x37]

/-- The operations that read src_b as well. -/
def binaryOps : List Nat := [0x01, 0x02, 0x03, 0x04, 0x05, 0x06, 0x0A, 0x0B, 0x22, 0x23, 0x28, 0x29]

/-- Lane clocks of one lane group (R218). -/
def laneClocks (op : Nat) : Nat := if 0x10 ≤ op ∧ op ≤ 0x15 then 4 else 1

/-- The unit address of a memory reference. -/
def Ref.unit : Ref → Nat
  | .near u => u
  | .under u => u
  | .land u => u
  | _ => 0

def Ref.isMem : Ref → Bool
  | .near _ => true
  | .under _ => true
  | .land _ => true
  | _ => false

/-- The bytes of one lane group of 64 elements: a SIGN1 operand reads its whole group (R224). -/
def groupBytes (f : Fmt) : Nat :=
  match f with
  | .sign1 => 48
  | f => f.size 64

/-- The effective address of a VECTOR memory operand in execution `s`: a SIGN1 operand steps 48 bytes a group and ignores
the stride (R89, R224). -/
def vecAddr (f : Fmt) (u s : Nat) (stride : Int) : Int :=
  match f with
  | .sign1 => 16 * (u : Int) + 48 * ((s / 4 : Nat) : Int)
  | _ => effAddr u s stride

/-- The 64 lane values in the bytes of one lane group. Log 28 (DEDUCED). -/
def laneValues (f : Fmt) (s : Nat) (bs : Bytes) : List Num :=
  match f with
  | .sign1 => (List.range 64).map (fun l => sign1Elem bs (64 * (s % 4) + l))
  | f => f.values 64 bs

/-- What reading an operand gives: lane values with the raw bytes of a memory operand, a wait, or a fault. -/
inductive Lanes where
  | ok (vs : List Num) (raw : Bytes)
  | wait
  | fault
deriving DecidableEq, Repr

/-- The 64 lanes of a source operand in execution `s` (R88, R89, R202, R212, R214, R221). `first` is the step's first
sequence index, whose slot a landing operand stays in (R107). -/
def readLanes (x : CellSt) (r : Run) (ref : Ref) (s : Nat) : Lanes :=
  let b := r.bits
  match fmtOf b.vsrcFmt with
  | none => .fault
  | some f =>
    match ref with
    | .head =>
      match x.queue with
      | [] => .wait
      | q :: _ =>
        if q.view.code ≠ b.vsrcFmt then .fault
        else if 64 * q.width < x.cursor + 64 then .fault
        else .ok ((List.range 64).map (fun l => q.view.fmt.decode (q.vals.getD (x.cursor + l) 0))) []
    | .tile t =>
      if r.width = 0 ∨ r.view.code ≠ b.vsrcFmt ∨ tilesOf r.view r.width ≤ t ∨ 64 * r.width < 64 * s + 64 then .fault
      else .ok ((List.range 64).map (fun l =>
        let e := 64 * s + l
        r.view.fmt.decode (x.accAt r.view (e / r.width) (t * r.width + e % r.width)))) []
    | .latch q => .ok (List.replicate 64 (fFP32.decode (bits 31 0 (x.latch[q]?.getD 0)))) []
    | .bad => .fault
    | m =>
      let lslot := (vecAddr f m.unit r.seq0 b.vstride / slotBytes).toNat
      match x.checkAt m lslot (vecAddr f m.unit s b.vstride) (groupBytes f) with
      | none => .fault
      | some a => let raw := x.readAt m a (groupBytes f); .ok (laneValues f s raw) raw

/-! ## Lane operations -/

/-- A NaN operand gives NANIN (R184, R222). -/
def nanEv (vs : List Num) : Ev := if vs.any Num.isNan then evNanin else evNone

/-- The lane result of an elementwise operation before rounding, and its events (R218, R222). Log 11 (DEDUCED), 28 (DEDUCED). -/
def laneOp (sat : Bool) (op : Nat) (a b c : Num) : Num × Ev :=
  match op with
  | 0x00 => (a, nanEv [a])
  | 0x01 => let r := Num.add a b; (r.1, nanEv [a, b] ||| r.2)
  | 0x02 => let r := Num.add a b.neg; (r.1, nanEv [a, b] ||| r.2)
  | 0x03 => let r := Num.mul a b; (r.1, nanEv [a, b] ||| r.2)
  | 0x04 =>
    let p := Num.mul a b
    let r := Num.add p.1 c
    (r.1, nanEv [a, b, c] ||| p.2 ||| r.2)
  | 0x05 => if a.isNan || b.isNan then (.nan, evNanin) else (Num.minZ a b, evNone)
  | 0x06 => if a.isNan || b.isNan then (.nan, evNanin) else (Num.maxZ a b, evNone)
  | 0x07 => (a.abs, nanEv [a])
  | 0x08 => (a.neg, nanEv [a])
  | 0x09 => if a.isNan then (.nan, evNanin) else (Num.maxZ a Num.zero, evNone)
  | 0x0A => if a.isNan || b.isNan then (.zero, evNanin) else (if Num.lt b a then .one else .zero, evNone)
  | 0x0B => if b.isNan then (c, evNanin) else (if Num.lt .zero b then a else c, nanEv [a, c])
  | op => elementary sat op (bits64Of a) a

/-- Lane `l`'s source index for PERMUTE (R221). -/
def permIndex (latch : Vector Word 16) (l : Nat) : Nat :=
  bits (6 * (l % 10) + 5) (6 * (l % 10)) (latch[8 + l / 10]?.getD 0)

/-- Lane `l` is not masked (R220). Log 15 (DESIGN CHOICE). -/
def unmasked (x : CellSt) (b : Step) (l : Nat) : Bool := !b.masked || bit l (x.latch[15]?.getD 0)

/-- The lane moves 0x20 to 0x25 (R218, R220, R221). -/
def moveLanes (x : CellSt) (b : Step) (av bv : List Num) : List Num :=
  let at_ := fun (vs : List Num) l => vs.getD l Num.zero
  (List.range 64).map (fun l =>
    match b.vop with
    | 0x20 => at_ av (permIndex x.latch l)
    | 0x21 => at_ av (l ^^^ bits 5 0 (x.latch[14]?.getD 0))
    | 0x22 => if l % 2 = 0 then at_ av (l / 2) else at_ bv (l / 2)
    | 0x23 => if l % 2 = 0 then at_ av (32 + l / 2) else at_ bv (32 + l / 2)
    | 0x24 =>
      let open_ := (List.range 64).filter (unmasked x b)
      (match open_[l]? with
      | some j => at_ av j
      | none => Num.zero)
    | _ =>
      if unmasked x b l then at_ av ((List.range l).filter (unmasked x b)).length else Num.zero)

/-! ## Reductions (R225, R226) -/

/-- One level of the fixed tree: neighbours combined, a masked lane leaving its partner unchanged. -/
def treeLevel (f : Num → Num → Num × Ev) : List (Option Num) → List (Option Num) × Ev
  | a :: b :: t =>
    let r := treeLevel f t
    match a, b with
    | some u, some v => let c := f u v; (some c.1 :: r.1, c.2 ||| r.2)
    | some u, none => (some u :: r.1, r.2)
    | none, v => (v :: r.1, r.2)
  | rest => (rest, evNone)

/-- `n` levels of the tree. -/
def tree (f : Num → Num → Num × Ev) : Nat → List (Option Num) → List (Option Num) × Ev
  | 0, vs => (vs, evNone)
  | n + 1, vs =>
    let l := treeLevel f vs
    let r := tree f n l.1
    (r.1, l.2 ||| r.2)

/-- A combination of the tree, rounded to binary32 nearest-even; it is neither a conversion nor a lane result, so that
sat_narrow leaves it alone (R198, R225). -/
def add32 (a b : Num) : Num × Ev :=
  let s := Num.add a b
  let r := r32 false s.1
  (r.1, s.2 ||| r.2)

def mul32 (a b : Num) : Num × Ev :=
  let s := Num.mul a b
  let r := r32 false s.1
  (r.1, s.2 ||| r.2)

/-- A binary32 value divided by a count, rounded once (R224, R225). -/
def div32 (a : Num) (n : Nat) : Num × Ev :=
  match a with
  | .fin s 0 e => (.fin s 0 e, evNone)
  | .fin s m e => r32 false (quotNum s m n e)
  | v => (v, evNone)

/-- The result of a tree. Log 149 (DEDUCED). -/
def treeSum (f : Num → Num → Num × Ev) (vs : List (Option Num)) : Num × Ev :=
  let r := tree f 6 vs
  ((r.1.headD none).getD Num.zero, r.2)

/-- The extreme unmasked lane with its index: the first NaN, or else the largest by `better`. -/
def argBest (better : Num → Num → Bool) (vs : List (Nat × Num)) : Option (Nat × Num) :=
  match vs.find? (fun p => p.2.isNan) with
  | some p => some p
  | none => vs.foldl (fun a p => match a with
    | none => some p
    | some q => if better p.2 q.2 then some p else some q) none

/-- A reduction's result in binary32 (or the lane index or count), with its events; none when every lane is masked.
Log 148 (DEDUCED), 149 (DEDUCED). -/
def reduce (sat : Bool) (op : Nat) (lanes : List (Option Num)) : Option (Num × Ev) :=
  let conv := lanes.map (Option.map (r32 sat))
  let leaves := conv.map (Option.map (fun r => r.1))
  let ev := (lanes.filterMap id).foldl (fun a v => a ||| nanEv [v]) evNone |||
    (conv.filterMap id).foldl (fun a r => a ||| r.2) evNone
  let on : List (Nat × Num) := (List.zipWith (fun l v => (l, v)) (List.range 64) leaves).filterMap
    (fun p => p.2.map (fun v => (p.1, v)))
  if on.isEmpty then none
  else match op with
    | 0x30 => let r := treeSum add32 leaves; some (r.1, ev ||| r.2)
    | 0x31 => let r := treeSum mul32 leaves; some (r.1, ev ||| r.2)
    | 0x32 => (argBest (fun a b => Num.below b a) on).map (fun p => (p.2, ev))
    | 0x33 => (argBest Num.below on).map (fun p => (p.2, ev))
    | 0x34 => (argBest (fun a b => Num.below b a) on).map (fun p => (.fin false p.1 0, ev))
    | 0x35 => (argBest Num.below on).map (fun p => (.fin false p.1 0, ev))
    | 0x36 => some (.fin false (on.filter (fun p => !p.2.isNan && !p.2.isZero)).length 0, ev)
    | _ =>
      let r := treeSum add32 leaves
      let d := div32 r.1 on.length
      some (d.1, ev ||| r.2 ||| d.2)

/-- The identity that a fully masked reduction writes, as a value (R226). -/
def emptyNum (op : Nat) : Num :=
  match op with
  | 0x31 => .one
  | 0x32 => .inf true
  | 0x33 => .inf false
  | _ => .zero

/-- The identity that a fully masked reduction writes, as the element's bits in dst_fmt (R226). -/
def emptyBits (f : Fmt) (op : Nat) : Nat :=
  match op, f with
  | 0x32, .int b s => unsigned (8 * b) (intMin b s)
  | 0x33, .int b s => unsigned (8 * b) (intMax b s)
  | 0x34, _ => 0xFFFF
  | 0x35, _ => 0xFFFF
  | op, f => (f.encode .nearest 0 false (emptyNum op)).1

/-! ## Writing the lanes -/

/-- The lane result brought to dst_fmt: FP32 rounds once under rnd, any other format rounds to binary32 first (R178).
Log 149 (DEDUCED). -/
def outLane (f : Fmt) (rnd : Rnd) (sat : Bool) (draw : Nat) (v : Num) : Nat × Ev :=
  match f with
  | .float ff =>
    if ff = fFP32 then ff.encode rnd draw sat v
    else let r := r32 sat v; let c := ff.encode rnd draw sat r.1; (c.1, r.2 ||| c.2)
  | f => let r := r32 sat v; let c := f.encode rnd draw sat r.1; (c.1, r.2 ||| c.2)

/-- The 64 lane results as the bytes of the destination group and each lane's events. A lane of `keep` that is false
leaves its element's old bytes in `old`; an MX block forms its scale from its written lanes and a block with none keeps its
scale. Log 15 (DESIGN CHOICE). -/
def writeLanes (f : Fmt) (rnd : Rnd) (ds : List Nat) (sat : Bool) (keep : List Bool) (old : Bytes) (vs : List Num) :
    Bytes × List Ev :=
  let kept := fun l => keep.getD l true
  if f.isMx then
    let r := vs.map (r32 sat)
    let w := mxBytes f rnd ds ((List.range 64).map (fun l => if kept l then (r.getD l (Num.zero, evNone)).1 else Num.zero))
    let byteAt := fun k =>
      if k < 64 then (if kept k then w.1.getD k 0 else old.getD k 0)
      else if k < 66 then
        (if (List.range 32).any (fun l => kept (32 * (k - 64) + l)) then w.1.getD k 0 else old.getD k 0)
      else w.1.getD k 0
    ((List.range 80).map byteAt,
     (List.range 64).map (fun l => if kept l then (r.getD l (Num.zero, evNone)).2 ||| w.2.getD l evNone else evNone))
  else
    let r := (List.range 64).map (fun l => outLane f rnd sat (ds.getD l 0) (vs.getD l Num.zero))
    ((List.range 64).flatMap (fun l =>
       if kept l then toLE f.bytes (r.getD l (0, evNone)).1 else slice old (l * f.bytes) f.bytes),
     (List.range 64).map (fun l => if kept l then (r.getD l (0, evNone)).2 else evNone))

/-- The SIGN1 scale of a run of lane sums (R224): the mean magnitude of the unmasked lanes, with its events. A lane sum that
is a NaN sets NANIN at its own lane. Log 147 (DEDUCED). -/
def sign1Scale (us : List (Option Num)) : Num × Ev :=
  let on := us.filterMap id
  if on.isEmpty then (.zero, evEmpty)
  else
    let t := treeSum add32 (us.map (Option.map Num.abs))
    let d := div32 t.1 on.length
    (d.1, t.2 ||| d.2)

/-- A lane's SIGN1 bit: 1 exactly when u is less than zero (R224). Log 147 (DEDUCED). -/
def sign1Bit (u : Num) : Bool := Num.lt u .zero

/-- The cell once a step has read `n` elements of the head: the cursor advances, and the entry is freed when it is read
out (R212). -/
def CellSt.advanceHead (x : CellSt) (n : Nat) : CellSt :=
  match x.queue with
  | [] => x
  | q :: t => if 64 * q.width ≤ x.cursor + n then { x with queue := t, cursor := 0 } else { x with cursor := x.cursor + n }

/-- The columns and first element that place a VECTOR execution's elements (R186): those of the queue head or tile that
src_a names, or a flat transfer, of which execution `s` handles elements 64s to 64s + 63. -/
def vecPlace (x : CellSt) (r : Run) (s : Nat) (ra : Ref) : Nat × Nat :=
  match ra with
  | .head => (x.queue.head?.map (fun q => (q.width, x.cursor))).getD (0, 0)
  | .tile _ => (r.width, 64 * s)
  | _ => (0, 64 * s)

/-- Execution `k` of a VECTOR step (R217 to R226). Log 17 (DEDUCED), 147 (DEDUCED), 148 (DEDUCED). -/
def vectorExec (env : CellEnv) (x : CellSt) (r : Run) (k : Nat) : ExecOut :=
  let b := r.bits
  let s := r.seq0 + k
  let unary := unaryOps.contains b.vop
  let la := readLanes x r b.srcA s
  let lb :=
    if unary then Lanes.ok (List.replicate 64 Num.zero) []
    else match r.heldB, b.holdB && b.srcB.isMem, fmtOf b.vsrcFmt with
      | some raw, true, some f => Lanes.ok (laneValues f r.seq0 raw) raw
      | none, true, _ => readLanes x r b.srcB r.seq0
      | _, _, _ => readLanes x r b.srcB s
  match la, lb, fmtOf b.vdstFmt, rndOf b.vrnd with
  | .wait, _, _, _ => .wait .tileWait
  | _, .wait, _, _ => .wait .tileWait
  | .ok av _, .ok bv _, some fd, some rnd =>
    let n := groupBytes fd
    match x.checkAt b.vdst 0 (vecAddr fd b.vdst.unit s b.vstride) n with
    | none => .fault 0x1002
    | some a =>
      let isUnder := match b.vdst with
        | .under _ => true
        | _ => false
      if env.dHold && isUnder && x.touchesErr a n then .wait .dHold
      else
        let sat := x.satNarrow
        let on := (List.range 64).map (unmasked x b)
        let ds := if b.vrnd = 2 then draws 64 (seedExecution env.seed env.cell r.index r.epoch (r.exec0 + BitVec.ofNat 32 k))
          else List.replicate 64 0
        let old := x.readAt b.vdst a n
        let place := vecPlace x r s b.srcA
        let elems := fun (es : List Ev) =>
          (List.range es.length).map (fun l => (elemPos place.1 (place.2 + l), es.getD l evNone))
        let srnd := decide (b.vrnd = 2)
        let res : Bytes × List (Nat × Ev) :=
          if b.vop = 0x28 ∨ b.vop = 0x29 then
            let us := List.zipWith (fun a c => let q := Num.add a c; let w := r32 false q.1; (w.1, nanEv [a, c, w.1] ||| q.2 ||| w.2)) av bv
            let lanes := List.zipWith (fun (o : Bool) (u : Num × Ev) => if o then some u.1 else none) on us
            let sc := sign1Scale lanes
            let evs := List.zipWith (fun (o : Bool) (u : Num × Ev) => if o then u.2 else evNone) on us
            let evs0 := (evs.headD evNone ||| sc.2) :: evs.drop 1
            if b.vop = 0x28 then
              let run := s % 4
              let signs := (List.range 8).map (fun j => BitVec.ofNat 8 ((List.range 8).foldl (fun acc t =>
                let l := 8 * j + t
                acc + (if on.getD l false && sign1Bit (us.getD l (Num.zero, evNone)).1 then 2 ^ t else 0)) 0))
              let g := splice (splice old (8 * run) signs) (32 + 4 * run) (toLE 4 (bits32Of sc.1).toNat)
              (g, elems evs0)
            else
              let vs := us.map (fun u => Num.add u.1 (if sign1Bit u.1 then sc.1 else sc.1.neg))
              let w := writeLanes fd rnd ds sat on old (vs.map (fun v => v.1))
              let all := List.zipWith (fun (p : Ev × Bool) (v : Num × Ev) => if p.2 then p.1 ||| v.2 else evNone)
                (List.zipWith (fun e o => (e, o)) (List.zipWith (fun e f => e ||| f) evs w.2) on) vs
              (w.1, elems ((all.headD evNone ||| sc.2) :: all.drop 1))
          else if 0x30 ≤ b.vop then
            let lanes := List.zipWith (fun (o : Bool) v => if o then some v else none) on av
            match reduce sat b.vop lanes with
            | none =>
              let one := toLE fd.bytes (emptyBits fd b.vop)
              ((if fd.isMx then (mxBytes fd rnd ds (List.replicate 64 (emptyNum b.vop))).1 else (List.replicate 64 one).flatten),
               [(elemPos place.1 place.2, evEmpty)])
            | some res =>
              let w := writeLanes fd rnd (List.replicate 64 (ds.headD 0)) sat (List.replicate 64 true) old (List.replicate 64 res.1)
              (w.1, [(elemPos place.1 place.2, w.2.foldl (fun e f => e ||| f) res.2)])
          else if 0x20 ≤ b.vop then
            let vs := moveLanes x b av bv
            let keep := if b.vop = 0x24 ∨ b.vop = 0x25 then List.replicate 64 true else on
            let w := writeLanes fd rnd ds sat keep old vs
            let evs := (List.range 64).map (fun l =>
              if keep.getD l true then nanEv [vs.getD l Num.zero] ||| w.2.getD l evNone else evNone)
            (w.1, elems evs)
          else
            let cs := if b.vop = 0x04 ∨ b.vop = 0x0B then laneValues fd s old else List.replicate 64 Num.zero
            let rs := (List.range 64).map (fun l =>
              laneOp sat b.vop (av.getD l Num.zero) (bv.getD l Num.zero) (cs.getD l Num.zero))
            let w := writeLanes fd rnd ds sat on old (rs.map (fun r => r.1))
            let evs := (List.range 64).map (fun l =>
              if on.getD l false then (rs.getD l (Num.zero, evNone)).2 ||| w.2.getD l evNone else evNone)
            (w.1, elems evs)
        let x := x.writeAt b.vdst a res.1
        let x := x.countWord env.cell (wordOfElems srnd res.2)
        let x := x.tally 2 (laneClocks b.vop)
        let x := if b.srcA = .head ∨ (!unary ∧ b.srcB = .head) then x.advanceHead 64 else x
        .ok x
  | _, _, _, _ => .fault 0x1002

end Sys2Proof.Machine
end

