-- ==== Sys2Proof/Machine/Moves.lean ====
section
/-! DEFINITION. One execution of a LOAD or STORE step (R93 to R96): copies and conversions (R169 to R183), tiles with
their headers (R96, R370, R371), preload (R204), spill and resume (R206 to R209), and the outbox (R423). -/

namespace Sys2Proof.Machine

open Sys2Proof

/-! ## LOAD and STORE fields (R93) -/

def Step.msrc (b : Step) : Ref := refOf (bits 87 70 b)
def Step.mdst (b : Step) : Ref := refOf (bits 69 52 b)
def Step.msrcFmt (b : Step) : Nat := bits 51 46 b
def Step.mdstFmt (b : Step) : Nat := bits 45 40 b
def Step.mrnd (b : Step) : Nat := bits 39 38 b
def Step.units (b : Step) : Nat := bits 37 26 b + 1
def Step.msrcStride (b : Step) : Int := signed 12 (bits 25 14 b)
def Step.mdstStride (b : Step) : Int := signed 12 (bits 13 2 b)
def Step.tileBit (b : Step) : Bool := bit 1 b

def Ref.isTile : Ref → Bool
  | .tile _ => true
  | _ => false

def Ref.isUnder : Ref → Bool
  | .under _ => true
  | _ => false

def Ref.isNear : Ref → Bool
  | .near _ => true
  | _ => false

/-- The elements of one execution (R202). -/
def Step.count (b : Step) : Nat :=
  if b.msrc.isMem then ((fmtOf b.msrcFmt).getD (.int 1 false)).count b.units else 4 * b.units

/-- The step is a resume (R208): a binary64 tile from the understorey in spill form into a tile, once. -/
def Step.isResume (b : Step) : Bool :=
  decide (b.cls = 3) && b.msrc.isUnder && decide (b.msrcFmt = 0x12) && b.tileBit && b.mdst.isTile &&
  [8, 16, 32, 64].any (fun n => decide (b.units = 34 * n)) && decide (b.repeats = 0)

/-- The step is a spill of a tile of width `n` (R206). -/
def Step.isSpill (b : Step) (n : Nat) : Bool :=
  decide (b.cls = 4) && b.msrc.isTile && b.mdst.isUnder && decide (b.mdstFmt = 0x12) && b.tileBit &&
  decide (b.units = 16 * n) && decide (b.repeats = 0)

/-- The width that a LOAD into a tile gives the accumulator layout (R202, R208). -/
def Step.loadWidth (b : Step) : Nat := if b.isResume then b.units / 34 else (b.repeats + 1) * b.count / 64

/-- The tile, header and payload, lies inside the spill store (R209). Log 27 (DEDUCED). -/
def inSpill (x : CellSt) (a n : Nat) : Bool :=
  let base := 16 * bits 13 0 x.spillWord
  decide (base ≤ a) && decide (a + n ≤ base + 16 * bits 29 16 x.spillWord)

/-- The draws of an execution: one per destination element when it rounds stochastically (R179). Log 148 (DEDUCED). -/
def Run.draws (env : CellEnv) (r : Run) (k rnd n : Nat) : List Nat :=
  if rnd = 2 then Machine.draws n (seedExecution env.seed env.cell r.index r.epoch (r.exec0 + BitVec.ofNat 32 k))
  else List.replicate n 0

/-- Values converted for a memory destination: a copy of the raw bytes when the formats agree (R169). -/
def convertOut (fs fd : Fmt) (raw : Bytes) (rnd : Rnd) (ds : List Nat) (sat : Bool) (n : Nat) : Bytes × List Ev :=
  if fs = fd then (raw.take (fd.size n), []) else fd.writeValues rnd ds sat (fs.values n raw)

/-- The values written into a tile from element `e0` on, with their hidden flags (R204, R208), and each element's events. -/
def writeTile (x : CellSt) (v : View) (n t e0 : Nat) (rnd : Rnd) (ds : List Nat) (vals : List Num)
    (hids : List (BitVec 4)) : CellSt × List Ev :=
  (List.range vals.length).foldl (fun (acc : CellSt × List Ev) i =>
    let u := vals.getD i Num.zero
    let c := v.fmt.encode rnd (ds.getD i 0) x.satNarrow u
    let e := e0 + i
    ((acc.1.setAcc v (e / n) (t * n + e % n) c.1).setHid (e / n) (t * n + e % n) (hids.getD i 0),
     acc.2 ++ [nanEv [u] ||| c.2])) (x, [])

/-- The binary32 words of `bs` copied as they are into a tile in the binary32 view, the hidden flags cleared (R169, R204). -/
def copyTile (x : CellSt) (n t e0 : Nat) (bs : Bytes) : CellSt :=
  (List.range (bs.length / 4)).foldl (fun x i =>
    let e := e0 + i
    (x.setAcc .b32 (e / n) (t * n + e % n) (leAt bs (4 * i) 4)).setHid (e / n) (t * n + e % n) 0) x

/-- The word of an execution's elements, the element `i` of the list standing at element `e0 + i`.
Log 16 (DEDUCED), 150 (DEDUCED). -/
def moveWord (rnd cols e0 : Nat) (es : List Ev) : BitVec 32 :=
  wordOfElems (decide (rnd = 2)) ((List.range es.length).map (fun i => (elemPos cols (e0 + i), es.getD i evNone)))

/-- Execution `k` of a LOAD step. Log 16 (DEDUCED), 27 (DEDUCED), 150 (DEDUCED). -/
def loadExec (env : CellEnv) (x : CellSt) (r : Run) (k : Nat) : ExecOut :=
  let b := r.bits
  let s := r.seq0 + k
  let head := if b.tileBit then 32 else 0
  let pay := 16 * b.units
  let lslot := (effAddr b.msrc.unit r.seq0 b.msrcStride / slotBytes).toNat
  match fmtOf b.msrcFmt, fmtOf b.mdstFmt, rndOf b.mrnd, x.checkAt b.msrc lslot (effAddr b.msrc.unit s b.msrcStride) (head + pay) with
  | some fs, some fd, some rnd, some a =>
    let hbytes := x.readAt b.msrc a 32
    let raw := x.readAt b.msrc (a + head) pay
    let n := b.count
    let ds := r.draws env k b.mrnd n
    match b.mdst, viewOf b.mdstFmt with
    | .tile t, some v =>
      let w := r.width
      if w = 0 ∨ tilesOf v w ≤ t then .fault 0x1002
      else if b.isResume then
        if !inSpill x a (32 + 544 * w) then .fault 0x1002
        else if !tileHdrGood hbytes then .fault 0x1005
        else
          let vals := (List.range (64 * w)).map (fun e => fFP64.decode (leAt raw (8 * e) 8))
          let plane := raw.drop (8 * 64 * w)
          let hids := (List.range (64 * w)).map (fun e =>
            BitVec.ofNat 4 (let p := (plane.getD (e / 2) 0).toNat; if e % 2 = 0 then p % 16 else p / 16))
          let y := writeTile x v w t 0 rnd (r.draws env k b.mrnd (64 * w)) vals hids
          .ok (y.1.countWord env.cell (moveWord b.mrnd w 0 y.2))
      else if 64 * w < s * n + n then .fault 0x1002
      else if b.tileBit ∧ 65536 < fd.size n then .fault 0x1002
      else if b.tileBit && !tileHdrGood hbytes then .fault 0x1005
      else if fs = fd then .ok ((copyTile x w t (s * n) raw).countWord env.cell (moveWord b.mrnd w 0 []))
      else
        let y := writeTile x v w t (s * n) rnd ds (fs.values n raw) []
        .ok (y.1.countWord env.cell (moveWord b.mrnd w (s * n) y.2))
    | dst, _ =>
      let out := fd.size n
      if b.tileBit ∧ 65536 < out then .fault 0x1002
      else match x.checkAt dst 0 (effAddr dst.unit s b.mdstStride) (head + out) with
        | none => .fault 0x1002
        | some d =>
          if b.tileBit && !tileHdrGood hbytes then .fault 0x1005
          else
            let h := tileHdrOf hbytes
            let c := convertOut fs fd raw rnd ds x.satNarrow n
            let own := moveWord b.mrnd (if b.tileBit then h.cols else 0) 0 c.2
            let hdr := if b.tileBit then
                ({ h with offset := d + 32, numerics := if fs = fd then h.numerics else mergeWords h.numerics own } : TileHdr).bytes
              else []
            .ok ((x.writeAt dst d (hdr ++ c.1)).countWord env.cell own)
  | _, _, _, _ => .fault 0x1002

/-- What a STORE reads: values with their raw bytes, the source's word, the tile's columns and first element, and whether
it reads the queue head; or a wait, or a fault. -/
inductive StoreSrc where
  | ok (vals : List Num) (raw : Bytes) (word : BitVec 32) (cols e0 : Nat) (isHead : Bool)
  | wait
  | fault (code : Nat)
deriving DecidableEq, Repr

/-- The source of a STORE execution (R94, R202, R212, R214); a tile in near SRAM has its header checked (R96, R371). -/
def storeSrc (x : CellSt) (r : Run) (s : Nat) : StoreSrc :=
  let b := r.bits
  let n := b.count
  match b.msrc with
  | .head =>
    match x.queue with
    | [] => .wait
    | q :: _ =>
      if q.view.code ≠ b.msrcFmt then .fault 0x1002
      else if 64 * q.width < x.cursor + n then .fault 0x1002
      else
        let es := (List.range n).map (fun i => q.vals.getD (x.cursor + i) 0)
        .ok (es.map q.view.fmt.decode) (es.flatMap (toLE 4)) q.word q.width x.cursor true
  | .tile t =>
    if r.width = 0 ∨ r.view.code ≠ b.msrcFmt ∨ tilesOf r.view r.width ≤ t ∨ 64 * r.width < s * n + n then .fault 0x1002
    else
      let es := (List.range n).map (fun i =>
        let e := s * n + i
        x.accAt r.view (e / r.width) (t * r.width + e % r.width))
      .ok (es.map r.view.fmt.decode) (es.flatMap (toLE 4)) 0 r.width (s * n) false
  | .near u =>
    let head := if b.tileBit then 32 else 0
    match x.checkAt (.near u) 0 (effAddr u s b.msrcStride) (head + 16 * b.units), fmtOf b.msrcFmt with
    | some a, some f =>
      let raw := x.near.read (a + head) (16 * b.units)
      let h := tileHdrOf (x.near.read a 32)
      if b.tileBit && !tileHdrGood (x.near.read a 32) then .fault 0x1005
      else .ok (f.values n raw) raw (if b.tileBit then h.numerics else 0) (if b.tileBit then h.cols else 0) 0 false
    | _, _ => .fault 0x1002
  | _ => .fault 0x1002

/-- Execution `k` of a STORE step. It waits while the queue head is empty (R104), while its outbox slot is occupied
(R423), and in the D-hold before a write to the error window (R437). Log 27 (DEDUCED), 50 (DEDUCED), 150 (DEDUCED). -/
def storeExec (env : CellEnv) (x : CellSt) (r : Run) (k : Nat) : ExecOut :=
  let b := r.bits
  let s := r.seq0 + k
  match storeSrc x r s, fmtOf b.msrcFmt, fmtOf b.mdstFmt, rndOf b.mrnd with
  | .wait, _, _, _ => .wait .tileWait
  | .fault code, _, _, _ => .fault code
  | .ok vals raw word cols e0 isHead, some fs, some fd, some rnd =>
    let n := vals.length
    let spill := b.isSpill r.width
    let ds := r.draws env k b.mrnd n
    let sat := x.satNarrow
    let c : Bytes × List Ev :=
      if spill then
        let t := match b.msrc with
          | .tile t => t
          | _ => 0
        let nib := fun e => (x.hidAt (e / r.width) (t * r.width + e % r.width)).toNat
        (vals.flatMap (fun v => toLE 8 (fFP64.encode .nearest 0 false v).1) ++
          (List.range (32 * r.width)).map (fun i => BitVec.ofNat 8 (nib (2 * i) + 16 * nib (2 * i + 1))), [])
      else if fs = fd then (raw.take (fd.size n), [])
      else fd.writeValues rnd ds sat vals
    let head := if b.tileBit then 32 else 0
    if b.tileBit ∧ (65536 < c.1.length ∨ (b.msrc.isMem ∧ 65536 < 16 * b.units)) then .fault 0x1002
    else match x.checkAt b.mdst 0 (effAddr b.mdst.unit s b.mdstStride) (head + c.1.length) with
      | none => .fault 0x1002
      | some d =>
        if spill ∧ inSpill x d (32 + c.1.length) = false then .fault 0x1002
        else
          let slot := if b.mdst.isUnder then x.outboxSlot d else none
          let busy := match slot with
            | some j => x.outbox.contains j
            | none => false
          if busy then .wait .outbox
          else if env.dHold && b.mdst.isUnder && x.touchesErr d (head + c.1.length) then .wait .dHold
          else
            let own := moveWord b.mrnd cols e0 c.2
            let src := if spill then
                x.tileWord r.width (match b.msrc with
                  | .tile t => t
                  | _ => 0) 64
              else word
            let tiled := b.msrc.isTile || isHead
            let h : TileHdr :=
              { handle := 0, offset := d + 32, rows := if tiled then 64 else 0, cols := if tiled then cols else 0,
                format := b.mdstFmt, layout := ofBool spill,
                stepTag := field 23 12 r.epoch.toNat + field 11 0 r.index, version := 0,
                numerics := if fs = fd ∧ b.msrc.isMem then src else mergeWords src own, source := env.cell, flags := 0, length := c.1.length }
            let x := x.writeAt b.mdst d ((if b.tileBit then h.bytes else []) ++ c.1)
            let x := match slot with
              | some j => if b.tileBit then { x with outNew := x.outNew.filter (fun k => k != j) ++ [j] } else x
              | none => x
            let x := x.countWord env.cell own
            .ok (if isHead then x.advanceHead n else x)
  | _, _, _, _ => .fault 0x1002

end Sys2Proof.Machine
end

