-- ==== Sys2Proof/Machine/Cell.lean ====
section
/-! DEFINITION. The looper: gates, issue, loops, engines, completion, cell faults and the looper commands (R99 to R124). -/

namespace Sys2Proof.Machine

open Sys2Proof

/-- What executions on a cell need to know of the rest of the module. -/
def State.env (s : State) (c : Nat) : CellEnv :=
  match s.slotOfCell c with
  | some n => ⟨c, (s.slot n).seed, s.dHold n, bit 2 (s.slot n).granted⟩
  | none => ⟨c, 0, false, false⟩

/-! ## Steps and the step table -/

/-- Step `k` of the step table. -/
def CellSt.stepAt (x : CellSt) (k : Nat) : Step := BitVec.ofNat 128 (ofLE (x.stepMem.read (16 * k) 16))

/-- The error mark of a table entry: some true for a double-bit error (R119). -/
def eccAt (marks : List (Nat × Bool)) (k : Nat) : Option Bool := (marks.find? (fun m => m.1 == k)).map (fun m => m.2)

/-- The iteration index of the innermost open loop, 0 when none is open (R89). -/
def CellSt.iter (x : CellSt) : Nat :=
  match x.stack with
  | e :: _ => e.count - e.remaining
  | [] => 0

/-- No loop is open, or the innermost one is in its last iteration (R90). Log 9 (DEDUCED). -/
def CellSt.lastIter (x : CellSt) : Bool :=
  match x.stack with
  | e :: _ => decide (e.remaining = 0)
  | [] => true

/-- The sequence index of a step's first execution (R89). -/
def CellSt.seq0 (x : CellSt) (b : Step) : Nat := x.iter * (b.repeats + 1)

/-! ## Legality at issue (R121) -/

/-- A format code that a LOAD, STORE or VECTOR source may carry from a memory (R175). -/
def memSrcFmt (f : Nat) : Bool := (fmtOf f).isSome && f != 0x11

/-- A format code that may be written to a memory (R175). -/
def memDstFmt (f : Nat) : Bool := (fmtOf f).isSome && f != 0x11 && f != 0x20

/-- A tile operand under the layout `w`, `v` exists: the width is not zero and the number is below T (R201, R202). -/
def tileOk (v : View) (w t : Nat) : Bool := decide (w ≠ 0) && decide (t < tilesOf v w)

/-- A source operand of a VECTOR step is one the step may name, with a format code that fits it (R92, R174, R175).
Log 20 (DEDUCED). -/
def vecSrcOk (x : CellSt) (b : Step) (r : Ref) (isB : Bool) : Bool :=
  match r with
  | .bad => false
  | .latch _ => isB
  | .head => b.vsrcFmt == 0x10 || b.vsrcFmt == 0x11
  | .tile t => (b.vsrcFmt == 0x10 || b.vsrcFmt == 0x11) && tileOk x.view x.width t
  | _ => memSrcFmt b.vsrcFmt

def matrixIllegal (env : CellEnv) (b : Step) : Bool :=
  decide (3 < b.shape) || decide (5 < b.mode) || decide (3 < b.pass) || decide (b.accInit = 3) || decide (b.finish = 3) ||
  decide (0x0A < b.inFmt) || decide (64 / 2 ^ b.shape < b.rows) || decide (b.win = .bad) || decide (bits 23 0 b ≠ 0) ||
  (decide (1 ≤ b.mode) && !env.routing)

/-- Log 20 (DEDUCED). -/
def vectorIllegal (x : CellSt) (b : Step) : Bool :=
  let unary := unaryOps.contains b.vop
  !(unary || binaryOps.contains b.vop) || decide (b.vrnd = 3) || !vecSrcOk x b b.srcA false ||
  (if unary then decide (b.srcBits ≠ 0) else !vecSrcOk x b b.srcB true) ||
  !(b.vdst.isNear || b.vdst.isUnder) ||
  (if b.vop = 0x28 then b.vdstFmt != 0x20 else !memDstFmt b.vdstFmt) ||
  ((b.vop == 0x34 || b.vop == 0x35) && b.vdstFmt != 0x07)

def loadIllegal (b : Step) : Bool :=
  decide (b.mrnd = 3) || bit 0 b || !b.msrc.isMem || !memSrcFmt b.msrcFmt ||
  (match b.mdst with
   | .near _ => !memDstFmt b.mdstFmt
   | .tile t =>
     (match viewOf b.mdstFmt with
      | some v => !([8, 16, 32, 64].contains b.loadWidth) || !tileOk v b.loadWidth t ||
          (!b.isResume && decide ((b.repeats + 1) * b.count % 64 ≠ 0))
      | none => true)
   | _ => true)

def storeIllegal (x : CellSt) (b : Step) : Bool :=
  decide (b.mrnd = 3) || bit 0 b || !(b.mdst.isNear || b.mdst.isUnder) || !memDstFmt b.mdstFmt ||
  (match b.msrc with
   | .near _ => !memSrcFmt b.msrcFmt
   | .head => !(b.msrcFmt == 0x10 || b.msrcFmt == 0x11)
   | .tile t => !(b.msrcFmt == 0x10 || b.msrcFmt == 0x11) || !tileOk x.view x.width t
   | _ => true)

/-- The fault that keeps a step from issuing (R121): 0x1002 for a reserved class or field or a broken rule of its class,
0x1003 for the loop stack (R113). -/
def issueFault (env : CellEnv) (x : CellSt) (b : Step) : Option Nat :=
  let illegal : Bool := decide (b.loop = 3) ||
    match b.cls with
    | 0x0 => decide (bits 87 0 b ≠ 0)
    | 0x1 => matrixIllegal env b
    | 0x2 => vectorIllegal x b
    | 0x3 => loadIllegal b
    | 0x4 => storeIllegal x b
    | 0x5 => decide (bits 62 0 b ≠ 0) || decide (b.repeats ≠ 0)
    | 0x6 => decide (2 < bits 87 84 b) || decide (bits 75 0 b ≠ 0) || decide (b.repeats ≠ 0)
    | 0x7 => decide (bits 78 0 b ≠ 0) || decide (b.repeats ≠ 0)
    | 0xF => decide (bits 87 0 b ≠ 0) || decide (b.repeats ≠ 0)
    | _ => true
  if illegal then some 0x1002
  else if b.loop = 1 ∧ 4 ≤ x.stack.length then some 0x1003
  else if b.loop = 2 ∧ x.stack.isEmpty then some 0x1003
  else if b.cls = 0xF ∧ !x.stack.isEmpty then some 0x1003
  else none

/-! ## Gates (R105 to R107) -/

/-- The landing slots whose valid bits a step tests before its first execution (R106, R107). -/
def landSlots (x : CellSt) (b : Step) : List Nat :=
  let own := if b.gLand ∨ b.cls = 1 then [b.lslot] else []
  let s := x.seq0 b
  let at_ := fun (a : Int) => if 0 ≤ a ∧ a < 2 * slotBytes then [(a / slotBytes).toNat] else []
  let of := fun (r : Ref) (a : Int) => match r with
    | .land _ => at_ a
    | _ => []
  own ++ (match b.cls with
    | 2 =>
      (match fmtOf b.vsrcFmt with
       | some f => of b.srcA (vecAddr f b.srcA.unit s b.vstride) ++ of b.srcB (vecAddr f b.srcB.unit s b.vstride)
       | none => [])
    | 3 => of b.msrc (effAddr b.msrc.unit s b.msrcStride)
    | _ => [])

/-- The step reads landing slot lslot in a LOAD, VECTOR or MATRIX execution (R107, R108). -/
def readsLslot (x : CellSt) (b : Step) : Bool :=
  b.cls == 1 || ((b.cls == 2 || b.cls == 3) && (landSlots x (b &&& ~~~ (1#128 <<< 123))).contains b.lslot)

/-- The engine of a class, none for the classes that occupy the looper (R87). -/
def engineOf : Nat → Option Engine
  | 1 => some .array
  | 2 => some .vector
  | 3 => some .move
  | 4 => some .move
  | 5 => some .exchange
  | _ => none

def CellSt.eng (x : CellSt) : Engine → EngSt
  | .array => x.array
  | .vector => x.vector
  | .move => x.move
  | .exchange => x.exch
  | .looper => .idle

def CellSt.setEng (x : CellSt) (e : Engine) (v : EngSt) : CellSt :=
  match e with
  | .array => { x with array := v }
  | .vector => { x with vector := v }
  | .move => { x with move := v }
  | .exchange => { x with exch := v }
  | .looper => x

/-- Every issued step on the engines has completed. -/
def CellSt.enginesIdle (x : CellSt) : Bool :=
  x.array.running.isNone && x.vector.running.isNone && x.move.running.isNone && x.exch.running.isNone

/-- The beat window flag of a cell's slot (R106, R528). -/
def State.windowFlag (s : State) (c k : Nat) : Bool :=
  match s.slotOfCell c with
  | some n => bit k (s.slot n).wflags
  | none => false

/-- The tally that a held step advances (R124): the first held gate in the order landing, barrier, window, queue, then
sync_wait for sync, a pending engine and a looper-occupying step; none when the step may issue (R100). -/
def State.heldBy (s : State) (c : Nat) (b : Step) : Option Nat :=
  let x := s.cell c
  if x.occ.isSome then some 8
  else if (landSlots x b).any (fun k => !x.valid k) then some 3
  else if b.gBarrier && x.passed != x.entered then some 4
  else if b.gWindow && !s.windowFlag c b.window then some 5
  else if b.gQueue && decide (4 ≤ x.queue.length) then some 6
  else if b.sync && !x.enginesIdle then some 8
  else match engineOf b.cls with
    | some e => if (x.eng e).pending.isSome then some 8 else none
    | none => none

/-! ## Faults and settling -/

/-- The cell with a looper fault noted: code, step index and what else the rule records (R120). Log 152 (DEDUCED). -/
def CellSt.withFault (x : CellSt) (code idx extra : Nat) : CellSt :=
  match x.fault with
  | some _ => x
  | none => { x with fault := some (code, idx, extra) }

/-- Both landing valid bits cleared where a STOP says so (R117). -/
def CellSt.clearLanding (x : CellSt) (clear : Bool) : CellSt :=
  if clear then { x with valid0 := false, valid1 := false } else x

/-- Once every issued step has completed, a faulted looper halts and sends its notice (R120), and a stopped one becomes
idle, clearing the landing where the command says so (R117); one that is both sends its notice and becomes idle.
Log 141 (DEDUCED), 152 (DEDUCED). -/
def State.settle (s : State) (c : Nat) : State :=
  let x := s.cell c
  let s := match x.notice with
    | some w => (s.setCell c { x with notice := none }).send (.numericsNotice c w)
    | none => s
  let x := s.cell c
  if x.looper ≠ .running ∨ x.occ.isSome ∨ !x.enginesIdle then s
  else
    let y := match x.stopping with
      | some clear => ({ x with looper := .idle, fault := none, stopping := none } : CellSt).clearLanding clear
      | none => { x with looper := .halted, fault := none }
    match x.fault with
    | some (code, idx, extra) => (s.setCell c y).raiseCell code c (idx + extra * 2 ^ 16)
    | none => if x.stopping.isSome then s.setCell c y else s

/-! ## Running executions -/

/-- The step names the queue head (R213). -/
def namesHead (b : Step) : Bool :=
  match b.cls with
  | 2 => b.srcA == .head || (!unaryOps.contains b.vop && b.srcB == .head)
  | 4 => b.msrc == .head
  | _ => false

/-- Log 8 (DESIGN CHOICE). -/
def runExec (env : CellEnv) (x : CellSt) (r : Run) : ExecOut :=
  let b := r.bits
  match b.cls with
  | 1 => matrixExec env x r r.next
  | 2 => vectorExec env x r r.next
  | 3 => loadExec env x r r.next
  | _ => storeExec env x r r.next

/-- The lane group that hold_b keeps from a step's first execution (R217). -/
def keepB (x : CellSt) (r : Run) : Run :=
  let b := r.bits
  if b.cls = 2 ∧ b.holdB ∧ r.next = 0 ∧ !unaryOps.contains b.vop then
    match readLanes x r b.srcB r.seq0 with
    | .ok _ raw => { r with heldB := some raw }
    | _ => r
  else r

/-- The remaining executions of a running step, until it is done, waits or raises a fault (R104, R111, R120). -/
def driveAux (env : CellEnv) : Nat → CellSt → Run → CellSt × Run × Option Nat
  | 0, x, r => (x, { r with done := true, hold := .none }, none)
  | n + 1, x, r =>
    let r := keepB x r
    match runExec env x r with
    | .ok y => driveAux env n y { r with next := r.next + 1, hold := .none }
    | .wait h => (x, { r with hold := h }, none)
    | .fault code => (x, { r with done := true, hold := .none }, some code)

/-- The running step of engine `e` driven on. A step that names the queue head does not start while one on the other
engine reads it (R213). A release by a step that reads the slot happens after its last read (R108). Log 8 (DESIGN CHOICE). -/
def State.drive (s : State) (c : Nat) (e : Engine) : State :=
  let x := s.cell c
  match (x.eng e).running with
  | none => s
  | some r =>
    let b := r.bits
    let other := match e with
      | .vector => x.move.running
      | _ => x.vector.running
    let blocked := r.next == 0 && namesHead b && (match other with
      | some o => !o.done && namesHead o.bits
      | none => false)
    if r.done then s
    else if blocked then s.setCell c (x.setEng e { x.eng e with running := some { r with hold := .tileWait } })
    else
      let reads := readsLslot x b
      let out := driveAux (s.env c) (b.repeats + 1 - r.next) x r
      let y := out.1.setEng e { out.1.eng e with running := some out.2.1 }
      let y := match out.2.2 with
        | some code => y.withFault code r.index 0
        | none => if out.2.1.done && b.release && reads then y.setValid b.lslot false else y
      s.setCell c y

/-! ## Issue (R99, R100, R103, R111, R112) -/

/-- The loop action of an issued step (R112). -/
def CellSt.loopAfter (x : CellSt) (b : Step) : CellSt :=
  match b.loop with
  | 1 => { x with pc := x.pc + 1, stack := ⟨x.pc + 1, b.loopCount, b.loopCount⟩ :: x.stack }
  | 2 =>
    (match x.stack with
     | e :: t =>
       if 0 < e.remaining then { x with pc := e.start, stack := { e with remaining := e.remaining - 1 } :: t }
       else { x with pc := x.pc + 1, stack := t }
     | [] => { x with pc := x.pc + 1 })
  | _ => { x with pc := x.pc + 1 }

/-- The issue record of a step. A LOAD into a tile sets the accumulator layout as it issues (R201). -/
def CellSt.mkRun (x : CellSt) (b : Step) : Run :=
  let lay : Nat × View := if b.cls = 3 ∧ b.mdst.isTile then (b.loadWidth, (viewOf b.mdstFmt).getD x.view) else (x.width, x.view)
  { index := x.pc, bits := b, seq0 := x.seq0 b, lastIter := x.lastIter, epoch := x.epoch, exec0 := x.execNo,
    width := lay.1, view := lay.2, next := 0, hold := .none, done := false, heldB := none }

/-- The cell once step `b` has issued: layout, execution number, steps_issued, pc and loop stack. -/
def CellSt.issued (x : CellSt) (b : Step) : CellSt :=
  let r := x.mkRun b
  let x := { x with width := r.width, view := r.view, execNo := x.execNo + BitVec.ofNat 32 (b.repeats + 1) }
  (x.tally 0 (b.repeats + 1)).loopAfter b

/-- The outcome of offering the looper's next step: nothing to do, or the step with its issue record. -/
inductive Offer where
  | no (s : State)
  | go (s : State) (b : Step) (r : Run)
deriving Repr

/-- The present tick is gated for a cell: by the module's pacing, or by that of its region at 105 °C (R552, R560).
Log 96 (DESIGN CHOICE). -/
def State.paced (s : State) (c : Nat) : Bool := s.power.gated || s.power.hotGated.contains (regionOf c)

/-- The looper's next step offered as one of class `cls` after `held` clocks (R99, R100, R119, R121, R124). A step of
another class, a looper that does not run, has stopped issuing or is gated by pacing, changes nothing. Log 7 (DEDUCED). -/
def State.offer (s : State) (c cls held : Nat) (want : Step → Bool) : Offer :=
  let x := s.cell c
  if x.looper ≠ .running ∨ x.fault.isSome ∨ x.stopping.isSome ∨ s.paced c then .no s
  else if 4095 < x.pc then
    if x.occ.isSome then .no s else .no ((s.setCell c (x.withFault 0x1002 x.pc 0)).settle c)
  else
    let b := x.stepAt x.pc
    let reserved := decide (8 ≤ b.cls ∧ b.cls ≤ 14)
    if !(reserved || (b.cls == cls && (want b || (b.cls == 6 && decide (2 < bits 87 84 b))))) then .no s
    else match s.heldBy c b with
      | some t => .no (s.setCell c (x.tally t held))
      | none =>
        match eccAt x.stepEcc x.pc with
        | some true => .no ((s.setCell c (x.withFault 0x1001 x.pc 0)).settle c)
        | mark =>
          let x := if mark.isSome then { x.tally 12 1 with stepEcc := x.stepEcc.filter (fun m => m.1 != x.pc) } else x
          match issueFault (s.env c) x b with
          | some code => .no ((s.setCell c (x.withFault code x.pc 0)).settle c)
          | none => .go (s.setCell c (x.issued b)) b (x.mkRun b)

/-- An issued step put on its engine: running when the engine is free, else pending (R100). -/
def CellSt.place (x : CellSt) (e : Engine) (r : Run) : CellSt :=
  let v := x.eng e
  x.setEng e (if v.running.isNone then { v with running := some r } else { v with pending := some r })

/-- An engine step issued and, where the engine is free, started. Log 7 (DEDUCED). -/
def State.issueEngine (s : State) (c cls held : Nat) (e : Engine) : State :=
  match s.offer c cls held (fun _ => true) with
  | .no s => s
  | .go s _ r => ((s.modCell c (fun x => x.place e r)).drive c e).settle c

/-- The release of a step that occupies the looper, at its completion (R108). Log 152 (DEDUCED). -/
def CellSt.releaseAt (x : CellSt) (b : Step) : CellSt := if b.release then x.setValid b.lslot false else x

/-! ## Barriers and the foreman's event queue (R106, R128, R190) -/

/-- The cell enters the barrier with its superstep word, which it then clears (R106, R190). -/
def State.enterBarrier (s : State) (c : Nat) : State :=
  let x := s.cell c
  let s' := s.setCell c { x with entered := x.entered + 1, word := 0, noticed := false }
  match s.slotOfCell c with
  | some n => s'.send (.barrierEnter (.cell c) n x.word)
  | none => s'

/-- A SIGNAL event (R128). -/
def signalEvent (c code : Nat) : Word := BitVec.ofNat 64 (field 63 60 1 + field 59 54 (posOf c) + field 53 46 code)

/-- A RELEASE event (R128). -/
def releaseEvent (n : Nat) : Word := BitVec.ofNat 64 (field 63 60 2 + field 31 0 n)

def isRelease (w : Word) : Bool := bits 63 60 w == 2

/-- A barrier release at a foreman's event queue: it updates a queued or held RELEASE event, enters, or is held when 64
events are queued (R128). Log 157 (DEDUCED). -/
def FmSt.queueRelease (x : FmSt) (n : Nat) : FmSt :=
  if x.events.any isRelease then
    { x with events := x.events.map (fun e => if isRelease e then releaseEvent n else e) }
  else if 64 ≤ x.events.length then { x with heldRelease := some (releaseEvent n) }
  else { x with events := x.events ++ [releaseEvent n] }

/-- A SIGNAL at a foreman: it enters the queue and its GATE step completes, or waits at the block's trail hub (R128).
Log 157 (DEDUCED). -/
def State.queueSignal (s : State) (c code : Nat) : State :=
  let f := fmOf c
  let x := s.fm f
  if 64 ≤ x.events.length ∨ x.heldRelease.isSome then
    s.setFm f { x with signals := x.signals ++ [(c, code)] }
  else
    (s.setFm f { x with events := x.events ++ [signalEvent c code] }).modCell c (fun y =>
      match y.occ with
      | some r => ({ y with occ := none } : CellSt).releaseAt r.bits
      | none => y)

/-- The oldest event taken from a foreman's queue; a held release, then a waiting SIGNAL, enters in its place (R128).
Log 157 (DEDUCED). -/
def State.takeEvent (s : State) (f : FmId) : Option (Word × State) :=
  let x := s.fm f
  match x.events with
  | [] => none
  | e :: t =>
    match x.heldRelease, x.signals with
    | some h, _ => some (e, s.setFm f { x with events := t ++ [h], heldRelease := none })
    | none, (c, code) :: rest =>
      some (e, ((s.setFm f { x with events := t, signals := rest }).queueSignal c code).settle c)
    | none, [] => some (e, s.setFm f { x with events := t })

/-! ## Completion (R102) -/

/-- The pass of the array stays open after a step completes: a pending MATRIX step of the same shape, or a next step of
that kind held only at its landing gate (R143). -/
def State.passStays (s : State) (c shape : Nat) : Bool :=
  let x := s.cell c
  match x.array.pending with
  | some r => decide (r.bits.shape = shape)
  | none =>
    let b := x.stepAt x.pc
    decide (x.looper = .running) && x.fault.isNone && x.stopping.isNone && decide (x.pc ≤ 4095) && decide (b.cls = 1) &&
      decide (b.shape = shape) && decide (s.heldBy c b = some 3)

/-- The tally of an engine's wait (R104, R123, R146, R213, R423, R437). Log 7 (DEDUCED), 26 (DESIGN CHOICE), 142 (DEDUCED). -/
def holdTally : Hold → Nat
  | .queueFull => 6
  | .tileWait => 7
  | _ => 8

/-- The running step of an engine completes; a pending one becomes running and starts (R100, R102, R108, R120, R145). A
step that still waits counts `wait` clocks, is offered again, and completes when it can. -/
def State.complete (s : State) (c : Nat) (e : Engine) (wait : Nat) : State :=
  let x := s.cell c
  match (x.eng e).running with
  | none => s
  | some r =>
    let s := if r.done then s else (s.setCell c (x.tally (holdTally r.hold) wait)).drive c e
    let x := s.cell c
    match (x.eng e).running with
    | none => s
    | some r =>
      if !r.done then s.settle c
      else
        let b := r.bits
        let x := if b.release && !readsLslot x b then x.setValid b.lslot false else x
        let x := if b.cls = 4 then { x with outbox := x.outbox ++ x.outNew, outNew := [] } else x
        let s := s.setCell c x
        let x := if b.cls = 1 ∧ !s.passStays c b.shape then { x.tally 1 63 with passShape := none } else x
        let x := x.setEng e ⟨(x.eng e).pending, none⟩
        ((s.setCell c x).drive c e).settle c

/-- An END that has completed: the looper becomes idle and reports completion (R118), and a STOP that waited for it has its
effect (R117). In a looper that a fault stops, it halts instead (R120). Log 141 (DEDUCED). -/
def State.endLooper (s : State) (c : Nat) (b : Step) : State :=
  let x := s.cell c
  let y := ({ x with occ := none } : CellSt).releaseAt b
  if x.fault.isSome then (s.setCell c y).settle c
  else (s.setCell c (({ y with looper := .idle, stopping := none } : CellSt).clearLanding (x.stopping.getD false))).send
    (.complete c)

/-! ## The meanings of the looper's steps -/

/-- STEP_NOP (R102, R103). -/
def execStepNop (c held : Nat) (s : State) : Host.Outcome State Fault Refusal :=
  .next (match s.offer c 0 held (fun _ => true) with
    | .no s => s
    | .go s _ r => s.modCell c (fun x => { x with occ := some r }))

/-- STEP_MATRIX (R138). -/
def execStepMatrix (c held : Nat) (s : State) : Host.Outcome State Fault Refusal := .next (s.issueEngine c 1 held .array)

/-- STEP_VECTOR (R218). -/
def execStepVector (c held : Nat) (s : State) : Host.Outcome State Fault Refusal := .next (s.issueEngine c 2 held .vector)

/-- STEP_LOAD (R94). -/
def execStepLoad (c held : Nat) (s : State) : Host.Outcome State Fault Refusal := .next (s.issueEngine c 3 held .move)

/-- STEP_STORE (R94). -/
def execStepStore (c held : Nat) (s : State) : Host.Outcome State Fault Refusal := .next (s.issueEngine c 4 held .move)

/-- A GATE step of the kind `gop` (R97, R106). -/
def State.gate (s : State) (c held gop : Nat) (act : State → Step → Run → State) : State :=
  match s.offer c 6 held (fun b => decide (bits 87 84 b = gop)) with
  | .no s => s
  | .go s b r => act s b r

/-- GATE_WAIT: the gates hold and the step completes (R102, R106). -/
def execGateWait (c held : Nat) (s : State) : Host.Outcome State Fault Refusal :=
  .next (s.gate c held 0 (fun s b _ => (s.modCell c (fun x => x.releaseAt b)).settle c))

/-- GATE_BARRIER_ENTER (R106). -/
def execGateBarrierEnter (c held : Nat) (s : State) : Host.Outcome State Fault Refusal :=
  .next (s.gate c held 1 (fun s b _ => ((s.enterBarrier c).modCell c (fun x => x.releaseAt b)).settle c))

/-- GATE_SIGNAL: the code enters the foreman's event queue, or the step waits for room (R128). -/
def execGateSignal (c held : Nat) (s : State) : Host.Outcome State Fault Refusal :=
  .next (s.gate c held 2 (fun s b r =>
    ((s.modCell c (fun x => { x with occ := some r })).queueSignal c (bits 83 76 b)).settle c))

/-- STEP_SCALAR: the foreman writes its register into the latch entry (R227); the looper waits for the write (R102). -/
def execStepScalar (c held : Nat) (s : State) : Host.Outcome State Fault Refusal :=
  .next (match s.offer c 7 held (fun _ => true) with
    | .no s => s
    | .go s b r =>
      (s.modCell c (fun x => { x with occ := some r })).send
        (.scalarWrite c (bits 82 79 b) ((s.fm (fmOf c)).sregs[bits 87 83 b]?.getD 0)))

/-- STEP_END: it completes once every earlier step has (R102, R118). -/
def execStepEnd (c held : Nat) (s : State) : Host.Outcome State Fault Refusal :=
  .next (match s.offer c 0xF held (fun _ => true) with
    | .no s => s
    | .go s b r =>
      if (s.cell c).enginesIdle then s.endLooper c b else s.modCell c (fun x => { x with occ := some r }))

/-- The looper's own step completes: a NOP, or an END whose earlier steps have all completed (R102, R103). Log 142 (DEDUCED). -/
def State.completeLooper (s : State) (c : Nat) : State :=
  let x := s.cell c
  match x.occ with
  | none => s
  | some r =>
    let b := r.bits
    if b.cls = 0 then (s.setCell c (({ x with occ := none } : CellSt).releaseAt b)).settle c
    else if b.cls = 0xF ∧ x.enginesIdle then s.endLooper c b
    else s

/-- GATE_TIMEOUT: the wait at a landing gate, a window gate or for a SCALAR's write ran out (R109). The fault's detail
holds the step index and, from bit 16, which wait: 1 landing, 2 window, 3 scalar. Log 19 (DEDUCED). -/
def execGateTimeout (c : Nat) (s : State) : Host.Outcome State Fault Refusal :=
  .next (
    let x := s.cell c
    if x.looper ≠ .running ∨ x.fault.isSome then s
    else match x.occ with
      | some r =>
        if r.bits.cls = 7 then ((s.setCell c ({ x.withFault 0x1004 r.index 3 with occ := none }))).settle c else s
      | none =>
        if x.stopping.isSome then s
        else match s.heldBy c (x.stepAt x.pc) with
        | some 3 => (s.setCell c (x.withFault 0x1004 x.pc 1)).settle c
        | some 5 => (s.setCell c (x.withFault 0x1004 x.pc 2)).settle c
        | _ => s)

/-! ## Looper commands and cell messages (R110, R117, R123, R227) -/

/-- The cell once its accumulators are undefined and its steps are stopped (R122, R164, R229): occasion `k`. -/
def CellSt.dropWork (x : CellSt) (k : Nat) : CellSt :=
  { x with acc := freeRows k, hid := [], width := 0, queue := [], cursor := 0,
           array := .idle, vector := .idle, move := .idle, exch := .idle, xrun := none, occ := none, passShape := none,
           stack := [], fault := none, stopping := none, outNew := [], valid0 := false, valid1 := false }

/-- A fence: the looper moves to SNAG, its work is dropped and its landing cleared (R117, R164, R229). -/
def State.fenceCell (s : State) (c : Nat) : State :=
  let k := s.fresh
  k.2.modCell c (fun x => { x.dropWork k.1 with looper := .snag })

/-- The learning-rate curve of R443 at step `n` for the 32-byte descriptor `d`: the latch entry and its value. -/
def curveRate (d : Bytes) (n : Nat) : Option (Nat × BitVec 32) :=
  let f := fun off => BitVec.ofNat 32 (leAt d off 4)
  let w := leAt d 0x08 4
  let l := leAt d 0x0C 4
  let rr := leAt d 0x10 4
  if l = 0 then none
  else
    let r := if 0 < rr then n % rr else n
    let a := if 0 < rr then (List.range (n / rr)).foldl (fun acc _ => fmul32 acc (f 0x14)) (ofNat32 1) else ofNat32 1
    let a := if 0 < rr then fmul32 (f 0x00) a else f 0x00
    let one := ofNat32 1
    let rate :=
      if r < w then fdiv32 (fmul32 a (ofNat32 (r + 1))) (ofNat32 w)
      else
        let q := fdiv32 (ofNat32 (r - w)) (ofNat32 l)
        let x := if l ≤ r - w then one else q
        match (leAt d 0x18 1) % 4 with
        | 0 => a
        | 1 => fadd32 (f 0x04) (fmul32 (fsub32 a (f 0x04)) (fsub32 one x))
        | 2 =>
          let pi := 0x40490FDB#32
          fadd32 (f 0x04) (fmul32 (fmul32 (fsub32 a (f 0x04)) 0x3F000000#32) (fadd32 one (fcos32 (fmul32 pi x))))
        | _ => fmul32 a (fsqrt32 (fdiv32 (ofNat32 (max w 1)) (ofNat32 (r + 1))))
    some ((leAt d 0x19 1) % 8, rate)

/-- LOOPER_CMD START at step `index` (R117, R179, R443): an idle looper runs with an empty loop stack, the epoch rises, the
execution number returns to zero, and the schedule engine writes its latch entry. -/
def State.startLooper (s : State) (c index : Nat) : State :=
  let x := s.cell c
  if x.looper ≠ .idle then s
  else
    let n := match s.slotOfCell c with
      | some k => s.stepP k + 1
      | none => 1
    let latch := match curveRate (x.cfg.read 0x20 32) n with
      | some (q, v) => x.latch.setIfInBounds q (v.setWidth 64)
      | none => x.latch
    s.setCell c { x with looper := .running, pc := index, stack := [], epoch := x.epoch + 1, execNo := 0, latch := latch }

/-- LOOPER_CMD STOP (R117): issue ends, the issued steps complete, and the looper becomes idle. A looper that has
halted becomes idle; one in another state only has its landing cleared where the command says so. Log 141 (DEDUCED). -/
def State.stopLooper (s : State) (c : Nat) (clear : Bool) : State :=
  let x := s.cell c
  match x.looper with
  | .running =>
    (s.setCell c { x with stopping := some (clear || x.stopping.getD false) }).settle c
  | .halted => s.setCell c (({ x with looper := .idle } : CellSt).clearLanding clear)
  | _ => s.setCell c (x.clearLanding clear)

/-- A trail message delivered to a cell; one that reaches a resetting scope is discarded (R617). -/
def State.toCell (s : State) (m : Instr) (c : Nat) (act : State → State) : State :=
  if (s.cell c).resetting.isSome then s.deliver m else act (s.deliver m)

/-- FENCE (R117). -/
def execFence (c : Nat) (s : State) : Host.Outcome State Fault Refusal :=
  .next (s.toCell (.fence c) c (fun s => s.fenceCell c))

/-- LOOPER_START (R117). -/
def execLooperStart (c index : Nat) (s : State) : Host.Outcome State Fault Refusal :=
  .next (s.toCell (.looperStart c index) c (fun s => s.startLooper c index))

/-- LOOPER_STOP (R117). -/
def execLooperStop (c : Nat) (clear : Bool) (s : State) : Host.Outcome State Fault Refusal :=
  .next (s.toCell (.looperStop c clear) c (fun s => s.stopLooper c clear))

/-- SCALAR_WRITE: the latch entry takes the value, and a SCALAR step waiting for that entry completes (R102, R227). -/
def execScalarWrite (c entry : Nat) (value : Word) (s : State) : Host.Outcome State Fault Refusal :=
  .next (s.toCell (.scalarWrite c entry value) c fun s =>
    let x := s.cell c
    let x := { x with latch := x.latch.setIfInBounds entry value }
    match x.occ with
    | some r =>
      let b := r.bits
      if b.cls = 7 ∧ bits 82 79 b = entry then (s.setCell c (({ x with occ := none } : CellSt).releaseAt b)).settle c
      else s.setCell c x
    | none => s.setCell c x)

/-- COMPLETE: the sending cell's done bit is set at its foreman (R118, R128). -/
def execComplete (c : Nat) (s : State) : Host.Outcome State Fault Refusal :=
  .next ((s.deliver (.complete c)).modFm (fmOf c) (fun x => { x with done := x.done ||| BitVec.ofNat 64 (2 ^ posOf c) }))

/-- TALLY_READ: the cell answers with the tally's value at the end of one clock (R32, R123). -/
def execTallyRead (c index : Nat) (s : State) : Host.Outcome State Fault Refusal :=
  .next (s.toCell (.tallyRead c index) c (fun s => s.send (.tallyReply c index ((s.cell c).tallies.get 0 index))))

/-- TALLY_CLEAR (R123). -/
def execTallyClear (c : Nat) (s : State) : Host.Outcome State Fault Refusal :=
  .next (s.toCell (.tallyClear c) c (fun s => s.modCell c (fun x => { x with tallies := [] })))

end Sys2Proof.Machine
end

