-- ==== Sys2Proof/Machine/Foreman.lean ====
section
/-! DEFINITION. The foreman program: fetch, legality and the operations of R127, its event queue (R128) and curves
(R444). The fetch-list operations are in Builder. -/

namespace Sys2Proof.Machine

open Sys2Proof

/-! ## Instructions (R127) -/

abbrev FmIns := BitVec 64

def FmIns.op (w : FmIns) : Nat := bits 63 56 w
def FmIns.d (w : FmIns) : Nat := bits 55 51 w
def FmIns.a (w : FmIns) : Nat := bits 50 46 w
def FmIns.b (w : FmIns) : Nat := bits 45 41 w
def FmIns.imm (w : FmIns) : Nat := bits 31 0 w
/-- The immediate sign-extended to 64 bits. -/
def FmIns.simm (w : FmIns) : Word := BitVec.ofInt 64 (signed 32 w.imm)

/-- The fields an operation names: d, a, b, and the greatest value its immediate may hold (R127, R129); none for an
operation code that R127 does not list. -/
def fmnFields : Nat → Option (Bool × Bool × Bool × Nat)
  | 0x00 => some (false, false, false, 0)
  | 0x01 => some (true, false, false, 0xFFFF_FFFF)
  | 0x02 => some (true, false, false, 0xFFFF_FFFF)
  | 0x03 => some (true, true, true, 0)
  | 0x04 => some (true, true, true, 0)
  | 0x05 => some (true, true, false, 0xFFFF_FFFF)
  | 0x06 => some (true, true, true, 0)
  | 0x07 => some (true, true, true, 0)
  | 0x08 => some (true, true, true, 0)
  | 0x09 => some (true, true, false, 63)
  | 0x0A => some (true, true, false, 63)
  | 0x0B => some (true, true, true, 0)
  | 0x0C => some (true, true, true, 0)
  | 0x0D => some (true, true, true, 0)
  | 0x0E => some (true, true, true, 0)
  | 0x10 => some (false, false, false, 8191)
  | 0x11 => some (false, true, false, 8191)
  | 0x12 => some (false, true, false, 8191)
  | 0x13 => some (false, false, false, 0)
  | 0x18 => some (true, false, false, 0)
  | 0x19 => some (true, false, false, 16383)
  | 0x20 => some (false, true, true, 0)
  | 0x21 => some (false, false, true, 1)
  | 0x22 => some (false, true, false, 15)
  | 0x23 => some (true, false, false, 0)
  | 0x24 => some (false, false, true, 0)
  | 0x28 => some (false, true, false, 0)
  | 0x29 => some (false, false, false, 1)
  | 0x2A => some (false, false, false, 0)
  | 0x2B => some (true, false, false, 255)
  | _ => none

/-- The instruction obeys R129. Log 25 (DEDUCED). -/
def FmIns.legal (w : FmIns) : Bool :=
  match fmnFields w.op with
  | some (ud, ua, ub, m) =>
    (ud || w.d == 0) && (ua || w.a == 0) && (ub || w.b == 0) && bits 40 32 w == 0 && decide (w.imm ≤ m)
  | none => false

def FmSt.insAt (x : FmSt) (k : Nat) : FmIns := x.fprog.word (8 * k)
def FmSt.s (x : FmSt) (k : Nat) : Word := x.sregs[k]?.getD 0
def FmSt.setS (x : FmSt) (k : Nat) (v : Word) : FmSt := { x with sregs := x.sregs.setIfInBounds k v }
def FmSt.nextPc (x : FmSt) : FmSt := { x with pc := x.pc + 1, prog := .running }

/-! ## Faults -/

/-- A fault of a foreman: its slot, and its block's first cell as the unit (R576). Log 24 (DESIGN CHOICE). -/
def State.raiseFm (s : State) (code : Nat) (f : FmId) : State :=
  s.raise code (s.slotOfRegion f.region) (blockCell f) 0

/-- An open build is abandoned and FMN_FETCH_STATUS says so (R259, R260). Log 143 (DEDUCED). -/
def State.abandonBuild (s : State) (f : FmId) : State :=
  if (s.fm f).build.isSome then (s.modFm f (fun x => { x with build := none })).setRegF (Reg.fmnFetchStatus f) 2 0 4 else s

/-- A fault that stops the program (R129, R130, R444). -/
def State.faultFm (s : State) (f : FmId) (code : Nat) : State :=
  (s.modFm f (fun x => { x with prog := .faulted })).raiseFm code f

/-- The foreman's next instruction offered as operation `op` (R125, R126, R129): a program that does not run, or whose next
instruction is another operation, is left as it is; an uncorrectable error raises 0x2003, a program counter past 8,191 or an
illegal instruction 0x2005. Log 25 (DEDUCED). -/
def State.fmnStep (s : State) (f : FmId) (op : Nat) (act : State → FmSt → FmIns → State) : State :=
  let x := s.fm f
  if !x.configured ∨ (x.prog ≠ .running ∧ x.prog ≠ .waiting) then s
  else if 8191 < x.pc then s.faultFm f 0x2005
  else match eccAt x.fprogEcc x.pc with
    | some true => s.faultFm f 0x2003
    | mark =>
      let w := x.insAt x.pc
      if (fmnFields w.op).isSome && w.op != op then s
      else
        let x := if mark.isSome then { x with fprogEcc := x.fprogEcc.filter (fun m => m.1 != x.pc) } else x
        if !w.legal then (s.setFm f x).faultFm f 0x2005
        else act (s.setFm f x) x w

/-- An operation whose effect is one register: s[d] takes a value. -/
def State.fmnReg (s : State) (f : FmId) (op : Nat) (v : State → FmSt → FmIns → Word) : State :=
  s.fmnStep f op (fun s x w => s.setFm f ((x.setS w.d (v s x w)).nextPc))

/-- P + 1 of the slot that holds a region (R412). -/
def State.stepNow (s : State) (region : Nat) : Nat :=
  match s.slotOfRegion region with
  | some n => s.stepP n + 1
  | none => 1

/-- The cells of the block that a mask names (R127). -/
def maskCells (f : FmId) (m : Word) : List Nat := (blockCells f).filter (fun c => bit (posOf c) m)

/-- A cell that takes STARTs and latch broadcasts: configured and not a snag. -/
def State.live (s : State) (c : Nat) : Bool := (s.cell c).configured && (s.cell c).looper != .snag

/-! ## Curves (R444) -/

/-- The 64 points of a group: step and factor. -/
def curvePoints (m : Mem) (g : Nat) : List (Nat × BitVec 32) :=
  (List.range 64).map (fun k =>
    (ofLE (m.read (g * 512 + 8 * k) 4), BitVec.ofNat 32 (ofLE (m.read (g * 512 + 8 * k + 4) 4))))

/-- The used points ascend in step and stand before the unused ones. -/
def ascending : List (Nat × BitVec 32) → Bool
  | (a, _) :: (b, g) :: t => (decide (a < b) || (a == 0xFFFF_FFFF && b == 0xFFFF_FFFF)) && ascending ((b, g) :: t)
  | _ => true

/-- The factor between points (R444); `prev` is the point before. -/
def curveAt (n : Nat) : Nat × BitVec 32 → List (Nat × BitVec 32) → BitVec 32
  | prev, [] => prev.2
  | prev, (sb, fb) :: t =>
    if sb = 0xFFFF_FFFF then prev.2
    else if n < sb then
      fadd32 prev.2 (fmul32 (fsub32 fb prev.2) (fdiv32 (ofNat32 (n - prev.1)) (ofNat32 (sb - prev.1))))
    else curveAt n (sb, fb) t

/-- The factor of a curve's points at step `n`. -/
def curveFactor (ps : List (Nat × BitVec 32)) (n : Nat) : BitVec 32 :=
  match ps with
  | [] => 0
  | p :: t => if n < p.1 then p.2 else curveAt n p t

/-! ## The meanings -/

def execFmnNop (f : FmId) (s : State) : Host.Outcome State Fault Refusal :=
  .next (s.fmnStep f 0x00 (fun s x _ => s.setFm f x.nextPc))

def execFmnLdi (f : FmId) (s : State) : Host.Outcome State Fault Refusal := .next (s.fmnReg f 0x01 (fun _ _ w => w.simm))

def execFmnLdhi (f : FmId) (s : State) : Host.Outcome State Fault Refusal :=
  .next (s.fmnReg f 0x02 (fun _ x w => setBits 63 32 w.imm (x.s w.d)))

def execFmnAdd (f : FmId) (s : State) : Host.Outcome State Fault Refusal :=
  .next (s.fmnReg f 0x03 (fun _ x w => x.s w.a + x.s w.b))

def execFmnSub (f : FmId) (s : State) : Host.Outcome State Fault Refusal :=
  .next (s.fmnReg f 0x04 (fun _ x w => x.s w.a - x.s w.b))

def execFmnAddi (f : FmId) (s : State) : Host.Outcome State Fault Refusal :=
  .next (s.fmnReg f 0x05 (fun _ x w => x.s w.a + w.simm))

def execFmnAnd (f : FmId) (s : State) : Host.Outcome State Fault Refusal :=
  .next (s.fmnReg f 0x06 (fun _ x w => x.s w.a &&& x.s w.b))

def execFmnOr (f : FmId) (s : State) : Host.Outcome State Fault Refusal :=
  .next (s.fmnReg f 0x07 (fun _ x w => x.s w.a ||| x.s w.b))

def execFmnXor (f : FmId) (s : State) : Host.Outcome State Fault Refusal :=
  .next (s.fmnReg f 0x08 (fun _ x w => x.s w.a ^^^ x.s w.b))

def execFmnShl (f : FmId) (s : State) : Host.Outcome State Fault Refusal :=
  .next (s.fmnReg f 0x09 (fun _ x w => x.s w.a <<< (w.imm % 64)))

def execFmnShr (f : FmId) (s : State) : Host.Outcome State Fault Refusal :=
  .next (s.fmnReg f 0x0A (fun _ x w => x.s w.a >>> (w.imm % 64)))

def execFmnCmplt (f : FmId) (s : State) : Host.Outcome State Fault Refusal :=
  .next (s.fmnReg f 0x0B (fun _ x w => if (x.s w.a).toInt < (x.s w.b).toInt then 1 else 0))

def execFmnCmpeq (f : FmId) (s : State) : Host.Outcome State Fault Refusal :=
  .next (s.fmnReg f 0x0C (fun _ x w => if x.s w.a = x.s w.b then 1 else 0))

def execFmnFadd (f : FmId) (s : State) : Host.Outcome State Fault Refusal :=
  .next (s.fmnReg f 0x0D (fun _ x w => (fadd32 ((x.s w.a).setWidth 32) ((x.s w.b).setWidth 32)).setWidth 64))

def execFmnFmul (f : FmId) (s : State) : Host.Outcome State Fault Refusal :=
  .next (s.fmnReg f 0x0E (fun _ x w => (fmul32 ((x.s w.a).setWidth 32) ((x.s w.b).setWidth 32)).setWidth 64))

def execFmnJmp (f : FmId) (s : State) : Host.Outcome State Fault Refusal :=
  .next (s.fmnStep f 0x10 (fun s x w => s.setFm f { x with pc := w.imm, prog := .running }))

def execFmnBz (f : FmId) (s : State) : Host.Outcome State Fault Refusal :=
  .next (s.fmnStep f 0x11 (fun s x w => s.setFm f (if x.s w.a = 0 then { x with pc := w.imm, prog := .running } else x.nextPc)))

def execFmnBnz (f : FmId) (s : State) : Host.Outcome State Fault Refusal :=
  .next (s.fmnStep f 0x12 (fun s x w => s.setFm f (if x.s w.a = 0 then x.nextPc else { x with pc := w.imm, prog := .running })))

def execFmnHalt (f : FmId) (s : State) : Host.Outcome State Fault Refusal :=
  .next (s.fmnStep f 0x13 (fun s x _ => s.setFm f { x with prog := .halted }))

def execFmnRdstep (f : FmId) (s : State) : Host.Outcome State Fault Refusal :=
  .next (s.fmnReg f 0x18 (fun s _ _ => BitVec.ofNat 64 (s.stepNow f.region)))

def execFmnRdcurve (f : FmId) (s : State) : Host.Outcome State Fault Refusal :=
  .next (s.fmnStep f 0x19 (fun s x w =>
    if x.fcurveEcc then s.faultFm f 0x2003
    else s.setFm f ((x.setS w.d (x.fcurve.word (8 * w.imm))).nextPc)))

/-- FMN_START: START to each masked cell that is configured and no snag, clearing its done bit (R127). -/
def execFmnStart (f : FmId) (s : State) : Host.Outcome State Fault Refusal :=
  .next (s.fmnStep f 0x20 (fun s x w =>
    let cs := (maskCells f (x.s w.b)).filter s.live
    let m := cs.foldl (fun m c => m ||| BitVec.ofNat 64 (2 ^ posOf c)) (0 : Word)
    (s.setFm f { x.nextPc with done := x.done &&& ~~~m }).sendAll
      (cs.map (fun c => .looperStart c (bits 11 0 (x.s w.a))))))

def execFmnStop (f : FmId) (s : State) : Host.Outcome State Fault Refusal :=
  .next (s.fmnStep f 0x21 (fun s x w =>
    (s.setFm f x.nextPc).sendAll ((maskCells f (x.s w.b)).map (fun c => .looperStop c (decide (w.imm = 1))))))

def execFmnLatch (f : FmId) (s : State) : Host.Outcome State Fault Refusal :=
  .next (s.fmnStep f 0x22 (fun s x w =>
    (s.setFm f x.nextPc).sendAll (((blockCells f).filter s.live).map (fun c => .scalarWrite c w.imm (x.s w.a)))))

/-- FMN_WAITEV: the oldest event moves into s[d]; with none the program waits (R127, R128). -/
def execFmnWaitev (f : FmId) (s : State) : Host.Outcome State Fault Refusal :=
  .next (s.fmnStep f 0x23 (fun s x w =>
    match s.takeEvent f with
    | some (e, t) => t.modFm f (fun y => (y.setS w.d e).nextPc)
    | none => s.setFm f { x with prog := .waiting }))

/-- FMN_WAITDONE: passes once every masked cell that is configured and no snag has its done bit set (R127). -/
def execFmnWaitdone (f : FmId) (s : State) : Host.Outcome State Fault Refusal :=
  .next (s.fmnStep f 0x24 (fun s x w =>
    if ((maskCells f (x.s w.b)).filter s.live).all (fun c => bit (posOf c) x.done) then s.setFm f x.nextPc
    else s.setFm f { x with prog := .waiting }))

/-- FMN_CURVE: s[d] takes the factor of a group at step P + 1; steps that do not ascend raise 0x2007 (R444). -/
def execFmnCurve (f : FmId) (s : State) : Host.Outcome State Fault Refusal :=
  .next (s.fmnStep f 0x2B (fun s x w =>
    let ps := curvePoints x.fcurve w.imm
    if x.fcurveEcc then s.faultFm f 0x2003
    else if !ascending ps then s.faultFm f 0x2007
    else s.setFm f ((x.setS w.d ((curveFactor ps (s.stepNow f.region)).setWidth 64)).nextPc)))

end Sys2Proof.Machine
end

