-- ==== Sys2Proof/Machine/Builder.lean ====
section
/-! DEFINITION. The fetch-list builder: score tiles, THRESH and TOPK selection, the block's list and its faults (R249 to
R262), and the grants of the score landing (R277). -/

namespace Sys2Proof.Machine

open Sys2Proof

/-! ## Descriptor fields (R251) -/

def descMode (d : Word) : Nat := bits 63 62 d
def descKind (d : Word) : Nat := bits 61 61 d
def descSource (d : Word) : Nat := bits 60 60 d
def descCap (d : Word) : Nat := bits 59 44 d
def descK (d : Word) : Nat := bits 43 41 d
def descThresh (d : Word) : Nat := bits 36 21 d
def descTag (d : Word) : Nat := bits 20 5 d
def descReg (d : Word) : Nat := bits 4 0 d

/-- The descriptor obeys R251: no reserved mode, k from 1 to 4, cap from 8 to 65,535 and a multiple of 8 (R259).
Log 21 (DEDUCED). -/
def descOk (d : Word) : Bool :=
  decide (descMode d < 2) && decide (1 ≤ descK d) && decide (descK d ≤ 4) && decide (8 ≤ descCap d) &&
  decide (descCap d % 8 = 0)

/-! ## The score landing (R249, R277) -/

def FmSt.score (x : FmSt) (k : Nat) : Bytes := if k = 0 then x.score0 else x.score1
def FmSt.svalid (x : FmSt) (k : Nat) : Bool := if k = 0 then x.svalid0 else x.svalid1
def FmSt.setSvalid (x : FmSt) (k : Nat) (v : Bool) : FmSt :=
  if k = 0 then { x with svalid0 := v } else { x with svalid1 := v }
def FmSt.granted (x : FmSt) (k : Nat) : Bool := if k = 0 then x.grant0 else x.grant1
def FmSt.setGrant (x : FmSt) (k : Nat) (v : Bool) : FmSt :=
  if k = 0 then { x with grant0 := v } else { x with grant1 := v }

/-- The oldest request for a slot is granted when the slot's valid bit is clear and no grant for it is outstanding
(R277). -/
def State.tryGrant (s : State) (f : FmId) (k : Nat) : State :=
  let x := s.fm f
  if x.svalid k || x.granted k then s
  else match x.requests.find? (fun r => r.2 == k) with
    | some r => (s.setFm f ({ x with requests := x.requests.erase r }.setGrant k true)).send (.grant r.1 k)
    | none => s

/-! ## Build faults (R259) -/

/-- 0x2006 FETCH_SCORE: the build is abandoned, the fault counted and raised (R259, R262); the program runs on (R129).
Log 143 (DEDUCED). -/
def State.fetchFault (s : State) (f : FmId) : State :=
  ((s.abandonBuild f).satReg (Reg.fmnFetchTally f) 15 0 1).raiseFm 0x2006 f

/-! ## Selection (R252, R253) -/

/-- Exact comparison of two scores, a NaN below every other (R252). -/
def scoreLt (a b : Num) : Bool :=
  match a, b with
  | .nan, .nan => false
  | .nan, _ => true
  | _, .nan => false
  | a, b => Num.lt a b

def Pick.val (p : Pick) : Num :=
  match fmtOf p.fmt with
  | some f => f.decode p.score
  | none => .nan

/-- Pick `p` ranks above `q` of the same token: a higher score, or the lower candidate between equal scores (R252). -/
def Pick.above (p q : Pick) : Bool :=
  scoreLt q.val p.val || (!scoreLt p.val q.val && decide (p.cand < q.cand))

/-- The k best picks of each token after one more score. -/
def addPick (k : Nat) (ps : List Pick) (p : Pick) : List Pick :=
  let own := ps.filter (fun q => q.token == p.token)
  if own.any (fun q => q.cand == p.cand && !p.above q) then ps
  else
    let all := own.filter (fun q => q.cand != p.cand) ++ [p]
    let keep := all.filter (fun q => decide ((all.filter (fun o => o.above q)).length < k))
    ps.filter (fun q => q.token != p.token) ++ keep

/-- A set of candidates in ascending order with one more. -/
def insertAsc (c : Nat) : List Nat → List Nat
  | [] => [c]
  | d :: t => if c < d then c :: d :: t else if c = d then d :: t else d :: insertAsc c t

/-- The scores of a tile: row, column and the score's bits. Log 23 (DEDUCED). -/
def tileScores (h : TileHdr) (bs : Bytes) : List (Nat × Nat × Nat) :=
  let w := if h.format = 0 then 2 else 4
  (List.range (h.rows * h.cols)).map (fun e => (e / h.cols, e % h.cols, leAt bs (32 + e * w) w))

/-- A score tile added to a build (R252). -/
def Build.add (b : Build) (h : TileHdr) (bs : Bytes) : Build :=
  let f := if h.format = 0 then fBF16 else fFP32
  let b := { b with stepTag := some (b.stepTag.getD h.stepTag) }
  (tileScores h bs).foldl (fun b e =>
    let v := f.decode e.2.2
    let c := h.offset + e.2.1
    if v.isNan then b
    else if descMode b.desc = 0 then
      (if Num.lt v (fBF16.decode (descThresh b.desc)) || (fBF16.decode (descThresh b.desc)).isNan then b
       else { b with picked := insertAsc c b.picked })
    else { b with picks := addPick (descK b.desc) b.picks ⟨posOf h.source * 64 + e.1, e.2.2, h.format, c⟩ }) b

/-- The candidates that a build has selected, ascending (R253). -/
def Build.selected (b : Build) : List Nat :=
  if descMode b.desc = 0 then b.picked else b.picks.foldl (fun l p => insertAsc p.cand l) []

/-- The bytes of a fetch list (R254): header with check, entries, padding with 0xFFFF to 16 bytes. -/
def fetchListBytes (tag stepTag kind source trunc cap : Nat) (cands : List Nat) : Bytes :=
  let entries := cands ++ List.replicate (8 * ceilDiv cands.length 8 - cands.length) 0xFFFF
  let v := field 127 112 tag + field 111 88 stepTag + field 87 87 kind + field 86 86 source + field 85 85 trunc +
    field 84 69 (cands.filter (fun c => c != 0xFFFF)).length + field 68 53 cap
  let body := (toLE 16 v).drop 4 ++ entries.flatMap (toLE 2)
  toLE 4 (crc32c body).toNat ++ body

/-- The block's list at BUILD_END: its bytes and whether it was truncated (R253, R254). -/
def Build.list (b : Build) : Bytes × Bool :=
  let sel := b.selected
  let trunc := decide (descCap b.desc < sel.length)
  (fetchListBytes (descTag b.desc) (b.stepTag.getD 0) (descKind b.desc) (descSource b.desc) (ofBool trunc) (descCap b.desc)
     (sel.take (descCap b.desc)), trunc)

/-! ## The meanings -/

/-- BUILD_BEGIN (R250, R251, R257, R259). -/
def execBuildBegin (f : FmId) (s : State) : Host.Outcome State Fault Refusal :=
  .next (s.fmnStep f 0x28 (fun s x w =>
    let d := x.s w.a
    let pred := match s.slotOfRegion f.region with
      | some n => bit 1 (s.slot n).features
      | none => false
    let s := s.setFm f { x.nextPc with build := some ⟨d, [], [], none⟩ }
    if !descOk d ∨ (descSource d = 1 ∧ !pred) then s.fetchFault f
    else
      s.setReg (Reg.fmnFetchStatus f)
        (BitVec.ofNat 64 (field 63 48 (descTag d) + field 31 16 (descCap d) + field 6 6 (descKind d) +
          field 5 5 (descSource d) + field 2 0 1))))

/-- SCORE (R250, R252, R259): with no build open 0x2006; a slot that is not valid makes the program wait.
Log 22 (DESIGN CHOICE). -/
def execScore (f : FmId) (s : State) : Host.Outcome State Fault Refusal :=
  .next (s.fmnStep f 0x29 (fun s x w =>
    match x.build with
    | none => (s.setFm f x.nextPc).fetchFault f
    | some b =>
      if !x.svalid w.imm then s.setFm f { x with prog := .waiting }
      else
        let bs := x.score w.imm
        let hb := slice bs 0 32
        let h := tileHdrOf hb
        let s := s.setFm f ((x.setSvalid w.imm false).nextPc)
        let bad := !tileHdrGood hb || !(h.format == 0x00 || h.format == 0x10) || fmOf h.source != f ||
          decide (65535 < h.offset + h.cols)
        (if bad then s.fetchFault f else s.modFm f (fun y => { y with build := some (b.add h bs) })).tryGrant f w.imm))

/-- BUILD_END: the block's list goes to the skidder (R253, R254, R262). -/
def execBuildEnd (f : FmId) (s : State) : Host.Outcome State Fault Refusal :=
  .next (s.fmnStep f 0x2A (fun s x _ =>
    match x.build with
    | none => (s.setFm f x.nextPc).fetchFault f
    | some b =>
      let l := b.list
      let s := s.setFm f { x.nextPc with build := none, sent := x.sent ++ [(descTag b.desc, descReg b.desc)] }
      let s := (s.setRegF (Reg.fmnFetchStatus f) 7 7 (ofBool l.2)).setRegF (Reg.fmnFetchStatus f) 2 0 2
      let s := (s.addReg (Reg.fmnFetchTally f) 62 32 1).satReg (Reg.fmnFetchTally f) 31 16 (ofBool l.2)
      s.send (.fetchList f l.1)))

/-- SCORE_TIMEOUT: a SCORE has waited longer than gate_timeout (R259). -/
def execScoreTimeout (f : FmId) (s : State) : Host.Outcome State Fault Refusal :=
  .next (
    let x := s.fm f
    if x.prog = .waiting ∧ (x.insAt x.pc).op = 0x29 ∧ x.build.isSome then (s.setFm f x.nextPc).fetchFault f else s)

/-- COUNT_RETURN: the merged count reaches a contributor, whose foreman writes it into count_reg (R255, R261). -/
def execCountReturn (f : FmId) (tag count : Nat) (s : State) : Host.Outcome State Fault Refusal :=
  .next (
    let s := s.deliver (.countReturn f tag count)
    let a := Reg.fmnFetchStatus f
    match (s.fm f).sent.find? (fun e => e.1 == tag) with
    | none => s
    | some e =>
      let s := s.modFm f (fun x => { x.setS e.2 (BitVec.ofNat 64 count) with sent := x.sent.erase e })
      if s.regF a 63 48 = tag ∧ s.regF a 2 0 = 2 then (s.setRegF a 47 32 count).setRegF a 2 0 3 else s)

end Sys2Proof.Machine
end

