-- ==== Sys2Proof/Machine/Fabric.lean ====
section
/-! DEFINITION. The mesh: sidebands, routes, credits, slip registers, absorption and detours (R264 to R270, R288 to R295),
and the EXCHANGE step with its half sync, score grants and receive entries (R271 to R279). -/

namespace Sys2Proof.Machine

open Sys2Proof

/-! ## The grid and its links (R266 to R268) -/

def portNum : Port → Nat
  | .north => 0
  | .east => 1
  | .south => 2
  | .west => 3
  | .loc => 4

/-- The router behind a port; none off the grid and at the local port. -/
def neighbor (c : Nat) : Port → Option Nat
  | .north => if 0 < rowOf c then some (c - 512) else none
  | .south => if rowOf c < 287 then some (c + 512) else none
  | .east => if colOf c < 479 then some (c + 1) else none
  | .west => if 0 < colOf c then some (c - 1) else none
  | .loc => none

def opposite : Port → Port
  | .north => .south
  | .south => .north
  | .east => .west
  | .west => .east
  | .loc => .loc

/-- Both routers lie in one clock half, where credits are held per class. -/
def sameHalf (a b : Nat) : Bool := halfOf a == halfOf b

/-- The link crosses the kerf. -/
def isKerf (a b : Nat) : Bool := regionOf a == regionOf b && halfOf a != halfOf b

/-- The credits of an output of router `c` for a class (R268, R453). -/
def linkCap (c : Nat) (p : Port) (k : FlitClass) : Nat :=
  let own := match k with
    | .detour => 2
    | _ => 4
  match neighbor c p with
  | none => if p = .loc then own else 16
  | some n =>
    if sameHalf c n then own
    else if regionOf c = regionOf n then 16
    else if wingOf (regionOf c) = wingOf (regionOf n) then 16
    else 32

/-- The key under which an output counts credits in use: per class within a half, shared at a crossing. -/
def linkKey (c : Nat) (p : Port) (k : FlitClass) : Nat :=
  match neighbor c p with
  | none => portNum p * 4 + (if p = .loc then classCode k else 3)
  | some n => portNum p * 4 + (if sameHalf c n then classCode k else 3)

/-- The key of the station's credits toward router `c`'s edge port. -/
def stationKey (p : Port) : Nat := 32 + portNum p

/-- Where the credits of an input port of router `c` are counted: the router and key that sent the flit. -/
def upstream (c : Nat) (p : Port) (k : FlitClass) : Nat × Nat :=
  match neighbor c p with
  | some n => (n, linkKey n (opposite p) k)
  | none => if p = .loc then (c, linkKey c .loc k) else (c, stationKey p)

def State.inUse (s : State) (c key : Nat) : Nat := (s.router c).used.get 0 key
def State.setUse (s : State) (c key n : Nat) : State := s.modRouter c (fun x => { x with used := x.used.set 0 key n })

/-- The output holds a free credit for the class. -/
def State.hasCredit (s : State) (c : Nat) (p : Port) (k : FlitClass) : Bool :=
  decide (s.inUse c (linkKey c p k) < linkCap c p k)

def State.takeCredit (s : State) (c : Nat) (p : Port) (k : FlitClass) : State :=
  s.setUse c (linkKey c p k) (s.inUse c (linkKey c p k) + 1)

/-- The credit of a flit that leaves input port `p` of router `c` returns to its sender. COMPILED flits hold none.
Log 29 (DESIGN CHOICE). -/
def State.returnCredit (s : State) (c : Nat) (p : Port) (k : FlitClass) : State :=
  match k with
  | .compiled => s
  | k =>
    match neighbor c p with
    | some n => s.send (.creditReturn n (opposite p) k)
    | none =>
      if p = .loc then s.send (.creditReturn c .loc k)
      else s.setUse c (stationKey p) (s.inUse c (stationKey p) - 1)

/-! ## Detours (R291 to R293) -/

/-- The router lies in a hole: its block is not present (R43). -/
def State.inHole (s : State) (c : Nat) : Bool := !bit (fmOf c).block (s.rgn (regionOf c)).map

def State.deadRouter (s : State) (c : Nat) : Bool := (s.rgn (regionOf c)).dead.contains (c, none)

def State.deadLink (s : State) (c : Nat) (p : Port) : Bool :=
  (s.rgn (regionOf c)).dead.contains (c, some p) ||
  match neighbor c p with
  | some n => (s.rgn (regionOf n)).dead.contains (n, some (opposite p))
  | none => false

/-- A region runs its exchange entries as CREDIT entries (R292, R296). -/
def State.creditMode (s : State) (r : Nat) : Bool :=
  bit 1 (s.reg (Reg.rgnFabricCtrl r)) || !(s.rgn r).dead.isEmpty

/-- The routers of a side-step from `c` along `p` on side `q`, the last one beyond the dead part (R293).
Log 30 (DESIGN CHOICE). -/
def sideStep (c : Nat) (p q : Port) : Option (List Nat) := do
  let a ← neighbor c q
  let b ← neighbor a p
  let d ← neighbor b p
  let e ← neighbor d (opposite q)
  pure [a, b, d, e]

/-- The side-step meets no dead entry and no hole. Log 30 (DESIGN CHOICE). -/
def State.sideClear (s : State) (c : Nat) (p q : Port) : Option Nat :=
  match sideStep c p q with
  | some [a, b, d, e] =>
    if [a, b, d, e].any (fun x => s.deadRouter x || s.inHole x) || s.deadLink c q || s.deadLink a p || s.deadLink b p ||
        s.deadLink d (opposite q) then none else some e
  | _ => none

/-- The router that the side-step reaches and the port by which it arrives there: north before south along a row, east
before west along a column (R293). Log 30 (DESIGN CHOICE). -/
def State.detour (s : State) (c : Nat) (p : Port) : Option (Nat × Port) :=
  let (q1, q2) : Port × Port := match p with
    | .east => (.north, .south)
    | .west => (.north, .south)
    | _ => (.east, .west)
  match s.sideClear c p q1 with
  | some e => some (e, q1)
  | none => (s.sideClear c p q2).map (fun e => (e, q2))

/-! ## Routes (R267) -/

/-- What a router does with a flit. -/
inductive Route where
  | loc
  | hop (p : Port) (n : Nat)
  | side (p : Port) (n : Nat) (inPort : Port)
  | station (p : Nat)
  | absorb
  | none
deriving DecidableEq, Repr

/-- The port toward cell `d` from router `c` by dimension order: along the row first. Log 33 (DESIGN CHOICE). -/
def toward (c d : Nat) : Port :=
  if colOf c < colOf d then .east
  else if colOf d < colOf c then .west
  else if rowOf c < rowOf d then .south
  else if rowOf d < rowOf c then .north
  else .loc

def State.route (s : State) (c : Nat) (f : Flit) : Route :=
  let b := f.sideband
  let t := if sbSky b then exitCell (sbPort b) (sbSrc b) else sbDest b
  let p := toward c t
  match neighbor c p with
  | Option.none => if p = .loc then (if sbSky b then .station (sbPort b) else .loc) else .absorb
  | some n =>
    if s.inHole n then .absorb
    else if s.deadRouter n && n == t then .absorb
    else if s.deadRouter n || s.deadLink c p then
      match s.detour c p with
      | some (e, q) => .side p e q
      | Option.none => .none
    else .hop p n

/-! ## Absorption (R43, R289) -/

/-- The sideband without class, sky port, parity: how a flit from another module is known again. -/
def sbKey (b : BitVec 72) : Nat := bits 69 64 b * 2 ^ 50 + bits 59 10 b

/-- A flit absorbed at router `c`: at its last flit the notice goes to the sender's foreman, or for a flit from another
module to the ranger, and the region logs the packet (R289, R298). -/
def State.absorb (s : State) (c : Nat) (f : Flit) : State :=
  let b := f.sideband
  if !sbLast b then s
  else
    let a := Reg.rgnAbsorbLog (regionOf c)
    let s := (s.satReg a 63 48 1).setRegF a 47 0 (field 47 30 (sbDest b) + field 29 12 (sbSrc b) + field 11 8 (sbXtag b))
    if s.foreign.contains (sbKey b) then { s with foreign := s.foreign.erase (sbKey b) }
    else s.send (.absorbed (sbSrc b) (sbDest b) (sbXtag b))

/-- The flit's packet is no longer under way. Log 34 (DESIGN CHOICE). -/
def State.dropForeign (s : State) (f : Flit) : State :=
  if sbLast f.sideband then { s with foreign := s.foreign.erase (sbKey f.sideband) } else s

/-! ## Receive entries (R276) -/

/-- The open receive entries tested in table order: one that its counter covers completes and subtracts, and a later one
of the same xtag is tested only after every earlier one has completed. -/
def settleRecvs (cnt : Tbl Nat) : List (Nat × Nat × Nat) → List Nat → Tbl Nat × List (Nat × Nat × Nat)
  | [], _ => (cnt, [])
  | (k, tag, n) :: t, stuck =>
    if !stuck.contains tag && decide (n ≤ cnt.get 0 tag) then settleRecvs (cnt.set 0 tag (cnt.get 0 tag - n)) t stuck
    else
      let r := settleRecvs cnt t (tag :: stuck)
      (r.1, (k, tag, n) :: r.2)

def CellSt.settleRecv (x : CellSt) : CellSt :=
  match x.xrun with
  | some r =>
    let y := settleRecvs x.arrivals r.recvs []
    { x with arrivals := y.1, xrun := some { r with recvs := y.2 } }
  | none => x

/-! ## The local port (R249, R270, R289) -/

/-- The cell's local port absorbs: a snag, a cell that is not configured, or one in an ABSORB reset (R43, R289,
R619). -/
def State.localAbsorbs (s : State) (c : Nat) : Bool :=
  let x := s.cell c
  decide (x.looper = .snag) || !x.configured || x.resetting == some .absorb

/-- The local port refuses a SCORE flit: the foreman's slot is still valid (R260). -/
def State.localRefuses (s : State) (c : Nat) (f : Flit) : Bool :=
  sbKind f.sideband == 1 && !s.localAbsorbs c && (s.fm (fmOf c)).svalid (bits 23 23 f.sideband)

/-- An accepted flit at its destination: DATA goes to near SRAM and counts (R270, R276), SCORE to the score landing, whose
valid bit its last flit sets (R249, R277). A reserved kind leaves nothing. Log 33 (DESIGN CHOICE). -/
def State.localDeliver (s : State) (c : Nat) (f : Flit) : State :=
  let b := f.sideband
  if s.localAbsorbs c then s.absorb c f
  else match sbKind b with
    | 0 =>
      (s.dropForeign f).modCell c (fun x =>
        ({ x with near := x.near.write (sbGranule b * 64) (slice f.data 0 64),
                  arrivals := x.arrivals.set 0 (sbXtag b) ((x.arrivals.get 0 (sbXtag b) + 1) % 65536) } : CellSt).settleRecv)
    | 1 =>
      s.modFm (fmOf c) (fun x =>
        let k := bits 23 23 b
        let bs := splice (x.score k) (bits 22 11 b * 64) (slice f.data 0 64)
        let x := if k = 0 then { x with score0 := bs } else { x with score1 := bs }
        if sbLast b then (x.setSvalid k true).setGrant k false else x)
    | _ => s

/-! ## Forwarding (R268, R269, R288, R293) -/

/-- A held flit at router `c` toward `n`: the region's credit wait counts, and the kerf's (R298). Log 31 (DESIGN CHOICE). -/
def State.noteHeld (s : State) (c n : Nat) : State :=
  let s := s.modRgn (regionOf c) (fun x => { x with waited := true })
  if isKerf c n then
    let a := Reg.rgnKerfTally (regionOf c)
    if colOf c < colOf n then s.freeCount a 62 32 else s.freeCount a 30 0
  else s

/-- A CREDIT or DETOUR flit at input `p` of router `c` offered to its output: it moves on when the next hop has a credit,
and waits otherwise. A side-step takes the credit of the link by which it arrives beyond the dead part. -/
def State.offerFlit (s : State) (c : Nat) (p : Port) (f : Flit) (k : FlitClass) : State :=
  let gone := fun (s : State) => s.returnCredit c p k
  let stay := fun (s : State) => s.modRouter c (fun x => { x with wait := x.wait ++ [(p, f)] })
  match s.route c f with
  | .loc => gone (s.localDeliver c f)
  | .absorb => gone (s.absorb c f)
  | .station q =>
    let e := (attachment q).1
    if s.hasCredit c e k then gone ((s.takeCredit c e k).toStation q c f) else stay s
  | .hop q n =>
    if s.hasCredit c q k then gone ((s.takeCredit c q k).send (.flitArrive n (opposite q) f false))
    else stay (s.noteHeld c n)
  | .side _ n q =>
    match neighbor n q with
    | some u =>
      if s.hasCredit u (opposite q) .detour then
        gone ((s.takeCredit u (opposite q) .detour).send (.flitArrive n q (flitClassed f .detour) false))
      else stay s
    | none => stay s
  | .none =>
    let s := if (s.rgn (regionOf c)).detourNone then s
      else (s.modRgn (regionOf c) (fun x => { x with detourNone := true })).raiseRgn 0x3004 (regionOf c) 0
    stay s

/-- The detail of a router fault (R295). -/
def routerDetail (p : Port) (b : BitVec 72) : Nat := portNum p + field 25 8 (sbSrc b)

/-- SCHED_SLIP at router `c`, once per exchange epoch (R269, R298). -/
def State.schedSlip (s : State) (c : Nat) (p : Port) (b : BitVec 72) : State :=
  if (s.router c).slipped then s
  else
    ((s.modRouter c (fun x => { x with slipped := true })).modRgn (regionOf c) (fun x => { x with slips := x.slips + 1 })).raiseCell
      0x100B c (routerDetail p b)

/-- A COMPILED flit at input `p` of router `c` (R268, R269): it leaves in the next clock, or loses arbitration and waits in
the slip register, from which the same flit is offered again; a full slip register discards it. It never waits for credit
and takes no detour: a route that leaves its half, which R278 excludes, loses it. Log 33 (DESIGN CHOICE). -/
def State.compiledFlit (s : State) (c : Nat) (p : Port) (f : Flit) (loses : Bool) : State :=
  let x := s.router c
  let inSlip := x.slips.contains (p, f)
  if loses then
    if inSlip then s.send (.flitArrive c p f false)
    else
      let s := s.schedSlip c p f.sideband
      if 4 ≤ (x.slips.filter (fun e => e.1 == p)).length then
        (s.modRgn (regionOf c) (fun r => { r with slips := r.slips + 1 })).dropForeign f
      else (s.modRouter c (fun x => { x with slips := x.slips ++ [(p, f)] })).send (.flitArrive c p f false)
  else
    let s := if inSlip then s.modRouter c (fun x => { x with slips := x.slips.erase (p, f) }) else s
    match s.route c f with
    | .loc => s.localDeliver c f
    | .absorb => s.absorb c f
    | .hop q n => if sameHalf c n then s.send (.flitArrive n (opposite q) f false) else s
    | _ => s

/-- The waiting flits of router `c` offered again: DETOUR before CREDIT (R269). -/
def State.retryWaiting (s : State) (c : Nat) : State :=
  let w := (s.router c).wait
  let isD := fun (e : Port × Flit) => sbClass e.2.sideband == some .detour
  let order := w.filter isD ++ w.filter (fun e => !isD e)
  order.foldl (fun s e => s.offerFlit c e.1 e.2 ((sbClass e.2.sideband).getD .credit))
    (s.modRouter c (fun x => { x with wait := [] }))

/-! ## Exchange entries (R271, R272, R278) -/

abbrev XEntry := BitVec 128

def XEntry.kind (e : XEntry) : Nat := bits 127 126 e
def XEntry.credit (e : XEntry) : Bool := bit 125 e
def XEntry.xtag (e : XEntry) : Nat := bits 124 121 e
def XEntry.len (e : XEntry) : Nat := bits 120 108 e + 1
def XEntry.src (e : XEntry) : Nat := bits 107 95 e
def XEntry.dest (e : XEntry) : Nat := bits 94 77 e
def XEntry.granule (e : XEntry) : Nat := bits 76 64 e
def XEntry.offset (e : XEntry) : Nat := bits 63 44 e
def XEntry.port (e : XEntry) : Nat := bits 43 40 e
def XEntry.sky (e : XEntry) : Bool := bit 39 e

/-- A COMPILED entry: one that R273 counts for the half sync. A SCORE entry always runs as a CREDIT entry (R277). -/
def XEntry.compiled (e : XEntry) : Bool := !e.credit && e.kind != 2

def CellSt.xEntry (x : CellSt) (k : Nat) : XEntry := BitVec.ofNat 128 (ofLE (x.xchgMem.read (16 * k) 16))

/-- The bits that an entry's kind leaves reserved are zero (R272). -/
def XEntry.clean (e : XEntry) : Bool :=
  (e.compiled || (e.kind == 2 && !e.credit) || e.offset == 0) &&
  match e.kind with
  | 0 => bits 38 0 e == 0
  | 1 => bits 107 64 e == 0 && bits 43 0 e == 0
  | 2 => bits 43 0 e == 0
  | _ => bits 124 64 e == 0 && bits 43 0 e == 0

/-- The entry is illegal at cell `c`, whose slot's ports are `ports` (R278). -/
def XEntry.illegal (e : XEntry) (c : Nat) (ports : BitVec 16) : Bool :=
  !e.clean ||
  match e.kind with
  | 0 =>
    !onGrid e.dest || decide (6144 < e.src + e.len) || decide (6144 < e.granule + e.len) ||
    (!e.credit && (e.sky || halfOf e.dest != halfOf c)) || (e.sky && !bit e.port ports)
  | 2 =>
    !onGrid e.dest || decide (6144 < e.src + e.len) || decide (256 < bits 75 64 e + e.len) || fmOf e.dest != fmOf c
  | _ => false

/-- The entries of a range checked in table order: those before the first fault, the cell with corrected marks cleared and
counted, and the fault's code (R271, R278). -/
def checkEntries (c : Nat) (ports : BitVec 16) : List Nat → CellSt → List Nat × CellSt × Option Nat
  | [], x => ([], x, none)
  | k :: t, x =>
    if 4095 < k then ([], x, some 0x100A)
    else match eccAt x.xchgEcc k with
      | some true => ([], x, some 0x1009)
      | mark =>
        let x := if mark.isSome then { x.tally 12 1 with xchgEcc := x.xchgEcc.filter (fun m => m.1 != k) } else x
        if (x.xEntry k).illegal c ports then ([], x, some 0x100A)
        else
          let r := checkEntries c ports t x
          (k :: r.1, r.2)

/-- The entry numbers of an EXCHANGE step's range (R97). -/
def exchRange (b : Step) : List Nat := (List.range (bits 75 64 b + 1)).map (fun k => bits 87 76 b + k)

/-- The range holds a COMPILED entry, so the step enters the half sync as it issues (R273). -/
def CellSt.needsEpoch (x : CellSt) (b : Step) : Bool :=
  (exchRange b).any (fun k => decide (k ≤ 4095) && (x.xEntry k).compiled)

/-! ## Sending (R274, R275, R277) -/

/-- Flit `i` of entry `e` as cell `c` sends it, in class `k`. Log 32 (DESIGN CHOICE). -/
def sendFlit (x : CellSt) (c : Nat) (e : XEntry) (i : Nat) (k : FlitClass) : Flit :=
  let last := ofBool (decide (i + 1 = e.len))
  let dest := if e.kind = 2 then blockCell (fmOf c) else e.dest
  let gran := if e.kind = 2 then bits 76 76 e * 4096 + (bits 75 64 e + i) else e.granule + i
  let sky := e.kind == 0 && e.sky
  ⟨x.near.read ((e.src + i) * 64) 64,
   sbSeal (BitVec.ofNat 72 (field 71 70 (classCode k) + field 69 68 (ofBool (e.kind == 2)) + field 67 64 e.xtag +
     field 63 60 (if sky then e.port else 0) + field 59 42 dest + field 41 24 c + field 23 11 gran + field 10 10 last +
     field 9 9 (ofBool sky)))⟩

/-- The CREDIT flits of a cell that its local port can take now: one entry at a time in table order, a flit for each free
credit; a SCORE entry first asks its foreman for a grant (R275, R277). In a reset only the
entry being sent goes on, and in ABSORB mode none (R618, R619). Log 32 (DESIGN CHOICE). -/
def State.pump : Nat → State → Nat → State
  | 0, s, _ => s
  | n + 1, s, c =>
    let x := s.cell c
    match x.xrun with
    | some r =>
      if !r.started || x.resetting == some .absorb || (x.resetting.isSome && r.flit == 0) then s
      else match r.todo with
        | [] => s
        | k :: t =>
          let e := x.xEntry k
          if e.kind = 2 ∧ !r.granted then
            if r.asked then s
            else
              let f := fmOf c
              let slot := bits 76 76 e
              ((s.setCell c { x with xrun := some { r with asked := true } }).modFm f
                (fun y => { y with requests := y.requests ++ [(c, slot)] })).tryGrant f slot
          else if !s.hasCredit c .loc .credit then s
          else
            let fl := sendFlit x c e r.flit .credit
            let r' := if r.flit + 1 = e.len then { r with todo := t, flit := 0, asked := false, granted := false }
              else { r with flit := r.flit + 1 }
            State.pump n (((s.setCell c { x with xrun := some r' }).takeCredit c .loc .credit).send
              (.flitArrive c .loc fl false)) c
    | none => s

/-- Insertion by due clock, later entries after earlier ones of the same clock. -/
def insertDue (e : Nat × Flit) : List (Nat × Flit) → List (Nat × Flit)
  | [] => [e]
  | d :: t => if e.1 < d.1 then e :: d :: t else d :: insertDue e t

/-- The due flits in the order in which the local port sends them, and whether any leaves after its due clock (R274). -/
def dueSlips : Nat → List (Nat × Flit) → Bool
  | _, [] => false
  | next, (d, _) :: t => decide (d < next) || dueSlips (max next d + 1) t

/-- The COMPILED flits of the entries `ks`, in sending order. Log 32 (DESIGN CHOICE). -/
def compiledFlits (x : CellSt) (c : Nat) (ks : List Nat) : List (Nat × Flit) :=
  (ks.flatMap (fun k =>
    let e := x.xEntry k
    (List.range e.len).map (fun i => (e.offset + i, sendFlit x c e i .compiled)))).foldl (fun l e => insertDue e l) []

/-- A cell's sends begin: at the exchange epoch where the step has one, else at issue. COMPILED entries leave by their
offsets, unless the region runs in credit mode (R274, R275, R292). Log 32 (DESIGN CHOICE). -/
def State.startSends (s : State) (c : Nat) : State :=
  let x := s.cell c
  match x.xrun with
  | none => s
  | some r =>
    if r.started then s
    else
      let cm := s.creditMode (regionOf c)
      let isC := fun k => (x.xEntry k).compiled && !cm
      let due := compiledFlits x c (r.entries.filter isC)
      let s := s.setCell c { x with xrun := some { r with started := true, todo := r.entries.filter (fun k => !isC k) } }
      let s := if dueSlips 0 due then
          s.schedSlip c .loc (sbSeal (BitVec.ofNat 72 (field 41 24 c)))
        else s
      (s.sendAll (due.map (fun e => .flitArrive c .loc e.2 false))).pump 5 c

/-- The running EXCHANGE step of a cell begins: its entries are checked, its receive entries open, and its sends start
unless they wait for the epoch (R273, R275, R276, R278). -/
def State.startExchange (s : State) (c : Nat) : State :=
  let x := s.cell c
  match x.exch.running, x.xrun with
  | some r, none =>
    let ports := match s.slotOfCell c with
      | some n => (s.slot n).ports
      | none => 0
    let need := x.needsEpoch r.bits
    let (good, x, bad) := checkEntries c ports (exchRange r.bits) x
    let recvs := (good.filter (fun k => (x.xEntry k).kind == 1)).map (fun k => (k, (x.xEntry k).xtag, (x.xEntry k).len))
    let sends := good.filter (fun k => (x.xEntry k).kind == 0 || (x.xEntry k).kind == 2)
    let x := match bad with
      | some code => x.withFault code r.index 0
      | none => x
    let x := { x with xrun := some { needEpoch := need, number := x.hsEntered, started := false, entries := sends,
                                     todo := [], flit := 0, recvs := recvs, asked := false, granted := false } }
    let s := s.setCell c x.settleRecv
    if need && decide (x.hsEpochs < x.hsEntered) then s else s.startSends c
  | _, _ => s

/-- The exchange may complete: every send has left and, unless a fault abandoned them, every receive entry has completed,
after the epoch where the step has one (R120, R276). -/
def CellSt.exchDone (x : CellSt) : Bool :=
  match x.exch.running, x.xrun with
  | some r, some q =>
    q.started && q.todo.isEmpty && (q.recvs.isEmpty || (x.fault.map (fun f => f.2.1) == some r.index))
  | _, _ => false

/-- STEP_EXCHANGE (R273, R275, R276). -/
def execStepExchange (c held : Nat) (s : State) : Host.Outcome State Fault Refusal :=
  .next (match s.offer c 5 held (fun _ => true) with
    | .no s => s
    | .go s b r =>
      let s := s.modCell c (fun x =>
        let x := if x.needsEpoch b then { x with hsEntered := x.hsEntered + 1 } else x
        x.place .exchange r)
      s.startExchange c)

/-- The exchange engine's running step completes, enters the barrier where it says so, and its pending step begins (R100,
R102). A step that is not done counts the clocks that a ready flit waited for credit or grant (R123, R275, R277). -/
def State.completeExchange (s : State) (c wait : Nat) : State :=
  let s := s.pump 5 c
  let x := s.cell c
  match x.exch.running with
  | none => s
  | some r =>
    if !x.exchDone then
      match x.xrun with
      | some q =>
        if q.started && !q.todo.isEmpty then
          (s.setCell c (x.tally 10 wait)).modRgn (regionOf c) (fun y => { y with waited := y.waited || decide (0 < wait) })
        else s
      | none => s
    else
      let b := r.bits
      let bad := x.fault.map (fun f => f.2.1) == some r.index
      let s := s.setCell c (({ x with exch := ⟨x.exch.pending, none⟩, xrun := none } : CellSt).releaseAt b)
      let s := if bit 63 b && !bad then s.enterBarrier c else s
      (s.startExchange c).settle c

/-- STEP_COMPLETE of one engine or of the looper's own step (R102). -/
def execStepComplete (c : Nat) (e : Engine) (wait : Nat) (s : State) : Host.Outcome State Fault Refusal :=
  .next (match e with
    | .looper => s.completeLooper c
    | .exchange => s.completeExchange c wait
    | e => s.complete c e wait)

/-! ## The half sync (R273) -/

/-- The participants of a slot's half sync in a half: configured cells of the partition there that are no snags. -/
def State.halfCells (s : State) (slot half : Nat) : List Nat :=
  (s.slotCells slot).filter (fun c => halfOf c == half && (s.cell c).looper != .snag)

/-- EXCHANGE_EPOCH: once every participant has entered, each gets the epoch in the same clock (R273, R274). -/
def execExchangeEpoch (half slot : Nat) (s : State) : Host.Outcome State Fault Refusal :=
  .next (
    let cs := s.halfCells slot half
    if cs.isEmpty || cs.any (fun c => decide ((s.cell c).hsEntered ≤ (s.cell c).hsEpochs)) then s
    else
      let s := s.modRgn (half / 2) (fun x => { x with synced := true })
      let s := { s with routers := s.routers.map (fun e =>
        if halfOf e.1 = half then (e.1, { e.2 with slipped := false }) else e) }
      cs.foldl (fun s c =>
        let s := s.modCell c (fun x => { x with hsEpochs := x.hsEpochs + 1 })
        match (s.cell c).xrun with
        | some r => if r.needEpoch && !r.started && decide (r.number ≤ (s.cell c).hsEpochs) then s.startSends c else s
        | none => s) s)

/-! ## The meanings of the mesh commands -/

/-- A cell fenced by its foreman: a FENCE goes to it and 0x2002 is raised (R283, R291, R579). -/
def State.fenceBy (s : State) (c : Nat) : State := (s.send (.fence c)).raiseCell 0x2002 c 0

/-- FLIT_ARRIVE (R267 to R270, R276, R289, R293). A reserved class is discarded, and a flit
that reaches an unpowered region is lost (R82). Log 29 (DESIGN CHOICE), 144 (DEDUCED). -/
def execFlitArrive (c : Nat) (p : Port) (f : Flit) (loses : Bool) (s : State) : Host.Outcome State Fault Refusal :=
  .next (
    let b := f.sideband
    if (s.rgn (regionOf c)).dark then s.deliver (.flitArrive c p f false)
    else if s.localRefuses c f && s.route c f == .loc then
      if s.inFlight.contains (.flitArrive c p f false) then s else s.send (.flitArrive c p f false)
    else
      let s := s.deliver (.flitArrive c p f false)
      if !sbGood b then
        let s := match sbClass b with
          | some k => s.returnCredit c p k
          | none => s
        (s.dropForeign f).raiseCell 0x100C c (routerDetail p b)
      else match sbClass b with
      | none => s
      | some k =>
        match k with
          | .compiled => s.compiledFlit c p f loses
          | k =>
            let u := upstream c p k
            let s := if s.inUse u.1 u.2 = 0 then s.raiseCell 0x1008 c (routerDetail p b) else s
            s.offerFlit c p f k)

/-- CREDIT_RETURN: the output's credit is free again, and waiting flits are tried (R268, R269, R275, R288). A return beyond
the depth raises 0x1008, at a crossing 0x3002. -/
def execCreditReturn (c : Nat) (p : Port) (k : FlitClass) (s : State) : Host.Outcome State Fault Refusal :=
  .next (
    let s := s.deliver (.creditReturn c p k)
    let key := linkKey c p k
    let crossing := match neighbor c p with
      | some n => !sameHalf c n
      | none => false
    if s.inUse c key = 0 then
      if crossing then s.raiseRgn 0x3002 (regionOf c) 0 else s.raiseCell 0x1008 c (portNum p)
    else
      let s := s.setUse c key (s.inUse c key - 1)
      let near := if k = .detour then (s.routers.filter (fun e => !e.2.wait.isEmpty)).map (fun e => e.1) else [c]
      (near.foldl State.retryWaiting s).pump 5 c)

/-- ROUTER_DEAD: a router or link is declared dead, its cell fenced, and a detour entry made (R291 to R293). -/
def execRouterDead (c : Nat) (link : Option Port) (s : State) : Host.Outcome State Fault Refusal :=
  .next (
    let r := regionOf c
    if (s.rgn r).dead.contains (c, link) then s
    else
      let lk := match link with
        | some p => 2 ^ 18 + field 21 20 (portNum p)
        | none => 0
      let s := (s.raiseRgn 0x3003 r (field 17 0 c + lk)).fenceBy c
      let s := match link with
        | none => { s.modRouter c (fun x => { x with wait := [], slips := [] }) with
                      inFlight := s.inFlight.filter (fun m => match m with
                        | .flitArrive d _ _ _ => d != c
                        | _ => true) }
        | some _ => s
      if 4 ≤ (s.rgn r).dead.length then (s.modRgn r (fun x => { x with detourNone := true })).raiseRgn 0x3004 r 0
      else s.modRgn r (fun x => { x with dead := x.dead ++ [(c, link)] }))

/-- DETOUR_CLEAR: the table is emptied; rejected while a job runs on the region (R294, R296). -/
def State.detourClear (s : State) (r : Nat) (value : Word) : State × Bool :=
  if !bit 0 value then (s, true)
  else match s.slotOfRegion r with
    | some n => if s.jobRuns n then (s.reject (some n) r, false)
      else (s.modRgn r (fun x => { x with dead := [], detourNone := false }), true)
    | none => (s.modRgn r (fun x => { x with dead := [], detourNone := false }), true)

/-- GRANT: the score entry that asked for the slot may send (R277). -/
def execGrant (c slot : Nat) (s : State) : Host.Outcome State Fault Refusal :=
  .next (
    let s := s.deliver (.grant c slot)
    let x := s.cell c
    match x.xrun with
    | some r => (s.setCell c { x with xrun := some { r with granted := true } }).pump 5 c
    | none => s)

/-- ABSORBED: the sender's foreman counts the notice (R289, R299). -/
def execAbsorbed (src dest xtag : Nat) (s : State) : Host.Outcome State Fault Refusal :=
  .next ((s.deliver (.absorbed src dest xtag)).satReg (Reg.fmnAbsorbed (fmOf src)) 31 0 1)

end Sys2Proof.Machine
end

