-- ==== Sys2Proof/Machine/Rings.lean ====
section
/-! DEFINITION. Modules of a stand: coordinates and numbers (R464, R467), the shorter way round each ring (R425), the choice of
a port (R463), and tiles and trail messages for another module. -/

namespace Sys2Proof.Machine

open Sys2Proof

/-- The module is ADMITTED (R473). -/
def State.admitted (s : State) : Bool := bits 1 0 (s.reg Reg.skyAdmit) == 2

/-- The number of the module in its stand (R467), 0 while it is not ADMITTED. -/
def State.moduleNo (s : State) : Nat :=
  let w := s.reg Reg.skyCoord
  if s.admitted then bits 20 16 w + 32 * bits 11 8 w + 512 * bits 3 0 w else 0

/-- The shape of the stand (R464, R473). -/
def State.shape (s : State) : Nat × Nat × Nat :=
  let w := s.reg Reg.skyStand
  (bits 20 16 w + 1, bits 11 8 w + 1, bits 3 0 w + 1)

/-- The coordinates of a module number. -/
def coordsOf (m : Nat) : Nat × Nat × Nat := (m % 32, m / 32 % 16, m / 512)

/-- The way from `a` to `b` round a ring: none when they are equal, else whether it is the + direction. Equal ways take
the + direction. Log 58 (DESIGN CHOICE). -/
def ringWay (size a b : Nat) : Option Bool :=
  let d := (b + size - a % size) % size
  if d = 0 then none else some (decide (d ≤ size - d))

/-- Directions: 0 −X, 1 +X, 2 −Y, 3 +Y, 4 −Z, 5 +Z; their ports (R452). -/
def dirPorts : Nat → List Nat
  | 0 => [0, 1, 2, 3]
  | 1 => [8, 9, 10, 11]
  | 2 => [4, 12]
  | 3 => [5, 13]
  | 4 => [6, 14]
  | _ => [7, 15]

/-- The direction behind a port. -/
def dirOfPort (p : Nat) : Nat := ((List.range 6).find? (fun d => (dirPorts d).contains p)).getD 0

/-- The direction of a message or tile for module `m`: dimension order X, Y, Z, the shorter way round each ring (R425). -/
def State.dirToward (s : State) (m : Nat) : Option Nat :=
  let here := coordsOf s.moduleNo
  let there := coordsOf m
  let n := s.shape
  match ringWay n.1 here.1 there.1 with
  | some up => some (0 + ofBool up)
  | none => match ringWay n.2.1 here.2.1 there.2.1 with
    | some up => some (2 + ofBool up)
    | none => (ringWay n.2.2 here.2.2 there.2.2).map (fun up => 4 + ofBool up)

/-- The ADMITTED ports of a direction in ascending order (R463). -/
def State.admittedPorts (s : State) (d : Nat) : List Nat := (dirPorts d).filter (fun p => (s.sky p).state == .admitted)

/-- A tile bound for a direction takes port (layer + position) mod a, or waits at the module reducer (R463). -/
def State.sendTile (s : State) (d key : Nat) (bs : Bytes) : State :=
  match s.admittedPorts d with
  | [] => { s with tilesHeld := s.tilesHeld ++ [(d, key, bs)] }
  | ps => s.toTileQueue (ps.getD (key % ps.length) 0) bs

/-- The waiting tiles tried again, once a port has become ADMITTED. Log 57 (DESIGN CHOICE). -/
def State.releaseTiles (s : State) : State :=
  s.tilesHeld.foldl (fun s t => s.sendTile t.1 t.2.1 t.2.2) { s with tilesHeld := [] }

/-- A trail message for a module: delivered here when it is this one, else on the lowest-numbered ADMITTED port of its
direction (R463). Log 36 (DESIGN CHOICE). -/
def State.toModule (s : State) (m : Nat) (msg : Instr) : State :=
  if m = s.moduleNo then s.send msg
  else match s.dirToward m with
    | some d => s.sendTrail m (s.admittedPorts d).head? msg
    | none => s.sendTrail m none msg

/-- A digest or verdict message of a slot: it waits for a DIGEST occurrence while the slot's running schedule has a DIGEST
entry, else it leaves at once (R439, R525). Log 82 (DEDUCED). -/
def State.digestMsg (s : State) (n m : Nat) (msg : Instr) : State :=
  let waits := (s.beats.slots.get .reset n).state == .running &&
    s.beats.table.any (fun e => bits 127 124 e.2 == 5 && bits 123 121 e.2 == n)
  if waits then s.modRed n (fun x => { x with mail := x.mail ++ [(m, msg)] }) else s.toModule m msg

/-- The messages released by a DIGEST occurrence. Log 82 (DEDUCED). -/
def State.releaseMail (s : State) (n : Nat) : State :=
  ((s.red n).mail).foldl (fun s e => s.toModule e.1 e.2) (s.modRed n (fun x => { x with mail := [] }))

/-- Ring distances of the broadcast: from the primary `size / 2` modules in the + direction and the rest in the −
direction, so that each module receives it once (R433). Log 58 (DESIGN CHOICE). -/
def ringOn (size d : Nat) : List Bool :=
  let up := size / 2
  let down := size - 1 - up
  if d = 0 then (if 0 < up then [true] else []) ++ (if 0 < down then [false] else [])
  else if d ≤ up then (if d < up then [true] else [])
  else (if size - d < down then [false] else [])

/-- The directions in which a module passes on the broadcast of primary `m` (R433). Log 58 (DESIGN CHOICE). -/
def State.castDirs (s : State) (m : Nat) : List Nat :=
  let here := coordsOf s.moduleNo
  let there := coordsOf m
  let n := s.shape
  let dx := (here.1 + n.1 - there.1 % n.1) % n.1
  let dy := (here.2.1 + n.2.1 - there.2.1 % n.2.1) % n.2.1
  let dz := (here.2.2 + n.2.2 - there.2.2 % n.2.2) % n.2.2
  (if dy = 0 ∧ dz = 0 then (ringOn n.1 dx).map (fun up => 0 + ofBool up) else []) ++
  (if dz = 0 then (ringOn n.2.1 dy).map (fun up => 2 + ofBool up) else []) ++
  (ringOn n.2.2 dz).map (fun up => 4 + ofBool up)

end Sys2Proof.Machine
end

