-- ==== Sys2Proof/Machine/Barrier.lean ====
section
/-! DEFINITION. Barrier trees, their hubs, timers and probes (R280 to R284), the numerics words on their way up (R191,
R192), window flags (R106) and the remaining trail messages of R286. -/

namespace Sys2Proof.Machine

open Sys2Proof

/-! ## Participants (R281) -/

/-- The block of cell `c` is required by the slot's image (R42). -/
def State.requiredCell (s : State) (n c : Nat) : Bool :=
  match ((s.slot n).rect.regions.zip (s.slot n).required).find? (fun e => e.1 == regionOf c) with
  | some e => bit (fmOf c).block e.2
  | none => false

/-- The cells that take part in the barrier now gathering, as of its first entry. -/
def State.barrierCells (s : State) (n : Nat) : List Nat :=
  match (s.slot n).parts with
  | some l => l
  | none => (s.slotCells n).filter (fun c => s.requiredCell n c && (s.cell c).looper != .snag)

def State.blockParts (s : State) (n : Nat) (f : FmId) : List Nat := (s.barrierCells n).filter (fun c => fmOf c == f)

/-- The blocks of a region, and the regions of a slot, that hold participants. -/
def State.partBlocks (s : State) (n r : Nat) : List FmId :=
  (regionFms r).filter (fun f => (s.barrierCells n).any (fun c => fmOf c == f))

def State.partRegions (s : State) (n : Nat) : List Nat :=
  (s.slot n).rect.regions.filter (fun r => (s.barrierCells n).any (fun c => regionOf c == r))

/-! ## Hubs (R280, R282) -/

/-- The hub with one more entry and its word; a hub that had sent its entry upward begins the next barrier. -/
def HubSt.enter (h : HubSt) (e : Entrant) (w : BitVec 32) : HubSt :=
  let h := if h.closed then HubSt.reset else h
  if h.entered.contains e then h else { h with entered := h.entered ++ [e], word := mergeWords h.word w }

/-- The hub once it has sent its entry upward. -/
def HubSt.close (h : HubSt) : HubSt := { h with closed := true, entered := [], owed := none, expired := false }

/-- The hub after a release: it awaits nothing; a barrier already gathering stays. -/
def HubSt.released (h : HubSt) : HubSt := if h.closed then HubSt.reset else h

/-- The hub holds an entry and has not closed: its timer runs. -/
def HubSt.timing (h : HubSt) : Bool := !h.closed && !h.entered.isEmpty

/-- The root releases the barrier once every region and every module of the sync group has entered, unless it failed
(R282, R283). -/
def State.tryRelease (s : State) (n : Nat) : State :=
  let x := s.slot n
  let all := (s.partRegions n).all (fun r => x.root.entered.contains (.region r)) &&
    x.sync.all (fun m => x.root.entered.contains (.module m))
  if x.root.failed || !all || x.root.entered.isEmpty then s
  else
    let halves := x.rect.regions.flatMap (fun r => [2 * r, 2 * r + 1])
    (s.setSlot n { x with root := .reset, parts := none, releases := x.releases + 1, summary := some x.root.word }).sendAll
      (halves.map (fun h => .barrierRelease n h))

/-- The outbox tiles of a region's cells that the reducer has not taken (R423). -/
def State.owedTiles (s : State) (n r : Nat) : List (Nat × Nat) :=
  ((s.slotCells n).filter (fun c => regionOf c == r)).flatMap (fun c => (s.cell c).outbox.map (fun j => (c, j)))

/-- The region station forwards its entry once the tiles owed when its last cell entered have been taken (R282, R423). -/
def State.tryForward (s : State) (n r : Nat) : State :=
  let x := s.rgn r
  match x.hub.owed with
  | some [] => (s.setRgn r { x with hub := { x.hub.close with word := x.word }, word := 0 }).send (.barrierEnter (.region r) n x.word)
  | _ => s

/-- A taken outbox tile is no longer owed (R423). -/
def State.paidTile (s : State) (c j : Nat) : State :=
  let r := regionOf c
  match (s.rgn r).hub.owed, s.slotOfCell c with
  | some l, some n =>
    (s.modRgn r (fun x => { x with hub := { x.hub with owed := some (l.filter (fun e => e != (c, j))) } })).tryForward n r
  | _, _ => s

def regMerge (s : State) (a : Nat) (w : BitVec 32) : State :=
  s.setRegF a 31 0 (mergeWords (BitVec.ofNat 32 (s.regF a 31 0)) w).toNat

/-- A cell's entry at its foreman (R191, R282). -/
def State.enterBlock (s : State) (n c : Nat) (w : BitVec 32) : State :=
  let f := fmOf c
  let s := regMerge s (Reg.fmnNumerics f) w
  let h := (s.fm f).hub.enter (.cell c) w
  if (s.blockParts n f).all (fun d => h.entered.contains (.cell d)) then
    (s.modFm f (fun x => { x with hub := h.close })).send (.barrierEnter (.block f) n h.word)
  else s.modFm f (fun x => { x with hub := h })

/-- A block's entry at its region station. -/
def State.enterRegion (s : State) (n : Nat) (f : FmId) (w : BitVec 32) : State :=
  let r := f.region
  let s := regMerge s (Reg.rgnNumerics r) w
  let x := s.rgn r
  let h := x.hub.enter (.block f) w
  let h := if h.owed.isNone && (s.partBlocks n r).all (fun g => h.entered.contains (.block g)) then
    { h with owed := some (s.owedTiles n r) } else h
  (s.setRgn r { x with word := mergeWords x.word w, hub := h }).tryForward n r

/-- A region's entry at the module root. With the last of them the module enters at the other modules of its sync group.
Log 36 (DESIGN CHOICE). -/
def State.enterRoot (s : State) (n r : Nat) (w : BitVec 32) : State :=
  let x := s.slot n
  let h := x.root.enter (.region r) w
  let s := s.setSlot n { x with root := h }
  let s := if (s.partRegions n).all (fun q => h.entered.contains (.region q)) then
      x.sync.foldl (fun s m => s.toModule m (.barrierEnter (.module s.moduleNo) n h.word)) s
    else s
  s.tryRelease n

/-- BARRIER_ENTER (R191, R281, R282). -/
def execBarrierEnter (e : Entrant) (n : Nat) (w : BitVec 32) (s : State) : Host.Outcome State Fault Refusal :=
  .next (
    let s := s.deliver (.barrierEnter e n w)
    let s := s.modSlot n (fun x => { x with parts := some (s.barrierCells n) })
    match e with
    | .cell c => s.enterBlock n c w
    | .block f => s.enterRegion n f w
    | .region r => s.enterRoot n r w
    | .module m => (s.modSlot n (fun x => { x with root := x.root.enter (.module m) 0 })).tryRelease n)

/-- BARRIER_RELEASE at the cells, foremen and region of one clock half (R31, R128, R195, R282, R298). -/
def State.releaseHalf (s : State) (n half : Nat) : State :=
  let x := s.slot n
  let r := half / 2
  let s := { s with
    cells := s.cells.map (fun e =>
      let y := e.2
      if halfOf e.1 = half && y.configured && y.looper != .snag && y.resetting.isNone then
        (e.1, if y.testing.isSome then { y with heldPass := y.heldPass + 1 } else { y with passed := y.passed + 1 })
      else e),
    fms := s.fms.map (fun e =>
      if fmHalf (fmOfKey e.1) = half && e.2.configured then (e.1, { e.2.queueRelease x.releases with hub := e.2.hub.released })
      else e) }
  let s := ((regionFms r).filter (fun f => fmHalf f == half && (s.fm f).configured)).foldl
    (fun s f => s.addReg (Reg.fmnBarrierStatus f) 63 32 1) s
  if half % 2 = 0 then
    let y := s.rgn r
    let a := Reg.rgnXchgStall r
    let s := s.setReg (Reg.rgnNumericsLast r)
      (BitVec.ofNat 64 (field 63 32 (s.regF (Reg.rgnNumericsLast r) 63 32 + 1) + field 31 0 y.hub.word.toNat))
    let s := s.setReg a (BitVec.ofNat 64 (field 15 0 (min y.slips 0xFFFF)))
    let s := if y.synced then s.freeCount a 63 40 else s
    let s := if y.waited then s.freeCount a 39 16 else s
    s.setRgn r { y with hub := y.hub.released, slips := 0, synced := false, waited := false }
  else s

/-- The step record that the ranger writes at a release (R605). -/
def State.stepRecord (s : State) (n : Nat) : State :=
  let x := s.slot n
  match x.summary with
  | some w =>
    let rec' : StepRec := ⟨x.releases, s.stepP n + 1, w, false, decide (0 < s.regF (Reg.fltJob n) 31 24), false⟩
    s.setSlot n { x with summary := none, records := (rec' :: x.records).take 1024 }
  | none => s

/-! ## Timeouts (R283) -/

/-- The barrier fails: the root sends BARRIER_FAIL once. Log 35 (DEDUCED). -/
def State.failBarrier (s : State) (n : Nat) : State :=
  let x := s.slot n
  if x.root.failed then s
  else (s.setSlot n { x with root := { x.root with failed := true } }).send (.barrierFail n)

/-- A foreman whose hub has not closed and whose barrier failed: it raises 0x2001 once, records its missing cells and fences
them. -/
def State.probeForeman (s : State) (n : Nat) (f : FmId) : State :=
  let x := s.fm f
  let s := s.setFm f { x with hub := { x.hub with answered := true } }
  let miss := if x.hub.closed then [] else (s.blockParts n f).filter (fun c => !x.hub.entered.contains (.cell c))
  match miss with
  | [] => s
  | c :: _ =>
    if x.hub.expired then s
    else
      let s := s.modFm f (fun x => { x with hub := { x.hub with expired := true } })
      let s := (s.satReg (Reg.fmnBarrierStatus f) 31 16 1).setReg (Reg.fmnBarrierMissing f)
        (BitVec.ofNat 64 (miss.foldl (fun a c => a + 2 ^ posOf c) 0))
      let s := s.raise 0x2001 (some n) c miss.length (s.posOfCell c)
      miss.foldl State.fenceBy s

/-- A probe, or the expiry, at a region station: probes go down to the blocks that are missing. -/
def State.probeRegion (s : State) (n r : Nat) : State :=
  let x := s.rgn r
  if x.hub.closed || x.hub.expired || x.hub.owed.isSome then s
  else
    let miss := (s.partBlocks n r).filter (fun f => !x.hub.entered.contains (.block f))
    let s := (s.setRgn r { x with hub := { x.hub with expired := true } }).satReg (Reg.rgnBarrierStatus r) 63 32 1
    let s := s.setRegF (Reg.rgnBarrierStatus r) 29 0 0
    miss.foldl (fun s f =>
      (s.modFm f (fun y => { y with hub := { y.hub with answered := false } })).send (.barrierProbe (.foreman f) n)) s

/-- The expiry at the module root: a missing region that has lost its power and a missing module of the sync group raise
0x4001; probes go down to the other missing regions. -/
def State.probeRoot (s : State) (n : Nat) : State :=
  let x := s.slot n
  let s := s.setSlot n { x with root := { x.root with expired := true } }
  let miss := (s.partRegions n).filter (fun r => !x.root.entered.contains (.region r))
  let mods := x.sync.filter (fun m => !x.root.entered.contains (.module m))
  let s := miss.foldl (fun s r =>
    if (s.rgn r).dark then s.raise 0x4001 (some n) r 0 else s.send (.barrierProbe (.region r) n)) s
  mods.foldl (fun s m => s.raise 0x4001 (some n) m 0) s

def State.probe (s : State) (n : Nat) : Hub → State
  | .foreman f => s.probeForeman n f
  | .region r => s.probeRegion n r
  | .root => s.probeRoot n

/-- The hub's timer runs for a barrier it has not closed (R283). -/
def State.hubTiming (s : State) (n : Nat) : Hub → Bool
  | .foreman f => (s.fm f).hub.timing && !(s.fm f).hub.expired
  | .region r => (s.rgn r).hub.timing && !(s.rgn r).hub.expired
  | .root => (s.slot n).root.timing && !(s.slot n).root.expired

/-- BARRIER_TIMER_EXPIRY: the barrier fails at a hub that has not closed (R283, R284). Log 35 (DEDUCED). -/
def execBarrierTimerExpiry (h : Hub) (n : Nat) (s : State) : Host.Outcome State Fault Refusal :=
  .next (if s.hubTiming n h then (s.probe n h).failBarrier n else s)

/-- BARRIER_PROBE (R283). -/
def execBarrierProbe (h : Hub) (n : Nat) (s : State) : Host.Outcome State Fault Refusal :=
  .next ((s.deliver (.barrierProbe h n)).probe n h)

/-- PROBE_ANSWER_TIMEOUT: a foreman that has not answered its probe within 10 µs is silent (R283). Log 35 (DEDUCED). -/
def execProbeAnswerTimeout (f : FmId) (_ : Nat) (s : State) : Host.Outcome State Fault Refusal :=
  .next (
    let x := s.fm f
    if x.hub.answered then s
    else
      let a := Reg.rgnBarrierStatus f.region
      let s := s.setFm f { x with hub := { x.hub with answered := true } }
      (s.setReg a (s.reg a ||| BitVec.ofNat 64 (2 ^ f.block))).raiseRgn 0x3001 f.region 0 f.block)

/-- BARRIER_FAIL: the slot's hubs that gather report FAILED; entered participants stay held (R283, R299). -/
def execBarrierFail (n : Nat) (s : State) : Host.Outcome State Fault Refusal :=
  .next (
    let s := s.deliver (.barrierFail n)
    let s := s.modSlot n (fun x => { x with root := { x.root with failed := true } })
    (s.slotFms n).foldl (fun s f => s.modFm f (fun x => { x with hub := { x.hub with failed := true } })) s)

/-- The barrier state of a slot begun anew, at a load or a job's start. -/
def State.clearBarriers (s : State) (n : Nat) : State :=
  let s := s.modSlot n (fun x => { x with parts := none, root := .reset, summary := none })
  let s := (s.slotFms n).foldl (fun s f => s.modFm f (fun x => { x with hub := .reset })) s
  (s.slot n).rect.regions.foldl (fun s r => s.modRgn r (fun x => { x with hub := .reset, word := 0 })) s

/-! ## Other trail messages -/

/-- WINDOW_FLAG: the flag is set or cleared at every cell of the slot (R106, R528). -/
def execWindowFlag (n flag : Nat) (on : Bool) (s : State) : Host.Outcome State Fault Refusal :=
  .next ((s.deliver (.windowFlag n flag on)).modSlot n (fun x =>
    { x with wflags := setBits flag flag (ofBool on) x.wflags }))

/-- NUMERICS_NOTICE: merged into the block word and passed to the region controller, without a count (R191, R192). -/
def execNumericsNotice (c : Nat) (w : BitVec 32) (s : State) : Host.Outcome State Fault Refusal :=
  .next (
    let s := s.deliver (.numericsNotice c w)
    let s := regMerge (regMerge s (Reg.fmnNumerics (fmOf c)) w) (Reg.rgnNumerics (regionOf c)) w
    s.modRgn (regionOf c) (fun x => { x with word := mergeWords x.word w }))

/-- TALLY_REPLY: the value reaches the ranger (R32). -/
def execTallyReply (c index : Nat) (value : Word) (s : State) : Host.Outcome State Fault Refusal :=
  .next (
    let s := s.deliver (.tallyReply c index value)
    { s with tallyLast := s.tallyLast.put (c * 16 + index) value })

end Sys2Proof.Machine
end

