-- ==== Sys2Proof/Machine/Skidder.lean ====
section
/-! DEFINITION. The skidder: stream programs, reads, gathered slabs, list merges, lanes, landings and faults (R301 to R336),
and the regions' starvation samples (R326, R327). -/

namespace Sys2Proof.Machine

open Sys2Proof

/-! ## Stream entries (R306) -/

abbrev StreamEntry := BitVec 256

def StreamEntry.op (e : StreamEntry) : Nat := bits 255 252 e
def StreamEntry.wfmt (e : StreamEntry) : Nat := bits 251 246 e
def StreamEntry.cols (e : StreamEntry) : Nat := 8 * 2 ^ bits 245 244 e
def StreamEntry.kind (e : StreamEntry) : Nat := bits 243 243 e
def StreamEntry.slot (e : StreamEntry) : Nat := bits 242 242 e
def StreamEntry.alternate (e : StreamEntry) : Bool := bit 241 e
def StreamEntry.sparseOk (e : StreamEntry) : Bool := bit 240 e
def StreamEntry.prefetch (e : StreamEntry) : Nat := bits 237 232 e
def StreamEntry.handle (e : StreamEntry) : Nat := bits 231 208 e
def StreamEntry.offset (e : StreamEntry) : Nat := bits 207 172 e
def StreamEntry.target (e : StreamEntry) : Nat := bits 184 172 e
def StreamEntry.first (e : StreamEntry) : Nat := bits 171 154 e
def StreamEntry.last (e : StreamEntry) : Nat := bits 153 136 e
def StreamEntry.fills (e : StreamEntry) : Nat := bits 135 120 e + 1
def StreamEntry.perFill (e : StreamEntry) : Nat := bits 119 113 e + 1
def StreamEntry.slabTag (e : StreamEntry) : Nat := bits 112 97 e
def StreamEntry.listTag (e : StreamEntry) : Nat := bits 96 81 e
def StreamEntry.granule (e : StreamEntry) : Nat := bits 93 81 e
def StreamEntry.cap (e : StreamEntry) : Nat := bits 80 65 e
def StreamEntry.nLayer (e : StreamEntry) : Nat := bits 64 49 e
def StreamEntry.kchunks (e : StreamEntry) : Nat := bits 48 33 e
def StreamEntry.recHandle (e : StreamEntry) : Nat := bits 32 9 e
def StreamEntry.recSlot (e : StreamEntry) : Nat := bits 8 0 e

def StreamSt.entryAt (x : StreamSt) (k : Nat) : StreamEntry := x.prog.getD k 0

/-- The cells of the rectangle from one cell to another in row-major order. -/
def rectCells (first last : Nat) : List Nat :=
  (List.range (rowOf last + 1 - rowOf first)).flatMap (fun r =>
    (List.range (colOf last + 1 - colOf first)).map (fun c => cellAt (rowOf first + r) (colOf first + c)))

def cellsOverlap (a b c d : Nat) : Bool :=
  decide (rowOf a ≤ rowOf d) && decide (rowOf c ≤ rowOf b) && decide (colOf a ≤ colOf d) && decide (colOf c ≤ colOf b)

/-! ## The deck (R301, R310) -/

def deckBytes : Nat := 33554432

/-- The regions of a slot in a wing. -/
def State.wingRegions (s : State) (n w : Nat) : Nat :=
  if s.occupied n then ((s.slot n).rect.regions.filter (fun r => wingOf r == w)).length else 0

/-- A slot's share of a wing's deck. -/
def State.deckShare (s : State) (n w : Nat) : Nat :=
  let all := ((List.range 8).map (fun k => s.wingRegions k w)).sum
  if all = 0 then 0 else deckBytes * s.wingRegions n w / all

/-- The bytes that a slot's fills hold in a wing's deck. -/
def StreamSt.heldIn (x : StreamSt) (w : Nat) : Nat :=
  ((x.deck.filter (fun f => wingOf (regionOf f.first) == w)).map (fun f => f.bytes.length)).sum

/-! ## References and stopping (R304, R330, R331) -/

/-- Read references of an entry on its objects raised or dropped. -/
def State.refObj (s : State) (h : Nat) (up : Bool) : State :=
  s.modObj h (fun o => { o with refs := if up then min 255 (o.refs + 1) else o.refs - 1 })

def State.entryRefs (s : State) (e : StreamEntry) (up : Bool) : State :=
  let s := s.refObj e.handle up
  if (e.op = 2 ∨ e.op = 3) ∧ e.recHandle ≠ 0 then s.refObj e.recHandle up else s

def State.dropRefs (s : State) (n : Nat) : State :=
  (s.stream n).opens.foldl (fun s o => if o.refs then s.entryRefs ((s.stream n).entryAt o.index) false else s) s

/-- The program stops reading: its open entries end; with `all` every fill leaves the deck, else those whose delivery has
begun stay (R330, R331). Log 51 (DESIGN CHOICE). -/
def State.stopStream (s : State) (n : Nat) (st : StreamState) (all : Bool) : State :=
  let s := s.dropRefs n
  s.modStream n (fun x =>
    { x with state := st, opens := [], ending := false,
             deck := if all then [] else x.deck.filter (fun f => !f.lanes.isEmpty) })

/-- A stop as SKD_CTRL gives it (R331). -/
def State.skdStop (s : State) (n : Nat) : State :=
  match (s.stream n).state with
  | .running => s.stopStream n .stopped false
  | .waitList => s.stopStream n .stopped false
  | _ => s

/-- The program returns to IDLE without deck contents or held lists: region and partition resets, Chrysalis, load step 3
(R331). Log 125 (DEDUCED). -/
def State.clearStream (s : State) (n : Nat) : State :=
  (s.stopStream n .idle true).modStream n (fun x => { x with pc := 0, loops := [], lists := [] })

/-- The program starts at entry 0 (R313). -/
def State.startStream (s : State) (n : Nat) : State :=
  let s := s.clearStream n
  s.modStream n (fun x => if x.prog.isEmpty then x else { x with state := .running })

/-- A skidder fault halts the program (R330, R333). -/
def State.skdFault (s : State) (n code entry : Nat) : State :=
  let h := ((s.stream n).entryAt entry).handle
  let s := s.setReg Reg.skdFault (BitVec.ofNat 64 (field 63 40 h + field 39 27 entry + field 26 24 n + field 15 0 code))
  (s.stopStream n .halted true).raise code (some n) h entry

/-! ## Reaching an entry (R307, R310, R313) -/

/-- The innermost LOOP whose span holds entry `k`. -/
def StreamSt.innerLoop (x : StreamSt) (k : Nat) : Option Nat :=
  ((List.range x.prog.length).filter (fun l =>
    (x.entryAt l).op == 5 && decide ((x.entryAt l).target ≤ k) && decide (k ≤ l))).head?

/-- The iteration index of the innermost open loop at entry `k`, 0 outside loops (R313). -/
def StreamSt.iterAt (x : StreamSt) (k : Nat) : Nat :=
  match x.innerLoop k with
  | some l => ((x.loops.find? (fun e => e.1 == l)).map (fun e => e.2.1)).getD 0
  | none => 0

/-- No open entry has fills left to read but those that wait for a list. -/
def StreamSt.mayOpen (x : StreamSt) : Bool := x.opens.all (fun o => o.needsList && o.list.isNone)

/-- The merged list of a tag, in its full capacity. -/
def HeldList.full (l : HeldList) (cap : Nat) : List Nat := l.cands ++ List.replicate (cap - l.cands.length) 0xFFFF

/-- The program runs: RUNNING, or WAIT_LIST while an entry waits. -/
def StreamSt.runs (x : StreamSt) : Bool := x.state == .running || x.state == .waitList

/-- The live state while running: WAIT_LIST when an open entry waits for its list. -/
def StreamSt.refresh (x : StreamSt) : StreamSt :=
  if x.runs then { x with state := if x.opens.any (fun o => o.needsList && o.list.isNone) then .waitList else .running } else x

/-- An entry opened for reading. A GATHER whose list is merged already takes it. Log 51 (DESIGN CHOICE), 106 (DEDUCED). -/
def State.openEntry (s : State) (n : Nat) (needsList : Bool) (list : Option (List Nat)) (kind : Nat := 0) : State :=
  s.modStream n (fun x =>
    let e := x.entryAt x.pc
    ({ x with pc := x.pc + 1,
              opens := x.opens ++ [{ index := x.pc, iter := x.iterAt x.pc, read := 0, fills := e.fills, pos := e.offset,
                                     refs := false, needsList := needsList, list := list, kind := kind }] } : StreamSt).refresh)

/-- The program's next entry offered as operation `op`. -/
def State.streamStep (s : State) (n op : Nat) (act : State → StreamEntry → State) : State :=
  let x := s.stream n
  if x.runs && decide (x.pc < x.prog.length) && (x.entryAt x.pc).op == op && x.mayOpen && !x.ending then
    act s (x.entryAt x.pc)
  else s

/-! ## Active-set records (R258, R319) -/

/-- The byte offset of a record in its object: slots of one list of `cap` entries each.
Log 51 (DESIGN CHOICE), 158 (DEDUCED). -/
def recordAt (slot cap : Nat) : Nat := slot * (16 + 2 * cap)

/-- STREAM_DELIVER (R308). -/
def execStreamDeliver (n : Nat) (s : State) : Host.Outcome State Fault Refusal :=
  .next (s.streamStep n 1 (fun s _ => s.openEntry n false none))

/-- STREAM_NEAR (R321). -/
def execStreamNear (n : Nat) (s : State) : Host.Outcome State Fault Refusal :=
  .next (s.streamStep n 4 (fun s _ => s.openEntry n false none))

/-- STREAM_GATHER: the entry waits for the merged list of its tag, or takes it (R317, R318). -/
def execStreamGather (n : Nat) (s : State) : Host.Outcome State Fault Refusal :=
  .next (s.streamStep n 2 (fun s e =>
    match (s.stream n).lists.find? (fun l => l.tag == e.listTag && l.merged) with
    | some l => (s.modStream n (fun x => { x with lists := x.lists.erase l })).openEntry n true (some (l.full e.cap)) l.kind
    | none => s.openEntry n true none))

/-- STREAM_RECORDED: the list is read from the record and checked (R258, R319); a record that cannot be read is a tier
fault. -/
def execStreamRecorded (n : Nat) (s : State) : Host.Outcome State Fault Refusal :=
  .next (s.streamStep n 3 (fun s e =>
    let x := s.stream n
    let at_ := recordAt (e.recSlot + x.iterAt x.pc) e.cap
    let len := 16 + 2 * e.cap
    match s.obj e.recHandle with
    | none => s.skdFault n 0x4023 x.pc
    | some o =>
      if o.extents * extentBytes < at_ + len then (s.yrdRaise 0x4032 e.recHandle 0).skdFault n 0x4023 x.pc
      else if s.objBadV e.recHandle o at_ len then s.skdFault n 0x4023 x.pc
      else
        let bs := s.objReadV e.recHandle o at_ len
        let h := ofLE (bs.take 16)
        let good := (crc32c (bs.drop 4)).toNat == leAt bs 0 4 && natBits 127 112 h == e.listTag && natBits 68 53 h == e.cap
        if !good then s.skdFault n 0x4022 x.pc
        else
          (s.useObj e.recHandle).openEntry n true (some ((List.range e.cap).map (fun k => leAt bs (16 + 2 * k) 2))) e.kind))

/-- STREAM_LOOP: back to the target while returns remain, else on (R307). -/
def execStreamLoop (n : Nat) (s : State) : Host.Outcome State Fault Refusal :=
  .next (s.streamStep n 5 (fun s e => s.modStream n (fun x =>
    let done := ((x.loops.find? (fun l => l.1 == x.pc)).map (fun l => l.2.1)).getD 0
    let rest := x.loops.filter (fun l => l.1 != x.pc)
    if done < e.fills - 1 then { x with pc := e.target, loops := (x.pc, done + 1, e.fills - 1) :: rest }
    else { x with pc := x.pc + 1, loops := rest })))

/-- STREAM_END: the program is DONE (R313). Log 51 (DESIGN CHOICE). -/
def execStreamEnd (n : Nat) (s : State) : Host.Outcome State Fault Refusal :=
  .next (s.streamStep n 0xF (fun s _ =>
    if (s.stream n).opens.isEmpty then s.modStream n (fun x => { x with state := .done }) else s))

/-! ## Gathered slabs (R256, R314 to R316) -/

/-- A slab header with its check (R231). -/
def slabHeader (layout wfmt nCode units nnz kchunk colBase tag version dirCheck : Nat) : Bytes :=
  let v := field 255 254 layout + field 253 248 wfmt + field 247 246 nCode + field 244 244 1 + field 236 226 units +
    field 225 212 nnz + field 211 196 kchunk + field 195 172 colBase + field 171 156 tag + field 155 140 version +
    field 63 32 dirCheck
  let body := (toLE 32 v).drop 4
  toLE 4 (crc32c body).toNat ++ body

def padTo16 (bs : Bytes) : Bytes := bs ++ List.replicate (16 * ceilDiv bs.length 16 - bs.length) 0

/-- The empty slab of R256. Log 51 (DESIGN CHOICE). -/
def emptySlab (wfmt nCode kchunk colBase tag version : Nat) : Bytes :=
  let n := 8 * 2 ^ nCode
  let dir := (List.range n).flatMap (fun j => toLE 2 (field 13 8 j))
  slabHeader 1 wfmt nCode (ceilDiv (2 * n) 16) 0 kchunk colBase tag version (crc32c dir).toNat ++ padTo16 dir

/-- Fetched slab `q` of an entry, with its list read as `kind`; `rd` reads the source object (R256, R314 to R316).
Log 51 (DESIGN CHOICE). -/
def fetchedSlab (e : StreamEntry) (kind : Nat) (list : List Nat) (version q : Nat) (rd : Nat → Nat → Bytes) : Bytes :=
  let n := e.cols
  let b := wBytes e.wfmt
  let mx := decide (8 ≤ e.wfmt)
  let line := if mx then 80 else 64 * b
  let perK := e.cap / n
  let blocks := e.nLayer / n
  let chunk := if kind = 0 then q / max 1 perK else q / max 1 blocks
  let base := if kind = 0 then q % max 1 perK * n else q % max 1 blocks * n
  let pos := if kind = 0 then (List.range n).map (fun j => list.getD (base + j) 0xFFFF)
    else (List.range 64).map (fun k => list.getD (chunk * 64 + k) 0xFFFF)
  if e.sparseOk && pos.all (fun c => c == 0xFFFF) then
    emptySlab e.wfmt (bits 245 244 e) chunk base e.slabTag version
  else
    let cols : List (Bytes × Bytes) :=
      if kind = 0 then pos.map (fun c =>
        if c = 0xFFFF then (List.replicate (64 * b) 0, [0, 0])
        else
          let bs := rd (e.offset + (chunk * e.nLayer + c) * line) line
          (bs.take (64 * b), slice bs 64 2))
      else (List.range n).map (fun j => (pos.flatMap (fun r =>
        if r = 0xFFFF then List.replicate b 0 else rd (e.offset + r * e.nLayer * b + (base + j) * b) b), []))
    let scales := if mx then padTo16 (cols.flatMap (fun c => c.2)) else []
    let area := cols.flatMap (fun c => c.1)
    slabHeader 0 e.wfmt (bits 245 244 e) ((scales.length + area.length) / 16) (64 * n) chunk base e.slabTag version 0 ++
      scales ++ area

/-! ## Reading fills (R304, R305, R308, R310, R345, R358) -/

/-- The slot's units may reach an object: its owner's, or a shared one (R346). -/
def Obj.reachable (o : Obj) (n : Nat) : Bool := o.owner == n || o.shared

/-- The write hold keeps a first read of the object from starting (R434). Log 158 (DEDUCED). -/
def State.readHeld (s : State) (n h : Nat) : Bool :=
  (s.red n).layers.any (fun l => l.hold && (l.plan.slab == h || l.plan.master == h || l.plan.error == h))

/-- A prefetch entry's action (R358, R366). -/
def State.runPrefetch (s : State) (n : Nat) (p : Prefetch) : State :=
  match p.action with
  | 1 => (s.moveObj p.handle p.tier n true false).1
  | 2 => (s.moveObj p.handle p.tier n false false).1
  | 3 => (s.pinObj p.handle).1
  | 4 => (s.unpinObj p.handle).1
  | _ => s

def State.prefetches (s : State) (n entry : Nat) (after : Bool) : State :=
  ((s.stream n).prefetch.filter (fun p => p.entry == entry && p.after == after)).foldl (fun s p => s.runPrefetch n p) s

/-- An entry's first read: references, the prefetches of R358 and the automatic promotion of its object.
Log 51 (DESIGN CHOICE). -/
def State.firstRead (s : State) (n : Nat) (oe : OpenEntry) (e : StreamEntry) : State :=
  let s := (s.entryRefs e true).modStream n (fun x =>
    { x with opens := x.opens.map (fun o => if o.index = oe.index then { o with refs := true } else o) })
  let s := s.prefetches n oe.index false
  match s.obj e.handle with
  | some o =>
    (match o.prefer with
     | some t => if t < o.tier ∧ o.state = .resident then (s.moveObj e.handle t n true false).1 else s
     | none => s)
  | none => s

/-- The bytes of stored slabs from `off`: `k` consecutive ones, their total length; the fault that keeps them from being a
fill (R308, R330). `rd` reads the object, whose size is `size`. -/
def storedSlabs (size : Nat) (rd : Nat → Nat → Bytes) : Nat → Nat → Nat → Bytes → Except Nat Bytes
  | 0, _, _, acc => .ok acc
  | k + 1, off, total, acc =>
    if size < off + 32 then .error 0x4023
    else
      let h := rd off 32
      if (crc32c (h.drop 4)).toNat ≠ leAt h 0 4 then .error 0x4020
      else
        let len := 32 + 16 * natBits 236 226 (ofLE h)
        if 16384 < total + len then .error 0x4021
        else if size < off + len then .error 0x4023
        else storedSlabs size rd k (off + len) (total + len) (acc ++ rd off len)

/-- The bytes of the entry's next fill. -/
def State.fillBytes (s : State) (n : Nat) (oe : OpenEntry) (e : StreamEntry) (o : Obj) : Except Nat Bytes :=
  let size := o.extents * extentBytes
  let rd := fun a k => s.objReadV e.handle o a k
  match e.op with
  | 1 => storedSlabs size rd e.perFill oe.pos 0 []
  | 4 =>
    let len := e.cap * 64
    if size < oe.pos + len then .error 0x4023 else .ok (rd oe.pos len)
  | _ =>
    let ver := if o.param then s.stepP n else 0
    let b := wBytes e.wfmt
    let span := if oe.kind = 0 then e.kchunks * e.nLayer * (if 8 ≤ e.wfmt then 80 else 64 * b) else 0
    let rows := ((oe.list.getD []).filter (fun c => c != 0xFFFF)).foldl max 0
    let need := if oe.kind = 0 then span else (rows + 1) * e.nLayer * b
    if size < e.offset + need then .error 0x4023
    else
      let bs := (List.range e.perFill).flatMap (fun k =>
        fetchedSlab e oe.kind (oe.list.getD []) ver (oe.read * e.perFill + k) rd)
      if 16384 < bs.length then .error 0x4021 else .ok bs

/-- FILL_READ_START: the next fill of an entry is read (R305, R308, R310, R330, R358). -/
def execFillReadStart (n entry : Nat) (bad : Bool) (s : State) : Host.Outcome State Fault Refusal :=
  .next (
    let x := s.stream n
    match x.opens.find? (fun o => !(o.needsList && o.list.isNone)) with
    | none => s
    | some oe =>
      let e := x.entryAt oe.index
      let w := wingOf (regionOf e.first)
      let mine := (x.deck.filter (fun f => f.entry == oe.index)).length
      if oe.index ≠ entry ∨ !x.runs ∨ x.ending ∨ e.prefetch < mine ∨ s.deckShare n w < x.heldIn w + 16384 then s
      else if !oe.refs ∧ s.readHeld n e.handle then s
      else
        let s := if oe.refs then s else s.firstRead n oe e
        match s.obj e.handle with
        | none => (s.yrdRaise 0x4032 e.handle 0).skdFault n 0x4023 entry
        | some o =>
          if bad then (s.countBoard o.tier).skdFault n 0x4023 entry
          else if o.tier = 0 ∨ !o.reachable n then s.skdFault n 0x4023 entry
          else match s.fillBytes n oe e o with
            | .error code =>
              (if code = 0x4023 then s.yrdRaise 0x4032 e.handle (min (oe.pos / extentBytes) 262143) else s).skdFault n code entry
            | .ok bs =>
              if (e.op = 1 ∨ e.op = 4) ∧ s.objBadV e.handle o oe.pos bs.length then (s.countBoard o.tier).skdFault n 0x4023 entry
              else
                let slot := if e.alternate then (e.slot + oe.read) % 2 else e.slot
                let last := decide (oe.read + 1 = oe.fills)
                let f : Fill := { number := x.number, entry := entry, first := e.first, last := e.last, near := e.op == 4,
                                  slot := slot, granule := if e.op = 4 then e.granule else 0, bytes := bs, lanes := [],
                                  left := rectCells e.first e.last, late := false, final := last }
                let s := (s.addReg (Reg.skdBytes n) 63 0 bs.length).useObj e.handle
                let s := if last then s.entryRefs e false else s
                s.modStream n (fun x =>
                  { x with deck := x.deck ++ [f], number := x.number + 1,
                           opens := x.opens.flatMap (fun o =>
                             if o.index = entry then
                               (if last then [] else [{ o with read := o.read + 1, pos := o.pos + bs.length, refs := true }])
                             else [o]) }))

/-! ## Lists (R255, R258, R317 to R319) -/

/-- FETCH_LIST: a block's list reaches the skidder; a new tag waits while 16 are held, and a bad check is a fault (R318,
R319). -/
def execFetchList (f : FmId) (list : Bytes) (s : State) : Host.Outcome State Fault Refusal :=
  .next (match s.slotOfRegion f.region with
    | none => s.deliver (.fetchList f list)
    | some n =>
      let x := s.stream n
      let h := ofLE (list.take 16)
      let tag := natBits 127 112 h
      let old := x.lists.find? (fun l => l.tag == tag && !l.merged)
      if old.isNone && decide (16 ≤ x.lists.length) then s
      else
        let s := s.deliver (.fetchList f list)
        if (crc32c (list.drop 4)).toNat ≠ leAt list 0 4 then s.skdFault n 0x4022 x.pc
        else
          let got := ((List.range (natBits 84 69 h)).map (fun k => leAt list (16 + 2 * k) 2)).filter (fun c => c != 0xFFFF)
          let l : HeldList := old.getD ⟨tag, [], [], false, natBits 111 88 h, natBits 87 87 h, natBits 86 86 h, false⟩
          let m := { l with froms := l.froms ++ [f], cands := got.foldl (fun a c => insertAsc c a) l.cands,
                            trunc := l.trunc || bit 85 (BitVec.ofNat 128 h) }
          s.setStream n { x with lists := x.lists.filter (fun k => some k != old) ++ [m] })

/-- The GATHER entry that a tag's list is for: one that waits for it, else the next in the program. -/
def StreamSt.gatherOf (x : StreamSt) (tag : Nat) : Option Nat :=
  let is := fun k => (x.entryAt k).op == 2 && (x.entryAt k).listTag == tag
  match x.opens.find? (fun o => o.needsList && o.list.isNone && is o.index) with
  | some o => some o.index
  | none =>
    let ks := (List.range x.prog.length).filter is
    match ks.find? (fun k => decide (x.pc ≤ k)) with
    | some k => some k
    | none => ks.head?

/-- The contributors of a GATHER entry: the foremen of required blocks with a cell of its rectangle (R317). -/
def State.contributors (s : State) (n : Nat) (e : StreamEntry) : List FmId :=
  (s.slot n).rect.regions.flatMap (fun r => (regionFms r).filter (fun f =>
    s.requiredCell n (blockCell f) && cellsOverlap (blockCell f) (cellOfPos f 63) e.first e.last))

/-- LIST_MERGE: once every contributor's list is held they merge; the count returns to each and the list is recorded and
given to the entry that waits (R255, R258, R317). Log 51 (DESIGN CHOICE). -/
def execListMerge (n tag : Nat) (s : State) : Host.Outcome State Fault Refusal :=
  .next (
    let x := s.stream n
    match x.lists.find? (fun l => l.tag == tag && !l.merged), x.gatherOf tag with
    | some l, some k =>
      let e := x.entryAt k
      let who := s.contributors n e
      if !who.all (fun f => l.froms.contains f) then s
      else
        let trunc := l.trunc || decide (e.cap < l.cands.length)
        let m := { l with cands := l.cands.take e.cap, trunc := trunc, merged := true }
        let s := s.sendAll (who.map (fun f => .countReturn f tag m.cands.length))
        let s := (s.addReg (Reg.skdLists n) 31 0 1).satReg (Reg.skdLists n) 47 32 (ofBool trunc)
        let waits := x.opens.find? (fun o => o.index == k && o.needsList && o.list.isNone)
        let iter := (waits.map (fun o => o.iter)).getD (x.iterAt k)
        let bytes := fetchListBytes tag m.stepTag m.kind m.source (ofBool trunc) e.cap (m.full e.cap)
        let s := if e.recHandle = 0 then s
          else match s.obj e.recHandle with
            | some o =>
              let at_ := recordAt (e.recSlot + iter) e.cap
              if o.extents * extentBytes < at_ + bytes.length then (s.yrdRaise 0x4032 e.recHandle 0).skdFault n 0x4023 k
              else (s.objWriteV e.recHandle at_ bytes).useObj e.recHandle
            | none => (s.yrdRaise 0x4032 e.recHandle 0).skdFault n 0x4023 k
        s.modStream n (fun x =>
          let x := { x with lists := x.lists.filter (fun q => q != l) ++ (if waits.isSome then [] else [m]) }
          ({ x with opens := x.opens.map (fun o =>
              if waits.isSome ∧ o.index = k then { o with list := some (m.full e.cap), kind := m.kind } else o) } : StreamSt).refresh)
    | _, _ => s)

/-! ## Lanes and landings (R303, R309, R311, R320 to R325) -/

/-- The cell's landing discards: a snag, a cell that is not configured, or one in a reset (R324, R617). -/
def CellSt.discards (x : CellSt) : Bool := x.looper == .snag || !x.configured || x.resetting.isSome

/-- Fill `f` of a region may take a lane: its slot is clear in every target cell of the region, and no earlier fill to a
common target and slot is still on its way. -/
def State.laneClear (s : State) (r : Nat) (older : List Fill) (f : Fill) : Bool :=
  (f.left.filter (fun c => regionOf c == r)).all (fun c =>
    (s.cell c).discards || (!(s.cell c).valid f.slot && !older.any (fun g => g.left.contains c && g.slot == f.slot)))

/-- The fills of all slots that wait for a lane of a region, oldest first within a slot. -/
def State.laneWaiters (s : State) (r : Nat) : List (Nat × Fill) :=
  (List.range 8).flatMap (fun n => ((s.stream n).deck.filter (fun f =>
    !f.lanes.contains r && f.left.any (fun c => regionOf c == r))).map (fun f => (n, f)))

/-- The lanes of a region in use (R302). -/
def State.lanesUsed (s : State) (r : Nat) : Nat :=
  ((List.range 8).map (fun n => ((s.stream n).deck.filter (fun f =>
    f.lanes.contains r && f.left.any (fun c => regionOf c == r))).length)).sum

/-- FILL_LANE_ASSIGN: a free lane goes to the oldest waiting fill whose target slot is clear in every target cell of the
region (R303). -/
def execFillLaneAssign (r : Nat) (s : State) : Host.Outcome State Fault Refusal :=
  .next (
    if 8 ≤ s.lanesUsed r then s
    else match (s.laneWaiters r).find? (fun e =>
        s.laneClear r ((s.stream e.1).deck.filter (fun g => decide (g.number < e.2.number))) e.2) with
      | some (n, f) => s.modStream n (fun x =>
          { x with deck := x.deck.map (fun g => if g.number = f.number then { g with lanes := g.lanes ++ [r] } else g) })
      | none => s)

/-- A fill's last byte written in one target: the slot's bytes and valid bit, or near SRAM and the arrival marker (R321). -/
def CellSt.land (x : CellSt) (f : Fill) : CellSt :=
  if x.discards then x
  else if f.near then ({ x with near := x.near.write (f.granule * 64) f.bytes } : CellSt).setValid f.slot true
  else (x.setLand f.slot (splice (x.landSlot f.slot) 0 f.bytes)).setValid f.slot true

/-- The target's looper is held at a landing gate on the slot (R325). -/
def State.gatedOn (s : State) (c k : Nat) : Bool :=
  let x := s.cell c
  let b := x.stepAt x.pc
  x.looper == .running && x.fault.isNone && x.stopping.isNone && !x.discards && s.heldBy c b == some 3 &&
    (landSlots x b).contains k && !x.valid k

/-- FILL_LANDED: a fill reaches one target cell, in program order among overlapping fills; a failed parity is a mains fault
(R311, R320, R321, R324, R325). The fill leaves the deck with its last target. -/
def execFillLanded (n number c : Nat) (parityBad : Bool) (s : State) : Host.Outcome State Fault Refusal :=
  .next (
    let x := s.stream n
    match x.deck.find? (fun f => f.number == number) with
    | none => s
    | some f =>
      if !f.left.contains c ∨ !f.lanes.contains (regionOf c) ∨
          x.deck.any (fun g => decide (g.number < number) && g.left.contains c) then s
      else if parityBad then s.skdFault n 0x4024 f.entry
      else
        let late := s.gatedOn c f.slot && !f.late
        let s := if late then s.satReg (Reg.skdLate n) 62 32 1 else s
        let s := s.modCell c (fun y => y.land f)
        let g := { f with left := f.left.erase c, late := f.late || late }
        if g.left.isEmpty then
          let s := (s.modStream n (fun x => { x with deck := x.deck.filter (fun h => h.number != number) })).addReg
            (Reg.skdProg n) 31 0 1
          if f.final then s.prefetches n f.entry true else s
        else s.modStream n (fun x => { x with deck := x.deck.map (fun h => if h.number = number then g else h) }))

/-- A write of SKD_CTRL: stop (R331, R332). -/
def State.skdCtrl (s : State) (value : Word) : State :=
  ((List.range 8).filter (fun n => bit n value)).foldl State.skdStop s

/-! ## Starvation (R326, R327) -/

/-- One region's sample at a tick. -/
def State.sampleStarve (s : State) (r : Nat) : State :=
  let x := s.rgn r
  let held := (s.cells.filter (fun e => regionOf e.1 == r && ((List.range 2).any (fun k => s.gatedOn e.1 k)))).map
    (fun e => (e.1, e.2.execNo))
  let starved := held.any (fun e => x.gated.contains e)
  if starved then
    let run := x.run + 1
    let s := s.satReg (Reg.rgnStarve r) 31 0 1
    let ask := decide (16 ≤ run) && !x.asking
    let s := if ask then s.satReg (Reg.rgnStarve r) 47 32 1 else s
    s.setRgn r { x with gated := held, run := run, asking := x.asking || ask }
  else s.setRgn r { x with gated := held, run := 0, asking := false }

def State.sampleStarves (s : State) : State :=
  (List.range 72).foldl (fun s r => if s.cells.any (fun e => regionOf e.1 == r) then s.sampleStarve r else s) s

end Sys2Proof.Machine
end

