-- ==== Sys2Proof/Machine/Skyline.lean ====
section
/-! DEFINITION. The skyline's receiver, its acknowledgements and replay (R458, R460), what stations check on the way in (R453,
R462), and training, retraining and loss of a port (R461, R469, R470, R474). Admission is in Admission. -/

namespace Sys2Proof.Machine

open Sys2Proof

/-! ## Port status (R474) -/

def PortState.code : PortState → Nat
  | .dark => 0
  | .training => 1
  | .up => 2
  | .admitted => 3
  | .retrain => 4
  | .down => 5
  | .quiesced => 6
  | .idleLp => 7

def SkyPort.active (x : SkyPort) : Nat := ((List.range 16).filter (fun k => bit k x.lanes)).length

/-- A port that comes up carries the credits of R460 and begins its sequence anew. -/
def SkyPort.comeUp (x : SkyPort) : SkyPort :=
  { SkyPort.reset with state := .up, lanes := ~~~ x.mapped, mapped := x.mapped, credits := (2048, 2048, 64),
                       mesh := x.mesh, meshIn := x.meshIn, tiles := x.tiles }

/-- A port that goes down loses its replay buffer; the flits held for it wait (R461). -/
def SkyPort.goDown (x : SkyPort) (st : PortState) : SkyPort :=
  { x with state := st, replay := [], lanes := 0, tileIn := [], tileBusy := false, nakHeld := none, leaving := false }

/-- The peer field of SKY_PORT_STATUS is the partner's module number while ADMITTED. -/
def State.clearPeer (s : State) (p : Nat) : State := s.setRegF (Reg.skyPortStatus p) 47 32 0

/-- A port goes DOWN and raises 0x4061 (R461). -/
def State.portDown (s : State) (p : Nat) : State :=
  ((s.modSky p (fun x => x.goDown .down)).clearPeer p).raise 0x4061 none p 0

/-- Lanes that fail the test are mapped out, each raising 0x4060 (R461, R474). -/
def State.mapLanes (s : State) (p : Nat) (failing : List Nat) : State :=
  failing.foldl (fun s k =>
    let x := s.sky p
    if 15 < k ∨ bit k x.mapped then s
    else
      let m := BitVec.ofNat 16 (2 ^ k)
      ((s.setSky p { x with mapped := x.mapped ||| m, lanes := x.lanes &&& ~~~ m }).satReg (Reg.skyLinkErrors p) 47 32 1).raise
        0x4060 none p k) s

/-! ## Replay (R458, R461) -/

/-- Port `p` enters RETRAIN (R461). -/
def State.enterRetrain (s : State) (p : Nat) : State :=
  let x := s.sky p
  (s.setSky p { x with state := .retrain, back := x.state, tries := 0, resent := (0, 0) }).satReg (Reg.skyLinkErrors p) 62 48 1

/-- The replay buffer without the flits that `ack` acknowledges. -/
def dropAcked (ack : Nat) (l : List SkyFlit) : List SkyFlit :=
  match l.findIdx? (fun f => skySeq f == ack) with
  | some k => l.drop (k + 1)
  | none => l

/-- The replay buffer sent again in order; one sequence number replayed 8 times begins a retrain (R458, R461). -/
def State.replayAll (s : State) (p : Nat) : State :=
  let x := s.sky p
  match x.replay with
  | [] => s
  | f :: _ =>
    let n := if x.resent.1 = skySeq f then x.resent.2 + 1 else 1
    let s := x.replay.foldl (fun s g => s.emit (.sky p g)) (s.setSky p { x with resent := (skySeq f, n) })
    if 8 ≤ n then s.enterRetrain p else s

/-! ## Receiving (R453, R458, R460, R462) -/

/-- The mesh flits that wait to enter routers do so while the station's link to each router holds a credit (R453); each
frees a receive buffer. Log 34 (DESIGN CHOICE). -/
def State.drainIn (s : State) (p : Nat) : State :=
  let e := (attachment p).1
  (s.sky p).meshIn.foldl (fun s g =>
    if s.inUse g.1 (stationKey e) < 16 then
      let s := s.setUse g.1 (stationKey e) (s.inUse g.1 (stationKey e) + 1)
      let s := s.modSky p (fun x => { x with freed := (x.freed.1 + 1, x.freed.2) })
      s.send (.flitArrive g.1 e g.2 false)
    else s.modSky p (fun x => { x with meshIn := x.meshIn ++ [g] }))
    (s.modSky p (fun x => { x with meshIn := [] }))

/-- The destination's slot holds the port, or no slot holds the destination (R40). -/
def State.portAllowed (s : State) (p dest : Nat) : Bool :=
  match s.slotOfCell dest with
  | some n => bit p (s.slot n).ports
  | none => true

/-- A mesh flit delivered by station `p` to its attachment cell (R453); a failed parity discards and counts it and raises
0x4063 (R462). Log 37 (DESIGN CHOICE). -/
def State.meshIn (s : State) (p : Nat) (f : Flit) : State :=
  let free := fun (s : State) => s.modSky p (fun x => { x with freed := (x.freed.1 + 1, x.freed.2) })
  if !sbGood f.sideband then free ((s.satReg (Reg.skyHeld p) 31 0 1).raise 0x4063 none p 0)
  else if !s.portAllowed p (sbDest f.sideband) then free (s.satReg (Reg.skyHeld p) 31 0 1)
  else
    let g := flitLanded f
    let s := if sbLast g.sideband then { s with foreign := s.foreign ++ [sbKey g.sideband] } else s
    (s.modSky p (fun x => { x with meshIn := x.meshIn ++ [(exitCell p (sbSrc f.sideband), g)] })).drainIn p

/-- The tile in reception with 240 more bytes; the whole tile once its last flit is there (R455). A tile starts with its
header. -/
def State.tileIn (s : State) (p : Nat) (bs : Bytes) : State × Option Bytes :=
  let x := s.sky p
  let got := x.tileIn ++ bs
  let need := 32 + (tileHdrOf (slice got 0 32)).length
  let s := s.setSky p { x with freed := (x.freed.1, x.freed.2.1 + 1, x.freed.2.2) }
  if got.length < need then (s.modSky p (fun x => { x with tileIn := got }), none)
  else (s.modSky p (fun x => { x with tileIn := [] }), some (got.take need))

/-- A flit that arrives on a linked port: acknowledgement, nak and credits first, then the flit itself (R458). A sequence
number among the 2,048 ahead of the expected one is a gap, one behind it a flit that had come before. Log 146 (DEDUCED). -/
def State.skyReceive (s : State) (p : Nat) (f : SkyFlit) : State × Option Bytes :=
  let x := s.sky p
  let nak := fun (s : State) =>
    if (s.sky p).nakSent then s
    else ((s.modSky p (fun x => { x with nakSent := true })).satReg (Reg.skyLinkErrors p) 31 0 1).sendSky p 0 0 [] true
  if x.state = .retrain then
    (if skyGood f ∧ skyNak f then s.setSky p { x with nakHeld := some (skyAck f) } else s, none)
  else if !x.state.linked then (s, none)
  else if !skyGood f then (nak s, none)
  else
    let cr := match skyVc f with
      | 0 => (x.credits.1 + skyCredit f, x.credits.2)
      | 1 => (x.credits.1, x.credits.2.1 + skyCredit f, x.credits.2.2)
      | 2 => (x.credits.1, x.credits.2.1, x.credits.2.2 + skyCredit f)
      | _ => x.credits
    let s := s.setSky p { x with replay := dropAcked (skyAck f) x.replay, credits := cr }
    let s := if skyNak f then s.replayAll p else s
    let r : State × Option Bytes :=
      if skyType f = 0 then (s, none)
      else if skySeq f ≠ (s.sky p).expect then
        (if (skySeq f + 4096 - (s.sky p).expect) % 4096 < 2048 then nak s else s, none)
      else
        let s := (s.modSky p (fun x => { x with expect := (x.expect + 1) % 4096, nakSent := false, owed := x.owed + 1 })).addReg
          (Reg.skyRx p) 63 0 1
        let r : State × Option Bytes := match skyType f with
          | 1 => ((List.range (skySlots f)).foldl (fun s k => s.meshIn p (slotMesh (slice f.payload (80 * k) 80))) s, none)
          | 2 => s.tileIn p (slice f.payload 0 240)
          | 3 => (s.modSky p (fun x => { x with freed := (x.freed.1, x.freed.2.1, x.freed.2.2 + 1) }), none)
          | _ => (s, none)
        (if 64 ≤ (r.1.sky p).owed then r.1.sendSky p 0 0 [] else r.1, r.2)
    (r.1.drainPort p, r.2)

/-- SKY_ACK_TIMER: 100 ns have passed with an accepted flit unacknowledged (R458). -/
def execSkyAckTimer (p : Nat) (s : State) : Host.Outcome State Fault Refusal :=
  .next (
    let s := if (s.sky p).state.linked then s.drainIn p else s
    let x := s.sky p
    if x.state.linked && (decide (0 < x.owed) || x.freed != (0, 0, 0)) then s.sendSky p 0 0 [] else s)

/-- MESH_FLIT_SEND_TIMER: three mesh flits wait, or the oldest has waited 16 ns (R456). -/
def execMeshFlitSendTimer (p : Nat) (s : State) : Host.Outcome State Fault Refusal := .next (s.drainPort p true)

/-! ## Retraining (R461) -/

/-- PORT_RETRAIN: the port enters RETRAIN and maps out the lanes that fail; with fewer than 8 left it goes DOWN (R461). -/
def execPortRetrain (p : Nat) (failing : List Nat) (s : State) : Host.Outcome State Fault Refusal :=
  .next (
    if (s.sky p).state ≠ .up ∧ (s.sky p).state ≠ .admitted then s
    else
      let s := (s.enterRetrain p).mapLanes p failing
      if (s.sky p).active < 8 then s.portDown p else s)

/-- RETRAIN_ATTEMPT_TIMEOUT: a 20 µs attempt failed; after three the port goes DOWN (R461). -/
def execRetrainAttemptTimeout (p : Nat) (s : State) : Host.Outcome State Fault Refusal :=
  .next (
    let x := s.sky p
    if x.state ≠ .retrain then s
    else if 3 ≤ x.tries + 1 then s.portDown p else s.setSky p { x with tries := x.tries + 1 })

/-- RETRAIN_COMPLETE: with 8 or more lanes the port resumes from the replay buffer; a nak of the retrain's time is then
answered from its ack + 1 (R461, R471). -/
def execRetrainComplete (p : Nat) (failing : List Nat) (s : State) : Host.Outcome State Fault Refusal :=
  .next (
    if (s.sky p).state ≠ .retrain then s
    else
      let s := s.mapLanes p failing
      let x := s.sky p
      if x.active < 8 then s.portDown p
      else
        let keep := match x.nakHeld with
          | some a => dropAcked a x.replay
          | none => x.replay
        let s := s.setSky p { x with state := x.back, tries := 0, nakHeld := none, replay := keep }
        (keep.foldl (fun s g => s.emit (.sky p g)) s).drainPort p)

/-- A write of SKY_PORT_CTRL: disable keeps the port DARK, retrain retrains with all 16 lanes offered (R474). -/
def State.writeSkyCtrl (s : State) (p : Nat) (value : Word) : State :=
  let s := s.setRegF (Reg.skyPortCtrl p) 1 1 (bits 1 1 value)
  let x := s.sky p
  if bit 1 value then (s.setSky p (x.goDown .dark)).clearPeer p
  else if bit 0 value && (x.state == .up || x.state == .admitted) then
    (s.setSky p { x with mapped := 0, lanes := 0xFFFF }).enterRetrain p
  else if bit 0 value then s.setSky p { x with mapped := 0 }
  else s

end Sys2Proof.Machine
end

