-- ==== Sys2Proof/Machine/Reducer.lean ====
section
/-! DEFINITION. The reducer: objects' tile positions, digests (R438), exact sums (R427), update records (R429 to R431), the
outbox and routes (R423, R424), confirmation and rollback of versions (R435, R436), contributor sets and late tiles (R425 to
R428), commits and broadcasts (R432, R433), and the verdict tree (R439). -/

namespace Sys2Proof.Machine

open Sys2Proof

/-! ## The plan's layers -/

def State.layer (s : State) (n k : Nat) : Option LayerSt := (s.red n).layers[k]?

def State.setLayer (s : State) (n k : Nat) (l : LayerSt) : State :=
  s.modRed n (fun x => { x with layers := x.layers.set k l })

def State.modLayer (s : State) (n k : Nat) (f : LayerSt → LayerSt) : State :=
  match s.layer n k with
  | some l => s.setLayer n k (f l)
  | none => s

/-- A reducer fault: RED_FAULT and the notice, whose unit is the layer (R446, R449). -/
def State.redRaise (s : State) (code n layer : Nat) (detail : Nat := 0) : State :=
  (s.setReg Reg.redFault (BitVec.ofNat 64 (field 63 48 s.moduleNo + field 34 32 n + field 31 16 layer +
    field 15 0 code))).raise code (some n) layer detail

/-- Bytes of a position's tile in a format of the plan. -/
def tileLen (fmt : Nat) : Nat :=
  match fmtOf fmt with
  | some f => f.size 4096
  | none => 0

/-- The offset of the payload of tile position `t` in an object: in a tiled object behind its header at multiples of the
pitch (R372), else one payload after another. -/
def Obj.payloadAt (o : Obj) (len t : Nat) : Nat :=
  if o.tiled ∧ o.pitch ≠ 0 then
    let per := extentBytes / (o.pitch * 16)
    t / max 1 per * extentBytes + t % max 1 per * (o.pitch * 16) + 32
  else t * len

/-- The payload of position `t` as readers are given it. -/
def State.readTile (s : State) (h len t : Nat) : Bytes :=
  match s.obj h with
  | some o => s.objReadV h o (o.payloadAt len t) len
  | none => List.replicate len 0

/-- A tile written at position `t`: its payload, and in a tiled object its header. -/
def State.writeTileAt (s : State) (h t : Nat) (hdr : TileHdr) (payload : Bytes) : State :=
  match s.obj h with
  | some o =>
    let a := o.payloadAt payload.length t
    let s := if o.tiled ∧ o.pitch ≠ 0 then
        s.objWriteV h (a - 32) (TileHdr.bytes { hdr with handle := h, offset := a, length := payload.length })
      else s
    (s.objWriteV h a payload).useObj h
  | none => s

/-- A skidder read reference keeps a write of the step from beginning (R434). -/
def State.refHeld (s : State) (h : Nat) : Bool :=
  match s.obj h with
  | some o => decide (0 < o.refs)
  | none => false

/-- The mask entries of a layer (R244). -/
def State.maskOf (s : State) (p : LayerPlan) : List (Nat × List Nat) :=
  match s.obj p.maskObj with
  | some o =>
    let size := o.extents * extentBytes
    maskWalk (fun a n => s.objReadV p.maskObj o a n) size (size / 16) 0
  | none => []

/-- The tile positions of the layer's master: gradient positions, or compressed positions of a MASKED layer (R431).
Log 62 (DEDUCED). -/
def State.masterPositions (s : State) (p : LayerPlan) : Nat :=
  if p.kind = 1 then ceilDiv (maskElems (s.maskOf p)).length 4096 else p.positions

/-! ## The ring digest (R438) -/

/-- p = 2⁶⁴ − 59. -/
def ringP : Nat := 18446744073709551557

/-- h over words in ascending order. Log 64 (DEDUCED). -/
def ringHash (k : Nat) (ws : List Nat) : Nat := ws.foldl (fun h w => (h * k + w % ringP) % ringP) 0

/-- The payload words of the layer's master object, as they are stored. Log 64 (DEDUCED). -/
def State.masterWords (s : State) (p : LayerPlan) : List Nat :=
  let len := tileLen p.masterFmt
  (List.range (s.masterPositions p)).flatMap (fun t =>
    let bs := s.readTile p.master len t
    (List.range (len / 8)).map (fun i => leAt bs (8 * i) 8))

/-- The digest of the version that readers of the master object are given: h1 and h2. Log 64 (DEDUCED). -/
def State.digest (s : State) (n : Nat) (p : LayerPlan) : Nat × Nat :=
  if p.role = 1 ∨ p.role = 2 then
    let ws := s.masterWords p
    (ringHash (s.red n).key1 ws, ringHash (s.red n).key2 ws)
  else (0, 0)

/-! ## Exact sums (R427) -/

/-- The exact sum of the terms divided by their number, rounded once to binary32, with its events. Log 54 (DEDUCED). -/
def meanOf (vs : List Num) : Nat × Ev :=
  let t := Num.sum vs
  let q := match t.1 with
    | .fin n m e => quotNum n m vs.length e
    | v => v
  let r := fFP32.encode .nearest 0 false q
  (r.1, t.2 ||| r.2 ||| (if vs.any Num.isNan then evNanin else evNone))

/-- The result of one position from its members' payloads: 4,096 entries of binary32 bits and events. Log 54 (DEDUCED). -/
def sumTiles (ps : List Bytes) : List (Nat × Ev) :=
  let vs := ps.map (fun p => (Fmt.sign1).values 4096 p)
  (List.range 4096).map (fun e => meanOf (vs.map (fun v => v.getD e Num.zero)))

/-- The members' contributions of a step at one position. -/
def LayerSt.at (l : LayerSt) (step : Nat) (ms : List Nat) (t : Nat) : List Contribution :=
  l.contribs.filter (fun c => c.step == step && c.position == t && ms.contains c.module)

/-- The positions touched by the set, ascending (R427). -/
def LayerSt.positionsOf (l : LayerSt) (step : Nat) (ms : List Nat) : List Nat :=
  (l.contribs.filter (fun c => c.step == step && ms.contains c.module)).foldl
    (fun a c => if a.contains c.position then a else insertAsc c.position a) []

/-! ## Update records (R429 to R431) -/

/-- A record's parts: gradient, master and state tiles, gap block; the record's bytes, and where the first begins.
Log 53 (DESIGN CHOICE). -/
def LayerPlan.recordSize (p : LayerPlan) : Nat :=
  (32 + 16384) + (32 + tileLen p.masterFmt) + (if p.stateA = 0 then 0 else 32 + tileLen p.stateFmt) +
  (if p.stateB = 0 then 0 else 32 + tileLen p.stateFmt) + (if p.kind = 2 then 16 else 0)

/-- Log 53 (DESIGN CHOICE). -/
def LayerPlan.recordBase (p : LayerPlan) : Nat := 16 * ceilDiv (16 + 4 * p.cap) 16

/-- The record list of R430. -/
def recordList (p : LayerPlan) (layer step : Nat) (ps : List Nat) : Bytes :=
  let entries := ps.flatMap (fun t => toLE 4 t) ++ (List.replicate (p.cap - ps.length) (toLE 4 0xFFFFFFFF)).flatten
  let head := (toLE 16 (field 127 96 ps.length + field 95 64 p.cap + field 63 48 layer + field 47 32 step)).drop 4
  toLE 4 (crc32c (head ++ entries)).toNat ++ head ++ entries

/-- The position of record `i` by the record list in the record object: none when the list's check fails, `some none` for
a PAD record. Log 53 (DESIGN CHOICE). -/
def State.recordPos (s : State) (p : LayerPlan) (i : Nat) : Option (Option Nat) :=
  match s.obj p.record with
  | some o =>
    let bs := s.objReadV p.record o 0 (16 + 4 * p.cap)
    if (crc32c (bs.drop 4)).toNat ≠ leAt bs 0 4 then none
    else
      let e := leAt bs (16 + 4 * i) 4
      if e = 0xFFFFFFFF then some none else some (some (e % 2 ^ 24))
  | none => none

/-- One tile of a record written at `at_`; a PAD record's has the pad flag and offset zero, and its payload is left as it
is. Log 53 (DESIGN CHOICE). -/
def State.putRecTile (s : State) (p : LayerPlan) (fmt step at_ : Nat) (pad : Bool) (word : BitVec 32) (payload : Bytes) : State :=
  let h : TileHdr :=
    { handle := p.record, offset := if pad then 0 else at_ + 32, rows := 0, cols := 0, format := fmt, layout := 0,
      stepTag := 0, version := step, numerics := word, source := 0, flags := if pad then 8 else 0, length := tileLen fmt }
  let s := s.objWriteV p.record at_ h.bytes
  if pad then s else s.objWriteV p.record (at_ + 32) payload

/-- Update record `i`, of position `t` or PAD, with its gradient. -/
def State.putRecord (s : State) (p : LayerPlan) (step i : Nat) (t : Option Nat) (grad : List (Nat × Ev)) : State :=
  let base := p.recordBase + i * p.recordSize
  let pad := t.isNone
  let pos := t.getD 0
  let word := wordOfElems false (grad.zipIdx.map (fun e => (elemPos 64 e.2, e.1.2)))
  let s := s.putRecTile p 0x10 step base pad word (grad.flatMap (fun e => toLE 4 e.1))
  let a := base + 32 + 16384
  let s := s.putRecTile p p.masterFmt step a pad 0 (s.readTile p.master (tileLen p.masterFmt) pos)
  let a := a + 32 + tileLen p.masterFmt
  let s := if p.stateA = 0 then s else s.putRecTile p p.stateFmt step a pad 0 (s.readTile p.stateA (tileLen p.stateFmt) pos)
  let a := if p.stateA = 0 then a else a + 32 + tileLen p.stateFmt
  let s := if p.stateB = 0 then s else s.putRecTile p p.stateFmt step a pad 0 (s.readTile p.stateB (tileLen p.stateFmt) pos)
  let a := if p.stateB = 0 then a else a + 32 + tileLen p.stateFmt
  if p.kind = 2 ∧ !pad then
    let stamp := match s.obj p.stamp with
      | some o => leAt (s.objReadV p.stamp o (4 * pos) 4) 0 4
      | none => 0
    s.objWriteV p.record a (toLE 4 (ofNat32 (step - stamp)).toNat ++ List.replicate 12 0)
  else s

/-- At the close an owner writes its update records and the record list (R427, R429, R431, R445). -/
def State.writeRecords (s : State) (n k step : Nat) (l : LayerSt) (ms : List Nat) : State :=
  let p := l.plan
  let hit := l.positionsOf step ms
  let grads := hit.map (fun t => (t, sumTiles ((l.at step ms t).map (fun c => c.payload))))
  let entries := s.maskOf p
  let elems := if p.kind = 1 then maskElems entries else []
  let all : List (Nat × List (Nat × Ev)) :=
    if p.kind = 1 then
      ((List.range (ceilDiv elems.length 4096)).map (fun i => (i, (elems.drop (4096 * i)).take 4096))).filterMap (fun c =>
        if c.2.any (fun e => hit.contains e.1) then
          some (c.1, c.2.map (fun e => match grads.find? (fun g => g.1 == e.1) with
            | some g => g.2.getD (e.2.2 * 64 + e.2.1) (0, evNone)
            | none => (0, evNone)))
        else none)
    else grads
  let keep := all.take p.cap
  let left := all.length - keep.length
  let s := keep.zipIdx.foldl (fun s r => s.putRecord p step r.2 (some r.1.1) r.1.2) s
  let s := (List.range (p.cap - keep.length)).foldl (fun s i => s.putRecord p step (keep.length + i) none []) s
  let s := s.objWriteV p.record 0 (recordList p k step (keep.map (fun r => r.1)))
  let s := s.modLayer n k (fun l => { l with touched := keep.map (fun r => r.1) })
  if 0 < left then s.redRaise 0x4057 n k left else s

/-! ## Confirmation and rollback (R435, R436) -/

/-- The objects of a slot changed by `f`, and its cells by `g`. -/
def State.slotVersions (s : State) (n : Nat) (f : Obj → Obj) (g : CellSt → CellSt) : State :=
  { s with
    yard := { s.yard with objs := s.yard.objs.map (fun e => (e.1, if e.2.owner = n ∧ e.2.param = true then f e.2 else e.2)) },
    cells := s.cells.map (fun e => (e.1, if (s.slot n).rect.has (regionOf e.1) then g e.2 else e.2)) }

/-- cb := 1 − cb and d := 0 for every dirty extent. -/
def Obj.flip (o : Obj) : Obj :=
  { o with cb := o.cb.filter (fun x => !o.dirty.contains x) ++ o.dirty.filter (fun x => !o.cb.contains x), dirty := [] }

def CellSt.flip (x : CellSt) : CellSt := { x with errCb := x.errCb ^^^ x.errD, errD := 0 }

/-- What a step held, gone once the step has ended. -/
def LayerSt.nextStep (l : LayerSt) (p : Nat) : LayerSt :=
  { l with contribs := l.contribs.filter (fun c => decide (p < c.step)), set := none, notice := none, touched := [],
           late := false, hold := false, begun := false, written := [], lastIn := false, shadowDig := none }

/-- A round's verdicts gone once its result has come. -/
def RedSt.endRound (x : RedSt) : RedSt :=
  { x with verdicts := [], own := none, upSent := false, timedOut := false, waiting := none, mail := [], replayWish := false }

/-- The confirmation of step `v` (R436, R438, R583). -/
def State.confirmTo (s : State) (n v : Nat) : State :=
  let s := if s.dHold n ∧ s.jobRuns n then s.freeCount (Reg.redSlotStatus n) 63 48 else s
  let s := (s.slotVersions n Obj.flip CellSt.flip).setRegF (Reg.redStep n) 63 32 v
  let s := s.modRed n (fun x => { x.endRound with
    layers := x.layers.map (fun l => { l with conf1 := l.last1, conf2 := l.last2, verify := if l.verify = 3 then 0 else l.verify }) })
  (s.addReg (Reg.redRounds n) 31 0 1).setRegF (Reg.fltJob n) 31 24 0

/-- The rollback of a slot (R436). Log 65 (DEDUCED). -/
def State.rollbackTo (s : State) (n : Nat) : State :=
  let c := s.stepC n
  let s := if s.dHold n ∧ s.jobRuns n then s.freeCount (Reg.redSlotStatus n) 63 48 else s
  let s := s.slotVersions n (fun o => { o with dirty := [] }) (fun x => { x with errD := 0 })
  let s := (s.setRegF (Reg.redStep n) 31 0 c).satReg (Reg.redRounds n) 62 48 1
  let s := s.modRed n (fun x => { x.endRound with
    sent := [], takes := [], rolled := true,
    layers := x.layers.map (fun l => { (l.nextStep c) with contribs := [], version := c, last1 := l.conf1, last2 := l.conf2 }) })
  s.modSlot n (fun x => { x with records := x.records.map (fun r => { r with discarded := r.discarded || decide (c < r.step) }) })

/-- A commit has begun and its marker is unwritten (R440). Log 65 (DEDUCED). -/
def State.commitCut (s : State) (n : Nat) : Bool := (s.red n).layers.any (fun l => l.begun)

/-! ## The verdict tree (R439, R583) -/

/-- The layer is shadowed in the round of step `v`. -/
def LayerPlan.shadowedIn (p : LayerPlan) (d v : Nat) : Bool :=
  p.shadow != 0xFFFF && v / d % max 1 p.every == p.phase

/-- The verdict passed on once it is settled: when every child's and the own one are there, or a rollback without replay is
among them. The root sends the result down (R439, R583). Log 60 (DEDUCED), 118 (DEDUCED). -/
def State.passVerdict (s : State) (n step : Nat) : State :=
  let x := s.red n
  let own := match x.own with
    | some ok => [(ok, x.replayWish)]
    | none => []
  let all := own ++ x.verdicts.map (fun v => v.2)
  let bad := all.filter (fun v => !v.1)
  let settled := bad.any (fun v => !v.2) || (x.own.isSome && decide (x.children ≤ x.verdicts.length))
  if x.upSent || !settled then s
  else
    let ok := bad.isEmpty
    let replay := !ok && bad.all (fun v => v.2)
    let s := s.modRed n (fun x => { x with upSent := true })
    if x.parent ≠ 0xFFFF then s.digestMsg n x.parent (.verdictArrive n s.moduleNo step ok replay)
    else if ok then s.send (.confirm n step)
    else
      let auto := bit 0 (s.reg Reg.fltPolicy)
      let may := decide (s.regF (Reg.fltJob n) 31 24 < s.regF Reg.fltPolicy 15 8)
      let s := if replay ∧ auto ∧ !may then s.raise 0x40A1 (some n) 0 0 else s
      s.send (.rollback n step (replay && auto && may) (BitVec.ofNat 32 (bits 31 0 s.beat + 4096)))

/-- ROLLBACK(P) with replay = 0 sent up the verdict tree (R440, R582). -/
def State.rollbackUp (s : State) (n step : Nat) : State :=
  let x := s.red n
  if x.parent ≠ 0xFFFF then s.toModule x.parent (.verdictArrive n s.moduleNo step false false)
  else s.send (.rollback n step false (BitVec.ofNat 32 (bits 31 0 s.beat + 4096)))

/-- The module forms its verdict once P has reached the round's step and every digest it waits for has come (R439).
Log 60 (DEDUCED). -/
def State.formVerdict (s : State) (n : Nat) : State :=
  let x := s.red n
  let step := s.stepP n
  let d := (s.slot n).d
  let mine := x.layers.filter (fun l => l.plan.role != 3)
  if !s.dHold n || x.own.isSome || mine.isEmpty || mine.any (fun l => l.plan.role == 1 && l.verify == 3 && l.unverified != some step) then s
  else
    let ok := mine.all (fun l => !(l.plan.role == 1 && l.verify == 1))
    let open_ := (mine.filter (fun l => l.unverified == some step || !l.plan.shadowedIn d step)).length
    let s := s.satReg (Reg.redRounds n) 47 32 open_
    let deep := mine.any (fun l => l.plan.role == 1 && l.verify == 1 && decide (l.lastMatch < s.stepC n))
    (s.modRed n (fun x => { x with own := some ok, replayWish := bit 0 (s.reg Reg.fltPolicy) && !deep })).passVerdict n step

/-! ## Commit and advance (R413, R432) -/

/-- The comparison of the two digests of a layer (R439, R597): a mismatch that a rollback cannot remove is shown in
FLT_MISMATCH, and the verdict root raises 0x40A3. -/
def State.compareDigest (s : State) (n k : Nat) (l : LayerSt) (h : Nat × Nat) : State :=
  if h = (l.last1, l.last2) then s.setLayer n k { l with verify := 0, shadowDig := none, lastMatch := l.version }
  else
    let s := (s.setLayer n k { l with verify := 1, shadowDig := none }).redRaise 0x4050 n k
    if l.lastMatch < s.stepC n then
      let s := s.setReg Reg.fltMismatch (BitVec.ofNat 64 (field 63 32 l.version + field 31 0 l.lastMatch))
      if (s.red n).parent = 0xFFFF then s.raise 0x40A3 (some n) k 0 else s
    else s

/-- The published step advances once every layer with a role has committed it (R413, R424). -/
def State.tryAdvance (s : State) (n : Nat) : State :=
  let x := s.red n
  let p := s.stepP n + 1
  if x.layers.all (fun l => l.plan.role == 3 || l.version == p) then
    let s := (s.setRegF (Reg.redStep n) 31 0 p).modRed n (fun x =>
      { x with takes := [], rolled := false, layers := x.layers.map (fun l => l.nextStep p) })
    s.formVerdict n
  else s

/-- Every record that is not a PAD has been returned by every route that the plan's objects name (R432). -/
def LayerSt.returned (l : LayerSt) : Bool :=
  (List.range l.touched.length).all (fun i =>
    l.written.contains (1, i) && l.written.contains (2, i) && (l.plan.stateA == 0 || l.written.contains (3, i)) &&
    (l.plan.stateB == 0 || l.written.contains (4, i)))

/-- A tile of the broadcast of layer `k` has not left the module. -/
def State.casting (s : State) (k : Nat) : Bool :=
  let is := fun (bs : Bytes) =>
    let h := tileHdrOf (slice bs 0 32)
    natBits 1 1 h.flags == 1 && h.offset / 2 ^ 24 == k
  s.tilesHeld.any (fun t => is t.2.2) ||
  s.skys.any (fun e => e.2.tileBusy || e.2.tiles.any is)

/-- COMMIT_MARKER: the version record is written and the write hold released (R432, R433, R439, R445). -/
def execCommitMarker (n k : Nat) (s : State) : Host.Outcome State Fault Refusal :=
  .next (match s.layer n k with
    | none => s
    | some l =>
      let step := s.stepP n + 1
      let ready := match l.plan.role with
        | 0 => l.lastIn
        | 1 => l.set.isSome && l.returned && !s.casting k
        | 2 => l.set.isSome && l.returned
        | _ => false
      if !ready || l.version == step || s.dHold n then s
      else
        let h := s.digest n l.plan
        let s := if l.plan.kind = 2 ∧ l.plan.role ≠ 0 then
            l.touched.foldl (fun s t => s.objWriteV l.plan.stamp (4 * t) (toLE 4 step)) s
          else s
        let d := (s.slot n).d
        let round := decide (step = s.stepC n + d) && l.plan.shadowedIn d step
        let l := { l with version := step, last1 := h.1, last2 := h.2, hold := false, begun := false,
                          verify := if l.unverified = some step then 2 else if round then 3 else if step = s.stepC n + d then 2 else l.verify }
        let s := s.setLayer n k l
        let s := if round && l.plan.role == 2 && l.unverified != some step then
            s.digestMsg n l.plan.primary (.shadowDigest n k step (BitVec.ofNat 128 (h.1 * 2 ^ 64 + h.2)))
          else s
        let s := match l.plan.role, l.shadowDig with
          | 1, some g => if round then s.compareDigest n k l g else s
          | _, _ => s
        s.tryAdvance n)

/-- SHADOW_DIGEST (R439). -/
def execShadowDigest (n k step : Nat) (digest : BitVec 128) (s : State) : Host.Outcome State Fault Refusal :=
  .next (
    let s := s.deliver (.shadowDigest n k step digest)
    let g := (bits 127 64 digest, bits 63 0 digest)
    match s.layer n k with
    | some l =>
      if l.plan.role ≠ 1 then s
      else if l.version = step then (if l.verify = 3 then (s.compareDigest n k l g).formVerdict n else s)
      else if step = s.stepP n + 1 then s.setLayer n k { l with shadowDig := some g }
      else s
    | none => s)

/-- VERDICT_ARRIVE (R439, R583). Log 60 (DEDUCED), 61 (DESIGN CHOICE). -/
def execVerdictArrive (n child step : Nat) (ok replay : Bool) (s : State) : Host.Outcome State Fault Refusal :=
  .next (
    let s := s.deliver (.verdictArrive n child step ok replay)
    let s := s.modRed n (fun x => { x with
      kids := if x.kids.contains child then x.kids else x.kids ++ [child],
      verdicts := x.verdicts.filter (fun v => v.1 != child) ++ [(child, ok, replay)] })
    s.passVerdict n step)

/-- A result passed on to the children of the tree. Log 61 (DESIGN CHOICE). -/
def State.tellKids (s : State) (n : Nat) (m : Instr) : State := (s.red n).kids.foldl (fun s k => s.toModule k m) s

/-- CONFIRM: applied on arrival, or once the checkpoint has closed (R436, R439, R441). -/
def execConfirm (n step : Nat) (s : State) : Host.Outcome State Fault Refusal :=
  .next (
    let s := (s.deliver (.confirm n step)).tellKids n (.confirm n step)
    if step ≠ s.stepP n then s
    else if bit n (s.reg Reg.redCtrl) then s.modRed n (fun x => { x with waiting := some step })
    else s.confirmTo n step)

/-- A confirmation that waited for a checkpoint read, once the slot's bit of RED_CTRL clears (R441). -/
def State.endCkpt (s : State) (n : Nat) : State :=
  match (s.red n).waiting with
  | some v => if bit n (s.reg Reg.redCtrl) then s else (s.freeCount (Reg.redSlotStatus n) 63 48).confirmTo n v
  | none => s

/-- VERDICT_TIMEOUT: the result has not come verdict_limit ticks after the own verdict (R439). -/
def execVerdictTimeout (n : Nat) (s : State) : Host.Outcome State Fault Refusal :=
  .next (
    let x := s.red n
    if x.own.isSome && !x.timedOut && x.waiting.isNone then
      (s.modRed n (fun x => { x with timedOut := true })).redRaise 0x4056 n 0
    else s)

/-- A write of RED_STEP n: rejected while a job runs or when its fields differ, else a confirmation of what the slot holds
(R449, R599). -/
def State.writeRedStep (s : State) (n : Nat) (value : Word) : State × Bool :=
  if s.jobRuns n || s.jobState n == 5 || bits 63 32 value != bits 31 0 value then (s.reject (some n), false)
  else
    let v := bits 31 0 value
    let s := (s.slotVersions n Obj.flip CellSt.flip).setReg (Reg.redStep n) value
    (s.modRed n (fun x => { x.endRound with
      takes := [],
      layers := x.layers.map (fun l =>
        let h := s.digest n l.plan
        { (l.nextStep v) with version := v, last1 := h.1, last2 := h.2, conf1 := h.1, conf2 := h.2 }) }), true)

/-! ## Writing parameters (R247, R432, R433) -/

/-- The length of a row of an EMBED layer: the columns that the stream entries gathering it state, else the whole position. -/
def State.rowLen (s : State) (n h : Nat) : Nat :=
  match (s.stream n).prog.find? (fun (e : StreamEntry) => (e.op == 2 || e.op == 3) && e.kind == 1 && e.handle == h) with
  | some e => StreamEntry.nLayer e
  | none => 4096

/-- The store-path packer: the slabs of the layer written from the values of position `t` (R247). -/
def State.packTile (s : State) (n : Nat) (p : LayerPlan) (t step : Nat) (vals : List Num) : State :=
  match s.obj p.slab, fmtOf p.wfmt with
  | some o, some f =>
    if p.kind = 2 then
      let bs := (f.writeValues .nearest [] false (vals.take (s.rowLen n p.slab))).1
      s.objWriteV p.slab (t * bs.length) bs
    else
      let rd := fun a k => s.objReadV p.slab o a k
      let size := o.extents * extentBytes
      let slabs := slabWalk rd size (size / 16) 0
      let entries := s.maskOf p
      let cover := if p.kind = 1 then coverMasked entries t vals else coverDense slabs t vals
      slabs.foldl (fun s e =>
        let bs := rd e.1 (32 + 16 * natBits 236 226 e.2)
        let new := packSlab cover step bs
        if new = bs then s else s.objWriteV p.slab e.1 new) s
  | _, _ => s

/-- The broadcast tile of a record (R433): its header names the layer and position, the step and the provisional flag.
Log 57 (DESIGN CHOICE). -/
def castTile (p : LayerPlan) (layer pos step : Nat) (last : Bool) (data : Bytes) : Bytes :=
  TileHdr.bytes
    { handle := 0, offset := layer * 2 ^ 24 + pos, rows := 0, cols := 0, format := p.wfmt, layout := 0,
      stepTag := 0, version := step, numerics := 0, source := 0, flags := 2 + ofBool last, length := data.length } ++ data

/-- PARAMETER_BROADCAST_TILE at a module that takes the broadcast: the write hold, the slabs, and the last tile (R433). -/
def execParameterBroadcastTile (n k record pos step : Nat) (last : Bool) (data : Bytes) (s : State) :
    Host.Outcome State Fault Refusal :=
  .next (match s.layer n k with
    | some l =>
      let m := Instr.parameterBroadcastTile n k record pos step last data
      if l.plan.role ≠ 0 ∨ step ≤ s.stepP n then s.deliver m
      else if step ≠ s.stepP n + 1 ∨ s.dHold n = true ∨ s.refHeld l.plan.slab = true then s
      else
        let vals := match fmtOf l.plan.wfmt with
          | some f => f.values 4096 data
          | none => []
        let s := ((s.deliver m).setLayer n k { l with hold := true, begun := true, lastIn := l.lastIn || last })
        s.packTile n l.plan pos step vals
    | none => s.deliver (.parameterBroadcastTile n k record pos step last data))

/-! ## Contributor sets (R425 to R428) -/

/-- The module is complete at the owner: the tile of its last position has arrived. Log 52 (DEDUCED). -/
def LayerSt.complete (l : LayerSt) (step m : Nat) : Bool :=
  l.contribs.any (fun c => c.step == step && c.module == m && c.final)

/-- The modules with tiles of the step. -/
def LayerSt.modules (l : LayerSt) (step : Nat) : List Nat :=
  (l.contribs.filter (fun c => c.step == step)).foldl (fun a c => if a.contains c.module then a else insertAsc c.module a) []

/-- The set closes at an owner: members' tiles are acknowledged and summed, the others refused, and the update records
written (R426 to R429). Log 52 (DEDUCED), 69 (DEDUCED). -/
def State.closeSet (s : State) (n k : Nat) (l : LayerSt) (ms : List Nat) : State :=
  let step := s.stepP n + 1
  let out := (l.modules step).filter (fun m => !ms.contains m)
  let s := s.setLayer n k { l with set := some ms, received := ms.length, begun := true }
  let s := s.satReg (Reg.redLate n) 31 0 (l.plan.contributors - ms.length)
  let me := s.moduleNo
  let s := (l.contribs.filter (fun c => c.step == step && ms.contains c.module)).foldl (fun s c =>
    s.toModule c.module (.contribAck n k c.position me)) s
  let s := out.foldl (fun s m => s.toModule m (.lateRefusal n k step)) s
  let s := s.writeRecords n k step l ms
  s.modLayer n k (fun l => { l with contribs := l.contribs.filter (fun c => c.step != step) })

/-- The shadow closes its set once it holds every member's tiles (R426). Log 59 (DESIGN CHOICE), 68 (DESIGN CHOICE). -/
def State.shadowTry (s : State) (n k : Nat) : State :=
  match s.layer n k with
  | some l => match l.notice with
    | some ms =>
      if l.plan.role = 2 ∧ l.set.isNone = true ∧ ms.all (fun m => l.complete (s.stepP n + 1) m) = true then s.closeSet n k l ms
      else s
    | none => s
  | none => s

/-- CONTRIB_TILE_ARRIVE: the tile is kept for the sum, or refused as late (R415, R426 to R428). -/
def execContribTileArrive (t : Contribution) (s : State) : Host.Outcome State Fault Refusal :=
  .next (
    let n := t.slot
    let s := s.deliver (.contribTileArrive t)
    match s.layer n t.layer with
    | some l =>
      if l.plan.role ≠ 1 ∧ l.plan.role ≠ 2 then s
      else if t.step ≤ s.stepP n then s.toModule t.module (.lateRefusal n t.layer t.step)
      else if t.step = s.stepP n + 1 ∧ l.set.isSome = true then
        (if (l.set.getD []).contains t.module then s.toModule t.module (.contribAck n t.layer t.position s.moduleNo)
         else s.toModule t.module (.lateRefusal n t.layer t.step))
      else if l.contribs.any (fun c => c.step == t.step && c.module == t.module && c.position == t.position) then s
      else (s.setLayer n t.layer { l with contribs := l.contribs ++ [t] }).shadowTry n t.layer
    | none => s)

/-- CONTRIB_SET_CLOSE: deadline ticks have passed since the step's first tile (R426). -/
def execContribSetClose (n k : Nat) (s : State) : Host.Outcome State Fault Refusal :=
  .next (match s.layer n k with
    | some l =>
      let step := s.stepP n + 1
      if l.plan.role ≠ 1 ∨ l.set.isSome = true ∨ (l.modules step).isEmpty = true then s
      else
        let ms := (l.modules step).filter (fun m => l.complete step m)
        let s := if l.plan.shadow = 0xFFFF then s else s.toModule l.plan.shadow (.contribSetNotice n k ms)
        s.closeSet n k l ms
    | none => s)

/-- CONTRIB_SET_NOTICE at the shadow (R426). -/
def execContribSetNotice (n k : Nat) (ms : List Nat) (s : State) : Host.Outcome State Fault Refusal :=
  .next (
    let s := s.deliver (.contribSetNotice n k ms)
    match s.layer n k with
    | some l =>
      if l.plan.role ≠ 2 ∨ l.set.isSome = true then s
      else (s.setLayer n k { l with notice := some ms }).shadowTry n k
    | none => s)

/-- SET_GRACE_EXPIRY: a shadow that lacks a member's tile raises 0x4052, the layer is unverified, and the shadow sums what it
has of the set; its primary is told (R426, R439). Log 59 (DESIGN CHOICE), 68 (DESIGN CHOICE). -/
def execSetGraceExpiry (n k : Nat) (s : State) : Host.Outcome State Fault Refusal :=
  .next (
    let s := s.deliver (.setGraceExpiry n k)
    match s.layer n k with
    | some l =>
      if l.plan.role = 1 then
        let step := if l.set.isSome then s.stepP n + 1 else s.stepP n
        (s.setLayer n k { l with unverified := some step, verify := 2 }).formVerdict n
      else match l.plan.role, l.notice, l.set with
        | 2, some ms, none =>
          let l := { l with unverified := some (s.stepP n + 1) }
          let s := (s.setLayer n k l).redRaise 0x4052 n k
          let s := s.toModule l.plan.primary (.setGraceExpiry n k)
          s.closeSet n k l (ms.filter (fun m => l.complete (s.stepP n + 1) m))
        | _, _, _ => s
    | none => s)

/-- CONTRIB_ACK: the owner has the tile in its set; with the last owner's the tile leaves the send store (R425, R428). -/
def execContribAck (n k pos owner : Nat) (s : State) : Host.Outcome State Fault Refusal :=
  .next (
    let s := s.deliver (.contribAck n k pos owner)
    let s := s.modRed n (fun x => { x with
      sent := (x.sent.map (fun t => if t.layer = k ∧ t.position = pos then { t with owners := t.owners.filter (fun o => o != owner) } else t)).filter
        (fun t => !t.owners.isEmpty) })
    s.modLayer n k (fun l => { l with streak := 0 }))

/-- A sent tile's SIGN1 values added back into its error memory (R428). Log 55 (DESIGN CHOICE). -/
def State.foldTile (s : State) (l : LayerSt) (t : SentTile) : State :=
  let vals := (Fmt.sign1).values 4096 t.payload
  let add := fun (old : Bytes) => (vals.zipIdx).flatMap (fun v =>
    toLE 4 (fFP32.encode .nearest 0 false (Num.add (fFP32.decode (leAt old (4 * v.2) 4)) v.1).1).1)
  if l.plan.error ≠ 0 then
    match s.obj l.plan.error with
    | some o => s.objWriteV l.plan.error (o.payloadAt 16384 t.position) (add (s.readTile l.plan.error 16384 t.position))
    | none => s
  else
    let x := s.cell t.cell
    if t.errAt + 16384 ≤ x.errPages * 4096 then
      let a := x.errFirst * 4096 + t.errAt
      s.setCell t.cell (x.underWrite a (add (x.underRead a 16384)))
    else s

/-- LATE_REFUSAL: the tiles of the step are folded back into the error memory, or dropped after too many late steps (R428).
A write of step P + 1 waits in the D-hold, and one to an error object while it is being read. Log 67 (DEDUCED). -/
def execLateRefusal (n k step : Nat) (s : State) : Host.Outcome State Fault Refusal :=
  .next (match s.layer n k with
    | some l =>
      let x := s.red n
      let mine := x.sent.filter (fun t => t.layer == k && t.step == step)
      if mine.isEmpty then s.deliver (.lateRefusal n k step)
      else if (s.dHold n = true ∧ step = s.stepP n + 1) ∨ s.refHeld l.plan.error = true then s
      else
        let s := s.deliver (.lateRefusal n k step)
        let streak := if l.late then l.streak else l.streak + 1
        let s := s.setLayer n k { l with streak := streak, late := true }
        let s := s.modRed n (fun x => { x with sent := x.sent.filter (fun t => !(t.layer == k && t.step == step)) })
        if x.lateDrop < streak then (s.satReg (Reg.redLate n) 62 48 1).redRaise 0x4053 n k
        else (mine.foldl (fun s t => s.foldTile l t) s).satReg (Reg.redLate n) 47 32 1
    | none => s.deliver (.lateRefusal n k step))

/-! ## The outbox (R423, R424) -/

/-- The cell lies in the route's rectangle and the slot in its slots. -/
def RoutePlan.covers (r : RoutePlan) (c j : Nat) : Bool :=
  decide (rowOf r.first ≤ rowOf c) && decide (rowOf c ≤ rowOf r.last) && decide (colOf r.first ≤ colOf c) &&
  decide (colOf c ≤ colOf r.last) && decide (r.slotFirst ≤ j) && decide (j < r.slotFirst + r.slotCount)

/-- The index of R424. Log 55 (DESIGN CHOICE). -/
def RoutePlan.index (r : RoutePlan) (c j u : Nat) : Nat :=
  let q := (rowOf c - rowOf r.first) * (colOf r.last + 1 - colOf r.first) + (colOf c - colOf r.first)
  r.base + q * r.slotCount + (j - r.slotFirst) + u * r.stride

/-- The owners of a layer (R425). -/
def LayerPlan.owners (p : LayerPlan) : List Nat := p.primary :: (if p.shadow = 0xFFFF then [] else [p.shadow])

/-- A contribution sent to the layer's owners and kept in the send store (R424, R425, R463). -/
def State.contribute (s : State) (n : Nat) (r : RoutePlan) (p : LayerPlan) (c j u pos : Nat) (h : TileHdr) (payload : Bytes) : State :=
  let step := s.stepP n + 1
  let final := decide (pos + 1 = p.positions)
  let head := TileHdr.bytes { h with handle := 0, offset := r.layer * 2 ^ 24 + pos, version := step, flags := ofBool final }
  let t : Contribution := ⟨n, s.moduleNo, r.layer, pos, step, final, slice payload 0 768⟩
  let s := s.modRed n (fun x => { x with
    sent := x.sent ++ [⟨r.layer, pos, step, p.owners, c, (j - r.slotFirst + u * r.slotCount) * 16384, slice payload 0 768⟩] })
  p.owners.foldl (fun s m => match s.dirToward m with
    | some d => if m = s.moduleNo then s.send (.contribTileArrive t) else s.sendTile d (r.layer + pos) (head ++ payload)
    | none => s.send (.contribTileArrive t)) s

/-- A PUBLISHED tile of a record at position `pos`: packed into the slabs, and broadcast by the primary (R432). -/
def State.publish (s : State) (n k i pos : Nat) (l : LayerSt) (h : TileHdr) (payload : Bytes) : State :=
  let step := s.stepP n + 1
  let vals := match fmtOf h.format with
    | some f => f.values 4096 payload
    | none => []
  let s := s.packTile n l.plan pos step vals
  if l.plan.role = 1 then
    match fmtOf l.plan.wfmt with
    | some f =>
      let tile := castTile l.plan k pos step (decide (i + 1 = l.touched.length)) (f.writeValues .nearest [] false vals).1
      (s.castDirs s.moduleNo).foldl (fun s d => s.sendTile d (k + i) tile) s
    | none => s
  else s

/-- The object that an owner's route writes. -/
def LayerPlan.objOf (p : LayerPlan) : Nat → Nat
  | 1 => p.master
  | 2 => p.slab
  | 3 => p.stateA
  | 4 => p.stateB
  | _ => p.error

/-- A write that the route would make must wait: the D-hold, or a skidder read reference (R434, R437). -/
def State.writeWaits (s : State) (n : Nat) (p : LayerPlan) (out : Nat) : Bool :=
  out != 0 && (s.dHold n || s.refHeld (p.objOf out))

/-- A taken tile put where its route maps it (R423, R424, R432). -/
def State.routeTile (s : State) (n : Nat) (r : RoutePlan) (l : LayerSt) (c j u : Nat) (h : TileHdr) (payload : Bytes) : State :=
  let p := l.plan
  let step := s.stepP n + 1
  let i := r.index c j u
  let limit := if r.out = 0 ∨ r.out = 5 then p.positions else p.cap
  if limit ≤ i then s.redRaise 0x4055 n r.layer
  else if r.out = 0 then s.contribute n r p c j u i h payload
  else if r.out = 5 then s.writeTileAt p.error i { h with version := step, flags := ofBool (decide (i + 1 = p.positions)) } payload
  else match s.recordPos p i with
    | none => s.redRaise 0x4054 n r.layer
    | some none => s
    | some (some t) =>
      let s := s.setLayer n r.layer { l with hold := true, begun := true, written := l.written ++ [(r.out, i)] }
      if r.out = 2 then s.publish n r.layer i t l h payload
      else s.writeTileAt (p.objOf r.out) t { h with version := step, flags := ofBool (decide (t + 1 = p.positions)) } payload

/-- OUTBOX_TAKE: the region reducer takes a tile whose STORE has completed (R423, R424). Log 66 (DESIGN CHOICE). -/
def execOutboxTake (c j : Nat) (s : State) : Host.Outcome State Fault Refusal :=
  .next (
    let x := s.cell c
    match s.slotOfCell c with
    | none => s
    | some n =>
      if !x.outbox.contains j then s
      else
        let a := (x.obFirst + j * x.obPages) * 4096
        let head := x.under.read a 32
        let route := (s.red n).routes.find? (fun r => r.covers c j)
        let plan := route.bind (fun r => s.layer n r.layer)
        let waits := match route, plan with
          | some r, some l => s.writeWaits n l.plan r.out
          | _, _ => false
        if tileHdrGood head ∧ waits = true then s
        else
          let u := (s.red n).takes.get 0 (c * 64 + j)
          let s := s.setCell c { x with outbox := x.outbox.filter (fun k => k != j) }
          let s := s.modRed n (fun y => { y with takes := y.takes.put (c * 64 + j) (u + 1) })
          let s :=
            if !tileHdrGood head then s.redRaise 0x4054 n ((route.map (fun r => r.layer)).getD 0)
            else match route, plan with
              | some r, some l =>
                let h := tileHdrOf head
                s.routeTile n r l c j u h (x.under.read (a + 32) h.length)
              | _, _ => s.redRaise 0x4055 n ((route.map (fun r => r.layer)).getD 0)
          s.paidTile c j)

/-! ## Tiles from the skyline (R425, R433, R462) -/

/-- The slot that holds a port (R40). Log 56 (DESIGN CHOICE). -/
def State.slotOfPort (s : State) (p : Nat) : Option Nat := (List.range 8).find? (fun n => s.occupied n && bit p (s.slot n).ports)

/-- The step that a tile's 16-bit version names, nearest to the step being computed. Log 56 (DESIGN CHOICE). -/
def nearStep (p v : Nat) : Nat :=
  let d := (v + 65536 - p % 65536) % 65536
  if d < 32768 then p + d else p + d - 65536

/-- A contribution tile that has come over the skyline. The tile names neither its sender nor the owner it is bound for:
each is a free value. Log 56 (DESIGN CHOICE). -/
def State.tileContrib (s : State) (n p : Nat) (h : TileHdr) (bs : Bytes) : State :=
  let k := h.offset / 2 ^ 24
  let pos := h.offset % 2 ^ 24
  match s.layer n k with
  | some l =>
    let f := s.fresh
    let g := f.2.fresh
    let s := g.2
    let dest := l.plan.owners.getD ((Config.freeWord f.1).toNat % l.plan.owners.length) 0
    if dest = s.moduleNo then
      s.send (.contribTileArrive ⟨n, (Config.freeWord g.1).toNat % 8192, k, pos, nearStep (s.stepP n + 1) h.version,
        natBits 0 0 h.flags == 1, slice (bs.drop 32) 0 768⟩)
    else match s.dirToward dest with
      | some d => s.sendTile d (k + pos) bs
      | none => s
  | none => (s.satReg (Reg.skyHeld p) 31 0 1)

/-- A broadcast tile that has come over the skyline is passed on along the rings and handed to the reducer (R433).
Log 56 (DESIGN CHOICE), 57 (DESIGN CHOICE). -/
def State.tileCast (s : State) (n p : Nat) (h : TileHdr) (bs : Bytes) : State :=
  let k := h.offset / 2 ^ 24
  let pos := h.offset % 2 ^ 24
  match s.layer n k with
  | some l =>
    let s := (s.castDirs l.plan.primary).foldl (fun s d => s.sendTile d (k + pos) bs) s
    s.send (.parameterBroadcastTile n k pos pos (nearStep (s.stepP n + 1) h.version) (natBits 0 0 h.flags == 1) (bs.drop 32))
  | none => (s.satReg (Reg.skyHeld p) 31 0 1)

/-- SKY_FLIT_RECEIVE: the link receives the flit; a whole tile is checked and goes to the module reducer (R455, R458, R462). -/
def execSkyFlitReceive (p : Nat) (f : SkyFlit) (s : State) : Host.Outcome State Fault Refusal :=
  .next (
    let r := s.skyReceive p f
    match r.2 with
    | none => r.1
    | some bs =>
      if !tileHdrGood bs then ((r.1.satReg (Reg.skyHeld p) 31 0 1).raise 0x4062 none p 0)
      else
        let h := tileHdrOf (slice bs 0 32)
        match r.1.slotOfPort p with
        | some n => if natBits 1 1 h.flags = 1 then r.1.tileCast n p h bs else r.1.tileContrib n p h bs
        | none => r.1.satReg (Reg.skyHeld p) 31 0 1)

end Sys2Proof.Machine
end

