-- ==== Sys2Proof/Machine/Beat.lean ====
section
/-! DEFINITION. The beat unit: the fibre (R511 to R513, R518), PTP (R514, R515), lock, holdover and steps (R517 to R521), the
event table and schedules (R524 to R529), slack (R530, R531) and the calendar (R534, R535). The tick itself is in Tick. -/

namespace Sys2Proof.Machine

open Sys2Proof

def State.setBeat (s : State) (b : BeatSt) : State := { s with beats := b }

/-! ## Source and counter (R513, R514, R516 to R521) -/

/-- The mains frequency that BEAT_CTRL.nominal selects. -/
def State.nominalHz (s : State) : Nat := if bit 2 (s.reg Reg.beatCtrl) then 60 else 50

/-- The tick period in ps: nominal while UNLOCKED, else as last measured (R517, R519). -/
def State.tickPeriod (s : State) : Nat :=
  if s.beats.state = .unlocked ∨ s.beats.freq = 0 then 1000000000000 / (s.nominalHz * 4096) else s.beats.period

/-- The source's counter (R511, R514, R516). -/
def State.sourceCounter (s : State) : BeatSource → Nat
  | .fibre => (s.beats.fibre.cycle.getD 0) * 4096 + s.beats.fibre.marks
  | .ptp => ((s.beats.ptp.tai.getD 0) - (s.reg Reg.beatPtpEpoch).toNat) * s.nominalHz * 4096 / 1000000000
  | .none => s.beat.toNat

/-- A slot is LOADING or LOADED, or the module is ADMITTED: the counter may not fall (R516). Log 78 (DESIGN CHOICE). -/
def State.beatBound (s : State) : Bool := (List.range 8).any s.occupied || s.admitted

/-- Slew, step or hold toward the source's counter (R521). A slew changes only tick lengths. Log 79 (DEDUCED). -/
def State.beatAlign (s : State) (target : Nat) : State :=
  let own := s.beat.toNat
  let b := { s.beats with jump := 0, hold := 0 }
  if own ≤ target + 64 ∧ target ≤ own + 64 then s.setBeat b
  else if own < target then s.setBeat { b with jump := target - own }
  else if s.beatBound then (s.setBeat { b with hold := own - target }).raise 0x4081 none 0 0
  else
    let w := BitVec.ofNat 64 target
    { (s.setBeat b).setReg Reg.beatCounter w with
      yard := { s.yard with objs := s.yard.objs.map (fun (e : Nat × Obj) => (e.1, { e.2 with stamp := w })) } }

/-- The frequency and period measured over a mains cycle: open values within the bounds of R513, and the nominal ones under
PTP. Log 78 (DESIGN CHOICE). -/
def State.measure (s : State) (src : BeatSource) (nominal : Nat) : State :=
  match src with
  | .fibre =>
    let k := s.fresh
    let f := (nominal * 100 - 300) + (Config.freeWord k.1).toNat % 501
    k.2.setBeat { k.2.beats with freq := f, period := 100000000000000 / (f * 4096) }
  | _ =>
    let hz := s.nominalHz
    s.setBeat { s.beats with freq := hz * 100, period := 1000000000000 / (hz * 4096) }

/-- The beat unit LOCKED on a source (R518, R521). -/
def State.beatLock (s : State) (src : BeatSource) : State :=
  let s := s.setBeat { s.beats with state := .locked, active := src }
  let s := s.measure src s.nominalHz
  s.beatAlign (s.sourceCounter src)

/-- The state and source that what is present and locked gives (R517, R518, R520). -/
def State.beatSettle (s : State) : State :=
  let b := s.beats
  let src := s.regF Reg.beatCtrl 1 0
  let useF := decide (src = 1 ∨ src = 3)
  let useP := decide (src = 2 ∨ src = 3)
  let pick : Option BeatSource :=
    if useF && b.fibre.locked then some .fibre else if useP && b.ptp.locked then some .ptp else none
  match pick with
  | some x => if b.state = .locked ∧ b.active = x then s else s.beatLock x
  | none =>
    if src = 0 then s.setBeat { b with state := .unlocked, active := .none }
    else if b.state = .locked then
      ((s.setBeat { b with state := .holdover }).setRegF Reg.beatStatus 8 8 1).raise 0x4080 none 0 0
    else if useF && b.fibre.present then s.setBeat { b with state := .acquiring, active := .fibre }
    else if useP && b.ptp.port.isSome && b.ptp.tai.isSome then s.setBeat { b with state := .acquiring, active := .ptp }
    else if b.freq ≠ 0 then s.setBeat { b with state := .holdover }
    else s.setBeat { b with state := .unlocked, active := .none }

/-! ## The fibre (R511, R512, R518) -/

def State.setFibre (s : State) (f : FibreSt) : State := s.setBeat { s.beats with fibre := f }

/-- The fibre's lock is lost; the source must reappear. Log 83 (DEDUCED). -/
def FibreSt.lose (f : FibreSt) : FibreSt := { FibreSt.reset with delay := f.delay, campus := f.campus }

/-- A marker is good: the next tick bits, within ±20 ns of the prediction. -/
def FibreSt.goodMark (f : FibreSt) (bs skew : Nat) : Bool :=
  decide (skew ≤ 20) && (match f.bits with
    | some b => bs == (b + 1) % 256
    | none => true)

/-- TICK_MARKER: echoed; four good cycles of 4,096 good markers each give lock, 8 bad ones lose it (R512, R518).
Log 83 (DEDUCED). -/
def execTickMarker (bs : Byte) (skew : Nat) (s : State) : Host.Outcome State Fault Refusal :=
  .next (
    let s := s.emit (.echo bs)
    let f := s.beats.fibre
    let b := bs.toNat
    let f' : FibreSt :=
      if f.goodMark b skew then
        let marks := f.marks + 1
        let run := if marks = 4096 then f.run + 1 else f.run
        { f with present := true, bits := some b, marks := marks, badMarks := 0, run := run,
                 locked := f.locked || (f.cycle.isSome && decide (4 ≤ run)) }
      else if 8 ≤ f.badMarks + 1 then f.lose
      else { f with present := true, bits := some b, marks := f.marks + 1, badMarks := f.badMarks + 1,
                    run := 0 }
    (s.setFibre f').beatSettle)

/-- The check of a cycle frame (R511). -/
def frameGood (f : CycleFrame) : Bool :=
  f.check == crc32c (toLE 8 f.cycle.toNat ++ [f.nominal, f.quality] ++ toLE 4 f.delayNs.toNat ++ toLE 4 f.campusId.toNat ++
    toLE 2 f.reserved.toNat)

/-- CYCLE_FRAME: the mains-cycle number, delay and campus; 2 bad frames lose the lock (R511, R512, R518). Log 83 (DEDUCED). -/
def execCycleFrame (c : CycleFrame) (s : State) : Host.Outcome State Fault Refusal :=
  .next (
    let f := s.beats.fibre
    let cyc := bits 51 0 c.cycle
    if frameGood c then
      let follows := match f.cycle with
        | some k => decide (cyc = k + 1) && decide (f.marks = 4096)
        | none => false
      let s := s.setFibre { f with
        present := true, cycle := some cyc, marks := 0, badFrames := 0, run := if follows then f.run else 0,
        delay := c.delayNs.toNat, campus := c.campusId.toNat }
      let s := s.beatSettle
      if s.beats.state = .locked ∧ s.beats.active = .fibre then s.measure .fibre c.nominal.toNat else s
    else if 2 ≤ f.badFrames + 1 then (s.setFibre f.lose).beatSettle
    else (s.setFibre { f with badFrames := f.badFrames + 1, run := 0 }).beatSettle)

/-! ## PTP (R479, R514, R515) -/

def State.setPtp (s : State) (p : PtpSt) : State := s.setBeat { s.beats with ptp := p }

/-- The dataset comparison of two Announces: the first is better. Log 81 (PRESUMED). -/
def Announce.better (a b : Announce) : Bool :=
  let l := fun (x : Announce) => [x.priority1, x.clockClass, x.accuracy, x.variance, x.priority2, x.identity, x.steps]
  let rec lt : List Nat → List Nat → Bool
    | x :: xs, y :: ys => if x < y then true else if y < x then false else lt xs ys
    | _, _ => false
  lt (l a) (l b)

/-- A port runs a time-receiver port. -/
def State.ptpOn (s : State) (q : Nat) : Bool := s.portLive q && bit 0 (s.reg (Reg.ethPtp q))

/-- The selected port (R515). Log 81 (PRESUMED). -/
def State.ptpPick (s : State) : Option Nat :=
  let on := fun (q : Nat) => if s.ptpOn q then s.beats.ptp.best.find q else none
  match on 0, on 1 with
  | some a, some b =>
    if s.regF (Reg.ethPtp 0) 15 8 ≠ s.regF (Reg.ethPtp 1) 15 8 then some 0 else if Announce.better b a then some 1 else some 0
  | some _, none => some 0
  | none, some _ => some 1
  | none, none => none

/-- The time transmitter selected again; a change is a source switch: the lock condition begins anew on the new port, and the
counter is aligned to it while PTP is followed (R515, R521). -/
def State.ptpSelect (s : State) : State :=
  let p := s.beats.ptp
  let pick := s.ptpPick
  if pick = p.port then s
  else match pick with
    | none => (s.setPtp { p with port := none, good := 0, bad := 0, locked := false, tai := none }).beatSettle
    | some q =>
      let s := s.setPtp { p with port := some q, good := 0, bad := 0, locked := false }
      s.beatSettle

/-- PTP_ANNOUNCE: the port keeps the best Announce it has heard (R515). -/
def execPtpAnnounce (q : Nat) (a : Announce) (s : State) : Host.Outcome State Fault Refusal :=
  .next (
    if !s.ptpOn q then s
    else
      let s := s.countRx q
      let p := s.beats.ptp
      if a.domain ≠ s.regF (Reg.ethPtp q) 15 8 then s
      else match p.best.find q with
        | some b =>
          if Announce.better a b || a.identity == b.identity then (s.setPtp { p with best := p.best.put q a }).ptpSelect else s
        | none => (s.setPtp { p with best := p.best.put q a }).ptpSelect)

/-- The port's Announce is gone. -/
def State.ptpForget (s : State) (q : Nat) : State :=
  (s.setPtp { s.beats.ptp with best := s.beats.ptp.best.del q }).ptpSelect

/-- ANNOUNCE_RECEIPT_TIMEOUT (R515). -/
def execAnnounceReceiptTimeout (q : Nat) (s : State) : Host.Outcome State Fault Refusal := .next (s.ptpForget q)

/-- ETH_LINK_DOWN: 0x4070, the port's queue pairs go to the error state, and its time transmitter is gone (R504, R515). -/
def execEthLinkDown (q : Nat) (s : State) : Host.Outcome State Fault Refusal :=
  .next (
    if !(s.ethPort q).link then s
    else
      let s := s.setEthPort q .reset
      let s := { s with eth := { s.eth with
        qps := s.eth.qps.map (fun (e : Nat × QpSt) => (e.1, if e.2.port = q then { e.2 with failed := true } else e.2)) } }
      (s.raise 0x4070 none q 0).ptpForget q)

/-- PTP_EVENT_MESSAGE: timestamped and passed to the beat unit (R479). -/
def execPtpEventMessage (q : Nat) (_ : PtpKind) (seq timestamp : Nat) (s : State) : Host.Outcome State Fault Refusal :=
  .next (
    if !s.ptpOn q then s
    else
      let s := s.countRx q
      s.setPtp { s.beats.ptp with stamps := s.beats.ptp.stamps.put q (seq, timestamp) })

/-- PTP_SYNC on the selected port: PTP time, the lock condition of ±1 µs over 16 Sync messages, and the calendar while LOCKED
(R514, R518, R534). -/
def execPtpSync (q : Nat) (kind : PtpKind) (tai : Nat) (offset : Int) (utc : Nat) (s : State) : Host.Outcome State Fault Refusal :=
  .next (
    if !s.ptpOn q then s
    else
      let s := s.countRx q
      let p := s.beats.ptp
      if p.port ≠ some q then s
      else
        let near := decide (offset.natAbs ≤ 1000)
        let p := { p with tai := some tai }
        let p : PtpSt := if kind ≠ .sync then p
          else if near then { p with good := p.good + 1, bad := 0, locked := p.locked || decide (16 ≤ p.good + 1) }
          else if 16 ≤ p.bad + 1 ∧ p.locked = true then { p with good := 0, bad := 0, locked := false, tai := none }
          else { p with good := 0, bad := p.bad + 1 }
        let s := (s.setPtp p).beatSettle
        if p.locked then
          s.setBeat { s.beats with cal := { s.beats.cal with
            valid := true, sec := tai / 1000000000, ps := tai % 1000000000 * 1000, utc := utc % 256 } }
        else s)

/-- BEAT_SOURCE_LOSS (R518, R520). -/
def execBeatSourceLoss (cause : BeatLoss) (s : State) : Host.Outcome State Fault Refusal :=
  .next (match cause with
    | .ptp => (s.setPtp { s.beats.ptp with good := 0, bad := 0, locked := false, tai := none }).beatSettle
    | _ => (s.setFibre s.beats.fibre.lose).beatSettle)

/-- A write of BEAT_CTRL: rejected while a job runs (R538). -/
def State.writeBeatCtrl (s : State) (value : Word) : State × Bool :=
  if s.anyJob then (s.reject, false) else ((s.setRegF Reg.beatCtrl 2 0 (bits 2 0 value)).beatSettle, true)

/-! ## The event table (R525 to R529) -/

abbrev BeatEntry := BitVec 128

def BeatEntry.action (e : BeatEntry) : Nat := bits 127 124 e
def BeatEntry.slot (e : BeatEntry) : Nat := bits 123 121 e
def BeatEntry.shifts (e : BeatEntry) : Bool := bit 120 e
def BeatEntry.flag (e : BeatEntry) : Nat := bits 119 117 e
def BeatEntry.duration (e : BeatEntry) : Nat := bits 111 96 e
def BeatEntry.offset (e : BeatEntry) : Nat := bits 95 64 e
def BeatEntry.period (e : BeatEntry) : Nat := bits 63 40 e
def BeatEntry.count (e : BeatEntry) : Nat := bits 39 24 e
def BeatEntry.arg (e : BeatEntry) : Nat := bits 23 0 e

def State.sched (s : State) (n : Nat) : BeatSlot := s.beats.slots.get .reset n
def State.setSched (s : State) (n : Nat) (x : BeatSlot) : State :=
  s.setBeat { s.beats with slots := s.beats.slots.put n x }

def State.entryOf (s : State) (i : Nat) : BeatEntry := s.beats.table.get 0 i

/-- The table entries of a slot, ascending. -/
def State.slotEntries (s : State) (n : Nat) : List (Nat × BeatEntry) :=
  s.beats.table.filter (fun (e : Nat × BeatEntry) => BeatEntry.slot e.2 == n)

/-- The tick of occurrence `k` (R527). -/
def occurrence (x : BeatSlot) (e : BeatEntry) (k : Nat) : Nat :=
  x.origin + BeatEntry.offset e + k * BeatEntry.period e + (if BeatEntry.shifts e then x.shift else 0)

/-- The entry has an occurrence `k`. -/
def hasOccurrence (e : BeatEntry) (k : Nat) : Bool :=
  if BeatEntry.period e = 0 then k == 0 else BeatEntry.count e == 0 || decide (k < BeatEntry.count e)

/-- The command that delivers an occurrence (R525). -/
def eventOf (e : BeatEntry) (i : Nat) : Option Instr :=
  match BeatEntry.action e with
  | 1 => some (.eventWindow i)
  | 2 => some (.eventBallast i)
  | 3 => some (.eventRamp i)
  | 4 => some (.eventCkpt i)
  | 5 => some (.eventDigest i)
  | 6 => some (.eventKat i)
  | _ => none

/-- Occurrence with closing tick `close` fires: its command is on its way, a WINDOW or CKPT is open until `close`. -/
def State.fire (s : State) (n i close : Nat) (e : BeatEntry) : State :=
  let x := s.sched n
  let s := if BeatEntry.action e = 1 ∨ BeatEntry.action e = 4 then s.setSched n { x with opens := x.opens ++ [(i, close)] } else s
  let s := s.addReg Reg.beatEvents 31 0 1
  match eventOf e i with
  | some m => s.send m
  | none => s

/-- The occurrences of one entry that the counter has reached: the one on this tick fires; of those passed by a forward step,
a WINDOW that would still be open opens for its remaining ticks, and the others are skipped (R522, R528).
Log 77 (DESIGN CHOICE), 85 (DESIGN CHOICE). -/
def State.fireEntry (s : State) (n : Nat) (i : Nat) (e : BeatEntry) : State :=
  let x := s.sched n
  let now := s.beat.toNat
  let k0 := s.beats.next.get 0 i
  let first := occurrence x e k0
  if now < first ∨ !hasOccurrence e k0 then s
  else
    -- the occurrences from k0 whose tick is at most `now`
    let m := if BeatEntry.period e = 0 then 1 else (now - first) / BeatEntry.period e + 1
    let m := if BeatEntry.period e = 0 ∨ BeatEntry.count e = 0 then m else min m (BeatEntry.count e - k0)
    let s := s.setBeat { s.beats with next := s.beats.next.put i (k0 + m) }
    let span := min m (BeatEntry.duration e / max 1 (BeatEntry.period e) + 2)
    let ks := (List.range span).map (fun j => k0 + m - span + j)
    let live := ks.filter (fun k =>
      let t := occurrence x e k
      t == now || (BeatEntry.action e == 1 && decide (now < t + BeatEntry.duration e)))
    let s := live.foldl (fun s k => s.fire n i (occurrence x e k + BeatEntry.duration e) e) s
    if m = live.length then s else s.satReg Reg.beatEvents 62 48 (m - live.length)

/-- The slot's occurrences that are due. -/
def State.fireSlot (s : State) (n : Nat) : State :=
  if (s.sched n).state = .running then (s.slotEntries n).foldl (fun s e => s.fireEntry n e.1 e.2) s else s

/-- The slot's occurrences whose closing tick the counter has reached: the command that closes each is on its way (R525,
R529). -/
def State.closeDue (s : State) (n : Nat) : State :=
  let now := s.beat.toNat
  ((s.sched n).opens.filter (fun o => decide (o.2 ≤ now))).foldl (fun s o =>
    let m : Instr := if BeatEntry.action (s.entryOf o.1) = 4 then .ckptEnd o.1 else .windowClose o.1
    if s.inFlight.contains m then s else s.send m) s

/-- The slot's schedule starts at its origin (R527). -/
def State.startSched (s : State) (n origin : Nat) : State :=
  let s := s.setSched n { s.sched n with state := .running, origin := origin, opens := [], shift := 0, slacks := [] }
  let s := s.setBeat { s.beats with next := s.beats.next.filter (fun (e : Nat × Nat) => BeatEntry.slot (s.entryOf e.1) != n) }
  s.fireSlot n

/-- The slot's schedule stops: its window flags and an open CKPT clear (R529). -/
def State.stopSched (s : State) (n : Nat) : State :=
  let x := s.sched n
  if x.state = .idle then s
  else
    let ckpt := x.opens.any (fun o => BeatEntry.action (s.entryOf o.1) == 4)
    let s := (s.setSched n { x with state := .stopped, opens := [], slacks := [] }).modSlot n (fun y => { y with wflags := 0 })
    if ckpt then (s.setRegF Reg.redCtrl n n 0).endCkpt n else s

/-- A listed occurrence of entry `i` taken from the flight, with its slot and entry. Log 77 (DESIGN CHOICE). -/
def State.onEvent (s : State) (m : Instr) (i : Nat) (act : State → Nat → BeatEntry → State) : State :=
  if s.inFlight.contains m then act (s.deliver m) (BeatEntry.slot (s.entryOf i)) (s.entryOf i) else s

/-- EVENT_WINDOW: the flag is set at the slot's cells, unless the occurrence has closed again; a new beat window begins at the
stations (R106, R468, R525, R528). -/
def execEventWindow (i : Nat) (s : State) : Host.Outcome State Fault Refusal :=
  .next (s.onEvent (.eventWindow i) i (fun s n e =>
    let s := { s with skys := s.skys.map (fun (p : Nat × SkyPort) => (p.1, { p.2 with warned := false })) }
    if (s.sched n).opens.any (fun o => o.1 == i) then s.send (.windowFlag n (BeatEntry.flag e) true) else s))

/-- The occurrence of entry `i` that closes first is open no more. -/
def BeatSlot.shut (x : BeatSlot) (i : Nat) : BeatSlot :=
  match x.opens.find? (fun o => o.1 == i) with
  | some o => { x with opens := x.opens.erase o }
  | none => x

/-- WINDOW_CLOSE: the flag clears when no occurrence on it is open (R529). -/
def execWindowClose (i : Nat) (s : State) : Host.Outcome State Fault Refusal :=
  .next (s.onEvent (.windowClose i) i (fun s n e =>
    let s := s.setSched n ((s.sched n).shut i)
    if (s.sched n).opens.any (fun o =>
        BeatEntry.action (s.entryOf o.1) == 1 && BeatEntry.flag (s.entryOf o.1) == BeatEntry.flag e) then s
    else s.send (.windowFlag n (BeatEntry.flag e) false)))

/-- EVENT_CKPT: the slot's checkpoint bit is set (R441, R525). -/
def execEventCkpt (i : Nat) (s : State) : Host.Outcome State Fault Refusal :=
  .next (s.onEvent (.eventCkpt i) i (fun s n _ => s.setRegF Reg.redCtrl n n 1))

/-- CKPT_END: the checkpoint bit clears, and a confirmation that waited is applied (R441, R525). -/
def execCkptEnd (i : Nat) (s : State) : Host.Outcome State Fault Refusal :=
  .next (s.onEvent (.ckptEnd i) i (fun s n _ =>
    let s := s.setSched n ((s.sched n).shut i)
    (s.setRegF Reg.redCtrl n n 0).endCkpt n))

/-- EVENT_DIGEST (R525). Log 82 (DEDUCED). -/
def execEventDigest (i : Nat) (s : State) : Host.Outcome State Fault Refusal :=
  .next (s.onEvent (.eventDigest i) i (fun s n _ => s.releaseMail n))

/-! ## Slack (R530, R531) -/

/-- Tick `w`, given by its low 32 bits, is the tick after the present one or already past it. -/
def State.slackLate (s : State) (w : Nat) : Bool :=
  let d := (w + 2 ^ 32 - s.beat.toNat % 2 ^ 32) % 2 ^ 32
  decide (d ≤ 1) || decide (2 ^ 31 ≤ d)

/-- SLACK: collected at the root, refused when it arrives at or after tick W − 1 began, and passed on toward the root
elsewhere (R530). Log 80 (DESIGN CHOICE). -/
def execSlack (n w k : Nat) (s : State) : Host.Outcome State Fault Refusal :=
  .next (
    let s := s.deliver (.slack n w k)
    let x := s.sched n
    if x.members.isEmpty ∨ x.parent = 0xFFFF then
      if s.slackLate w then (s.satReg (Reg.beatSlackTally n) 62 48 1).raise 0x4082 (some n) 0 w
      else s.setSched n { x with slacks := x.slacks ++ [(w, k)] }
    else s.toModule x.parent (.slack n w k))

/-- SHIFT_DECISION at tick W − 1: SHIFT with the largest request goes to every member (R530). Log 80 (DESIGN CHOICE). -/
def execShiftDecision (n w : Nat) (s : State) : Host.Outcome State Fault Refusal :=
  .next (
    let s := s.deliver (.shiftDecision n w)
    let x := s.sched n
    let asked := x.slacks.filter (fun r => r.1 == w)
    if asked.isEmpty then s
    else
      let k := asked.foldl (fun m r => max m r.2) 0
      let s := s.setSched n { x with slacks := x.slacks.filter (fun r => r.1 != w) }
      ((x.members.filter (fun m => m != s.moduleNo)).foldl (fun s m => s.toModule m (.shift n w k)) s).send (.shift n w k))

/-- SHIFT: the slot's S grows (R530). -/
def execShift (n w k : Nat) (s : State) : Host.Outcome State Fault Refusal :=
  .next (
    let s := s.deliver (.shift n w k)
    let x := s.sched n
    (s.setSched n { x with shift := x.shift + k }).satReg (Reg.beatSlackTally n) 31 0 1)

/-- A slack request of slot `n` sent by this module (R530, R531). Log 80 (DESIGN CHOICE), 97 (DEDUCED). -/
def State.sendSlack (s : State) (n w k : Nat) : State := (s.satReg (Reg.beatSlackTally n) 47 32 1).send (.slack n w k)

/-- A write of BEAT_SLACK (R531, R538). -/
def State.writeSlack (s : State) (value : Word) : State × Bool :=
  let n := bits 62 60 value
  let k := bits 56 44 value
  if !bit 63 value then (s, true)
  else if k = 0 ∨ (s.sched n).maxSlack < k then (s.reject (some n), false)
  else (s.sendSlack n (bits 31 0 value) k, true)

/-! ## The calendar (R534, R535) -/

/-- The calendar `p` picoseconds later. Log 135 (DEDUCED), 153 (DEDUCED). -/
def Calendar.advance (c : Calendar) (p : Nat) : Calendar :=
  { c with sec := c.sec + (c.ps + p) / 1000000000000, ps := (c.ps + p) % 1000000000000 }

/-- BEAT_TIME_SEC as it reads (R538). -/
def State.timeSec (s : State) : Word :=
  let c := s.beats.cal
  BitVec.ofNat 64 (field 63 63 (ofBool c.valid) + field 55 48 c.utc + field 47 0 c.sec)

/-- The nanoseconds latched by a read of BEAT_TIME_SEC. -/
def State.latchTime (s : State) : State :=
  s.setBeat { s.beats with cal := { s.beats.cal with latch := s.beats.cal.ps / 1000 } }

/-- BEAT_TIME_SEC_READ (R535). -/
def execBeatTimeSecRead (s : State) : Host.Outcome State Fault Refusal := .next s.latchTime

/-- Writes of BEAT_TIME_SEC and BEAT_TIME_NS set the calendar (R534). -/
def State.writeTimeSec (s : State) (value : Word) : State :=
  s.setBeat { s.beats with cal := { s.beats.cal with valid := true, sec := bits 47 0 value, utc := bits 55 48 value } }

def State.writeTimeNs (s : State) (value : Word) : State :=
  let ns := bits 29 0 value
  s.setBeat { s.beats with cal := { s.beats.cal with ps := ns * 1000, latch := ns } }

/-! ## Loading a schedule (R524 to R526, R673) -/

/-- The slot's entries freed and its schedule idle, at load step 3. -/
def State.clearSched (s : State) (n : Nat) : State :=
  let gone := (s.slotEntries n).map (fun e => e.1)
  s.setBeat { s.beats with
    table := s.beats.table.filter (fun (e : Nat × BeatEntry) => !gone.contains e.1),
    next := s.beats.next.filter (fun (e : Nat × Nat) => !gone.contains e.1),
    slots := s.beats.slots.put n .reset }

/-- The lowest `k` free indices of the event table. Log 84 (DESIGN CHOICE). -/
def freeEntries (t : Tbl (BitVec 128)) (k : Nat) : List Nat :=
  ((List.range 4096).filter (fun i => (t.find i).isNone)).take k

/-- The argument of a KAT entry lies in its ranges and the slot's rectangle (R591). -/
def State.katArgOk (s : State) (n : Nat) (e : BeatEntry) : Bool :=
  let a := BeatEntry.arg e
  let r := natBits 19 13 a
  BeatEntry.action e != 6 || (decide (natBits 23 20 a ≤ 5) && natBits 6 0 a == 0 &&
    (r == 0x7F || (decide (r < 72) && (s.slot n).rect.has r)) && (natBits 12 8 a == 0x1F || decide (natBits 12 8 a < 30)))

/-- BEATSCHED written into the beat unit for a slot whose earlier entries are freed; none where R526 refuses it.
Log 84 (DESIGN CHOICE). -/
def State.beatPlan (s : State) (n : Nat) (bs : Bytes) : Option State :=
  let s := s.clearSched n
  if bs.length < 32 then none
  else
    let ec := leAt bs 0 2
    let mc := leAt bs 2 2
    let lead := leAt bs 0x0B 1
    let slack := leAt bs 0x0C 2
    let mlen := 16 * ceilDiv (2 * mc) 16
    let members := (List.range mc).map (fun k => leAt bs (32 + 2 * k) 2)
    let words := (List.range ec).map (fun k => BitVec.ofNat 128 (leAt bs (32 + mlen + 16 * k) 16))
    let idx := freeEntries s.beats.table ec
    if 4096 < ec ∨ 8192 < mc ∨ 6 < leAt bs 0x0A 1 ∨ lead = 1 ∨ 16 < lead ∨ slack = 0 ∨ 4096 < slack ∨
        leAt bs 0x0E 18 ≠ 0 ∨ bs.length ≠ 32 + mlen + 16 * ec ∨ leAt bs (32 + 2 * mc) (mlen - 2 * mc) ≠ 0 then none
    else if words.any (fun w => BeatEntry.action w == 0 || decide (6 < BeatEntry.action w) || bits 116 112 w != 0 ||
        BeatEntry.duration w == 0 || !s.katArgOk n w) || members.any (fun m => decide (8192 ≤ m)) then none
    else if idx.length < ec ∨ (1 < mc ∧ !s.admitted) ∨ (mc ≠ 0 ∧ !members.contains s.moduleNo) then none
    else
      let t := (idx.zip words).foldl (fun t e => Tbl.put e.1 (setBits 123 121 n e.2) t) s.beats.table
      let x : BeatSlot := { BeatSlot.reset with
        members := members, group := leAt bs 4 4, parent := leAt bs 8 2, lead := if lead = 0 then 2 else lead, maxSlack := slack }
      some ((s.setBeat { s.beats with table := t, slots := s.beats.slots.put n x }).modSlot n (fun y =>
        { y with sync := members.filter (fun m => m != s.moduleNo) }))

end Sys2Proof.Machine
end

