-- ==== Sys2Proof/Machine/Logbook.lean ====
section
/-! DEFINITION. The log book: the licence clock (R649), journal records (R652, R653), fault records as bytes (R576), and the
watch list with its marks (R593, R594). -/

namespace Sys2Proof.Machine

open Sys2Proof

def State.setBook (s : State) (b : LogSt) : State := { s with book := b }
def State.setFlt (s : State) (f : FltSt) : State := { s with flt := f }

/-- The licence clock (R649). -/
def State.licenceClock (s : State) : Nat :=
  if s.beats.cal.valid then max s.beats.cal.sec s.book.seen else s.book.seen

/-- A log-book commit: the latest time seen advances to the calendar (R649). Log 105 (DEDUCED). -/
def State.commitBook (s : State) : State := s.setBook { s.book with seen := s.licenceClock }

/-- The records that the general and the permanent area hold (R653). -/
def generalSize : Nat := 16_777_216
def permanentSize : Nat := 4_194_304

/-- A journal record written (R652, R653): a new general record takes the oldest one's place; a full permanent area takes no
more and raises 0x40B1. Log 102 (DESIGN CHOICE). -/
def State.journal (s : State) (kind : Nat) (body : Bytes) (permanent : Bool := false) : State :=
  let b := s.book
  let r : JournalRec := ⟨kind, b.seq, s.licenceClock, s.reg Reg.beatCounter, slice body 0 36⟩
  if permanent then
    if permanentSize ≤ b.permanents then s.raise 0x40B1 none 0 0
    else (s.setBook { b with permanent := r :: b.permanent, permanents := b.permanents + 1, seq := (b.seq + 1) % 2 ^ 32 }).commitBook
  else
    (s.setBook { b with
      general := (r :: b.general).take generalSize, generals := b.generals + 1, seq := (b.seq + 1) % 2 ^ 32 }).commitBook

/-- The 64 bytes of a journal record (R652). Log 102 (DESIGN CHOICE). -/
def JournalRec.bytes (r : JournalRec) : Bytes :=
  let head := toLE 4 r.kind ++ toLE 4 r.seq ++ toLE 8 r.tai ++ toLE 8 r.beat.toNat ++ slice r.body 0 36
  head ++ toLE 4 (crc32c head).toNat

/-- A fault record without its check, 28 bytes (R576). Log 102 (DESIGN CHOICE). -/
def FaultRec.head (r : FaultRec) : Bytes :=
  toLE 8 r.beat.toNat ++ toLE 2 r.code ++ toLE 1 r.cls ++ toLE 1 r.slot ++ toLE 4 r.unit ++ toLE 4 r.detail ++
    toLE 1 r.position ++ toLE 1 r.action ++ toLE 2 r.count ++ toLE 4 r.seq

/-- The 32 bytes of a fault record (R576). -/
def FaultRec.bytes (r : FaultRec) : Bytes := r.head ++ toLE 4 (crc32c r.head).toNat

/-! ## The watch list (R593, R594, R606) -/

/-- A watch-list entry in the form of FLT_WATCH_ENTRY. -/
def WatchEnt.word (e : WatchEnt) : Word :=
  BitVec.ofNat 64 (field 63 62 e.kind + field 55 48 (min e.passes 255) + field 47 44 (min e.fails 15) + field 39 24 e.reason +
    field 17 0 e.unit)

/-- Log 102 (DESIGN CHOICE). -/
def State.watchJournal (s : State) (e : WatchEnt) (mark : Bool := false) : State :=
  s.journal 0x05 (toLE 8 e.word.toNat) mark

def WatchEnt.names (e : WatchEnt) (kind unit : Nat) : Bool := e.kind == kind && e.unit == unit

/-- The unit is on the list. -/
def State.watched (s : State) (kind unit : Nat) : Option WatchEnt := s.flt.watch.find? (fun e => e.names kind unit)

/-- How a unit marked bad is kept: a cell with the physical position that it has (R594). -/
def State.markOf (s : State) (kind unit : Nat) : Nat × Nat :=
  (kind, if kind = 1 then unit + 2 ^ 18 * s.posOfCell unit else unit)

/-- The entry with the most passes, the oldest of them. Log 103 (DEDUCED). -/
def mostPasses : List WatchEnt → Option WatchEnt
  | [] => none
  | e :: r =>
    match mostPasses r with
    | none => some e
    | some m => some (if m.passes ≤ e.passes then e else m)

/-- A full list loses its entry with the most passes (R593). Log 103 (DEDUCED). -/
def State.watchRoom (s : State) : State :=
  if s.flt.watch.length < 256 then s
  else
    match mostPasses s.flt.watch with
    | none => s
    | some e => (s.setFlt { s.flt with watch := s.flt.watch.erase e, dropped := satAdd 16 s.flt.dropped 1 }).watchJournal e

/-- A failure or finding of a unit: it is listed with one fail, or its fails rise and its passes return to 0; at two fails it
is marked bad. Log 103 (DEDUCED). -/
def State.watchFail (s : State) (kind unit code : Nat) : State :=
  match s.watched kind unit with
  | none =>
    let e : WatchEnt := ⟨kind, 0, 1, code, unit⟩
    let s := s.watchRoom
    (s.setFlt { s.flt with watch := s.flt.watch ++ [e] }).watchJournal e
  | some e =>
    let n : WatchEnt := { e with passes := 0, fails := min 15 (e.fails + 1) }
    let s := s.setFlt { s.flt with watch := s.flt.watch.map (fun w => if w = e then n else w) }
    if e.fails = 1 then
      let f := s.flt
      ((s.setFlt { f with bad := (f.bad.erase (s.markOf kind unit)) ++ [s.markOf kind unit], marked := satAdd 16 f.marked 1 }).watchJournal n true).raise
        0x40A2 none unit 0
    else s

/-- A passed test that covers a listed unit; after 64 passes in a row the entry leaves. -/
def State.watchPass (s : State) (kind unit : Nat) : State :=
  match s.watched kind unit with
  | none => s
  | some e =>
    let n : WatchEnt := { e with passes := e.passes + 1 }
    if 64 ≤ n.passes then (s.setFlt { s.flt with watch := s.flt.watch.erase e }).watchJournal n
    else s.setFlt { s.flt with watch := s.flt.watch.map (fun w => if w = e then n else w) }

/-- The host removes the entry at an index. Log 103 (DEDUCED). -/
def State.watchDrop (s : State) (i : Nat) : State :=
  match s.flt.watch[i]? with
  | none => s
  | some e => (s.setFlt { s.flt with watch := s.flt.watch.eraseIdx i }).watchJournal e

/-! ## The licence in force (R647 to R650) -/

/-- Bits [5:0] of the features word in force: 0 without a licence and once it has expired. -/
def State.features (s : State) : Nat :=
  match s.rng.licence with
  | some l => if s.rng.expired then 0 else natBits 5 0 (leAt l 0x10 4)
  | none => 0

/-- The stand tier licensed: 0 none, 1 Grove, 2 Stand, 3 Forest. -/
def State.standTier (s : State) : Nat := natBits 4 3 s.features

/-! ## The lifetime counters (R651) -/

/-- The counters written to flash, a log-book commit. -/
def State.flushLife (s : State) : State := (s.setBook { s.book with flash := s.book.life }).commitBook

/-- LOGBOOK_FLUSH. Log 105 (DEDUCED). -/
def execLogbookFlush (s : State) : Host.Outcome State Fault Refusal := .next s.flushLife

end Sys2Proof.Machine
end

