-- ==== Sys2Proof/Machine/Stacks.lean ====
section
/-! DEFINITION. Stacked, board and far memory: errors, map-out, temperatures, repair access, RDIMMs and CXL (R385 to R411). -/

namespace Sys2Proof.Machine

open Sys2Proof

/-! ## Stacks (R386, R390, R395) -/

/-- CA_PARITY_ERROR: the command is retried once and counted (R386, R408). With a second error the read is a tier read
error, which its requester's own command reports. Log 159 (DEDUCED). -/
def execCaParityError (ch : Nat) (_second : Bool) (s : State) : Host.Outcome State Fault Refusal :=
  .next (s.satReg (Reg.stkErrors (ch / 32)) 31 0 1)

/-- STACK_UNCORRECTABLE_READ: counted; at 64 since the module reset the channel is set for map-out and 0x4040 raised
(R390). -/
def execStackUncorrectableRead (ch : Nat) (s : State) : Host.Outcome State Fault Refusal :=
  .next (
    let k := ch / 32
    let s := s.satReg (Reg.stkErrors k) 62 32 1
    let n := s.tiers.uncorrected.get 0 ch + 1
    let s := { s with tiers := { s.tiers with uncorrected := s.tiers.uncorrected.put ch n } }
    if n = 64 then (s.setReg (Reg.stkMapout k) (s.reg (Reg.stkMapout k) ||| BitVec.ofNat 64 (2 ^ (ch % 32)))).raise 0x4040 none ch 0
    else s)

/-- T1 holds no object extent. -/
def State.t1Empty (s : State) : Bool :=
  s.yard.objs.all (fun e => e.2.tier != 1 || e.2.all == 0) && s.yard.allocs.all (fun a => a.dest != 1 || a.got.isEmpty)

/-- A write of STK_WRAP_CMD: go starts the instruction when T1 holds no object extent, no load is active, no job runs and no
instruction is in progress (R395). Log 104 (DESIGN CHOICE). -/
def State.wrapperWrite (s : State) (k : Nat) (value : Word) : State × Bool :=
  let a := Reg.stkWrapCmd k
  if !bit 63 value then (s.setRegF a 39 0 (bits 39 0 value), true)
  else if s.regF a 62 61 = 1 then (s.reject none k, false)
  else if s.t1Empty && !s.loadActive && !s.anyJob then ((s.setRegF a 39 0 (bits 39 0 value)).setRegF a 62 61 1, true)
  else ((s.setRegF a 62 61 3).reject none k, false)

/-- A hard repair is recorded in the log book: stack, channel, row and repair kind (R396, R652). Log 104 (DESIGN CHOICE). -/
def State.noteRepair (s : State) (k : Nat) : State :=
  match Config.hardRepair (s.regF (Reg.stkWrapCmd k) 31 0) (s.reg (Reg.stkWrapData k)) with
  | some (c, r, t) => s.journal 0x03 (toLE 4 k ++ toLE 4 c ++ toLE 4 r ++ toLE 4 t) true
  | none => s

/-- WRAPPER_INSTRUCTION_DONE (R395, R396, R408). -/
def execWrapperInstructionDone (k : Nat) (data : Word) (s : State) : Host.Outcome State Fault Refusal :=
  .next (if s.regF (Reg.stkWrapCmd k) 62 61 = 1 then
      ((s.noteRepair k).setRegF (Reg.stkWrapCmd k) 62 61 2).setReg (Reg.stkWrapData k) data
    else s)

/-! ## Stack temperature (R393, R394) -/

/-- The regions adjacent to a stack (R25, R393). -/
def stackRegions (k : Nat) : List Nat :=
  let w := k / 12
  let i := k % 12 % 4
  let a := 3 * i / 2
  match k % 12 / 4 with
  | 0 => [6 * w + a, 6 * w + a + 1]
  | 1 => [a * 12 + 11 * w, (a + 1) * 12 + 11 * w]
  | _ => [60 + 6 * w + a, 60 + 6 * w + a + 1]

/-- The temperature's actions: each begins at its limit and holds until the release point (R394). -/
def StackTemp.sample (x : StackTemp) (t : Nat) : StackTemp :=
  { temp := t, hot := decide (85 ≤ t),
    limit2 := decide (95 ≤ t) || (x.limit2 && decide (90 ≤ t)),
    limit5 := decide (100 ≤ t) || (x.limit5 && decide (95 ≤ t)),
    overtemp := decide (105 ≤ t) || (x.overtemp && decide (100 ≤ t)) }

def State.stackTemp (s : State) (k : Nat) : StackTemp := s.tiers.temps.get .reset k

/-- The stacks' temperatures of one tick (R394). -/
def State.sampleStacks (s : State) (l : List (Nat × Nat)) : State :=
  l.foldl (fun s e =>
    let x := s.stackTemp e.1
    let y := x.sample e.2
    let s := { s with tiers := { s.tiers with temps := s.tiers.temps.put e.1 y } }
    if y.overtemp && !x.overtemp then s.raise 0x4041 none e.1 0 else s) s

/-! ## The memories stage and the cruise (R388 to R391, R398, R404) -/

/-- The channels out of service after a cruise: those pending and those that it found failing (R389, R390); the stack pool is
sized for the rest, and its contents are undefined. -/
def State.sizeStacks (s : State) (failing : List Nat) : State :=
  let dead := (List.range 768).filter (fun c => failing.contains c || bit (c % 32) (s.reg (Reg.stkMapout (c / 32))))
  let n := t1Extents (768 - dead.length)
  { s with tiers := { s.tiers with dead := dead, total1 := n, free1 := if n = 0 then [] else [(stagingExtents, n)],
                                   uncorrected := [] } }

/-- The RDIMMs that the memories stage found: slot, GB, rated speed and rank organisation (R397, R398, R399). -/
def State.sizeBoard (s : State) (dimms : List (Nat × Nat × Nat × Nat)) : State :=
  let used := fun (d : Nat × Nat × Nat × Nat) => min d.2.1 128
  let per := (List.range 8).map (fun b => (dimms.filter (fun d => d.1 / 4 == b)).length)
  let same := match dimms with
    | [] => false
    | d :: t => t.all (fun e => used e == used d && e.2.2.2 == d.2.2.2)
  let n := per.headD 0
  let ok := same && per.all (fun k => k == n) && (n == 1 || n == 2 || n == 4) &&
    dimms.all (fun d => decide (64 ≤ d.2.1) && decide (d.2.1 ≤ 256))
  let lim := s.regF Reg.brdSpeedLimit 15 0
  let lim := if 4800 ≤ lim ∧ lim ≤ 6400 then lim else 6400
  let speed := dimms.foldl (fun m d => min m d.2.2.1) lim
  let set := (List.range 32).flatMap (fun k => (dimms.filter (fun d => d.1 == k)).map (fun d => (k, used d)))
  if ok then
    let total := dimms.length * ((dimms.map used).headD 0 * 1000000000) / extentBytes
    { s with tiers := { s.tiers with dimms := set, speed := speed, board := 1, total2 := total, free2 := [(0, total)] } }
  else
    ({ s with tiers := { s.tiers with dimms := set, speed := 0, board := 2, total2 := 0, free2 := [] } }).raise 0x4043 none 0 0

def farLimit : Nat := 268435456

/-- Capacity of a port appended to the far pool in whole extents (R404, R405): the state and the extents added.
Log 47 (DESIGN CHOICE). -/
def State.addFar (s : State) (p bytes : Nat) : State × Nat :=
  let top := s.tiers.far.foldl (fun m r => max m (r.2.1 + r.2.2)) 0
  let n := min (bytes / extentBytes) (farLimit - s.tiers.total3)
  if n = 0 then (s, 0)
  else
    (({ s with tiers := { s.tiers with far := s.tiers.far ++ [(p, top, n)], total3 := s.tiers.total3 + n } }).freeExtents 3
      [(top, n)], n)

/-- A port trained, or not (R402, R406). -/
def State.trainCxl (s : State) (p : Nat) (up : Bool) (width rate devices unsupported bytes : Nat) : State :=
  if up then ((s.setCxl p ⟨.active, width, rate, devices, unsupported⟩).addFar p bytes).1
  else s.setCxl p { s.cxl p with state := .down, width := 0, rate := 0 }

/-- The CXL ports as the memories stage finds them: unlicensed, or trained in port order (R403, R404, R650). -/
def State.sizeFar (s : State) (licensed : Bool) (ports : List (Nat × Nat × Nat × Nat × Nat × Nat)) : State :=
  let s := { s with tiers := { s.tiers with farTier := licensed, far := [], total3 := 0, free3 := [] } }
  (List.range 4).foldl (fun s p =>
    if !licensed then s.setCxl p { CxlPort.reset with state := .unlicensed }
    else match ports.find? (fun e => e.1 == p) with
      | some (_, w, r, d, u, b) => s.trainCxl p true w r d u b
      | none => s.setCxl p CxlPort.reset) s

/-! ## RDIMMs (R400) -/

/-- RDIMM_FAIL: an RDIMM stopped answering; its granules read as errors and every object resident in T2 is damaged. -/
def execRdimmFail (k : Nat) (s : State) : Host.Outcome State Fault Refusal :=
  .next (
    let s := (s.setReg Reg.brdFailed (s.reg Reg.brdFailed ||| BitVec.ofNat 64 (2 ^ k))).raise 0x4042 none k 0
    s.damage (fun t _ => t == 2))

/-! ## CXL (R405, R406) -/

/-- CXL_READ_TIMEOUT: a read returned poison or timed out (R406, R410). -/
def execCxlReadTimeout (p : Nat) (poison : Bool) (s : State) : Host.Outcome State Fault Refusal :=
  .next (if poison then s.satReg (Reg.cxlErrors p) 62 32 1 else s.satReg (Reg.cxlErrors p) 31 0 1)

/-- CXL_LINK_DOWN: the port is DOWN and the objects with an extent there are damaged (R406). -/
def execCxlLinkDown (p : Nat) (s : State) : Host.Outcome State Fault Refusal :=
  .next (
    let x := s.cxl p
    if x.state ≠ .active ∧ x.state ≠ .training then s
    else
      let s := (s.setCxl p { x with state := .down }).raise 0x4044 none p 0
      s.damage (fun t e => t == 3 && s.tiers.farPort e == some p))

/-- DCD_ADD: added capacity joins the far pool in whole extents (R405). Log 47 (DESIGN CHOICE). -/
def execDcdAdd (p bytes : Nat) (s : State) : Host.Outcome State Fault Refusal :=
  .next (if (s.cxl p).state ≠ .active then s
    else
      let r := s.addFar p bytes
      r.1.satReg (Reg.cxlDcd p) 31 0 r.2)

/-- The extents of the far pool that objects or allocations hold. -/
def State.farFree (s : State) (e : Nat) : Bool := runsHas s.tiers.free3 e

/-- DCD_RELEASE: extents of the range that no object holds leave the pool; a range with a held one counts a refusal
(R405). -/
def execDcdRelease (p first count : Nat) (s : State) : Host.Outcome State Fault Refusal :=
  .next (
    let own := s.tiers.far.flatMap (fun r =>
      if r.1 = p then
        let lo := max r.2.1 first
        let hi := min (r.2.1 + r.2.2) (first + count)
        if lo < hi then [(lo, hi - lo)] else []
      else [])
    let free := own.flatMap (fun w => s.tiers.free3.flatMap (fun r =>
      let lo := max r.1 w.1
      let hi := min (r.1 + r.2) (w.1 + w.2)
      if lo < hi then [(lo, hi - lo)] else []))
    let n := runsCount free
    let far := free.foldl (fun l f => l.flatMap (fun r => (runsCut f.1 f.2 [(r.2.1, r.2.2)]).map (fun q => (r.1, q)))) s.tiers.far
    let s' := { s with tiers := { s.tiers with
      far := far, total3 := s.tiers.total3 - n, free3 := free.foldl (fun l f => runsCut f.1 f.2 l) s.tiers.free3 } }
    if n < runsCount own then s'.satReg (Reg.cxlDcd p) 62 32 1 else s')

/-- The far pool holds an object extent on port `p`. -/
def State.farHeld (s : State) (p : Nat) : Bool :=
  s.tiers.far.any (fun r => r.1 == p && decide (0 < r.2.2) &&
    !s.tiers.free3.any (fun f => decide (f.1 ≤ r.2.1) && decide (r.2.1 + r.2.2 ≤ f.1 + f.2)))

/-- A write of CXL_CTRL: the named ports retrain and re-enumerate, unless an object extent lies on one (R406, R410).
Log 47 (DESIGN CHOICE). -/
def State.rescan (s : State) (value : Word) : State × Bool :=
  let ps := (List.range 4).filter (fun p => bit p value)
  if ps.any s.farHeld then (s.reject, false)
  else
    (ps.foldl (fun s p =>
      if (s.cxl p).state = .unlicensed then s
      else
        let own : List (Nat × Nat × Nat) := s.tiers.far.filter (fun r => r.1 == p)
        let s := { s with tiers := { s.tiers with
          far := s.tiers.far.filter (fun r => r.1 != p), total3 := s.tiers.total3 - (own.map (fun (r : Nat × Nat × Nat) => r.2.2)).sum,
          free3 := own.foldl (fun l (r : Nat × Nat × Nat) => runsCut r.2.1 r.2.2 l) s.tiers.free3 } }
        s.setCxl p { CxlPort.reset with state := .training }) s, true)

/-- CXL_TRAINING_DONE: the port's training ended (R402, R406). Log 47 (DESIGN CHOICE). -/
def execCxlTrainingDone (p : Nat) (up : Bool) (width rate devices unsupported bytes : Nat) (s : State) :
    Host.Outcome State Fault Refusal :=
  .next (if (s.cxl p).state = .training then s.trainCxl p up width rate devices unsupported bytes else s)

end Sys2Proof.Machine
end

