-- ==== Sys2Proof/Machine/Power.lean ====
section
/-! DEFINITION. The power controller: operating points and their limits (R544 to R546), cap, ramp, ceiling, hold and floor
(R547 to R551), pacing (R552), ballast and the power plan (R553 to R556), droop (R557 to R559), thermal limits (R560, R561),
parity (R563), slack on throttling (R564), energy (R565), and region breakers (R541 to R543). -/

namespace Sys2Proof.Machine

open Sys2Proof

def State.setPower (s : State) (p : PowerSt) : State := { s with power := p }
def State.half (s : State) (h : Nat) : HalfSt := s.power.halves.get .reset h
def State.setHalf (s : State) (h : Nat) (x : HalfSt) : State := s.setPower { s.power with halves := s.power.halves.put h x }
def State.plan (s : State) (n : Nat) : PlanSt := s.power.plans.get .reset n
def State.setPlan (s : State) (n : Nat) (x : PlanSt) : State := s.setPower { s.power with plans := s.power.plans.put n x }

/-- A bit of PWR_ALARM set; POWER_ALARM is driven while any is (R573). -/
def State.alarm (s : State) (k : Nat) : State := s.setRegF Reg.pwrAlarm k k 1

/-! ## The state of the module (R624) -/

def State.retired (s : State) : Bool := bit 62 (s.reg Reg.modCtrl)

/-- A job is RUNNING, DRAINING, REPLAYING or REPAIRING. Log 94 (DEDUCED). -/
def State.jobActive (s : State) (n : Nat) : Bool := [1, 2, 5, 6].contains (s.jobState n)

/-- MOD_STATE.state (R624, R631): the first of the list that applies. -/
def State.moduleState (s : State) : Nat :=
  let any := (List.range 8).any s.jobActive
  if s.boot.stage = 0xF then 7
  else if s.boot.stage = 7 then 5
  else if s.boot.stage = 0 then 0
  else if s.boot.stage ≤ 5 then 1
  else if s.retired && any then 4
  else if s.boot.degraded ≠ 0 then 6
  else if any then 3
  else 2

/-! ## Operating points (R544 to R546, R563) -/

/-- The clock of an operating point in MHz (R544). -/
def opClock : Nat → Nat
  | 0 => 1500
  | 1 => 1400
  | 2 => 1250
  | 3 => 1050
  | 4 => 850
  | _ => 600

/-- The half's thermal limit with a severe droop's drop and the 105 °C action in force (R559, R560). Log 92 (DESIGN CHOICE). -/
def HalfSt.limit (x : HalfSt) : Nat := if x.hot then 5 else min 5 (x.thermal + (if x.droop.isSome then 1 else 0))

/-- The limit that stack temperatures set on a region (R394). -/
def State.stackLimit (s : State) (r : Nat) : Nat :=
  s.tiers.temps.foldl (fun m (e : Nat × StackTemp) =>
    let own := (stackRegions e.1).contains r
    if (own && e.2.limit5) || (e.2.overtemp && e.1 / 12 == wingOf r) then max m 5 else if own && e.2.limit2 then max m 2 else m) 0

/-- The coolant allowance is what sets the ceiling (R546). -/
def State.coolantRules (s : State) : Bool := s.power.ceiling == s.power.allow && decide (s.power.allow < 840)

def State.parity (s : State) : Bool := bit 3 (s.reg Reg.pwrOpLimit)

/-- The limits of a half with their sources (R546). Log 92 (DESIGN CHOICE). -/
def State.limits (s : State) (h : Nat) : List (Nat × Nat) :=
  let r := h / 2
  let plan := match s.slotOfRegion r with
    | some n => (s.plan n).op
    | none => 0
  [(1, if s.coolantRules then 0 else s.power.op), (2, (s.half h).limit), (3, s.stackLimit r),
   (4, min 5 (s.regF Reg.pwrOpLimit 2 0)), (5, plan), (6, ofBool s.parity), (7, if s.coolantRules then s.power.op else 0)]

/-- The slowest limit in force, with its source: the lowest-numbered of those that set it. Log 99 (DEDUCED). -/
def State.opLimit (s : State) (h : Nat) : Nat × Nat :=
  (s.limits h).foldl (fun m l => if m.2 < l.2 then l else m) (1, 0)

/-- The slowest of the limits other than power and coolant. Log 99 (DEDUCED). -/
def State.otherLimit (s : State) (h : Nat) : Nat :=
  (s.limits h).foldl (fun m l => if l.1 = 1 ∨ l.1 = 7 then m else max m l.2) 0

/-- The slowest of the limits power, thermal, stack and coolant (R563, R564). -/
def State.forcedLimit (s : State) (h : Nat) : Nat :=
  (s.limits h).foldl (fun m l => if [1, 2, 3, 7].contains l.1 then max m l.2 else m) 0

/-- parity_lost, and its count of events (R563). -/
def State.settleParity (s : State) : State :=
  let lost := s.parity && (List.range 144).any (fun h => decide (1 < s.forcedLimit h))
  let s' := s.setPower { s.power with parityLost := lost }
  if lost && !s.power.parityLost then s'.satReg Reg.pwrStatus 63 32 1 else s'

/-- OP_CHANGE_DONE: the half runs at the limit in force (R545). -/
def execOpChangeDone (h : Nat) (s : State) : Host.Outcome State Fault Refusal :=
  .next (if h < 144 then (s.setHalf h { s.half h with op := (s.opLimit h).2 }).settleParity else s)

/-! ## Caps and ramps (R547 to R551, R561) -/

/-- A write of PWR_CAP (R547, R573). -/
def State.writeCap (s : State) (value : Word) : State × Bool :=
  let cap := bits 9 0 value
  if cap < 80 ∨ 840 < cap then (s.reject, false)
  else ((s.setPower { s.power with now := bit 63 value }).setRegF Reg.pwrCap 9 0 cap, true)

/-- A write of PWR_RAMP (R548, R573). -/
def State.writeRamp (s : State) (value : Word) : State × Bool :=
  let lim := bits 9 0 value
  if lim < 5 ∨ 200 < lim then (s.reject, false) else (s.setRegF Reg.pwrRamp 9 0 lim, true)

/-- RAMP_LIMIT. -/
def State.rampLimit (s : State) : Nat := s.regF Reg.pwrRamp 9 0

/-- The effective cap of the cycle that begins (R547). -/
def State.nextCap (s : State) (p : Nat) : Nat :=
  let cap := s.regF Reg.pwrCap 9 0
  if s.power.e ≤ cap ∨ s.power.now = true then cap else max cap (min s.power.e p - s.rampLimit)

/-- Flow below 70 L/min or an inlet above 45 °C (R561). Log 89 (DEDUCED). -/
def coolantOut (m : CycleMeasure) : Bool := decide (m.flow < 700) || decide (450 < m.inlet)

/-- The coolant allowance (R561). Log 99 (DEDUCED). -/
def allowance (m : CycleMeasure) : Nat :=
  if coolantOut m then m.floor else 840 * min m.flow 1400 / 1400 - 4 * (m.inlet - 400)

/-- A boot is under way: the draw stays within 25.0 kW (R609). -/
def State.booting (s : State) : Bool := decide (2 ≤ s.boot.stage) && decide (s.boot.stage ≤ 5)

/-- The hold levels of the occupied slots (R548). Log 88 (DEDUCED). -/
def State.holdLevel (s : State) : Nat :=
  (List.range 8).foldl (fun m n => if s.occupied n then max m (s.plan n).hold else m) 0

/-- Ceiling and hold of the cycle that begins (R548). -/
def State.bounds (s : State) (e p allow : Nat) : Nat × Nat :=
  let t := s.power.ramp
  let c := min (min 840 e) (min (p + s.rampLimit) allow)
  let c := if t = 0 then c else min c t
  let c := if s.booting then min c 250 else c
  (c, min c (max (p - s.rampLimit) (max t s.holdLevel)))

/-- CAP_BELOW_FLOOR follows the ceiling; 0x4090 is raised as it sets (R550). -/
def State.settleFloor (s : State) : State :=
  let below := decide (s.power.ceiling < s.power.floor)
  let was := bit 0 (s.reg Reg.pwrAlarm)
  let s := s.setRegF Reg.pwrAlarm 0 0 (ofBool below)
  if below && !was then s.raise 0x4090 none 0 0 else s

/-! ## Energy (R565, R566) -/

/-- Energy charged to a slot's tallies, or to the idle tally: the job tally counts while the job runs. Log 94 (DEDUCED). -/
def State.charge (s : State) (n : Option Nat) (mj : Nat) : State :=
  match n with
  | none => s.addReg Reg.pwrEnergyIdle 63 0 mj
  | some n =>
    let s := s.addReg (Reg.pwrEnergyLoad n) 63 0 mj
    if [1, 2, 5].contains (s.jobState n) then s.addReg (Reg.pwrEnergyJob n) 63 0 mj else s

/-- The cycle's input energy apportioned: each region's to its slot, the rest by region counts, residues to the idle tally. -/
def State.apportion (s : State) (m : CycleMeasure) : State :=
  let r := m.regions.foldl (fun (p : State × Nat) e =>
    let w := min e.2 p.2
    (p.1.charge (s.slotOfRegion e.1) w, p.2 - w)) (s, m.energy)
  let live := (List.range 8).filter s.occupied
  let count := fun (n : Nat) => (s.slot n).rect.regions.length
  let all := (live.map count).sum
  let q := if all = 0 then (r.1, r.2) else live.foldl (fun (p : State × Nat) n =>
    let w := r.2 * count n / all
    (p.1.charge (some n) w, p.2 - w)) (r.1, r.2)
  let t := (q.1.charge none q.2).addReg Reg.pwrEnergyModule 63 0 m.energy
  { t with book := { t.book with life := { t.book.life with energy := t.book.life.energy + m.energy } } }

/-- MAINS_CYCLE: the measures of the cycle that ended set E, ceiling, hold and floor of the next, and its energy is
apportioned (R547 to R551, R560, R561, R565). Log 89 (DEDUCED). -/
def execMainsCycle (m : CycleMeasure) (s : State) : Host.Outcome State Fault Refusal :=
  .next (
    if s.boot.stage = 0 then s
    else
      let s := s.apportion m
      let s := if !s.power.exempt ∧ m.mean + 2 < s.power.hold then (s.alarm 1).raise 0x4091 none 0 0 else s
      let out := coolantOut m
      let s := if out ∧ !s.power.warm then ((s.alarm 2).raise 0x4093 none 0 0).journal 0x09 (toLE 4 m.flow ++ toLE 4 m.inlet) else s
      let e := s.nextCap m.mean
      let a := allowance m
      let b := s.bounds e m.mean a
      let still := s.boot.stage == 7 || s.regF Reg.pwrChrysalis 33 32 != 0
      let s := s.setPower { s.power with
        e := e, p := m.mean, now := false, allow := a, warm := out, ceiling := b.1, hold := b.2, floor := m.floor, makeup := 0,
        chrysalis := if s.boot.stage = 7 then m.mean else s.power.chrysalis, exempt := still,
        energy := m.regions.foldl (fun t e => Tbl.put e.1 e.2 t) [],
        halves := s.power.halves.map (fun (h : Nat × HalfSt) =>
          (h.1, if h.2.temp < 90 then { h.2 with thermal := h.2.thermal - 1 } else h.2)) }
      s.settleFloor.settleParity)

/-- INPUT_UNDERVOLTAGE: with the input switch closed the ceiling falls to the floor and 0x4092 is raised (R561, R667).
Log 89 (DEDUCED). -/
def execInputUndervoltage (s : State) : Host.Outcome State Fault Refusal :=
  .next (
    if s.boot.input ≠ 2 then s
    else
      let p := s.power
      ((s.setPower { p with ceiling := p.floor, hold := min p.hold p.floor }).alarm 3).raise 0x4092 none 0 0)

/-! ## Keeping the draw between hold and ceiling (R549, R552, R553) -/

/-- The cell may run ballast: held at a landing, barrier or window gate, or its looper is idle (R553). -/
def State.idleCell (s : State) (c : Nat) : Bool :=
  let x := s.cell c
  x.configured && match x.looper with
    | .idle => true
    | .running =>
      match s.heldBy c (x.stepAt x.pc) with
      | some k => k == 3 || k == 4 || k == 5
      | none => false
    | _ => false

/-- One re-evaluation at a tick against the measured input power (R549). Log 90 (DESIGN CHOICE). -/
def State.reevaluate (s : State) (power : Nat) : State :=
  let p := s.power
  if p.ceiling + 2 < power then
    if 0 < p.ballast ∨ 0 < p.makeup then s.setPower { p with ballast := 0, makeup := 0 }
    else if p.op < 5 then s.setPower { p with op := p.op + 1 }
    else if p.pace < 63 then s.setPower { p with pace := p.pace + 1 }
    else s
  else if power + 2 < p.hold then
    if 0 < p.pace then s.setPower { p with pace := p.pace - 1 }
    else if (List.range 144).any (fun h => decide (s.otherLimit h < p.op)) then s.setPower { p with op := p.op - 1 }
    else if p.ballast < 16 ∧ power < p.ceiling ∧ s.cells.any (fun e => s.idleCell e.1) = true then
      s.setPower { p with ballast := p.ballast + 1 }
    else s
  else s

/-- Any slot's window flag is set (R552). -/
def State.windowOpen (s : State) : Bool := (List.range 8).any (fun n => (s.slot n).wflags != 0)

/-- The regions with a half at 105 °C or above (R560). -/
def State.hotRegions (s : State) : List Nat :=
  (List.range 72).filter (fun r => (s.half (2 * r)).hot || (s.half (2 * r + 1)).hot)

/-- The pacing of the tick that begins: level k gates k of every 64 ticks, spread evenly, and never one in which a window
flag is set; the clocks of a gated tick count in paced (R552, R560). Log 90 (DESIGN CHOICE), 96 (DESIGN CHOICE). -/
def State.paceTick (s : State) : State :=
  let p := s.power
  let free := !s.windowOpen
  let d := if p.pace = 0 then 0 else p.debt + p.pace
  let g := free && decide (64 ≤ d)
  let hot := s.hotRegions.map (fun r => (r, p.debts.get 0 r + 63))
  let hg := if free then (hot.filter (fun (e : Nat × Nat) => decide (64 ≤ e.2))).map (fun e => e.1) else []
  let s := s.setPower { p with
    gated := g, debt := if g then d - 64 else d, hotGated := hg,
    debts := hot.map (fun (e : Nat × Nat) => (e.1, if hg.contains e.1 then e.2 - 64 else e.2)) }
  if !g && hg.isEmpty then s
  else
    let k := s.freeCtr
    { s with
      freeCtr := k + 144
      cells := s.cells.map (fun (e : Nat × CellSt) =>
        (e.1, if e.2.configured && s.paced e.1 then e.2.tally 11 ((Config.freeWord (k + halfOf e.1)).toNat % 2 ^ 16) else e.2)) }

/-! ## Thermal limits and droop (R557 to R560) -/

/-- One tick's reading of a half's junction sensor (R560). -/
def HalfSt.sample (x : HalfSt) (t : Nat) : HalfSt :=
  let hot := decide (105 ≤ t) || (x.hot && decide (100 ≤ t))
  { x with temp := t, hot := hot, thermal := if hot then 5 else if 95 ≤ t then min 5 (x.thermal + 1) else x.thermal }

/-- The junction readings of a tick, and severe droops whose mains cycle has passed. -/
def State.sampleJunctions (s : State) (l : List (Nat × Nat)) : State :=
  let now := s.beat.toNat
  let s := l.foldl (fun s e => if e.1 < 144 then s.setHalf e.1 ((s.half e.1).sample e.2) else s) s
  s.setPower { s.power with halves := s.power.halves.map (fun (h : Nat × HalfSt) =>
    (h.1, match h.2.droop with
      | some t => if t ≤ now then { h.2 with droop := none } else h.2
      | none => h.2)) }

/-- DROOP_CROSSING: the half's clocks stretch by 12.5 % at 4 % below nominal and by 25 % at 7 % (R557, R574).
Log 95 (DEDUCED). -/
def execDroopCrossing (f : FmId) (h percent : Nat) (s : State) : Host.Outcome State Fault Refusal :=
  .next (
    if percent < 4 ∨ h / 2 ≠ f.region ∨ !fmOk f then s
    else
      let x := s.half h
      let s := s.satReg (Reg.rgnDroop f.region) 62 32 1
      let s := if 0 < x.stretch then s.freeCount (Reg.rgnDroop f.region) 31 0 else s
      s.setHalf h { x with stretch := max x.stretch (if 7 ≤ percent then 4 else 2), easing := false })

/-- STRETCH_RELEASE: one step of 6.25 %, the first 64 clocks after the last crossing and each further one after 16 (R558).
Log 95 (DEDUCED). -/
def execStretchRelease (h : Nat) (s : State) : Host.Outcome State Fault Refusal :=
  .next (
    let x := s.half h
    if x.stretch = 0 then s
    else
      (s.satReg (Reg.rgnDroop (h / 2)) 31 0 (if x.easing then 16 else 64)).setHalf h
        { x with stretch := x.stretch - 1, easing := decide (1 < x.stretch) })

/-- DROOP_SEVERE: the half's thermal limit drops by one operating point for one mains cycle (R559). Log 91 (DEDUCED). -/
def execDroopSevere (h : Nat) (s : State) : Host.Outcome State Fault Refusal :=
  .next (
    if 143 < h then s
    else ((s.setHalf h { s.half h with droop := some (s.beat.toNat + 4096) }).raiseRgn 0x3012 (h / 2) 0).settleParity)

/-! ## Slack on throttling (R564) -/

/-- The tick of the next occurrence of the slot's shift entries. -/
def State.nextShift (s : State) (n : Nat) : Option Nat :=
  let x := s.sched n
  (s.slotEntries n).foldl (fun m e =>
    let k := s.beats.next.get 0 e.1
    if BeatEntry.shifts e.2 && hasOccurrence e.2 k then
      let t := occurrence x e.2 k
      match m with
      | some w => some (min w t)
      | none => some t
    else m) none

/-- A half of the slot runs below plan_op by a limit other than plan, host or parity; the slowest such operating point. -/
def State.throttle (s : State) (n : Nat) : Option Nat :=
  let hs := (s.slot n).rect.regions.flatMap (fun r => [2 * r, 2 * r + 1])
  if hs.any (fun h => decide ((s.plan n).op < s.forcedLimit h)) then
    some (hs.foldl (fun m h => max m (s.opLimit h).2) 0)
  else none

/-- One slot at a tick: the tick after a throttle begins asks for its slack. Log 97 (DEDUCED). -/
def State.throttleSlack (s : State) (n : Nat) : State :=
  let x := s.plan n
  let now := s.beat.toNat
  let th := if (s.sched n).state = .running then s.throttle n else none
  let s' := match x.since, s.nextShift n, th with
    | some ts, some w, some op =>
      let d := opClock op
      let k := min (s.sched n).maxSlack (ceilDiv ((w - ts) * (opClock x.op - d)) d)
      if ts < w ∧ now + (s.sched n).lead ≤ w ∧ 0 < k then s.sendSlack n (w % 2 ^ 32) k else s
    | _, _, _ => s
  s'.setPlan n { x with throttled := th.isSome, since := if th.isSome && !x.throttled then some now else none }

def State.throttleAll (s : State) : State :=
  (List.range 8).foldl (fun s n => if s.occupied n then s.throttleSlack n else s) s

/-- The power controller's part of a tick (R549, R552, R560, R564). -/
def State.powerTick (s : State) (power : Nat) (junction : List (Nat × Nat)) : State :=
  let s := s.sampleJunctions junction
  if s.boot.stage < 2 ∨ s.boot.stage = 7 ∨ s.boot.stage = 0xF then s
  else ((s.reevaluate power).paceTick.throttleAll).settleParity

/-! ## The power plan and its events (R554, R556) -/

/-- POWERPLAN written for a slot; none where R556 refuses it. -/
def State.powerPlan (s : State) (n : Nat) (bs : Bytes) : Option State :=
  let op := leAt bs 0 1
  let flags := leAt bs 1 1
  let hold := leAt bs 2 2
  if bs.length ≠ 16 ∨ 5 < op ∨ 3 < flags ∨ 840 < hold ∨ leAt bs 4 12 ≠ 0 then none
  else some (s.setPlan n ⟨op, flags, hold, hold, false, none⟩)

/-- The hold level counts as 0 when the job ends (R556), and is the plan's again when one starts. Log 94 (DEDUCED). -/
def State.dropHold (s : State) (n : Nat) : State := s.setPlan n { s.plan n with hold := 0 }
def State.takeHold (s : State) (n : Nat) : State := s.setPlan n { s.plan n with hold := (s.plan n).level }

/-- EVENT_BALLAST: the slot's hold level (R554). -/
def execEventBallast (i : Nat) (s : State) : Host.Outcome State Fault Refusal :=
  .next (s.onEvent (.eventBallast i) i (fun s n e => s.setPlan n { s.plan n with hold := natBits 9 0 (BeatEntry.arg e) }))

/-- EVENT_RAMP: the ramp target, 0 clearing it (R554). -/
def execEventRamp (i : Nat) (s : State) : Host.Outcome State Fault Refusal :=
  .next (s.onEvent (.eventRamp i) i (fun s _ e => s.setPower { s.power with ramp := natBits 9 0 (BeatEntry.arg e) }))

/-! ## Region breakers (R541 to R543, R560) -/

/-- A region's core draw in W over the last mains cycle. Log 93 (DEDUCED). -/
def State.regionWatts (s : State) (r : Nat) : Nat := s.power.energy.get 0 r * s.nominalHz / 1000

/-- The contents of the region die lost, with the T0 bytes of its cells (R36, R82, R122, R343, R542). Log 98 (DEDUCED). -/
def State.loseRegion (s : State) (r : Nat) : State :=
  let s := s.loseT0Cells (fun c => regionOf c == r)
  let k := s.freeCtr
  { s with
    freeCtr := k + eraSize
    eras := s.eras.put r (k, false)
    cells := s.cells.filter (fun (e : Nat × CellSt) => regionOf e.1 != r)
    fms := s.fms.filter (fun (e : Nat × FmSt) => (fmOfKey e.1).region != r)
    routers := s.routers.filter (fun (e : Nat × RouterSt) => regionOf e.1 != r)
    rgns := s.rgns.put r { s.rgn r with
      dark := true, held := false, dead := [], detourNone := false, hub := .reset, word := 0, gated := [], run := 0, asking := false } }

/-- RGN_BREAKER.state (R574). -/
def State.breaker (s : State) (r : Nat) : Nat := s.regF (Reg.rgnBreaker r) 1 0
def State.trips (s : State) (r : Nat) : Nat := s.regF (Reg.rgnBreaker r) 7 4

/-- The region's breaker opens, raising `code`; a region cruise in progress ends failed (R542, R543, R555, R628). -/
def State.trip (s : State) (r code : Nat) : State :=
  if 71 < r ∨ s.breaker r = 1 ∨ s.breaker r = 3 then s
  else
    let w := s.regionWatts r
    let s := s.satReg (Reg.rgnBreaker r) 7 4 1
    let s := s.setRegF (Reg.rgnBreaker r) 1 0 (if 3 ≤ s.trips r then 3 else 1)
    let s := if s.regF (Reg.rgnCruise r) 2 0 = 1 then s.setRegF (Reg.rgnCruise r) 2 0 3 else s
    let s := s.setPower { s.power with makeup := s.power.makeup + w }
    (s.loseRegion r).raiseRgn code r 0

/-- BREAKER_TRIP (R542). -/
def execBreakerTrip (r : Nat) (s : State) : Host.Outcome State Fault Refusal := .next (s.trip r 0x3010)

/-- JUNCTION_OVERTEMP: the breaker of the half's region opens (R560). Log 87 (DEDUCED). -/
def execJunctionOvertemp (h : Nat) (s : State) : Host.Outcome State Fault Refusal := .next (s.trip (h / 2) 0x3011)

/-- A write of RGN_BREAKER_CLEAR: a tripped breaker closes with a soft start (R543). Log 101 (DEDUCED). -/
def State.clearBreaker (s : State) (r : Nat) (value : Word) : State × Bool :=
  if !bit 0 value then (s, true)
  else if s.breaker r ≠ 1 ∨ 3 ≤ s.trips r then (s.reject (s.slotOfRegion r) r, false)
  else ((s.setRegF (Reg.rgnBreaker r) 1 0 2).modRgn r (fun x => { x with held := true }), true)

/-- SOFT_START_DONE: the breaker is closed; the region stays in region reset until its cruise, which runs (R543, R615).
Log 101 (DEDUCED). -/
def execSoftStartDone (r : Nat) (s : State) : Host.Outcome State Fault Refusal :=
  .next (if s.breaker r = 2 then
      ((s.setRegF (Reg.rgnBreaker r) 1 0 0).setRegF (Reg.rgnCruise r) 2 0 1).modRgn r (fun x => { x with dark := false, held := true })
    else s)

end Sys2Proof.Machine
end

