-- ==== Sys2Proof/Machine/Image.lean ====
section
/-! DEFINITION. The Kloath image as it lies in the staging area: header, section table, runs and signature (R44 to R57), and
the checks of VERIFYING in their order (R63). -/

namespace Sys2Proof.Machine

open Sys2Proof

/-- `n` bytes of the staged image (R60, R388): the staging area is the lowest 4 GiB of the stack pool. -/
def State.imgBytes (s : State) (off n : Nat) : Bytes := s.tiers.mem1.read off n

/-- A little-endian number of the staged image. -/
def State.imgN (s : State) (off n : Nat) : Nat := ofLE (s.imgBytes off n)

/-! ## Header (R45) -/

def State.imgCount (s : State) : Nat := s.imgN 0x0A 2
def State.imgLength (s : State) : Nat := s.imgN 0x10 8
def State.imgRect (s : State) : Rect := ⟨s.imgN 0x20 1, s.imgN 0x21 1, s.imgN 0x22 1, s.imgN 0x23 1⟩
def State.imgFeatures (s : State) : Nat := s.imgN 0x24 4
def State.imgPorts (s : State) : Nat := s.imgN 0x28 2
def State.imgOwner (s : State) : Nat := s.imgN 0x2A 1
def State.imgChunks (s : State) : Nat := s.imgN 0x38 4
def State.imgDirs (s : State) : Nat := s.imgN 0x3C 4

def fourGiB : Nat := 0x1_0000_0000

/-- The header holds what R45 says, the rectangle apart. Log 107 (DEDUCED). -/
def State.headerOk (s : State) : Bool :=
  let h := s.imgBytes 0 256
  leAt h 0 8 == 0x4D49_4854_414F_4C4B && leAt h 8 2 == 1 && decide (3 ≤ s.imgCount) && decide (s.imgCount ≤ 14) &&
    (crc32c (splice h 0x0C [0, 0, 0, 0])).toNat == leAt h 0x0C 4 && s.imgLength % 16 == 0 &&
    decide (s.imgFeatures < 32) && decide (s.imgOwner < 4) && leAt h 0x2B 1 == 0 &&
    decide (1 ≤ s.imgChunks) && decide (s.imgChunks ≤ 4194304) && decide (1 ≤ s.imgDirs) && decide (s.imgDirs ≤ s.imgChunks) &&
    leAt h 0x40 192 == 0

/-- The staged length is the image's, and at most 4 GiB. -/
def State.lengthOk (s : State) : Bool :=
  s.regF Reg.imgLen 32 0 == s.imgLength && decide (s.imgLength ≤ fourGiB)

/-- The rectangle lies on the module (R37). -/
def Rect.ok (r : Rect) : Bool :=
  decide (r.rowFirst ≤ r.rowLast) && decide (r.rowLast ≤ 5) && decide (r.colFirst ≤ r.colLast) && decide (r.colLast ≤ 11)

/-! ## Sections (R44, R46, R47) -/

/-- A section table entry. -/
structure Sec where
  index  : Nat
  kind   : Nat
  zero   : Nat
  crc    : Nat
  offset : Nat
  length : Nat
  first  : Nat
  runs   : Nat
deriving DecidableEq, Repr

def State.imgSec (s : State) (i : Nat) : Sec :=
  let o := 0x100 + 32 * i
  ⟨i, s.imgN o 1, s.imgN (o + 1) 3, s.imgN (o + 4) 4, s.imgN (o + 8) 8, s.imgN (o + 0x10) 8, s.imgN (o + 0x18) 4, s.imgN (o + 0x1C) 4⟩

def State.imgSecs (s : State) : List Sec := (List.range s.imgCount).map s.imgSec

def Sec.trail (x : Sec) : Bool := decide (1 ≤ x.kind) && decide (x.kind ≤ 6) || x.kind == 0x10 || x.kind == 0x11
def Sec.direct (x : Sec) : Bool := decide (0x20 ≤ x.kind) && decide (x.kind ≤ 0x25)

def State.secOf (s : State) (kind : Nat) : Option Sec := s.imgSecs.find? (fun x => x.kind == kind)

def State.secBytes (s : State) (x : Sec) : Bytes := s.imgBytes x.offset x.length

/-- The payload of the section of a type, empty when the image has none. -/
def State.payload (s : State) (kind : Nat) : Bytes :=
  match s.secOf kind with
  | some x => s.secBytes x
  | none => []

/-- Two sections share a byte. -/
def Sec.meets (x y : Sec) : Bool := decide (x.offset < y.offset + y.length) && decide (y.offset < x.offset + x.length)

/-- One section is consistent with R44, R46, R47 and R673. Log 107 (DEDUCED). -/
def State.secOk (s : State) (x : Sec) : Bool :=
  (x.trail || x.direct) && x.zero == 0 && x.offset % 16 == 0 && x.length % 16 == 0 &&
    decide (0x100 + 32 * s.imgCount ≤ x.offset) && decide (x.offset + x.length + 128 ≤ s.imgLength) &&
    (x.trail || (x.first == 0 && x.runs == 0)) &&
    s.imgSecs.all (fun y => y.index == x.index || (y.kind != x.kind && !x.meets y)) &&
    (x.kind != 0x20 || !s.imgRect.ok ||
      (let n := s.imgRect.regions.length
       x.length == 16 * ceilDiv (4 * n) 16 && s.imgN (x.offset + 4 * n) (x.length - 4 * n) == 0 &&
         (List.range n).all (fun k => decide (s.imgN (x.offset + 4 * k) 4 < 2 ^ 30))))

/-- The first section entry that is not; 0xFFFF where a mandatory one is missing. -/
def State.badSection (s : State) : Option Nat :=
  match s.imgSecs.find? (fun x => !s.secOk x) with
  | some x => some x.index
  | none => if ([1, 2, 0x20] : List Nat).all (fun k => (s.secOf k).isSome) then none else some 0xFFFF

/-- The first section whose crc does not match (R58, R62). -/
def State.badCrc (s : State) (which : Sec → Bool) : Option Nat :=
  (s.imgSecs.find? (fun x => which x && (crc32c (s.secBytes x)).toNat != x.crc)).map (fun x => x.index)

/-! ## Signature (R56, R57) -/

/-- The digest of the image without its trailer. -/
def State.imgDigest (s : State) : Bytes := sha512 (s.imgBytes 0 (s.imgLength - 128))

/-- The signature verifies against the owner slot named, which holds a VALID key. -/
def State.signatureOk (s : State) : Bool :=
  let t := s.imgBytes (s.imgLength - 128) 128
  let o := s.rng.owners.get .reset s.imgOwner
  decide (0x100 + 128 ≤ s.imgLength) && leAt t 0 8 == 0x4753_4854_414F_4C4B && leAt t 0x48 56 == 0 && o.state == 1 &&
    edVerify o.key s.imgDigest (slice t 8 64)

/-! ## The required region map (R42, R47) -/

def State.imgRequired (s : State) : List (BitVec 32) :=
  let b := s.payload 0x20
  (List.range s.imgRect.regions.length).map (fun k => BitVec.ofNat 32 (leAt b (4 * k) 4))

/-- The map of a region as the match rule takes it: 0 when its breaker is tripped or it is held in region reset (R42). -/
def State.mapNow (s : State) (r : Nat) : Nat :=
  if s.breaker r ≠ 0 ∨ (s.rgn r).held ∨ (s.rgn r).dark then 0 else (s.rgn r).map.toNat

/-- The first region in row-major order that lacks a required block. -/
def State.mapMiss (s : State) : Option Nat :=
  ((s.imgRect.regions.zip s.imgRequired).find? (fun e => e.2.toNat.land (2 ^ 32 - 1 - s.mapNow e.1) != 0)).map (fun e => e.1)

/-! ## Runs (R48 to R51) -/

abbrev RunDesc := BitVec 128

def RunDesc.first (r : RunDesc) : Nat := bits 127 106 r
def RunDesc.count (r : RunDesc) : Nat := bits 105 84 r
def RunDesc.kind (r : RunDesc) : Nat := bits 83 76 r
def RunDesc.nw (r : RunDesc) : Nat := bits 75 58 r
def RunDesc.se (r : RunDesc) : Nat := bits 57 40 r
def RunDesc.dest (r : RunDesc) : Nat := bits 39 16 r
def RunDesc.lastLen (r : RunDesc) : Nat := bits 15 9 r

/-- The bytes of a run. -/
def RunDesc.bytes (r : RunDesc) : Nat := 1024 * (RunDesc.count r - 1) + 16 * RunDesc.lastLen r

/-- The bytes of a destination unit (R50). -/
def unitBytes : Nat → Nat
  | 0x02 => 0x1_0000
  | 0x03 => 0x1_0000
  | 0x04 => 0x6_0000
  | 0x05 => 0x4_0000
  | 0x06 => 0x1000
  | 0x10 => 0x1_0000
  | 0x11 => 0x2_0000
  | _ => 0

/-- A cell lies within the rectangle from `a` to `b`. -/
def inCells (a b c : Nat) : Bool :=
  decide (rowOf a ≤ rowOf c) && decide (rowOf c ≤ rowOf b) && decide (colOf a ≤ colOf c) && decide (colOf c ≤ colOf b)

/-- Chunks for unit `kind` and the cells from `a` to `b` target a cell, or a foreman whose block holds such a cell (R50). -/
def hitsTarget (kind a b : Nat) : Target → Bool
  | .cell c => decide (1 ≤ kind) && decide (kind ≤ 6) && inCells a b c
  | .foreman f => (kind == 1 || kind == 0x10 || kind == 0x11) && cellsOverlap (blockCell f) (cellOfPos f 63) a b

def RunDesc.hits (r : RunDesc) (t : Target) : Bool := hitsTarget (RunDesc.kind r) (RunDesc.nw r) (RunDesc.se r) t

/-- Every entry of the DIRECTORY section. -/
def State.imgRuns (s : State) : List RunDesc :=
  let b := s.payload 1
  (List.range (b.length / 16)).map (fun k => BitVec.ofNat 128 (leAt b (16 * k) 16))

/-- The cells of the blocks that the map requires, and their foremen. -/
def State.imgFms (s : State) : List FmId :=
  (s.imgRect.regions.zip s.imgRequired).flatMap (fun e => (regionFms e.1).filter (fun f => bit f.block e.2))

def State.imgTargets (s : State) : List Target :=
  s.imgFms.flatMap (fun f => Target.foreman f :: (blockCells f).map Target.cell)

/-- The corner cells of a partition rectangle. -/
def Rect.nw (r : Rect) : Nat := cellAt (r.rowFirst * 48) (r.colFirst * 40)
def Rect.se (r : Rect) : Nat := cellAt (r.rowLast * 48 + 47) (r.colLast * 40 + 39)

/-- The rectangle of cells from `a` to `b` lies within the partition rectangle. -/
def Rect.holds (r : Rect) (a b : Nat) : Bool :=
  inCells r.nw r.se a && inCells r.nw r.se b && decide (rowOf a ≤ rowOf b) && decide (colOf a ≤ colOf b)

/-- One run obeys R48, R50 and R51. -/
def RunDesc.ok (r : RunDesc) (x : Rect) : Bool :=
  decide (1 ≤ RunDesc.count r) && decide (1 ≤ RunDesc.lastLen r) && decide (RunDesc.lastLen r ≤ 64) && bits 8 0 r == 0 &&
    x.holds (RunDesc.nw r) (RunDesc.se r) &&
    (if RunDesc.kind r = 1 then RunDesc.nw r == x.nw && RunDesc.se r == x.se && RunDesc.dest r == 0
     else decide (16 * RunDesc.dest r + RunDesc.bytes r ≤ unitBytes (RunDesc.kind r)))

/-- The trail sections in the order of their chunks: DIRECTORY, then the others in table order (R49). -/
def State.trailSecs (s : State) : List Sec :=
  s.imgSecs.filter (fun x => x.kind == 1) ++ s.imgSecs.filter (fun x => x.trail && x.kind != 1)

/-- The runs in that order carry consecutive numbers from `k`; the number after the last. -/
def runsFrom : Nat → List RunDesc → Option Nat
  | k, [] => some k
  | k, r :: t => if RunDesc.first r = k then runsFrom (k + RunDesc.count r) t else none

/-- The directory obeys R48 to R51. Log 107 (DEDUCED). -/
def State.directoryOk (s : State) : Bool :=
  let all := s.imgRuns
  let of := fun (x : Sec) => (all.drop x.first).take x.runs
  let seq := s.trailSecs.flatMap of
  let dirs := s.trailSecs.filter (fun x => x.kind == 1)
  (s.trailSecs.map (fun x => x.runs)).sum == all.length && all.all (fun r => RunDesc.ok r s.imgRect) &&
    s.trailSecs.all (fun x => (of x).length == x.runs && (of x).all (fun r => RunDesc.kind r == x.kind) &&
      ((of x).map RunDesc.bytes).sum == x.length) &&
    runsFrom 0 seq == some s.imgChunks && runsFrom 0 (dirs.flatMap of) == some s.imgDirs &&
    (let rest := all.filter (fun r => RunDesc.kind r != 1)
     decide (rest.length ≤ 512) || s.imgTargets.all (fun t => decide ((rest.filter (fun r => RunDesc.hits r t)).length ≤ 512)))

/-- The chunks that a target must hold: those of DIRECTORY and of every run that targets it (R64). -/
def State.expectedOf (s : State) (t : Target) : Nat :=
  s.imgDirs + ((s.imgRuns.filter (fun r => RunDesc.kind r != 1 && RunDesc.hits r t)).map RunDesc.count).sum

/-! ## VERIFYING (R63 step 2) -/

/-- An IMG_ERROR: code, section, cell. -/
structure ImgErr where
  code    : Nat
  sec     : Nat := 0xFFFF
  cell    : Nat := 0
deriving DecidableEq, Repr

/-- A job runs on a region of the rectangle, or in the slot (R63). -/
def State.rectBusy (s : State) (n : Nat) (r : Rect) : Bool :=
  (List.range 8).any (fun m => s.jobActive m && (m == n || (s.occupied m && r.regions.any (s.slot m).rect.has)))

/-- The rectangle is refused (R37 to R39). Log 107 (DEDUCED). -/
def State.rectRefused (s : State) (n : Nat) (r : Rect) : Bool :=
  !r.ok || (n != 0 && natBits 5 5 s.features == 0) ||
    (List.range 8).any (fun m => m != n && s.occupied m && r.regions.any (s.slot m).rect.has)

/-- A port of the image is held by another occupied slot (R40). -/
def State.portsRefused (s : State) (n : Nat) : Bool :=
  (List.range 8).any (fun m => m != n && s.occupied m && (s.slot m).ports.toNat.land s.imgPorts != 0)

/-- The first check that the staged image fails for slot `n`. Log 107 (DEDUCED). -/
def State.verifyImage (s : State) (n : Nat) : Option ImgErr :=
  if !s.headerOk ∨ !s.lengthOk then some { code := 0x01 }
  else match s.badSection with
  | some k => some { code := 0x02, sec := k }
  | none =>
    match s.badCrc (fun _ => true) with
    | some k => some { code := 0x03, sec := k }
    | none =>
      if !s.signatureOk then some { code := 0x04 }
      else if s.imgFeatures % 8 ≠ s.imgFeatures.land s.features % 8 ∨ s.standTier < natBits 4 3 s.imgFeatures then some { code := 0x05 }
      else if !([2, 3, 6] : List Nat).contains s.moduleState ∨ s.retired then some { code := 0x0E }
      else if s.rectBusy n s.imgRect then some { code := 0x09 }
      else if s.rectRefused n s.imgRect then some { code := 0x06 }
      else if s.portsRefused n then some { code := 0x07 }
      else match s.mapMiss with
        | some r => some { code := 0x08, cell := regionCell r }
        | none => if s.directoryOk then none else some { code := 0x0A }

end Sys2Proof.Machine
end

