-- ==== Sys2Proof/Machine/Plans.lean ====
section
/-! DEFINITION. The direct sections as the loader writes them into the units: STREAM (R306, R307, R313, R315), MANIFEST (R341,
R364 to R368) and REDPLAN (R416 to R419), with the CELLCFG words that are staged beside them. -/

namespace Sys2Proof.Machine

open Sys2Proof

/-! ## STREAM -/

/-- The bits of an entry that its operation uses (R306). Log 158 (DEDUCED). -/
def streamMask : Nat → Nat
  | 1 => mask 255 252 + mask 242 241 + mask 237 113 + mask 112 97
  | 2 => mask 255 244 + mask 242 240 + mask 237 0
  | 3 => mask 255 240 + mask 237 0
  | 4 => mask 255 252 + mask 242 241 + mask 237 120 + mask 112 97 + mask 93 65
  | 5 => mask 255 252 + mask 184 172 + mask 135 120
  | 0xF => mask 255 252
  | _ => 0

/-- The fetched slabs of a list of a kind, none where n_layer does not fit (R315). Log 106 (DEDUCED). -/
def slabCount (e : StreamEntry) (kind : Nat) : Option Nat :=
  if kind = 0 then some (e.kchunks * e.cap / e.cols)
  else if e.nLayer % e.cols = 0 then some (e.cap / 64 * (e.nLayer / e.cols)) else none

/-- The slab count is that of the entry's list; a GATHER's list has the kind its builder gave it. -/
def slabsFit (e : StreamEntry) : Bool :=
  let n := some (e.fills * e.perFill)
  if e.op = 2 then slabCount e 0 == n || slabCount e 1 == n else slabCount e e.kind == n

/-- One entry, at index `k`, has legal fields and lies in the partition. Log 106 (DEDUCED), 108 (DEDUCED). -/
def streamEntryOk (r : Rect) (k : Nat) (e : StreamEntry) : Bool :=
  streamMask e.op != 0 && e.toNat.land (2 ^ 256 - 1 - streamMask e.op) == 0 &&
  (match e.op with
   | 5 => decide (e.target < k)
   | 0xF => true
   | op =>
     r.holds e.first e.last && e.offset % 16 == 0 && e.handle != 0 &&
     (match op with
      | 1 => true
      | 4 => decide (1 ≤ e.cap) && decide (e.cap ≤ 256) && decide (e.granule * 64 + e.cap * 64 ≤ nearBytes)
      | _ => decide (e.wfmt ≤ 0xA) && e.cap % 64 == 0 && decide (1 ≤ e.cap) && decide (1 ≤ e.nLayer) &&
             decide (1 ≤ e.kchunks) && slabsFit e))

/-- The LOOP spans: target and index. -/
def loopSpans (es : List StreamEntry) : List (Nat × Nat) :=
  (es.zipIdx.filter (fun p => StreamEntry.op p.1 == 5)).map (fun p => (StreamEntry.target p.1, p.2))

def spanIn (a b : Nat × Nat) : Bool := decide (b.1 ≤ a.1) && decide (a.2 ≤ b.2)

/-- Spans nest, to depth 4 at most. -/
def loopsOk (l : List (Nat × Nat)) : Bool :=
  l.all (fun a => l.all (fun b => spanIn a b || spanIn b a || decide (a.2 < b.1) || decide (b.2 < a.1)) &&
    decide ((l.filter (fun b => spanIn a b)).length ≤ 4))

/-- STREAM written for a slot; none where R313 refuses it. -/
def State.streamPlan (s : State) (n : Nat) (bs : Bytes) : Option State :=
  let c := leAt bs 0 4
  let es : List StreamEntry := (List.range c).map (fun k => BitVec.ofNat 256 (leAt bs (16 + 32 * k) 32))
  if c = 0 ∨ 8192 < c ∨ leAt bs 4 12 ≠ 0 ∨ bs.length ≠ 16 + 32 * c then none
  else if (es.getLast?.map StreamEntry.op) ≠ some 0xF then none
  else if es.zipIdx.all (fun p => streamEntryOk (s.slot n).rect p.2 p.1) && loopsOk (loopSpans es) then
    some (s.modStream n (fun x => { x with prog := es }))
  else none

/-! ## The staged CELLCFG words (R50) -/

def State.cfgRuns (s : State) : List RunDesc := s.imgRuns.filter (fun r => RunDesc.kind r == 6)

/-- Byte `o` of the CELLCFG unit that the image gives a cell: the last run that writes it decides. -/
def cfgByte (sec : Bytes) (runs : List (RunDesc × Nat)) (c o : Nat) : Byte :=
  runs.foldl (fun b r =>
    let d := 16 * RunDesc.dest r.1
    if inCells (RunDesc.nw r.1) (RunDesc.se r.1) c ∧ d ≤ o ∧ o < d + RunDesc.bytes r.1 then sec.getD (r.2 + (o - d)) 0 else b) 0

/-- The CELLCFG runs with their first bytes in the section. -/
def State.cfgPlaced (s : State) : List (RunDesc × Nat) :=
  (s.cfgRuns.foldl (fun (p : List (RunDesc × Nat) × Nat) r => (p.1 ++ [(r, p.2)], p.2 + RunDesc.bytes r)) ([], 0)).1

/-- The cells that the CELLCFG runs reach. -/
def State.cfgCells (s : State) : List Nat := s.cfgRuns.flatMap (fun r => rectCells (RunDesc.nw r) (RunDesc.se r))

/-- The spill and reduce words staged for a cell. -/
def State.cfgWords (s : State) (c : Nat) : Nat × Nat :=
  let sec := s.payload 6
  let runs := s.cfgPlaced
  (ofLE ((List.range 8).map (fun k => cfgByte sec runs c (8 + k))), ofLE ((List.range 8).map (fun k => cfgByte sec runs c (16 + k))))

/-- The understorey bytes that a spill word names: first and length. -/
def spillArea (w : Nat) : Nat × Nat := (16 * natBits 13 0 w, 16 * natBits 29 16 w)

/-- Two byte areas (first, length) share a byte. -/
def areasMeet (a b : Nat × Nat) : Bool := decide (a.1 < b.1 + b.2) && decide (b.1 < a.1 + a.2) && a.2 != 0 && b.2 != 0

/-- No two of the areas share a byte. -/
def apart : List (Nat × Nat) → Bool
  | [] => true
  | a :: t => !t.any (areasMeet a) && apart t

/-! ## MANIFEST -/

/-- The lent T0 slots as an understorey area (R341). -/
def lentArea (bs : Bytes) : Nat × Nat := (4096 * leAt bs 8 1, 4096 * leAt bs 9 1)

/-- An object entry. -/
structure ManObj where
  handle  : Nat
  extents : Nat
  tier    : Nat
  prefer  : Nat
  flags   : Nat
  slot    : Nat
  pitch   : Nat
  first   : Nat
  last    : Nat
  zero    : Nat
deriving DecidableEq, Repr

def ManObj.tiled (o : ManObj) : Bool := o.flags % 2 == 1
def ManObj.param (o : ManObj) : Bool := o.flags / 2 % 2 == 1
def ManObj.pinned (o : ManObj) : Bool := o.flags / 4 % 2 == 1
def ManObj.attach (o : ManObj) : Bool := o.flags / 8 % 2 == 1

def manObj (bs : Bytes) (k : Nat) : ManObj :=
  let b := slice bs (32 + 32 * k) 32
  ⟨leAt b 0 4, leAt b 4 4, leAt b 8 1, leAt b 9 1, leAt b 0xA 1, leAt b 0xB 1, leAt b 0xC 2, leAt b 0x10 4, leAt b 0x14 4,
   leAt b 0xE 2 + leAt b 0x18 8⟩

def manObjs (bs : Bytes) : List ManObj := (List.range (leAt bs 0 4)).map (manObj bs)

/-- The T0 placement of a tier 0 entry: its slots are its extents over its blocks (R342). -/
def ManObj.place (o : ManObj) : T0Place :=
  let p : T0Place := ⟨o.slot, 1, o.first, o.last⟩
  { p with slots := o.extents / max 1 p.blocks.length }

/-- A tier 0 entry lies on whole blocks of the rectangle and in the lent slots, and its extents fill them (R342, R367). -/
def ManObj.t0Ok (o : ManObj) (r : Rect) (t0First t0Slots : Nat) : Bool :=
  let p := o.place
  r.holds o.first o.last && rowOf o.first % 8 == 0 && colOf o.first % 8 == 0 && rowOf o.last % 8 == 7 && colOf o.last % 8 == 7 &&
    o.extents == p.count && decide (1 ≤ p.slots) && decide (t0First ≤ o.slot) && decide (o.slot + p.slots ≤ t0First + t0Slots) &&
    !o.param

/-- Two T0 placements share a slot of a cell. -/
def t0Meet (a b : ManObj) : Bool :=
  cellsOverlap a.first a.last b.first b.last && decide (a.slot < b.slot + b.place.slots) && decide (b.slot < a.slot + a.place.slots)

/-- An object entry against the live objects: a live handle must be attached with the same extents and flag, and be the
slot's own or shared; only a live handle can be attached (R346, R367). Log 108 (DEDUCED). -/
def State.liveOk (s : State) (n : Nat) (o : ManObj) : Bool :=
  match s.obj o.handle with
  | some x => o.attach && x.extents == o.extents && x.param == o.param && (x.owner == n || x.shared)
  | none => !o.attach && !s.yard.allocs.any (fun a => a.handle == o.handle)

def ManObj.ok (o : ManObj) : Bool :=
  decide (1 ≤ o.handle) && decide (o.handle < 2 ^ 24) && decide (1 ≤ o.extents) && decide (o.extents ≤ 262144) &&
    decide (o.tier ≤ 3) && (decide (o.prefer ≤ 3) || o.prefer == 0xFF) && decide (o.flags < 16) && o.zero == 0 &&
    (if o.tiled then decide (3 ≤ o.pitch) && decide (o.pitch ≤ 4098) else o.pitch == 0)

def prefetchAt (bs : Bytes) (k : Nat) : Bytes := slice bs (32 + 32 * leAt bs 0 4 + 16 * k) 16

def prefetchOf (b : Bytes) : Prefetch := ⟨leAt b 0 2, leAt b 2 1 == 1, leAt b 3 1, leAt b 4 1, leAt b 8 4⟩

def prefetchOk (b : Bytes) (os : List ManObj) : Bool :=
  let p := prefetchOf b
  decide (p.entry < 8192) && decide (leAt b 2 1 ≤ 1) && decide (1 ≤ p.action) && decide (p.action ≤ 4) &&
    (if p.action ≤ 2 then decide (p.tier ≤ 3) else p.tier == 0) && leAt b 5 3 == 0 && leAt b 0xC 4 == 0 &&
    os.any (fun o => o.handle == p.handle)

/-- The manifest is one that R341 and R367 admit for slot `n`. Log 108 (DEDUCED). -/
def State.manifestOk (s : State) (n : Nat) (bs : Bytes) : Bool :=
  let c := leAt bs 0 4
  let pc := leAt bs 4 4
  let os := manObjs bs
  let f := leAt bs 8 1
  let k := leAt bs 9 1
  let t0 := os.filter (fun o => o.tier == 0 && !o.attach)
  decide (32 ≤ bs.length) && decide (c ≤ 65536) && decide (pc ≤ 8192) && decide (f ≤ 63) && decide (k ≤ 64 - f) &&
    leAt bs 0xA 6 == 0 && leAt bs 0x1C 4 == 0 && bs.length == 32 + 32 * c + 16 * pc &&
    os.all (fun o => o.ok && s.liveOk n o && (o.tier != 0 || o.attach || o.t0Ok (s.slot n).rect f k)) &&
    os.zipIdx.all (fun a => os.zipIdx.all (fun b => a.2 == b.2 || a.1.handle != b.1.handle)) &&
    t0.zipIdx.all (fun a => t0.zipIdx.all (fun b => a.2 == b.2 || !t0Meet a.1 b.1)) &&
    (List.range pc).all (fun j => prefetchOk (prefetchAt bs j) os) &&
    (k == 0 || s.cfgCells.all (fun x => !areasMeet (lentArea bs) (spillArea (s.cfgWords x).1))) &&
    decide (s.yard.objs.length + os.length ≤ liveLimit)

/-- The manifest names T3 on a module without the far tier (R338). Log 108 (DEDUCED). -/
def State.manifestFar (s : State) (bs : Bytes) : Bool :=
  !s.tiers.farTier && ((manObjs bs).any (fun o => !o.attach && (o.tier == 3 || o.prefer == 3)) ||
    (List.range (leAt bs 4 4)).any (fun j => let p := prefetchOf (prefetchAt bs j); decide (p.action ≤ 2) && p.tier == 3))

/-- An object freed for a load: at once, or as soon as its moves end (R368). -/
def State.freeObj (s : State) (h : Nat) : State :=
  match s.obj h with
  | some o =>
    if (s.moveOf h).isSome || s.yard.queued.any (fun q => q.1 == h) then
      { s with yard := { s.yard with
          dying := if s.yard.dying.contains h then s.yard.dying else s.yard.dying ++ [h],
          queued := s.yard.queued.filter (fun q => q.1 != h) } }
    else (s.delObj h).freeExtents o.tier o.place
  | none => s

/-- One object of a manifest created in its initial tier (R349, R368). -/
def State.loadObj (s : State) (n : Nat) (o : ManObj) : State :=
  let x : Obj := { owner := n, charged := n, shared := false, param := o.param, tiled := o.tiled, pitch := o.pitch,
                   prefer := if o.prefer = 0xFF then none else some o.prefer, extents := o.extents,
                   t0 := if o.tier = 0 then some o.place else none, state := if o.pinned then .pinned else .resident,
                   tier := o.tier, place := [], pins := ofBool o.pinned, refs := 0, stamp := s.beat, damaged := false,
                   cb := [], dirty := [] }
  if o.tier = 0 then (s.loseT0 o.place).setObj o.handle x
  else s.startAlloc { handle := o.handle, kind := .load, obj := x, dest := o.tier, slot := n, need := x.all, got := [],
                      copied := 0, cmd := false }

/-- The slot's quotas (R368, R384). -/
def State.setQuotas (s : State) (n q1 q2 q3 : Nat) : State :=
  ((s.setRegF (Reg.yrdQuota n 1) 31 0 q1).setRegF (Reg.yrdQuota n 2) 31 0 q2).setRegF (Reg.yrdQuota n 3) 31 0 q3

/-- The slot's own objects that a manifest with the handles `keep` frees. -/
def State.unattached (s : State) (n : Nat) (keep : List Nat) : List Nat :=
  (s.yard.objs.filter (fun e => e.2.owner == n && !keep.contains e.1)).map (fun e => e.1)

/-- The manifest applied (R368). -/
def State.applyManifest (s : State) (n : Nat) (bs : Bytes) : State :=
  let os := manObjs bs
  let new := os.filter (fun o => !o.attach)
  let s := (s.unattached n (os.map (fun (o : ManObj) => o.handle))).foldl State.freeObj s
  let s := { s with ldr := { s.ldr with made := new.map (fun (o : ManObj) => o.handle) } }
  let s := new.foldl (fun s o => s.loadObj n o) s
  let s := s.modStream n (fun x => { x with prefetch := (List.range (leAt bs 4 4)).map (fun j => prefetchOf (prefetchAt bs j)) })
  s.setQuotas n (leAt bs 0x10 4) (leAt bs 0x14 4) (leAt bs 0x18 4)

/-- MANIFEST written for a slot; none where R367 refuses it. -/
def State.manifestPlan (s : State) (n : Nat) (bs : Bytes) : Option State :=
  if s.manifestOk n bs then some (s.applyManifest n bs) else none

/-! ## REDPLAN -/

def layerPlan (b : Bytes) : LayerPlan :=
  { kind := leAt b 0 1, role := leAt b 1 1, primary := leAt b 2 2, shadow := leAt b 4 2, every := leAt b 6 1, phase := leAt b 7 1,
    master := leAt b 8 4, slab := leAt b 0xC 4, stateA := leAt b 0x10 4, stateB := leAt b 0x14 4, error := leAt b 0x18 4,
    record := leAt b 0x1C 4, maskObj := leAt b 0x20 4, stamp := leAt b 0x24 4, positions := leAt b 0x28 4, cap := leAt b 0x2C 4,
    deadline := leAt b 0x30 2, grace := leAt b 0x32 2, contributors := leAt b 0x34 2, wfmt := leAt b 0x36 1,
    masterFmt := leAt b 0x37 1, stateFmt := leAt b 0x38 1 }

def routePlan (b : Bytes) : RoutePlan :=
  { first := leAt b 0 4, last := leAt b 4 4, layer := leAt b 8 2, out := leAt b 0xA 1, slotFirst := leAt b 0xB 1,
    slotCount := leAt b 0xC 1, base := leAt b 0x10 4, stride := leAt b 0x14 4 }

/-- A handle names an object of the manifest with the param flag as given; 0 names none. Log 109 (DEDUCED). -/
def handleOk (os : List ManObj) (h : Nat) (param : Option Bool) : Bool :=
  h == 0 || os.any (fun o => o.handle == h && (match param with
    | some p => o.param == p
    | none => true))

/-- A layer entry obeys R417 and R419. Log 109 (DEDUCED). -/
def LayerPlan.ok (p : LayerPlan) (os : List ManObj) (rest : Nat) : Bool :=
  let own := p.role == 1 || p.role == 2
  decide (p.kind ≤ 2) && decide (p.role ≤ 3) && decide (p.primary < 8192) && (decide (p.shadow < 8192) || p.shadow == 0xFFFF) &&
    decide (1 ≤ p.every) && decide (p.every ≤ 16) && decide (p.phase < p.every) && decide (1 ≤ p.positions) &&
    decide (p.positions ≤ 16777216) && (!own || (decide (1 ≤ p.cap) && decide (p.cap ≤ p.positions))) && decide (1 ≤ p.deadline) &&
    decide (1 ≤ p.contributors) && decide (p.contributors ≤ 8192) && decide (p.wfmt ≤ 0xA) &&
    (p.masterFmt == 0x10 || p.masterFmt == 0x12) && (p.stateFmt == 0x10 || p.stateFmt == 0x12) && rest == 0 &&
    ([p.master, p.slab, p.stateA, p.stateB, p.error] : List Nat).all (fun h => handleOk os h (some true)) &&
    handleOk os p.record (some false) && handleOk os p.maskObj none && handleOk os p.stamp none &&
    (p.role == 3 || p.slab != 0) && (!own || (p.master != 0 && p.record != 0)) &&
    (p.kind != 1 || p.role == 3 || p.maskObj != 0) && (p.kind != 2 || !own || p.stamp != 0)

def RoutePlan.ok (r : RoutePlan) (x : Rect) (layers rest : Nat) : Bool :=
  decide (r.first < 2 ^ 18) && decide (r.last < 2 ^ 18) && x.holds r.first r.last && decide (r.layer < layers) && decide (r.out ≤ 5) &&
    decide (1 ≤ r.slotCount) && decide (r.slotFirst + r.slotCount ≤ 63) && rest == 0

/-- Two routes cover a common cell and outbox slot. -/
def routesMeet (a b : RoutePlan) : Bool :=
  cellsOverlap a.first a.last b.first b.last && decide (a.slotFirst < b.slotFirst + b.slotCount) &&
    decide (b.slotFirst < a.slotFirst + a.slotCount)

/-- The understorey areas of a cell keep apart and end by page 64 (R419). -/
def areasOk (lent : Nat × Nat) (w : Nat × Nat) : Bool :=
  let ob := natBits 39 34 w.2
  let obn := natBits 33 28 w.2 * natBits 27 23 w.2
  let ef := natBits 11 6 w.2
  let ep := natBits 5 0 w.2
  decide (ef + 2 * ep ≤ 64) && decide (ob + obn ≤ 64) &&
    apart [(4096 * ob, 4096 * obn), (4096 * ef, 4096 * ep), (4096 * (ef + ep), 4096 * ep), spillArea w.1, lent]

/-- REDPLAN is one that R419 admits. Log 109 (DEDUCED). -/
def State.redplanOk (s : State) (n : Nat) (bs : Bytes) : Bool :=
  let lc := leAt bs 8 2
  let rc := leAt bs 0xA 2
  let man := s.payload 0x22
  let os := manObjs man
  let lb := fun k => slice bs (64 + 64 * k) 64
  let rb := fun k => slice bs (64 + 64 * lc + 32 * k) 32
  let routes := (List.range rc).map (fun k => routePlan (rb k))
  decide (1 ≤ lc) && decide (lc ≤ 4096) && decide (rc ≤ 16384) && decide (leAt bs 0xC 1 ≤ 16) && decide (leAt bs 0xD 1 ≤ 15) &&
    (decide (leAt bs 0xE 2 < 8192) || leAt bs 0xE 2 == 0xFFFF) && decide (leAt bs 0x10 1 ≤ 6) && leAt bs 0x11 3 == 0 &&
    decide (2 ≤ leAt bs 0x18 8) && decide (leAt bs 0x18 8 < ringP) && decide (2 ≤ leAt bs 0x20 8) && decide (leAt bs 0x20 8 < ringP) &&
    leAt bs 0x28 24 == 0 && bs.length == 64 + 64 * lc + 32 * rc &&
    (List.range lc).all (fun k => (layerPlan (lb k)).ok os (leAt (lb k) 0x39 7)) &&
    (List.range rc).all (fun k => (routePlan (rb k)).ok (s.slot n).rect lc (leAt (rb k) 0xD 3 + leAt (rb k) 0x18 8)) &&
    routes.zipIdx.all (fun a => routes.zipIdx.all (fun b => a.2 == b.2 || !routesMeet a.1 b.1)) &&
    s.cfgCells.all (fun c => areasOk (lentArea man) (s.cfgWords c))

/-- REDPLAN written for a slot; none where it is refused. -/
def State.redPlan (s : State) (n : Nat) (bs : Bytes) : Option State :=
  if !s.redplanOk n bs then none
  else
    let lc := leAt bs 8 2
    let x : RedSt := { RedSt.reset with
      jobId := BitVec.ofNat 64 (leAt bs 0 8), lateDrop := if leAt bs 0xD 1 = 0 then 2 else leAt bs 0xD 1, parent := leAt bs 0xE 2,
      children := leAt bs 0x10 1, limit := if leAt bs 0x14 4 = 0 then 4096 else leAt bs 0x14 4, key1 := leAt bs 0x18 8,
      key2 := leAt bs 0x20 8,
      layers := (List.range lc).map (fun k => LayerSt.fresh (layerPlan (slice bs (64 + 64 * k) 64)) 0),
      routes := (List.range (leAt bs 0xA 2)).map (fun k => routePlan (slice bs (64 + 64 * lc + 32 * k) 32)) }
    some ((s.setRed n x).modSlot n (fun y => { y with digestInterval := leAt bs 0xC 1 }))

end Sys2Proof.Machine
end

