-- ==== Sys2Proof/Machine/Loader.lean ====
section
/-! DEFINITION. The image loader (R60 to R79): start and abort, claiming and unloading, delivery of the direct sections,
load-open, chunks, repair rounds, suspects and the commit. -/

namespace Sys2Proof.Machine

open Sys2Proof

def State.setLdr (s : State) (l : LdrSt) : State := { s with ldr := l }
def State.modLdr (s : State) (f : LdrSt → LdrSt) : State := { s with ldr := f s.ldr }

def State.imgState (s : State) : Nat := s.regF Reg.imgStatus 3 0
def State.setImgState (s : State) (k : Nat) : State := s.setRegF Reg.imgStatus 3 0 k

/-- The slot of the current load. -/
def State.imgSlot (s : State) : Nat := s.regF Reg.imgStatus 6 4

/-! ## Unloading (R63 step 3, R68) -/

/-- The cell unconfigured: its work is dropped and it has no CELLCFG; a snag stays one (R290). Occasion `k`.
Log 110 (DEDUCED). -/
def CellSt.unload (x : CellSt) (k : Nat) : CellSt :=
  { x.dropWork k with
    looper := if x.looper = .snag then .snag else .unconfigured, configured := false, cfg := .empty, outbox := [],
    load := .reset }

/-- The foreman unconfigured, with what its memories hold. -/
def FmSt.unload (x : FmSt) : FmSt :=
  { FmSt.reset with fprog := x.fprog, fcurve := x.fcurve, fprogEcc := x.fprogEcc, fcurveEcc := x.fcurveEcc }

/-- Every cell and foreman of a rectangle unconfigured. Log 110 (DEDUCED). -/
def State.unloadRect (s : State) (r : Rect) : State :=
  let k := s.freeCtr
  { s with
    freeCtr := k + s.cells.length
    cells := s.cells.zipIdx.map (fun (e : (Nat × CellSt) × Nat) =>
      (e.1.1, if r.has (regionOf e.1.1) then e.1.2.unload (k + e.2) else e.1.2))
    fms := s.fms.map (fun (e : Nat × FmSt) => (e.1, if r.has (fmOfKey e.1).region then e.2.unload else e.2)) }

/-- The plans of a slot's direct sections gone. -/
def State.clearPlans (s : State) (n : Nat) : State :=
  let s := (s.clearStream n).setStream n .reset
  ((s.setRed n .reset).clearSched n).setPlan n .reset

/-- IMG_PART_ID and IMG_MEASURE of a slot that holds no image. Log 110 (DEDUCED). -/
def State.clearMeasure (s : State) (n : Nat) : State :=
  s.clearRegs (fun a => a == Reg.imgPartId n || (decide (Reg.imgMeasure n 0 ≤ a) && decide (a < Reg.imgMeasure n 8)))

/-- The registers that return to zero when a load into a slot reaches step 3 (R130, R197, R263, R300, R336, R450, R539, R575,
R607). -/
def loadClears (n : Nat) (r : Rect) (a : Nat) : Bool :=
  let own := fun (base : Nat) => decide (base + n * 0x20 ≤ a) && decide (a < base + n * 0x20 + 0x20)
  let rgn := (a - 0x0100_0000) / 0x1_0000
  let off := (a - 0x0100_0000) % 0x1_0000
  own Reg.skidderSlots || own Reg.reducerSlots || own Reg.jobSlots || a == Reg.pwrEnergyLoad n || a == Reg.beatSlot n ||
    a == Reg.beatSlackTally n ||
    (inBlock a && decide (0x0100_0000 ≤ a) && r.has rgn &&
      (decide (0x8000 ≤ off) || off == 0x100 || off == 0x108 || (decide (0x208 ≤ off) && decide (off ≤ 0x228)) || off == 0x300))

/-! ## Failing and aborting (R59, R68, R69) -/

/-- Whether a message is one of the loader's own. -/
def loaderMsg : Instr → Bool
  | .loadOpen _ => true
  | .loadCheck => true
  | .loadConfigure => true
  | .miss _ _ => true
  | _ => false

/-- The objects that the load created are freed, its allocations end, and the slot's quotas return to zero (R368). -/
def State.voidManifest (s : State) (n : Nat) : State :=
  let waits := s.yard.allocs.filter (fun a => a.kind == .load && a.slot == n)
  let s := waits.foldl (fun s a => (s.setAllocs (s.yard.allocs.erase a)).freeExtents a.dest a.got) s
  let s := s.ldr.made.foldl State.freeObj s
  ({ s with yard := { s.yard with failed := s.yard.failed.filter (fun m => m != n) } }).setQuotas n 0 0 0

/-- What a load undoes once step 3 has begun (R68): the rectangle is unconfigured, the slot EMPTY, the plans void. -/
def State.voidLoad (s : State) : State :=
  if s.ldr.claimed then
    let n := s.imgSlot
    let s := s.unloadRect (s.slot n).rect
    let s := ((s.voidManifest n).clearPlans n).setSlot n .reset
    let s := s.clearMeasure n
    { s with inFlight := s.inFlight.filter (fun m => !loaderMsg m) }
  else s

/-- The load ends in `k`: 7 FAILED or 8 ABORTED. -/
def State.endLoad (s : State) (k : Nat) : State := (s.voidLoad.setLdr .reset).setImgState k

/-- The load FAILED with an error. Log 112 (DEDUCED). -/
def State.failLoad (s : State) (e : ImgErr) (seq : Nat := 0) : State :=
  (s.endLoad 7).setReg Reg.imgError (BitVec.ofNat 64 (field 63 48 e.sec + field 47 30 e.cell + field 29 8 seq + field 7 0 e.code))

/-- The load ends ABORTED (R69, R74). -/
def State.abortLoad (s : State) : State := if s.loadActive then s.endLoad 8 else s

/-- A reset narrower than a module reset overlaps the rectangle of a load past step 3: the load starts again at VERIFYING
once the reset has completed; the fourth restart fails it (R70). -/
def State.restartLoad (s : State) : State :=
  if s.regF Reg.imgStatus 15 12 = 3 then s.failLoad { code := 0x0D }
  else
    let n := s.regF Reg.imgStatus 15 12
    (((s.voidLoad.setLdr { LdrSt.reset with waits := true }).setImgState 1).setRegF Reg.imgStatus 15 12 (n + 1)).setRegF
      Reg.imgStatus 9 8 0

/-! ## Starting (R63, R69, R76) -/

/-- A load starts into a slot. -/
def State.startLoad (s : State) (n : Nat) : State :=
  let s := s.setReg Reg.imgStatus (BitVec.ofNat 64 (field 6 4 n + 1))
  let s := s.setReg Reg.imgError (BitVec.ofNat 64 (field 63 48 0xFFFF))
  ((s.setReg Reg.imgProgress 0).setReg Reg.imgRepair 0).setLdr .reset

/-- A write of IMG_CTRL: an abort acts before a start (R63, R69, R76). Log 112 (DEDUCED). -/
def State.writeImgCtrl (s : State) (value : Word) : State × Bool :=
  let n := bits 11 8 value
  let s := s.setRegF Reg.imgCtrl 11 8 n
  let s := if bit 1 value then s.abortLoad else s
  if !bit 0 value then (s, true)
  else if s.loadActive ∨ 8 ≤ n then (s.reject none n, false)
  else (s.startLoad n, true)

/-! ## Delivering (R63 steps 3 and 4) -/

/-- The slot claims the rectangle and ports as LOADING; its earlier plans and the rectangle's configured state are cleared. -/
def State.claim (s : State) (n : Nat) : State :=
  let r := s.imgRect
  let s := s.clearRegs (loadClears n r)
  let s := (s.unloadRect r).clearPlans n
  let s := s.setSlot n { SlotSt.reset with
    state := .loading, rect := r, ports := BitVec.ofNat 16 s.imgPorts, features := BitVec.ofNat 32 s.imgFeatures,
    granted := BitVec.ofNat 6 s.features, gateTimeout := s.imgN 0x2C 4, seed := BitVec.ofNat 64 (s.imgN 0x30 8),
    owner := s.imgOwner,
    required := s.imgRequired }
  let s := r.regions.foldl (fun s k => s.modRgn k (fun x => { x with hub := .reset, word := 0, slips := 0, synced := false, waited := false })) s
  let s := { s with jobs := s.jobs.put n .reset }
  ((s.clearMeasure n).setReg Reg.imgProgress (BitVec.ofNat 64 (field 63 32 s.imgChunks))).modLdr (fun l => { l with claimed := true })

/-- One direct section written into its unit; none where the unit refuses it. Log 114 (DEDUCED). -/
def State.deliverSec (s : State) (n : Nat) (x : Sec) : Option State :=
  let b := s.secBytes x
  match x.kind with
  | 0x21 => s.streamPlan n b
  | 0x22 => s.manifestPlan n b
  | 0x23 => s.redPlan n b
  | 0x24 => s.beatPlan n b
  | 0x25 => s.powerPlan n b
  | _ => some s

/-- The direct sections in table order, up to the first that is refused. Log 114 (DEDUCED). -/
def State.deliverAll (n : Nat) : List Sec → State → State × Option Nat
  | [], s => (s, none)
  | x :: t, s =>
    match s.deliverSec n x with
    | some s' => State.deliverAll n t s'
    | none => (s, some x.index)

/-- The slot's allocations of the load still wait. -/
def State.loadWaits (s : State) (n : Nat) : Bool := s.yard.allocs.any (fun a => a.kind == .load && a.slot == n)

/-- The load-open commands on their way to every target (R63 step 4). -/
def State.sendOpens (s : State) : State :=
  let ts := s.imgTargets
  if ts.isEmpty then (s.modLdr (fun l => { l with tries := 1 })).setImgState 3
  else (s.modLdr (fun l => { l with unacked := ts, tries := 1 })).sendAll (ts.map Instr.loadOpen)

/-- A load in DELIVERING goes on once no allocation of its objects waits; one that failed is a refusal of MANIFEST (R368). -/
def State.pollLoad (s : State) : State :=
  let n := s.imgSlot
  if s.imgState ≠ 2 ∨ s.ldr.tries ≠ 0 then s
  else if s.yard.failed.contains n then s.failLoad { code := 0x0F, sec := ((s.secOf 0x22).map (fun x => x.index)).getD 0xFFFF }
  else if s.loadWaits n then s
  else s.sendOpens

/-- LOAD_VERIFY_DONE: the checks of step 2, then steps 3 and 4 begin (R63). -/
def execLoadVerifyDone (s : State) : Host.Outcome State Fault Refusal :=
  .next (
    if s.imgState ≠ 1 ∨ s.ldr.waits then s
    else
      let n := s.imgSlot
      match s.verifyImage n with
      | some e => s.failLoad e
      | none =>
        if s.manifestFar (s.payload 0x22) then
          s.failLoad { code := 0x05, sec := ((s.secOf 0x22).map (fun x => x.index)).getD 0xFFFF }
        else
          let s := (s.setImgState 2).claim n
          let s := if (s.secOf 0x22).isSome then s else s.applyManifest n []
          match State.deliverAll n s.imgSecs s with
          | (s, some k) => s.failLoad { code := 0x0F, sec := k }
          | (s, none) => s.pollLoad)

/-- EXTENT_COPY_DONE (R353): a waiting load goes on when its allocations have been met. -/
def execExtentCopyDone (h : Nat) (result : CopyResult) (s : State) : Host.Outcome State Fault Refusal :=
  .next (s.extentCopyDone h result).pollLoad

/-- ALLOCATION_RETRY (R362). -/
def execAllocationRetry (s : State) : Host.Outcome State Fault Refusal := .next s.allocationRetry.pollLoad

/-- ALLOCATION_WAIT_LIMIT (R362, R368). -/
def execAllocationWaitLimit (h : Nat) (s : State) : Host.Outcome State Fault Refusal := .next (s.allocationLimit h).pollLoad

/-! ## The targets (R51, R55) -/

def State.loadOf (s : State) : Target → LoadSt
  | .cell c => (s.cell c).load
  | .foreman f => (s.fm f).load

def State.setLoad (s : State) (t : Target) (l : LoadSt) : State :=
  match t with
  | .cell c => s.modCell c (fun x => { x with load := l })
  | .foreman f => s.modFm f (fun x => { x with load := l })

/-- The target takes loader traffic: it is powered, in no reset, and not fenced (R30, R617). Log 115 (DEDUCED). -/
def State.takes (s : State) : Target → Bool
  | .cell c => !(s.rgn (regionOf c)).dark && !(s.rgn (regionOf c)).held && (s.cell c).looper != .snag && (s.cell c).resetting.isNone
  | .foreman f => !(s.rgn f.region).dark && !(s.rgn f.region).held

/-- What load-open leaves at a target: the run table empty, N and d known. -/
def LoadSt.opening (n d : Nat) : LoadSt := { LoadSt.reset with opened := true, total := n, dirs := d }

/-- LOAD_OPEN at a target: it acknowledges; with the last acknowledgement BROADCAST begins (R51, R63). Log 115 (DEDUCED). -/
def execLoadOpen (t : Target) (s : State) : Host.Outcome State Fault Refusal :=
  .next (
    let s := s.deliver (.loadOpen t)
    if !s.takes t ∨ s.imgState ≠ 2 then s
    else
      let s := s.setLoad t (.opening s.imgChunks s.imgDirs)
      let left := s.ldr.unacked.filter (fun u => u != t)
      let s := s.modLdr (fun l => { l with unacked := left })
      if left.isEmpty then s.setImgState 3 else s)

/-- LOAD_OPEN_RETRY: 10 µs have passed; after the third attempt the silent targets are suspects and BROADCAST begins (R63). -/
def execLoadOpenRetry (s : State) : Host.Outcome State Fault Refusal :=
  .next (
    if s.imgState ≠ 2 then s
    else if s.ldr.tries = 0 then s.pollLoad
    else if s.ldr.tries < 3 then
      (s.modLdr (fun l => { l with tries := l.tries + 1 })).sendAll
        ((s.ldr.unacked.filter (fun t => !s.inFlight.contains (.loadOpen t))).map Instr.loadOpen)
    else (s.modLdr (fun l => { l with suspects := l.suspects ++ l.unacked, unacked := [] })).setImgState 3)

/-! ### Chunks (R52 to R55) -/

/-- Log 111 (DESIGN CHOICE). -/
abbrev ChunkHdr := BitVec 128

def ChunkHdr.seq (h : ChunkHdr) : Nat := bits 127 106 h
def ChunkHdr.kind (h : ChunkHdr) : Nat := bits 81 74 h
def ChunkHdr.nw (h : ChunkHdr) : Nat := bits 73 56 h
def ChunkHdr.se (h : ChunkHdr) : Nat := bits 55 38 h
def ChunkHdr.offset (h : ChunkHdr) : Nat := 16 * bits 37 14 h
def ChunkHdr.len (h : ChunkHdr) : Nat := 16 * bits 13 7 h

/-- CHUNK_LEAD: the lead message of a chunk reaches a target (R53). Log 111 (DESIGN CHOICE). -/
def execChunkLead (t : Target) (header : BitVec 128) (crc : BitVec 32) (s : State) : Host.Outcome State Fault Refusal :=
  .next (
    let l := s.loadOf t
    if !l.opened ∨ !s.takes t then s
    else
      let s := s.setLoad t { l with lead := some (header, crc), data := [] }
      if s.imgState = 3 then
        s.setRegF Reg.imgProgress 31 0 (max (s.regF Reg.imgProgress 31 0) (ChunkHdr.seq header + 1))
      else s)

/-- Marks of entries of 2^`sh` bytes that a write of `n` bytes at `a` makes new. -/
def unmark (marks : List (Nat × Bool)) (sh a n : Nat) : List (Nat × Bool) :=
  marks.filter (fun m => decide (m.1 < a / 2 ^ sh) || decide ((a + n - 1) / 2 ^ sh < m.1))

/-- A chunk's payload written into a cell's unit. -/
def CellSt.writeUnit (x : CellSt) (kind a : Nat) (bs : Bytes) : CellSt :=
  match kind with
  | 2 => { x with stepMem := x.stepMem.write a bs, stepEcc := unmark x.stepEcc 4 a bs.length }
  | 3 => { x with xchgMem := x.xchgMem.write a bs, xchgEcc := unmark x.xchgEcc 4 a bs.length }
  | 4 => { x with near := x.near.write a bs }
  | 5 => { x with under := x.under.write a bs }
  | 6 => { x with cfg := x.cfg.write a bs }
  | _ => x

/-- A chunk's payload written into a foreman's unit. -/
def FmSt.writeUnit (x : FmSt) (kind a : Nat) (bs : Bytes) : FmSt :=
  match kind with
  | 0x10 => { x with fprog := x.fprog.write a bs, fprogEcc := unmark x.fprogEcc 3 a bs.length }
  | 0x11 => { x with fcurve := x.fcurve.write a bs, fcurveEcc := false }
  | _ => x

/-- The run table with the entries of a DIRECTORY chunk that target it, 512 at most (R51). -/
def LoadSt.takeRuns (l : LoadSt) (t : Target) (bs : Bytes) : LoadSt :=
  let new : List RunDesc := ((List.range (bs.length / 16)).map (fun k => BitVec.ofNat 128 (leAt bs (16 * k) 16))).filter
    (fun r => RunDesc.kind r != 1 && (l.near || RunDesc.kind r != 4) && RunDesc.hits r t && !l.runs.contains r)
  { l with runs := (l.runs ++ new).take 512 }

/-- A chunk whose check passes, at a target of it (R51, R55). Log 115 (DEDUCED). -/
def State.takeChunk (s : State) (t : Target) (h : ChunkHdr) (bs : Bytes) : State :=
  let k := ChunkHdr.kind h
  let l := s.loadOf t
  let l := { l with held := if l.held.contains (ChunkHdr.seq h) then l.held else l.held ++ [ChunkHdr.seq h] }
  if k = 1 then s.setLoad t (l.takeRuns t bs)
  else if unitBytes k < ChunkHdr.offset h + bs.length then s
  else
    let s := s.setLoad t l
    match t with
    | .cell c => s.modCell c (fun x => x.writeUnit k (ChunkHdr.offset h) bs)
    | .foreman f => s.modFm f (fun x => x.writeUnit k (ChunkHdr.offset h) bs)

/-- CHUNK_DATA: the payload goes on; with its last byte the check is made (R53, R55). Log 111 (DESIGN CHOICE). -/
def execChunkData (t : Target) (data : Bytes) (s : State) : Host.Outcome State Fault Refusal :=
  .next (
    let l := s.loadOf t
    match l.lead with
    | none => s
    | some (h, crc) =>
      if !s.takes t then s.setLoad t { l with lead := none, data := [] }
      else
        let bs := l.data ++ data
        if bs.length < ChunkHdr.len h then s.setLoad t { l with data := bs }
        else
          let bs := bs.take (ChunkHdr.len h)
          let s := s.setLoad t { l with lead := none, data := [] }
          if crc32c (toLE 16 h.toNat ++ bs) = crc ∧ hitsTarget (ChunkHdr.kind h) (ChunkHdr.nw h) (ChunkHdr.se h) t then
            s.takeChunk t h bs
          else s)

/-! ## Repair rounds (R64) -/

/-- The chunks that a target expects and lacks, by its own run table. -/
def LoadSt.lacks (l : LoadSt) : List Nat :=
  (List.range l.dirs ++ l.runs.flatMap (fun (r : RunDesc) => (List.range (RunDesc.count r)).map (fun k => RunDesc.first r + k))).filter
    (fun q => !l.held.contains q)

/-- The target lacks a chunk; one that load-open has not reached lacks all. Log 112 (DEDUCED). -/
def State.lacking (s : State) (t : Target) : Bool := !(s.loadOf t).opened || !(s.loadOf t).lacks.isEmpty

/-- The loader's targets in a block. -/
def blockTargets (f : FmId) : List Target := Target.foreman f :: (blockCells f).map Target.cell

/-- The block raises MISSING (R64). -/
def State.blockLacks (s : State) (f : FmId) : Bool := (blockTargets f).any s.lacking

/-- A target's list in its foreman's miss message (R64). -/
def State.missOf (s : State) (t : Target) : MissList :=
  let l := s.loadOf t
  if !l.opened then ⟨t, [], true⟩
  else if 16 < l.lacks.length then ⟨t, [], true⟩
  else ⟨t, l.lacks, false⟩

/-- The miss message of a block. -/
def State.missMsg (s : State) (f : FmId) : Instr := .miss f (((blockTargets f).filter s.lacking).map s.missOf)

/-- The chunks resent to a block: those its lists name, every expected one of an overflow target, and those of every target
of a silent block. -/
def State.resendCount (s : State) (f : FmId) (reports : List (FmId × List MissList)) : Nat :=
  match reports.find? (fun r => r.1 == f) with
  | some r => (r.2.map (fun m => if m.overflow then s.expectedOf m.target else m.seqs.length)).sum
  | none => ((blockTargets f).map s.expectedOf).sum

/-- The rounds once a check has come back: none missing, or the report window opens. -/
def RoundSt.checked (r : RoundSt) (miss : List FmId) : RoundSt := { r with window := !miss.isEmpty, missing := miss, reports := [] }

/-- MISS: a block's lists reach the loader (R64). -/
def execMiss (f : FmId) (lists : List MissList) (s : State) : Host.Outcome State Fault Refusal :=
  .next (
    let s := s.deliver (.miss f lists)
    let add := fun (r : RoundSt) => if r.window ∧ r.missing.contains f = true then { r with reports := r.reports ++ [(f, lists)] } else r
    let s := s.modLdr (fun l => { l with rounds := add l.rounds })
    { s with jobs := s.jobs.map (fun (e : Nat × JobSt) =>
        (e.1, { e.2 with repair := e.2.repair.map (fun p => { p with rounds := add p.rounds }) })) })

/-! ## Suspects (R65 to R67, R73) -/

/-- The bad position of a block row set (R21, R24); the logical cells from `c` on move to other silicon, whose contents are
undefined and unconfigured, and the T0 objects there are damaged (R343). Log 113 (DEDUCED). -/
def State.remapRow (s : State) (c : Nat) : State :=
  let moved := (List.range (8 - colOf c % 8)).map (fun k => c + k)
  let s := s.loseT0Cells (fun d => moved.contains d)
  let s := { s with spares := s.spares.set 9 (regionOf c * 240 + blockRowOf c) (colOf c % 8) }
  let k := s.freeCtr
  let s := { s with freeCtr := k + 192 }
  moved.zipIdx.foldl (fun s e => s.setCell e.1 (CellSt.unpowered (k + 24 * e.2))) s

/-- The spare of the cell's block row is free. -/
def State.spareFree (s : State) (c : Nat) : Bool := s.spareOf (regionOf c) (blockRowOf c) == 9

/-- A suspect cell: recorded, fenced, and its row remapped; its block's targets keep what they hold (R65). The cell at a row
without a free spare is answered. Log 113 (DEDUCED). -/
def State.suspectCell (s : State) (c : Nat) : State × Option Nat :=
  let s := (s.satReg Reg.imgRepair 55 48 1).watchFail 1 c 0x2002
  let s := (s.fenceCell c).raiseCell 0x2002 c 0
  if s.spareFree c then
    let l := LoadSt.opening s.imgChunks s.imgDirs
    let s := s.remapRow c
    ((List.range (8 - colOf c % 8)).foldl (fun s k => s.setLoad (.cell (c + k)) l) s, none)
  else (s, some c)

/-- The suspects in turn, up to one without a spare. Log 113 (DEDUCED). -/
def State.suspectCells : List Nat → State → State × Option Nat
  | [], s => (s, none)
  | c :: t, s =>
    match s.suspectCell c with
    | (s, none) => State.suspectCells t s
    | (s, some d) => (s, some d)

def Target.cellOf : Target → Option Nat
  | .cell c => some c
  | .foreman _ => none

def Target.fmOf : Target → Option FmId
  | .foreman f => some f
  | .cell _ => none

/-- A target that is fenced, or that lacks chunks. -/
def State.unsound (s : State) (t : Target) : Bool := !s.takes t || s.lacking t

/-- The configure broadcast on its way (R63 step 8). -/
def State.sendConfigure (s : State) : State := (s.modLdr (fun l => { l with commit := true })).send .loadConfigure

/-- The rounds of the load have ended: its suspects are handled, or it commits (R65, R66, R73). -/
def State.endRounds (s : State) : State :=
  let r := s.ldr.rounds
  let bad := (r.blocks.flatMap blockTargets).filter (fun t => s.unsound t || s.ldr.suspects.contains t)
  match bad.filterMap Target.fmOf with
  | f :: _ => s.failLoad { code := 0x0C, cell := blockCell f }
  | [] =>
    let cells := bad.filterMap Target.cellOf
    if cells.isEmpty then s.sendConfigure
    else if s.imgState = 5 then s.failLoad { code := 0x0B, cell := cells.headD 0 }
    else match State.suspectCells cells s with
      | (s, some c) => s.failLoad { code := 0x0B, cell := c }
      | (s, none) =>
        let blocks := (cells.map fmOf).foldl (fun l f => if l.contains f then l else l ++ [f]) []
        ((s.modLdr (fun l => { l with suspects := [], rounds := { RoundSt.reset with blocks := blocks } })).setImgState 5).setRegF
          Reg.imgStatus 9 8 0

/-- LOAD_BROADCAST_DONE: chunk N − 1 has left; a trail section whose CRC has changed fails the load (R62, R63 steps 5, 6).
Log 111 (DESIGN CHOICE). -/
def execLoadBroadcastDone (s : State) : Host.Outcome State Fault Refusal :=
  .next (
    if s.imgState ≠ 3 then s
    else match s.badCrc Sec.trail with
      | some k => s.failLoad { code := 0x03, sec := k }
      | none =>
        ((s.setRegF Reg.imgProgress 31 0 s.imgChunks).modLdr (fun l =>
          { l with rounds := { RoundSt.reset with blocks := s.imgFms } })).setImgState 4)

/-- The load checks its targets. -/
def State.loadRounds (s : State) : Bool := (s.imgState == 4 || s.imgState == 5) && !s.ldr.commit

/-- The load's part of LOAD_CHECK: MISSING is raised by the blocks that lack chunks, and their lists set out; with none the
rounds end (R64). -/
def State.loadCheck (s : State) : State :=
  if !s.loadRounds then s
  else
    let miss := s.ldr.rounds.blocks.filter s.blockLacks
    if miss.isEmpty then s.endRounds
    else (s.modLdr (fun l => { l with rounds := l.rounds.checked miss })).sendAll
      ((miss.filter (fun f => s.takes (.foreman f))).map s.missMsg)

/-- The load's part of REPAIR_ROUND: the next of three rounds begins; after the third the suspects are handled (R64, R65).
Log 113 (DEDUCED). -/
def State.loadRound (s : State) : State :=
  let r := s.ldr.rounds
  if !s.loadRounds ∨ r.window ∨ s.inFlight.contains .loadCheck then s
  else if 3 ≤ r.round then s.endRounds
  else ((s.modLdr (fun l => { l with rounds := { r with round := r.round + 1 } })).setRegF Reg.imgStatus 9 8 (r.round + 1)).send
    .loadCheck

/-- The load's part of the end of the report window: what is resent counts in the round's field of IMG_REPAIR (R64, R79). -/
def State.loadWindowEnd (s : State) : State :=
  let r := s.ldr.rounds
  if !s.loadRounds ∨ !r.window then s
  else
    let k := (r.missing.map (fun f => s.resendCount f r.reports)).sum
    let lo := 16 * (r.round - 1)
    let s := if s.imgState = 4 then s.satReg Reg.imgRepair (lo + 15) lo k else s
    s.modLdr (fun l => { l with rounds := { r with window := false, missing := [], reports := [] } })

/-- A cell once the configure broadcast has reached it (R116, R179, R198, R201, R228, R276).
Log 18 (DESIGN CHOICE), 110 (DEDUCED). -/
def CellSt.configure (x : CellSt) : CellSt :=
  if x.looper = .snag then x
  else
    { x with
      looper := .idle, configured := true, satNarrow := bit 0 (x.cfg.word 0), latch := Vector.replicate 16 0, epoch := 0, execNo := 0,
      width := 0, view := .w40, arrivals := [], errCb := 0, errD := 0, entered := 0, passed := 0, word := 0, noticed := false,
      notice := none, heldPass := 0, hsEntered := 0, hsEpochs := 0, tallies := x.tallies, load := .reset }

def FmSt.configure (x : FmSt) : FmSt := { x with configured := true, load := .reset }

def State.configureTarget (s : State) : Target → State
  | .cell c => s.modCell c CellSt.configure
  | .foreman f => s.modFm f FmSt.configure

/-- IMG_MEASURE of a slot set to a digest. -/
def State.setMeasure (s : State) (n : Nat) (d : Bytes) : State :=
  (List.range 8).foldl (fun s w => s.setReg (Reg.imgMeasure n w) (BitVec.ofNat 64 (leAt d (8 * w) 8))) s

/-- LOAD_CONFIGURE: every target is configured, and the load commits (R63 step 8). -/
def execLoadConfigure (s : State) : Host.Outcome State Fault Refusal :=
  .next (
    let s := s.deliver .loadConfigure
    if !s.ldr.commit then s
    else
      let n := s.imgSlot
      let s := s.imgTargets.foldl State.configureTarget s
      let s := (s.setMeasure n s.imgDigest).setReg (Reg.imgPartId n) (BitVec.ofNat 64 (s.imgN 0x18 8))
      let s := s.modSlot n (fun x => { x with state := .loaded })
      ((s.clearBarriers n).setLdr .reset).setImgState 6)

end Sys2Proof.Machine
end

