-- ==== Sys2Proof/Machine/Faults.lean ====
section
/-! DEFINITION. Faults: the fault codes with their classes and actions (R578, R580, R601), the fault log (R576, R577), the
stop of a job (R440, R581 to R583), and the actions of a fault as it reaches the module root (R579, R593, R602). -/

namespace Sys2Proof.Machine

open Sys2Proof

/-! ## The codes (R601) -/

/-- The action bits of a fault record (R576). -/
def actHalt : Nat := 1
def actFence : Nat := 2
def actFault : Nat := 4
def actRollback : Nat := 8
def actWatch : Nat := 16
def actDegrade : Nat := 32
def actLimit : Nat := 64
def actRegion : Nat := 128

/-- Code, class (R578: 0 HW, 1 IMG, 2 DATA, 3 ENV, 4 OP, 5 EVENT) and actions. Log 85 (DESIGN CHOICE). -/
def faultTable : List (Nat × Nat × Nat) :=
  [ (0x1001, 0, actHalt + actWatch), (0x1002, 1, actHalt), (0x1003, 1, actHalt), (0x1004, 2, actHalt), (0x1005, 2, actHalt),
    (0x1006, 1, actHalt), (0x1007, 2, actHalt), (0x1008, 0, actWatch), (0x1009, 0, actHalt + actWatch), (0x100A, 1, actHalt),
    (0x100B, 1, 0), (0x100C, 0, actWatch),
    (0x2001, 5, actFence), (0x2002, 5, 0), (0x2003, 0, actFence + actWatch), (0x2004, 0, actWatch), (0x2005, 1, actFence),
    (0x2006, 1, 0), (0x2007, 1, actFence),
    (0x3001, 0, actFence + actWatch), (0x3002, 0, actFault + actWatch), (0x3003, 0, actFence + actWatch),
    (0x3004, 0, actFault + actWatch), (0x3010, 0, actRegion + actWatch), (0x3011, 3, actRegion), (0x3012, 0, actLimit + actWatch),
    (0x3020, 0, actWatch), (0x3021, 0, actDegrade),
    (0x4001, 5, actFault), (0x4020, 2, actFault), (0x4021, 1, actFault), (0x4022, 2, actFault), (0x4023, 2, actFault),
    (0x4024, 0, actFault) ] ++
  [ (0x4030, 4, 0), (0x4031, 2, 0), (0x4032, 1, 0), (0x4033, 0, actFault + actDegrade), (0x4034, 5, 0), (0x4035, 2, 0),
    (0x4040, 0, 0), (0x4041, 3, actLimit), (0x4042, 0, 0), (0x4043, 4, 0), (0x4044, 3, 0),
    (0x4050, 0, actRollback + actWatch), (0x4052, 2, 0), (0x4053, 5, 0), (0x4054, 2, 0), (0x4055, 1, actFault), (0x4056, 5, 0),
    (0x4057, 1, 0), (0x4058, 5, actRollback),
    (0x4060, 0, 0), (0x4061, 3, 0), (0x4062, 2, 0), (0x4063, 2, 0), (0x4064, 4, 0), (0x4065, 4, 0), (0x4070, 3, 0),
    (0x4071, 4, 0), (0x4080, 3, 0), (0x4081, 3, 0), (0x4082, 5, 0), (0x4083, 0, actFault),
    (0x4090, 3, actLimit), (0x4091, 3, 0), (0x4092, 3, actLimit), (0x4093, 3, actLimit) ] ++
  [ (0x40A0, 5, 0), (0x40A1, 5, actFault), (0x40A2, 0, 0), (0x40A3, 0, actFault), (0x40A4, 5, 0), (0x40B0, 0, 0), (0x40B1, 0, 0),
    (0x40B2, 4, 0), (0x40B3, 4, 0), (0x40C0, 0, 0), (0x40C1, 0, actWatch) ]

def faultRow (code : Nat) : Nat × Nat :=
  match faultTable.find? (fun r => r.1 == code) with
  | some r => r.2
  | none => (4, 0)

def faultClass (code : Nat) : Nat := (faultRow code).1
def faultActs (code : Nat) : Nat := (faultRow code).2

/-- The code's action includes one of the bits. -/
def actsOn (code bitsOf : Nat) : Bool := (faultActs code).land bitsOf != 0

/-! ## The log (R576, R577, R606) -/

/-- The records that the log holds. -/
def logSize : Nat := 4096

/-- The index of the newest record. -/
def State.newestRecord (s : State) : Nat := (s.flt.total + logSize - 1) % logSize

/-- The slot byte of a record. -/
def slotByte : Option Nat → Nat
  | some n => n % 8
  | none => 0x80

/-- A fault recorded: it joins the newest record when that has the same code, unit, slot and tick, else a new record takes
the oldest one's place; classes HW and ENV go to the log book as well. Log 116 (DEDUCED). -/
def State.record (s : State) (m : Notice) : State :=
  let f := s.flt
  let now := s.beat
  let fresh :=
    let r : FaultRec := { beat := now, code := m.code, cls := faultClass m.code, slot := slotByte m.slot, unit := m.unit,
                          detail := m.detail, position := m.position, action := faultActs m.code, count := 1,
                          seq := (f.total + 1) % 2 ^ 32, read := false }
    let lost := match f.log[logSize - 1]? with
      | some o => !o.read
      | none => false
    let s := if lost then s.satReg Reg.fltLogStatus 31 16 1 else s
    let s := s.setFlt { f with log := (r :: f.log).take logSize, total := f.total + 1 }
    if r.cls = 0 ∨ r.cls = 3 then s.journal 0x02 r.head else s
  match f.log with
  | r :: t =>
    if r.code = m.code ∧ r.unit = m.unit ∧ r.slot = slotByte m.slot ∧ r.beat = now then
      s.setFlt { f with log := { r with count := min 65535 (r.count + 1) } :: t }
    else fresh
  | [] => fresh

/-! ## Jobs (R581 to R583, R604) -/

def State.job (s : State) (n : Nat) : JobSt := s.jobs.get .reset n
def State.setJob (s : State) (n : Nat) (x : JobSt) : State := { s with jobs := s.jobs.put n x }
def State.modJob (s : State) (n : Nat) (f : JobSt → JobSt) : State := s.setJob n (f (s.job n))
def State.setJobState (s : State) (n k : Nat) : State := s.setRegF (Reg.fltJob n) 3 0 k

/-- FLT_JOB shows a cause and its record. -/
def State.setCause (s : State) (n code idx : Nat) : State :=
  (s.setRegF (Reg.fltJob n) 63 48 code).setRegF (Reg.fltJob n) 43 32 idx

/-- The slot's job is stopped: STOP with clear to every configured looper, the foreman programs end, the stream program stops,
the schedule stops and the hold level is 0 (R126, R130, R582). -/
def State.stopJob (s : State) (n : Nat) : State :=
  let s := s.sendAll ((s.slotCells n).map (fun c => Instr.looperStop c true))
  let s := (s.slotFms n).foldl (fun s f => s.modFm f (fun x => { x with prog := if x.prog = .faulted ∨ x.prog = .halted then x.prog else .idle })) s
  ((s.skdStop n).stopSched n).dropHold n

/-- A job that stops with a commit begun (R440). Log 65 (DEDUCED). -/
def State.cutCommit (s : State) (n : Nat) : State :=
  if s.commitCut n then
    let p := s.stepP n
    ((s.rollbackTo n).rollbackUp n p).raise 0x4058 (some n) 0 0
  else s

/-- The repair path begins (R584). Log 119 (DEDUCED). -/
def State.startRepair (s : State) (n : Nat) : State :=
  (s.setJobState n 6).modJob n (fun x => { x with repair := some ⟨1, [], [], [], .reset⟩ })

/-- The repair path runs on its own on entry to FAULTED (R584). -/
def State.autoRepair (s : State) (n code : Nat) : State :=
  if bit 1 (s.reg Reg.fltPolicy) && ([0, 2, 5] : List Nat).contains (faultClass code) then s.startRepair n else s

/-- The newest step record flagged: the job entered FAULTED before the next release (R605). -/
def State.flagStep (s : State) (n : Nat) : State :=
  s.modSlot n (fun x => { x with records := match x.records with
    | r :: t => { r with fault := true } :: t
    | [] => [] })

/-- The job enters FAULTED with the record `idx` as its cause (R582). -/
def State.faultJob (s : State) (n code idx : Nat) : State :=
  let cut := s.commitCut n
  let s := s.stopJob n
  let p := s.stepP n
  let s := (s.rollbackTo n).rollbackUp n p
  let s := if cut then s.raise 0x4058 (some n) 0 0 else s
  let s := ((s.setCause n code idx).setJobState n 3).flagStep n
  let s := s.modJob n (fun x => { x with armed := none, replay := none })
  (s.raise 0x40A0 (some n) 0 0).autoRepair n code

/-- A fault with a job action reaches a slot (R582, R602): a running job enters FAULTED; a REGION fault ends a repair and is the
new cause. -/
def State.jobAction (s : State) (n code idx : Nat) : State :=
  if s.jobRuns n then s.faultJob n code idx
  else if s.jobState n = 6 ∧ actsOn code actRegion then
    (((s.modJob n (fun x => { x with repair := none })).setCause n code idx).setJobState n 3).autoRepair n code
  else s

/-! ## Actions (R580, R584, R587, R593) -/

/-- The configured cells of a block. Log 117 (DEDUCED). -/
def State.configuredCells (s : State) (f : FmId) : List Nat := (blockCells f).filter (fun c => (s.cell c).configured)

/-- The cells that a fault's action fences: the halted cell, or the block's cells; those of 0x2001 and 0x3003 are fenced where
they are raised. Log 117 (DEDUCED). -/
def State.fenceFor (s : State) (m : Notice) : State :=
  let block := fun (s : State) (f : FmId) =>
    let s := (s.modFm f (fun x => { x with prog := .faulted })).abandonBuild f
    (s.configuredCells f).foldl State.fenceBy s
  if actsOn m.code actHalt then s.fenceBy m.unit
  else if m.code = 0x2003 ∨ m.code = 0x2005 ∨ m.code = 0x2007 then block s (fmOf m.unit)
  else if m.code = 0x3001 then block s ⟨m.unit % 128, natBits 12 8 m.unit⟩
  else s

/-- The regions that a digest mismatch lists: those with a cell of a MASTER or PUBLISHED route of the layer, on its owners
(R593). -/
def State.mismatchRegions (s : State) (n k : Nat) : List Nat :=
  let x := s.red n
  let own := match x.layers[k]? with
    | some l => l.plan.role == 1 || l.plan.role == 2
    | none => false
  if !own then []
  else
    let rs := x.routes.filter (fun r => r.layer == k && (r.out == 1 || r.out == 2))
    (s.slot n).rect.regions.filter (fun g => rs.any (fun r => cellsOverlap (regionCell g) (regionCell g + 47 * 512 + 39) r.first r.last))

/-- The unit that a code with WATCH lists, by kind and number (R593, R601, R613). -/
def State.watchUnits (s : State) (m : Notice) : List (Nat × Nat) :=
  if !actsOn m.code actWatch then []
  else if m.code = 0x3003 then [(1, m.detail % 2 ^ 18)]
  else if m.code = 0x2003 then [(2, globalBlock (fmOf m.unit))]
  else if m.code = 0x3001 then [(2, globalBlock ⟨m.unit % 128, natBits 12 8 m.unit⟩)]
  else if m.code = 0x4050 then
    match m.slot with
    | some n => (s.mismatchRegions n m.unit).map (fun r => (3, r))
    | none => []
  else if m.code = 0x40C1 then
    if 2 ^ 31 ≤ m.unit then []
    else if natBits 12 8 m.unit = 0x1F then [(3, m.unit % 128)]
    else [(2, globalBlock ⟨m.unit % 128, natBits 12 8 m.unit⟩)]
  else if m.code < 0x3000 then [(1, m.unit)]
  else if m.unit % 128 < 72 then [(3, m.unit % 128)] else []

/-- The cells that a record of class HW names, with those fenced under R283 (R584, R587). Log 117 (DEDUCED). -/
def State.hwCells (s : State) (m : Notice) : List Nat :=
  if m.code = 0x2001 then
    let f := fmOf m.unit
    (List.range 64).filterMap (fun k => if bit k (s.reg (Reg.fmnBarrierMissing f)) then some (cellOfPos f k) else none)
  else if m.code = 0x3003 then [m.detail % 2 ^ 18]
  else if ([0x1001, 0x1008, 0x1009, 0x100C, 0x2004] : List Nat).contains m.code then [m.unit]
  else []

/-- The slots whose job a fault's action reaches. -/
def State.actSlots (s : State) (m : Notice) : List Nat :=
  if !actsOn m.code (actHalt + actFence + actFault + actRegion) then []
  else if m.code = 0x4033 then (List.range 8).filter (fun n => s.jobState n == 1)
  else m.slot.toList

/-- The DEGRADED reasons that codes set (R580, R631). -/
def degradeBit (code : Nat) : BitVec 8 := if code = 0x3021 then 16 else if code = 0x4033 then 32 else 0

/-- A fault at the module root: its record, and the actions that its code names.
Log 6 (DEDUCED), 116 (DEDUCED), 117 (DEDUCED). -/
def State.takeFault (s : State) (m : Notice) : State :=
  let s := s.record m
  let idx := s.newestRecord
  let s := match m.slot with
    | some n =>
      let s := s.modJob n (fun x => { x with hw := x.hw ++ (s.hwCells m).filter (fun c => !x.hw.contains c) })
      if (m.code = 0x3021 ∨ m.code = 0x40A4) ∧ s.jobState n = 3 ∧ s.regF (Reg.fltJob n) 63 48 = m.code then s.setCause n m.code idx
      else s
    | none => s
  let s := (s.watchUnits m).foldl (fun s u => s.watchFail u.1 u.2 m.code) s
  let s := { s with boot := { s.boot with degraded := s.boot.degraded ||| degradeBit m.code } }
  let s := s.fenceFor m
  (s.actSlots m).foldl (fun s n => s.jobAction n m.code idx) s

/-- FAULT_NOTICE. Log 6 (DEDUCED), 116 (DEDUCED). -/
def execFaultNotice (m : Notice) (s : State) : Host.Outcome State Fault Refusal :=
  .next ((s.deliver (.faultNotice m)).takeFault m)

end Sys2Proof.Machine
end

