-- ==== Sys2Proof/Machine/Jobs.lean ====
section
/-! DEFINITION. Jobs: start, origin, drain (R622, R623), barrier releases (R282, R605), rollbacks and replays (R440, R583), the
repair path (R584 to R588), and the commands that the loader's and the repair path's rounds share (R64). -/

namespace Sys2Proof.Machine

open Sys2Proof

/-! ## Start and drain (R126, R622, R623, R632) -/

/-- A job may start in the slot (R75, R523, R622, R628). Log 120 (DEDUCED). -/
def State.mayStart (s : State) (n : Nat) : Bool :=
  (s.slot n).state == .loaded && ([0, 4, 7] : List Nat).contains (s.jobState n) && !s.retired &&
    (s.boot.stage == 6 || s.boot.stage == 8) && (s.job n).armed.isNone &&
    ((s.sched n).members.isEmpty || s.beats.state == .locked || s.beats.state == .holdover)

/-- The origin tick of a start: BEAT_ORIGIN, or the next tick when the counter has reached it (R527). -/
def State.originTick (s : State) (n : Nat) : Nat :=
  let o := (s.reg (Reg.beatOrigin n)).toNat
  if o ≤ s.beat.toNat then s.beat.toNat + 1 else o

/-- A start accepted: the slot waits for its origin tick. -/
def State.armJob (s : State) (n index : Nat) : State :=
  let o := s.originTick n
  (s.modJob n (fun x => { x with index := index, armed := some o })).setSched n { s.sched n with state := .armed, origin := o }

/-- A drain asked for: rejected unless the job is RUNNING (R623). -/
def State.drainJob (s : State) (n : Nat) : State × Bool :=
  if s.jobState n = 1 then (s.setJobState n 2, true) else (s.reject (some n), false)

/-- A write of MOD_JOB_CTRL (R622, R623, R631). Log 120 (DEDUCED). -/
def State.writeJobCtrl (s : State) (value : Word) : State × Bool :=
  let n := bits 61 59 value
  let s := (s.setRegF Reg.modJobCtrl 61 59 n).setRegF Reg.modJobCtrl 11 0 (bits 11 0 value)
  let a := if !bit 63 value then (s, true)
    else if s.mayStart n then (s.armJob n (bits 11 0 value), true)
    else (s.reject (some n), false)
  if !bit 62 value then a
  else
    let b := a.1.drainJob n
    (b.1, a.2 && b.2)

/-- A foreman program at its start (R126). -/
def FmSt.begin (x : FmSt) : FmSt :=
  if x.configured then
    { x with sregs := Vector.replicate 32 0, pc := 0, done := 0, events := [], heldRelease := none, prog := .running, signals := [] }
  else x

/-- The cells' barrier and half-sync counts begun anew. Log 100 (DEDUCED). -/
def CellSt.countAnew (x : CellSt) : CellSt := { x with passed := x.entered, heldPass := 0, hsEpochs := x.hsEntered }

/-- The job runs from its start index with its schedule from `origin` (R126, R313, R527, R622). Log 118 (DEDUCED). -/
def State.beginJob (s : State) (n origin : Nat) : State :=
  let s := s.clearBarriers n
  let s := (s.slotCells n).foldl (fun s c => s.modCell c CellSt.countAnew) s
  let s := (s.slotFms n).foldl (fun s f => s.modFm f FmSt.begin) s
  let s := s.sendAll ((s.slotCells n).map (fun c => Instr.looperStart c (s.job n).index))
  let s := (s.startStream n).takeHold n
  let s := s.modJob n (fun x => { x with armed := none, replay := none })
  (s.setJobState n 1).startSched n origin

/-- JOB_ORIGIN: the origin tick of a start (R566, R622). -/
def execJobOrigin (n : Nat) (s : State) : Host.Outcome State Fault Refusal :=
  .next (
    let s := s.deliver (.jobOrigin n)
    match (s.job n).armed with
    | some o =>
      if s.beat.toNat < o then s
      else
        let s := (s.setReg (Reg.pwrEnergyJob n) 0).setCause n 0 0
        (s.setRegF (Reg.fltJob n) 31 24 0).beginJob n o
    | none => s)

/-- The job returns to IDLE as its drain completes (R623). -/
def State.endDrain (s : State) (n : Nat) : State := ((s.stopJob n).cutCommit n).setJobState n 0

/-- BARRIER_RELEASE at a clock half: the step record is written, and a drain ends where P = C holds (R282, R605, R623). -/
def execBarrierRelease (n half : Nat) (s : State) : Host.Outcome State Fault Refusal :=
  .next (
    let s := s.deliver (.barrierRelease n half)
    let first := (s.slot n).summary.isSome
    let s := (s.releaseHalf n half).stepRecord n
    if first && s.jobState n == 2 && s.stepP n == s.stepC n then s.endDrain n else s)

/-! ## Rollback and replay (R440, R448, R583) -/

/-- ROLLBACK: applied under R436 and passed to the tree's children; the job stops without fencing, and waits for its replay
origin or is STOPPED (R583, R602). Log 118 (DEDUCED). -/
def execRollback (n step : Nat) (replay : Bool) (origin : BitVec 32) (s : State) : Host.Outcome State Fault Refusal :=
  .next (
    let m := Instr.rollback n step replay origin
    let s := (s.deliver m).tellKids n m
    let runs := s.jobRuns n || s.jobState n == 5
    let s := (if runs then s.stopJob n else s).rollbackTo n
    if !runs then s
    else if replay then (s.modJob n (fun x => { x with replay := some origin.toNat })).setJobState n 5
    else (s.modJob n (fun x => { x with replay := none })).setJobState n 4)

/-- The whole tick of an origin given by its low 32 bits, taken from the counter that has just reached it. -/
def State.fullOrigin (s : State) (o : Nat) : Nat :=
  let now := s.beat.toNat
  now - (now - o) % 2 ^ 32

/-- REPLAY_ORIGIN: the job starts again at its start index; the origin becomes BEAT_ORIGIN and the replay count rises (R583). -/
def execReplayOrigin (n : Nat) (s : State) : Host.Outcome State Fault Refusal :=
  .next (
    let s := s.deliver (.replayOrigin n)
    match (s.job n).replay with
    | some o =>
      if s.jobState n ≠ 5 then s
      else
        let t := s.fullOrigin o
        let s := (s.setReg (Reg.beatOrigin n) (BitVec.ofNat 64 t)).satReg (Reg.fltJob n) 31 24 1
        s.beginJob n t
    | none => s)

/-- A slot rolled back by the host (R440, R448). Log 118 (DEDUCED). -/
def State.hostRollback (s : State) (n : Nat) : State :=
  let p := s.stepP n
  let s := if s.commitCut n then s.raise 0x4058 (some n) 0 0 else s
  (s.rollbackTo n).rollbackUp n p

/-- A write of RED_CTRL: the slots of rollback roll back, and the checkpoint bits are set; one that clears lets a confirmation
that waited go on (R441, R448). -/
def State.writeRedCtrl (s : State) (value : Word) : State :=
  let s := ((List.range 8).filter (fun n => bit (8 + n) value)).foldl State.hostRollback s
  let s := s.setRegF Reg.redCtrl 7 0 (bits 7 0 value)
  (List.range 8).foldl State.endCkpt s

/-! ## The repair path (R584 to R588) -/

def State.repair (s : State) (n : Nat) : Option RepairSt := (s.job n).repair
def State.setRepair (s : State) (n : Nat) (r : Option RepairSt) : State := s.modJob n (fun x => { x with repair := r })

/-- A step of the repair fails: the job is FAULTED with the step's code as the cause (R584). 0x3021 names the first region of
`rs`. -/
def State.failRepair (s : State) (n code : Nat) (rs : List Nat := []) : State :=
  (((s.setRepair n none).setCause n code 0).setJobState n 3).raise code (some n)
    (if code = 0x3021 then 0x1F00 + rs.headD 0 else 0) 0

/-- The repair has ended: REPAIRED (R584 step 6). -/
def State.endRepair (s : State) (n : Nat) : State :=
  ((s.modJob n (fun x => { x with repair := none, hw := [] })).setJobState n 7).satReg (Reg.fltJob n) 23 16 1

/-- The cells of a slot that are fenced, and those of them that a class HW record names. -/
def State.fencedCells (s : State) (n : Nat) : List Nat :=
  (s.cells.filter (fun e => e.2.looper == .snag && (s.slot n).rect.has (regionOf e.1))).map (fun e => e.1)

def State.fencedHw (s : State) (n : Nat) : List Nat := (s.fencedCells n).filter (fun c => (s.job n).hw.contains c)

/-- Every one of the cells has the spare of its block row free, and no two share a row (R584 step 2). -/
def State.sparesServe (s : State) (cs : List Nat) : Bool :=
  cs.all (fun c => s.spareFree c && cs.all (fun d => d == c || regionOf c != regionOf d || blockRowOf c != blockRowOf d))

/-- The regions of a slot whose die lost its power and that have not come back (R588). -/
def State.lostRegions (s : State) (n : Nat) : List Nat :=
  (s.slot n).rect.regions.filter (fun r => s.breaker r != 0 || (s.rgn r).held || (s.rgn r).dark)

/-- The staged image is the slot's (R57, R584 step 1). -/
def State.stagedSame (s : State) (n : Nat) : Bool :=
  decide (128 ≤ s.imgLength) && decide (s.imgLength ≤ fourGiB) &&
    s.imgDigest == (List.range 8).flatMap (fun w => toLE 8 (s.reg (Reg.imgMeasure n w)).toNat)

/-- The required blocks of a region. -/
def State.requiredFms (s : State) (n r : Nat) : List FmId := (regionFms r).filter (fun f => s.requiredCell n (blockCell f))

/-- Blocks whose targets are to take every chunk again but the NEAR runs (R584 step 4, R586, R588). Log 119 (DEDUCED). -/
def State.openBlocks (s : State) (n : Nat) (fs : List FmId) (step : Nat) : State :=
  let l := { LoadSt.opening s.imgChunks s.imgDirs with near := false }
  let s := (fs.flatMap blockTargets).foldl (fun s t => s.setLoad t l) s
  s.modJob n (fun x => { x with repair := x.repair.map (fun p =>
    { p with step := step, rounds := { RoundSt.reset with blocks := fs } }) })

/-- The lost regions come back: a tripped breaker is cleared where R588 lets the repair path do so; one that stays open ends the
repair with 0x3021. -/
def State.recoverLost (s : State) (n : Nat) : State :=
  let lost := s.lostRegions n
  if lost.isEmpty then s.endRepair n
  else
    let open_ := lost.filter (fun r => s.breaker r == 1 || s.breaker r == 3)
    let auto := bit 2 (s.reg Reg.fltPolicy)
    let out := open_.filter (fun r => !auto || decide (3 ≤ s.trips r))
    if !out.isEmpty then s.failRepair n 0x3021 out
    else
      let s := open_.foldl (fun s r => (s.clearBreaker r 1).1) s
      s.modJob n (fun x => { x with repair := x.repair.map (fun p => { p with step := 5, lost := lost }) })

/-- Once the region restarts are done: the blocks with a remapped row are reloaded (R584 step 4). -/
def State.afterRestarts (s : State) (n : Nat) : State :=
  match s.repair n with
  | some p => if p.blocks.isEmpty then s.recoverLost n else s.openBlocks n p.blocks 4
  | none => s

/-- STAGING_CHECK_DONE: steps 1 and 2, and the region restarts of step 3 set out (R584). -/
def execStagingCheckDone (n : Nat) (s : State) : Host.Outcome State Fault Refusal :=
  .next (match s.repair n with
    | none => s
    | some p =>
      if p.step ≠ 1 then s
      else if !s.stagedSame n then s.failRepair n 0x40A4
      else if !s.sparesServe (s.fencedHw n) then
        s.failRepair n 0x3021 (((s.fencedHw n).filter (fun c => !s.sparesServe [c])).map regionOf)
      else
        let rs := (s.slot n).rect.regions.filter (fun r => (s.fencedCells n).any (fun c => regionOf c == r) && (s.breaker r == 0))
        let s := s.setRepair n (some { p with step := 3, regions := rs })
        if rs.isEmpty then s.afterRestarts n else s.sendAll (rs.map (fun r => Instr.reset .region .drain r)))

/-- The rows of a region that its fault-recovery restart remaps: those of the fenced cells that step 2 chose, and of cells
marked bad, where the spare is free (R584, R594). -/
def State.remapsOf (s : State) (n r : Nat) : List Nat :=
  let marked := s.flt.bad.filterMap (fun b =>
    let c := b.2 % 2 ^ 18
    let p := b.2 / 2 ^ 18
    let bad := s.spareOf r (blockRowOf c)
    if b.1 ≠ 1 ∨ regionOf c ≠ r ∨ p = bad then none
    else
      let j := if p < bad then p else p - 1
      if 8 ≤ j then none else some (c - c % 8 + j))
  ((s.fencedHw n).filter (fun c => regionOf c == r) ++ marked).foldl (fun l c =>
    if s.spareFree c && !l.any (fun d => blockRowOf d == blockRowOf c) then l ++ [c] else l) []

/-- A fault-recovery restart of a region completes (R584 step 3): its remaps, and the next step when it was the last. -/
def State.regionRestarted (s : State) (n r : Nat) : State :=
  match s.repair n with
  | none => s
  | some p =>
    if p.step ≠ 3 ∨ !p.regions.contains r then s
    else
      let cs := s.remapsOf n r
      let s := cs.foldl State.remapRow s
      let blocks := (cs.map fmOf).foldl (fun l f => if l.contains f then l else l ++ [f]) p.blocks
      let left := p.regions.filter (fun q => q != r)
      let s := s.setRepair n (some { p with regions := left, blocks := blocks })
      if left.isEmpty then s.afterRestarts n else s

/-- A region cruise of a lost region has ended (R588): once all are back and fit the image's map, their required blocks are
reloaded. -/
def State.lostReturned (s : State) (n : Nat) : State :=
  match s.repair n with
  | none => s
  | some p =>
    if p.step ≠ 5 then s
    else if p.lost.any (fun r => s.regF (Reg.rgnCruise r) 2 0 == 3 || s.breaker r == 1 || s.breaker r == 3) then
      s.failRepair n 0x3021 (p.lost.filter (fun r => s.regF (Reg.rgnCruise r) 2 0 == 3 || s.breaker r == 1 || s.breaker r == 3))
    else if !(s.lostRegions n).isEmpty then s
    else
      let x := s.slot n
      let out := (x.rect.regions.zip x.required).filter (fun e =>
        p.lost.contains e.1 && e.2.toNat.land (2 ^ 32 - 1 - s.mapNow e.1) != 0)
      if out.isEmpty then s.openBlocks n (p.lost.flatMap (s.requiredFms n)) 6
      else s.failRepair n 0x3021 (out.map (fun e => e.1))

/-- The pages of a cell's error window, both areas, zero (R585, R588). -/
def CellSt.zeroErr (x : CellSt) : CellSt :=
  { x with under := x.under.zero (4096 * x.errFirst) (4096 * 2 * x.errPages), errCb := 0, errD := 0 }

/-- A reloaded target is configured; one that was configured stays as it is. Log 119 (DEDUCED). -/
def State.reconfigure (s : State) : Target → State
  | .cell c => s.modCell c (fun x =>
      if x.configured then { x with load := .reset } else if x.looper = .snag then x else x.configure.zeroErr)
  | .foreman f => s.modFm f FmSt.configure

/-- The rounds of a repair have ended: an incomplete target is 0x3021, else the blocks are configured and the path goes on. -/
def State.endRepairRounds (s : State) (n : Nat) (p : RepairSt) : State :=
  let ts := p.rounds.blocks.flatMap blockTargets
  if ts.any s.unsound then
    s.failRepair n 0x3021 ((p.rounds.blocks.filter (fun f => (blockTargets f).any s.unsound)).map (fun f => f.region))
  else
    let s := ts.foldl State.reconfigure s
    let s := s.setRepair n (some { p with rounds := .reset })
    if p.step = 4 then s.recoverLost n else s.endRepair n

/-- A repair reloads blocks. -/
def RepairSt.rounding (p : RepairSt) : Bool := p.step == 4 || p.step == 6

/-- One slot's part of LOAD_CHECK in its repair. -/
def State.repairCheck (s : State) (n : Nat) : State :=
  match s.repair n with
  | some p =>
    if !p.rounding then s
    else
      let miss := p.rounds.blocks.filter s.blockLacks
      if miss.isEmpty then s.endRepairRounds n p
      else (s.setRepair n (some { p with rounds := p.rounds.checked miss })).sendAll
        ((miss.filter (fun f => s.takes (.foreman f))).map s.missMsg)
  | none => s

/-- One slot's part of REPAIR_ROUND in its repair. Log 119 (DEDUCED). -/
def State.repairRound (s : State) (n : Nat) : State :=
  match s.repair n with
  | some p =>
    if !p.rounding || p.rounds.window || s.inFlight.contains .loadCheck then s
    else if 3 ≤ p.rounds.round then s.endRepairRounds n p
    else (s.setRepair n (some { p with rounds := { p.rounds with round := p.rounds.round + 1 } })).send .loadCheck
  | none => s

/-- One slot's part of the end of the report window. -/
def State.repairWindowEnd (s : State) (n : Nat) : State :=
  match s.repair n with
  | some p =>
    if p.rounding then s.setRepair n (some { p with rounds := { p.rounds with window := false, missing := [], reports := [] } }) else s
  | none => s

def allSlots : List Nat := List.range 8

/-- LOAD_CHECK (R64). -/
def execLoadCheck (s : State) : Host.Outcome State Fault Refusal :=
  .next (allSlots.foldl State.repairCheck (s.deliver .loadCheck).loadCheck)

/-- REPAIR_ROUND (R64). -/
def execRepairRound (s : State) : Host.Outcome State Fault Refusal := .next (allSlots.foldl State.repairRound s.loadRound)

/-- MISS_REPORT_WINDOW_END (R64). -/
def execMissReportWindowEnd (s : State) : Host.Outcome State Fault Refusal :=
  .next (allSlots.foldl State.repairWindowEnd s.loadWindowEnd)

/-- A write of FLT_JOB n: restart runs the repair path in FAULTED or STOPPED (R584, R602). -/
def State.writeJob (s : State) (n : Nat) (value : Word) : State × Bool :=
  if !bit 8 value then (s, true)
  else if s.jobState n = 3 ∨ s.jobState n = 4 then (s.startRepair n, true)
  else (s.reject (some n), false)

end Sys2Proof.Machine
end

