-- ==== Sys2Proof/Machine/Kat.lean ====
section
/-! DEFINITION. The known-answer tests (R589 to R592), the next-test date (R654) and the host's removal from the watch list
(R593). -/

namespace Sys2Proof.Machine

open Sys2Proof

/-- The test of a test code (R590). -/
def katOf : Nat → Option Kat
  | 0 => some .array
  | 1 => some .vector
  | 2 => some .convert
  | 3 => some .tables
  | 4 => some .router
  | 5 => some .cell
  | 8 => some .region
  | 9 => some .reducer
  | _ => none

def Kat.code : Kat → Nat
  | .array => 0
  | .vector => 1
  | .convert => 2
  | .tables => 3
  | .router => 4
  | .cell => 5
  | .region => 8
  | .reducer => 9

/-! ## Where a test may start (R589, R590) -/

/-- No step runs or waits on an engine. -/
def CellSt.enginesEmpty (x : CellSt) : Bool :=
  x.enginesIdle && x.array.pending.isNone && x.vector.pending.isNone && x.move.pending.isNone && x.exch.pending.isNone

/-- The looper is held at a barrier gate. -/
def State.atBarrier (s : State) (c : Nat) : Bool :=
  let x := s.cell c
  x.looper == .running && s.heldBy c (x.stepAt x.pc) == some 4

/-- A block that exists and is powered. -/
def State.blockLive (s : State) (f : FmId) : Bool :=
  fmOk f && bit f.block (s.rgn f.region).map && !(s.rgn f.region).dark && !(s.rgn f.region).held

/-- The cell may start a test: its engines are empty, and its looper does not issue or waits at a barrier gate (R589).
Log 121 (DEDUCED). -/
def State.katCellOk (s : State) (c : Nat) : Bool :=
  let x := s.cell c
  onGrid c && s.blockLive (fmOf c) && x.testing.isNone && x.resetting.isNone && x.enginesEmpty &&
    (x.looper != .running || s.atBarrier c)

/-- A region test may start: no RUNNING job holds the region (R590). -/
def State.katRegionOk (s : State) (r : Nat) : Bool :=
  decide (r < 72) && (s.rgn r).map != 0 && !(s.rgn r).dark && !s.flt.regions.contains r &&
    (match s.slotOfRegion r with
     | some n => s.jobState n != 1
     | none => true)

/-- The reducer test may start: no job is RUNNING (R590). -/
def State.katReducerOk (s : State) : Bool := !s.flt.reducer && (List.range 8).all (fun n => s.jobState n != 1)

def State.katOk (s : State) : KatUnit → Bool
  | .cell c => s.katCellOk c
  | .region r => s.katRegionOk r
  | .reducer => s.katReducerOk

/-- A test starts, where it may. -/
def State.katStart (s : State) (u : KatUnit) (t : Kat) : State :=
  if !s.katOk u then s
  else match u with
    | .cell c => s.modCell c (fun x => { x with testing := some t })
    | .region r => s.setFlt { s.flt with regions := s.flt.regions ++ [r] }
    | .reducer => s.setFlt { s.flt with reducer := true }

/-- A test of a cell waits for a permitted moment until tick `last`, or without limit (R591, R654). -/
def State.katWait (s : State) (c : Nat) (t : Kat) (last : Nat) : State :=
  if s.flt.waits.contains (c, t, last) then s else s.setFlt { s.flt with waits := s.flt.waits ++ [(c, t, last)] }

/-- The cell runs the test at once, or waits. -/
def State.katSoon (s : State) (c : Nat) (t : Kat) (last : Nat) : State :=
  if s.katCellOk c then s.katStart (.cell c) t else s.katWait c t last

/-- The limit of a test that waits as long as it takes. -/
def noLimit : Nat := 2 ^ 64

/-- The waiting tests whose time has passed are skipped, and those that may start do (R591). Log 121 (DEDUCED). -/
def State.katPoll (s : State) : State :=
  let now := s.beat.toNat
  let s := s.setFlt { s.flt with waits := s.flt.waits.filter (fun w => decide (now < w.2.2)) }
  s.flt.waits.foldl (fun s w =>
    if s.katCellOk w.1 then (s.katStart (.cell w.1) w.2.1).setFlt { s.flt with waits := s.flt.waits.erase w } else s) s

/-! ## Who is tested (R591, R592, R654) -/

/-- The cells of a block that exist. -/
def State.katBlock (s : State) (f : FmId) : List Nat := if s.blockLive f then blockCells f else []

/-- The cells of a region. -/
def State.katRegion (s : State) (r : Nat) : List Nat := (regionFms r).flatMap s.katBlock

/-- The cells that a watch-list entry asks to be tested, and the region. -/
def State.watchTests (s : State) (e : WatchEnt) : List (KatUnit × Kat) :=
  if e.kind = 1 then [(.cell e.unit, .cell)]
  else if e.kind = 2 then
    let f := fmOf (cellAt (e.unit / 60 * 8) (e.unit % 60 * 8))
    (s.katBlock f).map (fun c => (.cell c, .cell))
  else if e.kind = 3 then [(.region e.unit, .region)]
  else []

/-- EVENT_KAT: the configured cells of the named blocks run the test as soon as R589 allows within the occurrence's duration,
and the slot's watch-listed cells test 0x5 (R591). Log 121 (DEDUCED). -/
def execEventKat (i : Nat) (s : State) : Host.Outcome State Fault Refusal :=
  .next (s.onEvent (.eventKat i) i (fun s n e =>
    let a := BeatEntry.arg e
    let k := s.beats.next.get 0 i - 1
    let last := occurrence (s.sched n) e k + BeatEntry.duration e
    match katOf (natBits 23 20 a) with
    | none => s
    | some t =>
      let b := natBits 12 8 a
      let blocks := if natBits 7 7 a = 1 then [((if b = 0x1F then 0 else b) + k) % 30] else if b = 0x1F then List.range 30 else [b]
      let regions := if natBits 19 13 a = 0x7F then (s.slot n).rect.regions else [natBits 19 13 a]
      let cells := regions.flatMap (fun r => blocks.flatMap (fun b => s.configuredCells ⟨r, b⟩))
      let watched := (s.flt.watch.filter (fun w => w.kind == 1 && s.slotOfCell w.unit == some n)).map (fun w => w.unit)
      let s := cells.foldl (fun s c => s.katSoon c t last) s
      watched.foldl (fun s c => s.katSoon c .cell last) s))

/-- The units that FLT_KAT_RUN names (R592, R606). Log 121 (DEDUCED). -/
def State.katNamed (s : State) (t : Kat) (region block : Nat) : List KatUnit :=
  let rs := if region = 0x7F then (List.range 72).filter (fun r => (s.rgn r).map != 0) else [region]
  match t with
  | .reducer => [.reducer]
  | .region => rs.map .region
  | _ =>
    let bs := if block = 0x1F then List.range 30 else [block]
    (rs.flatMap (fun r => bs.flatMap (fun b => s.katBlock ⟨r, b⟩))).map .cell

/-- A write of FLT_KAT_RUN (R592, R606). Log 122 (DEDUCED). -/
def State.writeKatRun (s : State) (value : Word) : State × Bool :=
  let s := s.setRegF Reg.fltKatRun 59 44 (bits 59 44 value)
  if !bit 63 value then (s, true)
  else match katOf (bits 59 56 value) with
    | none => (s.reject, false)
    | some t =>
      let us := s.katNamed t (bits 55 49 value) (bits 48 44 value)
      if us.isEmpty || !s.flt.host.isEmpty || !us.all s.katOk then (s.reject, false)
      else
        let s := us.foldl (fun s u => s.katStart u t) s
        ((s.setFlt { s.flt with host := us.map (fun u => (u, t)), failed := false }).setRegF Reg.fltKatStatus 1 0 1, true)

/-- No LOADED slot holds the region. -/
def State.idleRegion (s : State) (r : Nat) : Bool :=
  match s.slotOfRegion r with
  | some n => (s.slot n).state != .loaded
  | none => true

/-- KAT_IDLE_TIMER: the idle regions are tested, and the reducer when no slot is LOADED (R592). -/
def execKatIdleTimer (s : State) : Host.Outcome State Fault Refusal :=
  .next (
    if !bit 3 (s.reg Reg.fltPolicy) then s
    else
      let s := ((List.range 72).filter s.idleRegion).foldl (fun s r =>
        ((s.katRegion r).foldl (fun s c => s.katStart (.cell c) .cell) s).katStart (.region r) .region) s
      if (List.range 8).all (fun n => (s.slot n).state != .loaded) then s.katStart .reducer .reducer else s)

/-- KAT_WATCH_TIMER: each watch-listed unit is tested where R589 and R590 allow (R592). -/
def execKatWatchTimer (s : State) : Host.Outcome State Fault Refusal :=
  .next (
    if !bit 3 (s.reg Reg.fltPolicy) then s
    else s.flt.watch.foldl (fun s e => (s.watchTests e).foldl (fun s u => s.katStart u.1 u.2) s) s)

/-- NEXT_TEST_DUE: once the licence clock has reached the date, every cell runs test 0x5 as soon as it may and every region
test 0x8, and the date moves forward by the interval (R654, R658). Log 123 (DEDUCED). -/
def execNextTestDue (s : State) : Host.Outcome State Fault Refusal :=
  .next (
    let date := s.regF Reg.logNextTest 47 0
    let days := s.regF Reg.logNextTest 63 48
    if date = 0 ∨ s.licenceClock < date then s
    else
      let s := (List.range 72).foldl (fun s r =>
        ((s.katRegion r).foldl (fun s c => s.katSoon c .cell noLimit) s).katStart (.region r) .region) s
      let d := date + days * 86400
      (s.setRegF Reg.logNextTest 47 0 d).journal 0x0B [])

/-! ## The end of a test (R589, R593) -/

/-- A test is running on the unit. -/
def State.katRuns (s : State) (t : Kat) : KatUnit → Bool
  | .cell c => (s.cell c).testing == some t
  | .region r => t == .region && s.flt.regions.contains r
  | .reducer => t == .reducer && s.flt.reducer

/-- The unit tests no more; a release held during the test is passed (R589). -/
def State.katEnd (s : State) : KatUnit → State
  | .cell c => s.modCell c (fun x => { x with testing := none, passed := x.passed + x.heldPass, heldPass := 0 })
  | .region r => s.setFlt { s.flt with regions := s.flt.regions.erase r }
  | .reducer => s.setFlt { s.flt with reducer := false }

/-- No cell of the block tests or waits for a test. -/
def State.blockTested (s : State) (f : FmId) : Bool :=
  (blockCells f).all (fun c => (s.cell c).testing.isNone && !s.flt.waits.any (fun w => w.1 == c))

/-- A passed test counts for the listed unit it covers: the cell, the block with its last cell under test, or the region.
Log 122 (DEDUCED). -/
def State.katPass (s : State) : KatUnit → State
  | .cell c =>
    let s := s.watchPass 1 c
    if s.blockTested (fmOf c) then s.watchPass 2 (globalBlock (fmOf c)) else s
  | .region r => s.watchPass 3 r
  | .reducer => s

/-- The fault of a failed test (R590). Log 122 (DEDUCED). -/
def State.katFail (s : State) (t : Kat) : KatUnit → State
  | .cell c => s.raiseCell 0x2004 c (Kat.code t)
  | .region r => s.raiseRgn 0x3020 r (Kat.code t)
  | .reducer => s.raise 0x3020 none (0x7F + 0x1F * 256) (Kat.code t)

/-- The awaited host test is told; the last one ends it (R606). -/
def State.katHost (s : State) (u : KatUnit) (t : Kat) (pass : Bool) : State :=
  if !s.flt.host.contains (u, t) then s
  else
    let left := s.flt.host.erase (u, t)
    let failed := s.flt.failed || !pass
    let s := s.setFlt { s.flt with host := left, failed := failed }
    if left.isEmpty then s.setRegF Reg.fltKatStatus 1 0 (if failed then 3 else 2) else s

/-- TEST_COMPLETE. -/
def execTestComplete (u : KatUnit) (t : Kat) (pass : Bool) (s : State) : Host.Outcome State Fault Refusal :=
  .next (
    if !s.katRuns t u then s
    else
      let s := (s.katEnd u).setRegF Reg.fltKatStatus 15 12 (Kat.code t)
      let s := if pass then (s.satReg Reg.fltKatStatus 63 32 1).katPass u else (s.satReg Reg.fltKatStatus 31 16 1).katFail t u
      s.katHost u t pass)

/-- A write of FLT_WATCH_SEL (R593, R606). Log 123 (DEDUCED). -/
def State.writeWatchSel (s : State) (value : Word) : State × Bool :=
  let s := s.setRegF Reg.fltWatchSel 7 0 (bits 7 0 value)
  if !bit 63 value then (s, true)
  else if s.flt.watch.length ≤ bits 7 0 value then (s.reject, false)
  else (s.watchDrop (bits 7 0 value), true)

end Sys2Proof.Machine
end

