-- ==== Sys2Proof/Machine/Resets.lean ====
section
/-! DEFINITION. Partial resets (R122, R616 to R620) and what they mean for the skidder, the beat unit, the reducer, a job and a
load (R70, R331, R440, R529). -/

namespace Sys2Proof.Machine

open Sys2Proof

/-! ## Scopes (R616) -/

/-- The foreman of a global block number. -/
def fmOfGlobal (g : Nat) : FmId := fmOf (cellAt (g / 60 * 8) (g % 60 * 8))

/-- The cell lies in the scope. -/
def State.inScope (s : State) (k : Scope) (t c : Nat) : Bool :=
  match k with
  | .cell => c == t
  | .block => fmOf c == fmOfGlobal t
  | .region => regionOf c == t
  | .partition => s.occupied t && (s.slot t).rect.has (regionOf c)

/-- The scope covers the block's foreman. -/
def State.scopeFm (s : State) (k : Scope) (t : Nat) (f : FmId) : Bool := k != .cell && s.inScope k t (blockCell f)

/-- The scope covers the region's controller. -/
def State.scopeRgn (s : State) (k : Scope) (t r : Nat) : Bool := (k == .region || k == .partition) && s.inScope k t (regionCell r)

/-- The regions that the scope touches. -/
def State.scopeRegions (s : State) (k : Scope) (t : Nat) : List Nat :=
  match k with
  | .cell => [regionOf t]
  | .block => [(fmOfGlobal t).region]
  | .region => [t]
  | .partition => if s.occupied t then (s.slot t).rect.regions else []

/-- The target names something. -/
def State.scopeOk (s : State) : Scope → Nat → Bool
  | .cell, t => onGrid t
  | .block, t => decide (t < 2160)
  | .region, t => decide (t < 72)
  | .partition, t => decide (t < 8) && s.occupied t

/-! ## The boundary (R617 to R619) -/

/-- The cell and the foreman to which a trail message is addressed. -/
def trailCell : Instr → Option Nat
  | .fence c => some c
  | .looperStart c _ => some c
  | .looperStop c _ => some c
  | .scalarWrite c _ _ => some c
  | .grant c _ => some c
  | .tallyRead c _ => some c
  | .tallyClear c => some c
  | _ => none

def trailFm : Instr → Option FmId
  | .complete c => some (fmOf c)
  | .countReturn f _ _ => some f
  | .barrierEnter (.cell c) _ _ => some (fmOf c)
  | .barrierProbe (.foreman f) _ => some f
  | .numericsNotice c _ => some (fmOf c)
  | .absorbed c _ _ => some (fmOf c)
  | _ => none

def trailRgn : Instr → Option Nat
  | .barrierEnter (.block f) _ _ => some f.region
  | .barrierProbe (.region r) _ => some r
  | _ => none

/-- A trail message into the scope. Log 124 (DEDUCED). -/
def State.intoScope (s : State) (k : Scope) (t : Nat) (m : Instr) : Bool :=
  (match trailCell m with
   | some c => s.inScope k t c
   | none => false) ||
  (match trailFm m with
   | some f => s.scopeFm k t f
   | none => false) ||
  (match trailRgn m with
   | some r => s.scopeRgn k t r
   | none => false)

/-- The flit is addressed into the scope. -/
def State.flitInto (s : State) (k : Scope) (t : Nat) (f : Flit) : Bool := !sbSky f.sideband && s.inScope k t (sbDest f.sideband)

/-- The flits on their way through the fabric, with the router and input where they lie. Log 124 (DEDUCED). -/
def State.fabricFlits (s : State) : List (Nat × Port × Flit) :=
  s.inFlight.filterMap (fun m => match m with
    | .flitArrive c p f _ => some (c, p, f)
    | _ => none) ++
  s.routers.flatMap (fun (e : Nat × RouterSt) => (e.2.wait ++ e.2.slips).map (fun w => (e.1, w.1, w.2)))

/-- The keys of the flits in the fabric that are addressed into the scope. -/
def State.flitsInto (s : State) (k : Scope) (t : Nat) : List Nat :=
  ((s.fabricFlits.filter (fun e => s.flitInto k t e.2.2)).map (fun e => sbKey e.2.2.sideband)).eraseDups

/-- The boundary of a reset is quiet: at once in ABSORB, else when none of the awaited flits remains and no SEND entry in scope
is being sent (R618, R619). Log 124 (DEDUCED). -/
def State.quiet (s : State) (r : ResetRun) : Bool :=
  r.mode == .absorb ||
  ((s.flitsInto r.scope r.target).all (fun q => !r.awaits.contains q) &&
   s.cells.all (fun e => !s.inScope r.scope r.target e.1 || e.2.xrun.isNone || (match e.2.xrun with
     | some x => x.todo.isEmpty || x.flit == 0
     | none => true)))

/-! ## What a reset leaves (R122, R260, R263, R290, R294, R616) -/

/-- The looper after a reset: a snag outlasts a cell and a block reset (R122, R290). Log 100 (DEDUCED). -/
def LoopSt.afterReset (clearSnag : Bool) : LoopSt → LoopSt
  | .unconfigured => .unconfigured
  | .snag => if clearSnag then .idle else .snag
  | _ => .idle

/-- The exchange that a DRAIN reset lets go on: the rest of the SEND entry being sent (R618). Log 124 (DEDUCED). -/
def XRun.rest (r : XRun) : Option XRun :=
  if r.started ∧ r.flit ≠ 0 then some { r with todo := r.todo.take 1, recvs := [] } else none

/-- A cell that a reset takes, on occasion `k` (16 more for the latch); its arrival counters return to zero (R276).
Log 18 (DESIGN CHOICE). -/
def CellSt.take (x : CellSt) (mode : ResetMode) (clearSnag : Bool) (k : Nat) : CellSt :=
  { x.dropWork k with
    latch := freeLatch (k + 1), looper := x.looper.afterReset clearSnag,
    xrun := if mode = .drain then x.xrun.bind XRun.rest else none, resetting := some mode, testing := none, heldPass := 0,
    arrivals := [] }

/-- A foreman after a block reset: program memory, curves and configuration are kept (R616). -/
def FmSt.blockReset (x : FmSt) : FmSt :=
  { FmSt.reset with
    fprog := x.fprog, fcurve := x.fcurve, fprogEcc := x.fprogEcc, fcurveEcc := x.fcurveEcc, configured := x.configured,
    load := x.load }

/-- The foremen and controllers in scope as the reset leaves them. -/
def State.resetHubs (s : State) (k : Scope) (t : Nat) : State :=
  let s := { s with
    fms := s.fms.map (fun (e : Nat × FmSt) => (e.1, if s.scopeFm k t (fmOfKey e.1) then e.2.blockReset else e.2))
    rgns := s.rgns.map (fun (e : Nat × RgnSt) => (e.1, if s.scopeRgn k t e.1 then
      { e.2 with word := 0, hub := .reset, dead := [], detourNone := false, gated := [], run := 0, asking := false } else e.2)) }
  s.clearRegs (fun a => match fmRange a with
    | some f => a == Reg.fmnFetchStatus f && s.scopeFm k t f
    | none => false)

/-- COMPILED flits that the local ports in scope have not sent yet are dropped in ABSORB (R619), and so are the trail messages
into the scope (R617). -/
def State.cutBoundary (s : State) (k : Scope) (t : Nat) (mode : ResetMode) : State :=
  { s with inFlight := s.inFlight.filter (fun m => !s.intoScope k t m && (match m with
      | .flitArrive c .loc f _ => !(mode == .absorb && s.inScope k t c && sbClass f.sideband == some .compiled)
      | _ => true)) }

/-- The job of a slot under a partition reset (R331, R440, R529, R620). -/
def State.resetPartition (s : State) (n : Nat) : State :=
  let active := s.jobRuns n || s.jobState n == 5
  let cut := s.commitCut n
  let s := if active then s.hostRollback n else s
  let s := ((s.clearStream n).stopSched n).dropHold n
  let s := s.modJob n (fun x => { x with armed := none, replay := none })
  if active then (s.setCause n (if cut then 0x4058 else 0) 0).setJobState n 4 else s

/-- The slots whose stream program a reset clears (R331). -/
def State.resetSlots (s : State) (k : Scope) (t : Nat) : State :=
  match k with
  | .partition => s.resetPartition t
  | .region =>
    match s.slotOfRegion t with
    | some n => s.clearStream n
    | none => s
  | _ => s

/-- The cells in scope taken by the reset. -/
def State.takeCells (s : State) (k : Scope) (t : Nat) (mode : ResetMode) : State :=
  let f := s.freeCtr
  let hard := k == .region || k == .partition
  { s with
    freeCtr := f + 17 * s.cells.length
    cells := s.cells.zipIdx.map (fun (e : (Nat × CellSt) × Nat) =>
      (e.1.1, if s.inScope k t e.1.1 then e.1.2.take mode hard (f + 17 * e.2) else e.1.2))
    flt := { s.flt with waits := s.flt.waits.filter (fun w => !s.inScope k t w.1) } }

/-- The scope overlaps the rectangle of the image that is being loaded. -/
def State.overlapsLoad (s : State) (k : Scope) (t : Nat) : Bool := (s.scopeRegions k t).any s.imgRect.has

/-- A partial reset takes effect (R616). Log 100 (DEDUCED), 124 (DEDUCED). -/
def State.startReset (s : State) (k : Scope) (mode : ResetMode) (t : Nat) (host : Bool) : State :=
  let repair := if k = .region then (List.range 8).find? (fun n => match s.repair n with
      | some p => p.step == 3 && p.regions.contains t
      | none => false) else none
  let run : ResetRun := ⟨k, mode, t, repair, host, if mode = .drain then s.flitsInto k t else []⟩
  let cuts := s.loadActive && s.ldr.claimed && s.overlapsLoad k t
  let s := (s.cutBoundary k t mode).resetSlots k t
  let s := (s.takeCells k t mode).resetHubs k t
  let s := { s with resets := s.resets ++ [run] }
  if cuts then s.restartLoad else s

/-- The reset that MOD_RESET ordered. -/
def scopeOf : Nat → Scope
  | 0 => .cell
  | 1 => .block
  | 2 => .region
  | _ => .partition

/-- Log 125 (DEDUCED). -/
def State.orderedReset (s : State) : Scope × ResetMode × Nat :=
  let w := s.reg Reg.modReset
  let k := scopeOf (bits 61 59 w)
  (k, if bit 62 w then .absorb else .drain, if k = .partition then bits 58 56 w else bits 17 0 w)

/-- RESET (R616). -/
def execReset (k : Scope) (mode : ResetMode) (t : Nat) (s : State) : Host.Outcome State Fault Refusal :=
  .next (
    let s := s.deliver (.reset k mode t)
    let host := s.regF Reg.modResetStatus 1 0 == 1 && s.orderedReset == (k, mode, t) && !s.resets.any (fun r => r.host)
    if !s.scopeOk k t then (if host then s.setRegF Reg.modResetStatus 1 0 2 else s)
    else if s.resets.any (fun r => r.scope == k && r.target == t) then
      { s with resets := s.resets.map (fun r => if r.scope = k ∧ r.target = t then { r with host := r.host || host } else r) }
    else s.startReset k mode t host)

/-! ## Completion (R618) -/

/-- The mode of a reset that still runs over the cell. Log 126 (DEDUCED). -/
def State.resetOver (s : State) (c : Nat) : Option ResetMode :=
  (s.resets.find? (fun r => s.inScope r.scope r.target c)).map (fun r => r.mode)

/-- A reset completes: its scope is left as R616 says, a load that it cut starts again, and a repair goes on. -/
def State.endReset (s : State) (r : ResetRun) : State :=
  let s := { s with resets := s.resets.erase r }
  let s := s.resetHubs r.scope r.target
  let s := { s with cells := s.cells.map (fun (e : Nat × CellSt) =>
    (e.1, if s.inScope r.scope r.target e.1 then { e.2 with resetting := s.resetOver e.1, xrun := none } else e.2)) }
  let s := if s.ldr.waits && !s.resets.any (fun q => s.overlapsLoad q.scope q.target) then s.setLdr { s.ldr with waits := false } else s
  let s := if r.host then s.setRegF Reg.modResetStatus 1 0 2 else s
  match r.repair with
  | some n => s.regionRestarted n r.target
  | none => s

/-- RESET_QUIET: every reset whose boundary is quiet completes (R618, R619). -/
def execResetQuiet (s : State) : Host.Outcome State Fault Refusal :=
  .next ((s.resets.filter s.quiet).foldl State.endReset s)

/-- A flit that the drain limit leaves in the fabric: absorbed where it lies, its credit returned, and counted (R618).
Log 125 (DEDUCED). -/
def State.absorbLate (s : State) (e : Nat × Port × Flit) : State :=
  let f := e.2.2
  let s := s.deliver (.flitArrive e.1 e.2.1 f false)
  let s := if (s.routers.find e.1).isSome then
      s.modRouter e.1 (fun x => { x with wait := x.wait.erase (e.2.1, f), slips := x.slips.erase (e.2.1, f) })
    else s
  let s := match sbClass f.sideband with
    | some k => s.returnCredit e.1 e.2.1 k
    | none => s
  let d := sbDest f.sideband
  if sbLast f.sideband then s.absorb d f else s.satReg (Reg.rgnAbsorbLog (regionOf d)) 63 48 1

/-- DRAIN_LIMIT_EXPIRY: what a DRAIN reset still waits for is handled as ABSORB (R618). Log 125 (DEDUCED). -/
def execDrainLimitExpiry (s : State) : Host.Outcome State Fault Refusal :=
  .next ((s.resets.filter (fun r => r.mode == .drain && !s.quiet r)).foldl (fun s r =>
    let late := s.fabricFlits.filter (fun e => s.flitInto r.scope r.target e.2.2 && r.awaits.contains (sbKey e.2.2.sideband))
    let s := { s with
      resets := s.resets.map (fun q => if q = r then { r with mode := .absorb, awaits := [] } else q)
      cells := s.cells.map (fun (e : Nat × CellSt) =>
        (e.1, if s.inScope r.scope r.target e.1 then { e.2 with resetting := some .absorb, xrun := none } else e.2)) }
    late.foldl State.absorbLate s) s)

/-! ## The host (R616, R620, R631) -/

/-- A slot with a job that is RUNNING, DRAINING or REPLAYING holds a region of the scope. Log 126 (DEDUCED). -/
def State.jobInScope (s : State) (k : Scope) (t : Nat) : Bool :=
  (s.scopeRegions k t).any (fun r => match s.slotOfRegion r with
    | some n => ([1, 2, 5] : List Nat).contains (s.jobState n)
    | none => false)

/-- A write of MOD_RESET. Log 126 (DEDUCED). -/
def State.writeModReset (s : State) (value : Word) : State × Bool :=
  let s := (s.setRegF Reg.modReset 62 56 (bits 62 56 value)).setRegF Reg.modReset 17 0 (bits 17 0 value)
  if !bit 63 value then (s, true)
  else
    let o := s.orderedReset
    if s.regF Reg.modResetStatus 1 0 = 1 then (s.reject, false)
    else if 4 ≤ bits 61 59 value || !s.scopeOk o.1 o.2.2 || (o.1 != .partition && s.jobInScope o.1 o.2.2) then
      (s.setRegF Reg.modResetStatus 1 0 3 |>.reject, false)
    else
      (((s.setRegF Reg.modResetStatus 7 4 (bits 61 59 value)).setRegF Reg.modResetStatus 1 0 1).send (.reset o.1 o.2.1 o.2.2), true)

end Sys2Proof.Machine
end

