-- ==== Sys2Proof/Machine/Admission.lean ====
section
/-! DEFINITION. Training of skyline ports (R469), admission to a stand (R464 to R468) and leaving it (R470, R471). -/

namespace Sys2Proof.Machine

open Sys2Proof

/-! ## SKY_ADMIT (R473) -/

def State.admitState (s : State) : Nat := s.regF Reg.skyAdmit 1 0
def State.setAdmitState (s : State) (k : Nat) : State := s.setRegF Reg.skyAdmit 1 0 k
def State.setAdmitResult (s : State) (k : Nat) : State := s.setRegF Reg.skyAdmit 7 4 k
def State.admitTarget (s : State) : BitVec 32 := BitVec.ofNat 32 (s.regF Reg.skyAdmit 63 32)

/-- The coordinates that SKY_COORD offers, and the module number they give (R467). -/
def State.offered (s : State) : Nat × Nat × Nat :=
  (s.regF Reg.skyCoord 20 16, s.regF Reg.skyCoord 11 8, s.regF Reg.skyCoord 3 0)

def moduleNumber (c : Nat × Nat × Nat) : Nat := c.1 + 32 * c.2.1 + 512 * c.2.2

/-- The ring size of a direction's axis. -/
def State.axisSize (s : State) (d : Nat) : Nat :=
  match d / 2 with
  | 0 => s.shape.1
  | 1 => s.shape.2.1
  | _ => s.shape.2.2

/-- The coordinates behind a port (R464). -/
def State.behind (s : State) (p : Nat) : Nat × Nat × Nat :=
  let d := dirOfPort p
  let n := s.axisSize d
  let move := fun (a : Nat) => if d % 2 = 1 then (a + 1) % n else (a + n - 1) % n
  let c := s.offered
  match d / 2 with
  | 0 => (move c.1, c.2.1, c.2.2)
  | 1 => (c.1, move c.2.1, c.2.2)
  | _ => (c.1, c.2.1, move c.2.2)

/-- The port's axis is used by the stand. Log 40 (DEDUCED). -/
def State.axisUsed (s : State) (p : Nat) : Bool := decide (1 < s.axisSize (dirOfPort p))

/-- The request of R466. -/
def State.admitRequest (s : State) : AdmitReq :=
  let n := s.shape
  let c := s.offered
  ⟨BitVec.ofNat 32 (s.regF Reg.skyStand 63 32), n.1, n.2.1, n.2.2, c.1, c.2.1, c.2.2, Config.serial⟩

/-- ADMIT_REQ sent on a port. -/
def State.sendAdmit (s : State) (p : Nat) : State := s.sendCtrl p (.admitReq (partnerPort p) s.admitRequest s.admitTarget)

/-! ## Training (R469, R474) -/

/-- A DARK or DOWN port trains with a live partner: the lanes that fail are mapped out, and with 8 or more it is UP. After
admission it asks to join (R461, R466, R469). Log 40 (DEDUCED). -/
def State.trainPort (s : State) (p : Nat) (failing : List Nat) (serial : Word) : State :=
  let x := s.sky p
  if 15 < p ∨ (x.state ≠ .dark ∧ x.state ≠ .down) ∨ bit 1 (s.reg (Reg.skyPortCtrl p)) ∨ (s.admitted ∧ ¬ s.axisUsed p) then s
  else
    let s := s.mapLanes p failing
    let y := (s.sky p).comeUp
    if y.active < 8 then s.modSky p (fun x => { x with state := .down })
    else
      let s := (s.setSky p y).setReg (Reg.skyPeer p) serial
      if s.admitted then s.sendAdmit p else s

/-- The module's ports may train: from stage 4 on, and not in Chrysalis (R469, R608). -/
def State.skyLit (s : State) : Bool := s.boot.stage == 4 || s.boot.stage == 5 || s.boot.stage == 6 || s.boot.stage == 8

/-- TRAINING_ATTEMPT (R469). Log 127 (DEDUCED). -/
def execTrainingAttempt (p : Nat) (partner : Option Word) (s : State) : Host.Outcome State Fault Refusal :=
  .next (match partner with
    | some serial => if s.skyLit then s.trainPort p [] serial else s
    | none => s)

/-! ## Admission (R465, R466) -/

/-- The modules that a stand tier covers (R465). -/
def tierLimit : Nat → Nat
  | 0 => 1
  | 1 => 64
  | 2 => 1024
  | _ => 8192

/-- Why a write of go is refused: 1 LICENCE, 2 NO_BEAT, 3 RANGE, 4 STATE (R466, R473). -/
def State.admitRefusal (s : State) : Option Nat :=
  let n := s.shape
  let c := s.offered
  if tierLimit s.standTier < n.1 * n.2.1 * n.2.2 then some 1
  else if s.beats.state ≠ .locked ∧ s.beats.state ≠ .holdover then some 2
  else if n.1 ≤ c.1 ∨ n.2.1 ≤ c.2.1 ∨ n.2.2 ≤ c.2.2 then some 3
  else if s.admitted then some 4
  else none

/-- The module's admission has failed: its ports return to UP, and 0x4064 is raised (R466). -/
def State.refuseAdmission (s : State) (result port : Nat) : State :=
  let back := (List.range 16).filter (fun p => (s.sky p).state == .admitted)
  let s := back.foldl (fun s p => (s.modSky p (fun x => { x with state := .up })).clearPeer p) s
  let s := { s with admission := { s.admission with asked := [] } }
  ((s.setAdmitState 3).setAdmitResult result).raise 0x4064 none port 0

/-- The module is ADMITTED once every port asked has been acknowledged (R466). -/
def State.settleAdmission (s : State) : State :=
  if s.admitState = 1 ∧ s.admission.asked = [] then ((s.setAdmitState 2).setAdmitResult 0).releaseTiles else s

/-- LEAVE goes on every ADMITTED port (R470). Log 127 (DEDUCED). -/
def State.startLeave (s : State) : State :=
  if !s.admitted || s.admission.leaving then s
  else
    let ps := (List.range 16).filter (fun p => (s.sky p).state == .admitted)
    let s := ps.foldl (fun s p => (s.sendCtrl p (.leave (partnerPort p))).modSky p (fun x =>
      { x with state := .up, leaving := true })) s
    { s with admission := { s.admission with leaving := true } }

/-- A tick of leaving: ports whose replay buffer is empty are QUIESCED, then DARK, and with the last one the module's admission
is NONE (R470). Log 127 (DEDUCED). -/
def State.leaveTick (s : State) : State :=
  if !s.admission.leaving then s
  else
    let s := (List.range 16).foldl (fun s p =>
      let x := s.sky p
      if !x.leaving then s
      else if x.state = .quiesced then (s.setSky p (x.goDown .dark)).clearPeer p
      else if x.replay.isEmpty then s.setSky p { x with state := .quiesced }
      else s) s
    if (List.range 16).any (fun p => (s.sky p).leaving) then s
    else { (s.setAdmitState 0) with admission := { s.admission with leaving := false } }

/-- A write of SKY_ADMIT (R466, R470, R473). Log 127 (DEDUCED). -/
def State.writeSkyAdmit (s : State) (value : Word) : State × Bool :=
  let s := s.setRegF Reg.skyAdmit 63 32 (bits 63 32 value)
  let s := if bit 30 value then s.startLeave else s
  if !bit 31 value then (s, true)
  else match s.admitRefusal with
    | some k => (s.setAdmitResult k, true)
    | none => ({ (((s.setRegF Reg.skyAdmit 23 8 0).setAdmitResult 0).setAdmitState 1) with admission := .reset }, true)

/-- ADMIT_REQ_SEND: at the target tick the request goes on every UP port of a used axis (R466). -/
def execAdmitReqSend (s : State) : Host.Outcome State Fault Refusal :=
  .next (
    if !s.inFlight.contains .admitReqSend then s
    else
      let s := s.deliver .admitReqSend
      if s.admitState ≠ 1 then s
      else
        -- a port that a partner's request has made ADMITTED before is asked as well
        let ps := (List.range 16).filter (fun p => ((s.sky p).state == .up || (s.sky p).state == .admitted) && s.axisUsed p)
        let s := { s with admission := { s.admission with asked := ps } }
        (ps.foldl State.sendAdmit s).settleAdmission)

/-- The answer to a request on a port: none to acknowledge it, else the reason of the NAK (R466, R473). -/
def State.admitAnswer (s : State) (p : Nat) (r : AdmitReq) (target : BitVec 32) : Option Nat :=
  let own := s.admitRequest
  if !(s.admitted && !s.admission.leaving) && !(s.admitState == 1 && s.admitTarget == target) then some 4
  else if r.standId ≠ own.standId then some 1
  else if (r.sx, r.sy, r.sz) ≠ (own.sx, own.sy, own.sz) then some 2
  else if !s.axisUsed p || (r.x, r.y, r.z) != s.behind p then some 3
  else none

/-- ADMIT_REQ (R466, R471). -/
def execAdmitReq (p : Nat) (r : AdmitReq) (target : BitVec 32) (s : State) : Host.Outcome State Fault Refusal :=
  .next (
    let x := s.sky p
    if x.state ≠ .up ∧ x.state ≠ .admitted then s
    else match s.admitAnswer p r target with
      | some reason => s.sendCtrl p (.admitNak (partnerPort p) reason)
      | none =>
        let s := s.sendCtrl p (.admitAck (partnerPort p) (moduleNumber s.offered))
        ((s.modSky p (fun x => { x with state := .admitted })).setRegF (Reg.skyPortStatus p) 47 32
          (moduleNumber (r.x, r.y, r.z))).releaseTiles.drainPort p)

/-- ADMIT_ACK: the port is ADMITTED (R466). -/
def execAdmitAck (p peer : Nat) (s : State) : Host.Outcome State Fault Refusal :=
  .next (
    let x := s.sky p
    if (x.state ≠ .up ∧ x.state ≠ .admitted) ∨ s.admission.leaving ∨ ¬ (s.admitState = 2 ∨ s.admission.asked.contains p) then s
    else
      let s := (s.setSky p { x with state := .admitted }).setRegF (Reg.skyPortStatus p) 47 32 peer
      let s := { s with admission := { s.admission with asked := s.admission.asked.erase p } }
      (s.settleAdmission.releaseTiles).drainPort p)

/-- ADMIT_NAK: the module is REFUSED (R466). Log 127 (DEDUCED). -/
def execAdmitNak (p reason : Nat) (s : State) : Host.Outcome State Fault Refusal :=
  .next (
    let s := (s.setRegF Reg.skyAdmit 23 16 reason).setRegF Reg.skyAdmit 15 8 p
    if s.admitState = 1 then s.refuseAdmission 5 p else s)

/-- ADMISSION_TIMEOUT: 64 ticks after the target an answer is missing (R466). -/
def execAdmissionTimeout (s : State) : Host.Outcome State Fault Refusal :=
  .next (match s.admission.asked with
    | p :: _ => if s.admitState = 1 then s.refuseAdmission 6 p else s
    | [] => s)

/-- LEAVE from the partner: the port returns to UP and its tiles take another port (R470, R471). -/
def execLeave (p : Nat) (s : State) : Host.Outcome State Fault Refusal :=
  .next (
    let x := s.sky p
    if x.state ≠ .admitted then s
    else
      let s := (s.setSky p { x with state := .up, tiles := [], tileBusy := false }).clearPeer p
      x.tiles.foldl (fun s t => s.sendTile (dirOfPort p) 0 t) s)

end Sys2Proof.Machine
end

