-- ==== Sys2Proof/Machine/Ranger.lean ====
section
/-! DEFINITION. The ranger: the firmware store (R636 to R639, R646), the identity key and attestation (R641, R642), owner keys
(R643), the mailbox (R644, R645), and licences (R647 to R649). -/

namespace Sys2Proof.Machine

open Sys2Proof

def State.setRng (s : State) (r : RngSt) : State := { s with rng := r }

/-! ## The firmware store (R636 to R638) -/

def bankSize : Nat := 0x100_0000

/-- A bank once it is erased: what it reads as is open. -/
def State.eraseBank (s : State) : BankSt × State :=
  let k := s.fresh
  (⟨Mem.empty.lose 0 bankSize k.1, false⟩, k.2)

def RngSt.bank (r : RngSt) (k : Nat) : BankSt := if k = 0 then r.bankA else r.bankB
def RngSt.setBank (r : RngSt) (k : Nat) (b : BankSt) : RngSt := if k = 0 then { r with bankA := b } else { r with bankB := b }

def BankSt.n (b : BankSt) (off n : Nat) : Nat := ofLE (b.bytes.read off n)
def BankSt.keySlot (b : BankSt) : Nat := b.n 0x0A 1
def BankSt.version (b : BankSt) : Nat := b.n 0x0B 1
def BankSt.length (b : BankSt) : Nat := b.n 0x0C 4
def BankSt.build (b : BankSt) : Nat := b.n 0x10 8

/-- A release key slot whose revoke fuse is intact (R637). -/
def RngSt.intact (r : RngSt) (k : Nat) : Bool := decide (k < 4) && !bit k r.revoked

/-- The bank is valid (R637). -/
def RngSt.bankValid (r : RngSt) (b : BankSt) : Bool :=
  r.intact b.keySlot && decide (r.counter ≤ b.version) &&
  (b.factory ||
    (b.n 0 8 == 0x5746474E52325754 && b.n 0x08 2 == 1 && decide (b.version ≤ 64) && decide (1 ≤ b.length) &&
      decide (b.length ≤ 16776960) && b.n 0x98 104 == 0 &&
      edVerify (Config.releaseKey b.keySlot) (b.bytes.read 0 0x58) (b.bytes.read 0x58 64) &&
      b.bytes.read 0x18 64 == sha512 (b.bytes.read 0x100 b.length)))

/-- The bank that the boot ROM runs: the valid one with the higher version, A when they are equal (R638). Log 129 (DEDUCED). -/
def RngSt.romChoice (r : RngSt) : Option Nat :=
  match r.bankValid r.bankA, r.bankValid r.bankB with
  | true, true => some (if r.bankA.version < r.bankB.version then 1 else 0)
  | true, false => some 0
  | false, true => some 1
  | false, false => none

/-- The measure of a bank (R642). -/
def BankSt.measure (b : BankSt) : Bytes := if b.factory then Config.factoryMeasure else sha512 (b.bytes.read 0 (0x100 + b.length))

/-- A bank's journal record: bank, build and security_version (R652). -/
def State.journalBank (s : State) (k : Nat) : State :=
  let b := s.rng.bank k
  s.journal 0x08 (toLE 4 k ++ toLE 8 b.build ++ toLE 4 b.version) true

/-! ## The mailbox (R644, R645) -/

namespace Mbox

def ok : Nat := 0
def badCommand : Nat := 1
def badSignature : Nat := 2
def badSerial : Nat := 3
def stale : Nat := 4
def state : Nat := 5
def lastKey : Nat := 6
def notValid : Nat := 7

end Mbox

/-- What a command does: the state, its mailbox status and what it replies. -/
abbrev Done := State × Nat × Bytes

def mboxFail (s : State) (status : Nat) : Done := (s, status, [])

/-! ## Identity and attestation (R641, R642) -/

def mboxCert (s : State) (args : Bytes) : Done := if args.isEmpty then (s, Mbox.ok, Config.certificate) else mboxFail s Mbox.badCommand

def slotCode : SlotState → Nat
  | .empty => 0
  | .loading => 1
  | .loaded => 2

/-- The entry of a slot in a report. -/
def State.attestSlot (s : State) (n : Nat) : Bytes :=
  let x := s.slot n
  if x.state = .empty then List.replicate 80 0
  else
    toLE 1 (slotCode x.state) ++ toLE 1 x.owner ++ List.replicate 6 0 ++ toLE 8 (s.reg (Reg.imgPartId n)).toNat ++
      (List.range 8).flatMap (fun w => toLE 8 (s.reg (Reg.imgMeasure n w)).toNat)

def RngSt.ownerAt (r : RngSt) (k : Nat) : OwnerSt := r.owners.get .reset k

/-- The owner slots in a state, as a mask. -/
def RngSt.ownerMask (r : RngSt) (st : Nat) : Nat :=
  ((List.range 4).map (fun k => if (r.ownerAt k).state = st then 2 ^ k else 0)).sum

/-- The attestation report (R642). -/
def State.attestation (s : State) (nonce : Bytes) : Bytes :=
  let r := s.rng
  let b := r.bank r.running
  let lic := match r.licence with
    | some l => sha512 l
    | none => List.replicate 64 0
  let head := toLE 8 0x5453545441325754 ++ toLE 2 1 ++ List.replicate 6 0 ++ toLE 8 Config.serial.toNat ++
    toLE 8 s.beat.toNat ++ toLE 8 (if s.beats.cal.valid then s.beats.cal.sec else 0) ++ nonce ++ b.measure ++ toLE 1 r.counter ++
    toLE 1 b.keySlot ++ toLE 1 r.revoked.toNat ++ toLE 1 (r.ownerMask 1) ++ toLE 1 (r.ownerMask 2) ++ List.replicate 3 0 ++ lic ++
    (List.range 8).flatMap s.attestSlot
  head ++ edSign Config.identitySeed head

def mboxAttest (s : State) (args : Bytes) : Done :=
  if args.length = 32 then (s, Mbox.ok, s.attestation args) else mboxFail s Mbox.badCommand

/-! ## Firmware update (R646) -/

/-- Log 128 (DEDUCED). -/
def mboxStage (s : State) (sess : Nat) (args : Bytes) : Done :=
  let off := leAt args 0 4
  let data := args.drop 4
  if args.length < 4 ∨ bankSize < off + data.length then mboxFail s Mbox.badCommand
  else
    let mine := match s.rng.staging with
      | some k => k == sess
      | none => true
    if !mine then mboxFail s Mbox.state
    else
      let k := 1 - s.rng.running
      let e := if off = 0 then s.eraseBank else (s.rng.bank k, s)
      let b : BankSt := { e.1 with bytes := e.1.bytes.write off data, factory := false }
      let r := e.2.rng.setBank k b
      (e.2.setRng { r with staging := if off = 0 then some sess else r.staging }, Mbox.ok, [])

/-- FW_STAGE_TIMEOUT. -/
def execFwStageTimeout (s : State) : Host.Outcome State Fault Refusal := .next (s.setRng { s.rng with staging := none })

def mboxActivate (s : State) (args : Bytes) : Done :=
  if !args.isEmpty then mboxFail s Mbox.badCommand
  else
    let k := 1 - s.rng.running
    let s := s.setRng { s.rng with staging := none }
    if s.rng.bankValid (s.rng.bank k) then (s.journalBank k, Mbox.ok, [])
    else (s.raise 0x40B3 none 0 0, Mbox.notValid, [])

/-! ## Owner keys (R643) -/

/-- An owner key slot's journal record. Log 129 (DEDUCED). -/
def State.journalKey (s : State) (slot st : Nat) : State := s.journal 0x07 (toLE 4 slot ++ toLE 4 st) true

/-- Arguments of an owner command: slot, signer, counter, key, signature. -/
structure OwnerArgs where
  slot : Nat
  signer : Nat
  counter : Nat
  key : Bytes
  sig : Bytes
deriving DecidableEq, Repr

def ownerArgs (a : Bytes) : Option OwnerArgs :=
  if a.length ≠ 104 ∨ 4 ≤ leAt a 0 1 ∨ leAt a 2 2 ≠ 0 then none
  else some ⟨leAt a 0 1, leAt a 1 1, leAt a 4 4, slice a 8 32, slice a 40 64⟩

/-- The signature of an owner command: that of a VALID slot over serial, code, slot, counter and key. -/
def RngSt.ownerSigned (r : RngSt) (code : Nat) (a : OwnerArgs) : Bool :=
  (r.ownerAt a.signer).state == 1 &&
    edVerify (r.ownerAt a.signer).key (toLE 8 Config.serial.toNat ++ toLE 2 code ++ toLE 1 a.slot ++ toLE 4 a.counter ++ a.key) a.sig

/-- The first claim: every slot is EMPTY and the key goes into slot 0. -/
def RngSt.firstClaim (r : RngSt) (a : OwnerArgs) : Bool := a.slot == 0 && r.ownerMask 0 == 15

def RngSt.setOwner (r : RngSt) (k : Nat) (o : OwnerSt) : RngSt := { r with owners := r.owners.put k o }

/-- The checks common to owner commands: signature, then counter. Log 128 (DEDUCED). -/
def State.ownerCheck (s : State) (code : Nat) (a : OwnerArgs) : Option Nat :=
  if !s.rng.ownerSigned code a then some Mbox.badSignature
  else if a.counter ≠ s.rng.owner.toNat + 1 then some Mbox.stale
  else none

def mboxOwnerSet (s : State) (args : Bytes) : Done :=
  match ownerArgs args with
  | none => mboxFail s Mbox.badCommand
  | some a =>
    let r := s.rng
    let bad := if r.firstClaim a then (if a.counter ≠ r.owner.toNat + 1 then some Mbox.stale else none) else s.ownerCheck 0x20 a
    match bad with
    | some e => mboxFail s e
    | none =>
      if (r.ownerAt a.slot).state ≠ 0 then mboxFail s Mbox.state
      else ((s.setRng { r.setOwner a.slot ⟨1, a.key⟩ with owner := r.owner + 1 }).journalKey a.slot 1, Mbox.ok, [])

def mboxOwnerRevoke (s : State) (args : Bytes) : Done :=
  match ownerArgs args with
  | none => mboxFail s Mbox.badCommand
  | some a =>
    let r := s.rng
    if ofLE a.key ≠ 0 then mboxFail s Mbox.badCommand
    else match s.ownerCheck 0x21 a with
      | some e => mboxFail s e
      | none =>
        if (r.ownerAt a.slot).state ≠ 1 then mboxFail s Mbox.state
        else if r.ownerMask 1 = 2 ^ a.slot then mboxFail s Mbox.lastKey
        else ((s.setRng { r.setOwner a.slot ⟨2, (r.ownerAt a.slot).key⟩ with owner := r.owner + 1 }).journalKey a.slot 2, Mbox.ok, [])

def mboxOwnerRelease (s : State) (args : Bytes) : Done :=
  match ownerArgs args with
  | none => mboxFail s Mbox.badCommand
  | some a =>
    let r := s.rng
    if ofLE a.key ≠ 0 ∨ a.slot ≠ 0 then mboxFail s Mbox.badCommand
    else match s.ownerCheck 0x22 a with
      | some e => mboxFail s e
      | none =>
        let held := (List.range 4).filter (fun k => (r.ownerAt k).state != 0)
        (held.foldl (fun s k => s.journalKey k 0) (s.setRng { r with owners := [] }), Mbox.ok, [])

/-! ## Licences (R647 to R649) -/

def licFeatures (l : Bytes) : Nat := leAt l 0x10 4
def licIssue (l : Bytes) : Nat := leAt l 0x14 4
def licExpiry (l : Bytes) : Nat := leAt l 0x18 8

def State.journalLicence (s : State) (l : Bytes) : State :=
  s.journal 0x06 (toLE 4 (licFeatures l) ++ toLE 8 (licIssue l) ++ toLE 8 (licExpiry l)) true

/-- The installed licence's issue counter. -/
def RngSt.issue (r : RngSt) : Nat :=
  match r.licence with
  | some l => licIssue l
  | none => 0

/-- The first check that a licence fails (R648). Log 128 (DEDUCED). -/
def State.licenceCheck (s : State) (l : Bytes) : Option Nat :=
  let k := leAt l 0x20 1
  if leAt l 0 8 ≠ 0x434E43494C325754 ∨ !s.rng.intact k ∨ !edVerify (Config.releaseKey k) (slice l 0 0x40) (slice l 0x40 64) then
    some Mbox.badSignature
  else if leAt l 0x08 8 ≠ Config.serial.toNat then some Mbox.badSerial
  else if licIssue l ≤ s.rng.issue then some Mbox.stale
  else if licExpiry l ≠ 0 ∧ licExpiry l ≤ s.licenceClock then some Mbox.notValid
  else none

/-- Log 128 (DEDUCED). -/
def mboxLicence (s : State) (args : Bytes) : Done :=
  if args.length ≠ 128 then mboxFail s Mbox.badCommand
  else match s.licenceCheck args with
    | some e => mboxFail s e
    | none => ((s.setRng { s.rng with licence := some args, expired := false }).journalLicence args, Mbox.ok, [])

/-- Log 128 (DEDUCED). -/
def mboxLicenceGet (s : State) (args : Bytes) : Done :=
  if !args.isEmpty then mboxFail s Mbox.badCommand
  else match s.rng.licence with
    | some l => (s, Mbox.ok, l)
    | none => mboxFail s Mbox.state

/-- LICENCE_EXPIRY (R649). Log 129 (DEDUCED). -/
def execLicenceExpiry (s : State) : Host.Outcome State Fault Refusal :=
  .next (match s.rng.licence with
    | some l =>
      if s.rng.expired || licExpiry l == 0 || decide (s.licenceClock < licExpiry l) then s
      else ((s.setRng { s.rng with expired := true }).raise 0x40B2 none 0 0).journalLicence l
    | none => s)

/-! ## Release keys (R640) -/

/-- Log 128 (DEDUCED). -/
def mboxRevoke (s : State) (args : Bytes) : Done :=
  let r := s.rng
  let t := leAt args 0 1
  let k := leAt args 1 1
  let m := r.revoked ||| BitVec.ofNat 4 (2 ^ t)
  if args.length ≠ 68 ∨ 4 ≤ t ∨ leAt args 2 2 ≠ 0 then mboxFail s Mbox.badCommand
  else if m = 15 then mboxFail s Mbox.lastKey
  else if k = t ∨ !r.intact k ∨
      !edVerify (Config.releaseKey k) (toLE 8 Config.serial.toNat ++ toLE 2 0x40 ++ toLE 1 t) (slice args 4 64) then
    mboxFail s Mbox.badSignature
  else ((s.setRng { r with revoked := m }).journalKey (0x100 + t) 2, Mbox.ok, [])

/-! ## A MAILBOX request (R644, R645) -/

/-- The commands of R644, by code. -/
def mboxRun (s : State) (sess code : Nat) (args : Bytes) : Done :=
  match code with
  | 0x01 => mboxCert s args
  | 0x02 => mboxAttest s args
  | 0x10 => mboxStage s sess args
  | 0x11 => mboxActivate s args
  | 0x20 => mboxOwnerSet s args
  | 0x21 => mboxOwnerRevoke s args
  | 0x22 => mboxOwnerRelease s args
  | 0x30 => mboxLicence s args
  | 0x31 => mboxLicenceGet s args
  | 0x40 => mboxRevoke s args
  | _ => mboxFail s Mbox.badCommand

/-- The commands that are served in recovery. -/
def mboxRecovers (code : Nat) : Bool := code == 0x01 || code == 0x10 || code == 0x11

/-- The header of a command is well formed. -/
def mboxHeaderOk (p : Bytes) : Bool :=
  decide (16 ≤ p.length) && leAt p 2 2 == 0 && leAt p 4 4 + 16 == p.length && decide (leAt p 4 4 ≤ 8176)

def mboxReply (p : Bytes) (status : Nat) (reply : Bytes) : Bytes :=
  slice p 0 2 ++ toLE 1 status ++ toLE 1 0 ++ toLE 4 reply.length ++ slice p 8 8 ++ reply

/-- A MAILBOX request that the front end lets through. -/
def State.mailboxRun (s : State) (qp : Option Nat) (f : KctFrame) : State :=
  let p := f.payload
  let code := leAt p 0 2
  if s.boot.stage = 0xF ∧ !mboxRecovers code then s.answerNotReady qp f
  else
    let d : Done := if mboxHeaderOk p then mboxRun s f.session.toNat code (p.drop 16) else mboxFail s Mbox.badCommand
    let s := (d.1.setRegF Reg.rngMbox 63 48 code).setRegF Reg.rngMbox 47 40 d.2.1
    s.finish qp f ⟨Kct.ok, f.address.toNat, 0, mboxReply p d.2.1 d.2.2⟩

def State.mailbox (s : State) (qp : Option Nat) (f : KctFrame) : State :=
  match s.kctFront qp f with
  | .done s => s
  | .run s => if f.op = 0x20 then s.mailboxRun qp f else s

/-- The command codes of R644. -/
def mboxCodes : List Nat := [0x01, 0x02, 0x10, 0x11, 0x20, 0x21, 0x22, 0x30, 0x31, 0x40]

/-- The frame of a mailbox row: a request with the row's command code, or with an unknown one, which is a BAD_COMMAND. -/
def isMailbox (f : KctFrame) (code : Nat) : Bool :=
  f.op == 0x20 && (leAt f.payload 0 2 == code || !mboxCodes.contains (leAt f.payload 0 2))

/-- A mailbox row: its own command only. Log 129 (DEDUCED). -/
def State.mailboxRow (s : State) (f : KctFrame) (code : Nat) : State := if isMailbox f code then s.mailbox none f else s

/-- GET_CERT (R641). -/
def execGetCert (f : KctFrame) (s : State) : Host.Outcome State Fault Refusal := .next (s.mailboxRow f 0x01)

/-- ATTEST (R642). -/
def execAttest (f : KctFrame) (s : State) : Host.Outcome State Fault Refusal := .next (s.mailboxRow f 0x02)

/-- FW_STAGE (R646). -/
def execFwStage (f : KctFrame) (s : State) : Host.Outcome State Fault Refusal := .next (s.mailboxRow f 0x10)

/-- FW_ACTIVATE (R646). -/
def execFwActivate (f : KctFrame) (s : State) : Host.Outcome State Fault Refusal := .next (s.mailboxRow f 0x11)

/-- OWNER_SET (R643). -/
def execOwnerSet (f : KctFrame) (s : State) : Host.Outcome State Fault Refusal := .next (s.mailboxRow f 0x20)

/-- OWNER_REVOKE (R643). -/
def execOwnerRevoke (f : KctFrame) (s : State) : Host.Outcome State Fault Refusal := .next (s.mailboxRow f 0x21)

/-- OWNER_RELEASE (R643). -/
def execOwnerRelease (f : KctFrame) (s : State) : Host.Outcome State Fault Refusal := .next (s.mailboxRow f 0x22)

/-- LICENCE_INSTALL (R648). -/
def execLicenceInstall (f : KctFrame) (s : State) : Host.Outcome State Fault Refusal := .next (s.mailboxRow f 0x30)

/-- LICENCE_GET (R644). -/
def execLicenceGet (f : KctFrame) (s : State) : Host.Outcome State Fault Refusal := .next (s.mailboxRow f 0x31)

/-- REVOKE_RELEASE (R640). -/
def execRevokeRelease (f : KctFrame) (s : State) : Host.Outcome State Fault Refusal := .next (s.mailboxRow f 0x40)

end Sys2Proof.Machine
end

