-- ==== Sys2Proof/Machine/Boot.lean ====
section
/-! DEFINITION. Bring-up: what a module reset keeps (R611, R633), the boot stages and the cruise (R608 to R615), power on and off,
hot plug (R624 to R628, R665 to R668), ranger restarts (R635, R646) and Chrysalis (R567 to R571). -/

namespace Sys2Proof.Machine

open Sys2Proof

def State.setBoot (s : State) (b : BootSt) : State := { s with boot := b }
def State.setStage (s : State) (k : Nat) : State := s.setBoot { s.boot with stage := k }
def State.setInput (s : State) (k : Nat) : State := s.setBoot { s.boot with input := k }

/-! ## What a module reset leaves (R10, R71, R122, R352, R411, R475, R510, R539, R571, R607, R611, R633, R659) -/

/-- Registers that a module reset leaves as they are: those of the ranger, keys, licence and log book (R659), the fault log's
count, the last boot's and cruise's results and the cause. -/
def keptReg (a : Nat) : Bool :=
  (decide (0x1_0000 ≤ a) && decide (a ≤ 0x1_FFFF)) || (decide (0xB_0000 ≤ a) && decide (a ≤ 0xC_FFFF)) ||
  a == Reg.fltLogStatus || a == Reg.modBootStage || a == Reg.modResetCause || a == Reg.modCruiseA || a == Reg.modCruiseB ||
  (inBlock a && decide (0x0100_0000 ≤ a) && (a - 0x0100_0000) % 0x1_0000 == 8)

/-- A register's word after a reset: RWS fields keep their values, the others take the reset value. -/
def stickyPart (a : Nat) (w : Word) : Word :=
  match regRow a with
  | some r => (w &&& BitVec.ofNat 64 r.rws) ||| (resetOf a &&& ~~~ BitVec.ofNat 64 r.rws)
  | none => 0

/-- The register bank after a module reset. -/
def resetRegs (t : Tbl Word) : Tbl Word :=
  t.filterMap (fun (e : Nat × Word) =>
    if keptReg e.1 then some e
    else if stickyPart e.1 e.2 = resetOf e.1 then none
    else some (e.1, stickyPart e.1 e.2))

/-- The power controller after a module reset: what it measures stays, the rest starts anew (R571). Log 132 (DEDUCED). -/
def PowerSt.moduleReset (p : PowerSt) : PowerSt :=
  { PowerSt.reset with
    e := p.e, p := p.p, ceiling := p.ceiling, floor := p.floor, chrysalis := p.chrysalis, allow := p.allow, warm := p.warm,
    exempt := p.exempt,
    halves := p.halves.map (fun (h : Nat × HalfSt) => (h.1, { HalfSt.reset with
      thermal := h.2.thermal, temp := h.2.temp, hot := h.2.hot })) }

/-- A memory whose whole contents are undefined, on occasion `k`. Log 133 (DEDUCED). -/
def lostMem (k : Nat) : Mem := Mem.empty.lose 0 (2 ^ 48) k

/-- A fault notice, which outlasts a module reset since the ranger runs on. -/
def isNotice : Instr → Bool
  | .faultNotice _ => true
  | _ => false

/-- Everything but what R611 keeps is cleared. Log 132 (DEDUCED), 133 (DEDUCED). -/
def State.moduleClear (s : State) : State :=
  let s := s.loseT0Cells (fun _ => true)
  let k := s.freeCtr
  { s with
    inFlight := s.inFlight.filter isNotice
    freeCtr := k + eraSize + 3
    eras := (List.range 72).map (fun r => (r, (k, true)))
    nap := none
    regs := resetRegs s.regs
    cells := [], fms := [], slots := [], routers := [], rgns := [], foreign := [], skys := [], admission := .reset, tilesHeld := []
    tiers := { TierSt.reset with
      mem1 := lostMem (k + eraSize), mem2 := lostMem (k + eraSize + 1), mem3 := lostMem (k + eraSize + 2),
      temps := s.tiers.temps }
    yard := .reset, streams := [], reds := [], eth := .reset
    beats := { BeatSt.reset with cal := s.beats.cal }
    power := s.power.moduleReset, ldr := .reset
    flt := { s.flt with waits := [], regions := [], reducer := false, host := [], failed := false }
    jobs := [], resets := [], tallyLast := [] }

/-- A boot begins at a stage, for a cause of MOD_RESET_CAUSE. Log 131 (DESIGN CHOICE). -/
def State.bootFrom (s : State) (stage cause : Nat) : State :=
  let b := s.boot
  ((s.moduleClear).setBoot { BootSt.reset with
    stage := stage, mated := b.mated, present := b.present, input := b.input, busLow := b.busLow }).setRegF Reg.modResetCause 3 0 cause

/-- Every rail but standby goes off: state OFF. -/
def State.railsOff (s : State) : State :=
  let b := s.boot
  let s := (s.moduleClear).setBoot { BootSt.reset with mated := b.mated, present := b.present, input := b.input, busLow := b.busLow }
  { s with power := { s.power with p := 0 } }

/-- A ranger restart from its ROM: stages 1 to 5 run with the input kept on; a staging in progress is lost (R611, R646, R655). -/
def State.rangerStart (s : State) (cause : Nat) : State :=
  let s := if s.rng.staging.isSome then
      let e := s.eraseBank
      e.2.setRng { e.2.rng.setBank (1 - e.2.rng.running) e.1 with staging := none }
    else s
  s.bootFrom 1 cause

/-! ## The cruise (R21, R22, R612 to R615) -/

/-- A unit marked bad at a physical position of a block row (R594). -/
def State.markedAt (s : State) (g row p : Nat) : Bool :=
  s.flt.bad.any (fun b => b.1 == 1 && b.2 / 2 ^ 18 == p && regionOf (b.2 % 2 ^ 18) == g && blockRowOf (b.2 % 2 ^ 18) == row)

/-- The bad positions of a block row: by the fuse map, the cruise, or a mark (R613). -/
def State.rowBad (s : State) (r : StageReport) (g row : Nat) : List Nat :=
  (List.range 9).filter (fun p => r.fuseCells.contains (g, row, p) || r.cruiseCells.contains (g, row, p) || s.markedAt g row p)

/-- The block is a hole: a row with two or more bad positions, a bad foreman, or a mark (R22, R594, R613). -/
def State.blockHole (s : State) (r : StageReport) (f : FmId) : Bool :=
  (List.range 8).any (fun k => decide (2 ≤ (s.rowBad r f.region (f.block * 8 + k)).length)) || r.fuseFms.contains f ||
    r.cruiseFms.contains f || s.flt.bad.contains (2, globalBlock f)

/-- The region's breaker is open (R574). Log 156 (DEDUCED). -/
def State.breakerOpen (s : State) (g : Nat) : Bool := s.breaker g == 1 || s.breaker g == 3

/-- The region is lost: its station or a crossing failed, its breaker is open, or every block is a hole (R610, R614).
Log 156 (DEDUCED). -/
def State.regionLost (s : State) (r : StageReport) (g : Nat) : Bool :=
  r.lostRegions.contains g || s.breakerOpen g || (regionFms g).all (s.blockHole r)

/-- What RGN_SPARE says of a block row: its one bad position, 9 none, 15 in a hole (R632). -/
def State.spareCode (s : State) (r : StageReport) (g row : Nat) : Nat :=
  if s.blockHole r ⟨g, row / 8⟩ then 15
  else match s.rowBad r g row with
    | p :: _ => p
    | [] => 9

/-- The region map that the cruise finds: bit b for a usable block. Log 130 (DEDUCED). -/
def State.cruiseMap (s : State) (r : StageReport) (g : Nat) : Nat :=
  if s.regionLost r g then 0 else ((List.range 30).map (fun b => if s.blockHole r ⟨g, b⟩ then 0 else 2 ^ b)).sum

/-- The map, spare map and dead thorax links of a region take the cruise's results (R21, R614). -/
def State.mapRegion (s : State) (r : StageReport) (g : Nat) : State :=
  let spares := (List.range 240).foldl (fun t row => Tbl.set 9 (g * 240 + row) (s.spareCode r g row) t) s.spares
  let rows := r.thoraxDead.filter (fun q => regionOf (cellAt q 239) == g)
  let x := s.rgn g
  let s := { s with spares := spares, rgns := s.rgns.put g { x with
    map := BitVec.ofNat 30 (s.cruiseMap r g), dark := s.breakerOpen g, held := s.regionLost r g,
    dead := rows.map (fun q => (cellAt q 239, some Port.east)), detourNone := false } }
  s

/-- A journal record of a disagreement: the unit, and its fuse and cruise results, 1 bad (R652). -/
def State.disagree (s : State) (unit detail : Nat) (position : Nat := 15) : State :=
  (s.raise 0x40C1 none unit detail position).journal 0x04 (toLE 4 unit ++ toLE 4 0 ++ toLE 4 1) true

/-- Whether the cruise alone found a position or a foreman bad. -/
def cruiseOnly (r : StageReport) (gs : List Nat) : List (Nat × Nat × Nat) :=
  r.cruiseCells.filter (fun c => gs.contains c.1 && !r.fuseCells.contains c)
def cruiseOnlyFms (r : StageReport) (gs : List Nat) : List FmId :=
  r.cruiseFms.filter (fun f => gs.contains f.region && !r.fuseFms.contains f)

/-- The disagreements in the regions `gs`: recorded, put on the watch list, and 0x40C1 raised (R613). Log 130 (DEDUCED). -/
def State.reconcile (s : State) (r : StageReport) (gs : List Nat) : State :=
  let s := (cruiseOnly r gs).foldl (fun s c => s.disagree (c.1 + c.2.1 / 8 * 256) (c.2.1 % 8) c.2.2) s
  let s := (cruiseOnlyFms r gs).foldl (fun s f => s.disagree (f.region + f.block * 256) 0) s
  (r.lostRegions.filter gs.contains).foldl (fun s g => s.disagree (g + 0x1F00) 0) s

/-- The holes of the regions `gs`, each raising 0x40C0 (R613). -/
def State.holesIn (s : State) (r : StageReport) (gs : List Nat) : List FmId :=
  gs.flatMap (fun g => (regionFms g).filter (s.blockHole r))

def State.raiseHoles (s : State) (r : StageReport) (gs : List Nat) : State :=
  (s.holesIn r gs).foldl (fun s f => s.raise 0x40C0 none (f.region + f.block * 256) 0) s

/-- The failures of phase C6: on the watch list, without a change of the maps (R590, R612). -/
def State.raiseC6 (s : State) (r : StageReport) (gs : List Nat) : State :=
  let s := (r.c6Cells.filter (fun c => gs.contains (regionOf c))).foldl (fun s c => s.raiseCell 0x2004 c 5) s
  (r.c6Regions.filter gs.contains).foldl (fun s g => s.raiseRgn 0x3020 g 8) s

/-- RGN_CRUISE after a cruise (R632). Log 130 (DEDUCED). -/
def State.setCruise (s : State) (g ms phase : Nat) (lost : Bool) : State :=
  s.setReg (Reg.rgnCruise g) (BitVec.ofNat 64 (field 63 48 (min ms 65535) + field 47 32 phase + (if lost then 3 else 2)))

/-- The first failing phase that the module's cruise reports for a region: C6 where only that failed; otherwise 0 where nothing
failed, else one of C1 to C4, which the findings do not tell apart. -/
def State.cruisePhase (s : State) (r : StageReport) (g : Nat) : Nat × State :=
  if r.lostRegions.contains g || r.cruiseCells.any (fun c => c.1 == g) || r.cruiseFms.any (fun f => f.region == g) ||
      r.thoraxDead.any (fun q => regionOf (cellAt q 239) == g) then
    let k := s.fresh
    (1 + (Config.freeWord k.1).toNat % 4, k.2)
  else if r.c6Regions.contains g || r.c6Cells.any (fun c => regionOf c == g) then (6, s)
  else (0, s)

def allRegions : List Nat := List.range 72

/-- The cruise of the whole module (R612 to R614, R631). Log 130 (DEDUCED), 156 (DEDUCED). -/
def State.cruise (s : State) (r : StageReport) : State :=
  let lost := allRegions.filter (s.regionLost r)
  let rows := allRegions.flatMap (fun g => (List.range 240).map (fun row => (g, row)))
  let remapped := (rows.filter (fun e => decide (s.spareCode r e.1 e.2 ≤ 8))).length
  let differ := (cruiseOnly r allRegions).length + (cruiseOnlyFms r allRegions).length + r.lostRegions.length + r.badChannels.length
  let s := (s.sizeStacks (s.tiers.dead ++ r.badChannels))
  let s := s.setReg Reg.modCruiseA (BitVec.ofNat 64 (field 63 48 remapped + field 47 32 (s.holesIn r allRegions).length +
    field 31 16 differ + field 15 0 r.fuseCells.length))
  let s := s.setReg Reg.modCruiseB (BitVec.ofNat 64 (field 63 54 s.tiers.dead.length + field 53 47 lost.length +
    field 15 0 (min r.elapsedMs 65535)))
  let s := s.reconcile r allRegions
  let s := r.badChannels.foldl (fun s c => s.disagree (2 ^ 31 + c) 0) s
  let s := s.raiseHoles r allRegions
  let s := allRegions.foldl (fun s g =>
    let p := s.cruisePhase r g
    (p.2.mapRegion r g).setCruise g r.elapsedMs p.1 (p.2.regionLost r g)) s
  let s := s.raiseC6 r allRegions
  let why := ofBool (decide (32 < s.tiers.dead.length)) + 2 * ofBool (!lost.isEmpty) + 4 * ofBool r.unitFail +
    8 * ofBool (!r.thoraxDead.isEmpty)
  s.setBoot { s.boot with degraded := BitVec.ofNat 8 why }

/-- REGION_CRUISE: a region that is held after its breaker was cleared is mapped anew and returns; repairs that wait for it go
on (R588, R615, R632). Log 101 (DEDUCED). -/
def execRegionCruise (g phase : Nat) (r : StageReport) (s : State) : Host.Outcome State Fault Refusal :=
  .next (
    if 71 < g ∨ !(s.rgn g).held ∨ (s.rgn g).dark ∨ s.breaker g ≠ 0 then s
    else
      let s := (s.reconcile r [g]).raiseHoles r [g]
      let lost := s.regionLost r g
      let s := ((s.mapRegion r g).setCruise g r.elapsedMs phase lost).raiseC6 r [g]
      (List.range 8).foldl (fun s n => if (s.slot n).rect.has g then s.lostReturned n else s) s)

/-! ## Boot stages (R608 to R610) -/

/-- Stage 1 ends: the ROM chooses a bank, and the module waits for coolant and supply, raising 0x4093 and 0x4092 once (R609,
R638). -/
def State.endRangerStage (s : State) (r : StageReport) : State :=
  match s.rng.romChoice with
  | none => (((s.setStage 0xF).setRegF Reg.modBootStage 7 4 1).raise 0x40B3 none 0 0)
  | some k =>
    let s := s.setRng { s.rng with running := k }
    let s := if !r.coolantOk && !s.boot.asked.2 then
        let j := s.freeCtr
        let read := fun (i : Nat) => toLE 4 (Config.freeWord (j + i)).toNat
        let s := { s with freeCtr := j + 2, boot := { s.boot with asked := (s.boot.asked.1, true) } }
        ((s.alarm 2).raise 0x4093 none 0 0).journal 0x09 (read 0 ++ read 1)
      else s
    let s := if !r.supplyOk && !s.boot.asked.1 then
        (({ s with boot := { s.boot with asked := (true, s.boot.asked.2) } }).alarm 3).raise 0x4092 none 0 0
      else s
    if r.coolantOk && r.supplyOk then s.setStage 2 else s

/-- The CXL far tier is licensed (R650). -/
def State.farLicensed (s : State) : Bool := s.features % 2 == 1

/-- Stage 3 ends: memories tested and trained (R398, R403, R404). -/
def State.endMemories (s : State) (r : StageReport) : State :=
  (((s.sizeStacks r.badChannels).sizeBoard r.dimms).sizeFar s.farLicensed r.cxl).setStage 4

/-- Stage 4 ends: each port with a live partner is UP (R469). -/
def State.endLinks (s : State) (r : StageReport) : State :=
  (r.ports.foldl (fun s (e : Nat × Nat × Word) =>
    s.trainPort e.1 ((List.range 16).filter (fun k => e.2.1 / 2 ^ k % 2 == 1)) e.2.2) s).setStage 5

/-- A completed start raises the security counter to the version of the running bank (R639). -/
def State.raiseCounter (s : State) : State :=
  let v := (s.rng.bank s.rng.running).version
  if s.rng.counter < v then (s.setRng { s.rng with counter := v }).journalBank s.rng.running else s

/-- The end of the start: its stage, its time and its journal record (R610, R652). Log 130 (DEDUCED). -/
def State.bootDone (s : State) : State :=
  let s := s.setStage (if s.boot.degraded ≠ 0 then 8 else 6)
  let ms := min s.boot.ms 65535
  let s := (s.setRegF Reg.modBootStage 63 48 ms).setRegF Reg.modBootStage 7 4 0
  s.journal 0x01 (toLE 4 s.moduleState ++ toLE 4 ms)

/-- The boot ends READY or DEGRADED (R610, R630). -/
def State.endBoot (s : State) : State := s.bootDone.raiseCounter

/-- BOOT_STAGE_COMPLETE (R608). Log 131 (DESIGN CHOICE). -/
def execBootStageComplete (r : StageReport) (s : State) : Host.Outcome State Fault Refusal :=
  .next (
    let k := s.boot.stage
    if k = 0 ∨ 5 < k then s
    else
      let s := s.setBoot { s.boot with ms := s.boot.ms + r.elapsedMs }
      if k = 1 then s.endRangerStage r
      else if k = 2 then s.setStage 3
      else if k = 3 then s.endMemories r
      else if k = 4 then s.endLinks r
      else (s.cruise r).endBoot)

/-! ## Insertion and removal (R625 to R628, R665, R667) -/

/-- Precharge begins when MATED is closed and the bus is there. Log 155 (DEDUCED). -/
def State.precharge (s : State) : State := if s.boot.mated && !s.boot.busLow && s.boot.input == 0 then s.setInput 1 else s

/-- POWER_CONTACTS_MATED: a closing of MATED, counted, and precharge (R625, R651). -/
def execPowerContactsMated (s : State) : Host.Outcome State Fault Refusal :=
  .next (
    if s.boot.mated then s
    else
      let l := s.book.life
      let s := s.setBook { s.book with life := { l with hotPlug := l.hotPlug + 1 } }
      (s.setBoot { s.boot with mated := true }).precharge)

/-- PRECHARGE_COMPLETE: the input switch closes and stage 1 begins (R625). Log 155 (DEDUCED). -/
def execPrechargeComplete (s : State) : Host.Outcome State Fault Refusal :=
  .next (if s.boot.input = 1 then s.setBoot { s.boot with input := 2, stage := 1, ms := 0, asked := (false, false) } else s)

/-- BUS_BELOW_700V (R625). -/
def execBusBelow700V (s : State) : Host.Outcome State Fault Refusal :=
  .next (
    let s := s.setBoot { s.boot with busLow := true }
    if s.boot.input = 1 then s.setInput 0 else s)

/-- BUS_RESTORED (R625). -/
def execBusRestored (s : State) : Host.Outcome State Fault Refusal :=
  .next (if s.boot.busLow then (s.setBoot { s.boot with busLow := false }).precharge else s)

/-- PRESENT_LOOP_CHANGE (R665). -/
def execPresentLoopChange (closed : Bool) (s : State) : Host.Outcome State Fault Refusal :=
  .next (s.setBoot { s.boot with present := closed })

/-- The module may be removed: OFF or CHRYSALIS with admission NONE (R626). -/
def State.okToRemove (s : State) : Bool := (s.boot.stage == 0 || s.boot.stage == 7) && s.admitState == 0

/-- MATED_OPEN: every rail goes off; out of the order of R626, each RUNNING slot gets a record and the log book the removal
(R626, R627). -/
def execMatedOpen (s : State) : Host.Outcome State Fault Refusal :=
  .next (
    if !s.boot.mated then s
    else
      let planned := s.okToRemove
      let runs := (List.range 8).filter (fun n => s.jobState n == 1)
      let s := if planned then s else (runs.foldl (fun s n => s.record ⟨0x4092, some n, 0, 0, 15⟩) s).journal 0x0A []
      let s := s.flushLife.railsOff
      (s.setBoot { s.boot with mated := false, input := 0 }).setRegF Reg.modResetCause 3 0 4)

/-- INPUT_OVERVOLTAGE: the input switch opens and 0x4092 is raised (R667, R668). Log 132 (DEDUCED). -/
def execInputOvervoltage (s : State) : Host.Outcome State Fault Refusal :=
  .next (
    if s.boot.input ≠ 2 then s
    else
      let s := s.flushLife.railsOff
      (((s.setInput 0).setRegF Reg.modResetCause 3 0 0).alarm 3).raise 0x4092 none 0 0)

/-- INPUT_RECLOSE: a new precharge begins (R667). -/
def execInputReclose (s : State) : Host.Outcome State Fault Refusal := .next s.precharge

/-- STANDBY_POWER_LOSS: the lifetime counters are in flash; the fault log and every RWS field are lost, and the calendar, the log
book, watch list, fuses, keys and licence stay (R10, R534, R593, R607, R651, R655). Log 153 (DEDUCED). -/
def execStandbyPowerLoss (s : State) : Host.Outcome State Fault Refusal :=
  .next (
    if s.boot.input = 2 then s
    else
      let date := s.reg Reg.logNextTest
      let s := s.flushLife.railsOff
      let s := { s with
        regs := [], inFlight := []
        beats := { BeatSt.reset with cal := s.beats.cal }, power := .reset
        flt := { s.flt with log := [], total := 0 }
        rng := { s.rng with staging := none }
        book := { s.book with ps := 0 } }
      s.setReg Reg.logNextTest date)

/-! ## MOD_CTRL (R611, R626, R631) -/

/-- A write of retire: running jobs drain, and the counters go to flash (R626, R651). -/
def State.writeRetire (s : State) (on : Bool) : State :=
  let was := s.retired
  let s := s.setRegF Reg.modCtrl 62 62 (ofBool on)
  if on && !was then
    (((List.range 8).filter (fun n => s.jobState n == 1)).foldl (fun s n => (s.drainJob n).1) s).flushLife
  else s

/-- A tick of retirement: once the last job has stopped, LEAVE goes on every ADMITTED port (R626). -/
def State.retireTick (s : State) : State :=
  if s.retired && !(List.range 8).any s.jobActive then s.startLeave else s

/-- A job is RUNNING, DRAINING or REPLAYING. -/
def State.jobLive (s : State) : Bool := (List.range 8).any (fun n => ([1, 2, 5] : List Nat).contains (s.jobState n))

/-- A module reset acts while the module is powered and its ranger's firmware runs. -/
def State.mayReset (s : State) : Bool := s.boot.stage != 0 && s.boot.stage != 0xF

/-- A write of MOD_CTRL (R631). Log 132 (DEDUCED). -/
def State.writeModCtrl (s : State) (src : Src) (value : Word) : State × Bool :=
  let s := s.writeRetire (bit 62 value)
  let acts := bit 63 value || bit 61 value || bit 60 value
  if !acts then (s, true)
  else if bits 15 0 value ≠ 0x5A5A then (s.reject, false)
  else if bit 63 value then
    if s.mayReset then (s.bootFrom 2 (match src with
      | .kct _ => 1
      | .firmware => 2), true)
    else (s.reject, false)
  else if bit 61 value then
    if s.jobLive || s.admitState != 0 then (s.reject, false) else (s.flushLife.railsOff, true)
  else if s.boot.stage = 0 ∧ s.boot.input = 2 then (s.bootFrom 2 0, true)
  else (s.reject, false)

/-! ## Ranger restarts (R635, R646, R656) -/

/-- WATCHDOG_EXPIRY (R635). Log 132 (DEDUCED). -/
def execWatchdogExpiry (s : State) : Host.Outcome State Fault Refusal :=
  .next (if s.boot.input = 2 then s.rangerStart 3 else s)

/-- A write of RNG_CTRL (R646). -/
def State.writeRngCtrl (s : State) (value : Word) : State × Bool :=
  if !bit 63 value then (s, true)
  else if bits 15 0 value ≠ 0x5A5A ∨ s.jobLive = true ∨ s.admitted = true ∨ s.boot.input ≠ 2 then (s.reject, false)
  else (s.rangerStart 5, true)

/-! ## Chrysalis (R122, R260, R331, R567 to R570) -/

/-- PWR_CHRYSALIS.state: 0 AWAKE, 1 ENTERING, 2 ASLEEP, 3 WAKING. -/
def State.napState (s : State) : Nat := s.regF Reg.pwrChrysalis 33 32
def State.setNap (s : State) (k : Nat) : State := s.setRegF Reg.pwrChrysalis 33 32 k

/-- A write of PWR_CHRYSALIS (R567, R569, R571). Log 133 (DEDUCED). -/
def State.writeChrysalis (s : State) (value : Word) : State × Bool :=
  let enter := bit 63 value
  let wake := bit 62 value
  let mayEnter := !(List.range 8).any s.jobActive && (s.moduleState == 2 || s.moduleState == 6) && s.napState == 0
  if (enter && !mayEnter) || (wake && s.napState != 2) then (s.reject, false)
  else
    let s := s.setRegF Reg.pwrChrysalis 31 0 (bits 31 0 value)
    (if enter then s.setNap 1 else if wake then s.setNap 3 else s, true)

/-- A cell asleep (R122): tables, understorey and error-window bits are kept. -/
def CellSt.sleep (x : CellSt) (k : Nat) : CellSt :=
  { (x.dropWork (k + 1)).slept k with
    looper := x.looper.afterReset false, tallies := [], testing := none, heldPass := 0, resetting := none }

/-- A port in low-power idle: its sequenced traffic has drained (R471). -/
def SkyPort.doze (x : SkyPort) : SkyPort :=
  match x.state with
  | .up => { x with state := .idleLp, back := .up, replay := [], owed := 0 }
  | .admitted => { x with state := .idleLp, back := .admitted, replay := [], owed := 0 }
  | .retrain => { x with state := .idleLp, replay := [], owed := 0 }
  | _ => x

/-- A message of the mesh or for a cell or foreman, lost as the core rails go off. -/
def coreMsg (m : Instr) : Bool :=
  (trailCell m).isSome || (trailFm m).isSome || (match m with
    | .flitArrive _ _ _ _ => true
    | .creditReturn _ _ _ => true
    | _ => false)

/-- Every cell, foreman and router asleep. Log 133 (DEDUCED). -/
def State.sleepCores (s : State) : State :=
  let k := s.freeCtr
  { s with
    freeCtr := k + eraSize
    nap := some k
    inFlight := s.inFlight.filter (fun m => !coreMsg m)
    cells := s.cells.map (fun (e : Nat × CellSt) => (e.1, e.2.sleep (k + 24 * e.1)))
    fms := s.fms.map (fun (e : Nat × FmSt) => (e.1, e.2.blockReset))
    routers := [], foreign := []
    rgns := s.rgns.map (fun (e : Nat × RgnSt) => (e.1, { e.2 with word := 0, hub := .reset, gated := [], run := 0, asking := false }))
    skys := s.skys.map (fun (e : Nat × SkyPort) => (e.1, e.2.doze))
    resets := []
    flt := { s.flt with waits := [], regions := [], reducer := false, host := [] } }

/-- A slot whose module goes to sleep: a job that has begun since is stopped, its stream program and schedule end. -/
def State.sleepSlot (s : State) (n : Nat) : State :=
  let s := if s.jobActive n then (s.cutCommit n).setJobState n 4 else s
  let s := s.modJob n (fun x => { x with armed := none, replay := none, repair := none })
  ((s.clearStream n).stopSched n).dropHold n

/-- CHRYSALIS_TARGET (R567). Log 133 (DEDUCED). -/
def execChrysalisTarget (s : State) : Host.Outcome State Fault Refusal :=
  .next (
    let s := s.deliver .chrysalisTarget
    if s.napState ≠ 1 then s
    else
      let s := (List.range 4).foldl State.closeWin s
      let s := s.abortLoad
      let s := (s.yard.allocs.filter (fun a => a.kind == .promote || a.kind == .demote || a.kind == .evict)).foldl State.abandonMove s
      let s := (List.range 8).foldl State.sleepSlot s
      let s := s.sleepCores
      let s := s.setPower { s.power with ballast := 0, exempt := true }
      let s := if s.regF Reg.modResetStatus 1 0 = 1 then s.setRegF Reg.modResetStatus 1 0 2 else s
      let s := if s.regF Reg.fltKatStatus 1 0 = 1 then s.setRegF Reg.fltKatStatus 1 0 0 else s
      ((s.setStage 7).setNap 2).flushLife)

/-- WAKE_COMPLETE: READY or DEGRADED again, the ports in their previous states (R471, R569). -/
def execWakeComplete (s : State) : Host.Outcome State Fault Refusal :=
  .next (
    if s.napState ≠ 3 then s
    else
      let s := { s with skys := s.skys.map (fun (e : Nat × SkyPort) =>
        (e.1, if e.2.state = PortState.idleLp then { e.2 with state := e.2.back } else e.2)) }
      (s.setNap 0).setStage (if s.boot.degraded ≠ 0 then 8 else 6))

end Sys2Proof.Machine
end

