-- ==== Sys2Proof/Machine/Tick.lean ====
section
/-! DEFINITION. A tick of the campus beat (R6): the counter and the calendar (R516, R521, R534), what falls due at the tick
(R466, R525 to R530, R567, R583, R591, R622, R626), the sensors (R326, R394, R560), and the seconds of the lifetime counters
(R649, R651). -/

namespace Sys2Proof.Machine

open Sys2Proof

/-- The state with a message put in flight unless it is there already: a moment that has come is told once.
Log 134 (DEDUCED). -/
def State.sendOnce (s : State) (m : Instr) : State := if s.inFlight.contains m then s else s.send m

/-- The counter at the tick: held, or one further with the forward step that is due (R516, R521). Log 79 (DEDUCED). -/
def State.advanceBeat (s : State) : State :=
  let b := s.beats
  if 0 < b.hold then s.setBeat { b with hold := b.hold - 1 }
  else (s.setBeat { b with jump := 0 }).setReg Reg.beatCounter (s.beat + BitVec.ofNat 64 (1 + b.jump))

/-- The tick given by its low 32 bits has been reached. -/
def State.reached (s : State) (o : Nat) : Bool := decide ((s.beat.toNat % 2 ^ 32 + 2 ^ 32 - o % 2 ^ 32) % 2 ^ 32 < 2 ^ 31)

/-- The counter's low 32 bits equal `o`. -/
def State.beatIs (s : State) (o : Nat) : Bool := s.beat.toNat % 2 ^ 32 == o

/-- The origins of starts and replays that the counter has reached (R583, R622). Log 134 (DEDUCED). -/
def State.originsDue (s : State) (n : Nat) : State :=
  let s := match (s.job n).armed with
    | some o => if o ≤ s.beat.toNat then s.sendOnce (.jobOrigin n) else s
    | none => s
  match (s.job n).replay with
  | some o => if s.jobState n = 5 ∧ s.reached o = true then s.sendOnce (.replayOrigin n) else s
  | none => s

/-- The occurrences of the tick, in ascending entry index; those past the 256th fire late (R527, R528).
Log 77 (DESIGN CHOICE), 134 (DEDUCED). -/
def State.fireDue (s : State) : State :=
  let before := s.regF Reg.beatEvents 31 0
  let s := s.beats.table.foldl (fun (s : State) (e : Nat × BeatEntry) =>
    let n := BeatEntry.slot e.2
    if (s.sched n).state = .running then s.fireEntry n e.1 e.2 else s) s
  let fired := (s.regF Reg.beatEvents 31 0 + 2 ^ 32 - before) % 2 ^ 32
  if 256 < fired then s.satReg Reg.beatEvents 47 32 (fired - 256) else s

/-- The slack decisions of a slot that are due at tick W − 1 (R530). Log 134 (DEDUCED). -/
def State.slackDue (s : State) (n : Nat) : State :=
  ((s.sched n).slacks.map (fun r => r.1)).foldl (fun s w =>
    if s.reached ((w + 2 ^ 32 - 1) % 2 ^ 32) then s.sendOnce (.shiftDecision n w) else s) s

/-- What the counter's new value brings about. Log 134 (DEDUCED). -/
def State.beatDue (s : State) : State :=
  let s := (List.range 8).foldl State.originsDue s
  let s := (List.range 8).foldl State.closeDue s.fireDue
  let s := (List.range 8).foldl State.slackDue s
  let s := if s.admitState = 1 ∧ s.beatIs (s.regF Reg.skyAdmit 63 32) = true then s.sendOnce .admitReqSend else s
  if s.napState = 1 ∧ s.beatIs (s.regF Reg.pwrChrysalis 31 0) = true then s.sendOnce .chrysalisTarget else s

/-! ## Seconds (R649, R651) -/

/-- The junction bin of a temperature (R651). Log 135 (DEDUCED). -/
def stressBin (t : Nat) : Nat :=
  if t < 60 then 0 else if t < 70 then 1 else if t < 80 then 2 else if t < 90 then 3 else if t < 95 then 4
  else if t < 105 then 5 else if t < 110 then 6 else 7

/-- The region's junction temperature: that of its hotter half. -/
def State.junctionOf (s : State) (r : Nat) : Nat := max (s.half (2 * r)).temp (s.half (2 * r + 1)).temp

/-- A powered second: power_on, the stress counters, and the latest time seen without a valid calendar.
Log 135 (DEDUCED), 154 (DEDUCED). -/
def State.second (s : State) : State :=
  let l := s.book.life
  let stress := (List.range 72).foldl (fun t r =>
    let k := r * 8 + stressBin (s.junctionOf r)
    Tbl.set 0 k (t.get 0 k + 1) t) l.stress
  let seen := if s.beats.cal.valid then s.book.seen else s.book.seen + 1
  s.setBook { s.book with life := { l with powerOn := l.powerOn + 1, stress := stress }, seen := seen }

/-- The time of a tick: the calendar advances by it, and so do the powered seconds while the input is on (R534, R649, R651).
Log 135 (DEDUCED), 154 (DEDUCED). -/
def State.passTime (s : State) : State :=
  let p := s.tickPeriod
  let s := s.setBeat { s.beats with cal := s.beats.cal.advance p }
  let t := if s.boot.input = 2 then s.book.ps + p else s.book.ps
  let s := s.setBook { s.book with ps := t % 1000000000000 }
  if 1000000000000 ≤ t then s.second else s

/-- A wing is above 75 °C, or below 35 °C, in the mean of its halves' junction temperatures. Log 135 (DEDUCED). -/
def State.wingSum (s : State) (w : Nat) : Nat :=
  (((List.range 72).filter (fun r => wingOf r == w)).map (fun r => (s.half (2 * r)).temp + (s.half (2 * r + 1)).temp)).sum

/-- One wing's warmth and thermal cycles after the tick's samples, from those before. -/
def State.wingCycle (s : State) (w : Nat) (warm : Bool) (n : Nat) : Bool × Nat :=
  let t := s.wingSum w
  if 72 * 75 < t then (true, n)
  else if t < 72 * 35 ∧ warm = true then (false, n + 1)
  else (warm, n)

/-- The thermal cycles of both wings (R651). -/
def State.thermalCycles (s : State) : State :=
  let b := s.book
  let x := s.wingCycle 0 b.warm.1 b.life.cycles.1
  let y := s.wingCycle 1 b.warm.2 b.life.cycles.2
  s.setBook { b with warm := (x.1, y.1), life := { b.life with cycles := (x.2, y.2) } }

/-- TICK. -/
def execTick (m : Samples) (s : State) : Host.Outcome State Fault Refusal :=
  .next (
    let held := decide (0 < s.beats.hold)
    let s := s.advanceBeat.passTime
    let s := if held then s else s.beatDue
    let s := (s.sampleStarves.sampleStacks m.stack).powerTick m.power m.junction
    s.thermalCycles.pollLoad.katPoll.retireTick.leaveTick)

end Sys2Proof.Machine
end

