-- ==== Sys2Proof/Machine/Registers.lean ====
section
/-! DEFINITION. What reads of the control space return (R7 to R13, R34 to R36): the live fields of the register tables, and the
held rest. -/

namespace Sys2Proof.Machine

open Sys2Proof

/-- The indices of an offset in a register array, from the outside in. -/
def dimsIndex : List (Nat × Nat) → Nat → List Nat
  | [], _ => []
  | (_, st) :: r, off => off / st :: dimsIndex r (off % st)

/-- A word made of fields' values. -/
def wordOf (fs : List Nat) : Word := BitVec.ofNat 64 fs.sum

/-- Live fields put over what the bank holds. -/
def withLive (fs : List (Nat × Nat × Nat)) (w : Word) : Word := fs.foldl (fun w f => setBits f.1 f.2.1 f.2.2 w) w

/-- The entry of a newest-first list that lies at ring index `i`, when `n` have been written to a ring of `size`. -/
def ringAt {α : Type} (l : List α) (n size i : Nat) : Option α :=
  if n ≤ size ∧ n ≤ i then none else l[(n + size - 1 - i) % size]?

/-- Eight bytes of a record that may be absent. -/
def wordAt (bs : Option Bytes) (w : Nat) : Word :=
  match bs with
  | some b => BitVec.ofNat 64 (leAt b (8 * w) 8)
  | none => 0

/-! ## Image loader, faults and jobs (R77 to R79, R604 to R606) -/

def Rect.word (r : Rect) : Nat := field 7 0 r.rowFirst + field 15 8 r.rowLast + field 23 16 r.colFirst + field 31 24 r.colLast

def State.imgPart (s : State) (n : Nat) : Word :=
  let x := s.slot n
  if x.state = .empty then 0 else wordOf [field 35 32 (slotCode x.state), x.rect.word]

/-- Log 105 (DEDUCED). -/
def State.logStatus (s : State) : Word :=
  withLive [(63, 32, s.flt.total), (11, 0, if s.flt.total = 0 then 0 else s.newestRecord)] (s.reg Reg.fltLogStatus)

/-- The fault record that FLT_LOG_SEL selects. Log 138 (DEDUCED). -/
def State.logRecord (s : State) : Option FaultRec := ringAt s.flt.log s.flt.total logSize (s.regF Reg.fltLogSel 11 0)

def State.watchStatus (s : State) : Word :=
  wordOf [field 63 48 s.flt.dropped, field 47 32 s.flt.marked, field 8 0 s.flt.watch.length]

def State.watchEntry (s : State) : Word :=
  match s.flt.watch[s.regF Reg.fltWatchSel 7 0]? with
  | some e => e.word
  | none => 0

/-- The step records written for a slot. -/
def SlotSt.stepCount (x : SlotSt) : Nat :=
  match x.records with
  | r :: _ => r.release
  | [] => 0

def State.stepAt (s : State) (n : Nat) : Option StepRec :=
  ringAt (s.slot n).records (s.slot n).stepCount 1024 (s.regF (Reg.fltStepSel n) 9 0)

def State.stepSel (s : State) (n : Nat) : Word :=
  let c := (s.slot n).stepCount
  withLive [(41, 32, if c = 0 then 0 else c - 1)] (s.reg (Reg.fltStepSel n))

def State.stepHi (s : State) (n : Nat) : Word :=
  match s.stepAt n with
  | some r => wordOf [field 63 32 r.release, field 31 0 r.step]
  | none => 0

def State.stepLo (s : State) (n : Nat) : Word :=
  match s.stepAt n with
  | some r => wordOf [field 63 32 r.summary.toNat, field 2 2 (ofBool r.fault), field 1 1 (ofBool r.replay), ofBool r.discarded]
  | none => 0

/-! ## Foremen and regions (R130, R297 to R299, R335, R632) -/

def ProgSt.code : ProgSt → Nat
  | .idle => 0
  | .running => 1
  | .waiting => 2
  | .halted => 3
  | .faulted => 4

def FmSt.progStatus (x : FmSt) : Word := wordOf [field 54 48 x.events.length, field 28 16 x.pc, x.prog.code]

/-- The state of a foreman's barrier hub (R299). -/
def HubSt.code (h : HubSt) : Nat := if h.failed then 3 else if h.closed then 2 else if h.entered.isEmpty then 0 else 1

/-- Bit 8 × row + column for each cell of the block that is a snag. -/
def State.snagMask (s : State) (f : FmId) : Word :=
  wordOf ((blockCells f).map (fun c => if (s.cell c).looper = .snag then 2 ^ posOf c else 0))

def portNo : Port → Nat
  | .north => 0
  | .east => 1
  | .south => 2
  | .west => 3
  | .loc => 4

def State.fabricStatus (s : State) (r : Nat) : Word :=
  let x := s.rgn r
  let held := !x.dead.isEmpty
  withLive [(34, 32, x.dead.length), (2, 2, ofBool x.detourNone),
    (1, 1, ofBool (held || bit 1 (s.reg (Reg.rgnFabricCtrl r)))), (0, 0, ofBool held)] (s.reg (Reg.rgnFabricStatus r))

def State.detourEntry (s : State) (r n : Nat) : Word :=
  match (s.rgn r).dead[n]? with
  | some (c, none) => wordOf [field 63 63 1, field 17 0 c]
  | some (c, some p) => wordOf [field 63 63 1, field 62 62 1, field 20 18 (portNo p), field 17 0 c]
  | none => 0

def State.starveWord (s : State) (r : Nat) : Word :=
  let x := s.rgn r
  withLive [(62, 62, ofBool x.asking), (61, 48, min x.run 16383)] (s.reg (Reg.rgnStarve r))

def State.spareWord (s : State) (r k : Nat) : Word := wordOf ((List.range 16).map (fun i => s.spareOf r (16 * k + i) * 16 ^ i))

/-! ## Yarder and memories (R383, R408 to R410) -/

def ObjState.code : ObjState → Nat
  | .free => 0
  | .resident => 1
  | .moving => 2
  | .pinned => 3
  | .evicting => 4

/-- The destination tier of an object that moves. -/
def State.destOf (s : State) (h : Nat) (o : Obj) : Nat :=
  if o.state = .moving ∨ o.state = .evicting then
    match s.yard.allocs.find? (fun a => a.handle == h) with
    | some a => a.dest
    | none => 0
  else 0

/-- Log 138 (DEDUCED). -/
def State.objInfo (s : State) : Word :=
  let h := s.regF Reg.yrdObjSel 23 0
  match s.obj h with
  | some o => wordOf [field 63 45 o.extents, field 44 37 o.pins, field 36 29 o.refs, field 28 26 o.owner, field 25 25 (ofBool o.shared),
      field 24 24 (ofBool o.damaged), field 23 22 o.tier, field 21 20 (s.destOf h o), o.state.code]
  | none => 0

def State.objStamp (s : State) : Word :=
  match s.obj (s.regF Reg.yrdObjSel 23 0) with
  | some o => o.stamp
  | none => 0

/-- The channels of stack `k` out of service, as a mask. -/
def State.deadMask (s : State) (k : Nat) : Nat :=
  ((List.range 32).map (fun i => if s.tiers.dead.contains (k * 32 + i) then 2 ^ i else 0)).sum

/-- Log 138 (DEDUCED). -/
def State.stackStatus (s : State) (k : Nat) : Word :=
  let t := s.stackTemp k
  let up := if s.tiers.total1 = 0 then 0 else 2 ^ 32 - 1 - s.deadMask k
  wordOf [field 42 42 (ofBool t.overtemp), field 41 41 (ofBool (t.limit2 || t.limit5)), field 40 40 (ofBool t.hot), field 39 32 t.temp,
    field 31 0 up]

def State.stackGeometry (s : State) : Word :=
  let l := s.tiers.live
  wordOf [field 41 32 l, field 31 0 (stripes l)]

def State.boardStatus (s : State) : Word :=
  let x := s.tiers
  wordOf [field 63 48 x.speed, field 47 38 ((x.dimms.map (fun d => d.2)).headD 0), field 33 32 x.board,
    (x.dimms.map (fun d => field 31 0 (2 ^ d.1))).sum]

def CxlState.code : CxlState → Nat
  | .off => 0
  | .training => 1
  | .active => 2
  | .down => 3
  | .unlicensed => 4

def CxlPort.word (x : CxlPort) : Word :=
  wordOf [field 52 48 x.width, field 47 40 x.rate, field 39 36 x.devices, field 35 32 x.unsupported, x.state.code]

/-- The first far pool extent of a port, and its extents in all. Log 138 (DEDUCED). -/
def State.cxlExtents (s : State) (p : Nat) : Word :=
  let own := s.tiers.far.filter (fun r => r.1 == p)
  wordOf [field 63 32 ((own.map (fun r => r.2.1)).headD 0), field 31 0 (own.map (fun r => r.2.2)).sum]

/-! ## Skidder and reducer (R334, R449) -/

def StreamState.code : StreamState → Nat
  | .idle => 0
  | .running => 1
  | .waitList => 2
  | .done => 3
  | .stopped => 4
  | .halted => 5

def State.deckHeld (s : State) (w : Nat) : Nat := ((List.range 8).map (fun n => (s.stream n).heldIn w)).sum

/-- The layer that RED_LAYER_SEL selects. -/
def State.selLayer (s : State) : Option LayerSt := s.layer (s.regF Reg.redLayerSel 14 12) (s.regF Reg.redLayerSel 11 0)

def State.layerInfo (s : State) : Word :=
  match s.selLayer with
  | some l => wordOf [field 63 32 l.version, field 31 16 l.received, field 3 2 l.verify, field 1 0 l.plan.role]
  | none => 0

def State.layerDigest (s : State) (hi : Bool) : Word :=
  match s.selLayer with
  | some l => BitVec.ofNat 64 (if hi then l.last1 else l.last2)
  | none => 0

/-- RED_SLOT_STATUS.state: rolled back last; at work; held; or held with its verdict given.
Log 66 (DESIGN CHOICE), 138 (DEDUCED). -/
def State.redState (s : State) (n : Nat) : Nat :=
  let x := s.red n
  if x.rolled then 4
  else if !s.jobRuns n then 0
  else if s.dHold n then (if x.own.isSome && x.waiting.isNone then 3 else 2)
  else 1

/-! ## Skyline, Ethernet, bulk port (R474, R507 to R509) -/

def State.skyStatus (s : State) (p : Nat) : Word :=
  let x := s.sky p
  withLive [(31, 16, x.lanes.toNat), (12, 8, x.active), (3, 0, x.state.code)] (s.reg (Reg.skyPortStatus p))

/-- Log 138 (DEDUCED). -/
def State.ethStatus (s : State) (q : Nat) : Word :=
  let x := s.ethPort q
  let k := fun (p : Nat) => ofBool (bit p x.paused)
  wordOf [field 7 7 (k (s.regF (Reg.ethPortCtrl q) 5 3)), field 6 6 (k (s.regF (Reg.ethPortCtrl q) 2 0)), field 3 3 (ofBool x.link),
    field 2 2 (ofBool x.link), (s.portMode q).code]

def WinState.code : WinState → Nat
  | .closed => 0
  | .opened => 1
  | .full => 2
  | .error => 3

def WinSt.word (x : WinSt) : Word :=
  if x.state = .closed then 0 else wordOf [field 63 32 x.rkey.toNat, field 31 27 x.owner, x.state.code]

/-! ## Beat and power (R538, R573) -/

def BeatState.code : BeatState → Nat
  | .unlocked => 0
  | .acquiring => 1
  | .locked => 2
  | .holdover => 3

def BeatSource.code : BeatSource → Nat
  | .none => 0
  | .fibre => 1
  | .ptp => 2

def SchedState.code : SchedState → Nat
  | .idle => 0
  | .armed => 1
  | .running => 2
  | .stopped => 3

def State.beatStatus (s : State) : Word :=
  let b := s.beats
  withLive [(63, 32, b.fibre.campus), (31, 16, b.freq), (9, 9, ofBool (decide (0 < b.hold))), (3, 2, b.active.code), (1, 0, b.state.code)]
    (s.reg Reg.beatStatus)

def State.beatSlotWord (s : State) (n : Nat) : Word :=
  let x := s.sched n
  wordOf [field 63 32 x.shift, field 31 16 (s.slotEntries n).length, x.state.code]

def State.inputWord (s : State) : Word :=
  let p := s.power
  wordOf [field 63 54 p.p, field 53 44 p.ceiling, field 43 34 p.hold, field 33 24 p.ramp]

def State.powerStatus (s : State) : Word :=
  let p := s.power
  withLive [(9, 9, ofBool p.parityLost), (8, 6, p.op), (5, 0, p.pace)] (s.reg Reg.pwrStatus)

def State.planWord (s : State) (n : Nat) : Word :=
  let x := s.plan n
  wordOf [field 43 34 x.hold, field 5 3 x.flags, field 2 0 x.op]

/-- Log 93 (DEDUCED). -/
def State.regionPower (s : State) (r : Nat) : Word :=
  let w := s.half (2 * r)
  let e := s.half (2 * r + 1)
  wordOf [field 63 56 w.temp, field 55 48 e.temp, field 47 32 (min 65535 (s.regionWatts r)), field 30 28 w.op, field 26 24 e.op,
    field 23 16 (s.opLimit (2 * r)).1, field 15 8 (s.opLimit (2 * r + 1)).1]

/-! ## Identity, boot and ranger (R629 to R631, R656 to R658) -/

def State.modStateWord (s : State) : Word :=
  let run := ((List.range 8).map (fun n => if s.jobState n = 1 then 2 ^ n else 0)).sum
  wordOf [field 39 32 s.boot.degraded.toNat, field 31 24 run, s.moduleState]

def State.hotplugWord (s : State) : Word :=
  let b := s.boot
  wordOf [field 7 7 (ofBool s.okToRemove), field 6 6 (ofBool b.mated), field 5 5 (ofBool b.present), b.input]

def State.rngStatusWord (s : State) : Word :=
  let r := s.rng
  let b := r.bank r.running
  wordOf [field 63 32 b.build, field 31 24 b.version, field 23 16 r.counter, field 8 8 r.running]

def State.bankWord (s : State) (k : Nat) : Word :=
  let b := s.rng.bank k
  wordOf [field 63 56 (ofBool (s.rng.bankValid b)), field 55 48 b.version, field 47 0 b.build]

def State.ownerWord (s : State) : Word :=
  wordOf (field 63 32 s.rng.owner.toNat :: (List.range 4).map (fun n => (s.rng.ownerAt n).state % 4 * 4 ^ n))

def State.licenceWord (s : State) : Word :=
  let st := if s.rng.licence.isNone then 0 else if s.rng.expired then 2 else 1
  wordOf [field 63 32 s.rng.issue, field 7 6 st, field 5 0 s.features]

def State.licenceExpiry (s : State) : Word :=
  match s.rng.licence with
  | some l => BitVec.ofNat 64 (licExpiry l)
  | none => 0

def State.cyclesWord (s : State) : Word :=
  let l := s.book.life
  wordOf [field 63 48 (min l.cycles.2 65535), field 47 32 (min l.cycles.1 65535), field 31 0 (min l.hotPlug (2 ^ 32 - 1))]

/-- The journal record that LOG_JOURNAL_SEL selects. -/
def State.journalAt (s : State) : Option JournalRec :=
  let i := s.regF Reg.logJournalSel 24 0
  if bit 25 (s.reg Reg.logJournalSel) then ringAt s.book.permanent s.book.permanents permanentSize i
  else ringAt s.book.general s.book.generals generalSize i

/-! ## The live registers -/

/-- A live register or array: where it lies, and its value at its indices. -/
structure LiveRow where
  base  : Nat
  dims  : List (Nat × Nat) := []
  value : State → List Nat → Word

def ix (l : List Nat) (k : Nat) : Nat := l.getD k 0

/-- The foreman that a register array's indices name. -/
def ixFm (l : List Nat) : FmId := ⟨ix l 0, ix l 1⟩

def liveLow : List LiveRow :=
  [ { base := Reg.modId, value := fun s _ => withLive [(31, 24, Config.stepping.toNat), (23, 16, Config.carrier.toNat)] (s.reg Reg.modId) },
    { base := Reg.modSerial, value := fun _ _ => Config.serial },
    { base := Reg.modBootStage, value := fun s _ => withLive [(3, 0, s.boot.stage)] (s.reg Reg.modBootStage) },
    { base := Reg.modState, value := fun s _ => s.modStateWord },
    { base := Reg.modHotplug, value := fun s _ => s.hotplugWord },
    { base := Reg.rngStatus, value := fun s _ => s.rngStatusWord },
    { base := Reg.rngMbox, value := fun s _ => withLive [(1, 0, if s.boot.stage = 0xF then 2 else 0)] (s.reg Reg.rngMbox) },
    { base := Reg.rngBank 0, dims := [(2, 8)], value := fun s l => s.bankWord (ix l 0) },
    { base := Reg.beatStatus, value := fun s _ => s.beatStatus },
    { base := Reg.beatPeriod, value := fun s _ => wordOf [field 63 32 s.beats.fibre.delay, field 31 0 s.tickPeriod] },
    { base := Reg.beatTimeSec, value := fun s _ => s.timeSec },
    { base := Reg.beatTimeNs, value := fun s _ => wordOf [field 29 0 s.beats.cal.latch] },
    { base := Reg.beatSlot 0, dims := [(8, 0x20)], value := fun s l => s.beatSlotWord (ix l 0) },
    { base := Reg.pwrCap, value := fun s _ => withLive [(41, 32, s.power.e)] (s.reg Reg.pwrCap) },
    { base := Reg.pwrInput, value := fun s _ => s.inputWord },
    { base := Reg.pwrFloor, value := fun s _ => wordOf [field 41 32 s.power.chrysalis, field 9 0 s.power.floor] },
    { base := Reg.pwrStatus, value := fun s _ => s.powerStatus },
    { base := Reg.pwrSlot 0, dims := [(8, 0x20)], value := fun s l => s.planWord (ix l 0) },
    { base := Reg.pwrRegion 0, dims := [(72, 8)], value := fun s l => s.regionPower (ix l 0) } ]

def liveMid : List LiveRow :=
  [ { base := Reg.yrdObjInfo, value := fun s _ => s.objInfo },
    { base := Reg.yrdObjStamp, value := fun s _ => s.objStamp },
    { base := Reg.yrdPool 1, dims := [(3, 8)], value := fun s l =>
        wordOf [field 63 32 (s.tiers.total (ix l 0 + 1)), field 31 0 (runsCount (s.tiers.free (ix l 0 + 1)))] },
    { base := Reg.yrdQuota 0 1, dims := [(8, 0x20), (3, 8)], value := fun s l =>
        withLive [(63, 32, s.useOf (ix l 0) (ix l 1 + 1))] (s.reg (Reg.yrdQuota (ix l 0) (ix l 1 + 1))) },
    { base := Reg.skdDeck, value := fun s _ => wordOf [field 63 32 (s.deckHeld 1), field 31 0 (s.deckHeld 0)] },
    { base := Reg.skdProg 0, dims := [(8, 0x20)], value := fun s l =>
        withLive [(47, 35, (s.stream (ix l 0)).pc), (34, 32, (s.stream (ix l 0)).state.code)] (s.reg (Reg.skdProg (ix l 0))) },
    { base := Reg.skdLists 0, dims := [(8, 0x20)], value := fun s l =>
        withLive [(63, 48, (s.stream (ix l 0)).lists.length)] (s.reg (Reg.skdLists (ix l 0))) },
    { base := Reg.redLayerInfo, value := fun s _ => s.layerInfo },
    { base := Reg.redDigestHi, value := fun s _ => s.layerDigest true },
    { base := Reg.redDigestLo, value := fun s _ => s.layerDigest false },
    { base := Reg.redSlotStatus 0, dims := [(8, 0x20)], value := fun s l =>
        withLive [(12, 8, (s.slot (ix l 0)).d), (3, 0, s.redState (ix l 0))] (s.reg (Reg.redSlotStatus (ix l 0))) },
    { base := Reg.stkStatus 0, dims := [(24, 0x400)], value := fun s l => s.stackStatus (ix l 0) },
    { base := Reg.stkMapout 0, dims := [(24, 0x400)], value := fun s l =>
        withLive [(63, 32, s.deadMask (ix l 0))] (s.reg (Reg.stkMapout (ix l 0))) },
    { base := Reg.stkGeometry 0, dims := [(24, 0x400)], value := fun s _ => s.stackGeometry },
    { base := Reg.brdStatus, value := fun s _ => s.boardStatus },
    { base := Reg.cxlPortStatus 0, dims := [(4, 0x40)], value := fun s l => (s.cxl (ix l 0)).word },
    { base := Reg.cxlPortExtents 0, dims := [(4, 0x40)], value := fun s l => s.cxlExtents (ix l 0) },
    { base := Reg.skyPortStatus 0, dims := [(16, 0x800)], value := fun s l => s.skyStatus (ix l 0) } ]

def liveHigh : List LiveRow :=
  [ { base := Reg.ethPortStatus 0, dims := [(2, 0x400)], value := fun s l => s.ethStatus (ix l 0) },
    { base := Reg.ethMac 0, dims := [(2, 0x400)], value := fun _ l => wordOf [field 47 0 (Config.mac (ix l 0)).toNat] },
    { base := Reg.ethKct, value := fun s _ => withLive [(20, 16, s.eth.sessions.length)] (s.reg Reg.ethKct) },
    { base := Reg.ethRoce, value := fun s _ => withLive [(31, 24, s.eth.qps.length)] (s.reg Reg.ethRoce) },
    { base := Reg.bulkStatus 0, dims := [(4, 0x40)], value := fun s l => (s.win (ix l 0)).word },
    { base := Reg.bulkProgress 0, dims := [(4, 0x40)], value := fun s l => wordOf [field 39 0 (s.win (ix l 0)).accepted] },
    { base := Reg.secIdPub 0, dims := [(4, 8)], value := fun _ l => wordAt (some (edPublic Config.identitySeed)) (ix l 0) },
    { base := Reg.secRelease, value := fun s _ => wordOf [field 15 8 s.rng.counter, field 3 0 s.rng.revoked.toNat] },
    { base := Reg.secOwner, value := fun s _ => s.ownerWord },
    { base := Reg.secOwnerPub 0 0, dims := [(4, 0x20), (4, 8)], value := fun s l =>
        if (s.rng.ownerAt (ix l 0)).state = 0 then 0 else wordAt (some (s.rng.ownerAt (ix l 0)).key) (ix l 1) },
    { base := Reg.secLicence, value := fun s _ => s.licenceWord },
    { base := Reg.secLicenceExpiry, value := fun s _ => s.licenceExpiry },
    { base := Reg.logStatus, value := fun s _ =>
        wordOf [field 63 40 (s.book.generals - 1), field 39 32 (Config.freeWord s.freeCtr).toNat] },
    { base := Reg.logPower, value := fun s _ => BitVec.ofNat 64 s.book.life.powerOn },
    { base := Reg.logEnergy, value := fun s _ => BitVec.ofNat 64 (s.book.life.energy / 1000) },
    { base := Reg.logCycles, value := fun s _ => s.cyclesWord },
    { base := Reg.logStress, value := fun s _ =>
        BitVec.ofNat 64 (s.book.life.stress.get 0 (s.regF Reg.logStressSel 9 3 * 8 + s.regF Reg.logStressSel 2 0)) },
    { base := Reg.logTimeSeen, value := fun s _ => BitVec.ofNat 64 s.book.seen },
    { base := Reg.logJournalData 0, dims := [(8, 8)], value := fun s l => wordAt (s.journalAt.map JournalRec.bytes) (ix l 0) },
    { base := Reg.imgStageBase, value := fun _ _ => BitVec.ofNat 64 stageBase },
    { base := Reg.imgPart 0, dims := [(8, 8)], value := fun s l => s.imgPart (ix l 0) },
    { base := Reg.fltLogStatus, value := fun s _ => s.logStatus },
    { base := Reg.fltLogData 0, dims := [(4, 8)], value := fun s l => wordAt (s.logRecord.map FaultRec.bytes) (ix l 0) },
    { base := Reg.fltWatchStatus, value := fun s _ => s.watchStatus },
    { base := Reg.fltWatchEntry, value := fun s _ => s.watchEntry },
    { base := Reg.fltStepSel 0, dims := [(8, 0x20)], value := fun s l => s.stepSel (ix l 0) },
    { base := Reg.fltStepHi 0, dims := [(8, 0x20)], value := fun s l => s.stepHi (ix l 0) },
    { base := Reg.fltStepLo 0, dims := [(8, 0x20)], value := fun s l => s.stepLo (ix l 0) } ]

def liveRegion : List LiveRow :=
  [ { base := Reg.rgnMap 0, dims := perRegion, value := fun s l => wordOf [field 29 0 (s.rgn (ix l 0)).map.toNat] },
    { base := Reg.rgnSpare 0 0, dims := perRegion ++ [(15, 8)], value := fun s l => s.spareWord (ix l 0) (ix l 1) },
    { base := Reg.rgnFabricStatus 0, dims := perRegion, value := fun s l => s.fabricStatus (ix l 0) },
    { base := Reg.rgnDetour 0 0, dims := perRegion ++ [(4, 8)], value := fun s l => s.detourEntry (ix l 0) (ix l 1) },
    { base := Reg.rgnStarve 0, dims := perRegion, value := fun s l => s.starveWord (ix l 0) },
    { base := fmOff 0, dims := perForeman ++ [(32, 8)], value := fun s l => (s.fm (ixFm l)).sregs[ix l 2]?.getD 0 },
    { base := fmOff 0x1C0, dims := perForeman, value := fun s l => (s.fm (ixFm l)).progStatus },
    { base := fmOff 0x180, dims := perForeman, value := fun s l =>
        withLive [(1, 0, (s.fm (ixFm l)).hub.code)] (s.reg (Reg.fmnBarrierStatus (ixFm l))) },
    { base := fmOff 0x190, dims := perForeman, value := fun s l => s.snagMask (ixFm l) } ]

def liveRows : List LiveRow := liveLow ++ liveMid ++ liveHigh ++ liveRegion

/-- What a read of the register at `a` returns; 0 where none lies (R9, R10). Log 39 (DESIGN CHOICE). -/
def State.readReg (s : State) (a : Nat) : Word :=
  match liveRows.find? (fun r => decide (r.base ≤ a) && dimsHit r.dims (a - r.base)) with
  | some r => r.value s (dimsIndex r.dims (a - r.base))
  | none => if (regRow a).isSome then s.reg a else 0

/-- A read's effect: the calendar's nanoseconds are latched (R535), a fault record counts as read (R606), and the wear that
LOG_STATUS shows is a new undefined value. Log 138 (DEDUCED). -/
def State.afterRead (s : State) (a : Nat) : State :=
  if a = Reg.beatTimeSec then s.latchTime
  else if a = Reg.logStatus then { s with freeCtr := s.freeCtr + 1 }
  else if Reg.fltLogData 0 ≤ a ∧ a ≤ Reg.fltLogData 3 then
    match s.logRecord with
    | some r => s.setFlt { s.flt with log := s.flt.log.map (fun x => if x = r then { x with read := true } else x) }
    | none => s
  else s

end Sys2Proof.Machine
end

