-- ==== Sys2Proof/Machine/Control.lean ====
section
/-! DEFINITION. Writes of the control space (R7 to R12, R34 to R36, R492), and the KCT operations that reach it (R482 to R492), over
Ethernet and by SEND on a queue pair (R480). -/

namespace Sys2Proof.Machine

open Sys2Proof

/-! ## What may be reached (R9, R36, R490, R492) -/

/-- The region die's foremen do not answer: unpowered, held in region reset, or in Chrysalis (R36). Log 137 (DEDUCED). -/
def State.fmSilent (s : State) (r : Nat) : Bool :=
  (s.rgn r).dark || (s.rgn r).held || s.boot.stage == 7 || decide (s.boot.stage ≤ 1)

/-- An access to the register at `a` completes with NOT_READY: a foreman's range (R36), or SKD_ in Chrysalis (R492).
Log 137 (DEDUCED). -/
def State.regSilent (s : State) (a : Nat) : Bool :=
  (match fmRange a with
   | some f => s.fmSilent f.region
   | none => false) ||
  (s.boot.stage == 7 && decide (0x0005_0000 ≤ a) && decide (a ≤ 0x0005_FFFF))

/-- A write that would start work (R492). Log 137 (DEDUCED). -/
def startsWork (a : Nat) (w : Word) : Bool :=
  (a == Reg.imgCtrl && bit 0 w) || a == Reg.yrdCmd || (a == Reg.modJobCtrl && bit 63 w) || (a == Reg.modReset && bit 63 w) ||
  (a == Reg.fltKatRun && bit 63 w) || ((List.range 8).any (fun n => a == Reg.fltJob n) && bit 8 w) ||
  (a == Reg.skyAdmit && bit 31 w) || ((List.range 72).any (fun r => a == Reg.rgnBreakerClear r) && bit 0 w) ||
  ((List.range 4).any (fun v => a == Reg.bulkCtrl v) && bit 0 w)

/-! ## Plain registers (R10, R12) -/

/-- RW and RWS fields take the value written, W1C fields are cleared by ones, and the rest stays. -/
def RegRow.write (r : RegRow) (old w : Word) : Word :=
  let m := BitVec.ofNat 64 (r.rw ||| r.rws)
  ((old &&& ~~~m) ||| (w &&& m)) &&& ~~~(w &&& BitVec.ofNat 64 r.w1c)

/-- A write of a register whose fields have no effect beyond what they hold; none lies at other addresses (R9). -/
def State.writePlain (s : State) (a : Nat) (w : Word) : State :=
  match regRow a with
  | some r => s.setReg a (r.write (s.reg a) w)
  | none => s

/-- The registers of counts with a clear bit [63]: all their counts go to zero. -/
def clearRows : List (Nat × List (Nat × Nat)) :=
  [ (Reg.fmnNumerics ⟨0, 0⟩, perForeman), (Reg.fmnFetchTally ⟨0, 0⟩, perForeman), (Reg.rgnNumerics 0, perRegion),
    (Reg.rgnKerfTally 0, perRegion), (Reg.rgnStarve 0, perRegion), (Reg.rgnDroop 0, perRegion), (Reg.yrdTally, []),
    (Reg.stkErrors 0, [(24, 0x400)]), (Reg.brdErrors, []), (Reg.cxlDcd 0, [(4, 0x40)]), (Reg.cxlErrors 0, [(4, 0x40)]),
    (Reg.skyLinkErrors 0, [(16, 0x800)]), (Reg.skyFec 0, [(16, 0x800)]), (Reg.skyHeld 0, [(16, 0x800)]),
    (Reg.redRounds 0, [(8, 0x20)]), (Reg.redLate 0, [(8, 0x20)]), (Reg.skdLate 0, [(8, 0x20)]), (Reg.ethDrops 0, [(2, 0x400)]),
    (Reg.bulkRejects 0, [(4, 0x40)]), (Reg.beatEvents, []), (Reg.beatSlackTally 0, [(8, 0x20)]) ]

def isClear (a : Nat) : Bool := clearRows.any (fun r => decide (r.1 ≤ a) && dimsHit r.2 (a - r.1))

/-! ## Registers whose writes act -/

/-- The index of an address in an array of `n` registers. -/
def indexIn (base stride n a : Nat) : Option Nat :=
  if base ≤ a ∧ (a - base) % stride = 0 ∧ (a - base) / stride < n then some ((a - base) / stride) else none

/-- A write's outcome with its KCT status. -/
abbrev Wrote := State × Nat

/-- Log 136 (DEDUCED). -/
def judged (r : State × Bool) : Wrote := (r.1, if r.2 then Kct.ok else Kct.rejected)

/-- A plain write that a condition forbids (R2). -/
def State.writeUnless (s : State) (no : Bool) (a : Nat) (w : Word) : Wrote :=
  if no then (s.reject, Kct.rejected) else (s.writePlain a w, Kct.ok)

/-- LOG_NEXT_TEST: a changed date is a journal record (R652, R654). Log 139 (DEDUCED). -/
def State.writeNextTest (s : State) (w : Word) : State :=
  let changed := bits 47 0 w != s.regF Reg.logNextTest 47 0
  let s := s.writePlain Reg.logNextTest w
  if changed then s.journal 0x0B [] else s

/-- RGN_FABRIC_CTRL: the fields are taken unless the clearing of the detour table is rejected (R296). -/
def State.writeFabric (s : State) (r : Nat) (w : Word) : Wrote :=
  let d := s.detourClear r w
  if d.2 then (d.1.writePlain (Reg.rgnFabricCtrl r) w, Kct.ok) else (d.1, Kct.rejected)

/-- The registers at fixed addresses whose writes act. -/
def State.writeFixed (s : State) (src : Src) (a : Nat) (w : Word) : Option Wrote :=
  if a = Reg.modCtrl then some (judged (s.writeModCtrl src w))
  else if a = Reg.modReset then some (judged (s.writeModReset w))
  else if a = Reg.modJobCtrl then some (judged (s.writeJobCtrl w))
  else if a = Reg.rngCtrl then some (judged (s.writeRngCtrl w))
  else if a = Reg.beatCtrl then some (judged (s.writeBeatCtrl w))
  else if a = Reg.beatTimeSec then some (s.writeTimeSec w, Kct.ok)
  else if a = Reg.beatTimeNs then some (s.writeTimeNs w, Kct.ok)
  else if a = Reg.beatSlack then some (judged (s.writeSlack w))
  else if a = Reg.pwrCap then some (judged (s.writeCap w))
  else if a = Reg.pwrRamp then some (judged (s.writeRamp w))
  else if a = Reg.pwrOpLimit then some ((s.writePlain a w).settleParity, Kct.ok)
  else if a = Reg.pwrChrysalis then some (judged (s.writeChrysalis w))
  else if a = Reg.yrdCmd then some (judged (s.yrdCommand w))
  else if a = Reg.skdCtrl then some (s.skdCtrl w, Kct.ok)
  else if a = Reg.redCtrl then some (s.writeRedCtrl w, Kct.ok)
  else if a = Reg.cxlCtrl then some (judged (s.rescan w))
  else if a = Reg.skyStand ∨ a = Reg.skyCoord then some (s.writeUnless (s.admitState == 1 || s.admitState == 2) a w)
  else if a = Reg.skyAdmit then some (judged (s.writeSkyAdmit w))
  else if a = Reg.logNextTest then some (s.writeNextTest w, Kct.ok)
  else if a = Reg.imgCtrl then some (judged (s.writeImgCtrl w))
  else if a = Reg.fltKatRun then some (judged (s.writeKatRun w))
  else if a = Reg.fltWatchSel then some (judged (s.writeWatchSel w))
  else none

/-- BULK_ADDR, BULK_LEN and BULK_STRIDE of a window (R495, R509). -/
def State.writeWindow (s : State) (v a : Nat) (w : Word) : Wrote := s.writeUnless ((s.win v).state != .closed) a w

/-- The register arrays whose writes act. -/
def State.writeArray (s : State) (src : Src) (a : Nat) (w : Word) : Option Wrote :=
  if let some n := indexIn (Reg.beatOrigin 0) 0x20 8 a then some (s.writeUnless (s.jobRuns n) a w)
  else if let some n := indexIn (Reg.redStep 0) 0x20 8 a then some (judged (s.writeRedStep n w))
  else if let some n := indexIn (Reg.fltJob 0) 0x20 8 a then some (judged (s.writeJob n w))
  else if let some k := indexIn (Reg.stkWrapCmd 0) 0x400 24 a then some (judged (s.wrapperWrite k w))
  else if let some p := indexIn (Reg.skyPortCtrl 0) 0x800 16 a then some (s.writeSkyCtrl p w, Kct.ok)
  else if (indexIn (Reg.ethPortCtrl 0) 0x400 2 a).isSome || (indexIn (Reg.ethPtp 0) 0x400 2 a).isSome then
    some ((s.writePlain a w).ptpSelect, Kct.ok)
  else if let some v := indexIn (Reg.bulkCtrl 0) 0x40 4 a then some (s.bulkCtrl (srcSession src) v w)
  else if let some v := indexIn (Reg.bulkAddr 0) 0x40 4 a then some (s.writeWindow v a w)
  else if let some v := indexIn (Reg.bulkLen 0) 0x40 4 a then some (s.writeWindow v a w)
  else if let some v := indexIn (Reg.bulkStride 0) 0x40 4 a then some (s.writeWindow v a w)
  else if let some r := indexIn (Reg.rgnFabricCtrl 0) 0x1_0000 72 a then some (s.writeFabric r w)
  else if let some r := indexIn (Reg.rgnBreakerClear 0) 0x1_0000 72 a then some (judged (s.clearBreaker r w))
  else none

/-- What a write that is let through does. -/
def State.writeAt (s : State) (src : Src) (a : Nat) (w : Word) : Wrote :=
  match s.writeFixed src a w with
  | some r => r
  | none => match s.writeArray src a w with
    | some r => r
    | none => if isClear a then (if bit 63 w then s.setReg a 0 else s, Kct.ok) else (s.writePlain a w, Kct.ok)

/-! ## The record of a rejected operation (R2, R506) -/

/-- The last notice of 0x4071 takes the session and the address of the operation: unit and detail. -/
def tagReject (sess a : Nat) : List Instr → List Instr
  | [] => []
  | m :: r =>
    if r.any (fun x => match x with
      | .faultNotice n => n.code == 0x4071
      | _ => false) then m :: tagReject sess a r
    else match m with
      | .faultNotice n => if n.code = 0x4071 then .faultNotice { n with unit := sess, detail := a % 2 ^ 32 } :: r else m :: r
      | _ => m :: r

def State.tagged (s : State) (sess a : Nat) : State := { s with inFlight := tagReject sess a s.inFlight }

/-- A write of the register at `a` by `src` (R7, R9, R36, R492): the state and the KCT status. -/
def State.writeReg (s : State) (src : Src) (a : Nat) (w : Word) : Wrote :=
  if a % 8 ≠ 0 ∨ inBlock a = false then (s, Kct.badAddress)
  else if s.regSilent a then (s, Kct.notReady)
  else
    let r : Wrote := if s.boot.stage = 7 ∧ startsWork a w = true then (s.reject, Kct.rejected) else s.writeAt src a w
    if r.2 = Kct.rejected then (r.1.tagged (srcSession src) a, r.2) else r

/-- A register write as the control-space arbiter passes it on (R8). Log 136 (DEDUCED), 139 (DEDUCED). -/
def State.hostWrite (s : State) (src : Src) (a : Nat) (w : Word) : State := (s.writeReg src a w).1

/-! ## READ and WRITE (R485, R490) -/

/-- One register read by KCT: its value, or the status that it fails with. -/
def State.kctReg (s : State) (q a : Nat) : Except Nat (Word × State) :=
  if a % 8 ≠ 0 ∨ inBlock a = false then .error Kct.badAddress
  else if s.portMode q ≠ .full ∧ s.boot.stage ≠ 7 ∧ 0xFFFF < a then .error Kct.notReady
  else if s.regSilent a then .error Kct.notReady
  else .ok (s.readReg a, s.afterRead a)

/-- `n` consecutive registers read in ascending order: the state, the values and the status at the first that fails. -/
def State.kctReadRegs (s : State) (q : Nat) : Nat → Nat → State × List Word × Nat
  | 0, _ => (s, [], Kct.ok)
  | n + 1, a =>
    match s.kctReg q a with
    | .error e => (s, [], e)
    | .ok (v, t) =>
      let r := t.kctReadRegs q n (a + 8)
      (r.1, v :: r.2.1, r.2.2)

/-- Registers written in ascending order: the state, how many completed and the status. -/
def State.kctWriteRegs (s : State) (src : Src) : List Word → Nat → State × Nat × Nat
  | [], _ => (s, 0, Kct.ok)
  | w :: ws, a =>
    let r := s.writeReg src a w
    if r.2 ≠ Kct.ok then (r.1, 0, r.2)
    else
      let t := r.1.kctWriteRegs src ws (a + 8)
      (t.1, t.2.1 + 1, t.2.2)

/-- The answer of a READ or WRITE that stopped with `status` after `n` registers; one that NOT_READY refuses whole is not executed. -/
def State.answerRegs (s : State) (qp : Option Nat) (f : KctFrame) (status n : Nat) (payload : Bytes) : State :=
  if status = Kct.notReady ∧ n = 0 then s.answerNotReady qp f
  else if status = Kct.notReady then
    let t := s.retryTime
    t.2.finish qp f ⟨status, t.1, n, payload⟩
  else s.finish qp f ⟨status, f.address.toNat, n, payload⟩

/-- READ. Log 136 (DEDUCED). -/
def State.kctRead (s : State) (qp : Option Nat) (f : KctFrame) : State :=
  let n := f.count.toNat
  if n = 0 ∨ 64 < n ∨ !f.payload.isEmpty then s.answer qp f (replyOf Kct.badFrame)
  else
    let r := s.kctReadRegs f.port n f.address.toNat
    r.1.answerRegs qp f r.2.2 r.2.1.length (r.2.1.flatMap (fun w => toLE 8 w.toNat))

/-- WRITE. Log 136 (DEDUCED). -/
def State.kctWrite (s : State) (qp : Option Nat) (f : KctFrame) : State :=
  let n := f.count.toNat
  if n = 0 ∨ 64 < n ∨ f.payload.length ≠ 8 * n then s.answer qp f (replyOf Kct.badFrame)
  else
    let ws := (List.range n).map (fun k => BitVec.ofNat 64 (leAt f.payload (8 * k) 8))
    let r := s.kctWriteRegs (.kct f.session.toNat) ws f.address.toNat
    r.1.answerRegs qp f r.2.2 r.2.1 []

/-- A request behind its front end. -/
def State.kctRun (s : State) (qp : Option Nat) (f : KctFrame) : State :=
  match f.op.toNat with
  | 0x01 => s.kctOpen qp f
  | 0x02 => s.kctClose qp f
  | 0x10 => s.kctRead qp f
  | 0x11 => s.kctWrite qp f
  | 0x20 => s.mailboxRun qp f
  | 0x30 => s.bulkData qp f false
  | 0x31 => s.bulkRead qp f []
  | _ => s

/-- A KCT request: the front end, then its operation. -/
def State.kct (s : State) (qp : Option Nat) (f : KctFrame) : State :=
  match s.kctFront qp f with
  | .done s => s
  | .run s => s.kctRun qp f

/-- A row's frame: one of the row's operation, or of an unknown one, which is answered with BAD_FRAME (R484). -/
def ofOp (f : KctFrame) (op : Byte) : Bool := f.op == op || !kctOps.contains f.op

/-- KCT_OPEN (R487). -/
def execKctOpen (f : KctFrame) (s : State) : Host.Outcome State Fault Refusal := .next (if ofOp f 0x01 then s.kct none f else s)

/-- KCT_CLOSE (R487). -/
def execKctClose (f : KctFrame) (s : State) : Host.Outcome State Fault Refusal := .next (if ofOp f 0x02 then s.kct none f else s)

/-- KCT_READ (R485). -/
def execKctRead (f : KctFrame) (s : State) : Host.Outcome State Fault Refusal := .next (if ofOp f 0x10 then s.kct none f else s)

/-- KCT_WRITE (R485). -/
def execKctWrite (f : KctFrame) (s : State) : Host.Outcome State Fault Refusal := .next (if ofOp f 0x11 then s.kct none f else s)

/-- RDMA_SEND: one KCT request, answered by a SEND on the same queue pair (R480). -/
def execRdmaSend (k : Nat) (f : KctFrame) (s : State) : Host.Outcome State Fault Refusal :=
  .next (s.onQp k (fun s q => s.kct (some k) { f with port := q.port }))

end Sys2Proof.Machine
end

