-- ==== Sys2Proof/Machine/HostWrites.lean ====
section
/-! DEFINITION. The register writes that are commands of their own: each is a write of its register through the control-space
arbiter (R8, R10). -/

namespace Sys2Proof.Machine

open Sys2Proof

/-- REGISTER_WRITE (R10). Log 139 (DEDUCED). -/
def execRegisterWrite (src : Src) (addr : Nat) (value : Word) (s : State) : Host.Outcome State Fault Refusal :=
  .next (s.hostWrite src addr value)

/-- ADMIT_GO (R466). -/
def execAdmitGo (src : Src) (value : Word) (s : State) : Host.Outcome State Fault Refusal :=
  .next (s.hostWrite src Reg.skyAdmit value)

/-- ADMIT_LEAVE (R470). -/
def execAdmitLeave (src : Src) (value : Word) (s : State) : Host.Outcome State Fault Refusal :=
  .next (s.hostWrite src Reg.skyAdmit value)

/-- BEAT_SLACK_SEND (R531). -/
def execBeatSlackSend (src : Src) (value : Word) (s : State) : Host.Outcome State Fault Refusal :=
  .next (s.hostWrite src Reg.beatSlack value)

/-- MODULE_RESET (R611). Log 132 (DEDUCED). -/
def execModuleReset (src : Src) (value : Word) (s : State) : Host.Outcome State Fault Refusal :=
  .next (s.hostWrite src Reg.modCtrl value)

/-- RETIRE (R626). -/
def execRetire (src : Src) (value : Word) (s : State) : Host.Outcome State Fault Refusal :=
  .next (s.hostWrite src Reg.modCtrl value)

/-- POWER_OFF (R626). -/
def execPowerOff (src : Src) (value : Word) (s : State) : Host.Outcome State Fault Refusal :=
  .next (s.hostWrite src Reg.modCtrl value)

/-- POWER_ON (R626). -/
def execPowerOn (src : Src) (value : Word) (s : State) : Host.Outcome State Fault Refusal :=
  .next (s.hostWrite src Reg.modCtrl value)

/-- RANGER_RESTART (R646). -/
def execRangerRestart (src : Src) (value : Word) (s : State) : Host.Outcome State Fault Refusal :=
  .next (s.hostWrite src Reg.rngCtrl value)

/-- CHRYSALIS_ENTER (R567). -/
def execChrysalisEnter (src : Src) (value : Word) (s : State) : Host.Outcome State Fault Refusal :=
  .next (s.hostWrite src Reg.pwrChrysalis value)

/-- CHRYSALIS_WAKE (R569). -/
def execChrysalisWake (src : Src) (value : Word) (s : State) : Host.Outcome State Fault Refusal :=
  .next (s.hostWrite src Reg.pwrChrysalis value)

/-- BULK_OPEN (R494). -/
def execBulkOpen (src : Src) (window : Nat) (value : Word) (s : State) : Host.Outcome State Fault Refusal :=
  .next (if bit 0 value && !bit 1 value then s.hostWrite src (Reg.bulkCtrl window) value else s)

/-- BULK_CLOSE (R33, R502). -/
def execBulkClose (src : Src) (window : Nat) (value : Word) (s : State) : Host.Outcome State Fault Refusal :=
  .next (if bit 1 value then s.hostWrite src (Reg.bulkCtrl window) value else s)

/-- DETOUR_CLEAR (R296). -/
def execDetourClear (src : Src) (region : Nat) (value : Word) (s : State) : Host.Outcome State Fault Refusal :=
  .next (s.hostWrite src (Reg.rgnFabricCtrl region) value)

/-- JOB_START (R622). -/
def execJobStart (src : Src) (value : Word) (s : State) : Host.Outcome State Fault Refusal :=
  .next (s.hostWrite src Reg.modJobCtrl value)

/-- JOB_DRAIN (R623). -/
def execJobDrain (src : Src) (value : Word) (s : State) : Host.Outcome State Fault Refusal :=
  .next (s.hostWrite src Reg.modJobCtrl value)

/-- SLOT_ROLLBACK (R448). -/
def execSlotRollback (src : Src) (value : Word) (s : State) : Host.Outcome State Fault Refusal :=
  .next (s.hostWrite src Reg.redCtrl value)

/-- JOB_RESTART (R584). -/
def execJobRestart (src : Src) (slot : Nat) (value : Word) (s : State) : Host.Outcome State Fault Refusal :=
  .next (s.hostWrite src (Reg.fltJob slot) value)

/-- KAT_RUN (R592). -/
def execKatRun (src : Src) (value : Word) (s : State) : Host.Outcome State Fault Refusal :=
  .next (s.hostWrite src Reg.fltKatRun value)

/-- WATCH_REMOVE (R593). -/
def execWatchRemove (src : Src) (value : Word) (s : State) : Host.Outcome State Fault Refusal :=
  .next (s.hostWrite src Reg.fltWatchSel value)

/-- IMG_START (R63). -/
def execImgStart (src : Src) (value : Word) (s : State) : Host.Outcome State Fault Refusal :=
  .next (s.hostWrite src Reg.imgCtrl value)

/-- IMG_ABORT (R69). -/
def execImgAbort (src : Src) (value : Word) (s : State) : Host.Outcome State Fault Refusal :=
  .next (s.hostWrite src Reg.imgCtrl value)

/-- PWR_CAP_WRITE (R547). -/
def execPwrCapWrite (src : Src) (value : Word) (s : State) : Host.Outcome State Fault Refusal :=
  .next (s.hostWrite src Reg.pwrCap value)

/-- PWR_RAMP_WRITE (R548). -/
def execPwrRampWrite (src : Src) (value : Word) (s : State) : Host.Outcome State Fault Refusal :=
  .next (s.hostWrite src Reg.pwrRamp value)

/-- BREAKER_CLEAR (R543). -/
def execBreakerClear (src : Src) (region : Nat) (value : Word) (s : State) : Host.Outcome State Fault Refusal :=
  .next (s.hostWrite src (Reg.rgnBreakerClear region) value)

/-- RED_STEP_WRITE (R599). -/
def execRedStepWrite (src : Src) (slot : Nat) (value : Word) (s : State) : Host.Outcome State Fault Refusal :=
  .next (s.hostWrite src (Reg.redStep slot) value)

/-- MOD_RESET_GO (R616). -/
def execModResetGo (src : Src) (value : Word) (s : State) : Host.Outcome State Fault Refusal :=
  .next (s.hostWrite src Reg.modReset value)

/-- SKIDDER_STOP (R331). -/
def execSkidderStop (src : Src) (value : Word) (s : State) : Host.Outcome State Fault Refusal :=
  .next (s.hostWrite src Reg.skdCtrl value)

/-- SKY_RETRAIN_COMMAND (R474). -/
def execSkyRetrainCommand (src : Src) (port : Nat) (value : Word) (s : State) : Host.Outcome State Fault Refusal :=
  .next (if port < 16 then s.hostWrite src (Reg.skyPortCtrl port) value else s)

/-- WRAPPER_GO (R395). -/
def execWrapperGo (src : Src) (stack : Nat) (value : Word) (s : State) : Host.Outcome State Fault Refusal :=
  .next (s.hostWrite src (Reg.stkWrapCmd stack) value)

/-- CXL_RESCAN (R406). -/
def execCxlRescan (src : Src) (value : Word) (s : State) : Host.Outcome State Fault Refusal :=
  .next (s.hostWrite src Reg.cxlCtrl value)

/-- A write of YRD_CMD with operation code `op` (R380). -/
def State.yardWrite (s : State) (src : Src) (op : Nat) (value : Word) : State :=
  if bits 63 60 value = op then s.hostWrite src Reg.yrdCmd value else s

/-- CREATE (R352). -/
def execCreate (src : Src) (value : Word) (s : State) : Host.Outcome State Fault Refusal :=
  .next (s.yardWrite src 1 value)

/-- DESTROY (R352). -/
def execDestroy (src : Src) (value : Word) (s : State) : Host.Outcome State Fault Refusal :=
  .next (s.yardWrite src 2 value)

/-- PROMOTE (R352). -/
def execPromote (src : Src) (value : Word) (s : State) : Host.Outcome State Fault Refusal :=
  .next (s.yardWrite src 3 value)

/-- DEMOTE (R352). -/
def execDemote (src : Src) (value : Word) (s : State) : Host.Outcome State Fault Refusal :=
  .next (s.yardWrite src 4 value)

/-- PIN (R351). -/
def execPin (src : Src) (value : Word) (s : State) : Host.Outcome State Fault Refusal :=
  .next (s.yardWrite src 5 value)

/-- UNPIN (R351). -/
def execUnpin (src : Src) (value : Word) (s : State) : Host.Outcome State Fault Refusal :=
  .next (s.yardWrite src 6 value)

end Sys2Proof.Machine
end

