-- ==== Sys2Proof/Machine/Dispatch.lean ====
section
/-! DEFINITION. The dispatch of a command to its meaning, one arm per constructor. -/

namespace Sys2Proof.Machine

open Sys2Proof

def exec (i : Instr) (s : State) : Host.Outcome State Fault Refusal :=
  match i with
  | .registerWrite a1 a2 a3 => Sys2Proof.Machine.execRegisterWrite a1 a2 a3 s
  | .kctOpen a1 => Sys2Proof.Machine.execKctOpen a1 s
  | .kctClose a1 => Sys2Proof.Machine.execKctClose a1 s
  | .kctRead a1 => Sys2Proof.Machine.execKctRead a1 s
  | .kctWrite a1 => Sys2Proof.Machine.execKctWrite a1 s
  | .sessionIdleTimeout a1 => Sys2Proof.Machine.execSessionIdleTimeout a1 s
  | .getCert a1 => Sys2Proof.Machine.execGetCert a1 s
  | .attest a1 => Sys2Proof.Machine.execAttest a1 s
  | .fwStage a1 => Sys2Proof.Machine.execFwStage a1 s
  | .fwStageTimeout => Sys2Proof.Machine.execFwStageTimeout s
  | .fwActivate a1 => Sys2Proof.Machine.execFwActivate a1 s
  | .ownerSet a1 => Sys2Proof.Machine.execOwnerSet a1 s
  | .ownerRevoke a1 => Sys2Proof.Machine.execOwnerRevoke a1 s
  | .ownerRelease a1 => Sys2Proof.Machine.execOwnerRelease a1 s
  | .licenceInstall a1 => Sys2Proof.Machine.execLicenceInstall a1 s
  | .licenceGet a1 => Sys2Proof.Machine.execLicenceGet a1 s
  | .revokeRelease a1 => Sys2Proof.Machine.execRevokeRelease a1 s
  | .bulkData a1 a2 => Sys2Proof.Machine.execBulkData a1 a2 s
  | .bulkAckTimer a1 => Sys2Proof.Machine.execBulkAckTimer a1 s
  | .bulkRead a1 a2 => Sys2Proof.Machine.execBulkRead a1 a2 s
  | .bulkOpen a1 a2 a3 => Sys2Proof.Machine.execBulkOpen a1 a2 a3 s
  | .bulkClose a1 a2 a3 => Sys2Proof.Machine.execBulkClose a1 a2 a3 s
  | .roceConnect a1 a2 => Sys2Proof.Machine.execRoceConnect a1 a2 s
  | .rdmaSend a1 a2 => Sys2Proof.Machine.execRdmaSend a1 a2 s
  | .rdmaWrite a1 a2 a3 a4 a5 a6 => Sys2Proof.Machine.execRdmaWrite a1 a2 a3 a4 a5 a6 s
  | .rdmaRead a1 a2 a3 a4 a5 => Sys2Proof.Machine.execRdmaRead a1 a2 a3 a4 a5 s
  | .ecnCeReceived a1 a2 => Sys2Proof.Machine.execEcnCeReceived a1 a2 s
  | .cnpReceived a1 => Sys2Proof.Machine.execCnpReceived a1 s
  | .rateIncreaseTimer a1 => Sys2Proof.Machine.execRateIncreaseTimer a1 s
  | .pauseReceived a1 a2 a3 a4 => Sys2Proof.Machine.execPauseReceived a1 a2 a3 a4 s
  | .lldpTransmitTimer => Sys2Proof.Machine.execLldpTransmitTimer s
  | .lldpReceived a1 a2 a3 => Sys2Proof.Machine.execLldpReceived a1 a2 a3 s
  | .neighborRequest a1 a2 a3 a4 => Sys2Proof.Machine.execNeighborRequest a1 a2 a3 a4 s
  | .ptpEventMessage a1 a2 a3 a4 => Sys2Proof.Machine.execPtpEventMessage a1 a2 a3 a4 s
  | .ptpAnnounce a1 a2 => Sys2Proof.Machine.execPtpAnnounce a1 a2 s
  | .announceReceiptTimeout a1 => Sys2Proof.Machine.execAnnounceReceiptTimeout a1 s
  | .ptpSync a1 a2 a3 a4 a5 => Sys2Proof.Machine.execPtpSync a1 a2 a3 a4 a5 s
  | .ethLinkDown a1 => Sys2Proof.Machine.execEthLinkDown a1 s
  | .ethLinkUp a1 => Sys2Proof.Machine.execEthLinkUp a1 s
  | .imgStart a1 a2 => Sys2Proof.Machine.execImgStart a1 a2 s
  | .imgAbort a1 a2 => Sys2Proof.Machine.execImgAbort a1 a2 s
  | .loadVerifyDone => Sys2Proof.Machine.execLoadVerifyDone s
  | .loadOpenRetry => Sys2Proof.Machine.execLoadOpenRetry s
  | .loadBroadcastDone => Sys2Proof.Machine.execLoadBroadcastDone s
  | .repairRound => Sys2Proof.Machine.execRepairRound s
  | .missReportWindowEnd => Sys2Proof.Machine.execMissReportWindowEnd s
  | .chunkLead a1 a2 a3 => Sys2Proof.Machine.execChunkLead a1 a2 a3 s
  | .chunkData a1 a2 => Sys2Proof.Machine.execChunkData a1 a2 s
  | .loadOpen a1 => Sys2Proof.Machine.execLoadOpen a1 s
  | .loadCheck => Sys2Proof.Machine.execLoadCheck s
  | .loadConfigure => Sys2Proof.Machine.execLoadConfigure s
  | .miss a1 a2 => Sys2Proof.Machine.execMiss a1 a2 s
  | .stepNop a1 a2 => Sys2Proof.Machine.execStepNop a1 a2 s
  | .stepMatrix a1 a2 => Sys2Proof.Machine.execStepMatrix a1 a2 s
  | .stepVector a1 a2 => Sys2Proof.Machine.execStepVector a1 a2 s
  | .stepLoad a1 a2 => Sys2Proof.Machine.execStepLoad a1 a2 s
  | .stepStore a1 a2 => Sys2Proof.Machine.execStepStore a1 a2 s
  | .stepExchange a1 a2 => Sys2Proof.Machine.execStepExchange a1 a2 s
  | .gateWait a1 a2 => Sys2Proof.Machine.execGateWait a1 a2 s
  | .gateBarrierEnter a1 a2 => Sys2Proof.Machine.execGateBarrierEnter a1 a2 s
  | .gateSignal a1 a2 => Sys2Proof.Machine.execGateSignal a1 a2 s
  | .stepScalar a1 a2 => Sys2Proof.Machine.execStepScalar a1 a2 s
  | .stepEnd a1 a2 => Sys2Proof.Machine.execStepEnd a1 a2 s
  | .stepComplete a1 a2 a3 => Sys2Proof.Machine.execStepComplete a1 a2 a3 s
  | .gateTimeout a1 => Sys2Proof.Machine.execGateTimeout a1 s
  | .fmnNop a1 => Sys2Proof.Machine.execFmnNop a1 s
  | .fmnLdi a1 => Sys2Proof.Machine.execFmnLdi a1 s
  | .fmnLdhi a1 => Sys2Proof.Machine.execFmnLdhi a1 s
  | .fmnAdd a1 => Sys2Proof.Machine.execFmnAdd a1 s
  | .fmnSub a1 => Sys2Proof.Machine.execFmnSub a1 s
  | .fmnAddi a1 => Sys2Proof.Machine.execFmnAddi a1 s
  | .fmnAnd a1 => Sys2Proof.Machine.execFmnAnd a1 s
  | .fmnOr a1 => Sys2Proof.Machine.execFmnOr a1 s
  | .fmnXor a1 => Sys2Proof.Machine.execFmnXor a1 s
  | .fmnShl a1 => Sys2Proof.Machine.execFmnShl a1 s
  | .fmnShr a1 => Sys2Proof.Machine.execFmnShr a1 s
  | .fmnCmplt a1 => Sys2Proof.Machine.execFmnCmplt a1 s
  | .fmnCmpeq a1 => Sys2Proof.Machine.execFmnCmpeq a1 s
  | .fmnFadd a1 => Sys2Proof.Machine.execFmnFadd a1 s
  | .fmnFmul a1 => Sys2Proof.Machine.execFmnFmul a1 s
  | .fmnJmp a1 => Sys2Proof.Machine.execFmnJmp a1 s
  | .fmnBz a1 => Sys2Proof.Machine.execFmnBz a1 s
  | .fmnBnz a1 => Sys2Proof.Machine.execFmnBnz a1 s
  | .fmnHalt a1 => Sys2Proof.Machine.execFmnHalt a1 s
  | .fmnRdstep a1 => Sys2Proof.Machine.execFmnRdstep a1 s
  | .fmnRdcurve a1 => Sys2Proof.Machine.execFmnRdcurve a1 s
  | .fmnStart a1 => Sys2Proof.Machine.execFmnStart a1 s
  | .fmnStop a1 => Sys2Proof.Machine.execFmnStop a1 s
  | .fmnLatch a1 => Sys2Proof.Machine.execFmnLatch a1 s
  | .fmnWaitev a1 => Sys2Proof.Machine.execFmnWaitev a1 s
  | .fmnWaitdone a1 => Sys2Proof.Machine.execFmnWaitdone a1 s
  | .buildBegin a1 => Sys2Proof.Machine.execBuildBegin a1 s
  | .score a1 => Sys2Proof.Machine.execScore a1 s
  | .buildEnd a1 => Sys2Proof.Machine.execBuildEnd a1 s
  | .fmnCurve a1 => Sys2Proof.Machine.execFmnCurve a1 s
  | .scoreTimeout a1 => Sys2Proof.Machine.execScoreTimeout a1 s
  | .reset a1 a2 a3 => Sys2Proof.Machine.execReset a1 a2 a3 s
  | .fence a1 => Sys2Proof.Machine.execFence a1 s
  | .barrierEnter a1 a2 a3 => Sys2Proof.Machine.execBarrierEnter a1 a2 a3 s
  | .barrierRelease a1 a2 => Sys2Proof.Machine.execBarrierRelease a1 a2 s
  | .barrierTimerExpiry a1 a2 => Sys2Proof.Machine.execBarrierTimerExpiry a1 a2 s
  | .barrierProbe a1 a2 => Sys2Proof.Machine.execBarrierProbe a1 a2 s
  | .probeAnswerTimeout a1 a2 => Sys2Proof.Machine.execProbeAnswerTimeout a1 a2 s
  | .barrierFail a1 => Sys2Proof.Machine.execBarrierFail a1 s
  | .windowFlag a1 a2 a3 => Sys2Proof.Machine.execWindowFlag a1 a2 a3 s
  | .faultNotice a1 => Sys2Proof.Machine.execFaultNotice a1 s
  | .numericsNotice a1 a2 => Sys2Proof.Machine.execNumericsNotice a1 a2 s
  | .absorbed a1 a2 a3 => Sys2Proof.Machine.execAbsorbed a1 a2 a3 s
  | .complete a1 => Sys2Proof.Machine.execComplete a1 s
  | .looperStart a1 a2 => Sys2Proof.Machine.execLooperStart a1 a2 s
  | .looperStop a1 a2 => Sys2Proof.Machine.execLooperStop a1 a2 s
  | .scalarWrite a1 a2 a3 => Sys2Proof.Machine.execScalarWrite a1 a2 a3 s
  | .grant a1 a2 => Sys2Proof.Machine.execGrant a1 a2 s
  | .countReturn a1 a2 a3 => Sys2Proof.Machine.execCountReturn a1 a2 a3 s
  | .tallyRead a1 a2 => Sys2Proof.Machine.execTallyRead a1 a2 s
  | .tallyReply a1 a2 a3 => Sys2Proof.Machine.execTallyReply a1 a2 a3 s
  | .tallyClear a1 => Sys2Proof.Machine.execTallyClear a1 s
  | .fetchList a1 a2 => Sys2Proof.Machine.execFetchList a1 a2 s
  | .flitArrive a1 a2 a3 a4 => Sys2Proof.Machine.execFlitArrive a1 a2 a3 a4 s
  | .creditReturn a1 a2 a3 => Sys2Proof.Machine.execCreditReturn a1 a2 a3 s
  | .exchangeEpoch a1 a2 => Sys2Proof.Machine.execExchangeEpoch a1 a2 s
  | .routerDead a1 a2 => Sys2Proof.Machine.execRouterDead a1 a2 s
  | .detourClear a1 a2 a3 => Sys2Proof.Machine.execDetourClear a1 a2 a3 s
  | .streamDeliver a1 => Sys2Proof.Machine.execStreamDeliver a1 s
  | .streamGather a1 => Sys2Proof.Machine.execStreamGather a1 s
  | .streamRecorded a1 => Sys2Proof.Machine.execStreamRecorded a1 s
  | .streamNear a1 => Sys2Proof.Machine.execStreamNear a1 s
  | .streamLoop a1 => Sys2Proof.Machine.execStreamLoop a1 s
  | .streamEnd a1 => Sys2Proof.Machine.execStreamEnd a1 s
  | .fillReadStart a1 a2 a3 => Sys2Proof.Machine.execFillReadStart a1 a2 a3 s
  | .fillLaneAssign a1 => Sys2Proof.Machine.execFillLaneAssign a1 s
  | .fillLanded a1 a2 a3 a4 => Sys2Proof.Machine.execFillLanded a1 a2 a3 a4 s
  | .listMerge a1 a2 => Sys2Proof.Machine.execListMerge a1 a2 s
  | .skidderStop a1 a2 => Sys2Proof.Machine.execSkidderStop a1 a2 s
  | .tick a1 => Sys2Proof.Machine.execTick a1 s
  | .create a1 a2 => Sys2Proof.Machine.execCreate a1 a2 s
  | .destroy a1 a2 => Sys2Proof.Machine.execDestroy a1 a2 s
  | .promote a1 a2 => Sys2Proof.Machine.execPromote a1 a2 s
  | .demote a1 a2 => Sys2Proof.Machine.execDemote a1 a2 s
  | .pin a1 a2 => Sys2Proof.Machine.execPin a1 a2 s
  | .unpin a1 a2 => Sys2Proof.Machine.execUnpin a1 a2 s
  | .extentCopyDone a1 a2 => Sys2Proof.Machine.execExtentCopyDone a1 a2 s
  | .allocationRetry => Sys2Proof.Machine.execAllocationRetry s
  | .allocationWaitLimit a1 => Sys2Proof.Machine.execAllocationWaitLimit a1 s
  | .caParityError a1 a2 => Sys2Proof.Machine.execCaParityError a1 a2 s
  | .stackUncorrectableRead a1 => Sys2Proof.Machine.execStackUncorrectableRead a1 s
  | .wrapperGo a1 a2 a3 => Sys2Proof.Machine.execWrapperGo a1 a2 a3 s
  | .rdimmFail a1 => Sys2Proof.Machine.execRdimmFail a1 s
  | .cxlReadTimeout a1 a2 => Sys2Proof.Machine.execCxlReadTimeout a1 a2 s
  | .cxlLinkDown a1 => Sys2Proof.Machine.execCxlLinkDown a1 s
  | .dcdAdd a1 a2 => Sys2Proof.Machine.execDcdAdd a1 a2 s
  | .dcdRelease a1 a2 a3 => Sys2Proof.Machine.execDcdRelease a1 a2 a3 s
  | .cxlRescan a1 a2 => Sys2Proof.Machine.execCxlRescan a1 a2 s
  | .outboxTake a1 a2 => Sys2Proof.Machine.execOutboxTake a1 a2 s
  | .contribTileArrive a1 => Sys2Proof.Machine.execContribTileArrive a1 s
  | .contribAck a1 a2 a3 a4 => Sys2Proof.Machine.execContribAck a1 a2 a3 a4 s
  | .lateRefusal a1 a2 a3 => Sys2Proof.Machine.execLateRefusal a1 a2 a3 s
  | .contribSetClose a1 a2 => Sys2Proof.Machine.execContribSetClose a1 a2 s
  | .contribSetNotice a1 a2 a3 => Sys2Proof.Machine.execContribSetNotice a1 a2 a3 s
  | .setGraceExpiry a1 a2 => Sys2Proof.Machine.execSetGraceExpiry a1 a2 s
  | .parameterBroadcastTile a1 a2 a3 a4 a5 a6 a7 => Sys2Proof.Machine.execParameterBroadcastTile a1 a2 a3 a4 a5 a6 a7 s
  | .commitMarker a1 a2 => Sys2Proof.Machine.execCommitMarker a1 a2 s
  | .shadowDigest a1 a2 a3 a4 => Sys2Proof.Machine.execShadowDigest a1 a2 a3 a4 s
  | .verdictArrive a1 a2 a3 a4 a5 => Sys2Proof.Machine.execVerdictArrive a1 a2 a3 a4 a5 s
  | .confirm a1 a2 => Sys2Proof.Machine.execConfirm a1 a2 s
  | .rollback a1 a2 a3 a4 => Sys2Proof.Machine.execRollback a1 a2 a3 a4 s
  | .verdictTimeout a1 => Sys2Proof.Machine.execVerdictTimeout a1 s
  | .slotRollback a1 a2 => Sys2Proof.Machine.execSlotRollback a1 a2 s
  | .redStepWrite a1 a2 a3 => Sys2Proof.Machine.execRedStepWrite a1 a2 a3 s
  | .replayOrigin a1 => Sys2Proof.Machine.execReplayOrigin a1 s
  | .skyFlitReceive a1 a2 => Sys2Proof.Machine.execSkyFlitReceive a1 a2 s
  | .skyAckTimer a1 => Sys2Proof.Machine.execSkyAckTimer a1 s
  | .meshFlitSendTimer a1 => Sys2Proof.Machine.execMeshFlitSendTimer a1 s
  | .portRetrain a1 a2 => Sys2Proof.Machine.execPortRetrain a1 a2 s
  | .retrainAttemptTimeout a1 => Sys2Proof.Machine.execRetrainAttemptTimeout a1 s
  | .trainingAttempt a1 a2 => Sys2Proof.Machine.execTrainingAttempt a1 a2 s
  | .skyRetrainCommand a1 a2 a3 => Sys2Proof.Machine.execSkyRetrainCommand a1 a2 a3 s
  | .admitGo a1 a2 => Sys2Proof.Machine.execAdmitGo a1 a2 s
  | .admitReqSend => Sys2Proof.Machine.execAdmitReqSend s
  | .admitReq a1 a2 a3 => Sys2Proof.Machine.execAdmitReq a1 a2 a3 s
  | .admitAck a1 a2 => Sys2Proof.Machine.execAdmitAck a1 a2 s
  | .admitNak a1 a2 => Sys2Proof.Machine.execAdmitNak a1 a2 s
  | .admissionTimeout => Sys2Proof.Machine.execAdmissionTimeout s
  | .admitLeave a1 a2 => Sys2Proof.Machine.execAdmitLeave a1 a2 s
  | .leave a1 => Sys2Proof.Machine.execLeave a1 s
  | .tickMarker a1 a2 => Sys2Proof.Machine.execTickMarker a1 a2 s
  | .cycleFrame a1 => Sys2Proof.Machine.execCycleFrame a1 s
  | .beatSourceLoss a1 => Sys2Proof.Machine.execBeatSourceLoss a1 s
  | .eventWindow a1 => Sys2Proof.Machine.execEventWindow a1 s
  | .windowClose a1 => Sys2Proof.Machine.execWindowClose a1 s
  | .eventBallast a1 => Sys2Proof.Machine.execEventBallast a1 s
  | .eventRamp a1 => Sys2Proof.Machine.execEventRamp a1 s
  | .eventCkpt a1 => Sys2Proof.Machine.execEventCkpt a1 s
  | .ckptEnd a1 => Sys2Proof.Machine.execCkptEnd a1 s
  | .eventDigest a1 => Sys2Proof.Machine.execEventDigest a1 s
  | .eventKat a1 => Sys2Proof.Machine.execEventKat a1 s
  | .slack a1 a2 a3 => Sys2Proof.Machine.execSlack a1 a2 a3 s
  | .shiftDecision a1 a2 => Sys2Proof.Machine.execShiftDecision a1 a2 s
  | .shift a1 a2 a3 => Sys2Proof.Machine.execShift a1 a2 a3 s
  | .beatSlackSend a1 a2 => Sys2Proof.Machine.execBeatSlackSend a1 a2 s
  | .beatTimeSecRead => Sys2Proof.Machine.execBeatTimeSecRead s
  | .mainsCycle a1 => Sys2Proof.Machine.execMainsCycle a1 s
  | .pwrCapWrite a1 a2 => Sys2Proof.Machine.execPwrCapWrite a1 a2 s
  | .pwrRampWrite a1 a2 => Sys2Proof.Machine.execPwrRampWrite a1 a2 s
  | .opChangeDone a1 => Sys2Proof.Machine.execOpChangeDone a1 s
  | .breakerTrip a1 => Sys2Proof.Machine.execBreakerTrip a1 s
  | .breakerClear a1 a2 a3 => Sys2Proof.Machine.execBreakerClear a1 a2 a3 s
  | .softStartDone a1 => Sys2Proof.Machine.execSoftStartDone a1 s
  | .droopCrossing a1 a2 a3 => Sys2Proof.Machine.execDroopCrossing a1 a2 a3 s
  | .stretchRelease a1 => Sys2Proof.Machine.execStretchRelease a1 s
  | .droopSevere a1 => Sys2Proof.Machine.execDroopSevere a1 s
  | .junctionOvertemp a1 => Sys2Proof.Machine.execJunctionOvertemp a1 s
  | .chrysalisEnter a1 a2 => Sys2Proof.Machine.execChrysalisEnter a1 a2 s
  | .chrysalisWake a1 a2 => Sys2Proof.Machine.execChrysalisWake a1 a2 s
  | .katRun a1 a2 => Sys2Proof.Machine.execKatRun a1 a2 s
  | .testComplete a1 a2 a3 => Sys2Proof.Machine.execTestComplete a1 a2 a3 s
  | .watchRemove a1 a2 => Sys2Proof.Machine.execWatchRemove a1 a2 s
  | .jobRestart a1 a2 a3 => Sys2Proof.Machine.execJobRestart a1 a2 a3 s
  | .bootStageComplete a1 => Sys2Proof.Machine.execBootStageComplete a1 s
  | .regionCruise a1 a2 a3 => Sys2Proof.Machine.execRegionCruise a1 a2 a3 s
  | .moduleReset a1 a2 => Sys2Proof.Machine.execModuleReset a1 a2 s
  | .retire a1 a2 => Sys2Proof.Machine.execRetire a1 a2 s
  | .powerOff a1 a2 => Sys2Proof.Machine.execPowerOff a1 a2 s
  | .powerOn a1 a2 => Sys2Proof.Machine.execPowerOn a1 a2 s
  | .modResetGo a1 a2 => Sys2Proof.Machine.execModResetGo a1 a2 s
  | .jobStart a1 a2 => Sys2Proof.Machine.execJobStart a1 a2 s
  | .jobOrigin a1 => Sys2Proof.Machine.execJobOrigin a1 s
  | .jobDrain a1 a2 => Sys2Proof.Machine.execJobDrain a1 a2 s
  | .rangerRestart a1 a2 => Sys2Proof.Machine.execRangerRestart a1 a2 s
  | .presentLoopChange a1 => Sys2Proof.Machine.execPresentLoopChange a1 s
  | .stagingCheckDone a1 => Sys2Proof.Machine.execStagingCheckDone a1 s
  | .wrapperInstructionDone a1 a2 => Sys2Proof.Machine.execWrapperInstructionDone a1 a2 s
  | .cxlTrainingDone a1 a2 a3 a4 a5 a6 a7 => Sys2Proof.Machine.execCxlTrainingDone a1 a2 a3 a4 a5 a6 a7 s
  | .retrainComplete a1 a2 => Sys2Proof.Machine.execRetrainComplete a1 a2 s
  | .roceDisconnect a1 => Sys2Proof.Machine.execRoceDisconnect a1 s
  | .inputUndervoltage => Sys2Proof.Machine.execInputUndervoltage s
  | .inputOvervoltage => Sys2Proof.Machine.execInputOvervoltage s
  | .inputReclose => Sys2Proof.Machine.execInputReclose s
  | .chrysalisTarget => Sys2Proof.Machine.execChrysalisTarget s
  | .wakeComplete => Sys2Proof.Machine.execWakeComplete s
  | .katIdleTimer => Sys2Proof.Machine.execKatIdleTimer s
  | .katWatchTimer => Sys2Proof.Machine.execKatWatchTimer s
  | .nextTestDue => Sys2Proof.Machine.execNextTestDue s
  | .powerContactsMated => Sys2Proof.Machine.execPowerContactsMated s
  | .prechargeComplete => Sys2Proof.Machine.execPrechargeComplete s
  | .resetQuiet => Sys2Proof.Machine.execResetQuiet s
  | .drainLimitExpiry => Sys2Proof.Machine.execDrainLimitExpiry s
  | .matedOpen => Sys2Proof.Machine.execMatedOpen s
  | .watchdogExpiry => Sys2Proof.Machine.execWatchdogExpiry s
  | .licenceExpiry => Sys2Proof.Machine.execLicenceExpiry s
  | .logbookFlush => Sys2Proof.Machine.execLogbookFlush s
  | .busBelow700V => Sys2Proof.Machine.execBusBelow700V s
  | .busRestored => Sys2Proof.Machine.execBusRestored s
  | .standbyPowerLoss => Sys2Proof.Machine.execStandbyPowerLoss s

end Sys2Proof.Machine
end

