-- ==== Sys2Proof/WellFormed.lean ====
section
/-! DEFINITION. Well-formed commands: every unit that an operand names exists on the module (R15, R34, R35, R37, R451). -/

namespace Sys2Proof

/-- A cell number of the grid of 288 rows and 480 columns (R15). -/
def wfCell (c : Nat) : Bool := decide (c / 512 < 288) && decide (c % 512 < 480)
/-- A foreman: region 0 to 71, local block 0 to 29 (R15, R35). -/
def wfFm (f : FmId) : Bool := decide (f.region < 72) && decide (f.block < 30)
def wfRegion (r : Nat) : Bool := decide (r < 72)
def wfHalf (h : Nat) : Bool := decide (h < 144)
/-- A partition slot (R37). -/
def wfSlot (n : Nat) : Bool := decide (n < 8)
/-- A skyline port (R451). -/
def wfSky (p : Nat) : Bool := decide (p < 16)
/-- An Ethernet port (R476). -/
def wfEth (p : Nat) : Bool := decide (p < 2)
/-- A queue pair (R480). -/
def wfQp (q : Nat) : Bool := decide (q < 64)
def wfStack (k : Nat) : Bool := decide (k < 24)
/-- A CXL port (R402). -/
def wfCxl (p : Nat) : Bool := decide (p < 4)

def wfHub : Hub → Bool
  | .foreman f => wfFm f
  | .region r => wfRegion r
  | .root => true

def wfEntrant : Entrant → Bool
  | .cell c => wfCell c
  | .block f => wfFm f
  | .region r => wfRegion r
  | .module m => decide (m < 8192)

def wfTarget : Target → Bool
  | .cell c => wfCell c
  | .foreman f => wfFm f

def wfUnit : KatUnit → Bool
  | .cell c => wfCell c
  | .region r => wfRegion r
  | .reducer => true

/-- The scope's target exists: a cell, a block by its global number, a region or a slot (R616, R631). -/
def wfScope : Scope → Nat → Bool
  | .cell, n => wfCell n
  | .block, n => decide (n < 2160)
  | .region, n => wfRegion n
  | .partition, n => wfSlot n

/-- The operands of a command name units that exist. -/
def wf : Instr → Bool
  | .registerWrite _ a _ => decide (a < 2 ^ 32)
  | .stepNop c _ => wfCell c
  | .stepMatrix c _ => wfCell c
  | .stepVector c _ => wfCell c
  | .stepLoad c _ => wfCell c
  | .stepStore c _ => wfCell c
  | .stepExchange c _ => wfCell c
  | .gateWait c _ => wfCell c
  | .gateBarrierEnter c _ => wfCell c
  | .gateSignal c _ => wfCell c
  | .stepScalar c _ => wfCell c
  | .stepEnd c _ => wfCell c
  | .stepComplete c _ _ => wfCell c
  | .gateTimeout c => wfCell c
  | .fmnNop f => wfFm f
  | .fmnLdi f => wfFm f
  | .fmnLdhi f => wfFm f
  | .fmnAdd f => wfFm f
  | .fmnSub f => wfFm f
  | .fmnAddi f => wfFm f
  | .fmnAnd f => wfFm f
  | .fmnOr f => wfFm f
  | .fmnXor f => wfFm f
  | .fmnShl f => wfFm f
  | .fmnShr f => wfFm f
  | .fmnCmplt f => wfFm f
  | .fmnCmpeq f => wfFm f
  | .fmnFadd f => wfFm f
  | .fmnFmul f => wfFm f
  | .fmnJmp f => wfFm f
  | .fmnBz f => wfFm f
  | .fmnBnz f => wfFm f
  | .fmnHalt f => wfFm f
  | .fmnRdstep f => wfFm f
  | .fmnRdcurve f => wfFm f
  | .fmnStart f => wfFm f
  | .fmnStop f => wfFm f
  | .fmnLatch f => wfFm f
  | .fmnWaitev f => wfFm f
  | .fmnWaitdone f => wfFm f
  | .buildBegin f => wfFm f
  | .score f => wfFm f
  | .buildEnd f => wfFm f
  | .fmnCurve f => wfFm f
  | .scoreTimeout f => wfFm f
  | .reset sc _ t => wfScope sc t
  | .fence c => wfCell c
  | .barrierEnter e n _ => wfEntrant e && wfSlot n
  | .barrierRelease n h => wfSlot n && wfHalf h
  | .barrierTimerExpiry h n => wfHub h && wfSlot n
  | .barrierProbe h n => wfHub h && wfSlot n
  | .probeAnswerTimeout f n => wfFm f && wfSlot n
  | .barrierFail n => wfSlot n
  | .windowFlag n k _ => wfSlot n && decide (k < 8)
  | .numericsNotice c _ => wfCell c
  | .absorbed a b _ => wfCell a && wfCell b
  | .complete c => wfCell c
  | .looperStart c k => wfCell c && decide (k < 4096)
  | .looperStop c _ => wfCell c
  | .scalarWrite c e _ => wfCell c && decide (e < 16)
  | .grant c k => wfCell c && decide (k < 2)
  | .countReturn f _ _ => wfFm f
  | .tallyRead c k => wfCell c && decide (k < 15)
  | .tallyReply c k _ => wfCell c && decide (k < 15)
  | .tallyClear c => wfCell c
  | .fetchList f _ => wfFm f
  | .flitArrive c _ _ _ => wfCell c
  | .creditReturn c _ _ => wfCell c
  | .exchangeEpoch h n => wfHalf h && wfSlot n
  | .routerDead c _ => wfCell c
  | .detourClear _ r _ => wfRegion r
  | .streamDeliver n => wfSlot n
  | .streamGather n => wfSlot n
  | .streamRecorded n => wfSlot n
  | .streamNear n => wfSlot n
  | .streamLoop n => wfSlot n
  | .streamEnd n => wfSlot n
  | .fillReadStart n _ _ => wfSlot n
  | .fillLaneAssign r => wfRegion r
  | .fillLanded n _ c _ => wfSlot n && wfCell c
  | .listMerge n _ => wfSlot n
  | .wrapperGo _ k _ => wfStack k
  | .wrapperInstructionDone k _ => wfStack k
  | .rdimmFail k => decide (k < 64)
  | .cxlReadTimeout p _ => wfCxl p
  | .cxlLinkDown p => wfCxl p
  | .dcdAdd p _ => wfCxl p
  | .dcdRelease p _ _ => wfCxl p
  | .cxlTrainingDone p _ _ _ _ _ _ => wfCxl p
  | .caParityError k _ => decide (k < 768)
  | .stackUncorrectableRead k => decide (k < 768)
  | .outboxTake c _ => wfCell c
  | .contribTileArrive t => wfSlot t.slot
  | .contribAck n _ _ _ => wfSlot n
  | .lateRefusal n _ _ => wfSlot n
  | .contribSetClose n _ => wfSlot n
  | .contribSetNotice n _ _ => wfSlot n
  | .setGraceExpiry n _ => wfSlot n
  | .parameterBroadcastTile n _ _ _ _ _ _ => wfSlot n
  | .commitMarker n _ => wfSlot n
  | .shadowDigest n _ _ _ => wfSlot n
  | .verdictArrive n _ _ _ _ => wfSlot n
  | .confirm n _ => wfSlot n
  | .rollback n _ _ _ => wfSlot n
  | .verdictTimeout n => wfSlot n
  | .redStepWrite _ n _ => wfSlot n
  | .replayOrigin n => wfSlot n
  | .skyFlitReceive p _ => wfSky p
  | .skyAckTimer p => wfSky p
  | .meshFlitSendTimer p => wfSky p
  | .portRetrain p _ => wfSky p
  | .retrainAttemptTimeout p => wfSky p
  | .retrainComplete p _ => wfSky p
  | .trainingAttempt p _ => wfSky p
  | .skyRetrainCommand _ p _ => wfSky p
  | .admitReq p _ _ => wfSky p
  | .admitAck p _ => wfSky p
  | .admitNak p _ => wfSky p
  | .leave p => wfSky p
  | .slack n _ _ => wfSlot n
  | .shiftDecision n _ => wfSlot n
  | .shift n _ _ => wfSlot n
  | .opChangeDone h => wfHalf h
  | .breakerTrip r => wfRegion r
  | .breakerClear _ r _ => wfRegion r
  | .softStartDone r => wfRegion r
  | .droopCrossing f h _ => wfFm f && wfHalf h
  | .stretchRelease h => wfHalf h
  | .droopSevere h => wfHalf h
  | .junctionOvertemp h => wfHalf h
  | .testComplete u _ _ => wfUnit u
  | .jobRestart _ n _ => wfSlot n
  | .regionCruise r _ _ => wfRegion r
  | .jobOrigin n => wfSlot n
  | .stagingCheckDone n => wfSlot n
  | .roceConnect p _ => wfEth p
  | .rdmaSend q _ => wfQp q
  | .rdmaWrite q _ _ _ _ _ => wfQp q
  | .rdmaRead q _ _ _ _ => wfQp q
  | .roceDisconnect q => wfQp q
  | .ecnCeReceived q _ => wfQp q
  | .cnpReceived q => wfQp q
  | .rateIncreaseTimer q => wfQp q
  | .pauseReceived p k _ _ => wfEth p && decide (k < 8)
  | .lldpReceived p _ _ => wfEth p
  | .neighborRequest p _ _ _ => wfEth p
  | .ptpEventMessage p _ _ _ => wfEth p
  | .ptpAnnounce p _ => wfEth p
  | .announceReceiptTimeout p => wfEth p
  | .ptpSync p _ _ _ _ => wfEth p
  | .ethLinkDown p => wfEth p
  | .ethLinkUp p => wfEth p
  | .chunkLead t _ _ => wfTarget t
  | .chunkData t _ => wfTarget t
  | .loadOpen t => wfTarget t
  | .miss f _ => wfFm f
  | .kctOpen f => wfEth f.port
  | .kctClose f => wfEth f.port
  | .kctRead f => wfEth f.port
  | .kctWrite f => wfEth f.port
  | .getCert f => wfEth f.port
  | .attest f => wfEth f.port
  | .fwStage f => wfEth f.port
  | .fwActivate f => wfEth f.port
  | .ownerSet f => wfEth f.port
  | .ownerRevoke f => wfEth f.port
  | .ownerRelease f => wfEth f.port
  | .licenceInstall f => wfEth f.port
  | .licenceGet f => wfEth f.port
  | .revokeRelease f => wfEth f.port
  | .bulkData f _ => wfEth f.port
  | .bulkRead f _ => wfEth f.port
  | .bulkAckTimer w => decide (w < 4)
  | .bulkOpen _ w _ => decide (w < 4)
  | .bulkClose _ w _ => decide (w < 4)
  | .sessionIdleTimeout k => decide (1 ≤ k) && decide (k ≤ 16)
  | _ => true

end Sys2Proof
end

