-- ==== Sys2Proof/Safety.lean ====
section
/-! DEFINITION. What a safe run of the module keeps, in the terms that statements use: the release keys (R637, R639, R640) and
the lifetime counters (R651). -/

namespace Sys2Proof.Machine

open Sys2Proof

/-- At least one release key slot is intact (R640). -/
def State.keysIntact (s : State) : Prop := s.rng.revoked ≠ 15

/-- Every lifetime counter of `a` is at most that of `b` (R651). -/
structure LifeSt.Le (a b : LifeSt) : Prop where
  powerOn : a.powerOn ≤ b.powerOn
  energy : a.energy ≤ b.energy
  cycles0 : a.cycles.1 ≤ b.cycles.1
  cycles1 : a.cycles.2 ≤ b.cycles.2
  hotPlug : a.hotPlug ≤ b.hotPlug
  stress : ∀ k, a.stress.get 0 k ≤ b.stress.get 0 k

/-- What no command but `step` itself or time may take back: the waiting commands stay as they are, a revoked release key slot
stays revoked and one stays intact (R637, R640), the security counter does not fall (R639), and no lifetime counter falls
(R651). -/
structure Held (s t : State) : Prop where
  queue : t.pending = s.pending
  fuses : s.rng.revoked &&& t.rng.revoked = s.rng.revoked
  intact : s.keysIntact → t.keysIntact
  counter : s.rng.counter ≤ t.rng.counter
  life : s.book.life.Le t.book.life

/-! ## The pieces of State, and which of them a command may change -/

/-- The pieces of State, one for each field. -/
inductive Part where
  | pending | inFlight | out | freeCtr | regs | cells | fms | slots | spares | routers | rgns | foreign | skys | admission |
    eras | nap | tilesHeld | tiers | yard | streams | reds | eth | boot | beats | power | ldr | flt | jobs | resets | rng |
    book | tallyLast
deriving DecidableEq, Repr

/-- The piece is the same in both states. -/
def Part.same : Part → State → State → Prop
  | .pending, s, t => t.pending = s.pending
  | .inFlight, s, t => t.inFlight = s.inFlight
  | .out, s, t => t.out = s.out
  | .freeCtr, s, t => t.freeCtr = s.freeCtr
  | .regs, s, t => t.regs = s.regs
  | .cells, s, t => t.cells = s.cells
  | .fms, s, t => t.fms = s.fms
  | .slots, s, t => t.slots = s.slots
  | .spares, s, t => t.spares = s.spares
  | .routers, s, t => t.routers = s.routers
  | .rgns, s, t => t.rgns = s.rgns
  | .foreign, s, t => t.foreign = s.foreign
  | .skys, s, t => t.skys = s.skys
  | .admission, s, t => t.admission = s.admission
  | .eras, s, t => t.eras = s.eras
  | .nap, s, t => t.nap = s.nap
  | .tilesHeld, s, t => t.tilesHeld = s.tilesHeld
  | .tiers, s, t => t.tiers = s.tiers
  | .yard, s, t => t.yard = s.yard
  | .streams, s, t => t.streams = s.streams
  | .reds, s, t => t.reds = s.reds
  | .eth, s, t => t.eth = s.eth
  | .boot, s, t => t.boot = s.boot
  | .beats, s, t => t.beats = s.beats
  | .power, s, t => t.power = s.power
  | .ldr, s, t => t.ldr = s.ldr
  | .flt, s, t => t.flt = s.flt
  | .jobs, s, t => t.jobs = s.jobs
  | .resets, s, t => t.resets = s.resets
  | .rng, s, t => t.rng = s.rng
  | .book, s, t => t.book = s.book
  | .tallyLast, s, t => t.tallyLast = s.tallyLast

/-- The pieces that a well-formed command may change: every other piece is as before. -/
def touches : Instr → List Part
  | .registerWrite .. | .kctOpen .. | .kctClose .. | .kctRead .. | .kctWrite .. | .rdmaSend .. =>
    [.inFlight, .out, .freeCtr, .regs, .cells, .fms, .slots, .routers, .rgns, .foreign, .skys, .admission, .eras, .nap,
     .tilesHeld, .tiers, .yard, .streams, .reds, .eth, .boot, .beats, .power, .ldr, .flt, .jobs, .resets, .rng, .book,
     .tallyLast]
  | .sessionIdleTimeout .. | .rateIncreaseTimer .. | .ethLinkUp .. | .roceDisconnect .. =>
    [.eth]
  | .getCert .. | .attest .. | .fwStage .. | .fwActivate .. | .ownerSet .. | .ownerRevoke .. | .ownerRelease .. |
    .licenceInstall .. | .licenceGet .. | .revokeRelease .. =>
    [.inFlight, .out, .freeCtr, .regs, .eth, .rng, .book]
  | .fwStageTimeout =>
    [.rng]
  | .bulkData .. =>
    [.inFlight, .out, .freeCtr, .regs, .cells, .tiers, .yard, .eth]
  | .bulkAckTimer .. | .roceConnect .. | .ecnCeReceived .. | .pauseReceived .. =>
    [.out, .regs, .eth]
  | .bulkRead .. =>
    [.inFlight, .out, .freeCtr, .regs, .yard, .eth]
  | .bulkOpen .. | .bulkClose .. =>
    [.inFlight, .freeCtr, .regs, .eth]
  | .rdmaWrite .. =>
    [.inFlight, .out, .regs, .cells, .tiers, .yard, .eth]
  | .rdmaRead .. =>
    [.inFlight, .out, .regs, .yard, .eth]
  | .cnpReceived .. =>
    [.regs, .eth]
  | .lldpTransmitTimer | .neighborRequest .. =>
    [.out, .regs]
  | .lldpReceived .. | .caParityError .. | .cxlReadTimeout .. =>
    [.regs]
  | .ptpEventMessage .. =>
    [.regs, .beats]
  | .ptpAnnounce .. | .announceReceiptTimeout .. | .ptpSync .. | .cycleFrame .. | .beatSourceLoss .. =>
    [.inFlight, .freeCtr, .regs, .yard, .beats]
  | .ethLinkDown .. =>
    [.inFlight, .freeCtr, .regs, .yard, .eth, .beats]
  | .imgStart .. | .imgAbort .. | .loadOpenRetry | .loadBroadcastDone | .extentCopyDone .. | .allocationRetry |
    .allocationWaitLimit .. =>
    [.inFlight, .freeCtr, .regs, .cells, .fms, .slots, .tiers, .yard, .streams, .reds, .beats, .power, .ldr]
  | .loadVerifyDone =>
    [.inFlight, .freeCtr, .regs, .cells, .fms, .slots, .rgns, .tiers, .yard, .streams, .reds, .beats, .power, .ldr, .jobs]
  | .repairRound | .loadCheck =>
    [.inFlight, .freeCtr, .regs, .cells, .fms, .slots, .spares, .rgns, .tiers, .yard, .streams, .reds, .beats, .power, .ldr, .flt,
     .jobs, .book]
  | .missReportWindowEnd =>
    [.regs, .ldr, .jobs]
  | .chunkLead .. =>
    [.regs, .cells, .fms]
  | .chunkData .. =>
    [.cells, .fms]
  | .loadOpen .. =>
    [.inFlight, .regs, .cells, .fms, .ldr]
  | .loadConfigure =>
    [.inFlight, .regs, .cells, .fms, .slots, .rgns, .ldr]
  | .miss .. =>
    [.inFlight, .ldr, .jobs]
  | .stepNop .. | .stepMatrix .. | .stepVector .. | .stepLoad .. | .stepStore .. | .gateWait .. | .gateBarrierEnter .. |
    .stepScalar .. | .stepEnd .. | .gateTimeout .. | .looperStart .. | .looperStop .. | .scalarWrite .. | .tallyClear .. =>
    [.inFlight, .cells]
  | .stepExchange .. | .stepComplete .. | .exchangeEpoch .. =>
    [.inFlight, .cells, .fms, .routers, .rgns]
  | .gateSignal .. | .fmnWaitev .. =>
    [.inFlight, .cells, .fms]
  | .fmnNop .. | .fmnLdi .. | .fmnLdhi .. | .fmnAdd .. | .fmnSub .. | .fmnAddi .. | .fmnAnd .. | .fmnOr .. | .fmnXor .. |
    .fmnShl .. | .fmnShr .. | .fmnCmplt .. | .fmnCmpeq .. | .fmnFadd .. | .fmnFmul .. | .fmnJmp .. | .fmnBz .. | .fmnBnz .. |
    .fmnHalt .. | .fmnRdstep .. | .fmnRdcurve .. | .fmnStart .. | .fmnStop .. | .fmnLatch .. | .fmnWaitdone .. | .fmnCurve ..
    | .complete .. =>
    [.inFlight, .fms]
  | .buildBegin .. | .score .. | .buildEnd .. | .scoreTimeout .. | .probeAnswerTimeout .. | .countReturn .. =>
    [.inFlight, .regs, .fms]
  | .reset .. =>
    [.inFlight, .out, .freeCtr, .regs, .cells, .fms, .slots, .rgns, .skys, .tiers, .yard, .streams, .reds, .beats, .power, .ldr,
     .flt, .jobs, .resets]
  | .fence .. =>
    [.inFlight, .freeCtr, .cells]
  | .barrierEnter .. =>
    [.inFlight, .out, .freeCtr, .regs, .fms, .slots, .rgns, .skys]
  | .barrierRelease .. =>
    [.inFlight, .out, .freeCtr, .regs, .cells, .fms, .slots, .rgns, .skys, .yard, .streams, .reds, .beats, .power]
  | .barrierTimerExpiry .. | .barrierProbe .. =>
    [.inFlight, .regs, .fms, .slots, .rgns]
  | .barrierFail .. =>
    [.inFlight, .fms, .slots]
  | .windowFlag .. =>
    [.inFlight, .slots]
  | .faultNotice .. =>
    [.inFlight, .out, .freeCtr, .regs, .cells, .fms, .slots, .skys, .yard, .streams, .reds, .boot, .beats, .power, .flt, .jobs,
     .book]
  | .numericsNotice .. | .detourClear .. | .breakerClear .. =>
    [.inFlight, .regs, .rgns]
  | .absorbed .. | .wrapperGo .. | .eventCkpt .. | .beatSlackSend .. | .pwrRampWrite .. | .chrysalisEnter .. | .chrysalisWake
    .. | .modResetGo .. =>
    [.inFlight, .regs]
  | .grant .. =>
    [.inFlight, .cells, .fms, .routers]
  | .tallyRead .. =>
    [.inFlight]
  | .tallyReply .. =>
    [.inFlight, .tallyLast]
  | .fetchList .. | .streamRecorded .. =>
    [.inFlight, .regs, .yard, .streams]
  | .flitArrive .. | .creditReturn .. =>
    [.inFlight, .out, .freeCtr, .regs, .cells, .fms, .routers, .rgns, .foreign, .skys]
  | .routerDead .. =>
    [.inFlight, .routers, .rgns]
  | .streamDeliver .. | .streamGather .. | .streamNear .. | .streamLoop .. | .streamEnd .. | .fillLaneAssign .. =>
    [.streams]
  | .fillReadStart .. =>
    [.inFlight, .freeCtr, .regs, .tiers, .yard, .streams]
  | .fillLanded .. =>
    [.inFlight, .freeCtr, .regs, .cells, .tiers, .yard, .streams]
  | .listMerge .. =>
    [.inFlight, .regs, .cells, .tiers, .yard, .streams]
  | .skidderStop .. =>
    [.inFlight, .yard, .streams]
  | .tick .. =>
    [.inFlight, .out, .freeCtr, .regs, .cells, .fms, .slots, .rgns, .skys, .admission, .tiers, .yard, .streams, .reds, .beats,
     .power, .ldr, .flt, .book]
  | .create .. | .destroy .. | .promote .. | .demote .. | .pin .. | .unpin .. =>
    [.inFlight, .freeCtr, .regs, .tiers, .yard]
  | .stackUncorrectableRead .. =>
    [.inFlight, .regs, .tiers]
  | .rdimmFail .. =>
    [.inFlight, .regs, .yard]
  | .cxlLinkDown .. =>
    [.inFlight, .tiers, .yard]
  | .dcdAdd .. | .cxlTrainingDone .. =>
    [.freeCtr, .regs, .tiers, .yard]
  | .dcdRelease .. =>
    [.regs, .tiers]
  | .cxlRescan .. =>
    [.inFlight, .tiers]
  | .outboxTake .. =>
    [.inFlight, .out, .freeCtr, .regs, .cells, .rgns, .skys, .tilesHeld, .tiers, .yard, .reds]
  | .contribTileArrive .. | .contribSetClose .. | .contribSetNotice .. | .setGraceExpiry .. | .commitMarker .. =>
    [.inFlight, .out, .freeCtr, .regs, .cells, .skys, .tiers, .yard, .reds]
  | .contribAck .. =>
    [.inFlight, .reds]
  | .lateRefusal .. =>
    [.inFlight, .regs, .cells, .tiers, .yard, .reds]
  | .parameterBroadcastTile .. =>
    [.inFlight, .cells, .tiers, .yard, .reds]
  | .shadowDigest .. | .verdictArrive .. | .eventDigest .. =>
    [.inFlight, .out, .freeCtr, .regs, .skys, .reds]
  | .confirm .. =>
    [.inFlight, .out, .freeCtr, .regs, .cells, .skys, .yard, .reds]
  | .rollback .. =>
    [.inFlight, .out, .freeCtr, .regs, .cells, .fms, .slots, .skys, .yard, .streams, .reds, .beats, .power, .jobs]
  | .verdictTimeout .. =>
    [.inFlight, .regs, .reds]
  | .slotRollback .. =>
    [.inFlight, .out, .freeCtr, .regs, .cells, .slots, .skys, .yard, .reds]
  | .redStepWrite .. =>
    [.inFlight, .regs, .cells, .yard, .reds]
  | .replayOrigin .. | .jobOrigin .. =>
    [.inFlight, .regs, .cells, .fms, .slots, .rgns, .yard, .streams, .beats, .power, .jobs]
  | .skyFlitReceive .. =>
    [.inFlight, .out, .freeCtr, .regs, .routers, .foreign, .skys, .tilesHeld]
  | .skyAckTimer .. =>
    [.inFlight, .out, .regs, .routers, .skys]
  | .meshFlitSendTimer .. | .trainingAttempt .. | .retrainComplete .. =>
    [.inFlight, .out, .freeCtr, .regs, .skys]
  | .portRetrain .. | .retrainAttemptTimeout .. | .skyRetrainCommand .. =>
    [.inFlight, .regs, .skys]
  | .admitGo .. | .admitLeave .. =>
    [.inFlight, .out, .freeCtr, .regs, .skys, .admission]
  | .admitReqSend | .admitAck .. =>
    [.inFlight, .out, .freeCtr, .regs, .skys, .admission, .tilesHeld]
  | .admitReq .. | .leave .. =>
    [.inFlight, .out, .freeCtr, .regs, .skys, .tilesHeld]
  | .admitNak .. | .admissionTimeout =>
    [.inFlight, .regs, .skys, .admission]
  | .tickMarker .. =>
    [.inFlight, .out, .freeCtr, .regs, .yard, .beats]
  | .eventWindow .. =>
    [.inFlight, .skys]
  | .windowClose .. =>
    [.inFlight, .beats]
  | .eventBallast .. | .eventRamp .. =>
    [.inFlight, .power]
  | .ckptEnd .. =>
    [.inFlight, .freeCtr, .regs, .cells, .yard, .reds, .beats]
  | .eventKat .. =>
    [.inFlight, .cells, .flt]
  | .slack .. | .shiftDecision .. =>
    [.inFlight, .out, .freeCtr, .regs, .skys, .beats]
  | .shift .. =>
    [.inFlight, .regs, .beats]
  | .beatTimeSecRead =>
    [.beats]
  | .mainsCycle .. =>
    [.inFlight, .regs, .power, .book]
  | .pwrCapWrite .. | .droopSevere .. | .inputUndervoltage =>
    [.inFlight, .regs, .power]
  | .opChangeDone .. | .stretchRelease .. =>
    [.regs, .power]
  | .breakerTrip .. | .junctionOvertemp .. =>
    [.inFlight, .freeCtr, .regs, .cells, .fms, .routers, .rgns, .eras, .yard, .power]
  | .softStartDone .. =>
    [.regs, .rgns]
  | .droopCrossing .. =>
    [.freeCtr, .regs, .power]
  | .katRun .. =>
    [.inFlight, .regs, .cells, .flt]
  | .testComplete .. | .nextTestDue =>
    [.inFlight, .regs, .cells, .flt, .book]
  | .watchRemove .. =>
    [.inFlight, .regs, .flt, .book]
  | .jobRestart .. =>
    [.inFlight, .regs, .jobs]
  | .bootStageComplete .. =>
    [.inFlight, .out, .freeCtr, .regs, .spares, .rgns, .skys, .tiers, .yard, .boot, .rng, .book]
  | .regionCruise .. =>
    [.inFlight, .regs, .cells, .fms, .spares, .rgns, .jobs, .book]
  | .moduleReset .. | .retire .. | .powerOff .. | .powerOn .. | .inputOvervoltage | .matedOpen =>
    [.inFlight, .freeCtr, .regs, .cells, .fms, .slots, .routers, .rgns, .foreign, .skys, .admission, .eras, .nap, .tilesHeld,
     .tiers, .yard, .streams, .reds, .eth, .boot, .beats, .power, .ldr, .flt, .jobs, .resets, .book, .tallyLast]
  | .jobStart .. | .jobDrain .. =>
    [.inFlight, .regs, .beats, .jobs]
  | .rangerRestart .. | .watchdogExpiry =>
    [.inFlight, .freeCtr, .regs, .cells, .fms, .slots, .routers, .rgns, .foreign, .skys, .admission, .eras, .nap, .tilesHeld,
     .tiers, .yard, .streams, .reds, .eth, .boot, .beats, .power, .ldr, .flt, .jobs, .resets, .rng, .tallyLast]
  | .presentLoopChange .. | .inputReclose | .prechargeComplete | .busBelow700V | .busRestored =>
    [.boot]
  | .stagingCheckDone .. =>
    [.inFlight, .regs, .cells, .fms, .rgns, .jobs]
  | .wrapperInstructionDone .. =>
    [.inFlight, .regs, .book]
  | .chrysalisTarget =>
    [.inFlight, .out, .freeCtr, .regs, .cells, .fms, .slots, .routers, .rgns, .foreign, .skys, .nap, .tiers, .yard, .streams,
     .reds, .eth, .boot, .beats, .power, .ldr, .flt, .jobs, .resets, .book]
  | .wakeComplete =>
    [.regs, .skys, .boot]
  | .katIdleTimer | .katWatchTimer =>
    [.cells, .flt]
  | .powerContactsMated =>
    [.boot, .book]
  | .resetQuiet =>
    [.inFlight, .freeCtr, .regs, .cells, .fms, .spares, .rgns, .yard, .ldr, .jobs, .resets]
  | .drainLimitExpiry =>
    [.inFlight, .regs, .cells, .routers, .foreign, .resets]
  | .licenceExpiry =>
    [.inFlight, .rng, .book]
  | .logbookFlush =>
    [.book]
  | .standbyPowerLoss =>
    [.inFlight, .freeCtr, .regs, .cells, .fms, .slots, .routers, .rgns, .foreign, .skys, .admission, .eras, .nap, .tilesHeld,
     .tiers, .yard, .streams, .reds, .eth, .boot, .beats, .power, .ldr, .flt, .jobs, .resets, .rng, .book, .tallyLast]

/-! ## What alone changes within one piece -/

/-- Of the stored registers, those listed alone change. -/
def State.onlyRegs (s t : State) (l : List Nat) : Prop := ∀ a, a ∉ l → t.reg a = s.reg a

/-- Of the cells, those listed alone change. -/
def State.onlyCells (s t : State) (l : List Nat) : Prop := ∀ c, c ∉ l → t.cell c = s.cell c

/-- Of the foremen, `f` alone changes. -/
def State.onlyFm (s t : State) (f : FmId) : Prop := ∀ g, wfFm g = true → g ≠ f → t.fm g = s.fm g

/-- Of the partition slots, region dies, skyline ports, stream engines and reducers, the one numbered `n` alone changes. -/
def State.onlySlot (s t : State) (n : Nat) : Prop := ∀ m, m ≠ n → t.slot m = s.slot m
def State.onlyRgn (s t : State) (n : Nat) : Prop := ∀ m, m ≠ n → t.rgn m = s.rgn m
def State.onlySky (s t : State) (n : Nat) : Prop := ∀ m, m ≠ n → t.sky m = s.sky m
def State.onlyStream (s t : State) (n : Nat) : Prop := ∀ m, m ≠ n → t.stream m = s.stream m
def State.onlyRed (s t : State) (n : Nat) : Prop := ∀ m, m ≠ n → t.red m = s.red m

/-! ## Foreman programs -/

/-- The program of foreman `f` runs or waits, and its next instruction, read without an uncorrectable error, is the legal `w`
(R125, R126, R129). -/
def State.fmReady (s : State) (f : FmId) (w : FmIns) : Prop :=
  (s.fm f).configured = true ∧ ((s.fm f).prog = .running ∨ (s.fm f).prog = .waiting) ∧ (s.fm f).pc ≤ 8191 ∧
  eccAt (s.fm f).fprogEcc (s.fm f).pc ≠ some true ∧ (s.fm f).insAt (s.fm f).pc = w ∧ w.legal = true

/-- What an instruction of foreman `f` leaves: register `d` holds `v`, the program runs on at the next instruction, and nothing
else of the module changes but the mark of a corrected error. -/
def State.fmWrote (s t : State) (f : FmId) (d : Nat) (v : Word) : Prop :=
  (t.fm f).s d = v ∧ (∀ k, k ≠ d → (t.fm f).s k = (s.fm f).s k) ∧
  t.fm f = { s.fm f with sregs := (t.fm f).sregs, pc := (s.fm f).pc + 1, prog := .running, fprogEcc := (t.fm f).fprogEcc } ∧
  s.onlyFm t f

/-- The program of foreman `f` goes on at instruction `pc` in state `p`, with no register written. -/
def State.fmWent (s t : State) (f : FmId) (pc : Nat) (p : ProgSt) : Prop :=
  t.fm f = { s.fm f with pc := pc, prog := p, fprogEcc := (t.fm f).fprogEcc } ∧ s.onlyFm t f

/-! ## The looper's next step -/

/-- The looper of cell `c` runs, and `b` is the step it offers next (R100, R119, R560). -/
def State.cellOffers (s : State) (c : Nat) (b : Step) : Prop :=
  (s.cell c).looper = .running ∧ (s.cell c).fault = none ∧ (s.cell c).stopping = none ∧ s.paced c = false ∧
  (s.cell c).pc ≤ 4095 ∧ (s.cell c).stepAt (s.cell c).pc = b

/-- The step `b` that cell `c` offers may issue: nothing holds it, its entry reads without an uncorrectable error, and it is legal
(R100, R119, R121). -/
def State.cellIssues (s : State) (c : Nat) (b : Step) : Prop :=
  s.cellOffers c b ∧ s.heldBy c b = none ∧ eccAt (s.cell c).stepEcc (s.cell c).pc ≠ some true ∧
  issueFault (s.env c) (s.cell c) b = none ∧ (s.cell c).notice = none

/-- Where the looper stands after step `b` issued, from the cell `x` before it to `y`: the loop actions of R112, one execution number
for each execution, and steps_issued. -/
def CellSt.wentOn (x y : CellSt) (b : Step) : Prop :=
  (b.loop = 0 → y.pc = x.pc + 1 ∧ y.stack = x.stack) ∧
  (b.loop = 1 → y.pc = x.pc + 1 ∧ y.stack = ⟨x.pc + 1, b.loopCount, b.loopCount⟩ :: x.stack) ∧
  (∀ e l, b.loop = 2 → x.stack = e :: l → e.remaining = 0 → y.pc = x.pc + 1 ∧ y.stack = l) ∧
  (∀ e l, b.loop = 2 → x.stack = e :: l → 0 < e.remaining → y.pc = e.start ∧ y.stack = { e with remaining := e.remaining - 1 } :: l) ∧
  y.execNo = x.execNo + BitVec.ofNat 32 (b.repeats + 1) ∧
  y.tallies.get 0 0 = x.tallies.get 0 0 + BitVec.ofNat 64 (b.repeats + 1)

/-- The cell `x` after step `b` left the looper: with its landing slot free again where the step releases it (R108). -/
def CellSt.released (x : CellSt) (b : Step) : CellSt := if b.release then x.setValid b.lslot false else x

end Sys2Proof.Machine
end

