-- ==== Sys2Proof/Certificates/Slice0/Obligations.lean ====
section
/-! DEFINITION. The statements for the provers, one for each `Obligations.<Name>`; OBLIGATIONS.json lists them. A premise
`boot.stage ≠ 7` says that the module is not asleep in Chrysalis; 0x4071 is the record of a rejected operation (R2). -/

open Sys2Proof Sys2Proof.Machine

/-! ## Foreman arithmetic and flow -/

/-- For every foreman whose program runs and whose next instruction is the legal word w, the command of w's operation completes:
s[d] takes the value of R127 computed from s[a], s[b] and imm, read at the bits of w that R127 gives, every other register
stays, and the program goes on at the next instruction.
Where the spec leaves room, it rests on the model's readings: log entry 25. -/
def Obligations.ForemanArithmetic : Prop :=
  ∀ (s : State) (f : FmId) (w : FmIns), wfFm f = true → s.fmReady f w →
    let a := (s.fm f).s (w.extractLsb' 46 5).toNat
    let b := (s.fm f).s (w.extractLsb' 41 5).toNat
    let old := (s.fm f).s (w.extractLsb' 51 5).toNat
    let imm := w.extractLsb' 0 32
    let fp := fun (g : BitVec 32 → BitVec 32 → BitVec 32) => (g (a.extractLsb' 0 32) (b.extractLsb' 0 32)).zeroExtend 64
    let runs := fun (op : Nat) (c : Instr) (v : Word) =>
      (w.extractLsb' 56 8).toNat = op → ∃ t, exec c s = .next t ∧ s.fmWrote t f (w.extractLsb' 51 5).toNat v
    runs 0x01 (.fmnLdi f) (imm.signExtend 64) ∧ runs 0x02 (.fmnLdhi f) (imm ++ old.extractLsb' 0 32) ∧
    runs 0x03 (.fmnAdd f) (a + b) ∧ runs 0x04 (.fmnSub f) (a - b) ∧ runs 0x05 (.fmnAddi f) (a + imm.signExtend 64) ∧
    runs 0x06 (.fmnAnd f) (a &&& b) ∧ runs 0x07 (.fmnOr f) (a ||| b) ∧ runs 0x08 (.fmnXor f) (a ^^^ b) ∧
    runs 0x09 (.fmnShl f) (a <<< (imm.extractLsb' 0 6).toNat) ∧ runs 0x0A (.fmnShr f) (a >>> (imm.extractLsb' 0 6).toNat) ∧
    runs 0x0B (.fmnCmplt f) (if a.slt b then 1 else 0) ∧ runs 0x0C (.fmnCmpeq f) (if a = b then 1 else 0) ∧
    runs 0x0D (.fmnFadd f) (fp fadd32) ∧ runs 0x0E (.fmnFmul f) (fp fmul32)

/-- For every foreman whose program runs and whose next instruction is the legal word w, NOP goes on at the next instruction,
JMP at imm, BZ at imm when s[a] is zero and else at the next, BNZ the other way round, and HALT stops the program; no register
is written.
Where the spec leaves room, it rests on the model's readings: log entries 25 and 141. -/
def Obligations.ForemanFlow : Prop :=
  ∀ (s : State) (f : FmId) (w : FmIns), wfFm f = true → s.fmReady f w →
    let a := (s.fm f).s (w.extractLsb' 46 5).toNat
    let next := (s.fm f).pc + 1
    let target := (w.extractLsb' 0 32).toNat
    let goes := fun (op : Nat) (c : Instr) (pc : Nat) (p : ProgSt) =>
      (w.extractLsb' 56 8).toNat = op → ∃ t, exec c s = .next t ∧ s.fmWent t f pc p
    goes 0x00 (.fmnNop f) next .running ∧ goes 0x10 (.fmnJmp f) target .running ∧
    goes 0x11 (.fmnBz f) (if a = 0 then target else next) .running ∧
    goes 0x12 (.fmnBnz f) (if a = 0 then next else target) .running ∧ goes 0x13 (.fmnHalt f) (s.fm f).pc .halted

/-- For every foreman whose program is ready with the legal word w: RDSTEP writes P + 1 of the slot that holds the region;
RDCURVE writes the 64-bit word of FCURVE at 8 times imm; CURVE, over 64 points in ascending step, writes the first factor before
the first point, the last used factor from the last used point on, and the interpolated factor of R444 between two used points.
Where the spec leaves room, it rests on the model's readings: log entries 13 and 25. -/
def Obligations.ForemanReads : Prop :=
  ∀ (s : State) (f : FmId) (w : FmIns), wfFm f = true → s.fmReady f w →
    let d := (w.extractLsb' 51 5).toNat
    let imm := (w.extractLsb' 0 32).toNat
    let mem := (s.fm f).fcurve
    let op := (w.extractLsb' 56 8).toNat
    (∀ n, op = 0x18 → s.slotOfRegion f.region = some n →
      ∃ t, exec (.fmnRdstep f) s = .next t ∧ s.fmWrote t f d (BitVec.ofNat 64 (s.stepP n + 1))) ∧
    (op = 0x19 → (s.fm f).fcurveEcc = false → ∃ t, exec (.fmnRdcurve f) s = .next t ∧ s.fmWrote t f d (mem.word (8 * imm))) ∧
    (∀ n, op = 0x2B → (s.fm f).fcurveEcc = false → s.slotOfRegion f.region = some n →
      let step := fun k => ofLE (mem.read (imm * 512 + 8 * k) 4)
      let factor := fun k => BitVec.ofNat 32 (ofLE (mem.read (imm * 512 + 8 * k + 4) 4))
      let now := s.stepP n + 1
      let unused := 0xFFFF_FFFF
      (∀ k, k < 63 → step k < step (k + 1) ∨ (step k = unused ∧ step (k + 1) = unused)) → step 0 ≠ unused →
      ∃ t, exec (.fmnCurve f) s = .next t ∧ s.fmWrote t f d ((t.fm f).s d) ∧
        (now < step 0 → (t.fm f).s d = (factor 0).zeroExtend 64) ∧
        (∀ k, k < 64 → step k ≠ unused → (k < 63 → step (k + 1) = unused) → step k ≤ now →
          (t.fm f).s d = (factor k).zeroExtend 64) ∧
        (∀ k, k < 63 → step (k + 1) ≠ unused → step k ≤ now → now < step (k + 1) →
          (t.fm f).s d = (fadd32 (factor k) (fmul32 (fsub32 (factor (k + 1)) (factor k))
            (fdiv32 (ofNat32 (now - step k)) (ofNat32 (step (k + 1) - step k))))).zeroExtend 64))

/-- For every foreman whose program is ready with the legal word w. START sends a START with s[a][11:0] to each cell of the mask
in s[b] that is configured and no snag, in order, and clears exactly their done bits. STOP sends a STOP with clear = imm[0] to
each cell of the mask. LATCH sends a write of s[a] to latch entry imm[3:0] of every configured cell that is no snag. WAITDONE
goes on when every masked cell that is configured and no snag has its done bit set and else waits at the instruction. WAITEV
moves the oldest event into s[d], a held release entering the queue in its place, and waits at the instruction on an empty
queue.
Where the spec leaves room, it rests on the model's readings: log entries 5 and 157. -/
def Obligations.ForemanLoopers : Prop :=
  ∀ (s : State) (f : FmId) (w : FmIns), wfFm f = true → s.fmReady f w →
    let op := (w.extractLsb' 56 8).toNat
    let x := s.fm f
    let a := x.s (w.extractLsb' 46 5).toNat
    let b := x.s (w.extractLsb' 41 5).toNat
    let d := (w.extractLsb' 51 5).toNat
    let imm := w.extractLsb' 0 32
    let named := (blockCells f).filter (fun c => b.getLsbD (posOf c))
    let live := fun c => (s.cell c).configured && (s.cell c).looper != .snag
    (op = 0x20 → ∃ t, exec (.fmnStart f) s = .next t ∧
      t.inFlight = s.inFlight ++ (named.filter live).map (fun c => .looperStart c (a.extractLsb' 0 12).toNat) ∧
      t.fm f = { x with pc := x.pc + 1, prog := .running, done := (t.fm f).done, fprogEcc := (t.fm f).fprogEcc } ∧
      (∀ k, k < 64 → (t.fm f).done.getLsbD k = (x.done.getLsbD k && !(named.filter live).any (fun c => posOf c == k))) ∧
      s.onlyFm t f) ∧
    (op = 0x21 → ∃ t, exec (.fmnStop f) s = .next t ∧ s.fmWent t f (x.pc + 1) .running ∧
      t.inFlight = s.inFlight ++ named.map (fun c => .looperStop c (imm.getLsbD 0))) ∧
    (op = 0x22 → ∃ t, exec (.fmnLatch f) s = .next t ∧ s.fmWent t f (x.pc + 1) .running ∧
      t.inFlight = s.inFlight ++ ((blockCells f).filter live).map (fun c => .scalarWrite c (imm.extractLsb' 0 4).toNat a)) ∧
    (op = 0x24 → ∃ t, exec (.fmnWaitdone f) s = .next t ∧
      if (named.filter live).all (fun c => x.done.getLsbD (posOf c)) then s.fmWent t f (x.pc + 1) .running
      else s.fmWent t f x.pc .waiting) ∧
    (∀ e l, op = 0x23 → x.events = e :: l → x.signals = [] → ∃ t, exec (.fmnWaitev f) s = .next t ∧ (t.fm f).s d = e ∧
      (∀ k, k ≠ d → (t.fm f).s k = x.s k) ∧ (t.fm f).events = l ++ x.heldRelease.toList ∧
      t.fm f = { x with sregs := (t.fm f).sregs, pc := x.pc + 1, prog := .running, events := (t.fm f).events, heldRelease := none,
                        fprogEcc := (t.fm f).fprogEcc } ∧ s.onlyFm t f ∧ t.cells = s.cells) ∧
    (op = 0x23 → x.events = [] → ∃ t, exec (.fmnWaitev f) s = .next t ∧ s.fmWent t f x.pc .waiting)

/-! ## Fetch-list builds -/

/-- For every foreman whose program is ready with the legal word w. BUILD_BEGIN with a descriptor that R259 allows opens an
empty build and writes FMN_FETCH_STATUS. SCORE with an open build and a good, valid slot adds the tile's scores to it, clears
the valid bit and runs on; in THRESH mode exactly the candidates that some row scores at least thresh join those selected. On a
slot that is not valid it waits. BUILD_END sends the block's list to the skidder, closes the build and counts the list. A SCORE
that has waited gate_timeout raises 0x2006, abandons the build and goes on. A count return is written into the list's count_reg.
Where the spec leaves room, it rests on the model's readings: log entries 21, 22, 23, 24 and 143. -/
def Obligations.ForemanBuilds : Prop :=
  ∀ (s : State) (f : FmId) (w : FmIns), wfFm f = true →
    let x := s.fm f
    let op := (w.extractLsb' 56 8).toNat
    let d := x.s (w.extractLsb' 46 5).toNat
    let k := (w.extractLsb' 0 32).toNat
    let status := Reg.fmnFetchStatus f
    let tally := Reg.fmnFetchTally f
    (s.fmReady f w → op = 0x28 → (d.extractLsb' 62 2).toNat < 2 → 1 ≤ (d.extractLsb' 41 3).toNat → (d.extractLsb' 41 3).toNat ≤ 4 →
      8 ≤ (d.extractLsb' 44 16).toNat → (d.extractLsb' 44 16).toNat % 8 = 0 → (d.getLsbD 60 = false) →
      ∃ t, exec (.buildBegin f) s = .next t ∧ (t.fm f).build = some ⟨d, [], [], none⟩ ∧
        t.fm f = { x with pc := x.pc + 1, prog := .running, build := (t.fm f).build, fprogEcc := (t.fm f).fprogEcc } ∧
        t.regF status 63 48 = (d.extractLsb' 5 16).toNat ∧ t.regF status 47 32 = 0 ∧ t.regF status 31 16 = (d.extractLsb' 44 16).toNat ∧
        t.regF status 7 7 = 0 ∧ t.regF status 6 6 = (d.extractLsb' 61 1).toNat ∧ t.regF status 5 5 = 0 ∧ t.regF status 2 0 = 1 ∧
        s.onlyFm t f ∧ s.onlyRegs t [status] ∧ t.inFlight = s.inFlight) ∧
    (∀ b, s.fmReady f w → op = 0x29 → x.build = some b → x.svalid k = true →
      let h := tileHdrOf (slice (x.score k) 0 32)
      tileHdrGood (slice (x.score k) 0 32) = true → (h.format = 0x00 ∨ h.format = 0x10) → fmOf h.source = f →
      h.offset + h.cols ≤ 65535 → x.requests = [] →
      ∃ t, exec (.score f) s = .next t ∧ (t.fm f).svalid k = false ∧ (t.fm f).build = some (b.add h (x.score k)) ∧
        t.fm f = { x with pc := x.pc + 1, prog := .running, build := (t.fm f).build, fprogEcc := (t.fm f).fprogEcc,
                          svalid0 := (t.fm f).svalid0, svalid1 := (t.fm f).svalid1 } ∧
        (t.fm f).svalid (1 - k) = x.svalid (1 - k) ∧
        ((b.desc.extractLsb' 62 2).toNat = 0 →
          let fmt : FloatFmt := if h.format = 0 then fBF16 else fFP32
          let bytes := if h.format = 0 then 2 else 4
          let thresh := fBF16.decode (b.desc.extractLsb' 21 16).toNat
          thresh.isNan = false → ∀ c, c ∈ (b.add h (x.score k)).picked ↔ c ∈ b.picked ∨
            ∃ row col, row < h.rows ∧ col < h.cols ∧ c = h.offset + col ∧
              let v := fmt.decode (leAt (x.score k) (32 + (row * h.cols + col) * bytes) bytes)
              v.isNan = false ∧ Num.lt v thresh = false) ∧
        s.onlyFm t f ∧ t.regs = s.regs ∧ t.inFlight = s.inFlight) ∧
    (∀ b, s.fmReady f w → op = 0x29 → x.build = some b → x.svalid k = false →
      ∃ t, exec (.score f) s = .next t ∧ s.fmWent t f x.pc .waiting ∧ t.regs = s.regs ∧ t.inFlight = s.inFlight) ∧
    (∀ b, s.fmReady f w → op = 0x2A → x.build = some b →
      ∃ t, exec (.buildEnd f) s = .next t ∧ t.inFlight = s.inFlight ++ [.fetchList f b.list.1] ∧
        t.fm f = { x with pc := x.pc + 1, prog := .running, build := none, fprogEcc := (t.fm f).fprogEcc,
                          sent := x.sent ++ [((b.desc.extractLsb' 5 16).toNat, (b.desc.extractLsb' 0 5).toNat)] } ∧
        t.regF status 7 7 = ofBool b.list.2 ∧ t.regF status 2 0 = 2 ∧ t.regF tally 62 32 = (s.regF tally 62 32 + 1) % 2 ^ 31 ∧
        t.regF tally 31 16 = min (s.regF tally 31 16 + ofBool b.list.2) 0xFFFF ∧ t.regF tally 15 0 = s.regF tally 15 0 ∧
        s.onlyFm t f ∧ s.onlyRegs t [status, tally]) ∧
    (x.prog = .waiting → ((x.insAt x.pc).extractLsb' 56 8).toNat = 0x29 → x.build.isSome = true →
      ∃ t, exec (.scoreTimeout f) s = .next t ∧ t.fm f = { x with pc := x.pc + 1, prog := .running, build := none } ∧
        t.inFlight = s.inFlight ++ [.faultNotice ⟨0x2006, s.slotOfRegion f.region, blockCell f, 0, 15⟩] ∧
        t.regF status 2 0 = 4 ∧ t.regF tally 15 0 = min (s.regF tally 15 0 + 1) 0xFFFF ∧ s.onlyFm t f ∧
        s.onlyRegs t [status, tally]) ∧
    (∀ tag count reg, x.sent.find? (fun e => e.1 == tag) = some (tag, reg) → reg < 32 →
      s.regF status 63 48 = tag → s.regF status 2 0 = 2 →
      ∃ t, exec (.countReturn f tag count) s = .next t ∧ (t.fm f).s reg = BitVec.ofNat 64 count ∧
        (∀ j, j ≠ reg → (t.fm f).s j = x.s j) ∧ t.fm f = { x with sregs := (t.fm f).sregs, sent := x.sent.erase (tag, reg) } ∧
        t.regF status 47 32 = count % 2 ^ 16 ∧ t.regF status 2 0 = 3 ∧ s.onlyFm t f ∧ s.onlyRegs t [status] ∧
        t.inFlight = s.inFlight.erase (.countReturn f tag count))

/-! ## Loopers and engines -/

/-- For every cell whose looper may issue its next step b. The looper goes on as R112 says. A NOP occupies the looper. GATE WAIT
completes and frees its landing slot where it releases. GATE BARRIER_ENTER enters the barrier with the superstep word and clears
the word. GATE SIGNAL puts its event into the foreman's queue and completes, or occupies the looper while 64 events are queued
or a release is held. SCALAR occupies the looper and has the foreman's register written to its latch entry. END, once every
earlier step has completed, makes the looper idle and reports completion, and else occupies the looper. Nothing else in the cell
and no other cell changes.
Where the spec leaves room, it rests on the model's readings: log entries 7, 8, 141 and 152. -/
def Obligations.LooperSteps : Prop :=
  ∀ (s : State) (c held : Nat) (b : Step), wfCell c = true → s.cellIssues c b →
    let x := s.cell c
    let f := fmOf c
    let event := signalEvent c (b.extractLsb' 76 8).toNat
    let same := fun (t : State) (occ : Option Run) =>
      x.wentOn (t.cell c) b ∧ s.onlyCells t [c] ∧
      t.cell c = ({ x with pc := (t.cell c).pc, stack := (t.cell c).stack, execNo := (t.cell c).execNo, occ := occ,
                           tallies := (t.cell c).tallies, stepEcc := (t.cell c).stepEcc } : CellSt)
    let left := fun (t : State) (y : CellSt) =>
      x.wentOn (t.cell c) b ∧ s.onlyCells t [c] ∧
      t.cell c = ({ y with pc := (t.cell c).pc, stack := (t.cell c).stack, execNo := (t.cell c).execNo,
                           tallies := (t.cell c).tallies, stepEcc := (t.cell c).stepEcc } : CellSt).released b
    (b.cls = 0x0 → ∃ t, exec (.stepNop c held) s = .next t ∧ same t (some (x.mkRun b)) ∧ t.inFlight = s.inFlight) ∧
    (b.cls = 0x6 → (b.extractLsb' 84 4).toNat = 0 → ∃ t, exec (.gateWait c held) s = .next t ∧ left t x ∧ t.inFlight = s.inFlight) ∧
    (∀ n, b.cls = 0x6 → (b.extractLsb' 84 4).toNat = 1 → s.slotOfCell c = some n →
      ∃ t, exec (.gateBarrierEnter c held) s = .next t ∧ left t { x with entered := x.entered + 1, word := 0, noticed := false } ∧
        t.inFlight = s.inFlight ++ [.barrierEnter (.cell c) n x.word]) ∧
    (b.cls = 0x6 → (b.extractLsb' 84 4).toNat = 2 → (s.fm f).events.length < 64 → (s.fm f).heldRelease = none →
      ∃ t, exec (.gateSignal c held) s = .next t ∧ left t x ∧ t.inFlight = s.inFlight ∧
        t.fm f = { s.fm f with events := (s.fm f).events ++ [event] } ∧ s.onlyFm t f) ∧
    (b.cls = 0x6 → (b.extractLsb' 84 4).toNat = 2 → (64 ≤ (s.fm f).events.length ∨ (s.fm f).heldRelease ≠ none) →
      ∃ t, exec (.gateSignal c held) s = .next t ∧ same t (some (x.mkRun b)) ∧ t.inFlight = s.inFlight ∧
        t.fm f = { s.fm f with signals := (s.fm f).signals ++ [(c, (b.extractLsb' 76 8).toNat)] } ∧ s.onlyFm t f) ∧
    (b.cls = 0x7 → ∃ t, exec (.stepScalar c held) s = .next t ∧ same t (some (x.mkRun b)) ∧
      t.inFlight = s.inFlight ++ [.scalarWrite c (b.extractLsb' 79 4).toNat ((s.fm f).s (b.extractLsb' 83 5).toNat)]) ∧
    (b.cls = 0xF → x.enginesIdle = true → ∃ t, exec (.stepEnd c held) s = .next t ∧ left t { x with looper := .idle } ∧
      t.inFlight = s.inFlight ++ [.complete c]) ∧
    (b.cls = 0xF → x.enginesIdle = false → ∃ t, exec (.stepEnd c held) s = .next t ∧ same t (some (x.mkRun b)) ∧
      t.inFlight = s.inFlight)

/-- For every running looper with no looper-occupying step, whose next step b is held: the command of b's class adds the held
clocks to exactly one tally, that of the first held gate in the order landing, barrier, window, queue, and sync_wait when no
gate but the sync condition or a pending engine holds the step; nothing else of the module changes.
Where the spec leaves room, it rests on the model's readings: log entries 7 and 142. -/
def Obligations.HeldSteps : Prop :=
  ∀ (s : State) (c held k : Nat) (b : Step), s.cellOffers c b → (s.cell c).occ = none →
    let x := s.cell c
    let landing := ∃ l ∈ landSlots x b, x.valid l = false
    let barrier := b.getLsbD 122 = true ∧ x.passed ≠ x.entered
    let window := b.getLsbD 120 = true ∧ s.windowFlag c (b.extractLsb' 115 3).toNat = false
    let queue := b.getLsbD 121 = true ∧ 4 ≤ x.queue.length
    let waits := (b.getLsbD 114 = true ∧ x.enginesIdle = false) ∨ ∃ e, engineOf b.cls = some e ∧ (x.eng e).pending ≠ none
    ((landing ∧ k = 3) ∨ (¬landing ∧ barrier ∧ k = 4) ∨ (¬landing ∧ ¬barrier ∧ window ∧ k = 5) ∨
      (¬landing ∧ ¬barrier ∧ ¬window ∧ queue ∧ k = 6) ∨ (¬landing ∧ ¬barrier ∧ ¬window ∧ ¬queue ∧ waits ∧ k = 8)) →
    ∀ i, (i = .stepNop c held ∧ b.cls = 0 ∨ i = .stepMatrix c held ∧ b.cls = 1 ∨ i = .stepVector c held ∧ b.cls = 2 ∨
        i = .stepLoad c held ∧ b.cls = 3 ∨ i = .stepStore c held ∧ b.cls = 4 ∨ i = .stepExchange c held ∧ b.cls = 5 ∨
        i = .gateWait c held ∧ b.cls = 6 ∧ (b.extractLsb' 84 4).toNat = 0 ∨
        i = .gateBarrierEnter c held ∧ b.cls = 6 ∧ (b.extractLsb' 84 4).toNat = 1 ∨
        i = .gateSignal c held ∧ b.cls = 6 ∧ (b.extractLsb' 84 4).toNat = 2 ∨
        i = .stepScalar c held ∧ b.cls = 7 ∨ i = .stepEnd c held ∧ b.cls = 15) →
      ∃ t, exec i s = .next t ∧ t = { s with cells := t.cells } ∧ s.onlyCells t [c] ∧
        t.cell c = { x with tallies := (t.cell c).tallies } ∧
        (t.cell c).tallies.get 0 k = x.tallies.get 0 k + BitVec.ofNat 64 held ∧
        (∀ j, j ≠ k → (t.cell c).tallies.get 0 j = x.tallies.get 0 j)

/-- For every cell whose looper may issue its next step b, of class MATRIX, VECTOR, LOAD or STORE with one execution, on a free
engine with no step of another engine at the queue head: the looper goes on as R112 says, and when the execution computes the
cell y, the cell holds y with the step done on its engine, its landing slot freed where the step reads it and releases it; no
other cell changes and no message is sent. A step whose engine is busy becomes the engine's pending step.
Where the spec leaves room, it rests on the model's readings: log entries 7, 8 and 152. -/
def Obligations.EngineSteps : Prop :=
  ∀ (s : State) (c held : Nat) (b : Step) (e : Engine) (i : Instr), s.cellIssues c b → eccAt (s.cell c).stepEcc (s.cell c).pc = none →
    (i = .stepMatrix c held ∧ b.cls = 1 ∧ e = .array ∨ i = .stepVector c held ∧ b.cls = 2 ∧ e = .vector ∨
      i = .stepLoad c held ∧ b.cls = 3 ∧ e = .move ∨ i = .stepStore c held ∧ b.cls = 4 ∧ e = .move) →
    let x := s.cell c
    let z := x.issued b
    let r := x.mkRun b
    x.wentOn z b ∧
    (∀ y, b.repeats = 0 → x.eng e = .idle → b.holdB = false → namesHead b = false →
      runExec (s.env c) (z.setEng e { z.eng e with running := some r }) r = .ok y → y.looper = .running → y.occ = none →
      y.notice = none → y.fault = none → y.stopping = none → y.eng e = { z.eng e with running := some r } →
      ∃ t, exec i s = .next t ∧ t.inFlight = s.inFlight ∧ s.onlyCells t [c] ∧
        let y' := y.setEng e { y.eng e with running := some { r with next := 1, done := true } }
        t.cell c = if readsLslot (z.setEng e { z.eng e with running := some r }) b then y'.released b else y') ∧
    (∀ q, (x.eng e).running = some q → q.done = true →
      ∃ t, exec i s = .next t ∧ t.inFlight = s.inFlight ∧ s.onlyCells t [c] ∧
        t.cell c = z.setEng e { x.eng e with pending := some r })

/-- For every cell that is not resetting. START moves an idle looper to RUNNING at its step, with an empty loop stack and the
landing valid bits left alone, and has no effect in any other state. STOP moves a running looper whose steps have completed, or
a halted one, to IDLE, ends the issue of one whose steps have not, and clears both valid bits where it says so. FENCE moves any
looper to SNAG and clears both valid bits. A latch write changes its entry alone. COMPLETE sets the sending cell's done bit
alone. A tally read answers with the tally, a tally clear zeroes every tally, and a reply reaches the ranger. A wait that
outlasts gate_timeout halts a looper whose steps have completed, with fault 0x1004. Each takes its message from those in flight
and changes nothing else.
Where the spec leaves room, it rests on the model's readings: log entries 5, 18, 19 and 141. -/
def Obligations.LooperCommands : Prop :=
  ∀ (s : State) (c : Nat), wfCell c = true → (s.cell c).resetting = none →
    let x := s.cell c
    let f := fmOf c
    let cleared := fun (y : CellSt) (b : Bool) => ({ y with valid0 := y.valid0 && !b, valid1 := y.valid1 && !b } : CellSt)
    let becomes := fun (i : Instr) (y : CellSt) => ∃ t, exec i s = .next t ∧ t.cell c = y ∧ s.onlyCells t [c] ∧
      t = { s.deliver i with cells := t.cells }
    (∀ n, x.looper = .idle → leAt (x.cfg.read 0x20 32) 0x0C 4 = 0 →
      becomes (.looperStart c n) { x with looper := .running, pc := n, stack := [], epoch := x.epoch + 1, execNo := 0 }) ∧
    (∀ n, x.looper = .idle → ∃ t, exec (.looperStart c n) s = .next t ∧ s.onlyCells t [c] ∧
      t.cell c = { x with looper := .running, pc := n, stack := [], epoch := x.epoch + 1, execNo := 0, latch := (t.cell c).latch }) ∧
    (∀ n, x.looper ≠ .idle → exec (.looperStart c n) s = .next (s.deliver (.looperStart c n))) ∧
    (∀ b, x.looper = .running → x.occ = none → x.enginesIdle = true → x.fault = none → x.notice = none →
      becomes (.looperStop c b) (cleared { x with looper := .idle, stopping := none } (b || x.stopping.getD false))) ∧
    (∀ b, x.looper = .running → (x.occ ≠ none ∨ x.enginesIdle = false) → x.notice = none →
      becomes (.looperStop c b) { x with stopping := some (b || x.stopping.getD false) }) ∧
    (∀ b, x.looper = .halted → becomes (.looperStop c b) (cleared { x with looper := .idle } b)) ∧
    (∀ b, x.looper ≠ .halted → x.looper ≠ .running → becomes (.looperStop c b) (cleared x b)) ∧
    (∃ t, exec (.fence c) s = .next t ∧ (t.cell c).looper = .snag ∧ (t.cell c).valid0 = false ∧ (t.cell c).valid1 = false ∧
      (t.cell c).queue = [] ∧ (t.cell c).stack = [] ∧ (t.cell c).near = x.near ∧ (t.cell c).under = x.under ∧
      (t.cell c).stepMem = x.stepMem ∧ (t.cell c).latch = x.latch ∧ (t.cell c).tallies = x.tallies ∧ s.onlyCells t [c] ∧
      t.inFlight = s.inFlight.erase (.fence c)) ∧
    (∀ e v, e < 16 → x.occ = none → ∃ t, exec (.scalarWrite c e v) s = .next t ∧ (t.cell c).latch[e]? = some v ∧
      (∀ k, k ≠ e → (t.cell c).latch[k]? = x.latch[k]?) ∧ t.cell c = { x with latch := (t.cell c).latch } ∧ s.onlyCells t [c] ∧
      t = { s.deliver (.scalarWrite c e v) with cells := t.cells }) ∧
    (∀ r v, x.occ = some r → r.bits.cls = 7 → x.looper = .running → x.fault = none → x.stopping = none → x.notice = none →
      let e := (r.bits.extractLsb' 79 4).toNat
      ∃ t, exec (.scalarWrite c e v) s = .next t ∧ (t.cell c).latch[e]? = some v ∧ (t.cell c).occ = none ∧
        t.cell c = ({ x with latch := (t.cell c).latch, occ := none } : CellSt).released r.bits ∧ s.onlyCells t [c]) ∧
    (∃ t, exec (.complete c) s = .next t ∧ t.fm f = { s.fm f with done := (t.fm f).done } ∧ s.onlyFm t f ∧
      (∀ k, k < 64 → (t.fm f).done.getLsbD k = ((s.fm f).done.getLsbD k || k == posOf c)) ∧
      t = { s.deliver (.complete c) with fms := t.fms }) ∧
    (∀ k, exec (.tallyRead c k) s = .next { s.deliver (.tallyRead c k) with
      inFlight := s.inFlight.erase (.tallyRead c k) ++ [.tallyReply c k (x.tallies.get 0 k)] }) ∧
    becomes (.tallyClear c) { x with tallies := [] } ∧
    (∀ k v, k < 16 → ∃ t, exec (.tallyReply c k v) s = .next t ∧ t.tallyLast.get 0 (c * 16 + k) = v ∧
      (∀ d j, j < 16 → (d, j) ≠ (c, k) → t.tallyLast.get 0 (d * 16 + j) = s.tallyLast.get 0 (d * 16 + j)) ∧
      t = { s.deliver (.tallyReply c k v) with tallyLast := t.tallyLast }) ∧
    (∀ k, x.looper = .running → x.fault = none → x.stopping = none → x.occ = none → x.enginesIdle = true → x.notice = none →
      (s.heldBy c (x.stepAt x.pc) = some 3 ∧ k = 1 ∨ s.heldBy c (x.stepAt x.pc) = some 5 ∧ k = 2) →
      ∃ t, exec (.gateTimeout c) s = .next t ∧ t.cell c = { x with looper := .halted } ∧ s.onlyCells t [c] ∧
        t.inFlight = s.inFlight ++ [.faultNotice ⟨0x1004, s.slotOfCell c, c, x.pc + k * 2 ^ 16, s.posOfCell c⟩])

/-! ## The mesh, barriers and stream engines -/

/-- For every running cell without a fault, a stop or a pending notice. A NOP that completes leaves the looper, and an END once
every engine is idle makes it idle and reports completion. A VECTOR, LOAD or STORE whose executions are made leaves its engine,
a STORE's outbox tiles becoming visible. An EXCHANGE whose sends have left and whose receives have completed leaves its engine
and enters the barrier where bit 63 says so. An EXCHANGE step whose range holds a COMPILED entry enters the half sync as it
issues and sends nothing. The exchange epoch comes to no cell while a participant has not entered, and else once to each.
Where the spec leaves room, it rests on the model's readings: log entries 8, 32 and 152. -/
def Obligations.StepsComplete : Prop :=
  (∀ (s : State) (c wait : Nat) (r : Run), (s.cell c).looper = .running → (s.cell c).fault = none → (s.cell c).stopping = none →
    (s.cell c).notice = none →
    let x := s.cell c
    let leaves := fun (e : Engine) (y : CellSt) => ∃ t, exec (.stepComplete c e wait) s = .next t ∧ t = { s with cells := t.cells } ∧
      t.cell c = y ∧ s.onlyCells t [c]
    (x.occ = some r → r.bits.cls = 0 → leaves .looper (({ x with occ := none } : CellSt).released r.bits)) ∧
    (x.occ = some r → r.bits.cls = 0xF → x.enginesIdle = true → ∃ t, exec (.stepComplete c .looper wait) s = .next t ∧
      t.cell c = ({ x with occ := none, looper := .idle } : CellSt).released r.bits ∧ s.onlyCells t [c] ∧
      t.inFlight = s.inFlight ++ [.complete c]) ∧
    (x.vector = ⟨some r, none⟩ → r.done = true → r.bits.cls = 2 → r.bits.release = false → leaves .vector { x with vector := .idle }) ∧
    (x.move = ⟨some r, none⟩ → r.done = true → r.bits.cls = 3 → r.bits.release = false → leaves .move { x with move := .idle }) ∧
    (x.move = ⟨some r, none⟩ → r.done = true → r.bits.cls = 4 → r.bits.release = false →
      leaves .move { x with move := .idle, outbox := x.outbox ++ x.outNew, outNew := [] }) ∧
    (x.exch = ⟨some r, none⟩ → x.exchDone = true → r.bits.getLsbD 63 = false →
      leaves .exchange (({ x with exch := .idle, xrun := none } : CellSt).released r.bits)) ∧
    (∀ n, x.exch = ⟨some r, none⟩ → x.exchDone = true → r.bits.getLsbD 63 = true → s.slotOfCell c = some n →
      ∃ t, exec (.stepComplete c .exchange wait) s = .next t ∧ s.onlyCells t [c] ∧
        t.cell c = { ({ x with exch := .idle, xrun := none } : CellSt).released r.bits with
          entered := x.entered + 1, word := 0, noticed := false } ∧
        t.inFlight = s.inFlight ++ [.barrierEnter (.cell c) n x.word])) ∧
  (∀ (s : State) (c held : Nat) (b : Step) (y : CellSt) (ks : List Nat), s.cellIssues c b → b.cls = 5 →
    eccAt (s.cell c).stepEcc (s.cell c).pc = none → (s.cell c).exch = .idle → (s.cell c).xrun = none →
    let x := s.cell c
    let z := { x.issued b with hsEntered := x.hsEntered + 1, exch := ⟨some (x.mkRun b), none⟩ }
    let ports := match s.slotOfCell c with
      | some n => (s.slot n).ports
      | none => 0
    x.needsEpoch b = true → x.hsEpochs ≤ x.hsEntered → checkEntries c ports (exchRange b) z = (ks, y, none) →
    ∃ t q, exec (.stepExchange c held) s = .next t ∧ (t.cell c).hsEntered = x.hsEntered + 1 ∧ (t.cell c).xrun = some q ∧
      q.needEpoch = true ∧ q.started = false ∧ q.number = x.hsEntered + 1 ∧
      q.entries = ks.filter (fun k => (y.xEntry k).kind == 0 || (y.xEntry k).kind == 2) ∧ (t.cell c).exch.running = some (x.mkRun b) ∧
      (t.cell c).near = x.near ∧ s.onlyCells t [c] ∧ t.inFlight = s.inFlight) ∧
  (∀ (s : State) (half n : Nat),
    let cs := s.halfCells n half
    ((∃ c ∈ cs, (s.cell c).hsEntered ≤ (s.cell c).hsEpochs) → exec (.exchangeEpoch half n) s = .next s) ∧
    (cs ≠ [] → cs.Nodup → (∀ c ∈ cs, (s.cell c).hsEpochs < (s.cell c).hsEntered) → (∀ c ∈ cs, (s.cell c).xrun = none) →
      ∃ t, exec (.exchangeEpoch half n) s = .next t ∧
        (∀ c ∈ cs, t.cell c = { s.cell c with hsEpochs := (s.cell c).hsEpochs + 1 }) ∧ s.onlyCells t cs ∧
        (t.rgn (half / 2)).synced = true ∧ t.inFlight = s.inFlight))

/-- For a CREDIT flit with good parity at a powered router. Where its route leads to a neighbour and the output holds a credit,
the flit goes on, takes that credit and returns the one it held; without a credit it waits at the router and nothing is sent. A
DATA flit at its cell writes its 64 bytes to its granule of near SRAM, adds one to its arrival counter and returns its credit. A
flit with bad parity is discarded, returns its credit and raises 0x100C. A credit returned to an idle output frees it, and one
beyond the depth raises 0x1008, at a crossing 0x3002. A grant lets the score entry send. An absorption notice counts at the
sender's foreman.
Where the spec leaves room, it rests on the model's readings: log entries 5, 29, 30, 31, 33, 34 and 144. -/
def Obligations.MeshFlits : Prop :=
  ∀ (s : State) (c : Nat) (p : Port) (f : Flit) (u : Nat),
    let b := f.sideband
    let flit := Instr.flitArrive c p f false
    let uses := fun (c : Nat) (k : Nat) => (s.router c).used.get 0 k
    let back := Instr.creditReturn u (opposite p) .credit
    let comes := (s.rgn (regionOf c)).dark = false ∧ sbGood b = true ∧ (b.extractLsb' 70 2).toNat = 1 ∧
      neighbor c p = some u ∧ uses u (linkKey u (opposite p) .credit) ≠ 0
    (∀ q n, comes → s.route c f = .hop q n → uses c (linkKey c q .credit) < linkCap c q .credit →
      ∃ t, exec flit s = .next t ∧ t.inFlight = s.inFlight.erase flit ++ [.flitArrive n (opposite q) f false, back] ∧
        t.router c = { s.router c with used := (t.router c).used } ∧
        (t.router c).used.get 0 (linkKey c q .credit) = uses c (linkKey c q .credit) + 1 ∧
        (∀ k, k ≠ linkKey c q .credit → (t.router c).used.get 0 k = uses c k) ∧ (∀ d, d ≠ c → t.router d = s.router d) ∧
        t.cells = s.cells ∧ t.regs = s.regs) ∧
    (∀ q n, comes → s.route c f = .hop q n → ¬ uses c (linkKey c q .credit) < linkCap c q .credit →
      ∃ t, exec flit s = .next t ∧ t.inFlight = s.inFlight.erase flit ∧
        t.router c = { s.router c with wait := (s.router c).wait ++ [(p, f)] } ∧ (∀ d, d ≠ c → t.router d = s.router d) ∧
        t.cells = s.cells) ∧
    (comes → s.route c f = .loc → (b.extractLsb' 68 2).toNat = 0 → s.localAbsorbs c = false → (s.cell c).xrun = none → f.data.length = 64 →
      let at_ := (b.extractLsb' 11 13).toNat * 64
      let tag := (b.extractLsb' 64 4).toNat
      ∃ t, exec flit s = .next t ∧ t.inFlight = s.inFlight.erase flit ++ [back] ∧
        (∀ k, k < 64 → (t.cell c).near.byte (at_ + k) = f.data.getD k 0) ∧
        (∀ a, a < at_ ∨ at_ + 64 ≤ a → (t.cell c).near.byte a = (s.cell c).near.byte a) ∧
        (t.cell c).arrivals.get 0 tag = ((s.cell c).arrivals.get 0 tag + 1) % 65536 ∧
        (∀ j, j ≠ tag → (t.cell c).arrivals.get 0 j = (s.cell c).arrivals.get 0 j) ∧
        t.cell c = { s.cell c with near := (t.cell c).near, arrivals := (t.cell c).arrivals } ∧ s.onlyCells t [c]) ∧
    ((s.rgn (regionOf c)).dark = false → sbGood b = false → (b.extractLsb' 70 2).toNat = 1 → neighbor c p = some u →
      s.localRefuses c f = false →
      ∃ t, exec flit s = .next t ∧ t.inFlight = s.inFlight.erase flit ++
        [back, .faultNotice ⟨0x100C, s.slotOfCell c, c, portNum p + field 25 8 (b.extractLsb' 24 18).toNat, s.posOfCell c⟩] ∧
        t.cells = s.cells ∧ t.routers = s.routers) ∧
    (let give := Instr.creditReturn c p .credit
     let key := linkKey c p .credit
     (uses c key ≠ 0 → (s.router c).wait = [] → (s.cell c).xrun = none →
        ∃ t, exec give s = .next t ∧ (t.router c).used.get 0 key = uses c key - 1 ∧
          (∀ k, k ≠ key → (t.router c).used.get 0 k = uses c k) ∧ (∀ d, d ≠ c → t.router d = s.router d) ∧
          t = { s.deliver give with routers := t.routers }) ∧
     (∀ n, uses c key = 0 → neighbor c p = some n → exec give s = .next
        (if halfOf c = halfOf n then (s.deliver give).raise 0x1008 (s.slotOfCell c) c (portNum p) (s.posOfCell c)
         else (s.deliver give).raise 0x3002 (s.slotOfRegion (regionOf c)) (regionOf c + 0x1F * 256) 0))) ∧
    (∀ r slot, (s.cell c).xrun = some r → ¬ uses c (linkKey c .loc .credit) < linkCap c .loc .credit → r.todo ≠ [] → r.started = true →
      ∃ t, exec (.grant c slot) s = .next t ∧ t.cell c = { s.cell c with xrun := some { r with granted := true } } ∧
        s.onlyCells t [c] ∧ t = { s.deliver (.grant c slot) with cells := t.cells }) ∧
    (∀ dest tag, ∃ t, exec (.absorbed c dest tag) s = .next t ∧
      t.regF (Reg.fmnAbsorbed (fmOf c)) 31 0 = min (s.regF (Reg.fmnAbsorbed (fmOf c)) 31 0 + 1) (2 ^ 32 - 1) ∧
      t.regF (Reg.fmnAbsorbed (fmOf c)) 63 32 = s.regF (Reg.fmnAbsorbed (fmOf c)) 63 32 ∧
      s.onlyRegs t [Reg.fmnAbsorbed (fmOf c)] ∧ t = { s.deliver (.absorbed c dest tag) with regs := t.regs })

/-- ROUTER_DEAD for an entry not yet in its region's table raises 0x3003, fences the cell, raises 0x2002, and with fewer than
four entries adds the entry; the fifth raises 0x3004 and is not added. A repeated report changes nothing. DETOUR_CLEAR empties
the table of a region whose slot runs no job, and is rejected, with the fault record of 0x4071 alone, while a job runs there.
Where the spec leaves room, it rests on the model's readings: log entries 30 and 136. -/
def Obligations.DeadRouters : Prop :=
  ∀ (s : State) (c : Nat) (link : Option Port),
    let r := regionOf c
    let unit := r + 0x1F * 256
    let detail := field 17 0 c + (match link with
      | some p => 2 ^ 18 + field 21 20 (portNum p)
      | none => 0)
    let slot := s.slotOfRegion r
    let told : List Instr := [.faultNotice ⟨0x3003, slot, unit, detail, 15⟩, .fence c,
      .faultNotice ⟨0x2002, s.slotOfCell c, c, 0, s.posOfCell c⟩]
    ((c, link) ∈ (s.rgn r).dead → exec (.routerDead c link) s = .next s) ∧
    (∀ p, link = some p → (c, link) ∉ (s.rgn r).dead → (s.rgn r).dead.length < 4 → ∃ t, exec (.routerDead c link) s = .next t ∧
      t.inFlight = s.inFlight ++ told ∧ t.rgn r = { s.rgn r with dead := (s.rgn r).dead ++ [(c, link)] } ∧ s.onlyRgn t r ∧
      t.routers = s.routers) ∧
    (link = none → (c, link) ∉ (s.rgn r).dead → (s.rgn r).dead.length < 4 → ∃ t, exec (.routerDead c link) s = .next t ∧
      (t.rgn r).dead = (s.rgn r).dead ++ [(c, none)] ∧ s.onlyRgn t r ∧ (t.router c).wait = [] ∧ (t.router c).slips = [] ∧
      (∀ p f loses, .flitArrive c p f loses ∉ t.inFlight) ∧ (∀ d, d ≠ c → t.router d = s.router d)) ∧
    (∀ p, link = some p → (c, link) ∉ (s.rgn r).dead → 4 ≤ (s.rgn r).dead.length → ∃ t, exec (.routerDead c link) s = .next t ∧
      t.inFlight = s.inFlight ++ told ++ [.faultNotice ⟨0x3004, slot, unit, 0, 15⟩] ∧
      t.rgn r = { s.rgn r with detourNone := true } ∧ s.onlyRgn t r) ∧
    (∀ src q v, q < 72 → s.boot.stage ≠ 7 → v.getLsbD 0 = true → (∀ n, s.slotOfRegion q = some n → s.jobRuns n = false) →
      ∃ t, exec (.detourClear src q v) s = .next t ∧ t.rgn q = { s.rgn q with dead := [], detourNone := false } ∧ s.onlyRgn t q ∧
        t.inFlight = s.inFlight ∧ s.onlyRegs t [Reg.rgnFabricCtrl q]) ∧
    (∀ src q v n, q < 72 → s.boot.stage ≠ 7 → v.getLsbD 0 = true → s.slotOfRegion q = some n → s.jobRuns n = true →
      exec (.detourClear src q v) s = .next { s with inFlight := s.inFlight ++
        [.faultNotice ⟨0x4071, some n, srcSession src, Reg.rgnFabricCtrl q, 15⟩] })

/-- An entry at a hub that has not closed joins those the hub holds, with its word merged, and fixes the participants. While a
child of the hub is missing nothing is sent; with the last participating cell a block sends its entry upward, with the last
block a region whose outbox tiles are all taken does, and with the last region the module root releases the barrier to both
halves of every region. At a release each configured cell of the half, unless it is a snag, has one more pass, the foremen begin
the next barrier, and the ranger writes the step's record. A window flag changes alone. A numerics notice merges into its
block's, its region's and the superstep's word.
Where the spec leaves room, it rests on the model's readings: log entries 5, 35 and 36. -/
def Obligations.BarrierMessages : Prop :=
  (∀ (s : State) (n : Nat) (w : BitVec 32), n < 8 →
    let parts := some (s.barrierCells n)
    let word := fun (a : Nat) => (mergeWords (BitVec.ofNat 32 (s.regF a 31 0)) w).toNat
    (∀ c, wfCell c = true →
      let f := fmOf c
      let h := (s.fm f).hub
      let m := Instr.barrierEnter (.cell c) n w
      h.closed = false → .cell c ∉ h.entered →
      ((∃ d ∈ s.blockParts n f, d ≠ c ∧ .cell d ∉ h.entered) → ∃ t, exec m s = .next t ∧ t.inFlight = s.inFlight.erase m ∧
        t.fm f = { s.fm f with hub := { h with entered := h.entered ++ [.cell c], word := mergeWords h.word w } } ∧ s.onlyFm t f ∧
        t.slot n = { s.slot n with parts := parts } ∧ s.onlySlot t n ∧ t.regF (Reg.fmnNumerics f) 31 0 = word (Reg.fmnNumerics f) ∧
        s.onlyRegs t [Reg.fmnNumerics f] ∧ t.cells = s.cells) ∧
      ((∀ d ∈ s.blockParts n f, d = c ∨ .cell d ∈ h.entered) → ∃ t, exec m s = .next t ∧
        t.inFlight = s.inFlight.erase m ++ [.barrierEnter (.block f) n (mergeWords h.word w)] ∧
        (t.fm f).hub.closed = true ∧ (t.fm f).hub.entered = [] ∧ s.onlyFm t f ∧ t.slot n = { s.slot n with parts := parts } ∧
        t.regF (Reg.fmnNumerics f) 31 0 = word (Reg.fmnNumerics f) ∧ s.onlyRegs t [Reg.fmnNumerics f] ∧ t.cells = s.cells)) ∧
    (∀ f, wfFm f = true →
      let r := f.region
      let x := s.rgn r
      let h := x.hub
      let m := Instr.barrierEnter (.block f) n w
      h.closed = false → h.owed = none → .block f ∉ h.entered →
      ((∃ g ∈ s.partBlocks n r, g ≠ f ∧ .block g ∉ h.entered) → ∃ t, exec m s = .next t ∧ t.inFlight = s.inFlight.erase m ∧
        t.rgn r = { x with word := mergeWords x.word w,
                           hub := { h with entered := h.entered ++ [.block f], word := mergeWords h.word w } } ∧ s.onlyRgn t r ∧
        t.regF (Reg.rgnNumerics r) 31 0 = word (Reg.rgnNumerics r) ∧ s.onlyRegs t [Reg.rgnNumerics r]) ∧
      ((∀ g ∈ s.partBlocks n r, g = f ∨ .block g ∈ h.entered) → s.owedTiles n r = [] → ∃ t, exec m s = .next t ∧
        t.inFlight = s.inFlight.erase m ++ [.barrierEnter (.region r) n (mergeWords x.word w)] ∧ (t.rgn r).word = 0 ∧
        (t.rgn r).hub.closed = true ∧ (t.rgn r).hub.entered = [] ∧ (t.rgn r).hub.word = mergeWords x.word w ∧ s.onlyRgn t r ∧
        t.regF (Reg.rgnNumerics r) 31 0 = word (Reg.rgnNumerics r) ∧ s.onlyRegs t [Reg.rgnNumerics r]) ∧
      ((∀ g ∈ s.partBlocks n r, g = f ∨ .block g ∈ h.entered) → s.owedTiles n r ≠ [] → ∃ t, exec m s = .next t ∧
        t.inFlight = s.inFlight.erase m ∧ (t.rgn r).word = mergeWords x.word w ∧ (t.rgn r).hub.closed = false ∧
        (t.rgn r).hub.owed = some (s.owedTiles n r) ∧ s.onlyRgn t r)) ∧
    (∀ r,
      let x := s.slot n
      let m := Instr.barrierEnter (.region r) n w
      x.root.closed = false → x.root.failed = false → .region r ∉ x.root.entered → x.sync = [] →
      ((∃ q ∈ s.partRegions n, q ≠ r ∧ .region q ∉ x.root.entered) → ∃ t, exec m s = .next t ∧ t.inFlight = s.inFlight.erase m ∧
        t.slot n = { x with parts := parts, root := { x.root with entered := x.root.entered ++ [.region r],
                                                                  word := mergeWords x.root.word w } } ∧ s.onlySlot t n) ∧
      ((∀ q ∈ s.partRegions n, q = r ∨ .region q ∈ x.root.entered) → ∃ t, exec m s = .next t ∧
        t.inFlight = s.inFlight.erase m ++ (x.rect.regions.flatMap (fun q => [2 * q, 2 * q + 1])).map (.barrierRelease n) ∧
        t.slot n = { x with parts := none, root := .reset, releases := x.releases + 1,
                            summary := some (mergeWords x.root.word w) } ∧ s.onlySlot t n)) ∧
    (∀ k on, k < 8 → ∃ t, exec (.windowFlag n k on) s = .next t ∧ (t.slot n).wflags.getLsbD k = on ∧
      (∀ j, j ≠ k → (t.slot n).wflags.getLsbD j = (s.slot n).wflags.getLsbD j) ∧
      t.slot n = { s.slot n with wflags := (t.slot n).wflags } ∧ s.onlySlot t n ∧
      t = { s.deliver (.windowFlag n k on) with slots := t.slots }) ∧
    (∀ c, wfCell c = true →
      let m := Instr.numericsNotice c w
      let a := Reg.fmnNumerics (fmOf c)
      let b := Reg.rgnNumerics (regionOf c)
      ∃ t, exec m s = .next t ∧ t.regF a 31 0 = word a ∧ t.regF b 31 0 = word b ∧ s.onlyRegs t [a, b] ∧
        t.rgn (regionOf c) = { s.rgn (regionOf c) with word := mergeWords (s.rgn (regionOf c)).word w } ∧
        s.onlyRgn t (regionOf c) ∧ t = { s.deliver m with regs := t.regs, rgns := t.rgns })) ∧
  (∀ (s : State) (n half : Nat), n < 8 → half < 144 → s.jobState n ≠ 2 →
    let r := half / 2
    ∃ t, exec (.barrierRelease n half) s = .next t ∧ t.inFlight = s.inFlight.erase (.barrierRelease n half) ∧
      (∀ c, halfOf c = half → (s.cell c).configured = true → (s.cell c).looper ≠ .snag → (s.cell c).resetting = none →
        (s.cell c).testing = none → t.cell c = { s.cell c with passed := (s.cell c).passed + 1 }) ∧
      (∀ c, halfOf c ≠ half ∨ (s.cell c).looper = .snag ∨ (s.cell c).configured = false → t.cell c = s.cell c) ∧
      (∀ f, wfFm f = true → fmHalf f = half → (s.fm f).configured = true →
        t.fm f = { (s.fm f).queueRelease (s.slot n).releases with hub := (t.fm f).hub } ∧
        ((s.fm f).hub.closed = true → (t.fm f).hub = .reset) ∧
        t.regF (Reg.fmnBarrierStatus f) 63 32 = (s.regF (Reg.fmnBarrierStatus f) 63 32 + 1) % 2 ^ 32) ∧
      (half % 2 = 0 → ((s.rgn r).hub.closed = true → (t.rgn r).hub = .reset) ∧ (t.rgn r).slips = 0 ∧
        t.regF (Reg.rgnXchgStall r) 15 0 = min (s.rgn r).slips 0xFFFF ∧
        t.regF (Reg.rgnNumericsLast r) 63 32 = (s.regF (Reg.rgnNumericsLast r) 63 32 + 1) % 2 ^ 32 ∧
        t.regF (Reg.rgnNumericsLast r) 31 0 = (s.rgn r).hub.word.toNat) ∧
      s.onlyRgn t r ∧ (t.slot n).summary = none ∧
      (∀ w, (s.slot n).summary = some w → (t.slot n).records =
        (⟨(s.slot n).releases, s.stepP n + 1, w, false, decide (0 < s.regF (Reg.fltJob n) 31 24), false⟩ ::
          (s.slot n).records).take 1024) ∧
      ((s.slot n).summary = none → t.slot n = s.slot n) ∧ s.onlySlot t n ∧ t.routers = s.routers)

/-- A timer of a hub that holds no entry, has closed or has expired has no effect. A foreman's expiry raises 0x2001 with its
first missing cell and the number missing, counts the timeout, records the missing cells, and fences each with 0x2002; a
region's probes the missing blocks, and the root's probes the missing regions and raises 0x4001 for the unpowered ones and the
missing modules; each fails the barrier. A probe at a foreman with no missing cell only answers. A foreman that has not answered
in time is marked silent in its region with 0x3001. BARRIER_FAIL marks the slot's hubs failed and leaves every cell as it was.
Where the spec leaves room, it rests on the model's readings: log entry 35. -/
def Obligations.BarrierTimeouts : Prop :=
  ∀ (s : State) (n : Nat),
    let fail : List Instr := if (s.slot n).root.failed then [] else [.barrierFail n]
    let fenced := fun (c : Nat) => [Instr.fence c, .faultNotice ⟨0x2002, s.slotOfCell c, c, 0, s.posOfCell c⟩]
    (∀ h, s.hubTiming n h = false → exec (.barrierTimerExpiry h n) s = .next s) ∧
    (∀ f c l, wfFm f = true → (s.fm f).hub.closed = false → (s.fm f).hub.expired = false →
      (s.blockParts n f).filter (fun c => !(s.fm f).hub.entered.contains (.cell c)) = c :: l →
      let raised := .faultNotice ⟨0x2001, some n, c, (c :: l).length, s.posOfCell c⟩ :: (c :: l).flatMap fenced
      let status := Reg.fmnBarrierStatus f
      let after := fun (t : State) =>
        t.fm f = { s.fm f with hub := { (s.fm f).hub with answered := true, expired := true } } ∧ s.onlyFm t f ∧
        t.regF status 31 16 = min (s.regF status 31 16 + 1) 0xFFFF ∧
        t.reg (Reg.fmnBarrierMissing f) = BitVec.ofNat 64 ((c :: l).foldl (fun a d => a + 2 ^ posOf d) 0) ∧
        s.onlyRegs t [status, Reg.fmnBarrierMissing f] ∧ t.cells = s.cells
      ((s.fm f).hub.entered ≠ [] → ∃ t, exec (.barrierTimerExpiry (.foreman f) n) s = .next t ∧ after t ∧
        t.inFlight = s.inFlight ++ raised ++ fail ∧ (t.slot n).root.failed = true) ∧
      (∃ t, exec (.barrierProbe (.foreman f) n) s = .next t ∧ after t ∧ t.slots = s.slots ∧
        t.inFlight = s.inFlight.erase (.barrierProbe (.foreman f) n) ++ raised)) ∧
    (∀ f, wfFm f = true → (∀ c ∈ s.blockParts n f, .cell c ∈ (s.fm f).hub.entered) →
      ∃ t, exec (.barrierProbe (.foreman f) n) s = .next t ∧
        t.fm f = { s.fm f with hub := { (s.fm f).hub with answered := true } } ∧ s.onlyFm t f ∧
        t = { s.deliver (.barrierProbe (.foreman f) n) with fms := t.fms }) ∧
    (∀ r, r < 72 → (s.rgn r).hub.closed = false → (s.rgn r).hub.entered ≠ [] → (s.rgn r).hub.expired = false →
      (s.rgn r).hub.owed = none →
      let miss := (s.partBlocks n r).filter (fun f => !(s.rgn r).hub.entered.contains (.block f))
      let status := Reg.rgnBarrierStatus r
      ∃ t, exec (.barrierTimerExpiry (.region r) n) s = .next t ∧
        t.inFlight = s.inFlight ++ miss.map (fun f => .barrierProbe (.foreman f) n) ++ fail ∧
        (∀ f ∈ miss, t.fm f = { s.fm f with hub := { (s.fm f).hub with answered := false } }) ∧
        t.rgn r = { s.rgn r with hub := { (s.rgn r).hub with expired := true } } ∧ s.onlyRgn t r ∧
        t.regF status 63 32 = min (s.regF status 63 32 + 1) (2 ^ 32 - 1) ∧ t.regF status 29 0 = 0 ∧ s.onlyRegs t [status]) ∧
    ((s.slot n).root.timing = true → (s.slot n).root.expired = false →
      let miss := (s.partRegions n).filter (fun r => !(s.slot n).root.entered.contains (.region r))
      let mods := (s.slot n).sync.filter (fun m => !(s.slot n).root.entered.contains (.module m))
      ∃ t, exec (.barrierTimerExpiry .root n) s = .next t ∧ (t.slot n).root.expired = true ∧ (t.slot n).root.failed = true ∧
        s.onlySlot t n ∧ t.cells = s.cells ∧ t.fms = s.fms ∧ t.regs = s.regs ∧ t.inFlight = s.inFlight ++
          miss.map (fun r => if (s.rgn r).dark then .faultNotice ⟨0x4001, some n, r, 0, 15⟩ else .barrierProbe (.region r) n) ++
          mods.map (fun m => .faultNotice ⟨0x4001, some n, m, 0, 15⟩) ++ fail) ∧
    (∀ f, (s.fm f).hub.answered = true → exec (.probeAnswerTimeout f n) s = .next s) ∧
    (∀ f, wfFm f = true → (s.fm f).hub.answered = false →
      let a := Reg.rgnBarrierStatus f.region
      ∃ t, exec (.probeAnswerTimeout f n) s = .next t ∧
        t.fm f = { s.fm f with hub := { (s.fm f).hub with answered := true } } ∧ s.onlyFm t f ∧
        (t.reg a).getLsbD f.block = true ∧ (∀ k, k ≠ f.block → (t.reg a).getLsbD k = (s.reg a).getLsbD k) ∧ s.onlyRegs t [a] ∧
        t.inFlight = s.inFlight ++ [.faultNotice ⟨0x3001, s.slotOfRegion f.region, f.region + f.block * 256, 0, 15⟩]) ∧
    (∃ t, exec (.barrierFail n) s = .next t ∧ t.slot n = { s.slot n with root := { (s.slot n).root with failed := true } } ∧
      s.onlySlot t n ∧ t.cells = s.cells ∧
      (∀ f, wfFm f = true → (s.fm f).configured = true → (s.slot n).rect.has f.region = true →
        t.fm f = { s.fm f with hub := { (s.fm f).hub with failed := true } }) ∧
      t = { s.deliver (.barrierFail n) with slots := t.slots, fms := t.fms })

/-- For every slot whose program runs and whose earlier entries have read their fills or wait for a list. DELIVER and NEAR open
the entry for reading. GATHER takes the merged list of its tag where the skidder holds it, and else waits for it. RECORDED reads
its list from the record: a list with a bad check, another tag or another capacity raises 0x4022 and halts the program. LOOP
returns to its target as many times as its entry says and then goes on. END finishes the program once every entry has read its
fills. A program that does not run stays as it is.
Where the spec leaves room, it rests on the model's readings: log entries 51, 106 and 158. -/
def Obligations.StreamEntries : Prop :=
  ∀ (s : State) (n : Nat) (e : StreamEntry),
    let x := s.stream n
    let op := (e.extractLsb' 252 4).toNat
    let fills := (e.extractLsb' 120 16).toNat
    let cap := (e.extractLsb' 65 16).toNat
    let tag := (e.extractLsb' 81 16).toNat
    let rec_ := (e.extractLsb' 9 24).toNat
    let ready := (x.state = .running ∨ x.state = .waitList) ∧ x.pc < x.prog.length ∧ x.prog.getD x.pc 0 = e ∧ x.ending = false ∧
      ∀ o ∈ x.opens, o.needsList = true ∧ o.list = none
    let fresh : OpenEntry := { index := x.pc, iter := x.iterAt x.pc, read := 0, fills := fills + 1,
                               pos := (e.extractLsb' 172 36).toNat, refs := false, needsList := false, list := none, kind := 0 }
    let live := if x.opens = [] then StreamState.running else .waitList
    let opened := fun (i : Instr) (y : StreamSt) => ∃ t, exec i s = .next t ∧ t.stream n = y ∧ s.onlyStream t n ∧
      t = { s with streams := t.streams }
    (ready → op = 1 → opened (.streamDeliver n) { x with pc := x.pc + 1, opens := x.opens ++ [fresh], state := live }) ∧
    (ready → op = 4 → opened (.streamNear n) { x with pc := x.pc + 1, opens := x.opens ++ [fresh], state := live }) ∧
    (ready → op = 2 → x.lists.find? (fun l => l.tag == tag && l.merged) = none →
      opened (.streamGather n) { x with pc := x.pc + 1, opens := x.opens ++ [{ fresh with needsList := true }], state := .waitList }) ∧
    (∀ l, ready → op = 2 → x.lists.find? (fun l => l.tag == tag && l.merged) = some l →
      opened (.streamGather n) { x with pc := x.pc + 1, state := live, lists := x.lists.erase l, opens := x.opens ++
        [{ fresh with needsList := true, kind := l.kind, list := some (l.cands ++ List.replicate (cap - l.cands.length) 0xFFFF) }] }) ∧
    (∀ o, ready → op = 3 → s.obj rec_ = some o →
      let at_ := ((e.extractLsb' 0 9).toNat + x.iterAt x.pc) * (16 + 2 * cap)
      let bs := s.objReadV rec_ o at_ (16 + 2 * cap)
      let good := (crc32c (bs.drop 4)).toNat = leAt bs 0 4 ∧ natBits 127 112 (ofLE (bs.take 16)) = tag ∧
        natBits 68 53 (ofLE (bs.take 16)) = cap
      at_ + (16 + 2 * cap) ≤ o.extents * 262144 → s.objBadV rec_ o at_ (16 + 2 * cap) = false →
      (good → ∃ t, exec (.streamRecorded n) s = .next t ∧ t.stream n = { x with
          pc := x.pc + 1, state := live, opens := x.opens ++ [{ fresh with
            needsList := true, list := some ((List.range cap).map (fun k => leAt bs (16 + 2 * k) 2)),
            kind := (e.extractLsb' 243 1).toNat }] } ∧ s.onlyStream t n ∧ t.obj rec_ = some { o with stamp := s.beat } ∧
        (∀ h, h ≠ rec_ → t.obj h = s.obj h) ∧ t = { s with streams := t.streams, yard := t.yard }) ∧
      (¬ good → ∃ t, exec (.streamRecorded n) s = .next t ∧ (t.stream n).state = .halted ∧ (t.stream n).opens = [] ∧
        (t.stream n).deck = [] ∧ (t.stream n).pc = x.pc ∧ s.onlyStream t n ∧ s.onlyRegs t [Reg.skdFault] ∧
        t.inFlight = s.inFlight ++ [.faultNotice ⟨0x4022, some n, (e.extractLsb' 208 24).toNat, x.pc, 15⟩])) ∧
    (ready → op = 5 →
      let rest := x.loops.filter (fun l => l.1 != x.pc)
      let back := fun (d : Nat) => opened (.streamLoop n)
        { x with pc := (e.extractLsb' 172 13).toNat, loops := (x.pc, d + 1, fills) :: rest }
      (x.loops.find? (fun l => l.1 == x.pc) = none → 0 < fills → back 0) ∧
      (∀ q d k, x.loops.find? (fun l => l.1 == x.pc) = some (q, d, k) → d < fills → back d) ∧
      (∀ q d k, x.loops.find? (fun l => l.1 == x.pc) = some (q, d, k) → fills ≤ d →
        opened (.streamLoop n) { x with pc := x.pc + 1, loops := rest })) ∧
    (ready → op = 15 → x.opens = [] → opened (.streamEnd n) { x with state := .done }) ∧
    (ready → op = 15 → x.opens ≠ [] → exec (.streamEnd n) s = .next s) ∧
    (x.state ≠ .running → x.state ≠ .waitList → ∀ i ∈ ([.streamDeliver n, .streamNear n, .streamGather n, .streamRecorded n,
      .streamLoop n, .streamEnd n] : List Instr), exec i s = .next s)

/-- A fill that the prefetch depth and the deck's share allow is read from the entry's object into the deck, is counted in
SKD_BYTES, and stamps the object; a tier read error halts the program with 0x4023. A free lane of a region goes to the first
waiting fill whose slot is clear. A fill that lands in its last cell writes its bytes there, a LANDING fill from slot byte 0 and
a NEAR fill from its granule, sets the slot's valid bit, leaves the deck and is counted; a fill that fails its parity changes no
cell and halts the program with 0x4024.
Where the spec leaves room, it rests on the model's readings: log entry 51. -/
def Obligations.Fills : Prop :=
  (∀ (s : State) (n entry : Nat) (oe : OpenEntry) (o : Obj),
    let x := s.stream n
    let e := x.prog.getD entry 0
    let h := (e.extractLsb' 208 24).toNat
    let op := (e.extractLsb' 252 4).toNat
    let first := (e.extractLsb' 154 18).toNat
    let w := wingOf (regionOf first)
    (x.state = .running ∨ x.state = .waitList) → x.ending = false →
    x.opens.find? (fun o => !(o.needsList && o.list.isNone)) = some oe → oe.index = entry → oe.refs = true →
    (x.deck.filter (fun f => f.entry == entry)).length ≤ (e.extractLsb' 232 6).toNat →
    x.heldIn w + 16384 ≤ s.deckShare n w → s.obj h = some o →
    (∀ bs, o.tier ≠ 0 → (o.owner = n ∨ o.shared = true) → s.fillBytes n oe e o = .ok bs → op = 1 ∨ op = 4 →
      s.objBadV h o oe.pos bs.length = false → oe.read + 1 < oe.fills →
      let slot := (e.extractLsb' 242 1).toNat
      ∃ t, exec (.fillReadStart n entry false) s = .next t ∧
        (t.stream n).deck = x.deck ++ [{
          number := x.number, entry := entry, first := first, last := (e.extractLsb' 136 18).toNat, near := op == 4,
          slot := if (e.extractLsb' 241 1).toNat = 1 then (slot + oe.read) % 2 else slot,
          granule := if op = 4 then (e.extractLsb' 81 13).toNat else 0, bytes := bs, lanes := [],
          left := rectCells first (e.extractLsb' 136 18).toNat, late := false, final := false }] ∧
        t.stream n = { x with
          deck := (t.stream n).deck, number := x.number + 1,
          opens := x.opens.map (fun o => if o.index = entry then { o with read := o.read + 1, pos := o.pos + bs.length, refs := true } else o) } ∧
        s.onlyStream t n ∧ t.obj h = some { o with stamp := s.beat } ∧ (∀ k, k ≠ h → t.obj k = s.obj k) ∧
        t.reg (Reg.skdBytes n) = s.reg (Reg.skdBytes n) + BitVec.ofNat 64 bs.length ∧ s.onlyRegs t [Reg.skdBytes n] ∧
        t = { s with streams := t.streams, yard := t.yard, regs := t.regs }) ∧
    (o.tier ≠ 2 → ∃ t, exec (.fillReadStart n entry true) s = .next t ∧ (t.stream n).state = .halted ∧ (t.stream n).deck = [] ∧
      (t.stream n).opens = [] ∧ s.onlyStream t n ∧
      t.inFlight = s.inFlight ++ [.faultNotice ⟨0x4023, some n, h, entry, 15⟩] ∧ s.onlyRegs t [Reg.skdFault] ∧
      t.reg Reg.skdFault = BitVec.ofNat 64 (h % 2 ^ 24 * 2 ^ 40 + entry % 2 ^ 13 * 2 ^ 27 + n % 8 * 2 ^ 24 + 0x4023))) ∧
  (∀ (s : State) (r : Nat),
    (8 ≤ s.lanesUsed r → exec (.fillLaneAssign r) s = .next s) ∧
    (∀ n f, s.lanesUsed r < 8 → (s.laneWaiters r).find? (fun e =>
        s.laneClear r ((s.stream e.1).deck.filter (fun g => decide (g.number < e.2.number))) e.2) = some (n, f) →
      ∃ t, exec (.fillLaneAssign r) s = .next t ∧ t.stream n = { s.stream n with
          deck := (s.stream n).deck.map (fun g => if g.number = f.number then { g with lanes := g.lanes ++ [r] } else g) } ∧
        s.onlyStream t n ∧ t = { s with streams := t.streams })) ∧
  (∀ (s : State) (n c : Nat) (f : Fill),
    let x := s.stream n
    let y := s.cell c
    let lands := x.deck.find? (fun g => g.number == f.number) = some f ∧ c ∈ f.left ∧ regionOf c ∈ f.lanes ∧
      ∀ g ∈ x.deck, g.number < f.number → c ∉ g.left
    let ends := f.left = [c] ∧ f.final = false ∧ s.gatedOn c f.slot = false ∧ y.looper ≠ .snag ∧ y.configured = true ∧ y.resetting = none
    let done := fun (t : State) => exec (.fillLanded n f.number c false) s = .next t ∧
      t.stream n = { x with deck := x.deck.filter (fun h => h.number != f.number) } ∧ s.onlyStream t n ∧ s.onlyCells t [c] ∧
      t.regF (Reg.skdProg n) 31 0 = (s.regF (Reg.skdProg n) 31 0 + 1) % 2 ^ 32 ∧ s.onlyRegs t [Reg.skdProg n] ∧
      t = { s with streams := t.streams, cells := t.cells, regs := t.regs }
    (lands → ends → f.near = false → f.slot = 0 → ∃ t, done t ∧
      t.cell c = { y with land0 := (t.cell c).land0, valid0 := true } ∧
      (∀ k, k < f.bytes.length → (t.cell c).land0.getD k 0 = f.bytes.getD k 0)) ∧
    (lands → ends → f.near = false → f.slot = 1 → ∃ t, done t ∧
      t.cell c = { y with land1 := (t.cell c).land1, valid1 := true } ∧
      (∀ k, k < f.bytes.length → (t.cell c).land1.getD k 0 = f.bytes.getD k 0)) ∧
    (lands → ends → f.near = true → f.slot = 1 → ∃ t, done t ∧
      t.cell c = { y with near := (t.cell c).near, valid1 := true } ∧
      (∀ k, k < f.bytes.length → (t.cell c).near.byte (f.granule * 64 + k) = f.bytes.getD k 0) ∧
      (∀ a, a < f.granule * 64 ∨ f.granule * 64 + f.bytes.length ≤ a → (t.cell c).near.byte a = y.near.byte a)) ∧
    (lands → ends → f.near = true → f.slot = 0 → ∃ t, done t ∧
      t.cell c = { y with near := (t.cell c).near, valid0 := true } ∧
      (∀ k, k < f.bytes.length → (t.cell c).near.byte (f.granule * 64 + k) = f.bytes.getD k 0) ∧
      (∀ a, a < f.granule * 64 ∨ f.granule * 64 + f.bytes.length ≤ a → (t.cell c).near.byte a = y.near.byte a)) ∧
    (lands → ∃ t, exec (.fillLanded n f.number c true) s = .next t ∧ t.cells = s.cells ∧ (t.stream n).state = .halted ∧
      (t.stream n).deck = [] ∧ s.onlyStream t n ∧ t.inFlight = s.inFlight ++
        [.faultNotice ⟨0x4024, some n, ((x.prog.getD f.entry 0).extractLsb' 208 24).toNat, f.entry, 15⟩]) ∧
    (x.deck.find? (fun g => g.number == f.number) = none → ∀ b, exec (.fillLanded n f.number c b) s = .next s))

/-- A block's list with a good check joins the lists held for its tag, its candidates in ascending order without duplicates; a
list with a bad check raises 0x4022 and halts the slot's program; a list with a new tag waits while 16 are held. A merge waits
until every contributor's list is held. Then the lowest candidates up to the entry's capacity stay, each contributor is told the
count, the merge is counted, and the merged list is held for its entry, or given to the entry that waits for it.
Where the spec leaves room, it rests on the model's readings: log entry 51. -/
def Obligations.FetchLists : Prop :=
  (∀ (s : State) (f : FmId) (list : Bytes) (n : Nat), s.slotOfRegion f.region = some n →
    let x := s.stream n
    let m := Instr.fetchList f list
    let h := ofLE (list.take 16)
    let tag := natBits 127 112 h
    let good := (crc32c (list.drop 4)).toNat = leAt list 0 4
    let got := ((List.range (natBits 84 69 h)).map (fun k => leAt list (16 + 2 * k) 2)).filter (fun c => c != 0xFFFF)
    (x.lists.find? (fun l => l.tag == tag && !l.merged) = none → 16 ≤ x.lists.length → exec m s = .next s) ∧
    (x.lists.find? (fun l => l.tag == tag && !l.merged) = none → x.lists.length < 16 → good →
      ∃ t l, exec m s = .next t ∧ t.stream n = { x with lists := x.lists ++ [l] } ∧ s.onlyStream t n ∧ l.tag = tag ∧ l.froms = [f] ∧
        l.merged = false ∧ (∀ c, c ∈ l.cands ↔ c ∈ got) ∧ l.cands.Pairwise (· < ·) ∧ t = { s.deliver m with streams := t.streams }) ∧
    (∀ l, x.lists.find? (fun l => l.tag == tag && !l.merged) = some l → good → l.cands.Pairwise (· < ·) → l.tag = tag →
      ∃ t k, exec m s = .next t ∧ k ∈ (t.stream n).lists ∧ k.tag = tag ∧ k.froms = l.froms ++ [f] ∧
        (∀ c, c ∈ k.cands ↔ c ∈ l.cands ∨ c ∈ got) ∧ k.cands.Pairwise (· < ·) ∧ s.onlyStream t n ∧
        t = { s.deliver m with streams := t.streams }) ∧
    (x.lists.length < 16 → ¬ good → ∃ t, exec m s = .next t ∧ (t.stream n).state = .halted ∧ s.onlyStream t n ∧
      t.inFlight = s.inFlight.erase m ++ [.faultNotice ⟨0x4022, some n, ((x.prog.getD x.pc 0).extractLsb' 208 24).toNat, x.pc, 15⟩])) ∧
  (∀ (s : State) (n tag k : Nat) (l : HeldList),
    let x := s.stream n
    let e := x.prog.getD k 0
    let cap := (e.extractLsb' 65 16).toNat
    let who := s.contributors n e
    let m : HeldList := { l with cands := l.cands.take cap, trunc := l.trunc || decide (cap < l.cands.length), merged := true }
    x.lists.find? (fun l => l.tag == tag && !l.merged) = some l → x.gatherOf tag = some k →
    ((∃ f ∈ who, f ∉ l.froms) → exec (.listMerge n tag) s = .next s) ∧
    ((∀ f ∈ who, f ∈ l.froms) → (e.extractLsb' 9 24).toNat = 0 → ∃ t, exec (.listMerge n tag) s = .next t ∧
      t.inFlight = s.inFlight ++ who.map (fun f => .countReturn f tag m.cands.length) ∧
      t.regF (Reg.skdLists n) 31 0 = (s.regF (Reg.skdLists n) 31 0 + 1) % 2 ^ 32 ∧
      t.regF (Reg.skdLists n) 47 32 = min (s.regF (Reg.skdLists n) 47 32 + (if m.trunc then 1 else 0)) 0xFFFF ∧
      s.onlyRegs t [Reg.skdLists n] ∧ s.onlyStream t n ∧
      t = { s with streams := t.streams, regs := t.regs, inFlight := t.inFlight } ∧
      (x.opens = [] → x.state = .running → t.stream n = { x with lists := x.lists.filter (fun q => q != l) ++ [m] }) ∧
      (∀ o, x.opens = [o] → o.index = k → o.needsList = true → o.list = none → x.state = .waitList →
        t.stream n = { x with state := .running, lists := x.lists.filter (fun q => q != l), opens := [{ o with
          list := some (m.cands ++ List.replicate (cap - m.cands.length) 0xFFFF), kind := m.kind }] })))

/-- Outside Chrysalis, a write of SKD_CTRL stops the slots it names: each whose program runs or waits for a list becomes
STOPPED, reads no further, and keeps in the deck only the fills whose delivery has begun; the other slots' programs stay as they
are.
Where the spec leaves room, it rests on the model's readings: log entry 51. -/
def Obligations.SkidderStop : Prop :=
  ∀ (s : State) (src : Src) (v : Word), s.boot.stage ≠ 7 →
    ∃ t, exec (.skidderStop src v) s = .next t ∧ t.inFlight = s.inFlight ∧ t.cells = s.cells ∧ t.regs = s.regs ∧
      (∀ n, n < 8 → v.getLsbD n = true → (s.stream n).state = .running ∨ (s.stream n).state = .waitList →
        t.stream n = { s.stream n with state := .stopped, opens := [], ending := false,
                                       deck := (s.stream n).deck.filter (fun f => !f.lanes.isEmpty) }) ∧
      (∀ n, v.getLsbD n = false ∨ 8 ≤ n ∨ ((s.stream n).state ≠ .running ∧ (s.stream n).state ≠ .waitList) →
        t.stream n = s.stream n)

/-! ## Objects and tiers -/

/-- For every write of YRD_CMD outside Chrysalis while no command is BUSY. CREATE of a free handle takes its extents and makes a
RESIDENT object; of a live handle it returns IN_USE, in tier 0 BAD_TIER, and of no extents it is rejected. DESTROY frees a
RESIDENT or PINNED object's handle and extents, and returns IN_USE while it is referenced and STATE while it moves. PROMOTE of a
RESIDENT object to a higher tier, and DEMOTE to a lower one, start a move with all its extents reserved, BUSY until the move
ends; to no higher, or no lower, tier they return BAD_TIER. PIN and UNPIN count and change RESIDENT and PINNED. An unknown
handle gives BAD_HANDLE. While BUSY, and in Chrysalis, the write has no effect but the fault record of 0x4071.
Where the spec leaves room, it rests on the model's readings: log entries 41, 44, 45 and 48. -/
def Obligations.ObjectCommands : Prop :=
  ∀ (s : State) (src : Src) (v : Word),
    let op := (v.extractLsb' 60 4).toNat
    let d := (v.extractLsb' 58 2).toNat
    let h := (v.extractLsb' 0 24).toNat
    let commands : List (Instr × Nat) := [(.create src v, 1), (.destroy src v, 2), (.promote src v, 3), (.demote src v, 4), (.pin src v, 5),
      (.unpin src v, 6)]
    let status := fun (t : State) (result state : Nat) =>
      t.reg Reg.yrdCmdStatus = BitVec.ofNat 64 (h * 2 ^ 24 + result * 2 ^ 16 + state) ∧ s.onlyRegs t [Reg.yrdCmdStatus]
    let others := fun (t : State) => ∀ k, k ≠ h → t.obj k = s.obj k
    let fails := fun (i : Instr) (result : Nat) => ∃ t, exec i s = .next t ∧ status t result 3 ∧ t = { s with regs := t.regs }
    let ready := s.boot.stage ≠ 7 ∧ s.regF Reg.yrdCmdStatus 1 0 ≠ 1
    let settled := ∀ a ∈ s.yard.allocs, a.need = 0
    let licensed := d = 3 → s.tiers.farTier = true
    (∀ i ∈ commands, op = i.2 → (s.boot.stage = 7 ∨ s.regF Reg.yrdCmdStatus 1 0 = 1) → exec i.1 s = .next { s with
      inFlight := s.inFlight ++ [.faultNotice ⟨0x4071, none, srcSession src, Reg.yrdCmd, 15⟩] }) ∧
    (∀ i ∈ commands, op = i.2 → i.2 ≠ 1 → ready → s.obj h = none → fails i.1 1) ∧
    -- CREATE
    (let e := s.regF Reg.yrdArg 18 0
     ready → op = 1 →
      (e = 0 ∨ 262144 < e → exec (.create src v) s = .next { s with
        inFlight := s.inFlight ++ [.faultNotice ⟨0x4071, none, srcSession src, Reg.yrdCmd, 15⟩] }) ∧
      (0 < e → e ≤ 262144 → h ≠ 0 → s.obj h ≠ none → fails (.create src v) 2) ∧
      (0 < e → e ≤ 262144 → h ≠ 0 → s.obj h = none → (∀ a ∈ s.yard.allocs, a.handle ≠ h) →
        (d = 0 → fails (.create src v) 4) ∧
        (∀ got rest, d ≠ 0 → licensed → s.yard.objs.length < 2 ^ 20 → settled → e ≤ s.tiers.total d →
          runsAlloc e (s.tiers.free d) = (got, rest) → runsCount got = e → ∃ t o, exec (.create src v) s = .next t ∧ status t 0 2 ∧
          t.obj h = some o ∧ o.owner = (v.extractLsb' 55 3).toNat ∧ o.charged = o.owner ∧ o.shared = v.getLsbD 54 ∧
          o.extents = e ∧ o.tier = d ∧ o.place = got ∧ o.state = .resident ∧ o.pins = 0 ∧ o.refs = 0 ∧ o.stamp = s.beat ∧
          others t ∧ t.tiers.free d = rest ∧ t.yard.allocs = s.yard.allocs ∧ t.inFlight = s.inFlight))) ∧
    -- DESTROY
    (∀ o, ready → op = 2 → s.obj h = some o →
      (o.state = .moving ∨ o.state = .evicting → fails (.destroy src v) 5) ∧
      (o.state = .resident ∨ o.state = .pinned →
        (0 < o.refs → fails (.destroy src v) 2) ∧
        (o.refs = 0 → settled → 1 ≤ o.tier → o.tier ≤ 3 → ∃ t, exec (.destroy src v) s = .next t ∧ status t 0 2 ∧ t.obj h = none ∧
          others t ∧ t.tiers = s.tiers.setFree o.tier (runsPutAll o.place (s.tiers.free o.tier)) ∧
          t = { s with yard := t.yard, tiers := t.tiers, regs := t.regs }))) ∧
    -- PROMOTE and DEMOTE
    (∀ o i k, (i = .promote src v ∧ op = 3 ∧ k = AllocKind.promote) ∨ (i = .demote src v ∧ op = 4 ∧ k = AllocKind.demote) → ready →
      s.obj h = some o → licensed →
      (o.state = .resident → (k = .promote ∧ o.tier ≤ d ∨ k = .demote ∧ d ≤ o.tier) → fails i 4) ∧
      (o.state = .pinned → fails i 5) ∧
      (o.state = .resident → (k = .promote ∧ d < o.tier ∨ k = .demote ∧ o.tier < d) → d ≠ 0 → settled → o.all ≤ s.tiers.total d →
        ∀ got rest, runsAlloc o.all (s.tiers.free d) = (got, rest) → runsCount got = o.all →
        let p := { o with state := .moving, stamp := s.beat }
        ∃ t, exec i s = .next t ∧ status t 0 1 ∧ t.obj h = some p ∧ others t ∧ t.tiers = s.tiers.setFree d rest ∧
          t.yard.allocs = s.yard.allocs ++ [{ handle := h, kind := k, obj := p, dest := d, slot := o.charged, need := 0, got := got,
                                              copied := 0, cmd := true }] ∧
          t = { s with yard := t.yard, tiers := t.tiers, regs := t.regs })) ∧
    -- PIN and UNPIN
    (∀ o, ready → s.obj h = some o →
      (op = 5 → o.pins < 255 → ∃ t, exec (.pin src v) s = .next t ∧ status t 0 2 ∧ t.obj h = some { o with
        pins := o.pins + 1, state := if o.state = .resident then .pinned else o.state, stamp := s.beat } ∧ others t ∧
        t = { s with yard := t.yard, regs := t.regs }) ∧
      (op = 5 → 255 ≤ o.pins → fails (.pin src v) 5) ∧
      (op = 6 → 0 < o.pins → ∃ t, exec (.unpin src v) s = .next t ∧ status t 0 2 ∧ t.obj h = some { o with
        pins := o.pins - 1, state := if o.state = .pinned ∧ o.pins = 1 then .resident else o.state } ∧ others t ∧
        t = { s with yard := t.yard, regs := t.regs }) ∧
      (op = 6 → o.pins = 0 → fails (.unpin src v) 5))

/-- While no allocation waits for extents. A copied extent of a running move between two pools holds the source's bytes in the
destination, frees the source extent, and leaves the object MOVING; with the last extent the object settles in the destination
tier and the move is counted. A read error before any extent was copied raises 0x4035 and leaves the object settled where it
was, with the reserved extents freed. A retry gives a waiting allocation the free extents, and where too few are free starts the
eviction of a candidate to the next tier. An allocation that reaches its wait limit fails with 0x4030, and a host CREATE with
NOSPACE.
Where the spec leaves room, it rests on the model's readings: log entries 41, 42, 43, 46 and 145. -/
def Obligations.Moves : Prop :=
  (∀ (s : State) (h : Nat) (a : Alloc) (o : Obj),
    s.running.find? (fun a => a.handle == h) = some a → s.obj h = some o → (∀ b ∈ s.yard.allocs, b.need = 0) →
    1 ≤ o.tier → o.tier ≤ 3 → 1 ≤ a.dest → a.dest ≤ 3 →
    let i := a.copied
    let sx := (runsAt o.place i).getD 0
    let dx := (runsAt a.got i).getD 0
    let others := fun (t : State) => ∀ k, k ≠ h → t.obj k = s.obj k
    let frees := fun (x : TierSt) (l : List (Nat × Nat)) => x.setFree o.tier (runsPutAll l (x.free o.tier))
    let copied := s.tiers.setMem a.dest ((s.tiers.mem o.tier).copyTo (sx * 262144) 262144 (s.tiers.mem a.dest) (dx * 262144))
    let readable := ∀ k, k < 64 → s.poolBad o.tier (sx * 262144 + k * 4096) = false
    (readable → o.tiled = false → i + 1 < o.all → ∃ t, exec (.extentCopyDone h .ok) s = .next t ∧ t.tiers = frees copied [(sx, 1)] ∧
      t.yard = { s.yard with allocs := s.yard.allocs.map (fun x => if x = a then { a with copied := i + 1 } else x) } ∧
      t = { s with yard := t.yard, tiers := t.tiers }) ∧
    (readable → o.tiled = false → i + 1 = o.all → a.cmd = false → h ∉ s.yard.dying → (∀ q ∈ s.yard.queued, q.1 ≠ h) →
      let state := if 0 < o.pins then ObjState.pinned else .resident
      ∃ t, exec (.extentCopyDone h .ok) s = .next t ∧ t.obj h = some { o with tier := a.dest, place := a.got, state := state } ∧
        others t ∧ t.tiers = frees copied [(sx, 1)] ∧ s.onlyRegs t [Reg.yrdMoves] ∧
        (a.dest < a.obj.tier → t.regF Reg.yrdMoves 63 32 = (s.regF Reg.yrdMoves 63 32 + 1) % 2 ^ 32 ∧
          t.regF Reg.yrdMoves 31 0 = s.regF Reg.yrdMoves 31 0) ∧
        (a.obj.tier ≤ a.dest → t.regF Reg.yrdMoves 31 0 = (s.regF Reg.yrdMoves 31 0 + 1) % 2 ^ 32 ∧
          t.regF Reg.yrdMoves 63 32 = s.regF Reg.yrdMoves 63 32) ∧ t = { s with yard := t.yard, tiers := t.tiers, regs := t.regs }) ∧
    (o.tier ≠ 2 → i = 0 → a.cmd = false → a.got ≠ [] → h ∉ s.yard.dying → (∀ q ∈ s.yard.queued, q.1 ≠ h) →
      (∃ k, k < 64 ∧ s.poolBad o.tier (sx * 262144 + k * 4096) = true) →
      let state := if 0 < o.pins then ObjState.pinned else .resident
      ∃ t, exec (.extentCopyDone h .ok) s = .next t ∧ t.obj h = some { o with state := state } ∧ others t ∧
        t.tiers = s.tiers.setFree a.dest (runsPutAll a.got (s.tiers.free a.dest)) ∧
        t.yard.allocs = s.yard.allocs.filter (fun b => !(b.handle == h && b.kind == a.kind)) ∧
        t.inFlight = s.inFlight ++ [.faultNotice ⟨0x4035, some o.charged, h, 0, 15⟩] ∧ s.onlyRegs t [Reg.yrdFault] ∧
        t.reg Reg.yrdFault = BitVec.ofNat 64 (h % 2 ^ 24 * 2 ^ 40 + 0x4035))) ∧
  (∀ (s : State) (h : Nat) (r : CopyResult), s.running.find? (fun a => a.handle == h) = none →
    exec (.extentCopyDone h r) s = .next s) ∧
  (∀ (s : State), (∀ a ∈ s.yard.allocs, a.need = 0) → exec .allocationRetry s = .next s) ∧
  (∀ (s : State) (a : Alloc) (got rest : List (Nat × Nat)), s.yard.allocs = [a] → 1 ≤ a.dest → a.dest ≤ 3 → (a.kind = .promote ∨ a.kind = .demote) →
    0 < a.need →
    (runsAlloc a.need (s.tiers.free a.dest) = (got, rest) → runsCount got = a.need →
      exec .allocationRetry s = .next { s with
        tiers := s.tiers.setFree a.dest rest, yard := { s.yard with allocs := [{ a with got := a.got ++ got, need := 0 }] } }) ∧
    (∀ k o, s.tiers.free a.dest = [] → a.dest < 3 → s.candidate a.dest a.slot = some (k, o) → a.need ≤ o.all →
      o.all ≤ s.tiers.total (a.dest + 1) → o.all ≤ runsCount (s.tiers.free (a.dest + 1)) →
      runsAlloc o.all (s.tiers.free (a.dest + 1)) = (got, rest) → runsCount got = o.all →
      let p := { o with state := .evicting, stamp := s.beat }
      ∃ t, exec .allocationRetry s = .next t ∧ t.obj k = some p ∧ (∀ j, j ≠ k → t.obj j = s.obj j) ∧
        t.yard.allocs = [a, { handle := k, kind := .evict, obj := p, dest := a.dest + 1, slot := o.charged, need := 0, got := got,
                              copied := 0, cmd := false }] ∧
        t.tiers = s.tiers.setFree (a.dest + 1) rest ∧ t.regF Reg.yrdTally 31 0 = (s.regF Reg.yrdTally 31 0 + 1) % 2 ^ 32 ∧
        s.onlyRegs t [Reg.yrdTally] ∧ t = { s with yard := t.yard, tiers := t.tiers, regs := t.regs })) ∧
  (∀ (s : State) (h : Nat),
    ((∀ a ∈ s.yard.allocs, a.handle = h → a.need = 0) → exec (.allocationWaitLimit h) s = .next s) ∧
    (∀ a, s.yard.allocs.find? (fun a => a.handle == h && decide (0 < a.need)) = some a → a.kind = .create → a.cmd = true →
      a.got = [] → s.obj h = none → h ∉ s.yard.dying → (∀ q ∈ s.yard.queued, q.1 ≠ h) →
      ∃ t, exec (.allocationWaitLimit h) s = .next t ∧ t.yard = { s.yard with allocs := s.yard.allocs.erase a } ∧
        t.inFlight = s.inFlight ++ [.faultNotice ⟨0x4030, none, h, 0, 15⟩] ∧
        t.regF Reg.yrdCmdStatus 23 16 = 3 ∧ t.regF Reg.yrdCmdStatus 1 0 = 3 ∧
        t.regF Reg.yrdCmdStatus 47 24 = s.regF Reg.yrdCmdStatus 47 24 ∧
        t.regF Reg.yrdTally 62 48 = min (s.regF Reg.yrdTally 62 48 + 1) 0x7FFF ∧
        s.onlyRegs t [Reg.yrdCmdStatus, Reg.yrdTally, Reg.yrdFault] ∧ t = { s with yard := t.yard, regs := t.regs, inFlight := t.inFlight }))

/-- A C/A parity error is counted, saturating. An uncorrectable read is counted for its stack and its channel, and the channel's
64th since the module reset sets its map-out bit and raises 0x4040, no other read does. A write of STK_WRAP_CMD starts its
instruction when T1 holds no object extent, no load is active and no job runs; else state reads 3, refused, and the write is
rejected; while an instruction runs it is rejected without effect. An instruction that ends leaves state 2 and its data, and is
a log book record where it was a hard repair.
Where the spec leaves room, it rests on the model's readings: log entries 104 and 159. -/
def Obligations.StackCommands : Prop :=
  (∀ (s : State) (ch : Nat) (second : Bool), ch < 768 →
    let a := Reg.stkErrors (ch / 32)
    let b := Reg.stkMapout (ch / 32)
    let n := s.tiers.uncorrected.get 0 ch + 1
    (∃ t, exec (.caParityError ch second) s = .next t ∧ t.regF a 31 0 = min (s.regF a 31 0 + 1) (2 ^ 32 - 1) ∧
      t.regF a 62 32 = s.regF a 62 32 ∧ s.onlyRegs t [a] ∧ t = { s with regs := t.regs }) ∧
    (∃ t, exec (.stackUncorrectableRead ch) s = .next t ∧ t.regF a 62 32 = min (s.regF a 62 32 + 1) (2 ^ 31 - 1) ∧
      t.tiers.uncorrected.get 0 ch = n ∧ (∀ k, k ≠ ch → t.tiers.uncorrected.get 0 k = s.tiers.uncorrected.get 0 k) ∧
      t.tiers = { s.tiers with uncorrected := t.tiers.uncorrected } ∧
      (n = 64 → (t.reg b).getLsbD (ch % 32) = true ∧ (∀ k, k ≠ ch % 32 → (t.reg b).getLsbD k = (s.reg b).getLsbD k) ∧
        t.inFlight = s.inFlight ++ [.faultNotice ⟨0x4040, none, ch, 0, 15⟩]) ∧
      (n ≠ 64 → t.reg b = s.reg b ∧ t.inFlight = s.inFlight) ∧ s.onlyRegs t [a, b] ∧
      t = { s with regs := t.regs, tiers := t.tiers, inFlight := t.inFlight })) ∧
  (∀ (s : State) (src : Src) (k : Nat) (v : Word), k < 24 → s.boot.stage ≠ 7 →
    let a := Reg.stkWrapCmd k
    let cmd := (v.extractLsb' 0 40).toNat
    let rejected := s.inFlight ++ [.faultNotice ⟨0x4071, none, srcSession src, a, 15⟩]
    (v.getLsbD 63 = false → ∃ t, exec (.wrapperGo src k v) s = .next t ∧ t.regF a 39 0 = cmd ∧ t.regF a 62 61 = s.regF a 62 61 ∧
      s.onlyRegs t [a] ∧ t = { s with regs := t.regs }) ∧
    (v.getLsbD 63 = true → s.regF a 62 61 = 1 → exec (.wrapperGo src k v) s = .next { s with inFlight := rejected }) ∧
    (v.getLsbD 63 = true → s.regF a 62 61 ≠ 1 →
      (s.t1Empty = true → s.loadActive = false → s.anyJob = false → ∃ t, exec (.wrapperGo src k v) s = .next t ∧
        t.regF a 62 61 = 1 ∧ t.regF a 39 0 = cmd ∧ s.onlyRegs t [a] ∧ t = { s with regs := t.regs }) ∧
      (s.t1Empty = false ∨ s.loadActive = true ∨ s.anyJob = true → ∃ t, exec (.wrapperGo src k v) s = .next t ∧
        t.regF a 62 61 = 3 ∧ t.regF a 39 0 = s.regF a 39 0 ∧ s.onlyRegs t [a] ∧ t = { s with regs := t.regs, inFlight := rejected }))) ∧
  (∀ (s : State) (k : Nat) (data : Word), k < 24 →
    let a := Reg.stkWrapCmd k
    let b := Reg.stkWrapData k
    (s.regF a 62 61 ≠ 1 → exec (.wrapperInstructionDone k data) s = .next s) ∧
    (s.regF a 62 61 = 1 → ∃ t, exec (.wrapperInstructionDone k data) s = .next t ∧ t.regF a 62 61 = 2 ∧ t.regF a 39 0 = s.regF a 39 0 ∧
      t.reg b = data ∧ (Config.hardRepair (s.regF a 31 0) (s.reg b) = none → s.onlyRegs t [a, b] ∧ t = { s with regs := t.regs }) ∧
      (Config.hardRepair (s.regF a 31 0) (s.reg b) ≠ none → s.book.permanents < permanentSize →
        ∃ r, r.kind = 3 ∧ t.book.permanent = r :: s.book.permanent ∧ t.book.general = s.book.general)))

/-- A failed RDIMM is marked, raises 0x4042 and damages the objects resident in T2 and no others. A CXL read that timed out, or
returned poison, is counted. A link that goes down makes its port DOWN and raises 0x4044; a port that is neither training nor
active is left as it is. Capacity added at an active port joins the end of the far pool in whole extents and is counted.
Capacity released leaves the pool where it is free. A rescan retrains the ports it names, and is rejected where one holds an
object extent; a port that trained joins the far pool, and one that did not is DOWN.
Where the spec leaves room, it rests on the model's readings: log entry 47. -/
def Obligations.BoardAndFarMemory : Prop :=
  (∀ (s : State) (k : Nat), k < 64 → ∃ t, exec (.rdimmFail k) s = .next t ∧ (t.reg Reg.brdFailed).getLsbD k = true ∧
    (∀ j, j ≠ k → (t.reg Reg.brdFailed).getLsbD j = (s.reg Reg.brdFailed).getLsbD j) ∧ s.onlyRegs t [Reg.brdFailed] ∧
    t.inFlight = s.inFlight ++ [.faultNotice ⟨0x4042, none, k, 0, 15⟩] ∧
    (s.yard.allocs = [] → ∀ h o, s.yard.objs = [(h, o)] →
      (o.tier = 2 → 0 < o.all → t.obj h = some { o with damaged := true }) ∧ (o.tier ≠ 2 → t.obj h = some o)) ∧
    t = { s with yard := t.yard, regs := t.regs, inFlight := t.inFlight }) ∧
  (∀ (s : State) (p : Nat), p < 4 →
    let a := Reg.cxlErrors p
    let x := s.cxl p
    let onlyPort := fun (t : State) => ∀ q, q ≠ p → t.cxl q = s.cxl q
    let top := s.tiers.far.foldl (fun m r => max m (r.2.1 + r.2.2)) 0
    (∃ t, exec (.cxlReadTimeout p true) s = .next t ∧ t.regF a 62 32 = min (s.regF a 62 32 + 1) (2 ^ 31 - 1) ∧
      t.regF a 31 0 = s.regF a 31 0 ∧ s.onlyRegs t [a] ∧ t = { s with regs := t.regs }) ∧
    (∃ t, exec (.cxlReadTimeout p false) s = .next t ∧ t.regF a 31 0 = min (s.regF a 31 0 + 1) (2 ^ 32 - 1) ∧
      t.regF a 62 32 = s.regF a 62 32 ∧ s.onlyRegs t [a] ∧ t = { s with regs := t.regs }) ∧
    (x.state = .active ∨ x.state = .training → ∃ t, exec (.cxlLinkDown p) s = .next t ∧ t.cxl p = { x with state := .down } ∧
      onlyPort t ∧ t.inFlight = s.inFlight ++ [.faultNotice ⟨0x4044, none, p, 0, 15⟩] ∧
      t = { s with tiers := t.tiers, yard := t.yard, inFlight := t.inFlight }) ∧
    (x.state ≠ .active → x.state ≠ .training → exec (.cxlLinkDown p) s = .next s) ∧
    (∀ bytes, x.state ≠ .active → exec (.dcdAdd p bytes) s = .next s) ∧
    (∀ bytes, x.state = .active → 262144 ≤ bytes → s.tiers.total3 + bytes / 262144 ≤ 268435456 → (∀ b ∈ s.yard.allocs, b.need = 0) →
      let n := bytes / 262144
      ∃ t, exec (.dcdAdd p bytes) s = .next t ∧ t.tiers = { s.tiers with
          far := s.tiers.far ++ [(p, top, n)], total3 := s.tiers.total3 + n, free3 := runsPutAll [(top, n)] s.tiers.free3 } ∧
        t.regF (Reg.cxlDcd p) 31 0 = min (s.regF (Reg.cxlDcd p) 31 0 + n) (2 ^ 32 - 1) ∧ s.onlyRegs t [Reg.cxlDcd p] ∧
        t = { s with tiers := t.tiers, regs := t.regs }) ∧
    (∀ first n, s.tiers.far = [(p, first, n)] → 0 < n →
      (s.tiers.free3 = [(first, n)] → ∃ t, exec (.dcdRelease p first n) s = .next t ∧
        t.tiers = { s.tiers with far := [], total3 := s.tiers.total3 - n, free3 := [] } ∧ t = { s with tiers := t.tiers }) ∧
      (s.tiers.free3 = [] → ∃ t, exec (.dcdRelease p first n) s = .next t ∧ t.tiers = s.tiers ∧
        t.regF (Reg.cxlDcd p) 62 32 = min (s.regF (Reg.cxlDcd p) 62 32 + 1) (2 ^ 31 - 1) ∧ s.onlyRegs t [Reg.cxlDcd p] ∧
        t = { s with regs := t.regs })) ∧
    (∀ src v, s.boot.stage ≠ 7 → (v.extractLsb' 0 4).toNat = 2 ^ p →
      (s.farHeld p = true → exec (.cxlRescan src v) s = .next { s with
        inFlight := s.inFlight ++ [.faultNotice ⟨0x4071, none, srcSession src, Reg.cxlCtrl, 15⟩] }) ∧
      (s.farHeld p = false → x.state = .unlicensed → exec (.cxlRescan src v) s = .next s) ∧
      (s.farHeld p = false → x.state ≠ .unlicensed → ∃ t, exec (.cxlRescan src v) s = .next t ∧
        t.cxl p = { CxlPort.reset with state := .training } ∧ onlyPort t ∧ t.tiers.far = s.tiers.far.filter (fun r => r.1 != p) ∧
        t = { s with tiers := t.tiers })) ∧
    (∀ up w r d u bytes, x.state ≠ .training → exec (.cxlTrainingDone p up w r d u bytes) s = .next s) ∧
    (∀ w r d u bytes, x.state = .training →
      (∃ t, exec (.cxlTrainingDone p false w r d u bytes) s = .next t ∧
        t.cxl p = { x with state := .down, width := 0, rate := 0 } ∧ onlyPort t ∧ t = { s with tiers := t.tiers }) ∧
      (262144 ≤ bytes → s.tiers.total3 + bytes / 262144 ≤ 268435456 → (∀ b ∈ s.yard.allocs, b.need = 0) →
        ∃ t, exec (.cxlTrainingDone p true w r d u bytes) s = .next t ∧ t.cxl p = ⟨.active, w, r, d, u⟩ ∧ onlyPort t ∧
          t.tiers.far = s.tiers.far ++ [(p, top, bytes / 262144)] ∧ t.tiers.total3 = s.tiers.total3 + bytes / 262144 ∧
          t = { s with tiers := t.tiers })))

/-! ## The reducer -/

/-- A tile that the region reducer takes leaves its outbox slot; under a CONTRIB route it goes to the layer's owner with its
index, step and final flag and stays in the send store; with a bad header it is discarded with 0x4054, without a route with
0x4055. A contribution for the step being computed joins its layer at an owner; one of a step gone by is refused. An
acknowledgement by the last owner frees the send store. A late module folds its tiles back, or after too many late steps drops
them with 0x4053. The primary's set closes with the modules whose last tile came; the shadow keeps the notice of it, and one
that lacks a tile at the end of the grace raises 0x4052 and is unverified for the step.
Where the spec leaves room, it rests on the model's readings: log entries 52, 53, 55, 56, 67 and 69. -/
def Obligations.Contributions : Prop :=
  -- OUTBOX_TAKE
  (∀ (s : State) (n c j : Nat), s.slotOfCell c = some n → j < 64 →
    let x := s.cell c
    let y := s.red n
    let a := (x.obFirst + j * x.obPages) * 4096
    let h := tileHdrOf (x.under.read a 32)
    let good := tileHdrGood (x.under.read a 32)
    let u := y.takes.get 0 (c * 64 + j)
    let taken := fun (t : State) => t.cell c = { x with outbox := x.outbox.filter (fun k => k != j) } ∧ s.onlyCells t [c] ∧ s.onlyRed t n
    (j ∉ x.outbox → exec (.outboxTake c j) s = .next s) ∧
    (j ∈ x.outbox → (s.rgn (regionOf c)).hub.owed = none →
      (∀ r l, y.routes.find? (fun r => r.covers c j) = some r → s.layer n r.layer = some l → r.out = 0 →
        l.plan.primary = s.moduleNo → l.plan.shadow = 0xFFFF → good = true → r.index c j u < l.plan.positions →
        let i := r.index c j u
        let bytes := slice (x.under.read (a + 32) h.length) 0 768
        ∃ t, exec (.outboxTake c j) s = .next t ∧ taken t ∧ t.inFlight = s.inFlight ++
          [.contribTileArrive ⟨n, s.moduleNo, r.layer, i, s.stepP n + 1, decide (i + 1 = l.plan.positions), bytes⟩] ∧
          (t.red n).takes.get 0 (c * 64 + j) = u + 1 ∧ (t.red n).sent = y.sent ++
            [⟨r.layer, i, s.stepP n + 1, [s.moduleNo], c, (j - r.slotFirst + u * r.slotCount) * 16384, bytes⟩] ∧
          t.red n = { y with takes := (t.red n).takes, sent := (t.red n).sent }) ∧
      (∀ code, (good = false ∧ code = 0x4054 ∨ good = true ∧ code = 0x4055) → y.routes.find? (fun r => r.covers c j) = none →
        ∃ t, exec (.outboxTake c j) s = .next t ∧ taken t ∧ s.onlyRegs t [Reg.redFault] ∧
          t.inFlight = s.inFlight ++ [.faultNotice ⟨code, some n, 0, 0, 15⟩]))) ∧
  -- CONTRIB_TILE_ARRIVE
  (∀ (s : State) (m : Contribution) (l : LayerSt), s.layer m.slot m.layer = some l →
    let n := m.slot
    let msg := Instr.contribTileArrive m
    (l.plan.role = 1 → m.step = s.stepP n + 1 → l.set = none →
      (∀ c ∈ l.contribs, ¬ (c.step = m.step ∧ c.module = m.module ∧ c.position = m.position)) →
      ∃ t, exec msg s = .next t ∧ t.layer n m.layer = some { l with contribs := l.contribs ++ [m] } ∧
        (∀ k, k ≠ m.layer → t.layer n k = s.layer n k) ∧ s.onlyRed t n ∧ t = { s.deliver msg with reds := t.reds }) ∧
    (l.plan.role = 1 ∨ l.plan.role = 2 → m.step ≤ s.stepP n → m.module = s.moduleNo → exec msg s = .next { s.deliver msg with
      inFlight := s.inFlight.erase msg ++ [.lateRefusal n m.layer m.step] })) ∧
  -- CONTRIB_ACK and LATE_REFUSAL
  (∀ (s : State) (n k : Nat) (l : LayerSt), s.layer n k = some l →
    let y := s.red n
    (∀ pos owner, ∃ t, exec (.contribAck n k pos owner) s = .next t ∧ t.layer n k = some { l with streak := 0 } ∧
      (t.red n).sent = (y.sent.map (fun e => if e.layer = k ∧ e.position = pos then
        { e with owners := e.owners.filter (fun o => o != owner) } else e)).filter (fun e => !e.owners.isEmpty) ∧
      s.onlyRed t n ∧ t = { s.deliver (.contribAck n k pos owner) with reds := t.reds }) ∧
    (∀ step,
      let msg := Instr.lateRefusal n k step
      let mine := y.sent.filter (fun e => e.layer == k && e.step == step)
      let a := Reg.redLate n
      let free := mine ≠ [] ∧ (s.dHold n = false ∨ step ≠ s.stepP n + 1) ∧ s.refHeld l.plan.error = false ∧ l.late = false
      let gone := fun (t : State) => t.layer n k = some { l with streak := l.streak + 1, late := true } ∧
        (t.red n).sent = y.sent.filter (fun e => !(e.layer == k && e.step == step)) ∧ s.onlyRed t n
      (mine = [] → exec msg s = .next (s.deliver msg)) ∧
      (mine ≠ [] → s.refHeld l.plan.error = true → exec msg s = .next s) ∧
      (free → y.lateDrop < l.streak + 1 → ∃ t, exec msg s = .next t ∧ gone t ∧ t.cells = s.cells ∧ t.yard = s.yard ∧
        t.regF a 62 48 = min (s.regF a 62 48 + 1) 0x7FFF ∧ s.onlyRegs t [a, Reg.redFault] ∧
        t.inFlight = s.inFlight.erase msg ++ [.faultNotice ⟨0x4053, some n, k, 0, 15⟩]) ∧
      (∀ e, free → l.streak + 1 ≤ y.lateDrop → mine = [e] → l.plan.error = 0 → e.errAt + 16384 ≤ (s.cell e.cell).errPages * 4096 →
        let x := s.cell e.cell
        let at_ := x.errFirst * 4096 + e.errAt
        let old := x.underRead at_ 16384
        let sums := ((Fmt.sign1).values 4096 e.payload).zipIdx.flatMap (fun (v : Sys2Proof.Machine.Num × Nat) =>
          toLE 4 (fFP32.encode .nearest 0 false (Sys2Proof.Machine.Num.add (fFP32.decode (leAt old (4 * v.2) 4)) v.1).1).1)
        ∃ t, exec msg s = .next t ∧ gone t ∧ t.cell e.cell = x.underWrite at_ sums ∧ s.onlyCells t [e.cell] ∧
          t.regF a 47 32 = min (s.regF a 47 32 + 1) 0xFFFF ∧ s.onlyRegs t [a] ∧ t.inFlight = s.inFlight.erase msg))) ∧
  -- CONTRIB_SET_CLOSE, CONTRIB_SET_NOTICE and SET_GRACE_EXPIRY
  (∀ (s : State) (n k : Nat) (l : LayerSt), s.layer n k = some l →
    let step := s.stepP n + 1
    let ms := (l.modules step).filter (fun m => l.complete step m)
    (l.plan.role = 1 → l.set ≠ none ∨ l.modules step = [] → exec (.contribSetClose n k) s = .next s) ∧
    (l.plan.role = 1 → l.set = none → l.modules step ≠ [] → ∃ t q, exec (.contribSetClose n k) s = .next t ∧ t.layer n k = some q ∧
      q.set = some ms ∧ q.received = ms.length ∧ q.begun = true ∧ q.plan = l.plan ∧ q.version = l.version ∧
      q.contribs = l.contribs.filter (fun c => c.step != step) ∧ s.onlyRed t n ∧
      t.regF (Reg.redLate n) 31 0 = min (s.regF (Reg.redLate n) 31 0 + (l.plan.contributors - ms.length)) (2 ^ 32 - 1) ∧
      (l.plan.shadow = 0xFFFF → (∀ c ∈ l.contribs, c.module = s.moduleNo) → s.moduleNo ∈ ms → l.plan.kind ≠ 1 →
        (l.positionsOf step ms).length ≤ l.plan.cap →
        t.inFlight = s.inFlight ++ (l.contribs.filter (fun c => c.step == step && ms.contains c.module)).map
          (fun c => .contribAck n k c.position s.moduleNo) ∧ q.touched = l.positionsOf step ms)) ∧
    (∀ who,
      let msg := Instr.contribSetNotice n k who
      (l.plan.role = 2 → l.set = none → (∃ m ∈ who, l.complete step m = false) → ∃ t, exec msg s = .next t ∧
        t.layer n k = some { l with notice := some who } ∧ s.onlyRed t n ∧ t = { s.deliver msg with reds := t.reds }) ∧
      (l.plan.role ≠ 2 ∨ l.set ≠ none → exec msg s = .next (s.deliver msg))) ∧
    (let msg := Instr.setGraceExpiry n k
     (l.plan.role = 1 → s.dHold n = false → ∃ t, exec msg s = .next t ∧ t.layer n k = some { l with
        unverified := some (if l.set.isSome then step else s.stepP n), verify := 2 } ∧ s.onlyRed t n ∧
        t = { s.deliver msg with reds := t.reds }) ∧
     (∀ who, l.plan.role = 2 → l.notice = some who → l.set = none → ∃ t q, exec msg s = .next t ∧ t.layer n k = some q ∧
        q.unverified = some step ∧ q.set = some (who.filter (fun m => l.complete step m)) ∧ s.onlyRed t n ∧
        .faultNotice ⟨0x4052, some n, k, 0, 15⟩ ∈ t.inFlight)))

/-- A broadcast tile of the next step takes the layer's write hold at a receiver, and in an EMBED layer writes its row into the
slab object; it waits in the D-hold. The marker after the last tile releases the hold and sets the layer's version, and with the
last layer the published step advances; before that, in the D-hold, or once the version is written, it has no effect. A shadow's
digest that matches settles the layer, one that differs raises 0x4050. A child's verdict is kept; once the root has every
verdict and all are MATCH it confirms. A result that does not come in time raises 0x4056 once.
Where the spec leaves room, it rests on the model's readings: log entries 57, 59, 60, 61, 62, 64, 68 and 82. -/
def Obligations.Commits : Prop :=
  (∀ (s : State) (n k : Nat) (l : LayerSt), s.layer n k = some l →
    let y := s.red n
    let step := s.stepP n + 1
    (∀ record pos last data,
      let msg := Instr.parameterBroadcastTile n k record pos step last data
      (l.plan.role = 0 → s.dHold n = true → exec msg s = .next s) ∧
      (∀ f, l.plan.role = 0 → s.dHold n = false → s.refHeld l.plan.slab = false → l.plan.kind = 2 → fmtOf l.plan.wfmt = some f →
        s.obj l.plan.slab ≠ none →
        let row := (f.writeValues .nearest [] false ((f.values 4096 data).take (s.rowLen n l.plan.slab))).1
        let w := s.objWriteV l.plan.slab (pos * row.length) row
        ∃ t, exec msg s = .next t ∧ t.layer n k = some { l with hold := true, begun := true, lastIn := l.lastIn || last } ∧
          (∀ j, j ≠ k → t.layer n j = s.layer n j) ∧ s.onlyRed t n ∧ t.yard = w.yard ∧ t.tiers = w.tiers ∧
          t.inFlight = s.inFlight.erase msg ∧ t.regs = s.regs) ∧
      (∀ p, p ≤ s.stepP n → exec (.parameterBroadcastTile n k record pos p last data) s =
        .next (s.deliver (.parameterBroadcastTile n k record pos p last data)))) ∧
    (l.plan.role = 0 → (l.lastIn = false ∨ l.version = step ∨ s.dHold n = true) → exec (.commitMarker n k) s = .next s) ∧
    (l.plan.role = 0 → l.lastIn = true → l.version ≠ step → s.dHold n = false → y.layers = [l] → k = 0 → step < s.stepC n + (s.slot n).d →
      step < 2 ^ 32 → ∃ t, exec (.commitMarker n k) s = .next t ∧ t.stepP n = step ∧ t.stepC n = s.stepC n ∧ (t.red n).takes = [] ∧
        (∃ q, t.layer n 0 = some q ∧ q.version = step ∧ q.hold = false ∧ q.begun = false ∧ q.lastIn = false ∧ q.plan = l.plan) ∧
        s.onlyRed t n ∧ s.onlyRegs t [Reg.redStep n] ∧ t.inFlight = s.inFlight ∧ t.yard = s.yard) ∧
    (∀ digest : BitVec 128,
      let msg := Instr.shadowDigest n k (s.stepP n) digest
      let same := (digest.extractLsb' 64 64).toNat = l.last1 ∧ (digest.extractLsb' 0 64).toNat = l.last2
      l.plan.role = 1 → l.version = s.stepP n → l.verify = 3 → s.dHold n = false →
      (same → ∃ t, exec msg s = .next t ∧ t.layer n k = some { l with verify := 0, shadowDig := none, lastMatch := l.version } ∧
        s.onlyRed t n ∧ t = { s.deliver msg with reds := t.reds }) ∧
      (¬ same → s.stepC n ≤ l.lastMatch → ∃ t, exec msg s = .next t ∧
        t.layer n k = some { l with verify := 1, shadowDig := none } ∧ s.onlyRed t n ∧ s.onlyRegs t [Reg.redFault] ∧
        t.inFlight = s.inFlight.erase msg ++ [.faultNotice ⟨0x4050, some n, k, 0, 15⟩]))) ∧
  (∀ (s : State) (n child step : Nat),
    let y := s.red n
    let msg := Instr.verdictArrive n child step true false
    let kept := { y with kids := if child ∈ y.kids then y.kids else y.kids ++ [child],
                         verdicts := y.verdicts.filter (fun v => v.1 != child) ++ [(child, true, false)] }
    (y.own = none → y.upSent = false → (∀ v ∈ y.verdicts, v.2.1 = true) → ∃ t, exec msg s = .next t ∧ t.red n = kept ∧
      s.onlyRed t n ∧ t = { s.deliver msg with reds := t.reds }) ∧
    (y.own = some true → y.upSent = false → y.parent = 0xFFFF → (∀ v ∈ y.verdicts, v.2.1 = true) →
      y.children ≤ kept.verdicts.length → ∃ t, exec msg s = .next t ∧ t.red n = { kept with upSent := true } ∧ s.onlyRed t n ∧
        t.inFlight = s.inFlight.erase msg ++ [.confirm n step] ∧ t = { s with reds := t.reds, inFlight := t.inFlight }) ∧
    (y.own ≠ none → y.timedOut = false → y.waiting = none → ∃ t, exec (.verdictTimeout n) s = .next t ∧
      t.red n = { y with timedOut := true } ∧ s.onlyRed t n ∧ s.onlyRegs t [Reg.redFault] ∧
      t.inFlight = s.inFlight ++ [.faultNotice ⟨0x4056, some n, 0, 0, 15⟩]) ∧
    (y.own = none ∨ y.timedOut = true → exec (.verdictTimeout n) s = .next s))

/-- A CONFIRM of the published step makes it the confirmed one, swaps every dirty extent and page of the slot and counts the
round; one of another step changes no version, and one during a checkpoint waits. A ROLLBACK returns P to C, clears every dirty
bit, empties the send store, and stops a running job, which waits for its replay or is STOPPED. A host rollback does the same
and tells the tree. A write of RED_STEP whose fields agree confirms what the slot holds and sets both, and is rejected while a
job runs or where they differ. At a replay's origin the job runs again from its start index and the replay is counted.
Where the spec leaves room, it rests on the model's readings: log entries 65 and 118. -/
def Obligations.ConfirmAndRollback : Prop :=
  ∀ (s : State) (n : Nat), n < 8 →
    let y := s.red n
    let owned := fun (o : Obj) => o.owner = n ∧ o.param = true
    let mine := fun (c : Nat) => (s.slot n).rect.has (regionOf c) = true
    let listed := fun (c : Nat) => s.cells.find c ≠ none
    let swapped := fun (t : State) =>
      (∀ h o, s.obj h = some o → owned o → ∃ q, t.obj h = some q ∧ q = { o with cb := q.cb, dirty := [] } ∧
        ∀ x, x ∈ q.cb ↔ ((x ∈ o.cb ∧ x ∉ o.dirty) ∨ (x ∈ o.dirty ∧ x ∉ o.cb))) ∧
      (∀ h o, s.obj h = some o → ¬ owned o → t.obj h = some o) ∧
      (∀ c, mine c → listed c → t.cell c = { s.cell c with errCb := (s.cell c).errCb ^^^ (s.cell c).errD, errD := 0 }) ∧
      (∀ c, ¬ mine c → t.cell c = s.cell c)
    let cleared := fun (t : State) =>
      (∀ h o, s.obj h = some o → owned o → t.obj h = some { o with dirty := [] }) ∧
      (∀ h o, s.obj h = some o → ¬ owned o → t.obj h = some o) ∧
      (∀ c, mine c → listed c → t.cell c = { s.cell c with errD := 0 }) ∧ (∀ c, ¬ mine c → t.cell c = s.cell c) ∧
      t.stepP n = s.stepC n ∧ t.stepC n = s.stepC n ∧ (t.red n).sent = [] ∧ (t.red n).rolled = true ∧
      t.regF (Reg.redRounds n) 62 48 = min (s.regF (Reg.redRounds n) 62 48 + 1) 0x7FFF ∧ s.onlyRed t n
    (∀ step, y.kids = [] → step ≠ s.stepP n → exec (.confirm n step) s = .next (s.deliver (.confirm n step))) ∧
    (y.kids = [] → (s.reg Reg.redCtrl).getLsbD n = true → ∃ t, exec (.confirm n (s.stepP n)) s = .next t ∧
      t.red n = { y with waiting := some (s.stepP n) } ∧ s.onlyRed t n ∧ t = { s.deliver (.confirm n (s.stepP n)) with reds := t.reds }) ∧
    (y.kids = [] → (s.reg Reg.redCtrl).getLsbD n = false → ∃ t, exec (.confirm n (s.stepP n)) s = .next t ∧ swapped t ∧
      t.stepC n = s.stepP n ∧ t.stepP n = s.stepP n ∧ t.regF (Reg.redRounds n) 31 0 = (s.regF (Reg.redRounds n) 31 0 + 1) % 2 ^ 32 ∧
      t.regF (Reg.fltJob n) 31 24 = 0 ∧ s.onlyRegs t [Reg.redStep n, Reg.redRounds n, Reg.fltJob n, Reg.redSlotStatus n] ∧
      s.onlyRed t n ∧ t.inFlight = s.inFlight.erase (.confirm n (s.stepP n))) ∧
    (∀ step replay origin,
      let msg := Instr.rollback n step replay origin
      (y.kids = [] → s.jobRuns n = false → s.jobState n ≠ 5 → ∃ t, exec msg s = .next t ∧ cleared t ∧
        s.onlyRegs t [Reg.redStep n, Reg.redRounds n, Reg.redSlotStatus n] ∧ t.inFlight = s.inFlight.erase msg) ∧
      (y.kids = [] → s.jobRuns n = true → (s.sched n).state = .idle → (s.stream n).opens = [] → ∃ t, exec msg s = .next t ∧ cleared t ∧
        t.jobState n = (if replay then 5 else 4) ∧ (t.job n).replay = (if replay then some origin.toNat else none) ∧
        t.inFlight = s.inFlight.erase msg ++ (s.slotCells n).map (fun c => .looperStop c true))) ∧
    (∀ src v, s.boot.stage ≠ 7 → (v.extractLsb' 8 8).toNat = 2 ^ n → y.parent = 0xFFFF →
      (∀ k, (s.red k).waiting = none) → s.commitCut n = false →
      ∃ t, exec (.slotRollback src v) s = .next t ∧ cleared t ∧
        t.inFlight = s.inFlight ++ [.rollback n (s.stepP n) false (BitVec.ofNat 32 ((s.beat.extractLsb' 0 32).toNat + 4096))]) ∧
    (∀ src v, s.boot.stage ≠ 7 →
      let a := Reg.redStep n
      (s.jobRuns n = true ∨ s.jobState n = 5 ∨ v.extractLsb' 32 32 ≠ v.extractLsb' 0 32 → exec (.redStepWrite src n v) s = .next { s with
        inFlight := s.inFlight ++ [.faultNotice ⟨0x4071, some n, srcSession src, a, 15⟩] }) ∧
      (s.jobRuns n = false → s.jobState n ≠ 5 → v.extractLsb' 32 32 = v.extractLsb' 0 32 → ∃ t, exec (.redStepWrite src n v) s = .next t ∧
        swapped t ∧ t.reg a = v ∧ s.onlyRegs t [a] ∧ (∀ l ∈ (t.red n).layers, l.version = (v.extractLsb' 0 32).toNat) ∧
        s.onlyRed t n ∧ t.inFlight = s.inFlight)) ∧
    (∀ o, (s.job n).replay = some o → s.jobState n = 5 → o < 2 ^ 32 → o ≤ s.beat.toNat →
      ∃ t, exec (.replayOrigin n) s = .next t ∧ t.jobState n = 1 ∧ (t.job n).replay = none ∧
        (t.reg (Reg.beatOrigin n)).extractLsb' 0 32 = BitVec.ofNat 32 o ∧
        t.regF (Reg.fltJob n) 31 24 = min (s.regF (Reg.fltJob n) 31 24 + 1) 0xFF ∧
        (∀ c ∈ s.slotCells n, .looperStart c (s.job n).index ∈ t.inFlight) ∧
        (∀ f, wfFm f = true → (s.fm f).configured = true → (s.slot n).rect.has f.region = true → (t.fm f).prog = .running ∧
          (t.fm f).pc = 0 ∧ (t.fm f).done = 0 ∧ (t.fm f).events = [])) ∧
    ((s.job n).replay = none → exec (.replayOrigin n) s = .next (s.deliver (.replayOrigin n)))

/-! ## The skyline -/

/-- For a port that is up or admitted, has nothing waiting to be sent, and owes fewer than 63 acknowledgements. A flit with a
bad CRC is discarded and answered with nak once. A good flit frees what it acknowledges and returns its credits; an IDLE flit
does no more. A TRAIL flit with the expected sequence number is accepted and counted; a MESH flit's mesh flit enters its
attachment cell; the flits of a tile gather until the tile is whole; a flit that had come before is discarded. The
acknowledgement timer answers what is owed with an IDLE flit. A station sends a waiting mesh flit in a MESH flit, which stays in
the replay buffer and spends a credit.
Where the spec leaves room, it rests on the model's readings: log entries 37, 38, 56 and 146. -/
def Obligations.SkyFlits : Prop :=
  ∀ (s : State) (p : Nat) (f : SkyFlit),
    let x := s.sky p
    let linked := x.state = .up ∨ x.state = .admitted
    let quiet := x.mesh = [] ∧ x.tiles = [] ∧ x.owed < 63
    let good := f.crc = crc64 (toLE 8 f.header.toNat ++ slice f.payload 0 240) ∧ f.header.getLsbD 35 = false
    let type := (f.header.extractLsb' 60 4).toNat
    let seq := (f.header.extractLsb' 48 12).toNat
    let n := (f.header.extractLsb' 23 10).toNat
    let idle := fun (g : SkyFlit) (nak : Bool) => (g.header.extractLsb' 60 4).toNat = 0 ∧
      (g.header.extractLsb' 36 12).toNat = (x.expect + 4095) % 4096 ∧ g.header.getLsbD 35 = nak
    let acked := { x with replay := dropAcked (f.header.extractLsb' 36 12).toNat x.replay,
                          credits := match (f.header.extractLsb' 33 2).toNat with
                            | 0 => (x.credits.1 + n, x.credits.2)
                            | 1 => (x.credits.1, x.credits.2.1 + n, x.credits.2.2)
                            | 2 => (x.credits.1, x.credits.2.1, x.credits.2.2 + n)
                            | _ => x.credits }
    let next := { acked with expect := (x.expect + 1) % 4096, nakSent := false, owed := x.owed + 1 }
    let accepted := fun (t : State) => exec (.skyFlitReceive p f) s = .next t ∧ t.reg (Reg.skyRx p) = s.reg (Reg.skyRx p) + 1 ∧
      s.onlyRegs t [Reg.skyRx p] ∧ s.onlySky t p
    let bad := f.crc ≠ crc64 (toLE 8 f.header.toNat ++ slice f.payload 0 240)
    (linked → bad → x.nakSent = true → quiet → exec (.skyFlitReceive p f) s = .next s) ∧
    (linked → bad → x.nakSent = false → quiet → ∃ t g, exec (.skyFlitReceive p f) s = .next t ∧ (t.sky p).nakSent = true ∧
      (t.sky p).expect = x.expect ∧ (t.sky p).replay = x.replay ∧ s.onlySky t p ∧ t.out = s.out ++ [.sky p g] ∧ idle g true ∧
      t.regF (Reg.skyLinkErrors p) 31 0 = min (s.regF (Reg.skyLinkErrors p) 31 0 + 1) (2 ^ 32 - 1) ∧ t.inFlight = s.inFlight) ∧
    (linked → quiet → good → type = 0 → ∃ t, exec (.skyFlitReceive p f) s = .next t ∧ t.sky p = acked ∧ s.onlySky t p ∧
      t = { s with skys := t.skys }) ∧
    (linked → quiet → good → type ≠ 0 → seq ≠ x.expect → 2048 ≤ (seq + 4096 - x.expect) % 4096 → ∃ t,
      exec (.skyFlitReceive p f) s = .next t ∧ t.sky p = acked ∧ s.onlySky t p ∧ t = { s with skys := t.skys }) ∧
    (linked → quiet → good → type = 3 → seq = x.expect → ∃ t, accepted t ∧
      t.sky p = { next with freed := (x.freed.1, x.freed.2.1, x.freed.2.2 + 1) } ∧ t = { s with skys := t.skys, regs := t.regs }) ∧
    (linked → quiet → good → type = 1 → seq = x.expect → (f.header.extractLsb' 21 2).toNat = 1 → x.meshIn = [] →
      let m := slotMesh (slice f.payload 0 80)
      let e := (attachment p).1
      let c := exitCell p (m.sideband.extractLsb' 24 18).toNat
      sbGood m.sideband = true → s.portAllowed p (m.sideband.extractLsb' 42 18).toNat = true → m.sideband.getLsbD 10 = false →
      s.inUse c (stationKey e) < 16 → ∃ t, accepted t ∧ t.inFlight = s.inFlight ++ [.flitArrive c e (flitLanded m) false] ∧
        t.sky p = { next with freed := (x.freed.1 + 1, x.freed.2) } ∧ t.cells = s.cells ∧ t.foreign = s.foreign) ∧
    (linked → quiet → good → type = 2 → seq = x.expect →
      let got := x.tileIn ++ slice f.payload 0 240
      got.length < 32 + (tileHdrOf (slice got 0 32)).length → ∃ t, accepted t ∧
        t.sky p = { next with tileIn := got, freed := (x.freed.1, x.freed.2.1 + 1, x.freed.2.2) } ∧
        t = { s with skys := t.skys, regs := t.regs }) ∧
    (x.state = .dark ∨ x.state = .down → exec (.skyFlitReceive p f) s = .next s) ∧
    (linked → x.meshIn = [] → 0 < x.owed → ∃ t g, exec (.skyAckTimer p) s = .next t ∧ t.out = s.out ++ [.sky p g] ∧ idle g false ∧
      t.sky p = { x with owed := 0, freed := (t.sky p).freed } ∧ s.onlySky t p ∧ t = { s with skys := t.skys, out := t.out }) ∧
    (x.state = .dark ∨ x.state = .down ∨ x.state = .retrain → exec (.skyAckTimer p) s = .next s) ∧
    (∀ g, x.state = .admitted → x.mesh = [g] → x.tiles = [] → 0 < x.credits.1 → x.replay.length < 2048 →
      ∃ t h, exec (.meshFlitSendTimer p) s = .next t ∧ t.out = s.out ++ [.sky p h] ∧ (h.header.extractLsb' 60 4).toNat = 1 ∧
        (h.header.extractLsb' 21 2).toNat = 1 ∧ (h.header.extractLsb' 48 12).toNat = x.nextSeq % 4096 ∧
        h.payload = slice (meshSlot g.2) 0 240 ∧ (t.sky p).mesh = [] ∧ (t.sky p).replay = x.replay ++ [h] ∧
        (t.sky p).nextSeq = (x.nextSeq + 1) % 4096 ∧ (t.sky p).credits = (x.credits.1 - 1, x.credits.2) ∧ s.onlySky t p ∧
        t.inFlight = s.inFlight ++ [.creditReturn g.1 (attachment p).1 .credit] ∧ t.reg (Reg.skyTx p) = s.reg (Reg.skyTx p) + 1 ∧
        s.onlyRegs t [Reg.skyTx p]) ∧
    (x.state ≠ .admitted → x.tileBusy = false → exec (.meshFlitSendTimer p) s = .next s)

/-- A port that is up or admitted enters RETRAIN and counts it; a lane that fails is mapped out with 0x4060; with fewer than 8
lanes the port goes DOWN with 0x4061 and loses its replay buffer, as it does at the third attempt that fails. A retrain that
completes resumes from the replay buffer. A dark or down port with a live partner comes up in a powered module with the credits
of R460 and the partner's serial, unless it is disabled. A host write disables the port, or retrains it with all 16 lanes. In
other states each of these has no effect.
Where the spec leaves room, it rests on the model's readings: log entries 40 and 127. -/
def Obligations.SkyPorts : Prop :=
  ∀ (s : State) (p : Nat), p < 16 →
    let x := s.sky p
    let errors := Reg.skyLinkErrors p
    let status := Reg.skyPortStatus p
    let retrain := { x with state := .retrain, back := x.state, tries := 0, resent := (0, 0) }
    let counted := fun (t : State) => t.regF errors 62 48 = min (s.regF errors 62 48 + 1) 0x7FFF ∧ s.onlySky t p
    let gone := fun (y : SkyPort) (st : PortState) =>
      { y with state := st, replay := [], lanes := 0, tileIn := [], tileBusy := false, nakHeld := none, leaving := false }
    let down := SkyPort.active x < 8
    (x.state ≠ .up → x.state ≠ .admitted → ∀ l, exec (.portRetrain p l) s = .next s) ∧
    (x.state = .up ∨ x.state = .admitted →
      (¬ down → ∃ t, exec (.portRetrain p []) s = .next t ∧ t.sky p = retrain ∧ counted t ∧ s.onlyRegs t [errors] ∧
        t = { s with skys := t.skys, regs := t.regs }) ∧
      (down → ∃ t, exec (.portRetrain p []) s = .next t ∧ t.sky p = gone retrain .down ∧ counted t ∧ s.onlyRegs t [errors, status] ∧
        t.regF status 47 32 = 0 ∧ t.inFlight = s.inFlight ++ [.faultNotice ⟨0x4061, none, p, 0, 15⟩]) ∧
      (∀ k, k < 16 → x.mapped.getLsbD k = false →
        let m := BitVec.ofNat 16 (2 ^ k)
        let y := { retrain with mapped := x.mapped ||| m, lanes := x.lanes &&& ~~~ m }
        8 ≤ y.active → ∃ t, exec (.portRetrain p [k]) s = .next t ∧ t.sky p = y ∧ counted t ∧ s.onlyRegs t [errors] ∧
          t.regF errors 47 32 = min (s.regF errors 47 32 + 1) 0xFFFF ∧
          t.inFlight = s.inFlight ++ [.faultNotice ⟨0x4060, none, p, k, 15⟩])) ∧
    (x.state ≠ .retrain → exec (.retrainAttemptTimeout p) s = .next s ∧ ∀ l, exec (.retrainComplete p l) s = .next s) ∧
    (x.state = .retrain →
      (x.tries < 2 → ∃ t, exec (.retrainAttemptTimeout p) s = .next t ∧ t.sky p = { x with tries := x.tries + 1 } ∧ s.onlySky t p ∧
        t = { s with skys := t.skys }) ∧
      (2 ≤ x.tries → ∃ t, exec (.retrainAttemptTimeout p) s = .next t ∧ t.sky p = gone x .down ∧ s.onlySky t p ∧
        t.inFlight = s.inFlight ++ [.faultNotice ⟨0x4061, none, p, 0, 15⟩]) ∧
      (¬ down → x.nakHeld = none → x.mesh = [] → x.tiles = [] → ∃ t, exec (.retrainComplete p []) s = .next t ∧
        t.sky p = { x with state := x.back, tries := 0 } ∧ s.onlySky t p ∧ t.out = s.out ++ x.replay.map (.sky p) ∧
        t = { s with skys := t.skys, out := t.out }) ∧
      (down → ∃ t, exec (.retrainComplete p []) s = .next t ∧ t.sky p = gone x .down ∧ s.onlySky t p ∧
        t.inFlight = s.inFlight ++ [.faultNotice ⟨0x4061, none, p, 0, 15⟩])) ∧
    (exec (.trainingAttempt p none) s = .next s) ∧
    (∀ serial, (s.boot.stage < 4 ∨ s.boot.stage = 7) → exec (.trainingAttempt p (some serial)) s = .next s) ∧
    (∀ serial, s.boot.stage = 4 ∨ s.boot.stage = 6 → x.state = .dark ∨ x.state = .down →
      ((s.reg (Reg.skyPortCtrl p)).getLsbD 1 = true → exec (.trainingAttempt p (some serial)) s = .next s) ∧
      ((s.reg (Reg.skyPortCtrl p)).getLsbD 1 = false → s.admitted = false → x.mapped = 0 →
        ∃ t, exec (.trainingAttempt p (some serial)) s = .next t ∧ t.sky p = { SkyPort.reset with
          state := .up, lanes := 0xFFFF, credits := (2048, 2048, 64), mesh := x.mesh, meshIn := x.meshIn, tiles := x.tiles } ∧
        s.onlySky t p ∧ t.reg (Reg.skyPeer p) = serial ∧ s.onlyRegs t [Reg.skyPeer p] ∧ t = { s with skys := t.skys, regs := t.regs })) ∧
    (∀ src v, s.boot.stage ≠ 7 →
      let a := Reg.skyPortCtrl p
      let set := fun (t : State) => exec (.skyRetrainCommand src p v) s = .next t ∧ t.regF a 1 1 = (v.extractLsb' 1 1).toNat ∧ s.onlySky t p
      (v.getLsbD 1 = true → ∃ t, set t ∧ t.sky p = gone x .dark ∧ s.onlyRegs t [a, status] ∧ t.regF status 47 32 = 0) ∧
      (v.getLsbD 1 = false → v.getLsbD 0 = true → x.state = .up ∨ x.state = .admitted → ∃ t, set t ∧ counted t ∧
        t.sky p = { retrain with mapped := 0, lanes := 0xFFFF } ∧ s.onlyRegs t [a, errors]) ∧
      (v.getLsbD 1 = false → v.getLsbD 0 = false → ∃ t, set t ∧ t = { s with regs := t.regs } ∧ s.onlyRegs t [a]))

/-- A go is refused for the licence, the beat, the coordinates or an admission that stands, each with its result; else the
module is PENDING. At the target the request goes on the ports asked; with none the module is ADMITTED at once. A partner's
request whose stand, shape and coordinates fit is acknowledged and makes the port ADMITTED with the partner's number; another is
answered with the reason. An acknowledgement makes the port ADMITTED, and with the last the module. A nak, or an answer missing
at the timeout, refuses the module with 0x4064, and its ports return to UP. Leaving sends LEAVE on every ADMITTED port; a
partner's LEAVE returns the port to UP.
Where the spec leaves room, it rests on the model's readings: log entry 127. -/
def Obligations.Admission : Prop :=
  ∀ (s : State),
    let a := Reg.skyAdmit
    let n := s.shape
    let c := s.offered
    let number := fun (c : Nat × Nat × Nat) => c.1 + 32 * c.2.1 + 512 * c.2.2
    let pending := s.regF a 1 0 = 1
    let admitted := s.regF a 1 0 = 2
    let refused := fun (t : State) (result port : Nat) => t.regF a 1 0 = 3 ∧ t.regF a 7 4 = result ∧ t.admission = { s.admission with asked := [] } ∧
      (∀ p, p < 16 → (s.sky p).state = .admitted → t.sky p = { s.sky p with state := .up }) ∧
      (∀ p, (s.sky p).state ≠ .admitted → t.sky p = s.sky p) ∧ t.inFlight = s.inFlight ++ [.faultNotice ⟨0x4064, none, port, 0, 15⟩]
    (∀ src v, s.boot.stage ≠ 7 → v.getLsbD 31 = true → v.getLsbD 30 = false →
      let result := fun (k : Nat) => ∃ t, exec (.admitGo src v) s = .next t ∧ t.regF a 7 4 = k ∧ t.regF a 1 0 = s.regF a 1 0 ∧
        t.regF a 63 32 = (v.extractLsb' 32 32).toNat ∧ s.onlyRegs t [a] ∧ t = { s with regs := t.regs }
      let beat := s.beats.state = .locked ∨ s.beats.state = .holdover
      let covered := n.1 * n.2.1 * n.2.2 ≤ tierLimit s.standTier
      let inside := c.1 < n.1 ∧ c.2.1 < n.2.1 ∧ c.2.2 < n.2.2
      (¬ covered → result 1) ∧ (covered → ¬ beat → result 2) ∧ (covered → beat → ¬ inside → result 3) ∧
      (covered → beat → inside → admitted → result 4) ∧
      (covered → beat → inside → ¬ admitted → ∃ t, exec (.admitGo src v) s = .next t ∧ t.regF a 1 0 = 1 ∧ t.regF a 7 4 = 0 ∧
        t.regF a 63 32 = (v.extractLsb' 32 32).toNat ∧ t.admission = .reset ∧ s.onlyRegs t [a] ∧
        t = { s with regs := t.regs, admission := t.admission })) ∧
    (.admitReqSend ∉ s.inFlight → exec .admitReqSend s = .next s) ∧
    (.admitReqSend ∈ s.inFlight → pending →
      let asked := (List.range 16).filter (fun p => ((s.sky p).state == .up || (s.sky p).state == .admitted) && s.axisUsed p)
      (asked ≠ [] → ∃ t, exec .admitReqSend s = .next t ∧ t.admission = { s.admission with asked := asked } ∧ t.regF a 1 0 = 1 ∧
        (∀ p ∈ asked, .ctrl p (.admitReq (partnerPort p) s.admitRequest (BitVec.ofNat 32 (s.regF a 63 32))) ∈ t.out)) ∧
      (asked = [] → s.tilesHeld = [] → ∃ t, exec .admitReqSend s = .next t ∧ t.regF a 1 0 = 2 ∧ t.regF a 7 4 = 0 ∧ t.out = s.out)) ∧
    (∀ p r target, p < 16 → (s.sky p).state = .up →
      let own := s.admitRequest
      let open_ := (admitted ∧ s.admission.leaving = false) ∨ (pending ∧ BitVec.ofNat 32 (s.regF a 63 32) = target)
      let shape := (r.sx, r.sy, r.sz) = (own.sx, own.sy, own.sz)
      let place := s.axisUsed p = true ∧ (r.x, r.y, r.z) = s.behind p
      let nak := fun (k : Nat) => ∃ t, exec (.admitReq p r target) s = .next t ∧ (t.sky p).state = .up ∧ s.onlySky t p ∧
        .ctrl p (.admitNak (partnerPort p) k) ∈ t.out ∧ t.admission = s.admission ∧ t.reg a = s.reg a
      (¬ open_ → nak 4) ∧ (open_ → r.standId ≠ own.standId → nak 1) ∧ (open_ → r.standId = own.standId → ¬ shape → nak 2) ∧
      (open_ → r.standId = own.standId → shape → ¬ place → nak 3) ∧
      (open_ → r.standId = own.standId → shape → place → s.tilesHeld = [] → (s.sky p).mesh = [] → (s.sky p).tiles = [] →
        ∃ t, exec (.admitReq p r target) s = .next t ∧ (t.sky p).state = .admitted ∧ s.onlySky t p ∧
          .ctrl p (.admitAck (partnerPort p) (number c)) ∈ t.out ∧
          t.regF (Reg.skyPortStatus p) 47 32 = number (r.x, r.y, r.z) % 2 ^ 16 ∧ t.reg a = s.reg a)) ∧
    (∀ p peer, p < 16 → (s.sky p).state = .up → pending → s.admission.leaving = false → s.tilesHeld = [] → (s.sky p).mesh = [] →
      (s.sky p).tiles = [] →
      (s.admission.asked = [p] → ∃ t, exec (.admitAck p peer) s = .next t ∧ t.sky p = { s.sky p with state := .admitted } ∧
        s.onlySky t p ∧ t.regF a 1 0 = 2 ∧ t.regF a 7 4 = 0 ∧ t.regF (Reg.skyPortStatus p) 47 32 = peer % 2 ^ 16 ∧
        s.onlyRegs t [a, Reg.skyPortStatus p] ∧ t.admission = { s.admission with asked := [] }) ∧
      (∀ q l, s.admission.asked = q :: p :: l → q ≠ p → ∃ t, exec (.admitAck p peer) s = .next t ∧
        t.sky p = { s.sky p with state := .admitted } ∧ s.onlySky t p ∧ t.reg a = s.reg a ∧
        t.admission = { s.admission with asked := q :: l }) ∧
      (p ∉ s.admission.asked → exec (.admitAck p peer) s = .next s)) ∧
    (∀ p reason, p < 16 → pending → ∃ t, exec (.admitNak p reason) s = .next t ∧ refused t 5 p ∧ t.regF a 23 16 = reason % 256 ∧
      t.regF a 15 8 = p) ∧
    (∀ p reason, ¬ pending → ∃ t, exec (.admitNak p reason) s = .next t ∧ t.regF a 23 16 = reason % 256 ∧ t.regF a 15 8 = p % 256 ∧
      t.regF a 7 0 = s.regF a 7 0 ∧ s.onlyRegs t [a] ∧ t = { s with regs := t.regs }) ∧
    (s.admission.asked = [] → exec .admissionTimeout s = .next s) ∧
    (∀ p l, s.admission.asked = p :: l → pending → ∃ t, exec .admissionTimeout s = .next t ∧ refused t 6 p) ∧
    (∀ src v, s.boot.stage ≠ 7 → v.getLsbD 31 = false → v.getLsbD 30 = true → admitted → s.admission.leaving = false →
      ∃ t, exec (.admitLeave src v) s = .next t ∧ t.admission = { s.admission with leaving := true } ∧
        (∀ p, p < 16 → (s.sky p).state = .admitted → (t.sky p).state = .up ∧ (t.sky p).leaving = true ∧
          .ctrl p (.leave (partnerPort p)) ∈ t.out) ∧
        (∀ p, (s.sky p).state ≠ .admitted → t.sky p = s.sky p) ∧ t.regF a 1 0 = 2) ∧
    (∀ p, (s.sky p).state ≠ .admitted → exec (.leave p) s = .next s) ∧
    (∀ p, (s.sky p).state = .admitted → (s.sky p).tiles = [] → ∃ t, exec (.leave p) s = .next t ∧
      t.sky p = { s.sky p with state := .up, tileBusy := false } ∧ s.onlySky t p ∧ t.regF (Reg.skyPortStatus p) 47 32 = 0 ∧
      s.onlyRegs t [Reg.skyPortStatus p] ∧ t = { s with skys := t.skys, regs := t.regs })

/-! ## The beat unit -/

/-- At a tick the beat counter advances by one and by the forward step that is due, unless a hold keeps it; the calendar
advances by the tick's length; the source, the lock state, the queue of the beat fibre and PTP stay as they are.
Where the spec leaves room, it rests on the model's readings: log entries 79, 134, 135 and 154. -/
def Obligations.TickCounts : Prop :=
  ∀ (s : State) (m : Samples), ∃ t, exec (.tick m) s = .next t ∧
    (s.beats.hold = 0 → t.reg Reg.beatCounter = s.reg Reg.beatCounter + BitVec.ofNat 64 (1 + s.beats.jump) ∧ t.beats.jump = 0 ∧
      t.beats.hold = 0) ∧
    (0 < s.beats.hold → t.reg Reg.beatCounter = s.reg Reg.beatCounter ∧ t.beats.hold + 1 = s.beats.hold ∧ t.beats.jump = s.beats.jump) ∧
    t.beats.cal.sec * 1000000000000 + t.beats.cal.ps = s.beats.cal.sec * 1000000000000 + s.beats.cal.ps + s.tickPeriod ∧
    t.beats.cal.valid = s.beats.cal.valid ∧ t.beats.cal.utc = s.beats.cal.utc ∧ t.beats.cal.latch = s.beats.cal.latch ∧
    t.beats.state = s.beats.state ∧ t.beats.active = s.beats.active ∧ t.beats.fibre = s.beats.fibre ∧ t.beats.ptp = s.beats.ptp ∧
    t.pending = s.pending

/-- For a module that follows the fibre alone and is LOCKED on it. Every marker is echoed. A marker with the next tick bits
within 20 ns is counted and clears the run of bad ones; a bad one is counted, and the eighth in a row gives HOLDOVER with
BEAT_STATUS.holdover and 0x4080. A good cycle frame sets the mains-cycle number, the delay and the campus, and the frequency is
measured within the bounds of R513; a frame with a bad check is counted, and the second in a row gives HOLDOVER, as does the
loss of the source.
Where the spec leaves room, it rests on the model's readings: log entries 78 and 83. -/
def Obligations.BeatFibre : Prop :=
  ∀ (s : State),
    let f := s.beats.fibre
    let fibre := fun (g : FibreSt) => { s.beats with fibre := g }
    let lost : FibreSt := { FibreSt.reset with delay := f.delay, campus := f.campus }
    let holdover := fun (t : State) => t.beats = { fibre lost with state := .holdover } ∧
      t.reg Reg.beatStatus = s.reg Reg.beatStatus ||| 256#64 ∧ s.onlyRegs t [Reg.beatStatus] ∧
      t.inFlight = s.inFlight ++ [.faultNotice ⟨0x4080, none, 0, 0, 15⟩] ∧ t.yard = s.yard ∧ t.freeCtr = s.freeCtr
    s.beats.state = .locked → s.beats.active = .fibre → f.locked = true → s.regF Reg.beatCtrl 1 0 = 1 →
    (∀ (b : Byte) (skew : Nat),
      let next := skew ≤ 20 ∧ ∀ k, f.bits = some k → b.toNat = (k + 1) % 256
      (next → ∃ t, exec (.tickMarker b skew) s = .next t ∧ t = { s with out := s.out ++ [.echo b], beats := fibre { f with
        present := true, bits := some b.toNat, marks := f.marks + 1, badMarks := 0, run := if f.marks = 4095 then f.run + 1 else f.run } }) ∧
      (¬ next → f.badMarks < 7 → exec (.tickMarker b skew) s = .next { s with out := s.out ++ [.echo b], beats := fibre { f with
        present := true, bits := some b.toNat, marks := f.marks + 1, badMarks := f.badMarks + 1, run := 0 } }) ∧
      (¬ next → f.badMarks = 7 → ∃ t, exec (.tickMarker b skew) s = .next t ∧ t.out = s.out ++ [.echo b] ∧ holdover t)) ∧
    (∀ (c : CycleFrame),
      let good := c.check = crc32c (toLE 8 c.cycle.toNat ++ [c.nominal, c.quality] ++ toLE 4 c.delayNs.toNat ++
        toLE 4 c.campusId.toNat ++ toLE 2 c.reserved.toNat)
      (good → c.nominal = 50 ∨ c.nominal = 60 → ∃ t, exec (.cycleFrame c) s = .next t ∧ t.beats.fibre.cycle = some (c.cycle.extractLsb' 0 52).toNat ∧
        t.beats.fibre.delay = c.delayNs.toNat ∧ t.beats.fibre.campus = c.campusId.toNat ∧ t.beats.fibre.marks = 0 ∧
        t.beats.fibre.badFrames = 0 ∧ t.beats.fibre.locked = true ∧ t.beats.fibre.bits = f.bits ∧
        c.nominal.toNat * 100 ≤ t.beats.freq + 300 ∧ t.beats.freq + 300 ≤ c.nominal.toNat * 100 + 500 ∧
        t.beats.period = 100000000000000 / (t.beats.freq * 4096) ∧
        t.beats = { s.beats with fibre := t.beats.fibre, freq := t.beats.freq, period := t.beats.period } ∧
        t = { s with beats := t.beats, freeCtr := t.freeCtr }) ∧
      (¬ good → f.badFrames = 0 → exec (.cycleFrame c) s = .next { s with beats := fibre { f with badFrames := 1, run := 0 } }) ∧
      (¬ good → 0 < f.badFrames → ∃ t, exec (.cycleFrame c) s = .next t ∧ t.out = s.out ∧ holdover t)) ∧
    (∀ cause, cause = BeatLoss.markers ∨ cause = BeatLoss.frames → ∃ t, exec (.beatSourceLoss cause) s = .next t ∧ t.out = s.out ∧
      holdover t)

/-- An occurrence acts once, when its message comes. WINDOW sets its flag at the slot's cells while it is open, and the close
clears the flag unless another occurrence on it is open. BALLAST sets the slot's hold level and RAMP the ramp target. CKPT sets
the slot's bit in RED_CTRL.ckpt and its end clears it. DIGEST releases the slot's pending messages. Without its message none of
these, nor KAT, has an effect.
Where the spec leaves room, it rests on the model's readings: log entries 77 and 134. -/
def Obligations.BeatEvents : Prop :=
  ∀ (s : State) (i : Nat),
    let e := s.entryOf i
    let n := (e.extractLsb' 121 3).toNat
    let flag := (e.extractLsb' 117 3).toNat
    let arg := (e.extractLsb' 0 10).toNat
    let x := s.sched n
    let sameFlag := fun (o : Nat × Nat) => ((s.entryOf o.1).extractLsb' 124 4).toNat = 1 ∧ ((s.entryOf o.1).extractLsb' 117 3).toNat = flag
    let shut := fun (t : State) (l : List (Nat × Nat)) => t.sched n = { x with opens := l } ∧ (∀ m, m ≠ n → t.sched m = s.sched m) ∧
      t.beats = { s.beats with slots := t.beats.slots }
    let ckpt := BitVec.ofNat 64 (2 ^ n)
    (∀ m ∈ [Instr.eventWindow i, .windowClose i, .eventBallast i, .eventRamp i, .eventCkpt i, .ckptEnd i, .eventDigest i, .eventKat i],
      m ∉ s.inFlight → exec m s = .next s) ∧
    (.eventWindow i ∈ s.inFlight → ∃ t, exec (.eventWindow i) s = .next t ∧ t = { s with skys := t.skys, inFlight := t.inFlight } ∧
      (∀ p, t.sky p = { s.sky p with warned := false }) ∧
      ((∃ c, (i, c) ∈ x.opens) → t.inFlight = s.inFlight.erase (.eventWindow i) ++ [.windowFlag n flag true]) ∧
      ((∀ c, (i, c) ∉ x.opens) → t.inFlight = s.inFlight.erase (.eventWindow i))) ∧
    (.windowClose i ∈ s.inFlight → ∀ c rest, x.opens = (i, c) :: rest → ∃ t, exec (.windowClose i) s = .next t ∧ shut t rest ∧
      t = { s with beats := t.beats, inFlight := t.inFlight } ∧
      ((∃ o ∈ rest, sameFlag o) → t.inFlight = s.inFlight.erase (.windowClose i)) ∧
      ((∀ o ∈ rest, ¬ sameFlag o) → t.inFlight = s.inFlight.erase (.windowClose i) ++ [.windowFlag n flag false])) ∧
    (.eventBallast i ∈ s.inFlight → ∃ t, exec (.eventBallast i) s = .next t ∧ t.plan n = { s.plan n with hold := arg } ∧
      (∀ m, m ≠ n → t.plan m = s.plan m) ∧ t.power = { s.power with plans := t.power.plans } ∧
      t = { s.deliver (.eventBallast i) with power := t.power }) ∧
    (.eventRamp i ∈ s.inFlight →
      exec (.eventRamp i) s = .next { s.deliver (.eventRamp i) with power := { s.power with ramp := arg } }) ∧
    (.eventCkpt i ∈ s.inFlight → ∃ t, exec (.eventCkpt i) s = .next t ∧ t.reg Reg.redCtrl = s.reg Reg.redCtrl ||| ckpt ∧
      s.onlyRegs t [Reg.redCtrl] ∧ t = { s.deliver (.eventCkpt i) with regs := t.regs }) ∧
    (.ckptEnd i ∈ s.inFlight → (s.red n).waiting = none → ∀ c rest, x.opens = (i, c) :: rest →
      ∃ t, exec (.ckptEnd i) s = .next t ∧ t.reg Reg.redCtrl = s.reg Reg.redCtrl &&& ~~~ ckpt ∧ s.onlyRegs t [Reg.redCtrl] ∧ shut t rest ∧
        t = { s.deliver (.ckptEnd i) with regs := t.regs, beats := t.beats }) ∧
    (.eventDigest i ∈ s.inFlight → ∃ t, exec (.eventDigest i) s = .next t ∧ (t.red n).mail = [] ∧
      t.red n = { s.red n with mail := [] } ∧ s.onlyRed t n ∧
      (∀ m, (s.red n).mail = [(s.moduleNo, m)] → t.inFlight = s.inFlight.erase (.eventDigest i) ++ [m]) ∧
      ((s.red n).mail = [] → t.inFlight = s.inFlight.erase (.eventDigest i) ∧ t.out = s.out))

/-- A slot without a group parent collects a slack request unless it arrives at or after tick W − 1, which is counted in
refused_late and raises 0x4082. The decision sends SHIFT with the largest request for W. A shift is added to the slot's S and
counted. A write of BEAT_SLACK with a request of 1 to max_slack ticks sends SLACK and counts it, and is rejected otherwise. A
read of BEAT_TIME_SEC latches the nanoseconds.
Where the spec leaves room, it rests on the model's readings: log entries 80 and 97. -/
def Obligations.BeatSlack : Prop :=
  ∀ (s : State) (n : Nat), n < 8 →
    let x := s.sched n
    let a := Reg.beatSlackTally n
    let only := fun (t : State) => (∀ m, m ≠ n → t.sched m = s.sched m) ∧ t.beats = { s.beats with slots := t.beats.slots }
    (∀ w k, x.members = [] ∨ x.parent = 0xFFFF →
      let msg := Instr.slack n w k
      let d := (w + 2 ^ 32 - (s.reg Reg.beatCounter).toNat % 2 ^ 32) % 2 ^ 32
      let late := d ≤ 1 ∨ 2 ^ 31 ≤ d
      (late → ∃ t, exec msg s = .next t ∧ t.regF a 62 48 = min (s.regF a 62 48 + 1) 0x7FFF ∧ s.onlyRegs t [a] ∧
        t.regF a 47 0 = s.regF a 47 0 ∧ t.inFlight = s.inFlight.erase msg ++ [.faultNotice ⟨0x4082, some n, 0, w, 15⟩] ∧
        t.beats = s.beats ∧ t.out = s.out) ∧
      (¬ late → ∃ t, exec msg s = .next t ∧ t.sched n = { x with slacks := x.slacks ++ [(w, k)] } ∧ only t ∧
        t = { s.deliver msg with beats := t.beats })) ∧
    (∀ w, let msg := Instr.shiftDecision n w
      ((∀ r ∈ x.slacks, r.1 ≠ w) → exec msg s = .next (s.deliver msg)) ∧
      (∀ k, x.members = [] → (w, k) ∈ x.slacks → (∀ j, (w, j) ∈ x.slacks → j ≤ k) → ∃ t, exec msg s = .next t ∧
        t.sched n = { x with slacks := x.slacks.filter (fun r => r.1 != w) } ∧ only t ∧
        t = { s with beats := t.beats, inFlight := s.inFlight.erase msg ++ [.shift n w k] })) ∧
    (∀ w k, ∃ t, exec (.shift n w k) s = .next t ∧ t.sched n = { x with shift := x.shift + k } ∧ only t ∧
      t.regF a 31 0 = min (s.regF a 31 0 + 1) (2 ^ 32 - 1) ∧ t.regF a 63 32 = s.regF a 63 32 ∧ s.onlyRegs t [a] ∧
      t = { s.deliver (.shift n w k) with beats := t.beats, regs := t.regs }) ∧
    (∀ src (v : Word), s.boot.stage ≠ 7 →
      let k := (v.extractLsb' 44 13).toNat
      let w := (v.extractLsb' 0 32).toNat
      (v.getLsbD 63 = false → exec (.beatSlackSend src v) s = .next s) ∧
      (v.getLsbD 63 = true → (v.extractLsb' 60 3).toNat = n → 0 < k → k ≤ x.maxSlack → ∃ t, exec (.beatSlackSend src v) s = .next t ∧
        t.regF a 47 32 = min (s.regF a 47 32 + 1) 0xFFFF ∧ s.onlyRegs t [a] ∧
        t = { s with regs := t.regs, inFlight := s.inFlight ++ [.slack n w k] }) ∧
      (v.getLsbD 63 = true → (v.extractLsb' 60 3).toNat = n → k = 0 ∨ x.maxSlack < k → ∃ t u d, exec (.beatSlackSend src v) s = .next t ∧
        t = { s with inFlight := s.inFlight ++ [.faultNotice ⟨0x4071, some n, u, d, 15⟩] })) ∧
    exec .beatTimeSecRead s = .next { s with beats := { s.beats with cal := { s.beats.cal with latch := s.beats.cal.ps / 1000 } } }

/-! ## Power -/

/-- A cap of 80 to 840 and a ramp limit of 5 to 200 units of 0.1 kW are taken, others rejected. A mains cycle forms the
effective cap, the ceiling and the hold of the next cycle from P, the ramp limit, the coolant allowance and the ramp target,
sets CAP_BELOW_FLOOR by the floor, and adds the cycle's energy to the module's tally and to the lifetime. Chrysalis is entered
only from READY or DEGRADED without an active job, and left only when asleep; other writes of these are rejected.
Where the spec leaves room, it rests on the model's readings: log entries 86, 88, 89 and 99. -/
def Obligations.CapAndCycle : Prop :=
  ∀ (s : State),
    let rejected := fun (m : Instr) => ∃ u d, exec m s = .next { s with inFlight := s.inFlight ++ [.faultNotice ⟨0x4071, none, u, d, 15⟩] }
    (∀ src (v : Word),
      let cap := (v.extractLsb' 0 10).toNat
      (cap < 80 ∨ 840 < cap → rejected (.pwrCapWrite src v)) ∧
      (80 ≤ cap → cap ≤ 840 → ∃ t, exec (.pwrCapWrite src v) s = .next t ∧ t.regF Reg.pwrCap 9 0 = cap ∧
        t.regF Reg.pwrCap 63 10 = s.regF Reg.pwrCap 63 10 ∧ s.onlyRegs t [Reg.pwrCap] ∧
        t = { s with regs := t.regs, power := { s.power with now := v.getLsbD 63 } }) ∧
      (cap < 5 ∨ 200 < cap → rejected (.pwrRampWrite src v)) ∧
      (5 ≤ cap → cap ≤ 200 → ∃ t, exec (.pwrRampWrite src v) s = .next t ∧ t.regF Reg.pwrRamp 9 0 = cap ∧
        t.regF Reg.pwrRamp 63 10 = s.regF Reg.pwrRamp 63 10 ∧ s.onlyRegs t [Reg.pwrRamp] ∧ t = { s with regs := t.regs })) ∧
    (∀ (m : CycleMeasure), s.boot.stage = 6 ∨ s.boot.stage = 8 → 700 ≤ m.flow → m.inlet ≤ 450 → (∀ n, n < 8 → s.occupied n = false) →
      let p := s.power
      let cap := s.regF Reg.pwrCap 9 0
      let step := s.regF Reg.pwrRamp 9 0
      let allow := 840 * min m.flow 1400 / 1400 - 4 * (m.inlet - 400)
      ∃ t, exec (.mainsCycle m) s = .next t ∧ t.power.p = m.mean ∧ t.power.floor = m.floor ∧ t.power.now = false ∧ t.power.allow = allow ∧
        t.power.ramp = p.ramp ∧ t.power.plans = p.plans ∧
        (p.e ≤ cap ∨ p.now = true → t.power.e = cap) ∧
        (cap < p.e → p.now = false → t.power.e = max cap (min p.e m.mean - step)) ∧
        (p.ramp = 0 → t.power.ceiling = min (min 840 t.power.e) (min (m.mean + step) allow)) ∧
        (p.ramp ≠ 0 → t.power.ceiling = min (min (min 840 t.power.e) (min (m.mean + step) allow)) p.ramp) ∧
        t.power.hold = min t.power.ceiling (max (m.mean - step) p.ramp) ∧
        ((t.reg Reg.pwrAlarm).getLsbD 0 = true ↔ t.power.ceiling < m.floor) ∧
        (t.power.ceiling < m.floor → (s.reg Reg.pwrAlarm).getLsbD 0 = false → .faultNotice ⟨0x4090, none, 0, 0, 15⟩ ∈ t.inFlight) ∧
        (p.exempt = false → m.mean + 2 < p.hold → (t.reg Reg.pwrAlarm).getLsbD 1 = true ∧ .faultNotice ⟨0x4091, none, 0, 0, 15⟩ ∈ t.inFlight) ∧
        t.regF Reg.pwrEnergyModule 63 0 = (s.regF Reg.pwrEnergyModule 63 0 + m.energy) % 2 ^ 64 ∧
        t.regF Reg.pwrEnergyIdle 63 0 = (s.regF Reg.pwrEnergyIdle 63 0 + m.energy) % 2 ^ 64 ∧
        s.onlyRegs t [Reg.pwrEnergyModule, Reg.pwrEnergyIdle, Reg.pwrAlarm, Reg.pwrStatus] ∧
        t.book = { s.book with life := { s.book.life with energy := s.book.life.energy + m.energy } }) ∧
    (∀ m, s.boot.stage = 0 → exec (.mainsCycle m) s = .next s) ∧
    (∀ src (v : Word),
      let a := Reg.pwrChrysalis
      let nap := s.regF a 33 32
      let may := (∀ n, n < 8 → s.jobState n ∉ [1, 2, 5, 6]) ∧ (s.moduleState = 2 ∨ s.moduleState = 6) ∧ nap = 0
      let took := fun (m : Instr) (k : Nat) => ∃ t, exec m s = .next t ∧ t.regF a 33 32 = k ∧
        t.regF a 31 0 = (v.extractLsb' 0 32).toNat ∧ s.onlyRegs t [a] ∧ t = { s with regs := t.regs }
      (v.getLsbD 63 = true → v.getLsbD 62 = false → may → took (.chrysalisEnter src v) 1) ∧
      (v.getLsbD 63 = true → ¬ may → rejected (.chrysalisEnter src v)) ∧
      (v.getLsbD 62 = true → v.getLsbD 63 = false → nap = 2 → took (.chrysalisWake src v) 3) ∧
      (v.getLsbD 62 = true → nap ≠ 2 → rejected (.chrysalisWake src v)))

/-- A half that has changed its operating point runs at the slowest limit in force. A droop crossing stretches the half by 12.5
or 25 %, counts, and never shortens a stretch; a release takes one step of 6.25 % back. A severe droop lowers the half's thermal
limit for one mains cycle and raises 0x3012. A trip opens the breaker with 0x3010, or 0x3011 by temperature, counts to 15 and
locks it off at the third; the region is dark and its contents are gone. A tripped breaker that may close starts softly with the
region held, and a soft start that ends begins the region's cruise. In other states these have no effect or are rejected.
Where the spec leaves room, it rests on the model's readings: log entries 87, 90, 91, 95, 98 and 101. -/
def Obligations.RegionPower : Prop :=
  ∀ (s : State) (r h : Nat), r < 72 → h < 144 →
    let x := s.half h
    let halves := fun (t : State) => (∀ j, j ≠ h → t.half j = s.half j) ∧
      t.power = { s.power with halves := t.power.halves, parityLost := t.power.parityLost }
    (∃ t k, exec (.opChangeDone h) s = .next t ∧ t.half h = { x with op := k } ∧ (∀ l ∈ s.limits h, l.2 ≤ k) ∧ (∃ l ∈ s.limits h, l.2 = k) ∧
      halves t ∧ s.onlyRegs t [Reg.pwrStatus] ∧ t = { s with power := t.power, regs := t.regs }) ∧
    (∀ f percent, wfFm f = true → h / 2 = f.region →
      let a := Reg.rgnDroop f.region
      (percent < 4 → exec (.droopCrossing f h percent) s = .next s) ∧
      (4 ≤ percent → ∃ t, exec (.droopCrossing f h percent) s = .next t ∧
        t.half h = { x with stretch := max x.stretch (if percent < 7 then 2 else 4), easing := false } ∧ halves t ∧
        t.power.parityLost = s.power.parityLost ∧ t.regF a 62 32 = min (s.regF a 62 32 + 1) (2 ^ 31 - 1) ∧ s.onlyRegs t [a] ∧
        (x.stretch = 0 → t.regF a 31 0 = s.regF a 31 0 ∧ t.freeCtr = s.freeCtr) ∧
        t = { s with power := t.power, regs := t.regs, freeCtr := t.freeCtr })) ∧
    (∀ f percent, h / 2 ≠ f.region → exec (.droopCrossing f h percent) s = .next s) ∧
    (x.stretch = 0 → exec (.stretchRelease h) s = .next s) ∧
    (0 < x.stretch → ∃ t, exec (.stretchRelease h) s = .next t ∧ (t.half h).stretch + 1 = x.stretch ∧
      t.half h = { x with stretch := (t.half h).stretch, easing := (t.half h).easing } ∧ halves t ∧
      ((t.half h).easing = true ↔ 1 < x.stretch) ∧ t.regF (Reg.rgnDroop (h / 2)) 31 0 =
        min (s.regF (Reg.rgnDroop (h / 2)) 31 0 + (if x.easing = true then 16 else 64)) (2 ^ 32 - 1) ∧
      s.onlyRegs t [Reg.rgnDroop (h / 2)] ∧ t = { s with power := t.power, regs := t.regs }) ∧
    (∃ t, exec (.droopSevere h) s = .next t ∧ t.half h = { x with droop := some ((s.reg Reg.beatCounter).toNat + 4096) } ∧ halves t ∧
      s.onlyRegs t [Reg.pwrStatus] ∧
      t = { s with power := t.power, regs := t.regs,
                   inFlight := s.inFlight ++ [.faultNotice ⟨0x3012, s.slotOfRegion (h / 2), h / 2 + 0x1F00, 0, 15⟩] }) ∧
    (let a := Reg.rgnBreaker r
     let tripped := fun (t : State) (code : Nat) => t.regF a 7 4 = min (s.regF a 7 4 + 1) 15 ∧
       t.regF a 1 0 = (if 2 ≤ s.regF a 7 4 then 3 else 1) ∧ (s.regF (Reg.rgnCruise r) 2 0 = 1 → t.regF (Reg.rgnCruise r) 2 0 = 3) ∧
       s.onlyRegs t [a, Reg.rgnCruise r] ∧ (t.rgn r).dark = true ∧ (t.rgn r).map = (s.rgn r).map ∧ s.onlyRgn t r ∧
       (∀ c, regionOf c = r → t.cells.find c = none) ∧ (∀ c, regionOf c ≠ r → t.cells.find c = s.cells.find c) ∧
       t.inFlight = s.inFlight ++ [.faultNotice ⟨code, s.slotOfRegion r, r + 0x1F00, 0, 15⟩] ∧ t.slots = s.slots ∧
       t.power = { s.power with makeup := t.power.makeup } ∧ s.power.makeup ≤ t.power.makeup
     let stays := s.regF a 1 0 = 1 ∨ s.regF a 1 0 = 3
     (stays → exec (.breakerTrip r) s = .next s) ∧ (stays → h / 2 = r → exec (.junctionOvertemp h) s = .next s) ∧
     (¬ stays → s.yard.objs = [] → (∃ t, exec (.breakerTrip r) s = .next t ∧ tripped t 0x3010) ∧
       (h / 2 = r → ∃ t, exec (.junctionOvertemp h) s = .next t ∧ tripped t 0x3011)) ∧
     (∀ src (v : Word), s.boot.stage ≠ 7 →
       (v.getLsbD 0 = false → exec (.breakerClear src r v) s = .next s) ∧
       (v.getLsbD 0 = true → s.regF a 1 0 ≠ 1 ∨ 3 ≤ s.regF a 7 4 → ∃ u d, exec (.breakerClear src r v) s = .next { s with
         inFlight := s.inFlight ++ [.faultNotice ⟨0x4071, s.slotOfRegion r, u, d, 15⟩] }) ∧
       (v.getLsbD 0 = true → s.regF a 1 0 = 1 → s.regF a 7 4 < 3 → ∃ t, exec (.breakerClear src r v) s = .next t ∧
         t.regF a 1 0 = 2 ∧ t.regF a 7 4 = s.regF a 7 4 ∧ s.onlyRegs t [a] ∧ t.rgn r = { s.rgn r with held := true } ∧ s.onlyRgn t r ∧
         t = { s with regs := t.regs, rgns := t.rgns })) ∧
     (s.regF a 1 0 ≠ 2 → exec (.softStartDone r) s = .next s) ∧
     (s.regF a 1 0 = 2 → ∃ t, exec (.softStartDone r) s = .next t ∧ t.regF a 1 0 = 0 ∧ t.regF (Reg.rgnCruise r) 2 0 = 1 ∧
       s.onlyRegs t [a, Reg.rgnCruise r] ∧ t.rgn r = { s.rgn r with dark := false, held := true } ∧ s.onlyRgn t r ∧
       t = { s with regs := t.regs, rgns := t.rgns }))

/-- An undervoltage with the input on lowers the ceiling to the floor and raises 0x4092. An overvoltage opens the input switch:
the module is OFF, its state is cleared, and 0x4092 is raised. A reclose begins a precharge where the contacts are mated and the
bus is there. At its target an entry that stands puts the module to sleep: stage 7, ASLEEP, routers empty, partial resets gone,
windows closed, schedules stopped, ballast ended, ports in low-power idle; a wake that completes returns it to READY or DEGRADED
with the ports in their previous states.
Where the spec leaves room, it rests on the model's readings: log entries 89, 132 and 133. -/
def Obligations.InputAndChrysalis : Prop :=
  ∀ (s : State),
    let a := Reg.pwrAlarm
    let n := Reg.pwrChrysalis
    let under := Instr.faultNotice ⟨0x4092, none, 0, 0, 15⟩
    (s.boot.input ≠ 2 → exec .inputUndervoltage s = .next s ∧ exec .inputOvervoltage s = .next s) ∧
    (s.boot.input = 2 → ∃ t, exec .inputUndervoltage s = .next t ∧
      t.power = { s.power with ceiling := s.power.floor, hold := min s.power.hold s.power.floor } ∧
      t.reg a = s.reg a ||| 8#64 ∧ s.onlyRegs t [a] ∧ t = { s with power := t.power, regs := t.regs, inFlight := s.inFlight ++ [under] }) ∧
    (s.boot.input = 2 → ∃ t, exec .inputOvervoltage s = .next t ∧ t.boot.stage = 0 ∧ t.boot.input = 0 ∧ t.boot.mated = s.boot.mated ∧
      t.boot.present = s.boot.present ∧ (t.reg a).getLsbD 3 = true ∧ t.regF Reg.modResetCause 3 0 = 0 ∧
      (∃ l, t.inFlight = l ++ [under]) ∧ t.cells = [] ∧ t.slots = [] ∧ t.jobs = [] ∧ t.beats = { BeatSt.reset with cal := s.beats.cal } ∧
      t.flt.log = s.flt.log ∧ t.flt.watch = s.flt.watch ∧ t.book.flash = s.book.life ∧ t.power.p = 0) ∧
    (s.boot.mated = true ∧ s.boot.busLow = false ∧ s.boot.input = 0 →
      exec .inputReclose s = .next { s with boot := { s.boot with input := 1 } }) ∧
    (s.boot.mated = false ∨ s.boot.busLow = true ∨ s.boot.input ≠ 0 → exec .inputReclose s = .next s) ∧
    (s.regF n 33 32 ≠ 1 → exec .chrysalisTarget s = .next (s.deliver .chrysalisTarget)) ∧
    (s.regF n 33 32 = 1 → ∃ t, exec .chrysalisTarget s = .next t ∧ t.boot = { s.boot with stage := 7 } ∧ t.regF n 33 32 = 2 ∧
      t.regF n 31 0 = s.regF n 31 0 ∧ t.routers = [] ∧ t.foreign = [] ∧ t.resets = [] ∧ t.power.ballast = 0 ∧ t.power.exempt = true ∧
      t.power.e = s.power.e ∧ t.power.halves = s.power.halves ∧ t.nap.isSome ∧ t.flt.log = s.flt.log ∧ t.book.flash = s.book.life ∧
      (∀ p, (∀ k, k < 8 → (s.sched k).state = .idle ∧ s.jobState k ∉ [1, 2, 5, 6]) →
        (s.sky p).state = .up ∨ (s.sky p).state = .admitted → (t.sky p).state = .idleLp ∧ (t.sky p).back = (s.sky p).state) ∧
      (∀ k, k < 8 → (t.sched k).state ≠ .running) ∧ (∀ w, w < 4 → (t.win w).state = .closed)) ∧
    (s.regF n 33 32 ≠ 3 → exec .wakeComplete s = .next s) ∧
    (s.regF n 33 32 = 3 → ∃ t, exec .wakeComplete s = .next t ∧ t.regF n 33 32 = 0 ∧ t.regF n 31 0 = s.regF n 31 0 ∧ s.onlyRegs t [n] ∧
      t.boot = { s.boot with stage := if s.boot.degraded = 0 then 6 else 8 } ∧
      (∀ p, t.sky p = if (s.sky p).state = .idleLp then { s.sky p with state := (s.sky p).back } else s.sky p) ∧
      t = { s with skys := t.skys, regs := t.regs, boot := t.boot })

/-! ## Faults, tests and jobs -/

/-- A fault that matches the newest record in code, unit, slot and tick raises that record's count; another becomes a new record
with its fields, and the log holds 4,096. A code of class OP with action LOG does nothing else. A code with action FAULT alone
puts a RUNNING job of its slot into FAULTED (with auto_repair clear): STOP goes to every looper, the hold level is 0, the
schedule stops, P = C, the cause is the code, and 0x40A0 is raised. A job that does not run keeps its state and cause.
Where the spec leaves room, it rests on the model's readings: log entries 6, 116 and 117. -/
def Obligations.FaultNotices : Prop :=
  ∀ (s : State) (m : Notice),
    let msg := Instr.faultNotice m
    let slot := match m.slot with
      | some n => n % 8
      | none => 0x80
    let joins := fun (r : FaultRec) => r.code = m.code ∧ r.unit = m.unit ∧ r.slot = slot ∧ r.beat = s.reg Reg.beatCounter
    (∀ r l, s.flt.log = r :: l → joins r → ∃ t, exec msg s = .next t ∧ t.flt.total = s.flt.total ∧
      t.flt.log = { r with count := min 65535 (r.count + 1) } :: l) ∧
    ((∀ r l, s.flt.log = r :: l → ¬ joins r) → ∃ t r, exec msg s = .next t ∧ t.flt.total = s.flt.total + 1 ∧
      t.flt.log = (r :: s.flt.log).take 4096 ∧ joins r ∧ r.detail = m.detail ∧ r.position = m.position ∧ r.count = 1 ∧
      r.seq = (s.flt.total + 1) % 2 ^ 32 ∧ r.read = false) ∧
    (m.code ∈ [0x4030, 0x4043, 0x4064, 0x4065, 0x4071, 0x40B2, 0x40B3] → s.flt.log = [] → m.slot = none → ∃ t r, exec msg s = .next t ∧
      r.cls = 4 ∧ r.action = 0 ∧ t = { s.deliver msg with flt := { s.flt with log := [r], total := s.flt.total + 1 } }) ∧
    (∀ n, n < 8 → m.slot = some n →
      (m.code ∈ [0x4001, 0x4020, 0x4021, 0x4022, 0x4023, 0x4024, 0x4055, 0x4083] → s.jobState n = 1 →
        (s.reg Reg.fltPolicy).getLsbD 1 = false → ∃ t, exec msg s = .next t ∧ t.jobState n = 3 ∧
        t.regF (Reg.fltJob n) 63 48 = m.code ∧ t.regF (Reg.fltJob n) 43 32 = (t.flt.total + 4095) % 4096 ∧
        t.stepP n = t.stepC n ∧ (t.plan n).hold = 0 ∧ (t.sched n).state ≠ .running ∧ (t.job n).armed = none ∧ (t.job n).replay = none ∧
        (∀ c ∈ s.slotCells n, .looperStop c true ∈ t.inFlight) ∧ .faultNotice ⟨0x40A0, some n, 0, 0, 15⟩ ∈ t.inFlight ∧
        (∀ k, k < 8 → k ≠ n → t.reg (Reg.fltJob k) = s.reg (Reg.fltJob k) ∧ t.reg (Reg.redStep k) = s.reg (Reg.redStep k))) ∧
      (s.jobState n ∉ [1, 2, 6] → m.code ∉ [0x3021, 0x40A4, 0x4033] → ∃ t, exec msg s = .next t ∧ t.reg (Reg.fltJob n) = s.reg (Reg.fltJob n) ∧
        t.reg (Reg.redStep n) = s.reg (Reg.redStep n)))

/-- A host test starts on every unit that it names when each allows it and no host test is awaited, else it is rejected. An
event test starts on the configured cells that allow it, and the others wait. The idle, watch and date timers start their tests
where R589 and R590 allow, and do nothing when they are not due or kat_idle is 0; the date moves forward. The end of a test
frees the unit, passes a release held during it, counts, raises 0x2004 or 0x3020 for a failure, and tells an awaited host test.
A test changes nothing else. The host removes the watch-list entry that it selects.
Where the spec leaves room, it rests on the model's readings: log entries 102, 121, 122 and 123. -/
def Obligations.Tests : Prop :=
  ∀ (s : State),
    let st := Reg.fltKatStatus
    let testing := fun (t : State) (cs : List Nat) (k : Kat) => (∀ c ∈ cs, t.cell c = { s.cell c with testing := some k }) ∧ s.onlyCells t cs
    let rejected := fun (m : Instr) (a : Nat) => ∃ t u d, exec m s = .next t ∧ s.onlyRegs t [a] ∧
      t = { s with regs := t.regs, inFlight := s.inFlight ++ [.faultNotice ⟨0x4071, none, u, d, 15⟩] }
    (∀ src (v : Word), s.boot.stage ≠ 7 →
      let code := (v.extractLsb' 56 4).toNat
      let f : FmId := ⟨(v.extractLsb' 49 7).toNat, (v.extractLsb' 44 5).toNat⟩
      (v.getLsbD 63 = false → ∃ t, exec (.katRun src v) s = .next t ∧ s.onlyRegs t [Reg.fltKatRun] ∧ t = { s with regs := t.regs }) ∧
      (v.getLsbD 63 = true → code ∈ [6, 7, 10, 11, 12, 13, 14, 15] ∨ s.flt.host ≠ [] → rejected (.katRun src v) Reg.fltKatRun) ∧
      (v.getLsbD 63 = true → s.flt.host = [] → (code = 9 → s.katReducerOk = true → ∃ t, exec (.katRun src v) s = .next t ∧
          t.regF st 1 0 = 1 ∧ s.onlyRegs t [Reg.fltKatRun, st] ∧ t = { s with regs := t.regs, flt := { s.flt with
            reducer := true, host := [(.reducer, .reducer)], failed := false } }) ∧
        (∀ k, katOf code = some k → code < 6 → wfFm f = true → s.blockLive f = true → (∀ c ∈ blockCells f, s.katCellOk c = true) →
          ∃ t, exec (.katRun src v) s = .next t ∧ testing t (blockCells f) k ∧ t.regF st 1 0 = 1 ∧ s.onlyRegs t [Reg.fltKatRun, st] ∧
            t = { s with cells := t.cells, regs := t.regs, flt := { s.flt with
              host := (blockCells f).map (fun c => (KatUnit.cell c, k)), failed := false } }))) ∧
    (∀ i k, .eventKat i ∈ s.inFlight →
      let e := s.entryOf i
      let x := s.sched (e.extractLsb' 121 3).toNat
      let f : FmId := ⟨(e.extractLsb' 13 7).toNat, (e.extractLsb' 8 5).toNat⟩
      let last := occurrence x e (s.beats.next.get 0 i - 1) + (e.extractLsb' 96 16).toNat
      katOf (e.extractLsb' 20 4).toNat = some k → e.getLsbD 7 = false → wfFm f = true → s.flt.watch = [] → s.flt.waits = [] →
        ∃ t, exec (.eventKat i) s = .next t ∧ t = { s.deliver (.eventKat i) with cells := t.cells, flt := { s.flt with waits := t.flt.waits } } ∧
          testing t ((s.configuredCells f).filter s.katCellOk) k ∧
          t.flt.waits = ((s.configuredCells f).filter (fun c => !s.katCellOk c)).map (fun c => (c, k, last))) ∧
    ((s.reg Reg.fltPolicy).getLsbD 3 = false → exec .katIdleTimer s = .next s ∧ exec .katWatchTimer s = .next s) ∧
    ((s.reg Reg.fltPolicy).getLsbD 3 = true → (∃ t, exec .katIdleTimer s = .next t ∧
        testing t (((List.range 72).filter s.idleRegion).flatMap (fun r => (s.katRegion r).filter s.katCellOk)) .cell ∧
        t.flt = { s.flt with regions := s.flt.regions ++ ((List.range 72).filter (fun r => s.idleRegion r && s.katRegionOk r)),
                             reducer := s.flt.reducer || ((List.range 8).all (fun n => (s.slot n).state != .loaded) && s.katReducerOk) } ∧
        t = { s with cells := t.cells, flt := t.flt }) ∧
      (∀ c e, s.flt.watch = [e] → e.kind = 1 → e.unit = c → s.katCellOk c = true → ∃ t, exec .katWatchTimer s = .next t ∧ testing t [c] .cell ∧
        t = { s with cells := t.cells })) ∧
    (let date := s.regF Reg.logNextTest 47 0
     (date = 0 ∨ s.licenceClock < date → exec .nextTestDue s = .next s) ∧
     (0 < date → date ≤ s.licenceClock → ∃ t, exec .nextTestDue s = .next t ∧
       t.regF Reg.logNextTest 47 0 = (date + s.regF Reg.logNextTest 63 48 * 86400) % 2 ^ 48 ∧ s.onlyRegs t [Reg.logNextTest] ∧
       testing t ((List.range 72).flatMap (fun r => (s.katRegion r).filter s.katCellOk)) .cell ∧
       t.flt.regions = s.flt.regions ++ (List.range 72).filter s.katRegionOk ∧ t.book.generals = s.book.generals + 1 ∧
       t.inFlight = s.inFlight)) ∧
    (∀ u k pass, s.katRuns k u = false → exec (.testComplete u k pass) s = .next s) ∧
    (∀ c k pass, (s.cell c).testing = some k → s.flt.watch = [] → s.flt.host = [] ∨ s.flt.host = [(.cell c, k)] →
      let x := s.cell c
      ∃ t, exec (.testComplete (.cell c) k pass) s = .next t ∧ s.onlyCells t [c] ∧
        t.cell c = { x with testing := none, passed := x.passed + x.heldPass, heldPass := 0 } ∧
        t.regF st 63 32 = (if pass = true then min (s.regF st 63 32 + 1) (2 ^ 32 - 1) else s.regF st 63 32) ∧
        t.regF st 31 16 = (if pass = true then s.regF st 31 16 else min (s.regF st 31 16 + 1) 65535) ∧ t.regF st 15 12 = Kat.code k ∧
        t.regF st 1 0 = (if s.flt.host = [] then s.regF st 1 0 else if s.flt.failed = true ∨ pass = false then 3 else 2) ∧
        s.onlyRegs t [st] ∧ t.inFlight = s.inFlight ++ (if pass = true then [] else
          [.faultNotice ⟨0x2004, s.slotOfCell c, c, Kat.code k, s.posOfCell c⟩]) ∧ t.flt.host = []) ∧
    (∀ r, r ∈ s.flt.regions → s.flt.host = [] → ∃ t, exec (.testComplete (.region r) .region false) s = .next t ∧
      t.flt = { s.flt with regions := s.flt.regions.erase r } ∧ s.onlyRegs t [st] ∧
      t.inFlight = s.inFlight ++ [.faultNotice ⟨0x3020, s.slotOfRegion r, r + 0x1F00, 8, 15⟩]) ∧
    (s.flt.reducer = true → s.flt.host = [] → ∃ t, exec (.testComplete .reducer .reducer false) s = .next t ∧
      t.flt = { s.flt with reducer := false } ∧ s.onlyRegs t [st] ∧ t.inFlight = s.inFlight ++ [.faultNotice ⟨0x3020, none, 0x1F7F, 9, 15⟩]) ∧
    (∀ src (v : Word),
      let k := (v.extractLsb' 0 8).toNat
      (v.getLsbD 63 = true → s.flt.watch.length ≤ k → rejected (.watchRemove src v) Reg.fltWatchSel) ∧
      (v.getLsbD 63 = true → k < s.flt.watch.length → ∃ t, exec (.watchRemove src v) s = .next t ∧ t.regF Reg.fltWatchSel 7 0 = k ∧
        t.flt = { s.flt with watch := s.flt.watch.eraseIdx k } ∧ t.book.generals = s.book.generals + 1 ∧ s.onlyRegs t [Reg.fltWatchSel] ∧
        t.inFlight = s.inFlight) ∧
      (v.getLsbD 63 = false → ∃ t, exec (.watchRemove src v) s = .next t ∧ t.regF Reg.fltWatchSel 7 0 = k ∧
        s.onlyRegs t [Reg.fltWatchSel] ∧ t = { s with regs := t.regs }))

/-- A start is accepted for a LOADED slot whose job is IDLE, STOPPED or REPAIRED in a READY or DEGRADED module that is not
retired, and waits for its origin tick; at the origin START with start_index goes to every configured looper, the stream
program, foreman programs and schedule begin, the job energy is 0, and the job is RUNNING. A drain puts a RUNNING job into
DRAINING. A restart in FAULTED or STOPPED begins the repair path. The staging check fails it with 0x40A4 when the staged image
differs, and with nothing fenced or lost it ends REPAIRED. Other requests are rejected.
Where the spec leaves room, it rests on the model's readings: log entries 118, 119 and 120. -/
def Obligations.Jobs : Prop :=
  ∀ (s : State) (n : Nat), n < 8 →
    let a := Reg.fltJob n
    let x := s.slot n
    let rejected := fun (m : Instr) (l : List Nat) => ∃ t u d, exec m s = .next t ∧ s.onlyRegs t l ∧
      t = { s with regs := t.regs, inFlight := s.inFlight ++ [.faultNotice ⟨0x4071, some n, u, d, 15⟩] }
    (∀ src (v : Word), (v.extractLsb' 59 3).toNat = n → s.boot.stage ≠ 7 →
      let c := Reg.modJobCtrl
      let o := if (s.reg (Reg.beatOrigin n)).toNat ≤ (s.reg Reg.beatCounter).toNat then (s.reg Reg.beatCounter).toNat + 1
        else (s.reg (Reg.beatOrigin n)).toNat
      let free := x.state = .loaded ∧ s.jobState n ∈ [0, 4, 7] ∧ (s.reg Reg.modCtrl).getLsbD 62 = false ∧
        (s.boot.stage = 6 ∨ s.boot.stage = 8) ∧ (s.job n).armed = none ∧
        ((s.sched n).members = [] ∨ s.beats.state = .locked ∨ s.beats.state = .holdover)
      (v.getLsbD 63 = true → v.getLsbD 62 = false → (free → ∃ t, exec (.jobStart src v) s = .next t ∧
          t.job n = { s.job n with index := (v.extractLsb' 0 12).toNat, armed := some o } ∧ (∀ k, k ≠ n → t.job k = s.job k) ∧
          t.sched n = { s.sched n with state := .armed, origin := o } ∧ (∀ k, k ≠ n → t.sched k = s.sched k) ∧ s.onlyRegs t [c] ∧
          t = { s with jobs := t.jobs, beats := { s.beats with slots := t.beats.slots }, regs := t.regs }) ∧
        (¬ free → rejected (.jobStart src v) [c])) ∧
      (v.getLsbD 62 = true → v.getLsbD 63 = false → (s.jobState n = 1 → ∃ t, exec (.jobDrain src v) s = .next t ∧ t.jobState n = 2 ∧
          t.regF a 63 4 = s.regF a 63 4 ∧ s.onlyRegs t [c, a] ∧ t = { s with regs := t.regs }) ∧
        (s.jobState n ≠ 1 → rejected (.jobDrain src v) [c]))) ∧
    (let msg := Instr.jobOrigin n
     ((s.job n).armed = none → exec msg s = .next (s.deliver msg)) ∧
     (∀ o, (s.job n).armed = some o → (s.reg Reg.beatCounter).toNat < o → exec msg s = .next (s.deliver msg)) ∧
     (∀ o, (s.job n).armed = some o → o ≤ (s.reg Reg.beatCounter).toNat → ∃ t, exec msg s = .next t ∧ t.jobState n = 1 ∧
       t.job n = { s.job n with armed := none, replay := none } ∧ t.reg (Reg.pwrEnergyJob n) = 0 ∧ t.regF a 63 48 = 0 ∧ t.regF a 31 24 = 0 ∧
       (t.sched n).state = .running ∧ (t.sched n).origin = o ∧ (t.sched n).shift = 0 ∧
       (∀ c, s.cells.find c ≠ none → (s.cell c).configured = true → x.rect.has (regionOf c) = true →
         .looperStart c (s.job n).index ∈ t.inFlight) ∧
       (∀ f, wfFm f = true → s.fms.find (fmKey f) ≠ none → (s.fm f).configured = true → x.rect.has f.region = true → (t.fm f).prog = .running ∧ (t.fm f).pc = 0 ∧ (∀ k, (t.fm f).s k = 0)) ∧
       ((s.stream n).prog ≠ [] → (t.stream n).state = .running ∧ (t.stream n).pc = 0) ∧ (t.plan n).hold = (s.plan n).level)) ∧
    (∀ src (v : Word), s.boot.stage ≠ 7 →
      (v.getLsbD 8 = false → exec (.jobRestart src n v) s = .next s) ∧
      (v.getLsbD 8 = true → s.jobState n = 3 ∨ s.jobState n = 4 → ∃ t, exec (.jobRestart src n v) s = .next t ∧ t.jobState n = 6 ∧
        t.regF a 63 4 = s.regF a 63 4 ∧ t.job n = { s.job n with repair := some ⟨1, [], [], [], .reset⟩ } ∧ (∀ k, k ≠ n → t.job k = s.job k) ∧
        s.onlyRegs t [a] ∧ t = { s with regs := t.regs, jobs := t.jobs }) ∧
      (v.getLsbD 8 = true → s.jobState n ≠ 3 → s.jobState n ≠ 4 → rejected (.jobRestart src n v) [])) ∧
    (let msg := Instr.stagingCheckDone n
     ((s.job n).repair = none → exec msg s = .next s) ∧
     (∀ p, (s.job n).repair = some p → (p.step ≠ 1 → exec msg s = .next s) ∧
       (p.step = 1 → s.stagedSame n = false → ∃ t, exec msg s = .next t ∧ t.jobState n = 3 ∧ t.regF a 63 48 = 0x40A4 ∧
         t.job n = { s.job n with repair := none } ∧ s.onlyRegs t [a] ∧
         t = { s with regs := t.regs, jobs := t.jobs, inFlight := s.inFlight ++ [.faultNotice ⟨0x40A4, some n, 0, 0, 15⟩] }) ∧
       (p.step = 1 → s.stagedSame n = true → p.blocks = [] → s.fencedCells n = [] → s.lostRegions n = [] → ∃ t, exec msg s = .next t ∧
         t.jobState n = 7 ∧ t.regF a 23 16 = min (s.regF a 23 16 + 1) 255 ∧ t.job n = { s.job n with repair := none, hw := [] } ∧
         s.onlyRegs t [a] ∧ t = { s with regs := t.regs, jobs := t.jobs })))

/-! ## Boot and resets -/

/-- Each boot stage that completes leads to the next, in the order of R608; stage 1 waits for coolant and supply, raising 0x4092
once, and stays FAILED without a valid bank. Stage 5 ends READY, or DEGRADED by the rules of R610, with the region maps of the
cruise and the security counter at the running bank's version at least. The contacts that mate are counted and begin a precharge
where the bus is there; its end closes the input switch and begins stage 1. A bus that falls stops a precharge and a bus that
returns begins one. MATED opening and the loss of standby power leave the module OFF; in other states these have no effect.
Where the spec leaves room, it rests on the model's readings: log entries 129, 130, 131 and 155. -/
def Obligations.BootStages : Prop :=
  ∀ (s : State),
    let b := s.boot
    let cleared := fun (t : State) => t.cells = [] ∧ t.fms = [] ∧ t.slots = [] ∧ t.jobs = [] ∧ t.skys = [] ∧ t.yard = .reset ∧
      t.beats = { BeatSt.reset with cal := s.beats.cal } ∧ t.eth = .reset ∧ t.book.flash = s.book.life ∧ t.flt.watch = s.flt.watch
    (∀ r : StageReport,
      let c := { b with ms := b.ms + r.elapsedMs }
      let msg := Instr.bootStageComplete r
      (b.stage = 0 ∨ 5 < b.stage → exec msg s = .next s) ∧
      (∀ k, b.stage = 1 → s.rng.romChoice = some k → r.coolantOk = true → r.supplyOk = true →
        exec msg s = .next { s with boot := { c with stage := 2 }, rng := { s.rng with running := k } }) ∧
      (∀ k, b.stage = 1 → s.rng.romChoice = some k → r.coolantOk = true → r.supplyOk = false → b.asked.1 = true →
        exec msg s = .next { s with boot := c, rng := { s.rng with running := k } }) ∧
      (∀ k, b.stage = 1 → s.rng.romChoice = some k → r.coolantOk = true → r.supplyOk = false → b.asked.1 = false → ∃ t,
        exec msg s = .next t ∧ t.boot = { c with asked := (true, b.asked.2) } ∧ t.reg Reg.pwrAlarm = s.reg Reg.pwrAlarm ||| 8#64 ∧
        s.onlyRegs t [Reg.pwrAlarm] ∧ t.inFlight = s.inFlight ++ [.faultNotice ⟨0x4092, none, 0, 0, 15⟩]) ∧
      (b.stage = 1 → s.rng.romChoice = none → ∃ t, exec msg s = .next t ∧ t.boot = { c with stage := 0xF } ∧ t.regF Reg.modBootStage 7 4 = 1 ∧
        s.onlyRegs t [Reg.modBootStage] ∧
        t = { s with boot := t.boot, regs := t.regs, inFlight := s.inFlight ++ [.faultNotice ⟨0x40B3, none, 0, 0, 15⟩] }) ∧
      (b.stage = 2 → exec msg s = .next { s with boot := { c with stage := 3 } }) ∧
      (b.stage = 3 → ∃ t, exec msg s = .next t ∧ t.boot = { c with stage := 4 } ∧ t.skys = s.skys ∧ t.flt = s.flt ∧
        (∀ k, k ∈ t.tiers.dead ↔ k < 768 ∧ (k ∈ r.badChannels ∨ (s.reg (Reg.stkMapout (k / 32))).getLsbD (k % 32) = true))) ∧
      (b.stage = 4 → r.ports = [] → exec msg s = .next { s with boot := { c with stage := 5 } }) ∧
      (b.stage = 5 → ∃ t, exec msg s = .next t ∧ t.boot = { c with stage := if t.boot.degraded = 0 then 6 else 8, degraded := t.boot.degraded } ∧
        (t.boot.degraded = 0 ↔ t.tiers.dead.length ≤ 32 ∧ (∀ g, g < 72 → s.regionLost r g = false) ∧ r.unitFail = false ∧ r.thoraxDead = []) ∧
        (∀ g, g < 72 → (t.rgn g).map = BitVec.ofNat 30 (s.cruiseMap r g) ∧ (t.rgn g).held = s.regionLost r g) ∧
        t.regF Reg.modBootStage 63 48 = min c.ms 65535 ∧ t.regF Reg.modBootStage 7 4 = 0 ∧
        t.rng.counter = max s.rng.counter (s.rng.bank s.rng.running).version)) ∧
    (b.mated = true → exec .powerContactsMated s = .next s) ∧
    (b.mated = false → ∃ t, exec .powerContactsMated s = .next t ∧ t.book.life = { s.book.life with hotPlug := s.book.life.hotPlug + 1 } ∧
      t.boot = { b with mated := true, input := if b.busLow = false ∧ b.input = 0 then 1 else b.input } ∧
      t = { s with boot := t.boot, book := { s.book with life := t.book.life } }) ∧
    (b.input = 1 → exec .prechargeComplete s = .next { s with boot := { b with input := 2, stage := 1, ms := 0, asked := (false, false) } }) ∧
    (b.input ≠ 1 → exec .prechargeComplete s = .next s) ∧
    (exec .busBelow700V s = .next { s with boot := { b with busLow := true, input := if b.input = 1 then 0 else b.input } }) ∧
    (b.busLow = false → exec .busRestored s = .next s) ∧
    (b.busLow = true → exec .busRestored s = .next { s with boot := { b with
      busLow := false, input := if b.mated = true ∧ b.input = 0 then 1 else b.input } }) ∧
    (∀ closed, exec (.presentLoopChange closed) s = .next { s with boot := { b with present := closed } }) ∧
    (b.mated = false → exec .matedOpen s = .next s) ∧
    (b.mated = true → ∃ t, exec .matedOpen s = .next t ∧ t.boot = { BootSt.reset with present := b.present, busLow := b.busLow } ∧ cleared t ∧
      t.regF Reg.modResetCause 3 0 = 4 ∧ t.rng = s.rng ∧ (s.okToRemove = true → t.flt.log = s.flt.log ∧ t.book.generals = s.book.generals) ∧
      (s.okToRemove = false → (∀ n, n < 8 → s.jobState n ≠ 1) → t.flt.log = s.flt.log ∧ t.book.generals = s.book.generals + 1)) ∧
    (b.input = 2 → exec .standbyPowerLoss s = .next s) ∧
    (b.input ≠ 2 → ∃ t, exec .standbyPowerLoss s = .next t ∧ cleared t ∧ t.boot.stage = 0 ∧ t.flt.log = [] ∧ t.flt.total = 0 ∧ t.inFlight = [] ∧
      t.rng = { s.rng with staging := none } ∧ t.reg Reg.logNextTest = s.reg Reg.logNextTest ∧
      (∀ a, a ≠ Reg.logNextTest → t.reg a = resetOf a) ∧ t.book.general = s.book.general)

/-- A confirmed reset in a powered module begins stage 2 with the cause of its sender; a confirmed power_off leaves a module
without live jobs and admission OFF, and a confirmed power_on boots an OFF module from stage 2; a ranger restart, or the
watchdog with the input on, boots from stage 1. Each clears the module, keeps the fault log, the watch list, the calendar, the
keys and licence, and the RWS fields. Others are rejected. Retirement drains the running jobs and writes the lifetime counters
to flash, as a flush does. A licence expires once, with 0x40B2. A staging that times out is bound to no session.
Where the spec leaves room, it rests on the model's readings: log entries 102 and 132. -/
def Obligations.ModuleResets : Prop :=
  ∀ (s : State),
    let a := Reg.modCtrl
    let rejected := fun (m : Instr) (l : List Nat) => ∃ t u d, exec m s = .next t ∧ s.onlyRegs t l ∧
      t = { s with regs := t.regs, inFlight := s.inFlight ++ [.faultNotice ⟨0x4071, none, u, d, 15⟩] }
    let boot := fun (t : State) (stage : Nat) => t.boot = { BootSt.reset with
      stage := stage, mated := s.boot.mated, present := s.boot.present, input := s.boot.input, busLow := s.boot.busLow }
    let cleared := fun (t : State) => t.cells = [] ∧ t.fms = [] ∧ t.slots = [] ∧ t.jobs = [] ∧ t.skys = [] ∧ t.yard = .reset ∧ t.routers = [] ∧
      t.streams = [] ∧ t.reds = [] ∧ t.eth = .reset ∧ t.ldr = .reset ∧ t.beats = { BeatSt.reset with cal := s.beats.cal } ∧
      t.flt.log = s.flt.log ∧ t.flt.watch = s.flt.watch ∧ t.flt.bad = s.flt.bad ∧ (∀ m ∈ t.inFlight, ∃ n, m = .faultNotice n) ∧
      (Tbl.wf resetOf s.regs = true → t.regF Reg.pwrCap 9 0 = s.regF Reg.pwrCap 9 0) ∧ t.rng.owners = s.rng.owners ∧ t.rng.licence = s.rng.licence ∧
      t.rng.counter = s.rng.counter ∧ t.rng.revoked = s.rng.revoked
    let jobs := ∀ n, n < 8 → s.jobState n ∉ [1, 2, 5]
    (∀ src (v : Word), v.getLsbD 62 = false →
      let confirm := (v.extractLsb' 0 16).toNat = 0x5A5A
      let off := v.getLsbD 63 = false ∧ v.getLsbD 61 = true
      let on := v.getLsbD 63 = false ∧ v.getLsbD 61 = false ∧ v.getLsbD 60 = true
      (v.getLsbD 63 = true → confirm → s.boot.stage ≠ 0 → s.boot.stage ≠ 0xF → ∃ t, exec (.moduleReset src v) s = .next t ∧ boot t 2 ∧
        cleared t ∧ t.regF Reg.modResetCause 3 0 = (if src = .firmware then 2 else 1)) ∧
      (v.getLsbD 63 = true → ¬ confirm ∨ s.boot.stage = 0 ∨ s.boot.stage = 0xF → rejected (.moduleReset src v) [a]) ∧
      (off → confirm → jobs → s.regF Reg.skyAdmit 1 0 = 0 → ∃ t, exec (.powerOff src v) s = .next t ∧ boot t 0 ∧ cleared t ∧
        t.book.flash = s.book.life ∧ t.power.p = 0) ∧
      (off → ¬ confirm ∨ ¬ jobs ∨ s.regF Reg.skyAdmit 1 0 ≠ 0 → rejected (.powerOff src v) [a]) ∧
      (on → confirm → s.boot.stage = 0 → s.boot.input = 2 → ∃ t, exec (.powerOn src v) s = .next t ∧ boot t 2 ∧ cleared t ∧
        t.regF Reg.modResetCause 3 0 = 0) ∧
      (on → ¬ confirm ∨ s.boot.stage ≠ 0 ∨ s.boot.input ≠ 2 → rejected (.powerOn src v) [a])) ∧
    (∀ src (v : Word), v.getLsbD 63 = false → v.getLsbD 61 = false → v.getLsbD 60 = false →
      (v.getLsbD 62 = false → ∃ t, exec (.retire src v) s = .next t ∧ t.regF a 62 62 = 0 ∧ s.onlyRegs t [a] ∧ t = { s with regs := t.regs }) ∧
      (v.getLsbD 62 = true → (s.reg a).getLsbD 62 = false → ∃ t, exec (.retire src v) s = .next t ∧ t.regF a 62 62 = 1 ∧
        (∀ n, n < 8 → t.jobState n = if s.jobState n = 1 then 2 else s.jobState n) ∧ s.onlyRegs t (a :: (List.range 8).map Reg.fltJob) ∧
        t = { s with regs := t.regs, book := { s.book with flash := s.book.life, seen := s.licenceClock } })) ∧
    (∀ src (v : Word),
      let go := (v.extractLsb' 0 16).toNat = 0x5A5A ∧ jobs ∧ s.regF Reg.skyAdmit 1 0 ≠ 2 ∧ s.boot.input = 2
      (v.getLsbD 63 = false → exec (.rangerRestart src v) s = .next s) ∧
      (v.getLsbD 63 = true → go → ∃ t, exec (.rangerRestart src v) s = .next t ∧ boot t 1 ∧ cleared t ∧ t.rng.staging = none ∧
        t.regF Reg.modResetCause 3 0 = 5) ∧
      (v.getLsbD 63 = true → ¬ go → rejected (.rangerRestart src v) [])) ∧
    (s.boot.input ≠ 2 → exec .watchdogExpiry s = .next s) ∧
    (s.boot.input = 2 → ∃ t, exec .watchdogExpiry s = .next t ∧ boot t 1 ∧ cleared t ∧ t.rng.staging = none ∧
      t.regF Reg.modResetCause 3 0 = 3) ∧
    (exec .logbookFlush s = .next { s with book := { s.book with flash := s.book.life, seen := s.licenceClock } }) ∧
    (exec .fwStageTimeout s = .next { s with rng := { s.rng with staging := none } }) ∧
    (s.rng.licence = none ∨ s.rng.expired = true → exec .licenceExpiry s = .next s) ∧
    (∀ l, s.rng.licence = some l →
      let until_ := ofLE ((l.drop 0x18).take 8)
      l.length = 128 → s.rng.expired = false → (until_ = 0 ∨ s.licenceClock < until_ → exec .licenceExpiry s = .next s) ∧
      (0 < until_ → until_ ≤ s.licenceClock → s.book.permanents < 4194304 → ∃ t, exec .licenceExpiry s = .next t ∧
        t.rng = { s.rng with expired := true } ∧ t.inFlight = s.inFlight ++ [.faultNotice ⟨0x40B2, none, 0, 0, 15⟩] ∧
        t.book.permanents = s.book.permanents + 1 ∧ t.book.life = s.book.life ∧ t = { s with rng := t.rng, inFlight := t.inFlight, book := t.book }))

/-- A write of MOD_RESET is taken when its scope and target name something, no ordered reset is busy, and no live job holds a
region of a cell, block or region scope; else it is rejected. A reset takes the cells of its scope: a looper is IDLE unless
UNCONFIGURED or SNAG (which a region reset clears), engines and accumulators are dropped, the tables and understorey stay, and
the cells outside stay as they are. A reset whose boundary is quiet completes; the drain limit turns one that is not into
ABSORB. The cruise of a region held after its breaker was cleared takes its map from the findings and frees the region unless it
is lost.
Where the spec leaves room, it rests on the model's readings: log entries 98, 100, 124, 125, 126 and 130. -/
def Obligations.PartialResets : Prop :=
  ∀ (s : State),
    let st := Reg.modResetStatus
    (∀ src (v : Word), s.boot.stage ≠ 7 →
      let a := Reg.modReset
      let k := (v.extractLsb' 59 3).toNat
      let kind := if k = 0 then Scope.cell else if k = 1 then .block else if k = 2 then .region else .partition
      let mode := if v.getLsbD 62 = true then ResetMode.absorb else .drain
      let target := if k = 3 then (v.extractLsb' 56 3).toNat else (v.extractLsb' 0 18).toNat
      let named := k < 4 ∧ s.scopeOk kind target = true ∧ (k = 3 ∨ s.jobInScope kind target = false)
      let rejected := ∃ t u d, exec (.modResetGo src v) s = .next t ∧ s.onlyRegs t [a, st] ∧
        t = { s with regs := t.regs, inFlight := s.inFlight ++ [.faultNotice ⟨0x4071, none, u, d, 15⟩] }
      (v.getLsbD 63 = false → ∃ t, exec (.modResetGo src v) s = .next t ∧ s.onlyRegs t [a] ∧ t = { s with regs := t.regs }) ∧
      (v.getLsbD 63 = true → s.regF st 1 0 ≠ 1 → named → ∃ t, exec (.modResetGo src v) s = .next t ∧ t.regF st 1 0 = 1 ∧ t.regF st 7 4 = k ∧
        s.onlyRegs t [a, st] ∧ t = { s with regs := t.regs, inFlight := s.inFlight ++ [.reset kind mode target] }) ∧
      (v.getLsbD 63 = true → s.regF st 1 0 = 1 ∨ ¬ named → rejected)) ∧
    (∀ k mode n, s.regF st 1 0 ≠ 1 →
      let msg := Instr.reset k mode n
      (s.scopeOk k n = false → exec msg s = .next (s.deliver msg)) ∧
      (s.scopeOk k n = true → (∀ r ∈ s.resets, ¬ (r.scope = k ∧ r.target = n)) → k ≠ .partition → s.loadActive = false →
        (k = .region → s.slotOfRegion n = none) → ∃ t r, exec msg s = .next t ∧ t.resets = s.resets ++ [r] ∧ r.scope = k ∧ r.mode = mode ∧
        r.target = n ∧ r.host = false ∧ t.slots = s.slots ∧ t.jobs = s.jobs ∧ t.streams = s.streams ∧ t.tiers = s.tiers ∧ t.routers = s.routers ∧
        (∀ c x, s.cells.find c = some x → s.inScope k n c = false → t.cells.find c = some x) ∧
        (∀ c x, s.cells.find c = some x → s.inScope k n c = true → ∃ y, t.cells.find c = some y ∧ y.resetting = some mode ∧
          y.looper = (if x.looper = .unconfigured then .unconfigured else if x.looper = .snag ∧ k ≠ .region then .snag else .idle) ∧
          y.array = .idle ∧ y.vector = .idle ∧ y.move = .idle ∧ y.exch = .idle ∧ y.queue = [] ∧ y.stack = [] ∧ y.valid0 = false ∧
          y.valid1 = false ∧ y.stepMem = x.stepMem ∧ y.xchgMem = x.xchgMem ∧ y.cfg = x.cfg ∧ y.under = x.under ∧ y.near = x.near ∧
          y.configured = x.configured))) ∧
    ((∀ r ∈ s.resets, s.quiet r = false) → exec .resetQuiet s = .next s) ∧
    (∀ r, s.resets = [r] → s.quiet r = true → r.repair = none → s.ldr.waits = false → ∃ t, exec .resetQuiet s = .next t ∧ t.resets = [] ∧
      (∀ c x, s.cells.find c = some x → t.cells.find c = some (if s.inScope r.scope r.target c = true then
        { x with resetting := none, xrun := none } else x)) ∧
      (r.host = true → t.regF st 1 0 = 2) ∧ (r.host = false → t.reg st = s.reg st) ∧ t.slots = s.slots ∧ t.jobs = s.jobs ∧
      t.inFlight = s.inFlight) ∧
    ((∀ r ∈ s.resets, r.mode = .drain → s.quiet r = true) → exec .drainLimitExpiry s = .next s) ∧
    (∀ r, s.resets = [r] → r.mode = .drain → s.quiet r = false → s.fabricFlits = [] → ∃ t, exec .drainLimitExpiry s = .next t ∧
      t.resets = [{ r with mode := .absorb, awaits := [] }] ∧
      (∀ c x, s.cells.find c = some x → t.cells.find c = some (if s.inScope r.scope r.target c = true then
        { x with resetting := some .absorb, xrun := none } else x)) ∧
      t = { s with resets := t.resets, cells := t.cells }) ∧
    (∀ g phase (r : StageReport),
      let x := s.rgn g
      (71 < g ∨ x.held = false ∨ x.dark = true ∨ s.regF (Reg.rgnBreaker g) 1 0 ≠ 0 → exec (.regionCruise g phase r) s = .next s) ∧
      (g < 72 → x.held = true → x.dark = false → s.regF (Reg.rgnBreaker g) 1 0 = 0 → (∀ n, n < 8 → (s.job n).repair = none) → phase < 65536 → ∃ t,
        exec (.regionCruise g phase r) s = .next t ∧ (t.rgn g).map = BitVec.ofNat 30 (s.cruiseMap r g) ∧ (t.rgn g).held = s.regionLost r g ∧
        (t.rgn g).dark = false ∧ s.onlyRgn t g ∧ t.regF (Reg.rgnCruise g) 2 0 = (if s.regionLost r g = true then 3 else 2) ∧
        t.regF (Reg.rgnCruise g) 63 48 = min r.elapsedMs 65535 ∧ t.regF (Reg.rgnCruise g) 47 32 = phase ∧ s.onlyRegs t [Reg.rgnCruise g] ∧
        (∀ row, row < 240 → t.spareOf g row = s.spareCode r g row) ∧ t.jobs = s.jobs ∧ t.cells = s.cells))

/-! ## Host attachment -/

/-- On a live port in FULL mode with the access list off. A frame with a wrong magic or check is counted and not answered. OPEN
takes the lowest free session for its source, or is answered BUSY. CLOSE, or 30 s of silence, ends a session and closes its
windows. READ answers with the register, or BAD_ADDRESS; WRITE does what a register write by the session does. A request that
was executed is answered again from the kept response, an older one with SEQUENCE, and one without its session with BAD_SESSION;
none of these is executed. A register write to an unmapped address has no effect; one to a plain register sets its RW and RWS
fields, clears W1C bits by ones, and changes nothing else.
Where the spec leaves room, it rests on the model's readings: log entries 70, 71, 136 and 139. -/
def Obligations.KctRequests : Prop :=
  ∀ (s : State),
    let shut := fun (t : State) (k : Nat) => t.session k = none ∧ (∀ j, j ≠ k → t.session j = s.session j) ∧
      (∀ w, w < 4 → (s.win w).state ≠ .closed → (s.win w).owner = k → (t.win w).state = .closed) ∧
      (∀ w, w < 4 → (s.win w).owner ≠ k → t.win w = s.win w)
    (∀ (f : KctFrame),
      let q := f.port
      let k := f.session.toNat
      let a := f.address.toNat
      let check := crc32c (toLE 2 f.magic.toNat ++ [f.version, f.op, f.status, f.reserved] ++ toLE 2 f.length.toNat ++ toLE 4 f.session.toNat ++
        toLE 4 f.seq.toNat ++ toLE 8 f.address.toNat ++ toLE 2 f.count.toNat ++ toLE 2 f.reserved2.toNat)
      let live := q < 2 ∧ (s.ethPort q).link = true ∧ s.portMode q = .full ∧ (s.reg Reg.ethKct).getLsbD 0 = false
      let good := live ∧ f.magic = 0x544B ∧ f.check = check ∧ f.version = 1 ∧ f.length.toNat = f.payload.length ∧ f.length.toNat ≤ 8192
      let msgs := [(0x01#8, Instr.kctOpen f), (0x02#8, .kctClose f), (0x10#8, .kctRead f), (0x11#8, .kctWrite f)]
      let said := fun (m : Instr) (t : State) (g : KctFrame) (status : Nat) => exec m s = .next t ∧ t.out = s.out ++ [.kct g] ∧ g.status.toNat = status ∧
        g.op = f.op ||| 0x80 ∧ g.seq = f.seq ∧ g.source = f.source ∧ g.udp = f.udp ∧ g.port = q
      let idle := fun (t : State) => s.onlyRegs t [Reg.ethRx q, Reg.ethTx q] ∧ t.eth = s.eth ∧ t = { s with regs := t.regs, out := t.out }
      let bound := fun (x : Session) => x.source = f.source ∧ x.udp = f.udp
      (∀ p ∈ msgs, f.op = p.1 →
        ((s.ethPort q).link = false → exec p.2 s = .next s) ∧
        (live → f.magic ≠ 0x544B ∨ f.check ≠ check → ∃ t, exec p.2 s = .next t ∧ s.onlyRegs t [Reg.ethRx q, Reg.ethDrops q] ∧
          t.regF (Reg.ethDrops q) 62 48 = min (s.regF (Reg.ethDrops q) 62 48 + 1) 0x7FFF ∧ t = { s with regs := t.regs }) ∧
        (good → f.op ≠ 1 → (∀ x, s.session k = some x → ¬ bound x) → ∃ t g, said p.2 t g 6 ∧ idle t) ∧
        (∀ x h, good → f.op ≠ 1 → s.session k = some x → bound x → x.high = some h → f.seq.toNat ≤ h →
          ((∀ g ∈ x.kept, g.seq ≠ f.seq) → ∃ t g, said p.2 t g 7 ∧ idle t) ∧
          (∀ g l, x.kept = g :: l → g.seq = f.seq → ∃ t, exec p.2 s = .next t ∧ idle t ∧
            t.out = s.out ++ [.kct { g with port := q, source := f.source, udp := f.udp }]))) ∧
      (good → f.op = 1 → (∀ n, n < 16 → (∀ j, j < n → s.session (j + 1) ≠ none) → s.session (n + 1) = none → ∃ t g, said (.kctOpen f) t g 0 ∧
          g.session.toNat = n + 1 ∧ t.session (n + 1) = some ⟨f.source, f.udp, none, []⟩ ∧ (∀ j, j ≠ n + 1 → t.session j = s.session j) ∧
          s.onlyRegs t [Reg.ethRx q, Reg.ethTx q] ∧ t = { s with regs := t.regs, out := t.out, eth := { s.eth with sessions := t.eth.sessions } }) ∧
        ((∀ j, j < 16 → s.session (j + 1) ≠ none) → ∃ t g, said (.kctOpen f) t g 3 ∧ idle t)) ∧
      (∀ x, good → s.session k = some x → bound x → x.high = none →
        (f.op = 2 → ∃ t g, said (.kctClose f) t g 0 ∧ shut t k ∧ s.onlyRegs t [Reg.ethRx q, Reg.ethTx q]) ∧
        (f.op = 0x10 → f.count = 1 → f.payload = [] →
          let u := s.addReg (Reg.ethRx q) 63 0 1
          let kept := fun (t : State) (g : KctFrame) => t.session k = some { x with high := some f.seq.toNat, kept := g :: x.kept.take 255 } ∧
            (∀ j, j ≠ k → t.session j = s.session j) ∧ t.eth.wins = s.eth.wins
          (a % 8 ≠ 0 ∨ inBlock a = false → ∃ t g, said (.kctRead f) t g 1 ∧ g.count = 0 ∧ g.payload = [] ∧ kept t g) ∧
          (a % 8 = 0 → inBlock a = true → s.regSilent a = false → ∃ t g, said (.kctRead f) t g 0 ∧ g.count = 1 ∧
            g.payload = toLE 8 (u.readReg a).toNat ∧ kept t g ∧ t.cells = s.cells ∧ t.yard = s.yard)) ∧
        (f.op = 0x11 → f.count = 1 → f.payload.length = 8 →
          let u := (s.addReg (Reg.ethRx q) 63 0 1).writeReg (.kct k) a (BitVec.ofNat 64 (ofLE f.payload))
          u.2 = 0 → ∃ t g, exec (.kctWrite f) s = .next t ∧ t.out = u.1.out ++ [.kct g] ∧ g.status = 0 ∧ g.count = 1 ∧
            ∀ p, p ∉ [Part.out, .regs, .eth] → p.same u.1 t))) ∧
    (∀ k, (s.session k = none → exec (.sessionIdleTimeout k) s = .next s) ∧
      (s.session k ≠ none → ∃ t, exec (.sessionIdleTimeout k) s = .next t ∧ shut t k ∧ t = { s with eth := t.eth })) ∧
    (∀ src a (w : Word), (a % 8 ≠ 0 ∨ inBlock a = false ∨ s.regSilent a = true → exec (.registerWrite src a w) s = .next s) ∧
      (∀ r, a % 8 = 0 → inBlock a = true → s.regSilent a = false → s.writeFixed src a w = none → s.writeArray src a w = none → isClear a = false →
        startsWork a w = false → regRow a = some r → ∃ t, exec (.registerWrite src a w) s = .next t ∧ s.onlyRegs t [a] ∧
        (∀ j, j < 64 → (t.reg a).getLsbD j = (if (BitVec.ofNat 64 r.w1c).getLsbD j = true ∧ w.getLsbD j = true then false
          else if (BitVec.ofNat 64 (r.rw ||| r.rws)).getLsbD j = true then w.getLsbD j else (s.reg a).getLsbD j)) ∧ t = { s with regs := t.regs }))

/-- Each mailbox command of an open session is answered with its status and reply. GET_CERT and ATTEST reply without an effect
on the ranger. FW_STAGE writes into the bank that does not run, at offset 0 after an erase that binds staging to the session,
and is refused with STATE to another session. FW_ACTIVATE accepts a valid bank, or raises 0x40B3. Owner keys are set, revoked
and released by a signed command with the next counter, the first one unsigned, and the last VALID one is not revoked. A licence
is installed when every check holds. A release key is revoked by another intact one, and never the last. A command that is
refused changes no key, licence, fuse or bank.
Where the spec leaves room, it rests on the model's readings: log entries 102, 128 and 129. -/
def Obligations.Mailbox : Prop :=
  ∀ (s : State) (f : KctFrame) (x : Session) (args : Bytes),
    let q := f.port
    let k := f.session.toNat
    let r := s.rng
    let code := leAt f.payload 0 2
    let spare := 1 - r.running
    q < 2 → (s.ethPort q).link = true → s.portMode q = .full → (s.reg Reg.ethKct).getLsbD 0 = false → f.magic = 0x544B → f.version = 1 →
    f.check = crc32c (kctHeader f) → f.length.toNat = f.payload.length → f.op = 0x20 → s.session k = some x → x.source = f.source → x.udp = f.udp →
    x.high = none → leAt f.payload 2 2 = 0 → leAt f.payload 4 4 = args.length → args.length ≤ 8176 → f.payload.drop 16 = args →
    f.payload.length = 16 + args.length →
    let answers := fun (m : Instr) (t : State) (status : Nat) (body : Bytes) => exec m s = .next t ∧ t.regF Reg.rngMbox 63 48 = code ∧
      t.regF Reg.rngMbox 47 40 = status ∧ ∃ g, t.out = s.out ++ [.kct g] ∧ g.status = 0 ∧
        g.payload = f.payload.take 2 ++ toLE 1 status ++ [0] ++ toLE 4 body.length ++ slice f.payload 8 8 ++ body
    let refused := fun (m : Instr) (status : Nat) => ∃ t, answers m t status [] ∧ t.rng = r ∧ t.book = s.book ∧ t.inFlight = s.inFlight
    (code = 0x01 → (args = [] → ∃ t, answers (.getCert f) t 0 Config.certificate ∧ t.rng = r ∧ t.book = s.book) ∧ (args ≠ [] → refused (.getCert f) 1)) ∧
    (code = 0x02 → (args.length = 32 → ∃ t, answers (.attest f) t 0 (s.attestation args) ∧ t.rng = r ∧ t.book = s.book) ∧
      (args.length ≠ 32 → refused (.attest f) 1)) ∧
    (code = 0x10 →
      let off := leAt args 0 4
      let data := args.drop 4
      (args.length < 4 ∨ 0x100_0000 < off + data.length → refused (.fwStage f) 1) ∧
      (∀ j, 4 ≤ args.length → off + data.length ≤ 0x100_0000 → r.staging = some j → j ≠ k → refused (.fwStage f) 5) ∧
      (4 ≤ args.length → off + data.length ≤ 0x100_0000 → r.staging = some k → 0 < off → ∃ t, answers (.fwStage f) t 0 [] ∧ t.rng =
        r.setBank spare { r.bank spare with bytes := (r.bank spare).bytes.write off data, factory := false }) ∧
      (4 ≤ args.length → r.staging = none ∨ r.staging = some k → off = 0 → ∃ t, answers (.fwStage f) t 0 [] ∧ t.rng.staging = some k ∧
        t.rng.running = r.running ∧ (r.running < 2 → t.rng.bank r.running = r.bank r.running) ∧
        (t.rng.bank spare).factory = false ∧ (∀ i b, data[i]? = some b → (t.rng.bank spare).bytes.byte i = b) ∧
        t.rng.owners = r.owners ∧ t.rng.licence = r.licence ∧ t.rng.revoked = r.revoked ∧ t.rng.counter = r.counter)) ∧
    (code = 0x11 → (args ≠ [] → refused (.fwActivate f) 1) ∧
      (args = [] → r.bankValid (r.bank spare) = true → ∃ t, answers (.fwActivate f) t 0 [] ∧ t.rng = { r with staging := none }) ∧
      (args = [] → r.bankValid (r.bank spare) = false → ∃ t, answers (.fwActivate f) t 7 [] ∧ t.rng = { r with staging := none } ∧
        t.inFlight = s.inFlight ++ [.faultNotice ⟨0x40B3, none, 0, 0, 15⟩])) ∧
    (∀ (a : OwnerArgs), ownerArgs args = some a →
      let free := (r.ownerAt a.slot).state = 0
      let next := a.counter = r.owner.toNat + 1
      let first := a.slot = 0 ∧ ∀ j, j < 4 → (r.ownerAt j).state = 0
      (code = 0x20 → (first ∨ r.ownerSigned 0x20 a = true → next → free → ∃ t, answers (.ownerSet f) t 0 [] ∧
          t.rng = { r.setOwner a.slot ⟨1, a.key⟩ with owner := r.owner + 1 }) ∧
        (¬ first → r.ownerSigned 0x20 a = true → next → ¬ free → refused (.ownerSet f) 5) ∧
        (first ∨ r.ownerSigned 0x20 a = true → ¬ next → refused (.ownerSet f) 4) ∧
        (¬ first → r.ownerSigned 0x20 a = false → refused (.ownerSet f) 2)) ∧
      (code = 0x21 → ofLE a.key = 0 → (r.ownerSigned 0x21 a = false → refused (.ownerRevoke f) 2) ∧
        (r.ownerSigned 0x21 a = true → ¬ next → refused (.ownerRevoke f) 4) ∧
        (r.ownerSigned 0x21 a = true → next → (r.ownerAt a.slot).state ≠ 1 → refused (.ownerRevoke f) 5) ∧
        (r.ownerSigned 0x21 a = true → next → (r.ownerAt a.slot).state = 1 → (∀ j, j < 4 → j ≠ a.slot → (r.ownerAt j).state ≠ 1) →
          refused (.ownerRevoke f) 6) ∧
        (r.ownerSigned 0x21 a = true → next → (r.ownerAt a.slot).state = 1 → (∃ j, j < 4 ∧ j ≠ a.slot ∧ (r.ownerAt j).state = 1) →
          ∃ t, answers (.ownerRevoke f) t 0 [] ∧ t.rng = { r.setOwner a.slot ⟨2, (r.ownerAt a.slot).key⟩ with owner := r.owner + 1 })) ∧
      (code = 0x22 → ofLE a.key = 0 → a.slot = 0 → (r.ownerSigned 0x22 a = false → refused (.ownerRelease f) 2) ∧
        (r.ownerSigned 0x22 a = true → next → ∃ t, answers (.ownerRelease f) t 0 [] ∧ t.rng = { r with owners := [] }))) ∧
    (code = 0x30 → args.length = 128 → (∀ e, s.licenceCheck args = some e → refused (.licenceInstall f) e) ∧
      (s.licenceCheck args = none → ∃ t, answers (.licenceInstall f) t 0 [] ∧ t.rng = { r with licence := some args, expired := false })) ∧
    (code = 0x31 → args = [] → (r.licence = none → refused (.licenceGet f) 5) ∧
      (∀ l, r.licence = some l → ∃ t, answers (.licenceGet f) t 0 l ∧ t.rng = r)) ∧
    (code = 0x40 → args.length = 68 → leAt args 0 1 < 4 → leAt args 2 2 = 0 →
      let victim := leAt args 0 1
      let signer := leAt args 1 1
      let after := r.revoked ||| BitVec.ofNat 4 (2 ^ victim)
      let signed := signer ≠ victim ∧ signer < 4 ∧ r.revoked.getLsbD signer = false ∧
        edVerify (Config.releaseKey signer) (toLE 8 Config.serial.toNat ++ toLE 2 0x40 ++ toLE 1 victim) (slice args 4 64) = true
      (after = 15 → refused (.revokeRelease f) 6) ∧ (after ≠ 15 → ¬ signed → refused (.revokeRelease f) 2) ∧
      (after ≠ 15 → signed → ∃ t, answers (.revokeRelease f) t 0 [] ∧ t.rng = { r with revoked := after }))

/-- Neighbour and echo requests for the port's own address are answered, and others dropped and counted. LLDP goes out on every
live port and the last neighbour is recorded. PAUSE holds a priority, and a receive buffer above 75 % of 4 MiB sends it. A link
that goes down fails the port's queue pairs with 0x4070 and keeps sessions and windows; a link comes up unless the port is DARK.
A queue pair takes the lowest free number of 64 on a port in FULL mode, and a RoCEv2 frame in another mode is dropped and
counted. A CNP is returned at most once in 50 µs; one received halves the rate when ecn_react is set, and the timer raises it by
5 %.
Where the spec leaves room, it rests on the model's readings: log entries 70, 72 and 73. -/
def Obligations.EthernetPorts : Prop :=
  ∀ (s : State) (q : Nat), q < 2 →
    let e := s.ethPort q
    let rx := Reg.ethRx q
    let tx := Reg.ethTx q
    let drops := Reg.ethDrops q
    let live := e.link = true ∧ s.portMode q ≠ .dark
    let ports := fun (t : State) => (∀ p, p ≠ q → t.ethPort p = s.ethPort p) ∧ t.eth = { s.eth with ports := t.eth.ports }
    let heard := fun (t : State) (l : List Nat) => t.regF rx 63 0 = (s.regF rx 63 0 + 1) % 2 ^ 64 ∧ s.onlyRegs t (rx :: l)
    let sent := fun (t : State) (m : EthSend) => t.out = s.out ++ [.eth q m]
    let quiet := fun (m : Instr) => ∃ t, exec m s = .next t ∧ heard t [] ∧ t = { s with regs := t.regs }
    let dropped := fun (m : Instr) (hi lo : Nat) => ∃ t, exec m s = .next t ∧ heard t [drops] ∧ t = { s with regs := t.regs } ∧
      t.regF drops hi lo = min (s.regF drops hi lo + 1) 65535
    (∀ kind source target ttl mac prio on fill, ¬ live → exec (.neighborRequest q kind source target) s = .next s ∧
      exec (.lldpReceived q ttl mac) s = .next s ∧ exec (.pauseReceived q prio on fill) s = .next s ∧ exec (.roceConnect q source) s = .next s) ∧
    (∀ kind source target, live →
      let own := s.ownAddr q target = true ∧ (target.v4 = true ↔ kind = .arp ∨ kind = .echo4)
      (own → ∃ t, exec (.neighborRequest q kind source target) s = .next t ∧ sent t (.neighbor kind source) ∧ heard t [tx] ∧
        t = { s with regs := t.regs, out := t.out }) ∧
      (¬ own → dropped (.neighborRequest q kind source target) 15 0)) ∧
    (∃ t, exec .lldpTransmitTimer s = .next t ∧ t.out = s.out ++ (([0, 1] : List Nat).filter s.portLive).map (fun p =>
      .eth p (.lldp Config.serial 120 (s.mgmtAddr p))) ∧ s.onlyRegs t [Reg.ethTx 0, Reg.ethTx 1] ∧ t = { s with regs := t.regs, out := t.out }) ∧
    (∀ ttl (mac : BitVec 48), live → ttl < 65536 → ∃ t, exec (.lldpReceived q ttl mac) s = .next t ∧ heard t [Reg.ethLldp q] ∧
      t.regF (Reg.ethLldp q) 63 48 = ttl ∧ t.regF (Reg.ethLldp q) 47 0 = mac.toNat ∧ t = { s with regs := t.regs }) ∧
    (∀ prio on fill, live → prio < 8 →
      let mine := prio = s.regF (Reg.ethPortCtrl q) 2 0 ∨ prio = s.regF (Reg.ethPortCtrl q) 5 3
      let full := decide (3145728 < fill)
      (¬ mine → quiet (.pauseReceived q prio on fill)) ∧
      (mine → ∃ t, exec (.pauseReceived q prio on fill) s = .next t ∧ (t.ethPort q).paused.getLsbD prio = on ∧
        (t.ethPort q).pausing.getLsbD prio = full ∧ (∀ j, j < 8 → j ≠ prio → (t.ethPort q).paused.getLsbD j = e.paused.getLsbD j ∧
          (t.ethPort q).pausing.getLsbD j = e.pausing.getLsbD j) ∧ (t.ethPort q).link = true ∧ ports t ∧
        t.out = s.out ++ (if e.pausing.getLsbD prio = full then [] else [.eth q (.pause prio full)]) ∧ s.onlyRegs t [rx, tx] ∧
        t = { s with eth := t.eth, regs := t.regs, out := t.out })) ∧
    (s.portMode q = .dark → exec (.ethLinkUp q) s = .next s) ∧
    (s.portMode q ≠ .dark → ∃ t, exec (.ethLinkUp q) s = .next t ∧ t.ethPort q = { e with link := true } ∧ ports t ∧ t = { s with eth := t.eth }) ∧
    (e.link = false → exec (.ethLinkDown q) s = .next s) ∧
    (e.link = true → ∃ t, exec (.ethLinkDown q) s = .next t ∧ t.ethPort q = .reset ∧ (∀ p, p ≠ q → t.ethPort p = s.ethPort p) ∧
      (∀ k, t.qp k = (s.qp k).map (fun x => if x.port = q then { x with failed := true } else x)) ∧ t.eth.sessions = s.eth.sessions ∧
      t.eth.wins = s.eth.wins ∧ .faultNotice ⟨0x4070, none, q, 0, 15⟩ ∈ t.inFlight) ∧
    (∀ source, live →
      (s.portMode q ≠ .full → dropped (.roceConnect q source) 47 32) ∧
      (s.portMode q = .full → (s.reg Reg.ethKct).getLsbD 0 = false →
        (∀ k, k < 64 → (∀ j, j < k → s.qp j ≠ none) → s.qp k = none → ∃ t, exec (.roceConnect q source) s = .next t ∧
          t.qp k = some ⟨q, false, 800000000000, none⟩ ∧ (∀ j, j ≠ k → t.qp j = s.qp j) ∧ sent t (.connect (some k)) ∧ heard t [tx] ∧
          t = { s with regs := t.regs, out := t.out, eth := { s.eth with qps := t.eth.qps } }) ∧
        ((∀ k, k < 64 → s.qp k ≠ none) → ∃ t, exec (.roceConnect q source) s = .next t ∧ sent t (.connect none) ∧ heard t [tx] ∧
          t = { s with regs := t.regs, out := t.out }))) ∧
    (∀ k, ∃ t, exec (.roceDisconnect k) s = .next t ∧ t.qp k = none ∧ (∀ j, j ≠ k → t.qp j = s.qp j) ∧
      t = { s with eth := { s.eth with qps := t.eth.qps } }) ∧
    (∀ k time, s.qp k = none → exec (.ecnCeReceived k time) s = .next s ∧ exec (.cnpReceived k) s = .next s ∧ exec (.rateIncreaseTimer k) s = .next s) ∧
    (∀ k x, s.qp k = some x → x.port = q →
      let pairs := fun (t : State) (y : QpSt) => t.qp k = some y ∧ (∀ j, j ≠ k → t.qp j = s.qp j) ∧ t.eth = { s.eth with qps := t.eth.qps }
      (∃ t, exec (.rateIncreaseTimer k) s = .next t ∧ pairs t { x with rate := min 800000000000 (x.rate + 40000000000) } ∧ t = { s with eth := t.eth }) ∧
      (live → s.portMode q = .full →
        (∀ time, x.failed = false → (∀ l, x.lastCnp = some l → l + 50000 ≤ time) → ∃ t, exec (.ecnCeReceived k time) s = .next t ∧
          pairs t { x with lastCnp := some time } ∧ sent t (.cnp k) ∧ heard t [tx] ∧ t = { s with regs := t.regs, out := t.out, eth := t.eth }) ∧
        (∀ time l, x.lastCnp = some l → time < l + 50000 → quiet (.ecnCeReceived k time)) ∧
        ((s.reg Reg.ethRoce).getLsbD 0 = true → ∃ t, exec (.cnpReceived k) s = .next t ∧ pairs t { x with rate := max 1000000000 (x.rate / 2) } ∧
          heard t [] ∧ t = { s with regs := t.regs, eth := t.eth }) ∧
        ((s.reg Reg.ethRoce).getLsbD 0 = false → quiet (.cnpReceived k))))

/-- A port that runs no time receiver takes no PTP message. An event message is timestamped. An Announce of the port's domain
that is better than the best one kept, or comes from the same clock, takes its place; a worse one or one of another domain does
not. Without Announces the port has no time transmitter. On the selected port, while PTP is followed and LOCKED, a Sync within 1
µs is counted, sets PTP time and the calendar; one outside it is counted, and the 16th in a row gives HOLDOVER with 0x4080.
Messages of the port that is not selected change no time.
Where the spec leaves room, it rests on the model's readings: log entry 81. -/
def Obligations.PtpPorts : Prop :=
  ∀ (s : State) (q : Nat), q < 2 →
    let p := s.beats.ptp
    let on := s.ptpOn q = true
    let alone := s.ptpOn (1 - q) = false
    let rx := Reg.ethRx q
    let heard := fun (t : State) => t.regF rx 63 0 = (s.regF rx 63 0 + 1) % 2 ^ 64 ∧ s.onlyRegs t [rx]
    let quiet := fun (m : Instr) => ∃ t, exec m s = .next t ∧ heard t ∧ t = { s with regs := t.regs }
    let fibre := s.beats.state = .locked ∧ s.beats.active = .fibre ∧ s.beats.fibre.locked = true ∧ s.regF Reg.beatCtrl 1 0 = 1
    let ptp := s.beats.state = .locked ∧ s.beats.active = .ptp ∧ p.locked = true ∧ s.regF Reg.beatCtrl 1 0 = 2
    (∀ kind seq time a tai off utc, ¬ on → exec (.ptpEventMessage q kind seq time) s = .next s ∧ exec (.ptpAnnounce q a) s = .next s ∧
      exec (.ptpSync q kind tai off utc) s = .next s) ∧
    (∀ kind seq time, on → ∃ t, exec (.ptpEventMessage q kind seq time) s = .next t ∧ heard t ∧ t.beats.ptp.stamps.find q = some (seq, time) ∧
      t = { s with regs := t.regs, beats := { s.beats with ptp := { p with stamps := t.beats.ptp.stamps } } }) ∧
    (∀ a, on →
      let domain := a.domain = s.regF (Reg.ethPtp q) 15 8
      (¬ domain → quiet (.ptpAnnounce q a)) ∧
      (∀ b, domain → p.best.find q = some b → Announce.better a b = false → a.identity ≠ b.identity → quiet (.ptpAnnounce q a)) ∧
      (∀ b, domain → p.best.find q = some b → Announce.better a b = true ∨ a.identity = b.identity → alone → p.port = some q →
        ∃ t, exec (.ptpAnnounce q a) s = .next t ∧ heard t ∧ t.beats.ptp.best.find q = some a ∧
          t = { s with regs := t.regs, beats := { s.beats with ptp := { p with best := t.beats.ptp.best } } }) ∧
      (domain → p.best.find q = none → alone → p.port = none → fibre → ∃ t, exec (.ptpAnnounce q a) s = .next t ∧ heard t ∧
        t.beats.ptp.best.find q = some a ∧ t = { s with regs := t.regs, beats := { s.beats with ptp := { p with
          best := t.beats.ptp.best, port := some q, good := 0, bad := 0, locked := false } } })) ∧
    (alone → p.port = some q → fibre → ∃ t, exec (.announceReceiptTimeout q) s = .next t ∧ t.beats.ptp.best.find q = none ∧
      t = { s with beats := { s.beats with ptp := { p with
        best := t.beats.ptp.best, port := none, good := 0, bad := 0, locked := false, tai := none } } }) ∧
    (∀ kind tai (off : Int) utc, on →
      let timed := { s.beats.cal with valid := true, sec := tai / 1000000000, ps := tai % 1000000000 * 1000, utc := utc % 256 }
      (p.port ≠ some q → quiet (.ptpSync q kind tai off utc)) ∧
      (p.port = some q → ptp →
        (kind = .sync → off.natAbs ≤ 1000 → ∃ t, exec (.ptpSync q kind tai off utc) s = .next t ∧ heard t ∧ t = { s with
          regs := t.regs, beats := { s.beats with ptp := { p with tai := some tai, good := p.good + 1, bad := 0 }, cal := timed } }) ∧
        (kind = .sync → 1000 < off.natAbs → p.bad < 15 → ∃ t, exec (.ptpSync q kind tai off utc) s = .next t ∧ heard t ∧ t = { s with
          regs := t.regs, beats := { s.beats with ptp := { p with tai := some tai, good := 0, bad := p.bad + 1 }, cal := timed } }) ∧
        (kind = .sync → 1000 < off.natAbs → 15 ≤ p.bad → ∃ t, exec (.ptpSync q kind tai off utc) s = .next t ∧
          t.beats = { s.beats with state := .holdover, ptp := { p with tai := none, good := 0, bad := 0, locked := false } } ∧
          (t.reg Reg.beatStatus).getLsbD 8 = true ∧ s.onlyRegs t [rx, Reg.beatStatus] ∧
          t.inFlight = s.inFlight ++ [.faultNotice ⟨0x4080, none, 0, 0, 15⟩]) ∧
        (kind ≠ .sync → ∃ t, exec (.ptpSync q kind tai off utc) s = .next t ∧ heard t ∧ t = { s with
          regs := t.regs, beats := { s.beats with ptp := { p with tai := some tai }, cal := timed } })))

/-- A window opens for its writer in the direction given with a new rkey, when it is CLOSED and its fields and space are
allowed; else nothing opens, and bad fields are rejected. A write window takes the next frame of the right length, counts its
bytes and becomes FULL at BULK_LEN; a duplicate is acknowledged again, an early one answered with SEQUENCE, a failed write sets
ERROR, and a window that is not open gives WINDOW. The timer acknowledges what was accepted. A read window answers a frame with
its bytes. RDMA WRITE is accepted at the byte that follows those accepted, and RDMA READ within a read window; others complete
with an error. SEND carries a KCT request and its answer. The owner's close ends the window, and another's does not.
Where the spec leaves room, it rests on the model's readings: log entries 74 and 75. -/
def Obligations.BulkWindows : Prop :=
  ∀ (s : State) (w : Nat), w < 4 →
    let x := s.win w
    let len := s.winLen w
    let ctrl := Reg.bulkCtrl w
    let rejects := Reg.bulkRejects w
    let busy := s.loadActive = true ∧ s.winStaging w = true
    let wins := fun (t : State) (y : WinSt) => t.win w = y ∧ (∀ v, v ≠ w → t.win v = s.win v) ∧ t.eth.sessions = s.eth.sessions ∧ t.eth.qps = s.eth.qps
    (∀ src (v : Word), s.boot.stage ≠ 7 →
      let owner := match src with
        | .kct k => k
        | .firmware => 0
      (v.getLsbD 0 = false ∨ v.getLsbD 1 = true → exec (.bulkOpen src w v) s = .next s) ∧
      (v.getLsbD 0 = true → v.getLsbD 1 = false →
        (x.state ≠ .closed → exec (.bulkOpen src w v) s = .next s) ∧
        (x.state = .closed → s.winFields w = false → ∃ u d, exec (.bulkOpen src w v) s = .next { s with
          inFlight := s.inFlight ++ [.faultNotice ⟨0x4071, none, u, d, 15⟩] }) ∧
        (x.state = .closed → s.winFields w = true → s.winSpace w = false ∨ (s.portMode 0 ≠ .full ∧ s.portMode 1 ≠ .full) ∨ busy →
          exec (.bulkOpen src w v) s = .next s) ∧
        (x.state = .closed → s.winFields w = true → s.winSpace w = true → s.portMode 0 = .full ∨ s.portMode 1 = .full → ¬ busy →
          ∃ t key, exec (.bulkOpen src w v) s = .next t ∧ key ≠ x.rkey ∧ wins t ⟨.opened, owner, v.getLsbD 2, key, 0, 0, 0, none⟩ ∧
            t.regF ctrl 2 2 = (v.extractLsb' 2 1).toNat ∧ s.onlyRegs t [ctrl] ∧ t = { s with eth := t.eth, regs := t.regs, freeCtr := t.freeCtr })) ∧
      (v.getLsbD 1 = false → exec (.bulkClose src w v) s = .next s) ∧
      (v.getLsbD 1 = true → x.state ≠ .closed → x.owner ≠ owner → exec (.bulkClose src w v) s = .next s) ∧
      (v.getLsbD 1 = true → x.state ≠ .closed → x.owner = owner → ∃ t, exec (.bulkClose src w v) s = .next t ∧
        wins t { x with state := .closed, owner := 0, since := 0, peer := none } ∧ s.onlyRegs t [ctrl] ∧ t = { s with eth := t.eth, regs := t.regs })) ∧
    (∀ (f : KctFrame) (y : Session),
      let q := f.port
      let u := s.addReg (Reg.ethRx q) 63 0 1
      let n := (f.address.extractLsb' 0 61).toNat
      let size := min 8192 (len - n * 8192)
      let said := fun (t : State) (g : KctFrame) (op : Byte) (status : Nat) => t.out = s.out ++ [.kct g] ∧ g.op = op ∧ g.status.toNat = status ∧ g.port = q
      q < 2 → (s.ethPort q).link = true → s.portMode q = .full → (s.reg Reg.ethKct).getLsbD 0 = false → f.magic = 0x544B → f.version = 1 →
      f.check = crc32c (kctHeader f) → f.length.toNat = f.payload.length → f.length.toNat ≤ 8192 → s.session f.session.toNat = some y →
      y.source = f.source → y.udp = f.udp → (f.address.extractLsb' 61 3).toNat = w → ¬ busy →
      (f.op = 0x30 →
        let refused := fun (fail : Bool) (status : Nat) => ∃ t g, exec (.bulkData f fail) s = .next t ∧ said t g 0xB0 status ∧ wins t x ∧
          t.regF rejects 62 32 = min (s.regF rejects 62 32 + 1) (2 ^ 31 - 1) ∧ t.tiers = s.tiers ∧ t.yard = s.yard ∧ t.cells = s.cells
        (∀ fail, x.state = .closed ∨ x.state = .error ∨ x.reads = true → refused fail 8) ∧
        (x.state = .opened → x.reads = false → x.owner = f.session.toNat →
          (∀ fail, n < x.accepted / 8192 → ∃ t g, exec (.bulkData f fail) s = .next t ∧ said t g 0xB0 0 ∧ g.address.toNat = (x.accepted / 8192) % 2 ^ 64 ∧
            wins t { x with acked := x.accepted / 8192, since := 0 } ∧ t.tiers = s.tiers ∧ t.yard = s.yard) ∧
          (∀ fail, x.accepted / 8192 < n → n * 8192 < len → refused fail 7) ∧
          (n * 8192 = x.accepted → x.accepted < len → n < x.acked + 256 → f.payload.length = size → s.streamOpen w x.accepted size = true →
            (∃ t g, exec (.bulkData f true) s = .next t ∧ said t g 0xB0 9 ∧ wins t { x with state := .error } ∧ t.tiers = s.tiers ∧ t.yard = s.yard) ∧
            (x.since < 15 → ∃ t, exec (.bulkData f false) s = .next t ∧ t.out = s.out ∧ t.tiers = (u.streamWrite w x.accepted f.payload).tiers ∧
              t.yard = (u.streamWrite w x.accepted f.payload).yard ∧ t.cells = (u.streamWrite w x.accepted f.payload).cells ∧
              wins t { x with accepted := x.accepted + size, since := x.since + 1, peer := some (q, f.source, f.udp),
                              state := if x.accepted + size = len then .full else .opened })))) ∧
      (f.op = 0x31 → (∀ bad, x.state ≠ .opened ∨ x.reads = false → ∃ t g, exec (.bulkRead f bad) s = .next t ∧ said t g 0xB1 8 ∧ wins t x) ∧
        (∀ bad, x.state = .opened → x.reads = true → x.owner = f.session.toNat → f.count = 1 → n * 8192 < len → n ∉ bad →
          s.streamOpen w (n * 8192) size = true → (u.streamRead w (n * 8192) size).2 = false → ∃ t g, exec (.bulkRead f bad) s = .next t ∧
          said t g 0xB2 0 ∧ g.payload = (u.streamRead w (n * 8192) size).1 ∧ g.address.toNat = w * 2 ^ 61 + n ∧
          wins t { x with accepted := (x.accepted + size) % 2 ^ 40 } ∧ t.tiers = s.tiers ∧ t.cells = s.cells))) ∧
    (x.peer = none ∨ x.since = 0 → exec (.bulkAckTimer w) s = .next s) ∧
    (∀ p, x.peer = some p → 0 < x.since → x.state = .opened → ∃ t g, exec (.bulkAckTimer w) s = .next t ∧ t.out = s.out ++ [.kct g] ∧ g.port = p.1 ∧
      g.op = 0xB0 ∧ g.status = 0 ∧ g.address.toNat = (x.accepted / 8192) % 2 ^ 64 ∧ wins t { x with acked := x.accepted / 8192, since := 0 } ∧
      s.onlyRegs t [Reg.ethTx p.1] ∧ t = { s with eth := t.eth, regs := t.regs, out := t.out }) ∧
    (∀ k (z : QpSt), s.qp k = some z → z.failed = false → z.port < 2 → (s.ethPort z.port).link = true → s.portMode z.port = .full →
      let u := s.addReg (Reg.ethRx z.port) 63 0 1
      let told := fun (t : State) (ok : Bool) (data : Bytes) => t.out = s.out ++ [.eth z.port (.rdma k ok data)]
      (∀ f : KctFrame, (s.reg Reg.ethKct).getLsbD 0 = false → f.magic = 0x544B → f.version = 1 → f.check = crc32c (kctHeader f) →
        f.length.toNat = f.payload.length → f.length.toNat ≤ 8192 → f.op = 0x01 → s.session 1 = none → ∃ t g, exec (.rdmaSend k f) s = .next t ∧
          t.out = s.out ++ [.eth z.port (.send k g)] ∧ g.status = 0 ∧ g.session = 1 ∧ g.op = 0x81 ∧ t.session 1 = some ⟨f.source, f.udp, none, []⟩ ∧
          (∀ j, j ≠ 1 → t.session j = s.session j) ∧ t.eth.wins = s.eth.wins) ∧
      (∀ rkey off data fail bad, (∀ v, v < 4 → (s.win v).state ≠ .closed → (s.win v).rkey ≠ rkey) →
        (∃ t, exec (.rdmaWrite k rkey off data fail 0) s = .next t ∧ (s.ethPort z.port).pausing = 0 → told t false [] ∧ t.eth.wins = s.eth.wins ∧
          t.tiers = s.tiers) ∧
        (∃ t, exec (.rdmaRead k rkey off data.length bad) s = .next t ∧ told t false [] ∧ t.eth = s.eth)) ∧
      (∀ off data, s.winOfKey x.rkey = some w → x.state = .opened → x.reads = false → ¬ busy → (s.ethPort z.port).pausing = 0 →
        (off ≠ x.accepted ∨ len < off + data.length → ∃ t, exec (.rdmaWrite k x.rkey off data false 0) s = .next t ∧ told t false [] ∧ wins t x ∧
          t.tiers = s.tiers) ∧
        (off = x.accepted → off + data.length ≤ len → s.streamOpen w off data.length = true → ∃ t,
          exec (.rdmaWrite k x.rkey off data false 0) s = .next t ∧ told t true [] ∧ t.tiers = (u.streamWrite w off data).tiers ∧
          t.yard = (u.streamWrite w off data).yard ∧
          wins t { x with accepted := off + data.length, state := if off + data.length = len then .full else .opened })) ∧
      (∀ off n, s.winOfKey x.rkey = some w → x.state = .opened → x.reads = true → ¬ busy → off + n ≤ len → s.streamOpen w off n = true →
        (u.streamRead w off n).2 = false → ∃ t, exec (.rdmaRead k x.rkey off n false) s = .next t ∧ told t true (u.streamRead w off n).1 ∧
          t.tiers = s.tiers ∧ wins t { x with accepted := (x.accepted + n) % 2 ^ 40 }))

/-! ## Image loads -/

/-- A start with a slot below 8 while no load is active sets IMG_STATUS to VERIFYING with the slot, clears the loader's other
registers and state, and leaves everything else; with a load active, with a slot of 8 or more, or in Chrysalis it is rejected
and IMG_STATUS stays. An abort of an active load ends it ABORTED, and past step 3 its slot is EMPTY and the rectangle
unconfigured; without a load it has no effect. Verification fails with the code of the first check that does not hold: 0x01 for
the header or the length, 0x04 for the signature. An image that passes claims the rectangle and the ports for the slot as
LOADING and sends load-open to every target; outside VERIFYING nothing happens.
Where the spec leaves room, it rests on the model's readings: log entries 107 and 112. -/
def Obligations.ImageStarts : Prop :=
  ∀ (s : State),
    let a := Reg.imgCtrl
    let e := Reg.imgStatus
    let regsOf := fun (t : State) (v : Word) (l : List Nat) => t.regF a 11 8 = (v.extractLsb' 8 4).toNat ∧ s.onlyRegs t (a :: l)
    (∀ src (v : Word), ∀ m ∈ [Instr.imgStart src v, .imgAbort src v],
      let n := (v.extractLsb' 8 4).toNat
      let start := v.getLsbD 0 = true
      let abort := v.getLsbD 1 = true
      let rejected := fun (t : State) => t = { s with regs := t.regs, inFlight := s.inFlight ++ [.faultNotice ⟨0x4071, none, srcSession src, a, 15⟩] }
      (s.boot.stage = 7 → start → ∃ t, exec m s = .next t ∧ rejected t ∧ t.regs = s.regs) ∧
      (s.boot.stage ≠ 7 → s.loadActive = false → start → n < 8 → ∃ t, exec m s = .next t ∧
        regsOf t v [e, Reg.imgError, Reg.imgProgress, Reg.imgRepair] ∧ t.regF e 3 0 = 1 ∧ t.regF e 6 4 = n ∧ t.regF e 63 7 = 0 ∧
        t.reg Reg.imgError = 0xFFFF_0000_0000_0000 ∧ t.reg Reg.imgProgress = 0 ∧ t.reg Reg.imgRepair = 0 ∧
        t = { s with regs := t.regs, ldr := .reset }) ∧
      (s.boot.stage ≠ 7 → s.loadActive = false → start → 8 ≤ n → ∃ t, exec m s = .next t ∧ regsOf t v [] ∧ rejected t) ∧
      (s.boot.stage ≠ 7 → s.loadActive = true → start → ¬ abort → ∃ t, exec m s = .next t ∧ regsOf t v [] ∧ rejected t) ∧
      (s.loadActive = false → ¬ start → ∃ t, exec m s = .next t ∧ regsOf t v [] ∧ t = { s with regs := t.regs }) ∧
      (s.loadActive = true → ¬ start → abort →
        (s.ldr.claimed = false → ∃ t, exec m s = .next t ∧ regsOf t v [e] ∧ t.regF e 3 0 = 8 ∧ t.regF e 63 4 = s.regF e 63 4 ∧
          t = { s with regs := t.regs, ldr := .reset }) ∧
        (s.ldr.claimed = true → ∃ t, exec m s = .next t ∧ t.regF e 3 0 = 8 ∧ t.ldr = .reset ∧ t.slot s.imgSlot = .reset ∧ s.onlySlot t s.imgSlot ∧
          t.red s.imgSlot = .reset ∧ t.reg (Reg.imgPartId s.imgSlot) = 0 ∧ t.flt.watch = s.flt.watch ∧
          (∀ c x, s.cells.find c = some x → (s.slot s.imgSlot).rect.has (regionOf c) = true → (t.cell c).configured = false ∧
            (x.looper ≠ .snag → (t.cell c).looper = .unconfigured)) ∧
          (∀ m ∈ t.inFlight, loaderMsg m = false)))) ∧
    (s.imgState ≠ 1 ∨ s.ldr.waits = true → exec .loadVerifyDone s = .next s) ∧
    (s.imgState = 1 → s.ldr.waits = false → s.ldr.claimed = false →
      let failed := fun (x : ImgErr) => ∃ t, exec .loadVerifyDone s = .next t ∧ t.regF e 3 0 = 7 ∧ t.regF e 63 4 = s.regF e 63 4 ∧
        t.reg Reg.imgError = BitVec.ofNat 64 (2 ^ 48 * (x.sec % 2 ^ 16) + 2 ^ 30 * (x.cell % 2 ^ 18) + x.code % 2 ^ 8) ∧
        s.onlyRegs t [e, Reg.imgError] ∧ t = { s with regs := t.regs, ldr := .reset }
      (∀ x, s.verifyImage s.imgSlot = some x → failed x) ∧
      (s.headerOk = false ∨ s.lengthOk = false → failed ⟨0x01, 0xFFFF, 0⟩) ∧
      (s.headerOk = true → s.lengthOk = true → s.badSection = none → s.badCrc (fun _ => true) = none → s.signatureOk = false →
        failed ⟨0x04, 0xFFFF, 0⟩) ∧
      (s.verifyImage s.imgSlot = none → (∀ x ∈ s.imgSecs, x.kind ∉ [0x21, 0x22, 0x23, 0x24, 0x25]) → s.ldr.tries = 0 → s.yard.objs = [] →
        s.yard.allocs = [] → s.yard.failed = [] → s.imgTargets ≠ [] → ∃ t, exec .loadVerifyDone s = .next t ∧ t.imgState = 2 ∧
        (t.slot s.imgSlot).state = .loading ∧ (t.slot s.imgSlot).rect = s.imgRect ∧ (t.slot s.imgSlot).ports.toNat = s.imgPorts ∧
        (t.slot s.imgSlot).owner = s.imgOwner ∧ (t.slot s.imgSlot).required = s.imgRequired ∧ s.onlySlot t s.imgSlot ∧
        t.ldr.claimed = true ∧ t.ldr.tries = 1 ∧ t.ldr.unacked = s.imgTargets ∧ (∀ g ∈ s.imgTargets, Instr.loadOpen g ∈ t.inFlight) ∧
        t.reg Reg.imgProgress = BitVec.ofNat 64 (2 ^ 32 * (s.imgChunks % 2 ^ 32)) ∧
        (∀ c x, s.cells.find c = some x → s.imgRect.has (regionOf c) = true → (t.cell c).configured = false)))

/-- Load-open in DELIVERING clears the target's run table, acknowledges, and with the last acknowledgement BROADCAST begins; a
retry sends it again to the silent targets up to the third attempt, after which they are suspects and BROADCAST begins. A
chunk's lead is kept and its payload gathered; a whole chunk with a right check that targets the unit is held and written at its
offset, a DIRECTORY chunk into the run table, and any other is dropped. A target that is dark, in reset or fenced takes nothing.
Only the target changes, with the loader's own state and progress.
Where the spec leaves room, it rests on the model's readings: log entries 111 and 115. -/
def Obligations.Chunks : Prop :=
  ∀ (s : State) (g : Target), wfTarget g = true →
    let old := s.loadOf g
    let e := Reg.imgStatus
    let aim := fun (t : State) (l : LoadSt) =>
      (∀ c, g = .cell c → t.cell c = { s.cell c with load := l } ∧ s.onlyCells t [c] ∧ t.fms = s.fms) ∧
      (∀ f, g = .foreman f → t.fm f = { s.fm f with load := l } ∧ s.onlyFm t f ∧ t.cells = s.cells)
    (s.takes g = false ∨ s.imgState ≠ 2 → exec (.loadOpen g) s = .next { s with inFlight := s.inFlight.erase (.loadOpen g) }) ∧
    (s.takes g = true → s.imgState = 2 → ∃ t, exec (.loadOpen g) s = .next t ∧
      aim t { LoadSt.reset with opened := true, total := s.imgChunks, dirs := s.imgDirs } ∧
      t.ldr = { s.ldr with unacked := t.ldr.unacked } ∧ (∀ u, u ∈ t.ldr.unacked ↔ u ∈ s.ldr.unacked ∧ u ≠ g) ∧
      ((∃ u ∈ s.ldr.unacked, u ≠ g) → t.regs = s.regs) ∧
      ((∀ u ∈ s.ldr.unacked, u = g) → t.imgState = 3 ∧ t.regF e 63 4 = s.regF e 63 4 ∧ s.onlyRegs t [e]) ∧
      t = { s with inFlight := s.inFlight.erase (.loadOpen g), cells := t.cells, fms := t.fms, ldr := t.ldr, regs := t.regs }) ∧
    (s.imgState ≠ 2 → exec .loadOpenRetry s = .next s) ∧
    (s.imgState = 2 → 0 < s.ldr.tries → s.ldr.tries < 3 → ∃ t, exec .loadOpenRetry s = .next t ∧ t.ldr = { s.ldr with tries := s.ldr.tries + 1 } ∧
      (∀ u ∈ s.ldr.unacked, Instr.loadOpen u ∈ t.inFlight) ∧ t = { s with ldr := t.ldr, inFlight := t.inFlight }) ∧
    (s.imgState = 2 → 3 ≤ s.ldr.tries → ∃ t, exec .loadOpenRetry s = .next t ∧ t.imgState = 3 ∧ t.regF e 63 4 = s.regF e 63 4 ∧
      t.ldr = { s.ldr with suspects := s.ldr.suspects ++ s.ldr.unacked, unacked := [] } ∧ s.onlyRegs t [e] ∧
      t = { s with ldr := t.ldr, regs := t.regs }) ∧
    (∀ h crc,
      let p := Reg.imgProgress
      (old.opened = false ∨ s.takes g = false → exec (.chunkLead g h crc) s = .next s) ∧
      (old.opened = true → s.takes g = true → ∃ t, exec (.chunkLead g h crc) s = .next t ∧
        aim t { old with lead := some (h, crc), data := [] } ∧
        (s.imgState ≠ 3 → t.regs = s.regs) ∧
        (s.imgState = 3 → t.regF p 31 0 = max (s.regF p 31 0) ((h.extractLsb' 106 22).toNat + 1) ∧ t.regF p 63 32 = s.regF p 63 32 ∧
          s.onlyRegs t [p]) ∧
        t = { s with cells := t.cells, fms := t.fms, regs := t.regs })) ∧
    (∀ data, old.lead = none → exec (.chunkData g data) s = .next s) ∧
    (∀ data h crc, old.lead = some (h, crc) →
      let len := 16 * (h.extractLsb' 7 7).toNat
      let off := 16 * (h.extractLsb' 14 24).toNat
      let kind := (h.extractLsb' 74 8).toNat
      let seq := (h.extractLsb' 106 22).toNat
      let bs := (old.data ++ data).take len
      let whole := s.takes g = true ∧ len ≤ (old.data ++ data).length
      let good := whole ∧ crc32c (toLE 16 h.toNat ++ bs) = crc ∧
        hitsTarget kind (h.extractLsb' 56 18).toNat (h.extractLsb' 38 18).toNat g = true
      let held := if old.held.contains seq then old.held else old.held ++ [seq]
      let fresh := { old with lead := none, data := [], held := held }
      let becomes := fun (P : State → Prop) => ∃ t, exec (.chunkData g data) s = .next t ∧ P t ∧ t = { s with cells := t.cells, fms := t.fms }
      (s.takes g = false → becomes (fun t => aim t { old with lead := none, data := [] })) ∧
      (s.takes g = true → (old.data ++ data).length < len → becomes (fun t => aim t { old with data := old.data ++ data })) ∧
      (whole → ¬ good → becomes (fun t => aim t { old with lead := none, data := [] })) ∧
      (good → kind = 1 → becomes (fun t => aim t { fresh with runs := (t.loadOf g).runs } ∧
        (∀ r ∈ old.runs.take 512, r ∈ (t.loadOf g).runs) ∧ (t.loadOf g).runs.length ≤ 512)) ∧
      (good → kind ≠ 1 → unitBytes kind < off + len → becomes (fun t => aim t { old with lead := none, data := [] })) ∧
      (∀ c, g = .cell c → good → off + len ≤ unitBytes kind →
        let x := { s.cell c with load := fresh }
        let put := fun (y : State → CellSt) => becomes (fun t => t.cell c = y t ∧ s.onlyCells t [c] ∧ t.fms = s.fms)
        (kind = 2 → put (fun t => { x with stepMem := x.stepMem.write off bs, stepEcc := (t.cell c).stepEcc })) ∧
        (kind = 3 → put (fun t => { x with xchgMem := x.xchgMem.write off bs, xchgEcc := (t.cell c).xchgEcc })) ∧
        (kind = 4 → put (fun _ => { x with near := x.near.write off bs })) ∧
        (kind = 5 → put (fun _ => { x with under := x.under.write off bs })) ∧
        (kind = 6 → put (fun _ => { x with cfg := x.cfg.write off bs }))) ∧
      (∀ f, g = .foreman f → good → off + len ≤ unitBytes kind →
        let x := { s.fm f with load := fresh }
        let put := fun (y : State → FmSt) => becomes (fun t => t.fm f = y t ∧ s.onlyFm t f ∧ t.cells = s.cells)
        (kind = 0x10 → put (fun t => { x with fprog := x.fprog.write off bs, fprogEcc := (t.fm f).fprogEcc })) ∧
        (kind = 0x11 → put (fun _ => { x with fcurve := x.fcurve.write off bs, fcurveEcc := false }))))

/-- With no slot in repair. The broadcast's end leads to REPAIR with the blocks of the image, or fails with 0x03 where a trail
section has changed. A round that begins sends the check; a check that finds blocks lacking chunks opens the report window, to
which their lists are added once each, and whose end counts the chunks resent. When nothing lacks, or after the third round, the
configure broadcast is sent; an incomplete foreman fails the load with 0x0C; an incomplete cell with a spare in its row is
remapped and the block reloaded, and one without a spare, or after a reload, fails it with 0x0B. The configure broadcast
configures the targets and the load is DONE with the slot LOADED and measured. Out of turn these have no effect.
Where the spec leaves room, it rests on the model's readings: log entries 113 and 119. -/
def Obligations.RepairRounds : Prop :=
  ∀ (s : State), (∀ n, n < 8 → (s.job n).repair = none) →
    let e := Reg.imgStatus
    let r := s.ldr.rounds
    let live := (s.imgState = 4 ∨ s.imgState = 5) ∧ s.ldr.commit = false
    let bad := fun (g : Target) => (∃ f ∈ r.blocks, g ∈ blockTargets f) ∧ (s.takes g = false ∨ s.lacking g = true ∨ g ∈ s.ldr.suspects)
    let failed := fun (m : Instr) (code cell : Nat) => ∃ t, exec m s = .next t ∧ t.imgState = 7 ∧ t.ldr = .reset ∧
      t.reg Reg.imgError = BitVec.ofNat 64 (2 ^ 48 * 0xFFFF + 2 ^ 30 * cell + code)
    let waiting := fun (m : Instr) => m = .repairRound ∧ r.window = false ∧ Instr.loadCheck ∉ s.inFlight ∧ 3 ≤ r.round
    let checking := fun (m : Instr) => m = .loadCheck ∧ ∀ f ∈ r.blocks, s.blockLacks f = false
    (s.imgState ≠ 3 → exec .loadBroadcastDone s = .next s) ∧
    (s.imgState = 3 → s.badCrc Sec.trail = none → ∃ t, exec .loadBroadcastDone s = .next t ∧ t.imgState = 4 ∧
      t.regF e 63 4 = s.regF e 63 4 ∧ t.regF Reg.imgProgress 31 0 = s.imgChunks ∧
      t.regF Reg.imgProgress 63 32 = s.regF Reg.imgProgress 63 32 ∧ s.onlyRegs t [e, Reg.imgProgress] ∧
      t.ldr = { s.ldr with rounds := ⟨s.imgFms, 0, false, [], []⟩ } ∧ t = { s with regs := t.regs, ldr := t.ldr }) ∧
    (∀ k, s.imgState = 3 → s.badCrc Sec.trail = some k → ∃ t, exec .loadBroadcastDone s = .next t ∧ t.imgState = 7 ∧ t.ldr = .reset ∧
      t.reg Reg.imgError = BitVec.ofNat 64 (2 ^ 48 * (k % 2 ^ 16) + 0x03)) ∧
    (¬ live ∨ r.window = true ∨ Instr.loadCheck ∈ s.inFlight → exec .repairRound s = .next s) ∧
    (live → r.window = false → Instr.loadCheck ∉ s.inFlight → r.round < 3 → ∃ t, exec .repairRound s = .next t ∧
      t.ldr = { s.ldr with rounds := { r with round := r.round + 1 } } ∧ t.regF e 9 8 = r.round + 1 ∧ t.regF e 7 0 = s.regF e 7 0 ∧
      t.regF e 63 10 = s.regF e 63 10 ∧ s.onlyRegs t [e] ∧
      t = { s with ldr := t.ldr, regs := t.regs, inFlight := s.inFlight ++ [.loadCheck] }) ∧
    (¬ live → exec .loadCheck s = .next { s with inFlight := s.inFlight.erase .loadCheck }) ∧
    (live → (∃ f ∈ r.blocks, s.blockLacks f = true) → ∃ t, exec .loadCheck s = .next t ∧ t.ldr.rounds.window = true ∧
      (∀ f, f ∈ t.ldr.rounds.missing ↔ f ∈ r.blocks ∧ s.blockLacks f = true) ∧
      t.ldr = { s.ldr with rounds := { r with window := true, missing := t.ldr.rounds.missing, reports := [] } } ∧
      (∀ f ∈ t.ldr.rounds.missing, s.takes (.foreman f) = true → s.missMsg f ∈ t.inFlight) ∧ t = { s with ldr := t.ldr, inFlight := t.inFlight }) ∧
    (∀ m, live → waiting m ∨ checking m →
      ((∀ g, ¬ bad g) → ∃ t, exec m s = .next t ∧ t.ldr = { s.ldr with commit := true } ∧ Instr.loadConfigure ∈ t.inFlight ∧
        t = { s with ldr := t.ldr, inFlight := t.inFlight }) ∧
      (∀ f, r.blocks = [f] → wfFm f = true → bad (.foreman f) → failed m 0x0C (blockCell f)) ∧
      (∀ c, (∀ g, bad g ↔ g = .cell c) → c < 2 ^ 18 → s.imgState = 5 ∨ s.spareFree c = false → failed m 0x0B c) ∧
      (∀ c, (∀ g, bad g ↔ g = .cell c) → r.blocks = [fmOf c] → wfCell c = true → s.imgState = 4 → s.spareFree c = true → ∃ t,
        exec m s = .next t ∧ t.imgState = 5 ∧ t.regF e 9 8 = 0 ∧ t.ldr = { s.ldr with suspects := [], rounds := ⟨[fmOf c], 0, false, [], []⟩ } ∧
        t.regF Reg.imgRepair 55 48 = min (s.regF Reg.imgRepair 55 48 + 1) 255 ∧ t.spareOf (regionOf c) (blockRowOf c) = colOf c % 8 ∧
        (t.cell c).configured = false ∧ (t.cell c).load = { LoadSt.reset with opened := true, total := s.imgChunks, dirs := s.imgDirs } ∧
        (∃ d, .faultNotice ⟨0x2002, s.slotOfCell c, c, d, s.posOfCell c⟩ ∈ t.inFlight))) ∧
    (∀ f lists, ∃ t, exec (.miss f lists) s = .next t ∧ (∀ n, n < 8 → t.job n = s.job n) ∧
      (r.window = true ∧ f ∈ r.missing → t.ldr = { s.ldr with rounds := { r with reports := r.reports ++ [(f, lists)] } }) ∧
      (r.window = false ∨ f ∉ r.missing → t.ldr = s.ldr) ∧
      t = { s with inFlight := s.inFlight.erase (.miss f lists), ldr := t.ldr, jobs := t.jobs }) ∧
    (¬ live ∨ r.window = false → exec .missReportWindowEnd s = .next s) ∧
    (live → r.window = true → 1 ≤ r.round → r.round ≤ 3 →
      let lo := 16 * (r.round - 1)
      let resent := (r.missing.map (fun f => s.resendCount f r.reports)).sum
      ∃ t, exec .missReportWindowEnd s = .next t ∧ t.ldr = { s.ldr with rounds := { r with window := false, missing := [], reports := [] } } ∧
        (s.imgState = 5 → t.regs = s.regs) ∧
        (s.imgState = 4 → t.regF Reg.imgRepair (lo + 15) lo = min (s.regF Reg.imgRepair (lo + 15) lo + resent) 65535 ∧
          s.onlyRegs t [Reg.imgRepair]) ∧
        t = { s with ldr := t.ldr, regs := t.regs }) ∧
    (s.ldr.commit = false → exec .loadConfigure s = .next { s with inFlight := s.inFlight.erase .loadConfigure }) ∧
    (s.ldr.commit = true →
      let n := s.imgSlot
      ∃ t, exec .loadConfigure s = .next t ∧ t.imgState = 6 ∧ t.regF e 63 4 = s.regF e 63 4 ∧ t.ldr = .reset ∧ (t.slot n).state = .loaded ∧
        (t.slot n).rect = (s.slot n).rect ∧ s.onlySlot t n ∧
        (∀ c, .cell c ∈ s.imgTargets → (s.cell c).looper ≠ .snag → (t.cell c).looper = .idle ∧ (t.cell c).configured = true ∧
          (t.cell c).near = (s.cell c).near ∧ (t.cell c).stepMem = (s.cell c).stepMem ∧ (t.cell c).execNo = 0) ∧
        (∀ f, .foreman f ∈ s.imgTargets → (t.fm f).configured = true) ∧
        (∀ w, w < 8 → t.reg (Reg.imgMeasure n w) = BitVec.ofNat 64 (leAt s.imgDigest (8 * w) 8)) ∧
        t.reg (Reg.imgPartId n) = BitVec.ofNat 64 (s.imgN 0x18 8) ∧
        s.onlyRegs t (e :: Reg.imgPartId n :: (List.range 8).map (Reg.imgMeasure n)))

/-! ## The whole module -/

/-- A step with command c at the front of the queue is exec of c on the state with the queue's rest; on an empty queue the block
idles (the model's own form: log entry 2). -/
def Obligations.FrontStep : Prop :=
  (∀ s c rest, s.pending = c :: rest → step s = exec c { s with pending := rest }) ∧ (∀ s, s.pending = [] → step s = .next s)

/-- Every command of the table, in every state and with every operand, answers a next state: a breach is rejected with a record
and no fault or refusal stops the block.
Where the spec leaves room, it rests on the model's readings: log entries 1 and 136. -/
def Obligations.EveryCommandCompletes : Prop := ∀ (c : Instr) (s : State), ∃ t, exec c s = .next t

/-- After reset nothing waits or travels, the memories are empty of anything listed, no slot holds an image, no release key is
revoked, the module is OFF, and the registers read the values that the register tables give.
That the memories list nothing and that the
release keys are intact is the model's choice: log entries 4 and 129. -/
def Obligations.ResetState : Prop :=
  let s := State.reset
  s.pending = [] ∧ s.inFlight = [] ∧ s.regs = [] ∧ (∀ n, (s.slot n).state = .empty) ∧ s.moduleState = 0 ∧ s.keysIntact ∧
  s.tiers.mem1 = .empty ∧ s.tiers.mem2 = .empty ∧ s.tiers.mem3 = .empty ∧ s.flt.log = [] ∧
  s.reg Reg.imgError = 0xFFFF_0000_0000_0000 ∧ s.reg Reg.imgStageSize = 0x1_0000_0000 ∧ s.reg Reg.imgStatus = 0 ∧ s.reg Reg.fltPolicy = 0x020B ∧
  s.regF Reg.fltKatCtrl 63 32 = 3000 ∧ s.regF Reg.fltKatCtrl 31 16 = 50 ∧ s.reg Reg.yrdWaitLimit = 0x1000 ∧ s.reg Reg.pwrCap = 840 ∧
  s.reg Reg.pwrRamp = 20 ∧ s.reg Reg.beatCtrl = 3 ∧ s.reg Reg.ethRoce = 1 ∧ s.regF Reg.ethKct 47 32 = 0xBE00 ∧
  (∀ r, r < 72 → s.reg (Reg.rgnFabricCtrl r) = 0x0000_2000_0000_0000)

/-- From every state, a step leaves of the queue exactly what stood behind its front: commands act in their order of arrival,
and none adds, drops or reorders those that wait.
Where the spec leaves room, it rests on the model's readings: log entry 1. -/
def Obligations.StepFifo : Prop := ∀ s t, step s = .next t → t.pending = s.pending.drop 1

/-- From every state, a step that answers a next state leaves every revoked release key slot revoked and, where one slot was
intact, one slot intact, and never lowers the security counter.
Where the spec leaves room, it rests on the model's readings: log entries 128 and 129. -/
def Obligations.StepKeepsKeys : Prop :=
  ∀ s t, step s = .next t → (s.keysIntact → t.keysIntact) ∧ (∀ k, s.rng.revoked.getLsbD k = true → t.rng.revoked.getLsbD k = true) ∧
    s.rng.counter ≤ t.rng.counter

/-- From every state, a step that answers a next state lowers none of the lifetime counters: seconds powered, energy, thermal
cycles of each wing, hot plugs, and every stress bin of every region.
Where the spec leaves room, it rests on the model's readings: log entries 105 and 154. -/
def Obligations.StepKeepsLifetime : Prop :=
  ∀ s t, step s = .next t →
    let a := s.book.life
    let b := t.book.life
    a.powerOn ≤ b.powerOn ∧ a.energy ≤ b.energy ∧ a.cycles.1 ≤ b.cycles.1 ∧ a.cycles.2 ≤ b.cycles.2 ∧ a.hotPlug ≤ b.hotPlug ∧
    ∀ k, a.stress.get 0 k ≤ b.stress.get 0 k

/-- For every well-formed command and every state, each of the 32 pieces of State that the command's list (touches, in
Safety.lean) does not name is the same after the command as before it. The lists name, for each command, the register bank,
cells, foremen, slots, memories, engines and units that its rules let it change.
Where the spec leaves room, it rests on the model's readings: log entries 1 and 5. -/
def Obligations.Frame : Prop := ∀ (c : Instr) (s t : State), wf c = true → exec c s = .next t → ∀ p, p ∉ touches c → p.same s t

/-- At an address inside a block's range where no register lies, a read returns zero and a write is discarded; an access outside
every block's range completes with BAD_ADDRESS. -/
def Obligations.RegisterHoles : Prop :=
  ∀ (s : State) (a : Nat),
    (inBlock a = true → regRow a = none → s.readReg a = 0 ∧ ∀ src w, exec (.registerWrite src a w) s = .next s) ∧
    (inBlock a = false → (∀ q, s.kctReg q a = .error 1) ∧ ∀ src w, s.writeReg src a w = (s, 1))

/-- A write of BULK_ADDR, BULK_LEN or BULK_STRIDE of a window that is not CLOSED has no effect but the record of its rejection,
0x4071. -/
def Obligations.WindowRegisters : Prop :=
  ∀ (s : State) src (w : Word) (v a : Nat), v < 4 → (s.win v).state ≠ .closed → a ∈ [Reg.bulkAddr v, Reg.bulkLen v, Reg.bulkStride v] →
    ∃ n : Notice, n.code = 0x4071 ∧
      exec (.registerWrite src a w) s = .next { s with inFlight := s.inFlight ++ [.faultNotice n] }

/-- When stage 5 completes under firmware whose version is above the security counter, the counter becomes that version; from
then on, after any further steps, a bank with a lower version is not valid. -/
def Obligations.SecurityCounter : Prop :=
  ∀ (s t : State) (r : StageReport),
    let v := (s.rng.bank s.rng.running).version
    s.boot.stage = 5 → s.rng.counter < v → exec (.bootStageComplete r) s = .next t →
      t.rng.counter = v ∧ (t.boot.stage = 6 ∨ t.boot.stage = 8) ∧
      ∀ (k : Nat) (u : Nat → State), u 0 = t → (∀ j, j < k → step (u j) = .next (u (j + 1))) → ∀ b : BankSt, b.version < v →
        (u k).rng.bankValid b = false

/-- A step that is otherwise legal and free to issue, with a PUSH at four stacked loops, a RETURN at none, or an END at any,
does not issue: with the engines idle the looper halts and sends 0x1003 with the step's index, and with an engine at work the
fault is noted and the looper issues no more. -/
def Obligations.LoopStackFaults : Prop :=
  ∀ (s : State) (c held : Nat) (b : Step), s.cellOffers c b → (s.cell c).occ = none → s.heldBy c b = none →
    eccAt (s.cell c).stepEcc (s.cell c).pc ≠ some true → issueFault (s.env c) (s.cell c) b ≠ some 0x1002 → (s.cell c).notice = none →
    let x := s.cell c
    (b.loop = 1 ∧ 4 ≤ x.stack.length) ∨ (b.loop = 2 ∧ x.stack = []) ∨ (b.cls = 0xF ∧ x.stack ≠ []) →
    ∀ i, (i = .stepNop c held ∧ b.cls = 0 ∨ i = .stepMatrix c held ∧ b.cls = 1 ∨ i = .stepVector c held ∧ b.cls = 2 ∨
        i = .stepLoad c held ∧ b.cls = 3 ∨ i = .stepStore c held ∧ b.cls = 4 ∨ i = .stepExchange c held ∧ b.cls = 5 ∨
        i = .gateWait c held ∧ b.cls = 6 ∧ (b.extractLsb' 84 4).toNat = 0 ∨
        i = .gateBarrierEnter c held ∧ b.cls = 6 ∧ (b.extractLsb' 84 4).toNat = 1 ∨
        i = .gateSignal c held ∧ b.cls = 6 ∧ (b.extractLsb' 84 4).toNat = 2 ∨
        i = .stepScalar c held ∧ b.cls = 7 ∨ i = .stepEnd c held ∧ b.cls = 15) →
      ∃ t, exec i s = .next t ∧ s.onlyCells t [c] ∧ t = { s with cells := t.cells, inFlight := t.inFlight } ∧
        (x.enginesIdle = true → t.inFlight = s.inFlight ++ [.faultNotice ⟨0x1003, s.slotOfCell c, c, x.pc, s.posOfCell c⟩] ∧
          t.cell c = { x with looper := .halted, stepEcc := (t.cell c).stepEcc, tallies := (t.cell c).tallies }) ∧
        (x.enginesIdle = false → t.inFlight = s.inFlight ∧
          t.cell c = { x with fault := some (0x1003, x.pc, 0), stepEcc := (t.cell c).stepEcc, tallies := (t.cell c).tallies })
end

