-- ==== Sys2Proof/Laws/Tables.lean ====
section
/-! SUPPORT. The laws of sparse tables: what a key reads as after a change, at that key and at every other, and that each
change keeps the canonical form. -/

namespace Sys2Proof.Machine

open Sys2Proof

variable {α : Type}

@[simp] theorem Tbl.find_nil (k : Nat) : Tbl.find k ([] : Tbl α) = none := rfl

@[simp] theorem Tbl.find_put (k : Nat) (v : α) (t : Tbl α) : Tbl.find k (Tbl.put k v t) = some v := by
  induction t with
  | nil => simp [Tbl.put, Tbl.find]
  | cons e t ih =>
    obtain ⟨j, w⟩ := e
    simp only [Tbl.put]
    split
    · simp [Tbl.find]
    · split
      · simp [Tbl.find]
      · simp [Tbl.find, *]

theorem Tbl.find_put_other {j k : Nat} (h : j ≠ k) (v : α) (t : Tbl α) : Tbl.find j (Tbl.put k v t) = Tbl.find j t := by
  induction t with
  | nil => simp [Tbl.put, Tbl.find, Ne.symm h]
  | cons e t ih =>
    obtain ⟨i, w⟩ := e
    simp only [Tbl.put]
    split
    · simp [Tbl.find, Ne.symm h]
    · split
      · subst_vars; simp [Tbl.find, Ne.symm h]
      · simp [Tbl.find, ih]

@[simp] theorem Tbl.find_del (k : Nat) (t : Tbl α) : Tbl.find k (Tbl.del k t) = none := by
  induction t with
  | nil => rfl
  | cons e t ih =>
    obtain ⟨j, w⟩ := e
    simp only [Tbl.del]
    split
    · exact ih
    · simp [Tbl.find, *]

theorem Tbl.find_del_other {j k : Nat} (h : j ≠ k) (t : Tbl α) : Tbl.find j (Tbl.del k t) = Tbl.find j t := by
  induction t with
  | nil => rfl
  | cons e t ih =>
    obtain ⟨i, w⟩ := e
    simp only [Tbl.del]
    split
    · subst_vars; simp [Tbl.find, Ne.symm h, ih]
    · simp [Tbl.find, ih]

@[simp] theorem Tbl.get_put (d : α) (k : Nat) (v : α) (t : Tbl α) : Tbl.get d k (Tbl.put k v t) = v := by simp [Tbl.get]

theorem Tbl.get_put_other (d : α) {j k : Nat} (h : j ≠ k) (v : α) (t : Tbl α) : Tbl.get d j (Tbl.put k v t) = Tbl.get d j t := by
  simp [Tbl.get, Tbl.find_put_other h]

@[simp] theorem Tbl.get_set [DecidableEq α] (d : α) (k : Nat) (v : α) (t : Tbl α) : Tbl.get d k (Tbl.set d k v t) = v := by
  unfold Tbl.set; split <;> simp [Tbl.get, *]

theorem Tbl.find_set_other [DecidableEq α] (d : α) {j k : Nat} (h : j ≠ k) (v : α) (t : Tbl α) :
    Tbl.find j (Tbl.set d k v t) = Tbl.find j t := by
  unfold Tbl.set; split
  · exact Tbl.find_del_other h t
  · exact Tbl.find_put_other h v t

theorem Tbl.get_set_other [DecidableEq α] (e d : α) {j k : Nat} (h : j ≠ k) (v : α) (t : Tbl α) :
    Tbl.get e j (Tbl.set d k v t) = Tbl.get e j t := by simp [Tbl.get, Tbl.find_set_other d h]

/-! ## Rising keys -/

theorem Tbl.rising_mono {a b : Nat} (h : a ≤ b) {t : Tbl α} (r : Tbl.rising b t = true) : Tbl.rising a t = true := by
  cases t with
  | nil => rfl
  | cons e t =>
    simp only [Tbl.rising, Bool.and_eq_true, decide_eq_true_eq] at r ⊢
    exact ⟨by omega, r.2⟩

theorem Tbl.rising_put {b k : Nat} (h : b < k) (v : α) {t : Tbl α} (r : Tbl.rising b t = true) :
    Tbl.rising b (Tbl.put k v t) = true := by
  induction t generalizing b with
  | nil => simp [Tbl.put, Tbl.rising, h]
  | cons e t ih =>
    obtain ⟨j, w⟩ := e
    simp only [Tbl.rising, Bool.and_eq_true, decide_eq_true_eq] at r
    simp only [Tbl.put]
    split
    · simp only [Tbl.rising, Bool.and_eq_true, decide_eq_true_eq]; exact ⟨h, by omega, r.2⟩
    · split <;> simp only [Tbl.rising, Bool.and_eq_true, decide_eq_true_eq]
      · subst_vars; exact r
      · exact ⟨r.1, ih (by omega) r.2⟩

theorem Tbl.rising_del {b k : Nat} {t : Tbl α} (r : Tbl.rising b t = true) : Tbl.rising b (Tbl.del k t) = true := by
  induction t generalizing b with
  | nil => rfl
  | cons e t ih =>
    obtain ⟨j, w⟩ := e
    simp only [Tbl.rising, Bool.and_eq_true, decide_eq_true_eq] at r
    simp only [Tbl.del]
    split
    · exact ih (Tbl.rising_mono (by omega) r.2)
    · simp only [Tbl.rising, Bool.and_eq_true, decide_eq_true_eq]; exact ⟨r.1, ih r.2⟩

theorem Tbl.rising_filter {b : Nat} (p : Nat × α → Bool) {t : Tbl α} (r : Tbl.rising b t = true) :
    Tbl.rising b (t.filter p) = true := by
  induction t generalizing b with
  | nil => rfl
  | cons e t ih =>
    obtain ⟨j, w⟩ := e
    simp only [Tbl.rising, Bool.and_eq_true, decide_eq_true_eq] at r
    simp only [List.filter_cons]
    split
    · simp only [Tbl.rising, Bool.and_eq_true, decide_eq_true_eq]; exact ⟨r.1, ih r.2⟩
    · exact ih (Tbl.rising_mono (by omega) r.2)

end Sys2Proof.Machine
end

