-- ==== Sys2Proof/Laws/Registers.lean ====
section
/-! SUPPORT. The laws of bit fields and of the register bank: what a field and a register read as after a change, there and
elsewhere. -/

namespace Sys2Proof.Machine

open Sys2Proof

/-! ## Fields (R3) -/

/-- A number with field `[lo + k - 1 : lo]` replaced, split at the field. -/
theorem replace_split (W lo k v : Nat) :
    W - W / 2 ^ lo % 2 ^ k * 2 ^ lo + v % 2 ^ k * 2 ^ lo = 2 ^ lo * (2 ^ k * (W / 2 ^ lo / 2 ^ k) + v % 2 ^ k) + W % 2 ^ lo := by
  have h1 : 2 ^ lo * (W / 2 ^ lo) + W % 2 ^ lo = W := Nat.div_add_mod W (2 ^ lo)
  have h2 : 2 ^ k * (W / 2 ^ lo / 2 ^ k) + W / 2 ^ lo % 2 ^ k = W / 2 ^ lo := Nat.div_add_mod _ _
  generalize W / 2 ^ lo / 2 ^ k = q at *
  generalize W / 2 ^ lo % 2 ^ k = b at *
  generalize W % 2 ^ lo = r at *
  generalize v % 2 ^ k = x at *
  rw [← h2] at h1
  rw [← h1]
  generalize 2 ^ lo = m
  generalize 2 ^ k = K
  have : m * (K * q + b) = m * (K * q) + b * m := by ring
  have e : m * (K * q + x) = m * (K * q) + x * m := by ring
  omega

theorem replace_lt {n lo hi W v : Nat} (h1 : lo ≤ hi) (h2 : hi < n) (hW : W < 2 ^ n) :
    2 ^ lo * (2 ^ (hi + 1 - lo) * (W / 2 ^ lo / 2 ^ (hi + 1 - lo)) + v % 2 ^ (hi + 1 - lo)) + W % 2 ^ lo < 2 ^ n := by
  generalize hk : hi + 1 - lo = k
  have hn : 2 ^ n = 2 ^ lo * (2 ^ k * 2 ^ (n - hi - 1)) := by rw [← Nat.pow_add, ← Nat.pow_add]; congr 1; omega
  have hq : W / 2 ^ lo / 2 ^ k < 2 ^ (n - hi - 1) := by
    rw [Nat.div_div_eq_div_mul, ← Nat.pow_add]
    apply Nat.div_lt_of_lt_mul
    rw [← Nat.pow_add]
    rwa [show lo + k + (n - hi - 1) = n by omega]
  have hx : v % 2 ^ k < 2 ^ k := Nat.mod_lt _ (Nat.two_pow_pos k)
  have hr : W % 2 ^ lo < 2 ^ lo := Nat.mod_lt _ (Nat.two_pow_pos lo)
  rw [hn]
  generalize W / 2 ^ lo / 2 ^ k = q at *
  generalize v % 2 ^ k = x at *
  generalize W % 2 ^ lo = r at *
  generalize 2 ^ lo = m at *
  generalize 2 ^ k = K at *
  generalize 2 ^ (n - hi - 1) = N at *
  have a : K * q + x + 1 ≤ K * N := by
    have : K * (q + 1) ≤ K * N := Nat.mul_le_mul_left K hq
    have e : K * (q + 1) = K * q + K := by ring
    omega
  have b : m * (K * q + x + 1) ≤ m * (K * N) := Nat.mul_le_mul_left m a
  have e : m * (K * q + x + 1) = m * (K * q + x) + m := by ring
  omega

/-- The number that a word is after one of its fields is replaced. -/
theorem toNat_setBits {n : Nat} {hi lo : Nat} (h1 : lo ≤ hi) (h2 : hi < n) (v : Nat) (w : BitVec n) :
    (setBits hi lo v w).toNat =
      2 ^ lo * (2 ^ (hi + 1 - lo) * (w.toNat / 2 ^ lo / 2 ^ (hi + 1 - lo)) + v % 2 ^ (hi + 1 - lo)) + w.toNat % 2 ^ lo := by
  unfold setBits bits natBits field
  rw [BitVec.toNat_ofNat, replace_split]
  exact Nat.mod_eq_of_lt (replace_lt h1 h2 w.isLt)

/-- A field reads as what was put into it, cut to its width. -/
theorem bits_setBits {n : Nat} {hi lo : Nat} (h1 : lo ≤ hi) (h2 : hi < n) (v : Nat) (w : BitVec n) :
    bits hi lo (setBits hi lo v w) = v % 2 ^ (hi + 1 - lo) := by
  unfold bits natBits
  rw [toNat_setBits h1 h2, Nat.mul_add_div (Nat.two_pow_pos lo), Nat.div_eq_of_lt (Nat.mod_lt _ (Nat.two_pow_pos lo)), Nat.add_zero,
    Nat.mul_add_mod, Nat.mod_mod]

/-- Every other field reads as before. -/
theorem bits_setBits_other {n : Nat} {hi lo hj lj : Nat} (h1 : lo ≤ hi) (h2 : hi < n) (hd : hj < lo ∨ hi < lj) (v : Nat)
    (w : BitVec n) : bits hj lj (setBits hi lo v w) = bits hj lj w := by
  unfold bits natBits
  rw [toNat_setBits h1 h2]
  generalize hk : hi + 1 - lo = k
  generalize hW : w.toNat = W
  rcases hd with hd | hd
  · have key : ∀ X : Nat, X / 2 ^ lj % 2 ^ (hj + 1 - lj) = X % 2 ^ lo / 2 ^ lj % 2 ^ (hj + 1 - lj) := fun X => by
      by_cases hl : lj ≤ hj
      · have e : 2 ^ lo = 2 ^ lj * (2 ^ (hj + 1 - lj) * 2 ^ (lo - hj - 1)) := by
          rw [← Nat.pow_add, ← Nat.pow_add]; congr 1; omega
        rw [e, Nat.mod_mul_right_div_self, Nat.mod_mul_right_mod]
      · rw [show hj + 1 - lj = 0 by omega]; simp [Nat.mod_one]
    rw [key, key W, Nat.mul_add_mod, Nat.mod_mod]
  · have key : ∀ Y r : Nat, r < 2 ^ lo → (2 ^ lo * Y + r) / 2 ^ lj = Y / 2 ^ k / 2 ^ (lj - hi - 1) := fun Y r hr => by
      rw [show lj = lo + (k + (lj - hi - 1)) by omega, Nat.pow_add, ← Nat.div_div_eq_div_mul, Nat.mul_add_div (Nat.two_pow_pos lo),
        Nat.div_eq_of_lt hr, Nat.add_zero, Nat.pow_add, ← Nat.div_div_eq_div_mul]
      congr 2
      omega
    have hr : W % 2 ^ lo < 2 ^ lo := Nat.mod_lt _ (Nat.two_pow_pos lo)
    rw [key _ _ hr, Nat.mul_add_div (Nat.two_pow_pos k), Nat.div_eq_of_lt (Nat.mod_lt _ (Nat.two_pow_pos k)), Nat.add_zero]
    conv => rhs; rw [← Nat.div_add_mod W (2 ^ lo)]
    rw [key _ _ hr]

/-! ## Registers -/

@[simp] theorem State.reg_setReg (s : State) (a : Nat) (w : Word) : (s.setReg a w).reg a = w := by
  by_cases h : w = resetOf a <;> simp [State.setReg, State.reg, Tbl.set, h]

theorem State.reg_setReg_other (s : State) {a b : Nat} (h : b ≠ a) (w : Word) : (s.setReg a w).reg b = s.reg b := by
  unfold State.setReg State.reg
  simp only [Tbl.find_set_other _ h]

theorem State.regF_setRegF (s : State) (a : Nat) {hi lo : Nat} (h1 : lo ≤ hi) (h2 : hi < 64) (v : Nat) :
    (s.setRegF a hi lo v).regF a hi lo = v % 2 ^ (hi + 1 - lo) := by
  unfold State.setRegF State.regF; rw [State.reg_setReg, bits_setBits h1 h2]

theorem State.regF_setRegF_field (s : State) (a : Nat) {hi lo hj lj : Nat} (h1 : lo ≤ hi) (h2 : hi < 64)
    (hd : hj < lo ∨ hi < lj) (v : Nat) : (s.setRegF a hi lo v).regF a hj lj = s.regF a hj lj := by
  unfold State.setRegF State.regF; rw [State.reg_setReg, bits_setBits_other h1 h2 hd]

theorem State.reg_setRegF_other (s : State) {a b : Nat} (h : b ≠ a) (hi lo v : Nat) : (s.setRegF a hi lo v).reg b = s.reg b :=
  State.reg_setReg_other s h _

theorem State.regF_setRegF_other (s : State) {a b : Nat} (h : b ≠ a) (hi lo v hj lj : Nat) :
    (s.setRegF a hi lo v).regF b hj lj = s.regF b hj lj := by
  unfold State.regF; rw [State.reg_setRegF_other s h]

theorem State.reg_satReg_other (s : State) {a b : Nat} (h : b ≠ a) (hi lo v : Nat) : (s.satReg a hi lo v).reg b = s.reg b :=
  State.reg_setReg_other s h _

theorem State.reg_addReg_other (s : State) {a b : Nat} (h : b ≠ a) (hi lo v : Nat) : (s.addReg a hi lo v).reg b = s.reg b :=
  State.reg_setReg_other s h _

/-- A saturating count after it is raised. -/
theorem State.regF_satReg (s : State) (a : Nat) {hi lo : Nat} (h1 : lo ≤ hi) (h2 : hi < 64) (v : Nat) :
    (s.satReg a hi lo v).regF a hi lo = min (s.regF a hi lo + v) (2 ^ (hi + 1 - lo) - 1) := by
  unfold State.satReg State.regF satField satAdd
  rw [State.reg_setReg, bits_setBits h1 h2]
  apply Nat.mod_eq_of_lt
  have := Nat.two_pow_pos (hi + 1 - lo)
  omega

/-- A count after it is raised, modulo its width. -/
theorem State.regF_addReg (s : State) (a : Nat) {hi lo : Nat} (h1 : lo ≤ hi) (h2 : hi < 64) (v : Nat) :
    (s.addReg a hi lo v).regF a hi lo = (s.regF a hi lo + v) % 2 ^ (hi + 1 - lo) := State.regF_setRegF s a h1 h2 _

/-! ## Cells, foremen, slots and ports -/

@[simp] theorem State.cell_setCell (s : State) (c : Nat) (x : CellSt) : (s.setCell c x).cell c = x := by
  simp [State.setCell, State.cell]

theorem State.cell_setCell_other (s : State) {c d : Nat} (h : d ≠ c) (x : CellSt) : (s.setCell c x).cell d = s.cell d := by
  simp only [State.setCell, State.cell, Tbl.find_put_other h]; rfl

@[simp] theorem State.cell_modCell (s : State) (c : Nat) (f : CellSt → CellSt) : (s.modCell c f).cell c = f (s.cell c) :=
  State.cell_setCell ..

theorem State.cell_modCell_other (s : State) {c d : Nat} (h : d ≠ c) (f : CellSt → CellSt) : (s.modCell c f).cell d = s.cell d :=
  State.cell_setCell_other s h _

@[simp] theorem State.fm_setFm (s : State) (f : FmId) (x : FmSt) : (s.setFm f x).fm f = x := by simp [State.setFm, State.fm]

theorem State.fm_setFm_other (s : State) {f g : FmId} (h : fmKey g ≠ fmKey f) (x : FmSt) : (s.setFm f x).fm g = s.fm g := by
  simp only [State.setFm, State.fm, Tbl.find_put_other h]; rfl

@[simp] theorem State.slot_setSlot (s : State) (n : Nat) (x : SlotSt) : (s.setSlot n x).slot n = x := by
  simp [State.setSlot, State.slot]

theorem State.slot_setSlot_other (s : State) {n m : Nat} (h : m ≠ n) (x : SlotSt) : (s.setSlot n x).slot m = s.slot m := by
  simp [State.setSlot, State.slot, Tbl.get_put_other _ h]

@[simp] theorem State.sky_setSky (s : State) (p : Nat) (x : SkyPort) : (s.setSky p x).sky p = x := by
  simp [State.setSky, State.sky]

theorem State.sky_setSky_other (s : State) {p q : Nat} (h : q ≠ p) (x : SkyPort) : (s.setSky p x).sky q = s.sky q := by
  simp [State.setSky, State.sky, Tbl.get_put_other _ h]

@[simp] theorem State.rgn_setRgn (s : State) (r : Nat) (x : RgnSt) : (s.setRgn r x).rgn r = x := by
  simp [State.setRgn, State.rgn]

theorem State.rgn_setRgn_other (s : State) {r q : Nat} (h : q ≠ r) (x : RgnSt) : (s.setRgn r x).rgn q = s.rgn q := by
  simp [State.setRgn, State.rgn, Tbl.get_put_other _ h]

@[simp] theorem State.stream_setStream (s : State) (n : Nat) (x : StreamSt) : (s.setStream n x).stream n = x := by
  simp [State.setStream, State.stream]

theorem State.stream_setStream_other (s : State) {n m : Nat} (h : m ≠ n) (x : StreamSt) :
    (s.setStream n x).stream m = s.stream m := by
  simp [State.setStream, State.stream, Tbl.get_put_other _ h]

@[simp] theorem State.red_setRed (s : State) (n : Nat) (x : RedSt) : (s.setRed n x).red n = x := by
  simp [State.setRed, State.red]

theorem State.red_setRed_other (s : State) {n m : Nat} (h : m ≠ n) (x : RedSt) : (s.setRed n x).red m = s.red m := by
  simp [State.setRed, State.red, Tbl.get_put_other _ h]

end Sys2Proof.Machine
end

