-- ==== Sys2Proof/Laws/Foreman.lean ====
section
/-! SUPPORT. The foreman program's instructions once: fetch, and what an operation that is ready does. -/

namespace Sys2Proof.Machine

open Sys2Proof

theorem bits_extract {n : Nat} (hi lo : Nat) (w : BitVec n) : bits hi lo w = (w.extractLsb' lo (hi + 1 - lo)).toNat := by
  simp [bits, natBits, BitVec.extractLsb'_toNat, Nat.shiftRight_eq_div_pow]

theorem fmKey_inj {f g : FmId} (hf : wfFm f = true) (hg : wfFm g = true) (h : fmKey g = fmKey f) : g = f := by
  unfold wfFm at hf hg
  simp only [Bool.and_eq_true, decide_eq_true_eq] at hf hg
  unfold fmKey at h
  cases f
  cases g
  simp only at *
  have : (_ : Nat) = _ := h
  congr 1 <;> omega

theorem FmSt.s_setS (x : FmSt) {d : Nat} (h : d < 32) (v : Word) : (x.setS d v).s d = v := by
  simp [FmSt.setS, FmSt.s, h]

theorem FmSt.s_setS_other (x : FmSt) {d k : Nat} (h : k ≠ d) (v : Word) : (x.setS d v).s k = x.s k := by
  simp only [FmSt.setS, FmSt.s]
  rw [Vector.getElem?_setIfInBounds_ne (Ne.symm h)]

/-- The foreman after a fetch: the mark of a corrected error is gone. -/
def FmSt.fetched (x : FmSt) : FmSt :=
  if (eccAt x.fprogEcc x.pc).isSome then { x with fprogEcc := x.fprogEcc.filter (fun m => m.1 != x.pc) } else x

theorem FmSt.fetched_eq (x : FmSt) : x.fetched = { x with fprogEcc := x.fetched.fprogEcc } := by
  unfold FmSt.fetched
  split <;> rfl

@[simp] theorem FmSt.fetched_sregs (x : FmSt) : x.fetched.sregs = x.sregs := by rw [FmSt.fetched_eq]
@[simp] theorem FmSt.fetched_pc (x : FmSt) : x.fetched.pc = x.pc := by rw [FmSt.fetched_eq]
@[simp] theorem FmSt.fetched_done (x : FmSt) : x.fetched.done = x.done := by rw [FmSt.fetched_eq]
@[simp] theorem FmSt.fetched_events (x : FmSt) : x.fetched.events = x.events := by rw [FmSt.fetched_eq]
@[simp] theorem FmSt.fetched_heldRelease (x : FmSt) : x.fetched.heldRelease = x.heldRelease := by rw [FmSt.fetched_eq]
@[simp] theorem FmSt.fetched_prog (x : FmSt) : x.fetched.prog = x.prog := by rw [FmSt.fetched_eq]
@[simp] theorem FmSt.fetched_fprog (x : FmSt) : x.fetched.fprog = x.fprog := by rw [FmSt.fetched_eq]
@[simp] theorem FmSt.fetched_fcurve (x : FmSt) : x.fetched.fcurve = x.fcurve := by rw [FmSt.fetched_eq]
@[simp] theorem FmSt.fetched_fcurveEcc (x : FmSt) : x.fetched.fcurveEcc = x.fcurveEcc := by rw [FmSt.fetched_eq]
@[simp] theorem FmSt.fetched_configured (x : FmSt) : x.fetched.configured = x.configured := by rw [FmSt.fetched_eq]
@[simp] theorem FmSt.fetched_signals (x : FmSt) : x.fetched.signals = x.signals := by rw [FmSt.fetched_eq]
@[simp] theorem FmSt.fetched_score0 (x : FmSt) : x.fetched.score0 = x.score0 := by rw [FmSt.fetched_eq]
@[simp] theorem FmSt.fetched_score1 (x : FmSt) : x.fetched.score1 = x.score1 := by rw [FmSt.fetched_eq]
@[simp] theorem FmSt.fetched_svalid0 (x : FmSt) : x.fetched.svalid0 = x.svalid0 := by rw [FmSt.fetched_eq]
@[simp] theorem FmSt.fetched_svalid1 (x : FmSt) : x.fetched.svalid1 = x.svalid1 := by rw [FmSt.fetched_eq]
@[simp] theorem FmSt.fetched_build (x : FmSt) : x.fetched.build = x.build := by rw [FmSt.fetched_eq]
@[simp] theorem FmSt.fetched_sent (x : FmSt) : x.fetched.sent = x.sent := by rw [FmSt.fetched_eq]
@[simp] theorem FmSt.fetched_requests (x : FmSt) : x.fetched.requests = x.requests := by rw [FmSt.fetched_eq]
@[simp] theorem FmSt.fetched_grant0 (x : FmSt) : x.fetched.grant0 = x.grant0 := by rw [FmSt.fetched_eq]
@[simp] theorem FmSt.fetched_grant1 (x : FmSt) : x.fetched.grant1 = x.grant1 := by rw [FmSt.fetched_eq]
@[simp] theorem FmSt.fetched_hub (x : FmSt) : x.fetched.hub = x.hub := by rw [FmSt.fetched_eq]
@[simp] theorem FmSt.fetched_load (x : FmSt) : x.fetched.load = x.load := by rw [FmSt.fetched_eq]
@[simp] theorem FmSt.fetched_s (x : FmSt) (k : Nat) : x.fetched.s k = x.s k := by rw [FmSt.fetched_eq]; rfl

theorem State.fmnStep_ready {s : State} {f : FmId} {w : FmIns} (h : s.fmReady f w) {op : Nat} (ho : w.op = op)
    (act : State → FmSt → FmIns → State) :
    s.fmnStep f op act = act (s.setFm f (s.fm f).fetched) (s.fm f).fetched w := by
  obtain ⟨h1, h2, h3, h4, h5, h6⟩ := h
  unfold State.fmnStep FmSt.fetched
  dsimp only
  rw [if_neg (by simp only [h1]; rcases h2 with h | h <;> simp [h]), if_neg (by omega), h5, h6]
  split
  · exact absurd (by assumption) h4
  · simp [ho]

theorem State.onlyFm_setFm {s t : State} {f : FmId} (hf : wfFm f = true) (x : FmSt) (h : s.onlyFm t f) : s.onlyFm (t.setFm f x) f :=
  fun g hg hn => (State.fm_setFm_other t (fun k => hn (fmKey_inj hf hg k)) x).trans (h g hg hn)

theorem State.onlyFm_refl (s : State) (f : FmId) : s.onlyFm s f := fun _ _ _ => rfl

/-- An operation whose effect is one register (R127). -/
theorem State.fmnReg_ready {s : State} {f : FmId} {w : FmIns} (hf : wfFm f = true) (h : s.fmReady f w) {op : Nat} (ho : w.op = op)
    (v : State → FmSt → FmIns → Word) :
    s.fmWrote (s.fmnReg f op v) f w.d (v (s.setFm f (s.fm f).fetched) (s.fm f).fetched w) := by
  unfold State.fmnReg
  rw [State.fmnStep_ready h ho]
  have hd : w.d < 32 := by
    unfold FmIns.d
    rw [bits_extract]
    exact (w.extractLsb' 51 5).isLt
  have hs : ∀ k, (s.fm f).fetched.s k = (s.fm f).s k := fun k => by rw [FmSt.fetched_eq]; rfl
  refine ⟨?_, ?_, ?_, State.onlyFm_setFm hf _ (State.onlyFm_setFm hf _ (State.onlyFm_refl s f))⟩
  · rw [State.fm_setFm]
    exact FmSt.s_setS _ hd _
  · intro k hk
    rw [State.fm_setFm]
    exact (FmSt.s_setS_other _ hk _).trans (hs k)
  · rw [State.fm_setFm]
    rw [FmSt.fetched_eq]
    rfl

theorem State.fmnWent_ready {s : State} {f : FmId} (hf : wfFm f = true) (pc : Nat) (p : ProgSt) :
    s.fmWent ((s.setFm f (s.fm f).fetched).setFm f { (s.fm f).fetched with pc := pc, prog := p }) f pc p := by
  refine ⟨?_, State.onlyFm_setFm hf _ (State.onlyFm_setFm hf _ (State.onlyFm_refl s f))⟩
  rw [State.fm_setFm]
  rw [FmSt.fetched_eq]

end Sys2Proof.Machine
end

