-- ==== Sys2Proof/Laws/Frame.lean ====
section
/-! SUPPORT. What no operation but a few touches: the waiting commands, the revoked release keys, the security counter and the
lifetime counters. One lemma for each operation and each command. -/

namespace Sys2Proof.Machine
set_option linter.unusedSimpArgs false
set_option linter.unusedVariables false
set_option linter.unreachableTactic false
set_option linter.unusedTactic false
open Sys2Proof

def State.vault (s : State) : List Instr × BitVec 4 × Nat × LifeSt :=
  (s.pending, s.rng.revoked, s.rng.counter, s.book.life)

theorem vault_mk (a1 a2 a3 a4 a5 a6 a7 a8 a9 a10 a11 a12 a13 a14 a15 a16 a17 a18 a19 a20 a21 a22 a23 a24 a25 a26 a27 a28 a29 a30 a31 a32) :
    State.vault ⟨a1, a2, a3, a4, a5, a6, a7, a8, a9, a10, a11, a12, a13, a14, a15, a16, a17, a18, a19, a20, a21, a22, a23, a24, a25, a26, a27, a28, a29, a30, a31, a32⟩ = (a1, a30.revoked, a30.counter, a31.life) := by simp only [State.vault]
theorem vault_fold (s : State) : (s.pending, s.rng.revoked, s.rng.counter, s.book.life) = s.vault := by simp only [State.vault]
theorem foldl_vault {β : Type} (g : State → β → State) (h : ∀ s x, (g s x).vault = s.vault) :
    ∀ (l : List β) (s : State), (l.foldl g s).vault = s.vault := by
  intro l
  induction l with
  | nil => intro s; rfl
  | cons x t ih => intro s; simp only [List.foldl_cons, ih, h]
theorem foldl1_vault {β γ : Type} (g : State × γ → β → State × γ) (h : ∀ p x, (g p x).1.vault = p.1.vault) :
    ∀ (l : List β) (p : State × γ), (l.foldl g p).1.vault = p.1.vault := by
  intro l
  induction l with
  | nil => intro s; rfl
  | cons x t ih => intro s; simp only [List.foldl_cons, ih, h]

theorem setBank_revoked (r : RngSt) (k b) : (r.setBank k b).revoked = r.revoked := by unfold RngSt.setBank; split <;> rfl
theorem setBank_counter (r : RngSt) (k b) : (r.setBank k b).counter = r.counter := by unfold RngSt.setBank; split <;> rfl
theorem setOwner_revoked (r : RngSt) (k b) : (r.setOwner k b).revoked = r.revoked := rfl
theorem setOwner_counter (r : RngSt) (k b) : (r.setOwner k b).counter = r.counter := rfl
theorem State.setReg_vault : ∀ a0 a1 a2, (State.setReg a0 a1 a2).vault = a0.vault := by
  intros; unfold State.setReg
  simp only [↓vault_mk, ↓vault_fold]

theorem State.setRegF_vault : ∀ a0 a1 a2 a3 a4, (State.setRegF a0 a1 a2 a3 a4).vault = a0.vault := by
  intros; unfold State.setRegF
  simp only [↓State.setReg_vault]

theorem State.satReg_vault : ∀ a0 a1 a2 a3 a4, (State.satReg a0 a1 a2 a3 a4).vault = a0.vault := by
  intros; unfold State.satReg
  simp only [↓State.setReg_vault]

theorem State.addReg_vault : ∀ a0 a1 a2 a3 a4, (State.addReg a0 a1 a2 a3 a4).vault = a0.vault := by
  intros; unfold State.addReg
  simp only [↓State.setRegF_vault]

theorem State.clearRegs_vault : ∀ a0 a1, (State.clearRegs a0 a1).vault = a0.vault := by
  intros; unfold State.clearRegs
  simp only [↓vault_mk, ↓vault_fold]

theorem State.setCell_vault : ∀ a0 a1 a2, (State.setCell a0 a1 a2).vault = a0.vault := by
  intros; unfold State.setCell
  simp only [↓vault_mk, ↓vault_fold]

theorem State.modCell_vault : ∀ a0 a1 a2, (State.modCell a0 a1 a2).vault = a0.vault := by
  intros; unfold State.modCell
  simp only [↓State.setCell_vault]

theorem State.setFm_vault : ∀ a0 a1 a2, (State.setFm a0 a1 a2).vault = a0.vault := by
  intros; unfold State.setFm
  simp only [↓vault_mk, ↓vault_fold]

theorem State.modFm_vault : ∀ a0 a1 a2, (State.modFm a0 a1 a2).vault = a0.vault := by
  intros; unfold State.modFm
  simp only [↓State.setFm_vault]

theorem State.setSlot_vault : ∀ a0 a1 a2, (State.setSlot a0 a1 a2).vault = a0.vault := by
  intros; unfold State.setSlot
  simp only [↓vault_mk, ↓vault_fold]

theorem State.modSlot_vault : ∀ a0 a1 a2, (State.modSlot a0 a1 a2).vault = a0.vault := by
  intros; unfold State.modSlot
  simp only [↓State.setSlot_vault]

theorem State.setRouter_vault : ∀ a0 a1 a2, (State.setRouter a0 a1 a2).vault = a0.vault := by
  intros; unfold State.setRouter
  simp only [↓vault_mk, ↓vault_fold]

theorem State.modRouter_vault : ∀ a0 a1 a2, (State.modRouter a0 a1 a2).vault = a0.vault := by
  intros; unfold State.modRouter
  simp only [↓State.setRouter_vault]

theorem State.setRgn_vault : ∀ a0 a1 a2, (State.setRgn a0 a1 a2).vault = a0.vault := by
  intros; unfold State.setRgn
  simp only [↓vault_mk, ↓vault_fold]

theorem State.modRgn_vault : ∀ a0 a1 a2, (State.modRgn a0 a1 a2).vault = a0.vault := by
  intros; unfold State.modRgn
  simp only [↓State.setRgn_vault]

theorem State.setSky_vault : ∀ a0 a1 a2, (State.setSky a0 a1 a2).vault = a0.vault := by
  intros; unfold State.setSky
  simp only [↓vault_mk, ↓vault_fold]

theorem State.modSky_vault : ∀ a0 a1 a2, (State.modSky a0 a1 a2).vault = a0.vault := by
  intros; unfold State.modSky
  simp only [↓State.setSky_vault]

theorem State.setStream_vault : ∀ a0 a1 a2, (State.setStream a0 a1 a2).vault = a0.vault := by
  intros; unfold State.setStream
  simp only [↓vault_mk, ↓vault_fold]

theorem State.modStream_vault : ∀ a0 a1 a2, (State.modStream a0 a1 a2).vault = a0.vault := by
  intros; unfold State.modStream
  simp only [↓State.setStream_vault]

theorem State.setRed_vault : ∀ a0 a1 a2, (State.setRed a0 a1 a2).vault = a0.vault := by
  intros; unfold State.setRed
  simp only [↓vault_mk, ↓vault_fold]

theorem State.modRed_vault : ∀ a0 a1 a2, (State.modRed a0 a1 a2).vault = a0.vault := by
  intros; unfold State.modRed
  simp only [↓State.setRed_vault]

theorem State.send_vault : ∀ a0 a1, (State.send a0 a1).vault = a0.vault := by
  intros; unfold State.send
  simp only [↓vault_mk, ↓vault_fold]

theorem State.sendAll_vault : ∀ a0 a1, (State.sendAll a0 a1).vault = a0.vault := by
  intros; unfold State.sendAll
  simp only [↓vault_mk, ↓vault_fold]

theorem State.deliver_vault : ∀ a0 a1, (State.deliver a0 a1).vault = a0.vault := by
  intros; unfold State.deliver
  simp only [↓vault_mk, ↓vault_fold]

theorem State.emit_vault : ∀ a0 a1, (State.emit a0 a1).vault = a0.vault := by
  intros; unfold State.emit
  simp only [↓vault_mk, ↓vault_fold]

theorem State.fresh_vault : ∀ a0, (State.fresh a0).2.vault = a0.vault := by
  intros; unfold State.fresh
  simp only [↓vault_mk, ↓vault_fold]

theorem State.raise_vault : ∀ a0 a1 a2 a3 a4 a5, (State.raise a0 a1 a2 a3 a4 a5).vault = a0.vault := by
  intros; unfold State.raise
  simp only [↓State.send_vault]

theorem State.reject_vault : ∀ a0 a1 a2, (State.reject a0 a1 a2).vault = a0.vault := by
  intros; unfold State.reject
  simp only [↓State.raise_vault]

theorem State.raiseCell_vault : ∀ a0 a1 a2 a3, (State.raiseCell a0 a1 a2 a3).vault = a0.vault := by
  intros; unfold State.raiseCell
  simp only [↓State.raise_vault]

theorem State.raiseRgn_vault : ∀ a0 a1 a2 a3 a4, (State.raiseRgn a0 a1 a2 a3 a4).vault = a0.vault := by
  intros; unfold State.raiseRgn
  simp only [↓State.raise_vault]

theorem State.freeCount_vault : ∀ a0 a1 a2 a3, (State.freeCount a0 a1 a2 a3).vault = a0.vault := by
  intros; unfold State.freeCount
  simp only [↓State.fresh_vault, ↓State.setRegF_vault]

theorem State.sendSky_vault : ∀ a0 a1 a2 a3 a4 a5, (State.sendSky a0 a1 a2 a3 a4 a5).vault = a0.vault := by
  intros; unfold State.sendSky
  simp only [↓apply_ite State.vault, ite_self, ↓State.emit_vault, ↓State.setSky_vault, ↓State.addReg_vault]

theorem State.freeBytes_vault : ∀ a0 a1, (State.freeBytes a0 a1).2.vault = a0.vault := by
  intros; unfold State.freeBytes
  simp only [↓State.fresh_vault]

theorem State.sendCtrl_vault : ∀ a0 a1 a2, (State.sendCtrl a0 a1 a2).vault = a0.vault := by
  intros; unfold State.sendCtrl
  simp only [↓apply_ite State.vault, ite_self, ↓State.emit_vault, ↓State.freeBytes_vault, ↓State.sendSky_vault]

theorem State.sendTrail_vault : ∀ a0 a1 a2 a3, (State.sendTrail a0 a1 a2 a3).vault = a0.vault := by
  intros; unfold State.sendTrail
  repeat' first | with_reducible rfl | simp only [↓apply_ite State.vault, ite_self, ↓State.emit_vault, ↓State.freeBytes_vault, ↓State.sendSky_vault, ↓State.modSky_vault] | split

theorem State.sendMesh_vault : ∀ a0 a1, (State.sendMesh a0 a1).vault = a0.vault := by
  intros; unfold State.sendMesh
  simp only [↓State.setSky_vault, ↓State.sendSky_vault, ↓State.sendAll_vault]

theorem State.sendTileFlit_vault : ∀ a0 a1, (State.sendTileFlit a0 a1).vault = a0.vault := by
  intros; unfold State.sendTileFlit
  repeat' first | with_reducible rfl | simp only [↓apply_ite State.vault, ite_self, ↓State.sendSky_vault, ↓State.setSky_vault] | split

theorem State.drainSky_vault : ∀ n s p due, (State.drainSky n s p due).vault = s.vault := by
  intro n
  induction n with
  | zero => intros; rfl
  | succ n ih =>
    intros; unfold State.drainSky
    repeat' first | with_reducible rfl | simp only [↓ih, ↓State.sendMesh_vault, ↓State.sendTileFlit_vault, ↓State.freeCount_vault] | split

theorem State.drainPort_vault : ∀ a0 a1 a2, (State.drainPort a0 a1 a2).vault = a0.vault := by
  intros; unfold State.drainPort
  simp only [↓State.drainSky_vault]

theorem State.toStation_vault : ∀ a0 a1 a2 a3, (State.toStation a0 a1 a2 a3).vault = a0.vault := by
  intros; unfold State.toStation
  simp only [↓apply_ite State.vault, ite_self, ↓State.send_vault, ↓State.raise_vault, ↓State.satReg_vault, ↓State.setSky_vault, ↓State.drainPort_vault, ↓State.modSky_vault]

theorem State.toTileQueue_vault : ∀ a0 a1 a2, (State.toTileQueue a0 a1 a2).vault = a0.vault := by
  intros; unfold State.toTileQueue
  simp only [↓State.drainPort_vault, ↓State.modSky_vault]

theorem State.setEthPort_vault : ∀ a0 a1 a2, (State.setEthPort a0 a1 a2).vault = a0.vault := by
  intros; unfold State.setEthPort
  simp only [↓vault_mk, ↓vault_fold]

theorem State.countRx_vault : ∀ a0 a1, (State.countRx a0 a1).vault = a0.vault := by
  intros; unfold State.countRx
  simp only [↓State.addReg_vault]

theorem State.sendEth_vault : ∀ a0 a1 a2, (State.sendEth a0 a1 a2).vault = a0.vault := by
  intros; unfold State.sendEth
  simp only [↓State.addReg_vault, ↓State.emit_vault]

theorem State.buffer_vault : ∀ a0 a1 a2 a3, (State.buffer a0 a1 a2 a3).vault = a0.vault := by
  intros; unfold State.buffer
  simp only [↓apply_ite State.vault, ite_self, ↓State.sendEth_vault, ↓State.setEthPort_vault]

theorem State.dropOther_vault : ∀ a0 a1, (State.dropOther a0 a1).vault = a0.vault := by
  intros; unfold State.dropOther
  simp only [↓State.satReg_vault]

theorem execNeighborRequest_vault : ∀ a0 a1 a2 a3 a4, ∀ t, execNeighborRequest a0 a1 a2 a3 a4 = .next t → t.vault = a4.vault := by
  intros a0 a1 a2 a3 a4 t h; unfold execNeighborRequest at h; cases h
  simp only [↓apply_ite State.vault, ite_self, ↓State.countRx_vault, ↓State.sendEth_vault, ↓State.dropOther_vault]

theorem execLldpTransmitTimer_vault : ∀ a0, ∀ t, execLldpTransmitTimer a0 = .next t → t.vault = a0.vault := by
  intros a0 t h; unfold execLldpTransmitTimer at h; cases h
  repeat' first | with_reducible rfl | intro _ | simp only [↓apply_ite State.vault, ite_self, ↓foldl_vault, ↓State.sendEth_vault] | split | refine (foldl_vault _ ?_ _ _).trans ?_ | refine (foldl1_vault _ ?_ _ _).trans ?_

theorem execLldpReceived_vault : ∀ a0 a1 a2 a3, ∀ t, execLldpReceived a0 a1 a2 a3 = .next t → t.vault = a3.vault := by
  intros a0 a1 a2 a3 t h; unfold execLldpReceived at h; cases h
  simp only [↓apply_ite State.vault, ite_self, ↓State.setReg_vault, ↓State.countRx_vault]

theorem execPauseReceived_vault : ∀ a0 a1 a2 a3 a4, ∀ t, execPauseReceived a0 a1 a2 a3 a4 = .next t → t.vault = a4.vault := by
  intros a0 a1 a2 a3 a4 t h; unfold execPauseReceived at h; cases h
  simp only [↓apply_ite State.vault, ite_self, ↓State.countRx_vault, ↓State.buffer_vault, ↓State.setEthPort_vault]

theorem execEthLinkUp_vault : ∀ a0 a1, ∀ t, execEthLinkUp a0 a1 = .next t → t.vault = a1.vault := by
  intros a0 a1 t h; unfold execEthLinkUp at h; cases h
  simp only [↓apply_ite State.vault, ite_self, ↓State.setEthPort_vault]

theorem State.sendAnswer_vault : ∀ a0 a1 a2, (State.sendAnswer a0 a1 a2).vault = a0.vault := by
  intros; unfold State.sendAnswer
  repeat' first | with_reducible rfl | simp only [↓State.addReg_vault, ↓State.emit_vault, ↓State.sendEth_vault] | split

theorem State.answer_vault : ∀ a0 a1 a2 a3, (State.answer a0 a1 a2 a3).vault = a0.vault := by
  intros; unfold State.answer
  simp only [↓State.sendAnswer_vault]

theorem State.retryTime_vault : ∀ a0, (State.retryTime a0).2.vault = a0.vault := by
  intros; unfold State.retryTime
  repeat' first | with_reducible rfl | simp only [↓State.fresh_vault] | split

theorem State.answerNotReady_vault : ∀ a0 a1 a2, (State.answerNotReady a0 a1 a2).vault = a0.vault := by
  intros; unfold State.answerNotReady
  simp only [↓State.retryTime_vault, ↓State.answer_vault]

theorem State.setSession_vault : ∀ a0 a1 a2, (State.setSession a0 a1 a2).vault = a0.vault := by
  intros; unfold State.setSession
  simp only [↓vault_mk, ↓vault_fold]

theorem State.setWin_vault : ∀ a0 a1 a2, (State.setWin a0 a1 a2).vault = a0.vault := by
  intros; unfold State.setWin
  simp only [↓vault_mk, ↓vault_fold]

theorem State.closeWin_vault : ∀ a0 a1, (State.closeWin a0 a1).vault = a0.vault := by
  intros; unfold State.closeWin
  simp only [↓State.setWin_vault]

theorem State.closeSession_vault : ∀ a0 a1, (State.closeSession a0 a1).vault = a0.vault := by
  intros; unfold State.closeSession
  repeat' first | with_reducible rfl | intro _ | simp only [↓vault_mk, ↓vault_fold, ↓apply_ite State.vault, ite_self, ↓foldl_vault, ↓State.closeWin_vault] | split | refine (foldl_vault _ ?_ _ _).trans ?_ | refine (foldl1_vault _ ?_ _ _).trans ?_

theorem execSessionIdleTimeout_vault : ∀ a0 a1, ∀ t, execSessionIdleTimeout a0 a1 = .next t → t.vault = a1.vault := by
  intros a0 a1 t h; unfold execSessionIdleTimeout at h; cases h
  simp only [↓apply_ite State.vault, ite_self, ↓State.closeSession_vault]

theorem State.finish_vault : ∀ a0 a1 a2 a3, (State.finish a0 a1 a2 a3).vault = a0.vault := by
  intros; unfold State.finish
  repeat' first | with_reducible rfl | simp only [↓State.setSession_vault, ↓State.sendAnswer_vault] | split

theorem State.kctOpen_vault : ∀ a0 a1 a2, (State.kctOpen a0 a1 a2).vault = a0.vault := by
  intros; unfold State.kctOpen
  repeat' first | with_reducible rfl | simp only [↓State.sendAnswer_vault, ↓State.setSession_vault, ↓State.answer_vault] | split

theorem State.kctClose_vault : ∀ a0 a1 a2, (State.kctClose a0 a1 a2).vault = a0.vault := by
  intros; unfold State.kctClose
  simp only [↓State.answer_vault, ↓State.closeSession_vault]

theorem State.setQp_vault : ∀ a0 a1 a2, (State.setQp a0 a1 a2).vault = a0.vault := by
  intros; unfold State.setQp
  simp only [↓vault_mk, ↓vault_fold]

theorem State.roceFrame_vault (s q act) (h : ∀ t, (act t).vault = t.vault) : (State.roceFrame s q act).vault = s.vault := by
  unfold State.roceFrame
  repeat' first | with_reducible rfl | simp only [↓State.countRx_vault, ↓State.satReg_vault, ↓h] | split

theorem execRoceConnect_vault : ∀ a0 a1 a2, ∀ t, execRoceConnect a0 a1 a2 = .next t → t.vault = a2.vault := by
  intros a0 a1 a2 t h; unfold execRoceConnect at h; cases h
  repeat' first | with_reducible rfl | intro _ | simp only [↓apply_ite State.vault, ite_self, ↓State.sendEth_vault, ↓State.satReg_vault, ↓State.setQp_vault] | refine (State.roceFrame_vault _ _ _ ?_).trans ?_ | split

theorem execRoceDisconnect_vault : ∀ a0 a1, ∀ t, execRoceDisconnect a0 a1 = .next t → t.vault = a1.vault := by
  intros a0 a1 t h; unfold execRoceDisconnect at h; cases h
  simp only [↓vault_mk, ↓vault_fold]

theorem execEcnCeReceived_vault : ∀ a0 a1 a2, ∀ t, execEcnCeReceived a0 a1 a2 = .next t → t.vault = a2.vault := by
  intros a0 a1 a2 t h; unfold execEcnCeReceived at h; cases h
  repeat' first | with_reducible rfl | intro _ | simp only [↓apply_ite State.vault, ite_self, ↓State.sendEth_vault, ↓State.setQp_vault] | refine (State.roceFrame_vault _ _ _ ?_).trans ?_ | split

theorem execCnpReceived_vault : ∀ a0 a1, ∀ t, execCnpReceived a0 a1 = .next t → t.vault = a1.vault := by
  intros a0 a1 t h; unfold execCnpReceived at h; cases h
  repeat' first | with_reducible rfl | intro _ | simp only [↓apply_ite State.vault, ite_self, ↓State.setQp_vault] | refine (State.roceFrame_vault _ _ _ ?_).trans ?_ | split

theorem execRateIncreaseTimer_vault : ∀ a0 a1, ∀ t, execRateIncreaseTimer a0 a1 = .next t → t.vault = a1.vault := by
  intros a0 a1 t h; unfold execRateIncreaseTimer at h; cases h
  repeat' first | with_reducible rfl | simp only [↓State.setQp_vault] | split

theorem State.setCxl_vault : ∀ a0 a1 a2, (State.setCxl a0 a1 a2).vault = a0.vault := by
  intros; unfold State.setCxl
  simp only [↓vault_mk, ↓vault_fold]

theorem State.countBoard_vault : ∀ a0 a1, (State.countBoard a0 a1).vault = a0.vault := by
  intros; unfold State.countBoard
  simp only [↓apply_ite State.vault, ite_self, ↓State.satReg_vault]

theorem State.setObj_vault : ∀ a0 a1 a2, (State.setObj a0 a1 a2).vault = a0.vault := by
  intros; unfold State.setObj
  simp only [↓vault_mk, ↓vault_fold]

theorem State.modObj_vault : ∀ a0 a1 a2, (State.modObj a0 a1 a2).vault = a0.vault := by
  intros; unfold State.modObj
  repeat' first | with_reducible rfl | simp only [↓State.setObj_vault] | split

theorem State.delObj_vault : ∀ a0 a1, (State.delObj a0 a1).vault = a0.vault := by
  intros; unfold State.delObj
  simp only [↓vault_mk, ↓vault_fold]

theorem State.putExtentByte_vault : ∀ a0 a1 a2 a3 a4 a5, (State.putExtentByte a0 a1 a2 a3 a4 a5).vault = a0.vault := by
  intros; unfold State.putExtentByte
  repeat' first | with_reducible rfl | simp only [↓vault_mk, ↓vault_fold, ↓State.modCell_vault] | split

theorem putExtentBytes_vault (h o b) : ∀ l s a, (putExtentBytes h o b s a l).vault = s.vault := by
  intro l
  induction l with
  | nil => intros; rfl
  | cons x t ih => intros; unfold putExtentBytes; simp only [↓ih, ↓State.putExtentByte_vault]

theorem State.objWrite_vault : ∀ a0 a1 a2 a3 a4 a5, (State.objWrite a0 a1 a2 a3 a4 a5).vault = a0.vault := by
  intros; unfold State.objWrite
  simp only [↓putExtentBytes_vault]

theorem State.copyPool_vault : ∀ a0 a1 a2, (State.copyPool a0 a1 a2).vault = a0.vault := by
  intros; unfold State.copyPool
  simp only [↓vault_mk, ↓vault_fold]

theorem State.dirtyExtent_vault : ∀ a0 a1 a2, (State.dirtyExtent a0 a1 a2).vault = a0.vault := by
  intros; unfold State.dirtyExtent
  repeat' first | with_reducible rfl | simp only [↓apply_ite State.vault, ite_self, ↓State.setObj_vault, ↓State.copyPool_vault] | split

theorem State.objWriteV_vault : ∀ a0 a1 a2 a3, (State.objWriteV a0 a1 a2 a3).vault = a0.vault := by
  intros; unfold State.objWriteV
  repeat' first | with_reducible rfl | intro _ | simp only [↓apply_ite State.vault, ite_self, ↓foldl_vault, ↓State.dirtyExtent_vault, ↓State.putExtentByte_vault] | split | refine (foldl_vault _ ?_ _ _).trans ?_ | refine (foldl1_vault _ ?_ _ _).trans ?_

theorem State.useObj_vault : ∀ a0 a1, (State.useObj a0 a1).vault = a0.vault := by
  intros; unfold State.useObj
  simp only [↓State.modObj_vault]

theorem State.copyExtent_vault : ∀ a0 a1 a2 a3 a4 a5, (State.copyExtent a0 a1 a2 a3 a4 a5).vault = a0.vault := by
  intros; unfold State.copyExtent
  repeat' first | with_reducible rfl | intro _ | simp only [↓vault_mk, ↓vault_fold, ↓foldl_vault, ↓foldl1_vault, ↓State.modCell_vault] | split | refine (foldl_vault _ ?_ _ _).trans ?_ | refine (foldl1_vault _ ?_ _ _).trans ?_

theorem State.loseExtents_vault : ∀ a0 a1 a2, (State.loseExtents a0 a1 a2).vault = a0.vault := by
  intros; unfold State.loseExtents
  repeat' first | with_reducible rfl | intro _ | simp only [↓vault_mk, ↓vault_fold, ↓foldl_vault, ↓foldl1_vault, ↓State.fresh_vault] | split | refine (foldl_vault _ ?_ _ _).trans ?_ | refine (foldl1_vault _ ?_ _ _).trans ?_

theorem State.loseT0_vault : ∀ a0 a1, (State.loseT0 a0 a1).vault = a0.vault := by
  intros; unfold State.loseT0
  repeat' first | with_reducible rfl | intro _ | simp only [↓foldl_vault, ↓foldl1_vault, ↓State.fresh_vault, ↓State.modCell_vault] | split | refine (foldl_vault _ ?_ _ _).trans ?_ | refine (foldl1_vault _ ?_ _ _).trans ?_

theorem State.endCmd_vault : ∀ a0 a1, (State.endCmd a0 a1).vault = a0.vault := by
  intros; unfold State.endCmd
  simp only [↓apply_ite State.vault, ite_self, ↓State.setRegF_vault]

theorem State.endCmdOpen_vault : ∀ a0, (State.endCmdOpen a0).vault = a0.vault := by
  intros; unfold State.endCmdOpen
  simp only [↓State.fresh_vault, ↓State.endCmd_vault]

theorem State.yrdRaise_vault : ∀ a0 a1 a2 a3, (State.yrdRaise a0 a1 a2 a3).vault = a0.vault := by
  intros; unfold State.yrdRaise
  simp only [↓State.raise_vault, ↓State.setReg_vault]

theorem State.setAllocs_vault : ∀ a0 a1, (State.setAllocs a0 a1).vault = a0.vault := by
  intros; unfold State.setAllocs
  simp only [↓vault_mk, ↓vault_fold]

theorem State.setTierFree_vault : ∀ a0 a1 a2, (State.setTierFree a0 a1 a2).vault = a0.vault := by
  intros; unfold State.setTierFree
  simp only [↓vault_mk, ↓vault_fold]

theorem State.finishCreate_vault : ∀ a0 a1, (State.finishCreate a0 a1).vault = a0.vault := by
  intros; unfold State.finishCreate
  simp only [↓apply_ite State.vault, ite_self, ↓State.setAllocs_vault, ↓State.loseExtents_vault, ↓State.setObj_vault, ↓State.endCmd_vault]

theorem State.serve_vault : ∀ a0 a1, (State.serve a0 a1).vault = a0.vault := by
  intros; unfold State.serve
  repeat' first | with_reducible rfl | intro _ | simp only [↓apply_ite State.vault, ite_self, ↓foldl_vault, ↓foldl1_vault, ↓State.setAllocs_vault, ↓State.setTierFree_vault, ↓State.finishCreate_vault] | split | refine (foldl_vault _ ?_ _ _).trans ?_ | refine (foldl1_vault _ ?_ _ _).trans ?_

theorem State.freeExtents_vault : ∀ a0 a1 a2, (State.freeExtents a0 a1 a2).vault = a0.vault := by
  intros; unfold State.freeExtents
  simp only [↓apply_ite State.vault, ite_self, ↓State.serve_vault, ↓State.setTierFree_vault]

theorem State.evictFor_vault : ∀ n s t, (State.evictFor n s t).vault = s.vault := by
  intro n
  induction n with
  | zero => intros; rfl
  | succ n ih =>
    intros; unfold State.evictFor
    repeat' first | with_reducible rfl | simp only [↓ih, ↓State.serve_vault, ↓State.setAllocs_vault, ↓State.addReg_vault, ↓State.setObj_vault] | split

theorem State.buryObj_vault : ∀ a0 a1, (State.buryObj a0 a1).vault = a0.vault := by
  intros; unfold State.buryObj
  repeat' first | with_reducible rfl | simp only [↓vault_mk, ↓vault_fold, ↓apply_ite State.vault, ite_self, ↓State.freeExtents_vault, ↓State.delObj_vault] | split

theorem State.failAlloc_vault : ∀ a0 a1, (State.failAlloc a0 a1).vault = a0.vault := by
  intros; unfold State.failAlloc
  repeat' first | with_reducible rfl | simp only [↓vault_mk, ↓vault_fold, ↓apply_ite State.vault, ite_self, ↓State.setAllocs_vault, ↓State.yrdRaise_vault, ↓State.satReg_vault, ↓State.modObj_vault, ↓State.endCmd_vault, ↓State.buryObj_vault, ↓State.freeExtents_vault] | split

theorem State.startAlloc_vault : ∀ a0 a1, (State.startAlloc a0 a1).vault = a0.vault := by
  intros; unfold State.startAlloc
  simp only [↓apply_ite State.vault, ite_self, ↓State.setAllocs_vault, ↓State.failAlloc_vault, ↓State.serve_vault, ↓State.evictFor_vault, ↓State.satReg_vault]

theorem State.startMove_vault : ∀ a0 a1 a2 a3 a4 a5 a6, (State.startMove a0 a1 a2 a3 a4 a5 a6).vault = a0.vault := by
  intros; unfold State.startMove
  simp only [↓apply_ite State.vault, ite_self, ↓State.startAlloc_vault, ↓State.setObj_vault]

theorem State.moveObj_vault : ∀ a0 a1 a2 a3 a4 a5, (State.moveObj a0 a1 a2 a3 a4 a5).1.vault = a0.vault := by
  intros; unfold State.moveObj
  repeat' first | with_reducible rfl | simp only [↓vault_mk, ↓vault_fold, ↓apply_ite State.vault, ite_self, ↓apply_ite Prod.fst, ↓State.startMove_vault] | split

theorem State.pinObj_vault : ∀ a0 a1, (State.pinObj a0 a1).1.vault = a0.vault := by
  intros; unfold State.pinObj
  repeat' first | with_reducible rfl | simp only [↓apply_ite State.vault, ite_self, ↓apply_ite Prod.fst, ↓State.setObj_vault] | split

theorem State.unpinObj_vault : ∀ a0 a1, (State.unpinObj a0 a1).1.vault = a0.vault := by
  intros; unfold State.unpinObj
  repeat' first | with_reducible rfl | simp only [↓apply_ite State.vault, ite_self, ↓apply_ite Prod.fst, ↓State.setObj_vault] | split

theorem State.destroyObj_vault : ∀ a0 a1, (State.destroyObj a0 a1).1.vault = a0.vault := by
  intros; unfold State.destroyObj
  repeat' first | with_reducible rfl | simp only [↓apply_ite State.vault, ite_self, ↓apply_ite Prod.fst, ↓State.freeExtents_vault, ↓State.delObj_vault] | split

theorem State.createObj_vault : ∀ a0 a1 a2 a3 a4, (State.createObj a0 a1 a2 a3 a4).1.vault = a0.vault := by
  intros; unfold State.createObj
  simp only [↓apply_ite State.vault, ite_self, ↓apply_ite Prod.fst, ↓State.startAlloc_vault]

theorem State.yrdCommand_vault : ∀ a0 a1, (State.yrdCommand a0 a1).1.vault = a0.vault := by
  intros; unfold State.yrdCommand
  repeat' first | with_reducible rfl | simp only [↓apply_ite State.vault, ite_self, ↓apply_ite Prod.fst, ↓State.reject_vault, ↓State.setReg_vault, ↓State.createObj_vault, ↓State.destroyObj_vault, ↓State.moveObj_vault, ↓State.pinObj_vault, ↓State.unpinObj_vault, ↓State.endCmd_vault] | split

theorem State.startQueued_vault : ∀ a0 a1, (State.startQueued a0 a1).vault = a0.vault := by
  intros; unfold State.startQueued
  repeat' first | with_reducible rfl | simp only [↓vault_mk, ↓vault_fold, ↓apply_ite State.vault, ite_self, ↓State.moveObj_vault, ↓State.endCmd_vault] | split

theorem State.endMove_vault : ∀ a0 a1, (State.endMove a0 a1).vault = a0.vault := by
  intros; unfold State.endMove
  simp only [↓apply_ite State.vault, ite_self, ↓State.setAllocs_vault, ↓State.modObj_vault, ↓State.addReg_vault, ↓State.endCmd_vault, ↓State.startQueued_vault, ↓State.buryObj_vault]

theorem takeBack_vault : ∀ a0 a1 a2, (takeBack a0 a1 a2).1.vault = a0.vault := by
  intros; unfold takeBack
  repeat' first | with_reducible rfl | intro _ | simp only [↓apply_ite State.vault, ite_self, ↓apply_ite Prod.fst, ↓foldl_vault, ↓foldl1_vault, ↓State.setTierFree_vault, ↓State.setAllocs_vault] | split | refine (foldl_vault _ ?_ _ _).trans ?_ | refine (foldl1_vault _ ?_ _ _).trans ?_

theorem State.abandonMove_vault : ∀ a0 a1, (State.abandonMove a0 a1).vault = a0.vault := by
  intros; unfold State.abandonMove
  repeat' first | with_reducible rfl | intro _ | simp only [↓apply_ite State.vault, ite_self, ↓foldl_vault, ↓foldl1_vault, ↓State.copyExtent_vault, ↓takeBack_vault, ↓State.setAllocs_vault, ↓State.modObj_vault, ↓State.endCmdOpen_vault, ↓State.freeExtents_vault, ↓State.startQueued_vault, ↓State.buryObj_vault, ↓State.evictFor_vault] | split | refine (foldl_vault _ ?_ _ _).trans ?_ | refine (foldl1_vault _ ?_ _ _).trans ?_

theorem State.extentCopyDone_vault : ∀ a0 a1 a2, (State.extentCopyDone a0 a1 a2).vault = a0.vault := by
  intros; unfold State.extentCopyDone
  repeat' first | with_reducible rfl | simp only [↓apply_ite State.vault, ite_self, ↓State.abandonMove_vault, ↓State.yrdRaise_vault, ↓State.countBoard_vault, ↓State.copyExtent_vault, ↓State.setAllocs_vault, ↓State.freeExtents_vault, ↓State.endMove_vault] | split

theorem State.allocationRetry_vault : ∀ a0, (State.allocationRetry a0).vault = a0.vault := by
  intros; unfold State.allocationRetry
  repeat' first | with_reducible rfl | intro _ | simp only [↓foldl_vault, ↓State.evictFor_vault, ↓State.serve_vault] | split | refine (foldl_vault _ ?_ _ _).trans ?_ | refine (foldl1_vault _ ?_ _ _).trans ?_

theorem State.allocationLimit_vault : ∀ a0 a1, (State.allocationLimit a0 a1).vault = a0.vault := by
  intros; unfold State.allocationLimit
  repeat' first | with_reducible rfl | simp only [↓State.startQueued_vault, ↓State.failAlloc_vault] | split

theorem State.loseT0Cells_vault : ∀ a0 a1, (State.loseT0Cells a0 a1).vault = a0.vault := by
  intros; unfold State.loseT0Cells
  repeat' first | with_reducible rfl | intro _ | simp only [↓apply_ite State.vault, ite_self, ↓foldl_vault, ↓foldl1_vault, ↓State.fresh_vault, ↓State.modCell_vault, ↓State.yrdRaise_vault, ↓State.modObj_vault] | split | refine (foldl_vault _ ?_ _ _).trans ?_ | refine (foldl1_vault _ ?_ _ _).trans ?_

theorem State.damage_vault : ∀ a0 a1, (State.damage a0 a1).vault = a0.vault := by
  intros; unfold State.damage
  repeat' first | with_reducible rfl | intro _ | simp only [↓apply_ite State.vault, ite_self, ↓foldl_vault, ↓foldl1_vault, ↓State.modObj_vault] | split | refine (foldl_vault _ ?_ _ _).trans ?_ | refine (foldl1_vault _ ?_ _ _).trans ?_

theorem State.bulkCtrl_vault : ∀ a0 a1 a2 a3, (State.bulkCtrl a0 a1 a2 a3).1.vault = a0.vault := by
  intros; unfold State.bulkCtrl
  simp only [↓apply_ite State.vault, ite_self, ↓apply_ite Prod.fst, ↓State.setRegF_vault, ↓State.closeWin_vault, ↓State.reject_vault, ↓State.fresh_vault, ↓State.setWin_vault]

theorem State.rowWrite_vault : ∀ a0 a1 a2, (State.rowWrite a0 a1 a2).vault = a0.vault := by
  intros; unfold State.rowWrite
  simp only [↓vault_mk, ↓vault_fold, ↓apply_ite State.vault, ite_self, ↓State.useObj_vault, ↓State.objWriteV_vault]

theorem State.rejectRow_vault : ∀ a0 a1 a2 a3, (State.rejectRow a0 a1 a2 a3).vault = a0.vault := by
  intros; unfold State.rejectRow
  repeat' first | with_reducible rfl | simp only [↓State.raise_vault] | split

theorem State.streamWrite_vault : ∀ a0 a1 a2 a3, (State.streamWrite a0 a1 a2 a3).vault = a0.vault := by
  intros; unfold State.streamWrite
  repeat' first | with_reducible rfl | intro _ | simp only [↓foldl_vault, ↓foldl1_vault, ↓State.rowWrite_vault] | split | refine (foldl_vault _ ?_ _ _).trans ?_ | refine (foldl1_vault _ ?_ _ _).trans ?_

theorem State.useWin_vault : ∀ a0 a1, (State.useWin a0 a1).vault = a0.vault := by
  intros; unfold State.useWin
  simp only [↓apply_ite State.vault, ite_self, ↓State.useObj_vault]

theorem State.bulkRefuse_vault : ∀ a0 a1 a2 a3 a4, (State.bulkRefuse a0 a1 a2 a3 a4).vault = a0.vault := by
  intros; unfold State.bulkRefuse
  simp only [↓apply_ite State.vault, ite_self, ↓State.satReg_vault, ↓State.answerNotReady_vault, ↓State.answer_vault]

theorem State.bulkAck_vault : ∀ a0 a1 a2, (State.bulkAck a0 a1 a2).vault = a0.vault := by
  intros; unfold State.bulkAck
  simp only [↓apply_ite State.vault, ite_self, ↓State.sendAnswer_vault, ↓State.setWin_vault]

theorem State.bulkData_vault : ∀ a0 a1 a2 a3, (State.bulkData a0 a1 a2 a3).vault = a0.vault := by
  intros; unfold State.bulkData
  simp only [↓apply_ite State.vault, ite_self, ↓State.bulkRefuse_vault, ↓State.bulkAck_vault, ↓State.rejectRow_vault, ↓State.setWin_vault, ↓State.streamWrite_vault]

theorem execBulkAckTimer_vault : ∀ a0 a1, ∀ t, execBulkAckTimer a0 a1 = .next t → t.vault = a1.vault := by
  intros a0 a1 t h; unfold execBulkAckTimer at h; cases h
  repeat' first | with_reducible rfl | simp only [↓apply_ite State.vault, ite_self, ↓State.bulkAck_vault] | split

theorem State.readFrame_vault : ∀ a0 a1 a2 a3 a4 a5, (State.readFrame a0 a1 a2 a3 a4 a5).vault = a0.vault := by
  intros; unfold State.readFrame
  simp only [↓apply_ite State.vault, ite_self, ↓State.answer_vault, ↓State.satReg_vault, ↓State.rejectRow_vault, ↓State.countBoard_vault, ↓State.freeBytes_vault, ↓State.useWin_vault, ↓State.setWin_vault]

theorem State.bulkRead_vault : ∀ a0 a1 a2 a3, (State.bulkRead a0 a1 a2 a3).vault = a0.vault := by
  intros; unfold State.bulkRead
  repeat' first | with_reducible rfl | intro _ | simp only [↓apply_ite State.vault, ite_self, ↓foldl_vault, ↓State.bulkRefuse_vault, ↓State.readFrame_vault] | split | refine (foldl_vault _ ?_ _ _).trans ?_ | refine (foldl1_vault _ ?_ _ _).trans ?_

theorem State.kctFront_done {s q f t} (h : State.kctFront s q f = .done t) : t.vault = s.vault := by
  unfold State.kctFront at h
  dsimp only at h
  repeat' split at h
  all_goals first | contradiction | (injection h with h; subst h)
  all_goals first | with_reducible rfl | simp only [↓vault_mk, ↓vault_fold, ↓apply_ite State.vault, ite_self, ↓State.countRx_vault, ↓State.satReg_vault, ↓State.answer_vault, ↓State.answerNotReady_vault, ↓State.sendAnswer_vault]
theorem State.kctFront_run {s q f t} (h : State.kctFront s q f = .run t) : t.vault = s.vault := by
  unfold State.kctFront at h
  dsimp only at h
  repeat' split at h
  all_goals first | contradiction | (injection h with h; subst h)
  all_goals first | with_reducible rfl | simp only [↓vault_mk, ↓vault_fold, ↓apply_ite State.vault, ite_self, ↓State.countRx_vault, ↓State.satReg_vault, ↓State.answer_vault, ↓State.answerNotReady_vault, ↓State.sendAnswer_vault]

theorem State.bulkFrame_vault (s f act) (h : ∀ t, (act t).vault = t.vault) : (State.bulkFrame s f act).vault = s.vault := by
  unfold State.bulkFrame
  split
  · exact State.kctFront_done (by assumption)
  · rw [h]; exact State.kctFront_run (by assumption)

theorem execBulkData_vault : ∀ a0 a1 a2, ∀ t, execBulkData a0 a1 a2 = .next t → t.vault = a2.vault := by
  intros a0 a1 a2 t h; unfold execBulkData at h; cases h
  repeat' first | with_reducible rfl | intro _ | simp only [↓apply_ite State.vault, ite_self, ↓State.bulkData_vault] | refine (State.bulkFrame_vault _ _ _ ?_).trans ?_ | split

theorem execBulkRead_vault : ∀ a0 a1 a2, ∀ t, execBulkRead a0 a1 a2 = .next t → t.vault = a2.vault := by
  intros a0 a1 a2 t h; unfold execBulkRead at h; cases h
  repeat' first | with_reducible rfl | intro _ | simp only [↓apply_ite State.vault, ite_self, ↓State.bulkRead_vault] | refine (State.bulkFrame_vault _ _ _ ?_).trans ?_ | split

theorem State.onQp_vault (s k act) (h : ∀ t x, (act t x).vault = t.vault) : (State.onQp s k act).vault = s.vault := by
  unfold State.onQp
  split
  · apply State.roceFrame_vault; intro t; split
    · rfl
    · apply h
  · rfl

theorem execRdmaWrite_vault : ∀ a0 a1 a2 a3 a4 a5 a6, ∀ t, execRdmaWrite a0 a1 a2 a3 a4 a5 a6 = .next t → t.vault = a6.vault := by
  intros a0 a1 a2 a3 a4 a5 a6 t h; unfold execRdmaWrite at h; cases h
  repeat' first | with_reducible rfl | intro _ | simp only [↓apply_ite State.vault, ite_self, ↓State.buffer_vault, ↓State.sendEth_vault, ↓State.rejectRow_vault, ↓State.satReg_vault, ↓State.setWin_vault, ↓State.streamWrite_vault] | refine (State.onQp_vault _ _ _ ?_).trans ?_ | split

theorem execRdmaRead_vault : ∀ a0 a1 a2 a3 a4 a5, ∀ t, execRdmaRead a0 a1 a2 a3 a4 a5 = .next t → t.vault = a5.vault := by
  intros a0 a1 a2 a3 a4 a5 t h; unfold execRdmaRead at h; cases h
  repeat' first | with_reducible rfl | intro _ | simp only [↓apply_ite State.vault, ite_self, ↓State.sendEth_vault, ↓State.rejectRow_vault, ↓State.satReg_vault, ↓State.useWin_vault, ↓State.setWin_vault] | refine (State.onQp_vault _ _ _ ?_).trans ?_ | split

theorem State.settle_vault : ∀ a0 a1, (State.settle a0 a1).vault = a0.vault := by
  intros; unfold State.settle
  repeat' first | with_reducible rfl | simp only [↓apply_ite State.vault, ite_self, ↓State.send_vault, ↓State.setCell_vault, ↓State.raiseCell_vault] | split

theorem State.drive_vault : ∀ a0 a1 a2, (State.drive a0 a1 a2).vault = a0.vault := by
  intros; unfold State.drive
  repeat' first | with_reducible rfl | simp only [↓apply_ite State.vault, ite_self, ↓State.setCell_vault] | split

theorem State.offer_no {s c a b w t} (h : State.offer s c a b w = .no t) : t.vault = s.vault := by
  unfold State.offer at h
  dsimp only at h
  repeat' split at h
  all_goals first | contradiction | (injection h with h; subst h)
  all_goals first | with_reducible rfl | simp only [↓State.setCell_vault, ↓State.settle_vault]
theorem State.offer_go {s c a b w t x y} (h : State.offer s c a b w = .go t x y) : t.vault = s.vault := by
  unfold State.offer at h
  dsimp only at h
  repeat' split at h
  all_goals first | contradiction | (injection h with h; subst h)
  all_goals first | with_reducible rfl | simp only [↓State.setCell_vault, ↓State.settle_vault]

theorem State.issueEngine_vault : ∀ a0 a1 a2 a3 a4, (State.issueEngine a0 a1 a2 a3 a4).vault = a0.vault := by
  intros; unfold State.issueEngine
  repeat' first | with_reducible rfl | simp only [↓State.settle_vault, ↓State.drive_vault, ↓State.modCell_vault] | refine (State.offer_no (by assumption)).trans ?_ | refine (State.offer_go (by assumption)).trans ?_ | split

theorem State.enterBarrier_vault : ∀ a0 a1, (State.enterBarrier a0 a1).vault = a0.vault := by
  intros; unfold State.enterBarrier
  repeat' first | with_reducible rfl | simp only [↓State.setCell_vault, ↓State.send_vault] | split

theorem State.queueSignal_vault : ∀ a0 a1 a2, (State.queueSignal a0 a1 a2).vault = a0.vault := by
  intros; unfold State.queueSignal
  simp only [↓apply_ite State.vault, ite_self, ↓State.setFm_vault, ↓State.modCell_vault]

theorem State.takeEvent_vault {s f w t} (h : State.takeEvent s f = some (w, t)) : t.vault = s.vault := by
  unfold State.takeEvent at h
  dsimp only at h
  repeat' split at h
  all_goals first | contradiction | (simp only [Option.some.injEq, Prod.mk.injEq] at h; obtain ⟨-, h⟩ := h; subst h)
  all_goals simp only [↓State.setFm_vault, ↓State.queueSignal_vault, ↓State.settle_vault]

theorem State.complete_vault : ∀ a0 a1 a2 a3, (State.complete a0 a1 a2 a3).vault = a0.vault := by
  intros; unfold State.complete
  repeat' first | with_reducible rfl | simp only [↓apply_ite State.vault, ite_self, ↓State.drive_vault, ↓State.setCell_vault, ↓State.settle_vault] | split

theorem State.endLooper_vault : ∀ a0 a1 a2, (State.endLooper a0 a1 a2).vault = a0.vault := by
  intros; unfold State.endLooper
  simp only [↓apply_ite State.vault, ite_self, ↓State.settle_vault, ↓State.setCell_vault, ↓State.send_vault]

theorem execStepNop_vault : ∀ a0 a1 a2, ∀ t, execStepNop a0 a1 a2 = .next t → t.vault = a2.vault := by
  intros a0 a1 a2 t h; unfold execStepNop at h; cases h
  repeat' first | with_reducible rfl | simp only [↓State.modCell_vault] | refine (State.offer_no (by assumption)).trans ?_ | refine (State.offer_go (by assumption)).trans ?_ | split

theorem execStepMatrix_vault : ∀ a0 a1 a2, ∀ t, execStepMatrix a0 a1 a2 = .next t → t.vault = a2.vault := by
  intros a0 a1 a2 t h; unfold execStepMatrix at h; cases h
  simp only [↓State.issueEngine_vault]

theorem execStepVector_vault : ∀ a0 a1 a2, ∀ t, execStepVector a0 a1 a2 = .next t → t.vault = a2.vault := by
  intros a0 a1 a2 t h; unfold execStepVector at h; cases h
  simp only [↓State.issueEngine_vault]

theorem execStepLoad_vault : ∀ a0 a1 a2, ∀ t, execStepLoad a0 a1 a2 = .next t → t.vault = a2.vault := by
  intros a0 a1 a2 t h; unfold execStepLoad at h; cases h
  simp only [↓State.issueEngine_vault]

theorem execStepStore_vault : ∀ a0 a1 a2, ∀ t, execStepStore a0 a1 a2 = .next t → t.vault = a2.vault := by
  intros a0 a1 a2 t h; unfold execStepStore at h; cases h
  simp only [↓State.issueEngine_vault]

theorem State.gate_vault (s c a b act) (h : ∀ t x y, (act t x y).vault = t.vault) : (State.gate s c a b act).vault = s.vault := by
  unfold State.gate
  split
  · exact State.offer_no (by assumption)
  · rw [h]; exact State.offer_go (by assumption)

theorem execGateWait_vault : ∀ a0 a1 a2, ∀ t, execGateWait a0 a1 a2 = .next t → t.vault = a2.vault := by
  intros a0 a1 a2 t h; unfold execGateWait at h; cases h
  repeat' first | with_reducible rfl | intro _ | simp only [↓State.settle_vault, ↓State.modCell_vault] | refine (State.gate_vault _ _ _ _ _ ?_).trans ?_ | split

theorem execGateBarrierEnter_vault : ∀ a0 a1 a2, ∀ t, execGateBarrierEnter a0 a1 a2 = .next t → t.vault = a2.vault := by
  intros a0 a1 a2 t h; unfold execGateBarrierEnter at h; cases h
  repeat' first | with_reducible rfl | intro _ | simp only [↓State.settle_vault, ↓State.modCell_vault, ↓State.enterBarrier_vault] | refine (State.gate_vault _ _ _ _ _ ?_).trans ?_ | split

theorem execGateSignal_vault : ∀ a0 a1 a2, ∀ t, execGateSignal a0 a1 a2 = .next t → t.vault = a2.vault := by
  intros a0 a1 a2 t h; unfold execGateSignal at h; cases h
  repeat' first | with_reducible rfl | intro _ | simp only [↓State.settle_vault, ↓State.queueSignal_vault, ↓State.modCell_vault] | refine (State.gate_vault _ _ _ _ _ ?_).trans ?_ | split

theorem execStepScalar_vault : ∀ a0 a1 a2, ∀ t, execStepScalar a0 a1 a2 = .next t → t.vault = a2.vault := by
  intros a0 a1 a2 t h; unfold execStepScalar at h; cases h
  repeat' first | with_reducible rfl | simp only [↓State.send_vault, ↓State.modCell_vault] | refine (State.offer_no (by assumption)).trans ?_ | refine (State.offer_go (by assumption)).trans ?_ | split

theorem execStepEnd_vault : ∀ a0 a1 a2, ∀ t, execStepEnd a0 a1 a2 = .next t → t.vault = a2.vault := by
  intros a0 a1 a2 t h; unfold execStepEnd at h; cases h
  repeat' first | with_reducible rfl | simp only [↓apply_ite State.vault, ite_self, ↓State.endLooper_vault, ↓State.modCell_vault] | refine (State.offer_no (by assumption)).trans ?_ | refine (State.offer_go (by assumption)).trans ?_ | split

theorem State.completeLooper_vault : ∀ a0 a1, (State.completeLooper a0 a1).vault = a0.vault := by
  intros; unfold State.completeLooper
  repeat' first | with_reducible rfl | simp only [↓apply_ite State.vault, ite_self, ↓State.settle_vault, ↓State.setCell_vault, ↓State.endLooper_vault] | split

theorem execGateTimeout_vault : ∀ a0 a1, ∀ t, execGateTimeout a0 a1 = .next t → t.vault = a1.vault := by
  intros a0 a1 t h; unfold execGateTimeout at h; cases h
  repeat' first | with_reducible rfl | simp only [↓apply_ite State.vault, ite_self, ↓State.settle_vault, ↓State.setCell_vault] | split

theorem State.fenceCell_vault : ∀ a0 a1, (State.fenceCell a0 a1).vault = a0.vault := by
  intros; unfold State.fenceCell
  simp only [↓State.fresh_vault, ↓State.modCell_vault]

theorem State.startLooper_vault : ∀ a0 a1 a2, (State.startLooper a0 a1 a2).vault = a0.vault := by
  intros; unfold State.startLooper
  simp only [↓apply_ite State.vault, ite_self, ↓State.setCell_vault]

theorem State.stopLooper_vault : ∀ a0 a1 a2, (State.stopLooper a0 a1 a2).vault = a0.vault := by
  intros; unfold State.stopLooper
  repeat' first | with_reducible rfl | simp only [↓State.settle_vault, ↓State.setCell_vault] | split

theorem State.toCell_vault (s m c act) (h : ∀ t, (act t).vault = t.vault) : (State.toCell s m c act).vault = s.vault := by
  unfold State.toCell
  repeat' first | with_reducible rfl | simp only [↓State.deliver_vault, ↓h] | split

theorem execFence_vault : ∀ a0 a1, ∀ t, execFence a0 a1 = .next t → t.vault = a1.vault := by
  intros a0 a1 t h; unfold execFence at h; cases h
  repeat' first | with_reducible rfl | intro _ | simp only [↓State.fenceCell_vault] | refine (State.toCell_vault _ _ _ _ ?_).trans ?_ | split

theorem execLooperStart_vault : ∀ a0 a1 a2, ∀ t, execLooperStart a0 a1 a2 = .next t → t.vault = a2.vault := by
  intros a0 a1 a2 t h; unfold execLooperStart at h; cases h
  repeat' first | with_reducible rfl | intro _ | simp only [↓State.startLooper_vault] | refine (State.toCell_vault _ _ _ _ ?_).trans ?_ | split

theorem execLooperStop_vault : ∀ a0 a1 a2, ∀ t, execLooperStop a0 a1 a2 = .next t → t.vault = a2.vault := by
  intros a0 a1 a2 t h; unfold execLooperStop at h; cases h
  repeat' first | with_reducible rfl | intro _ | simp only [↓State.stopLooper_vault] | refine (State.toCell_vault _ _ _ _ ?_).trans ?_ | split

theorem execScalarWrite_vault : ∀ a0 a1 a2 a3, ∀ t, execScalarWrite a0 a1 a2 a3 = .next t → t.vault = a3.vault := by
  intros a0 a1 a2 a3 t h; unfold execScalarWrite at h; cases h
  repeat' first | with_reducible rfl | intro _ | simp only [↓apply_ite State.vault, ite_self, ↓State.settle_vault, ↓State.setCell_vault] | refine (State.toCell_vault _ _ _ _ ?_).trans ?_ | split

theorem execComplete_vault : ∀ a0 a1, ∀ t, execComplete a0 a1 = .next t → t.vault = a1.vault := by
  intros a0 a1 t h; unfold execComplete at h; cases h
  simp only [↓State.modFm_vault, ↓State.deliver_vault]

theorem execTallyRead_vault : ∀ a0 a1 a2, ∀ t, execTallyRead a0 a1 a2 = .next t → t.vault = a2.vault := by
  intros a0 a1 a2 t h; unfold execTallyRead at h; cases h
  repeat' first | with_reducible rfl | intro _ | simp only [↓State.send_vault] | refine (State.toCell_vault _ _ _ _ ?_).trans ?_ | split

theorem execTallyClear_vault : ∀ a0 a1, ∀ t, execTallyClear a0 a1 = .next t → t.vault = a1.vault := by
  intros a0 a1 t h; unfold execTallyClear at h; cases h
  repeat' first | with_reducible rfl | intro _ | simp only [↓State.modCell_vault] | refine (State.toCell_vault _ _ _ _ ?_).trans ?_ | split

theorem State.raiseFm_vault : ∀ a0 a1 a2, (State.raiseFm a0 a1 a2).vault = a0.vault := by
  intros; unfold State.raiseFm
  simp only [↓State.raise_vault]

theorem State.abandonBuild_vault : ∀ a0 a1, (State.abandonBuild a0 a1).vault = a0.vault := by
  intros; unfold State.abandonBuild
  simp only [↓apply_ite State.vault, ite_self, ↓State.setRegF_vault, ↓State.modFm_vault]

theorem State.faultFm_vault : ∀ a0 a1 a2, (State.faultFm a0 a1 a2).vault = a0.vault := by
  intros; unfold State.faultFm
  simp only [↓State.raiseFm_vault, ↓State.modFm_vault]

theorem State.fmnStep_vault (s f op act) (h : ∀ t x w, (act t x w).vault = t.vault) : (State.fmnStep s f op act).vault = s.vault := by
  unfold State.fmnStep
  repeat' first | with_reducible rfl | simp only [↓State.faultFm_vault, ↓State.setFm_vault, ↓apply_ite State.vault, ite_self, ↓h] | split

theorem State.fmnReg_vault (s f op v) : (State.fmnReg s f op v).vault = s.vault := by
  unfold State.fmnReg
  apply State.fmnStep_vault; intros; simp only [↓State.setFm_vault]

theorem execFmnNop_vault : ∀ a0 a1, ∀ t, execFmnNop a0 a1 = .next t → t.vault = a1.vault := by
  intros a0 a1 t h; unfold execFmnNop at h; cases h
  repeat' first | with_reducible rfl | intro _ | simp only [↓State.setFm_vault] | refine (State.fmnStep_vault _ _ _ _ ?_).trans ?_ | split

theorem execFmnLdi_vault : ∀ a0 a1, ∀ t, execFmnLdi a0 a1 = .next t → t.vault = a1.vault := by
  intros a0 a1 t h; unfold execFmnLdi at h; cases h
  simp only [↓State.fmnReg_vault]

theorem execFmnLdhi_vault : ∀ a0 a1, ∀ t, execFmnLdhi a0 a1 = .next t → t.vault = a1.vault := by
  intros a0 a1 t h; unfold execFmnLdhi at h; cases h
  simp only [↓State.fmnReg_vault]

theorem execFmnAdd_vault : ∀ a0 a1, ∀ t, execFmnAdd a0 a1 = .next t → t.vault = a1.vault := by
  intros a0 a1 t h; unfold execFmnAdd at h; cases h
  simp only [↓State.fmnReg_vault]

theorem execFmnSub_vault : ∀ a0 a1, ∀ t, execFmnSub a0 a1 = .next t → t.vault = a1.vault := by
  intros a0 a1 t h; unfold execFmnSub at h; cases h
  simp only [↓State.fmnReg_vault]

theorem execFmnAddi_vault : ∀ a0 a1, ∀ t, execFmnAddi a0 a1 = .next t → t.vault = a1.vault := by
  intros a0 a1 t h; unfold execFmnAddi at h; cases h
  simp only [↓State.fmnReg_vault]

theorem execFmnAnd_vault : ∀ a0 a1, ∀ t, execFmnAnd a0 a1 = .next t → t.vault = a1.vault := by
  intros a0 a1 t h; unfold execFmnAnd at h; cases h
  simp only [↓State.fmnReg_vault]

theorem execFmnOr_vault : ∀ a0 a1, ∀ t, execFmnOr a0 a1 = .next t → t.vault = a1.vault := by
  intros a0 a1 t h; unfold execFmnOr at h; cases h
  simp only [↓State.fmnReg_vault]

theorem execFmnXor_vault : ∀ a0 a1, ∀ t, execFmnXor a0 a1 = .next t → t.vault = a1.vault := by
  intros a0 a1 t h; unfold execFmnXor at h; cases h
  simp only [↓State.fmnReg_vault]

theorem execFmnShl_vault : ∀ a0 a1, ∀ t, execFmnShl a0 a1 = .next t → t.vault = a1.vault := by
  intros a0 a1 t h; unfold execFmnShl at h; cases h
  simp only [↓State.fmnReg_vault]

theorem execFmnShr_vault : ∀ a0 a1, ∀ t, execFmnShr a0 a1 = .next t → t.vault = a1.vault := by
  intros a0 a1 t h; unfold execFmnShr at h; cases h
  simp only [↓State.fmnReg_vault]

theorem execFmnCmplt_vault : ∀ a0 a1, ∀ t, execFmnCmplt a0 a1 = .next t → t.vault = a1.vault := by
  intros a0 a1 t h; unfold execFmnCmplt at h; cases h
  simp only [↓apply_ite State.vault, ite_self, ↓State.fmnReg_vault]

theorem execFmnCmpeq_vault : ∀ a0 a1, ∀ t, execFmnCmpeq a0 a1 = .next t → t.vault = a1.vault := by
  intros a0 a1 t h; unfold execFmnCmpeq at h; cases h
  simp only [↓apply_ite State.vault, ite_self, ↓State.fmnReg_vault]

theorem execFmnFadd_vault : ∀ a0 a1, ∀ t, execFmnFadd a0 a1 = .next t → t.vault = a1.vault := by
  intros a0 a1 t h; unfold execFmnFadd at h; cases h
  simp only [↓State.fmnReg_vault]

theorem execFmnFmul_vault : ∀ a0 a1, ∀ t, execFmnFmul a0 a1 = .next t → t.vault = a1.vault := by
  intros a0 a1 t h; unfold execFmnFmul at h; cases h
  simp only [↓State.fmnReg_vault]

theorem execFmnJmp_vault : ∀ a0 a1, ∀ t, execFmnJmp a0 a1 = .next t → t.vault = a1.vault := by
  intros a0 a1 t h; unfold execFmnJmp at h; cases h
  repeat' first | with_reducible rfl | intro _ | simp only [↓State.setFm_vault] | refine (State.fmnStep_vault _ _ _ _ ?_).trans ?_ | split

theorem execFmnBz_vault : ∀ a0 a1, ∀ t, execFmnBz a0 a1 = .next t → t.vault = a1.vault := by
  intros a0 a1 t h; unfold execFmnBz at h; cases h
  repeat' first | with_reducible rfl | intro _ | simp only [↓apply_ite State.vault, ite_self, ↓State.setFm_vault] | refine (State.fmnStep_vault _ _ _ _ ?_).trans ?_ | split

theorem execFmnBnz_vault : ∀ a0 a1, ∀ t, execFmnBnz a0 a1 = .next t → t.vault = a1.vault := by
  intros a0 a1 t h; unfold execFmnBnz at h; cases h
  repeat' first | with_reducible rfl | intro _ | simp only [↓apply_ite State.vault, ite_self, ↓State.setFm_vault] | refine (State.fmnStep_vault _ _ _ _ ?_).trans ?_ | split

theorem execFmnHalt_vault : ∀ a0 a1, ∀ t, execFmnHalt a0 a1 = .next t → t.vault = a1.vault := by
  intros a0 a1 t h; unfold execFmnHalt at h; cases h
  repeat' first | with_reducible rfl | intro _ | simp only [↓State.setFm_vault] | refine (State.fmnStep_vault _ _ _ _ ?_).trans ?_ | split

theorem execFmnRdstep_vault : ∀ a0 a1, ∀ t, execFmnRdstep a0 a1 = .next t → t.vault = a1.vault := by
  intros a0 a1 t h; unfold execFmnRdstep at h; cases h
  simp only [↓State.fmnReg_vault]

theorem execFmnRdcurve_vault : ∀ a0 a1, ∀ t, execFmnRdcurve a0 a1 = .next t → t.vault = a1.vault := by
  intros a0 a1 t h; unfold execFmnRdcurve at h; cases h
  repeat' first | with_reducible rfl | intro _ | simp only [↓apply_ite State.vault, ite_self, ↓State.faultFm_vault, ↓State.setFm_vault] | refine (State.fmnStep_vault _ _ _ _ ?_).trans ?_ | split

theorem execFmnStart_vault : ∀ a0 a1, ∀ t, execFmnStart a0 a1 = .next t → t.vault = a1.vault := by
  intros a0 a1 t h; unfold execFmnStart at h; cases h
  repeat' first | with_reducible rfl | intro _ | simp only [↓foldl_vault, ↓State.sendAll_vault, ↓State.setFm_vault] | refine (State.fmnStep_vault _ _ _ _ ?_).trans ?_ | split | refine (foldl_vault _ ?_ _ _).trans ?_ | refine (foldl1_vault _ ?_ _ _).trans ?_

theorem execFmnStop_vault : ∀ a0 a1, ∀ t, execFmnStop a0 a1 = .next t → t.vault = a1.vault := by
  intros a0 a1 t h; unfold execFmnStop at h; cases h
  repeat' first | with_reducible rfl | intro _ | simp only [↓State.sendAll_vault, ↓State.setFm_vault] | refine (State.fmnStep_vault _ _ _ _ ?_).trans ?_ | split

theorem execFmnLatch_vault : ∀ a0 a1, ∀ t, execFmnLatch a0 a1 = .next t → t.vault = a1.vault := by
  intros a0 a1 t h; unfold execFmnLatch at h; cases h
  repeat' first | with_reducible rfl | intro _ | simp only [↓State.sendAll_vault, ↓State.setFm_vault] | refine (State.fmnStep_vault _ _ _ _ ?_).trans ?_ | split

theorem execFmnWaitev_vault : ∀ a0 a1, ∀ t, execFmnWaitev a0 a1 = .next t → t.vault = a1.vault := by
  intros a0 a1 t h; unfold execFmnWaitev at h; cases h
  repeat' first | with_reducible rfl | intro _ | simp only [↓State.modFm_vault, ↓State.setFm_vault] | refine (State.takeEvent_vault (by assumption)).trans ?_ | refine (State.fmnStep_vault _ _ _ _ ?_).trans ?_ | split

theorem execFmnWaitdone_vault : ∀ a0 a1, ∀ t, execFmnWaitdone a0 a1 = .next t → t.vault = a1.vault := by
  intros a0 a1 t h; unfold execFmnWaitdone at h; cases h
  repeat' first | with_reducible rfl | intro _ | simp only [↓apply_ite State.vault, ite_self, ↓State.setFm_vault] | refine (State.fmnStep_vault _ _ _ _ ?_).trans ?_ | split

theorem execFmnCurve_vault : ∀ a0 a1, ∀ t, execFmnCurve a0 a1 = .next t → t.vault = a1.vault := by
  intros a0 a1 t h; unfold execFmnCurve at h; cases h
  repeat' first | with_reducible rfl | intro _ | simp only [↓apply_ite State.vault, ite_self, ↓State.faultFm_vault, ↓State.setFm_vault] | refine (State.fmnStep_vault _ _ _ _ ?_).trans ?_ | split

theorem State.tryGrant_vault : ∀ a0 a1 a2, (State.tryGrant a0 a1 a2).vault = a0.vault := by
  intros; unfold State.tryGrant
  repeat' first | with_reducible rfl | simp only [↓apply_ite State.vault, ite_self, ↓State.send_vault, ↓State.setFm_vault] | split

theorem State.fetchFault_vault : ∀ a0 a1, (State.fetchFault a0 a1).vault = a0.vault := by
  intros; unfold State.fetchFault
  simp only [↓State.raiseFm_vault, ↓State.satReg_vault, ↓State.abandonBuild_vault]

theorem execBuildBegin_vault : ∀ a0 a1, ∀ t, execBuildBegin a0 a1 = .next t → t.vault = a1.vault := by
  intros a0 a1 t h; unfold execBuildBegin at h; cases h
  repeat' first | with_reducible rfl | intro _ | simp only [↓apply_ite State.vault, ite_self, ↓State.setFm_vault, ↓State.fetchFault_vault, ↓State.setReg_vault] | refine (State.fmnStep_vault _ _ _ _ ?_).trans ?_ | split

theorem execScore_vault : ∀ a0 a1, ∀ t, execScore a0 a1 = .next t → t.vault = a1.vault := by
  intros a0 a1 t h; unfold execScore at h; cases h
  repeat' first | with_reducible rfl | intro _ | simp only [↓apply_ite State.vault, ite_self, ↓State.fetchFault_vault, ↓State.setFm_vault, ↓State.tryGrant_vault, ↓State.modFm_vault] | refine (State.fmnStep_vault _ _ _ _ ?_).trans ?_ | split

theorem execBuildEnd_vault : ∀ a0 a1, ∀ t, execBuildEnd a0 a1 = .next t → t.vault = a1.vault := by
  intros a0 a1 t h; unfold execBuildEnd at h; cases h
  repeat' first | with_reducible rfl | intro _ | simp only [↓State.fetchFault_vault, ↓State.setFm_vault, ↓State.setRegF_vault, ↓State.satReg_vault, ↓State.addReg_vault, ↓State.send_vault] | refine (State.fmnStep_vault _ _ _ _ ?_).trans ?_ | split

theorem execScoreTimeout_vault : ∀ a0 a1, ∀ t, execScoreTimeout a0 a1 = .next t → t.vault = a1.vault := by
  intros a0 a1 t h; unfold execScoreTimeout at h; cases h
  simp only [↓apply_ite State.vault, ite_self, ↓State.fetchFault_vault, ↓State.setFm_vault]

theorem execCountReturn_vault : ∀ a0 a1 a2 a3, ∀ t, execCountReturn a0 a1 a2 a3 = .next t → t.vault = a3.vault := by
  intros a0 a1 a2 a3 t h; unfold execCountReturn at h; cases h
  repeat' first | with_reducible rfl | simp only [↓apply_ite State.vault, ite_self, ↓State.deliver_vault, ↓State.modFm_vault, ↓State.setRegF_vault] | split

theorem State.setUse_vault : ∀ a0 a1 a2 a3, (State.setUse a0 a1 a2 a3).vault = a0.vault := by
  intros; unfold State.setUse
  simp only [↓State.modRouter_vault]

theorem State.takeCredit_vault : ∀ a0 a1 a2 a3, (State.takeCredit a0 a1 a2 a3).vault = a0.vault := by
  intros; unfold State.takeCredit
  simp only [↓State.setUse_vault]

theorem State.returnCredit_vault : ∀ a0 a1 a2 a3, (State.returnCredit a0 a1 a2 a3).vault = a0.vault := by
  intros; unfold State.returnCredit
  repeat' first | with_reducible rfl | simp only [↓apply_ite State.vault, ite_self, ↓State.send_vault, ↓State.setUse_vault] | split

theorem State.absorb_vault : ∀ a0 a1 a2, (State.absorb a0 a1 a2).vault = a0.vault := by
  intros; unfold State.absorb
  simp only [↓vault_mk, ↓vault_fold, ↓apply_ite State.vault, ite_self, ↓State.setRegF_vault, ↓State.satReg_vault, ↓State.send_vault]

theorem State.dropForeign_vault : ∀ a0 a1, (State.dropForeign a0 a1).vault = a0.vault := by
  intros; unfold State.dropForeign
  simp only [↓vault_mk, ↓vault_fold, ↓apply_ite State.vault, ite_self]

theorem State.localDeliver_vault : ∀ a0 a1 a2, (State.localDeliver a0 a1 a2).vault = a0.vault := by
  intros; unfold State.localDeliver
  repeat' first | with_reducible rfl | simp only [↓apply_ite State.vault, ite_self, ↓State.absorb_vault, ↓State.modCell_vault, ↓State.dropForeign_vault, ↓State.modFm_vault] | split

theorem State.noteHeld_vault : ∀ a0 a1 a2, (State.noteHeld a0 a1 a2).vault = a0.vault := by
  intros; unfold State.noteHeld
  simp only [↓apply_ite State.vault, ite_self, ↓State.modRgn_vault, ↓State.freeCount_vault]

theorem State.offerFlit_vault : ∀ a0 a1 a2 a3 a4, (State.offerFlit a0 a1 a2 a3 a4).vault = a0.vault := by
  intros; unfold State.offerFlit
  repeat' first | with_reducible rfl | simp only [↓apply_ite State.vault, ite_self, ↓State.returnCredit_vault, ↓State.modRouter_vault, ↓State.localDeliver_vault, ↓State.absorb_vault, ↓State.toStation_vault, ↓State.takeCredit_vault, ↓State.send_vault, ↓State.noteHeld_vault, ↓State.raiseRgn_vault, ↓State.modRgn_vault] | split

theorem State.schedSlip_vault : ∀ a0 a1 a2 a3, (State.schedSlip a0 a1 a2 a3).vault = a0.vault := by
  intros; unfold State.schedSlip
  simp only [↓apply_ite State.vault, ite_self, ↓State.raiseCell_vault, ↓State.modRgn_vault, ↓State.modRouter_vault]

theorem State.compiledFlit_vault : ∀ a0 a1 a2 a3 a4, (State.compiledFlit a0 a1 a2 a3 a4).vault = a0.vault := by
  intros; unfold State.compiledFlit
  repeat' first | with_reducible rfl | simp only [↓apply_ite State.vault, ite_self, ↓State.send_vault, ↓State.schedSlip_vault, ↓State.dropForeign_vault, ↓State.modRgn_vault, ↓State.modRouter_vault, ↓State.localDeliver_vault, ↓State.absorb_vault] | split

theorem State.retryWaiting_vault : ∀ a0 a1, (State.retryWaiting a0 a1).vault = a0.vault := by
  intros; unfold State.retryWaiting
  repeat' first | with_reducible rfl | intro _ | simp only [↓foldl_vault, ↓foldl1_vault, ↓State.offerFlit_vault, ↓State.modRouter_vault] | split | refine (foldl_vault _ ?_ _ _).trans ?_ | refine (foldl1_vault _ ?_ _ _).trans ?_

theorem State.pump_vault : ∀ n s c, (State.pump n s c).vault = s.vault := by
  intro n
  induction n with
  | zero => intros; rfl
  | succ n ih =>
    intros; unfold State.pump
    repeat' first | with_reducible rfl | simp only [↓ih, ↓State.tryGrant_vault, ↓State.modFm_vault, ↓State.setCell_vault, ↓State.send_vault, ↓State.takeCredit_vault] | split

theorem State.startSends_vault : ∀ a0 a1, (State.startSends a0 a1).vault = a0.vault := by
  intros; unfold State.startSends
  repeat' first | with_reducible rfl | simp only [↓apply_ite State.vault, ite_self, ↓State.setCell_vault, ↓State.schedSlip_vault, ↓State.pump_vault, ↓State.sendAll_vault] | split

theorem State.startExchange_vault : ∀ a0 a1, (State.startExchange a0 a1).vault = a0.vault := by
  intros; unfold State.startExchange
  repeat' first | with_reducible rfl | simp only [↓apply_ite State.vault, ite_self, ↓State.setCell_vault, ↓State.startSends_vault] | split

theorem execStepExchange_vault : ∀ a0 a1 a2, ∀ t, execStepExchange a0 a1 a2 = .next t → t.vault = a2.vault := by
  intros a0 a1 a2 t h; unfold execStepExchange at h; cases h
  repeat' first | with_reducible rfl | simp only [↓apply_ite State.vault, ite_self, ↓State.modCell_vault, ↓State.startExchange_vault] | refine (State.offer_no (by assumption)).trans ?_ | refine (State.offer_go (by assumption)).trans ?_ | split

theorem State.completeExchange_vault : ∀ a0 a1 a2, (State.completeExchange a0 a1 a2).vault = a0.vault := by
  intros; unfold State.completeExchange
  repeat' first | with_reducible rfl | simp only [↓apply_ite State.vault, ite_self, ↓State.pump_vault, ↓State.modRgn_vault, ↓State.setCell_vault, ↓State.enterBarrier_vault, ↓State.settle_vault, ↓State.startExchange_vault] | split

theorem execStepComplete_vault : ∀ a0 a1 a2 a3, ∀ t, execStepComplete a0 a1 a2 a3 = .next t → t.vault = a3.vault := by
  intros a0 a1 a2 a3 t h; unfold execStepComplete at h; cases h
  repeat' first | with_reducible rfl | simp only [↓State.completeLooper_vault, ↓State.completeExchange_vault, ↓State.complete_vault] | split

theorem execExchangeEpoch_vault : ∀ a0 a1 a2, ∀ t, execExchangeEpoch a0 a1 a2 = .next t → t.vault = a2.vault := by
  intros a0 a1 a2 t h; unfold execExchangeEpoch at h; cases h
  repeat' first | with_reducible rfl | intro _ | simp only [↓vault_mk, ↓vault_fold, ↓apply_ite State.vault, ite_self, ↓foldl_vault, ↓foldl1_vault, ↓State.modRgn_vault, ↓State.modCell_vault, ↓State.startSends_vault] | split | refine (foldl_vault _ ?_ _ _).trans ?_ | refine (foldl1_vault _ ?_ _ _).trans ?_

theorem State.fenceBy_vault : ∀ a0 a1, (State.fenceBy a0 a1).vault = a0.vault := by
  intros; unfold State.fenceBy
  simp only [↓State.raiseCell_vault, ↓State.send_vault]

theorem execFlitArrive_vault : ∀ a0 a1 a2 a3 a4, ∀ t, execFlitArrive a0 a1 a2 a3 a4 = .next t → t.vault = a4.vault := by
  intros a0 a1 a2 a3 a4 t h; unfold execFlitArrive at h; cases h
  repeat' first | with_reducible rfl | simp only [↓apply_ite State.vault, ite_self, ↓State.deliver_vault, ↓State.send_vault, ↓State.returnCredit_vault, ↓State.raiseCell_vault, ↓State.dropForeign_vault, ↓State.compiledFlit_vault, ↓State.offerFlit_vault] | split

theorem execCreditReturn_vault : ∀ a0 a1 a2 a3, ∀ t, execCreditReturn a0 a1 a2 a3 = .next t → t.vault = a3.vault := by
  intros a0 a1 a2 a3 t h; unfold execCreditReturn at h; cases h
  repeat' first | with_reducible rfl | intro _ | simp only [↓apply_ite State.vault, ite_self, ↓foldl_vault, ↓foldl1_vault, ↓State.deliver_vault, ↓State.raiseRgn_vault, ↓State.raiseCell_vault, ↓State.setUse_vault, ↓State.pump_vault, ↓State.retryWaiting_vault] | split | refine (foldl_vault _ ?_ _ _).trans ?_ | refine (foldl1_vault _ ?_ _ _).trans ?_

theorem execRouterDead_vault : ∀ a0 a1 a2, ∀ t, execRouterDead a0 a1 a2 = .next t → t.vault = a2.vault := by
  intros a0 a1 a2 t h; unfold execRouterDead at h; cases h
  repeat' first | with_reducible rfl | simp only [↓vault_mk, ↓vault_fold, ↓apply_ite State.vault, ite_self, ↓State.fenceBy_vault, ↓State.raiseRgn_vault, ↓State.modRouter_vault, ↓State.modRgn_vault] | split

theorem State.detourClear_vault : ∀ a0 a1 a2, (State.detourClear a0 a1 a2).1.vault = a0.vault := by
  intros; unfold State.detourClear
  repeat' first | with_reducible rfl | simp only [↓apply_ite State.vault, ite_self, ↓apply_ite Prod.fst, ↓State.reject_vault, ↓State.modRgn_vault] | split

theorem execGrant_vault : ∀ a0 a1 a2, ∀ t, execGrant a0 a1 a2 = .next t → t.vault = a2.vault := by
  intros a0 a1 a2 t h; unfold execGrant at h; cases h
  repeat' first | with_reducible rfl | simp only [↓State.deliver_vault, ↓State.pump_vault, ↓State.setCell_vault] | split

theorem execAbsorbed_vault : ∀ a0 a1 a2 a3, ∀ t, execAbsorbed a0 a1 a2 a3 = .next t → t.vault = a3.vault := by
  intros a0 a1 a2 a3 t h; unfold execAbsorbed at h; cases h
  simp only [↓State.satReg_vault, ↓State.deliver_vault]

theorem State.sendTile_vault : ∀ a0 a1 a2 a3, (State.sendTile a0 a1 a2 a3).vault = a0.vault := by
  intros; unfold State.sendTile
  repeat' first | with_reducible rfl | simp only [↓vault_mk, ↓vault_fold, ↓State.toTileQueue_vault] | split

theorem State.releaseTiles_vault : ∀ a0, (State.releaseTiles a0).vault = a0.vault := by
  intros; unfold State.releaseTiles
  repeat' first | with_reducible rfl | intro _ | simp only [↓vault_mk, ↓vault_fold, ↓foldl_vault, ↓foldl1_vault, ↓State.sendTile_vault] | split | refine (foldl_vault _ ?_ _ _).trans ?_ | refine (foldl1_vault _ ?_ _ _).trans ?_

theorem State.toModule_vault : ∀ a0 a1 a2, (State.toModule a0 a1 a2).vault = a0.vault := by
  intros; unfold State.toModule
  repeat' first | with_reducible rfl | simp only [↓apply_ite State.vault, ite_self, ↓State.send_vault, ↓State.sendTrail_vault] | split

theorem State.digestMsg_vault : ∀ a0 a1 a2 a3, (State.digestMsg a0 a1 a2 a3).vault = a0.vault := by
  intros; unfold State.digestMsg
  simp only [↓apply_ite State.vault, ite_self, ↓State.modRed_vault, ↓State.toModule_vault]

theorem State.releaseMail_vault : ∀ a0 a1, (State.releaseMail a0 a1).vault = a0.vault := by
  intros; unfold State.releaseMail
  repeat' first | with_reducible rfl | intro _ | simp only [↓foldl_vault, ↓foldl1_vault, ↓State.toModule_vault, ↓State.modRed_vault] | split | refine (foldl_vault _ ?_ _ _).trans ?_ | refine (foldl1_vault _ ?_ _ _).trans ?_

theorem State.tryRelease_vault : ∀ a0 a1, (State.tryRelease a0 a1).vault = a0.vault := by
  intros; unfold State.tryRelease
  simp only [↓apply_ite State.vault, ite_self, ↓State.sendAll_vault, ↓State.setSlot_vault]

theorem State.tryForward_vault : ∀ a0 a1 a2, (State.tryForward a0 a1 a2).vault = a0.vault := by
  intros; unfold State.tryForward
  repeat' first | with_reducible rfl | simp only [↓State.send_vault, ↓State.setRgn_vault] | split

theorem State.paidTile_vault : ∀ a0 a1 a2, (State.paidTile a0 a1 a2).vault = a0.vault := by
  intros; unfold State.paidTile
  repeat' first | with_reducible rfl | simp only [↓State.tryForward_vault, ↓State.modRgn_vault] | split

theorem regMerge_vault : ∀ a0 a1 a2, (regMerge a0 a1 a2).vault = a0.vault := by
  intros; unfold regMerge
  simp only [↓State.setRegF_vault]

theorem State.enterBlock_vault : ∀ a0 a1 a2 a3, (State.enterBlock a0 a1 a2 a3).vault = a0.vault := by
  intros; unfold State.enterBlock
  simp only [↓apply_ite State.vault, ite_self, ↓regMerge_vault, ↓State.send_vault, ↓State.modFm_vault]

theorem State.enterRegion_vault : ∀ a0 a1 a2 a3, (State.enterRegion a0 a1 a2 a3).vault = a0.vault := by
  intros; unfold State.enterRegion
  simp only [↓apply_ite State.vault, ite_self, ↓regMerge_vault, ↓State.tryForward_vault, ↓State.setRgn_vault]

theorem State.enterRoot_vault : ∀ a0 a1 a2 a3, (State.enterRoot a0 a1 a2 a3).vault = a0.vault := by
  intros; unfold State.enterRoot
  repeat' first | with_reducible rfl | intro _ | simp only [↓apply_ite State.vault, ite_self, ↓foldl_vault, ↓State.setSlot_vault, ↓State.toModule_vault, ↓State.tryRelease_vault] | split | refine (foldl_vault _ ?_ _ _).trans ?_ | refine (foldl1_vault _ ?_ _ _).trans ?_

theorem execBarrierEnter_vault : ∀ a0 a1 a2 a3, ∀ t, execBarrierEnter a0 a1 a2 a3 = .next t → t.vault = a3.vault := by
  intros a0 a1 a2 a3 t h; unfold execBarrierEnter at h; cases h
  repeat' first | with_reducible rfl | simp only [↓State.deliver_vault, ↓State.modSlot_vault, ↓State.enterBlock_vault, ↓State.enterRegion_vault, ↓State.enterRoot_vault, ↓State.tryRelease_vault] | split

theorem State.releaseHalf_vault : ∀ a0 a1 a2, (State.releaseHalf a0 a1 a2).vault = a0.vault := by
  intros; unfold State.releaseHalf
  repeat' first | with_reducible rfl | intro _ | simp only [↓vault_mk, ↓vault_fold, ↓apply_ite State.vault, ite_self, ↓foldl_vault, ↓foldl1_vault, ↓State.addReg_vault, ↓State.setReg_vault, ↓State.freeCount_vault, ↓State.setRgn_vault] | split | refine (foldl_vault _ ?_ _ _).trans ?_ | refine (foldl1_vault _ ?_ _ _).trans ?_

theorem State.stepRecord_vault : ∀ a0 a1, (State.stepRecord a0 a1).vault = a0.vault := by
  intros; unfold State.stepRecord
  repeat' first | with_reducible rfl | simp only [↓State.setSlot_vault] | split

theorem State.failBarrier_vault : ∀ a0 a1, (State.failBarrier a0 a1).vault = a0.vault := by
  intros; unfold State.failBarrier
  simp only [↓apply_ite State.vault, ite_self, ↓State.send_vault, ↓State.setSlot_vault]

theorem State.probeForeman_vault : ∀ a0 a1 a2, (State.probeForeman a0 a1 a2).vault = a0.vault := by
  intros; unfold State.probeForeman
  repeat' first | with_reducible rfl | intro _ | simp only [↓apply_ite State.vault, ite_self, ↓foldl_vault, ↓State.setFm_vault, ↓State.modFm_vault, ↓State.setReg_vault, ↓State.satReg_vault, ↓State.raise_vault, ↓State.fenceBy_vault] | split | refine (foldl_vault _ ?_ _ _).trans ?_ | refine (foldl1_vault _ ?_ _ _).trans ?_

theorem State.probeRegion_vault : ∀ a0 a1 a2, (State.probeRegion a0 a1 a2).vault = a0.vault := by
  intros; unfold State.probeRegion
  repeat' first | with_reducible rfl | intro _ | simp only [↓apply_ite State.vault, ite_self, ↓foldl_vault, ↓foldl1_vault, ↓State.satReg_vault, ↓State.setRgn_vault, ↓State.setRegF_vault, ↓State.send_vault, ↓State.modFm_vault] | split | refine (foldl_vault _ ?_ _ _).trans ?_ | refine (foldl1_vault _ ?_ _ _).trans ?_

theorem State.probeRoot_vault : ∀ a0 a1, (State.probeRoot a0 a1).vault = a0.vault := by
  intros; unfold State.probeRoot
  repeat' first | with_reducible rfl | intro _ | simp only [↓apply_ite State.vault, ite_self, ↓foldl_vault, ↓State.setSlot_vault, ↓State.raise_vault, ↓State.send_vault] | split | refine (foldl_vault _ ?_ _ _).trans ?_ | refine (foldl1_vault _ ?_ _ _).trans ?_

theorem State.probe_vault : ∀ a0 a1 a2, (State.probe a0 a1 a2).vault = a0.vault := by
  intros; unfold State.probe
  repeat' first | with_reducible rfl | simp only [↓State.probeForeman_vault, ↓State.probeRegion_vault, ↓State.probeRoot_vault] | split

theorem execBarrierTimerExpiry_vault : ∀ a0 a1 a2, ∀ t, execBarrierTimerExpiry a0 a1 a2 = .next t → t.vault = a2.vault := by
  intros a0 a1 a2 t h; unfold execBarrierTimerExpiry at h; cases h
  simp only [↓apply_ite State.vault, ite_self, ↓State.failBarrier_vault, ↓State.probe_vault]

theorem execBarrierProbe_vault : ∀ a0 a1 a2, ∀ t, execBarrierProbe a0 a1 a2 = .next t → t.vault = a2.vault := by
  intros a0 a1 a2 t h; unfold execBarrierProbe at h; cases h
  simp only [↓State.probe_vault, ↓State.deliver_vault]

theorem execProbeAnswerTimeout_vault : ∀ a0 a1 a2, ∀ t, execProbeAnswerTimeout a0 a1 a2 = .next t → t.vault = a2.vault := by
  intros a0 a1 a2 t h; unfold execProbeAnswerTimeout at h; cases h
  simp only [↓apply_ite State.vault, ite_self, ↓State.setFm_vault, ↓State.raiseRgn_vault, ↓State.setReg_vault]

theorem execBarrierFail_vault : ∀ a0 a1, ∀ t, execBarrierFail a0 a1 = .next t → t.vault = a1.vault := by
  intros a0 a1 t h; unfold execBarrierFail at h; cases h
  repeat' first | with_reducible rfl | intro _ | simp only [↓foldl_vault, ↓State.deliver_vault, ↓State.modSlot_vault, ↓State.modFm_vault] | split | refine (foldl_vault _ ?_ _ _).trans ?_ | refine (foldl1_vault _ ?_ _ _).trans ?_

theorem State.clearBarriers_vault : ∀ a0 a1, (State.clearBarriers a0 a1).vault = a0.vault := by
  intros; unfold State.clearBarriers
  repeat' first | with_reducible rfl | intro _ | simp only [↓foldl_vault, ↓State.modSlot_vault, ↓State.modFm_vault, ↓State.modRgn_vault] | split | refine (foldl_vault _ ?_ _ _).trans ?_ | refine (foldl1_vault _ ?_ _ _).trans ?_

theorem execWindowFlag_vault : ∀ a0 a1 a2 a3, ∀ t, execWindowFlag a0 a1 a2 a3 = .next t → t.vault = a3.vault := by
  intros a0 a1 a2 a3 t h; unfold execWindowFlag at h; cases h
  simp only [↓State.modSlot_vault, ↓State.deliver_vault]

theorem execNumericsNotice_vault : ∀ a0 a1 a2, ∀ t, execNumericsNotice a0 a1 a2 = .next t → t.vault = a2.vault := by
  intros a0 a1 a2 t h; unfold execNumericsNotice at h; cases h
  simp only [↓State.deliver_vault, ↓regMerge_vault, ↓State.modRgn_vault]

theorem execTallyReply_vault : ∀ a0 a1 a2 a3, ∀ t, execTallyReply a0 a1 a2 a3 = .next t → t.vault = a3.vault := by
  intros a0 a1 a2 a3 t h; unfold execTallyReply at h; cases h
  simp only [↓vault_mk, ↓vault_fold, ↓State.deliver_vault]

theorem State.refObj_vault : ∀ a0 a1 a2, (State.refObj a0 a1 a2).vault = a0.vault := by
  intros; unfold State.refObj
  simp only [↓apply_ite State.vault, ite_self, ↓State.modObj_vault]

theorem State.entryRefs_vault : ∀ a0 a1 a2, (State.entryRefs a0 a1 a2).vault = a0.vault := by
  intros; unfold State.entryRefs
  simp only [↓apply_ite State.vault, ite_self, ↓State.refObj_vault]

theorem State.dropRefs_vault : ∀ a0 a1, (State.dropRefs a0 a1).vault = a0.vault := by
  intros; unfold State.dropRefs
  repeat' first | with_reducible rfl | intro _ | simp only [↓apply_ite State.vault, ite_self, ↓foldl_vault, ↓State.entryRefs_vault] | split | refine (foldl_vault _ ?_ _ _).trans ?_ | refine (foldl1_vault _ ?_ _ _).trans ?_

theorem State.stopStream_vault : ∀ a0 a1 a2 a3, (State.stopStream a0 a1 a2 a3).vault = a0.vault := by
  intros; unfold State.stopStream
  simp only [↓apply_ite State.vault, ite_self, ↓State.dropRefs_vault, ↓State.modStream_vault]

theorem State.skdStop_vault : ∀ a0 a1, (State.skdStop a0 a1).vault = a0.vault := by
  intros; unfold State.skdStop
  repeat' first | with_reducible rfl | simp only [↓State.stopStream_vault] | split

theorem State.clearStream_vault : ∀ a0 a1, (State.clearStream a0 a1).vault = a0.vault := by
  intros; unfold State.clearStream
  simp only [↓State.modStream_vault, ↓State.stopStream_vault]

theorem State.startStream_vault : ∀ a0 a1, (State.startStream a0 a1).vault = a0.vault := by
  intros; unfold State.startStream
  simp only [↓apply_ite State.vault, ite_self, ↓State.clearStream_vault, ↓State.modStream_vault]

theorem State.skdFault_vault : ∀ a0 a1 a2 a3, (State.skdFault a0 a1 a2 a3).vault = a0.vault := by
  intros; unfold State.skdFault
  simp only [↓State.setReg_vault, ↓State.raise_vault, ↓State.stopStream_vault]

theorem State.openEntry_vault : ∀ a0 a1 a2 a3 a4, (State.openEntry a0 a1 a2 a3 a4).vault = a0.vault := by
  intros; unfold State.openEntry
  simp only [↓State.modStream_vault]

theorem State.streamStep_vault (s n op act) (h : ∀ t w, (act t w).vault = t.vault) : (State.streamStep s n op act).vault = s.vault := by
  unfold State.streamStep
  repeat' first | with_reducible rfl | simp only [↓apply_ite State.vault, ite_self, ↓h] | split

theorem execStreamDeliver_vault : ∀ a0 a1, ∀ t, execStreamDeliver a0 a1 = .next t → t.vault = a1.vault := by
  intros a0 a1 t h; unfold execStreamDeliver at h; cases h
  repeat' first | with_reducible rfl | intro _ | simp only [↓State.openEntry_vault] | refine (State.streamStep_vault _ _ _ _ ?_).trans ?_ | split

theorem execStreamNear_vault : ∀ a0 a1, ∀ t, execStreamNear a0 a1 = .next t → t.vault = a1.vault := by
  intros a0 a1 t h; unfold execStreamNear at h; cases h
  repeat' first | with_reducible rfl | intro _ | simp only [↓State.openEntry_vault] | refine (State.streamStep_vault _ _ _ _ ?_).trans ?_ | split

theorem execStreamGather_vault : ∀ a0 a1, ∀ t, execStreamGather a0 a1 = .next t → t.vault = a1.vault := by
  intros a0 a1 t h; unfold execStreamGather at h; cases h
  repeat' first | with_reducible rfl | intro _ | simp only [↓State.openEntry_vault, ↓State.modStream_vault] | refine (State.streamStep_vault _ _ _ _ ?_).trans ?_ | split

theorem execStreamRecorded_vault : ∀ a0 a1, ∀ t, execStreamRecorded a0 a1 = .next t → t.vault = a1.vault := by
  intros a0 a1 t h; unfold execStreamRecorded at h; cases h
  repeat' first | with_reducible rfl | intro _ | simp only [↓apply_ite State.vault, ite_self, ↓State.skdFault_vault, ↓State.yrdRaise_vault, ↓State.openEntry_vault, ↓State.useObj_vault] | refine (State.streamStep_vault _ _ _ _ ?_).trans ?_ | split

theorem execStreamLoop_vault : ∀ a0 a1, ∀ t, execStreamLoop a0 a1 = .next t → t.vault = a1.vault := by
  intros a0 a1 t h; unfold execStreamLoop at h; cases h
  repeat' first | with_reducible rfl | intro _ | simp only [↓apply_ite State.vault, ite_self, ↓State.modStream_vault] | refine (State.streamStep_vault _ _ _ _ ?_).trans ?_ | split

theorem execStreamEnd_vault : ∀ a0 a1, ∀ t, execStreamEnd a0 a1 = .next t → t.vault = a1.vault := by
  intros a0 a1 t h; unfold execStreamEnd at h; cases h
  repeat' first | with_reducible rfl | intro _ | simp only [↓apply_ite State.vault, ite_self, ↓State.modStream_vault] | refine (State.streamStep_vault _ _ _ _ ?_).trans ?_ | split

theorem State.runPrefetch_vault : ∀ a0 a1 a2, (State.runPrefetch a0 a1 a2).vault = a0.vault := by
  intros; unfold State.runPrefetch
  repeat' first | with_reducible rfl | simp only [↓State.moveObj_vault, ↓State.pinObj_vault, ↓State.unpinObj_vault] | split

theorem State.prefetches_vault : ∀ a0 a1 a2 a3, (State.prefetches a0 a1 a2 a3).vault = a0.vault := by
  intros; unfold State.prefetches
  repeat' first | with_reducible rfl | intro _ | simp only [↓foldl_vault, ↓State.runPrefetch_vault] | split | refine (foldl_vault _ ?_ _ _).trans ?_ | refine (foldl1_vault _ ?_ _ _).trans ?_

theorem State.firstRead_vault : ∀ a0 a1 a2 a3, (State.firstRead a0 a1 a2 a3).vault = a0.vault := by
  intros; unfold State.firstRead
  repeat' first | with_reducible rfl | simp only [↓apply_ite State.vault, ite_self, ↓State.modStream_vault, ↓State.entryRefs_vault, ↓State.prefetches_vault, ↓State.moveObj_vault] | split

theorem execFillReadStart_vault : ∀ a0 a1 a2 a3, ∀ t, execFillReadStart a0 a1 a2 a3 = .next t → t.vault = a3.vault := by
  intros a0 a1 a2 a3 t h; unfold execFillReadStart at h; cases h
  repeat' first | with_reducible rfl | simp only [↓apply_ite State.vault, ite_self, ↓State.firstRead_vault, ↓State.skdFault_vault, ↓State.yrdRaise_vault, ↓State.countBoard_vault, ↓State.useObj_vault, ↓State.addReg_vault, ↓State.entryRefs_vault, ↓State.modStream_vault] | split

theorem execFetchList_vault : ∀ a0 a1 a2, ∀ t, execFetchList a0 a1 a2 = .next t → t.vault = a2.vault := by
  intros a0 a1 a2 t h; unfold execFetchList at h; cases h
  repeat' first | with_reducible rfl | intro _ | simp only [↓apply_ite State.vault, ite_self, ↓foldl_vault, ↓State.deliver_vault, ↓State.skdFault_vault, ↓State.setStream_vault] | split | refine (foldl_vault _ ?_ _ _).trans ?_ | refine (foldl1_vault _ ?_ _ _).trans ?_

theorem execListMerge_vault : ∀ a0 a1 a2, ∀ t, execListMerge a0 a1 a2 = .next t → t.vault = a2.vault := by
  intros a0 a1 a2 t h; unfold execListMerge at h; cases h
  repeat' first | with_reducible rfl | simp only [↓apply_ite State.vault, ite_self, ↓State.sendAll_vault, ↓State.satReg_vault, ↓State.addReg_vault, ↓State.skdFault_vault, ↓State.yrdRaise_vault, ↓State.useObj_vault, ↓State.objWriteV_vault, ↓State.modStream_vault] | split

theorem execFillLaneAssign_vault : ∀ a0 a1, ∀ t, execFillLaneAssign a0 a1 = .next t → t.vault = a1.vault := by
  intros a0 a1 t h; unfold execFillLaneAssign at h; cases h
  repeat' first | with_reducible rfl | simp only [↓apply_ite State.vault, ite_self, ↓State.modStream_vault] | split

theorem execFillLanded_vault : ∀ a0 a1 a2 a3 a4, ∀ t, execFillLanded a0 a1 a2 a3 a4 = .next t → t.vault = a4.vault := by
  intros a0 a1 a2 a3 a4 t h; unfold execFillLanded at h; cases h
  repeat' first | with_reducible rfl | simp only [↓apply_ite State.vault, ite_self, ↓State.skdFault_vault, ↓State.satReg_vault, ↓State.modCell_vault, ↓State.addReg_vault, ↓State.modStream_vault, ↓State.prefetches_vault] | split

theorem State.skdCtrl_vault : ∀ a0 a1, (State.skdCtrl a0 a1).vault = a0.vault := by
  intros; unfold State.skdCtrl
  repeat' first | with_reducible rfl | intro _ | simp only [↓foldl_vault, ↓State.skdStop_vault] | split | refine (foldl_vault _ ?_ _ _).trans ?_ | refine (foldl1_vault _ ?_ _ _).trans ?_

theorem State.sampleStarve_vault : ∀ a0 a1, (State.sampleStarve a0 a1).vault = a0.vault := by
  intros; unfold State.sampleStarve
  simp only [↓apply_ite State.vault, ite_self, ↓State.satReg_vault, ↓State.setRgn_vault]

theorem State.sampleStarves_vault : ∀ a0, (State.sampleStarves a0).vault = a0.vault := by
  intros; unfold State.sampleStarves
  repeat' first | with_reducible rfl | intro _ | simp only [↓apply_ite State.vault, ite_self, ↓foldl_vault, ↓foldl1_vault, ↓State.sampleStarve_vault] | split | refine (foldl_vault _ ?_ _ _).trans ?_ | refine (foldl1_vault _ ?_ _ _).trans ?_

theorem State.clearPeer_vault : ∀ a0 a1, (State.clearPeer a0 a1).vault = a0.vault := by
  intros; unfold State.clearPeer
  simp only [↓State.setRegF_vault]

theorem State.portDown_vault : ∀ a0 a1, (State.portDown a0 a1).vault = a0.vault := by
  intros; unfold State.portDown
  simp only [↓State.raise_vault, ↓State.clearPeer_vault, ↓State.modSky_vault]

theorem State.mapLanes_vault : ∀ a0 a1 a2, (State.mapLanes a0 a1 a2).vault = a0.vault := by
  intros; unfold State.mapLanes
  repeat' first | with_reducible rfl | intro _ | simp only [↓apply_ite State.vault, ite_self, ↓foldl_vault, ↓State.raise_vault, ↓State.satReg_vault, ↓State.setSky_vault] | split | refine (foldl_vault _ ?_ _ _).trans ?_ | refine (foldl1_vault _ ?_ _ _).trans ?_

theorem State.enterRetrain_vault : ∀ a0 a1, (State.enterRetrain a0 a1).vault = a0.vault := by
  intros; unfold State.enterRetrain
  simp only [↓State.satReg_vault, ↓State.setSky_vault]

theorem State.replayAll_vault : ∀ a0 a1, (State.replayAll a0 a1).vault = a0.vault := by
  intros; unfold State.replayAll
  repeat' first | with_reducible rfl | intro _ | simp only [↓apply_ite State.vault, ite_self, ↓foldl_vault, ↓foldl1_vault, ↓State.emit_vault, ↓State.setSky_vault, ↓State.enterRetrain_vault] | split | refine (foldl_vault _ ?_ _ _).trans ?_ | refine (foldl1_vault _ ?_ _ _).trans ?_

theorem State.drainIn_vault : ∀ a0 a1, (State.drainIn a0 a1).vault = a0.vault := by
  intros; unfold State.drainIn
  repeat' first | with_reducible rfl | intro _ | simp only [↓apply_ite State.vault, ite_self, ↓foldl_vault, ↓foldl1_vault, ↓State.setUse_vault, ↓State.modSky_vault, ↓State.send_vault] | split | refine (foldl_vault _ ?_ _ _).trans ?_ | refine (foldl1_vault _ ?_ _ _).trans ?_

theorem State.meshIn_vault : ∀ a0 a1 a2, (State.meshIn a0 a1 a2).vault = a0.vault := by
  intros; unfold State.meshIn
  simp only [↓vault_mk, ↓vault_fold, ↓apply_ite State.vault, ite_self, ↓State.modSky_vault, ↓State.raise_vault, ↓State.satReg_vault, ↓State.drainIn_vault]

theorem State.tileIn_vault : ∀ a0 a1 a2, (State.tileIn a0 a1 a2).1.vault = a0.vault := by
  intros; unfold State.tileIn
  simp only [↓apply_ite State.vault, ite_self, ↓apply_ite Prod.fst, ↓State.setSky_vault, ↓State.modSky_vault]

theorem State.skyReceive_vault : ∀ a0 a1 a2, (State.skyReceive a0 a1 a2).1.vault = a0.vault := by
  intros; unfold State.skyReceive
  repeat' first | with_reducible rfl | intro _ | simp only [↓apply_ite State.vault, ite_self, ↓apply_ite Prod.fst, ↓foldl_vault, ↓foldl1_vault, ↓State.sendSky_vault, ↓State.satReg_vault, ↓State.modSky_vault, ↓State.setSky_vault, ↓State.replayAll_vault, ↓State.addReg_vault, ↓State.meshIn_vault, ↓State.tileIn_vault, ↓State.drainPort_vault] | split | refine (foldl_vault _ ?_ _ _).trans ?_ | refine (foldl1_vault _ ?_ _ _).trans ?_

theorem execSkyAckTimer_vault : ∀ a0 a1, ∀ t, execSkyAckTimer a0 a1 = .next t → t.vault = a1.vault := by
  intros a0 a1 t h; unfold execSkyAckTimer at h; cases h
  simp only [↓apply_ite State.vault, ite_self, ↓State.drainIn_vault, ↓State.sendSky_vault]

theorem execMeshFlitSendTimer_vault : ∀ a0 a1, ∀ t, execMeshFlitSendTimer a0 a1 = .next t → t.vault = a1.vault := by
  intros a0 a1 t h; unfold execMeshFlitSendTimer at h; cases h
  simp only [↓State.drainPort_vault]

theorem execPortRetrain_vault : ∀ a0 a1 a2, ∀ t, execPortRetrain a0 a1 a2 = .next t → t.vault = a2.vault := by
  intros a0 a1 a2 t h; unfold execPortRetrain at h; cases h
  simp only [↓apply_ite State.vault, ite_self, ↓State.mapLanes_vault, ↓State.enterRetrain_vault, ↓State.portDown_vault]

theorem execRetrainAttemptTimeout_vault : ∀ a0 a1, ∀ t, execRetrainAttemptTimeout a0 a1 = .next t → t.vault = a1.vault := by
  intros a0 a1 t h; unfold execRetrainAttemptTimeout at h; cases h
  simp only [↓apply_ite State.vault, ite_self, ↓State.portDown_vault, ↓State.setSky_vault]

theorem execRetrainComplete_vault : ∀ a0 a1 a2, ∀ t, execRetrainComplete a0 a1 a2 = .next t → t.vault = a2.vault := by
  intros a0 a1 a2 t h; unfold execRetrainComplete at h; cases h
  repeat' first | with_reducible rfl | intro _ | simp only [↓apply_ite State.vault, ite_self, ↓foldl_vault, ↓State.mapLanes_vault, ↓State.portDown_vault, ↓State.setSky_vault, ↓State.drainPort_vault, ↓State.emit_vault] | split | refine (foldl_vault _ ?_ _ _).trans ?_ | refine (foldl1_vault _ ?_ _ _).trans ?_

theorem State.writeSkyCtrl_vault : ∀ a0 a1 a2, (State.writeSkyCtrl a0 a1 a2).vault = a0.vault := by
  intros; unfold State.writeSkyCtrl
  simp only [↓apply_ite State.vault, ite_self, ↓State.setRegF_vault, ↓State.clearPeer_vault, ↓State.setSky_vault, ↓State.enterRetrain_vault]

theorem State.setLayer_vault : ∀ a0 a1 a2 a3, (State.setLayer a0 a1 a2 a3).vault = a0.vault := by
  intros; unfold State.setLayer
  simp only [↓State.modRed_vault]

theorem State.modLayer_vault : ∀ a0 a1 a2 a3, (State.modLayer a0 a1 a2 a3).vault = a0.vault := by
  intros; unfold State.modLayer
  repeat' first | with_reducible rfl | simp only [↓State.setLayer_vault] | split

theorem State.redRaise_vault : ∀ a0 a1 a2 a3 a4, (State.redRaise a0 a1 a2 a3 a4).vault = a0.vault := by
  intros; unfold State.redRaise
  simp only [↓State.raise_vault, ↓State.setReg_vault]

theorem State.writeTileAt_vault : ∀ a0 a1 a2 a3 a4, (State.writeTileAt a0 a1 a2 a3 a4).vault = a0.vault := by
  intros; unfold State.writeTileAt
  repeat' first | with_reducible rfl | simp only [↓apply_ite State.vault, ite_self, ↓State.objWriteV_vault, ↓State.useObj_vault] | split

theorem State.putRecTile_vault : ∀ a0 a1 a2 a3 a4 a5 a6 a7, (State.putRecTile a0 a1 a2 a3 a4 a5 a6 a7).vault = a0.vault := by
  intros; unfold State.putRecTile
  simp only [↓apply_ite State.vault, ite_self, ↓State.objWriteV_vault]

theorem State.putRecord_vault : ∀ a0 a1 a2 a3 a4 a5, (State.putRecord a0 a1 a2 a3 a4 a5).vault = a0.vault := by
  intros; unfold State.putRecord
  simp only [↓apply_ite State.vault, ite_self, ↓State.putRecTile_vault, ↓State.objWriteV_vault]

theorem State.writeRecords_vault : ∀ a0 a1 a2 a3 a4 a5, (State.writeRecords a0 a1 a2 a3 a4 a5).vault = a0.vault := by
  intros; unfold State.writeRecords
  repeat' first | with_reducible rfl | intro _ | simp only [↓apply_ite State.vault, ite_self, ↓foldl_vault, ↓foldl1_vault, ↓State.putRecord_vault, ↓State.objWriteV_vault, ↓State.modLayer_vault, ↓State.redRaise_vault] | split | refine (foldl_vault _ ?_ _ _).trans ?_ | refine (foldl1_vault _ ?_ _ _).trans ?_

theorem State.slotVersions_vault : ∀ a0 a1 a2 a3, (State.slotVersions a0 a1 a2 a3).vault = a0.vault := by
  intros; unfold State.slotVersions
  simp only [↓vault_mk, ↓vault_fold, ↓apply_ite State.vault, ite_self]

theorem State.confirmTo_vault : ∀ a0 a1 a2, (State.confirmTo a0 a1 a2).vault = a0.vault := by
  intros; unfold State.confirmTo
  simp only [↓apply_ite State.vault, ite_self, ↓State.freeCount_vault, ↓State.setRegF_vault, ↓State.slotVersions_vault, ↓State.modRed_vault, ↓State.addReg_vault]

theorem State.rollbackTo_vault : ∀ a0 a1, (State.rollbackTo a0 a1).vault = a0.vault := by
  intros; unfold State.rollbackTo
  simp only [↓apply_ite State.vault, ite_self, ↓State.freeCount_vault, ↓State.slotVersions_vault, ↓State.satReg_vault, ↓State.setRegF_vault, ↓State.modRed_vault, ↓State.modSlot_vault]

theorem State.passVerdict_vault : ∀ a0 a1 a2, (State.passVerdict a0 a1 a2).vault = a0.vault := by
  intros; unfold State.passVerdict
  simp only [↓apply_ite State.vault, ite_self, ↓State.modRed_vault, ↓State.digestMsg_vault, ↓State.send_vault, ↓State.raise_vault]

theorem State.rollbackUp_vault : ∀ a0 a1 a2, (State.rollbackUp a0 a1 a2).vault = a0.vault := by
  intros; unfold State.rollbackUp
  simp only [↓apply_ite State.vault, ite_self, ↓State.toModule_vault, ↓State.send_vault]

theorem State.formVerdict_vault : ∀ a0 a1, (State.formVerdict a0 a1).vault = a0.vault := by
  intros; unfold State.formVerdict
  simp only [↓apply_ite State.vault, ite_self, ↓State.satReg_vault, ↓State.passVerdict_vault, ↓State.modRed_vault]

theorem State.compareDigest_vault : ∀ a0 a1 a2 a3 a4, (State.compareDigest a0 a1 a2 a3 a4).vault = a0.vault := by
  intros; unfold State.compareDigest
  simp only [↓apply_ite State.vault, ite_self, ↓State.setLayer_vault, ↓State.redRaise_vault, ↓State.setReg_vault, ↓State.raise_vault]

theorem State.tryAdvance_vault : ∀ a0 a1, (State.tryAdvance a0 a1).vault = a0.vault := by
  intros; unfold State.tryAdvance
  simp only [↓apply_ite State.vault, ite_self, ↓State.modRed_vault, ↓State.setRegF_vault, ↓State.formVerdict_vault]

theorem execCommitMarker_vault : ∀ a0 a1 a2, ∀ t, execCommitMarker a0 a1 a2 = .next t → t.vault = a2.vault := by
  intros a0 a1 a2 t h; unfold execCommitMarker at h; cases h
  repeat' first | with_reducible rfl | intro _ | simp only [↓apply_ite State.vault, ite_self, ↓foldl_vault, ↓foldl1_vault, ↓State.objWriteV_vault, ↓State.setLayer_vault, ↓State.digestMsg_vault, ↓State.compareDigest_vault, ↓State.tryAdvance_vault] | split | refine (foldl_vault _ ?_ _ _).trans ?_ | refine (foldl1_vault _ ?_ _ _).trans ?_

theorem execShadowDigest_vault : ∀ a0 a1 a2 a3 a4, ∀ t, execShadowDigest a0 a1 a2 a3 a4 = .next t → t.vault = a4.vault := by
  intros a0 a1 a2 a3 a4 t h; unfold execShadowDigest at h; cases h
  repeat' first | with_reducible rfl | simp only [↓apply_ite State.vault, ite_self, ↓State.deliver_vault, ↓State.formVerdict_vault, ↓State.compareDigest_vault, ↓State.setLayer_vault] | split

theorem execVerdictArrive_vault : ∀ a0 a1 a2 a3 a4 a5, ∀ t, execVerdictArrive a0 a1 a2 a3 a4 a5 = .next t → t.vault = a5.vault := by
  intros a0 a1 a2 a3 a4 a5 t h; unfold execVerdictArrive at h; cases h
  simp only [↓apply_ite State.vault, ite_self, ↓State.deliver_vault, ↓State.modRed_vault, ↓State.passVerdict_vault]

theorem State.tellKids_vault : ∀ a0 a1 a2, (State.tellKids a0 a1 a2).vault = a0.vault := by
  intros; unfold State.tellKids
  repeat' first | with_reducible rfl | intro _ | simp only [↓foldl_vault, ↓State.toModule_vault] | split | refine (foldl_vault _ ?_ _ _).trans ?_ | refine (foldl1_vault _ ?_ _ _).trans ?_

theorem execConfirm_vault : ∀ a0 a1 a2, ∀ t, execConfirm a0 a1 a2 = .next t → t.vault = a2.vault := by
  intros a0 a1 a2 t h; unfold execConfirm at h; cases h
  simp only [↓apply_ite State.vault, ite_self, ↓State.tellKids_vault, ↓State.deliver_vault, ↓State.modRed_vault, ↓State.confirmTo_vault]

theorem State.endCkpt_vault : ∀ a0 a1, (State.endCkpt a0 a1).vault = a0.vault := by
  intros; unfold State.endCkpt
  repeat' first | with_reducible rfl | simp only [↓apply_ite State.vault, ite_self, ↓State.confirmTo_vault, ↓State.freeCount_vault] | split

theorem execVerdictTimeout_vault : ∀ a0 a1, ∀ t, execVerdictTimeout a0 a1 = .next t → t.vault = a1.vault := by
  intros a0 a1 t h; unfold execVerdictTimeout at h; cases h
  simp only [↓apply_ite State.vault, ite_self, ↓State.redRaise_vault, ↓State.modRed_vault]

theorem State.writeRedStep_vault : ∀ a0 a1 a2, (State.writeRedStep a0 a1 a2).1.vault = a0.vault := by
  intros; unfold State.writeRedStep
  simp only [↓apply_ite State.vault, ite_self, ↓apply_ite Prod.fst, ↓State.reject_vault, ↓State.setReg_vault, ↓State.slotVersions_vault, ↓State.modRed_vault]

theorem State.packTile_vault : ∀ a0 a1 a2 a3 a4 a5, (State.packTile a0 a1 a2 a3 a4 a5).vault = a0.vault := by
  intros; unfold State.packTile
  repeat' first | with_reducible rfl | intro _ | simp only [↓apply_ite State.vault, ite_self, ↓foldl_vault, ↓foldl1_vault, ↓State.objWriteV_vault] | split | refine (foldl_vault _ ?_ _ _).trans ?_ | refine (foldl1_vault _ ?_ _ _).trans ?_

theorem execParameterBroadcastTile_vault : ∀ a0 a1 a2 a3 a4 a5 a6 a7, ∀ t, execParameterBroadcastTile a0 a1 a2 a3 a4 a5 a6 a7 = .next t → t.vault = a7.vault := by
  intros a0 a1 a2 a3 a4 a5 a6 a7 t h; unfold execParameterBroadcastTile at h; cases h
  repeat' first | with_reducible rfl | simp only [↓apply_ite State.vault, ite_self, ↓State.deliver_vault, ↓State.setLayer_vault, ↓State.packTile_vault] | split

theorem State.closeSet_vault : ∀ a0 a1 a2 a3 a4, (State.closeSet a0 a1 a2 a3 a4).vault = a0.vault := by
  intros; unfold State.closeSet
  repeat' first | with_reducible rfl | intro _ | simp only [↓foldl_vault, ↓State.setLayer_vault, ↓State.satReg_vault, ↓State.toModule_vault, ↓State.writeRecords_vault, ↓State.modLayer_vault] | split | refine (foldl_vault _ ?_ _ _).trans ?_ | refine (foldl1_vault _ ?_ _ _).trans ?_

theorem State.shadowTry_vault : ∀ a0 a1 a2, (State.shadowTry a0 a1 a2).vault = a0.vault := by
  intros; unfold State.shadowTry
  repeat' first | with_reducible rfl | simp only [↓apply_ite State.vault, ite_self, ↓State.closeSet_vault] | split

theorem execContribTileArrive_vault : ∀ a0 a1, ∀ t, execContribTileArrive a0 a1 = .next t → t.vault = a1.vault := by
  intros a0 a1 t h; unfold execContribTileArrive at h; cases h
  repeat' first | with_reducible rfl | simp only [↓apply_ite State.vault, ite_self, ↓State.deliver_vault, ↓State.toModule_vault, ↓State.shadowTry_vault, ↓State.setLayer_vault] | split

theorem execContribSetClose_vault : ∀ a0 a1 a2, ∀ t, execContribSetClose a0 a1 a2 = .next t → t.vault = a2.vault := by
  intros a0 a1 a2 t h; unfold execContribSetClose at h; cases h
  repeat' first | with_reducible rfl | simp only [↓apply_ite State.vault, ite_self, ↓State.toModule_vault, ↓State.closeSet_vault] | split

theorem execContribSetNotice_vault : ∀ a0 a1 a2 a3, ∀ t, execContribSetNotice a0 a1 a2 a3 = .next t → t.vault = a3.vault := by
  intros a0 a1 a2 a3 t h; unfold execContribSetNotice at h; cases h
  repeat' first | with_reducible rfl | simp only [↓apply_ite State.vault, ite_self, ↓State.deliver_vault, ↓State.shadowTry_vault, ↓State.setLayer_vault] | split

theorem execSetGraceExpiry_vault : ∀ a0 a1 a2, ∀ t, execSetGraceExpiry a0 a1 a2 = .next t → t.vault = a2.vault := by
  intros a0 a1 a2 t h; unfold execSetGraceExpiry at h; cases h
  repeat' first | with_reducible rfl | simp only [↓apply_ite State.vault, ite_self, ↓State.deliver_vault, ↓State.formVerdict_vault, ↓State.setLayer_vault, ↓State.redRaise_vault, ↓State.toModule_vault, ↓State.closeSet_vault] | split

theorem execContribAck_vault : ∀ a0 a1 a2 a3 a4, ∀ t, execContribAck a0 a1 a2 a3 a4 = .next t → t.vault = a4.vault := by
  intros a0 a1 a2 a3 a4 t h; unfold execContribAck at h; cases h
  simp only [↓apply_ite State.vault, ite_self, ↓State.deliver_vault, ↓State.modRed_vault, ↓State.modLayer_vault]

theorem State.foldTile_vault : ∀ a0 a1 a2, (State.foldTile a0 a1 a2).vault = a0.vault := by
  intros; unfold State.foldTile
  repeat' first | with_reducible rfl | simp only [↓apply_ite State.vault, ite_self, ↓State.objWriteV_vault, ↓State.setCell_vault] | split

theorem execLateRefusal_vault : ∀ a0 a1 a2 a3, ∀ t, execLateRefusal a0 a1 a2 a3 = .next t → t.vault = a3.vault := by
  intros a0 a1 a2 a3 t h; unfold execLateRefusal at h; cases h
  repeat' first | with_reducible rfl | intro _ | simp only [↓apply_ite State.vault, ite_self, ↓foldl_vault, ↓State.deliver_vault, ↓State.setLayer_vault, ↓State.modRed_vault, ↓State.redRaise_vault, ↓State.satReg_vault, ↓State.foldTile_vault] | split | refine (foldl_vault _ ?_ _ _).trans ?_ | refine (foldl1_vault _ ?_ _ _).trans ?_

theorem State.contribute_vault : ∀ a0 a1 a2 a3 a4 a5 a6 a7 a8 a9, (State.contribute a0 a1 a2 a3 a4 a5 a6 a7 a8 a9).vault = a0.vault := by
  intros; unfold State.contribute
  repeat' first | with_reducible rfl | intro _ | simp only [↓apply_ite State.vault, ite_self, ↓foldl_vault, ↓State.modRed_vault, ↓State.send_vault, ↓State.sendTile_vault] | split | refine (foldl_vault _ ?_ _ _).trans ?_ | refine (foldl1_vault _ ?_ _ _).trans ?_

theorem State.publish_vault : ∀ a0 a1 a2 a3 a4 a5 a6 a7, (State.publish a0 a1 a2 a3 a4 a5 a6 a7).vault = a0.vault := by
  intros; unfold State.publish
  repeat' first | with_reducible rfl | intro _ | simp only [↓apply_ite State.vault, ite_self, ↓foldl_vault, ↓foldl1_vault, ↓State.packTile_vault, ↓State.sendTile_vault] | split | refine (foldl_vault _ ?_ _ _).trans ?_ | refine (foldl1_vault _ ?_ _ _).trans ?_

theorem State.routeTile_vault : ∀ a0 a1 a2 a3 a4 a5 a6 a7 a8, (State.routeTile a0 a1 a2 a3 a4 a5 a6 a7 a8).vault = a0.vault := by
  intros; unfold State.routeTile
  repeat' first | with_reducible rfl | simp only [↓apply_ite State.vault, ite_self, ↓State.redRaise_vault, ↓State.contribute_vault, ↓State.writeTileAt_vault, ↓State.setLayer_vault, ↓State.publish_vault] | split

theorem execOutboxTake_vault : ∀ a0 a1 a2, ∀ t, execOutboxTake a0 a1 a2 = .next t → t.vault = a2.vault := by
  intros a0 a1 a2 t h; unfold execOutboxTake at h; cases h
  repeat' first | with_reducible rfl | simp only [↓apply_ite State.vault, ite_self, ↓State.setCell_vault, ↓State.modRed_vault, ↓State.redRaise_vault, ↓State.routeTile_vault, ↓State.paidTile_vault] | split

theorem State.tileContrib_vault : ∀ a0 a1 a2 a3 a4, (State.tileContrib a0 a1 a2 a3 a4).vault = a0.vault := by
  intros; unfold State.tileContrib
  repeat' first | with_reducible rfl | simp only [↓apply_ite State.vault, ite_self, ↓State.fresh_vault, ↓State.send_vault, ↓State.sendTile_vault, ↓State.satReg_vault] | split

theorem State.tileCast_vault : ∀ a0 a1 a2 a3 a4, (State.tileCast a0 a1 a2 a3 a4).vault = a0.vault := by
  intros; unfold State.tileCast
  repeat' first | with_reducible rfl | intro _ | simp only [↓foldl_vault, ↓State.sendTile_vault, ↓State.send_vault, ↓State.satReg_vault] | split | refine (foldl_vault _ ?_ _ _).trans ?_ | refine (foldl1_vault _ ?_ _ _).trans ?_

theorem execSkyFlitReceive_vault : ∀ a0 a1 a2, ∀ t, execSkyFlitReceive a0 a1 a2 = .next t → t.vault = a2.vault := by
  intros a0 a1 a2 t h; unfold execSkyFlitReceive at h; cases h
  repeat' first | with_reducible rfl | simp only [↓apply_ite State.vault, ite_self, ↓State.skyReceive_vault, ↓State.raise_vault, ↓State.satReg_vault, ↓State.tileCast_vault, ↓State.tileContrib_vault] | split

theorem State.setBeat_vault : ∀ a0 a1, (State.setBeat a0 a1).vault = a0.vault := by
  intros; unfold State.setBeat
  simp only [↓vault_mk, ↓vault_fold]

theorem State.beatAlign_vault : ∀ a0 a1, (State.beatAlign a0 a1).vault = a0.vault := by
  intros; unfold State.beatAlign
  simp only [↓vault_mk, ↓vault_fold, ↓apply_ite State.vault, ite_self, ↓State.setBeat_vault, ↓State.raise_vault, ↓State.setReg_vault]

theorem State.measure_vault : ∀ a0 a1 a2, (State.measure a0 a1 a2).vault = a0.vault := by
  intros; unfold State.measure
  repeat' first | with_reducible rfl | simp only [↓State.fresh_vault, ↓State.setBeat_vault] | split

theorem State.beatLock_vault : ∀ a0 a1, (State.beatLock a0 a1).vault = a0.vault := by
  intros; unfold State.beatLock
  simp only [↓State.setBeat_vault, ↓State.measure_vault, ↓State.beatAlign_vault]

theorem State.beatSettle_vault : ∀ a0, (State.beatSettle a0).vault = a0.vault := by
  intros; unfold State.beatSettle
  repeat' first | with_reducible rfl | simp only [↓apply_ite State.vault, ite_self, ↓State.beatLock_vault, ↓State.setBeat_vault, ↓State.raise_vault, ↓State.setRegF_vault] | split

theorem State.setFibre_vault : ∀ a0 a1, (State.setFibre a0 a1).vault = a0.vault := by
  intros; unfold State.setFibre
  simp only [↓State.setBeat_vault]

theorem execTickMarker_vault : ∀ a0 a1 a2, ∀ t, execTickMarker a0 a1 a2 = .next t → t.vault = a2.vault := by
  intros a0 a1 a2 t h; unfold execTickMarker at h; cases h
  simp only [↓apply_ite State.vault, ite_self, ↓State.emit_vault, ↓State.beatSettle_vault, ↓State.setFibre_vault]

theorem execCycleFrame_vault : ∀ a0 a1, ∀ t, execCycleFrame a0 a1 = .next t → t.vault = a1.vault := by
  intros a0 a1 t h; unfold execCycleFrame at h; cases h
  simp only [↓apply_ite State.vault, ite_self, ↓State.setFibre_vault, ↓State.beatSettle_vault, ↓State.measure_vault]

theorem State.setPtp_vault : ∀ a0 a1, (State.setPtp a0 a1).vault = a0.vault := by
  intros; unfold State.setPtp
  simp only [↓State.setBeat_vault]

theorem State.ptpSelect_vault : ∀ a0, (State.ptpSelect a0).vault = a0.vault := by
  intros; unfold State.ptpSelect
  repeat' first | with_reducible rfl | simp only [↓apply_ite State.vault, ite_self, ↓State.beatSettle_vault, ↓State.setPtp_vault] | split

theorem execPtpAnnounce_vault : ∀ a0 a1 a2, ∀ t, execPtpAnnounce a0 a1 a2 = .next t → t.vault = a2.vault := by
  intros a0 a1 a2 t h; unfold execPtpAnnounce at h; cases h
  repeat' first | with_reducible rfl | simp only [↓apply_ite State.vault, ite_self, ↓State.countRx_vault, ↓State.ptpSelect_vault, ↓State.setPtp_vault] | split

theorem State.ptpForget_vault : ∀ a0 a1, (State.ptpForget a0 a1).vault = a0.vault := by
  intros; unfold State.ptpForget
  simp only [↓State.ptpSelect_vault, ↓State.setPtp_vault]

theorem execAnnounceReceiptTimeout_vault : ∀ a0 a1, ∀ t, execAnnounceReceiptTimeout a0 a1 = .next t → t.vault = a1.vault := by
  intros a0 a1 t h; unfold execAnnounceReceiptTimeout at h; cases h
  simp only [↓State.ptpForget_vault]

theorem execEthLinkDown_vault : ∀ a0 a1, ∀ t, execEthLinkDown a0 a1 = .next t → t.vault = a1.vault := by
  intros a0 a1 t h; unfold execEthLinkDown at h; cases h
  simp only [↓vault_mk, ↓vault_fold, ↓apply_ite State.vault, ite_self, ↓State.setEthPort_vault, ↓State.ptpForget_vault, ↓State.raise_vault]

theorem execPtpEventMessage_vault : ∀ a0 a1 a2 a3 a4, ∀ t, execPtpEventMessage a0 a1 a2 a3 a4 = .next t → t.vault = a4.vault := by
  intros a0 a1 a2 a3 a4 t h; unfold execPtpEventMessage at h; cases h
  simp only [↓apply_ite State.vault, ite_self, ↓State.countRx_vault, ↓State.setPtp_vault]

theorem execPtpSync_vault : ∀ a0 a1 a2 a3 a4 a5, ∀ t, execPtpSync a0 a1 a2 a3 a4 a5 = .next t → t.vault = a5.vault := by
  intros a0 a1 a2 a3 a4 a5 t h; unfold execPtpSync at h; cases h
  simp only [↓apply_ite State.vault, ite_self, ↓State.countRx_vault, ↓State.beatSettle_vault, ↓State.setPtp_vault, ↓State.setBeat_vault]

theorem execBeatSourceLoss_vault : ∀ a0 a1, ∀ t, execBeatSourceLoss a0 a1 = .next t → t.vault = a1.vault := by
  intros a0 a1 t h; unfold execBeatSourceLoss at h; cases h
  repeat' first | with_reducible rfl | simp only [↓State.beatSettle_vault, ↓State.setPtp_vault, ↓State.setFibre_vault] | split

theorem State.writeBeatCtrl_vault : ∀ a0 a1, (State.writeBeatCtrl a0 a1).1.vault = a0.vault := by
  intros; unfold State.writeBeatCtrl
  simp only [↓apply_ite State.vault, ite_self, ↓apply_ite Prod.fst, ↓State.reject_vault, ↓State.beatSettle_vault, ↓State.setRegF_vault]

theorem State.setSched_vault : ∀ a0 a1 a2, (State.setSched a0 a1 a2).vault = a0.vault := by
  intros; unfold State.setSched
  simp only [↓State.setBeat_vault]

theorem State.fire_vault : ∀ a0 a1 a2 a3 a4, (State.fire a0 a1 a2 a3 a4).vault = a0.vault := by
  intros; unfold State.fire
  repeat' first | with_reducible rfl | simp only [↓apply_ite State.vault, ite_self, ↓State.setSched_vault, ↓State.addReg_vault, ↓State.send_vault] | split

theorem State.fireEntry_vault : ∀ a0 a1 a2 a3, (State.fireEntry a0 a1 a2 a3).vault = a0.vault := by
  intros; unfold State.fireEntry
  repeat' first | with_reducible rfl | intro _ | simp only [↓apply_ite State.vault, ite_self, ↓foldl_vault, ↓State.setBeat_vault, ↓State.fire_vault, ↓State.satReg_vault] | split | refine (foldl_vault _ ?_ _ _).trans ?_ | refine (foldl1_vault _ ?_ _ _).trans ?_

theorem State.fireSlot_vault : ∀ a0 a1, (State.fireSlot a0 a1).vault = a0.vault := by
  intros; unfold State.fireSlot
  repeat' first | with_reducible rfl | intro _ | simp only [↓apply_ite State.vault, ite_self, ↓foldl_vault, ↓foldl1_vault, ↓State.fireEntry_vault] | split | refine (foldl_vault _ ?_ _ _).trans ?_ | refine (foldl1_vault _ ?_ _ _).trans ?_

theorem State.closeDue_vault : ∀ a0 a1, (State.closeDue a0 a1).vault = a0.vault := by
  intros; unfold State.closeDue
  repeat' first | with_reducible rfl | intro _ | simp only [↓apply_ite State.vault, ite_self, ↓foldl_vault, ↓foldl1_vault, ↓State.send_vault] | split | refine (foldl_vault _ ?_ _ _).trans ?_ | refine (foldl1_vault _ ?_ _ _).trans ?_

theorem State.startSched_vault : ∀ a0 a1 a2, (State.startSched a0 a1 a2).vault = a0.vault := by
  intros; unfold State.startSched
  simp only [↓State.setSched_vault, ↓State.setBeat_vault, ↓State.fireSlot_vault]

theorem State.stopSched_vault : ∀ a0 a1, (State.stopSched a0 a1).vault = a0.vault := by
  intros; unfold State.stopSched
  simp only [↓apply_ite State.vault, ite_self, ↓State.modSlot_vault, ↓State.setSched_vault, ↓State.endCkpt_vault, ↓State.setRegF_vault]

theorem State.onEvent_vault (s m i act) (h : ∀ t n w, (act t n w).vault = t.vault) : (State.onEvent s m i act).vault = s.vault := by
  unfold State.onEvent
  repeat' first | with_reducible rfl | simp only [↓State.deliver_vault, ↓apply_ite State.vault, ite_self, ↓h] | split

theorem execEventWindow_vault : ∀ a0 a1, ∀ t, execEventWindow a0 a1 = .next t → t.vault = a1.vault := by
  intros a0 a1 t h; unfold execEventWindow at h; cases h
  repeat' first | with_reducible rfl | intro _ | simp only [↓vault_mk, ↓vault_fold, ↓apply_ite State.vault, ite_self, ↓State.send_vault] | refine (State.onEvent_vault _ _ _ _ ?_).trans ?_ | split

theorem execWindowClose_vault : ∀ a0 a1, ∀ t, execWindowClose a0 a1 = .next t → t.vault = a1.vault := by
  intros a0 a1 t h; unfold execWindowClose at h; cases h
  repeat' first | with_reducible rfl | intro _ | simp only [↓apply_ite State.vault, ite_self, ↓State.setSched_vault, ↓State.send_vault] | refine (State.onEvent_vault _ _ _ _ ?_).trans ?_ | split

theorem execEventCkpt_vault : ∀ a0 a1, ∀ t, execEventCkpt a0 a1 = .next t → t.vault = a1.vault := by
  intros a0 a1 t h; unfold execEventCkpt at h; cases h
  repeat' first | with_reducible rfl | intro _ | simp only [↓State.setRegF_vault] | refine (State.onEvent_vault _ _ _ _ ?_).trans ?_ | split

theorem execCkptEnd_vault : ∀ a0 a1, ∀ t, execCkptEnd a0 a1 = .next t → t.vault = a1.vault := by
  intros a0 a1 t h; unfold execCkptEnd at h; cases h
  repeat' first | with_reducible rfl | intro _ | simp only [↓State.setSched_vault, ↓State.endCkpt_vault, ↓State.setRegF_vault] | refine (State.onEvent_vault _ _ _ _ ?_).trans ?_ | split

theorem execEventDigest_vault : ∀ a0 a1, ∀ t, execEventDigest a0 a1 = .next t → t.vault = a1.vault := by
  intros a0 a1 t h; unfold execEventDigest at h; cases h
  repeat' first | with_reducible rfl | intro _ | simp only [↓State.releaseMail_vault] | refine (State.onEvent_vault _ _ _ _ ?_).trans ?_ | split

theorem execSlack_vault : ∀ a0 a1 a2 a3, ∀ t, execSlack a0 a1 a2 a3 = .next t → t.vault = a3.vault := by
  intros a0 a1 a2 a3 t h; unfold execSlack at h; cases h
  simp only [↓apply_ite State.vault, ite_self, ↓State.deliver_vault, ↓State.raise_vault, ↓State.satReg_vault, ↓State.setSched_vault, ↓State.toModule_vault]

theorem execShiftDecision_vault : ∀ a0 a1 a2, ∀ t, execShiftDecision a0 a1 a2 = .next t → t.vault = a2.vault := by
  intros a0 a1 a2 t h; unfold execShiftDecision at h; cases h
  repeat' first | with_reducible rfl | intro _ | simp only [↓apply_ite State.vault, ite_self, ↓foldl_vault, ↓foldl1_vault, ↓State.deliver_vault, ↓State.setSched_vault, ↓State.send_vault, ↓State.toModule_vault] | split | refine (foldl_vault _ ?_ _ _).trans ?_ | refine (foldl1_vault _ ?_ _ _).trans ?_

theorem execShift_vault : ∀ a0 a1 a2 a3, ∀ t, execShift a0 a1 a2 a3 = .next t → t.vault = a3.vault := by
  intros a0 a1 a2 a3 t h; unfold execShift at h; cases h
  simp only [↓State.deliver_vault, ↓State.satReg_vault, ↓State.setSched_vault]

theorem State.sendSlack_vault : ∀ a0 a1 a2 a3, (State.sendSlack a0 a1 a2 a3).vault = a0.vault := by
  intros; unfold State.sendSlack
  simp only [↓State.send_vault, ↓State.satReg_vault]

theorem State.writeSlack_vault : ∀ a0 a1, (State.writeSlack a0 a1).1.vault = a0.vault := by
  intros; unfold State.writeSlack
  simp only [↓apply_ite State.vault, ite_self, ↓apply_ite Prod.fst, ↓State.reject_vault, ↓State.sendSlack_vault]

theorem State.latchTime_vault : ∀ a0, (State.latchTime a0).vault = a0.vault := by
  intros; unfold State.latchTime
  simp only [↓State.setBeat_vault]

theorem execBeatTimeSecRead_vault : ∀ a0, ∀ t, execBeatTimeSecRead a0 = .next t → t.vault = a0.vault := by
  intros a0 t h; unfold execBeatTimeSecRead at h; cases h
  simp only [↓State.latchTime_vault]

theorem State.writeTimeSec_vault : ∀ a0 a1, (State.writeTimeSec a0 a1).vault = a0.vault := by
  intros; unfold State.writeTimeSec
  simp only [↓State.setBeat_vault]

theorem State.writeTimeNs_vault : ∀ a0 a1, (State.writeTimeNs a0 a1).vault = a0.vault := by
  intros; unfold State.writeTimeNs
  simp only [↓State.setBeat_vault]

theorem State.clearSched_vault : ∀ a0 a1, (State.clearSched a0 a1).vault = a0.vault := by
  intros; unfold State.clearSched
  simp only [↓State.setBeat_vault]

theorem State.beatPlan_vault {s n b t} (h : State.beatPlan s n b = some t) : t.vault = s.vault := by
  unfold State.beatPlan at h
  dsimp only at h
  repeat' first | contradiction | (cases h; done) | (split at h) | (injection h with h; subst h) | (injection h with h1 h2; subst h2)
  all_goals simp only [↓State.modSlot_vault, ↓State.setBeat_vault, ↓State.clearSched_vault]

theorem State.setBook_vault (s b) (h : b.life = s.book.life) : (State.setBook s b).vault = s.vault := by
  unfold State.setBook; simp only [vault_mk, h]; rfl

theorem State.setFlt_vault : ∀ a0 a1, (State.setFlt a0 a1).vault = a0.vault := by
  intros; unfold State.setFlt
  simp only [↓vault_mk, ↓vault_fold]

theorem State.commitBook_vault : ∀ a0, (State.commitBook a0).vault = a0.vault := by
  intros; unfold State.commitBook
  simp only [↓vault_mk, ↓vault_fold, ↓State.setBook_vault]

theorem State.journal_vault : ∀ a0 a1 a2 a3, (State.journal a0 a1 a2 a3).vault = a0.vault := by
  intros; unfold State.journal
  simp only [↓vault_mk, ↓vault_fold, ↓apply_ite State.vault, ite_self, ↓State.raise_vault, ↓State.commitBook_vault, ↓State.setBook_vault]

theorem State.watchJournal_vault : ∀ a0 a1 a2, (State.watchJournal a0 a1 a2).vault = a0.vault := by
  intros; unfold State.watchJournal
  simp only [↓State.journal_vault]

theorem State.watchRoom_vault : ∀ a0, (State.watchRoom a0).vault = a0.vault := by
  intros; unfold State.watchRoom
  repeat' first | with_reducible rfl | simp only [↓apply_ite State.vault, ite_self, ↓State.watchJournal_vault, ↓State.setFlt_vault] | split

theorem State.watchFail_vault : ∀ a0 a1 a2 a3, (State.watchFail a0 a1 a2 a3).vault = a0.vault := by
  intros; unfold State.watchFail
  repeat' first | with_reducible rfl | simp only [↓apply_ite State.vault, ite_self, ↓State.watchRoom_vault, ↓State.watchJournal_vault, ↓State.setFlt_vault, ↓State.raise_vault] | split

theorem State.watchPass_vault : ∀ a0 a1 a2, (State.watchPass a0 a1 a2).vault = a0.vault := by
  intros; unfold State.watchPass
  repeat' first | with_reducible rfl | simp only [↓apply_ite State.vault, ite_self, ↓State.watchJournal_vault, ↓State.setFlt_vault] | split

theorem State.watchDrop_vault : ∀ a0 a1, (State.watchDrop a0 a1).vault = a0.vault := by
  intros; unfold State.watchDrop
  repeat' first | with_reducible rfl | simp only [↓State.watchJournal_vault, ↓State.setFlt_vault] | split

theorem State.flushLife_vault : ∀ a0, (State.flushLife a0).vault = a0.vault := by
  intros; unfold State.flushLife
  simp only [↓vault_mk, ↓vault_fold, ↓State.commitBook_vault, ↓State.setBook_vault]

theorem execLogbookFlush_vault : ∀ a0, ∀ t, execLogbookFlush a0 = .next t → t.vault = a0.vault := by
  intros a0 t h; unfold execLogbookFlush at h; cases h
  simp only [↓State.flushLife_vault]

theorem execCaParityError_vault : ∀ a0 a1 a2, ∀ t, execCaParityError a0 a1 a2 = .next t → t.vault = a2.vault := by
  intros a0 a1 a2 t h; unfold execCaParityError at h; cases h
  simp only [↓State.satReg_vault]

theorem execStackUncorrectableRead_vault : ∀ a0 a1, ∀ t, execStackUncorrectableRead a0 a1 = .next t → t.vault = a1.vault := by
  intros a0 a1 t h; unfold execStackUncorrectableRead at h; cases h
  simp only [↓vault_mk, ↓vault_fold, ↓apply_ite State.vault, ite_self, ↓State.satReg_vault, ↓State.raise_vault, ↓State.setReg_vault]

theorem State.wrapperWrite_vault : ∀ a0 a1 a2, (State.wrapperWrite a0 a1 a2).1.vault = a0.vault := by
  intros; unfold State.wrapperWrite
  simp only [↓apply_ite State.vault, ite_self, ↓apply_ite Prod.fst, ↓State.setRegF_vault, ↓State.reject_vault]

theorem State.noteRepair_vault : ∀ a0 a1, (State.noteRepair a0 a1).vault = a0.vault := by
  intros; unfold State.noteRepair
  repeat' first | with_reducible rfl | simp only [↓State.journal_vault] | split

theorem execWrapperInstructionDone_vault : ∀ a0 a1 a2, ∀ t, execWrapperInstructionDone a0 a1 a2 = .next t → t.vault = a2.vault := by
  intros a0 a1 a2 t h; unfold execWrapperInstructionDone at h; cases h
  simp only [↓apply_ite State.vault, ite_self, ↓State.setReg_vault, ↓State.setRegF_vault, ↓State.noteRepair_vault]

theorem State.sampleStacks_vault : ∀ a0 a1, (State.sampleStacks a0 a1).vault = a0.vault := by
  intros; unfold State.sampleStacks
  repeat' first | with_reducible rfl | intro _ | simp only [↓vault_mk, ↓vault_fold, ↓apply_ite State.vault, ite_self, ↓foldl_vault, ↓foldl1_vault, ↓State.raise_vault] | split | refine (foldl_vault _ ?_ _ _).trans ?_ | refine (foldl1_vault _ ?_ _ _).trans ?_

theorem State.sizeStacks_vault : ∀ a0 a1, (State.sizeStacks a0 a1).vault = a0.vault := by
  intros; unfold State.sizeStacks
  simp only [↓vault_mk, ↓vault_fold, ↓apply_ite State.vault, ite_self]

theorem State.sizeBoard_vault : ∀ a0 a1, (State.sizeBoard a0 a1).vault = a0.vault := by
  intros; unfold State.sizeBoard
  simp only [↓vault_mk, ↓vault_fold, ↓apply_ite State.vault, ite_self, ↓foldl_vault, ↓foldl1_vault, ↓State.raise_vault]

theorem State.addFar_vault : ∀ a0 a1 a2, (State.addFar a0 a1 a2).1.vault = a0.vault := by
  intros; unfold State.addFar
  simp only [↓vault_mk, ↓vault_fold, ↓apply_ite State.vault, ite_self, ↓apply_ite Prod.fst, ↓foldl_vault, ↓foldl1_vault, ↓State.freeExtents_vault]

theorem State.trainCxl_vault : ∀ a0 a1 a2 a3 a4 a5 a6 a7, (State.trainCxl a0 a1 a2 a3 a4 a5 a6 a7).vault = a0.vault := by
  intros; unfold State.trainCxl
  simp only [↓apply_ite State.vault, ite_self, ↓State.addFar_vault, ↓State.setCxl_vault]

theorem State.sizeFar_vault : ∀ a0 a1 a2, (State.sizeFar a0 a1 a2).vault = a0.vault := by
  intros; unfold State.sizeFar
  repeat' first | with_reducible rfl | intro _ | simp only [↓vault_mk, ↓vault_fold, ↓apply_ite State.vault, ite_self, ↓foldl_vault, ↓foldl1_vault, ↓State.setCxl_vault, ↓State.trainCxl_vault] | split | refine (foldl_vault _ ?_ _ _).trans ?_ | refine (foldl1_vault _ ?_ _ _).trans ?_

theorem execRdimmFail_vault : ∀ a0 a1, ∀ t, execRdimmFail a0 a1 = .next t → t.vault = a1.vault := by
  intros a0 a1 t h; unfold execRdimmFail at h; cases h
  simp only [↓State.raise_vault, ↓State.setReg_vault, ↓State.damage_vault]

theorem execCxlReadTimeout_vault : ∀ a0 a1 a2, ∀ t, execCxlReadTimeout a0 a1 a2 = .next t → t.vault = a2.vault := by
  intros a0 a1 a2 t h; unfold execCxlReadTimeout at h; cases h
  simp only [↓apply_ite State.vault, ite_self, ↓State.satReg_vault]

theorem execCxlLinkDown_vault : ∀ a0 a1, ∀ t, execCxlLinkDown a0 a1 = .next t → t.vault = a1.vault := by
  intros a0 a1 t h; unfold execCxlLinkDown at h; cases h
  simp only [↓apply_ite State.vault, ite_self, ↓State.raise_vault, ↓State.setCxl_vault, ↓State.damage_vault]

theorem execDcdAdd_vault : ∀ a0 a1 a2, ∀ t, execDcdAdd a0 a1 a2 = .next t → t.vault = a2.vault := by
  intros a0 a1 a2 t h; unfold execDcdAdd at h; cases h
  simp only [↓apply_ite State.vault, ite_self, ↓State.addFar_vault, ↓State.satReg_vault]

theorem execDcdRelease_vault : ∀ a0 a1 a2 a3, ∀ t, execDcdRelease a0 a1 a2 a3 = .next t → t.vault = a3.vault := by
  intros a0 a1 a2 a3 t h; unfold execDcdRelease at h; cases h
  simp only [↓vault_mk, ↓vault_fold, ↓apply_ite State.vault, ite_self, ↓foldl_vault, ↓foldl1_vault, ↓State.satReg_vault]

theorem State.rescan_vault : ∀ a0 a1, (State.rescan a0 a1).1.vault = a0.vault := by
  intros; unfold State.rescan
  repeat' first | with_reducible rfl | intro _ | simp only [↓vault_mk, ↓vault_fold, ↓apply_ite State.vault, ite_self, ↓apply_ite Prod.fst, ↓foldl_vault, ↓foldl1_vault, ↓State.reject_vault, ↓State.setCxl_vault] | split | refine (foldl_vault _ ?_ _ _).trans ?_ | refine (foldl1_vault _ ?_ _ _).trans ?_

theorem execCxlTrainingDone_vault : ∀ a0 a1 a2 a3 a4 a5 a6 a7, ∀ t, execCxlTrainingDone a0 a1 a2 a3 a4 a5 a6 a7 = .next t → t.vault = a7.vault := by
  intros a0 a1 a2 a3 a4 a5 a6 a7 t h; unfold execCxlTrainingDone at h; cases h
  simp only [↓apply_ite State.vault, ite_self, ↓State.trainCxl_vault]

theorem State.setPower_vault : ∀ a0 a1, (State.setPower a0 a1).vault = a0.vault := by
  intros; unfold State.setPower
  simp only [↓vault_mk, ↓vault_fold]

theorem State.setHalf_vault : ∀ a0 a1 a2, (State.setHalf a0 a1 a2).vault = a0.vault := by
  intros; unfold State.setHalf
  simp only [↓State.setPower_vault]

theorem State.setPlan_vault : ∀ a0 a1 a2, (State.setPlan a0 a1 a2).vault = a0.vault := by
  intros; unfold State.setPlan
  simp only [↓State.setPower_vault]

theorem State.alarm_vault : ∀ a0 a1, (State.alarm a0 a1).vault = a0.vault := by
  intros; unfold State.alarm
  simp only [↓State.setRegF_vault]

theorem State.settleParity_vault : ∀ a0, (State.settleParity a0).vault = a0.vault := by
  intros; unfold State.settleParity
  simp only [↓apply_ite State.vault, ite_self, ↓State.setPower_vault, ↓State.satReg_vault]

theorem execOpChangeDone_vault : ∀ a0 a1, ∀ t, execOpChangeDone a0 a1 = .next t → t.vault = a1.vault := by
  intros a0 a1 t h; unfold execOpChangeDone at h; cases h
  simp only [↓apply_ite State.vault, ite_self, ↓State.settleParity_vault, ↓State.setHalf_vault]

theorem State.writeCap_vault : ∀ a0 a1, (State.writeCap a0 a1).1.vault = a0.vault := by
  intros; unfold State.writeCap
  simp only [↓apply_ite State.vault, ite_self, ↓apply_ite Prod.fst, ↓State.reject_vault, ↓State.setRegF_vault, ↓State.setPower_vault]

theorem State.writeRamp_vault : ∀ a0 a1, (State.writeRamp a0 a1).1.vault = a0.vault := by
  intros; unfold State.writeRamp
  simp only [↓apply_ite State.vault, ite_self, ↓apply_ite Prod.fst, ↓State.reject_vault, ↓State.setRegF_vault]

theorem State.settleFloor_vault : ∀ a0, (State.settleFloor a0).vault = a0.vault := by
  intros; unfold State.settleFloor
  simp only [↓apply_ite State.vault, ite_self, ↓State.setRegF_vault, ↓State.raise_vault]

theorem State.charge_vault : ∀ a0 a1 a2, (State.charge a0 a1 a2).vault = a0.vault := by
  intros; unfold State.charge
  repeat' first | with_reducible rfl | simp only [↓apply_ite State.vault, ite_self, ↓State.addReg_vault] | split

theorem execInputUndervoltage_vault : ∀ a0, ∀ t, execInputUndervoltage a0 = .next t → t.vault = a0.vault := by
  intros a0 t h; unfold execInputUndervoltage at h; cases h
  simp only [↓apply_ite State.vault, ite_self, ↓State.raise_vault, ↓State.alarm_vault, ↓State.setPower_vault]

theorem State.reevaluate_vault : ∀ a0 a1, (State.reevaluate a0 a1).vault = a0.vault := by
  intros; unfold State.reevaluate
  simp only [↓apply_ite State.vault, ite_self, ↓State.setPower_vault]

theorem State.paceTick_vault : ∀ a0, (State.paceTick a0).vault = a0.vault := by
  intros; unfold State.paceTick
  simp only [↓vault_mk, ↓vault_fold, ↓apply_ite State.vault, ite_self, ↓State.setPower_vault]

theorem State.sampleJunctions_vault : ∀ a0 a1, (State.sampleJunctions a0 a1).vault = a0.vault := by
  intros; unfold State.sampleJunctions
  repeat' first | with_reducible rfl | intro _ | simp only [↓apply_ite State.vault, ite_self, ↓foldl_vault, ↓foldl1_vault, ↓State.setHalf_vault, ↓State.setPower_vault] | split | refine (foldl_vault _ ?_ _ _).trans ?_ | refine (foldl1_vault _ ?_ _ _).trans ?_

theorem execDroopCrossing_vault : ∀ a0 a1 a2 a3, ∀ t, execDroopCrossing a0 a1 a2 a3 = .next t → t.vault = a3.vault := by
  intros a0 a1 a2 a3 t h; unfold execDroopCrossing at h; cases h
  simp only [↓apply_ite State.vault, ite_self, ↓State.satReg_vault, ↓State.freeCount_vault, ↓State.setHalf_vault]

theorem execStretchRelease_vault : ∀ a0 a1, ∀ t, execStretchRelease a0 a1 = .next t → t.vault = a1.vault := by
  intros a0 a1 t h; unfold execStretchRelease at h; cases h
  simp only [↓apply_ite State.vault, ite_self, ↓State.setHalf_vault, ↓State.satReg_vault]

theorem execDroopSevere_vault : ∀ a0 a1, ∀ t, execDroopSevere a0 a1 = .next t → t.vault = a1.vault := by
  intros a0 a1 t h; unfold execDroopSevere at h; cases h
  simp only [↓apply_ite State.vault, ite_self, ↓State.settleParity_vault, ↓State.raiseRgn_vault, ↓State.setHalf_vault]

theorem State.throttleSlack_vault : ∀ a0 a1, (State.throttleSlack a0 a1).vault = a0.vault := by
  intros; unfold State.throttleSlack
  repeat' first | with_reducible rfl | simp only [↓apply_ite State.vault, ite_self, ↓State.sendSlack_vault, ↓State.setPlan_vault] | split

theorem State.throttleAll_vault : ∀ a0, (State.throttleAll a0).vault = a0.vault := by
  intros; unfold State.throttleAll
  repeat' first | with_reducible rfl | intro _ | simp only [↓apply_ite State.vault, ite_self, ↓foldl_vault, ↓State.throttleSlack_vault] | split | refine (foldl_vault _ ?_ _ _).trans ?_ | refine (foldl1_vault _ ?_ _ _).trans ?_

theorem State.powerTick_vault : ∀ a0 a1 a2, (State.powerTick a0 a1 a2).vault = a0.vault := by
  intros; unfold State.powerTick
  simp only [↓apply_ite State.vault, ite_self, ↓State.sampleJunctions_vault, ↓State.settleParity_vault, ↓State.throttleAll_vault, ↓State.paceTick_vault, ↓State.reevaluate_vault]

theorem State.powerPlan_vault {s n b t} (h : State.powerPlan s n b = some t) : t.vault = s.vault := by
  unfold State.powerPlan at h
  dsimp only at h
  repeat' first | contradiction | (cases h; done) | (split at h) | (injection h with h; subst h) | (injection h with h1 h2; subst h2)
  all_goals simp only [↓State.setPlan_vault]

theorem State.dropHold_vault : ∀ a0 a1, (State.dropHold a0 a1).vault = a0.vault := by
  intros; unfold State.dropHold
  simp only [↓State.setPlan_vault]

theorem State.takeHold_vault : ∀ a0 a1, (State.takeHold a0 a1).vault = a0.vault := by
  intros; unfold State.takeHold
  simp only [↓State.setPlan_vault]

theorem execEventBallast_vault : ∀ a0 a1, ∀ t, execEventBallast a0 a1 = .next t → t.vault = a1.vault := by
  intros a0 a1 t h; unfold execEventBallast at h; cases h
  repeat' first | with_reducible rfl | intro _ | simp only [↓State.setPlan_vault] | refine (State.onEvent_vault _ _ _ _ ?_).trans ?_ | split

theorem execEventRamp_vault : ∀ a0 a1, ∀ t, execEventRamp a0 a1 = .next t → t.vault = a1.vault := by
  intros a0 a1 t h; unfold execEventRamp at h; cases h
  repeat' first | with_reducible rfl | intro _ | simp only [↓State.setPower_vault] | refine (State.onEvent_vault _ _ _ _ ?_).trans ?_ | split

theorem State.loseRegion_vault : ∀ a0 a1, (State.loseRegion a0 a1).vault = a0.vault := by
  intros; unfold State.loseRegion
  simp only [↓vault_mk, ↓vault_fold, ↓State.loseT0Cells_vault]

theorem State.trip_vault : ∀ a0 a1 a2, (State.trip a0 a1 a2).vault = a0.vault := by
  intros; unfold State.trip
  simp only [↓apply_ite State.vault, ite_self, ↓State.satReg_vault, ↓State.setRegF_vault, ↓State.setPower_vault, ↓State.raiseRgn_vault, ↓State.loseRegion_vault]

theorem execBreakerTrip_vault : ∀ a0 a1, ∀ t, execBreakerTrip a0 a1 = .next t → t.vault = a1.vault := by
  intros a0 a1 t h; unfold execBreakerTrip at h; cases h
  simp only [↓State.trip_vault]

theorem execJunctionOvertemp_vault : ∀ a0 a1, ∀ t, execJunctionOvertemp a0 a1 = .next t → t.vault = a1.vault := by
  intros a0 a1 t h; unfold execJunctionOvertemp at h; cases h
  simp only [↓State.trip_vault]

theorem State.clearBreaker_vault : ∀ a0 a1 a2, (State.clearBreaker a0 a1 a2).1.vault = a0.vault := by
  intros; unfold State.clearBreaker
  simp only [↓apply_ite State.vault, ite_self, ↓apply_ite Prod.fst, ↓State.reject_vault, ↓State.modRgn_vault, ↓State.setRegF_vault]

theorem execSoftStartDone_vault : ∀ a0 a1, ∀ t, execSoftStartDone a0 a1 = .next t → t.vault = a1.vault := by
  intros a0 a1 t h; unfold execSoftStartDone at h; cases h
  simp only [↓apply_ite State.vault, ite_self, ↓State.modRgn_vault, ↓State.setRegF_vault]

theorem State.streamPlan_vault {s n b t} (h : State.streamPlan s n b = some t) : t.vault = s.vault := by
  unfold State.streamPlan at h
  dsimp only at h
  repeat' first | contradiction | (cases h; done) | (split at h) | (injection h with h; subst h) | (injection h with h1 h2; subst h2)
  all_goals simp only [↓State.modStream_vault]

theorem State.freeObj_vault : ∀ a0 a1, (State.freeObj a0 a1).vault = a0.vault := by
  intros; unfold State.freeObj
  repeat' first | with_reducible rfl | simp only [↓vault_mk, ↓vault_fold, ↓apply_ite State.vault, ite_self, ↓State.freeExtents_vault, ↓State.delObj_vault] | split

theorem State.loadObj_vault : ∀ a0 a1 a2, (State.loadObj a0 a1 a2).vault = a0.vault := by
  intros; unfold State.loadObj
  simp only [↓apply_ite State.vault, ite_self, ↓State.setObj_vault, ↓State.loseT0_vault, ↓State.startAlloc_vault]

theorem State.setQuotas_vault : ∀ a0 a1 a2 a3 a4, (State.setQuotas a0 a1 a2 a3 a4).vault = a0.vault := by
  intros; unfold State.setQuotas
  simp only [↓State.setRegF_vault]

theorem State.applyManifest_vault : ∀ a0 a1 a2, (State.applyManifest a0 a1 a2).vault = a0.vault := by
  intros; unfold State.applyManifest
  repeat' first | with_reducible rfl | intro _ | simp only [↓vault_mk, ↓vault_fold, ↓foldl_vault, ↓State.freeObj_vault, ↓State.loadObj_vault, ↓State.modStream_vault, ↓State.setQuotas_vault] | split | refine (foldl_vault _ ?_ _ _).trans ?_ | refine (foldl1_vault _ ?_ _ _).trans ?_

theorem State.manifestPlan_vault {s n b t} (h : State.manifestPlan s n b = some t) : t.vault = s.vault := by
  unfold State.manifestPlan at h
  repeat' first | contradiction | (cases h; done) | (split at h) | (injection h with h; subst h) | (injection h with h1 h2; subst h2)
  all_goals simp only [↓State.applyManifest_vault]

theorem State.redPlan_vault {s n b t} (h : State.redPlan s n b = some t) : t.vault = s.vault := by
  unfold State.redPlan at h
  dsimp only at h
  repeat' first | contradiction | (cases h; done) | (split at h) | (injection h with h; subst h) | (injection h with h1 h2; subst h2)
  all_goals simp only [↓State.modSlot_vault, ↓State.setRed_vault]

theorem State.setLdr_vault : ∀ a0 a1, (State.setLdr a0 a1).vault = a0.vault := by
  intros; unfold State.setLdr
  simp only [↓vault_mk, ↓vault_fold]

theorem State.modLdr_vault : ∀ a0 a1, (State.modLdr a0 a1).vault = a0.vault := by
  intros; unfold State.modLdr
  simp only [↓vault_mk, ↓vault_fold]

theorem State.setImgState_vault : ∀ a0 a1, (State.setImgState a0 a1).vault = a0.vault := by
  intros; unfold State.setImgState
  simp only [↓State.setRegF_vault]

theorem State.unloadRect_vault : ∀ a0 a1, (State.unloadRect a0 a1).vault = a0.vault := by
  intros; unfold State.unloadRect
  simp only [↓vault_mk, ↓vault_fold, ↓apply_ite State.vault, ite_self]

theorem State.clearPlans_vault : ∀ a0 a1, (State.clearPlans a0 a1).vault = a0.vault := by
  intros; unfold State.clearPlans
  simp only [↓State.setStream_vault, ↓State.clearStream_vault, ↓State.setPlan_vault, ↓State.clearSched_vault, ↓State.setRed_vault]

theorem State.clearMeasure_vault : ∀ a0 a1, (State.clearMeasure a0 a1).vault = a0.vault := by
  intros; unfold State.clearMeasure
  simp only [↓State.clearRegs_vault]

theorem State.voidManifest_vault : ∀ a0 a1, (State.voidManifest a0 a1).vault = a0.vault := by
  intros; unfold State.voidManifest
  repeat' first | with_reducible rfl | intro _ | simp only [↓vault_mk, ↓vault_fold, ↓foldl_vault, ↓State.freeExtents_vault, ↓State.setAllocs_vault, ↓State.freeObj_vault, ↓State.setQuotas_vault] | split | refine (foldl_vault _ ?_ _ _).trans ?_ | refine (foldl1_vault _ ?_ _ _).trans ?_

theorem State.voidLoad_vault : ∀ a0, (State.voidLoad a0).vault = a0.vault := by
  intros; unfold State.voidLoad
  simp only [↓vault_mk, ↓vault_fold, ↓apply_ite State.vault, ite_self, ↓State.unloadRect_vault, ↓State.setSlot_vault, ↓State.clearPlans_vault, ↓State.voidManifest_vault, ↓State.clearMeasure_vault]

theorem State.endLoad_vault : ∀ a0 a1, (State.endLoad a0 a1).vault = a0.vault := by
  intros; unfold State.endLoad
  simp only [↓State.setImgState_vault, ↓State.setLdr_vault, ↓State.voidLoad_vault]

theorem State.failLoad_vault : ∀ a0 a1 a2, (State.failLoad a0 a1 a2).vault = a0.vault := by
  intros; unfold State.failLoad
  simp only [↓State.setReg_vault, ↓State.endLoad_vault]

theorem State.abortLoad_vault : ∀ a0, (State.abortLoad a0).vault = a0.vault := by
  intros; unfold State.abortLoad
  simp only [↓apply_ite State.vault, ite_self, ↓State.endLoad_vault]

theorem State.restartLoad_vault : ∀ a0, (State.restartLoad a0).vault = a0.vault := by
  intros; unfold State.restartLoad
  simp only [↓apply_ite State.vault, ite_self, ↓State.failLoad_vault, ↓State.setRegF_vault, ↓State.setImgState_vault, ↓State.setLdr_vault, ↓State.voidLoad_vault]

theorem State.startLoad_vault : ∀ a0 a1, (State.startLoad a0 a1).vault = a0.vault := by
  intros; unfold State.startLoad
  simp only [↓State.setReg_vault, ↓State.setLdr_vault]

theorem State.writeImgCtrl_vault : ∀ a0 a1, (State.writeImgCtrl a0 a1).1.vault = a0.vault := by
  intros; unfold State.writeImgCtrl
  simp only [↓apply_ite State.vault, ite_self, ↓apply_ite Prod.fst, ↓State.setRegF_vault, ↓State.abortLoad_vault, ↓State.reject_vault, ↓State.startLoad_vault]

theorem State.claim_vault : ∀ a0 a1, (State.claim a0 a1).vault = a0.vault := by
  intros; unfold State.claim
  repeat' first | with_reducible rfl | intro _ | simp only [↓vault_mk, ↓vault_fold, ↓foldl_vault, ↓State.clearRegs_vault, ↓State.clearPlans_vault, ↓State.unloadRect_vault, ↓State.setSlot_vault, ↓State.modRgn_vault, ↓State.modLdr_vault, ↓State.setReg_vault, ↓State.clearMeasure_vault] | split | refine (foldl_vault _ ?_ _ _).trans ?_ | refine (foldl1_vault _ ?_ _ _).trans ?_

theorem State.deliverSec_vault {s n x t} (h : State.deliverSec s n x = some t) : t.vault = s.vault := by
  unfold State.deliverSec at h
  dsimp only at h
  split at h
  · exact State.streamPlan_vault h
  · exact State.manifestPlan_vault h
  · exact State.redPlan_vault h
  · exact State.beatPlan_vault h
  · exact State.powerPlan_vault h
  · cases h; rfl

theorem State.deliverAll_vault (n) : ∀ l s, (State.deliverAll n l s).1.vault = s.vault := by
  intro l
  induction l with
  | nil => intros; rfl
  | cons x t ih =>
    intro s; unfold State.deliverAll
    split
    · rw [ih]; exact State.deliverSec_vault (by assumption)
    · rfl

theorem State.sendOpens_vault : ∀ a0, (State.sendOpens a0).vault = a0.vault := by
  intros; unfold State.sendOpens
  simp only [↓apply_ite State.vault, ite_self, ↓State.setImgState_vault, ↓State.modLdr_vault, ↓State.sendAll_vault]

theorem State.pollLoad_vault : ∀ a0, (State.pollLoad a0).vault = a0.vault := by
  intros; unfold State.pollLoad
  simp only [↓apply_ite State.vault, ite_self, ↓State.failLoad_vault, ↓State.sendOpens_vault]

theorem execLoadVerifyDone_vault : ∀ s t, execLoadVerifyDone s = .next t → t.vault = s.vault := by
  intro s t h; unfold execLoadVerifyDone at h; cases h
  dsimp only
  split
  · with_reducible rfl
  · split
    · simp only [↓State.failLoad_vault]
    · split
      · simp only [↓State.failLoad_vault]
      · split <;>
        · rename_i e
          have h := congrArg (fun r : State × Option Nat => r.1.vault) e
          simp only [↓State.deliverAll_vault, ↓apply_ite State.vault, ↓State.claim_vault, ↓State.setImgState_vault, ↓State.applyManifest_vault, ite_self] at h
          simp only [↓State.failLoad_vault, ↓State.pollLoad_vault, ← h]

theorem execExtentCopyDone_vault : ∀ a0 a1 a2, ∀ t, execExtentCopyDone a0 a1 a2 = .next t → t.vault = a2.vault := by
  intros a0 a1 a2 t h; unfold execExtentCopyDone at h; cases h
  simp only [↓State.pollLoad_vault, ↓State.extentCopyDone_vault]

theorem execAllocationRetry_vault : ∀ a0, ∀ t, execAllocationRetry a0 = .next t → t.vault = a0.vault := by
  intros a0 t h; unfold execAllocationRetry at h; cases h
  simp only [↓State.pollLoad_vault, ↓State.allocationRetry_vault]

theorem execAllocationWaitLimit_vault : ∀ a0 a1, ∀ t, execAllocationWaitLimit a0 a1 = .next t → t.vault = a1.vault := by
  intros a0 a1 t h; unfold execAllocationWaitLimit at h; cases h
  simp only [↓State.pollLoad_vault, ↓State.allocationLimit_vault]

theorem State.setLoad_vault : ∀ a0 a1 a2, (State.setLoad a0 a1 a2).vault = a0.vault := by
  intros; unfold State.setLoad
  repeat' first | with_reducible rfl | simp only [↓State.modCell_vault, ↓State.modFm_vault] | split

theorem execLoadOpen_vault : ∀ a0 a1, ∀ t, execLoadOpen a0 a1 = .next t → t.vault = a1.vault := by
  intros a0 a1 t h; unfold execLoadOpen at h; cases h
  simp only [↓apply_ite State.vault, ite_self, ↓State.deliver_vault, ↓State.setLoad_vault, ↓State.modLdr_vault, ↓State.setImgState_vault]

theorem execLoadOpenRetry_vault : ∀ a0, ∀ t, execLoadOpenRetry a0 = .next t → t.vault = a0.vault := by
  intros a0 t h; unfold execLoadOpenRetry at h; cases h
  simp only [↓apply_ite State.vault, ite_self, ↓State.pollLoad_vault, ↓State.sendAll_vault, ↓State.modLdr_vault, ↓State.setImgState_vault]

theorem execChunkLead_vault : ∀ a0 a1 a2 a3, ∀ t, execChunkLead a0 a1 a2 a3 = .next t → t.vault = a3.vault := by
  intros a0 a1 a2 a3 t h; unfold execChunkLead at h; cases h
  simp only [↓apply_ite State.vault, ite_self, ↓State.setLoad_vault, ↓State.setRegF_vault]

theorem State.takeChunk_vault : ∀ a0 a1 a2 a3, (State.takeChunk a0 a1 a2 a3).vault = a0.vault := by
  intros; unfold State.takeChunk
  repeat' first | with_reducible rfl | simp only [↓apply_ite State.vault, ite_self, ↓State.setLoad_vault, ↓State.modCell_vault, ↓State.modFm_vault] | split

theorem execChunkData_vault : ∀ a0 a1 a2, ∀ t, execChunkData a0 a1 a2 = .next t → t.vault = a2.vault := by
  intros a0 a1 a2 t h; unfold execChunkData at h; cases h
  repeat' first | with_reducible rfl | simp only [↓apply_ite State.vault, ite_self, ↓State.setLoad_vault, ↓State.takeChunk_vault] | split

theorem execMiss_vault : ∀ a0 a1 a2, ∀ t, execMiss a0 a1 a2 = .next t → t.vault = a2.vault := by
  intros a0 a1 a2 t h; unfold execMiss at h; cases h
  simp only [↓vault_mk, ↓vault_fold, ↓apply_ite State.vault, ite_self, ↓State.deliver_vault, ↓State.modLdr_vault]

theorem State.remapRow_vault : ∀ a0 a1, (State.remapRow a0 a1).vault = a0.vault := by
  intros; unfold State.remapRow
  repeat' first | with_reducible rfl | intro _ | simp only [↓vault_mk, ↓vault_fold, ↓foldl_vault, ↓foldl1_vault, ↓State.loseT0Cells_vault, ↓State.setCell_vault] | split | refine (foldl_vault _ ?_ _ _).trans ?_ | refine (foldl1_vault _ ?_ _ _).trans ?_

theorem State.suspectCell_vault : ∀ a0 a1, (State.suspectCell a0 a1).1.vault = a0.vault := by
  intros; unfold State.suspectCell
  repeat' first | with_reducible rfl | intro _ | simp only [↓apply_ite State.vault, ite_self, ↓apply_ite Prod.fst, ↓foldl_vault, ↓foldl1_vault, ↓State.watchFail_vault, ↓State.satReg_vault, ↓State.raiseCell_vault, ↓State.fenceCell_vault, ↓State.remapRow_vault, ↓State.setLoad_vault] | split | refine (foldl_vault _ ?_ _ _).trans ?_ | refine (foldl1_vault _ ?_ _ _).trans ?_

theorem State.suspectCells_vault : ∀ l s, (State.suspectCells l s).1.vault = s.vault := by
  intro l
  induction l with
  | nil => intros; rfl
  | cons c t ih =>
    intro s; unfold State.suspectCells
    have h := State.suspectCell_vault s c
    split
    · rename_i e; rw [e] at h; rw [ih]; exact h
    · rename_i e; rw [e] at h; exact h

theorem State.sendConfigure_vault : ∀ a0, (State.sendConfigure a0).vault = a0.vault := by
  intros; unfold State.sendConfigure
  simp only [↓State.send_vault, ↓State.modLdr_vault]

theorem State.endRounds_vault (s) : (State.endRounds s).vault = s.vault := by
  unfold State.endRounds
  dsimp only
  split
  · simp only [↓State.failLoad_vault]
  · split
    · simp only [↓State.sendConfigure_vault]
    · split
      · simp only [↓State.failLoad_vault]
      · split <;>
        · rename_i e
          have h := congrArg (fun r : State × Option Nat => r.1.vault) e
          simp only [↓State.suspectCells_vault] at h
          simp only [↓State.failLoad_vault, ↓State.setRegF_vault, ↓State.setImgState_vault, ↓State.modLdr_vault, ← h]

theorem execLoadBroadcastDone_vault : ∀ a0, ∀ t, execLoadBroadcastDone a0 = .next t → t.vault = a0.vault := by
  intros a0 t h; unfold execLoadBroadcastDone at h; cases h
  repeat' first | with_reducible rfl | simp only [↓apply_ite State.vault, ite_self, ↓State.failLoad_vault, ↓State.setImgState_vault, ↓State.modLdr_vault, ↓State.setRegF_vault] | split

theorem State.loadCheck_vault : ∀ a0, (State.loadCheck a0).vault = a0.vault := by
  intros; unfold State.loadCheck
  simp only [↓apply_ite State.vault, ite_self, ↓State.endRounds_vault, ↓State.sendAll_vault, ↓State.modLdr_vault]

theorem State.loadRound_vault : ∀ a0, (State.loadRound a0).vault = a0.vault := by
  intros; unfold State.loadRound
  simp only [↓apply_ite State.vault, ite_self, ↓State.endRounds_vault, ↓State.send_vault, ↓State.setRegF_vault, ↓State.modLdr_vault]

theorem State.loadWindowEnd_vault : ∀ a0, (State.loadWindowEnd a0).vault = a0.vault := by
  intros; unfold State.loadWindowEnd
  simp only [↓apply_ite State.vault, ite_self, ↓State.satReg_vault, ↓State.modLdr_vault]

theorem State.configureTarget_vault : ∀ a0 a1, (State.configureTarget a0 a1).vault = a0.vault := by
  intros; unfold State.configureTarget
  repeat' first | with_reducible rfl | simp only [↓State.modCell_vault, ↓State.modFm_vault] | split

theorem State.setMeasure_vault : ∀ a0 a1 a2, (State.setMeasure a0 a1 a2).vault = a0.vault := by
  intros; unfold State.setMeasure
  repeat' first | with_reducible rfl | intro _ | simp only [↓foldl_vault, ↓State.setReg_vault] | split | refine (foldl_vault _ ?_ _ _).trans ?_ | refine (foldl1_vault _ ?_ _ _).trans ?_

theorem execLoadConfigure_vault : ∀ a0, ∀ t, execLoadConfigure a0 = .next t → t.vault = a0.vault := by
  intros a0 t h; unfold execLoadConfigure at h; cases h
  repeat' first | with_reducible rfl | intro _ | simp only [↓apply_ite State.vault, ite_self, ↓foldl_vault, ↓State.deliver_vault, ↓State.configureTarget_vault, ↓State.setReg_vault, ↓State.setMeasure_vault, ↓State.modSlot_vault, ↓State.setImgState_vault, ↓State.setLdr_vault, ↓State.clearBarriers_vault] | split | refine (foldl_vault _ ?_ _ _).trans ?_ | refine (foldl1_vault _ ?_ _ _).trans ?_

theorem State.record_vault : ∀ a0 a1, (State.record a0 a1).vault = a0.vault := by
  intros; unfold State.record
  repeat' first | with_reducible rfl | simp only [↓apply_ite State.vault, ite_self, ↓State.satReg_vault, ↓State.setFlt_vault, ↓State.journal_vault] | split

theorem State.setJob_vault : ∀ a0 a1 a2, (State.setJob a0 a1 a2).vault = a0.vault := by
  intros; unfold State.setJob
  simp only [↓vault_mk, ↓vault_fold]

theorem State.modJob_vault : ∀ a0 a1 a2, (State.modJob a0 a1 a2).vault = a0.vault := by
  intros; unfold State.modJob
  simp only [↓State.setJob_vault]

theorem State.setJobState_vault : ∀ a0 a1 a2, (State.setJobState a0 a1 a2).vault = a0.vault := by
  intros; unfold State.setJobState
  simp only [↓State.setRegF_vault]

theorem State.setCause_vault : ∀ a0 a1 a2 a3, (State.setCause a0 a1 a2 a3).vault = a0.vault := by
  intros; unfold State.setCause
  simp only [↓State.setRegF_vault]

theorem State.stopJob_vault : ∀ a0 a1, (State.stopJob a0 a1).vault = a0.vault := by
  intros; unfold State.stopJob
  repeat' first | with_reducible rfl | intro _ | simp only [↓apply_ite State.vault, ite_self, ↓foldl_vault, ↓State.sendAll_vault, ↓State.modFm_vault, ↓State.dropHold_vault, ↓State.stopSched_vault, ↓State.skdStop_vault] | split | refine (foldl_vault _ ?_ _ _).trans ?_ | refine (foldl1_vault _ ?_ _ _).trans ?_

theorem State.cutCommit_vault : ∀ a0 a1, (State.cutCommit a0 a1).vault = a0.vault := by
  intros; unfold State.cutCommit
  simp only [↓apply_ite State.vault, ite_self, ↓State.raise_vault, ↓State.rollbackUp_vault, ↓State.rollbackTo_vault]

theorem State.startRepair_vault : ∀ a0 a1, (State.startRepair a0 a1).vault = a0.vault := by
  intros; unfold State.startRepair
  simp only [↓State.modJob_vault, ↓State.setJobState_vault]

theorem State.autoRepair_vault : ∀ a0 a1 a2, (State.autoRepair a0 a1 a2).vault = a0.vault := by
  intros; unfold State.autoRepair
  simp only [↓apply_ite State.vault, ite_self, ↓State.startRepair_vault]

theorem State.flagStep_vault : ∀ a0 a1, (State.flagStep a0 a1).vault = a0.vault := by
  intros; unfold State.flagStep
  simp only [↓State.modSlot_vault]

theorem State.faultJob_vault : ∀ a0 a1 a2 a3, (State.faultJob a0 a1 a2 a3).vault = a0.vault := by
  intros; unfold State.faultJob
  simp only [↓apply_ite State.vault, ite_self, ↓State.stopJob_vault, ↓State.rollbackUp_vault, ↓State.rollbackTo_vault, ↓State.raise_vault, ↓State.flagStep_vault, ↓State.setJobState_vault, ↓State.setCause_vault, ↓State.modJob_vault, ↓State.autoRepair_vault]

theorem State.jobAction_vault : ∀ a0 a1 a2 a3, (State.jobAction a0 a1 a2 a3).vault = a0.vault := by
  intros; unfold State.jobAction
  simp only [↓apply_ite State.vault, ite_self, ↓State.faultJob_vault, ↓State.autoRepair_vault, ↓State.setJobState_vault, ↓State.setCause_vault, ↓State.modJob_vault]

theorem State.fenceFor_vault : ∀ a0 a1, (State.fenceFor a0 a1).vault = a0.vault := by
  intros; unfold State.fenceFor
  repeat' first | with_reducible rfl | intro _ | simp only [↓apply_ite State.vault, ite_self, ↓foldl_vault, ↓State.abandonBuild_vault, ↓State.modFm_vault, ↓State.fenceBy_vault] | split | refine (foldl_vault _ ?_ _ _).trans ?_ | refine (foldl1_vault _ ?_ _ _).trans ?_

theorem State.takeFault_vault : ∀ a0 a1, (State.takeFault a0 a1).vault = a0.vault := by
  intros; unfold State.takeFault
  repeat' first | with_reducible rfl | intro _ | simp only [↓vault_mk, ↓vault_fold, ↓apply_ite State.vault, ite_self, ↓foldl_vault, ↓foldl1_vault, ↓State.record_vault, ↓State.modJob_vault, ↓State.setCause_vault, ↓State.watchFail_vault, ↓State.fenceFor_vault, ↓State.jobAction_vault] | split | refine (foldl_vault _ ?_ _ _).trans ?_ | refine (foldl1_vault _ ?_ _ _).trans ?_

theorem execFaultNotice_vault : ∀ a0 a1, ∀ t, execFaultNotice a0 a1 = .next t → t.vault = a1.vault := by
  intros a0 a1 t h; unfold execFaultNotice at h; cases h
  simp only [↓State.takeFault_vault, ↓State.deliver_vault]

theorem State.armJob_vault : ∀ a0 a1 a2, (State.armJob a0 a1 a2).vault = a0.vault := by
  intros; unfold State.armJob
  simp only [↓State.setSched_vault, ↓State.modJob_vault]

theorem State.drainJob_vault : ∀ a0 a1, (State.drainJob a0 a1).1.vault = a0.vault := by
  intros; unfold State.drainJob
  simp only [↓apply_ite State.vault, ite_self, ↓apply_ite Prod.fst, ↓State.setJobState_vault, ↓State.reject_vault]

theorem State.writeJobCtrl_vault : ∀ a0 a1, (State.writeJobCtrl a0 a1).1.vault = a0.vault := by
  intros; unfold State.writeJobCtrl
  simp only [↓apply_ite State.vault, ite_self, ↓apply_ite Prod.fst, ↓State.setRegF_vault, ↓State.armJob_vault, ↓State.reject_vault, ↓State.drainJob_vault]

theorem State.beginJob_vault : ∀ a0 a1 a2, (State.beginJob a0 a1 a2).vault = a0.vault := by
  intros; unfold State.beginJob
  repeat' first | with_reducible rfl | intro _ | simp only [↓foldl_vault, ↓State.clearBarriers_vault, ↓State.modCell_vault, ↓State.modFm_vault, ↓State.sendAll_vault, ↓State.takeHold_vault, ↓State.startStream_vault, ↓State.modJob_vault, ↓State.startSched_vault, ↓State.setJobState_vault] | split | refine (foldl_vault _ ?_ _ _).trans ?_ | refine (foldl1_vault _ ?_ _ _).trans ?_

theorem execJobOrigin_vault : ∀ a0 a1, ∀ t, execJobOrigin a0 a1 = .next t → t.vault = a1.vault := by
  intros a0 a1 t h; unfold execJobOrigin at h; cases h
  repeat' first | with_reducible rfl | simp only [↓apply_ite State.vault, ite_self, ↓State.deliver_vault, ↓State.setCause_vault, ↓State.setReg_vault, ↓State.beginJob_vault, ↓State.setRegF_vault] | split

theorem State.endDrain_vault : ∀ a0 a1, (State.endDrain a0 a1).vault = a0.vault := by
  intros; unfold State.endDrain
  simp only [↓State.setJobState_vault, ↓State.cutCommit_vault, ↓State.stopJob_vault]

theorem execBarrierRelease_vault : ∀ a0 a1 a2, ∀ t, execBarrierRelease a0 a1 a2 = .next t → t.vault = a2.vault := by
  intros a0 a1 a2 t h; unfold execBarrierRelease at h; cases h
  simp only [↓apply_ite State.vault, ite_self, ↓State.deliver_vault, ↓State.stepRecord_vault, ↓State.releaseHalf_vault, ↓State.endDrain_vault]

theorem execRollback_vault : ∀ a0 a1 a2 a3 a4, ∀ t, execRollback a0 a1 a2 a3 a4 = .next t → t.vault = a4.vault := by
  intros a0 a1 a2 a3 a4 t h; unfold execRollback at h; cases h
  simp only [↓apply_ite State.vault, ite_self, ↓State.tellKids_vault, ↓State.deliver_vault, ↓State.rollbackTo_vault, ↓State.stopJob_vault, ↓State.setJobState_vault, ↓State.modJob_vault]

theorem execReplayOrigin_vault : ∀ a0 a1, ∀ t, execReplayOrigin a0 a1 = .next t → t.vault = a1.vault := by
  intros a0 a1 t h; unfold execReplayOrigin at h; cases h
  repeat' first | with_reducible rfl | simp only [↓apply_ite State.vault, ite_self, ↓State.deliver_vault, ↓State.satReg_vault, ↓State.setReg_vault, ↓State.beginJob_vault] | split

theorem State.hostRollback_vault : ∀ a0 a1, (State.hostRollback a0 a1).vault = a0.vault := by
  intros; unfold State.hostRollback
  simp only [↓apply_ite State.vault, ite_self, ↓State.raise_vault, ↓State.rollbackUp_vault, ↓State.rollbackTo_vault]

theorem State.writeRedCtrl_vault : ∀ a0 a1, (State.writeRedCtrl a0 a1).vault = a0.vault := by
  intros; unfold State.writeRedCtrl
  repeat' first | with_reducible rfl | intro _ | simp only [↓foldl_vault, ↓State.hostRollback_vault, ↓State.setRegF_vault, ↓State.endCkpt_vault] | split | refine (foldl_vault _ ?_ _ _).trans ?_ | refine (foldl1_vault _ ?_ _ _).trans ?_

theorem State.setRepair_vault : ∀ a0 a1 a2, (State.setRepair a0 a1 a2).vault = a0.vault := by
  intros; unfold State.setRepair
  simp only [↓State.modJob_vault]

theorem State.failRepair_vault : ∀ a0 a1 a2 a3, (State.failRepair a0 a1 a2 a3).vault = a0.vault := by
  intros; unfold State.failRepair
  simp only [↓apply_ite State.vault, ite_self, ↓State.raise_vault, ↓State.setJobState_vault, ↓State.setCause_vault, ↓State.setRepair_vault]

theorem State.endRepair_vault : ∀ a0 a1, (State.endRepair a0 a1).vault = a0.vault := by
  intros; unfold State.endRepair
  simp only [↓State.satReg_vault, ↓State.setJobState_vault, ↓State.modJob_vault]

theorem State.openBlocks_vault : ∀ a0 a1 a2 a3, (State.openBlocks a0 a1 a2 a3).vault = a0.vault := by
  intros; unfold State.openBlocks
  repeat' first | with_reducible rfl | intro _ | simp only [↓foldl_vault, ↓State.setLoad_vault, ↓State.modJob_vault] | split | refine (foldl_vault _ ?_ _ _).trans ?_ | refine (foldl1_vault _ ?_ _ _).trans ?_

theorem State.recoverLost_vault : ∀ a0 a1, (State.recoverLost a0 a1).vault = a0.vault := by
  intros; unfold State.recoverLost
  repeat' first | with_reducible rfl | intro _ | simp only [↓apply_ite State.vault, ite_self, ↓foldl_vault, ↓foldl1_vault, ↓State.endRepair_vault, ↓State.failRepair_vault, ↓State.clearBreaker_vault, ↓State.modJob_vault] | split | refine (foldl_vault _ ?_ _ _).trans ?_ | refine (foldl1_vault _ ?_ _ _).trans ?_

theorem State.afterRestarts_vault : ∀ a0 a1, (State.afterRestarts a0 a1).vault = a0.vault := by
  intros; unfold State.afterRestarts
  repeat' first | with_reducible rfl | simp only [↓apply_ite State.vault, ite_self, ↓State.recoverLost_vault, ↓State.openBlocks_vault] | split

theorem execStagingCheckDone_vault : ∀ a0 a1, ∀ t, execStagingCheckDone a0 a1 = .next t → t.vault = a1.vault := by
  intros a0 a1 t h; unfold execStagingCheckDone at h; cases h
  repeat' first | with_reducible rfl | simp only [↓apply_ite State.vault, ite_self, ↓State.failRepair_vault, ↓State.setRepair_vault, ↓State.afterRestarts_vault, ↓State.sendAll_vault] | split

theorem State.regionRestarted_vault : ∀ a0 a1 a2, (State.regionRestarted a0 a1 a2).vault = a0.vault := by
  intros; unfold State.regionRestarted
  repeat' first | with_reducible rfl | intro _ | simp only [↓apply_ite State.vault, ite_self, ↓foldl_vault, ↓State.remapRow_vault, ↓State.setRepair_vault, ↓State.afterRestarts_vault] | split | refine (foldl_vault _ ?_ _ _).trans ?_ | refine (foldl1_vault _ ?_ _ _).trans ?_

theorem State.lostReturned_vault : ∀ a0 a1, (State.lostReturned a0 a1).vault = a0.vault := by
  intros; unfold State.lostReturned
  repeat' first | with_reducible rfl | simp only [↓apply_ite State.vault, ite_self, ↓State.failRepair_vault, ↓State.openBlocks_vault] | split

theorem State.reconfigure_vault : ∀ a0 a1, (State.reconfigure a0 a1).vault = a0.vault := by
  intros; unfold State.reconfigure
  repeat' first | with_reducible rfl | simp only [↓apply_ite State.vault, ite_self, ↓State.modCell_vault, ↓State.modFm_vault] | split

theorem State.endRepairRounds_vault : ∀ a0 a1 a2, (State.endRepairRounds a0 a1 a2).vault = a0.vault := by
  intros; unfold State.endRepairRounds
  repeat' first | with_reducible rfl | intro _ | simp only [↓apply_ite State.vault, ite_self, ↓foldl_vault, ↓State.failRepair_vault, ↓State.reconfigure_vault, ↓State.setRepair_vault, ↓State.recoverLost_vault, ↓State.endRepair_vault] | split | refine (foldl_vault _ ?_ _ _).trans ?_ | refine (foldl1_vault _ ?_ _ _).trans ?_

theorem State.repairCheck_vault : ∀ a0 a1, (State.repairCheck a0 a1).vault = a0.vault := by
  intros; unfold State.repairCheck
  repeat' first | with_reducible rfl | simp only [↓apply_ite State.vault, ite_self, ↓State.endRepairRounds_vault, ↓State.sendAll_vault, ↓State.setRepair_vault] | split

theorem State.repairRound_vault : ∀ a0 a1, (State.repairRound a0 a1).vault = a0.vault := by
  intros; unfold State.repairRound
  repeat' first | with_reducible rfl | simp only [↓apply_ite State.vault, ite_self, ↓State.endRepairRounds_vault, ↓State.send_vault, ↓State.setRepair_vault] | split

theorem State.repairWindowEnd_vault : ∀ a0 a1, (State.repairWindowEnd a0 a1).vault = a0.vault := by
  intros; unfold State.repairWindowEnd
  repeat' first | with_reducible rfl | simp only [↓apply_ite State.vault, ite_self, ↓State.setRepair_vault] | split

theorem execLoadCheck_vault : ∀ a0, ∀ t, execLoadCheck a0 = .next t → t.vault = a0.vault := by
  intros a0 t h; unfold execLoadCheck at h; cases h
  repeat' first | with_reducible rfl | intro _ | simp only [↓foldl_vault, ↓State.repairCheck_vault, ↓State.loadCheck_vault, ↓State.deliver_vault] | split | refine (foldl_vault _ ?_ _ _).trans ?_ | refine (foldl1_vault _ ?_ _ _).trans ?_

theorem execRepairRound_vault : ∀ a0, ∀ t, execRepairRound a0 = .next t → t.vault = a0.vault := by
  intros a0 t h; unfold execRepairRound at h; cases h
  repeat' first | with_reducible rfl | intro _ | simp only [↓foldl_vault, ↓State.repairRound_vault, ↓State.loadRound_vault] | split | refine (foldl_vault _ ?_ _ _).trans ?_ | refine (foldl1_vault _ ?_ _ _).trans ?_

theorem execMissReportWindowEnd_vault : ∀ a0, ∀ t, execMissReportWindowEnd a0 = .next t → t.vault = a0.vault := by
  intros a0 t h; unfold execMissReportWindowEnd at h; cases h
  repeat' first | with_reducible rfl | intro _ | simp only [↓foldl_vault, ↓State.repairWindowEnd_vault, ↓State.loadWindowEnd_vault] | split | refine (foldl_vault _ ?_ _ _).trans ?_ | refine (foldl1_vault _ ?_ _ _).trans ?_

theorem State.writeJob_vault : ∀ a0 a1 a2, (State.writeJob a0 a1 a2).1.vault = a0.vault := by
  intros; unfold State.writeJob
  simp only [↓apply_ite State.vault, ite_self, ↓apply_ite Prod.fst, ↓State.startRepair_vault, ↓State.reject_vault]

theorem State.katStart_vault : ∀ a0 a1 a2, (State.katStart a0 a1 a2).vault = a0.vault := by
  intros; unfold State.katStart
  repeat' first | with_reducible rfl | simp only [↓apply_ite State.vault, ite_self, ↓State.modCell_vault, ↓State.setFlt_vault] | split

theorem State.katWait_vault : ∀ a0 a1 a2 a3, (State.katWait a0 a1 a2 a3).vault = a0.vault := by
  intros; unfold State.katWait
  simp only [↓apply_ite State.vault, ite_self, ↓State.setFlt_vault]

theorem State.katSoon_vault : ∀ a0 a1 a2 a3, (State.katSoon a0 a1 a2 a3).vault = a0.vault := by
  intros; unfold State.katSoon
  simp only [↓apply_ite State.vault, ite_self, ↓State.katStart_vault, ↓State.katWait_vault]

theorem State.katPoll_vault : ∀ a0, (State.katPoll a0).vault = a0.vault := by
  intros; unfold State.katPoll
  repeat' first | with_reducible rfl | intro _ | simp only [↓apply_ite State.vault, ite_self, ↓foldl_vault, ↓foldl1_vault, ↓State.setFlt_vault, ↓State.katStart_vault] | split | refine (foldl_vault _ ?_ _ _).trans ?_ | refine (foldl1_vault _ ?_ _ _).trans ?_

theorem execEventKat_vault : ∀ a0 a1, ∀ t, execEventKat a0 a1 = .next t → t.vault = a1.vault := by
  intros a0 a1 t h; unfold execEventKat at h; cases h
  repeat' first | with_reducible rfl | intro _ | simp only [↓apply_ite State.vault, ite_self, ↓foldl_vault, ↓State.katSoon_vault] | refine (State.onEvent_vault _ _ _ _ ?_).trans ?_ | split | refine (foldl_vault _ ?_ _ _).trans ?_ | refine (foldl1_vault _ ?_ _ _).trans ?_

theorem State.writeKatRun_vault : ∀ a0 a1, (State.writeKatRun a0 a1).1.vault = a0.vault := by
  intros; unfold State.writeKatRun
  repeat' first | with_reducible rfl | intro _ | simp only [↓apply_ite State.vault, ite_self, ↓apply_ite Prod.fst, ↓foldl_vault, ↓foldl1_vault, ↓State.setRegF_vault, ↓State.reject_vault, ↓State.katStart_vault, ↓State.setFlt_vault] | split | refine (foldl_vault _ ?_ _ _).trans ?_ | refine (foldl1_vault _ ?_ _ _).trans ?_

theorem execKatIdleTimer_vault : ∀ a0, ∀ t, execKatIdleTimer a0 = .next t → t.vault = a0.vault := by
  intros a0 t h; unfold execKatIdleTimer at h; cases h
  repeat' first | with_reducible rfl | intro _ | simp only [↓apply_ite State.vault, ite_self, ↓foldl_vault, ↓State.katStart_vault] | split | refine (foldl_vault _ ?_ _ _).trans ?_ | refine (foldl1_vault _ ?_ _ _).trans ?_

theorem execKatWatchTimer_vault : ∀ a0, ∀ t, execKatWatchTimer a0 = .next t → t.vault = a0.vault := by
  intros a0 t h; unfold execKatWatchTimer at h; cases h
  repeat' first | with_reducible rfl | intro _ | simp only [↓apply_ite State.vault, ite_self, ↓foldl_vault, ↓foldl1_vault, ↓State.katStart_vault] | split | refine (foldl_vault _ ?_ _ _).trans ?_ | refine (foldl1_vault _ ?_ _ _).trans ?_

theorem execNextTestDue_vault : ∀ a0, ∀ t, execNextTestDue a0 = .next t → t.vault = a0.vault := by
  intros a0 t h; unfold execNextTestDue at h; cases h
  repeat' first | with_reducible rfl | intro _ | simp only [↓apply_ite State.vault, ite_self, ↓foldl_vault, ↓State.katStart_vault, ↓State.katSoon_vault, ↓State.journal_vault, ↓State.setRegF_vault] | split | refine (foldl_vault _ ?_ _ _).trans ?_ | refine (foldl1_vault _ ?_ _ _).trans ?_

theorem State.katEnd_vault : ∀ a0 a1, (State.katEnd a0 a1).vault = a0.vault := by
  intros; unfold State.katEnd
  repeat' first | with_reducible rfl | simp only [↓State.modCell_vault, ↓State.setFlt_vault] | split

theorem State.katPass_vault : ∀ a0 a1, (State.katPass a0 a1).vault = a0.vault := by
  intros; unfold State.katPass
  repeat' first | with_reducible rfl | simp only [↓apply_ite State.vault, ite_self, ↓State.watchPass_vault] | split

theorem State.katFail_vault : ∀ a0 a1 a2, (State.katFail a0 a1 a2).vault = a0.vault := by
  intros; unfold State.katFail
  repeat' first | with_reducible rfl | simp only [↓State.raiseCell_vault, ↓State.raiseRgn_vault, ↓State.raise_vault] | split

theorem State.katHost_vault : ∀ a0 a1 a2 a3, (State.katHost a0 a1 a2 a3).vault = a0.vault := by
  intros; unfold State.katHost
  simp only [↓apply_ite State.vault, ite_self, ↓State.setFlt_vault, ↓State.setRegF_vault]

theorem execTestComplete_vault : ∀ a0 a1 a2 a3, ∀ t, execTestComplete a0 a1 a2 a3 = .next t → t.vault = a3.vault := by
  intros a0 a1 a2 a3 t h; unfold execTestComplete at h; cases h
  simp only [↓apply_ite State.vault, ite_self, ↓State.setRegF_vault, ↓State.katEnd_vault, ↓State.katPass_vault, ↓State.satReg_vault, ↓State.katFail_vault, ↓State.katHost_vault]

theorem State.writeWatchSel_vault : ∀ a0 a1, (State.writeWatchSel a0 a1).1.vault = a0.vault := by
  intros; unfold State.writeWatchSel
  simp only [↓apply_ite State.vault, ite_self, ↓apply_ite Prod.fst, ↓State.setRegF_vault, ↓State.reject_vault, ↓State.watchDrop_vault]

theorem State.resetHubs_vault : ∀ a0 a1 a2, (State.resetHubs a0 a1 a2).vault = a0.vault := by
  intros; unfold State.resetHubs
  simp only [↓vault_mk, ↓vault_fold, ↓apply_ite State.vault, ite_self, ↓State.clearRegs_vault]

theorem State.cutBoundary_vault : ∀ a0 a1 a2 a3, (State.cutBoundary a0 a1 a2 a3).vault = a0.vault := by
  intros; unfold State.cutBoundary
  simp only [↓vault_mk, ↓vault_fold]

theorem State.resetPartition_vault : ∀ a0 a1, (State.resetPartition a0 a1).vault = a0.vault := by
  intros; unfold State.resetPartition
  simp only [↓apply_ite State.vault, ite_self, ↓State.hostRollback_vault, ↓State.dropHold_vault, ↓State.stopSched_vault, ↓State.clearStream_vault, ↓State.modJob_vault, ↓State.setJobState_vault, ↓State.setCause_vault]

theorem State.resetSlots_vault : ∀ a0 a1 a2, (State.resetSlots a0 a1 a2).vault = a0.vault := by
  intros; unfold State.resetSlots
  repeat' first | with_reducible rfl | simp only [↓State.resetPartition_vault, ↓State.clearStream_vault] | split

theorem State.takeCells_vault : ∀ a0 a1 a2 a3, (State.takeCells a0 a1 a2 a3).vault = a0.vault := by
  intros; unfold State.takeCells
  simp only [↓vault_mk, ↓vault_fold, ↓apply_ite State.vault, ite_self]

theorem State.startReset_vault : ∀ a0 a1 a2 a3 a4, (State.startReset a0 a1 a2 a3 a4).vault = a0.vault := by
  intros; unfold State.startReset
  simp only [↓vault_mk, ↓vault_fold, ↓apply_ite State.vault, ite_self, ↓State.resetSlots_vault, ↓State.cutBoundary_vault, ↓State.resetHubs_vault, ↓State.takeCells_vault, ↓State.restartLoad_vault]

theorem execReset_vault : ∀ a0 a1 a2 a3, ∀ t, execReset a0 a1 a2 a3 = .next t → t.vault = a3.vault := by
  intros a0 a1 a2 a3 t h; unfold execReset at h; cases h
  simp only [↓vault_mk, ↓vault_fold, ↓apply_ite State.vault, ite_self, ↓State.deliver_vault, ↓State.setRegF_vault, ↓State.startReset_vault]

theorem State.endReset_vault : ∀ a0 a1, (State.endReset a0 a1).vault = a0.vault := by
  intros; unfold State.endReset
  repeat' first | with_reducible rfl | simp only [↓vault_mk, ↓vault_fold, ↓apply_ite State.vault, ite_self, ↓State.resetHubs_vault, ↓State.setLdr_vault, ↓State.setRegF_vault, ↓State.regionRestarted_vault] | split

theorem execResetQuiet_vault : ∀ a0, ∀ t, execResetQuiet a0 = .next t → t.vault = a0.vault := by
  intros a0 t h; unfold execResetQuiet at h; cases h
  repeat' first | with_reducible rfl | intro _ | simp only [↓foldl_vault, ↓State.endReset_vault] | split | refine (foldl_vault _ ?_ _ _).trans ?_ | refine (foldl1_vault _ ?_ _ _).trans ?_

theorem State.absorbLate_vault : ∀ a0 a1, (State.absorbLate a0 a1).vault = a0.vault := by
  intros; unfold State.absorbLate
  repeat' first | with_reducible rfl | simp only [↓apply_ite State.vault, ite_self, ↓State.deliver_vault, ↓State.modRouter_vault, ↓State.returnCredit_vault, ↓State.absorb_vault, ↓State.satReg_vault] | split

theorem execDrainLimitExpiry_vault : ∀ a0, ∀ t, execDrainLimitExpiry a0 = .next t → t.vault = a0.vault := by
  intros a0 t h; unfold execDrainLimitExpiry at h; cases h
  repeat' first | with_reducible rfl | intro _ | simp only [↓vault_mk, ↓vault_fold, ↓apply_ite State.vault, ite_self, ↓foldl_vault, ↓foldl1_vault, ↓State.absorbLate_vault] | split | refine (foldl_vault _ ?_ _ _).trans ?_ | refine (foldl1_vault _ ?_ _ _).trans ?_

theorem State.writeModReset_vault (s w) : (State.writeModReset s w).1.vault = s.vault := by
  unfold State.writeModReset
  dsimp only
  repeat' split
  all_goals simp only [↓State.setRegF_vault, ↓State.reject_vault, ↓State.send_vault]

theorem State.setAdmitState_vault : ∀ a0 a1, (State.setAdmitState a0 a1).vault = a0.vault := by
  intros; unfold State.setAdmitState
  simp only [↓State.setRegF_vault]

theorem State.setAdmitResult_vault : ∀ a0 a1, (State.setAdmitResult a0 a1).vault = a0.vault := by
  intros; unfold State.setAdmitResult
  simp only [↓State.setRegF_vault]

theorem State.sendAdmit_vault : ∀ a0 a1, (State.sendAdmit a0 a1).vault = a0.vault := by
  intros; unfold State.sendAdmit
  simp only [↓State.sendCtrl_vault]

theorem State.trainPort_vault : ∀ a0 a1 a2 a3, (State.trainPort a0 a1 a2 a3).vault = a0.vault := by
  intros; unfold State.trainPort
  simp only [↓apply_ite State.vault, ite_self, ↓State.mapLanes_vault, ↓State.modSky_vault, ↓State.setReg_vault, ↓State.setSky_vault, ↓State.sendAdmit_vault]

theorem execTrainingAttempt_vault : ∀ a0 a1 a2, ∀ t, execTrainingAttempt a0 a1 a2 = .next t → t.vault = a2.vault := by
  intros a0 a1 a2 t h; unfold execTrainingAttempt at h; cases h
  repeat' first | with_reducible rfl | simp only [↓apply_ite State.vault, ite_self, ↓State.trainPort_vault] | split

theorem State.refuseAdmission_vault : ∀ a0 a1 a2, (State.refuseAdmission a0 a1 a2).vault = a0.vault := by
  intros; unfold State.refuseAdmission
  repeat' first | with_reducible rfl | intro _ | simp only [↓vault_mk, ↓vault_fold, ↓foldl_vault, ↓State.clearPeer_vault, ↓State.modSky_vault, ↓State.raise_vault, ↓State.setAdmitResult_vault, ↓State.setAdmitState_vault] | split | refine (foldl_vault _ ?_ _ _).trans ?_ | refine (foldl1_vault _ ?_ _ _).trans ?_

theorem State.settleAdmission_vault : ∀ a0, (State.settleAdmission a0).vault = a0.vault := by
  intros; unfold State.settleAdmission
  simp only [↓apply_ite State.vault, ite_self, ↓State.releaseTiles_vault, ↓State.setAdmitResult_vault, ↓State.setAdmitState_vault]

theorem State.startLeave_vault : ∀ a0, (State.startLeave a0).vault = a0.vault := by
  intros; unfold State.startLeave
  repeat' first | with_reducible rfl | intro _ | simp only [↓vault_mk, ↓vault_fold, ↓apply_ite State.vault, ite_self, ↓foldl_vault, ↓State.modSky_vault, ↓State.sendCtrl_vault] | split | refine (foldl_vault _ ?_ _ _).trans ?_ | refine (foldl1_vault _ ?_ _ _).trans ?_

theorem State.leaveTick_vault : ∀ a0, (State.leaveTick a0).vault = a0.vault := by
  intros; unfold State.leaveTick
  repeat' first | with_reducible rfl | intro _ | simp only [↓vault_mk, ↓vault_fold, ↓apply_ite State.vault, ite_self, ↓foldl_vault, ↓State.clearPeer_vault, ↓State.setSky_vault, ↓State.setAdmitState_vault] | split | refine (foldl_vault _ ?_ _ _).trans ?_ | refine (foldl1_vault _ ?_ _ _).trans ?_

theorem State.writeSkyAdmit_vault : ∀ a0 a1, (State.writeSkyAdmit a0 a1).1.vault = a0.vault := by
  intros; unfold State.writeSkyAdmit
  repeat' first | with_reducible rfl | simp only [↓vault_mk, ↓vault_fold, ↓apply_ite State.vault, ite_self, ↓apply_ite Prod.fst, ↓State.setRegF_vault, ↓State.startLeave_vault, ↓State.setAdmitResult_vault, ↓State.setAdmitState_vault] | split

theorem execAdmitReqSend_vault : ∀ a0, ∀ t, execAdmitReqSend a0 = .next t → t.vault = a0.vault := by
  intros a0 t h; unfold execAdmitReqSend at h; cases h
  repeat' first | with_reducible rfl | intro _ | simp only [↓vault_mk, ↓vault_fold, ↓apply_ite State.vault, ite_self, ↓foldl_vault, ↓State.deliver_vault, ↓State.settleAdmission_vault, ↓State.sendAdmit_vault] | split | refine (foldl_vault _ ?_ _ _).trans ?_ | refine (foldl1_vault _ ?_ _ _).trans ?_

theorem execAdmitReq_vault : ∀ a0 a1 a2 a3, ∀ t, execAdmitReq a0 a1 a2 a3 = .next t → t.vault = a3.vault := by
  intros a0 a1 a2 a3 t h; unfold execAdmitReq at h; cases h
  repeat' first | with_reducible rfl | simp only [↓apply_ite State.vault, ite_self, ↓State.sendCtrl_vault, ↓State.drainPort_vault, ↓State.releaseTiles_vault, ↓State.setRegF_vault, ↓State.modSky_vault] | split

theorem execAdmitAck_vault : ∀ a0 a1 a2, ∀ t, execAdmitAck a0 a1 a2 = .next t → t.vault = a2.vault := by
  intros a0 a1 a2 t h; unfold execAdmitAck at h; cases h
  simp only [↓vault_mk, ↓vault_fold, ↓apply_ite State.vault, ite_self, ↓State.setRegF_vault, ↓State.setSky_vault, ↓State.drainPort_vault, ↓State.releaseTiles_vault, ↓State.settleAdmission_vault]

theorem execAdmitNak_vault : ∀ a0 a1 a2, ∀ t, execAdmitNak a0 a1 a2 = .next t → t.vault = a2.vault := by
  intros a0 a1 a2 t h; unfold execAdmitNak at h; cases h
  simp only [↓apply_ite State.vault, ite_self, ↓State.setRegF_vault, ↓State.refuseAdmission_vault]

theorem execAdmissionTimeout_vault : ∀ a0, ∀ t, execAdmissionTimeout a0 = .next t → t.vault = a0.vault := by
  intros a0 t h; unfold execAdmissionTimeout at h; cases h
  repeat' first | with_reducible rfl | simp only [↓apply_ite State.vault, ite_self, ↓State.refuseAdmission_vault] | split

theorem execLeave_vault : ∀ a0 a1, ∀ t, execLeave a0 a1 = .next t → t.vault = a1.vault := by
  intros a0 a1 t h; unfold execLeave at h; cases h
  repeat' first | with_reducible rfl | intro _ | simp only [↓apply_ite State.vault, ite_self, ↓foldl_vault, ↓State.clearPeer_vault, ↓State.setSky_vault, ↓State.sendTile_vault] | split | refine (foldl_vault _ ?_ _ _).trans ?_ | refine (foldl1_vault _ ?_ _ _).trans ?_

theorem State.setRng_vault (s b) (h : b.revoked = s.rng.revoked) (k : b.counter = s.rng.counter) : (State.setRng s b).vault = s.vault := by
  unfold State.setRng; simp only [vault_mk, h, k]; exact vault_fold s

theorem State.eraseBank_vault : ∀ a0, (State.eraseBank a0).2.vault = a0.vault := by
  intros; unfold State.eraseBank
  simp only [↓State.fresh_vault]

theorem State.journalBank_vault : ∀ a0 a1, (State.journalBank a0 a1).vault = a0.vault := by
  intros; unfold State.journalBank
  simp only [↓State.journal_vault]

theorem mboxFail_vault : ∀ a0 a1, (mboxFail a0 a1).1.vault = a0.vault := by
  intros; unfold mboxFail
  repeat' first | with_reducible rfl | skip; fail | split

theorem mboxCert_vault : ∀ a0 a1, (mboxCert a0 a1).1.vault = a0.vault := by
  intros; unfold mboxCert
  simp only [↓apply_ite State.vault, ite_self, ↓apply_ite Prod.fst, ↓mboxFail_vault]

theorem mboxAttest_vault : ∀ a0 a1, (mboxAttest a0 a1).1.vault = a0.vault := by
  intros; unfold mboxAttest
  simp only [↓apply_ite State.vault, ite_self, ↓apply_ite Prod.fst, ↓mboxFail_vault]

theorem mboxStage_vault : ∀ a0 a1 a2, (mboxStage a0 a1 a2).1.vault = a0.vault := by
  intros; unfold mboxStage
  repeat' first | with_reducible rfl | simp only [↓vault_mk, ↓vault_fold, ↓apply_ite State.vault, ite_self, ↓apply_ite Prod.fst, ↓setBank_revoked, ↓setBank_counter, ↓mboxFail_vault, ↓State.eraseBank_vault, ↓State.setRng_vault] | split

theorem execFwStageTimeout_vault : ∀ a0, ∀ t, execFwStageTimeout a0 = .next t → t.vault = a0.vault := by
  intros a0 t h; unfold execFwStageTimeout at h; cases h
  simp only [↓vault_mk, ↓vault_fold, ↓State.setRng_vault]

theorem mboxActivate_vault : ∀ a0 a1, (mboxActivate a0 a1).1.vault = a0.vault := by
  intros; unfold mboxActivate
  simp only [↓vault_mk, ↓vault_fold, ↓apply_ite State.vault, ite_self, ↓apply_ite Prod.fst, ↓mboxFail_vault, ↓State.setRng_vault, ↓State.journalBank_vault, ↓State.raise_vault]

theorem State.journalKey_vault : ∀ a0 a1 a2, (State.journalKey a0 a1 a2).vault = a0.vault := by
  intros; unfold State.journalKey
  simp only [↓State.journal_vault]

theorem mboxOwnerSet_vault : ∀ a0 a1, (mboxOwnerSet a0 a1).1.vault = a0.vault := by
  intros; unfold mboxOwnerSet
  repeat' first | with_reducible rfl | simp only [↓vault_mk, ↓vault_fold, ↓apply_ite State.vault, ite_self, ↓apply_ite Prod.fst, ↓setOwner_revoked, ↓setOwner_counter, ↓mboxFail_vault, ↓State.journalKey_vault, ↓State.setRng_vault] | split

theorem mboxOwnerRevoke_vault : ∀ a0 a1, (mboxOwnerRevoke a0 a1).1.vault = a0.vault := by
  intros; unfold mboxOwnerRevoke
  repeat' first | with_reducible rfl | simp only [↓vault_mk, ↓vault_fold, ↓apply_ite State.vault, ite_self, ↓apply_ite Prod.fst, ↓setOwner_revoked, ↓setOwner_counter, ↓mboxFail_vault, ↓State.journalKey_vault, ↓State.setRng_vault] | split

theorem mboxOwnerRelease_vault : ∀ a0 a1, (mboxOwnerRelease a0 a1).1.vault = a0.vault := by
  intros; unfold mboxOwnerRelease
  repeat' first | with_reducible rfl | intro _ | simp only [↓vault_mk, ↓vault_fold, ↓apply_ite State.vault, ite_self, ↓apply_ite Prod.fst, ↓foldl_vault, ↓foldl1_vault, ↓mboxFail_vault, ↓State.journalKey_vault, ↓State.setRng_vault] | split | refine (foldl_vault _ ?_ _ _).trans ?_ | refine (foldl1_vault _ ?_ _ _).trans ?_

theorem State.journalLicence_vault : ∀ a0 a1, (State.journalLicence a0 a1).vault = a0.vault := by
  intros; unfold State.journalLicence
  simp only [↓State.journal_vault]

theorem mboxLicence_vault : ∀ a0 a1, (mboxLicence a0 a1).1.vault = a0.vault := by
  intros; unfold mboxLicence
  repeat' first | with_reducible rfl | simp only [↓vault_mk, ↓vault_fold, ↓apply_ite State.vault, ite_self, ↓apply_ite Prod.fst, ↓mboxFail_vault, ↓State.journalLicence_vault, ↓State.setRng_vault] | split

theorem mboxLicenceGet_vault : ∀ a0 a1, (mboxLicenceGet a0 a1).1.vault = a0.vault := by
  intros; unfold mboxLicenceGet
  repeat' first | with_reducible rfl | simp only [↓apply_ite State.vault, ite_self, ↓apply_ite Prod.fst, ↓mboxFail_vault] | split

theorem execLicenceExpiry_vault : ∀ a0, ∀ t, execLicenceExpiry a0 = .next t → t.vault = a0.vault := by
  intros a0 t h; unfold execLicenceExpiry at h; cases h
  repeat' first | with_reducible rfl | simp only [↓vault_mk, ↓vault_fold, ↓apply_ite State.vault, ite_self, ↓State.journalLicence_vault, ↓State.raise_vault, ↓State.setRng_vault] | split

theorem State.setBoot_vault : ∀ a0 a1, (State.setBoot a0 a1).vault = a0.vault := by
  intros; unfold State.setBoot
  simp only [↓vault_mk, ↓vault_fold]

theorem State.setStage_vault : ∀ a0 a1, (State.setStage a0 a1).vault = a0.vault := by
  intros; unfold State.setStage
  simp only [↓State.setBoot_vault]

theorem State.setInput_vault : ∀ a0 a1, (State.setInput a0 a1).vault = a0.vault := by
  intros; unfold State.setInput
  simp only [↓State.setBoot_vault]

theorem State.moduleClear_vault : ∀ a0, (State.moduleClear a0).vault = a0.vault := by
  intros; unfold State.moduleClear
  simp only [↓vault_mk, ↓vault_fold, ↓State.loseT0Cells_vault]

theorem State.bootFrom_vault : ∀ a0 a1 a2, (State.bootFrom a0 a1 a2).vault = a0.vault := by
  intros; unfold State.bootFrom
  simp only [↓State.setRegF_vault, ↓State.setBoot_vault, ↓State.moduleClear_vault]

theorem State.railsOff_vault : ∀ a0, (State.railsOff a0).vault = a0.vault := by
  intros; unfold State.railsOff
  simp only [↓vault_mk, ↓vault_fold, ↓State.setBoot_vault, ↓State.moduleClear_vault]

theorem State.rangerStart_vault : ∀ a0 a1, (State.rangerStart a0 a1).vault = a0.vault := by
  intros; unfold State.rangerStart
  simp only [↓vault_mk, ↓vault_fold, ↓apply_ite State.vault, ite_self, ↓setBank_revoked, ↓setBank_counter, ↓State.eraseBank_vault, ↓State.setRng_vault, ↓State.bootFrom_vault]

theorem State.mapRegion_vault : ∀ a0 a1 a2, (State.mapRegion a0 a1 a2).vault = a0.vault := by
  intros; unfold State.mapRegion
  simp only [↓vault_mk, ↓vault_fold, ↓foldl_vault, ↓foldl1_vault]

theorem State.disagree_vault : ∀ a0 a1 a2 a3, (State.disagree a0 a1 a2 a3).vault = a0.vault := by
  intros; unfold State.disagree
  simp only [↓State.journal_vault, ↓State.raise_vault]

theorem State.reconcile_vault : ∀ a0 a1 a2, (State.reconcile a0 a1 a2).vault = a0.vault := by
  intros; unfold State.reconcile
  repeat' first | with_reducible rfl | intro _ | simp only [↓foldl_vault, ↓foldl1_vault, ↓State.disagree_vault] | split | refine (foldl_vault _ ?_ _ _).trans ?_ | refine (foldl1_vault _ ?_ _ _).trans ?_

theorem State.raiseHoles_vault : ∀ a0 a1 a2, (State.raiseHoles a0 a1 a2).vault = a0.vault := by
  intros; unfold State.raiseHoles
  repeat' first | with_reducible rfl | intro _ | simp only [↓foldl_vault, ↓State.raise_vault] | split | refine (foldl_vault _ ?_ _ _).trans ?_ | refine (foldl1_vault _ ?_ _ _).trans ?_

theorem State.raiseC6_vault : ∀ a0 a1 a2, (State.raiseC6 a0 a1 a2).vault = a0.vault := by
  intros; unfold State.raiseC6
  repeat' first | with_reducible rfl | intro _ | simp only [↓foldl_vault, ↓State.raiseCell_vault, ↓State.raiseRgn_vault] | split | refine (foldl_vault _ ?_ _ _).trans ?_ | refine (foldl1_vault _ ?_ _ _).trans ?_

theorem State.setCruise_vault : ∀ a0 a1 a2 a3 a4, (State.setCruise a0 a1 a2 a3 a4).vault = a0.vault := by
  intros; unfold State.setCruise
  simp only [↓apply_ite State.vault, ite_self, ↓State.setReg_vault]

theorem State.cruisePhase_vault : ∀ a0 a1 a2, (State.cruisePhase a0 a1 a2).2.vault = a0.vault := by
  intros; unfold State.cruisePhase
  repeat' first | with_reducible rfl | simp only [↓apply_ite State.vault, ite_self, ↓apply_ite Prod.fst, ↓State.fresh_vault] | split

theorem State.cruise_vault : ∀ a0 a1, (State.cruise a0 a1).vault = a0.vault := by
  intros; unfold State.cruise
  repeat' first | with_reducible rfl | intro _ | simp only [↓foldl_vault, ↓foldl1_vault, ↓State.sizeStacks_vault, ↓State.setReg_vault, ↓State.reconcile_vault, ↓State.disagree_vault, ↓State.raiseHoles_vault, ↓State.cruisePhase_vault, ↓State.setCruise_vault, ↓State.mapRegion_vault, ↓State.raiseC6_vault, ↓State.setBoot_vault] | split | refine (foldl_vault _ ?_ _ _).trans ?_ | refine (foldl1_vault _ ?_ _ _).trans ?_

theorem execRegionCruise_vault : ∀ a0 a1 a2 a3, ∀ t, execRegionCruise a0 a1 a2 a3 = .next t → t.vault = a3.vault := by
  intros a0 a1 a2 a3 t h; unfold execRegionCruise at h; cases h
  repeat' first | with_reducible rfl | intro _ | simp only [↓apply_ite State.vault, ite_self, ↓foldl_vault, ↓State.raiseHoles_vault, ↓State.reconcile_vault, ↓State.raiseC6_vault, ↓State.setCruise_vault, ↓State.mapRegion_vault, ↓State.lostReturned_vault] | split | refine (foldl_vault _ ?_ _ _).trans ?_ | refine (foldl1_vault _ ?_ _ _).trans ?_

theorem State.endRangerStage_vault : ∀ a0 a1, (State.endRangerStage a0 a1).vault = a0.vault := by
  intros; unfold State.endRangerStage
  repeat' first | with_reducible rfl | simp only [↓vault_mk, ↓vault_fold, ↓apply_ite State.vault, ite_self, ↓State.raise_vault, ↓State.setRegF_vault, ↓State.setStage_vault, ↓State.setRng_vault, ↓State.journal_vault, ↓State.alarm_vault] | split

theorem State.endMemories_vault : ∀ a0 a1, (State.endMemories a0 a1).vault = a0.vault := by
  intros; unfold State.endMemories
  simp only [↓State.setStage_vault, ↓State.sizeFar_vault, ↓State.sizeBoard_vault, ↓State.sizeStacks_vault]

theorem State.endLinks_vault : ∀ a0 a1, (State.endLinks a0 a1).vault = a0.vault := by
  intros; unfold State.endLinks
  repeat' first | with_reducible rfl | intro _ | simp only [↓foldl_vault, ↓foldl1_vault, ↓State.setStage_vault, ↓State.trainPort_vault] | split | refine (foldl_vault _ ?_ _ _).trans ?_ | refine (foldl1_vault _ ?_ _ _).trans ?_

theorem State.bootDone_vault : ∀ a0, (State.bootDone a0).vault = a0.vault := by
  intros; unfold State.bootDone
  repeat' first | with_reducible rfl | simp only [↓apply_ite State.vault, ite_self, ↓State.setStage_vault, ↓State.setRegF_vault, ↓State.journal_vault] | split

theorem State.precharge_vault : ∀ a0, (State.precharge a0).vault = a0.vault := by
  intros; unfold State.precharge
  simp only [↓apply_ite State.vault, ite_self, ↓State.setInput_vault]

theorem execPrechargeComplete_vault : ∀ a0, ∀ t, execPrechargeComplete a0 = .next t → t.vault = a0.vault := by
  intros a0 t h; unfold execPrechargeComplete at h; cases h
  simp only [↓apply_ite State.vault, ite_self, ↓State.setBoot_vault]

theorem execBusBelow700V_vault : ∀ a0, ∀ t, execBusBelow700V a0 = .next t → t.vault = a0.vault := by
  intros a0 t h; unfold execBusBelow700V at h; cases h
  simp only [↓apply_ite State.vault, ite_self, ↓State.setBoot_vault, ↓State.setInput_vault]

theorem execBusRestored_vault : ∀ a0, ∀ t, execBusRestored a0 = .next t → t.vault = a0.vault := by
  intros a0 t h; unfold execBusRestored at h; cases h
  simp only [↓apply_ite State.vault, ite_self, ↓State.precharge_vault, ↓State.setBoot_vault]

theorem execPresentLoopChange_vault : ∀ a0 a1, ∀ t, execPresentLoopChange a0 a1 = .next t → t.vault = a1.vault := by
  intros a0 a1 t h; unfold execPresentLoopChange at h; cases h
  simp only [↓State.setBoot_vault]

theorem execMatedOpen_vault : ∀ a0, ∀ t, execMatedOpen a0 = .next t → t.vault = a0.vault := by
  intros a0 t h; unfold execMatedOpen at h; cases h
  repeat' first | with_reducible rfl | intro _ | simp only [↓apply_ite State.vault, ite_self, ↓foldl_vault, ↓State.journal_vault, ↓State.record_vault, ↓State.railsOff_vault, ↓State.flushLife_vault, ↓State.setRegF_vault, ↓State.setBoot_vault] | split | refine (foldl_vault _ ?_ _ _).trans ?_ | refine (foldl1_vault _ ?_ _ _).trans ?_

theorem execInputOvervoltage_vault : ∀ a0, ∀ t, execInputOvervoltage a0 = .next t → t.vault = a0.vault := by
  intros a0 t h; unfold execInputOvervoltage at h; cases h
  simp only [↓apply_ite State.vault, ite_self, ↓State.railsOff_vault, ↓State.flushLife_vault, ↓State.raise_vault, ↓State.alarm_vault, ↓State.setRegF_vault, ↓State.setInput_vault]

theorem execInputReclose_vault : ∀ a0, ∀ t, execInputReclose a0 = .next t → t.vault = a0.vault := by
  intros a0 t h; unfold execInputReclose at h; cases h
  simp only [↓State.precharge_vault]

theorem execStandbyPowerLoss_vault : ∀ a0, ∀ t, execStandbyPowerLoss a0 = .next t → t.vault = a0.vault := by
  intros a0 t h; unfold execStandbyPowerLoss at h; cases h
  simp only [↓vault_mk, ↓vault_fold, ↓apply_ite State.vault, ite_self, ↓State.railsOff_vault, ↓State.flushLife_vault, ↓State.setReg_vault]

theorem State.writeRetire_vault : ∀ a0 a1, (State.writeRetire a0 a1).vault = a0.vault := by
  intros; unfold State.writeRetire
  repeat' first | with_reducible rfl | intro _ | simp only [↓apply_ite State.vault, ite_self, ↓foldl_vault, ↓foldl1_vault, ↓State.setRegF_vault, ↓State.flushLife_vault, ↓State.drainJob_vault] | split | refine (foldl_vault _ ?_ _ _).trans ?_ | refine (foldl1_vault _ ?_ _ _).trans ?_

theorem State.retireTick_vault : ∀ a0, (State.retireTick a0).vault = a0.vault := by
  intros; unfold State.retireTick
  simp only [↓apply_ite State.vault, ite_self, ↓State.startLeave_vault]

theorem State.writeModCtrl_vault : ∀ a0 a1 a2, (State.writeModCtrl a0 a1 a2).1.vault = a0.vault := by
  intros; unfold State.writeModCtrl
  simp only [↓apply_ite State.vault, ite_self, ↓apply_ite Prod.fst, ↓State.writeRetire_vault, ↓State.reject_vault, ↓State.bootFrom_vault, ↓State.railsOff_vault, ↓State.flushLife_vault]

theorem execWatchdogExpiry_vault : ∀ a0, ∀ t, execWatchdogExpiry a0 = .next t → t.vault = a0.vault := by
  intros a0 t h; unfold execWatchdogExpiry at h; cases h
  simp only [↓apply_ite State.vault, ite_self, ↓State.rangerStart_vault]

theorem State.writeRngCtrl_vault : ∀ a0 a1, (State.writeRngCtrl a0 a1).1.vault = a0.vault := by
  intros; unfold State.writeRngCtrl
  simp only [↓apply_ite State.vault, ite_self, ↓apply_ite Prod.fst, ↓State.reject_vault, ↓State.rangerStart_vault]

theorem State.setNap_vault : ∀ a0 a1, (State.setNap a0 a1).vault = a0.vault := by
  intros; unfold State.setNap
  simp only [↓State.setRegF_vault]

theorem State.writeChrysalis_vault : ∀ a0 a1, (State.writeChrysalis a0 a1).1.vault = a0.vault := by
  intros; unfold State.writeChrysalis
  simp only [↓apply_ite State.vault, ite_self, ↓apply_ite Prod.fst, ↓State.reject_vault, ↓State.setRegF_vault, ↓State.setNap_vault]

theorem State.sleepCores_vault : ∀ a0, (State.sleepCores a0).vault = a0.vault := by
  intros; unfold State.sleepCores
  simp only [↓vault_mk, ↓vault_fold]

theorem State.sleepSlot_vault : ∀ a0 a1, (State.sleepSlot a0 a1).vault = a0.vault := by
  intros; unfold State.sleepSlot
  simp only [↓apply_ite State.vault, ite_self, ↓State.setJobState_vault, ↓State.cutCommit_vault, ↓State.modJob_vault, ↓State.dropHold_vault, ↓State.stopSched_vault, ↓State.clearStream_vault]

theorem execChrysalisTarget_vault : ∀ a0, ∀ t, execChrysalisTarget a0 = .next t → t.vault = a0.vault := by
  intros a0 t h; unfold execChrysalisTarget at h; cases h
  repeat' first | with_reducible rfl | intro _ | simp only [↓apply_ite State.vault, ite_self, ↓foldl_vault, ↓State.deliver_vault, ↓State.closeWin_vault, ↓State.abortLoad_vault, ↓State.abandonMove_vault, ↓State.sleepSlot_vault, ↓State.sleepCores_vault, ↓State.setPower_vault, ↓State.setRegF_vault, ↓State.flushLife_vault, ↓State.setNap_vault, ↓State.setStage_vault] | split | refine (foldl_vault _ ?_ _ _).trans ?_ | refine (foldl1_vault _ ?_ _ _).trans ?_

theorem execWakeComplete_vault : ∀ a0, ∀ t, execWakeComplete a0 = .next t → t.vault = a0.vault := by
  intros a0 t h; unfold execWakeComplete at h; cases h
  simp only [↓vault_mk, ↓vault_fold, ↓apply_ite State.vault, ite_self, ↓State.setStage_vault, ↓State.setNap_vault]

theorem State.sendOnce_vault : ∀ a0 a1, (State.sendOnce a0 a1).vault = a0.vault := by
  intros; unfold State.sendOnce
  simp only [↓apply_ite State.vault, ite_self, ↓State.send_vault]

theorem State.advanceBeat_vault : ∀ a0, (State.advanceBeat a0).vault = a0.vault := by
  intros; unfold State.advanceBeat
  simp only [↓apply_ite State.vault, ite_self, ↓State.setBeat_vault, ↓State.setReg_vault]

theorem State.originsDue_vault : ∀ a0 a1, (State.originsDue a0 a1).vault = a0.vault := by
  intros; unfold State.originsDue
  repeat' first | with_reducible rfl | simp only [↓apply_ite State.vault, ite_self, ↓State.sendOnce_vault] | split

theorem State.fireDue_vault : ∀ a0, (State.fireDue a0).vault = a0.vault := by
  intros; unfold State.fireDue
  repeat' first | with_reducible rfl | intro _ | simp only [↓apply_ite State.vault, ite_self, ↓foldl_vault, ↓foldl1_vault, ↓State.fireEntry_vault, ↓State.satReg_vault] | split | refine (foldl_vault _ ?_ _ _).trans ?_ | refine (foldl1_vault _ ?_ _ _).trans ?_

theorem State.slackDue_vault : ∀ a0 a1, (State.slackDue a0 a1).vault = a0.vault := by
  intros; unfold State.slackDue
  repeat' first | with_reducible rfl | intro _ | simp only [↓apply_ite State.vault, ite_self, ↓foldl_vault, ↓foldl1_vault, ↓State.sendOnce_vault] | split | refine (foldl_vault _ ?_ _ _).trans ?_ | refine (foldl1_vault _ ?_ _ _).trans ?_

theorem State.beatDue_vault : ∀ a0, (State.beatDue a0).vault = a0.vault := by
  intros; unfold State.beatDue
  repeat' first | with_reducible rfl | intro _ | simp only [↓apply_ite State.vault, ite_self, ↓foldl_vault, ↓State.originsDue_vault, ↓State.closeDue_vault, ↓State.fireDue_vault, ↓State.slackDue_vault, ↓State.sendOnce_vault] | split | refine (foldl_vault _ ?_ _ _).trans ?_ | refine (foldl1_vault _ ?_ _ _).trans ?_

theorem State.afterRead_vault : ∀ a0 a1, (State.afterRead a0 a1).vault = a0.vault := by
  intros; unfold State.afterRead
  repeat' first | with_reducible rfl | simp only [↓vault_mk, ↓vault_fold, ↓apply_ite State.vault, ite_self, ↓State.latchTime_vault, ↓State.setFlt_vault] | split

theorem State.writePlain_vault : ∀ a0 a1 a2, (State.writePlain a0 a1 a2).vault = a0.vault := by
  intros; unfold State.writePlain
  repeat' first | with_reducible rfl | simp only [↓State.setReg_vault] | split

theorem judged_vault (r : State × Bool) : (judged r).1.vault = r.1.vault := by simp only [judged]

theorem State.writeUnless_vault : ∀ a0 a1 a2 a3, (State.writeUnless a0 a1 a2 a3).1.vault = a0.vault := by
  intros; unfold State.writeUnless
  simp only [↓apply_ite State.vault, ite_self, ↓apply_ite Prod.fst, ↓State.reject_vault, ↓State.writePlain_vault]

theorem State.writeNextTest_vault : ∀ a0 a1, (State.writeNextTest a0 a1).vault = a0.vault := by
  intros; unfold State.writeNextTest
  simp only [↓apply_ite State.vault, ite_self, ↓State.writePlain_vault, ↓State.journal_vault]

theorem State.writeFabric_vault : ∀ a0 a1 a2, (State.writeFabric a0 a1 a2).1.vault = a0.vault := by
  intros; unfold State.writeFabric
  simp only [↓apply_ite State.vault, ite_self, ↓apply_ite Prod.fst, ↓State.detourClear_vault, ↓State.writePlain_vault]

theorem some_ite {α : Type} {Q : α → Prop} {c : Prop} [Decidable c] {a b : Option α} (h1 : ∀ r, a = some r → Q r)
    (h2 : ∀ r, b = some r → Q r) : ∀ r, (if c then a else b) = some r → Q r := by
  split
  · exact h1
  · exact h2

theorem State.writeFixed_vault {s src a w r} (h : State.writeFixed s src a w = some r) : r.1.vault = s.vault := by
  revert h
  refine (fun key : ∀ r, State.writeFixed s src a w = some r → r.1.vault = s.vault => key r) ?_
  clear r
  unfold State.writeFixed
  repeat' refine some_ite (Q := fun r : Wrote => r.1.vault = s.vault) ?_ ?_
  all_goals rintro r ⟨⟩
  all_goals simp only [judged, ↓State.writeModCtrl_vault, ↓State.writeModReset_vault, ↓State.writeJobCtrl_vault, ↓State.writeRngCtrl_vault, ↓State.writeBeatCtrl_vault, ↓State.writeTimeSec_vault, ↓State.writeTimeNs_vault, ↓State.writeSlack_vault, ↓State.writeCap_vault, ↓State.writeRamp_vault, ↓State.settleParity_vault, ↓State.writePlain_vault, ↓State.writeChrysalis_vault, ↓State.yrdCommand_vault, ↓State.skdCtrl_vault, ↓State.writeRedCtrl_vault, ↓State.rescan_vault, ↓State.writeUnless_vault, ↓State.writeSkyAdmit_vault, ↓State.writeNextTest_vault, ↓State.writeImgCtrl_vault, ↓State.writeKatRun_vault, ↓State.writeWatchSel_vault, ↓State.writeRedStep_vault, ↓State.writeJob_vault, ↓State.wrapperWrite_vault, ↓State.writeSkyCtrl_vault, ↓State.ptpSelect_vault, ↓State.bulkCtrl_vault, ↓State.writeFabric_vault, ↓State.clearBreaker_vault]

theorem State.writeWindow_vault : ∀ a0 a1 a2 a3, (State.writeWindow a0 a1 a2 a3).1.vault = a0.vault := by
  intros; unfold State.writeWindow
  simp only [↓State.writeUnless_vault]

theorem State.writeArray_vault {s src a w r} (h : State.writeArray s src a w = some r) : r.1.vault = s.vault := by
  unfold State.writeArray at h
  repeat' split at h
  all_goals first | contradiction | (simp only [Option.some.injEq] at h; subst h)
  all_goals first | with_reducible rfl | simp only [judged, ↓State.writeModCtrl_vault, ↓State.writeModReset_vault, ↓State.writeJobCtrl_vault, ↓State.writeRngCtrl_vault, ↓State.writeBeatCtrl_vault, ↓State.writeTimeSec_vault, ↓State.writeTimeNs_vault, ↓State.writeSlack_vault, ↓State.writeCap_vault, ↓State.writeRamp_vault, ↓State.settleParity_vault, ↓State.writePlain_vault, ↓State.writeChrysalis_vault, ↓State.yrdCommand_vault, ↓State.skdCtrl_vault, ↓State.writeRedCtrl_vault, ↓State.rescan_vault, ↓State.writeUnless_vault, ↓State.writeSkyAdmit_vault, ↓State.writeNextTest_vault, ↓State.writeImgCtrl_vault, ↓State.writeKatRun_vault, ↓State.writeWatchSel_vault, ↓State.writeRedStep_vault, ↓State.writeJob_vault, ↓State.wrapperWrite_vault, ↓State.writeSkyCtrl_vault, ↓State.ptpSelect_vault, ↓State.bulkCtrl_vault, ↓State.writeWindow_vault, ↓State.writeFabric_vault, ↓State.clearBreaker_vault]

theorem State.writeAt_vault (s src a w) : (State.writeAt s src a w).1.vault = s.vault := by
  unfold State.writeAt
  split
  · exact State.writeFixed_vault (by assumption)
  · split
    · exact State.writeArray_vault (by assumption)
    · repeat' first | with_reducible rfl | simp only [↓State.setReg_vault, ↓State.writePlain_vault, ↓apply_ite State.vault] | split

theorem State.tagged_vault : ∀ a0 a1 a2, (State.tagged a0 a1 a2).vault = a0.vault := by
  intros; unfold State.tagged
  simp only [↓vault_mk, ↓vault_fold]

theorem State.writeReg_vault : ∀ a0 a1 a2 a3, (State.writeReg a0 a1 a2 a3).1.vault = a0.vault := by
  intros; unfold State.writeReg
  simp only [↓apply_ite State.vault, ite_self, ↓apply_ite Prod.fst, ↓State.reject_vault, ↓State.writeAt_vault, ↓State.tagged_vault]

theorem State.hostWrite_vault : ∀ a0 a1 a2 a3, (State.hostWrite a0 a1 a2 a3).vault = a0.vault := by
  intros; unfold State.hostWrite
  simp only [↓State.writeReg_vault]

theorem State.kctReg_vault {s a b w t} (h : State.kctReg s a b = .ok (w, t)) : t.vault = s.vault := by
  unfold State.kctReg at h
  repeat' split at h
  all_goals first | contradiction | (simp only [Except.ok.injEq, Prod.mk.injEq] at h; obtain ⟨-, h⟩ := h; subst h)
  all_goals simp only [↓State.afterRead_vault]

theorem State.kctReadRegs_vault (q) : ∀ n s a, (State.kctReadRegs s q n a).1.vault = s.vault := by
  intro n
  induction n with
  | zero => intros; rfl
  | succ n ih =>
    intros; unfold State.kctReadRegs
    split
    · rfl
    · simp only [ih]; exact State.kctReg_vault (by assumption)

theorem State.kctWriteRegs_vault (src) : ∀ l s a, (State.kctWriteRegs s src l a).1.vault = s.vault := by
  intro l
  induction l with
  | nil => intros; rfl
  | cons w ws ih =>
    intro s a; unfold State.kctWriteRegs
    have h := State.writeReg_vault s src a w
    dsimp only
    split
    · exact h
    · exact (ih _ _).trans h

theorem State.answerRegs_vault : ∀ a0 a1 a2 a3 a4 a5, (State.answerRegs a0 a1 a2 a3 a4 a5).vault = a0.vault := by
  intros; unfold State.answerRegs
  simp only [↓apply_ite State.vault, ite_self, ↓State.answerNotReady_vault, ↓State.retryTime_vault, ↓State.finish_vault]

theorem State.kctRead_vault : ∀ a0 a1 a2, (State.kctRead a0 a1 a2).vault = a0.vault := by
  intros; unfold State.kctRead
  simp only [↓apply_ite State.vault, ite_self, ↓State.answer_vault, ↓State.kctReadRegs_vault, ↓State.answerRegs_vault]

theorem State.kctWrite_vault : ∀ a0 a1 a2, (State.kctWrite a0 a1 a2).vault = a0.vault := by
  intros; unfold State.kctWrite
  simp only [↓apply_ite State.vault, ite_self, ↓State.answer_vault, ↓State.kctWriteRegs_vault, ↓State.answerRegs_vault]

theorem execRegisterWrite_vault : ∀ a0 a1 a2 a3, ∀ t, execRegisterWrite a0 a1 a2 a3 = .next t → t.vault = a3.vault := by
  intros a0 a1 a2 a3 t h; unfold execRegisterWrite at h; cases h
  simp only [↓State.hostWrite_vault]

theorem execAdmitGo_vault : ∀ a0 a1 a2, ∀ t, execAdmitGo a0 a1 a2 = .next t → t.vault = a2.vault := by
  intros a0 a1 a2 t h; unfold execAdmitGo at h; cases h
  simp only [↓State.hostWrite_vault]

theorem execAdmitLeave_vault : ∀ a0 a1 a2, ∀ t, execAdmitLeave a0 a1 a2 = .next t → t.vault = a2.vault := by
  intros a0 a1 a2 t h; unfold execAdmitLeave at h; cases h
  simp only [↓State.hostWrite_vault]

theorem execBeatSlackSend_vault : ∀ a0 a1 a2, ∀ t, execBeatSlackSend a0 a1 a2 = .next t → t.vault = a2.vault := by
  intros a0 a1 a2 t h; unfold execBeatSlackSend at h; cases h
  simp only [↓State.hostWrite_vault]

theorem execModuleReset_vault : ∀ a0 a1 a2, ∀ t, execModuleReset a0 a1 a2 = .next t → t.vault = a2.vault := by
  intros a0 a1 a2 t h; unfold execModuleReset at h; cases h
  simp only [↓State.hostWrite_vault]

theorem execRetire_vault : ∀ a0 a1 a2, ∀ t, execRetire a0 a1 a2 = .next t → t.vault = a2.vault := by
  intros a0 a1 a2 t h; unfold execRetire at h; cases h
  simp only [↓State.hostWrite_vault]

theorem execPowerOff_vault : ∀ a0 a1 a2, ∀ t, execPowerOff a0 a1 a2 = .next t → t.vault = a2.vault := by
  intros a0 a1 a2 t h; unfold execPowerOff at h; cases h
  simp only [↓State.hostWrite_vault]

theorem execPowerOn_vault : ∀ a0 a1 a2, ∀ t, execPowerOn a0 a1 a2 = .next t → t.vault = a2.vault := by
  intros a0 a1 a2 t h; unfold execPowerOn at h; cases h
  simp only [↓State.hostWrite_vault]

theorem execRangerRestart_vault : ∀ a0 a1 a2, ∀ t, execRangerRestart a0 a1 a2 = .next t → t.vault = a2.vault := by
  intros a0 a1 a2 t h; unfold execRangerRestart at h; cases h
  simp only [↓State.hostWrite_vault]

theorem execChrysalisEnter_vault : ∀ a0 a1 a2, ∀ t, execChrysalisEnter a0 a1 a2 = .next t → t.vault = a2.vault := by
  intros a0 a1 a2 t h; unfold execChrysalisEnter at h; cases h
  simp only [↓State.hostWrite_vault]

theorem execChrysalisWake_vault : ∀ a0 a1 a2, ∀ t, execChrysalisWake a0 a1 a2 = .next t → t.vault = a2.vault := by
  intros a0 a1 a2 t h; unfold execChrysalisWake at h; cases h
  simp only [↓State.hostWrite_vault]

theorem execBulkOpen_vault : ∀ a0 a1 a2 a3, ∀ t, execBulkOpen a0 a1 a2 a3 = .next t → t.vault = a3.vault := by
  intros a0 a1 a2 a3 t h; unfold execBulkOpen at h; cases h
  simp only [↓apply_ite State.vault, ite_self, ↓State.hostWrite_vault]

theorem execBulkClose_vault : ∀ a0 a1 a2 a3, ∀ t, execBulkClose a0 a1 a2 a3 = .next t → t.vault = a3.vault := by
  intros a0 a1 a2 a3 t h; unfold execBulkClose at h; cases h
  simp only [↓apply_ite State.vault, ite_self, ↓State.hostWrite_vault]

theorem execDetourClear_vault : ∀ a0 a1 a2 a3, ∀ t, execDetourClear a0 a1 a2 a3 = .next t → t.vault = a3.vault := by
  intros a0 a1 a2 a3 t h; unfold execDetourClear at h; cases h
  simp only [↓State.hostWrite_vault]

theorem execJobStart_vault : ∀ a0 a1 a2, ∀ t, execJobStart a0 a1 a2 = .next t → t.vault = a2.vault := by
  intros a0 a1 a2 t h; unfold execJobStart at h; cases h
  simp only [↓State.hostWrite_vault]

theorem execJobDrain_vault : ∀ a0 a1 a2, ∀ t, execJobDrain a0 a1 a2 = .next t → t.vault = a2.vault := by
  intros a0 a1 a2 t h; unfold execJobDrain at h; cases h
  simp only [↓State.hostWrite_vault]

theorem execSlotRollback_vault : ∀ a0 a1 a2, ∀ t, execSlotRollback a0 a1 a2 = .next t → t.vault = a2.vault := by
  intros a0 a1 a2 t h; unfold execSlotRollback at h; cases h
  simp only [↓State.hostWrite_vault]

theorem execJobRestart_vault : ∀ a0 a1 a2 a3, ∀ t, execJobRestart a0 a1 a2 a3 = .next t → t.vault = a3.vault := by
  intros a0 a1 a2 a3 t h; unfold execJobRestart at h; cases h
  simp only [↓State.hostWrite_vault]

theorem execKatRun_vault : ∀ a0 a1 a2, ∀ t, execKatRun a0 a1 a2 = .next t → t.vault = a2.vault := by
  intros a0 a1 a2 t h; unfold execKatRun at h; cases h
  simp only [↓State.hostWrite_vault]

theorem execWatchRemove_vault : ∀ a0 a1 a2, ∀ t, execWatchRemove a0 a1 a2 = .next t → t.vault = a2.vault := by
  intros a0 a1 a2 t h; unfold execWatchRemove at h; cases h
  simp only [↓State.hostWrite_vault]

theorem execImgStart_vault : ∀ a0 a1 a2, ∀ t, execImgStart a0 a1 a2 = .next t → t.vault = a2.vault := by
  intros a0 a1 a2 t h; unfold execImgStart at h; cases h
  simp only [↓State.hostWrite_vault]

theorem execImgAbort_vault : ∀ a0 a1 a2, ∀ t, execImgAbort a0 a1 a2 = .next t → t.vault = a2.vault := by
  intros a0 a1 a2 t h; unfold execImgAbort at h; cases h
  simp only [↓State.hostWrite_vault]

theorem execPwrCapWrite_vault : ∀ a0 a1 a2, ∀ t, execPwrCapWrite a0 a1 a2 = .next t → t.vault = a2.vault := by
  intros a0 a1 a2 t h; unfold execPwrCapWrite at h; cases h
  simp only [↓State.hostWrite_vault]

theorem execPwrRampWrite_vault : ∀ a0 a1 a2, ∀ t, execPwrRampWrite a0 a1 a2 = .next t → t.vault = a2.vault := by
  intros a0 a1 a2 t h; unfold execPwrRampWrite at h; cases h
  simp only [↓State.hostWrite_vault]

theorem execBreakerClear_vault : ∀ a0 a1 a2 a3, ∀ t, execBreakerClear a0 a1 a2 a3 = .next t → t.vault = a3.vault := by
  intros a0 a1 a2 a3 t h; unfold execBreakerClear at h; cases h
  simp only [↓State.hostWrite_vault]

theorem execRedStepWrite_vault : ∀ a0 a1 a2 a3, ∀ t, execRedStepWrite a0 a1 a2 a3 = .next t → t.vault = a3.vault := by
  intros a0 a1 a2 a3 t h; unfold execRedStepWrite at h; cases h
  simp only [↓State.hostWrite_vault]

theorem execModResetGo_vault : ∀ a0 a1 a2, ∀ t, execModResetGo a0 a1 a2 = .next t → t.vault = a2.vault := by
  intros a0 a1 a2 t h; unfold execModResetGo at h; cases h
  simp only [↓State.hostWrite_vault]

theorem execSkidderStop_vault : ∀ a0 a1 a2, ∀ t, execSkidderStop a0 a1 a2 = .next t → t.vault = a2.vault := by
  intros a0 a1 a2 t h; unfold execSkidderStop at h; cases h
  simp only [↓State.hostWrite_vault]

theorem execSkyRetrainCommand_vault : ∀ a0 a1 a2 a3, ∀ t, execSkyRetrainCommand a0 a1 a2 a3 = .next t → t.vault = a3.vault := by
  intros a0 a1 a2 a3 t h; unfold execSkyRetrainCommand at h; cases h
  simp only [↓apply_ite State.vault, ite_self, ↓State.hostWrite_vault]

theorem execWrapperGo_vault : ∀ a0 a1 a2 a3, ∀ t, execWrapperGo a0 a1 a2 a3 = .next t → t.vault = a3.vault := by
  intros a0 a1 a2 a3 t h; unfold execWrapperGo at h; cases h
  simp only [↓State.hostWrite_vault]

theorem execCxlRescan_vault : ∀ a0 a1 a2, ∀ t, execCxlRescan a0 a1 a2 = .next t → t.vault = a2.vault := by
  intros a0 a1 a2 t h; unfold execCxlRescan at h; cases h
  simp only [↓State.hostWrite_vault]

theorem State.yardWrite_vault : ∀ a0 a1 a2 a3, (State.yardWrite a0 a1 a2 a3).vault = a0.vault := by
  intros; unfold State.yardWrite
  simp only [↓apply_ite State.vault, ite_self, ↓State.hostWrite_vault]

theorem execCreate_vault : ∀ a0 a1 a2, ∀ t, execCreate a0 a1 a2 = .next t → t.vault = a2.vault := by
  intros a0 a1 a2 t h; unfold execCreate at h; cases h
  simp only [↓State.yardWrite_vault]

theorem execDestroy_vault : ∀ a0 a1 a2, ∀ t, execDestroy a0 a1 a2 = .next t → t.vault = a2.vault := by
  intros a0 a1 a2 t h; unfold execDestroy at h; cases h
  simp only [↓State.yardWrite_vault]

theorem execPromote_vault : ∀ a0 a1 a2, ∀ t, execPromote a0 a1 a2 = .next t → t.vault = a2.vault := by
  intros a0 a1 a2 t h; unfold execPromote at h; cases h
  simp only [↓State.yardWrite_vault]

theorem execDemote_vault : ∀ a0 a1 a2, ∀ t, execDemote a0 a1 a2 = .next t → t.vault = a2.vault := by
  intros a0 a1 a2 t h; unfold execDemote at h; cases h
  simp only [↓State.yardWrite_vault]

theorem execPin_vault : ∀ a0 a1 a2, ∀ t, execPin a0 a1 a2 = .next t → t.vault = a2.vault := by
  intros a0 a1 a2 t h; unfold execPin at h; cases h
  simp only [↓State.yardWrite_vault]

theorem execUnpin_vault : ∀ a0 a1 a2, ∀ t, execUnpin a0 a1 a2 = .next t → t.vault = a2.vault := by
  intros a0 a1 a2 t h; unfold execUnpin at h; cases h
  simp only [↓State.yardWrite_vault]

end Sys2Proof.Machine
end

