-- ==== Sys2Proof/Laws/Held.lean ====
section
/-! SUPPORT. What holds of the operations that do touch the release keys, the security counter or the lifetime counters: none of
them takes anything back. -/

namespace Sys2Proof.Machine

open Sys2Proof

theorem LifeSt.le_refl (a : LifeSt) : a.Le a :=
  ⟨Nat.le_refl _, Nat.le_refl _, Nat.le_refl _, Nat.le_refl _, Nat.le_refl _, fun _ => Nat.le_refl _⟩

theorem LifeSt.Le.trans {a b c : LifeSt} (h : a.Le b) (k : b.Le c) : a.Le c :=
  ⟨Nat.le_trans h.1 k.1, Nat.le_trans h.2 k.2, Nat.le_trans h.3 k.3, Nat.le_trans h.4 k.4, Nat.le_trans h.5 k.5,
    fun i => Nat.le_trans (h.6 i) (k.6 i)⟩

theorem Held.of_parts {s t : State} (hq : t.pending = s.pending) (hr : t.rng.revoked = s.rng.revoked)
    (hc : s.rng.counter ≤ t.rng.counter) (hl : s.book.life.Le t.book.life) : Held s t :=
  ⟨hq, by rw [hr, BitVec.and_self], fun h => by unfold State.keysIntact at *; rw [hr]; exact h, hc, hl⟩

theorem Held.of_vault {s t : State} (h : t.vault = s.vault) : Held s t := by
  simp only [State.vault, Prod.mk.injEq] at h
  obtain ⟨h1, h2, h3, h4⟩ := h
  exact .of_parts h1 h2 (Nat.le_of_eq h3.symm) (by rw [h4]; exact LifeSt.le_refl _)

theorem Held.refl (s : State) : Held s s := .of_vault rfl

theorem Held.trans {s t u : State} (a : Held s t) (b : Held t u) : Held s u :=
  ⟨b.queue.trans a.queue, by
    have h1 := a.fuses
    have h2 := b.fuses
    calc s.rng.revoked &&& u.rng.revoked = (s.rng.revoked &&& t.rng.revoked) &&& u.rng.revoked := by rw [h1]
      _ = s.rng.revoked &&& (t.rng.revoked &&& u.rng.revoked) := BitVec.and_assoc ..
      _ = s.rng.revoked := by rw [h2, h1],
   fun h => b.intact (a.intact h), Nat.le_trans a.counter b.counter, a.life.trans b.life⟩

/-- A change that leaves the vault alone, after one that holds, or before it. -/
theorem Held.vault_right {s t u : State} (a : Held s t) (h : u.vault = t.vault) : Held s u := a.trans (.of_vault h)
theorem Held.vault_left {s t u : State} (h : t.vault = s.vault) (a : Held t u) : Held s u := (Held.of_vault h).trans a

theorem Held.ite {s a b : State} {c : Prop} [Decidable c] (ha : Held s a) (hb : Held s b) : Held s (if c then a else b) := by
  split
  · exact ha
  · exact hb

/-! ## Energy, powered seconds, thermal cycles, mating (R651) -/

theorem State.setBook_held (s : State) (b : LogSt) (h : s.book.life.Le b.life) : Held s (s.setBook b) :=
  .of_parts rfl rfl (Nat.le_refl _) h

theorem State.apportion_held (s : State) (m : CycleMeasure) : Held s (s.apportion m) := by
  unfold State.apportion
  dsimp only
  generalize hr : m.regions.foldl _ _ = r
  have h1 : r.1.vault = s.vault := by
    rw [← hr]
    exact foldl1_vault _ (fun p x => State.charge_vault _ _ _) _ _
  refine Held.vault_left (t := (((if (List.map (fun n => (s.slot n).rect.regions.length) (List.filter s.occupied (List.range 8))).sum = 0
    then (r.1, r.2) else _ : State × Nat).1.charge none _).addReg Reg.pwrEnergyModule 63 0 m.energy)) ?_
      (State.setBook_held _ _ ⟨Nat.le_refl _, Nat.le_add_right _ _, Nat.le_refl _, Nat.le_refl _, Nat.le_refl _, fun _ => Nat.le_refl _⟩)
  rw [State.addReg_vault, State.charge_vault]
  split
  · exact h1
  · exact (foldl1_vault _ (fun p x => State.charge_vault _ _ _) _ _).trans h1

theorem bump_le (t : Tbl Nat) (k i : Nat) : t.get 0 i ≤ (Tbl.set 0 k (t.get 0 k + 1) t).get 0 i := by
  by_cases h : i = k
  · subst h
    rw [Tbl.get_set]
    exact Nat.le_succ _
  · exact Nat.le_of_eq (Eq.symm (Tbl.get_set_other 0 0 h _ t))

theorem bumps_le (g : Nat → Nat) (l : List Nat) :
    ∀ (t : Tbl Nat) (i : Nat), t.get 0 i ≤ (l.foldl (fun t r => Tbl.set 0 (g r) (t.get 0 (g r) + 1) t) t).get 0 i := by
  induction l with
  | nil => intro t i; exact Nat.le_refl _
  | cons x l ih => intro t i; exact Nat.le_trans (bump_le t (g x) i) (ih _ i)

theorem State.second_held (s : State) : Held s s.second := by
  unfold State.second
  dsimp only
  generalize hx : List.foldl _ s.book.life.stress (List.range 72) = x
  have h : ∀ i, s.book.life.stress.get 0 i ≤ x.get 0 i := by
    intro i
    rw [← hx]
    exact bumps_le (fun r => r * 8 + stressBin (s.junctionOf r)) _ _ i
  exact State.setBook_held _ _ ⟨Nat.le_succ _, Nat.le_refl _, Nat.le_refl _, Nat.le_refl _, Nat.le_refl _, h⟩

theorem State.passTime_held (s : State) : Held s s.passTime := by
  unfold State.passTime
  dsimp only
  refine Held.ite ?_ (.of_vault rfl)
  refine Held.trans (.of_vault ?_) (State.second_held _)
  rfl

theorem State.wingCycle_le (s : State) (w : Nat) (warm : Bool) (n : Nat) : n ≤ (s.wingCycle w warm n).2 := by
  unfold State.wingCycle
  dsimp only
  split
  · exact Nat.le_refl _
  · split
    · exact Nat.le_succ _
    · exact Nat.le_refl _

theorem State.thermalCycles_held (s : State) : Held s s.thermalCycles := by
  unfold State.thermalCycles
  dsimp only
  have hx := State.wingCycle_le s 0 s.book.warm.1 s.book.life.cycles.1
  have hy := State.wingCycle_le s 1 s.book.warm.2 s.book.life.cycles.2
  generalize s.wingCycle 0 _ _ = x at *
  generalize s.wingCycle 1 _ _ = y at *
  exact State.setBook_held _ _ ⟨Nat.le_refl _, Nat.le_refl _, hx, hy, Nat.le_refl _, fun _ => Nat.le_refl _⟩

theorem execTick_held (m : Samples) (s t : State) (h : execTick m s = .next t) : Held s t := by
  unfold execTick at h
  cases h
  dsimp only
  refine Held.vault_right ?_ (State.leaveTick_vault _)
  refine Held.vault_right ?_ (State.retireTick_vault _)
  refine Held.vault_right ?_ (State.katPoll_vault _)
  refine Held.vault_right ?_ (State.pollLoad_vault _)
  refine Held.trans ?_ (State.thermalCycles_held _)
  refine Held.vault_right ?_ (State.powerTick_vault _ _ _)
  refine Held.vault_right ?_ (State.sampleStacks_vault _ _)
  refine Held.vault_right ?_ (State.sampleStarves_vault _)
  have h : Held s s.advanceBeat.passTime := Held.vault_left (State.advanceBeat_vault s) (State.passTime_held _)
  exact Held.ite h (h.vault_right (State.beatDue_vault _))

theorem execMainsCycle_held (m : CycleMeasure) (s t : State) (h : execMainsCycle m s = .next t) : Held s t := by
  unfold execMainsCycle at h
  cases h
  refine Held.ite (.refl s) ?_
  refine Held.trans (State.apportion_held s m) (.of_vault ?_)
  dsimp only
  generalize s.apportion m = s
  simp only [State.settleParity_vault, State.settleFloor_vault, State.setPower_vault]
  split <;> split <;> simp only [State.journal_vault, State.raise_vault, State.alarm_vault]

theorem execPowerContactsMated_held (s t : State) (h : execPowerContactsMated s = .next t) : Held s t := by
  unfold execPowerContactsMated at h
  cases h
  refine Held.ite (.refl s) ?_
  refine Held.vault_right (t := s.setBook { s.book with life := { s.book.life with hotPlug := s.book.life.hotPlug + 1 } }) ?_ ?_
  · exact State.setBook_held _ _ ⟨Nat.le_refl _, Nat.le_refl _, Nat.le_refl _, Nat.le_refl _, Nat.le_succ _, fun _ => Nat.le_refl _⟩
  · simp only [State.precharge_vault, State.setBoot_vault]

/-! ## The security counter and the release keys (R637, R639, R640) -/

theorem State.setRng_held (s : State) (r : RngSt) (hr : r.revoked = s.rng.revoked) (hc : s.rng.counter ≤ r.counter) : Held s (s.setRng r) :=
  .of_parts rfl hr hc (LifeSt.le_refl _)

theorem State.raiseCounter_held (s : State) : Held s s.raiseCounter := by
  unfold State.raiseCounter
  dsimp only
  split
  · rename_i h
    exact Held.vault_right (State.setRng_held s { s.rng with counter := (s.rng.bank s.rng.running).version } rfl (Nat.le_of_lt h))
      (State.journalBank_vault _ _)
  · exact .refl _

theorem State.endBoot_held (s : State) : Held s s.endBoot := Held.vault_left (State.bootDone_vault s) (State.raiseCounter_held _)

theorem execBootStageComplete_held (r : StageReport) (s t : State) (h : execBootStageComplete r s = .next t) : Held s t := by
  unfold execBootStageComplete at h
  cases h
  dsimp only
  refine Held.ite (.refl s) ?_
  have h0 : (s.setBoot { s.boot with ms := s.boot.ms + r.elapsedMs }).vault = s.vault := State.setBoot_vault _ _
  refine Held.vault_left h0 ?_
  refine Held.ite (.of_vault (State.endRangerStage_vault _ _)) (Held.ite (.of_vault (State.setStage_vault _ _))
    (Held.ite (.of_vault (State.endMemories_vault _ _)) (Held.ite (.of_vault (State.endLinks_vault _ _)) ?_)))
  exact Held.vault_left (State.cruise_vault _ _) (State.endBoot_held _)

theorem mboxRevoke_held (s : State) (args : Bytes) : Held s (mboxRevoke s args).1 := by
  unfold mboxRevoke
  dsimp only
  split
  · exact .of_vault (mboxFail_vault _ _)
  · split
    · exact .of_vault (mboxFail_vault _ _)
    · split
      · exact .of_vault (mboxFail_vault _ _)
      · rename_i h _
        refine Held.vault_right (t := s.setRng { s.rng with revoked := s.rng.revoked ||| BitVec.ofNat 4 (2 ^ leAt args 0 1) }) ?_
          (State.journalKey_vault _ _ _)
        refine ⟨rfl, ?_, fun _ => h, Nat.le_refl _, LifeSt.le_refl _⟩
        show s.rng.revoked &&& (s.rng.revoked ||| _) = s.rng.revoked
        ext i hi
        simp
        intro h1
        exact .inl h1

theorem mboxRun_held (s : State) (sess code : Nat) (args : Bytes) : Held s (mboxRun s sess code args).1 := by
  unfold mboxRun
  split
  · exact .of_vault (mboxCert_vault _ _)
  · exact .of_vault (mboxAttest_vault _ _)
  · exact .of_vault (mboxStage_vault _ _ _)
  · exact .of_vault (mboxActivate_vault _ _)
  · exact .of_vault (mboxOwnerSet_vault _ _)
  · exact .of_vault (mboxOwnerRevoke_vault _ _)
  · exact .of_vault (mboxOwnerRelease_vault _ _)
  · exact .of_vault (mboxLicence_vault _ _)
  · exact .of_vault (mboxLicenceGet_vault _ _)
  · exact mboxRevoke_held _ _
  · exact .of_vault (mboxFail_vault _ _)

theorem State.mailboxRun_held (s : State) (qp : Option Nat) (f : KctFrame) : Held s (s.mailboxRun qp f) := by
  unfold State.mailboxRun
  dsimp only
  refine Held.ite (.of_vault (State.answerNotReady_vault _ _ _)) ?_
  refine Held.vault_right (t := (if mboxHeaderOk f.payload then mboxRun s f.session.toNat (leAt f.payload 0 2) (f.payload.drop 16)
    else mboxFail s Mbox.badCommand).1) ?_ ?_
  · split
    · exact mboxRun_held _ _ _ _
    · exact .of_vault (mboxFail_vault _ _)
  · rw [State.finish_vault, State.setRegF_vault, State.setRegF_vault]

theorem State.mailbox_held (s : State) (qp : Option Nat) (f : KctFrame) : Held s (s.mailbox qp f) := by
  unfold State.mailbox
  split
  · exact .of_vault (State.kctFront_done (by assumption))
  · rename_i h
    exact Held.vault_left (State.kctFront_run h) (Held.ite (State.mailboxRun_held _ _ _) (.refl _))

theorem State.mailboxRow_held (s : State) (f : KctFrame) (code : Nat) : Held s (s.mailboxRow f code) := by
  unfold State.mailboxRow
  exact Held.ite (State.mailbox_held _ _ _) (.refl _)

theorem State.kctRun_held (s : State) (qp : Option Nat) (f : KctFrame) : Held s (s.kctRun qp f) := by
  unfold State.kctRun
  split
  · exact .of_vault (State.kctOpen_vault _ _ _)
  · exact .of_vault (State.kctClose_vault _ _ _)
  · exact .of_vault (State.kctRead_vault _ _ _)
  · exact .of_vault (State.kctWrite_vault _ _ _)
  · exact State.mailboxRun_held _ _ _
  · exact .of_vault (State.bulkData_vault _ _ _ _)
  · exact .of_vault (State.bulkRead_vault _ _ _ _)
  · exact .refl _

theorem State.kct_held (s : State) (qp : Option Nat) (f : KctFrame) : Held s (s.kct qp f) := by
  unfold State.kct
  split
  · exact .of_vault (State.kctFront_done (by assumption))
  · rename_i h
    exact Held.vault_left (State.kctFront_run h) (State.kctRun_held _ _ _)

theorem State.roceFrame_held (s : State) (q : Nat) (act : State → State) (h : ∀ t, Held t (act t)) : Held s (s.roceFrame q act) := by
  unfold State.roceFrame
  refine Held.ite (.refl s) (Held.ite ?_ ?_)
  · exact Held.vault_left (State.countRx_vault _ _) (h _)
  · exact .of_vault (by simp only [State.satReg_vault, State.countRx_vault])

theorem State.onQp_held (s : State) (k : Nat) (act : State → QpSt → State) (h : ∀ t x, Held t (act t x)) : Held s (s.onQp k act) := by
  unfold State.onQp
  split
  · refine State.roceFrame_held _ _ _ fun t => ?_
    split
    · exact .refl t
    · exact h _ _
  · exact .refl s

theorem execRdmaSend_held (k : Nat) (f : KctFrame) (s t : State) (h : execRdmaSend k f s = .next t) : Held s t := by
  unfold execRdmaSend at h
  cases h
  exact State.onQp_held _ _ _ fun t x => State.kct_held _ _ _

end Sys2Proof.Machine
end

