-- ==== Sys2Proof/Laws/Memory.lean ====
section
/-! SUPPORT. The laws of byte memories: reading after writing, and that every operation keeps the canonical form. -/

namespace Sys2Proof.Machine

open Sys2Proof

/-! ## Reading after a change -/

@[simp] theorem Mem.byte_set (m : Mem) (a : Nat) (b : Byte) : (m.set a b).byte a = b := by
  unfold Mem.set
  cases h : lostAt a m.lost with
  | some x => simp [Mem.byte]
  | none =>
    by_cases hb : b = 0
    · simp [Mem.byte, Tbl.set, hb, Mem.unlisted, h]
    · have hz : ¬ b = 0#8 := hb
      simp [Mem.byte, Tbl.set, hz]

theorem Mem.byte_set_other (m : Mem) {a c : Nat} (h : c ≠ a) (b : Byte) : (m.set a b).byte c = m.byte c := by
  unfold Mem.set
  cases lostAt a m.lost with
  | some x => simp only [Mem.byte, Tbl.find_put_other h]; rfl
  | none => simp only [Mem.byte, Tbl.find_set_other (0 : Byte) h]; rfl

/-- A write leaves every byte outside it alone. -/
theorem Mem.byte_write_other (m : Mem) (a : Nat) (bs : Bytes) {c : Nat} (h : c < a ∨ a + bs.length ≤ c) :
    (m.write a bs).byte c = m.byte c := by
  induction bs generalizing m a with
  | nil => rfl
  | cons b bs ih =>
    simp only [List.length_cons] at h
    rw [Mem.write, ih _ _ (by omega), Mem.byte_set_other _ (by omega)]

/-- A write is read back. -/
theorem Mem.byte_write (m : Mem) (a : Nat) (bs : Bytes) (k : Nat) (h : k < bs.length) :
    (m.write a bs).byte (a + k) = bs[k] := by
  induction bs generalizing m a k with
  | nil => exact absurd h (by simp)
  | cons b bs ih =>
    rw [Mem.write]
    cases k with
    | zero => rw [Mem.byte_write_other _ _ _ (by omega)]; simp
    | succ k =>
      have h' : k < bs.length := by simpa using h
      have := ih (m.set a b) (a + 1) k h'
      rw [show a + (k + 1) = a + 1 + k by omega, this]
      rfl

/-! ## The canonical form -/

/-- Strictly rising keys. -/
abbrev Rises {α : Type} (t : Tbl α) : Prop := t.Pairwise (fun a b => a.1 < b.1)

theorem Tbl.rising_iff {α : Type} (b : Nat) (t : Tbl α) : Tbl.rising b t = true ↔ Rises t ∧ ∀ e ∈ t, b < e.1 := by
  induction t generalizing b with
  | nil => simp [Tbl.rising]
  | cons e t ih =>
    obtain ⟨k, v⟩ := e
    simp only [Tbl.rising, Bool.and_eq_true, decide_eq_true_eq, ih, List.pairwise_cons, List.mem_cons, forall_eq_or_imp]
    constructor
    · rintro ⟨h, p, q⟩; exact ⟨⟨q, p⟩, h, fun e m => Nat.lt_trans h (q e m)⟩
    · rintro ⟨⟨q, p⟩, h, _⟩; exact ⟨h, p, q⟩

/-- No entry is a zero outside the undefined ranges. -/
abbrev Listed (lost : List (Nat × Nat × Nat × Nat)) (t : Tbl Byte) : Prop :=
  ∀ e ∈ t, e.2 ≠ 0 ∨ (lostAt e.1 lost).isSome = true

theorem Mem.wfAux_iff (lost : List (Nat × Nat × Nat × Nat)) (t : Tbl Byte) :
    Mem.wfAux lost t = true ↔ Rises t ∧ Listed lost t := by
  induction t with
  | nil => simp [Mem.wfAux, Listed]
  | cons e t ih =>
    obtain ⟨k, v⟩ := e
    simp only [Mem.wfAux, Bool.and_eq_true, Bool.or_eq_true, decide_eq_true_eq, ih, Tbl.rising_iff, List.pairwise_cons, Listed,
      List.mem_cons, forall_eq_or_imp]
    constructor
    · rintro ⟨⟨⟨_, q⟩, c⟩, p, l⟩; exact ⟨⟨q, p⟩, c, l⟩
    · rintro ⟨⟨q, p⟩, c, l⟩; exact ⟨⟨⟨p, q⟩, c⟩, p, l⟩

theorem Mem.wf_iff (m : Mem) : m.wf = true ↔ Rises m.cells ∧ Listed m.lost m.cells := Mem.wfAux_iff _ _

theorem Tbl.mem_put {α : Type} {k : Nat} {v : α} {t : Tbl α} {e : Nat × α} (h : e ∈ Tbl.put k v t) : e = (k, v) ∨ e ∈ t := by
  induction t with
  | nil => simpa [Tbl.put] using h
  | cons f t ih =>
    obtain ⟨j, w⟩ := f
    simp only [Tbl.put] at h
    split at h
    · simpa using h
    · split at h
      · rcases List.mem_cons.1 h with h | h
        · exact .inl h
        · exact .inr (List.mem_cons_of_mem _ h)
      · rcases List.mem_cons.1 h with h | h
        · exact .inr (by rw [h]; exact List.mem_cons_self ..)
        · exact (ih h).imp id (List.mem_cons_of_mem _)

theorem Tbl.mem_del {α : Type} {k : Nat} {t : Tbl α} {e : Nat × α} (h : e ∈ Tbl.del k t) : e ∈ t := by
  induction t with
  | nil => exact h
  | cons f t ih =>
    obtain ⟨j, w⟩ := f
    simp only [Tbl.del] at h
    split at h
    · exact List.mem_cons_of_mem _ (ih h)
    · rcases List.mem_cons.1 h with h | h
      · exact h ▸ List.mem_cons_self ..
      · exact List.mem_cons_of_mem _ (ih h)

theorem Tbl.rises_put {α : Type} {k : Nat} {v : α} {t : Tbl α} (h : Rises t) : Rises (Tbl.put k v t) := by
  induction t with
  | nil => simp [Tbl.put]
  | cons f t ih =>
    obtain ⟨j, w⟩ := f
    have hc := List.pairwise_cons.1 h
    simp only [Tbl.put]
    split
    · refine List.pairwise_cons.2 ⟨?_, h⟩
      intro e m
      rcases List.mem_cons.1 m with m | m
      · rw [m]; assumption
      · have := hc.1 e m; simp only at this ⊢; omega
    · split
      · subst_vars; exact List.pairwise_cons.2 ⟨hc.1, hc.2⟩
      · refine List.pairwise_cons.2 ⟨?_, ih hc.2⟩
        intro e m
        rcases Tbl.mem_put m with m | m
        · rw [m]; simp only; omega
        · exact hc.1 e m

theorem Tbl.rises_del {α : Type} {k : Nat} {t : Tbl α} (h : Rises t) : Rises (Tbl.del k t) := by
  induction t with
  | nil => exact h
  | cons f t ih =>
    obtain ⟨j, w⟩ := f
    have hc := List.pairwise_cons.1 h
    simp only [Tbl.del]
    split
    · exact ih hc.2
    · exact List.pairwise_cons.2 ⟨fun e m => hc.1 e (Tbl.mem_del m), ih hc.2⟩

/-- Writing a byte keeps the canonical form. -/
theorem Mem.wf_set {m : Mem} (h : m.wf = true) (a : Nat) (b : Byte) : (m.set a b).wf = true := by
  rw [Mem.wf_iff] at h ⊢
  unfold Mem.set
  split
  · rename_i x e
    refine ⟨Tbl.rises_put h.1, fun f m => ?_⟩
    rcases Tbl.mem_put m with m | m
    · rw [m]; exact .inr (by simp [e])
    · exact h.2 f m
  · unfold Tbl.set
    split
    · exact ⟨Tbl.rises_del h.1, fun f m => h.2 f (Tbl.mem_del m)⟩
    · refine ⟨Tbl.rises_put h.1, fun f m => ?_⟩
      rcases Tbl.mem_put m with m | m
      · rw [m]; exact .inl (by assumption)
      · exact h.2 f m

/-- Writing bytes keeps the canonical form. -/
theorem Mem.wf_write {m : Mem} (h : m.wf = true) (a : Nat) (bs : Bytes) : (m.write a bs).wf = true := by
  induction bs generalizing m a with
  | nil => exact h
  | cons b bs ih => exact ih (Mem.wf_set h a b) (a + 1)

/-- An address lies in one of the undefined ranges. -/
theorem lostAt_isSome (a : Nat) (l : List (Nat × Nat × Nat × Nat)) :
    (lostAt a l).isSome = true ↔ ∃ r ∈ l, r.1 ≤ a ∧ a < r.1 + r.2.1 := by
  induction l with
  | nil => simp [lostAt]
  | cons r l ih =>
    obtain ⟨st, n, k, o⟩ := r
    simp only [lostAt, List.mem_cons, exists_eq_or_imp]
    split
    · simp_all
    · rw [ih]
      constructor
      · exact .inr
      · rintro (h | h)
        · exact absurd h (by assumption)
        · exact h

/-- The part of a range inside `[a, b)` holds exactly its addresses there. -/
theorem lostPart_has (a b c : Nat) (r : Nat × Nat × Nat × Nat) :
    (∃ q ∈ lostPart a b r, q.1 ≤ c ∧ c < q.1 + q.2.1) ↔ (a ≤ c ∧ c < b) ∧ r.1 ≤ c ∧ c < r.1 + r.2.1 := by
  unfold lostPart
  simp only
  split
  · simp only [List.mem_singleton, exists_eq_left]; omega
  · simp only [List.not_mem_nil, false_and, exists_false, false_iff]; omega

/-- Zeroing bytes keeps the canonical form. -/
theorem Mem.wf_zero {m : Mem} (h : m.wf = true) (a n : Nat) : (m.zero a n).wf = true := by
  rw [Mem.wf_iff] at h ⊢
  refine ⟨h.1.filter _, fun e mem => ?_⟩
  have me := List.mem_filter.1 mem
  have out : ¬ (a ≤ e.1 ∧ e.1 < a + n) := by have := me.2; simp at this; omega
  refine (h.2 e me.1).imp id fun hs => ?_
  rw [lostAt_isSome] at hs ⊢
  obtain ⟨r, hr, h1, h2⟩ := hs
  by_cases hlt : e.1 < a
  · obtain ⟨q, hq, hq'⟩ := (lostPart_has 0 a e.1 r).2 ⟨⟨Nat.zero_le _, hlt⟩, h1, h2⟩
    exact ⟨q, List.mem_flatMap.2 ⟨r, hr, List.mem_append_left _ hq⟩, hq'⟩
  · obtain ⟨q, hq, hq'⟩ := (lostPart_has (a + n) (r.1 + r.2.1) e.1 r).2 ⟨⟨by omega, h2⟩, h1, h2⟩
    exact ⟨q, List.mem_flatMap.2 ⟨r, hr, List.mem_append_right _ hq⟩, hq'⟩

theorem Listed.cons {r : Nat × Nat × Nat × Nat} {l : List (Nat × Nat × Nat × Nat)} {t : Tbl Byte} (h : Listed l t) :
    Listed (r :: l) t := fun e m => (h e m).imp id fun hs => by
  rw [lostAt_isSome] at hs ⊢
  obtain ⟨q, hq, hq'⟩ := hs
  exact ⟨q, List.mem_cons_of_mem _ hq, hq'⟩

/-- Losing bytes keeps the canonical form. -/
theorem Mem.wf_lose {m : Mem} (h : m.wf = true) (a n k : Nat) : (m.lose a n k).wf = true := by
  have hz := Mem.wf_zero h a n
  unfold Mem.lose
  split
  · exact hz
  · rw [Mem.wf_iff] at hz ⊢
    exact ⟨hz.1, hz.2.cons⟩

/-- Copying bytes keeps the canonical form. -/
theorem Mem.wf_copyTo {m d : Mem} (h : m.wf = true) (g : d.wf = true) (a n b : Nat) : (m.copyTo a n d b).wf = true := by
  have hz := Mem.wf_zero g b n
  rw [Mem.wf_iff] at h hz ⊢
  have zout : ∀ e ∈ (d.zero b n).cells, ¬ (b ≤ e.1 ∧ e.1 < b + n) := fun e me => by
    have := (List.mem_filter.1 me).2; simp at this; omega
  have hown : Rises ((m.cells.filter (fun e => decide (a ≤ e.1) && decide (e.1 < a + n))).map (fun e => (e.1 - a + b, e.2))) := by
    rw [Rises, List.pairwise_map]
    refine (h.1.filter _).imp_of_mem ?_
    intro x y hx hy hxy
    have h1 := (List.mem_filter.1 hx).2
    simp only [Bool.and_eq_true, decide_eq_true_eq] at h1
    simp only; omega
  have own : ∀ e ∈ (m.cells.filter (fun e => decide (a ≤ e.1) && decide (e.1 < a + n))).map (fun e => (e.1 - a + b, e.2)),
      (b ≤ e.1 ∧ e.1 < b + n) ∧ (e.1 - b + a, e.2) ∈ m.cells := fun e me => by
    obtain ⟨x, hx, rfl⟩ := List.mem_map.1 me
    have h1 := List.mem_filter.1 hx
    simp only [Bool.and_eq_true, decide_eq_true_eq] at h1
    refine ⟨by simp only; omega, ?_⟩
    simp only
    rw [show x.1 - a + b - b + a = x.1 by omega]
    exact h1.1
  constructor
  · unfold Mem.copyTo
    simp only
    refine List.pairwise_append.2 ⟨List.pairwise_append.2 ⟨hz.1.filter _, hown, ?_⟩, hz.1.filter _, ?_⟩
    · intro x hx y hy
      have h1 := (List.mem_filter.1 hx).2
      simp only [decide_eq_true_eq] at h1
      have := (own y hy).1
      omega
    · intro x hx y hy
      have h1 := List.mem_filter.1 hy
      simp only [decide_eq_true_eq] at h1
      have h3 := zout y h1.1
      rcases List.mem_append.1 hx with hx | hx
      · have h2 := (List.mem_filter.1 hx).2
        simp only [decide_eq_true_eq] at h2
        omega
      · have := (own x hx).1
        omega
  · intro e me
    unfold Mem.copyTo at me ⊢
    simp only at me ⊢
    have old : ∀ f ∈ (d.zero b n).cells, f.2 ≠ 0 ∨
        (lostAt f.1 ((m.lost.flatMap (lostPart a (a + n))).map (fun l => (l.1 - a + b, l.2)) ++ (d.zero b n).lost)).isSome = true :=
      fun f mf => (hz.2 f mf).imp id fun hs => by
        rw [lostAt_isSome] at hs ⊢
        obtain ⟨q, hq, hq'⟩ := hs
        exact ⟨q, List.mem_append_right _ hq, hq'⟩
    rcases List.mem_append.1 me with me | me
    · rcases List.mem_append.1 me with me | me
      · exact old e (List.mem_filter.1 me).1
      · obtain ⟨hr, hm⟩ := own e me
        refine (h.2 _ hm).imp id fun hs => ?_
        simp only at hs
        rw [lostAt_isSome] at hs ⊢
        obtain ⟨r, hr1, h1, h2⟩ := hs
        obtain ⟨q, hq, h3, h4⟩ := (lostPart_has a (a + n) (e.1 - b + a) r).2 ⟨⟨by omega, by omega⟩, h1, h2⟩
        have hqa : a ≤ q.1 := by
          unfold lostPart at hq; simp only at hq
          split at hq
          · rw [List.mem_singleton] at hq; subst hq; exact Nat.le_max_left ..
          · exact absurd hq (List.not_mem_nil)
        refine ⟨(q.1 - a + b, q.2), List.mem_append_left _ (List.mem_map.2 ⟨q, List.mem_flatMap.2 ⟨r, hr1, hq⟩, rfl⟩), ?_, ?_⟩
        · simp only; omega
        · simp only; omega
    · exact old e (List.mem_filter.1 me).1

@[simp] theorem Mem.wf_empty : Mem.empty.wf = true := rfl

/-- The memories that `State.reset` lists are in canonical form: the tiers and the banks of the firmware store; no cell,
foreman or window is listed. -/
theorem State.reset_mem_wf :
    State.reset.cells = [] ∧ State.reset.fms = [] ∧ State.reset.tiers.mem1.wf = true ∧ State.reset.tiers.mem2.wf = true ∧
      State.reset.tiers.mem3.wf = true ∧ State.reset.rng.bankA.bytes.wf = true ∧ State.reset.rng.bankB.bytes.wf = true := by decide

end Sys2Proof.Machine
end

