-- ==== Sys2Proof/Laws/State.lean ====
section
/-! SUPPORT. Each update of State leaves every other field alone, and what is read from the others: one lemma for each field and
update. -/

namespace Sys2Proof.Machine

open Sys2Proof

@[simp] theorem State.setReg_pending (s : State) (p q) : (State.setReg s p q).pending = s.pending := rfl
@[simp] theorem State.setReg_inFlight (s : State) (p q) : (State.setReg s p q).inFlight = s.inFlight := rfl
@[simp] theorem State.setReg_out (s : State) (p q) : (State.setReg s p q).out = s.out := rfl
@[simp] theorem State.setReg_freeCtr (s : State) (p q) : (State.setReg s p q).freeCtr = s.freeCtr := rfl
@[simp] theorem State.setReg_cells (s : State) (p q) : (State.setReg s p q).cells = s.cells := rfl
@[simp] theorem State.setReg_fms (s : State) (p q) : (State.setReg s p q).fms = s.fms := rfl
@[simp] theorem State.setReg_slots (s : State) (p q) : (State.setReg s p q).slots = s.slots := rfl
@[simp] theorem State.setReg_spares (s : State) (p q) : (State.setReg s p q).spares = s.spares := rfl
@[simp] theorem State.setReg_routers (s : State) (p q) : (State.setReg s p q).routers = s.routers := rfl
@[simp] theorem State.setReg_rgns (s : State) (p q) : (State.setReg s p q).rgns = s.rgns := rfl
@[simp] theorem State.setReg_foreign (s : State) (p q) : (State.setReg s p q).foreign = s.foreign := rfl
@[simp] theorem State.setReg_skys (s : State) (p q) : (State.setReg s p q).skys = s.skys := rfl
@[simp] theorem State.setReg_admission (s : State) (p q) : (State.setReg s p q).admission = s.admission := rfl
@[simp] theorem State.setReg_eras (s : State) (p q) : (State.setReg s p q).eras = s.eras := rfl
@[simp] theorem State.setReg_nap (s : State) (p q) : (State.setReg s p q).nap = s.nap := rfl
@[simp] theorem State.setReg_tilesHeld (s : State) (p q) : (State.setReg s p q).tilesHeld = s.tilesHeld := rfl
@[simp] theorem State.setReg_tiers (s : State) (p q) : (State.setReg s p q).tiers = s.tiers := rfl
@[simp] theorem State.setReg_yard (s : State) (p q) : (State.setReg s p q).yard = s.yard := rfl
@[simp] theorem State.setReg_streams (s : State) (p q) : (State.setReg s p q).streams = s.streams := rfl
@[simp] theorem State.setReg_reds (s : State) (p q) : (State.setReg s p q).reds = s.reds := rfl
@[simp] theorem State.setReg_eth (s : State) (p q) : (State.setReg s p q).eth = s.eth := rfl
@[simp] theorem State.setReg_boot (s : State) (p q) : (State.setReg s p q).boot = s.boot := rfl
@[simp] theorem State.setReg_beats (s : State) (p q) : (State.setReg s p q).beats = s.beats := rfl
@[simp] theorem State.setReg_power (s : State) (p q) : (State.setReg s p q).power = s.power := rfl
@[simp] theorem State.setReg_ldr (s : State) (p q) : (State.setReg s p q).ldr = s.ldr := rfl
@[simp] theorem State.setReg_flt (s : State) (p q) : (State.setReg s p q).flt = s.flt := rfl
@[simp] theorem State.setReg_jobs (s : State) (p q) : (State.setReg s p q).jobs = s.jobs := rfl
@[simp] theorem State.setReg_resets (s : State) (p q) : (State.setReg s p q).resets = s.resets := rfl
@[simp] theorem State.setReg_rng (s : State) (p q) : (State.setReg s p q).rng = s.rng := rfl
@[simp] theorem State.setReg_book (s : State) (p q) : (State.setReg s p q).book = s.book := rfl
@[simp] theorem State.setReg_tallyLast (s : State) (p q) : (State.setReg s p q).tallyLast = s.tallyLast := rfl
@[simp] theorem State.setReg_cell (s : State) (p q) (a) : (State.setReg s p q).cell a = s.cell a := rfl
@[simp] theorem State.setReg_fm (s : State) (p q) (a) : (State.setReg s p q).fm a = s.fm a := rfl
@[simp] theorem State.setReg_slot (s : State) (p q) (a) : (State.setReg s p q).slot a = s.slot a := rfl
@[simp] theorem State.setReg_router (s : State) (p q) (a) : (State.setReg s p q).router a = s.router a := rfl
@[simp] theorem State.setReg_rgn (s : State) (p q) (a) : (State.setReg s p q).rgn a = s.rgn a := rfl
@[simp] theorem State.setReg_sky (s : State) (p q) (a) : (State.setReg s p q).sky a = s.sky a := rfl
@[simp] theorem State.setReg_stream (s : State) (p q) (a) : (State.setReg s p q).stream a = s.stream a := rfl
@[simp] theorem State.setReg_red (s : State) (p q) (a) : (State.setReg s p q).red a = s.red a := rfl
@[simp] theorem State.setReg_job (s : State) (p q) (a) : (State.setReg s p q).job a = s.job a := rfl
@[simp] theorem State.setReg_slotOfRegion (s : State) (p q) (a) : (State.setReg s p q).slotOfRegion a = s.slotOfRegion a := rfl
@[simp] theorem State.setReg_win (s : State) (p q) (a) : (State.setReg s p q).win a = s.win a := rfl
@[simp] theorem State.setReg_qp (s : State) (p q) (a) : (State.setReg s p q).qp a = s.qp a := rfl

@[simp] theorem State.setRegF_pending (s : State) (p q r t) : (State.setRegF s p q r t).pending = s.pending := rfl
@[simp] theorem State.setRegF_inFlight (s : State) (p q r t) : (State.setRegF s p q r t).inFlight = s.inFlight := rfl
@[simp] theorem State.setRegF_out (s : State) (p q r t) : (State.setRegF s p q r t).out = s.out := rfl
@[simp] theorem State.setRegF_freeCtr (s : State) (p q r t) : (State.setRegF s p q r t).freeCtr = s.freeCtr := rfl
@[simp] theorem State.setRegF_cells (s : State) (p q r t) : (State.setRegF s p q r t).cells = s.cells := rfl
@[simp] theorem State.setRegF_fms (s : State) (p q r t) : (State.setRegF s p q r t).fms = s.fms := rfl
@[simp] theorem State.setRegF_slots (s : State) (p q r t) : (State.setRegF s p q r t).slots = s.slots := rfl
@[simp] theorem State.setRegF_spares (s : State) (p q r t) : (State.setRegF s p q r t).spares = s.spares := rfl
@[simp] theorem State.setRegF_routers (s : State) (p q r t) : (State.setRegF s p q r t).routers = s.routers := rfl
@[simp] theorem State.setRegF_rgns (s : State) (p q r t) : (State.setRegF s p q r t).rgns = s.rgns := rfl
@[simp] theorem State.setRegF_foreign (s : State) (p q r t) : (State.setRegF s p q r t).foreign = s.foreign := rfl
@[simp] theorem State.setRegF_skys (s : State) (p q r t) : (State.setRegF s p q r t).skys = s.skys := rfl
@[simp] theorem State.setRegF_admission (s : State) (p q r t) : (State.setRegF s p q r t).admission = s.admission := rfl
@[simp] theorem State.setRegF_eras (s : State) (p q r t) : (State.setRegF s p q r t).eras = s.eras := rfl
@[simp] theorem State.setRegF_nap (s : State) (p q r t) : (State.setRegF s p q r t).nap = s.nap := rfl
@[simp] theorem State.setRegF_tilesHeld (s : State) (p q r t) : (State.setRegF s p q r t).tilesHeld = s.tilesHeld := rfl
@[simp] theorem State.setRegF_tiers (s : State) (p q r t) : (State.setRegF s p q r t).tiers = s.tiers := rfl
@[simp] theorem State.setRegF_yard (s : State) (p q r t) : (State.setRegF s p q r t).yard = s.yard := rfl
@[simp] theorem State.setRegF_streams (s : State) (p q r t) : (State.setRegF s p q r t).streams = s.streams := rfl
@[simp] theorem State.setRegF_reds (s : State) (p q r t) : (State.setRegF s p q r t).reds = s.reds := rfl
@[simp] theorem State.setRegF_eth (s : State) (p q r t) : (State.setRegF s p q r t).eth = s.eth := rfl
@[simp] theorem State.setRegF_boot (s : State) (p q r t) : (State.setRegF s p q r t).boot = s.boot := rfl
@[simp] theorem State.setRegF_beats (s : State) (p q r t) : (State.setRegF s p q r t).beats = s.beats := rfl
@[simp] theorem State.setRegF_power (s : State) (p q r t) : (State.setRegF s p q r t).power = s.power := rfl
@[simp] theorem State.setRegF_ldr (s : State) (p q r t) : (State.setRegF s p q r t).ldr = s.ldr := rfl
@[simp] theorem State.setRegF_flt (s : State) (p q r t) : (State.setRegF s p q r t).flt = s.flt := rfl
@[simp] theorem State.setRegF_jobs (s : State) (p q r t) : (State.setRegF s p q r t).jobs = s.jobs := rfl
@[simp] theorem State.setRegF_resets (s : State) (p q r t) : (State.setRegF s p q r t).resets = s.resets := rfl
@[simp] theorem State.setRegF_rng (s : State) (p q r t) : (State.setRegF s p q r t).rng = s.rng := rfl
@[simp] theorem State.setRegF_book (s : State) (p q r t) : (State.setRegF s p q r t).book = s.book := rfl
@[simp] theorem State.setRegF_tallyLast (s : State) (p q r t) : (State.setRegF s p q r t).tallyLast = s.tallyLast := rfl
@[simp] theorem State.setRegF_cell (s : State) (p q r t) (a) : (State.setRegF s p q r t).cell a = s.cell a := rfl
@[simp] theorem State.setRegF_fm (s : State) (p q r t) (a) : (State.setRegF s p q r t).fm a = s.fm a := rfl
@[simp] theorem State.setRegF_slot (s : State) (p q r t) (a) : (State.setRegF s p q r t).slot a = s.slot a := rfl
@[simp] theorem State.setRegF_router (s : State) (p q r t) (a) : (State.setRegF s p q r t).router a = s.router a := rfl
@[simp] theorem State.setRegF_rgn (s : State) (p q r t) (a) : (State.setRegF s p q r t).rgn a = s.rgn a := rfl
@[simp] theorem State.setRegF_sky (s : State) (p q r t) (a) : (State.setRegF s p q r t).sky a = s.sky a := rfl
@[simp] theorem State.setRegF_stream (s : State) (p q r t) (a) : (State.setRegF s p q r t).stream a = s.stream a := rfl
@[simp] theorem State.setRegF_red (s : State) (p q r t) (a) : (State.setRegF s p q r t).red a = s.red a := rfl
@[simp] theorem State.setRegF_job (s : State) (p q r t) (a) : (State.setRegF s p q r t).job a = s.job a := rfl
@[simp] theorem State.setRegF_slotOfRegion (s : State) (p q r t) (a) : (State.setRegF s p q r t).slotOfRegion a = s.slotOfRegion a := rfl
@[simp] theorem State.setRegF_win (s : State) (p q r t) (a) : (State.setRegF s p q r t).win a = s.win a := rfl
@[simp] theorem State.setRegF_qp (s : State) (p q r t) (a) : (State.setRegF s p q r t).qp a = s.qp a := rfl

@[simp] theorem State.satReg_pending (s : State) (p q r t) : (State.satReg s p q r t).pending = s.pending := rfl
@[simp] theorem State.satReg_inFlight (s : State) (p q r t) : (State.satReg s p q r t).inFlight = s.inFlight := rfl
@[simp] theorem State.satReg_out (s : State) (p q r t) : (State.satReg s p q r t).out = s.out := rfl
@[simp] theorem State.satReg_freeCtr (s : State) (p q r t) : (State.satReg s p q r t).freeCtr = s.freeCtr := rfl
@[simp] theorem State.satReg_cells (s : State) (p q r t) : (State.satReg s p q r t).cells = s.cells := rfl
@[simp] theorem State.satReg_fms (s : State) (p q r t) : (State.satReg s p q r t).fms = s.fms := rfl
@[simp] theorem State.satReg_slots (s : State) (p q r t) : (State.satReg s p q r t).slots = s.slots := rfl
@[simp] theorem State.satReg_spares (s : State) (p q r t) : (State.satReg s p q r t).spares = s.spares := rfl
@[simp] theorem State.satReg_routers (s : State) (p q r t) : (State.satReg s p q r t).routers = s.routers := rfl
@[simp] theorem State.satReg_rgns (s : State) (p q r t) : (State.satReg s p q r t).rgns = s.rgns := rfl
@[simp] theorem State.satReg_foreign (s : State) (p q r t) : (State.satReg s p q r t).foreign = s.foreign := rfl
@[simp] theorem State.satReg_skys (s : State) (p q r t) : (State.satReg s p q r t).skys = s.skys := rfl
@[simp] theorem State.satReg_admission (s : State) (p q r t) : (State.satReg s p q r t).admission = s.admission := rfl
@[simp] theorem State.satReg_eras (s : State) (p q r t) : (State.satReg s p q r t).eras = s.eras := rfl
@[simp] theorem State.satReg_nap (s : State) (p q r t) : (State.satReg s p q r t).nap = s.nap := rfl
@[simp] theorem State.satReg_tilesHeld (s : State) (p q r t) : (State.satReg s p q r t).tilesHeld = s.tilesHeld := rfl
@[simp] theorem State.satReg_tiers (s : State) (p q r t) : (State.satReg s p q r t).tiers = s.tiers := rfl
@[simp] theorem State.satReg_yard (s : State) (p q r t) : (State.satReg s p q r t).yard = s.yard := rfl
@[simp] theorem State.satReg_streams (s : State) (p q r t) : (State.satReg s p q r t).streams = s.streams := rfl
@[simp] theorem State.satReg_reds (s : State) (p q r t) : (State.satReg s p q r t).reds = s.reds := rfl
@[simp] theorem State.satReg_eth (s : State) (p q r t) : (State.satReg s p q r t).eth = s.eth := rfl
@[simp] theorem State.satReg_boot (s : State) (p q r t) : (State.satReg s p q r t).boot = s.boot := rfl
@[simp] theorem State.satReg_beats (s : State) (p q r t) : (State.satReg s p q r t).beats = s.beats := rfl
@[simp] theorem State.satReg_power (s : State) (p q r t) : (State.satReg s p q r t).power = s.power := rfl
@[simp] theorem State.satReg_ldr (s : State) (p q r t) : (State.satReg s p q r t).ldr = s.ldr := rfl
@[simp] theorem State.satReg_flt (s : State) (p q r t) : (State.satReg s p q r t).flt = s.flt := rfl
@[simp] theorem State.satReg_jobs (s : State) (p q r t) : (State.satReg s p q r t).jobs = s.jobs := rfl
@[simp] theorem State.satReg_resets (s : State) (p q r t) : (State.satReg s p q r t).resets = s.resets := rfl
@[simp] theorem State.satReg_rng (s : State) (p q r t) : (State.satReg s p q r t).rng = s.rng := rfl
@[simp] theorem State.satReg_book (s : State) (p q r t) : (State.satReg s p q r t).book = s.book := rfl
@[simp] theorem State.satReg_tallyLast (s : State) (p q r t) : (State.satReg s p q r t).tallyLast = s.tallyLast := rfl
@[simp] theorem State.satReg_cell (s : State) (p q r t) (a) : (State.satReg s p q r t).cell a = s.cell a := rfl
@[simp] theorem State.satReg_fm (s : State) (p q r t) (a) : (State.satReg s p q r t).fm a = s.fm a := rfl
@[simp] theorem State.satReg_slot (s : State) (p q r t) (a) : (State.satReg s p q r t).slot a = s.slot a := rfl
@[simp] theorem State.satReg_router (s : State) (p q r t) (a) : (State.satReg s p q r t).router a = s.router a := rfl
@[simp] theorem State.satReg_rgn (s : State) (p q r t) (a) : (State.satReg s p q r t).rgn a = s.rgn a := rfl
@[simp] theorem State.satReg_sky (s : State) (p q r t) (a) : (State.satReg s p q r t).sky a = s.sky a := rfl
@[simp] theorem State.satReg_stream (s : State) (p q r t) (a) : (State.satReg s p q r t).stream a = s.stream a := rfl
@[simp] theorem State.satReg_red (s : State) (p q r t) (a) : (State.satReg s p q r t).red a = s.red a := rfl
@[simp] theorem State.satReg_job (s : State) (p q r t) (a) : (State.satReg s p q r t).job a = s.job a := rfl
@[simp] theorem State.satReg_slotOfRegion (s : State) (p q r t) (a) : (State.satReg s p q r t).slotOfRegion a = s.slotOfRegion a := rfl
@[simp] theorem State.satReg_win (s : State) (p q r t) (a) : (State.satReg s p q r t).win a = s.win a := rfl
@[simp] theorem State.satReg_qp (s : State) (p q r t) (a) : (State.satReg s p q r t).qp a = s.qp a := rfl

@[simp] theorem State.addReg_pending (s : State) (p q r t) : (State.addReg s p q r t).pending = s.pending := rfl
@[simp] theorem State.addReg_inFlight (s : State) (p q r t) : (State.addReg s p q r t).inFlight = s.inFlight := rfl
@[simp] theorem State.addReg_out (s : State) (p q r t) : (State.addReg s p q r t).out = s.out := rfl
@[simp] theorem State.addReg_freeCtr (s : State) (p q r t) : (State.addReg s p q r t).freeCtr = s.freeCtr := rfl
@[simp] theorem State.addReg_cells (s : State) (p q r t) : (State.addReg s p q r t).cells = s.cells := rfl
@[simp] theorem State.addReg_fms (s : State) (p q r t) : (State.addReg s p q r t).fms = s.fms := rfl
@[simp] theorem State.addReg_slots (s : State) (p q r t) : (State.addReg s p q r t).slots = s.slots := rfl
@[simp] theorem State.addReg_spares (s : State) (p q r t) : (State.addReg s p q r t).spares = s.spares := rfl
@[simp] theorem State.addReg_routers (s : State) (p q r t) : (State.addReg s p q r t).routers = s.routers := rfl
@[simp] theorem State.addReg_rgns (s : State) (p q r t) : (State.addReg s p q r t).rgns = s.rgns := rfl
@[simp] theorem State.addReg_foreign (s : State) (p q r t) : (State.addReg s p q r t).foreign = s.foreign := rfl
@[simp] theorem State.addReg_skys (s : State) (p q r t) : (State.addReg s p q r t).skys = s.skys := rfl
@[simp] theorem State.addReg_admission (s : State) (p q r t) : (State.addReg s p q r t).admission = s.admission := rfl
@[simp] theorem State.addReg_eras (s : State) (p q r t) : (State.addReg s p q r t).eras = s.eras := rfl
@[simp] theorem State.addReg_nap (s : State) (p q r t) : (State.addReg s p q r t).nap = s.nap := rfl
@[simp] theorem State.addReg_tilesHeld (s : State) (p q r t) : (State.addReg s p q r t).tilesHeld = s.tilesHeld := rfl
@[simp] theorem State.addReg_tiers (s : State) (p q r t) : (State.addReg s p q r t).tiers = s.tiers := rfl
@[simp] theorem State.addReg_yard (s : State) (p q r t) : (State.addReg s p q r t).yard = s.yard := rfl
@[simp] theorem State.addReg_streams (s : State) (p q r t) : (State.addReg s p q r t).streams = s.streams := rfl
@[simp] theorem State.addReg_reds (s : State) (p q r t) : (State.addReg s p q r t).reds = s.reds := rfl
@[simp] theorem State.addReg_eth (s : State) (p q r t) : (State.addReg s p q r t).eth = s.eth := rfl
@[simp] theorem State.addReg_boot (s : State) (p q r t) : (State.addReg s p q r t).boot = s.boot := rfl
@[simp] theorem State.addReg_beats (s : State) (p q r t) : (State.addReg s p q r t).beats = s.beats := rfl
@[simp] theorem State.addReg_power (s : State) (p q r t) : (State.addReg s p q r t).power = s.power := rfl
@[simp] theorem State.addReg_ldr (s : State) (p q r t) : (State.addReg s p q r t).ldr = s.ldr := rfl
@[simp] theorem State.addReg_flt (s : State) (p q r t) : (State.addReg s p q r t).flt = s.flt := rfl
@[simp] theorem State.addReg_jobs (s : State) (p q r t) : (State.addReg s p q r t).jobs = s.jobs := rfl
@[simp] theorem State.addReg_resets (s : State) (p q r t) : (State.addReg s p q r t).resets = s.resets := rfl
@[simp] theorem State.addReg_rng (s : State) (p q r t) : (State.addReg s p q r t).rng = s.rng := rfl
@[simp] theorem State.addReg_book (s : State) (p q r t) : (State.addReg s p q r t).book = s.book := rfl
@[simp] theorem State.addReg_tallyLast (s : State) (p q r t) : (State.addReg s p q r t).tallyLast = s.tallyLast := rfl
@[simp] theorem State.addReg_cell (s : State) (p q r t) (a) : (State.addReg s p q r t).cell a = s.cell a := rfl
@[simp] theorem State.addReg_fm (s : State) (p q r t) (a) : (State.addReg s p q r t).fm a = s.fm a := rfl
@[simp] theorem State.addReg_slot (s : State) (p q r t) (a) : (State.addReg s p q r t).slot a = s.slot a := rfl
@[simp] theorem State.addReg_router (s : State) (p q r t) (a) : (State.addReg s p q r t).router a = s.router a := rfl
@[simp] theorem State.addReg_rgn (s : State) (p q r t) (a) : (State.addReg s p q r t).rgn a = s.rgn a := rfl
@[simp] theorem State.addReg_sky (s : State) (p q r t) (a) : (State.addReg s p q r t).sky a = s.sky a := rfl
@[simp] theorem State.addReg_stream (s : State) (p q r t) (a) : (State.addReg s p q r t).stream a = s.stream a := rfl
@[simp] theorem State.addReg_red (s : State) (p q r t) (a) : (State.addReg s p q r t).red a = s.red a := rfl
@[simp] theorem State.addReg_job (s : State) (p q r t) (a) : (State.addReg s p q r t).job a = s.job a := rfl
@[simp] theorem State.addReg_slotOfRegion (s : State) (p q r t) (a) : (State.addReg s p q r t).slotOfRegion a = s.slotOfRegion a := rfl
@[simp] theorem State.addReg_win (s : State) (p q r t) (a) : (State.addReg s p q r t).win a = s.win a := rfl
@[simp] theorem State.addReg_qp (s : State) (p q r t) (a) : (State.addReg s p q r t).qp a = s.qp a := rfl

@[simp] theorem State.clearRegs_pending (s : State) (p) : (State.clearRegs s p).pending = s.pending := rfl
@[simp] theorem State.clearRegs_inFlight (s : State) (p) : (State.clearRegs s p).inFlight = s.inFlight := rfl
@[simp] theorem State.clearRegs_out (s : State) (p) : (State.clearRegs s p).out = s.out := rfl
@[simp] theorem State.clearRegs_freeCtr (s : State) (p) : (State.clearRegs s p).freeCtr = s.freeCtr := rfl
@[simp] theorem State.clearRegs_cells (s : State) (p) : (State.clearRegs s p).cells = s.cells := rfl
@[simp] theorem State.clearRegs_fms (s : State) (p) : (State.clearRegs s p).fms = s.fms := rfl
@[simp] theorem State.clearRegs_slots (s : State) (p) : (State.clearRegs s p).slots = s.slots := rfl
@[simp] theorem State.clearRegs_spares (s : State) (p) : (State.clearRegs s p).spares = s.spares := rfl
@[simp] theorem State.clearRegs_routers (s : State) (p) : (State.clearRegs s p).routers = s.routers := rfl
@[simp] theorem State.clearRegs_rgns (s : State) (p) : (State.clearRegs s p).rgns = s.rgns := rfl
@[simp] theorem State.clearRegs_foreign (s : State) (p) : (State.clearRegs s p).foreign = s.foreign := rfl
@[simp] theorem State.clearRegs_skys (s : State) (p) : (State.clearRegs s p).skys = s.skys := rfl
@[simp] theorem State.clearRegs_admission (s : State) (p) : (State.clearRegs s p).admission = s.admission := rfl
@[simp] theorem State.clearRegs_eras (s : State) (p) : (State.clearRegs s p).eras = s.eras := rfl
@[simp] theorem State.clearRegs_nap (s : State) (p) : (State.clearRegs s p).nap = s.nap := rfl
@[simp] theorem State.clearRegs_tilesHeld (s : State) (p) : (State.clearRegs s p).tilesHeld = s.tilesHeld := rfl
@[simp] theorem State.clearRegs_tiers (s : State) (p) : (State.clearRegs s p).tiers = s.tiers := rfl
@[simp] theorem State.clearRegs_yard (s : State) (p) : (State.clearRegs s p).yard = s.yard := rfl
@[simp] theorem State.clearRegs_streams (s : State) (p) : (State.clearRegs s p).streams = s.streams := rfl
@[simp] theorem State.clearRegs_reds (s : State) (p) : (State.clearRegs s p).reds = s.reds := rfl
@[simp] theorem State.clearRegs_eth (s : State) (p) : (State.clearRegs s p).eth = s.eth := rfl
@[simp] theorem State.clearRegs_boot (s : State) (p) : (State.clearRegs s p).boot = s.boot := rfl
@[simp] theorem State.clearRegs_beats (s : State) (p) : (State.clearRegs s p).beats = s.beats := rfl
@[simp] theorem State.clearRegs_power (s : State) (p) : (State.clearRegs s p).power = s.power := rfl
@[simp] theorem State.clearRegs_ldr (s : State) (p) : (State.clearRegs s p).ldr = s.ldr := rfl
@[simp] theorem State.clearRegs_flt (s : State) (p) : (State.clearRegs s p).flt = s.flt := rfl
@[simp] theorem State.clearRegs_jobs (s : State) (p) : (State.clearRegs s p).jobs = s.jobs := rfl
@[simp] theorem State.clearRegs_resets (s : State) (p) : (State.clearRegs s p).resets = s.resets := rfl
@[simp] theorem State.clearRegs_rng (s : State) (p) : (State.clearRegs s p).rng = s.rng := rfl
@[simp] theorem State.clearRegs_book (s : State) (p) : (State.clearRegs s p).book = s.book := rfl
@[simp] theorem State.clearRegs_tallyLast (s : State) (p) : (State.clearRegs s p).tallyLast = s.tallyLast := rfl
@[simp] theorem State.clearRegs_cell (s : State) (p) (a) : (State.clearRegs s p).cell a = s.cell a := rfl
@[simp] theorem State.clearRegs_fm (s : State) (p) (a) : (State.clearRegs s p).fm a = s.fm a := rfl
@[simp] theorem State.clearRegs_slot (s : State) (p) (a) : (State.clearRegs s p).slot a = s.slot a := rfl
@[simp] theorem State.clearRegs_router (s : State) (p) (a) : (State.clearRegs s p).router a = s.router a := rfl
@[simp] theorem State.clearRegs_rgn (s : State) (p) (a) : (State.clearRegs s p).rgn a = s.rgn a := rfl
@[simp] theorem State.clearRegs_sky (s : State) (p) (a) : (State.clearRegs s p).sky a = s.sky a := rfl
@[simp] theorem State.clearRegs_stream (s : State) (p) (a) : (State.clearRegs s p).stream a = s.stream a := rfl
@[simp] theorem State.clearRegs_red (s : State) (p) (a) : (State.clearRegs s p).red a = s.red a := rfl
@[simp] theorem State.clearRegs_job (s : State) (p) (a) : (State.clearRegs s p).job a = s.job a := rfl
@[simp] theorem State.clearRegs_slotOfRegion (s : State) (p) (a) : (State.clearRegs s p).slotOfRegion a = s.slotOfRegion a := rfl
@[simp] theorem State.clearRegs_win (s : State) (p) (a) : (State.clearRegs s p).win a = s.win a := rfl
@[simp] theorem State.clearRegs_qp (s : State) (p) (a) : (State.clearRegs s p).qp a = s.qp a := rfl

@[simp] theorem State.setCell_pending (s : State) (p q) : (State.setCell s p q).pending = s.pending := rfl
@[simp] theorem State.setCell_inFlight (s : State) (p q) : (State.setCell s p q).inFlight = s.inFlight := rfl
@[simp] theorem State.setCell_out (s : State) (p q) : (State.setCell s p q).out = s.out := rfl
@[simp] theorem State.setCell_freeCtr (s : State) (p q) : (State.setCell s p q).freeCtr = s.freeCtr := rfl
@[simp] theorem State.setCell_regs (s : State) (p q) : (State.setCell s p q).regs = s.regs := rfl
@[simp] theorem State.setCell_fms (s : State) (p q) : (State.setCell s p q).fms = s.fms := rfl
@[simp] theorem State.setCell_slots (s : State) (p q) : (State.setCell s p q).slots = s.slots := rfl
@[simp] theorem State.setCell_spares (s : State) (p q) : (State.setCell s p q).spares = s.spares := rfl
@[simp] theorem State.setCell_routers (s : State) (p q) : (State.setCell s p q).routers = s.routers := rfl
@[simp] theorem State.setCell_rgns (s : State) (p q) : (State.setCell s p q).rgns = s.rgns := rfl
@[simp] theorem State.setCell_foreign (s : State) (p q) : (State.setCell s p q).foreign = s.foreign := rfl
@[simp] theorem State.setCell_skys (s : State) (p q) : (State.setCell s p q).skys = s.skys := rfl
@[simp] theorem State.setCell_admission (s : State) (p q) : (State.setCell s p q).admission = s.admission := rfl
@[simp] theorem State.setCell_eras (s : State) (p q) : (State.setCell s p q).eras = s.eras := rfl
@[simp] theorem State.setCell_nap (s : State) (p q) : (State.setCell s p q).nap = s.nap := rfl
@[simp] theorem State.setCell_tilesHeld (s : State) (p q) : (State.setCell s p q).tilesHeld = s.tilesHeld := rfl
@[simp] theorem State.setCell_tiers (s : State) (p q) : (State.setCell s p q).tiers = s.tiers := rfl
@[simp] theorem State.setCell_yard (s : State) (p q) : (State.setCell s p q).yard = s.yard := rfl
@[simp] theorem State.setCell_streams (s : State) (p q) : (State.setCell s p q).streams = s.streams := rfl
@[simp] theorem State.setCell_reds (s : State) (p q) : (State.setCell s p q).reds = s.reds := rfl
@[simp] theorem State.setCell_eth (s : State) (p q) : (State.setCell s p q).eth = s.eth := rfl
@[simp] theorem State.setCell_boot (s : State) (p q) : (State.setCell s p q).boot = s.boot := rfl
@[simp] theorem State.setCell_beats (s : State) (p q) : (State.setCell s p q).beats = s.beats := rfl
@[simp] theorem State.setCell_power (s : State) (p q) : (State.setCell s p q).power = s.power := rfl
@[simp] theorem State.setCell_ldr (s : State) (p q) : (State.setCell s p q).ldr = s.ldr := rfl
@[simp] theorem State.setCell_flt (s : State) (p q) : (State.setCell s p q).flt = s.flt := rfl
@[simp] theorem State.setCell_jobs (s : State) (p q) : (State.setCell s p q).jobs = s.jobs := rfl
@[simp] theorem State.setCell_resets (s : State) (p q) : (State.setCell s p q).resets = s.resets := rfl
@[simp] theorem State.setCell_rng (s : State) (p q) : (State.setCell s p q).rng = s.rng := rfl
@[simp] theorem State.setCell_book (s : State) (p q) : (State.setCell s p q).book = s.book := rfl
@[simp] theorem State.setCell_tallyLast (s : State) (p q) : (State.setCell s p q).tallyLast = s.tallyLast := rfl
@[simp] theorem State.setCell_reg (s : State) (p q) (a) : (State.setCell s p q).reg a = s.reg a := rfl
@[simp] theorem State.setCell_regF (s : State) (p q) (a hi lo) : (State.setCell s p q).regF a hi lo = s.regF a hi lo := rfl
@[simp] theorem State.setCell_fm (s : State) (p q) (a) : (State.setCell s p q).fm a = s.fm a := rfl
@[simp] theorem State.setCell_slot (s : State) (p q) (a) : (State.setCell s p q).slot a = s.slot a := rfl
@[simp] theorem State.setCell_router (s : State) (p q) (a) : (State.setCell s p q).router a = s.router a := rfl
@[simp] theorem State.setCell_rgn (s : State) (p q) (a) : (State.setCell s p q).rgn a = s.rgn a := rfl
@[simp] theorem State.setCell_sky (s : State) (p q) (a) : (State.setCell s p q).sky a = s.sky a := rfl
@[simp] theorem State.setCell_stream (s : State) (p q) (a) : (State.setCell s p q).stream a = s.stream a := rfl
@[simp] theorem State.setCell_red (s : State) (p q) (a) : (State.setCell s p q).red a = s.red a := rfl
@[simp] theorem State.setCell_job (s : State) (p q) (a) : (State.setCell s p q).job a = s.job a := rfl
@[simp] theorem State.setCell_slotOfRegion (s : State) (p q) (a) : (State.setCell s p q).slotOfRegion a = s.slotOfRegion a := rfl
@[simp] theorem State.setCell_win (s : State) (p q) (a) : (State.setCell s p q).win a = s.win a := rfl
@[simp] theorem State.setCell_qp (s : State) (p q) (a) : (State.setCell s p q).qp a = s.qp a := rfl

@[simp] theorem State.modCell_pending (s : State) (p q) : (State.modCell s p q).pending = s.pending := rfl
@[simp] theorem State.modCell_inFlight (s : State) (p q) : (State.modCell s p q).inFlight = s.inFlight := rfl
@[simp] theorem State.modCell_out (s : State) (p q) : (State.modCell s p q).out = s.out := rfl
@[simp] theorem State.modCell_freeCtr (s : State) (p q) : (State.modCell s p q).freeCtr = s.freeCtr := rfl
@[simp] theorem State.modCell_regs (s : State) (p q) : (State.modCell s p q).regs = s.regs := rfl
@[simp] theorem State.modCell_fms (s : State) (p q) : (State.modCell s p q).fms = s.fms := rfl
@[simp] theorem State.modCell_slots (s : State) (p q) : (State.modCell s p q).slots = s.slots := rfl
@[simp] theorem State.modCell_spares (s : State) (p q) : (State.modCell s p q).spares = s.spares := rfl
@[simp] theorem State.modCell_routers (s : State) (p q) : (State.modCell s p q).routers = s.routers := rfl
@[simp] theorem State.modCell_rgns (s : State) (p q) : (State.modCell s p q).rgns = s.rgns := rfl
@[simp] theorem State.modCell_foreign (s : State) (p q) : (State.modCell s p q).foreign = s.foreign := rfl
@[simp] theorem State.modCell_skys (s : State) (p q) : (State.modCell s p q).skys = s.skys := rfl
@[simp] theorem State.modCell_admission (s : State) (p q) : (State.modCell s p q).admission = s.admission := rfl
@[simp] theorem State.modCell_eras (s : State) (p q) : (State.modCell s p q).eras = s.eras := rfl
@[simp] theorem State.modCell_nap (s : State) (p q) : (State.modCell s p q).nap = s.nap := rfl
@[simp] theorem State.modCell_tilesHeld (s : State) (p q) : (State.modCell s p q).tilesHeld = s.tilesHeld := rfl
@[simp] theorem State.modCell_tiers (s : State) (p q) : (State.modCell s p q).tiers = s.tiers := rfl
@[simp] theorem State.modCell_yard (s : State) (p q) : (State.modCell s p q).yard = s.yard := rfl
@[simp] theorem State.modCell_streams (s : State) (p q) : (State.modCell s p q).streams = s.streams := rfl
@[simp] theorem State.modCell_reds (s : State) (p q) : (State.modCell s p q).reds = s.reds := rfl
@[simp] theorem State.modCell_eth (s : State) (p q) : (State.modCell s p q).eth = s.eth := rfl
@[simp] theorem State.modCell_boot (s : State) (p q) : (State.modCell s p q).boot = s.boot := rfl
@[simp] theorem State.modCell_beats (s : State) (p q) : (State.modCell s p q).beats = s.beats := rfl
@[simp] theorem State.modCell_power (s : State) (p q) : (State.modCell s p q).power = s.power := rfl
@[simp] theorem State.modCell_ldr (s : State) (p q) : (State.modCell s p q).ldr = s.ldr := rfl
@[simp] theorem State.modCell_flt (s : State) (p q) : (State.modCell s p q).flt = s.flt := rfl
@[simp] theorem State.modCell_jobs (s : State) (p q) : (State.modCell s p q).jobs = s.jobs := rfl
@[simp] theorem State.modCell_resets (s : State) (p q) : (State.modCell s p q).resets = s.resets := rfl
@[simp] theorem State.modCell_rng (s : State) (p q) : (State.modCell s p q).rng = s.rng := rfl
@[simp] theorem State.modCell_book (s : State) (p q) : (State.modCell s p q).book = s.book := rfl
@[simp] theorem State.modCell_tallyLast (s : State) (p q) : (State.modCell s p q).tallyLast = s.tallyLast := rfl
@[simp] theorem State.modCell_reg (s : State) (p q) (a) : (State.modCell s p q).reg a = s.reg a := rfl
@[simp] theorem State.modCell_regF (s : State) (p q) (a hi lo) : (State.modCell s p q).regF a hi lo = s.regF a hi lo := rfl
@[simp] theorem State.modCell_fm (s : State) (p q) (a) : (State.modCell s p q).fm a = s.fm a := rfl
@[simp] theorem State.modCell_slot (s : State) (p q) (a) : (State.modCell s p q).slot a = s.slot a := rfl
@[simp] theorem State.modCell_router (s : State) (p q) (a) : (State.modCell s p q).router a = s.router a := rfl
@[simp] theorem State.modCell_rgn (s : State) (p q) (a) : (State.modCell s p q).rgn a = s.rgn a := rfl
@[simp] theorem State.modCell_sky (s : State) (p q) (a) : (State.modCell s p q).sky a = s.sky a := rfl
@[simp] theorem State.modCell_stream (s : State) (p q) (a) : (State.modCell s p q).stream a = s.stream a := rfl
@[simp] theorem State.modCell_red (s : State) (p q) (a) : (State.modCell s p q).red a = s.red a := rfl
@[simp] theorem State.modCell_job (s : State) (p q) (a) : (State.modCell s p q).job a = s.job a := rfl
@[simp] theorem State.modCell_slotOfRegion (s : State) (p q) (a) : (State.modCell s p q).slotOfRegion a = s.slotOfRegion a := rfl
@[simp] theorem State.modCell_win (s : State) (p q) (a) : (State.modCell s p q).win a = s.win a := rfl
@[simp] theorem State.modCell_qp (s : State) (p q) (a) : (State.modCell s p q).qp a = s.qp a := rfl

@[simp] theorem State.setFm_pending (s : State) (p q) : (State.setFm s p q).pending = s.pending := rfl
@[simp] theorem State.setFm_inFlight (s : State) (p q) : (State.setFm s p q).inFlight = s.inFlight := rfl
@[simp] theorem State.setFm_out (s : State) (p q) : (State.setFm s p q).out = s.out := rfl
@[simp] theorem State.setFm_freeCtr (s : State) (p q) : (State.setFm s p q).freeCtr = s.freeCtr := rfl
@[simp] theorem State.setFm_regs (s : State) (p q) : (State.setFm s p q).regs = s.regs := rfl
@[simp] theorem State.setFm_cells (s : State) (p q) : (State.setFm s p q).cells = s.cells := rfl
@[simp] theorem State.setFm_slots (s : State) (p q) : (State.setFm s p q).slots = s.slots := rfl
@[simp] theorem State.setFm_spares (s : State) (p q) : (State.setFm s p q).spares = s.spares := rfl
@[simp] theorem State.setFm_routers (s : State) (p q) : (State.setFm s p q).routers = s.routers := rfl
@[simp] theorem State.setFm_rgns (s : State) (p q) : (State.setFm s p q).rgns = s.rgns := rfl
@[simp] theorem State.setFm_foreign (s : State) (p q) : (State.setFm s p q).foreign = s.foreign := rfl
@[simp] theorem State.setFm_skys (s : State) (p q) : (State.setFm s p q).skys = s.skys := rfl
@[simp] theorem State.setFm_admission (s : State) (p q) : (State.setFm s p q).admission = s.admission := rfl
@[simp] theorem State.setFm_eras (s : State) (p q) : (State.setFm s p q).eras = s.eras := rfl
@[simp] theorem State.setFm_nap (s : State) (p q) : (State.setFm s p q).nap = s.nap := rfl
@[simp] theorem State.setFm_tilesHeld (s : State) (p q) : (State.setFm s p q).tilesHeld = s.tilesHeld := rfl
@[simp] theorem State.setFm_tiers (s : State) (p q) : (State.setFm s p q).tiers = s.tiers := rfl
@[simp] theorem State.setFm_yard (s : State) (p q) : (State.setFm s p q).yard = s.yard := rfl
@[simp] theorem State.setFm_streams (s : State) (p q) : (State.setFm s p q).streams = s.streams := rfl
@[simp] theorem State.setFm_reds (s : State) (p q) : (State.setFm s p q).reds = s.reds := rfl
@[simp] theorem State.setFm_eth (s : State) (p q) : (State.setFm s p q).eth = s.eth := rfl
@[simp] theorem State.setFm_boot (s : State) (p q) : (State.setFm s p q).boot = s.boot := rfl
@[simp] theorem State.setFm_beats (s : State) (p q) : (State.setFm s p q).beats = s.beats := rfl
@[simp] theorem State.setFm_power (s : State) (p q) : (State.setFm s p q).power = s.power := rfl
@[simp] theorem State.setFm_ldr (s : State) (p q) : (State.setFm s p q).ldr = s.ldr := rfl
@[simp] theorem State.setFm_flt (s : State) (p q) : (State.setFm s p q).flt = s.flt := rfl
@[simp] theorem State.setFm_jobs (s : State) (p q) : (State.setFm s p q).jobs = s.jobs := rfl
@[simp] theorem State.setFm_resets (s : State) (p q) : (State.setFm s p q).resets = s.resets := rfl
@[simp] theorem State.setFm_rng (s : State) (p q) : (State.setFm s p q).rng = s.rng := rfl
@[simp] theorem State.setFm_book (s : State) (p q) : (State.setFm s p q).book = s.book := rfl
@[simp] theorem State.setFm_tallyLast (s : State) (p q) : (State.setFm s p q).tallyLast = s.tallyLast := rfl
@[simp] theorem State.setFm_reg (s : State) (p q) (a) : (State.setFm s p q).reg a = s.reg a := rfl
@[simp] theorem State.setFm_regF (s : State) (p q) (a hi lo) : (State.setFm s p q).regF a hi lo = s.regF a hi lo := rfl
@[simp] theorem State.setFm_cell (s : State) (p q) (a) : (State.setFm s p q).cell a = s.cell a := rfl
@[simp] theorem State.setFm_slot (s : State) (p q) (a) : (State.setFm s p q).slot a = s.slot a := rfl
@[simp] theorem State.setFm_router (s : State) (p q) (a) : (State.setFm s p q).router a = s.router a := rfl
@[simp] theorem State.setFm_rgn (s : State) (p q) (a) : (State.setFm s p q).rgn a = s.rgn a := rfl
@[simp] theorem State.setFm_sky (s : State) (p q) (a) : (State.setFm s p q).sky a = s.sky a := rfl
@[simp] theorem State.setFm_stream (s : State) (p q) (a) : (State.setFm s p q).stream a = s.stream a := rfl
@[simp] theorem State.setFm_red (s : State) (p q) (a) : (State.setFm s p q).red a = s.red a := rfl
@[simp] theorem State.setFm_job (s : State) (p q) (a) : (State.setFm s p q).job a = s.job a := rfl
@[simp] theorem State.setFm_slotOfRegion (s : State) (p q) (a) : (State.setFm s p q).slotOfRegion a = s.slotOfRegion a := rfl
@[simp] theorem State.setFm_win (s : State) (p q) (a) : (State.setFm s p q).win a = s.win a := rfl
@[simp] theorem State.setFm_qp (s : State) (p q) (a) : (State.setFm s p q).qp a = s.qp a := rfl

@[simp] theorem State.modFm_pending (s : State) (p q) : (State.modFm s p q).pending = s.pending := rfl
@[simp] theorem State.modFm_inFlight (s : State) (p q) : (State.modFm s p q).inFlight = s.inFlight := rfl
@[simp] theorem State.modFm_out (s : State) (p q) : (State.modFm s p q).out = s.out := rfl
@[simp] theorem State.modFm_freeCtr (s : State) (p q) : (State.modFm s p q).freeCtr = s.freeCtr := rfl
@[simp] theorem State.modFm_regs (s : State) (p q) : (State.modFm s p q).regs = s.regs := rfl
@[simp] theorem State.modFm_cells (s : State) (p q) : (State.modFm s p q).cells = s.cells := rfl
@[simp] theorem State.modFm_slots (s : State) (p q) : (State.modFm s p q).slots = s.slots := rfl
@[simp] theorem State.modFm_spares (s : State) (p q) : (State.modFm s p q).spares = s.spares := rfl
@[simp] theorem State.modFm_routers (s : State) (p q) : (State.modFm s p q).routers = s.routers := rfl
@[simp] theorem State.modFm_rgns (s : State) (p q) : (State.modFm s p q).rgns = s.rgns := rfl
@[simp] theorem State.modFm_foreign (s : State) (p q) : (State.modFm s p q).foreign = s.foreign := rfl
@[simp] theorem State.modFm_skys (s : State) (p q) : (State.modFm s p q).skys = s.skys := rfl
@[simp] theorem State.modFm_admission (s : State) (p q) : (State.modFm s p q).admission = s.admission := rfl
@[simp] theorem State.modFm_eras (s : State) (p q) : (State.modFm s p q).eras = s.eras := rfl
@[simp] theorem State.modFm_nap (s : State) (p q) : (State.modFm s p q).nap = s.nap := rfl
@[simp] theorem State.modFm_tilesHeld (s : State) (p q) : (State.modFm s p q).tilesHeld = s.tilesHeld := rfl
@[simp] theorem State.modFm_tiers (s : State) (p q) : (State.modFm s p q).tiers = s.tiers := rfl
@[simp] theorem State.modFm_yard (s : State) (p q) : (State.modFm s p q).yard = s.yard := rfl
@[simp] theorem State.modFm_streams (s : State) (p q) : (State.modFm s p q).streams = s.streams := rfl
@[simp] theorem State.modFm_reds (s : State) (p q) : (State.modFm s p q).reds = s.reds := rfl
@[simp] theorem State.modFm_eth (s : State) (p q) : (State.modFm s p q).eth = s.eth := rfl
@[simp] theorem State.modFm_boot (s : State) (p q) : (State.modFm s p q).boot = s.boot := rfl
@[simp] theorem State.modFm_beats (s : State) (p q) : (State.modFm s p q).beats = s.beats := rfl
@[simp] theorem State.modFm_power (s : State) (p q) : (State.modFm s p q).power = s.power := rfl
@[simp] theorem State.modFm_ldr (s : State) (p q) : (State.modFm s p q).ldr = s.ldr := rfl
@[simp] theorem State.modFm_flt (s : State) (p q) : (State.modFm s p q).flt = s.flt := rfl
@[simp] theorem State.modFm_jobs (s : State) (p q) : (State.modFm s p q).jobs = s.jobs := rfl
@[simp] theorem State.modFm_resets (s : State) (p q) : (State.modFm s p q).resets = s.resets := rfl
@[simp] theorem State.modFm_rng (s : State) (p q) : (State.modFm s p q).rng = s.rng := rfl
@[simp] theorem State.modFm_book (s : State) (p q) : (State.modFm s p q).book = s.book := rfl
@[simp] theorem State.modFm_tallyLast (s : State) (p q) : (State.modFm s p q).tallyLast = s.tallyLast := rfl
@[simp] theorem State.modFm_reg (s : State) (p q) (a) : (State.modFm s p q).reg a = s.reg a := rfl
@[simp] theorem State.modFm_regF (s : State) (p q) (a hi lo) : (State.modFm s p q).regF a hi lo = s.regF a hi lo := rfl
@[simp] theorem State.modFm_cell (s : State) (p q) (a) : (State.modFm s p q).cell a = s.cell a := rfl
@[simp] theorem State.modFm_slot (s : State) (p q) (a) : (State.modFm s p q).slot a = s.slot a := rfl
@[simp] theorem State.modFm_router (s : State) (p q) (a) : (State.modFm s p q).router a = s.router a := rfl
@[simp] theorem State.modFm_rgn (s : State) (p q) (a) : (State.modFm s p q).rgn a = s.rgn a := rfl
@[simp] theorem State.modFm_sky (s : State) (p q) (a) : (State.modFm s p q).sky a = s.sky a := rfl
@[simp] theorem State.modFm_stream (s : State) (p q) (a) : (State.modFm s p q).stream a = s.stream a := rfl
@[simp] theorem State.modFm_red (s : State) (p q) (a) : (State.modFm s p q).red a = s.red a := rfl
@[simp] theorem State.modFm_job (s : State) (p q) (a) : (State.modFm s p q).job a = s.job a := rfl
@[simp] theorem State.modFm_slotOfRegion (s : State) (p q) (a) : (State.modFm s p q).slotOfRegion a = s.slotOfRegion a := rfl
@[simp] theorem State.modFm_win (s : State) (p q) (a) : (State.modFm s p q).win a = s.win a := rfl
@[simp] theorem State.modFm_qp (s : State) (p q) (a) : (State.modFm s p q).qp a = s.qp a := rfl

@[simp] theorem State.setSlot_pending (s : State) (p q) : (State.setSlot s p q).pending = s.pending := rfl
@[simp] theorem State.setSlot_inFlight (s : State) (p q) : (State.setSlot s p q).inFlight = s.inFlight := rfl
@[simp] theorem State.setSlot_out (s : State) (p q) : (State.setSlot s p q).out = s.out := rfl
@[simp] theorem State.setSlot_freeCtr (s : State) (p q) : (State.setSlot s p q).freeCtr = s.freeCtr := rfl
@[simp] theorem State.setSlot_regs (s : State) (p q) : (State.setSlot s p q).regs = s.regs := rfl
@[simp] theorem State.setSlot_cells (s : State) (p q) : (State.setSlot s p q).cells = s.cells := rfl
@[simp] theorem State.setSlot_fms (s : State) (p q) : (State.setSlot s p q).fms = s.fms := rfl
@[simp] theorem State.setSlot_spares (s : State) (p q) : (State.setSlot s p q).spares = s.spares := rfl
@[simp] theorem State.setSlot_routers (s : State) (p q) : (State.setSlot s p q).routers = s.routers := rfl
@[simp] theorem State.setSlot_rgns (s : State) (p q) : (State.setSlot s p q).rgns = s.rgns := rfl
@[simp] theorem State.setSlot_foreign (s : State) (p q) : (State.setSlot s p q).foreign = s.foreign := rfl
@[simp] theorem State.setSlot_skys (s : State) (p q) : (State.setSlot s p q).skys = s.skys := rfl
@[simp] theorem State.setSlot_admission (s : State) (p q) : (State.setSlot s p q).admission = s.admission := rfl
@[simp] theorem State.setSlot_eras (s : State) (p q) : (State.setSlot s p q).eras = s.eras := rfl
@[simp] theorem State.setSlot_nap (s : State) (p q) : (State.setSlot s p q).nap = s.nap := rfl
@[simp] theorem State.setSlot_tilesHeld (s : State) (p q) : (State.setSlot s p q).tilesHeld = s.tilesHeld := rfl
@[simp] theorem State.setSlot_tiers (s : State) (p q) : (State.setSlot s p q).tiers = s.tiers := rfl
@[simp] theorem State.setSlot_yard (s : State) (p q) : (State.setSlot s p q).yard = s.yard := rfl
@[simp] theorem State.setSlot_streams (s : State) (p q) : (State.setSlot s p q).streams = s.streams := rfl
@[simp] theorem State.setSlot_reds (s : State) (p q) : (State.setSlot s p q).reds = s.reds := rfl
@[simp] theorem State.setSlot_eth (s : State) (p q) : (State.setSlot s p q).eth = s.eth := rfl
@[simp] theorem State.setSlot_boot (s : State) (p q) : (State.setSlot s p q).boot = s.boot := rfl
@[simp] theorem State.setSlot_beats (s : State) (p q) : (State.setSlot s p q).beats = s.beats := rfl
@[simp] theorem State.setSlot_power (s : State) (p q) : (State.setSlot s p q).power = s.power := rfl
@[simp] theorem State.setSlot_ldr (s : State) (p q) : (State.setSlot s p q).ldr = s.ldr := rfl
@[simp] theorem State.setSlot_flt (s : State) (p q) : (State.setSlot s p q).flt = s.flt := rfl
@[simp] theorem State.setSlot_jobs (s : State) (p q) : (State.setSlot s p q).jobs = s.jobs := rfl
@[simp] theorem State.setSlot_resets (s : State) (p q) : (State.setSlot s p q).resets = s.resets := rfl
@[simp] theorem State.setSlot_rng (s : State) (p q) : (State.setSlot s p q).rng = s.rng := rfl
@[simp] theorem State.setSlot_book (s : State) (p q) : (State.setSlot s p q).book = s.book := rfl
@[simp] theorem State.setSlot_tallyLast (s : State) (p q) : (State.setSlot s p q).tallyLast = s.tallyLast := rfl
@[simp] theorem State.setSlot_reg (s : State) (p q) (a) : (State.setSlot s p q).reg a = s.reg a := rfl
@[simp] theorem State.setSlot_regF (s : State) (p q) (a hi lo) : (State.setSlot s p q).regF a hi lo = s.regF a hi lo := rfl
@[simp] theorem State.setSlot_cell (s : State) (p q) (a) : (State.setSlot s p q).cell a = s.cell a := rfl
@[simp] theorem State.setSlot_fm (s : State) (p q) (a) : (State.setSlot s p q).fm a = s.fm a := rfl
@[simp] theorem State.setSlot_router (s : State) (p q) (a) : (State.setSlot s p q).router a = s.router a := rfl
@[simp] theorem State.setSlot_rgn (s : State) (p q) (a) : (State.setSlot s p q).rgn a = s.rgn a := rfl
@[simp] theorem State.setSlot_sky (s : State) (p q) (a) : (State.setSlot s p q).sky a = s.sky a := rfl
@[simp] theorem State.setSlot_stream (s : State) (p q) (a) : (State.setSlot s p q).stream a = s.stream a := rfl
@[simp] theorem State.setSlot_red (s : State) (p q) (a) : (State.setSlot s p q).red a = s.red a := rfl
@[simp] theorem State.setSlot_job (s : State) (p q) (a) : (State.setSlot s p q).job a = s.job a := rfl
@[simp] theorem State.setSlot_win (s : State) (p q) (a) : (State.setSlot s p q).win a = s.win a := rfl
@[simp] theorem State.setSlot_qp (s : State) (p q) (a) : (State.setSlot s p q).qp a = s.qp a := rfl

@[simp] theorem State.modSlot_pending (s : State) (p q) : (State.modSlot s p q).pending = s.pending := rfl
@[simp] theorem State.modSlot_inFlight (s : State) (p q) : (State.modSlot s p q).inFlight = s.inFlight := rfl
@[simp] theorem State.modSlot_out (s : State) (p q) : (State.modSlot s p q).out = s.out := rfl
@[simp] theorem State.modSlot_freeCtr (s : State) (p q) : (State.modSlot s p q).freeCtr = s.freeCtr := rfl
@[simp] theorem State.modSlot_regs (s : State) (p q) : (State.modSlot s p q).regs = s.regs := rfl
@[simp] theorem State.modSlot_cells (s : State) (p q) : (State.modSlot s p q).cells = s.cells := rfl
@[simp] theorem State.modSlot_fms (s : State) (p q) : (State.modSlot s p q).fms = s.fms := rfl
@[simp] theorem State.modSlot_spares (s : State) (p q) : (State.modSlot s p q).spares = s.spares := rfl
@[simp] theorem State.modSlot_routers (s : State) (p q) : (State.modSlot s p q).routers = s.routers := rfl
@[simp] theorem State.modSlot_rgns (s : State) (p q) : (State.modSlot s p q).rgns = s.rgns := rfl
@[simp] theorem State.modSlot_foreign (s : State) (p q) : (State.modSlot s p q).foreign = s.foreign := rfl
@[simp] theorem State.modSlot_skys (s : State) (p q) : (State.modSlot s p q).skys = s.skys := rfl
@[simp] theorem State.modSlot_admission (s : State) (p q) : (State.modSlot s p q).admission = s.admission := rfl
@[simp] theorem State.modSlot_eras (s : State) (p q) : (State.modSlot s p q).eras = s.eras := rfl
@[simp] theorem State.modSlot_nap (s : State) (p q) : (State.modSlot s p q).nap = s.nap := rfl
@[simp] theorem State.modSlot_tilesHeld (s : State) (p q) : (State.modSlot s p q).tilesHeld = s.tilesHeld := rfl
@[simp] theorem State.modSlot_tiers (s : State) (p q) : (State.modSlot s p q).tiers = s.tiers := rfl
@[simp] theorem State.modSlot_yard (s : State) (p q) : (State.modSlot s p q).yard = s.yard := rfl
@[simp] theorem State.modSlot_streams (s : State) (p q) : (State.modSlot s p q).streams = s.streams := rfl
@[simp] theorem State.modSlot_reds (s : State) (p q) : (State.modSlot s p q).reds = s.reds := rfl
@[simp] theorem State.modSlot_eth (s : State) (p q) : (State.modSlot s p q).eth = s.eth := rfl
@[simp] theorem State.modSlot_boot (s : State) (p q) : (State.modSlot s p q).boot = s.boot := rfl
@[simp] theorem State.modSlot_beats (s : State) (p q) : (State.modSlot s p q).beats = s.beats := rfl
@[simp] theorem State.modSlot_power (s : State) (p q) : (State.modSlot s p q).power = s.power := rfl
@[simp] theorem State.modSlot_ldr (s : State) (p q) : (State.modSlot s p q).ldr = s.ldr := rfl
@[simp] theorem State.modSlot_flt (s : State) (p q) : (State.modSlot s p q).flt = s.flt := rfl
@[simp] theorem State.modSlot_jobs (s : State) (p q) : (State.modSlot s p q).jobs = s.jobs := rfl
@[simp] theorem State.modSlot_resets (s : State) (p q) : (State.modSlot s p q).resets = s.resets := rfl
@[simp] theorem State.modSlot_rng (s : State) (p q) : (State.modSlot s p q).rng = s.rng := rfl
@[simp] theorem State.modSlot_book (s : State) (p q) : (State.modSlot s p q).book = s.book := rfl
@[simp] theorem State.modSlot_tallyLast (s : State) (p q) : (State.modSlot s p q).tallyLast = s.tallyLast := rfl
@[simp] theorem State.modSlot_reg (s : State) (p q) (a) : (State.modSlot s p q).reg a = s.reg a := rfl
@[simp] theorem State.modSlot_regF (s : State) (p q) (a hi lo) : (State.modSlot s p q).regF a hi lo = s.regF a hi lo := rfl
@[simp] theorem State.modSlot_cell (s : State) (p q) (a) : (State.modSlot s p q).cell a = s.cell a := rfl
@[simp] theorem State.modSlot_fm (s : State) (p q) (a) : (State.modSlot s p q).fm a = s.fm a := rfl
@[simp] theorem State.modSlot_router (s : State) (p q) (a) : (State.modSlot s p q).router a = s.router a := rfl
@[simp] theorem State.modSlot_rgn (s : State) (p q) (a) : (State.modSlot s p q).rgn a = s.rgn a := rfl
@[simp] theorem State.modSlot_sky (s : State) (p q) (a) : (State.modSlot s p q).sky a = s.sky a := rfl
@[simp] theorem State.modSlot_stream (s : State) (p q) (a) : (State.modSlot s p q).stream a = s.stream a := rfl
@[simp] theorem State.modSlot_red (s : State) (p q) (a) : (State.modSlot s p q).red a = s.red a := rfl
@[simp] theorem State.modSlot_job (s : State) (p q) (a) : (State.modSlot s p q).job a = s.job a := rfl
@[simp] theorem State.modSlot_win (s : State) (p q) (a) : (State.modSlot s p q).win a = s.win a := rfl
@[simp] theorem State.modSlot_qp (s : State) (p q) (a) : (State.modSlot s p q).qp a = s.qp a := rfl

@[simp] theorem State.setRouter_pending (s : State) (p q) : (State.setRouter s p q).pending = s.pending := rfl
@[simp] theorem State.setRouter_inFlight (s : State) (p q) : (State.setRouter s p q).inFlight = s.inFlight := rfl
@[simp] theorem State.setRouter_out (s : State) (p q) : (State.setRouter s p q).out = s.out := rfl
@[simp] theorem State.setRouter_freeCtr (s : State) (p q) : (State.setRouter s p q).freeCtr = s.freeCtr := rfl
@[simp] theorem State.setRouter_regs (s : State) (p q) : (State.setRouter s p q).regs = s.regs := rfl
@[simp] theorem State.setRouter_cells (s : State) (p q) : (State.setRouter s p q).cells = s.cells := rfl
@[simp] theorem State.setRouter_fms (s : State) (p q) : (State.setRouter s p q).fms = s.fms := rfl
@[simp] theorem State.setRouter_slots (s : State) (p q) : (State.setRouter s p q).slots = s.slots := rfl
@[simp] theorem State.setRouter_spares (s : State) (p q) : (State.setRouter s p q).spares = s.spares := rfl
@[simp] theorem State.setRouter_rgns (s : State) (p q) : (State.setRouter s p q).rgns = s.rgns := rfl
@[simp] theorem State.setRouter_foreign (s : State) (p q) : (State.setRouter s p q).foreign = s.foreign := rfl
@[simp] theorem State.setRouter_skys (s : State) (p q) : (State.setRouter s p q).skys = s.skys := rfl
@[simp] theorem State.setRouter_admission (s : State) (p q) : (State.setRouter s p q).admission = s.admission := rfl
@[simp] theorem State.setRouter_eras (s : State) (p q) : (State.setRouter s p q).eras = s.eras := rfl
@[simp] theorem State.setRouter_nap (s : State) (p q) : (State.setRouter s p q).nap = s.nap := rfl
@[simp] theorem State.setRouter_tilesHeld (s : State) (p q) : (State.setRouter s p q).tilesHeld = s.tilesHeld := rfl
@[simp] theorem State.setRouter_tiers (s : State) (p q) : (State.setRouter s p q).tiers = s.tiers := rfl
@[simp] theorem State.setRouter_yard (s : State) (p q) : (State.setRouter s p q).yard = s.yard := rfl
@[simp] theorem State.setRouter_streams (s : State) (p q) : (State.setRouter s p q).streams = s.streams := rfl
@[simp] theorem State.setRouter_reds (s : State) (p q) : (State.setRouter s p q).reds = s.reds := rfl
@[simp] theorem State.setRouter_eth (s : State) (p q) : (State.setRouter s p q).eth = s.eth := rfl
@[simp] theorem State.setRouter_boot (s : State) (p q) : (State.setRouter s p q).boot = s.boot := rfl
@[simp] theorem State.setRouter_beats (s : State) (p q) : (State.setRouter s p q).beats = s.beats := rfl
@[simp] theorem State.setRouter_power (s : State) (p q) : (State.setRouter s p q).power = s.power := rfl
@[simp] theorem State.setRouter_ldr (s : State) (p q) : (State.setRouter s p q).ldr = s.ldr := rfl
@[simp] theorem State.setRouter_flt (s : State) (p q) : (State.setRouter s p q).flt = s.flt := rfl
@[simp] theorem State.setRouter_jobs (s : State) (p q) : (State.setRouter s p q).jobs = s.jobs := rfl
@[simp] theorem State.setRouter_resets (s : State) (p q) : (State.setRouter s p q).resets = s.resets := rfl
@[simp] theorem State.setRouter_rng (s : State) (p q) : (State.setRouter s p q).rng = s.rng := rfl
@[simp] theorem State.setRouter_book (s : State) (p q) : (State.setRouter s p q).book = s.book := rfl
@[simp] theorem State.setRouter_tallyLast (s : State) (p q) : (State.setRouter s p q).tallyLast = s.tallyLast := rfl
@[simp] theorem State.setRouter_reg (s : State) (p q) (a) : (State.setRouter s p q).reg a = s.reg a := rfl
@[simp] theorem State.setRouter_regF (s : State) (p q) (a hi lo) : (State.setRouter s p q).regF a hi lo = s.regF a hi lo := rfl
@[simp] theorem State.setRouter_cell (s : State) (p q) (a) : (State.setRouter s p q).cell a = s.cell a := rfl
@[simp] theorem State.setRouter_fm (s : State) (p q) (a) : (State.setRouter s p q).fm a = s.fm a := rfl
@[simp] theorem State.setRouter_slot (s : State) (p q) (a) : (State.setRouter s p q).slot a = s.slot a := rfl
@[simp] theorem State.setRouter_rgn (s : State) (p q) (a) : (State.setRouter s p q).rgn a = s.rgn a := rfl
@[simp] theorem State.setRouter_sky (s : State) (p q) (a) : (State.setRouter s p q).sky a = s.sky a := rfl
@[simp] theorem State.setRouter_stream (s : State) (p q) (a) : (State.setRouter s p q).stream a = s.stream a := rfl
@[simp] theorem State.setRouter_red (s : State) (p q) (a) : (State.setRouter s p q).red a = s.red a := rfl
@[simp] theorem State.setRouter_job (s : State) (p q) (a) : (State.setRouter s p q).job a = s.job a := rfl
@[simp] theorem State.setRouter_slotOfRegion (s : State) (p q) (a) : (State.setRouter s p q).slotOfRegion a = s.slotOfRegion a := rfl
@[simp] theorem State.setRouter_win (s : State) (p q) (a) : (State.setRouter s p q).win a = s.win a := rfl
@[simp] theorem State.setRouter_qp (s : State) (p q) (a) : (State.setRouter s p q).qp a = s.qp a := rfl

@[simp] theorem State.modRouter_pending (s : State) (p q) : (State.modRouter s p q).pending = s.pending := rfl
@[simp] theorem State.modRouter_inFlight (s : State) (p q) : (State.modRouter s p q).inFlight = s.inFlight := rfl
@[simp] theorem State.modRouter_out (s : State) (p q) : (State.modRouter s p q).out = s.out := rfl
@[simp] theorem State.modRouter_freeCtr (s : State) (p q) : (State.modRouter s p q).freeCtr = s.freeCtr := rfl
@[simp] theorem State.modRouter_regs (s : State) (p q) : (State.modRouter s p q).regs = s.regs := rfl
@[simp] theorem State.modRouter_cells (s : State) (p q) : (State.modRouter s p q).cells = s.cells := rfl
@[simp] theorem State.modRouter_fms (s : State) (p q) : (State.modRouter s p q).fms = s.fms := rfl
@[simp] theorem State.modRouter_slots (s : State) (p q) : (State.modRouter s p q).slots = s.slots := rfl
@[simp] theorem State.modRouter_spares (s : State) (p q) : (State.modRouter s p q).spares = s.spares := rfl
@[simp] theorem State.modRouter_rgns (s : State) (p q) : (State.modRouter s p q).rgns = s.rgns := rfl
@[simp] theorem State.modRouter_foreign (s : State) (p q) : (State.modRouter s p q).foreign = s.foreign := rfl
@[simp] theorem State.modRouter_skys (s : State) (p q) : (State.modRouter s p q).skys = s.skys := rfl
@[simp] theorem State.modRouter_admission (s : State) (p q) : (State.modRouter s p q).admission = s.admission := rfl
@[simp] theorem State.modRouter_eras (s : State) (p q) : (State.modRouter s p q).eras = s.eras := rfl
@[simp] theorem State.modRouter_nap (s : State) (p q) : (State.modRouter s p q).nap = s.nap := rfl
@[simp] theorem State.modRouter_tilesHeld (s : State) (p q) : (State.modRouter s p q).tilesHeld = s.tilesHeld := rfl
@[simp] theorem State.modRouter_tiers (s : State) (p q) : (State.modRouter s p q).tiers = s.tiers := rfl
@[simp] theorem State.modRouter_yard (s : State) (p q) : (State.modRouter s p q).yard = s.yard := rfl
@[simp] theorem State.modRouter_streams (s : State) (p q) : (State.modRouter s p q).streams = s.streams := rfl
@[simp] theorem State.modRouter_reds (s : State) (p q) : (State.modRouter s p q).reds = s.reds := rfl
@[simp] theorem State.modRouter_eth (s : State) (p q) : (State.modRouter s p q).eth = s.eth := rfl
@[simp] theorem State.modRouter_boot (s : State) (p q) : (State.modRouter s p q).boot = s.boot := rfl
@[simp] theorem State.modRouter_beats (s : State) (p q) : (State.modRouter s p q).beats = s.beats := rfl
@[simp] theorem State.modRouter_power (s : State) (p q) : (State.modRouter s p q).power = s.power := rfl
@[simp] theorem State.modRouter_ldr (s : State) (p q) : (State.modRouter s p q).ldr = s.ldr := rfl
@[simp] theorem State.modRouter_flt (s : State) (p q) : (State.modRouter s p q).flt = s.flt := rfl
@[simp] theorem State.modRouter_jobs (s : State) (p q) : (State.modRouter s p q).jobs = s.jobs := rfl
@[simp] theorem State.modRouter_resets (s : State) (p q) : (State.modRouter s p q).resets = s.resets := rfl
@[simp] theorem State.modRouter_rng (s : State) (p q) : (State.modRouter s p q).rng = s.rng := rfl
@[simp] theorem State.modRouter_book (s : State) (p q) : (State.modRouter s p q).book = s.book := rfl
@[simp] theorem State.modRouter_tallyLast (s : State) (p q) : (State.modRouter s p q).tallyLast = s.tallyLast := rfl
@[simp] theorem State.modRouter_reg (s : State) (p q) (a) : (State.modRouter s p q).reg a = s.reg a := rfl
@[simp] theorem State.modRouter_regF (s : State) (p q) (a hi lo) : (State.modRouter s p q).regF a hi lo = s.regF a hi lo := rfl
@[simp] theorem State.modRouter_cell (s : State) (p q) (a) : (State.modRouter s p q).cell a = s.cell a := rfl
@[simp] theorem State.modRouter_fm (s : State) (p q) (a) : (State.modRouter s p q).fm a = s.fm a := rfl
@[simp] theorem State.modRouter_slot (s : State) (p q) (a) : (State.modRouter s p q).slot a = s.slot a := rfl
@[simp] theorem State.modRouter_rgn (s : State) (p q) (a) : (State.modRouter s p q).rgn a = s.rgn a := rfl
@[simp] theorem State.modRouter_sky (s : State) (p q) (a) : (State.modRouter s p q).sky a = s.sky a := rfl
@[simp] theorem State.modRouter_stream (s : State) (p q) (a) : (State.modRouter s p q).stream a = s.stream a := rfl
@[simp] theorem State.modRouter_red (s : State) (p q) (a) : (State.modRouter s p q).red a = s.red a := rfl
@[simp] theorem State.modRouter_job (s : State) (p q) (a) : (State.modRouter s p q).job a = s.job a := rfl
@[simp] theorem State.modRouter_slotOfRegion (s : State) (p q) (a) : (State.modRouter s p q).slotOfRegion a = s.slotOfRegion a := rfl
@[simp] theorem State.modRouter_win (s : State) (p q) (a) : (State.modRouter s p q).win a = s.win a := rfl
@[simp] theorem State.modRouter_qp (s : State) (p q) (a) : (State.modRouter s p q).qp a = s.qp a := rfl

@[simp] theorem State.setRgn_pending (s : State) (p q) : (State.setRgn s p q).pending = s.pending := rfl
@[simp] theorem State.setRgn_inFlight (s : State) (p q) : (State.setRgn s p q).inFlight = s.inFlight := rfl
@[simp] theorem State.setRgn_out (s : State) (p q) : (State.setRgn s p q).out = s.out := rfl
@[simp] theorem State.setRgn_freeCtr (s : State) (p q) : (State.setRgn s p q).freeCtr = s.freeCtr := rfl
@[simp] theorem State.setRgn_regs (s : State) (p q) : (State.setRgn s p q).regs = s.regs := rfl
@[simp] theorem State.setRgn_cells (s : State) (p q) : (State.setRgn s p q).cells = s.cells := rfl
@[simp] theorem State.setRgn_fms (s : State) (p q) : (State.setRgn s p q).fms = s.fms := rfl
@[simp] theorem State.setRgn_slots (s : State) (p q) : (State.setRgn s p q).slots = s.slots := rfl
@[simp] theorem State.setRgn_spares (s : State) (p q) : (State.setRgn s p q).spares = s.spares := rfl
@[simp] theorem State.setRgn_routers (s : State) (p q) : (State.setRgn s p q).routers = s.routers := rfl
@[simp] theorem State.setRgn_foreign (s : State) (p q) : (State.setRgn s p q).foreign = s.foreign := rfl
@[simp] theorem State.setRgn_skys (s : State) (p q) : (State.setRgn s p q).skys = s.skys := rfl
@[simp] theorem State.setRgn_admission (s : State) (p q) : (State.setRgn s p q).admission = s.admission := rfl
@[simp] theorem State.setRgn_eras (s : State) (p q) : (State.setRgn s p q).eras = s.eras := rfl
@[simp] theorem State.setRgn_nap (s : State) (p q) : (State.setRgn s p q).nap = s.nap := rfl
@[simp] theorem State.setRgn_tilesHeld (s : State) (p q) : (State.setRgn s p q).tilesHeld = s.tilesHeld := rfl
@[simp] theorem State.setRgn_tiers (s : State) (p q) : (State.setRgn s p q).tiers = s.tiers := rfl
@[simp] theorem State.setRgn_yard (s : State) (p q) : (State.setRgn s p q).yard = s.yard := rfl
@[simp] theorem State.setRgn_streams (s : State) (p q) : (State.setRgn s p q).streams = s.streams := rfl
@[simp] theorem State.setRgn_reds (s : State) (p q) : (State.setRgn s p q).reds = s.reds := rfl
@[simp] theorem State.setRgn_eth (s : State) (p q) : (State.setRgn s p q).eth = s.eth := rfl
@[simp] theorem State.setRgn_boot (s : State) (p q) : (State.setRgn s p q).boot = s.boot := rfl
@[simp] theorem State.setRgn_beats (s : State) (p q) : (State.setRgn s p q).beats = s.beats := rfl
@[simp] theorem State.setRgn_power (s : State) (p q) : (State.setRgn s p q).power = s.power := rfl
@[simp] theorem State.setRgn_ldr (s : State) (p q) : (State.setRgn s p q).ldr = s.ldr := rfl
@[simp] theorem State.setRgn_flt (s : State) (p q) : (State.setRgn s p q).flt = s.flt := rfl
@[simp] theorem State.setRgn_jobs (s : State) (p q) : (State.setRgn s p q).jobs = s.jobs := rfl
@[simp] theorem State.setRgn_resets (s : State) (p q) : (State.setRgn s p q).resets = s.resets := rfl
@[simp] theorem State.setRgn_rng (s : State) (p q) : (State.setRgn s p q).rng = s.rng := rfl
@[simp] theorem State.setRgn_book (s : State) (p q) : (State.setRgn s p q).book = s.book := rfl
@[simp] theorem State.setRgn_tallyLast (s : State) (p q) : (State.setRgn s p q).tallyLast = s.tallyLast := rfl
@[simp] theorem State.setRgn_reg (s : State) (p q) (a) : (State.setRgn s p q).reg a = s.reg a := rfl
@[simp] theorem State.setRgn_regF (s : State) (p q) (a hi lo) : (State.setRgn s p q).regF a hi lo = s.regF a hi lo := rfl
@[simp] theorem State.setRgn_cell (s : State) (p q) (a) : (State.setRgn s p q).cell a = s.cell a := rfl
@[simp] theorem State.setRgn_fm (s : State) (p q) (a) : (State.setRgn s p q).fm a = s.fm a := rfl
@[simp] theorem State.setRgn_slot (s : State) (p q) (a) : (State.setRgn s p q).slot a = s.slot a := rfl
@[simp] theorem State.setRgn_router (s : State) (p q) (a) : (State.setRgn s p q).router a = s.router a := rfl
@[simp] theorem State.setRgn_sky (s : State) (p q) (a) : (State.setRgn s p q).sky a = s.sky a := rfl
@[simp] theorem State.setRgn_stream (s : State) (p q) (a) : (State.setRgn s p q).stream a = s.stream a := rfl
@[simp] theorem State.setRgn_red (s : State) (p q) (a) : (State.setRgn s p q).red a = s.red a := rfl
@[simp] theorem State.setRgn_job (s : State) (p q) (a) : (State.setRgn s p q).job a = s.job a := rfl
@[simp] theorem State.setRgn_slotOfRegion (s : State) (p q) (a) : (State.setRgn s p q).slotOfRegion a = s.slotOfRegion a := rfl
@[simp] theorem State.setRgn_win (s : State) (p q) (a) : (State.setRgn s p q).win a = s.win a := rfl
@[simp] theorem State.setRgn_qp (s : State) (p q) (a) : (State.setRgn s p q).qp a = s.qp a := rfl

@[simp] theorem State.modRgn_pending (s : State) (p q) : (State.modRgn s p q).pending = s.pending := rfl
@[simp] theorem State.modRgn_inFlight (s : State) (p q) : (State.modRgn s p q).inFlight = s.inFlight := rfl
@[simp] theorem State.modRgn_out (s : State) (p q) : (State.modRgn s p q).out = s.out := rfl
@[simp] theorem State.modRgn_freeCtr (s : State) (p q) : (State.modRgn s p q).freeCtr = s.freeCtr := rfl
@[simp] theorem State.modRgn_regs (s : State) (p q) : (State.modRgn s p q).regs = s.regs := rfl
@[simp] theorem State.modRgn_cells (s : State) (p q) : (State.modRgn s p q).cells = s.cells := rfl
@[simp] theorem State.modRgn_fms (s : State) (p q) : (State.modRgn s p q).fms = s.fms := rfl
@[simp] theorem State.modRgn_slots (s : State) (p q) : (State.modRgn s p q).slots = s.slots := rfl
@[simp] theorem State.modRgn_spares (s : State) (p q) : (State.modRgn s p q).spares = s.spares := rfl
@[simp] theorem State.modRgn_routers (s : State) (p q) : (State.modRgn s p q).routers = s.routers := rfl
@[simp] theorem State.modRgn_foreign (s : State) (p q) : (State.modRgn s p q).foreign = s.foreign := rfl
@[simp] theorem State.modRgn_skys (s : State) (p q) : (State.modRgn s p q).skys = s.skys := rfl
@[simp] theorem State.modRgn_admission (s : State) (p q) : (State.modRgn s p q).admission = s.admission := rfl
@[simp] theorem State.modRgn_eras (s : State) (p q) : (State.modRgn s p q).eras = s.eras := rfl
@[simp] theorem State.modRgn_nap (s : State) (p q) : (State.modRgn s p q).nap = s.nap := rfl
@[simp] theorem State.modRgn_tilesHeld (s : State) (p q) : (State.modRgn s p q).tilesHeld = s.tilesHeld := rfl
@[simp] theorem State.modRgn_tiers (s : State) (p q) : (State.modRgn s p q).tiers = s.tiers := rfl
@[simp] theorem State.modRgn_yard (s : State) (p q) : (State.modRgn s p q).yard = s.yard := rfl
@[simp] theorem State.modRgn_streams (s : State) (p q) : (State.modRgn s p q).streams = s.streams := rfl
@[simp] theorem State.modRgn_reds (s : State) (p q) : (State.modRgn s p q).reds = s.reds := rfl
@[simp] theorem State.modRgn_eth (s : State) (p q) : (State.modRgn s p q).eth = s.eth := rfl
@[simp] theorem State.modRgn_boot (s : State) (p q) : (State.modRgn s p q).boot = s.boot := rfl
@[simp] theorem State.modRgn_beats (s : State) (p q) : (State.modRgn s p q).beats = s.beats := rfl
@[simp] theorem State.modRgn_power (s : State) (p q) : (State.modRgn s p q).power = s.power := rfl
@[simp] theorem State.modRgn_ldr (s : State) (p q) : (State.modRgn s p q).ldr = s.ldr := rfl
@[simp] theorem State.modRgn_flt (s : State) (p q) : (State.modRgn s p q).flt = s.flt := rfl
@[simp] theorem State.modRgn_jobs (s : State) (p q) : (State.modRgn s p q).jobs = s.jobs := rfl
@[simp] theorem State.modRgn_resets (s : State) (p q) : (State.modRgn s p q).resets = s.resets := rfl
@[simp] theorem State.modRgn_rng (s : State) (p q) : (State.modRgn s p q).rng = s.rng := rfl
@[simp] theorem State.modRgn_book (s : State) (p q) : (State.modRgn s p q).book = s.book := rfl
@[simp] theorem State.modRgn_tallyLast (s : State) (p q) : (State.modRgn s p q).tallyLast = s.tallyLast := rfl
@[simp] theorem State.modRgn_reg (s : State) (p q) (a) : (State.modRgn s p q).reg a = s.reg a := rfl
@[simp] theorem State.modRgn_regF (s : State) (p q) (a hi lo) : (State.modRgn s p q).regF a hi lo = s.regF a hi lo := rfl
@[simp] theorem State.modRgn_cell (s : State) (p q) (a) : (State.modRgn s p q).cell a = s.cell a := rfl
@[simp] theorem State.modRgn_fm (s : State) (p q) (a) : (State.modRgn s p q).fm a = s.fm a := rfl
@[simp] theorem State.modRgn_slot (s : State) (p q) (a) : (State.modRgn s p q).slot a = s.slot a := rfl
@[simp] theorem State.modRgn_router (s : State) (p q) (a) : (State.modRgn s p q).router a = s.router a := rfl
@[simp] theorem State.modRgn_sky (s : State) (p q) (a) : (State.modRgn s p q).sky a = s.sky a := rfl
@[simp] theorem State.modRgn_stream (s : State) (p q) (a) : (State.modRgn s p q).stream a = s.stream a := rfl
@[simp] theorem State.modRgn_red (s : State) (p q) (a) : (State.modRgn s p q).red a = s.red a := rfl
@[simp] theorem State.modRgn_job (s : State) (p q) (a) : (State.modRgn s p q).job a = s.job a := rfl
@[simp] theorem State.modRgn_slotOfRegion (s : State) (p q) (a) : (State.modRgn s p q).slotOfRegion a = s.slotOfRegion a := rfl
@[simp] theorem State.modRgn_win (s : State) (p q) (a) : (State.modRgn s p q).win a = s.win a := rfl
@[simp] theorem State.modRgn_qp (s : State) (p q) (a) : (State.modRgn s p q).qp a = s.qp a := rfl

@[simp] theorem State.setSky_pending (s : State) (p q) : (State.setSky s p q).pending = s.pending := rfl
@[simp] theorem State.setSky_inFlight (s : State) (p q) : (State.setSky s p q).inFlight = s.inFlight := rfl
@[simp] theorem State.setSky_out (s : State) (p q) : (State.setSky s p q).out = s.out := rfl
@[simp] theorem State.setSky_freeCtr (s : State) (p q) : (State.setSky s p q).freeCtr = s.freeCtr := rfl
@[simp] theorem State.setSky_regs (s : State) (p q) : (State.setSky s p q).regs = s.regs := rfl
@[simp] theorem State.setSky_cells (s : State) (p q) : (State.setSky s p q).cells = s.cells := rfl
@[simp] theorem State.setSky_fms (s : State) (p q) : (State.setSky s p q).fms = s.fms := rfl
@[simp] theorem State.setSky_slots (s : State) (p q) : (State.setSky s p q).slots = s.slots := rfl
@[simp] theorem State.setSky_spares (s : State) (p q) : (State.setSky s p q).spares = s.spares := rfl
@[simp] theorem State.setSky_routers (s : State) (p q) : (State.setSky s p q).routers = s.routers := rfl
@[simp] theorem State.setSky_rgns (s : State) (p q) : (State.setSky s p q).rgns = s.rgns := rfl
@[simp] theorem State.setSky_foreign (s : State) (p q) : (State.setSky s p q).foreign = s.foreign := rfl
@[simp] theorem State.setSky_admission (s : State) (p q) : (State.setSky s p q).admission = s.admission := rfl
@[simp] theorem State.setSky_eras (s : State) (p q) : (State.setSky s p q).eras = s.eras := rfl
@[simp] theorem State.setSky_nap (s : State) (p q) : (State.setSky s p q).nap = s.nap := rfl
@[simp] theorem State.setSky_tilesHeld (s : State) (p q) : (State.setSky s p q).tilesHeld = s.tilesHeld := rfl
@[simp] theorem State.setSky_tiers (s : State) (p q) : (State.setSky s p q).tiers = s.tiers := rfl
@[simp] theorem State.setSky_yard (s : State) (p q) : (State.setSky s p q).yard = s.yard := rfl
@[simp] theorem State.setSky_streams (s : State) (p q) : (State.setSky s p q).streams = s.streams := rfl
@[simp] theorem State.setSky_reds (s : State) (p q) : (State.setSky s p q).reds = s.reds := rfl
@[simp] theorem State.setSky_eth (s : State) (p q) : (State.setSky s p q).eth = s.eth := rfl
@[simp] theorem State.setSky_boot (s : State) (p q) : (State.setSky s p q).boot = s.boot := rfl
@[simp] theorem State.setSky_beats (s : State) (p q) : (State.setSky s p q).beats = s.beats := rfl
@[simp] theorem State.setSky_power (s : State) (p q) : (State.setSky s p q).power = s.power := rfl
@[simp] theorem State.setSky_ldr (s : State) (p q) : (State.setSky s p q).ldr = s.ldr := rfl
@[simp] theorem State.setSky_flt (s : State) (p q) : (State.setSky s p q).flt = s.flt := rfl
@[simp] theorem State.setSky_jobs (s : State) (p q) : (State.setSky s p q).jobs = s.jobs := rfl
@[simp] theorem State.setSky_resets (s : State) (p q) : (State.setSky s p q).resets = s.resets := rfl
@[simp] theorem State.setSky_rng (s : State) (p q) : (State.setSky s p q).rng = s.rng := rfl
@[simp] theorem State.setSky_book (s : State) (p q) : (State.setSky s p q).book = s.book := rfl
@[simp] theorem State.setSky_tallyLast (s : State) (p q) : (State.setSky s p q).tallyLast = s.tallyLast := rfl
@[simp] theorem State.setSky_reg (s : State) (p q) (a) : (State.setSky s p q).reg a = s.reg a := rfl
@[simp] theorem State.setSky_regF (s : State) (p q) (a hi lo) : (State.setSky s p q).regF a hi lo = s.regF a hi lo := rfl
@[simp] theorem State.setSky_cell (s : State) (p q) (a) : (State.setSky s p q).cell a = s.cell a := rfl
@[simp] theorem State.setSky_fm (s : State) (p q) (a) : (State.setSky s p q).fm a = s.fm a := rfl
@[simp] theorem State.setSky_slot (s : State) (p q) (a) : (State.setSky s p q).slot a = s.slot a := rfl
@[simp] theorem State.setSky_router (s : State) (p q) (a) : (State.setSky s p q).router a = s.router a := rfl
@[simp] theorem State.setSky_rgn (s : State) (p q) (a) : (State.setSky s p q).rgn a = s.rgn a := rfl
@[simp] theorem State.setSky_stream (s : State) (p q) (a) : (State.setSky s p q).stream a = s.stream a := rfl
@[simp] theorem State.setSky_red (s : State) (p q) (a) : (State.setSky s p q).red a = s.red a := rfl
@[simp] theorem State.setSky_job (s : State) (p q) (a) : (State.setSky s p q).job a = s.job a := rfl
@[simp] theorem State.setSky_slotOfRegion (s : State) (p q) (a) : (State.setSky s p q).slotOfRegion a = s.slotOfRegion a := rfl
@[simp] theorem State.setSky_win (s : State) (p q) (a) : (State.setSky s p q).win a = s.win a := rfl
@[simp] theorem State.setSky_qp (s : State) (p q) (a) : (State.setSky s p q).qp a = s.qp a := rfl

@[simp] theorem State.modSky_pending (s : State) (p q) : (State.modSky s p q).pending = s.pending := rfl
@[simp] theorem State.modSky_inFlight (s : State) (p q) : (State.modSky s p q).inFlight = s.inFlight := rfl
@[simp] theorem State.modSky_out (s : State) (p q) : (State.modSky s p q).out = s.out := rfl
@[simp] theorem State.modSky_freeCtr (s : State) (p q) : (State.modSky s p q).freeCtr = s.freeCtr := rfl
@[simp] theorem State.modSky_regs (s : State) (p q) : (State.modSky s p q).regs = s.regs := rfl
@[simp] theorem State.modSky_cells (s : State) (p q) : (State.modSky s p q).cells = s.cells := rfl
@[simp] theorem State.modSky_fms (s : State) (p q) : (State.modSky s p q).fms = s.fms := rfl
@[simp] theorem State.modSky_slots (s : State) (p q) : (State.modSky s p q).slots = s.slots := rfl
@[simp] theorem State.modSky_spares (s : State) (p q) : (State.modSky s p q).spares = s.spares := rfl
@[simp] theorem State.modSky_routers (s : State) (p q) : (State.modSky s p q).routers = s.routers := rfl
@[simp] theorem State.modSky_rgns (s : State) (p q) : (State.modSky s p q).rgns = s.rgns := rfl
@[simp] theorem State.modSky_foreign (s : State) (p q) : (State.modSky s p q).foreign = s.foreign := rfl
@[simp] theorem State.modSky_admission (s : State) (p q) : (State.modSky s p q).admission = s.admission := rfl
@[simp] theorem State.modSky_eras (s : State) (p q) : (State.modSky s p q).eras = s.eras := rfl
@[simp] theorem State.modSky_nap (s : State) (p q) : (State.modSky s p q).nap = s.nap := rfl
@[simp] theorem State.modSky_tilesHeld (s : State) (p q) : (State.modSky s p q).tilesHeld = s.tilesHeld := rfl
@[simp] theorem State.modSky_tiers (s : State) (p q) : (State.modSky s p q).tiers = s.tiers := rfl
@[simp] theorem State.modSky_yard (s : State) (p q) : (State.modSky s p q).yard = s.yard := rfl
@[simp] theorem State.modSky_streams (s : State) (p q) : (State.modSky s p q).streams = s.streams := rfl
@[simp] theorem State.modSky_reds (s : State) (p q) : (State.modSky s p q).reds = s.reds := rfl
@[simp] theorem State.modSky_eth (s : State) (p q) : (State.modSky s p q).eth = s.eth := rfl
@[simp] theorem State.modSky_boot (s : State) (p q) : (State.modSky s p q).boot = s.boot := rfl
@[simp] theorem State.modSky_beats (s : State) (p q) : (State.modSky s p q).beats = s.beats := rfl
@[simp] theorem State.modSky_power (s : State) (p q) : (State.modSky s p q).power = s.power := rfl
@[simp] theorem State.modSky_ldr (s : State) (p q) : (State.modSky s p q).ldr = s.ldr := rfl
@[simp] theorem State.modSky_flt (s : State) (p q) : (State.modSky s p q).flt = s.flt := rfl
@[simp] theorem State.modSky_jobs (s : State) (p q) : (State.modSky s p q).jobs = s.jobs := rfl
@[simp] theorem State.modSky_resets (s : State) (p q) : (State.modSky s p q).resets = s.resets := rfl
@[simp] theorem State.modSky_rng (s : State) (p q) : (State.modSky s p q).rng = s.rng := rfl
@[simp] theorem State.modSky_book (s : State) (p q) : (State.modSky s p q).book = s.book := rfl
@[simp] theorem State.modSky_tallyLast (s : State) (p q) : (State.modSky s p q).tallyLast = s.tallyLast := rfl
@[simp] theorem State.modSky_reg (s : State) (p q) (a) : (State.modSky s p q).reg a = s.reg a := rfl
@[simp] theorem State.modSky_regF (s : State) (p q) (a hi lo) : (State.modSky s p q).regF a hi lo = s.regF a hi lo := rfl
@[simp] theorem State.modSky_cell (s : State) (p q) (a) : (State.modSky s p q).cell a = s.cell a := rfl
@[simp] theorem State.modSky_fm (s : State) (p q) (a) : (State.modSky s p q).fm a = s.fm a := rfl
@[simp] theorem State.modSky_slot (s : State) (p q) (a) : (State.modSky s p q).slot a = s.slot a := rfl
@[simp] theorem State.modSky_router (s : State) (p q) (a) : (State.modSky s p q).router a = s.router a := rfl
@[simp] theorem State.modSky_rgn (s : State) (p q) (a) : (State.modSky s p q).rgn a = s.rgn a := rfl
@[simp] theorem State.modSky_stream (s : State) (p q) (a) : (State.modSky s p q).stream a = s.stream a := rfl
@[simp] theorem State.modSky_red (s : State) (p q) (a) : (State.modSky s p q).red a = s.red a := rfl
@[simp] theorem State.modSky_job (s : State) (p q) (a) : (State.modSky s p q).job a = s.job a := rfl
@[simp] theorem State.modSky_slotOfRegion (s : State) (p q) (a) : (State.modSky s p q).slotOfRegion a = s.slotOfRegion a := rfl
@[simp] theorem State.modSky_win (s : State) (p q) (a) : (State.modSky s p q).win a = s.win a := rfl
@[simp] theorem State.modSky_qp (s : State) (p q) (a) : (State.modSky s p q).qp a = s.qp a := rfl

@[simp] theorem State.setStream_pending (s : State) (p q) : (State.setStream s p q).pending = s.pending := rfl
@[simp] theorem State.setStream_inFlight (s : State) (p q) : (State.setStream s p q).inFlight = s.inFlight := rfl
@[simp] theorem State.setStream_out (s : State) (p q) : (State.setStream s p q).out = s.out := rfl
@[simp] theorem State.setStream_freeCtr (s : State) (p q) : (State.setStream s p q).freeCtr = s.freeCtr := rfl
@[simp] theorem State.setStream_regs (s : State) (p q) : (State.setStream s p q).regs = s.regs := rfl
@[simp] theorem State.setStream_cells (s : State) (p q) : (State.setStream s p q).cells = s.cells := rfl
@[simp] theorem State.setStream_fms (s : State) (p q) : (State.setStream s p q).fms = s.fms := rfl
@[simp] theorem State.setStream_slots (s : State) (p q) : (State.setStream s p q).slots = s.slots := rfl
@[simp] theorem State.setStream_spares (s : State) (p q) : (State.setStream s p q).spares = s.spares := rfl
@[simp] theorem State.setStream_routers (s : State) (p q) : (State.setStream s p q).routers = s.routers := rfl
@[simp] theorem State.setStream_rgns (s : State) (p q) : (State.setStream s p q).rgns = s.rgns := rfl
@[simp] theorem State.setStream_foreign (s : State) (p q) : (State.setStream s p q).foreign = s.foreign := rfl
@[simp] theorem State.setStream_skys (s : State) (p q) : (State.setStream s p q).skys = s.skys := rfl
@[simp] theorem State.setStream_admission (s : State) (p q) : (State.setStream s p q).admission = s.admission := rfl
@[simp] theorem State.setStream_eras (s : State) (p q) : (State.setStream s p q).eras = s.eras := rfl
@[simp] theorem State.setStream_nap (s : State) (p q) : (State.setStream s p q).nap = s.nap := rfl
@[simp] theorem State.setStream_tilesHeld (s : State) (p q) : (State.setStream s p q).tilesHeld = s.tilesHeld := rfl
@[simp] theorem State.setStream_tiers (s : State) (p q) : (State.setStream s p q).tiers = s.tiers := rfl
@[simp] theorem State.setStream_yard (s : State) (p q) : (State.setStream s p q).yard = s.yard := rfl
@[simp] theorem State.setStream_reds (s : State) (p q) : (State.setStream s p q).reds = s.reds := rfl
@[simp] theorem State.setStream_eth (s : State) (p q) : (State.setStream s p q).eth = s.eth := rfl
@[simp] theorem State.setStream_boot (s : State) (p q) : (State.setStream s p q).boot = s.boot := rfl
@[simp] theorem State.setStream_beats (s : State) (p q) : (State.setStream s p q).beats = s.beats := rfl
@[simp] theorem State.setStream_power (s : State) (p q) : (State.setStream s p q).power = s.power := rfl
@[simp] theorem State.setStream_ldr (s : State) (p q) : (State.setStream s p q).ldr = s.ldr := rfl
@[simp] theorem State.setStream_flt (s : State) (p q) : (State.setStream s p q).flt = s.flt := rfl
@[simp] theorem State.setStream_jobs (s : State) (p q) : (State.setStream s p q).jobs = s.jobs := rfl
@[simp] theorem State.setStream_resets (s : State) (p q) : (State.setStream s p q).resets = s.resets := rfl
@[simp] theorem State.setStream_rng (s : State) (p q) : (State.setStream s p q).rng = s.rng := rfl
@[simp] theorem State.setStream_book (s : State) (p q) : (State.setStream s p q).book = s.book := rfl
@[simp] theorem State.setStream_tallyLast (s : State) (p q) : (State.setStream s p q).tallyLast = s.tallyLast := rfl
@[simp] theorem State.setStream_reg (s : State) (p q) (a) : (State.setStream s p q).reg a = s.reg a := rfl
@[simp] theorem State.setStream_regF (s : State) (p q) (a hi lo) : (State.setStream s p q).regF a hi lo = s.regF a hi lo := rfl
@[simp] theorem State.setStream_cell (s : State) (p q) (a) : (State.setStream s p q).cell a = s.cell a := rfl
@[simp] theorem State.setStream_fm (s : State) (p q) (a) : (State.setStream s p q).fm a = s.fm a := rfl
@[simp] theorem State.setStream_slot (s : State) (p q) (a) : (State.setStream s p q).slot a = s.slot a := rfl
@[simp] theorem State.setStream_router (s : State) (p q) (a) : (State.setStream s p q).router a = s.router a := rfl
@[simp] theorem State.setStream_rgn (s : State) (p q) (a) : (State.setStream s p q).rgn a = s.rgn a := rfl
@[simp] theorem State.setStream_sky (s : State) (p q) (a) : (State.setStream s p q).sky a = s.sky a := rfl
@[simp] theorem State.setStream_red (s : State) (p q) (a) : (State.setStream s p q).red a = s.red a := rfl
@[simp] theorem State.setStream_job (s : State) (p q) (a) : (State.setStream s p q).job a = s.job a := rfl
@[simp] theorem State.setStream_slotOfRegion (s : State) (p q) (a) : (State.setStream s p q).slotOfRegion a = s.slotOfRegion a := rfl
@[simp] theorem State.setStream_win (s : State) (p q) (a) : (State.setStream s p q).win a = s.win a := rfl
@[simp] theorem State.setStream_qp (s : State) (p q) (a) : (State.setStream s p q).qp a = s.qp a := rfl

@[simp] theorem State.modStream_pending (s : State) (p q) : (State.modStream s p q).pending = s.pending := rfl
@[simp] theorem State.modStream_inFlight (s : State) (p q) : (State.modStream s p q).inFlight = s.inFlight := rfl
@[simp] theorem State.modStream_out (s : State) (p q) : (State.modStream s p q).out = s.out := rfl
@[simp] theorem State.modStream_freeCtr (s : State) (p q) : (State.modStream s p q).freeCtr = s.freeCtr := rfl
@[simp] theorem State.modStream_regs (s : State) (p q) : (State.modStream s p q).regs = s.regs := rfl
@[simp] theorem State.modStream_cells (s : State) (p q) : (State.modStream s p q).cells = s.cells := rfl
@[simp] theorem State.modStream_fms (s : State) (p q) : (State.modStream s p q).fms = s.fms := rfl
@[simp] theorem State.modStream_slots (s : State) (p q) : (State.modStream s p q).slots = s.slots := rfl
@[simp] theorem State.modStream_spares (s : State) (p q) : (State.modStream s p q).spares = s.spares := rfl
@[simp] theorem State.modStream_routers (s : State) (p q) : (State.modStream s p q).routers = s.routers := rfl
@[simp] theorem State.modStream_rgns (s : State) (p q) : (State.modStream s p q).rgns = s.rgns := rfl
@[simp] theorem State.modStream_foreign (s : State) (p q) : (State.modStream s p q).foreign = s.foreign := rfl
@[simp] theorem State.modStream_skys (s : State) (p q) : (State.modStream s p q).skys = s.skys := rfl
@[simp] theorem State.modStream_admission (s : State) (p q) : (State.modStream s p q).admission = s.admission := rfl
@[simp] theorem State.modStream_eras (s : State) (p q) : (State.modStream s p q).eras = s.eras := rfl
@[simp] theorem State.modStream_nap (s : State) (p q) : (State.modStream s p q).nap = s.nap := rfl
@[simp] theorem State.modStream_tilesHeld (s : State) (p q) : (State.modStream s p q).tilesHeld = s.tilesHeld := rfl
@[simp] theorem State.modStream_tiers (s : State) (p q) : (State.modStream s p q).tiers = s.tiers := rfl
@[simp] theorem State.modStream_yard (s : State) (p q) : (State.modStream s p q).yard = s.yard := rfl
@[simp] theorem State.modStream_reds (s : State) (p q) : (State.modStream s p q).reds = s.reds := rfl
@[simp] theorem State.modStream_eth (s : State) (p q) : (State.modStream s p q).eth = s.eth := rfl
@[simp] theorem State.modStream_boot (s : State) (p q) : (State.modStream s p q).boot = s.boot := rfl
@[simp] theorem State.modStream_beats (s : State) (p q) : (State.modStream s p q).beats = s.beats := rfl
@[simp] theorem State.modStream_power (s : State) (p q) : (State.modStream s p q).power = s.power := rfl
@[simp] theorem State.modStream_ldr (s : State) (p q) : (State.modStream s p q).ldr = s.ldr := rfl
@[simp] theorem State.modStream_flt (s : State) (p q) : (State.modStream s p q).flt = s.flt := rfl
@[simp] theorem State.modStream_jobs (s : State) (p q) : (State.modStream s p q).jobs = s.jobs := rfl
@[simp] theorem State.modStream_resets (s : State) (p q) : (State.modStream s p q).resets = s.resets := rfl
@[simp] theorem State.modStream_rng (s : State) (p q) : (State.modStream s p q).rng = s.rng := rfl
@[simp] theorem State.modStream_book (s : State) (p q) : (State.modStream s p q).book = s.book := rfl
@[simp] theorem State.modStream_tallyLast (s : State) (p q) : (State.modStream s p q).tallyLast = s.tallyLast := rfl
@[simp] theorem State.modStream_reg (s : State) (p q) (a) : (State.modStream s p q).reg a = s.reg a := rfl
@[simp] theorem State.modStream_regF (s : State) (p q) (a hi lo) : (State.modStream s p q).regF a hi lo = s.regF a hi lo := rfl
@[simp] theorem State.modStream_cell (s : State) (p q) (a) : (State.modStream s p q).cell a = s.cell a := rfl
@[simp] theorem State.modStream_fm (s : State) (p q) (a) : (State.modStream s p q).fm a = s.fm a := rfl
@[simp] theorem State.modStream_slot (s : State) (p q) (a) : (State.modStream s p q).slot a = s.slot a := rfl
@[simp] theorem State.modStream_router (s : State) (p q) (a) : (State.modStream s p q).router a = s.router a := rfl
@[simp] theorem State.modStream_rgn (s : State) (p q) (a) : (State.modStream s p q).rgn a = s.rgn a := rfl
@[simp] theorem State.modStream_sky (s : State) (p q) (a) : (State.modStream s p q).sky a = s.sky a := rfl
@[simp] theorem State.modStream_red (s : State) (p q) (a) : (State.modStream s p q).red a = s.red a := rfl
@[simp] theorem State.modStream_job (s : State) (p q) (a) : (State.modStream s p q).job a = s.job a := rfl
@[simp] theorem State.modStream_slotOfRegion (s : State) (p q) (a) : (State.modStream s p q).slotOfRegion a = s.slotOfRegion a := rfl
@[simp] theorem State.modStream_win (s : State) (p q) (a) : (State.modStream s p q).win a = s.win a := rfl
@[simp] theorem State.modStream_qp (s : State) (p q) (a) : (State.modStream s p q).qp a = s.qp a := rfl

@[simp] theorem State.setRed_pending (s : State) (p q) : (State.setRed s p q).pending = s.pending := rfl
@[simp] theorem State.setRed_inFlight (s : State) (p q) : (State.setRed s p q).inFlight = s.inFlight := rfl
@[simp] theorem State.setRed_out (s : State) (p q) : (State.setRed s p q).out = s.out := rfl
@[simp] theorem State.setRed_freeCtr (s : State) (p q) : (State.setRed s p q).freeCtr = s.freeCtr := rfl
@[simp] theorem State.setRed_regs (s : State) (p q) : (State.setRed s p q).regs = s.regs := rfl
@[simp] theorem State.setRed_cells (s : State) (p q) : (State.setRed s p q).cells = s.cells := rfl
@[simp] theorem State.setRed_fms (s : State) (p q) : (State.setRed s p q).fms = s.fms := rfl
@[simp] theorem State.setRed_slots (s : State) (p q) : (State.setRed s p q).slots = s.slots := rfl
@[simp] theorem State.setRed_spares (s : State) (p q) : (State.setRed s p q).spares = s.spares := rfl
@[simp] theorem State.setRed_routers (s : State) (p q) : (State.setRed s p q).routers = s.routers := rfl
@[simp] theorem State.setRed_rgns (s : State) (p q) : (State.setRed s p q).rgns = s.rgns := rfl
@[simp] theorem State.setRed_foreign (s : State) (p q) : (State.setRed s p q).foreign = s.foreign := rfl
@[simp] theorem State.setRed_skys (s : State) (p q) : (State.setRed s p q).skys = s.skys := rfl
@[simp] theorem State.setRed_admission (s : State) (p q) : (State.setRed s p q).admission = s.admission := rfl
@[simp] theorem State.setRed_eras (s : State) (p q) : (State.setRed s p q).eras = s.eras := rfl
@[simp] theorem State.setRed_nap (s : State) (p q) : (State.setRed s p q).nap = s.nap := rfl
@[simp] theorem State.setRed_tilesHeld (s : State) (p q) : (State.setRed s p q).tilesHeld = s.tilesHeld := rfl
@[simp] theorem State.setRed_tiers (s : State) (p q) : (State.setRed s p q).tiers = s.tiers := rfl
@[simp] theorem State.setRed_yard (s : State) (p q) : (State.setRed s p q).yard = s.yard := rfl
@[simp] theorem State.setRed_streams (s : State) (p q) : (State.setRed s p q).streams = s.streams := rfl
@[simp] theorem State.setRed_eth (s : State) (p q) : (State.setRed s p q).eth = s.eth := rfl
@[simp] theorem State.setRed_boot (s : State) (p q) : (State.setRed s p q).boot = s.boot := rfl
@[simp] theorem State.setRed_beats (s : State) (p q) : (State.setRed s p q).beats = s.beats := rfl
@[simp] theorem State.setRed_power (s : State) (p q) : (State.setRed s p q).power = s.power := rfl
@[simp] theorem State.setRed_ldr (s : State) (p q) : (State.setRed s p q).ldr = s.ldr := rfl
@[simp] theorem State.setRed_flt (s : State) (p q) : (State.setRed s p q).flt = s.flt := rfl
@[simp] theorem State.setRed_jobs (s : State) (p q) : (State.setRed s p q).jobs = s.jobs := rfl
@[simp] theorem State.setRed_resets (s : State) (p q) : (State.setRed s p q).resets = s.resets := rfl
@[simp] theorem State.setRed_rng (s : State) (p q) : (State.setRed s p q).rng = s.rng := rfl
@[simp] theorem State.setRed_book (s : State) (p q) : (State.setRed s p q).book = s.book := rfl
@[simp] theorem State.setRed_tallyLast (s : State) (p q) : (State.setRed s p q).tallyLast = s.tallyLast := rfl
@[simp] theorem State.setRed_reg (s : State) (p q) (a) : (State.setRed s p q).reg a = s.reg a := rfl
@[simp] theorem State.setRed_regF (s : State) (p q) (a hi lo) : (State.setRed s p q).regF a hi lo = s.regF a hi lo := rfl
@[simp] theorem State.setRed_cell (s : State) (p q) (a) : (State.setRed s p q).cell a = s.cell a := rfl
@[simp] theorem State.setRed_fm (s : State) (p q) (a) : (State.setRed s p q).fm a = s.fm a := rfl
@[simp] theorem State.setRed_slot (s : State) (p q) (a) : (State.setRed s p q).slot a = s.slot a := rfl
@[simp] theorem State.setRed_router (s : State) (p q) (a) : (State.setRed s p q).router a = s.router a := rfl
@[simp] theorem State.setRed_rgn (s : State) (p q) (a) : (State.setRed s p q).rgn a = s.rgn a := rfl
@[simp] theorem State.setRed_sky (s : State) (p q) (a) : (State.setRed s p q).sky a = s.sky a := rfl
@[simp] theorem State.setRed_stream (s : State) (p q) (a) : (State.setRed s p q).stream a = s.stream a := rfl
@[simp] theorem State.setRed_job (s : State) (p q) (a) : (State.setRed s p q).job a = s.job a := rfl
@[simp] theorem State.setRed_slotOfRegion (s : State) (p q) (a) : (State.setRed s p q).slotOfRegion a = s.slotOfRegion a := rfl
@[simp] theorem State.setRed_win (s : State) (p q) (a) : (State.setRed s p q).win a = s.win a := rfl
@[simp] theorem State.setRed_qp (s : State) (p q) (a) : (State.setRed s p q).qp a = s.qp a := rfl

@[simp] theorem State.modRed_pending (s : State) (p q) : (State.modRed s p q).pending = s.pending := rfl
@[simp] theorem State.modRed_inFlight (s : State) (p q) : (State.modRed s p q).inFlight = s.inFlight := rfl
@[simp] theorem State.modRed_out (s : State) (p q) : (State.modRed s p q).out = s.out := rfl
@[simp] theorem State.modRed_freeCtr (s : State) (p q) : (State.modRed s p q).freeCtr = s.freeCtr := rfl
@[simp] theorem State.modRed_regs (s : State) (p q) : (State.modRed s p q).regs = s.regs := rfl
@[simp] theorem State.modRed_cells (s : State) (p q) : (State.modRed s p q).cells = s.cells := rfl
@[simp] theorem State.modRed_fms (s : State) (p q) : (State.modRed s p q).fms = s.fms := rfl
@[simp] theorem State.modRed_slots (s : State) (p q) : (State.modRed s p q).slots = s.slots := rfl
@[simp] theorem State.modRed_spares (s : State) (p q) : (State.modRed s p q).spares = s.spares := rfl
@[simp] theorem State.modRed_routers (s : State) (p q) : (State.modRed s p q).routers = s.routers := rfl
@[simp] theorem State.modRed_rgns (s : State) (p q) : (State.modRed s p q).rgns = s.rgns := rfl
@[simp] theorem State.modRed_foreign (s : State) (p q) : (State.modRed s p q).foreign = s.foreign := rfl
@[simp] theorem State.modRed_skys (s : State) (p q) : (State.modRed s p q).skys = s.skys := rfl
@[simp] theorem State.modRed_admission (s : State) (p q) : (State.modRed s p q).admission = s.admission := rfl
@[simp] theorem State.modRed_eras (s : State) (p q) : (State.modRed s p q).eras = s.eras := rfl
@[simp] theorem State.modRed_nap (s : State) (p q) : (State.modRed s p q).nap = s.nap := rfl
@[simp] theorem State.modRed_tilesHeld (s : State) (p q) : (State.modRed s p q).tilesHeld = s.tilesHeld := rfl
@[simp] theorem State.modRed_tiers (s : State) (p q) : (State.modRed s p q).tiers = s.tiers := rfl
@[simp] theorem State.modRed_yard (s : State) (p q) : (State.modRed s p q).yard = s.yard := rfl
@[simp] theorem State.modRed_streams (s : State) (p q) : (State.modRed s p q).streams = s.streams := rfl
@[simp] theorem State.modRed_eth (s : State) (p q) : (State.modRed s p q).eth = s.eth := rfl
@[simp] theorem State.modRed_boot (s : State) (p q) : (State.modRed s p q).boot = s.boot := rfl
@[simp] theorem State.modRed_beats (s : State) (p q) : (State.modRed s p q).beats = s.beats := rfl
@[simp] theorem State.modRed_power (s : State) (p q) : (State.modRed s p q).power = s.power := rfl
@[simp] theorem State.modRed_ldr (s : State) (p q) : (State.modRed s p q).ldr = s.ldr := rfl
@[simp] theorem State.modRed_flt (s : State) (p q) : (State.modRed s p q).flt = s.flt := rfl
@[simp] theorem State.modRed_jobs (s : State) (p q) : (State.modRed s p q).jobs = s.jobs := rfl
@[simp] theorem State.modRed_resets (s : State) (p q) : (State.modRed s p q).resets = s.resets := rfl
@[simp] theorem State.modRed_rng (s : State) (p q) : (State.modRed s p q).rng = s.rng := rfl
@[simp] theorem State.modRed_book (s : State) (p q) : (State.modRed s p q).book = s.book := rfl
@[simp] theorem State.modRed_tallyLast (s : State) (p q) : (State.modRed s p q).tallyLast = s.tallyLast := rfl
@[simp] theorem State.modRed_reg (s : State) (p q) (a) : (State.modRed s p q).reg a = s.reg a := rfl
@[simp] theorem State.modRed_regF (s : State) (p q) (a hi lo) : (State.modRed s p q).regF a hi lo = s.regF a hi lo := rfl
@[simp] theorem State.modRed_cell (s : State) (p q) (a) : (State.modRed s p q).cell a = s.cell a := rfl
@[simp] theorem State.modRed_fm (s : State) (p q) (a) : (State.modRed s p q).fm a = s.fm a := rfl
@[simp] theorem State.modRed_slot (s : State) (p q) (a) : (State.modRed s p q).slot a = s.slot a := rfl
@[simp] theorem State.modRed_router (s : State) (p q) (a) : (State.modRed s p q).router a = s.router a := rfl
@[simp] theorem State.modRed_rgn (s : State) (p q) (a) : (State.modRed s p q).rgn a = s.rgn a := rfl
@[simp] theorem State.modRed_sky (s : State) (p q) (a) : (State.modRed s p q).sky a = s.sky a := rfl
@[simp] theorem State.modRed_stream (s : State) (p q) (a) : (State.modRed s p q).stream a = s.stream a := rfl
@[simp] theorem State.modRed_job (s : State) (p q) (a) : (State.modRed s p q).job a = s.job a := rfl
@[simp] theorem State.modRed_slotOfRegion (s : State) (p q) (a) : (State.modRed s p q).slotOfRegion a = s.slotOfRegion a := rfl
@[simp] theorem State.modRed_win (s : State) (p q) (a) : (State.modRed s p q).win a = s.win a := rfl
@[simp] theorem State.modRed_qp (s : State) (p q) (a) : (State.modRed s p q).qp a = s.qp a := rfl

@[simp] theorem State.send_pending (s : State) (p) : (State.send s p).pending = s.pending := rfl
@[simp] theorem State.send_out (s : State) (p) : (State.send s p).out = s.out := rfl
@[simp] theorem State.send_freeCtr (s : State) (p) : (State.send s p).freeCtr = s.freeCtr := rfl
@[simp] theorem State.send_regs (s : State) (p) : (State.send s p).regs = s.regs := rfl
@[simp] theorem State.send_cells (s : State) (p) : (State.send s p).cells = s.cells := rfl
@[simp] theorem State.send_fms (s : State) (p) : (State.send s p).fms = s.fms := rfl
@[simp] theorem State.send_slots (s : State) (p) : (State.send s p).slots = s.slots := rfl
@[simp] theorem State.send_spares (s : State) (p) : (State.send s p).spares = s.spares := rfl
@[simp] theorem State.send_routers (s : State) (p) : (State.send s p).routers = s.routers := rfl
@[simp] theorem State.send_rgns (s : State) (p) : (State.send s p).rgns = s.rgns := rfl
@[simp] theorem State.send_foreign (s : State) (p) : (State.send s p).foreign = s.foreign := rfl
@[simp] theorem State.send_skys (s : State) (p) : (State.send s p).skys = s.skys := rfl
@[simp] theorem State.send_admission (s : State) (p) : (State.send s p).admission = s.admission := rfl
@[simp] theorem State.send_eras (s : State) (p) : (State.send s p).eras = s.eras := rfl
@[simp] theorem State.send_nap (s : State) (p) : (State.send s p).nap = s.nap := rfl
@[simp] theorem State.send_tilesHeld (s : State) (p) : (State.send s p).tilesHeld = s.tilesHeld := rfl
@[simp] theorem State.send_tiers (s : State) (p) : (State.send s p).tiers = s.tiers := rfl
@[simp] theorem State.send_yard (s : State) (p) : (State.send s p).yard = s.yard := rfl
@[simp] theorem State.send_streams (s : State) (p) : (State.send s p).streams = s.streams := rfl
@[simp] theorem State.send_reds (s : State) (p) : (State.send s p).reds = s.reds := rfl
@[simp] theorem State.send_eth (s : State) (p) : (State.send s p).eth = s.eth := rfl
@[simp] theorem State.send_boot (s : State) (p) : (State.send s p).boot = s.boot := rfl
@[simp] theorem State.send_beats (s : State) (p) : (State.send s p).beats = s.beats := rfl
@[simp] theorem State.send_power (s : State) (p) : (State.send s p).power = s.power := rfl
@[simp] theorem State.send_ldr (s : State) (p) : (State.send s p).ldr = s.ldr := rfl
@[simp] theorem State.send_flt (s : State) (p) : (State.send s p).flt = s.flt := rfl
@[simp] theorem State.send_jobs (s : State) (p) : (State.send s p).jobs = s.jobs := rfl
@[simp] theorem State.send_resets (s : State) (p) : (State.send s p).resets = s.resets := rfl
@[simp] theorem State.send_rng (s : State) (p) : (State.send s p).rng = s.rng := rfl
@[simp] theorem State.send_book (s : State) (p) : (State.send s p).book = s.book := rfl
@[simp] theorem State.send_tallyLast (s : State) (p) : (State.send s p).tallyLast = s.tallyLast := rfl
@[simp] theorem State.send_reg (s : State) (p) (a) : (State.send s p).reg a = s.reg a := rfl
@[simp] theorem State.send_regF (s : State) (p) (a hi lo) : (State.send s p).regF a hi lo = s.regF a hi lo := rfl
@[simp] theorem State.send_cell (s : State) (p) (a) : (State.send s p).cell a = s.cell a := rfl
@[simp] theorem State.send_fm (s : State) (p) (a) : (State.send s p).fm a = s.fm a := rfl
@[simp] theorem State.send_slot (s : State) (p) (a) : (State.send s p).slot a = s.slot a := rfl
@[simp] theorem State.send_router (s : State) (p) (a) : (State.send s p).router a = s.router a := rfl
@[simp] theorem State.send_rgn (s : State) (p) (a) : (State.send s p).rgn a = s.rgn a := rfl
@[simp] theorem State.send_sky (s : State) (p) (a) : (State.send s p).sky a = s.sky a := rfl
@[simp] theorem State.send_stream (s : State) (p) (a) : (State.send s p).stream a = s.stream a := rfl
@[simp] theorem State.send_red (s : State) (p) (a) : (State.send s p).red a = s.red a := rfl
@[simp] theorem State.send_job (s : State) (p) (a) : (State.send s p).job a = s.job a := rfl
@[simp] theorem State.send_slotOfRegion (s : State) (p) (a) : (State.send s p).slotOfRegion a = s.slotOfRegion a := rfl
@[simp] theorem State.send_win (s : State) (p) (a) : (State.send s p).win a = s.win a := rfl
@[simp] theorem State.send_qp (s : State) (p) (a) : (State.send s p).qp a = s.qp a := rfl

@[simp] theorem State.sendAll_pending (s : State) (p) : (State.sendAll s p).pending = s.pending := rfl
@[simp] theorem State.sendAll_out (s : State) (p) : (State.sendAll s p).out = s.out := rfl
@[simp] theorem State.sendAll_freeCtr (s : State) (p) : (State.sendAll s p).freeCtr = s.freeCtr := rfl
@[simp] theorem State.sendAll_regs (s : State) (p) : (State.sendAll s p).regs = s.regs := rfl
@[simp] theorem State.sendAll_cells (s : State) (p) : (State.sendAll s p).cells = s.cells := rfl
@[simp] theorem State.sendAll_fms (s : State) (p) : (State.sendAll s p).fms = s.fms := rfl
@[simp] theorem State.sendAll_slots (s : State) (p) : (State.sendAll s p).slots = s.slots := rfl
@[simp] theorem State.sendAll_spares (s : State) (p) : (State.sendAll s p).spares = s.spares := rfl
@[simp] theorem State.sendAll_routers (s : State) (p) : (State.sendAll s p).routers = s.routers := rfl
@[simp] theorem State.sendAll_rgns (s : State) (p) : (State.sendAll s p).rgns = s.rgns := rfl
@[simp] theorem State.sendAll_foreign (s : State) (p) : (State.sendAll s p).foreign = s.foreign := rfl
@[simp] theorem State.sendAll_skys (s : State) (p) : (State.sendAll s p).skys = s.skys := rfl
@[simp] theorem State.sendAll_admission (s : State) (p) : (State.sendAll s p).admission = s.admission := rfl
@[simp] theorem State.sendAll_eras (s : State) (p) : (State.sendAll s p).eras = s.eras := rfl
@[simp] theorem State.sendAll_nap (s : State) (p) : (State.sendAll s p).nap = s.nap := rfl
@[simp] theorem State.sendAll_tilesHeld (s : State) (p) : (State.sendAll s p).tilesHeld = s.tilesHeld := rfl
@[simp] theorem State.sendAll_tiers (s : State) (p) : (State.sendAll s p).tiers = s.tiers := rfl
@[simp] theorem State.sendAll_yard (s : State) (p) : (State.sendAll s p).yard = s.yard := rfl
@[simp] theorem State.sendAll_streams (s : State) (p) : (State.sendAll s p).streams = s.streams := rfl
@[simp] theorem State.sendAll_reds (s : State) (p) : (State.sendAll s p).reds = s.reds := rfl
@[simp] theorem State.sendAll_eth (s : State) (p) : (State.sendAll s p).eth = s.eth := rfl
@[simp] theorem State.sendAll_boot (s : State) (p) : (State.sendAll s p).boot = s.boot := rfl
@[simp] theorem State.sendAll_beats (s : State) (p) : (State.sendAll s p).beats = s.beats := rfl
@[simp] theorem State.sendAll_power (s : State) (p) : (State.sendAll s p).power = s.power := rfl
@[simp] theorem State.sendAll_ldr (s : State) (p) : (State.sendAll s p).ldr = s.ldr := rfl
@[simp] theorem State.sendAll_flt (s : State) (p) : (State.sendAll s p).flt = s.flt := rfl
@[simp] theorem State.sendAll_jobs (s : State) (p) : (State.sendAll s p).jobs = s.jobs := rfl
@[simp] theorem State.sendAll_resets (s : State) (p) : (State.sendAll s p).resets = s.resets := rfl
@[simp] theorem State.sendAll_rng (s : State) (p) : (State.sendAll s p).rng = s.rng := rfl
@[simp] theorem State.sendAll_book (s : State) (p) : (State.sendAll s p).book = s.book := rfl
@[simp] theorem State.sendAll_tallyLast (s : State) (p) : (State.sendAll s p).tallyLast = s.tallyLast := rfl
@[simp] theorem State.sendAll_reg (s : State) (p) (a) : (State.sendAll s p).reg a = s.reg a := rfl
@[simp] theorem State.sendAll_regF (s : State) (p) (a hi lo) : (State.sendAll s p).regF a hi lo = s.regF a hi lo := rfl
@[simp] theorem State.sendAll_cell (s : State) (p) (a) : (State.sendAll s p).cell a = s.cell a := rfl
@[simp] theorem State.sendAll_fm (s : State) (p) (a) : (State.sendAll s p).fm a = s.fm a := rfl
@[simp] theorem State.sendAll_slot (s : State) (p) (a) : (State.sendAll s p).slot a = s.slot a := rfl
@[simp] theorem State.sendAll_router (s : State) (p) (a) : (State.sendAll s p).router a = s.router a := rfl
@[simp] theorem State.sendAll_rgn (s : State) (p) (a) : (State.sendAll s p).rgn a = s.rgn a := rfl
@[simp] theorem State.sendAll_sky (s : State) (p) (a) : (State.sendAll s p).sky a = s.sky a := rfl
@[simp] theorem State.sendAll_stream (s : State) (p) (a) : (State.sendAll s p).stream a = s.stream a := rfl
@[simp] theorem State.sendAll_red (s : State) (p) (a) : (State.sendAll s p).red a = s.red a := rfl
@[simp] theorem State.sendAll_job (s : State) (p) (a) : (State.sendAll s p).job a = s.job a := rfl
@[simp] theorem State.sendAll_slotOfRegion (s : State) (p) (a) : (State.sendAll s p).slotOfRegion a = s.slotOfRegion a := rfl
@[simp] theorem State.sendAll_win (s : State) (p) (a) : (State.sendAll s p).win a = s.win a := rfl
@[simp] theorem State.sendAll_qp (s : State) (p) (a) : (State.sendAll s p).qp a = s.qp a := rfl

@[simp] theorem State.deliver_pending (s : State) (p) : (State.deliver s p).pending = s.pending := rfl
@[simp] theorem State.deliver_out (s : State) (p) : (State.deliver s p).out = s.out := rfl
@[simp] theorem State.deliver_freeCtr (s : State) (p) : (State.deliver s p).freeCtr = s.freeCtr := rfl
@[simp] theorem State.deliver_regs (s : State) (p) : (State.deliver s p).regs = s.regs := rfl
@[simp] theorem State.deliver_cells (s : State) (p) : (State.deliver s p).cells = s.cells := rfl
@[simp] theorem State.deliver_fms (s : State) (p) : (State.deliver s p).fms = s.fms := rfl
@[simp] theorem State.deliver_slots (s : State) (p) : (State.deliver s p).slots = s.slots := rfl
@[simp] theorem State.deliver_spares (s : State) (p) : (State.deliver s p).spares = s.spares := rfl
@[simp] theorem State.deliver_routers (s : State) (p) : (State.deliver s p).routers = s.routers := rfl
@[simp] theorem State.deliver_rgns (s : State) (p) : (State.deliver s p).rgns = s.rgns := rfl
@[simp] theorem State.deliver_foreign (s : State) (p) : (State.deliver s p).foreign = s.foreign := rfl
@[simp] theorem State.deliver_skys (s : State) (p) : (State.deliver s p).skys = s.skys := rfl
@[simp] theorem State.deliver_admission (s : State) (p) : (State.deliver s p).admission = s.admission := rfl
@[simp] theorem State.deliver_eras (s : State) (p) : (State.deliver s p).eras = s.eras := rfl
@[simp] theorem State.deliver_nap (s : State) (p) : (State.deliver s p).nap = s.nap := rfl
@[simp] theorem State.deliver_tilesHeld (s : State) (p) : (State.deliver s p).tilesHeld = s.tilesHeld := rfl
@[simp] theorem State.deliver_tiers (s : State) (p) : (State.deliver s p).tiers = s.tiers := rfl
@[simp] theorem State.deliver_yard (s : State) (p) : (State.deliver s p).yard = s.yard := rfl
@[simp] theorem State.deliver_streams (s : State) (p) : (State.deliver s p).streams = s.streams := rfl
@[simp] theorem State.deliver_reds (s : State) (p) : (State.deliver s p).reds = s.reds := rfl
@[simp] theorem State.deliver_eth (s : State) (p) : (State.deliver s p).eth = s.eth := rfl
@[simp] theorem State.deliver_boot (s : State) (p) : (State.deliver s p).boot = s.boot := rfl
@[simp] theorem State.deliver_beats (s : State) (p) : (State.deliver s p).beats = s.beats := rfl
@[simp] theorem State.deliver_power (s : State) (p) : (State.deliver s p).power = s.power := rfl
@[simp] theorem State.deliver_ldr (s : State) (p) : (State.deliver s p).ldr = s.ldr := rfl
@[simp] theorem State.deliver_flt (s : State) (p) : (State.deliver s p).flt = s.flt := rfl
@[simp] theorem State.deliver_jobs (s : State) (p) : (State.deliver s p).jobs = s.jobs := rfl
@[simp] theorem State.deliver_resets (s : State) (p) : (State.deliver s p).resets = s.resets := rfl
@[simp] theorem State.deliver_rng (s : State) (p) : (State.deliver s p).rng = s.rng := rfl
@[simp] theorem State.deliver_book (s : State) (p) : (State.deliver s p).book = s.book := rfl
@[simp] theorem State.deliver_tallyLast (s : State) (p) : (State.deliver s p).tallyLast = s.tallyLast := rfl
@[simp] theorem State.deliver_reg (s : State) (p) (a) : (State.deliver s p).reg a = s.reg a := rfl
@[simp] theorem State.deliver_regF (s : State) (p) (a hi lo) : (State.deliver s p).regF a hi lo = s.regF a hi lo := rfl
@[simp] theorem State.deliver_cell (s : State) (p) (a) : (State.deliver s p).cell a = s.cell a := rfl
@[simp] theorem State.deliver_fm (s : State) (p) (a) : (State.deliver s p).fm a = s.fm a := rfl
@[simp] theorem State.deliver_slot (s : State) (p) (a) : (State.deliver s p).slot a = s.slot a := rfl
@[simp] theorem State.deliver_router (s : State) (p) (a) : (State.deliver s p).router a = s.router a := rfl
@[simp] theorem State.deliver_rgn (s : State) (p) (a) : (State.deliver s p).rgn a = s.rgn a := rfl
@[simp] theorem State.deliver_sky (s : State) (p) (a) : (State.deliver s p).sky a = s.sky a := rfl
@[simp] theorem State.deliver_stream (s : State) (p) (a) : (State.deliver s p).stream a = s.stream a := rfl
@[simp] theorem State.deliver_red (s : State) (p) (a) : (State.deliver s p).red a = s.red a := rfl
@[simp] theorem State.deliver_job (s : State) (p) (a) : (State.deliver s p).job a = s.job a := rfl
@[simp] theorem State.deliver_slotOfRegion (s : State) (p) (a) : (State.deliver s p).slotOfRegion a = s.slotOfRegion a := rfl
@[simp] theorem State.deliver_win (s : State) (p) (a) : (State.deliver s p).win a = s.win a := rfl
@[simp] theorem State.deliver_qp (s : State) (p) (a) : (State.deliver s p).qp a = s.qp a := rfl

@[simp] theorem State.emit_pending (s : State) (p) : (State.emit s p).pending = s.pending := rfl
@[simp] theorem State.emit_inFlight (s : State) (p) : (State.emit s p).inFlight = s.inFlight := rfl
@[simp] theorem State.emit_freeCtr (s : State) (p) : (State.emit s p).freeCtr = s.freeCtr := rfl
@[simp] theorem State.emit_regs (s : State) (p) : (State.emit s p).regs = s.regs := rfl
@[simp] theorem State.emit_cells (s : State) (p) : (State.emit s p).cells = s.cells := rfl
@[simp] theorem State.emit_fms (s : State) (p) : (State.emit s p).fms = s.fms := rfl
@[simp] theorem State.emit_slots (s : State) (p) : (State.emit s p).slots = s.slots := rfl
@[simp] theorem State.emit_spares (s : State) (p) : (State.emit s p).spares = s.spares := rfl
@[simp] theorem State.emit_routers (s : State) (p) : (State.emit s p).routers = s.routers := rfl
@[simp] theorem State.emit_rgns (s : State) (p) : (State.emit s p).rgns = s.rgns := rfl
@[simp] theorem State.emit_foreign (s : State) (p) : (State.emit s p).foreign = s.foreign := rfl
@[simp] theorem State.emit_skys (s : State) (p) : (State.emit s p).skys = s.skys := rfl
@[simp] theorem State.emit_admission (s : State) (p) : (State.emit s p).admission = s.admission := rfl
@[simp] theorem State.emit_eras (s : State) (p) : (State.emit s p).eras = s.eras := rfl
@[simp] theorem State.emit_nap (s : State) (p) : (State.emit s p).nap = s.nap := rfl
@[simp] theorem State.emit_tilesHeld (s : State) (p) : (State.emit s p).tilesHeld = s.tilesHeld := rfl
@[simp] theorem State.emit_tiers (s : State) (p) : (State.emit s p).tiers = s.tiers := rfl
@[simp] theorem State.emit_yard (s : State) (p) : (State.emit s p).yard = s.yard := rfl
@[simp] theorem State.emit_streams (s : State) (p) : (State.emit s p).streams = s.streams := rfl
@[simp] theorem State.emit_reds (s : State) (p) : (State.emit s p).reds = s.reds := rfl
@[simp] theorem State.emit_eth (s : State) (p) : (State.emit s p).eth = s.eth := rfl
@[simp] theorem State.emit_boot (s : State) (p) : (State.emit s p).boot = s.boot := rfl
@[simp] theorem State.emit_beats (s : State) (p) : (State.emit s p).beats = s.beats := rfl
@[simp] theorem State.emit_power (s : State) (p) : (State.emit s p).power = s.power := rfl
@[simp] theorem State.emit_ldr (s : State) (p) : (State.emit s p).ldr = s.ldr := rfl
@[simp] theorem State.emit_flt (s : State) (p) : (State.emit s p).flt = s.flt := rfl
@[simp] theorem State.emit_jobs (s : State) (p) : (State.emit s p).jobs = s.jobs := rfl
@[simp] theorem State.emit_resets (s : State) (p) : (State.emit s p).resets = s.resets := rfl
@[simp] theorem State.emit_rng (s : State) (p) : (State.emit s p).rng = s.rng := rfl
@[simp] theorem State.emit_book (s : State) (p) : (State.emit s p).book = s.book := rfl
@[simp] theorem State.emit_tallyLast (s : State) (p) : (State.emit s p).tallyLast = s.tallyLast := rfl
@[simp] theorem State.emit_reg (s : State) (p) (a) : (State.emit s p).reg a = s.reg a := rfl
@[simp] theorem State.emit_regF (s : State) (p) (a hi lo) : (State.emit s p).regF a hi lo = s.regF a hi lo := rfl
@[simp] theorem State.emit_cell (s : State) (p) (a) : (State.emit s p).cell a = s.cell a := rfl
@[simp] theorem State.emit_fm (s : State) (p) (a) : (State.emit s p).fm a = s.fm a := rfl
@[simp] theorem State.emit_slot (s : State) (p) (a) : (State.emit s p).slot a = s.slot a := rfl
@[simp] theorem State.emit_router (s : State) (p) (a) : (State.emit s p).router a = s.router a := rfl
@[simp] theorem State.emit_rgn (s : State) (p) (a) : (State.emit s p).rgn a = s.rgn a := rfl
@[simp] theorem State.emit_sky (s : State) (p) (a) : (State.emit s p).sky a = s.sky a := rfl
@[simp] theorem State.emit_stream (s : State) (p) (a) : (State.emit s p).stream a = s.stream a := rfl
@[simp] theorem State.emit_red (s : State) (p) (a) : (State.emit s p).red a = s.red a := rfl
@[simp] theorem State.emit_job (s : State) (p) (a) : (State.emit s p).job a = s.job a := rfl
@[simp] theorem State.emit_slotOfRegion (s : State) (p) (a) : (State.emit s p).slotOfRegion a = s.slotOfRegion a := rfl
@[simp] theorem State.emit_win (s : State) (p) (a) : (State.emit s p).win a = s.win a := rfl
@[simp] theorem State.emit_qp (s : State) (p) (a) : (State.emit s p).qp a = s.qp a := rfl

@[simp] theorem State.raise_pending (s : State) (p q r t u) : (State.raise s p q r t u).pending = s.pending := rfl
@[simp] theorem State.raise_out (s : State) (p q r t u) : (State.raise s p q r t u).out = s.out := rfl
@[simp] theorem State.raise_freeCtr (s : State) (p q r t u) : (State.raise s p q r t u).freeCtr = s.freeCtr := rfl
@[simp] theorem State.raise_regs (s : State) (p q r t u) : (State.raise s p q r t u).regs = s.regs := rfl
@[simp] theorem State.raise_cells (s : State) (p q r t u) : (State.raise s p q r t u).cells = s.cells := rfl
@[simp] theorem State.raise_fms (s : State) (p q r t u) : (State.raise s p q r t u).fms = s.fms := rfl
@[simp] theorem State.raise_slots (s : State) (p q r t u) : (State.raise s p q r t u).slots = s.slots := rfl
@[simp] theorem State.raise_spares (s : State) (p q r t u) : (State.raise s p q r t u).spares = s.spares := rfl
@[simp] theorem State.raise_routers (s : State) (p q r t u) : (State.raise s p q r t u).routers = s.routers := rfl
@[simp] theorem State.raise_rgns (s : State) (p q r t u) : (State.raise s p q r t u).rgns = s.rgns := rfl
@[simp] theorem State.raise_foreign (s : State) (p q r t u) : (State.raise s p q r t u).foreign = s.foreign := rfl
@[simp] theorem State.raise_skys (s : State) (p q r t u) : (State.raise s p q r t u).skys = s.skys := rfl
@[simp] theorem State.raise_admission (s : State) (p q r t u) : (State.raise s p q r t u).admission = s.admission := rfl
@[simp] theorem State.raise_eras (s : State) (p q r t u) : (State.raise s p q r t u).eras = s.eras := rfl
@[simp] theorem State.raise_nap (s : State) (p q r t u) : (State.raise s p q r t u).nap = s.nap := rfl
@[simp] theorem State.raise_tilesHeld (s : State) (p q r t u) : (State.raise s p q r t u).tilesHeld = s.tilesHeld := rfl
@[simp] theorem State.raise_tiers (s : State) (p q r t u) : (State.raise s p q r t u).tiers = s.tiers := rfl
@[simp] theorem State.raise_yard (s : State) (p q r t u) : (State.raise s p q r t u).yard = s.yard := rfl
@[simp] theorem State.raise_streams (s : State) (p q r t u) : (State.raise s p q r t u).streams = s.streams := rfl
@[simp] theorem State.raise_reds (s : State) (p q r t u) : (State.raise s p q r t u).reds = s.reds := rfl
@[simp] theorem State.raise_eth (s : State) (p q r t u) : (State.raise s p q r t u).eth = s.eth := rfl
@[simp] theorem State.raise_boot (s : State) (p q r t u) : (State.raise s p q r t u).boot = s.boot := rfl
@[simp] theorem State.raise_beats (s : State) (p q r t u) : (State.raise s p q r t u).beats = s.beats := rfl
@[simp] theorem State.raise_power (s : State) (p q r t u) : (State.raise s p q r t u).power = s.power := rfl
@[simp] theorem State.raise_ldr (s : State) (p q r t u) : (State.raise s p q r t u).ldr = s.ldr := rfl
@[simp] theorem State.raise_flt (s : State) (p q r t u) : (State.raise s p q r t u).flt = s.flt := rfl
@[simp] theorem State.raise_jobs (s : State) (p q r t u) : (State.raise s p q r t u).jobs = s.jobs := rfl
@[simp] theorem State.raise_resets (s : State) (p q r t u) : (State.raise s p q r t u).resets = s.resets := rfl
@[simp] theorem State.raise_rng (s : State) (p q r t u) : (State.raise s p q r t u).rng = s.rng := rfl
@[simp] theorem State.raise_book (s : State) (p q r t u) : (State.raise s p q r t u).book = s.book := rfl
@[simp] theorem State.raise_tallyLast (s : State) (p q r t u) : (State.raise s p q r t u).tallyLast = s.tallyLast := rfl
@[simp] theorem State.raise_reg (s : State) (p q r t u) (a) : (State.raise s p q r t u).reg a = s.reg a := rfl
@[simp] theorem State.raise_regF (s : State) (p q r t u) (a hi lo) : (State.raise s p q r t u).regF a hi lo = s.regF a hi lo := rfl
@[simp] theorem State.raise_cell (s : State) (p q r t u) (a) : (State.raise s p q r t u).cell a = s.cell a := rfl
@[simp] theorem State.raise_fm (s : State) (p q r t u) (a) : (State.raise s p q r t u).fm a = s.fm a := rfl
@[simp] theorem State.raise_slot (s : State) (p q r t u) (a) : (State.raise s p q r t u).slot a = s.slot a := rfl
@[simp] theorem State.raise_router (s : State) (p q r t u) (a) : (State.raise s p q r t u).router a = s.router a := rfl
@[simp] theorem State.raise_rgn (s : State) (p q r t u) (a) : (State.raise s p q r t u).rgn a = s.rgn a := rfl
@[simp] theorem State.raise_sky (s : State) (p q r t u) (a) : (State.raise s p q r t u).sky a = s.sky a := rfl
@[simp] theorem State.raise_stream (s : State) (p q r t u) (a) : (State.raise s p q r t u).stream a = s.stream a := rfl
@[simp] theorem State.raise_red (s : State) (p q r t u) (a) : (State.raise s p q r t u).red a = s.red a := rfl
@[simp] theorem State.raise_job (s : State) (p q r t u) (a) : (State.raise s p q r t u).job a = s.job a := rfl
@[simp] theorem State.raise_slotOfRegion (s : State) (p q r t u) (a) : (State.raise s p q r t u).slotOfRegion a = s.slotOfRegion a := rfl
@[simp] theorem State.raise_win (s : State) (p q r t u) (a) : (State.raise s p q r t u).win a = s.win a := rfl
@[simp] theorem State.raise_qp (s : State) (p q r t u) (a) : (State.raise s p q r t u).qp a = s.qp a := rfl

@[simp] theorem State.reject_pending (s : State) (p q) : (State.reject s p q).pending = s.pending := rfl
@[simp] theorem State.reject_out (s : State) (p q) : (State.reject s p q).out = s.out := rfl
@[simp] theorem State.reject_freeCtr (s : State) (p q) : (State.reject s p q).freeCtr = s.freeCtr := rfl
@[simp] theorem State.reject_regs (s : State) (p q) : (State.reject s p q).regs = s.regs := rfl
@[simp] theorem State.reject_cells (s : State) (p q) : (State.reject s p q).cells = s.cells := rfl
@[simp] theorem State.reject_fms (s : State) (p q) : (State.reject s p q).fms = s.fms := rfl
@[simp] theorem State.reject_slots (s : State) (p q) : (State.reject s p q).slots = s.slots := rfl
@[simp] theorem State.reject_spares (s : State) (p q) : (State.reject s p q).spares = s.spares := rfl
@[simp] theorem State.reject_routers (s : State) (p q) : (State.reject s p q).routers = s.routers := rfl
@[simp] theorem State.reject_rgns (s : State) (p q) : (State.reject s p q).rgns = s.rgns := rfl
@[simp] theorem State.reject_foreign (s : State) (p q) : (State.reject s p q).foreign = s.foreign := rfl
@[simp] theorem State.reject_skys (s : State) (p q) : (State.reject s p q).skys = s.skys := rfl
@[simp] theorem State.reject_admission (s : State) (p q) : (State.reject s p q).admission = s.admission := rfl
@[simp] theorem State.reject_eras (s : State) (p q) : (State.reject s p q).eras = s.eras := rfl
@[simp] theorem State.reject_nap (s : State) (p q) : (State.reject s p q).nap = s.nap := rfl
@[simp] theorem State.reject_tilesHeld (s : State) (p q) : (State.reject s p q).tilesHeld = s.tilesHeld := rfl
@[simp] theorem State.reject_tiers (s : State) (p q) : (State.reject s p q).tiers = s.tiers := rfl
@[simp] theorem State.reject_yard (s : State) (p q) : (State.reject s p q).yard = s.yard := rfl
@[simp] theorem State.reject_streams (s : State) (p q) : (State.reject s p q).streams = s.streams := rfl
@[simp] theorem State.reject_reds (s : State) (p q) : (State.reject s p q).reds = s.reds := rfl
@[simp] theorem State.reject_eth (s : State) (p q) : (State.reject s p q).eth = s.eth := rfl
@[simp] theorem State.reject_boot (s : State) (p q) : (State.reject s p q).boot = s.boot := rfl
@[simp] theorem State.reject_beats (s : State) (p q) : (State.reject s p q).beats = s.beats := rfl
@[simp] theorem State.reject_power (s : State) (p q) : (State.reject s p q).power = s.power := rfl
@[simp] theorem State.reject_ldr (s : State) (p q) : (State.reject s p q).ldr = s.ldr := rfl
@[simp] theorem State.reject_flt (s : State) (p q) : (State.reject s p q).flt = s.flt := rfl
@[simp] theorem State.reject_jobs (s : State) (p q) : (State.reject s p q).jobs = s.jobs := rfl
@[simp] theorem State.reject_resets (s : State) (p q) : (State.reject s p q).resets = s.resets := rfl
@[simp] theorem State.reject_rng (s : State) (p q) : (State.reject s p q).rng = s.rng := rfl
@[simp] theorem State.reject_book (s : State) (p q) : (State.reject s p q).book = s.book := rfl
@[simp] theorem State.reject_tallyLast (s : State) (p q) : (State.reject s p q).tallyLast = s.tallyLast := rfl
@[simp] theorem State.reject_reg (s : State) (p q) (a) : (State.reject s p q).reg a = s.reg a := rfl
@[simp] theorem State.reject_regF (s : State) (p q) (a hi lo) : (State.reject s p q).regF a hi lo = s.regF a hi lo := rfl
@[simp] theorem State.reject_cell (s : State) (p q) (a) : (State.reject s p q).cell a = s.cell a := rfl
@[simp] theorem State.reject_fm (s : State) (p q) (a) : (State.reject s p q).fm a = s.fm a := rfl
@[simp] theorem State.reject_slot (s : State) (p q) (a) : (State.reject s p q).slot a = s.slot a := rfl
@[simp] theorem State.reject_router (s : State) (p q) (a) : (State.reject s p q).router a = s.router a := rfl
@[simp] theorem State.reject_rgn (s : State) (p q) (a) : (State.reject s p q).rgn a = s.rgn a := rfl
@[simp] theorem State.reject_sky (s : State) (p q) (a) : (State.reject s p q).sky a = s.sky a := rfl
@[simp] theorem State.reject_stream (s : State) (p q) (a) : (State.reject s p q).stream a = s.stream a := rfl
@[simp] theorem State.reject_red (s : State) (p q) (a) : (State.reject s p q).red a = s.red a := rfl
@[simp] theorem State.reject_job (s : State) (p q) (a) : (State.reject s p q).job a = s.job a := rfl
@[simp] theorem State.reject_slotOfRegion (s : State) (p q) (a) : (State.reject s p q).slotOfRegion a = s.slotOfRegion a := rfl
@[simp] theorem State.reject_win (s : State) (p q) (a) : (State.reject s p q).win a = s.win a := rfl
@[simp] theorem State.reject_qp (s : State) (p q) (a) : (State.reject s p q).qp a = s.qp a := rfl

@[simp] theorem State.raiseCell_pending (s : State) (p q r) : (State.raiseCell s p q r).pending = s.pending := rfl
@[simp] theorem State.raiseCell_out (s : State) (p q r) : (State.raiseCell s p q r).out = s.out := rfl
@[simp] theorem State.raiseCell_freeCtr (s : State) (p q r) : (State.raiseCell s p q r).freeCtr = s.freeCtr := rfl
@[simp] theorem State.raiseCell_regs (s : State) (p q r) : (State.raiseCell s p q r).regs = s.regs := rfl
@[simp] theorem State.raiseCell_cells (s : State) (p q r) : (State.raiseCell s p q r).cells = s.cells := rfl
@[simp] theorem State.raiseCell_fms (s : State) (p q r) : (State.raiseCell s p q r).fms = s.fms := rfl
@[simp] theorem State.raiseCell_slots (s : State) (p q r) : (State.raiseCell s p q r).slots = s.slots := rfl
@[simp] theorem State.raiseCell_spares (s : State) (p q r) : (State.raiseCell s p q r).spares = s.spares := rfl
@[simp] theorem State.raiseCell_routers (s : State) (p q r) : (State.raiseCell s p q r).routers = s.routers := rfl
@[simp] theorem State.raiseCell_rgns (s : State) (p q r) : (State.raiseCell s p q r).rgns = s.rgns := rfl
@[simp] theorem State.raiseCell_foreign (s : State) (p q r) : (State.raiseCell s p q r).foreign = s.foreign := rfl
@[simp] theorem State.raiseCell_skys (s : State) (p q r) : (State.raiseCell s p q r).skys = s.skys := rfl
@[simp] theorem State.raiseCell_admission (s : State) (p q r) : (State.raiseCell s p q r).admission = s.admission := rfl
@[simp] theorem State.raiseCell_eras (s : State) (p q r) : (State.raiseCell s p q r).eras = s.eras := rfl
@[simp] theorem State.raiseCell_nap (s : State) (p q r) : (State.raiseCell s p q r).nap = s.nap := rfl
@[simp] theorem State.raiseCell_tilesHeld (s : State) (p q r) : (State.raiseCell s p q r).tilesHeld = s.tilesHeld := rfl
@[simp] theorem State.raiseCell_tiers (s : State) (p q r) : (State.raiseCell s p q r).tiers = s.tiers := rfl
@[simp] theorem State.raiseCell_yard (s : State) (p q r) : (State.raiseCell s p q r).yard = s.yard := rfl
@[simp] theorem State.raiseCell_streams (s : State) (p q r) : (State.raiseCell s p q r).streams = s.streams := rfl
@[simp] theorem State.raiseCell_reds (s : State) (p q r) : (State.raiseCell s p q r).reds = s.reds := rfl
@[simp] theorem State.raiseCell_eth (s : State) (p q r) : (State.raiseCell s p q r).eth = s.eth := rfl
@[simp] theorem State.raiseCell_boot (s : State) (p q r) : (State.raiseCell s p q r).boot = s.boot := rfl
@[simp] theorem State.raiseCell_beats (s : State) (p q r) : (State.raiseCell s p q r).beats = s.beats := rfl
@[simp] theorem State.raiseCell_power (s : State) (p q r) : (State.raiseCell s p q r).power = s.power := rfl
@[simp] theorem State.raiseCell_ldr (s : State) (p q r) : (State.raiseCell s p q r).ldr = s.ldr := rfl
@[simp] theorem State.raiseCell_flt (s : State) (p q r) : (State.raiseCell s p q r).flt = s.flt := rfl
@[simp] theorem State.raiseCell_jobs (s : State) (p q r) : (State.raiseCell s p q r).jobs = s.jobs := rfl
@[simp] theorem State.raiseCell_resets (s : State) (p q r) : (State.raiseCell s p q r).resets = s.resets := rfl
@[simp] theorem State.raiseCell_rng (s : State) (p q r) : (State.raiseCell s p q r).rng = s.rng := rfl
@[simp] theorem State.raiseCell_book (s : State) (p q r) : (State.raiseCell s p q r).book = s.book := rfl
@[simp] theorem State.raiseCell_tallyLast (s : State) (p q r) : (State.raiseCell s p q r).tallyLast = s.tallyLast := rfl
@[simp] theorem State.raiseCell_reg (s : State) (p q r) (a) : (State.raiseCell s p q r).reg a = s.reg a := rfl
@[simp] theorem State.raiseCell_regF (s : State) (p q r) (a hi lo) : (State.raiseCell s p q r).regF a hi lo = s.regF a hi lo := rfl
@[simp] theorem State.raiseCell_cell (s : State) (p q r) (a) : (State.raiseCell s p q r).cell a = s.cell a := rfl
@[simp] theorem State.raiseCell_fm (s : State) (p q r) (a) : (State.raiseCell s p q r).fm a = s.fm a := rfl
@[simp] theorem State.raiseCell_slot (s : State) (p q r) (a) : (State.raiseCell s p q r).slot a = s.slot a := rfl
@[simp] theorem State.raiseCell_router (s : State) (p q r) (a) : (State.raiseCell s p q r).router a = s.router a := rfl
@[simp] theorem State.raiseCell_rgn (s : State) (p q r) (a) : (State.raiseCell s p q r).rgn a = s.rgn a := rfl
@[simp] theorem State.raiseCell_sky (s : State) (p q r) (a) : (State.raiseCell s p q r).sky a = s.sky a := rfl
@[simp] theorem State.raiseCell_stream (s : State) (p q r) (a) : (State.raiseCell s p q r).stream a = s.stream a := rfl
@[simp] theorem State.raiseCell_red (s : State) (p q r) (a) : (State.raiseCell s p q r).red a = s.red a := rfl
@[simp] theorem State.raiseCell_job (s : State) (p q r) (a) : (State.raiseCell s p q r).job a = s.job a := rfl
@[simp] theorem State.raiseCell_slotOfRegion (s : State) (p q r) (a) : (State.raiseCell s p q r).slotOfRegion a = s.slotOfRegion a := rfl
@[simp] theorem State.raiseCell_win (s : State) (p q r) (a) : (State.raiseCell s p q r).win a = s.win a := rfl
@[simp] theorem State.raiseCell_qp (s : State) (p q r) (a) : (State.raiseCell s p q r).qp a = s.qp a := rfl

@[simp] theorem State.raiseRgn_pending (s : State) (p q r t) : (State.raiseRgn s p q r t).pending = s.pending := rfl
@[simp] theorem State.raiseRgn_out (s : State) (p q r t) : (State.raiseRgn s p q r t).out = s.out := rfl
@[simp] theorem State.raiseRgn_freeCtr (s : State) (p q r t) : (State.raiseRgn s p q r t).freeCtr = s.freeCtr := rfl
@[simp] theorem State.raiseRgn_regs (s : State) (p q r t) : (State.raiseRgn s p q r t).regs = s.regs := rfl
@[simp] theorem State.raiseRgn_cells (s : State) (p q r t) : (State.raiseRgn s p q r t).cells = s.cells := rfl
@[simp] theorem State.raiseRgn_fms (s : State) (p q r t) : (State.raiseRgn s p q r t).fms = s.fms := rfl
@[simp] theorem State.raiseRgn_slots (s : State) (p q r t) : (State.raiseRgn s p q r t).slots = s.slots := rfl
@[simp] theorem State.raiseRgn_spares (s : State) (p q r t) : (State.raiseRgn s p q r t).spares = s.spares := rfl
@[simp] theorem State.raiseRgn_routers (s : State) (p q r t) : (State.raiseRgn s p q r t).routers = s.routers := rfl
@[simp] theorem State.raiseRgn_rgns (s : State) (p q r t) : (State.raiseRgn s p q r t).rgns = s.rgns := rfl
@[simp] theorem State.raiseRgn_foreign (s : State) (p q r t) : (State.raiseRgn s p q r t).foreign = s.foreign := rfl
@[simp] theorem State.raiseRgn_skys (s : State) (p q r t) : (State.raiseRgn s p q r t).skys = s.skys := rfl
@[simp] theorem State.raiseRgn_admission (s : State) (p q r t) : (State.raiseRgn s p q r t).admission = s.admission := rfl
@[simp] theorem State.raiseRgn_eras (s : State) (p q r t) : (State.raiseRgn s p q r t).eras = s.eras := rfl
@[simp] theorem State.raiseRgn_nap (s : State) (p q r t) : (State.raiseRgn s p q r t).nap = s.nap := rfl
@[simp] theorem State.raiseRgn_tilesHeld (s : State) (p q r t) : (State.raiseRgn s p q r t).tilesHeld = s.tilesHeld := rfl
@[simp] theorem State.raiseRgn_tiers (s : State) (p q r t) : (State.raiseRgn s p q r t).tiers = s.tiers := rfl
@[simp] theorem State.raiseRgn_yard (s : State) (p q r t) : (State.raiseRgn s p q r t).yard = s.yard := rfl
@[simp] theorem State.raiseRgn_streams (s : State) (p q r t) : (State.raiseRgn s p q r t).streams = s.streams := rfl
@[simp] theorem State.raiseRgn_reds (s : State) (p q r t) : (State.raiseRgn s p q r t).reds = s.reds := rfl
@[simp] theorem State.raiseRgn_eth (s : State) (p q r t) : (State.raiseRgn s p q r t).eth = s.eth := rfl
@[simp] theorem State.raiseRgn_boot (s : State) (p q r t) : (State.raiseRgn s p q r t).boot = s.boot := rfl
@[simp] theorem State.raiseRgn_beats (s : State) (p q r t) : (State.raiseRgn s p q r t).beats = s.beats := rfl
@[simp] theorem State.raiseRgn_power (s : State) (p q r t) : (State.raiseRgn s p q r t).power = s.power := rfl
@[simp] theorem State.raiseRgn_ldr (s : State) (p q r t) : (State.raiseRgn s p q r t).ldr = s.ldr := rfl
@[simp] theorem State.raiseRgn_flt (s : State) (p q r t) : (State.raiseRgn s p q r t).flt = s.flt := rfl
@[simp] theorem State.raiseRgn_jobs (s : State) (p q r t) : (State.raiseRgn s p q r t).jobs = s.jobs := rfl
@[simp] theorem State.raiseRgn_resets (s : State) (p q r t) : (State.raiseRgn s p q r t).resets = s.resets := rfl
@[simp] theorem State.raiseRgn_rng (s : State) (p q r t) : (State.raiseRgn s p q r t).rng = s.rng := rfl
@[simp] theorem State.raiseRgn_book (s : State) (p q r t) : (State.raiseRgn s p q r t).book = s.book := rfl
@[simp] theorem State.raiseRgn_tallyLast (s : State) (p q r t) : (State.raiseRgn s p q r t).tallyLast = s.tallyLast := rfl
@[simp] theorem State.raiseRgn_reg (s : State) (p q r t) (a) : (State.raiseRgn s p q r t).reg a = s.reg a := rfl
@[simp] theorem State.raiseRgn_regF (s : State) (p q r t) (a hi lo) : (State.raiseRgn s p q r t).regF a hi lo = s.regF a hi lo := rfl
@[simp] theorem State.raiseRgn_cell (s : State) (p q r t) (a) : (State.raiseRgn s p q r t).cell a = s.cell a := rfl
@[simp] theorem State.raiseRgn_fm (s : State) (p q r t) (a) : (State.raiseRgn s p q r t).fm a = s.fm a := rfl
@[simp] theorem State.raiseRgn_slot (s : State) (p q r t) (a) : (State.raiseRgn s p q r t).slot a = s.slot a := rfl
@[simp] theorem State.raiseRgn_router (s : State) (p q r t) (a) : (State.raiseRgn s p q r t).router a = s.router a := rfl
@[simp] theorem State.raiseRgn_rgn (s : State) (p q r t) (a) : (State.raiseRgn s p q r t).rgn a = s.rgn a := rfl
@[simp] theorem State.raiseRgn_sky (s : State) (p q r t) (a) : (State.raiseRgn s p q r t).sky a = s.sky a := rfl
@[simp] theorem State.raiseRgn_stream (s : State) (p q r t) (a) : (State.raiseRgn s p q r t).stream a = s.stream a := rfl
@[simp] theorem State.raiseRgn_red (s : State) (p q r t) (a) : (State.raiseRgn s p q r t).red a = s.red a := rfl
@[simp] theorem State.raiseRgn_job (s : State) (p q r t) (a) : (State.raiseRgn s p q r t).job a = s.job a := rfl
@[simp] theorem State.raiseRgn_slotOfRegion (s : State) (p q r t) (a) : (State.raiseRgn s p q r t).slotOfRegion a = s.slotOfRegion a := rfl
@[simp] theorem State.raiseRgn_win (s : State) (p q r t) (a) : (State.raiseRgn s p q r t).win a = s.win a := rfl
@[simp] theorem State.raiseRgn_qp (s : State) (p q r t) (a) : (State.raiseRgn s p q r t).qp a = s.qp a := rfl

@[simp] theorem State.raiseFm_pending (s : State) (p q) : (State.raiseFm s p q).pending = s.pending := rfl
@[simp] theorem State.raiseFm_out (s : State) (p q) : (State.raiseFm s p q).out = s.out := rfl
@[simp] theorem State.raiseFm_freeCtr (s : State) (p q) : (State.raiseFm s p q).freeCtr = s.freeCtr := rfl
@[simp] theorem State.raiseFm_regs (s : State) (p q) : (State.raiseFm s p q).regs = s.regs := rfl
@[simp] theorem State.raiseFm_cells (s : State) (p q) : (State.raiseFm s p q).cells = s.cells := rfl
@[simp] theorem State.raiseFm_fms (s : State) (p q) : (State.raiseFm s p q).fms = s.fms := rfl
@[simp] theorem State.raiseFm_slots (s : State) (p q) : (State.raiseFm s p q).slots = s.slots := rfl
@[simp] theorem State.raiseFm_spares (s : State) (p q) : (State.raiseFm s p q).spares = s.spares := rfl
@[simp] theorem State.raiseFm_routers (s : State) (p q) : (State.raiseFm s p q).routers = s.routers := rfl
@[simp] theorem State.raiseFm_rgns (s : State) (p q) : (State.raiseFm s p q).rgns = s.rgns := rfl
@[simp] theorem State.raiseFm_foreign (s : State) (p q) : (State.raiseFm s p q).foreign = s.foreign := rfl
@[simp] theorem State.raiseFm_skys (s : State) (p q) : (State.raiseFm s p q).skys = s.skys := rfl
@[simp] theorem State.raiseFm_admission (s : State) (p q) : (State.raiseFm s p q).admission = s.admission := rfl
@[simp] theorem State.raiseFm_eras (s : State) (p q) : (State.raiseFm s p q).eras = s.eras := rfl
@[simp] theorem State.raiseFm_nap (s : State) (p q) : (State.raiseFm s p q).nap = s.nap := rfl
@[simp] theorem State.raiseFm_tilesHeld (s : State) (p q) : (State.raiseFm s p q).tilesHeld = s.tilesHeld := rfl
@[simp] theorem State.raiseFm_tiers (s : State) (p q) : (State.raiseFm s p q).tiers = s.tiers := rfl
@[simp] theorem State.raiseFm_yard (s : State) (p q) : (State.raiseFm s p q).yard = s.yard := rfl
@[simp] theorem State.raiseFm_streams (s : State) (p q) : (State.raiseFm s p q).streams = s.streams := rfl
@[simp] theorem State.raiseFm_reds (s : State) (p q) : (State.raiseFm s p q).reds = s.reds := rfl
@[simp] theorem State.raiseFm_eth (s : State) (p q) : (State.raiseFm s p q).eth = s.eth := rfl
@[simp] theorem State.raiseFm_boot (s : State) (p q) : (State.raiseFm s p q).boot = s.boot := rfl
@[simp] theorem State.raiseFm_beats (s : State) (p q) : (State.raiseFm s p q).beats = s.beats := rfl
@[simp] theorem State.raiseFm_power (s : State) (p q) : (State.raiseFm s p q).power = s.power := rfl
@[simp] theorem State.raiseFm_ldr (s : State) (p q) : (State.raiseFm s p q).ldr = s.ldr := rfl
@[simp] theorem State.raiseFm_flt (s : State) (p q) : (State.raiseFm s p q).flt = s.flt := rfl
@[simp] theorem State.raiseFm_jobs (s : State) (p q) : (State.raiseFm s p q).jobs = s.jobs := rfl
@[simp] theorem State.raiseFm_resets (s : State) (p q) : (State.raiseFm s p q).resets = s.resets := rfl
@[simp] theorem State.raiseFm_rng (s : State) (p q) : (State.raiseFm s p q).rng = s.rng := rfl
@[simp] theorem State.raiseFm_book (s : State) (p q) : (State.raiseFm s p q).book = s.book := rfl
@[simp] theorem State.raiseFm_tallyLast (s : State) (p q) : (State.raiseFm s p q).tallyLast = s.tallyLast := rfl
@[simp] theorem State.raiseFm_reg (s : State) (p q) (a) : (State.raiseFm s p q).reg a = s.reg a := rfl
@[simp] theorem State.raiseFm_regF (s : State) (p q) (a hi lo) : (State.raiseFm s p q).regF a hi lo = s.regF a hi lo := rfl
@[simp] theorem State.raiseFm_cell (s : State) (p q) (a) : (State.raiseFm s p q).cell a = s.cell a := rfl
@[simp] theorem State.raiseFm_fm (s : State) (p q) (a) : (State.raiseFm s p q).fm a = s.fm a := rfl
@[simp] theorem State.raiseFm_slot (s : State) (p q) (a) : (State.raiseFm s p q).slot a = s.slot a := rfl
@[simp] theorem State.raiseFm_router (s : State) (p q) (a) : (State.raiseFm s p q).router a = s.router a := rfl
@[simp] theorem State.raiseFm_rgn (s : State) (p q) (a) : (State.raiseFm s p q).rgn a = s.rgn a := rfl
@[simp] theorem State.raiseFm_sky (s : State) (p q) (a) : (State.raiseFm s p q).sky a = s.sky a := rfl
@[simp] theorem State.raiseFm_stream (s : State) (p q) (a) : (State.raiseFm s p q).stream a = s.stream a := rfl
@[simp] theorem State.raiseFm_red (s : State) (p q) (a) : (State.raiseFm s p q).red a = s.red a := rfl
@[simp] theorem State.raiseFm_job (s : State) (p q) (a) : (State.raiseFm s p q).job a = s.job a := rfl
@[simp] theorem State.raiseFm_slotOfRegion (s : State) (p q) (a) : (State.raiseFm s p q).slotOfRegion a = s.slotOfRegion a := rfl
@[simp] theorem State.raiseFm_win (s : State) (p q) (a) : (State.raiseFm s p q).win a = s.win a := rfl
@[simp] theorem State.raiseFm_qp (s : State) (p q) (a) : (State.raiseFm s p q).qp a = s.qp a := rfl

@[simp] theorem State.setBeat_pending (s : State) (p) : (State.setBeat s p).pending = s.pending := rfl
@[simp] theorem State.setBeat_inFlight (s : State) (p) : (State.setBeat s p).inFlight = s.inFlight := rfl
@[simp] theorem State.setBeat_out (s : State) (p) : (State.setBeat s p).out = s.out := rfl
@[simp] theorem State.setBeat_freeCtr (s : State) (p) : (State.setBeat s p).freeCtr = s.freeCtr := rfl
@[simp] theorem State.setBeat_regs (s : State) (p) : (State.setBeat s p).regs = s.regs := rfl
@[simp] theorem State.setBeat_cells (s : State) (p) : (State.setBeat s p).cells = s.cells := rfl
@[simp] theorem State.setBeat_fms (s : State) (p) : (State.setBeat s p).fms = s.fms := rfl
@[simp] theorem State.setBeat_slots (s : State) (p) : (State.setBeat s p).slots = s.slots := rfl
@[simp] theorem State.setBeat_spares (s : State) (p) : (State.setBeat s p).spares = s.spares := rfl
@[simp] theorem State.setBeat_routers (s : State) (p) : (State.setBeat s p).routers = s.routers := rfl
@[simp] theorem State.setBeat_rgns (s : State) (p) : (State.setBeat s p).rgns = s.rgns := rfl
@[simp] theorem State.setBeat_foreign (s : State) (p) : (State.setBeat s p).foreign = s.foreign := rfl
@[simp] theorem State.setBeat_skys (s : State) (p) : (State.setBeat s p).skys = s.skys := rfl
@[simp] theorem State.setBeat_admission (s : State) (p) : (State.setBeat s p).admission = s.admission := rfl
@[simp] theorem State.setBeat_eras (s : State) (p) : (State.setBeat s p).eras = s.eras := rfl
@[simp] theorem State.setBeat_nap (s : State) (p) : (State.setBeat s p).nap = s.nap := rfl
@[simp] theorem State.setBeat_tilesHeld (s : State) (p) : (State.setBeat s p).tilesHeld = s.tilesHeld := rfl
@[simp] theorem State.setBeat_tiers (s : State) (p) : (State.setBeat s p).tiers = s.tiers := rfl
@[simp] theorem State.setBeat_yard (s : State) (p) : (State.setBeat s p).yard = s.yard := rfl
@[simp] theorem State.setBeat_streams (s : State) (p) : (State.setBeat s p).streams = s.streams := rfl
@[simp] theorem State.setBeat_reds (s : State) (p) : (State.setBeat s p).reds = s.reds := rfl
@[simp] theorem State.setBeat_eth (s : State) (p) : (State.setBeat s p).eth = s.eth := rfl
@[simp] theorem State.setBeat_boot (s : State) (p) : (State.setBeat s p).boot = s.boot := rfl
@[simp] theorem State.setBeat_power (s : State) (p) : (State.setBeat s p).power = s.power := rfl
@[simp] theorem State.setBeat_ldr (s : State) (p) : (State.setBeat s p).ldr = s.ldr := rfl
@[simp] theorem State.setBeat_flt (s : State) (p) : (State.setBeat s p).flt = s.flt := rfl
@[simp] theorem State.setBeat_jobs (s : State) (p) : (State.setBeat s p).jobs = s.jobs := rfl
@[simp] theorem State.setBeat_resets (s : State) (p) : (State.setBeat s p).resets = s.resets := rfl
@[simp] theorem State.setBeat_rng (s : State) (p) : (State.setBeat s p).rng = s.rng := rfl
@[simp] theorem State.setBeat_book (s : State) (p) : (State.setBeat s p).book = s.book := rfl
@[simp] theorem State.setBeat_tallyLast (s : State) (p) : (State.setBeat s p).tallyLast = s.tallyLast := rfl
@[simp] theorem State.setBeat_reg (s : State) (p) (a) : (State.setBeat s p).reg a = s.reg a := rfl
@[simp] theorem State.setBeat_regF (s : State) (p) (a hi lo) : (State.setBeat s p).regF a hi lo = s.regF a hi lo := rfl
@[simp] theorem State.setBeat_cell (s : State) (p) (a) : (State.setBeat s p).cell a = s.cell a := rfl
@[simp] theorem State.setBeat_fm (s : State) (p) (a) : (State.setBeat s p).fm a = s.fm a := rfl
@[simp] theorem State.setBeat_slot (s : State) (p) (a) : (State.setBeat s p).slot a = s.slot a := rfl
@[simp] theorem State.setBeat_router (s : State) (p) (a) : (State.setBeat s p).router a = s.router a := rfl
@[simp] theorem State.setBeat_rgn (s : State) (p) (a) : (State.setBeat s p).rgn a = s.rgn a := rfl
@[simp] theorem State.setBeat_sky (s : State) (p) (a) : (State.setBeat s p).sky a = s.sky a := rfl
@[simp] theorem State.setBeat_stream (s : State) (p) (a) : (State.setBeat s p).stream a = s.stream a := rfl
@[simp] theorem State.setBeat_red (s : State) (p) (a) : (State.setBeat s p).red a = s.red a := rfl
@[simp] theorem State.setBeat_job (s : State) (p) (a) : (State.setBeat s p).job a = s.job a := rfl
@[simp] theorem State.setBeat_slotOfRegion (s : State) (p) (a) : (State.setBeat s p).slotOfRegion a = s.slotOfRegion a := rfl
@[simp] theorem State.setBeat_win (s : State) (p) (a) : (State.setBeat s p).win a = s.win a := rfl
@[simp] theorem State.setBeat_qp (s : State) (p) (a) : (State.setBeat s p).qp a = s.qp a := rfl

@[simp] theorem State.setPower_pending (s : State) (p) : (State.setPower s p).pending = s.pending := rfl
@[simp] theorem State.setPower_inFlight (s : State) (p) : (State.setPower s p).inFlight = s.inFlight := rfl
@[simp] theorem State.setPower_out (s : State) (p) : (State.setPower s p).out = s.out := rfl
@[simp] theorem State.setPower_freeCtr (s : State) (p) : (State.setPower s p).freeCtr = s.freeCtr := rfl
@[simp] theorem State.setPower_regs (s : State) (p) : (State.setPower s p).regs = s.regs := rfl
@[simp] theorem State.setPower_cells (s : State) (p) : (State.setPower s p).cells = s.cells := rfl
@[simp] theorem State.setPower_fms (s : State) (p) : (State.setPower s p).fms = s.fms := rfl
@[simp] theorem State.setPower_slots (s : State) (p) : (State.setPower s p).slots = s.slots := rfl
@[simp] theorem State.setPower_spares (s : State) (p) : (State.setPower s p).spares = s.spares := rfl
@[simp] theorem State.setPower_routers (s : State) (p) : (State.setPower s p).routers = s.routers := rfl
@[simp] theorem State.setPower_rgns (s : State) (p) : (State.setPower s p).rgns = s.rgns := rfl
@[simp] theorem State.setPower_foreign (s : State) (p) : (State.setPower s p).foreign = s.foreign := rfl
@[simp] theorem State.setPower_skys (s : State) (p) : (State.setPower s p).skys = s.skys := rfl
@[simp] theorem State.setPower_admission (s : State) (p) : (State.setPower s p).admission = s.admission := rfl
@[simp] theorem State.setPower_eras (s : State) (p) : (State.setPower s p).eras = s.eras := rfl
@[simp] theorem State.setPower_nap (s : State) (p) : (State.setPower s p).nap = s.nap := rfl
@[simp] theorem State.setPower_tilesHeld (s : State) (p) : (State.setPower s p).tilesHeld = s.tilesHeld := rfl
@[simp] theorem State.setPower_tiers (s : State) (p) : (State.setPower s p).tiers = s.tiers := rfl
@[simp] theorem State.setPower_yard (s : State) (p) : (State.setPower s p).yard = s.yard := rfl
@[simp] theorem State.setPower_streams (s : State) (p) : (State.setPower s p).streams = s.streams := rfl
@[simp] theorem State.setPower_reds (s : State) (p) : (State.setPower s p).reds = s.reds := rfl
@[simp] theorem State.setPower_eth (s : State) (p) : (State.setPower s p).eth = s.eth := rfl
@[simp] theorem State.setPower_boot (s : State) (p) : (State.setPower s p).boot = s.boot := rfl
@[simp] theorem State.setPower_beats (s : State) (p) : (State.setPower s p).beats = s.beats := rfl
@[simp] theorem State.setPower_ldr (s : State) (p) : (State.setPower s p).ldr = s.ldr := rfl
@[simp] theorem State.setPower_flt (s : State) (p) : (State.setPower s p).flt = s.flt := rfl
@[simp] theorem State.setPower_jobs (s : State) (p) : (State.setPower s p).jobs = s.jobs := rfl
@[simp] theorem State.setPower_resets (s : State) (p) : (State.setPower s p).resets = s.resets := rfl
@[simp] theorem State.setPower_rng (s : State) (p) : (State.setPower s p).rng = s.rng := rfl
@[simp] theorem State.setPower_book (s : State) (p) : (State.setPower s p).book = s.book := rfl
@[simp] theorem State.setPower_tallyLast (s : State) (p) : (State.setPower s p).tallyLast = s.tallyLast := rfl
@[simp] theorem State.setPower_reg (s : State) (p) (a) : (State.setPower s p).reg a = s.reg a := rfl
@[simp] theorem State.setPower_regF (s : State) (p) (a hi lo) : (State.setPower s p).regF a hi lo = s.regF a hi lo := rfl
@[simp] theorem State.setPower_cell (s : State) (p) (a) : (State.setPower s p).cell a = s.cell a := rfl
@[simp] theorem State.setPower_fm (s : State) (p) (a) : (State.setPower s p).fm a = s.fm a := rfl
@[simp] theorem State.setPower_slot (s : State) (p) (a) : (State.setPower s p).slot a = s.slot a := rfl
@[simp] theorem State.setPower_router (s : State) (p) (a) : (State.setPower s p).router a = s.router a := rfl
@[simp] theorem State.setPower_rgn (s : State) (p) (a) : (State.setPower s p).rgn a = s.rgn a := rfl
@[simp] theorem State.setPower_sky (s : State) (p) (a) : (State.setPower s p).sky a = s.sky a := rfl
@[simp] theorem State.setPower_stream (s : State) (p) (a) : (State.setPower s p).stream a = s.stream a := rfl
@[simp] theorem State.setPower_red (s : State) (p) (a) : (State.setPower s p).red a = s.red a := rfl
@[simp] theorem State.setPower_job (s : State) (p) (a) : (State.setPower s p).job a = s.job a := rfl
@[simp] theorem State.setPower_slotOfRegion (s : State) (p) (a) : (State.setPower s p).slotOfRegion a = s.slotOfRegion a := rfl
@[simp] theorem State.setPower_win (s : State) (p) (a) : (State.setPower s p).win a = s.win a := rfl
@[simp] theorem State.setPower_qp (s : State) (p) (a) : (State.setPower s p).qp a = s.qp a := rfl

@[simp] theorem State.setBook_pending (s : State) (p) : (State.setBook s p).pending = s.pending := rfl
@[simp] theorem State.setBook_inFlight (s : State) (p) : (State.setBook s p).inFlight = s.inFlight := rfl
@[simp] theorem State.setBook_out (s : State) (p) : (State.setBook s p).out = s.out := rfl
@[simp] theorem State.setBook_freeCtr (s : State) (p) : (State.setBook s p).freeCtr = s.freeCtr := rfl
@[simp] theorem State.setBook_regs (s : State) (p) : (State.setBook s p).regs = s.regs := rfl
@[simp] theorem State.setBook_cells (s : State) (p) : (State.setBook s p).cells = s.cells := rfl
@[simp] theorem State.setBook_fms (s : State) (p) : (State.setBook s p).fms = s.fms := rfl
@[simp] theorem State.setBook_slots (s : State) (p) : (State.setBook s p).slots = s.slots := rfl
@[simp] theorem State.setBook_spares (s : State) (p) : (State.setBook s p).spares = s.spares := rfl
@[simp] theorem State.setBook_routers (s : State) (p) : (State.setBook s p).routers = s.routers := rfl
@[simp] theorem State.setBook_rgns (s : State) (p) : (State.setBook s p).rgns = s.rgns := rfl
@[simp] theorem State.setBook_foreign (s : State) (p) : (State.setBook s p).foreign = s.foreign := rfl
@[simp] theorem State.setBook_skys (s : State) (p) : (State.setBook s p).skys = s.skys := rfl
@[simp] theorem State.setBook_admission (s : State) (p) : (State.setBook s p).admission = s.admission := rfl
@[simp] theorem State.setBook_eras (s : State) (p) : (State.setBook s p).eras = s.eras := rfl
@[simp] theorem State.setBook_nap (s : State) (p) : (State.setBook s p).nap = s.nap := rfl
@[simp] theorem State.setBook_tilesHeld (s : State) (p) : (State.setBook s p).tilesHeld = s.tilesHeld := rfl
@[simp] theorem State.setBook_tiers (s : State) (p) : (State.setBook s p).tiers = s.tiers := rfl
@[simp] theorem State.setBook_yard (s : State) (p) : (State.setBook s p).yard = s.yard := rfl
@[simp] theorem State.setBook_streams (s : State) (p) : (State.setBook s p).streams = s.streams := rfl
@[simp] theorem State.setBook_reds (s : State) (p) : (State.setBook s p).reds = s.reds := rfl
@[simp] theorem State.setBook_eth (s : State) (p) : (State.setBook s p).eth = s.eth := rfl
@[simp] theorem State.setBook_boot (s : State) (p) : (State.setBook s p).boot = s.boot := rfl
@[simp] theorem State.setBook_beats (s : State) (p) : (State.setBook s p).beats = s.beats := rfl
@[simp] theorem State.setBook_power (s : State) (p) : (State.setBook s p).power = s.power := rfl
@[simp] theorem State.setBook_ldr (s : State) (p) : (State.setBook s p).ldr = s.ldr := rfl
@[simp] theorem State.setBook_flt (s : State) (p) : (State.setBook s p).flt = s.flt := rfl
@[simp] theorem State.setBook_jobs (s : State) (p) : (State.setBook s p).jobs = s.jobs := rfl
@[simp] theorem State.setBook_resets (s : State) (p) : (State.setBook s p).resets = s.resets := rfl
@[simp] theorem State.setBook_rng (s : State) (p) : (State.setBook s p).rng = s.rng := rfl
@[simp] theorem State.setBook_tallyLast (s : State) (p) : (State.setBook s p).tallyLast = s.tallyLast := rfl
@[simp] theorem State.setBook_reg (s : State) (p) (a) : (State.setBook s p).reg a = s.reg a := rfl
@[simp] theorem State.setBook_regF (s : State) (p) (a hi lo) : (State.setBook s p).regF a hi lo = s.regF a hi lo := rfl
@[simp] theorem State.setBook_cell (s : State) (p) (a) : (State.setBook s p).cell a = s.cell a := rfl
@[simp] theorem State.setBook_fm (s : State) (p) (a) : (State.setBook s p).fm a = s.fm a := rfl
@[simp] theorem State.setBook_slot (s : State) (p) (a) : (State.setBook s p).slot a = s.slot a := rfl
@[simp] theorem State.setBook_router (s : State) (p) (a) : (State.setBook s p).router a = s.router a := rfl
@[simp] theorem State.setBook_rgn (s : State) (p) (a) : (State.setBook s p).rgn a = s.rgn a := rfl
@[simp] theorem State.setBook_sky (s : State) (p) (a) : (State.setBook s p).sky a = s.sky a := rfl
@[simp] theorem State.setBook_stream (s : State) (p) (a) : (State.setBook s p).stream a = s.stream a := rfl
@[simp] theorem State.setBook_red (s : State) (p) (a) : (State.setBook s p).red a = s.red a := rfl
@[simp] theorem State.setBook_job (s : State) (p) (a) : (State.setBook s p).job a = s.job a := rfl
@[simp] theorem State.setBook_slotOfRegion (s : State) (p) (a) : (State.setBook s p).slotOfRegion a = s.slotOfRegion a := rfl
@[simp] theorem State.setBook_win (s : State) (p) (a) : (State.setBook s p).win a = s.win a := rfl
@[simp] theorem State.setBook_qp (s : State) (p) (a) : (State.setBook s p).qp a = s.qp a := rfl

@[simp] theorem State.setFlt_pending (s : State) (p) : (State.setFlt s p).pending = s.pending := rfl
@[simp] theorem State.setFlt_inFlight (s : State) (p) : (State.setFlt s p).inFlight = s.inFlight := rfl
@[simp] theorem State.setFlt_out (s : State) (p) : (State.setFlt s p).out = s.out := rfl
@[simp] theorem State.setFlt_freeCtr (s : State) (p) : (State.setFlt s p).freeCtr = s.freeCtr := rfl
@[simp] theorem State.setFlt_regs (s : State) (p) : (State.setFlt s p).regs = s.regs := rfl
@[simp] theorem State.setFlt_cells (s : State) (p) : (State.setFlt s p).cells = s.cells := rfl
@[simp] theorem State.setFlt_fms (s : State) (p) : (State.setFlt s p).fms = s.fms := rfl
@[simp] theorem State.setFlt_slots (s : State) (p) : (State.setFlt s p).slots = s.slots := rfl
@[simp] theorem State.setFlt_spares (s : State) (p) : (State.setFlt s p).spares = s.spares := rfl
@[simp] theorem State.setFlt_routers (s : State) (p) : (State.setFlt s p).routers = s.routers := rfl
@[simp] theorem State.setFlt_rgns (s : State) (p) : (State.setFlt s p).rgns = s.rgns := rfl
@[simp] theorem State.setFlt_foreign (s : State) (p) : (State.setFlt s p).foreign = s.foreign := rfl
@[simp] theorem State.setFlt_skys (s : State) (p) : (State.setFlt s p).skys = s.skys := rfl
@[simp] theorem State.setFlt_admission (s : State) (p) : (State.setFlt s p).admission = s.admission := rfl
@[simp] theorem State.setFlt_eras (s : State) (p) : (State.setFlt s p).eras = s.eras := rfl
@[simp] theorem State.setFlt_nap (s : State) (p) : (State.setFlt s p).nap = s.nap := rfl
@[simp] theorem State.setFlt_tilesHeld (s : State) (p) : (State.setFlt s p).tilesHeld = s.tilesHeld := rfl
@[simp] theorem State.setFlt_tiers (s : State) (p) : (State.setFlt s p).tiers = s.tiers := rfl
@[simp] theorem State.setFlt_yard (s : State) (p) : (State.setFlt s p).yard = s.yard := rfl
@[simp] theorem State.setFlt_streams (s : State) (p) : (State.setFlt s p).streams = s.streams := rfl
@[simp] theorem State.setFlt_reds (s : State) (p) : (State.setFlt s p).reds = s.reds := rfl
@[simp] theorem State.setFlt_eth (s : State) (p) : (State.setFlt s p).eth = s.eth := rfl
@[simp] theorem State.setFlt_boot (s : State) (p) : (State.setFlt s p).boot = s.boot := rfl
@[simp] theorem State.setFlt_beats (s : State) (p) : (State.setFlt s p).beats = s.beats := rfl
@[simp] theorem State.setFlt_power (s : State) (p) : (State.setFlt s p).power = s.power := rfl
@[simp] theorem State.setFlt_ldr (s : State) (p) : (State.setFlt s p).ldr = s.ldr := rfl
@[simp] theorem State.setFlt_jobs (s : State) (p) : (State.setFlt s p).jobs = s.jobs := rfl
@[simp] theorem State.setFlt_resets (s : State) (p) : (State.setFlt s p).resets = s.resets := rfl
@[simp] theorem State.setFlt_rng (s : State) (p) : (State.setFlt s p).rng = s.rng := rfl
@[simp] theorem State.setFlt_book (s : State) (p) : (State.setFlt s p).book = s.book := rfl
@[simp] theorem State.setFlt_tallyLast (s : State) (p) : (State.setFlt s p).tallyLast = s.tallyLast := rfl
@[simp] theorem State.setFlt_reg (s : State) (p) (a) : (State.setFlt s p).reg a = s.reg a := rfl
@[simp] theorem State.setFlt_regF (s : State) (p) (a hi lo) : (State.setFlt s p).regF a hi lo = s.regF a hi lo := rfl
@[simp] theorem State.setFlt_cell (s : State) (p) (a) : (State.setFlt s p).cell a = s.cell a := rfl
@[simp] theorem State.setFlt_fm (s : State) (p) (a) : (State.setFlt s p).fm a = s.fm a := rfl
@[simp] theorem State.setFlt_slot (s : State) (p) (a) : (State.setFlt s p).slot a = s.slot a := rfl
@[simp] theorem State.setFlt_router (s : State) (p) (a) : (State.setFlt s p).router a = s.router a := rfl
@[simp] theorem State.setFlt_rgn (s : State) (p) (a) : (State.setFlt s p).rgn a = s.rgn a := rfl
@[simp] theorem State.setFlt_sky (s : State) (p) (a) : (State.setFlt s p).sky a = s.sky a := rfl
@[simp] theorem State.setFlt_stream (s : State) (p) (a) : (State.setFlt s p).stream a = s.stream a := rfl
@[simp] theorem State.setFlt_red (s : State) (p) (a) : (State.setFlt s p).red a = s.red a := rfl
@[simp] theorem State.setFlt_job (s : State) (p) (a) : (State.setFlt s p).job a = s.job a := rfl
@[simp] theorem State.setFlt_slotOfRegion (s : State) (p) (a) : (State.setFlt s p).slotOfRegion a = s.slotOfRegion a := rfl
@[simp] theorem State.setFlt_win (s : State) (p) (a) : (State.setFlt s p).win a = s.win a := rfl
@[simp] theorem State.setFlt_qp (s : State) (p) (a) : (State.setFlt s p).qp a = s.qp a := rfl

@[simp] theorem State.setBoot_pending (s : State) (p) : (State.setBoot s p).pending = s.pending := rfl
@[simp] theorem State.setBoot_inFlight (s : State) (p) : (State.setBoot s p).inFlight = s.inFlight := rfl
@[simp] theorem State.setBoot_out (s : State) (p) : (State.setBoot s p).out = s.out := rfl
@[simp] theorem State.setBoot_freeCtr (s : State) (p) : (State.setBoot s p).freeCtr = s.freeCtr := rfl
@[simp] theorem State.setBoot_regs (s : State) (p) : (State.setBoot s p).regs = s.regs := rfl
@[simp] theorem State.setBoot_cells (s : State) (p) : (State.setBoot s p).cells = s.cells := rfl
@[simp] theorem State.setBoot_fms (s : State) (p) : (State.setBoot s p).fms = s.fms := rfl
@[simp] theorem State.setBoot_slots (s : State) (p) : (State.setBoot s p).slots = s.slots := rfl
@[simp] theorem State.setBoot_spares (s : State) (p) : (State.setBoot s p).spares = s.spares := rfl
@[simp] theorem State.setBoot_routers (s : State) (p) : (State.setBoot s p).routers = s.routers := rfl
@[simp] theorem State.setBoot_rgns (s : State) (p) : (State.setBoot s p).rgns = s.rgns := rfl
@[simp] theorem State.setBoot_foreign (s : State) (p) : (State.setBoot s p).foreign = s.foreign := rfl
@[simp] theorem State.setBoot_skys (s : State) (p) : (State.setBoot s p).skys = s.skys := rfl
@[simp] theorem State.setBoot_admission (s : State) (p) : (State.setBoot s p).admission = s.admission := rfl
@[simp] theorem State.setBoot_eras (s : State) (p) : (State.setBoot s p).eras = s.eras := rfl
@[simp] theorem State.setBoot_nap (s : State) (p) : (State.setBoot s p).nap = s.nap := rfl
@[simp] theorem State.setBoot_tilesHeld (s : State) (p) : (State.setBoot s p).tilesHeld = s.tilesHeld := rfl
@[simp] theorem State.setBoot_tiers (s : State) (p) : (State.setBoot s p).tiers = s.tiers := rfl
@[simp] theorem State.setBoot_yard (s : State) (p) : (State.setBoot s p).yard = s.yard := rfl
@[simp] theorem State.setBoot_streams (s : State) (p) : (State.setBoot s p).streams = s.streams := rfl
@[simp] theorem State.setBoot_reds (s : State) (p) : (State.setBoot s p).reds = s.reds := rfl
@[simp] theorem State.setBoot_eth (s : State) (p) : (State.setBoot s p).eth = s.eth := rfl
@[simp] theorem State.setBoot_beats (s : State) (p) : (State.setBoot s p).beats = s.beats := rfl
@[simp] theorem State.setBoot_power (s : State) (p) : (State.setBoot s p).power = s.power := rfl
@[simp] theorem State.setBoot_ldr (s : State) (p) : (State.setBoot s p).ldr = s.ldr := rfl
@[simp] theorem State.setBoot_flt (s : State) (p) : (State.setBoot s p).flt = s.flt := rfl
@[simp] theorem State.setBoot_jobs (s : State) (p) : (State.setBoot s p).jobs = s.jobs := rfl
@[simp] theorem State.setBoot_resets (s : State) (p) : (State.setBoot s p).resets = s.resets := rfl
@[simp] theorem State.setBoot_rng (s : State) (p) : (State.setBoot s p).rng = s.rng := rfl
@[simp] theorem State.setBoot_book (s : State) (p) : (State.setBoot s p).book = s.book := rfl
@[simp] theorem State.setBoot_tallyLast (s : State) (p) : (State.setBoot s p).tallyLast = s.tallyLast := rfl
@[simp] theorem State.setBoot_reg (s : State) (p) (a) : (State.setBoot s p).reg a = s.reg a := rfl
@[simp] theorem State.setBoot_regF (s : State) (p) (a hi lo) : (State.setBoot s p).regF a hi lo = s.regF a hi lo := rfl
@[simp] theorem State.setBoot_cell (s : State) (p) (a) : (State.setBoot s p).cell a = s.cell a := rfl
@[simp] theorem State.setBoot_fm (s : State) (p) (a) : (State.setBoot s p).fm a = s.fm a := rfl
@[simp] theorem State.setBoot_slot (s : State) (p) (a) : (State.setBoot s p).slot a = s.slot a := rfl
@[simp] theorem State.setBoot_router (s : State) (p) (a) : (State.setBoot s p).router a = s.router a := rfl
@[simp] theorem State.setBoot_rgn (s : State) (p) (a) : (State.setBoot s p).rgn a = s.rgn a := rfl
@[simp] theorem State.setBoot_sky (s : State) (p) (a) : (State.setBoot s p).sky a = s.sky a := rfl
@[simp] theorem State.setBoot_stream (s : State) (p) (a) : (State.setBoot s p).stream a = s.stream a := rfl
@[simp] theorem State.setBoot_red (s : State) (p) (a) : (State.setBoot s p).red a = s.red a := rfl
@[simp] theorem State.setBoot_job (s : State) (p) (a) : (State.setBoot s p).job a = s.job a := rfl
@[simp] theorem State.setBoot_slotOfRegion (s : State) (p) (a) : (State.setBoot s p).slotOfRegion a = s.slotOfRegion a := rfl
@[simp] theorem State.setBoot_win (s : State) (p) (a) : (State.setBoot s p).win a = s.win a := rfl
@[simp] theorem State.setBoot_qp (s : State) (p) (a) : (State.setBoot s p).qp a = s.qp a := rfl

@[simp] theorem State.setRng_pending (s : State) (p) : (State.setRng s p).pending = s.pending := rfl
@[simp] theorem State.setRng_inFlight (s : State) (p) : (State.setRng s p).inFlight = s.inFlight := rfl
@[simp] theorem State.setRng_out (s : State) (p) : (State.setRng s p).out = s.out := rfl
@[simp] theorem State.setRng_freeCtr (s : State) (p) : (State.setRng s p).freeCtr = s.freeCtr := rfl
@[simp] theorem State.setRng_regs (s : State) (p) : (State.setRng s p).regs = s.regs := rfl
@[simp] theorem State.setRng_cells (s : State) (p) : (State.setRng s p).cells = s.cells := rfl
@[simp] theorem State.setRng_fms (s : State) (p) : (State.setRng s p).fms = s.fms := rfl
@[simp] theorem State.setRng_slots (s : State) (p) : (State.setRng s p).slots = s.slots := rfl
@[simp] theorem State.setRng_spares (s : State) (p) : (State.setRng s p).spares = s.spares := rfl
@[simp] theorem State.setRng_routers (s : State) (p) : (State.setRng s p).routers = s.routers := rfl
@[simp] theorem State.setRng_rgns (s : State) (p) : (State.setRng s p).rgns = s.rgns := rfl
@[simp] theorem State.setRng_foreign (s : State) (p) : (State.setRng s p).foreign = s.foreign := rfl
@[simp] theorem State.setRng_skys (s : State) (p) : (State.setRng s p).skys = s.skys := rfl
@[simp] theorem State.setRng_admission (s : State) (p) : (State.setRng s p).admission = s.admission := rfl
@[simp] theorem State.setRng_eras (s : State) (p) : (State.setRng s p).eras = s.eras := rfl
@[simp] theorem State.setRng_nap (s : State) (p) : (State.setRng s p).nap = s.nap := rfl
@[simp] theorem State.setRng_tilesHeld (s : State) (p) : (State.setRng s p).tilesHeld = s.tilesHeld := rfl
@[simp] theorem State.setRng_tiers (s : State) (p) : (State.setRng s p).tiers = s.tiers := rfl
@[simp] theorem State.setRng_yard (s : State) (p) : (State.setRng s p).yard = s.yard := rfl
@[simp] theorem State.setRng_streams (s : State) (p) : (State.setRng s p).streams = s.streams := rfl
@[simp] theorem State.setRng_reds (s : State) (p) : (State.setRng s p).reds = s.reds := rfl
@[simp] theorem State.setRng_eth (s : State) (p) : (State.setRng s p).eth = s.eth := rfl
@[simp] theorem State.setRng_boot (s : State) (p) : (State.setRng s p).boot = s.boot := rfl
@[simp] theorem State.setRng_beats (s : State) (p) : (State.setRng s p).beats = s.beats := rfl
@[simp] theorem State.setRng_power (s : State) (p) : (State.setRng s p).power = s.power := rfl
@[simp] theorem State.setRng_ldr (s : State) (p) : (State.setRng s p).ldr = s.ldr := rfl
@[simp] theorem State.setRng_flt (s : State) (p) : (State.setRng s p).flt = s.flt := rfl
@[simp] theorem State.setRng_jobs (s : State) (p) : (State.setRng s p).jobs = s.jobs := rfl
@[simp] theorem State.setRng_resets (s : State) (p) : (State.setRng s p).resets = s.resets := rfl
@[simp] theorem State.setRng_book (s : State) (p) : (State.setRng s p).book = s.book := rfl
@[simp] theorem State.setRng_tallyLast (s : State) (p) : (State.setRng s p).tallyLast = s.tallyLast := rfl
@[simp] theorem State.setRng_reg (s : State) (p) (a) : (State.setRng s p).reg a = s.reg a := rfl
@[simp] theorem State.setRng_regF (s : State) (p) (a hi lo) : (State.setRng s p).regF a hi lo = s.regF a hi lo := rfl
@[simp] theorem State.setRng_cell (s : State) (p) (a) : (State.setRng s p).cell a = s.cell a := rfl
@[simp] theorem State.setRng_fm (s : State) (p) (a) : (State.setRng s p).fm a = s.fm a := rfl
@[simp] theorem State.setRng_slot (s : State) (p) (a) : (State.setRng s p).slot a = s.slot a := rfl
@[simp] theorem State.setRng_router (s : State) (p) (a) : (State.setRng s p).router a = s.router a := rfl
@[simp] theorem State.setRng_rgn (s : State) (p) (a) : (State.setRng s p).rgn a = s.rgn a := rfl
@[simp] theorem State.setRng_sky (s : State) (p) (a) : (State.setRng s p).sky a = s.sky a := rfl
@[simp] theorem State.setRng_stream (s : State) (p) (a) : (State.setRng s p).stream a = s.stream a := rfl
@[simp] theorem State.setRng_red (s : State) (p) (a) : (State.setRng s p).red a = s.red a := rfl
@[simp] theorem State.setRng_job (s : State) (p) (a) : (State.setRng s p).job a = s.job a := rfl
@[simp] theorem State.setRng_slotOfRegion (s : State) (p) (a) : (State.setRng s p).slotOfRegion a = s.slotOfRegion a := rfl
@[simp] theorem State.setRng_win (s : State) (p) (a) : (State.setRng s p).win a = s.win a := rfl
@[simp] theorem State.setRng_qp (s : State) (p) (a) : (State.setRng s p).qp a = s.qp a := rfl

@[simp] theorem State.setJob_pending (s : State) (p q) : (State.setJob s p q).pending = s.pending := rfl
@[simp] theorem State.setJob_inFlight (s : State) (p q) : (State.setJob s p q).inFlight = s.inFlight := rfl
@[simp] theorem State.setJob_out (s : State) (p q) : (State.setJob s p q).out = s.out := rfl
@[simp] theorem State.setJob_freeCtr (s : State) (p q) : (State.setJob s p q).freeCtr = s.freeCtr := rfl
@[simp] theorem State.setJob_regs (s : State) (p q) : (State.setJob s p q).regs = s.regs := rfl
@[simp] theorem State.setJob_cells (s : State) (p q) : (State.setJob s p q).cells = s.cells := rfl
@[simp] theorem State.setJob_fms (s : State) (p q) : (State.setJob s p q).fms = s.fms := rfl
@[simp] theorem State.setJob_slots (s : State) (p q) : (State.setJob s p q).slots = s.slots := rfl
@[simp] theorem State.setJob_spares (s : State) (p q) : (State.setJob s p q).spares = s.spares := rfl
@[simp] theorem State.setJob_routers (s : State) (p q) : (State.setJob s p q).routers = s.routers := rfl
@[simp] theorem State.setJob_rgns (s : State) (p q) : (State.setJob s p q).rgns = s.rgns := rfl
@[simp] theorem State.setJob_foreign (s : State) (p q) : (State.setJob s p q).foreign = s.foreign := rfl
@[simp] theorem State.setJob_skys (s : State) (p q) : (State.setJob s p q).skys = s.skys := rfl
@[simp] theorem State.setJob_admission (s : State) (p q) : (State.setJob s p q).admission = s.admission := rfl
@[simp] theorem State.setJob_eras (s : State) (p q) : (State.setJob s p q).eras = s.eras := rfl
@[simp] theorem State.setJob_nap (s : State) (p q) : (State.setJob s p q).nap = s.nap := rfl
@[simp] theorem State.setJob_tilesHeld (s : State) (p q) : (State.setJob s p q).tilesHeld = s.tilesHeld := rfl
@[simp] theorem State.setJob_tiers (s : State) (p q) : (State.setJob s p q).tiers = s.tiers := rfl
@[simp] theorem State.setJob_yard (s : State) (p q) : (State.setJob s p q).yard = s.yard := rfl
@[simp] theorem State.setJob_streams (s : State) (p q) : (State.setJob s p q).streams = s.streams := rfl
@[simp] theorem State.setJob_reds (s : State) (p q) : (State.setJob s p q).reds = s.reds := rfl
@[simp] theorem State.setJob_eth (s : State) (p q) : (State.setJob s p q).eth = s.eth := rfl
@[simp] theorem State.setJob_boot (s : State) (p q) : (State.setJob s p q).boot = s.boot := rfl
@[simp] theorem State.setJob_beats (s : State) (p q) : (State.setJob s p q).beats = s.beats := rfl
@[simp] theorem State.setJob_power (s : State) (p q) : (State.setJob s p q).power = s.power := rfl
@[simp] theorem State.setJob_ldr (s : State) (p q) : (State.setJob s p q).ldr = s.ldr := rfl
@[simp] theorem State.setJob_flt (s : State) (p q) : (State.setJob s p q).flt = s.flt := rfl
@[simp] theorem State.setJob_resets (s : State) (p q) : (State.setJob s p q).resets = s.resets := rfl
@[simp] theorem State.setJob_rng (s : State) (p q) : (State.setJob s p q).rng = s.rng := rfl
@[simp] theorem State.setJob_book (s : State) (p q) : (State.setJob s p q).book = s.book := rfl
@[simp] theorem State.setJob_tallyLast (s : State) (p q) : (State.setJob s p q).tallyLast = s.tallyLast := rfl
@[simp] theorem State.setJob_reg (s : State) (p q) (a) : (State.setJob s p q).reg a = s.reg a := rfl
@[simp] theorem State.setJob_regF (s : State) (p q) (a hi lo) : (State.setJob s p q).regF a hi lo = s.regF a hi lo := rfl
@[simp] theorem State.setJob_cell (s : State) (p q) (a) : (State.setJob s p q).cell a = s.cell a := rfl
@[simp] theorem State.setJob_fm (s : State) (p q) (a) : (State.setJob s p q).fm a = s.fm a := rfl
@[simp] theorem State.setJob_slot (s : State) (p q) (a) : (State.setJob s p q).slot a = s.slot a := rfl
@[simp] theorem State.setJob_router (s : State) (p q) (a) : (State.setJob s p q).router a = s.router a := rfl
@[simp] theorem State.setJob_rgn (s : State) (p q) (a) : (State.setJob s p q).rgn a = s.rgn a := rfl
@[simp] theorem State.setJob_sky (s : State) (p q) (a) : (State.setJob s p q).sky a = s.sky a := rfl
@[simp] theorem State.setJob_stream (s : State) (p q) (a) : (State.setJob s p q).stream a = s.stream a := rfl
@[simp] theorem State.setJob_red (s : State) (p q) (a) : (State.setJob s p q).red a = s.red a := rfl
@[simp] theorem State.setJob_slotOfRegion (s : State) (p q) (a) : (State.setJob s p q).slotOfRegion a = s.slotOfRegion a := rfl
@[simp] theorem State.setJob_win (s : State) (p q) (a) : (State.setJob s p q).win a = s.win a := rfl
@[simp] theorem State.setJob_qp (s : State) (p q) (a) : (State.setJob s p q).qp a = s.qp a := rfl

@[simp] theorem State.setLdr_pending (s : State) (p) : (State.setLdr s p).pending = s.pending := rfl
@[simp] theorem State.setLdr_inFlight (s : State) (p) : (State.setLdr s p).inFlight = s.inFlight := rfl
@[simp] theorem State.setLdr_out (s : State) (p) : (State.setLdr s p).out = s.out := rfl
@[simp] theorem State.setLdr_freeCtr (s : State) (p) : (State.setLdr s p).freeCtr = s.freeCtr := rfl
@[simp] theorem State.setLdr_regs (s : State) (p) : (State.setLdr s p).regs = s.regs := rfl
@[simp] theorem State.setLdr_cells (s : State) (p) : (State.setLdr s p).cells = s.cells := rfl
@[simp] theorem State.setLdr_fms (s : State) (p) : (State.setLdr s p).fms = s.fms := rfl
@[simp] theorem State.setLdr_slots (s : State) (p) : (State.setLdr s p).slots = s.slots := rfl
@[simp] theorem State.setLdr_spares (s : State) (p) : (State.setLdr s p).spares = s.spares := rfl
@[simp] theorem State.setLdr_routers (s : State) (p) : (State.setLdr s p).routers = s.routers := rfl
@[simp] theorem State.setLdr_rgns (s : State) (p) : (State.setLdr s p).rgns = s.rgns := rfl
@[simp] theorem State.setLdr_foreign (s : State) (p) : (State.setLdr s p).foreign = s.foreign := rfl
@[simp] theorem State.setLdr_skys (s : State) (p) : (State.setLdr s p).skys = s.skys := rfl
@[simp] theorem State.setLdr_admission (s : State) (p) : (State.setLdr s p).admission = s.admission := rfl
@[simp] theorem State.setLdr_eras (s : State) (p) : (State.setLdr s p).eras = s.eras := rfl
@[simp] theorem State.setLdr_nap (s : State) (p) : (State.setLdr s p).nap = s.nap := rfl
@[simp] theorem State.setLdr_tilesHeld (s : State) (p) : (State.setLdr s p).tilesHeld = s.tilesHeld := rfl
@[simp] theorem State.setLdr_tiers (s : State) (p) : (State.setLdr s p).tiers = s.tiers := rfl
@[simp] theorem State.setLdr_yard (s : State) (p) : (State.setLdr s p).yard = s.yard := rfl
@[simp] theorem State.setLdr_streams (s : State) (p) : (State.setLdr s p).streams = s.streams := rfl
@[simp] theorem State.setLdr_reds (s : State) (p) : (State.setLdr s p).reds = s.reds := rfl
@[simp] theorem State.setLdr_eth (s : State) (p) : (State.setLdr s p).eth = s.eth := rfl
@[simp] theorem State.setLdr_boot (s : State) (p) : (State.setLdr s p).boot = s.boot := rfl
@[simp] theorem State.setLdr_beats (s : State) (p) : (State.setLdr s p).beats = s.beats := rfl
@[simp] theorem State.setLdr_power (s : State) (p) : (State.setLdr s p).power = s.power := rfl
@[simp] theorem State.setLdr_flt (s : State) (p) : (State.setLdr s p).flt = s.flt := rfl
@[simp] theorem State.setLdr_jobs (s : State) (p) : (State.setLdr s p).jobs = s.jobs := rfl
@[simp] theorem State.setLdr_resets (s : State) (p) : (State.setLdr s p).resets = s.resets := rfl
@[simp] theorem State.setLdr_rng (s : State) (p) : (State.setLdr s p).rng = s.rng := rfl
@[simp] theorem State.setLdr_book (s : State) (p) : (State.setLdr s p).book = s.book := rfl
@[simp] theorem State.setLdr_tallyLast (s : State) (p) : (State.setLdr s p).tallyLast = s.tallyLast := rfl
@[simp] theorem State.setLdr_reg (s : State) (p) (a) : (State.setLdr s p).reg a = s.reg a := rfl
@[simp] theorem State.setLdr_regF (s : State) (p) (a hi lo) : (State.setLdr s p).regF a hi lo = s.regF a hi lo := rfl
@[simp] theorem State.setLdr_cell (s : State) (p) (a) : (State.setLdr s p).cell a = s.cell a := rfl
@[simp] theorem State.setLdr_fm (s : State) (p) (a) : (State.setLdr s p).fm a = s.fm a := rfl
@[simp] theorem State.setLdr_slot (s : State) (p) (a) : (State.setLdr s p).slot a = s.slot a := rfl
@[simp] theorem State.setLdr_router (s : State) (p) (a) : (State.setLdr s p).router a = s.router a := rfl
@[simp] theorem State.setLdr_rgn (s : State) (p) (a) : (State.setLdr s p).rgn a = s.rgn a := rfl
@[simp] theorem State.setLdr_sky (s : State) (p) (a) : (State.setLdr s p).sky a = s.sky a := rfl
@[simp] theorem State.setLdr_stream (s : State) (p) (a) : (State.setLdr s p).stream a = s.stream a := rfl
@[simp] theorem State.setLdr_red (s : State) (p) (a) : (State.setLdr s p).red a = s.red a := rfl
@[simp] theorem State.setLdr_job (s : State) (p) (a) : (State.setLdr s p).job a = s.job a := rfl
@[simp] theorem State.setLdr_slotOfRegion (s : State) (p) (a) : (State.setLdr s p).slotOfRegion a = s.slotOfRegion a := rfl
@[simp] theorem State.setLdr_win (s : State) (p) (a) : (State.setLdr s p).win a = s.win a := rfl
@[simp] theorem State.setLdr_qp (s : State) (p) (a) : (State.setLdr s p).qp a = s.qp a := rfl

@[simp] theorem State.modLdr_pending (s : State) (p) : (State.modLdr s p).pending = s.pending := rfl
@[simp] theorem State.modLdr_inFlight (s : State) (p) : (State.modLdr s p).inFlight = s.inFlight := rfl
@[simp] theorem State.modLdr_out (s : State) (p) : (State.modLdr s p).out = s.out := rfl
@[simp] theorem State.modLdr_freeCtr (s : State) (p) : (State.modLdr s p).freeCtr = s.freeCtr := rfl
@[simp] theorem State.modLdr_regs (s : State) (p) : (State.modLdr s p).regs = s.regs := rfl
@[simp] theorem State.modLdr_cells (s : State) (p) : (State.modLdr s p).cells = s.cells := rfl
@[simp] theorem State.modLdr_fms (s : State) (p) : (State.modLdr s p).fms = s.fms := rfl
@[simp] theorem State.modLdr_slots (s : State) (p) : (State.modLdr s p).slots = s.slots := rfl
@[simp] theorem State.modLdr_spares (s : State) (p) : (State.modLdr s p).spares = s.spares := rfl
@[simp] theorem State.modLdr_routers (s : State) (p) : (State.modLdr s p).routers = s.routers := rfl
@[simp] theorem State.modLdr_rgns (s : State) (p) : (State.modLdr s p).rgns = s.rgns := rfl
@[simp] theorem State.modLdr_foreign (s : State) (p) : (State.modLdr s p).foreign = s.foreign := rfl
@[simp] theorem State.modLdr_skys (s : State) (p) : (State.modLdr s p).skys = s.skys := rfl
@[simp] theorem State.modLdr_admission (s : State) (p) : (State.modLdr s p).admission = s.admission := rfl
@[simp] theorem State.modLdr_eras (s : State) (p) : (State.modLdr s p).eras = s.eras := rfl
@[simp] theorem State.modLdr_nap (s : State) (p) : (State.modLdr s p).nap = s.nap := rfl
@[simp] theorem State.modLdr_tilesHeld (s : State) (p) : (State.modLdr s p).tilesHeld = s.tilesHeld := rfl
@[simp] theorem State.modLdr_tiers (s : State) (p) : (State.modLdr s p).tiers = s.tiers := rfl
@[simp] theorem State.modLdr_yard (s : State) (p) : (State.modLdr s p).yard = s.yard := rfl
@[simp] theorem State.modLdr_streams (s : State) (p) : (State.modLdr s p).streams = s.streams := rfl
@[simp] theorem State.modLdr_reds (s : State) (p) : (State.modLdr s p).reds = s.reds := rfl
@[simp] theorem State.modLdr_eth (s : State) (p) : (State.modLdr s p).eth = s.eth := rfl
@[simp] theorem State.modLdr_boot (s : State) (p) : (State.modLdr s p).boot = s.boot := rfl
@[simp] theorem State.modLdr_beats (s : State) (p) : (State.modLdr s p).beats = s.beats := rfl
@[simp] theorem State.modLdr_power (s : State) (p) : (State.modLdr s p).power = s.power := rfl
@[simp] theorem State.modLdr_flt (s : State) (p) : (State.modLdr s p).flt = s.flt := rfl
@[simp] theorem State.modLdr_jobs (s : State) (p) : (State.modLdr s p).jobs = s.jobs := rfl
@[simp] theorem State.modLdr_resets (s : State) (p) : (State.modLdr s p).resets = s.resets := rfl
@[simp] theorem State.modLdr_rng (s : State) (p) : (State.modLdr s p).rng = s.rng := rfl
@[simp] theorem State.modLdr_book (s : State) (p) : (State.modLdr s p).book = s.book := rfl
@[simp] theorem State.modLdr_tallyLast (s : State) (p) : (State.modLdr s p).tallyLast = s.tallyLast := rfl
@[simp] theorem State.modLdr_reg (s : State) (p) (a) : (State.modLdr s p).reg a = s.reg a := rfl
@[simp] theorem State.modLdr_regF (s : State) (p) (a hi lo) : (State.modLdr s p).regF a hi lo = s.regF a hi lo := rfl
@[simp] theorem State.modLdr_cell (s : State) (p) (a) : (State.modLdr s p).cell a = s.cell a := rfl
@[simp] theorem State.modLdr_fm (s : State) (p) (a) : (State.modLdr s p).fm a = s.fm a := rfl
@[simp] theorem State.modLdr_slot (s : State) (p) (a) : (State.modLdr s p).slot a = s.slot a := rfl
@[simp] theorem State.modLdr_router (s : State) (p) (a) : (State.modLdr s p).router a = s.router a := rfl
@[simp] theorem State.modLdr_rgn (s : State) (p) (a) : (State.modLdr s p).rgn a = s.rgn a := rfl
@[simp] theorem State.modLdr_sky (s : State) (p) (a) : (State.modLdr s p).sky a = s.sky a := rfl
@[simp] theorem State.modLdr_stream (s : State) (p) (a) : (State.modLdr s p).stream a = s.stream a := rfl
@[simp] theorem State.modLdr_red (s : State) (p) (a) : (State.modLdr s p).red a = s.red a := rfl
@[simp] theorem State.modLdr_job (s : State) (p) (a) : (State.modLdr s p).job a = s.job a := rfl
@[simp] theorem State.modLdr_slotOfRegion (s : State) (p) (a) : (State.modLdr s p).slotOfRegion a = s.slotOfRegion a := rfl
@[simp] theorem State.modLdr_win (s : State) (p) (a) : (State.modLdr s p).win a = s.win a := rfl
@[simp] theorem State.modLdr_qp (s : State) (p) (a) : (State.modLdr s p).qp a = s.qp a := rfl

@[simp] theorem State.setWin_pending (s : State) (p q) : (State.setWin s p q).pending = s.pending := rfl
@[simp] theorem State.setWin_inFlight (s : State) (p q) : (State.setWin s p q).inFlight = s.inFlight := rfl
@[simp] theorem State.setWin_out (s : State) (p q) : (State.setWin s p q).out = s.out := rfl
@[simp] theorem State.setWin_freeCtr (s : State) (p q) : (State.setWin s p q).freeCtr = s.freeCtr := rfl
@[simp] theorem State.setWin_regs (s : State) (p q) : (State.setWin s p q).regs = s.regs := rfl
@[simp] theorem State.setWin_cells (s : State) (p q) : (State.setWin s p q).cells = s.cells := rfl
@[simp] theorem State.setWin_fms (s : State) (p q) : (State.setWin s p q).fms = s.fms := rfl
@[simp] theorem State.setWin_slots (s : State) (p q) : (State.setWin s p q).slots = s.slots := rfl
@[simp] theorem State.setWin_spares (s : State) (p q) : (State.setWin s p q).spares = s.spares := rfl
@[simp] theorem State.setWin_routers (s : State) (p q) : (State.setWin s p q).routers = s.routers := rfl
@[simp] theorem State.setWin_rgns (s : State) (p q) : (State.setWin s p q).rgns = s.rgns := rfl
@[simp] theorem State.setWin_foreign (s : State) (p q) : (State.setWin s p q).foreign = s.foreign := rfl
@[simp] theorem State.setWin_skys (s : State) (p q) : (State.setWin s p q).skys = s.skys := rfl
@[simp] theorem State.setWin_admission (s : State) (p q) : (State.setWin s p q).admission = s.admission := rfl
@[simp] theorem State.setWin_eras (s : State) (p q) : (State.setWin s p q).eras = s.eras := rfl
@[simp] theorem State.setWin_nap (s : State) (p q) : (State.setWin s p q).nap = s.nap := rfl
@[simp] theorem State.setWin_tilesHeld (s : State) (p q) : (State.setWin s p q).tilesHeld = s.tilesHeld := rfl
@[simp] theorem State.setWin_tiers (s : State) (p q) : (State.setWin s p q).tiers = s.tiers := rfl
@[simp] theorem State.setWin_yard (s : State) (p q) : (State.setWin s p q).yard = s.yard := rfl
@[simp] theorem State.setWin_streams (s : State) (p q) : (State.setWin s p q).streams = s.streams := rfl
@[simp] theorem State.setWin_reds (s : State) (p q) : (State.setWin s p q).reds = s.reds := rfl
@[simp] theorem State.setWin_boot (s : State) (p q) : (State.setWin s p q).boot = s.boot := rfl
@[simp] theorem State.setWin_beats (s : State) (p q) : (State.setWin s p q).beats = s.beats := rfl
@[simp] theorem State.setWin_power (s : State) (p q) : (State.setWin s p q).power = s.power := rfl
@[simp] theorem State.setWin_ldr (s : State) (p q) : (State.setWin s p q).ldr = s.ldr := rfl
@[simp] theorem State.setWin_flt (s : State) (p q) : (State.setWin s p q).flt = s.flt := rfl
@[simp] theorem State.setWin_jobs (s : State) (p q) : (State.setWin s p q).jobs = s.jobs := rfl
@[simp] theorem State.setWin_resets (s : State) (p q) : (State.setWin s p q).resets = s.resets := rfl
@[simp] theorem State.setWin_rng (s : State) (p q) : (State.setWin s p q).rng = s.rng := rfl
@[simp] theorem State.setWin_book (s : State) (p q) : (State.setWin s p q).book = s.book := rfl
@[simp] theorem State.setWin_tallyLast (s : State) (p q) : (State.setWin s p q).tallyLast = s.tallyLast := rfl
@[simp] theorem State.setWin_reg (s : State) (p q) (a) : (State.setWin s p q).reg a = s.reg a := rfl
@[simp] theorem State.setWin_regF (s : State) (p q) (a hi lo) : (State.setWin s p q).regF a hi lo = s.regF a hi lo := rfl
@[simp] theorem State.setWin_cell (s : State) (p q) (a) : (State.setWin s p q).cell a = s.cell a := rfl
@[simp] theorem State.setWin_fm (s : State) (p q) (a) : (State.setWin s p q).fm a = s.fm a := rfl
@[simp] theorem State.setWin_slot (s : State) (p q) (a) : (State.setWin s p q).slot a = s.slot a := rfl
@[simp] theorem State.setWin_router (s : State) (p q) (a) : (State.setWin s p q).router a = s.router a := rfl
@[simp] theorem State.setWin_rgn (s : State) (p q) (a) : (State.setWin s p q).rgn a = s.rgn a := rfl
@[simp] theorem State.setWin_sky (s : State) (p q) (a) : (State.setWin s p q).sky a = s.sky a := rfl
@[simp] theorem State.setWin_stream (s : State) (p q) (a) : (State.setWin s p q).stream a = s.stream a := rfl
@[simp] theorem State.setWin_red (s : State) (p q) (a) : (State.setWin s p q).red a = s.red a := rfl
@[simp] theorem State.setWin_job (s : State) (p q) (a) : (State.setWin s p q).job a = s.job a := rfl
@[simp] theorem State.setWin_slotOfRegion (s : State) (p q) (a) : (State.setWin s p q).slotOfRegion a = s.slotOfRegion a := rfl

@[simp] theorem State.setQp_pending (s : State) (p q) : (State.setQp s p q).pending = s.pending := rfl
@[simp] theorem State.setQp_inFlight (s : State) (p q) : (State.setQp s p q).inFlight = s.inFlight := rfl
@[simp] theorem State.setQp_out (s : State) (p q) : (State.setQp s p q).out = s.out := rfl
@[simp] theorem State.setQp_freeCtr (s : State) (p q) : (State.setQp s p q).freeCtr = s.freeCtr := rfl
@[simp] theorem State.setQp_regs (s : State) (p q) : (State.setQp s p q).regs = s.regs := rfl
@[simp] theorem State.setQp_cells (s : State) (p q) : (State.setQp s p q).cells = s.cells := rfl
@[simp] theorem State.setQp_fms (s : State) (p q) : (State.setQp s p q).fms = s.fms := rfl
@[simp] theorem State.setQp_slots (s : State) (p q) : (State.setQp s p q).slots = s.slots := rfl
@[simp] theorem State.setQp_spares (s : State) (p q) : (State.setQp s p q).spares = s.spares := rfl
@[simp] theorem State.setQp_routers (s : State) (p q) : (State.setQp s p q).routers = s.routers := rfl
@[simp] theorem State.setQp_rgns (s : State) (p q) : (State.setQp s p q).rgns = s.rgns := rfl
@[simp] theorem State.setQp_foreign (s : State) (p q) : (State.setQp s p q).foreign = s.foreign := rfl
@[simp] theorem State.setQp_skys (s : State) (p q) : (State.setQp s p q).skys = s.skys := rfl
@[simp] theorem State.setQp_admission (s : State) (p q) : (State.setQp s p q).admission = s.admission := rfl
@[simp] theorem State.setQp_eras (s : State) (p q) : (State.setQp s p q).eras = s.eras := rfl
@[simp] theorem State.setQp_nap (s : State) (p q) : (State.setQp s p q).nap = s.nap := rfl
@[simp] theorem State.setQp_tilesHeld (s : State) (p q) : (State.setQp s p q).tilesHeld = s.tilesHeld := rfl
@[simp] theorem State.setQp_tiers (s : State) (p q) : (State.setQp s p q).tiers = s.tiers := rfl
@[simp] theorem State.setQp_yard (s : State) (p q) : (State.setQp s p q).yard = s.yard := rfl
@[simp] theorem State.setQp_streams (s : State) (p q) : (State.setQp s p q).streams = s.streams := rfl
@[simp] theorem State.setQp_reds (s : State) (p q) : (State.setQp s p q).reds = s.reds := rfl
@[simp] theorem State.setQp_boot (s : State) (p q) : (State.setQp s p q).boot = s.boot := rfl
@[simp] theorem State.setQp_beats (s : State) (p q) : (State.setQp s p q).beats = s.beats := rfl
@[simp] theorem State.setQp_power (s : State) (p q) : (State.setQp s p q).power = s.power := rfl
@[simp] theorem State.setQp_ldr (s : State) (p q) : (State.setQp s p q).ldr = s.ldr := rfl
@[simp] theorem State.setQp_flt (s : State) (p q) : (State.setQp s p q).flt = s.flt := rfl
@[simp] theorem State.setQp_jobs (s : State) (p q) : (State.setQp s p q).jobs = s.jobs := rfl
@[simp] theorem State.setQp_resets (s : State) (p q) : (State.setQp s p q).resets = s.resets := rfl
@[simp] theorem State.setQp_rng (s : State) (p q) : (State.setQp s p q).rng = s.rng := rfl
@[simp] theorem State.setQp_book (s : State) (p q) : (State.setQp s p q).book = s.book := rfl
@[simp] theorem State.setQp_tallyLast (s : State) (p q) : (State.setQp s p q).tallyLast = s.tallyLast := rfl
@[simp] theorem State.setQp_reg (s : State) (p q) (a) : (State.setQp s p q).reg a = s.reg a := rfl
@[simp] theorem State.setQp_regF (s : State) (p q) (a hi lo) : (State.setQp s p q).regF a hi lo = s.regF a hi lo := rfl
@[simp] theorem State.setQp_cell (s : State) (p q) (a) : (State.setQp s p q).cell a = s.cell a := rfl
@[simp] theorem State.setQp_fm (s : State) (p q) (a) : (State.setQp s p q).fm a = s.fm a := rfl
@[simp] theorem State.setQp_slot (s : State) (p q) (a) : (State.setQp s p q).slot a = s.slot a := rfl
@[simp] theorem State.setQp_router (s : State) (p q) (a) : (State.setQp s p q).router a = s.router a := rfl
@[simp] theorem State.setQp_rgn (s : State) (p q) (a) : (State.setQp s p q).rgn a = s.rgn a := rfl
@[simp] theorem State.setQp_sky (s : State) (p q) (a) : (State.setQp s p q).sky a = s.sky a := rfl
@[simp] theorem State.setQp_stream (s : State) (p q) (a) : (State.setQp s p q).stream a = s.stream a := rfl
@[simp] theorem State.setQp_red (s : State) (p q) (a) : (State.setQp s p q).red a = s.red a := rfl
@[simp] theorem State.setQp_job (s : State) (p q) (a) : (State.setQp s p q).job a = s.job a := rfl
@[simp] theorem State.setQp_slotOfRegion (s : State) (p q) (a) : (State.setQp s p q).slotOfRegion a = s.slotOfRegion a := rfl

@[simp] theorem State.setObj_pending (s : State) (p q) : (State.setObj s p q).pending = s.pending := rfl
@[simp] theorem State.setObj_inFlight (s : State) (p q) : (State.setObj s p q).inFlight = s.inFlight := rfl
@[simp] theorem State.setObj_out (s : State) (p q) : (State.setObj s p q).out = s.out := rfl
@[simp] theorem State.setObj_freeCtr (s : State) (p q) : (State.setObj s p q).freeCtr = s.freeCtr := rfl
@[simp] theorem State.setObj_regs (s : State) (p q) : (State.setObj s p q).regs = s.regs := rfl
@[simp] theorem State.setObj_cells (s : State) (p q) : (State.setObj s p q).cells = s.cells := rfl
@[simp] theorem State.setObj_fms (s : State) (p q) : (State.setObj s p q).fms = s.fms := rfl
@[simp] theorem State.setObj_slots (s : State) (p q) : (State.setObj s p q).slots = s.slots := rfl
@[simp] theorem State.setObj_spares (s : State) (p q) : (State.setObj s p q).spares = s.spares := rfl
@[simp] theorem State.setObj_routers (s : State) (p q) : (State.setObj s p q).routers = s.routers := rfl
@[simp] theorem State.setObj_rgns (s : State) (p q) : (State.setObj s p q).rgns = s.rgns := rfl
@[simp] theorem State.setObj_foreign (s : State) (p q) : (State.setObj s p q).foreign = s.foreign := rfl
@[simp] theorem State.setObj_skys (s : State) (p q) : (State.setObj s p q).skys = s.skys := rfl
@[simp] theorem State.setObj_admission (s : State) (p q) : (State.setObj s p q).admission = s.admission := rfl
@[simp] theorem State.setObj_eras (s : State) (p q) : (State.setObj s p q).eras = s.eras := rfl
@[simp] theorem State.setObj_nap (s : State) (p q) : (State.setObj s p q).nap = s.nap := rfl
@[simp] theorem State.setObj_tilesHeld (s : State) (p q) : (State.setObj s p q).tilesHeld = s.tilesHeld := rfl
@[simp] theorem State.setObj_tiers (s : State) (p q) : (State.setObj s p q).tiers = s.tiers := rfl
@[simp] theorem State.setObj_streams (s : State) (p q) : (State.setObj s p q).streams = s.streams := rfl
@[simp] theorem State.setObj_reds (s : State) (p q) : (State.setObj s p q).reds = s.reds := rfl
@[simp] theorem State.setObj_eth (s : State) (p q) : (State.setObj s p q).eth = s.eth := rfl
@[simp] theorem State.setObj_boot (s : State) (p q) : (State.setObj s p q).boot = s.boot := rfl
@[simp] theorem State.setObj_beats (s : State) (p q) : (State.setObj s p q).beats = s.beats := rfl
@[simp] theorem State.setObj_power (s : State) (p q) : (State.setObj s p q).power = s.power := rfl
@[simp] theorem State.setObj_ldr (s : State) (p q) : (State.setObj s p q).ldr = s.ldr := rfl
@[simp] theorem State.setObj_flt (s : State) (p q) : (State.setObj s p q).flt = s.flt := rfl
@[simp] theorem State.setObj_jobs (s : State) (p q) : (State.setObj s p q).jobs = s.jobs := rfl
@[simp] theorem State.setObj_resets (s : State) (p q) : (State.setObj s p q).resets = s.resets := rfl
@[simp] theorem State.setObj_rng (s : State) (p q) : (State.setObj s p q).rng = s.rng := rfl
@[simp] theorem State.setObj_book (s : State) (p q) : (State.setObj s p q).book = s.book := rfl
@[simp] theorem State.setObj_tallyLast (s : State) (p q) : (State.setObj s p q).tallyLast = s.tallyLast := rfl
@[simp] theorem State.setObj_reg (s : State) (p q) (a) : (State.setObj s p q).reg a = s.reg a := rfl
@[simp] theorem State.setObj_regF (s : State) (p q) (a hi lo) : (State.setObj s p q).regF a hi lo = s.regF a hi lo := rfl
@[simp] theorem State.setObj_cell (s : State) (p q) (a) : (State.setObj s p q).cell a = s.cell a := rfl
@[simp] theorem State.setObj_fm (s : State) (p q) (a) : (State.setObj s p q).fm a = s.fm a := rfl
@[simp] theorem State.setObj_slot (s : State) (p q) (a) : (State.setObj s p q).slot a = s.slot a := rfl
@[simp] theorem State.setObj_router (s : State) (p q) (a) : (State.setObj s p q).router a = s.router a := rfl
@[simp] theorem State.setObj_rgn (s : State) (p q) (a) : (State.setObj s p q).rgn a = s.rgn a := rfl
@[simp] theorem State.setObj_sky (s : State) (p q) (a) : (State.setObj s p q).sky a = s.sky a := rfl
@[simp] theorem State.setObj_stream (s : State) (p q) (a) : (State.setObj s p q).stream a = s.stream a := rfl
@[simp] theorem State.setObj_red (s : State) (p q) (a) : (State.setObj s p q).red a = s.red a := rfl
@[simp] theorem State.setObj_job (s : State) (p q) (a) : (State.setObj s p q).job a = s.job a := rfl
@[simp] theorem State.setObj_slotOfRegion (s : State) (p q) (a) : (State.setObj s p q).slotOfRegion a = s.slotOfRegion a := rfl
@[simp] theorem State.setObj_win (s : State) (p q) (a) : (State.setObj s p q).win a = s.win a := rfl
@[simp] theorem State.setObj_qp (s : State) (p q) (a) : (State.setObj s p q).qp a = s.qp a := rfl

@[simp] theorem State.tagged_pending (s : State) (p q) : (State.tagged s p q).pending = s.pending := rfl
@[simp] theorem State.tagged_out (s : State) (p q) : (State.tagged s p q).out = s.out := rfl
@[simp] theorem State.tagged_freeCtr (s : State) (p q) : (State.tagged s p q).freeCtr = s.freeCtr := rfl
@[simp] theorem State.tagged_regs (s : State) (p q) : (State.tagged s p q).regs = s.regs := rfl
@[simp] theorem State.tagged_cells (s : State) (p q) : (State.tagged s p q).cells = s.cells := rfl
@[simp] theorem State.tagged_fms (s : State) (p q) : (State.tagged s p q).fms = s.fms := rfl
@[simp] theorem State.tagged_slots (s : State) (p q) : (State.tagged s p q).slots = s.slots := rfl
@[simp] theorem State.tagged_spares (s : State) (p q) : (State.tagged s p q).spares = s.spares := rfl
@[simp] theorem State.tagged_routers (s : State) (p q) : (State.tagged s p q).routers = s.routers := rfl
@[simp] theorem State.tagged_rgns (s : State) (p q) : (State.tagged s p q).rgns = s.rgns := rfl
@[simp] theorem State.tagged_foreign (s : State) (p q) : (State.tagged s p q).foreign = s.foreign := rfl
@[simp] theorem State.tagged_skys (s : State) (p q) : (State.tagged s p q).skys = s.skys := rfl
@[simp] theorem State.tagged_admission (s : State) (p q) : (State.tagged s p q).admission = s.admission := rfl
@[simp] theorem State.tagged_eras (s : State) (p q) : (State.tagged s p q).eras = s.eras := rfl
@[simp] theorem State.tagged_nap (s : State) (p q) : (State.tagged s p q).nap = s.nap := rfl
@[simp] theorem State.tagged_tilesHeld (s : State) (p q) : (State.tagged s p q).tilesHeld = s.tilesHeld := rfl
@[simp] theorem State.tagged_tiers (s : State) (p q) : (State.tagged s p q).tiers = s.tiers := rfl
@[simp] theorem State.tagged_yard (s : State) (p q) : (State.tagged s p q).yard = s.yard := rfl
@[simp] theorem State.tagged_streams (s : State) (p q) : (State.tagged s p q).streams = s.streams := rfl
@[simp] theorem State.tagged_reds (s : State) (p q) : (State.tagged s p q).reds = s.reds := rfl
@[simp] theorem State.tagged_eth (s : State) (p q) : (State.tagged s p q).eth = s.eth := rfl
@[simp] theorem State.tagged_boot (s : State) (p q) : (State.tagged s p q).boot = s.boot := rfl
@[simp] theorem State.tagged_beats (s : State) (p q) : (State.tagged s p q).beats = s.beats := rfl
@[simp] theorem State.tagged_power (s : State) (p q) : (State.tagged s p q).power = s.power := rfl
@[simp] theorem State.tagged_ldr (s : State) (p q) : (State.tagged s p q).ldr = s.ldr := rfl
@[simp] theorem State.tagged_flt (s : State) (p q) : (State.tagged s p q).flt = s.flt := rfl
@[simp] theorem State.tagged_jobs (s : State) (p q) : (State.tagged s p q).jobs = s.jobs := rfl
@[simp] theorem State.tagged_resets (s : State) (p q) : (State.tagged s p q).resets = s.resets := rfl
@[simp] theorem State.tagged_rng (s : State) (p q) : (State.tagged s p q).rng = s.rng := rfl
@[simp] theorem State.tagged_book (s : State) (p q) : (State.tagged s p q).book = s.book := rfl
@[simp] theorem State.tagged_tallyLast (s : State) (p q) : (State.tagged s p q).tallyLast = s.tallyLast := rfl
@[simp] theorem State.tagged_reg (s : State) (p q) (a) : (State.tagged s p q).reg a = s.reg a := rfl
@[simp] theorem State.tagged_regF (s : State) (p q) (a hi lo) : (State.tagged s p q).regF a hi lo = s.regF a hi lo := rfl
@[simp] theorem State.tagged_cell (s : State) (p q) (a) : (State.tagged s p q).cell a = s.cell a := rfl
@[simp] theorem State.tagged_fm (s : State) (p q) (a) : (State.tagged s p q).fm a = s.fm a := rfl
@[simp] theorem State.tagged_slot (s : State) (p q) (a) : (State.tagged s p q).slot a = s.slot a := rfl
@[simp] theorem State.tagged_router (s : State) (p q) (a) : (State.tagged s p q).router a = s.router a := rfl
@[simp] theorem State.tagged_rgn (s : State) (p q) (a) : (State.tagged s p q).rgn a = s.rgn a := rfl
@[simp] theorem State.tagged_sky (s : State) (p q) (a) : (State.tagged s p q).sky a = s.sky a := rfl
@[simp] theorem State.tagged_stream (s : State) (p q) (a) : (State.tagged s p q).stream a = s.stream a := rfl
@[simp] theorem State.tagged_red (s : State) (p q) (a) : (State.tagged s p q).red a = s.red a := rfl
@[simp] theorem State.tagged_job (s : State) (p q) (a) : (State.tagged s p q).job a = s.job a := rfl
@[simp] theorem State.tagged_slotOfRegion (s : State) (p q) (a) : (State.tagged s p q).slotOfRegion a = s.slotOfRegion a := rfl
@[simp] theorem State.tagged_win (s : State) (p q) (a) : (State.tagged s p q).win a = s.win a := rfl
@[simp] theorem State.tagged_qp (s : State) (p q) (a) : (State.tagged s p q).qp a = s.qp a := rfl

/-! ## What the updates put in -/

@[simp] theorem State.send_inFlight (s : State) (m : Instr) : (s.send m).inFlight = s.inFlight ++ [m] := rfl
@[simp] theorem State.sendAll_inFlight (s : State) (ms : List Instr) : (s.sendAll ms).inFlight = s.inFlight ++ ms := rfl
@[simp] theorem State.deliver_inFlight (s : State) (m : Instr) : (s.deliver m).inFlight = s.inFlight.erase m := rfl
@[simp] theorem State.emit_out (s : State) (e : Emission) : (s.emit e).out = s.out ++ [e] := rfl
@[simp] theorem State.raise_inFlight (s : State) (code : Nat) (slot : Option Nat) (unit detail position : Nat) :
    (s.raise code slot unit detail position).inFlight = s.inFlight ++ [.faultNotice ⟨code, slot, unit, detail, position⟩] := rfl
@[simp] theorem State.reject_inFlight (s : State) (slot : Option Nat) (unit : Nat) :
    (s.reject slot unit).inFlight = s.inFlight ++ [.faultNotice ⟨0x4071, slot, unit, 0, 15⟩] := rfl
@[simp] theorem State.setBeat_beats (s : State) (x) : (s.setBeat x).beats = x := rfl
@[simp] theorem State.setPower_power (s : State) (x) : (s.setPower x).power = x := rfl
@[simp] theorem State.setBook_book (s : State) (x) : (s.setBook x).book = x := rfl
@[simp] theorem State.setFlt_flt (s : State) (x) : (s.setFlt x).flt = x := rfl
@[simp] theorem State.setBoot_boot (s : State) (x) : (s.setBoot x).boot = x := rfl
@[simp] theorem State.setRng_rng (s : State) (x) : (s.setRng x).rng = x := rfl
@[simp] theorem State.setLdr_ldr (s : State) (x) : (s.setLdr x).ldr = x := rfl

end Sys2Proof.Machine
end

