-- ==== Sys2Proof/Laws/Touch.lean ====
section
/-! SUPPORT. Which pieces of State each operation and each command may change: with the pieces of its mask blurred, the state is
the same before and after. One lemma for each operation and each command. Bit i of a mask stands for the i-th field of State. -/

namespace Sys2Proof.Machine
set_option linter.unusedSimpArgs false
set_option linter.unusedVariables false
set_option linter.unreachableTactic false
set_option linter.unusedTactic false
open Sys2Proof

/-- The state with the pieces of a mask put back to their reset values. -/
def State.blur (μ : Nat) (s : State) : State :=
  { pending := if μ.testBit 0 then [] else s.pending,
    inFlight := if μ.testBit 1 then [] else s.inFlight,
    out := if μ.testBit 2 then [] else s.out,
    freeCtr := if μ.testBit 3 then 0 else s.freeCtr,
    regs := if μ.testBit 4 then [] else s.regs,
    cells := if μ.testBit 5 then [] else s.cells,
    fms := if μ.testBit 6 then [] else s.fms,
    slots := if μ.testBit 7 then [] else s.slots,
    spares := if μ.testBit 8 then [] else s.spares,
    routers := if μ.testBit 9 then [] else s.routers,
    rgns := if μ.testBit 10 then [] else s.rgns,
    foreign := if μ.testBit 11 then [] else s.foreign,
    skys := if μ.testBit 12 then [] else s.skys,
    admission := if μ.testBit 13 then .reset else s.admission,
    eras := if μ.testBit 14 then [] else s.eras,
    nap := if μ.testBit 15 then none else s.nap,
    tilesHeld := if μ.testBit 16 then [] else s.tilesHeld,
    tiers := if μ.testBit 17 then .reset else s.tiers,
    yard := if μ.testBit 18 then .reset else s.yard,
    streams := if μ.testBit 19 then [] else s.streams,
    reds := if μ.testBit 20 then [] else s.reds,
    eth := if μ.testBit 21 then .reset else s.eth,
    boot := if μ.testBit 22 then .reset else s.boot,
    beats := if μ.testBit 23 then .reset else s.beats,
    power := if μ.testBit 24 then .reset else s.power,
    ldr := if μ.testBit 25 then .reset else s.ldr,
    flt := if μ.testBit 26 then .reset else s.flt,
    jobs := if μ.testBit 27 then [] else s.jobs,
    resets := if μ.testBit 28 then [] else s.resets,
    rng := if μ.testBit 29 then .reset else s.rng,
    book := if μ.testBit 30 then .reset else s.book,
    tallyLast := if μ.testBit 31 then [] else s.tallyLast }

theorem maskSub {a b μ : Nat} (h : a &&& b = a) (k : b &&& μ = b) : a &&& μ = a := by
  rw [← h, Nat.and_assoc, k]

theorem maskBit {a μ i : Nat} (h : a &&& μ = a) (k : a.testBit i = true) : μ.testBit i = true := by
  rw [← h, Nat.testBit_and] at k
  simp only [Bool.and_eq_true] at k
  exact k.2

theorem foldl_blur (μ : Nat) {β : Type} (g : State → β → State) (h : ∀ s x, (g s x).blur μ = s.blur μ) :
    ∀ (l : List β) (s : State), (l.foldl g s).blur μ = s.blur μ := by
  intro l
  induction l with
  | nil => intro s; rfl
  | cons x t ih => intro s; simp only [List.foldl_cons, ih, h]

theorem foldl1_blur (μ : Nat) {β γ : Type} (g : State × γ → β → State × γ) (h : ∀ p x, (g p x).1.blur μ = p.1.blur μ) :
    ∀ (l : List β) (p : State × γ), (l.foldl g p).1.blur μ = p.1.blur μ := by
  intro l
  induction l with
  | nil => intro s; rfl
  | cons x t ih => intro s; simp only [List.foldl_cons, ih, h]

theorem blur_1 (μ : Nat) (hμ : 0x1 &&& μ = 0x1) (s : State) (a0) : State.blur μ
    ⟨a0, s.inFlight, s.out, s.freeCtr, s.regs, s.cells, s.fms, s.slots, s.spares, s.routers, s.rgns, s.foreign, s.skys, s.admission, s.eras, s.nap, s.tilesHeld, s.tiers, s.yard, s.streams, s.reds, s.eth, s.boot, s.beats, s.power, s.ldr, s.flt, s.jobs, s.resets, s.rng, s.book, s.tallyLast⟩ = s.blur μ := by
  simp only [State.blur, maskBit (i := 0) hμ rfl, if_true]
theorem blur_2 (μ : Nat) (hμ : 0x2 &&& μ = 0x2) (s : State) (a1) : State.blur μ
    ⟨s.pending, a1, s.out, s.freeCtr, s.regs, s.cells, s.fms, s.slots, s.spares, s.routers, s.rgns, s.foreign, s.skys, s.admission, s.eras, s.nap, s.tilesHeld, s.tiers, s.yard, s.streams, s.reds, s.eth, s.boot, s.beats, s.power, s.ldr, s.flt, s.jobs, s.resets, s.rng, s.book, s.tallyLast⟩ = s.blur μ := by
  simp only [State.blur, maskBit (i := 1) hμ rfl, if_true]
theorem blur_4 (μ : Nat) (hμ : 0x4 &&& μ = 0x4) (s : State) (a2) : State.blur μ
    ⟨s.pending, s.inFlight, a2, s.freeCtr, s.regs, s.cells, s.fms, s.slots, s.spares, s.routers, s.rgns, s.foreign, s.skys, s.admission, s.eras, s.nap, s.tilesHeld, s.tiers, s.yard, s.streams, s.reds, s.eth, s.boot, s.beats, s.power, s.ldr, s.flt, s.jobs, s.resets, s.rng, s.book, s.tallyLast⟩ = s.blur μ := by
  simp only [State.blur, maskBit (i := 2) hμ rfl, if_true]
theorem blur_8 (μ : Nat) (hμ : 0x8 &&& μ = 0x8) (s : State) (a3) : State.blur μ
    ⟨s.pending, s.inFlight, s.out, a3, s.regs, s.cells, s.fms, s.slots, s.spares, s.routers, s.rgns, s.foreign, s.skys, s.admission, s.eras, s.nap, s.tilesHeld, s.tiers, s.yard, s.streams, s.reds, s.eth, s.boot, s.beats, s.power, s.ldr, s.flt, s.jobs, s.resets, s.rng, s.book, s.tallyLast⟩ = s.blur μ := by
  simp only [State.blur, maskBit (i := 3) hμ rfl, if_true]
theorem blur_10 (μ : Nat) (hμ : 0x10 &&& μ = 0x10) (s : State) (a4) : State.blur μ
    ⟨s.pending, s.inFlight, s.out, s.freeCtr, a4, s.cells, s.fms, s.slots, s.spares, s.routers, s.rgns, s.foreign, s.skys, s.admission, s.eras, s.nap, s.tilesHeld, s.tiers, s.yard, s.streams, s.reds, s.eth, s.boot, s.beats, s.power, s.ldr, s.flt, s.jobs, s.resets, s.rng, s.book, s.tallyLast⟩ = s.blur μ := by
  simp only [State.blur, maskBit (i := 4) hμ rfl, if_true]
theorem blur_20 (μ : Nat) (hμ : 0x20 &&& μ = 0x20) (s : State) (a5) : State.blur μ
    ⟨s.pending, s.inFlight, s.out, s.freeCtr, s.regs, a5, s.fms, s.slots, s.spares, s.routers, s.rgns, s.foreign, s.skys, s.admission, s.eras, s.nap, s.tilesHeld, s.tiers, s.yard, s.streams, s.reds, s.eth, s.boot, s.beats, s.power, s.ldr, s.flt, s.jobs, s.resets, s.rng, s.book, s.tallyLast⟩ = s.blur μ := by
  simp only [State.blur, maskBit (i := 5) hμ rfl, if_true]
theorem blur_28 (μ : Nat) (hμ : 0x28 &&& μ = 0x28) (s : State) (a3 a5) : State.blur μ
    ⟨s.pending, s.inFlight, s.out, a3, s.regs, a5, s.fms, s.slots, s.spares, s.routers, s.rgns, s.foreign, s.skys, s.admission, s.eras, s.nap, s.tilesHeld, s.tiers, s.yard, s.streams, s.reds, s.eth, s.boot, s.beats, s.power, s.ldr, s.flt, s.jobs, s.resets, s.rng, s.book, s.tallyLast⟩ = s.blur μ := by
  simp only [State.blur, maskBit (i := 3) hμ rfl, maskBit (i := 5) hμ rfl, if_true]
theorem blur_40 (μ : Nat) (hμ : 0x40 &&& μ = 0x40) (s : State) (a6) : State.blur μ
    ⟨s.pending, s.inFlight, s.out, s.freeCtr, s.regs, s.cells, a6, s.slots, s.spares, s.routers, s.rgns, s.foreign, s.skys, s.admission, s.eras, s.nap, s.tilesHeld, s.tiers, s.yard, s.streams, s.reds, s.eth, s.boot, s.beats, s.power, s.ldr, s.flt, s.jobs, s.resets, s.rng, s.book, s.tallyLast⟩ = s.blur μ := by
  simp only [State.blur, maskBit (i := 6) hμ rfl, if_true]
theorem blur_60 (μ : Nat) (hμ : 0x60 &&& μ = 0x60) (s : State) (a5 a6) : State.blur μ
    ⟨s.pending, s.inFlight, s.out, s.freeCtr, s.regs, a5, a6, s.slots, s.spares, s.routers, s.rgns, s.foreign, s.skys, s.admission, s.eras, s.nap, s.tilesHeld, s.tiers, s.yard, s.streams, s.reds, s.eth, s.boot, s.beats, s.power, s.ldr, s.flt, s.jobs, s.resets, s.rng, s.book, s.tallyLast⟩ = s.blur μ := by
  simp only [State.blur, maskBit (i := 5) hμ rfl, maskBit (i := 6) hμ rfl, if_true]
theorem blur_68 (μ : Nat) (hμ : 0x68 &&& μ = 0x68) (s : State) (a3 a5 a6) : State.blur μ
    ⟨s.pending, s.inFlight, s.out, a3, s.regs, a5, a6, s.slots, s.spares, s.routers, s.rgns, s.foreign, s.skys, s.admission, s.eras, s.nap, s.tilesHeld, s.tiers, s.yard, s.streams, s.reds, s.eth, s.boot, s.beats, s.power, s.ldr, s.flt, s.jobs, s.resets, s.rng, s.book, s.tallyLast⟩ = s.blur μ := by
  simp only [State.blur, maskBit (i := 3) hμ rfl, maskBit (i := 5) hμ rfl, maskBit (i := 6) hμ rfl, if_true]
theorem blur_80 (μ : Nat) (hμ : 0x80 &&& μ = 0x80) (s : State) (a7) : State.blur μ
    ⟨s.pending, s.inFlight, s.out, s.freeCtr, s.regs, s.cells, s.fms, a7, s.spares, s.routers, s.rgns, s.foreign, s.skys, s.admission, s.eras, s.nap, s.tilesHeld, s.tiers, s.yard, s.streams, s.reds, s.eth, s.boot, s.beats, s.power, s.ldr, s.flt, s.jobs, s.resets, s.rng, s.book, s.tallyLast⟩ = s.blur μ := by
  simp only [State.blur, maskBit (i := 7) hμ rfl, if_true]
theorem blur_100 (μ : Nat) (hμ : 0x100 &&& μ = 0x100) (s : State) (a8) : State.blur μ
    ⟨s.pending, s.inFlight, s.out, s.freeCtr, s.regs, s.cells, s.fms, s.slots, a8, s.routers, s.rgns, s.foreign, s.skys, s.admission, s.eras, s.nap, s.tilesHeld, s.tiers, s.yard, s.streams, s.reds, s.eth, s.boot, s.beats, s.power, s.ldr, s.flt, s.jobs, s.resets, s.rng, s.book, s.tallyLast⟩ = s.blur μ := by
  simp only [State.blur, maskBit (i := 8) hμ rfl, if_true]
theorem blur_108 (μ : Nat) (hμ : 0x108 &&& μ = 0x108) (s : State) (a3 a8) : State.blur μ
    ⟨s.pending, s.inFlight, s.out, a3, s.regs, s.cells, s.fms, s.slots, a8, s.routers, s.rgns, s.foreign, s.skys, s.admission, s.eras, s.nap, s.tilesHeld, s.tiers, s.yard, s.streams, s.reds, s.eth, s.boot, s.beats, s.power, s.ldr, s.flt, s.jobs, s.resets, s.rng, s.book, s.tallyLast⟩ = s.blur μ := by
  simp only [State.blur, maskBit (i := 3) hμ rfl, maskBit (i := 8) hμ rfl, if_true]
theorem blur_200 (μ : Nat) (hμ : 0x200 &&& μ = 0x200) (s : State) (a9) : State.blur μ
    ⟨s.pending, s.inFlight, s.out, s.freeCtr, s.regs, s.cells, s.fms, s.slots, s.spares, a9, s.rgns, s.foreign, s.skys, s.admission, s.eras, s.nap, s.tilesHeld, s.tiers, s.yard, s.streams, s.reds, s.eth, s.boot, s.beats, s.power, s.ldr, s.flt, s.jobs, s.resets, s.rng, s.book, s.tallyLast⟩ = s.blur μ := by
  simp only [State.blur, maskBit (i := 9) hμ rfl, if_true]
theorem blur_400 (μ : Nat) (hμ : 0x400 &&& μ = 0x400) (s : State) (a10) : State.blur μ
    ⟨s.pending, s.inFlight, s.out, s.freeCtr, s.regs, s.cells, s.fms, s.slots, s.spares, s.routers, a10, s.foreign, s.skys, s.admission, s.eras, s.nap, s.tilesHeld, s.tiers, s.yard, s.streams, s.reds, s.eth, s.boot, s.beats, s.power, s.ldr, s.flt, s.jobs, s.resets, s.rng, s.book, s.tallyLast⟩ = s.blur μ := by
  simp only [State.blur, maskBit (i := 10) hμ rfl, if_true]
theorem blur_440 (μ : Nat) (hμ : 0x440 &&& μ = 0x440) (s : State) (a6 a10) : State.blur μ
    ⟨s.pending, s.inFlight, s.out, s.freeCtr, s.regs, s.cells, a6, s.slots, s.spares, s.routers, a10, s.foreign, s.skys, s.admission, s.eras, s.nap, s.tilesHeld, s.tiers, s.yard, s.streams, s.reds, s.eth, s.boot, s.beats, s.power, s.ldr, s.flt, s.jobs, s.resets, s.rng, s.book, s.tallyLast⟩ = s.blur μ := by
  simp only [State.blur, maskBit (i := 6) hμ rfl, maskBit (i := 10) hμ rfl, if_true]
theorem blur_500 (μ : Nat) (hμ : 0x500 &&& μ = 0x500) (s : State) (a8 a10) : State.blur μ
    ⟨s.pending, s.inFlight, s.out, s.freeCtr, s.regs, s.cells, s.fms, s.slots, a8, s.routers, a10, s.foreign, s.skys, s.admission, s.eras, s.nap, s.tilesHeld, s.tiers, s.yard, s.streams, s.reds, s.eth, s.boot, s.beats, s.power, s.ldr, s.flt, s.jobs, s.resets, s.rng, s.book, s.tallyLast⟩ = s.blur μ := by
  simp only [State.blur, maskBit (i := 8) hμ rfl, maskBit (i := 10) hμ rfl, if_true]
theorem blur_800 (μ : Nat) (hμ : 0x800 &&& μ = 0x800) (s : State) (a11) : State.blur μ
    ⟨s.pending, s.inFlight, s.out, s.freeCtr, s.regs, s.cells, s.fms, s.slots, s.spares, s.routers, s.rgns, a11, s.skys, s.admission, s.eras, s.nap, s.tilesHeld, s.tiers, s.yard, s.streams, s.reds, s.eth, s.boot, s.beats, s.power, s.ldr, s.flt, s.jobs, s.resets, s.rng, s.book, s.tallyLast⟩ = s.blur μ := by
  simp only [State.blur, maskBit (i := 11) hμ rfl, if_true]
theorem blur_1000 (μ : Nat) (hμ : 0x1000 &&& μ = 0x1000) (s : State) (a12) : State.blur μ
    ⟨s.pending, s.inFlight, s.out, s.freeCtr, s.regs, s.cells, s.fms, s.slots, s.spares, s.routers, s.rgns, s.foreign, a12, s.admission, s.eras, s.nap, s.tilesHeld, s.tiers, s.yard, s.streams, s.reds, s.eth, s.boot, s.beats, s.power, s.ldr, s.flt, s.jobs, s.resets, s.rng, s.book, s.tallyLast⟩ = s.blur μ := by
  simp only [State.blur, maskBit (i := 12) hμ rfl, if_true]
theorem blur_2000 (μ : Nat) (hμ : 0x2000 &&& μ = 0x2000) (s : State) (a13) : State.blur μ
    ⟨s.pending, s.inFlight, s.out, s.freeCtr, s.regs, s.cells, s.fms, s.slots, s.spares, s.routers, s.rgns, s.foreign, s.skys, a13, s.eras, s.nap, s.tilesHeld, s.tiers, s.yard, s.streams, s.reds, s.eth, s.boot, s.beats, s.power, s.ldr, s.flt, s.jobs, s.resets, s.rng, s.book, s.tallyLast⟩ = s.blur μ := by
  simp only [State.blur, maskBit (i := 13) hμ rfl, if_true]
theorem blur_4668 (μ : Nat) (hμ : 0x4668 &&& μ = 0x4668) (s : State) (a3 a5 a6 a9 a10 a14) : State.blur μ
    ⟨s.pending, s.inFlight, s.out, a3, s.regs, a5, a6, s.slots, s.spares, a9, a10, s.foreign, s.skys, s.admission, a14, s.nap, s.tilesHeld, s.tiers, s.yard, s.streams, s.reds, s.eth, s.boot, s.beats, s.power, s.ldr, s.flt, s.jobs, s.resets, s.rng, s.book, s.tallyLast⟩ = s.blur μ := by
  simp only [State.blur, maskBit (i := 3) hμ rfl, maskBit (i := 5) hμ rfl, maskBit (i := 6) hμ rfl, maskBit (i := 9) hμ rfl, maskBit (i := 10) hμ rfl, maskBit (i := 14) hμ rfl, if_true]
theorem blur_10000 (μ : Nat) (hμ : 0x10000 &&& μ = 0x10000) (s : State) (a16) : State.blur μ
    ⟨s.pending, s.inFlight, s.out, s.freeCtr, s.regs, s.cells, s.fms, s.slots, s.spares, s.routers, s.rgns, s.foreign, s.skys, s.admission, s.eras, s.nap, a16, s.tiers, s.yard, s.streams, s.reds, s.eth, s.boot, s.beats, s.power, s.ldr, s.flt, s.jobs, s.resets, s.rng, s.book, s.tallyLast⟩ = s.blur μ := by
  simp only [State.blur, maskBit (i := 16) hμ rfl, if_true]
theorem blur_20000 (μ : Nat) (hμ : 0x20000 &&& μ = 0x20000) (s : State) (a17) : State.blur μ
    ⟨s.pending, s.inFlight, s.out, s.freeCtr, s.regs, s.cells, s.fms, s.slots, s.spares, s.routers, s.rgns, s.foreign, s.skys, s.admission, s.eras, s.nap, s.tilesHeld, a17, s.yard, s.streams, s.reds, s.eth, s.boot, s.beats, s.power, s.ldr, s.flt, s.jobs, s.resets, s.rng, s.book, s.tallyLast⟩ = s.blur μ := by
  simp only [State.blur, maskBit (i := 17) hμ rfl, if_true]
theorem blur_40000 (μ : Nat) (hμ : 0x40000 &&& μ = 0x40000) (s : State) (a18) : State.blur μ
    ⟨s.pending, s.inFlight, s.out, s.freeCtr, s.regs, s.cells, s.fms, s.slots, s.spares, s.routers, s.rgns, s.foreign, s.skys, s.admission, s.eras, s.nap, s.tilesHeld, s.tiers, a18, s.streams, s.reds, s.eth, s.boot, s.beats, s.power, s.ldr, s.flt, s.jobs, s.resets, s.rng, s.book, s.tallyLast⟩ = s.blur μ := by
  simp only [State.blur, maskBit (i := 18) hμ rfl, if_true]
theorem blur_40020 (μ : Nat) (hμ : 0x40020 &&& μ = 0x40020) (s : State) (a5 a18) : State.blur μ
    ⟨s.pending, s.inFlight, s.out, s.freeCtr, s.regs, a5, s.fms, s.slots, s.spares, s.routers, s.rgns, s.foreign, s.skys, s.admission, s.eras, s.nap, s.tilesHeld, s.tiers, a18, s.streams, s.reds, s.eth, s.boot, s.beats, s.power, s.ldr, s.flt, s.jobs, s.resets, s.rng, s.book, s.tallyLast⟩ = s.blur μ := by
  simp only [State.blur, maskBit (i := 5) hμ rfl, maskBit (i := 18) hμ rfl, if_true]
theorem blur_80000 (μ : Nat) (hμ : 0x80000 &&& μ = 0x80000) (s : State) (a19) : State.blur μ
    ⟨s.pending, s.inFlight, s.out, s.freeCtr, s.regs, s.cells, s.fms, s.slots, s.spares, s.routers, s.rgns, s.foreign, s.skys, s.admission, s.eras, s.nap, s.tilesHeld, s.tiers, s.yard, a19, s.reds, s.eth, s.boot, s.beats, s.power, s.ldr, s.flt, s.jobs, s.resets, s.rng, s.book, s.tallyLast⟩ = s.blur μ := by
  simp only [State.blur, maskBit (i := 19) hμ rfl, if_true]
theorem blur_100000 (μ : Nat) (hμ : 0x100000 &&& μ = 0x100000) (s : State) (a20) : State.blur μ
    ⟨s.pending, s.inFlight, s.out, s.freeCtr, s.regs, s.cells, s.fms, s.slots, s.spares, s.routers, s.rgns, s.foreign, s.skys, s.admission, s.eras, s.nap, s.tilesHeld, s.tiers, s.yard, s.streams, a20, s.eth, s.boot, s.beats, s.power, s.ldr, s.flt, s.jobs, s.resets, s.rng, s.book, s.tallyLast⟩ = s.blur μ := by
  simp only [State.blur, maskBit (i := 20) hμ rfl, if_true]
theorem blur_200000 (μ : Nat) (hμ : 0x200000 &&& μ = 0x200000) (s : State) (a21) : State.blur μ
    ⟨s.pending, s.inFlight, s.out, s.freeCtr, s.regs, s.cells, s.fms, s.slots, s.spares, s.routers, s.rgns, s.foreign, s.skys, s.admission, s.eras, s.nap, s.tilesHeld, s.tiers, s.yard, s.streams, s.reds, a21, s.boot, s.beats, s.power, s.ldr, s.flt, s.jobs, s.resets, s.rng, s.book, s.tallyLast⟩ = s.blur μ := by
  simp only [State.blur, maskBit (i := 21) hμ rfl, if_true]
theorem blur_400000 (μ : Nat) (hμ : 0x400000 &&& μ = 0x400000) (s : State) (a22) : State.blur μ
    ⟨s.pending, s.inFlight, s.out, s.freeCtr, s.regs, s.cells, s.fms, s.slots, s.spares, s.routers, s.rgns, s.foreign, s.skys, s.admission, s.eras, s.nap, s.tilesHeld, s.tiers, s.yard, s.streams, s.reds, s.eth, a22, s.beats, s.power, s.ldr, s.flt, s.jobs, s.resets, s.rng, s.book, s.tallyLast⟩ = s.blur μ := by
  simp only [State.blur, maskBit (i := 22) hμ rfl, if_true]
theorem blur_400008 (μ : Nat) (hμ : 0x400008 &&& μ = 0x400008) (s : State) (a3 a22) : State.blur μ
    ⟨s.pending, s.inFlight, s.out, a3, s.regs, s.cells, s.fms, s.slots, s.spares, s.routers, s.rgns, s.foreign, s.skys, s.admission, s.eras, s.nap, s.tilesHeld, s.tiers, s.yard, s.streams, s.reds, s.eth, a22, s.beats, s.power, s.ldr, s.flt, s.jobs, s.resets, s.rng, s.book, s.tallyLast⟩ = s.blur μ := by
  simp only [State.blur, maskBit (i := 3) hμ rfl, maskBit (i := 22) hμ rfl, if_true]
theorem blur_800000 (μ : Nat) (hμ : 0x800000 &&& μ = 0x800000) (s : State) (a23) : State.blur μ
    ⟨s.pending, s.inFlight, s.out, s.freeCtr, s.regs, s.cells, s.fms, s.slots, s.spares, s.routers, s.rgns, s.foreign, s.skys, s.admission, s.eras, s.nap, s.tilesHeld, s.tiers, s.yard, s.streams, s.reds, s.eth, s.boot, a23, s.power, s.ldr, s.flt, s.jobs, s.resets, s.rng, s.book, s.tallyLast⟩ = s.blur μ := by
  simp only [State.blur, maskBit (i := 23) hμ rfl, if_true]
theorem blur_1000000 (μ : Nat) (hμ : 0x1000000 &&& μ = 0x1000000) (s : State) (a24) : State.blur μ
    ⟨s.pending, s.inFlight, s.out, s.freeCtr, s.regs, s.cells, s.fms, s.slots, s.spares, s.routers, s.rgns, s.foreign, s.skys, s.admission, s.eras, s.nap, s.tilesHeld, s.tiers, s.yard, s.streams, s.reds, s.eth, s.boot, s.beats, a24, s.ldr, s.flt, s.jobs, s.resets, s.rng, s.book, s.tallyLast⟩ = s.blur μ := by
  simp only [State.blur, maskBit (i := 24) hμ rfl, if_true]
theorem blur_2000000 (μ : Nat) (hμ : 0x2000000 &&& μ = 0x2000000) (s : State) (a25) : State.blur μ
    ⟨s.pending, s.inFlight, s.out, s.freeCtr, s.regs, s.cells, s.fms, s.slots, s.spares, s.routers, s.rgns, s.foreign, s.skys, s.admission, s.eras, s.nap, s.tilesHeld, s.tiers, s.yard, s.streams, s.reds, s.eth, s.boot, s.beats, s.power, a25, s.flt, s.jobs, s.resets, s.rng, s.book, s.tallyLast⟩ = s.blur μ := by
  simp only [State.blur, maskBit (i := 25) hμ rfl, if_true]
theorem blur_4000000 (μ : Nat) (hμ : 0x4000000 &&& μ = 0x4000000) (s : State) (a26) : State.blur μ
    ⟨s.pending, s.inFlight, s.out, s.freeCtr, s.regs, s.cells, s.fms, s.slots, s.spares, s.routers, s.rgns, s.foreign, s.skys, s.admission, s.eras, s.nap, s.tilesHeld, s.tiers, s.yard, s.streams, s.reds, s.eth, s.boot, s.beats, s.power, s.ldr, a26, s.jobs, s.resets, s.rng, s.book, s.tallyLast⟩ = s.blur μ := by
  simp only [State.blur, maskBit (i := 26) hμ rfl, if_true]
theorem blur_4000028 (μ : Nat) (hμ : 0x4000028 &&& μ = 0x4000028) (s : State) (a3 a5 a26) : State.blur μ
    ⟨s.pending, s.inFlight, s.out, a3, s.regs, a5, s.fms, s.slots, s.spares, s.routers, s.rgns, s.foreign, s.skys, s.admission, s.eras, s.nap, s.tilesHeld, s.tiers, s.yard, s.streams, s.reds, s.eth, s.boot, s.beats, s.power, s.ldr, a26, s.jobs, s.resets, s.rng, s.book, s.tallyLast⟩ = s.blur μ := by
  simp only [State.blur, maskBit (i := 3) hμ rfl, maskBit (i := 5) hμ rfl, maskBit (i := 26) hμ rfl, if_true]
theorem blur_8000000 (μ : Nat) (hμ : 0x8000000 &&& μ = 0x8000000) (s : State) (a27) : State.blur μ
    ⟨s.pending, s.inFlight, s.out, s.freeCtr, s.regs, s.cells, s.fms, s.slots, s.spares, s.routers, s.rgns, s.foreign, s.skys, s.admission, s.eras, s.nap, s.tilesHeld, s.tiers, s.yard, s.streams, s.reds, s.eth, s.boot, s.beats, s.power, s.ldr, s.flt, a27, s.resets, s.rng, s.book, s.tallyLast⟩ = s.blur μ := by
  simp only [State.blur, maskBit (i := 27) hμ rfl, if_true]
theorem blur_10000000 (μ : Nat) (hμ : 0x10000000 &&& μ = 0x10000000) (s : State) (a28) : State.blur μ
    ⟨s.pending, s.inFlight, s.out, s.freeCtr, s.regs, s.cells, s.fms, s.slots, s.spares, s.routers, s.rgns, s.foreign, s.skys, s.admission, s.eras, s.nap, s.tilesHeld, s.tiers, s.yard, s.streams, s.reds, s.eth, s.boot, s.beats, s.power, s.ldr, s.flt, s.jobs, a28, s.rng, s.book, s.tallyLast⟩ = s.blur μ := by
  simp only [State.blur, maskBit (i := 28) hμ rfl, if_true]
theorem blur_10000020 (μ : Nat) (hμ : 0x10000020 &&& μ = 0x10000020) (s : State) (a5 a28) : State.blur μ
    ⟨s.pending, s.inFlight, s.out, s.freeCtr, s.regs, a5, s.fms, s.slots, s.spares, s.routers, s.rgns, s.foreign, s.skys, s.admission, s.eras, s.nap, s.tilesHeld, s.tiers, s.yard, s.streams, s.reds, s.eth, s.boot, s.beats, s.power, s.ldr, s.flt, s.jobs, a28, s.rng, s.book, s.tallyLast⟩ = s.blur μ := by
  simp only [State.blur, maskBit (i := 5) hμ rfl, maskBit (i := 28) hμ rfl, if_true]
theorem blur_14009e6a (μ : Nat) (hμ : 0x14009e6a &&& μ = 0x14009e6a) (s : State) (a1 a3 a5 a6 a9 a10 a11 a12 a15 a26 a28) : State.blur μ
    ⟨s.pending, a1, s.out, a3, s.regs, a5, a6, s.slots, s.spares, a9, a10, a11, a12, s.admission, s.eras, a15, s.tilesHeld, s.tiers, s.yard, s.streams, s.reds, s.eth, s.boot, s.beats, s.power, s.ldr, a26, s.jobs, a28, s.rng, s.book, s.tallyLast⟩ = s.blur μ := by
  simp only [State.blur, maskBit (i := 1) hμ rfl, maskBit (i := 3) hμ rfl, maskBit (i := 5) hμ rfl, maskBit (i := 6) hμ rfl, maskBit (i := 9) hμ rfl, maskBit (i := 10) hμ rfl, maskBit (i := 11) hμ rfl, maskBit (i := 12) hμ rfl, maskBit (i := 15) hμ rfl, maskBit (i := 26) hμ rfl, maskBit (i := 28) hμ rfl, if_true]
theorem blur_20000000 (μ : Nat) (hμ : 0x20000000 &&& μ = 0x20000000) (s : State) (a29) : State.blur μ
    ⟨s.pending, s.inFlight, s.out, s.freeCtr, s.regs, s.cells, s.fms, s.slots, s.spares, s.routers, s.rgns, s.foreign, s.skys, s.admission, s.eras, s.nap, s.tilesHeld, s.tiers, s.yard, s.streams, s.reds, s.eth, s.boot, s.beats, s.power, s.ldr, s.flt, s.jobs, s.resets, a29, s.book, s.tallyLast⟩ = s.blur μ := by
  simp only [State.blur, maskBit (i := 29) hμ rfl, if_true]
theorem blur_40000000 (μ : Nat) (hμ : 0x40000000 &&& μ = 0x40000000) (s : State) (a30) : State.blur μ
    ⟨s.pending, s.inFlight, s.out, s.freeCtr, s.regs, s.cells, s.fms, s.slots, s.spares, s.routers, s.rgns, s.foreign, s.skys, s.admission, s.eras, s.nap, s.tilesHeld, s.tiers, s.yard, s.streams, s.reds, s.eth, s.boot, s.beats, s.power, s.ldr, s.flt, s.jobs, s.resets, s.rng, a30, s.tallyLast⟩ = s.blur μ := by
  simp only [State.blur, maskBit (i := 30) hμ rfl, if_true]
theorem blur_65800012 (μ : Nat) (hμ : 0x65800012 &&& μ = 0x65800012) (s : State) (a1 a4 a23 a24 a26 a29 a30) : State.blur μ
    ⟨s.pending, a1, s.out, s.freeCtr, a4, s.cells, s.fms, s.slots, s.spares, s.routers, s.rgns, s.foreign, s.skys, s.admission, s.eras, s.nap, s.tilesHeld, s.tiers, s.yard, s.streams, s.reds, s.eth, s.boot, a23, a24, s.ldr, a26, s.jobs, s.resets, a29, a30, s.tallyLast⟩ = s.blur μ := by
  simp only [State.blur, maskBit (i := 1) hμ rfl, maskBit (i := 4) hμ rfl, maskBit (i := 23) hμ rfl, maskBit (i := 24) hμ rfl, maskBit (i := 26) hμ rfl, maskBit (i := 29) hμ rfl, maskBit (i := 30) hμ rfl, if_true]
theorem blur_80000000 (μ : Nat) (hμ : 0x80000000 &&& μ = 0x80000000) (s : State) (a31) : State.blur μ
    ⟨s.pending, s.inFlight, s.out, s.freeCtr, s.regs, s.cells, s.fms, s.slots, s.spares, s.routers, s.rgns, s.foreign, s.skys, s.admission, s.eras, s.nap, s.tilesHeld, s.tiers, s.yard, s.streams, s.reds, s.eth, s.boot, s.beats, s.power, s.ldr, s.flt, s.jobs, s.resets, s.rng, s.book, a31⟩ = s.blur μ := by
  simp only [State.blur, maskBit (i := 31) hμ rfl, if_true]
theorem blur_9fbffefa (μ : Nat) (hμ : 0x9fbffefa &&& μ = 0x9fbffefa) (s : State) (a1 a3 a4 a5 a6 a7 a9 a10 a11 a12 a13 a14 a15 a16 a17 a18 a19 a20 a21 a23 a24 a25 a26 a27 a28 a31) : State.blur μ
    ⟨s.pending, a1, s.out, a3, a4, a5, a6, a7, s.spares, a9, a10, a11, a12, a13, a14, a15, a16, a17, a18, a19, a20, a21, s.boot, a23, a24, a25, a26, a27, a28, s.rng, s.book, a31⟩ = s.blur μ := by
  simp only [State.blur, maskBit (i := 1) hμ rfl, maskBit (i := 3) hμ rfl, maskBit (i := 4) hμ rfl, maskBit (i := 5) hμ rfl, maskBit (i := 6) hμ rfl, maskBit (i := 7) hμ rfl, maskBit (i := 9) hμ rfl, maskBit (i := 10) hμ rfl, maskBit (i := 11) hμ rfl, maskBit (i := 12) hμ rfl, maskBit (i := 13) hμ rfl, maskBit (i := 14) hμ rfl, maskBit (i := 15) hμ rfl, maskBit (i := 16) hμ rfl, maskBit (i := 17) hμ rfl, maskBit (i := 18) hμ rfl, maskBit (i := 19) hμ rfl, maskBit (i := 20) hμ rfl, maskBit (i := 21) hμ rfl, maskBit (i := 23) hμ rfl, maskBit (i := 24) hμ rfl, maskBit (i := 25) hμ rfl, maskBit (i := 26) hμ rfl, maskBit (i := 27) hμ rfl, maskBit (i := 28) hμ rfl, maskBit (i := 31) hμ rfl, if_true]

theorem State.setReg_blur (μ : Nat) (hμ : 0x10 &&& μ = 0x10) : ∀ a0 a1 a2, (State.setReg a0 a1 a2).blur μ = a0.blur μ := by
  intros; unfold State.setReg
  simp only [↓blur_10 μ (maskSub rfl hμ)]

theorem State.setRegF_blur (μ : Nat) (hμ : 0x10 &&& μ = 0x10) : ∀ a0 a1 a2 a3 a4, (State.setRegF a0 a1 a2 a3 a4).blur μ = a0.blur μ := by
  intros; unfold State.setRegF
  simp only [↓State.setReg_blur μ (maskSub rfl hμ)]

theorem State.satReg_blur (μ : Nat) (hμ : 0x10 &&& μ = 0x10) : ∀ a0 a1 a2 a3 a4, (State.satReg a0 a1 a2 a3 a4).blur μ = a0.blur μ := by
  intros; unfold State.satReg
  simp only [↓State.setReg_blur μ (maskSub rfl hμ)]

theorem State.addReg_blur (μ : Nat) (hμ : 0x10 &&& μ = 0x10) : ∀ a0 a1 a2 a3 a4, (State.addReg a0 a1 a2 a3 a4).blur μ = a0.blur μ := by
  intros; unfold State.addReg
  simp only [↓State.setRegF_blur μ (maskSub rfl hμ)]

theorem State.clearRegs_blur (μ : Nat) (hμ : 0x10 &&& μ = 0x10) : ∀ a0 a1, (State.clearRegs a0 a1).blur μ = a0.blur μ := by
  intros; unfold State.clearRegs
  simp only [↓blur_10 μ (maskSub rfl hμ)]

theorem State.setCell_blur (μ : Nat) (hμ : 0x20 &&& μ = 0x20) : ∀ a0 a1 a2, (State.setCell a0 a1 a2).blur μ = a0.blur μ := by
  intros; unfold State.setCell
  simp only [↓blur_20 μ (maskSub rfl hμ)]

theorem State.modCell_blur (μ : Nat) (hμ : 0x20 &&& μ = 0x20) : ∀ a0 a1 a2, (State.modCell a0 a1 a2).blur μ = a0.blur μ := by
  intros; unfold State.modCell
  simp only [↓State.setCell_blur μ (maskSub rfl hμ)]

theorem State.setFm_blur (μ : Nat) (hμ : 0x40 &&& μ = 0x40) : ∀ a0 a1 a2, (State.setFm a0 a1 a2).blur μ = a0.blur μ := by
  intros; unfold State.setFm
  simp only [↓blur_40 μ (maskSub rfl hμ)]

theorem State.modFm_blur (μ : Nat) (hμ : 0x40 &&& μ = 0x40) : ∀ a0 a1 a2, (State.modFm a0 a1 a2).blur μ = a0.blur μ := by
  intros; unfold State.modFm
  simp only [↓State.setFm_blur μ (maskSub rfl hμ)]

theorem State.setSlot_blur (μ : Nat) (hμ : 0x80 &&& μ = 0x80) : ∀ a0 a1 a2, (State.setSlot a0 a1 a2).blur μ = a0.blur μ := by
  intros; unfold State.setSlot
  simp only [↓blur_80 μ (maskSub rfl hμ)]

theorem State.modSlot_blur (μ : Nat) (hμ : 0x80 &&& μ = 0x80) : ∀ a0 a1 a2, (State.modSlot a0 a1 a2).blur μ = a0.blur μ := by
  intros; unfold State.modSlot
  simp only [↓State.setSlot_blur μ (maskSub rfl hμ)]

theorem State.setRouter_blur (μ : Nat) (hμ : 0x200 &&& μ = 0x200) : ∀ a0 a1 a2, (State.setRouter a0 a1 a2).blur μ = a0.blur μ := by
  intros; unfold State.setRouter
  simp only [↓blur_200 μ (maskSub rfl hμ)]

theorem State.modRouter_blur (μ : Nat) (hμ : 0x200 &&& μ = 0x200) : ∀ a0 a1 a2, (State.modRouter a0 a1 a2).blur μ = a0.blur μ := by
  intros; unfold State.modRouter
  simp only [↓State.setRouter_blur μ (maskSub rfl hμ)]

theorem State.setRgn_blur (μ : Nat) (hμ : 0x400 &&& μ = 0x400) : ∀ a0 a1 a2, (State.setRgn a0 a1 a2).blur μ = a0.blur μ := by
  intros; unfold State.setRgn
  simp only [↓blur_400 μ (maskSub rfl hμ)]

theorem State.modRgn_blur (μ : Nat) (hμ : 0x400 &&& μ = 0x400) : ∀ a0 a1 a2, (State.modRgn a0 a1 a2).blur μ = a0.blur μ := by
  intros; unfold State.modRgn
  simp only [↓State.setRgn_blur μ (maskSub rfl hμ)]

theorem State.setSky_blur (μ : Nat) (hμ : 0x1000 &&& μ = 0x1000) : ∀ a0 a1 a2, (State.setSky a0 a1 a2).blur μ = a0.blur μ := by
  intros; unfold State.setSky
  simp only [↓blur_1000 μ (maskSub rfl hμ)]

theorem State.modSky_blur (μ : Nat) (hμ : 0x1000 &&& μ = 0x1000) : ∀ a0 a1 a2, (State.modSky a0 a1 a2).blur μ = a0.blur μ := by
  intros; unfold State.modSky
  simp only [↓State.setSky_blur μ (maskSub rfl hμ)]

theorem State.setStream_blur (μ : Nat) (hμ : 0x80000 &&& μ = 0x80000) : ∀ a0 a1 a2, (State.setStream a0 a1 a2).blur μ = a0.blur μ := by
  intros; unfold State.setStream
  simp only [↓blur_80000 μ (maskSub rfl hμ)]

theorem State.modStream_blur (μ : Nat) (hμ : 0x80000 &&& μ = 0x80000) : ∀ a0 a1 a2, (State.modStream a0 a1 a2).blur μ = a0.blur μ := by
  intros; unfold State.modStream
  simp only [↓State.setStream_blur μ (maskSub rfl hμ)]

theorem State.setRed_blur (μ : Nat) (hμ : 0x100000 &&& μ = 0x100000) : ∀ a0 a1 a2, (State.setRed a0 a1 a2).blur μ = a0.blur μ := by
  intros; unfold State.setRed
  simp only [↓blur_100000 μ (maskSub rfl hμ)]

theorem State.modRed_blur (μ : Nat) (hμ : 0x100000 &&& μ = 0x100000) : ∀ a0 a1 a2, (State.modRed a0 a1 a2).blur μ = a0.blur μ := by
  intros; unfold State.modRed
  simp only [↓State.setRed_blur μ (maskSub rfl hμ)]

theorem State.send_blur (μ : Nat) (hμ : 0x2 &&& μ = 0x2) : ∀ a0 a1, (State.send a0 a1).blur μ = a0.blur μ := by
  intros; unfold State.send
  simp only [↓blur_2 μ (maskSub rfl hμ)]

theorem State.sendAll_blur (μ : Nat) (hμ : 0x2 &&& μ = 0x2) : ∀ a0 a1, (State.sendAll a0 a1).blur μ = a0.blur μ := by
  intros; unfold State.sendAll
  simp only [↓blur_2 μ (maskSub rfl hμ)]

theorem State.deliver_blur (μ : Nat) (hμ : 0x2 &&& μ = 0x2) : ∀ a0 a1, (State.deliver a0 a1).blur μ = a0.blur μ := by
  intros; unfold State.deliver
  simp only [↓blur_2 μ (maskSub rfl hμ)]

theorem State.emit_blur (μ : Nat) (hμ : 0x4 &&& μ = 0x4) : ∀ a0 a1, (State.emit a0 a1).blur μ = a0.blur μ := by
  intros; unfold State.emit
  simp only [↓blur_4 μ (maskSub rfl hμ)]

theorem State.fresh_blur (μ : Nat) (hμ : 0x8 &&& μ = 0x8) : ∀ a0, (State.fresh a0).2.blur μ = a0.blur μ := by
  intros; unfold State.fresh
  simp only [↓blur_8 μ (maskSub rfl hμ)]

theorem State.raise_blur (μ : Nat) (hμ : 0x2 &&& μ = 0x2) : ∀ a0 a1 a2 a3 a4 a5, (State.raise a0 a1 a2 a3 a4 a5).blur μ = a0.blur μ := by
  intros; unfold State.raise
  simp only [↓State.send_blur μ (maskSub rfl hμ)]

theorem State.reject_blur (μ : Nat) (hμ : 0x2 &&& μ = 0x2) : ∀ a0 a1 a2, (State.reject a0 a1 a2).blur μ = a0.blur μ := by
  intros; unfold State.reject
  simp only [↓State.raise_blur μ (maskSub rfl hμ)]

theorem State.raiseCell_blur (μ : Nat) (hμ : 0x2 &&& μ = 0x2) : ∀ a0 a1 a2 a3, (State.raiseCell a0 a1 a2 a3).blur μ = a0.blur μ := by
  intros; unfold State.raiseCell
  simp only [↓State.raise_blur μ (maskSub rfl hμ)]

theorem State.raiseRgn_blur (μ : Nat) (hμ : 0x2 &&& μ = 0x2) : ∀ a0 a1 a2 a3 a4, (State.raiseRgn a0 a1 a2 a3 a4).blur μ = a0.blur μ := by
  intros; unfold State.raiseRgn
  simp only [↓State.raise_blur μ (maskSub rfl hμ)]

theorem State.freeCount_blur (μ : Nat) (hμ : 0x18 &&& μ = 0x18) : ∀ a0 a1 a2 a3, (State.freeCount a0 a1 a2 a3).blur μ = a0.blur μ := by
  intros; unfold State.freeCount
  simp only [↓State.fresh_blur μ (maskSub rfl hμ), ↓State.setRegF_blur μ (maskSub rfl hμ)]

theorem State.sendSky_blur (μ : Nat) (hμ : 0x1014 &&& μ = 0x1014) : ∀ a0 a1 a2 a3 a4 a5, (State.sendSky a0 a1 a2 a3 a4 a5).blur μ = a0.blur μ := by
  intros; unfold State.sendSky
  simp only [↓apply_ite (State.blur μ), ite_self, ↓State.emit_blur μ (maskSub rfl hμ), ↓State.setSky_blur μ (maskSub rfl hμ), ↓State.addReg_blur μ (maskSub rfl hμ)]

theorem State.freeBytes_blur (μ : Nat) (hμ : 0x8 &&& μ = 0x8) : ∀ a0 a1, (State.freeBytes a0 a1).2.blur μ = a0.blur μ := by
  intros; unfold State.freeBytes
  simp only [↓State.fresh_blur μ (maskSub rfl hμ)]

theorem State.sendCtrl_blur (μ : Nat) (hμ : 0x101c &&& μ = 0x101c) : ∀ a0 a1 a2, (State.sendCtrl a0 a1 a2).blur μ = a0.blur μ := by
  intros; unfold State.sendCtrl
  simp only [↓apply_ite (State.blur μ), ite_self, ↓State.emit_blur μ (maskSub rfl hμ), ↓State.freeBytes_blur μ (maskSub rfl hμ), ↓State.sendSky_blur μ (maskSub rfl hμ)]

theorem State.sendTrail_blur (μ : Nat) (hμ : 0x101c &&& μ = 0x101c) : ∀ a0 a1 a2 a3, (State.sendTrail a0 a1 a2 a3).blur μ = a0.blur μ := by
  intros; unfold State.sendTrail
  repeat' first | with_reducible rfl | simp only [↓apply_ite (State.blur μ), ite_self, ↓State.emit_blur μ (maskSub rfl hμ), ↓State.freeBytes_blur μ (maskSub rfl hμ), ↓State.sendSky_blur μ (maskSub rfl hμ), ↓State.modSky_blur μ (maskSub rfl hμ)] | split

theorem State.sendMesh_blur (μ : Nat) (hμ : 0x1016 &&& μ = 0x1016) : ∀ a0 a1, (State.sendMesh a0 a1).blur μ = a0.blur μ := by
  intros; unfold State.sendMesh
  simp only [↓State.setSky_blur μ (maskSub rfl hμ), ↓State.sendSky_blur μ (maskSub rfl hμ), ↓State.sendAll_blur μ (maskSub rfl hμ)]

theorem State.sendTileFlit_blur (μ : Nat) (hμ : 0x1014 &&& μ = 0x1014) : ∀ a0 a1, (State.sendTileFlit a0 a1).blur μ = a0.blur μ := by
  intros; unfold State.sendTileFlit
  repeat' first | with_reducible rfl | simp only [↓apply_ite (State.blur μ), ite_self, ↓State.sendSky_blur μ (maskSub rfl hμ), ↓State.setSky_blur μ (maskSub rfl hμ)] | split

theorem State.drainSky_blur (μ : Nat) (hμ : 0x101e &&& μ = 0x101e) : ∀ n s p due, (State.drainSky n s p due).blur μ = s.blur μ := by
  intro n
  induction n with
  | zero => intros; rfl
  | succ n ih =>
    intros; unfold State.drainSky
    repeat' first | with_reducible rfl | simp only [↓ih, ↓State.sendMesh_blur μ (maskSub rfl hμ), ↓State.sendTileFlit_blur μ (maskSub rfl hμ), ↓State.freeCount_blur μ (maskSub rfl hμ)] | split

theorem State.drainPort_blur (μ : Nat) (hμ : 0x101e &&& μ = 0x101e) : ∀ a0 a1 a2, (State.drainPort a0 a1 a2).blur μ = a0.blur μ := by
  intros; unfold State.drainPort
  simp only [↓State.drainSky_blur μ (maskSub rfl hμ)]

theorem State.toStation_blur (μ : Nat) (hμ : 0x101e &&& μ = 0x101e) : ∀ a0 a1 a2 a3, (State.toStation a0 a1 a2 a3).blur μ = a0.blur μ := by
  intros; unfold State.toStation
  simp only [↓apply_ite (State.blur μ), ite_self, ↓State.send_blur μ (maskSub rfl hμ), ↓State.raise_blur μ (maskSub rfl hμ), ↓State.satReg_blur μ (maskSub rfl hμ), ↓State.setSky_blur μ (maskSub rfl hμ), ↓State.drainPort_blur μ (maskSub rfl hμ), ↓State.modSky_blur μ (maskSub rfl hμ)]

theorem State.toTileQueue_blur (μ : Nat) (hμ : 0x101e &&& μ = 0x101e) : ∀ a0 a1 a2, (State.toTileQueue a0 a1 a2).blur μ = a0.blur μ := by
  intros; unfold State.toTileQueue
  simp only [↓State.drainPort_blur μ (maskSub rfl hμ), ↓State.modSky_blur μ (maskSub rfl hμ)]

theorem State.setEthPort_blur (μ : Nat) (hμ : 0x200000 &&& μ = 0x200000) : ∀ a0 a1 a2, (State.setEthPort a0 a1 a2).blur μ = a0.blur μ := by
  intros; unfold State.setEthPort
  simp only [↓blur_200000 μ (maskSub rfl hμ)]

theorem State.countRx_blur (μ : Nat) (hμ : 0x10 &&& μ = 0x10) : ∀ a0 a1, (State.countRx a0 a1).blur μ = a0.blur μ := by
  intros; unfold State.countRx
  simp only [↓State.addReg_blur μ (maskSub rfl hμ)]

theorem State.sendEth_blur (μ : Nat) (hμ : 0x14 &&& μ = 0x14) : ∀ a0 a1 a2, (State.sendEth a0 a1 a2).blur μ = a0.blur μ := by
  intros; unfold State.sendEth
  simp only [↓State.addReg_blur μ (maskSub rfl hμ), ↓State.emit_blur μ (maskSub rfl hμ)]

theorem State.buffer_blur (μ : Nat) (hμ : 0x200014 &&& μ = 0x200014) : ∀ a0 a1 a2 a3, (State.buffer a0 a1 a2 a3).blur μ = a0.blur μ := by
  intros; unfold State.buffer
  simp only [↓apply_ite (State.blur μ), ite_self, ↓State.sendEth_blur μ (maskSub rfl hμ), ↓State.setEthPort_blur μ (maskSub rfl hμ)]

theorem State.dropOther_blur (μ : Nat) (hμ : 0x10 &&& μ = 0x10) : ∀ a0 a1, (State.dropOther a0 a1).blur μ = a0.blur μ := by
  intros; unfold State.dropOther
  simp only [↓State.satReg_blur μ (maskSub rfl hμ)]

theorem execNeighborRequest_blur (μ : Nat) (hμ : 0x14 &&& μ = 0x14) : ∀ a0 a1 a2 a3 a4, ∀ t, execNeighborRequest a0 a1 a2 a3 a4 = .next t → t.blur μ = a4.blur μ := by
  intros a0 a1 a2 a3 a4 t h; unfold execNeighborRequest at h; cases h
  simp only [↓apply_ite (State.blur μ), ite_self, ↓State.countRx_blur μ (maskSub rfl hμ), ↓State.sendEth_blur μ (maskSub rfl hμ), ↓State.dropOther_blur μ (maskSub rfl hμ)]

theorem execLldpTransmitTimer_blur (μ : Nat) (hμ : 0x14 &&& μ = 0x14) : ∀ a0, ∀ t, execLldpTransmitTimer a0 = .next t → t.blur μ = a0.blur μ := by
  intros a0 t h; unfold execLldpTransmitTimer at h; cases h
  repeat' first | with_reducible rfl | intro _ | simp only [↓apply_ite (State.blur μ), ite_self, ↓foldl_blur μ, ↓State.sendEth_blur μ (maskSub rfl hμ)] | split | refine (foldl_blur μ _ ?_ _ _).trans ?_ | refine (foldl1_blur μ _ ?_ _ _).trans ?_

theorem execLldpReceived_blur (μ : Nat) (hμ : 0x10 &&& μ = 0x10) : ∀ a0 a1 a2 a3, ∀ t, execLldpReceived a0 a1 a2 a3 = .next t → t.blur μ = a3.blur μ := by
  intros a0 a1 a2 a3 t h; unfold execLldpReceived at h; cases h
  simp only [↓apply_ite (State.blur μ), ite_self, ↓State.setReg_blur μ (maskSub rfl hμ), ↓State.countRx_blur μ (maskSub rfl hμ)]

theorem execPauseReceived_blur (μ : Nat) (hμ : 0x200014 &&& μ = 0x200014) : ∀ a0 a1 a2 a3 a4, ∀ t, execPauseReceived a0 a1 a2 a3 a4 = .next t → t.blur μ = a4.blur μ := by
  intros a0 a1 a2 a3 a4 t h; unfold execPauseReceived at h; cases h
  simp only [↓apply_ite (State.blur μ), ite_self, ↓State.countRx_blur μ (maskSub rfl hμ), ↓State.buffer_blur μ (maskSub rfl hμ), ↓State.setEthPort_blur μ (maskSub rfl hμ)]

theorem execEthLinkUp_blur (μ : Nat) (hμ : 0x200000 &&& μ = 0x200000) : ∀ a0 a1, ∀ t, execEthLinkUp a0 a1 = .next t → t.blur μ = a1.blur μ := by
  intros a0 a1 t h; unfold execEthLinkUp at h; cases h
  simp only [↓apply_ite (State.blur μ), ite_self, ↓State.setEthPort_blur μ (maskSub rfl hμ)]

theorem State.sendAnswer_blur (μ : Nat) (hμ : 0x14 &&& μ = 0x14) : ∀ a0 a1 a2, (State.sendAnswer a0 a1 a2).blur μ = a0.blur μ := by
  intros; unfold State.sendAnswer
  repeat' first | with_reducible rfl | simp only [↓State.addReg_blur μ (maskSub rfl hμ), ↓State.emit_blur μ (maskSub rfl hμ), ↓State.sendEth_blur μ (maskSub rfl hμ)] | split

theorem State.answer_blur (μ : Nat) (hμ : 0x14 &&& μ = 0x14) : ∀ a0 a1 a2 a3, (State.answer a0 a1 a2 a3).blur μ = a0.blur μ := by
  intros; unfold State.answer
  simp only [↓State.sendAnswer_blur μ (maskSub rfl hμ)]

theorem State.retryTime_blur (μ : Nat) (hμ : 0x8 &&& μ = 0x8) : ∀ a0, (State.retryTime a0).2.blur μ = a0.blur μ := by
  intros; unfold State.retryTime
  repeat' first | with_reducible rfl | simp only [↓State.fresh_blur μ (maskSub rfl hμ)] | split

theorem State.answerNotReady_blur (μ : Nat) (hμ : 0x1c &&& μ = 0x1c) : ∀ a0 a1 a2, (State.answerNotReady a0 a1 a2).blur μ = a0.blur μ := by
  intros; unfold State.answerNotReady
  simp only [↓State.retryTime_blur μ (maskSub rfl hμ), ↓State.answer_blur μ (maskSub rfl hμ)]

theorem State.setSession_blur (μ : Nat) (hμ : 0x200000 &&& μ = 0x200000) : ∀ a0 a1 a2, (State.setSession a0 a1 a2).blur μ = a0.blur μ := by
  intros; unfold State.setSession
  simp only [↓blur_200000 μ (maskSub rfl hμ)]

theorem State.setWin_blur (μ : Nat) (hμ : 0x200000 &&& μ = 0x200000) : ∀ a0 a1 a2, (State.setWin a0 a1 a2).blur μ = a0.blur μ := by
  intros; unfold State.setWin
  simp only [↓blur_200000 μ (maskSub rfl hμ)]

theorem State.closeWin_blur (μ : Nat) (hμ : 0x200000 &&& μ = 0x200000) : ∀ a0 a1, (State.closeWin a0 a1).blur μ = a0.blur μ := by
  intros; unfold State.closeWin
  simp only [↓State.setWin_blur μ (maskSub rfl hμ)]

theorem State.closeSession_blur (μ : Nat) (hμ : 0x200000 &&& μ = 0x200000) : ∀ a0 a1, (State.closeSession a0 a1).blur μ = a0.blur μ := by
  intros; unfold State.closeSession
  repeat' first | with_reducible rfl | intro _ | simp only [↓blur_200000 μ (maskSub rfl hμ), ↓apply_ite (State.blur μ), ite_self, ↓foldl_blur μ, ↓State.closeWin_blur μ (maskSub rfl hμ)] | split | refine (foldl_blur μ _ ?_ _ _).trans ?_ | refine (foldl1_blur μ _ ?_ _ _).trans ?_

theorem execSessionIdleTimeout_blur (μ : Nat) (hμ : 0x200000 &&& μ = 0x200000) : ∀ a0 a1, ∀ t, execSessionIdleTimeout a0 a1 = .next t → t.blur μ = a1.blur μ := by
  intros a0 a1 t h; unfold execSessionIdleTimeout at h; cases h
  simp only [↓apply_ite (State.blur μ), ite_self, ↓State.closeSession_blur μ (maskSub rfl hμ)]

theorem State.finish_blur (μ : Nat) (hμ : 0x200014 &&& μ = 0x200014) : ∀ a0 a1 a2 a3, (State.finish a0 a1 a2 a3).blur μ = a0.blur μ := by
  intros; unfold State.finish
  repeat' first | with_reducible rfl | simp only [↓State.setSession_blur μ (maskSub rfl hμ), ↓State.sendAnswer_blur μ (maskSub rfl hμ)] | split

theorem State.kctOpen_blur (μ : Nat) (hμ : 0x200014 &&& μ = 0x200014) : ∀ a0 a1 a2, (State.kctOpen a0 a1 a2).blur μ = a0.blur μ := by
  intros; unfold State.kctOpen
  repeat' first | with_reducible rfl | simp only [↓State.sendAnswer_blur μ (maskSub rfl hμ), ↓State.setSession_blur μ (maskSub rfl hμ), ↓State.answer_blur μ (maskSub rfl hμ)] | split

theorem State.kctClose_blur (μ : Nat) (hμ : 0x200014 &&& μ = 0x200014) : ∀ a0 a1 a2, (State.kctClose a0 a1 a2).blur μ = a0.blur μ := by
  intros; unfold State.kctClose
  simp only [↓State.answer_blur μ (maskSub rfl hμ), ↓State.closeSession_blur μ (maskSub rfl hμ)]

theorem State.setQp_blur (μ : Nat) (hμ : 0x200000 &&& μ = 0x200000) : ∀ a0 a1 a2, (State.setQp a0 a1 a2).blur μ = a0.blur μ := by
  intros; unfold State.setQp
  simp only [↓blur_200000 μ (maskSub rfl hμ)]

theorem State.roceFrame_blur (μ : Nat) (hμ : 0x10 &&& μ = 0x10) (s q act) (h : ∀ t, (act t).blur μ = t.blur μ) : (State.roceFrame s q act).blur μ = s.blur μ := by
  unfold State.roceFrame
  repeat' first | with_reducible rfl | simp only [↓State.countRx_blur μ (maskSub rfl hμ), ↓State.satReg_blur μ (maskSub rfl hμ), ↓h] | split

theorem execRoceConnect_blur (μ : Nat) (hμ : 0x200014 &&& μ = 0x200014) : ∀ a0 a1 a2, ∀ t, execRoceConnect a0 a1 a2 = .next t → t.blur μ = a2.blur μ := by
  intros a0 a1 a2 t h; unfold execRoceConnect at h; cases h
  repeat' first | with_reducible rfl | intro _ | simp only [↓apply_ite (State.blur μ), ite_self, ↓State.sendEth_blur μ (maskSub rfl hμ), ↓State.satReg_blur μ (maskSub rfl hμ), ↓State.setQp_blur μ (maskSub rfl hμ)] | refine (State.roceFrame_blur μ (maskSub rfl hμ) _ _ _ ?_).trans ?_ | split

theorem execRoceDisconnect_blur (μ : Nat) (hμ : 0x200000 &&& μ = 0x200000) : ∀ a0 a1, ∀ t, execRoceDisconnect a0 a1 = .next t → t.blur μ = a1.blur μ := by
  intros a0 a1 t h; unfold execRoceDisconnect at h; cases h
  simp only [↓blur_200000 μ (maskSub rfl hμ)]

theorem execEcnCeReceived_blur (μ : Nat) (hμ : 0x200014 &&& μ = 0x200014) : ∀ a0 a1 a2, ∀ t, execEcnCeReceived a0 a1 a2 = .next t → t.blur μ = a2.blur μ := by
  intros a0 a1 a2 t h; unfold execEcnCeReceived at h; cases h
  repeat' first | with_reducible rfl | intro _ | simp only [↓apply_ite (State.blur μ), ite_self, ↓State.sendEth_blur μ (maskSub rfl hμ), ↓State.setQp_blur μ (maskSub rfl hμ)] | refine (State.roceFrame_blur μ (maskSub rfl hμ) _ _ _ ?_).trans ?_ | split

theorem execCnpReceived_blur (μ : Nat) (hμ : 0x200010 &&& μ = 0x200010) : ∀ a0 a1, ∀ t, execCnpReceived a0 a1 = .next t → t.blur μ = a1.blur μ := by
  intros a0 a1 t h; unfold execCnpReceived at h; cases h
  repeat' first | with_reducible rfl | intro _ | simp only [↓apply_ite (State.blur μ), ite_self, ↓State.setQp_blur μ (maskSub rfl hμ)] | refine (State.roceFrame_blur μ (maskSub rfl hμ) _ _ _ ?_).trans ?_ | split

theorem execRateIncreaseTimer_blur (μ : Nat) (hμ : 0x200000 &&& μ = 0x200000) : ∀ a0 a1, ∀ t, execRateIncreaseTimer a0 a1 = .next t → t.blur μ = a1.blur μ := by
  intros a0 a1 t h; unfold execRateIncreaseTimer at h; cases h
  repeat' first | with_reducible rfl | simp only [↓State.setQp_blur μ (maskSub rfl hμ)] | split

theorem State.setCxl_blur (μ : Nat) (hμ : 0x20000 &&& μ = 0x20000) : ∀ a0 a1 a2, (State.setCxl a0 a1 a2).blur μ = a0.blur μ := by
  intros; unfold State.setCxl
  simp only [↓blur_20000 μ (maskSub rfl hμ)]

theorem State.countBoard_blur (μ : Nat) (hμ : 0x10 &&& μ = 0x10) : ∀ a0 a1, (State.countBoard a0 a1).blur μ = a0.blur μ := by
  intros; unfold State.countBoard
  simp only [↓apply_ite (State.blur μ), ite_self, ↓State.satReg_blur μ (maskSub rfl hμ)]

theorem State.setObj_blur (μ : Nat) (hμ : 0x40000 &&& μ = 0x40000) : ∀ a0 a1 a2, (State.setObj a0 a1 a2).blur μ = a0.blur μ := by
  intros; unfold State.setObj
  simp only [↓blur_40000 μ (maskSub rfl hμ)]

theorem State.modObj_blur (μ : Nat) (hμ : 0x40000 &&& μ = 0x40000) : ∀ a0 a1 a2, (State.modObj a0 a1 a2).blur μ = a0.blur μ := by
  intros; unfold State.modObj
  repeat' first | with_reducible rfl | simp only [↓State.setObj_blur μ (maskSub rfl hμ)] | split

theorem State.delObj_blur (μ : Nat) (hμ : 0x40000 &&& μ = 0x40000) : ∀ a0 a1, (State.delObj a0 a1).blur μ = a0.blur μ := by
  intros; unfold State.delObj
  simp only [↓blur_40000 μ (maskSub rfl hμ)]

theorem State.putExtentByte_blur (μ : Nat) (hμ : 0x20020 &&& μ = 0x20020) : ∀ a0 a1 a2 a3 a4 a5, (State.putExtentByte a0 a1 a2 a3 a4 a5).blur μ = a0.blur μ := by
  intros; unfold State.putExtentByte
  repeat' first | with_reducible rfl | simp only [↓blur_20 μ (maskSub rfl hμ), ↓blur_20000 μ (maskSub rfl hμ), ↓State.modCell_blur μ (maskSub rfl hμ)] | split

theorem putExtentBytes_blur (μ : Nat) (hμ : 0x20020 &&& μ = 0x20020) (h o b) : ∀ l s a, (putExtentBytes h o b s a l).blur μ = s.blur μ := by
  intro l
  induction l with
  | nil => intros; rfl
  | cons x t ih => intros; unfold putExtentBytes; simp only [↓ih, ↓State.putExtentByte_blur μ (maskSub rfl hμ)]

theorem State.objWrite_blur (μ : Nat) (hμ : 0x20020 &&& μ = 0x20020) : ∀ a0 a1 a2 a3 a4 a5, (State.objWrite a0 a1 a2 a3 a4 a5).blur μ = a0.blur μ := by
  intros; unfold State.objWrite
  simp only [↓putExtentBytes_blur μ (maskSub rfl hμ)]

theorem State.copyPool_blur (μ : Nat) (hμ : 0x20000 &&& μ = 0x20000) : ∀ a0 a1 a2, (State.copyPool a0 a1 a2).blur μ = a0.blur μ := by
  intros; unfold State.copyPool
  simp only [↓blur_20000 μ (maskSub rfl hμ)]

theorem State.dirtyExtent_blur (μ : Nat) (hμ : 0x60000 &&& μ = 0x60000) : ∀ a0 a1 a2, (State.dirtyExtent a0 a1 a2).blur μ = a0.blur μ := by
  intros; unfold State.dirtyExtent
  repeat' first | with_reducible rfl | simp only [↓apply_ite (State.blur μ), ite_self, ↓State.setObj_blur μ (maskSub rfl hμ), ↓State.copyPool_blur μ (maskSub rfl hμ)] | split

theorem State.objWriteV_blur (μ : Nat) (hμ : 0x60020 &&& μ = 0x60020) : ∀ a0 a1 a2 a3, (State.objWriteV a0 a1 a2 a3).blur μ = a0.blur μ := by
  intros; unfold State.objWriteV
  repeat' first | with_reducible rfl | intro _ | simp only [↓apply_ite (State.blur μ), ite_self, ↓foldl_blur μ, ↓State.dirtyExtent_blur μ (maskSub rfl hμ), ↓State.putExtentByte_blur μ (maskSub rfl hμ)] | split | refine (foldl_blur μ _ ?_ _ _).trans ?_ | refine (foldl1_blur μ _ ?_ _ _).trans ?_

theorem State.useObj_blur (μ : Nat) (hμ : 0x40000 &&& μ = 0x40000) : ∀ a0 a1, (State.useObj a0 a1).blur μ = a0.blur μ := by
  intros; unfold State.useObj
  simp only [↓State.modObj_blur μ (maskSub rfl hμ)]

theorem State.copyExtent_blur (μ : Nat) (hμ : 0x20020 &&& μ = 0x20020) : ∀ a0 a1 a2 a3 a4 a5, (State.copyExtent a0 a1 a2 a3 a4 a5).blur μ = a0.blur μ := by
  intros; unfold State.copyExtent
  repeat' first | with_reducible rfl | intro _ | simp only [↓blur_20 μ (maskSub rfl hμ), ↓blur_20000 μ (maskSub rfl hμ), ↓foldl_blur μ, ↓foldl1_blur μ, ↓State.modCell_blur μ (maskSub rfl hμ)] | split | refine (foldl_blur μ _ ?_ _ _).trans ?_ | refine (foldl1_blur μ _ ?_ _ _).trans ?_

theorem State.loseExtents_blur (μ : Nat) (hμ : 0x20008 &&& μ = 0x20008) : ∀ a0 a1 a2, (State.loseExtents a0 a1 a2).blur μ = a0.blur μ := by
  intros; unfold State.loseExtents
  repeat' first | with_reducible rfl | intro _ | simp only [↓blur_8 μ (maskSub rfl hμ), ↓blur_20000 μ (maskSub rfl hμ), ↓foldl_blur μ, ↓foldl1_blur μ, ↓State.fresh_blur μ (maskSub rfl hμ)] | split | refine (foldl_blur μ _ ?_ _ _).trans ?_ | refine (foldl1_blur μ _ ?_ _ _).trans ?_

theorem State.loseT0_blur (μ : Nat) (hμ : 0x28 &&& μ = 0x28) : ∀ a0 a1, (State.loseT0 a0 a1).blur μ = a0.blur μ := by
  intros; unfold State.loseT0
  repeat' first | with_reducible rfl | intro _ | simp only [↓foldl_blur μ, ↓foldl1_blur μ, ↓State.fresh_blur μ (maskSub rfl hμ), ↓State.modCell_blur μ (maskSub rfl hμ)] | split | refine (foldl_blur μ _ ?_ _ _).trans ?_ | refine (foldl1_blur μ _ ?_ _ _).trans ?_

theorem State.endCmd_blur (μ : Nat) (hμ : 0x10 &&& μ = 0x10) : ∀ a0 a1, (State.endCmd a0 a1).blur μ = a0.blur μ := by
  intros; unfold State.endCmd
  simp only [↓apply_ite (State.blur μ), ite_self, ↓State.setRegF_blur μ (maskSub rfl hμ)]

theorem State.endCmdOpen_blur (μ : Nat) (hμ : 0x18 &&& μ = 0x18) : ∀ a0, (State.endCmdOpen a0).blur μ = a0.blur μ := by
  intros; unfold State.endCmdOpen
  simp only [↓State.fresh_blur μ (maskSub rfl hμ), ↓State.endCmd_blur μ (maskSub rfl hμ)]

theorem State.yrdRaise_blur (μ : Nat) (hμ : 0x12 &&& μ = 0x12) : ∀ a0 a1 a2 a3, (State.yrdRaise a0 a1 a2 a3).blur μ = a0.blur μ := by
  intros; unfold State.yrdRaise
  simp only [↓State.raise_blur μ (maskSub rfl hμ), ↓State.setReg_blur μ (maskSub rfl hμ)]

theorem State.setAllocs_blur (μ : Nat) (hμ : 0x40000 &&& μ = 0x40000) : ∀ a0 a1, (State.setAllocs a0 a1).blur μ = a0.blur μ := by
  intros; unfold State.setAllocs
  simp only [↓blur_40000 μ (maskSub rfl hμ)]

theorem State.setTierFree_blur (μ : Nat) (hμ : 0x20000 &&& μ = 0x20000) : ∀ a0 a1 a2, (State.setTierFree a0 a1 a2).blur μ = a0.blur μ := by
  intros; unfold State.setTierFree
  simp only [↓blur_20000 μ (maskSub rfl hμ)]

theorem State.finishCreate_blur (μ : Nat) (hμ : 0x60018 &&& μ = 0x60018) : ∀ a0 a1, (State.finishCreate a0 a1).blur μ = a0.blur μ := by
  intros; unfold State.finishCreate
  simp only [↓apply_ite (State.blur μ), ite_self, ↓State.setAllocs_blur μ (maskSub rfl hμ), ↓State.loseExtents_blur μ (maskSub rfl hμ), ↓State.setObj_blur μ (maskSub rfl hμ), ↓State.endCmd_blur μ (maskSub rfl hμ)]

theorem State.serve_blur (μ : Nat) (hμ : 0x60018 &&& μ = 0x60018) : ∀ a0 a1, (State.serve a0 a1).blur μ = a0.blur μ := by
  intros; unfold State.serve
  repeat' first | with_reducible rfl | intro _ | simp only [↓apply_ite (State.blur μ), ite_self, ↓foldl_blur μ, ↓foldl1_blur μ, ↓State.setAllocs_blur μ (maskSub rfl hμ), ↓State.setTierFree_blur μ (maskSub rfl hμ), ↓State.finishCreate_blur μ (maskSub rfl hμ)] | split | refine (foldl_blur μ _ ?_ _ _).trans ?_ | refine (foldl1_blur μ _ ?_ _ _).trans ?_

theorem State.freeExtents_blur (μ : Nat) (hμ : 0x60018 &&& μ = 0x60018) : ∀ a0 a1 a2, (State.freeExtents a0 a1 a2).blur μ = a0.blur μ := by
  intros; unfold State.freeExtents
  simp only [↓apply_ite (State.blur μ), ite_self, ↓State.serve_blur μ (maskSub rfl hμ), ↓State.setTierFree_blur μ (maskSub rfl hμ)]

theorem State.evictFor_blur (μ : Nat) (hμ : 0x60018 &&& μ = 0x60018) : ∀ n s t, (State.evictFor n s t).blur μ = s.blur μ := by
  intro n
  induction n with
  | zero => intros; rfl
  | succ n ih =>
    intros; unfold State.evictFor
    repeat' first | with_reducible rfl | simp only [↓ih, ↓State.serve_blur μ (maskSub rfl hμ), ↓State.setAllocs_blur μ (maskSub rfl hμ), ↓State.addReg_blur μ (maskSub rfl hμ), ↓State.setObj_blur μ (maskSub rfl hμ)] | split

theorem State.buryObj_blur (μ : Nat) (hμ : 0x60018 &&& μ = 0x60018) : ∀ a0 a1, (State.buryObj a0 a1).blur μ = a0.blur μ := by
  intros; unfold State.buryObj
  repeat' first | with_reducible rfl | simp only [↓blur_8 μ (maskSub rfl hμ), ↓blur_10 μ (maskSub rfl hμ), ↓blur_20000 μ (maskSub rfl hμ), ↓blur_40000 μ (maskSub rfl hμ), ↓apply_ite (State.blur μ), ite_self, ↓State.freeExtents_blur μ (maskSub rfl hμ), ↓State.delObj_blur μ (maskSub rfl hμ)] | split

theorem State.failAlloc_blur (μ : Nat) (hμ : 0x6001a &&& μ = 0x6001a) : ∀ a0 a1, (State.failAlloc a0 a1).blur μ = a0.blur μ := by
  intros; unfold State.failAlloc
  repeat' first | with_reducible rfl | simp only [↓blur_2 μ (maskSub rfl hμ), ↓blur_8 μ (maskSub rfl hμ), ↓blur_10 μ (maskSub rfl hμ), ↓blur_20000 μ (maskSub rfl hμ), ↓blur_40000 μ (maskSub rfl hμ), ↓apply_ite (State.blur μ), ite_self, ↓State.setAllocs_blur μ (maskSub rfl hμ), ↓State.yrdRaise_blur μ (maskSub rfl hμ), ↓State.satReg_blur μ (maskSub rfl hμ), ↓State.modObj_blur μ (maskSub rfl hμ), ↓State.endCmd_blur μ (maskSub rfl hμ), ↓State.buryObj_blur μ (maskSub rfl hμ), ↓State.freeExtents_blur μ (maskSub rfl hμ)] | split

theorem State.startAlloc_blur (μ : Nat) (hμ : 0x6001a &&& μ = 0x6001a) : ∀ a0 a1, (State.startAlloc a0 a1).blur μ = a0.blur μ := by
  intros; unfold State.startAlloc
  simp only [↓apply_ite (State.blur μ), ite_self, ↓State.setAllocs_blur μ (maskSub rfl hμ), ↓State.failAlloc_blur μ (maskSub rfl hμ), ↓State.serve_blur μ (maskSub rfl hμ), ↓State.evictFor_blur μ (maskSub rfl hμ), ↓State.satReg_blur μ (maskSub rfl hμ)]

theorem State.startMove_blur (μ : Nat) (hμ : 0x6001a &&& μ = 0x6001a) : ∀ a0 a1 a2 a3 a4 a5 a6, (State.startMove a0 a1 a2 a3 a4 a5 a6).blur μ = a0.blur μ := by
  intros; unfold State.startMove
  simp only [↓apply_ite (State.blur μ), ite_self, ↓State.startAlloc_blur μ (maskSub rfl hμ), ↓State.setObj_blur μ (maskSub rfl hμ)]

theorem State.moveObj_blur (μ : Nat) (hμ : 0x6001a &&& μ = 0x6001a) : ∀ a0 a1 a2 a3 a4 a5, (State.moveObj a0 a1 a2 a3 a4 a5).1.blur μ = a0.blur μ := by
  intros; unfold State.moveObj
  repeat' first | with_reducible rfl | simp only [↓blur_2 μ (maskSub rfl hμ), ↓blur_8 μ (maskSub rfl hμ), ↓blur_10 μ (maskSub rfl hμ), ↓blur_20000 μ (maskSub rfl hμ), ↓blur_40000 μ (maskSub rfl hμ), ↓apply_ite (State.blur μ), ite_self, ↓apply_ite Prod.fst, ↓State.startMove_blur μ (maskSub rfl hμ)] | split

theorem State.pinObj_blur (μ : Nat) (hμ : 0x40000 &&& μ = 0x40000) : ∀ a0 a1, (State.pinObj a0 a1).1.blur μ = a0.blur μ := by
  intros; unfold State.pinObj
  repeat' first | with_reducible rfl | simp only [↓apply_ite (State.blur μ), ite_self, ↓apply_ite Prod.fst, ↓State.setObj_blur μ (maskSub rfl hμ)] | split

theorem State.unpinObj_blur (μ : Nat) (hμ : 0x40000 &&& μ = 0x40000) : ∀ a0 a1, (State.unpinObj a0 a1).1.blur μ = a0.blur μ := by
  intros; unfold State.unpinObj
  repeat' first | with_reducible rfl | simp only [↓apply_ite (State.blur μ), ite_self, ↓apply_ite Prod.fst, ↓State.setObj_blur μ (maskSub rfl hμ)] | split

theorem State.destroyObj_blur (μ : Nat) (hμ : 0x60018 &&& μ = 0x60018) : ∀ a0 a1, (State.destroyObj a0 a1).1.blur μ = a0.blur μ := by
  intros; unfold State.destroyObj
  repeat' first | with_reducible rfl | simp only [↓apply_ite (State.blur μ), ite_self, ↓apply_ite Prod.fst, ↓State.freeExtents_blur μ (maskSub rfl hμ), ↓State.delObj_blur μ (maskSub rfl hμ)] | split

theorem State.createObj_blur (μ : Nat) (hμ : 0x6001a &&& μ = 0x6001a) : ∀ a0 a1 a2 a3 a4, (State.createObj a0 a1 a2 a3 a4).1.blur μ = a0.blur μ := by
  intros; unfold State.createObj
  simp only [↓apply_ite (State.blur μ), ite_self, ↓apply_ite Prod.fst, ↓State.startAlloc_blur μ (maskSub rfl hμ)]

theorem State.yrdCommand_blur (μ : Nat) (hμ : 0x6001a &&& μ = 0x6001a) : ∀ a0 a1, (State.yrdCommand a0 a1).1.blur μ = a0.blur μ := by
  intros; unfold State.yrdCommand
  repeat' first | with_reducible rfl | simp only [↓apply_ite (State.blur μ), ite_self, ↓apply_ite Prod.fst, ↓State.reject_blur μ (maskSub rfl hμ), ↓State.setReg_blur μ (maskSub rfl hμ), ↓State.createObj_blur μ (maskSub rfl hμ), ↓State.destroyObj_blur μ (maskSub rfl hμ), ↓State.moveObj_blur μ (maskSub rfl hμ), ↓State.pinObj_blur μ (maskSub rfl hμ), ↓State.unpinObj_blur μ (maskSub rfl hμ), ↓State.endCmd_blur μ (maskSub rfl hμ)] | split

theorem State.startQueued_blur (μ : Nat) (hμ : 0x6001a &&& μ = 0x6001a) : ∀ a0 a1, (State.startQueued a0 a1).blur μ = a0.blur μ := by
  intros; unfold State.startQueued
  repeat' first | with_reducible rfl | simp only [↓blur_2 μ (maskSub rfl hμ), ↓blur_8 μ (maskSub rfl hμ), ↓blur_10 μ (maskSub rfl hμ), ↓blur_20000 μ (maskSub rfl hμ), ↓blur_40000 μ (maskSub rfl hμ), ↓apply_ite (State.blur μ), ite_self, ↓State.moveObj_blur μ (maskSub rfl hμ), ↓State.endCmd_blur μ (maskSub rfl hμ)] | split

theorem State.endMove_blur (μ : Nat) (hμ : 0x6001a &&& μ = 0x6001a) : ∀ a0 a1, (State.endMove a0 a1).blur μ = a0.blur μ := by
  intros; unfold State.endMove
  simp only [↓apply_ite (State.blur μ), ite_self, ↓State.setAllocs_blur μ (maskSub rfl hμ), ↓State.modObj_blur μ (maskSub rfl hμ), ↓State.addReg_blur μ (maskSub rfl hμ), ↓State.endCmd_blur μ (maskSub rfl hμ), ↓State.startQueued_blur μ (maskSub rfl hμ), ↓State.buryObj_blur μ (maskSub rfl hμ)]

theorem takeBack_blur (μ : Nat) (hμ : 0x60000 &&& μ = 0x60000) : ∀ a0 a1 a2, (takeBack a0 a1 a2).1.blur μ = a0.blur μ := by
  intros; unfold takeBack
  repeat' first | with_reducible rfl | intro _ | simp only [↓apply_ite (State.blur μ), ite_self, ↓apply_ite Prod.fst, ↓foldl_blur μ, ↓foldl1_blur μ, ↓State.setTierFree_blur μ (maskSub rfl hμ), ↓State.setAllocs_blur μ (maskSub rfl hμ)] | split | refine (foldl_blur μ _ ?_ _ _).trans ?_ | refine (foldl1_blur μ _ ?_ _ _).trans ?_

theorem State.abandonMove_blur (μ : Nat) (hμ : 0x6003a &&& μ = 0x6003a) : ∀ a0 a1, (State.abandonMove a0 a1).blur μ = a0.blur μ := by
  intros; unfold State.abandonMove
  repeat' first | with_reducible rfl | intro _ | simp only [↓apply_ite (State.blur μ), ite_self, ↓foldl_blur μ, ↓foldl1_blur μ, ↓State.copyExtent_blur μ (maskSub rfl hμ), ↓takeBack_blur μ (maskSub rfl hμ), ↓State.setAllocs_blur μ (maskSub rfl hμ), ↓State.modObj_blur μ (maskSub rfl hμ), ↓State.endCmdOpen_blur μ (maskSub rfl hμ), ↓State.freeExtents_blur μ (maskSub rfl hμ), ↓State.startQueued_blur μ (maskSub rfl hμ), ↓State.buryObj_blur μ (maskSub rfl hμ), ↓State.evictFor_blur μ (maskSub rfl hμ)] | split | refine (foldl_blur μ _ ?_ _ _).trans ?_ | refine (foldl1_blur μ _ ?_ _ _).trans ?_

theorem State.extentCopyDone_blur (μ : Nat) (hμ : 0x6003a &&& μ = 0x6003a) : ∀ a0 a1 a2, (State.extentCopyDone a0 a1 a2).blur μ = a0.blur μ := by
  intros; unfold State.extentCopyDone
  repeat' first | with_reducible rfl | simp only [↓apply_ite (State.blur μ), ite_self, ↓State.abandonMove_blur μ (maskSub rfl hμ), ↓State.yrdRaise_blur μ (maskSub rfl hμ), ↓State.countBoard_blur μ (maskSub rfl hμ), ↓State.copyExtent_blur μ (maskSub rfl hμ), ↓State.setAllocs_blur μ (maskSub rfl hμ), ↓State.freeExtents_blur μ (maskSub rfl hμ), ↓State.endMove_blur μ (maskSub rfl hμ)] | split

theorem State.allocationRetry_blur (μ : Nat) (hμ : 0x60018 &&& μ = 0x60018) : ∀ a0, (State.allocationRetry a0).blur μ = a0.blur μ := by
  intros; unfold State.allocationRetry
  repeat' first | with_reducible rfl | intro _ | simp only [↓foldl_blur μ, ↓State.evictFor_blur μ (maskSub rfl hμ), ↓State.serve_blur μ (maskSub rfl hμ)] | split | refine (foldl_blur μ _ ?_ _ _).trans ?_ | refine (foldl1_blur μ _ ?_ _ _).trans ?_

theorem State.allocationLimit_blur (μ : Nat) (hμ : 0x6001a &&& μ = 0x6001a) : ∀ a0 a1, (State.allocationLimit a0 a1).blur μ = a0.blur μ := by
  intros; unfold State.allocationLimit
  repeat' first | with_reducible rfl | simp only [↓State.startQueued_blur μ (maskSub rfl hμ), ↓State.failAlloc_blur μ (maskSub rfl hμ)] | split

theorem State.loseT0Cells_blur (μ : Nat) (hμ : 0x4003a &&& μ = 0x4003a) : ∀ a0 a1, (State.loseT0Cells a0 a1).blur μ = a0.blur μ := by
  intros; unfold State.loseT0Cells
  repeat' first | with_reducible rfl | intro _ | simp only [↓apply_ite (State.blur μ), ite_self, ↓foldl_blur μ, ↓foldl1_blur μ, ↓State.fresh_blur μ (maskSub rfl hμ), ↓State.modCell_blur μ (maskSub rfl hμ), ↓State.yrdRaise_blur μ (maskSub rfl hμ), ↓State.modObj_blur μ (maskSub rfl hμ)] | split | refine (foldl_blur μ _ ?_ _ _).trans ?_ | refine (foldl1_blur μ _ ?_ _ _).trans ?_

theorem State.damage_blur (μ : Nat) (hμ : 0x40000 &&& μ = 0x40000) : ∀ a0 a1, (State.damage a0 a1).blur μ = a0.blur μ := by
  intros; unfold State.damage
  repeat' first | with_reducible rfl | intro _ | simp only [↓apply_ite (State.blur μ), ite_self, ↓foldl_blur μ, ↓foldl1_blur μ, ↓State.modObj_blur μ (maskSub rfl hμ)] | split | refine (foldl_blur μ _ ?_ _ _).trans ?_ | refine (foldl1_blur μ _ ?_ _ _).trans ?_

theorem State.bulkCtrl_blur (μ : Nat) (hμ : 0x20001a &&& μ = 0x20001a) : ∀ a0 a1 a2 a3, (State.bulkCtrl a0 a1 a2 a3).1.blur μ = a0.blur μ := by
  intros; unfold State.bulkCtrl
  simp only [↓apply_ite (State.blur μ), ite_self, ↓apply_ite Prod.fst, ↓State.setRegF_blur μ (maskSub rfl hμ), ↓State.closeWin_blur μ (maskSub rfl hμ), ↓State.reject_blur μ (maskSub rfl hμ), ↓State.fresh_blur μ (maskSub rfl hμ), ↓State.setWin_blur μ (maskSub rfl hμ)]

theorem State.rowWrite_blur (μ : Nat) (hμ : 0x60020 &&& μ = 0x60020) : ∀ a0 a1 a2, (State.rowWrite a0 a1 a2).blur μ = a0.blur μ := by
  intros; unfold State.rowWrite
  simp only [↓blur_20 μ (maskSub rfl hμ), ↓blur_20000 μ (maskSub rfl hμ), ↓blur_40000 μ (maskSub rfl hμ), ↓blur_40020 μ (maskSub rfl hμ), ↓apply_ite (State.blur μ), ite_self, ↓State.useObj_blur μ (maskSub rfl hμ), ↓State.objWriteV_blur μ (maskSub rfl hμ)]

theorem State.rejectRow_blur (μ : Nat) (hμ : 0x2 &&& μ = 0x2) : ∀ a0 a1 a2 a3, (State.rejectRow a0 a1 a2 a3).blur μ = a0.blur μ := by
  intros; unfold State.rejectRow
  repeat' first | with_reducible rfl | simp only [↓State.raise_blur μ (maskSub rfl hμ)] | split

theorem State.streamWrite_blur (μ : Nat) (hμ : 0x60020 &&& μ = 0x60020) : ∀ a0 a1 a2 a3, (State.streamWrite a0 a1 a2 a3).blur μ = a0.blur μ := by
  intros; unfold State.streamWrite
  repeat' first | with_reducible rfl | intro _ | simp only [↓foldl_blur μ, ↓foldl1_blur μ, ↓State.rowWrite_blur μ (maskSub rfl hμ)] | split | refine (foldl_blur μ _ ?_ _ _).trans ?_ | refine (foldl1_blur μ _ ?_ _ _).trans ?_

theorem State.useWin_blur (μ : Nat) (hμ : 0x40000 &&& μ = 0x40000) : ∀ a0 a1, (State.useWin a0 a1).blur μ = a0.blur μ := by
  intros; unfold State.useWin
  simp only [↓apply_ite (State.blur μ), ite_self, ↓State.useObj_blur μ (maskSub rfl hμ)]

theorem State.bulkRefuse_blur (μ : Nat) (hμ : 0x1c &&& μ = 0x1c) : ∀ a0 a1 a2 a3 a4, (State.bulkRefuse a0 a1 a2 a3 a4).blur μ = a0.blur μ := by
  intros; unfold State.bulkRefuse
  simp only [↓apply_ite (State.blur μ), ite_self, ↓State.satReg_blur μ (maskSub rfl hμ), ↓State.answerNotReady_blur μ (maskSub rfl hμ), ↓State.answer_blur μ (maskSub rfl hμ)]

theorem State.bulkAck_blur (μ : Nat) (hμ : 0x200014 &&& μ = 0x200014) : ∀ a0 a1 a2, (State.bulkAck a0 a1 a2).blur μ = a0.blur μ := by
  intros; unfold State.bulkAck
  simp only [↓apply_ite (State.blur μ), ite_self, ↓State.sendAnswer_blur μ (maskSub rfl hμ), ↓State.setWin_blur μ (maskSub rfl hμ)]

theorem State.bulkData_blur (μ : Nat) (hμ : 0x26003e &&& μ = 0x26003e) : ∀ a0 a1 a2 a3, (State.bulkData a0 a1 a2 a3).blur μ = a0.blur μ := by
  intros; unfold State.bulkData
  simp only [↓apply_ite (State.blur μ), ite_self, ↓State.bulkRefuse_blur μ (maskSub rfl hμ), ↓State.bulkAck_blur μ (maskSub rfl hμ), ↓State.rejectRow_blur μ (maskSub rfl hμ), ↓State.setWin_blur μ (maskSub rfl hμ), ↓State.streamWrite_blur μ (maskSub rfl hμ)]

theorem execBulkAckTimer_blur (μ : Nat) (hμ : 0x200014 &&& μ = 0x200014) : ∀ a0 a1, ∀ t, execBulkAckTimer a0 a1 = .next t → t.blur μ = a1.blur μ := by
  intros a0 a1 t h; unfold execBulkAckTimer at h; cases h
  repeat' first | with_reducible rfl | simp only [↓apply_ite (State.blur μ), ite_self, ↓State.bulkAck_blur μ (maskSub rfl hμ)] | split

theorem State.readFrame_blur (μ : Nat) (hμ : 0x24001e &&& μ = 0x24001e) : ∀ a0 a1 a2 a3 a4 a5, (State.readFrame a0 a1 a2 a3 a4 a5).blur μ = a0.blur μ := by
  intros; unfold State.readFrame
  simp only [↓apply_ite (State.blur μ), ite_self, ↓State.answer_blur μ (maskSub rfl hμ), ↓State.satReg_blur μ (maskSub rfl hμ), ↓State.rejectRow_blur μ (maskSub rfl hμ), ↓State.countBoard_blur μ (maskSub rfl hμ), ↓State.freeBytes_blur μ (maskSub rfl hμ), ↓State.useWin_blur μ (maskSub rfl hμ), ↓State.setWin_blur μ (maskSub rfl hμ)]

theorem State.bulkRead_blur (μ : Nat) (hμ : 0x24001e &&& μ = 0x24001e) : ∀ a0 a1 a2 a3, (State.bulkRead a0 a1 a2 a3).blur μ = a0.blur μ := by
  intros; unfold State.bulkRead
  repeat' first | with_reducible rfl | intro _ | simp only [↓apply_ite (State.blur μ), ite_self, ↓foldl_blur μ, ↓State.bulkRefuse_blur μ (maskSub rfl hμ), ↓State.readFrame_blur μ (maskSub rfl hμ)] | split | refine (foldl_blur μ _ ?_ _ _).trans ?_ | refine (foldl1_blur μ _ ?_ _ _).trans ?_

theorem State.kctFront_done_blur (μ : Nat) (hμ : 0x1c &&& μ = 0x1c) {s q f t} (h : State.kctFront s q f = .done t) : t.blur μ = s.blur μ := by
  unfold State.kctFront at h
  dsimp only at h
  repeat' split at h
  all_goals first | contradiction | (injection h with h; subst h)
  all_goals first | with_reducible rfl | simp only [↓blur_4 μ (maskSub rfl hμ), ↓blur_8 μ (maskSub rfl hμ), ↓blur_10 μ (maskSub rfl hμ), ↓apply_ite (State.blur μ), ite_self, ↓State.countRx_blur μ (maskSub rfl hμ), ↓State.satReg_blur μ (maskSub rfl hμ), ↓State.answer_blur μ (maskSub rfl hμ), ↓State.answerNotReady_blur μ (maskSub rfl hμ), ↓State.sendAnswer_blur μ (maskSub rfl hμ)]
theorem State.kctFront_run_blur (μ : Nat) (hμ : 0x1c &&& μ = 0x1c) {s q f t} (h : State.kctFront s q f = .run t) : t.blur μ = s.blur μ := by
  unfold State.kctFront at h
  dsimp only at h
  repeat' split at h
  all_goals first | contradiction | (injection h with h; subst h)
  all_goals first | with_reducible rfl | simp only [↓blur_4 μ (maskSub rfl hμ), ↓blur_8 μ (maskSub rfl hμ), ↓blur_10 μ (maskSub rfl hμ), ↓apply_ite (State.blur μ), ite_self, ↓State.countRx_blur μ (maskSub rfl hμ), ↓State.satReg_blur μ (maskSub rfl hμ), ↓State.answer_blur μ (maskSub rfl hμ), ↓State.answerNotReady_blur μ (maskSub rfl hμ), ↓State.sendAnswer_blur μ (maskSub rfl hμ)]

theorem State.bulkFrame_blur (μ : Nat) (hμ : 0x1c &&& μ = 0x1c) (s f act) (h : ∀ t, (act t).blur μ = t.blur μ) : (State.bulkFrame s f act).blur μ = s.blur μ := by
  unfold State.bulkFrame
  split
  · exact State.kctFront_done_blur μ (maskSub rfl hμ) (by assumption)
  · rw [h]; exact State.kctFront_run_blur μ (maskSub rfl hμ) (by assumption)

theorem execBulkData_blur (μ : Nat) (hμ : 0x26003e &&& μ = 0x26003e) : ∀ a0 a1 a2, ∀ t, execBulkData a0 a1 a2 = .next t → t.blur μ = a2.blur μ := by
  intros a0 a1 a2 t h; unfold execBulkData at h; cases h
  repeat' first | with_reducible rfl | intro _ | simp only [↓apply_ite (State.blur μ), ite_self, ↓State.bulkData_blur μ (maskSub rfl hμ)] | refine (State.bulkFrame_blur μ (maskSub rfl hμ) _ _ _ ?_).trans ?_ | split

theorem execBulkRead_blur (μ : Nat) (hμ : 0x24001e &&& μ = 0x24001e) : ∀ a0 a1 a2, ∀ t, execBulkRead a0 a1 a2 = .next t → t.blur μ = a2.blur μ := by
  intros a0 a1 a2 t h; unfold execBulkRead at h; cases h
  repeat' first | with_reducible rfl | intro _ | simp only [↓apply_ite (State.blur μ), ite_self, ↓State.bulkRead_blur μ (maskSub rfl hμ)] | refine (State.bulkFrame_blur μ (maskSub rfl hμ) _ _ _ ?_).trans ?_ | split

theorem State.onQp_blur (μ : Nat) (hμ : 0x10 &&& μ = 0x10) (s k act) (h : ∀ t x, (act t x).blur μ = t.blur μ) : (State.onQp s k act).blur μ = s.blur μ := by
  unfold State.onQp
  split
  · apply State.roceFrame_blur μ (maskSub rfl hμ); intro t; split
    · rfl
    · apply h
  · rfl

theorem execRdmaWrite_blur (μ : Nat) (hμ : 0x260036 &&& μ = 0x260036) : ∀ a0 a1 a2 a3 a4 a5 a6, ∀ t, execRdmaWrite a0 a1 a2 a3 a4 a5 a6 = .next t → t.blur μ = a6.blur μ := by
  intros a0 a1 a2 a3 a4 a5 a6 t h; unfold execRdmaWrite at h; cases h
  repeat' first | with_reducible rfl | intro _ | simp only [↓apply_ite (State.blur μ), ite_self, ↓State.buffer_blur μ (maskSub rfl hμ), ↓State.sendEth_blur μ (maskSub rfl hμ), ↓State.rejectRow_blur μ (maskSub rfl hμ), ↓State.satReg_blur μ (maskSub rfl hμ), ↓State.setWin_blur μ (maskSub rfl hμ), ↓State.streamWrite_blur μ (maskSub rfl hμ)] | refine (State.onQp_blur μ (maskSub rfl hμ) _ _ _ ?_).trans ?_ | split

theorem execRdmaRead_blur (μ : Nat) (hμ : 0x240016 &&& μ = 0x240016) : ∀ a0 a1 a2 a3 a4 a5, ∀ t, execRdmaRead a0 a1 a2 a3 a4 a5 = .next t → t.blur μ = a5.blur μ := by
  intros a0 a1 a2 a3 a4 a5 t h; unfold execRdmaRead at h; cases h
  repeat' first | with_reducible rfl | intro _ | simp only [↓apply_ite (State.blur μ), ite_self, ↓State.sendEth_blur μ (maskSub rfl hμ), ↓State.rejectRow_blur μ (maskSub rfl hμ), ↓State.satReg_blur μ (maskSub rfl hμ), ↓State.useWin_blur μ (maskSub rfl hμ), ↓State.setWin_blur μ (maskSub rfl hμ)] | refine (State.onQp_blur μ (maskSub rfl hμ) _ _ _ ?_).trans ?_ | split

theorem State.settle_blur (μ : Nat) (hμ : 0x22 &&& μ = 0x22) : ∀ a0 a1, (State.settle a0 a1).blur μ = a0.blur μ := by
  intros; unfold State.settle
  repeat' first | with_reducible rfl | simp only [↓apply_ite (State.blur μ), ite_self, ↓State.send_blur μ (maskSub rfl hμ), ↓State.setCell_blur μ (maskSub rfl hμ), ↓State.raiseCell_blur μ (maskSub rfl hμ)] | split

theorem State.drive_blur (μ : Nat) (hμ : 0x20 &&& μ = 0x20) : ∀ a0 a1 a2, (State.drive a0 a1 a2).blur μ = a0.blur μ := by
  intros; unfold State.drive
  repeat' first | with_reducible rfl | simp only [↓apply_ite (State.blur μ), ite_self, ↓State.setCell_blur μ (maskSub rfl hμ)] | split

theorem State.offer_no_blur (μ : Nat) (hμ : 0x22 &&& μ = 0x22) {s c a b w t} (h : State.offer s c a b w = .no t) : t.blur μ = s.blur μ := by
  unfold State.offer at h
  dsimp only at h
  repeat' split at h
  all_goals first | contradiction | (injection h with h; subst h)
  all_goals first | with_reducible rfl | simp only [↓State.setCell_blur μ (maskSub rfl hμ), ↓State.settle_blur μ (maskSub rfl hμ)]
theorem State.offer_go_blur (μ : Nat) (hμ : 0x22 &&& μ = 0x22) {s c a b w t x y} (h : State.offer s c a b w = .go t x y) : t.blur μ = s.blur μ := by
  unfold State.offer at h
  dsimp only at h
  repeat' split at h
  all_goals first | contradiction | (injection h with h; subst h)
  all_goals first | with_reducible rfl | simp only [↓State.setCell_blur μ (maskSub rfl hμ), ↓State.settle_blur μ (maskSub rfl hμ)]

theorem State.issueEngine_blur (μ : Nat) (hμ : 0x22 &&& μ = 0x22) : ∀ a0 a1 a2 a3 a4, (State.issueEngine a0 a1 a2 a3 a4).blur μ = a0.blur μ := by
  intros; unfold State.issueEngine
  repeat' first | with_reducible rfl | simp only [↓State.settle_blur μ (maskSub rfl hμ), ↓State.drive_blur μ (maskSub rfl hμ), ↓State.modCell_blur μ (maskSub rfl hμ)] | refine (State.offer_no_blur μ (maskSub rfl hμ) (by assumption)).trans ?_ | refine (State.offer_go_blur μ (maskSub rfl hμ) (by assumption)).trans ?_ | split

theorem State.enterBarrier_blur (μ : Nat) (hμ : 0x22 &&& μ = 0x22) : ∀ a0 a1, (State.enterBarrier a0 a1).blur μ = a0.blur μ := by
  intros; unfold State.enterBarrier
  repeat' first | with_reducible rfl | simp only [↓State.setCell_blur μ (maskSub rfl hμ), ↓State.send_blur μ (maskSub rfl hμ)] | split

theorem State.queueSignal_blur (μ : Nat) (hμ : 0x60 &&& μ = 0x60) : ∀ a0 a1 a2, (State.queueSignal a0 a1 a2).blur μ = a0.blur μ := by
  intros; unfold State.queueSignal
  simp only [↓apply_ite (State.blur μ), ite_self, ↓State.setFm_blur μ (maskSub rfl hμ), ↓State.modCell_blur μ (maskSub rfl hμ)]

theorem State.takeEvent_blur (μ : Nat) (hμ : 0x62 &&& μ = 0x62) {s f w t} (h : State.takeEvent s f = some (w, t)) : t.blur μ = s.blur μ := by
  unfold State.takeEvent at h
  dsimp only at h
  repeat' split at h
  all_goals first | contradiction | (simp only [Option.some.injEq, Prod.mk.injEq] at h; obtain ⟨-, h⟩ := h; subst h)
  all_goals simp only [↓State.setFm_blur μ (maskSub rfl hμ), ↓State.queueSignal_blur μ (maskSub rfl hμ), ↓State.settle_blur μ (maskSub rfl hμ)]

theorem State.complete_blur (μ : Nat) (hμ : 0x22 &&& μ = 0x22) : ∀ a0 a1 a2 a3, (State.complete a0 a1 a2 a3).blur μ = a0.blur μ := by
  intros; unfold State.complete
  repeat' first | with_reducible rfl | simp only [↓apply_ite (State.blur μ), ite_self, ↓State.drive_blur μ (maskSub rfl hμ), ↓State.setCell_blur μ (maskSub rfl hμ), ↓State.settle_blur μ (maskSub rfl hμ)] | split

theorem State.endLooper_blur (μ : Nat) (hμ : 0x22 &&& μ = 0x22) : ∀ a0 a1 a2, (State.endLooper a0 a1 a2).blur μ = a0.blur μ := by
  intros; unfold State.endLooper
  simp only [↓apply_ite (State.blur μ), ite_self, ↓State.settle_blur μ (maskSub rfl hμ), ↓State.setCell_blur μ (maskSub rfl hμ), ↓State.send_blur μ (maskSub rfl hμ)]

theorem execStepNop_blur (μ : Nat) (hμ : 0x22 &&& μ = 0x22) : ∀ a0 a1 a2, ∀ t, execStepNop a0 a1 a2 = .next t → t.blur μ = a2.blur μ := by
  intros a0 a1 a2 t h; unfold execStepNop at h; cases h
  repeat' first | with_reducible rfl | simp only [↓State.modCell_blur μ (maskSub rfl hμ)] | refine (State.offer_no_blur μ (maskSub rfl hμ) (by assumption)).trans ?_ | refine (State.offer_go_blur μ (maskSub rfl hμ) (by assumption)).trans ?_ | split

theorem execStepMatrix_blur (μ : Nat) (hμ : 0x22 &&& μ = 0x22) : ∀ a0 a1 a2, ∀ t, execStepMatrix a0 a1 a2 = .next t → t.blur μ = a2.blur μ := by
  intros a0 a1 a2 t h; unfold execStepMatrix at h; cases h
  simp only [↓State.issueEngine_blur μ (maskSub rfl hμ)]

theorem execStepVector_blur (μ : Nat) (hμ : 0x22 &&& μ = 0x22) : ∀ a0 a1 a2, ∀ t, execStepVector a0 a1 a2 = .next t → t.blur μ = a2.blur μ := by
  intros a0 a1 a2 t h; unfold execStepVector at h; cases h
  simp only [↓State.issueEngine_blur μ (maskSub rfl hμ)]

theorem execStepLoad_blur (μ : Nat) (hμ : 0x22 &&& μ = 0x22) : ∀ a0 a1 a2, ∀ t, execStepLoad a0 a1 a2 = .next t → t.blur μ = a2.blur μ := by
  intros a0 a1 a2 t h; unfold execStepLoad at h; cases h
  simp only [↓State.issueEngine_blur μ (maskSub rfl hμ)]

theorem execStepStore_blur (μ : Nat) (hμ : 0x22 &&& μ = 0x22) : ∀ a0 a1 a2, ∀ t, execStepStore a0 a1 a2 = .next t → t.blur μ = a2.blur μ := by
  intros a0 a1 a2 t h; unfold execStepStore at h; cases h
  simp only [↓State.issueEngine_blur μ (maskSub rfl hμ)]

theorem State.gate_blur (μ : Nat) (hμ : 0x22 &&& μ = 0x22) (s c a b act) (h : ∀ t x y, (act t x y).blur μ = t.blur μ) : (State.gate s c a b act).blur μ = s.blur μ := by
  unfold State.gate
  split
  · exact State.offer_no_blur μ (maskSub rfl hμ) (by assumption)
  · rw [h]; exact State.offer_go_blur μ (maskSub rfl hμ) (by assumption)

theorem execGateWait_blur (μ : Nat) (hμ : 0x22 &&& μ = 0x22) : ∀ a0 a1 a2, ∀ t, execGateWait a0 a1 a2 = .next t → t.blur μ = a2.blur μ := by
  intros a0 a1 a2 t h; unfold execGateWait at h; cases h
  repeat' first | with_reducible rfl | intro _ | simp only [↓State.settle_blur μ (maskSub rfl hμ), ↓State.modCell_blur μ (maskSub rfl hμ)] | refine (State.gate_blur μ (maskSub rfl hμ) _ _ _ _ _ ?_).trans ?_ | split

theorem execGateBarrierEnter_blur (μ : Nat) (hμ : 0x22 &&& μ = 0x22) : ∀ a0 a1 a2, ∀ t, execGateBarrierEnter a0 a1 a2 = .next t → t.blur μ = a2.blur μ := by
  intros a0 a1 a2 t h; unfold execGateBarrierEnter at h; cases h
  repeat' first | with_reducible rfl | intro _ | simp only [↓State.settle_blur μ (maskSub rfl hμ), ↓State.modCell_blur μ (maskSub rfl hμ), ↓State.enterBarrier_blur μ (maskSub rfl hμ)] | refine (State.gate_blur μ (maskSub rfl hμ) _ _ _ _ _ ?_).trans ?_ | split

theorem execGateSignal_blur (μ : Nat) (hμ : 0x62 &&& μ = 0x62) : ∀ a0 a1 a2, ∀ t, execGateSignal a0 a1 a2 = .next t → t.blur μ = a2.blur μ := by
  intros a0 a1 a2 t h; unfold execGateSignal at h; cases h
  repeat' first | with_reducible rfl | intro _ | simp only [↓State.settle_blur μ (maskSub rfl hμ), ↓State.queueSignal_blur μ (maskSub rfl hμ), ↓State.modCell_blur μ (maskSub rfl hμ)] | refine (State.gate_blur μ (maskSub rfl hμ) _ _ _ _ _ ?_).trans ?_ | split

theorem execStepScalar_blur (μ : Nat) (hμ : 0x22 &&& μ = 0x22) : ∀ a0 a1 a2, ∀ t, execStepScalar a0 a1 a2 = .next t → t.blur μ = a2.blur μ := by
  intros a0 a1 a2 t h; unfold execStepScalar at h; cases h
  repeat' first | with_reducible rfl | simp only [↓State.send_blur μ (maskSub rfl hμ), ↓State.modCell_blur μ (maskSub rfl hμ)] | refine (State.offer_no_blur μ (maskSub rfl hμ) (by assumption)).trans ?_ | refine (State.offer_go_blur μ (maskSub rfl hμ) (by assumption)).trans ?_ | split

theorem execStepEnd_blur (μ : Nat) (hμ : 0x22 &&& μ = 0x22) : ∀ a0 a1 a2, ∀ t, execStepEnd a0 a1 a2 = .next t → t.blur μ = a2.blur μ := by
  intros a0 a1 a2 t h; unfold execStepEnd at h; cases h
  repeat' first | with_reducible rfl | simp only [↓apply_ite (State.blur μ), ite_self, ↓State.endLooper_blur μ (maskSub rfl hμ), ↓State.modCell_blur μ (maskSub rfl hμ)] | refine (State.offer_no_blur μ (maskSub rfl hμ) (by assumption)).trans ?_ | refine (State.offer_go_blur μ (maskSub rfl hμ) (by assumption)).trans ?_ | split

theorem State.completeLooper_blur (μ : Nat) (hμ : 0x22 &&& μ = 0x22) : ∀ a0 a1, (State.completeLooper a0 a1).blur μ = a0.blur μ := by
  intros; unfold State.completeLooper
  repeat' first | with_reducible rfl | simp only [↓apply_ite (State.blur μ), ite_self, ↓State.settle_blur μ (maskSub rfl hμ), ↓State.setCell_blur μ (maskSub rfl hμ), ↓State.endLooper_blur μ (maskSub rfl hμ)] | split

theorem execGateTimeout_blur (μ : Nat) (hμ : 0x22 &&& μ = 0x22) : ∀ a0 a1, ∀ t, execGateTimeout a0 a1 = .next t → t.blur μ = a1.blur μ := by
  intros a0 a1 t h; unfold execGateTimeout at h; cases h
  repeat' first | with_reducible rfl | simp only [↓apply_ite (State.blur μ), ite_self, ↓State.settle_blur μ (maskSub rfl hμ), ↓State.setCell_blur μ (maskSub rfl hμ)] | split

theorem State.fenceCell_blur (μ : Nat) (hμ : 0x28 &&& μ = 0x28) : ∀ a0 a1, (State.fenceCell a0 a1).blur μ = a0.blur μ := by
  intros; unfold State.fenceCell
  simp only [↓State.fresh_blur μ (maskSub rfl hμ), ↓State.modCell_blur μ (maskSub rfl hμ)]

theorem State.startLooper_blur (μ : Nat) (hμ : 0x20 &&& μ = 0x20) : ∀ a0 a1 a2, (State.startLooper a0 a1 a2).blur μ = a0.blur μ := by
  intros; unfold State.startLooper
  simp only [↓apply_ite (State.blur μ), ite_self, ↓State.setCell_blur μ (maskSub rfl hμ)]

theorem State.stopLooper_blur (μ : Nat) (hμ : 0x22 &&& μ = 0x22) : ∀ a0 a1 a2, (State.stopLooper a0 a1 a2).blur μ = a0.blur μ := by
  intros; unfold State.stopLooper
  repeat' first | with_reducible rfl | simp only [↓State.settle_blur μ (maskSub rfl hμ), ↓State.setCell_blur μ (maskSub rfl hμ)] | split

theorem State.toCell_blur (μ : Nat) (hμ : 0x2 &&& μ = 0x2) (s m c act) (h : ∀ t, (act t).blur μ = t.blur μ) : (State.toCell s m c act).blur μ = s.blur μ := by
  unfold State.toCell
  repeat' first | with_reducible rfl | simp only [↓State.deliver_blur μ (maskSub rfl hμ), ↓h] | split

theorem execFence_blur (μ : Nat) (hμ : 0x2a &&& μ = 0x2a) : ∀ a0 a1, ∀ t, execFence a0 a1 = .next t → t.blur μ = a1.blur μ := by
  intros a0 a1 t h; unfold execFence at h; cases h
  repeat' first | with_reducible rfl | intro _ | simp only [↓State.fenceCell_blur μ (maskSub rfl hμ)] | refine (State.toCell_blur μ (maskSub rfl hμ) _ _ _ _ ?_).trans ?_ | split

theorem execLooperStart_blur (μ : Nat) (hμ : 0x22 &&& μ = 0x22) : ∀ a0 a1 a2, ∀ t, execLooperStart a0 a1 a2 = .next t → t.blur μ = a2.blur μ := by
  intros a0 a1 a2 t h; unfold execLooperStart at h; cases h
  repeat' first | with_reducible rfl | intro _ | simp only [↓State.startLooper_blur μ (maskSub rfl hμ)] | refine (State.toCell_blur μ (maskSub rfl hμ) _ _ _ _ ?_).trans ?_ | split

theorem execLooperStop_blur (μ : Nat) (hμ : 0x22 &&& μ = 0x22) : ∀ a0 a1 a2, ∀ t, execLooperStop a0 a1 a2 = .next t → t.blur μ = a2.blur μ := by
  intros a0 a1 a2 t h; unfold execLooperStop at h; cases h
  repeat' first | with_reducible rfl | intro _ | simp only [↓State.stopLooper_blur μ (maskSub rfl hμ)] | refine (State.toCell_blur μ (maskSub rfl hμ) _ _ _ _ ?_).trans ?_ | split

theorem execScalarWrite_blur (μ : Nat) (hμ : 0x22 &&& μ = 0x22) : ∀ a0 a1 a2 a3, ∀ t, execScalarWrite a0 a1 a2 a3 = .next t → t.blur μ = a3.blur μ := by
  intros a0 a1 a2 a3 t h; unfold execScalarWrite at h; cases h
  repeat' first | with_reducible rfl | intro _ | simp only [↓apply_ite (State.blur μ), ite_self, ↓State.settle_blur μ (maskSub rfl hμ), ↓State.setCell_blur μ (maskSub rfl hμ)] | refine (State.toCell_blur μ (maskSub rfl hμ) _ _ _ _ ?_).trans ?_ | split

theorem execComplete_blur (μ : Nat) (hμ : 0x42 &&& μ = 0x42) : ∀ a0 a1, ∀ t, execComplete a0 a1 = .next t → t.blur μ = a1.blur μ := by
  intros a0 a1 t h; unfold execComplete at h; cases h
  simp only [↓State.modFm_blur μ (maskSub rfl hμ), ↓State.deliver_blur μ (maskSub rfl hμ)]

theorem execTallyRead_blur (μ : Nat) (hμ : 0x2 &&& μ = 0x2) : ∀ a0 a1 a2, ∀ t, execTallyRead a0 a1 a2 = .next t → t.blur μ = a2.blur μ := by
  intros a0 a1 a2 t h; unfold execTallyRead at h; cases h
  repeat' first | with_reducible rfl | intro _ | simp only [↓State.send_blur μ (maskSub rfl hμ)] | refine (State.toCell_blur μ (maskSub rfl hμ) _ _ _ _ ?_).trans ?_ | split

theorem execTallyClear_blur (μ : Nat) (hμ : 0x22 &&& μ = 0x22) : ∀ a0 a1, ∀ t, execTallyClear a0 a1 = .next t → t.blur μ = a1.blur μ := by
  intros a0 a1 t h; unfold execTallyClear at h; cases h
  repeat' first | with_reducible rfl | intro _ | simp only [↓State.modCell_blur μ (maskSub rfl hμ)] | refine (State.toCell_blur μ (maskSub rfl hμ) _ _ _ _ ?_).trans ?_ | split

theorem State.raiseFm_blur (μ : Nat) (hμ : 0x2 &&& μ = 0x2) : ∀ a0 a1 a2, (State.raiseFm a0 a1 a2).blur μ = a0.blur μ := by
  intros; unfold State.raiseFm
  simp only [↓State.raise_blur μ (maskSub rfl hμ)]

theorem State.abandonBuild_blur (μ : Nat) (hμ : 0x50 &&& μ = 0x50) : ∀ a0 a1, (State.abandonBuild a0 a1).blur μ = a0.blur μ := by
  intros; unfold State.abandonBuild
  simp only [↓apply_ite (State.blur μ), ite_self, ↓State.setRegF_blur μ (maskSub rfl hμ), ↓State.modFm_blur μ (maskSub rfl hμ)]

theorem State.faultFm_blur (μ : Nat) (hμ : 0x42 &&& μ = 0x42) : ∀ a0 a1 a2, (State.faultFm a0 a1 a2).blur μ = a0.blur μ := by
  intros; unfold State.faultFm
  simp only [↓State.raiseFm_blur μ (maskSub rfl hμ), ↓State.modFm_blur μ (maskSub rfl hμ)]

theorem State.fmnStep_blur (μ : Nat) (hμ : 0x42 &&& μ = 0x42) (s f op act) (h : ∀ t x w, (act t x w).blur μ = t.blur μ) : (State.fmnStep s f op act).blur μ = s.blur μ := by
  unfold State.fmnStep
  repeat' first | with_reducible rfl | simp only [↓State.faultFm_blur μ (maskSub rfl hμ), ↓State.setFm_blur μ (maskSub rfl hμ), ↓apply_ite (State.blur μ), ite_self, ↓h] | split

theorem State.fmnReg_blur (μ : Nat) (hμ : 0x42 &&& μ = 0x42) (s f op v) : (State.fmnReg s f op v).blur μ = s.blur μ := by
  unfold State.fmnReg
  apply State.fmnStep_blur μ (maskSub rfl hμ); intros; simp only [↓State.setFm_blur μ (maskSub rfl hμ)]

theorem execFmnNop_blur (μ : Nat) (hμ : 0x42 &&& μ = 0x42) : ∀ a0 a1, ∀ t, execFmnNop a0 a1 = .next t → t.blur μ = a1.blur μ := by
  intros a0 a1 t h; unfold execFmnNop at h; cases h
  repeat' first | with_reducible rfl | intro _ | simp only [↓State.setFm_blur μ (maskSub rfl hμ)] | refine (State.fmnStep_blur μ (maskSub rfl hμ) _ _ _ _ ?_).trans ?_ | split

theorem execFmnLdi_blur (μ : Nat) (hμ : 0x42 &&& μ = 0x42) : ∀ a0 a1, ∀ t, execFmnLdi a0 a1 = .next t → t.blur μ = a1.blur μ := by
  intros a0 a1 t h; unfold execFmnLdi at h; cases h
  simp only [↓State.fmnReg_blur μ (maskSub rfl hμ)]

theorem execFmnLdhi_blur (μ : Nat) (hμ : 0x42 &&& μ = 0x42) : ∀ a0 a1, ∀ t, execFmnLdhi a0 a1 = .next t → t.blur μ = a1.blur μ := by
  intros a0 a1 t h; unfold execFmnLdhi at h; cases h
  simp only [↓State.fmnReg_blur μ (maskSub rfl hμ)]

theorem execFmnAdd_blur (μ : Nat) (hμ : 0x42 &&& μ = 0x42) : ∀ a0 a1, ∀ t, execFmnAdd a0 a1 = .next t → t.blur μ = a1.blur μ := by
  intros a0 a1 t h; unfold execFmnAdd at h; cases h
  simp only [↓State.fmnReg_blur μ (maskSub rfl hμ)]

theorem execFmnSub_blur (μ : Nat) (hμ : 0x42 &&& μ = 0x42) : ∀ a0 a1, ∀ t, execFmnSub a0 a1 = .next t → t.blur μ = a1.blur μ := by
  intros a0 a1 t h; unfold execFmnSub at h; cases h
  simp only [↓State.fmnReg_blur μ (maskSub rfl hμ)]

theorem execFmnAddi_blur (μ : Nat) (hμ : 0x42 &&& μ = 0x42) : ∀ a0 a1, ∀ t, execFmnAddi a0 a1 = .next t → t.blur μ = a1.blur μ := by
  intros a0 a1 t h; unfold execFmnAddi at h; cases h
  simp only [↓State.fmnReg_blur μ (maskSub rfl hμ)]

theorem execFmnAnd_blur (μ : Nat) (hμ : 0x42 &&& μ = 0x42) : ∀ a0 a1, ∀ t, execFmnAnd a0 a1 = .next t → t.blur μ = a1.blur μ := by
  intros a0 a1 t h; unfold execFmnAnd at h; cases h
  simp only [↓State.fmnReg_blur μ (maskSub rfl hμ)]

theorem execFmnOr_blur (μ : Nat) (hμ : 0x42 &&& μ = 0x42) : ∀ a0 a1, ∀ t, execFmnOr a0 a1 = .next t → t.blur μ = a1.blur μ := by
  intros a0 a1 t h; unfold execFmnOr at h; cases h
  simp only [↓State.fmnReg_blur μ (maskSub rfl hμ)]

theorem execFmnXor_blur (μ : Nat) (hμ : 0x42 &&& μ = 0x42) : ∀ a0 a1, ∀ t, execFmnXor a0 a1 = .next t → t.blur μ = a1.blur μ := by
  intros a0 a1 t h; unfold execFmnXor at h; cases h
  simp only [↓State.fmnReg_blur μ (maskSub rfl hμ)]

theorem execFmnShl_blur (μ : Nat) (hμ : 0x42 &&& μ = 0x42) : ∀ a0 a1, ∀ t, execFmnShl a0 a1 = .next t → t.blur μ = a1.blur μ := by
  intros a0 a1 t h; unfold execFmnShl at h; cases h
  simp only [↓State.fmnReg_blur μ (maskSub rfl hμ)]

theorem execFmnShr_blur (μ : Nat) (hμ : 0x42 &&& μ = 0x42) : ∀ a0 a1, ∀ t, execFmnShr a0 a1 = .next t → t.blur μ = a1.blur μ := by
  intros a0 a1 t h; unfold execFmnShr at h; cases h
  simp only [↓State.fmnReg_blur μ (maskSub rfl hμ)]

theorem execFmnCmplt_blur (μ : Nat) (hμ : 0x42 &&& μ = 0x42) : ∀ a0 a1, ∀ t, execFmnCmplt a0 a1 = .next t → t.blur μ = a1.blur μ := by
  intros a0 a1 t h; unfold execFmnCmplt at h; cases h
  simp only [↓apply_ite (State.blur μ), ite_self, ↓State.fmnReg_blur μ (maskSub rfl hμ)]

theorem execFmnCmpeq_blur (μ : Nat) (hμ : 0x42 &&& μ = 0x42) : ∀ a0 a1, ∀ t, execFmnCmpeq a0 a1 = .next t → t.blur μ = a1.blur μ := by
  intros a0 a1 t h; unfold execFmnCmpeq at h; cases h
  simp only [↓apply_ite (State.blur μ), ite_self, ↓State.fmnReg_blur μ (maskSub rfl hμ)]

theorem execFmnFadd_blur (μ : Nat) (hμ : 0x42 &&& μ = 0x42) : ∀ a0 a1, ∀ t, execFmnFadd a0 a1 = .next t → t.blur μ = a1.blur μ := by
  intros a0 a1 t h; unfold execFmnFadd at h; cases h
  simp only [↓State.fmnReg_blur μ (maskSub rfl hμ)]

theorem execFmnFmul_blur (μ : Nat) (hμ : 0x42 &&& μ = 0x42) : ∀ a0 a1, ∀ t, execFmnFmul a0 a1 = .next t → t.blur μ = a1.blur μ := by
  intros a0 a1 t h; unfold execFmnFmul at h; cases h
  simp only [↓State.fmnReg_blur μ (maskSub rfl hμ)]

theorem execFmnJmp_blur (μ : Nat) (hμ : 0x42 &&& μ = 0x42) : ∀ a0 a1, ∀ t, execFmnJmp a0 a1 = .next t → t.blur μ = a1.blur μ := by
  intros a0 a1 t h; unfold execFmnJmp at h; cases h
  repeat' first | with_reducible rfl | intro _ | simp only [↓State.setFm_blur μ (maskSub rfl hμ)] | refine (State.fmnStep_blur μ (maskSub rfl hμ) _ _ _ _ ?_).trans ?_ | split

theorem execFmnBz_blur (μ : Nat) (hμ : 0x42 &&& μ = 0x42) : ∀ a0 a1, ∀ t, execFmnBz a0 a1 = .next t → t.blur μ = a1.blur μ := by
  intros a0 a1 t h; unfold execFmnBz at h; cases h
  repeat' first | with_reducible rfl | intro _ | simp only [↓apply_ite (State.blur μ), ite_self, ↓State.setFm_blur μ (maskSub rfl hμ)] | refine (State.fmnStep_blur μ (maskSub rfl hμ) _ _ _ _ ?_).trans ?_ | split

theorem execFmnBnz_blur (μ : Nat) (hμ : 0x42 &&& μ = 0x42) : ∀ a0 a1, ∀ t, execFmnBnz a0 a1 = .next t → t.blur μ = a1.blur μ := by
  intros a0 a1 t h; unfold execFmnBnz at h; cases h
  repeat' first | with_reducible rfl | intro _ | simp only [↓apply_ite (State.blur μ), ite_self, ↓State.setFm_blur μ (maskSub rfl hμ)] | refine (State.fmnStep_blur μ (maskSub rfl hμ) _ _ _ _ ?_).trans ?_ | split

theorem execFmnHalt_blur (μ : Nat) (hμ : 0x42 &&& μ = 0x42) : ∀ a0 a1, ∀ t, execFmnHalt a0 a1 = .next t → t.blur μ = a1.blur μ := by
  intros a0 a1 t h; unfold execFmnHalt at h; cases h
  repeat' first | with_reducible rfl | intro _ | simp only [↓State.setFm_blur μ (maskSub rfl hμ)] | refine (State.fmnStep_blur μ (maskSub rfl hμ) _ _ _ _ ?_).trans ?_ | split

theorem execFmnRdstep_blur (μ : Nat) (hμ : 0x42 &&& μ = 0x42) : ∀ a0 a1, ∀ t, execFmnRdstep a0 a1 = .next t → t.blur μ = a1.blur μ := by
  intros a0 a1 t h; unfold execFmnRdstep at h; cases h
  simp only [↓State.fmnReg_blur μ (maskSub rfl hμ)]

theorem execFmnRdcurve_blur (μ : Nat) (hμ : 0x42 &&& μ = 0x42) : ∀ a0 a1, ∀ t, execFmnRdcurve a0 a1 = .next t → t.blur μ = a1.blur μ := by
  intros a0 a1 t h; unfold execFmnRdcurve at h; cases h
  repeat' first | with_reducible rfl | intro _ | simp only [↓apply_ite (State.blur μ), ite_self, ↓State.faultFm_blur μ (maskSub rfl hμ), ↓State.setFm_blur μ (maskSub rfl hμ)] | refine (State.fmnStep_blur μ (maskSub rfl hμ) _ _ _ _ ?_).trans ?_ | split

theorem execFmnStart_blur (μ : Nat) (hμ : 0x42 &&& μ = 0x42) : ∀ a0 a1, ∀ t, execFmnStart a0 a1 = .next t → t.blur μ = a1.blur μ := by
  intros a0 a1 t h; unfold execFmnStart at h; cases h
  repeat' first | with_reducible rfl | intro _ | simp only [↓foldl_blur μ, ↓State.sendAll_blur μ (maskSub rfl hμ), ↓State.setFm_blur μ (maskSub rfl hμ)] | refine (State.fmnStep_blur μ (maskSub rfl hμ) _ _ _ _ ?_).trans ?_ | split | refine (foldl_blur μ _ ?_ _ _).trans ?_ | refine (foldl1_blur μ _ ?_ _ _).trans ?_

theorem execFmnStop_blur (μ : Nat) (hμ : 0x42 &&& μ = 0x42) : ∀ a0 a1, ∀ t, execFmnStop a0 a1 = .next t → t.blur μ = a1.blur μ := by
  intros a0 a1 t h; unfold execFmnStop at h; cases h
  repeat' first | with_reducible rfl | intro _ | simp only [↓State.sendAll_blur μ (maskSub rfl hμ), ↓State.setFm_blur μ (maskSub rfl hμ)] | refine (State.fmnStep_blur μ (maskSub rfl hμ) _ _ _ _ ?_).trans ?_ | split

theorem execFmnLatch_blur (μ : Nat) (hμ : 0x42 &&& μ = 0x42) : ∀ a0 a1, ∀ t, execFmnLatch a0 a1 = .next t → t.blur μ = a1.blur μ := by
  intros a0 a1 t h; unfold execFmnLatch at h; cases h
  repeat' first | with_reducible rfl | intro _ | simp only [↓State.sendAll_blur μ (maskSub rfl hμ), ↓State.setFm_blur μ (maskSub rfl hμ)] | refine (State.fmnStep_blur μ (maskSub rfl hμ) _ _ _ _ ?_).trans ?_ | split

theorem execFmnWaitev_blur (μ : Nat) (hμ : 0x62 &&& μ = 0x62) : ∀ a0 a1, ∀ t, execFmnWaitev a0 a1 = .next t → t.blur μ = a1.blur μ := by
  intros a0 a1 t h; unfold execFmnWaitev at h; cases h
  repeat' first | with_reducible rfl | intro _ | simp only [↓State.modFm_blur μ (maskSub rfl hμ), ↓State.setFm_blur μ (maskSub rfl hμ)] | refine (State.takeEvent_blur μ (maskSub rfl hμ) (by assumption)).trans ?_ | refine (State.fmnStep_blur μ (maskSub rfl hμ) _ _ _ _ ?_).trans ?_ | split

theorem execFmnWaitdone_blur (μ : Nat) (hμ : 0x42 &&& μ = 0x42) : ∀ a0 a1, ∀ t, execFmnWaitdone a0 a1 = .next t → t.blur μ = a1.blur μ := by
  intros a0 a1 t h; unfold execFmnWaitdone at h; cases h
  repeat' first | with_reducible rfl | intro _ | simp only [↓apply_ite (State.blur μ), ite_self, ↓State.setFm_blur μ (maskSub rfl hμ)] | refine (State.fmnStep_blur μ (maskSub rfl hμ) _ _ _ _ ?_).trans ?_ | split

theorem execFmnCurve_blur (μ : Nat) (hμ : 0x42 &&& μ = 0x42) : ∀ a0 a1, ∀ t, execFmnCurve a0 a1 = .next t → t.blur μ = a1.blur μ := by
  intros a0 a1 t h; unfold execFmnCurve at h; cases h
  repeat' first | with_reducible rfl | intro _ | simp only [↓apply_ite (State.blur μ), ite_self, ↓State.faultFm_blur μ (maskSub rfl hμ), ↓State.setFm_blur μ (maskSub rfl hμ)] | refine (State.fmnStep_blur μ (maskSub rfl hμ) _ _ _ _ ?_).trans ?_ | split

theorem State.tryGrant_blur (μ : Nat) (hμ : 0x42 &&& μ = 0x42) : ∀ a0 a1 a2, (State.tryGrant a0 a1 a2).blur μ = a0.blur μ := by
  intros; unfold State.tryGrant
  repeat' first | with_reducible rfl | simp only [↓apply_ite (State.blur μ), ite_self, ↓State.send_blur μ (maskSub rfl hμ), ↓State.setFm_blur μ (maskSub rfl hμ)] | split

theorem State.fetchFault_blur (μ : Nat) (hμ : 0x52 &&& μ = 0x52) : ∀ a0 a1, (State.fetchFault a0 a1).blur μ = a0.blur μ := by
  intros; unfold State.fetchFault
  simp only [↓State.raiseFm_blur μ (maskSub rfl hμ), ↓State.satReg_blur μ (maskSub rfl hμ), ↓State.abandonBuild_blur μ (maskSub rfl hμ)]

theorem execBuildBegin_blur (μ : Nat) (hμ : 0x52 &&& μ = 0x52) : ∀ a0 a1, ∀ t, execBuildBegin a0 a1 = .next t → t.blur μ = a1.blur μ := by
  intros a0 a1 t h; unfold execBuildBegin at h; cases h
  repeat' first | with_reducible rfl | intro _ | simp only [↓apply_ite (State.blur μ), ite_self, ↓State.setFm_blur μ (maskSub rfl hμ), ↓State.fetchFault_blur μ (maskSub rfl hμ), ↓State.setReg_blur μ (maskSub rfl hμ)] | refine (State.fmnStep_blur μ (maskSub rfl hμ) _ _ _ _ ?_).trans ?_ | split

theorem execScore_blur (μ : Nat) (hμ : 0x52 &&& μ = 0x52) : ∀ a0 a1, ∀ t, execScore a0 a1 = .next t → t.blur μ = a1.blur μ := by
  intros a0 a1 t h; unfold execScore at h; cases h
  repeat' first | with_reducible rfl | intro _ | simp only [↓apply_ite (State.blur μ), ite_self, ↓State.fetchFault_blur μ (maskSub rfl hμ), ↓State.setFm_blur μ (maskSub rfl hμ), ↓State.tryGrant_blur μ (maskSub rfl hμ), ↓State.modFm_blur μ (maskSub rfl hμ)] | refine (State.fmnStep_blur μ (maskSub rfl hμ) _ _ _ _ ?_).trans ?_ | split

theorem execBuildEnd_blur (μ : Nat) (hμ : 0x52 &&& μ = 0x52) : ∀ a0 a1, ∀ t, execBuildEnd a0 a1 = .next t → t.blur μ = a1.blur μ := by
  intros a0 a1 t h; unfold execBuildEnd at h; cases h
  repeat' first | with_reducible rfl | intro _ | simp only [↓State.fetchFault_blur μ (maskSub rfl hμ), ↓State.setFm_blur μ (maskSub rfl hμ), ↓State.setRegF_blur μ (maskSub rfl hμ), ↓State.satReg_blur μ (maskSub rfl hμ), ↓State.addReg_blur μ (maskSub rfl hμ), ↓State.send_blur μ (maskSub rfl hμ)] | refine (State.fmnStep_blur μ (maskSub rfl hμ) _ _ _ _ ?_).trans ?_ | split

theorem execScoreTimeout_blur (μ : Nat) (hμ : 0x52 &&& μ = 0x52) : ∀ a0 a1, ∀ t, execScoreTimeout a0 a1 = .next t → t.blur μ = a1.blur μ := by
  intros a0 a1 t h; unfold execScoreTimeout at h; cases h
  simp only [↓apply_ite (State.blur μ), ite_self, ↓State.fetchFault_blur μ (maskSub rfl hμ), ↓State.setFm_blur μ (maskSub rfl hμ)]

theorem execCountReturn_blur (μ : Nat) (hμ : 0x52 &&& μ = 0x52) : ∀ a0 a1 a2 a3, ∀ t, execCountReturn a0 a1 a2 a3 = .next t → t.blur μ = a3.blur μ := by
  intros a0 a1 a2 a3 t h; unfold execCountReturn at h; cases h
  repeat' first | with_reducible rfl | simp only [↓apply_ite (State.blur μ), ite_self, ↓State.deliver_blur μ (maskSub rfl hμ), ↓State.modFm_blur μ (maskSub rfl hμ), ↓State.setRegF_blur μ (maskSub rfl hμ)] | split

theorem State.setUse_blur (μ : Nat) (hμ : 0x200 &&& μ = 0x200) : ∀ a0 a1 a2 a3, (State.setUse a0 a1 a2 a3).blur μ = a0.blur μ := by
  intros; unfold State.setUse
  simp only [↓State.modRouter_blur μ (maskSub rfl hμ)]

theorem State.takeCredit_blur (μ : Nat) (hμ : 0x200 &&& μ = 0x200) : ∀ a0 a1 a2 a3, (State.takeCredit a0 a1 a2 a3).blur μ = a0.blur μ := by
  intros; unfold State.takeCredit
  simp only [↓State.setUse_blur μ (maskSub rfl hμ)]

theorem State.returnCredit_blur (μ : Nat) (hμ : 0x202 &&& μ = 0x202) : ∀ a0 a1 a2 a3, (State.returnCredit a0 a1 a2 a3).blur μ = a0.blur μ := by
  intros; unfold State.returnCredit
  repeat' first | with_reducible rfl | simp only [↓apply_ite (State.blur μ), ite_self, ↓State.send_blur μ (maskSub rfl hμ), ↓State.setUse_blur μ (maskSub rfl hμ)] | split

theorem State.absorb_blur (μ : Nat) (hμ : 0x812 &&& μ = 0x812) : ∀ a0 a1 a2, (State.absorb a0 a1 a2).blur μ = a0.blur μ := by
  intros; unfold State.absorb
  simp only [↓blur_2 μ (maskSub rfl hμ), ↓blur_10 μ (maskSub rfl hμ), ↓blur_800 μ (maskSub rfl hμ), ↓apply_ite (State.blur μ), ite_self, ↓State.setRegF_blur μ (maskSub rfl hμ), ↓State.satReg_blur μ (maskSub rfl hμ), ↓State.send_blur μ (maskSub rfl hμ)]

theorem State.dropForeign_blur (μ : Nat) (hμ : 0x800 &&& μ = 0x800) : ∀ a0 a1, (State.dropForeign a0 a1).blur μ = a0.blur μ := by
  intros; unfold State.dropForeign
  simp only [↓blur_800 μ (maskSub rfl hμ), ↓apply_ite (State.blur μ), ite_self]

theorem State.localDeliver_blur (μ : Nat) (hμ : 0x872 &&& μ = 0x872) : ∀ a0 a1 a2, (State.localDeliver a0 a1 a2).blur μ = a0.blur μ := by
  intros; unfold State.localDeliver
  repeat' first | with_reducible rfl | simp only [↓apply_ite (State.blur μ), ite_self, ↓State.absorb_blur μ (maskSub rfl hμ), ↓State.modCell_blur μ (maskSub rfl hμ), ↓State.dropForeign_blur μ (maskSub rfl hμ), ↓State.modFm_blur μ (maskSub rfl hμ)] | split

theorem State.noteHeld_blur (μ : Nat) (hμ : 0x418 &&& μ = 0x418) : ∀ a0 a1 a2, (State.noteHeld a0 a1 a2).blur μ = a0.blur μ := by
  intros; unfold State.noteHeld
  simp only [↓apply_ite (State.blur μ), ite_self, ↓State.modRgn_blur μ (maskSub rfl hμ), ↓State.freeCount_blur μ (maskSub rfl hμ)]

theorem State.offerFlit_blur (μ : Nat) (hμ : 0x1e7e &&& μ = 0x1e7e) : ∀ a0 a1 a2 a3 a4, (State.offerFlit a0 a1 a2 a3 a4).blur μ = a0.blur μ := by
  intros; unfold State.offerFlit
  repeat' first | with_reducible rfl | simp only [↓apply_ite (State.blur μ), ite_self, ↓State.returnCredit_blur μ (maskSub rfl hμ), ↓State.modRouter_blur μ (maskSub rfl hμ), ↓State.localDeliver_blur μ (maskSub rfl hμ), ↓State.absorb_blur μ (maskSub rfl hμ), ↓State.toStation_blur μ (maskSub rfl hμ), ↓State.takeCredit_blur μ (maskSub rfl hμ), ↓State.send_blur μ (maskSub rfl hμ), ↓State.noteHeld_blur μ (maskSub rfl hμ), ↓State.raiseRgn_blur μ (maskSub rfl hμ), ↓State.modRgn_blur μ (maskSub rfl hμ)] | split

theorem State.schedSlip_blur (μ : Nat) (hμ : 0x602 &&& μ = 0x602) : ∀ a0 a1 a2 a3, (State.schedSlip a0 a1 a2 a3).blur μ = a0.blur μ := by
  intros; unfold State.schedSlip
  simp only [↓apply_ite (State.blur μ), ite_self, ↓State.raiseCell_blur μ (maskSub rfl hμ), ↓State.modRgn_blur μ (maskSub rfl hμ), ↓State.modRouter_blur μ (maskSub rfl hμ)]

theorem State.compiledFlit_blur (μ : Nat) (hμ : 0xe72 &&& μ = 0xe72) : ∀ a0 a1 a2 a3 a4, (State.compiledFlit a0 a1 a2 a3 a4).blur μ = a0.blur μ := by
  intros; unfold State.compiledFlit
  repeat' first | with_reducible rfl | simp only [↓apply_ite (State.blur μ), ite_self, ↓State.send_blur μ (maskSub rfl hμ), ↓State.schedSlip_blur μ (maskSub rfl hμ), ↓State.dropForeign_blur μ (maskSub rfl hμ), ↓State.modRgn_blur μ (maskSub rfl hμ), ↓State.modRouter_blur μ (maskSub rfl hμ), ↓State.localDeliver_blur μ (maskSub rfl hμ), ↓State.absorb_blur μ (maskSub rfl hμ)] | split

theorem State.retryWaiting_blur (μ : Nat) (hμ : 0x1e7e &&& μ = 0x1e7e) : ∀ a0 a1, (State.retryWaiting a0 a1).blur μ = a0.blur μ := by
  intros; unfold State.retryWaiting
  repeat' first | with_reducible rfl | intro _ | simp only [↓foldl_blur μ, ↓foldl1_blur μ, ↓State.offerFlit_blur μ (maskSub rfl hμ), ↓State.modRouter_blur μ (maskSub rfl hμ)] | split | refine (foldl_blur μ _ ?_ _ _).trans ?_ | refine (foldl1_blur μ _ ?_ _ _).trans ?_

theorem State.pump_blur (μ : Nat) (hμ : 0x262 &&& μ = 0x262) : ∀ n s c, (State.pump n s c).blur μ = s.blur μ := by
  intro n
  induction n with
  | zero => intros; rfl
  | succ n ih =>
    intros; unfold State.pump
    repeat' first | with_reducible rfl | simp only [↓ih, ↓State.tryGrant_blur μ (maskSub rfl hμ), ↓State.modFm_blur μ (maskSub rfl hμ), ↓State.setCell_blur μ (maskSub rfl hμ), ↓State.send_blur μ (maskSub rfl hμ), ↓State.takeCredit_blur μ (maskSub rfl hμ)] | split

theorem State.startSends_blur (μ : Nat) (hμ : 0x662 &&& μ = 0x662) : ∀ a0 a1, (State.startSends a0 a1).blur μ = a0.blur μ := by
  intros; unfold State.startSends
  repeat' first | with_reducible rfl | simp only [↓apply_ite (State.blur μ), ite_self, ↓State.setCell_blur μ (maskSub rfl hμ), ↓State.schedSlip_blur μ (maskSub rfl hμ), ↓State.pump_blur μ (maskSub rfl hμ), ↓State.sendAll_blur μ (maskSub rfl hμ)] | split

theorem State.startExchange_blur (μ : Nat) (hμ : 0x662 &&& μ = 0x662) : ∀ a0 a1, (State.startExchange a0 a1).blur μ = a0.blur μ := by
  intros; unfold State.startExchange
  repeat' first | with_reducible rfl | simp only [↓apply_ite (State.blur μ), ite_self, ↓State.setCell_blur μ (maskSub rfl hμ), ↓State.startSends_blur μ (maskSub rfl hμ)] | split

theorem execStepExchange_blur (μ : Nat) (hμ : 0x662 &&& μ = 0x662) : ∀ a0 a1 a2, ∀ t, execStepExchange a0 a1 a2 = .next t → t.blur μ = a2.blur μ := by
  intros a0 a1 a2 t h; unfold execStepExchange at h; cases h
  repeat' first | with_reducible rfl | simp only [↓apply_ite (State.blur μ), ite_self, ↓State.modCell_blur μ (maskSub rfl hμ), ↓State.startExchange_blur μ (maskSub rfl hμ)] | refine (State.offer_no_blur μ (maskSub rfl hμ) (by assumption)).trans ?_ | refine (State.offer_go_blur μ (maskSub rfl hμ) (by assumption)).trans ?_ | split

theorem State.completeExchange_blur (μ : Nat) (hμ : 0x662 &&& μ = 0x662) : ∀ a0 a1 a2, (State.completeExchange a0 a1 a2).blur μ = a0.blur μ := by
  intros; unfold State.completeExchange
  repeat' first | with_reducible rfl | simp only [↓apply_ite (State.blur μ), ite_self, ↓State.pump_blur μ (maskSub rfl hμ), ↓State.modRgn_blur μ (maskSub rfl hμ), ↓State.setCell_blur μ (maskSub rfl hμ), ↓State.enterBarrier_blur μ (maskSub rfl hμ), ↓State.settle_blur μ (maskSub rfl hμ), ↓State.startExchange_blur μ (maskSub rfl hμ)] | split

theorem execStepComplete_blur (μ : Nat) (hμ : 0x662 &&& μ = 0x662) : ∀ a0 a1 a2 a3, ∀ t, execStepComplete a0 a1 a2 a3 = .next t → t.blur μ = a3.blur μ := by
  intros a0 a1 a2 a3 t h; unfold execStepComplete at h; cases h
  repeat' first | with_reducible rfl | simp only [↓State.completeLooper_blur μ (maskSub rfl hμ), ↓State.completeExchange_blur μ (maskSub rfl hμ), ↓State.complete_blur μ (maskSub rfl hμ)] | split

theorem execExchangeEpoch_blur (μ : Nat) (hμ : 0x662 &&& μ = 0x662) : ∀ a0 a1 a2, ∀ t, execExchangeEpoch a0 a1 a2 = .next t → t.blur μ = a2.blur μ := by
  intros a0 a1 a2 t h; unfold execExchangeEpoch at h; cases h
  repeat' first | with_reducible rfl | intro _ | simp only [↓blur_2 μ (maskSub rfl hμ), ↓blur_20 μ (maskSub rfl hμ), ↓blur_40 μ (maskSub rfl hμ), ↓blur_60 μ (maskSub rfl hμ), ↓blur_200 μ (maskSub rfl hμ), ↓blur_400 μ (maskSub rfl hμ), ↓blur_440 μ (maskSub rfl hμ), ↓apply_ite (State.blur μ), ite_self, ↓foldl_blur μ, ↓foldl1_blur μ, ↓State.modRgn_blur μ (maskSub rfl hμ), ↓State.modCell_blur μ (maskSub rfl hμ), ↓State.startSends_blur μ (maskSub rfl hμ)] | split | refine (foldl_blur μ _ ?_ _ _).trans ?_ | refine (foldl1_blur μ _ ?_ _ _).trans ?_

theorem State.fenceBy_blur (μ : Nat) (hμ : 0x2 &&& μ = 0x2) : ∀ a0 a1, (State.fenceBy a0 a1).blur μ = a0.blur μ := by
  intros; unfold State.fenceBy
  simp only [↓State.raiseCell_blur μ (maskSub rfl hμ), ↓State.send_blur μ (maskSub rfl hμ)]

theorem execFlitArrive_blur (μ : Nat) (hμ : 0x1e7e &&& μ = 0x1e7e) : ∀ a0 a1 a2 a3 a4, ∀ t, execFlitArrive a0 a1 a2 a3 a4 = .next t → t.blur μ = a4.blur μ := by
  intros a0 a1 a2 a3 a4 t h; unfold execFlitArrive at h; cases h
  repeat' first | with_reducible rfl | simp only [↓apply_ite (State.blur μ), ite_self, ↓State.deliver_blur μ (maskSub rfl hμ), ↓State.send_blur μ (maskSub rfl hμ), ↓State.returnCredit_blur μ (maskSub rfl hμ), ↓State.raiseCell_blur μ (maskSub rfl hμ), ↓State.dropForeign_blur μ (maskSub rfl hμ), ↓State.compiledFlit_blur μ (maskSub rfl hμ), ↓State.offerFlit_blur μ (maskSub rfl hμ)] | split

theorem execCreditReturn_blur (μ : Nat) (hμ : 0x1e7e &&& μ = 0x1e7e) : ∀ a0 a1 a2 a3, ∀ t, execCreditReturn a0 a1 a2 a3 = .next t → t.blur μ = a3.blur μ := by
  intros a0 a1 a2 a3 t h; unfold execCreditReturn at h; cases h
  repeat' first | with_reducible rfl | intro _ | simp only [↓apply_ite (State.blur μ), ite_self, ↓foldl_blur μ, ↓foldl1_blur μ, ↓State.deliver_blur μ (maskSub rfl hμ), ↓State.raiseRgn_blur μ (maskSub rfl hμ), ↓State.raiseCell_blur μ (maskSub rfl hμ), ↓State.setUse_blur μ (maskSub rfl hμ), ↓State.pump_blur μ (maskSub rfl hμ), ↓State.retryWaiting_blur μ (maskSub rfl hμ)] | split | refine (foldl_blur μ _ ?_ _ _).trans ?_ | refine (foldl1_blur μ _ ?_ _ _).trans ?_

theorem execRouterDead_blur (μ : Nat) (hμ : 0x602 &&& μ = 0x602) : ∀ a0 a1 a2, ∀ t, execRouterDead a0 a1 a2 = .next t → t.blur μ = a2.blur μ := by
  intros a0 a1 a2 t h; unfold execRouterDead at h; cases h
  repeat' first | with_reducible rfl | simp only [↓blur_2 μ (maskSub rfl hμ), ↓blur_200 μ (maskSub rfl hμ), ↓blur_400 μ (maskSub rfl hμ), ↓apply_ite (State.blur μ), ite_self, ↓State.fenceBy_blur μ (maskSub rfl hμ), ↓State.raiseRgn_blur μ (maskSub rfl hμ), ↓State.modRouter_blur μ (maskSub rfl hμ), ↓State.modRgn_blur μ (maskSub rfl hμ)] | split

theorem State.detourClear_blur (μ : Nat) (hμ : 0x402 &&& μ = 0x402) : ∀ a0 a1 a2, (State.detourClear a0 a1 a2).1.blur μ = a0.blur μ := by
  intros; unfold State.detourClear
  repeat' first | with_reducible rfl | simp only [↓apply_ite (State.blur μ), ite_self, ↓apply_ite Prod.fst, ↓State.reject_blur μ (maskSub rfl hμ), ↓State.modRgn_blur μ (maskSub rfl hμ)] | split

theorem execGrant_blur (μ : Nat) (hμ : 0x262 &&& μ = 0x262) : ∀ a0 a1 a2, ∀ t, execGrant a0 a1 a2 = .next t → t.blur μ = a2.blur μ := by
  intros a0 a1 a2 t h; unfold execGrant at h; cases h
  repeat' first | with_reducible rfl | simp only [↓State.deliver_blur μ (maskSub rfl hμ), ↓State.pump_blur μ (maskSub rfl hμ), ↓State.setCell_blur μ (maskSub rfl hμ)] | split

theorem execAbsorbed_blur (μ : Nat) (hμ : 0x12 &&& μ = 0x12) : ∀ a0 a1 a2 a3, ∀ t, execAbsorbed a0 a1 a2 a3 = .next t → t.blur μ = a3.blur μ := by
  intros a0 a1 a2 a3 t h; unfold execAbsorbed at h; cases h
  simp only [↓State.satReg_blur μ (maskSub rfl hμ), ↓State.deliver_blur μ (maskSub rfl hμ)]

theorem State.sendTile_blur (μ : Nat) (hμ : 0x1101e &&& μ = 0x1101e) : ∀ a0 a1 a2 a3, (State.sendTile a0 a1 a2 a3).blur μ = a0.blur μ := by
  intros; unfold State.sendTile
  repeat' first | with_reducible rfl | simp only [↓blur_2 μ (maskSub rfl hμ), ↓blur_4 μ (maskSub rfl hμ), ↓blur_8 μ (maskSub rfl hμ), ↓blur_10 μ (maskSub rfl hμ), ↓blur_1000 μ (maskSub rfl hμ), ↓blur_10000 μ (maskSub rfl hμ), ↓State.toTileQueue_blur μ (maskSub rfl hμ)] | split

theorem State.releaseTiles_blur (μ : Nat) (hμ : 0x1101e &&& μ = 0x1101e) : ∀ a0, (State.releaseTiles a0).blur μ = a0.blur μ := by
  intros; unfold State.releaseTiles
  repeat' first | with_reducible rfl | intro _ | simp only [↓blur_2 μ (maskSub rfl hμ), ↓blur_4 μ (maskSub rfl hμ), ↓blur_8 μ (maskSub rfl hμ), ↓blur_10 μ (maskSub rfl hμ), ↓blur_1000 μ (maskSub rfl hμ), ↓blur_10000 μ (maskSub rfl hμ), ↓foldl_blur μ, ↓foldl1_blur μ, ↓State.sendTile_blur μ (maskSub rfl hμ)] | split | refine (foldl_blur μ _ ?_ _ _).trans ?_ | refine (foldl1_blur μ _ ?_ _ _).trans ?_

theorem State.toModule_blur (μ : Nat) (hμ : 0x101e &&& μ = 0x101e) : ∀ a0 a1 a2, (State.toModule a0 a1 a2).blur μ = a0.blur μ := by
  intros; unfold State.toModule
  repeat' first | with_reducible rfl | simp only [↓apply_ite (State.blur μ), ite_self, ↓State.send_blur μ (maskSub rfl hμ), ↓State.sendTrail_blur μ (maskSub rfl hμ)] | split

theorem State.digestMsg_blur (μ : Nat) (hμ : 0x10101e &&& μ = 0x10101e) : ∀ a0 a1 a2 a3, (State.digestMsg a0 a1 a2 a3).blur μ = a0.blur μ := by
  intros; unfold State.digestMsg
  simp only [↓apply_ite (State.blur μ), ite_self, ↓State.modRed_blur μ (maskSub rfl hμ), ↓State.toModule_blur μ (maskSub rfl hμ)]

theorem State.releaseMail_blur (μ : Nat) (hμ : 0x10101e &&& μ = 0x10101e) : ∀ a0 a1, (State.releaseMail a0 a1).blur μ = a0.blur μ := by
  intros; unfold State.releaseMail
  repeat' first | with_reducible rfl | intro _ | simp only [↓foldl_blur μ, ↓foldl1_blur μ, ↓State.toModule_blur μ (maskSub rfl hμ), ↓State.modRed_blur μ (maskSub rfl hμ)] | split | refine (foldl_blur μ _ ?_ _ _).trans ?_ | refine (foldl1_blur μ _ ?_ _ _).trans ?_

theorem State.tryRelease_blur (μ : Nat) (hμ : 0x82 &&& μ = 0x82) : ∀ a0 a1, (State.tryRelease a0 a1).blur μ = a0.blur μ := by
  intros; unfold State.tryRelease
  simp only [↓apply_ite (State.blur μ), ite_self, ↓State.sendAll_blur μ (maskSub rfl hμ), ↓State.setSlot_blur μ (maskSub rfl hμ)]

theorem State.tryForward_blur (μ : Nat) (hμ : 0x402 &&& μ = 0x402) : ∀ a0 a1 a2, (State.tryForward a0 a1 a2).blur μ = a0.blur μ := by
  intros; unfold State.tryForward
  repeat' first | with_reducible rfl | simp only [↓State.send_blur μ (maskSub rfl hμ), ↓State.setRgn_blur μ (maskSub rfl hμ)] | split

theorem State.paidTile_blur (μ : Nat) (hμ : 0x402 &&& μ = 0x402) : ∀ a0 a1 a2, (State.paidTile a0 a1 a2).blur μ = a0.blur μ := by
  intros; unfold State.paidTile
  repeat' first | with_reducible rfl | simp only [↓State.tryForward_blur μ (maskSub rfl hμ), ↓State.modRgn_blur μ (maskSub rfl hμ)] | split

theorem regMerge_blur (μ : Nat) (hμ : 0x10 &&& μ = 0x10) : ∀ a0 a1 a2, (regMerge a0 a1 a2).blur μ = a0.blur μ := by
  intros; unfold regMerge
  simp only [↓State.setRegF_blur μ (maskSub rfl hμ)]

theorem State.enterBlock_blur (μ : Nat) (hμ : 0x52 &&& μ = 0x52) : ∀ a0 a1 a2 a3, (State.enterBlock a0 a1 a2 a3).blur μ = a0.blur μ := by
  intros; unfold State.enterBlock
  simp only [↓apply_ite (State.blur μ), ite_self, ↓regMerge_blur μ (maskSub rfl hμ), ↓State.send_blur μ (maskSub rfl hμ), ↓State.modFm_blur μ (maskSub rfl hμ)]

theorem State.enterRegion_blur (μ : Nat) (hμ : 0x412 &&& μ = 0x412) : ∀ a0 a1 a2 a3, (State.enterRegion a0 a1 a2 a3).blur μ = a0.blur μ := by
  intros; unfold State.enterRegion
  simp only [↓apply_ite (State.blur μ), ite_self, ↓regMerge_blur μ (maskSub rfl hμ), ↓State.tryForward_blur μ (maskSub rfl hμ), ↓State.setRgn_blur μ (maskSub rfl hμ)]

theorem State.enterRoot_blur (μ : Nat) (hμ : 0x109e &&& μ = 0x109e) : ∀ a0 a1 a2 a3, (State.enterRoot a0 a1 a2 a3).blur μ = a0.blur μ := by
  intros; unfold State.enterRoot
  repeat' first | with_reducible rfl | intro _ | simp only [↓apply_ite (State.blur μ), ite_self, ↓foldl_blur μ, ↓State.setSlot_blur μ (maskSub rfl hμ), ↓State.toModule_blur μ (maskSub rfl hμ), ↓State.tryRelease_blur μ (maskSub rfl hμ)] | split | refine (foldl_blur μ _ ?_ _ _).trans ?_ | refine (foldl1_blur μ _ ?_ _ _).trans ?_

theorem execBarrierEnter_blur (μ : Nat) (hμ : 0x14de &&& μ = 0x14de) : ∀ a0 a1 a2 a3, ∀ t, execBarrierEnter a0 a1 a2 a3 = .next t → t.blur μ = a3.blur μ := by
  intros a0 a1 a2 a3 t h; unfold execBarrierEnter at h; cases h
  repeat' first | with_reducible rfl | simp only [↓State.deliver_blur μ (maskSub rfl hμ), ↓State.modSlot_blur μ (maskSub rfl hμ), ↓State.enterBlock_blur μ (maskSub rfl hμ), ↓State.enterRegion_blur μ (maskSub rfl hμ), ↓State.enterRoot_blur μ (maskSub rfl hμ), ↓State.tryRelease_blur μ (maskSub rfl hμ)] | split

theorem State.releaseHalf_blur (μ : Nat) (hμ : 0x478 &&& μ = 0x478) : ∀ a0 a1 a2, (State.releaseHalf a0 a1 a2).blur μ = a0.blur μ := by
  intros; unfold State.releaseHalf
  repeat' first | with_reducible rfl | intro _ | simp only [↓blur_8 μ (maskSub rfl hμ), ↓blur_10 μ (maskSub rfl hμ), ↓blur_20 μ (maskSub rfl hμ), ↓blur_28 μ (maskSub rfl hμ), ↓blur_40 μ (maskSub rfl hμ), ↓blur_60 μ (maskSub rfl hμ), ↓blur_68 μ (maskSub rfl hμ), ↓blur_400 μ (maskSub rfl hμ), ↓blur_440 μ (maskSub rfl hμ), ↓apply_ite (State.blur μ), ite_self, ↓foldl_blur μ, ↓foldl1_blur μ, ↓State.addReg_blur μ (maskSub rfl hμ), ↓State.setReg_blur μ (maskSub rfl hμ), ↓State.freeCount_blur μ (maskSub rfl hμ), ↓State.setRgn_blur μ (maskSub rfl hμ)] | split | refine (foldl_blur μ _ ?_ _ _).trans ?_ | refine (foldl1_blur μ _ ?_ _ _).trans ?_

theorem State.stepRecord_blur (μ : Nat) (hμ : 0x80 &&& μ = 0x80) : ∀ a0 a1, (State.stepRecord a0 a1).blur μ = a0.blur μ := by
  intros; unfold State.stepRecord
  repeat' first | with_reducible rfl | simp only [↓State.setSlot_blur μ (maskSub rfl hμ)] | split

theorem State.failBarrier_blur (μ : Nat) (hμ : 0x82 &&& μ = 0x82) : ∀ a0 a1, (State.failBarrier a0 a1).blur μ = a0.blur μ := by
  intros; unfold State.failBarrier
  simp only [↓apply_ite (State.blur μ), ite_self, ↓State.send_blur μ (maskSub rfl hμ), ↓State.setSlot_blur μ (maskSub rfl hμ)]

theorem State.probeForeman_blur (μ : Nat) (hμ : 0x52 &&& μ = 0x52) : ∀ a0 a1 a2, (State.probeForeman a0 a1 a2).blur μ = a0.blur μ := by
  intros; unfold State.probeForeman
  repeat' first | with_reducible rfl | intro _ | simp only [↓apply_ite (State.blur μ), ite_self, ↓foldl_blur μ, ↓State.setFm_blur μ (maskSub rfl hμ), ↓State.modFm_blur μ (maskSub rfl hμ), ↓State.setReg_blur μ (maskSub rfl hμ), ↓State.satReg_blur μ (maskSub rfl hμ), ↓State.raise_blur μ (maskSub rfl hμ), ↓State.fenceBy_blur μ (maskSub rfl hμ)] | split | refine (foldl_blur μ _ ?_ _ _).trans ?_ | refine (foldl1_blur μ _ ?_ _ _).trans ?_

theorem State.probeRegion_blur (μ : Nat) (hμ : 0x452 &&& μ = 0x452) : ∀ a0 a1 a2, (State.probeRegion a0 a1 a2).blur μ = a0.blur μ := by
  intros; unfold State.probeRegion
  repeat' first | with_reducible rfl | intro _ | simp only [↓apply_ite (State.blur μ), ite_self, ↓foldl_blur μ, ↓foldl1_blur μ, ↓State.satReg_blur μ (maskSub rfl hμ), ↓State.setRgn_blur μ (maskSub rfl hμ), ↓State.setRegF_blur μ (maskSub rfl hμ), ↓State.send_blur μ (maskSub rfl hμ), ↓State.modFm_blur μ (maskSub rfl hμ)] | split | refine (foldl_blur μ _ ?_ _ _).trans ?_ | refine (foldl1_blur μ _ ?_ _ _).trans ?_

theorem State.probeRoot_blur (μ : Nat) (hμ : 0x82 &&& μ = 0x82) : ∀ a0 a1, (State.probeRoot a0 a1).blur μ = a0.blur μ := by
  intros; unfold State.probeRoot
  repeat' first | with_reducible rfl | intro _ | simp only [↓apply_ite (State.blur μ), ite_self, ↓foldl_blur μ, ↓State.setSlot_blur μ (maskSub rfl hμ), ↓State.raise_blur μ (maskSub rfl hμ), ↓State.send_blur μ (maskSub rfl hμ)] | split | refine (foldl_blur μ _ ?_ _ _).trans ?_ | refine (foldl1_blur μ _ ?_ _ _).trans ?_

theorem State.probe_blur (μ : Nat) (hμ : 0x4d2 &&& μ = 0x4d2) : ∀ a0 a1 a2, (State.probe a0 a1 a2).blur μ = a0.blur μ := by
  intros; unfold State.probe
  repeat' first | with_reducible rfl | simp only [↓State.probeForeman_blur μ (maskSub rfl hμ), ↓State.probeRegion_blur μ (maskSub rfl hμ), ↓State.probeRoot_blur μ (maskSub rfl hμ)] | split

theorem execBarrierTimerExpiry_blur (μ : Nat) (hμ : 0x4d2 &&& μ = 0x4d2) : ∀ a0 a1 a2, ∀ t, execBarrierTimerExpiry a0 a1 a2 = .next t → t.blur μ = a2.blur μ := by
  intros a0 a1 a2 t h; unfold execBarrierTimerExpiry at h; cases h
  simp only [↓apply_ite (State.blur μ), ite_self, ↓State.failBarrier_blur μ (maskSub rfl hμ), ↓State.probe_blur μ (maskSub rfl hμ)]

theorem execBarrierProbe_blur (μ : Nat) (hμ : 0x4d2 &&& μ = 0x4d2) : ∀ a0 a1 a2, ∀ t, execBarrierProbe a0 a1 a2 = .next t → t.blur μ = a2.blur μ := by
  intros a0 a1 a2 t h; unfold execBarrierProbe at h; cases h
  simp only [↓State.probe_blur μ (maskSub rfl hμ), ↓State.deliver_blur μ (maskSub rfl hμ)]

theorem execProbeAnswerTimeout_blur (μ : Nat) (hμ : 0x52 &&& μ = 0x52) : ∀ a0 a1 a2, ∀ t, execProbeAnswerTimeout a0 a1 a2 = .next t → t.blur μ = a2.blur μ := by
  intros a0 a1 a2 t h; unfold execProbeAnswerTimeout at h; cases h
  simp only [↓apply_ite (State.blur μ), ite_self, ↓State.setFm_blur μ (maskSub rfl hμ), ↓State.raiseRgn_blur μ (maskSub rfl hμ), ↓State.setReg_blur μ (maskSub rfl hμ)]

theorem execBarrierFail_blur (μ : Nat) (hμ : 0xc2 &&& μ = 0xc2) : ∀ a0 a1, ∀ t, execBarrierFail a0 a1 = .next t → t.blur μ = a1.blur μ := by
  intros a0 a1 t h; unfold execBarrierFail at h; cases h
  repeat' first | with_reducible rfl | intro _ | simp only [↓foldl_blur μ, ↓State.deliver_blur μ (maskSub rfl hμ), ↓State.modSlot_blur μ (maskSub rfl hμ), ↓State.modFm_blur μ (maskSub rfl hμ)] | split | refine (foldl_blur μ _ ?_ _ _).trans ?_ | refine (foldl1_blur μ _ ?_ _ _).trans ?_

theorem State.clearBarriers_blur (μ : Nat) (hμ : 0x4c0 &&& μ = 0x4c0) : ∀ a0 a1, (State.clearBarriers a0 a1).blur μ = a0.blur μ := by
  intros; unfold State.clearBarriers
  repeat' first | with_reducible rfl | intro _ | simp only [↓foldl_blur μ, ↓State.modSlot_blur μ (maskSub rfl hμ), ↓State.modFm_blur μ (maskSub rfl hμ), ↓State.modRgn_blur μ (maskSub rfl hμ)] | split | refine (foldl_blur μ _ ?_ _ _).trans ?_ | refine (foldl1_blur μ _ ?_ _ _).trans ?_

theorem execWindowFlag_blur (μ : Nat) (hμ : 0x82 &&& μ = 0x82) : ∀ a0 a1 a2 a3, ∀ t, execWindowFlag a0 a1 a2 a3 = .next t → t.blur μ = a3.blur μ := by
  intros a0 a1 a2 a3 t h; unfold execWindowFlag at h; cases h
  simp only [↓State.modSlot_blur μ (maskSub rfl hμ), ↓State.deliver_blur μ (maskSub rfl hμ)]

theorem execNumericsNotice_blur (μ : Nat) (hμ : 0x412 &&& μ = 0x412) : ∀ a0 a1 a2, ∀ t, execNumericsNotice a0 a1 a2 = .next t → t.blur μ = a2.blur μ := by
  intros a0 a1 a2 t h; unfold execNumericsNotice at h; cases h
  simp only [↓State.deliver_blur μ (maskSub rfl hμ), ↓regMerge_blur μ (maskSub rfl hμ), ↓State.modRgn_blur μ (maskSub rfl hμ)]

theorem execTallyReply_blur (μ : Nat) (hμ : 0x80000002 &&& μ = 0x80000002) : ∀ a0 a1 a2 a3, ∀ t, execTallyReply a0 a1 a2 a3 = .next t → t.blur μ = a3.blur μ := by
  intros a0 a1 a2 a3 t h; unfold execTallyReply at h; cases h
  simp only [↓blur_2 μ (maskSub rfl hμ), ↓blur_80000000 μ (maskSub rfl hμ), ↓State.deliver_blur μ (maskSub rfl hμ)]

theorem State.refObj_blur (μ : Nat) (hμ : 0x40000 &&& μ = 0x40000) : ∀ a0 a1 a2, (State.refObj a0 a1 a2).blur μ = a0.blur μ := by
  intros; unfold State.refObj
  simp only [↓apply_ite (State.blur μ), ite_self, ↓State.modObj_blur μ (maskSub rfl hμ)]

theorem State.entryRefs_blur (μ : Nat) (hμ : 0x40000 &&& μ = 0x40000) : ∀ a0 a1 a2, (State.entryRefs a0 a1 a2).blur μ = a0.blur μ := by
  intros; unfold State.entryRefs
  simp only [↓apply_ite (State.blur μ), ite_self, ↓State.refObj_blur μ (maskSub rfl hμ)]

theorem State.dropRefs_blur (μ : Nat) (hμ : 0x40000 &&& μ = 0x40000) : ∀ a0 a1, (State.dropRefs a0 a1).blur μ = a0.blur μ := by
  intros; unfold State.dropRefs
  repeat' first | with_reducible rfl | intro _ | simp only [↓apply_ite (State.blur μ), ite_self, ↓foldl_blur μ, ↓State.entryRefs_blur μ (maskSub rfl hμ)] | split | refine (foldl_blur μ _ ?_ _ _).trans ?_ | refine (foldl1_blur μ _ ?_ _ _).trans ?_

theorem State.stopStream_blur (μ : Nat) (hμ : 0xc0000 &&& μ = 0xc0000) : ∀ a0 a1 a2 a3, (State.stopStream a0 a1 a2 a3).blur μ = a0.blur μ := by
  intros; unfold State.stopStream
  simp only [↓apply_ite (State.blur μ), ite_self, ↓State.dropRefs_blur μ (maskSub rfl hμ), ↓State.modStream_blur μ (maskSub rfl hμ)]

theorem State.skdStop_blur (μ : Nat) (hμ : 0xc0000 &&& μ = 0xc0000) : ∀ a0 a1, (State.skdStop a0 a1).blur μ = a0.blur μ := by
  intros; unfold State.skdStop
  repeat' first | with_reducible rfl | simp only [↓State.stopStream_blur μ (maskSub rfl hμ)] | split

theorem State.clearStream_blur (μ : Nat) (hμ : 0xc0000 &&& μ = 0xc0000) : ∀ a0 a1, (State.clearStream a0 a1).blur μ = a0.blur μ := by
  intros; unfold State.clearStream
  simp only [↓State.modStream_blur μ (maskSub rfl hμ), ↓State.stopStream_blur μ (maskSub rfl hμ)]

theorem State.startStream_blur (μ : Nat) (hμ : 0xc0000 &&& μ = 0xc0000) : ∀ a0 a1, (State.startStream a0 a1).blur μ = a0.blur μ := by
  intros; unfold State.startStream
  simp only [↓apply_ite (State.blur μ), ite_self, ↓State.clearStream_blur μ (maskSub rfl hμ), ↓State.modStream_blur μ (maskSub rfl hμ)]

theorem State.skdFault_blur (μ : Nat) (hμ : 0xc0012 &&& μ = 0xc0012) : ∀ a0 a1 a2 a3, (State.skdFault a0 a1 a2 a3).blur μ = a0.blur μ := by
  intros; unfold State.skdFault
  simp only [↓State.setReg_blur μ (maskSub rfl hμ), ↓State.raise_blur μ (maskSub rfl hμ), ↓State.stopStream_blur μ (maskSub rfl hμ)]

theorem State.openEntry_blur (μ : Nat) (hμ : 0x80000 &&& μ = 0x80000) : ∀ a0 a1 a2 a3 a4, (State.openEntry a0 a1 a2 a3 a4).blur μ = a0.blur μ := by
  intros; unfold State.openEntry
  simp only [↓State.modStream_blur μ (maskSub rfl hμ)]

theorem State.streamStep_blur (μ : Nat) (hμ : 0x0 &&& μ = 0x0) (s n op act) (h : ∀ t w, (act t w).blur μ = t.blur μ) : (State.streamStep s n op act).blur μ = s.blur μ := by
  unfold State.streamStep
  repeat' first | with_reducible rfl | simp only [↓apply_ite (State.blur μ), ite_self, ↓h] | split

theorem execStreamDeliver_blur (μ : Nat) (hμ : 0x80000 &&& μ = 0x80000) : ∀ a0 a1, ∀ t, execStreamDeliver a0 a1 = .next t → t.blur μ = a1.blur μ := by
  intros a0 a1 t h; unfold execStreamDeliver at h; cases h
  repeat' first | with_reducible rfl | intro _ | simp only [↓State.openEntry_blur μ (maskSub rfl hμ)] | refine (State.streamStep_blur μ (maskSub rfl hμ) _ _ _ _ ?_).trans ?_ | split

theorem execStreamNear_blur (μ : Nat) (hμ : 0x80000 &&& μ = 0x80000) : ∀ a0 a1, ∀ t, execStreamNear a0 a1 = .next t → t.blur μ = a1.blur μ := by
  intros a0 a1 t h; unfold execStreamNear at h; cases h
  repeat' first | with_reducible rfl | intro _ | simp only [↓State.openEntry_blur μ (maskSub rfl hμ)] | refine (State.streamStep_blur μ (maskSub rfl hμ) _ _ _ _ ?_).trans ?_ | split

theorem execStreamGather_blur (μ : Nat) (hμ : 0x80000 &&& μ = 0x80000) : ∀ a0 a1, ∀ t, execStreamGather a0 a1 = .next t → t.blur μ = a1.blur μ := by
  intros a0 a1 t h; unfold execStreamGather at h; cases h
  repeat' first | with_reducible rfl | intro _ | simp only [↓State.openEntry_blur μ (maskSub rfl hμ), ↓State.modStream_blur μ (maskSub rfl hμ)] | refine (State.streamStep_blur μ (maskSub rfl hμ) _ _ _ _ ?_).trans ?_ | split

theorem execStreamRecorded_blur (μ : Nat) (hμ : 0xc0012 &&& μ = 0xc0012) : ∀ a0 a1, ∀ t, execStreamRecorded a0 a1 = .next t → t.blur μ = a1.blur μ := by
  intros a0 a1 t h; unfold execStreamRecorded at h; cases h
  repeat' first | with_reducible rfl | intro _ | simp only [↓apply_ite (State.blur μ), ite_self, ↓State.skdFault_blur μ (maskSub rfl hμ), ↓State.yrdRaise_blur μ (maskSub rfl hμ), ↓State.openEntry_blur μ (maskSub rfl hμ), ↓State.useObj_blur μ (maskSub rfl hμ)] | refine (State.streamStep_blur μ (maskSub rfl hμ) _ _ _ _ ?_).trans ?_ | split

theorem execStreamLoop_blur (μ : Nat) (hμ : 0x80000 &&& μ = 0x80000) : ∀ a0 a1, ∀ t, execStreamLoop a0 a1 = .next t → t.blur μ = a1.blur μ := by
  intros a0 a1 t h; unfold execStreamLoop at h; cases h
  repeat' first | with_reducible rfl | intro _ | simp only [↓apply_ite (State.blur μ), ite_self, ↓State.modStream_blur μ (maskSub rfl hμ)] | refine (State.streamStep_blur μ (maskSub rfl hμ) _ _ _ _ ?_).trans ?_ | split

theorem execStreamEnd_blur (μ : Nat) (hμ : 0x80000 &&& μ = 0x80000) : ∀ a0 a1, ∀ t, execStreamEnd a0 a1 = .next t → t.blur μ = a1.blur μ := by
  intros a0 a1 t h; unfold execStreamEnd at h; cases h
  repeat' first | with_reducible rfl | intro _ | simp only [↓apply_ite (State.blur μ), ite_self, ↓State.modStream_blur μ (maskSub rfl hμ)] | refine (State.streamStep_blur μ (maskSub rfl hμ) _ _ _ _ ?_).trans ?_ | split

theorem State.runPrefetch_blur (μ : Nat) (hμ : 0x6001a &&& μ = 0x6001a) : ∀ a0 a1 a2, (State.runPrefetch a0 a1 a2).blur μ = a0.blur μ := by
  intros; unfold State.runPrefetch
  repeat' first | with_reducible rfl | simp only [↓State.moveObj_blur μ (maskSub rfl hμ), ↓State.pinObj_blur μ (maskSub rfl hμ), ↓State.unpinObj_blur μ (maskSub rfl hμ)] | split

theorem State.prefetches_blur (μ : Nat) (hμ : 0x6001a &&& μ = 0x6001a) : ∀ a0 a1 a2 a3, (State.prefetches a0 a1 a2 a3).blur μ = a0.blur μ := by
  intros; unfold State.prefetches
  repeat' first | with_reducible rfl | intro _ | simp only [↓foldl_blur μ, ↓State.runPrefetch_blur μ (maskSub rfl hμ)] | split | refine (foldl_blur μ _ ?_ _ _).trans ?_ | refine (foldl1_blur μ _ ?_ _ _).trans ?_

theorem State.firstRead_blur (μ : Nat) (hμ : 0xe001a &&& μ = 0xe001a) : ∀ a0 a1 a2 a3, (State.firstRead a0 a1 a2 a3).blur μ = a0.blur μ := by
  intros; unfold State.firstRead
  repeat' first | with_reducible rfl | simp only [↓apply_ite (State.blur μ), ite_self, ↓State.modStream_blur μ (maskSub rfl hμ), ↓State.entryRefs_blur μ (maskSub rfl hμ), ↓State.prefetches_blur μ (maskSub rfl hμ), ↓State.moveObj_blur μ (maskSub rfl hμ)] | split

theorem execFillReadStart_blur (μ : Nat) (hμ : 0xe001a &&& μ = 0xe001a) : ∀ a0 a1 a2 a3, ∀ t, execFillReadStart a0 a1 a2 a3 = .next t → t.blur μ = a3.blur μ := by
  intros a0 a1 a2 a3 t h; unfold execFillReadStart at h; cases h
  repeat' first | with_reducible rfl | simp only [↓apply_ite (State.blur μ), ite_self, ↓State.firstRead_blur μ (maskSub rfl hμ), ↓State.skdFault_blur μ (maskSub rfl hμ), ↓State.yrdRaise_blur μ (maskSub rfl hμ), ↓State.countBoard_blur μ (maskSub rfl hμ), ↓State.useObj_blur μ (maskSub rfl hμ), ↓State.addReg_blur μ (maskSub rfl hμ), ↓State.entryRefs_blur μ (maskSub rfl hμ), ↓State.modStream_blur μ (maskSub rfl hμ)] | split

theorem execFetchList_blur (μ : Nat) (hμ : 0xc0012 &&& μ = 0xc0012) : ∀ a0 a1 a2, ∀ t, execFetchList a0 a1 a2 = .next t → t.blur μ = a2.blur μ := by
  intros a0 a1 a2 t h; unfold execFetchList at h; cases h
  repeat' first | with_reducible rfl | intro _ | simp only [↓apply_ite (State.blur μ), ite_self, ↓foldl_blur μ, ↓State.deliver_blur μ (maskSub rfl hμ), ↓State.skdFault_blur μ (maskSub rfl hμ), ↓State.setStream_blur μ (maskSub rfl hμ)] | split | refine (foldl_blur μ _ ?_ _ _).trans ?_ | refine (foldl1_blur μ _ ?_ _ _).trans ?_

theorem execListMerge_blur (μ : Nat) (hμ : 0xe0032 &&& μ = 0xe0032) : ∀ a0 a1 a2, ∀ t, execListMerge a0 a1 a2 = .next t → t.blur μ = a2.blur μ := by
  intros a0 a1 a2 t h; unfold execListMerge at h; cases h
  repeat' first | with_reducible rfl | simp only [↓apply_ite (State.blur μ), ite_self, ↓State.sendAll_blur μ (maskSub rfl hμ), ↓State.satReg_blur μ (maskSub rfl hμ), ↓State.addReg_blur μ (maskSub rfl hμ), ↓State.skdFault_blur μ (maskSub rfl hμ), ↓State.yrdRaise_blur μ (maskSub rfl hμ), ↓State.useObj_blur μ (maskSub rfl hμ), ↓State.objWriteV_blur μ (maskSub rfl hμ), ↓State.modStream_blur μ (maskSub rfl hμ)] | split

theorem execFillLaneAssign_blur (μ : Nat) (hμ : 0x80000 &&& μ = 0x80000) : ∀ a0 a1, ∀ t, execFillLaneAssign a0 a1 = .next t → t.blur μ = a1.blur μ := by
  intros a0 a1 t h; unfold execFillLaneAssign at h; cases h
  repeat' first | with_reducible rfl | simp only [↓apply_ite (State.blur μ), ite_self, ↓State.modStream_blur μ (maskSub rfl hμ)] | split

theorem execFillLanded_blur (μ : Nat) (hμ : 0xe003a &&& μ = 0xe003a) : ∀ a0 a1 a2 a3 a4, ∀ t, execFillLanded a0 a1 a2 a3 a4 = .next t → t.blur μ = a4.blur μ := by
  intros a0 a1 a2 a3 a4 t h; unfold execFillLanded at h; cases h
  repeat' first | with_reducible rfl | simp only [↓apply_ite (State.blur μ), ite_self, ↓State.skdFault_blur μ (maskSub rfl hμ), ↓State.satReg_blur μ (maskSub rfl hμ), ↓State.modCell_blur μ (maskSub rfl hμ), ↓State.addReg_blur μ (maskSub rfl hμ), ↓State.modStream_blur μ (maskSub rfl hμ), ↓State.prefetches_blur μ (maskSub rfl hμ)] | split

theorem State.skdCtrl_blur (μ : Nat) (hμ : 0xc0000 &&& μ = 0xc0000) : ∀ a0 a1, (State.skdCtrl a0 a1).blur μ = a0.blur μ := by
  intros; unfold State.skdCtrl
  repeat' first | with_reducible rfl | intro _ | simp only [↓foldl_blur μ, ↓State.skdStop_blur μ (maskSub rfl hμ)] | split | refine (foldl_blur μ _ ?_ _ _).trans ?_ | refine (foldl1_blur μ _ ?_ _ _).trans ?_

theorem State.sampleStarve_blur (μ : Nat) (hμ : 0x410 &&& μ = 0x410) : ∀ a0 a1, (State.sampleStarve a0 a1).blur μ = a0.blur μ := by
  intros; unfold State.sampleStarve
  simp only [↓apply_ite (State.blur μ), ite_self, ↓State.satReg_blur μ (maskSub rfl hμ), ↓State.setRgn_blur μ (maskSub rfl hμ)]

theorem State.sampleStarves_blur (μ : Nat) (hμ : 0x410 &&& μ = 0x410) : ∀ a0, (State.sampleStarves a0).blur μ = a0.blur μ := by
  intros; unfold State.sampleStarves
  repeat' first | with_reducible rfl | intro _ | simp only [↓apply_ite (State.blur μ), ite_self, ↓foldl_blur μ, ↓foldl1_blur μ, ↓State.sampleStarve_blur μ (maskSub rfl hμ)] | split | refine (foldl_blur μ _ ?_ _ _).trans ?_ | refine (foldl1_blur μ _ ?_ _ _).trans ?_

theorem State.clearPeer_blur (μ : Nat) (hμ : 0x10 &&& μ = 0x10) : ∀ a0 a1, (State.clearPeer a0 a1).blur μ = a0.blur μ := by
  intros; unfold State.clearPeer
  simp only [↓State.setRegF_blur μ (maskSub rfl hμ)]

theorem State.portDown_blur (μ : Nat) (hμ : 0x1012 &&& μ = 0x1012) : ∀ a0 a1, (State.portDown a0 a1).blur μ = a0.blur μ := by
  intros; unfold State.portDown
  simp only [↓State.raise_blur μ (maskSub rfl hμ), ↓State.clearPeer_blur μ (maskSub rfl hμ), ↓State.modSky_blur μ (maskSub rfl hμ)]

theorem State.mapLanes_blur (μ : Nat) (hμ : 0x1012 &&& μ = 0x1012) : ∀ a0 a1 a2, (State.mapLanes a0 a1 a2).blur μ = a0.blur μ := by
  intros; unfold State.mapLanes
  repeat' first | with_reducible rfl | intro _ | simp only [↓apply_ite (State.blur μ), ite_self, ↓foldl_blur μ, ↓State.raise_blur μ (maskSub rfl hμ), ↓State.satReg_blur μ (maskSub rfl hμ), ↓State.setSky_blur μ (maskSub rfl hμ)] | split | refine (foldl_blur μ _ ?_ _ _).trans ?_ | refine (foldl1_blur μ _ ?_ _ _).trans ?_

theorem State.enterRetrain_blur (μ : Nat) (hμ : 0x1010 &&& μ = 0x1010) : ∀ a0 a1, (State.enterRetrain a0 a1).blur μ = a0.blur μ := by
  intros; unfold State.enterRetrain
  simp only [↓State.satReg_blur μ (maskSub rfl hμ), ↓State.setSky_blur μ (maskSub rfl hμ)]

theorem State.replayAll_blur (μ : Nat) (hμ : 0x1014 &&& μ = 0x1014) : ∀ a0 a1, (State.replayAll a0 a1).blur μ = a0.blur μ := by
  intros; unfold State.replayAll
  repeat' first | with_reducible rfl | intro _ | simp only [↓apply_ite (State.blur μ), ite_self, ↓foldl_blur μ, ↓foldl1_blur μ, ↓State.emit_blur μ (maskSub rfl hμ), ↓State.setSky_blur μ (maskSub rfl hμ), ↓State.enterRetrain_blur μ (maskSub rfl hμ)] | split | refine (foldl_blur μ _ ?_ _ _).trans ?_ | refine (foldl1_blur μ _ ?_ _ _).trans ?_

theorem State.drainIn_blur (μ : Nat) (hμ : 0x1202 &&& μ = 0x1202) : ∀ a0 a1, (State.drainIn a0 a1).blur μ = a0.blur μ := by
  intros; unfold State.drainIn
  repeat' first | with_reducible rfl | intro _ | simp only [↓apply_ite (State.blur μ), ite_self, ↓foldl_blur μ, ↓foldl1_blur μ, ↓State.setUse_blur μ (maskSub rfl hμ), ↓State.modSky_blur μ (maskSub rfl hμ), ↓State.send_blur μ (maskSub rfl hμ)] | split | refine (foldl_blur μ _ ?_ _ _).trans ?_ | refine (foldl1_blur μ _ ?_ _ _).trans ?_

theorem State.meshIn_blur (μ : Nat) (hμ : 0x1a12 &&& μ = 0x1a12) (s p f) : (State.meshIn s p f).blur μ = s.blur μ := by
  unfold State.meshIn
  dsimp only
  split
  · rw [State.modSky_blur μ (maskSub rfl hμ), State.raise_blur μ (maskSub rfl hμ), State.satReg_blur μ (maskSub rfl hμ)]
  · split
    · rw [State.modSky_blur μ (maskSub rfl hμ), State.satReg_blur μ (maskSub rfl hμ)]
    · rw [State.drainIn_blur μ (maskSub rfl hμ), State.modSky_blur μ (maskSub rfl hμ)]
      split
      · exact blur_800 μ (maskSub rfl hμ) _ _
      · rfl

theorem State.tileIn_blur (μ : Nat) (hμ : 0x1000 &&& μ = 0x1000) : ∀ a0 a1 a2, (State.tileIn a0 a1 a2).1.blur μ = a0.blur μ := by
  intros; unfold State.tileIn
  simp only [↓apply_ite (State.blur μ), ite_self, ↓apply_ite Prod.fst, ↓State.setSky_blur μ (maskSub rfl hμ), ↓State.modSky_blur μ (maskSub rfl hμ)]

theorem State.skyReceive_blur (μ : Nat) (hμ : 0x1a1e &&& μ = 0x1a1e) : ∀ a0 a1 a2, (State.skyReceive a0 a1 a2).1.blur μ = a0.blur μ := by
  intros; unfold State.skyReceive
  repeat' first | with_reducible rfl | intro _ | simp only [↓apply_ite (State.blur μ), ite_self, ↓apply_ite Prod.fst, ↓foldl_blur μ, ↓foldl1_blur μ, ↓State.sendSky_blur μ (maskSub rfl hμ), ↓State.satReg_blur μ (maskSub rfl hμ), ↓State.modSky_blur μ (maskSub rfl hμ), ↓State.setSky_blur μ (maskSub rfl hμ), ↓State.replayAll_blur μ (maskSub rfl hμ), ↓State.addReg_blur μ (maskSub rfl hμ), ↓State.meshIn_blur μ (maskSub rfl hμ), ↓State.tileIn_blur μ (maskSub rfl hμ), ↓State.drainPort_blur μ (maskSub rfl hμ)] | split | refine (foldl_blur μ _ ?_ _ _).trans ?_ | refine (foldl1_blur μ _ ?_ _ _).trans ?_

theorem execSkyAckTimer_blur (μ : Nat) (hμ : 0x1216 &&& μ = 0x1216) : ∀ a0 a1, ∀ t, execSkyAckTimer a0 a1 = .next t → t.blur μ = a1.blur μ := by
  intros a0 a1 t h; unfold execSkyAckTimer at h; cases h
  simp only [↓apply_ite (State.blur μ), ite_self, ↓State.drainIn_blur μ (maskSub rfl hμ), ↓State.sendSky_blur μ (maskSub rfl hμ)]

theorem execMeshFlitSendTimer_blur (μ : Nat) (hμ : 0x101e &&& μ = 0x101e) : ∀ a0 a1, ∀ t, execMeshFlitSendTimer a0 a1 = .next t → t.blur μ = a1.blur μ := by
  intros a0 a1 t h; unfold execMeshFlitSendTimer at h; cases h
  simp only [↓State.drainPort_blur μ (maskSub rfl hμ)]

theorem execPortRetrain_blur (μ : Nat) (hμ : 0x1012 &&& μ = 0x1012) : ∀ a0 a1 a2, ∀ t, execPortRetrain a0 a1 a2 = .next t → t.blur μ = a2.blur μ := by
  intros a0 a1 a2 t h; unfold execPortRetrain at h; cases h
  simp only [↓apply_ite (State.blur μ), ite_self, ↓State.mapLanes_blur μ (maskSub rfl hμ), ↓State.enterRetrain_blur μ (maskSub rfl hμ), ↓State.portDown_blur μ (maskSub rfl hμ)]

theorem execRetrainAttemptTimeout_blur (μ : Nat) (hμ : 0x1012 &&& μ = 0x1012) : ∀ a0 a1, ∀ t, execRetrainAttemptTimeout a0 a1 = .next t → t.blur μ = a1.blur μ := by
  intros a0 a1 t h; unfold execRetrainAttemptTimeout at h; cases h
  simp only [↓apply_ite (State.blur μ), ite_self, ↓State.portDown_blur μ (maskSub rfl hμ), ↓State.setSky_blur μ (maskSub rfl hμ)]

theorem execRetrainComplete_blur (μ : Nat) (hμ : 0x101e &&& μ = 0x101e) : ∀ a0 a1 a2, ∀ t, execRetrainComplete a0 a1 a2 = .next t → t.blur μ = a2.blur μ := by
  intros a0 a1 a2 t h; unfold execRetrainComplete at h; cases h
  repeat' first | with_reducible rfl | intro _ | simp only [↓apply_ite (State.blur μ), ite_self, ↓foldl_blur μ, ↓State.mapLanes_blur μ (maskSub rfl hμ), ↓State.portDown_blur μ (maskSub rfl hμ), ↓State.setSky_blur μ (maskSub rfl hμ), ↓State.drainPort_blur μ (maskSub rfl hμ), ↓State.emit_blur μ (maskSub rfl hμ)] | split | refine (foldl_blur μ _ ?_ _ _).trans ?_ | refine (foldl1_blur μ _ ?_ _ _).trans ?_

theorem State.writeSkyCtrl_blur (μ : Nat) (hμ : 0x1010 &&& μ = 0x1010) : ∀ a0 a1 a2, (State.writeSkyCtrl a0 a1 a2).blur μ = a0.blur μ := by
  intros; unfold State.writeSkyCtrl
  simp only [↓apply_ite (State.blur μ), ite_self, ↓State.setRegF_blur μ (maskSub rfl hμ), ↓State.clearPeer_blur μ (maskSub rfl hμ), ↓State.setSky_blur μ (maskSub rfl hμ), ↓State.enterRetrain_blur μ (maskSub rfl hμ)]

theorem State.setLayer_blur (μ : Nat) (hμ : 0x100000 &&& μ = 0x100000) : ∀ a0 a1 a2 a3, (State.setLayer a0 a1 a2 a3).blur μ = a0.blur μ := by
  intros; unfold State.setLayer
  simp only [↓State.modRed_blur μ (maskSub rfl hμ)]

theorem State.modLayer_blur (μ : Nat) (hμ : 0x100000 &&& μ = 0x100000) : ∀ a0 a1 a2 a3, (State.modLayer a0 a1 a2 a3).blur μ = a0.blur μ := by
  intros; unfold State.modLayer
  repeat' first | with_reducible rfl | simp only [↓State.setLayer_blur μ (maskSub rfl hμ)] | split

theorem State.redRaise_blur (μ : Nat) (hμ : 0x12 &&& μ = 0x12) : ∀ a0 a1 a2 a3 a4, (State.redRaise a0 a1 a2 a3 a4).blur μ = a0.blur μ := by
  intros; unfold State.redRaise
  simp only [↓State.raise_blur μ (maskSub rfl hμ), ↓State.setReg_blur μ (maskSub rfl hμ)]

theorem State.writeTileAt_blur (μ : Nat) (hμ : 0x60020 &&& μ = 0x60020) : ∀ a0 a1 a2 a3 a4, (State.writeTileAt a0 a1 a2 a3 a4).blur μ = a0.blur μ := by
  intros; unfold State.writeTileAt
  repeat' first | with_reducible rfl | simp only [↓apply_ite (State.blur μ), ite_self, ↓State.objWriteV_blur μ (maskSub rfl hμ), ↓State.useObj_blur μ (maskSub rfl hμ)] | split

theorem State.putRecTile_blur (μ : Nat) (hμ : 0x60020 &&& μ = 0x60020) : ∀ a0 a1 a2 a3 a4 a5 a6 a7, (State.putRecTile a0 a1 a2 a3 a4 a5 a6 a7).blur μ = a0.blur μ := by
  intros; unfold State.putRecTile
  simp only [↓apply_ite (State.blur μ), ite_self, ↓State.objWriteV_blur μ (maskSub rfl hμ)]

theorem State.putRecord_blur (μ : Nat) (hμ : 0x60020 &&& μ = 0x60020) : ∀ a0 a1 a2 a3 a4 a5, (State.putRecord a0 a1 a2 a3 a4 a5).blur μ = a0.blur μ := by
  intros; unfold State.putRecord
  simp only [↓apply_ite (State.blur μ), ite_self, ↓State.putRecTile_blur μ (maskSub rfl hμ), ↓State.objWriteV_blur μ (maskSub rfl hμ)]

theorem State.writeRecords_blur (μ : Nat) (hμ : 0x160032 &&& μ = 0x160032) : ∀ a0 a1 a2 a3 a4 a5, (State.writeRecords a0 a1 a2 a3 a4 a5).blur μ = a0.blur μ := by
  intros; unfold State.writeRecords
  repeat' first | with_reducible rfl | intro _ | simp only [↓apply_ite (State.blur μ), ite_self, ↓foldl_blur μ, ↓foldl1_blur μ, ↓State.putRecord_blur μ (maskSub rfl hμ), ↓State.objWriteV_blur μ (maskSub rfl hμ), ↓State.modLayer_blur μ (maskSub rfl hμ), ↓State.redRaise_blur μ (maskSub rfl hμ)] | split | refine (foldl_blur μ _ ?_ _ _).trans ?_ | refine (foldl1_blur μ _ ?_ _ _).trans ?_

theorem State.slotVersions_blur (μ : Nat) (hμ : 0x40020 &&& μ = 0x40020) : ∀ a0 a1 a2 a3, (State.slotVersions a0 a1 a2 a3).blur μ = a0.blur μ := by
  intros; unfold State.slotVersions
  simp only [↓blur_20 μ (maskSub rfl hμ), ↓blur_40000 μ (maskSub rfl hμ), ↓blur_40020 μ (maskSub rfl hμ), ↓apply_ite (State.blur μ), ite_self]

theorem State.confirmTo_blur (μ : Nat) (hμ : 0x140038 &&& μ = 0x140038) : ∀ a0 a1 a2, (State.confirmTo a0 a1 a2).blur μ = a0.blur μ := by
  intros; unfold State.confirmTo
  simp only [↓apply_ite (State.blur μ), ite_self, ↓State.freeCount_blur μ (maskSub rfl hμ), ↓State.setRegF_blur μ (maskSub rfl hμ), ↓State.slotVersions_blur μ (maskSub rfl hμ), ↓State.modRed_blur μ (maskSub rfl hμ), ↓State.addReg_blur μ (maskSub rfl hμ)]

theorem State.rollbackTo_blur (μ : Nat) (hμ : 0x1400b8 &&& μ = 0x1400b8) : ∀ a0 a1, (State.rollbackTo a0 a1).blur μ = a0.blur μ := by
  intros; unfold State.rollbackTo
  simp only [↓apply_ite (State.blur μ), ite_self, ↓State.freeCount_blur μ (maskSub rfl hμ), ↓State.slotVersions_blur μ (maskSub rfl hμ), ↓State.satReg_blur μ (maskSub rfl hμ), ↓State.setRegF_blur μ (maskSub rfl hμ), ↓State.modRed_blur μ (maskSub rfl hμ), ↓State.modSlot_blur μ (maskSub rfl hμ)]

theorem State.passVerdict_blur (μ : Nat) (hμ : 0x10101e &&& μ = 0x10101e) : ∀ a0 a1 a2, (State.passVerdict a0 a1 a2).blur μ = a0.blur μ := by
  intros; unfold State.passVerdict
  simp only [↓apply_ite (State.blur μ), ite_self, ↓State.modRed_blur μ (maskSub rfl hμ), ↓State.digestMsg_blur μ (maskSub rfl hμ), ↓State.send_blur μ (maskSub rfl hμ), ↓State.raise_blur μ (maskSub rfl hμ)]

theorem State.rollbackUp_blur (μ : Nat) (hμ : 0x101e &&& μ = 0x101e) : ∀ a0 a1 a2, (State.rollbackUp a0 a1 a2).blur μ = a0.blur μ := by
  intros; unfold State.rollbackUp
  simp only [↓apply_ite (State.blur μ), ite_self, ↓State.toModule_blur μ (maskSub rfl hμ), ↓State.send_blur μ (maskSub rfl hμ)]

theorem State.formVerdict_blur (μ : Nat) (hμ : 0x10101e &&& μ = 0x10101e) : ∀ a0 a1, (State.formVerdict a0 a1).blur μ = a0.blur μ := by
  intros; unfold State.formVerdict
  simp only [↓apply_ite (State.blur μ), ite_self, ↓State.satReg_blur μ (maskSub rfl hμ), ↓State.passVerdict_blur μ (maskSub rfl hμ), ↓State.modRed_blur μ (maskSub rfl hμ)]

theorem State.compareDigest_blur (μ : Nat) (hμ : 0x100012 &&& μ = 0x100012) : ∀ a0 a1 a2 a3 a4, (State.compareDigest a0 a1 a2 a3 a4).blur μ = a0.blur μ := by
  intros; unfold State.compareDigest
  simp only [↓apply_ite (State.blur μ), ite_self, ↓State.setLayer_blur μ (maskSub rfl hμ), ↓State.redRaise_blur μ (maskSub rfl hμ), ↓State.setReg_blur μ (maskSub rfl hμ), ↓State.raise_blur μ (maskSub rfl hμ)]

theorem State.tryAdvance_blur (μ : Nat) (hμ : 0x10101e &&& μ = 0x10101e) : ∀ a0 a1, (State.tryAdvance a0 a1).blur μ = a0.blur μ := by
  intros; unfold State.tryAdvance
  simp only [↓apply_ite (State.blur μ), ite_self, ↓State.modRed_blur μ (maskSub rfl hμ), ↓State.setRegF_blur μ (maskSub rfl hμ), ↓State.formVerdict_blur μ (maskSub rfl hμ)]

theorem execCommitMarker_blur (μ : Nat) (hμ : 0x16103e &&& μ = 0x16103e) : ∀ a0 a1 a2, ∀ t, execCommitMarker a0 a1 a2 = .next t → t.blur μ = a2.blur μ := by
  intros a0 a1 a2 t h; unfold execCommitMarker at h; cases h
  repeat' first | with_reducible rfl | intro _ | simp only [↓apply_ite (State.blur μ), ite_self, ↓foldl_blur μ, ↓foldl1_blur μ, ↓State.objWriteV_blur μ (maskSub rfl hμ), ↓State.setLayer_blur μ (maskSub rfl hμ), ↓State.digestMsg_blur μ (maskSub rfl hμ), ↓State.compareDigest_blur μ (maskSub rfl hμ), ↓State.tryAdvance_blur μ (maskSub rfl hμ)] | split | refine (foldl_blur μ _ ?_ _ _).trans ?_ | refine (foldl1_blur μ _ ?_ _ _).trans ?_

theorem execShadowDigest_blur (μ : Nat) (hμ : 0x10101e &&& μ = 0x10101e) : ∀ a0 a1 a2 a3 a4, ∀ t, execShadowDigest a0 a1 a2 a3 a4 = .next t → t.blur μ = a4.blur μ := by
  intros a0 a1 a2 a3 a4 t h; unfold execShadowDigest at h; cases h
  repeat' first | with_reducible rfl | simp only [↓apply_ite (State.blur μ), ite_self, ↓State.deliver_blur μ (maskSub rfl hμ), ↓State.formVerdict_blur μ (maskSub rfl hμ), ↓State.compareDigest_blur μ (maskSub rfl hμ), ↓State.setLayer_blur μ (maskSub rfl hμ)] | split

theorem execVerdictArrive_blur (μ : Nat) (hμ : 0x10101e &&& μ = 0x10101e) : ∀ a0 a1 a2 a3 a4 a5, ∀ t, execVerdictArrive a0 a1 a2 a3 a4 a5 = .next t → t.blur μ = a5.blur μ := by
  intros a0 a1 a2 a3 a4 a5 t h; unfold execVerdictArrive at h; cases h
  simp only [↓apply_ite (State.blur μ), ite_self, ↓State.deliver_blur μ (maskSub rfl hμ), ↓State.modRed_blur μ (maskSub rfl hμ), ↓State.passVerdict_blur μ (maskSub rfl hμ)]

theorem State.tellKids_blur (μ : Nat) (hμ : 0x101e &&& μ = 0x101e) : ∀ a0 a1 a2, (State.tellKids a0 a1 a2).blur μ = a0.blur μ := by
  intros; unfold State.tellKids
  repeat' first | with_reducible rfl | intro _ | simp only [↓foldl_blur μ, ↓State.toModule_blur μ (maskSub rfl hμ)] | split | refine (foldl_blur μ _ ?_ _ _).trans ?_ | refine (foldl1_blur μ _ ?_ _ _).trans ?_

theorem execConfirm_blur (μ : Nat) (hμ : 0x14103e &&& μ = 0x14103e) : ∀ a0 a1 a2, ∀ t, execConfirm a0 a1 a2 = .next t → t.blur μ = a2.blur μ := by
  intros a0 a1 a2 t h; unfold execConfirm at h; cases h
  simp only [↓apply_ite (State.blur μ), ite_self, ↓State.tellKids_blur μ (maskSub rfl hμ), ↓State.deliver_blur μ (maskSub rfl hμ), ↓State.modRed_blur μ (maskSub rfl hμ), ↓State.confirmTo_blur μ (maskSub rfl hμ)]

theorem State.endCkpt_blur (μ : Nat) (hμ : 0x140038 &&& μ = 0x140038) : ∀ a0 a1, (State.endCkpt a0 a1).blur μ = a0.blur μ := by
  intros; unfold State.endCkpt
  repeat' first | with_reducible rfl | simp only [↓apply_ite (State.blur μ), ite_self, ↓State.confirmTo_blur μ (maskSub rfl hμ), ↓State.freeCount_blur μ (maskSub rfl hμ)] | split

theorem execVerdictTimeout_blur (μ : Nat) (hμ : 0x100012 &&& μ = 0x100012) : ∀ a0 a1, ∀ t, execVerdictTimeout a0 a1 = .next t → t.blur μ = a1.blur μ := by
  intros a0 a1 t h; unfold execVerdictTimeout at h; cases h
  simp only [↓apply_ite (State.blur μ), ite_self, ↓State.redRaise_blur μ (maskSub rfl hμ), ↓State.modRed_blur μ (maskSub rfl hμ)]

theorem State.writeRedStep_blur (μ : Nat) (hμ : 0x140032 &&& μ = 0x140032) : ∀ a0 a1 a2, (State.writeRedStep a0 a1 a2).1.blur μ = a0.blur μ := by
  intros; unfold State.writeRedStep
  simp only [↓apply_ite (State.blur μ), ite_self, ↓apply_ite Prod.fst, ↓State.reject_blur μ (maskSub rfl hμ), ↓State.setReg_blur μ (maskSub rfl hμ), ↓State.slotVersions_blur μ (maskSub rfl hμ), ↓State.modRed_blur μ (maskSub rfl hμ)]

theorem State.packTile_blur (μ : Nat) (hμ : 0x60020 &&& μ = 0x60020) : ∀ a0 a1 a2 a3 a4 a5, (State.packTile a0 a1 a2 a3 a4 a5).blur μ = a0.blur μ := by
  intros; unfold State.packTile
  repeat' first | with_reducible rfl | intro _ | simp only [↓apply_ite (State.blur μ), ite_self, ↓foldl_blur μ, ↓foldl1_blur μ, ↓State.objWriteV_blur μ (maskSub rfl hμ)] | split | refine (foldl_blur μ _ ?_ _ _).trans ?_ | refine (foldl1_blur μ _ ?_ _ _).trans ?_

theorem execParameterBroadcastTile_blur (μ : Nat) (hμ : 0x160022 &&& μ = 0x160022) : ∀ a0 a1 a2 a3 a4 a5 a6 a7, ∀ t, execParameterBroadcastTile a0 a1 a2 a3 a4 a5 a6 a7 = .next t → t.blur μ = a7.blur μ := by
  intros a0 a1 a2 a3 a4 a5 a6 a7 t h; unfold execParameterBroadcastTile at h; cases h
  repeat' first | with_reducible rfl | simp only [↓apply_ite (State.blur μ), ite_self, ↓State.deliver_blur μ (maskSub rfl hμ), ↓State.setLayer_blur μ (maskSub rfl hμ), ↓State.packTile_blur μ (maskSub rfl hμ)] | split

theorem State.closeSet_blur (μ : Nat) (hμ : 0x16103e &&& μ = 0x16103e) : ∀ a0 a1 a2 a3 a4, (State.closeSet a0 a1 a2 a3 a4).blur μ = a0.blur μ := by
  intros; unfold State.closeSet
  repeat' first | with_reducible rfl | intro _ | simp only [↓foldl_blur μ, ↓State.setLayer_blur μ (maskSub rfl hμ), ↓State.satReg_blur μ (maskSub rfl hμ), ↓State.toModule_blur μ (maskSub rfl hμ), ↓State.writeRecords_blur μ (maskSub rfl hμ), ↓State.modLayer_blur μ (maskSub rfl hμ)] | split | refine (foldl_blur μ _ ?_ _ _).trans ?_ | refine (foldl1_blur μ _ ?_ _ _).trans ?_

theorem State.shadowTry_blur (μ : Nat) (hμ : 0x16103e &&& μ = 0x16103e) : ∀ a0 a1 a2, (State.shadowTry a0 a1 a2).blur μ = a0.blur μ := by
  intros; unfold State.shadowTry
  repeat' first | with_reducible rfl | simp only [↓apply_ite (State.blur μ), ite_self, ↓State.closeSet_blur μ (maskSub rfl hμ)] | split

theorem execContribTileArrive_blur (μ : Nat) (hμ : 0x16103e &&& μ = 0x16103e) : ∀ a0 a1, ∀ t, execContribTileArrive a0 a1 = .next t → t.blur μ = a1.blur μ := by
  intros a0 a1 t h; unfold execContribTileArrive at h; cases h
  repeat' first | with_reducible rfl | simp only [↓apply_ite (State.blur μ), ite_self, ↓State.deliver_blur μ (maskSub rfl hμ), ↓State.toModule_blur μ (maskSub rfl hμ), ↓State.shadowTry_blur μ (maskSub rfl hμ), ↓State.setLayer_blur μ (maskSub rfl hμ)] | split

theorem execContribSetClose_blur (μ : Nat) (hμ : 0x16103e &&& μ = 0x16103e) : ∀ a0 a1 a2, ∀ t, execContribSetClose a0 a1 a2 = .next t → t.blur μ = a2.blur μ := by
  intros a0 a1 a2 t h; unfold execContribSetClose at h; cases h
  repeat' first | with_reducible rfl | simp only [↓apply_ite (State.blur μ), ite_self, ↓State.toModule_blur μ (maskSub rfl hμ), ↓State.closeSet_blur μ (maskSub rfl hμ)] | split

theorem execContribSetNotice_blur (μ : Nat) (hμ : 0x16103e &&& μ = 0x16103e) : ∀ a0 a1 a2 a3, ∀ t, execContribSetNotice a0 a1 a2 a3 = .next t → t.blur μ = a3.blur μ := by
  intros a0 a1 a2 a3 t h; unfold execContribSetNotice at h; cases h
  repeat' first | with_reducible rfl | simp only [↓apply_ite (State.blur μ), ite_self, ↓State.deliver_blur μ (maskSub rfl hμ), ↓State.shadowTry_blur μ (maskSub rfl hμ), ↓State.setLayer_blur μ (maskSub rfl hμ)] | split

theorem execSetGraceExpiry_blur (μ : Nat) (hμ : 0x16103e &&& μ = 0x16103e) : ∀ a0 a1 a2, ∀ t, execSetGraceExpiry a0 a1 a2 = .next t → t.blur μ = a2.blur μ := by
  intros a0 a1 a2 t h; unfold execSetGraceExpiry at h; cases h
  repeat' first | with_reducible rfl | simp only [↓apply_ite (State.blur μ), ite_self, ↓State.deliver_blur μ (maskSub rfl hμ), ↓State.formVerdict_blur μ (maskSub rfl hμ), ↓State.setLayer_blur μ (maskSub rfl hμ), ↓State.redRaise_blur μ (maskSub rfl hμ), ↓State.toModule_blur μ (maskSub rfl hμ), ↓State.closeSet_blur μ (maskSub rfl hμ)] | split

theorem execContribAck_blur (μ : Nat) (hμ : 0x100002 &&& μ = 0x100002) : ∀ a0 a1 a2 a3 a4, ∀ t, execContribAck a0 a1 a2 a3 a4 = .next t → t.blur μ = a4.blur μ := by
  intros a0 a1 a2 a3 a4 t h; unfold execContribAck at h; cases h
  simp only [↓apply_ite (State.blur μ), ite_self, ↓State.deliver_blur μ (maskSub rfl hμ), ↓State.modRed_blur μ (maskSub rfl hμ), ↓State.modLayer_blur μ (maskSub rfl hμ)]

theorem State.foldTile_blur (μ : Nat) (hμ : 0x60020 &&& μ = 0x60020) : ∀ a0 a1 a2, (State.foldTile a0 a1 a2).blur μ = a0.blur μ := by
  intros; unfold State.foldTile
  repeat' first | with_reducible rfl | simp only [↓apply_ite (State.blur μ), ite_self, ↓State.objWriteV_blur μ (maskSub rfl hμ), ↓State.setCell_blur μ (maskSub rfl hμ)] | split

theorem execLateRefusal_blur (μ : Nat) (hμ : 0x160032 &&& μ = 0x160032) : ∀ a0 a1 a2 a3, ∀ t, execLateRefusal a0 a1 a2 a3 = .next t → t.blur μ = a3.blur μ := by
  intros a0 a1 a2 a3 t h; unfold execLateRefusal at h; cases h
  repeat' first | with_reducible rfl | intro _ | simp only [↓apply_ite (State.blur μ), ite_self, ↓foldl_blur μ, ↓State.deliver_blur μ (maskSub rfl hμ), ↓State.setLayer_blur μ (maskSub rfl hμ), ↓State.modRed_blur μ (maskSub rfl hμ), ↓State.redRaise_blur μ (maskSub rfl hμ), ↓State.satReg_blur μ (maskSub rfl hμ), ↓State.foldTile_blur μ (maskSub rfl hμ)] | split | refine (foldl_blur μ _ ?_ _ _).trans ?_ | refine (foldl1_blur μ _ ?_ _ _).trans ?_

theorem State.contribute_blur (μ : Nat) (hμ : 0x11101e &&& μ = 0x11101e) : ∀ a0 a1 a2 a3 a4 a5 a6 a7 a8 a9, (State.contribute a0 a1 a2 a3 a4 a5 a6 a7 a8 a9).blur μ = a0.blur μ := by
  intros; unfold State.contribute
  repeat' first | with_reducible rfl | intro _ | simp only [↓apply_ite (State.blur μ), ite_self, ↓foldl_blur μ, ↓State.modRed_blur μ (maskSub rfl hμ), ↓State.send_blur μ (maskSub rfl hμ), ↓State.sendTile_blur μ (maskSub rfl hμ)] | split | refine (foldl_blur μ _ ?_ _ _).trans ?_ | refine (foldl1_blur μ _ ?_ _ _).trans ?_

theorem State.publish_blur (μ : Nat) (hμ : 0x7103e &&& μ = 0x7103e) : ∀ a0 a1 a2 a3 a4 a5 a6 a7, (State.publish a0 a1 a2 a3 a4 a5 a6 a7).blur μ = a0.blur μ := by
  intros; unfold State.publish
  repeat' first | with_reducible rfl | intro _ | simp only [↓apply_ite (State.blur μ), ite_self, ↓foldl_blur μ, ↓foldl1_blur μ, ↓State.packTile_blur μ (maskSub rfl hμ), ↓State.sendTile_blur μ (maskSub rfl hμ)] | split | refine (foldl_blur μ _ ?_ _ _).trans ?_ | refine (foldl1_blur μ _ ?_ _ _).trans ?_

theorem State.routeTile_blur (μ : Nat) (hμ : 0x17103e &&& μ = 0x17103e) : ∀ a0 a1 a2 a3 a4 a5 a6 a7 a8, (State.routeTile a0 a1 a2 a3 a4 a5 a6 a7 a8).blur μ = a0.blur μ := by
  intros; unfold State.routeTile
  repeat' first | with_reducible rfl | simp only [↓apply_ite (State.blur μ), ite_self, ↓State.redRaise_blur μ (maskSub rfl hμ), ↓State.contribute_blur μ (maskSub rfl hμ), ↓State.writeTileAt_blur μ (maskSub rfl hμ), ↓State.setLayer_blur μ (maskSub rfl hμ), ↓State.publish_blur μ (maskSub rfl hμ)] | split

theorem execOutboxTake_blur (μ : Nat) (hμ : 0x17143e &&& μ = 0x17143e) : ∀ a0 a1 a2, ∀ t, execOutboxTake a0 a1 a2 = .next t → t.blur μ = a2.blur μ := by
  intros a0 a1 a2 t h; unfold execOutboxTake at h; cases h
  repeat' first | with_reducible rfl | simp only [↓apply_ite (State.blur μ), ite_self, ↓State.setCell_blur μ (maskSub rfl hμ), ↓State.modRed_blur μ (maskSub rfl hμ), ↓State.redRaise_blur μ (maskSub rfl hμ), ↓State.routeTile_blur μ (maskSub rfl hμ), ↓State.paidTile_blur μ (maskSub rfl hμ)] | split

theorem State.tileContrib_blur (μ : Nat) (hμ : 0x1101e &&& μ = 0x1101e) : ∀ a0 a1 a2 a3 a4, (State.tileContrib a0 a1 a2 a3 a4).blur μ = a0.blur μ := by
  intros; unfold State.tileContrib
  repeat' first | with_reducible rfl | simp only [↓apply_ite (State.blur μ), ite_self, ↓State.fresh_blur μ (maskSub rfl hμ), ↓State.send_blur μ (maskSub rfl hμ), ↓State.sendTile_blur μ (maskSub rfl hμ), ↓State.satReg_blur μ (maskSub rfl hμ)] | split

theorem State.tileCast_blur (μ : Nat) (hμ : 0x1101e &&& μ = 0x1101e) : ∀ a0 a1 a2 a3 a4, (State.tileCast a0 a1 a2 a3 a4).blur μ = a0.blur μ := by
  intros; unfold State.tileCast
  repeat' first | with_reducible rfl | intro _ | simp only [↓foldl_blur μ, ↓State.sendTile_blur μ (maskSub rfl hμ), ↓State.send_blur μ (maskSub rfl hμ), ↓State.satReg_blur μ (maskSub rfl hμ)] | split | refine (foldl_blur μ _ ?_ _ _).trans ?_ | refine (foldl1_blur μ _ ?_ _ _).trans ?_

theorem execSkyFlitReceive_blur (μ : Nat) (hμ : 0x11a1e &&& μ = 0x11a1e) : ∀ a0 a1 a2, ∀ t, execSkyFlitReceive a0 a1 a2 = .next t → t.blur μ = a2.blur μ := by
  intros a0 a1 a2 t h; unfold execSkyFlitReceive at h; cases h
  repeat' first | with_reducible rfl | simp only [↓apply_ite (State.blur μ), ite_self, ↓State.skyReceive_blur μ (maskSub rfl hμ), ↓State.raise_blur μ (maskSub rfl hμ), ↓State.satReg_blur μ (maskSub rfl hμ), ↓State.tileCast_blur μ (maskSub rfl hμ), ↓State.tileContrib_blur μ (maskSub rfl hμ)] | split

theorem State.setBeat_blur (μ : Nat) (hμ : 0x800000 &&& μ = 0x800000) : ∀ a0 a1, (State.setBeat a0 a1).blur μ = a0.blur μ := by
  intros; unfold State.setBeat
  simp only [↓blur_800000 μ (maskSub rfl hμ)]

theorem State.beatAlign_blur (μ : Nat) (hμ : 0x840012 &&& μ = 0x840012) : ∀ a0 a1, (State.beatAlign a0 a1).blur μ = a0.blur μ := by
  intros; unfold State.beatAlign
  simp only [↓blur_2 μ (maskSub rfl hμ), ↓blur_10 μ (maskSub rfl hμ), ↓blur_40000 μ (maskSub rfl hμ), ↓blur_800000 μ (maskSub rfl hμ), ↓apply_ite (State.blur μ), ite_self, ↓State.setBeat_blur μ (maskSub rfl hμ), ↓State.raise_blur μ (maskSub rfl hμ), ↓State.setReg_blur μ (maskSub rfl hμ)]

theorem State.measure_blur (μ : Nat) (hμ : 0x800008 &&& μ = 0x800008) : ∀ a0 a1 a2, (State.measure a0 a1 a2).blur μ = a0.blur μ := by
  intros; unfold State.measure
  repeat' first | with_reducible rfl | simp only [↓State.fresh_blur μ (maskSub rfl hμ), ↓State.setBeat_blur μ (maskSub rfl hμ)] | split

theorem State.beatLock_blur (μ : Nat) (hμ : 0x84001a &&& μ = 0x84001a) : ∀ a0 a1, (State.beatLock a0 a1).blur μ = a0.blur μ := by
  intros; unfold State.beatLock
  simp only [↓State.setBeat_blur μ (maskSub rfl hμ), ↓State.measure_blur μ (maskSub rfl hμ), ↓State.beatAlign_blur μ (maskSub rfl hμ)]

theorem State.beatSettle_blur (μ : Nat) (hμ : 0x84001a &&& μ = 0x84001a) : ∀ a0, (State.beatSettle a0).blur μ = a0.blur μ := by
  intros; unfold State.beatSettle
  repeat' first | with_reducible rfl | simp only [↓apply_ite (State.blur μ), ite_self, ↓State.beatLock_blur μ (maskSub rfl hμ), ↓State.setBeat_blur μ (maskSub rfl hμ), ↓State.raise_blur μ (maskSub rfl hμ), ↓State.setRegF_blur μ (maskSub rfl hμ)] | split

theorem State.setFibre_blur (μ : Nat) (hμ : 0x800000 &&& μ = 0x800000) : ∀ a0 a1, (State.setFibre a0 a1).blur μ = a0.blur μ := by
  intros; unfold State.setFibre
  simp only [↓State.setBeat_blur μ (maskSub rfl hμ)]

theorem execTickMarker_blur (μ : Nat) (hμ : 0x84001e &&& μ = 0x84001e) : ∀ a0 a1 a2, ∀ t, execTickMarker a0 a1 a2 = .next t → t.blur μ = a2.blur μ := by
  intros a0 a1 a2 t h; unfold execTickMarker at h; cases h
  simp only [↓apply_ite (State.blur μ), ite_self, ↓State.emit_blur μ (maskSub rfl hμ), ↓State.beatSettle_blur μ (maskSub rfl hμ), ↓State.setFibre_blur μ (maskSub rfl hμ)]

theorem execCycleFrame_blur (μ : Nat) (hμ : 0x84001a &&& μ = 0x84001a) : ∀ a0 a1, ∀ t, execCycleFrame a0 a1 = .next t → t.blur μ = a1.blur μ := by
  intros a0 a1 t h; unfold execCycleFrame at h; cases h
  simp only [↓apply_ite (State.blur μ), ite_self, ↓State.setFibre_blur μ (maskSub rfl hμ), ↓State.beatSettle_blur μ (maskSub rfl hμ), ↓State.measure_blur μ (maskSub rfl hμ)]

theorem State.setPtp_blur (μ : Nat) (hμ : 0x800000 &&& μ = 0x800000) : ∀ a0 a1, (State.setPtp a0 a1).blur μ = a0.blur μ := by
  intros; unfold State.setPtp
  simp only [↓State.setBeat_blur μ (maskSub rfl hμ)]

theorem State.ptpSelect_blur (μ : Nat) (hμ : 0x84001a &&& μ = 0x84001a) : ∀ a0, (State.ptpSelect a0).blur μ = a0.blur μ := by
  intros; unfold State.ptpSelect
  repeat' first | with_reducible rfl | simp only [↓apply_ite (State.blur μ), ite_self, ↓State.beatSettle_blur μ (maskSub rfl hμ), ↓State.setPtp_blur μ (maskSub rfl hμ)] | split

theorem execPtpAnnounce_blur (μ : Nat) (hμ : 0x84001a &&& μ = 0x84001a) : ∀ a0 a1 a2, ∀ t, execPtpAnnounce a0 a1 a2 = .next t → t.blur μ = a2.blur μ := by
  intros a0 a1 a2 t h; unfold execPtpAnnounce at h; cases h
  repeat' first | with_reducible rfl | simp only [↓apply_ite (State.blur μ), ite_self, ↓State.countRx_blur μ (maskSub rfl hμ), ↓State.ptpSelect_blur μ (maskSub rfl hμ), ↓State.setPtp_blur μ (maskSub rfl hμ)] | split

theorem State.ptpForget_blur (μ : Nat) (hμ : 0x84001a &&& μ = 0x84001a) : ∀ a0 a1, (State.ptpForget a0 a1).blur μ = a0.blur μ := by
  intros; unfold State.ptpForget
  simp only [↓State.ptpSelect_blur μ (maskSub rfl hμ), ↓State.setPtp_blur μ (maskSub rfl hμ)]

theorem execAnnounceReceiptTimeout_blur (μ : Nat) (hμ : 0x84001a &&& μ = 0x84001a) : ∀ a0 a1, ∀ t, execAnnounceReceiptTimeout a0 a1 = .next t → t.blur μ = a1.blur μ := by
  intros a0 a1 t h; unfold execAnnounceReceiptTimeout at h; cases h
  simp only [↓State.ptpForget_blur μ (maskSub rfl hμ)]

theorem execEthLinkDown_blur (μ : Nat) (hμ : 0xa4001a &&& μ = 0xa4001a) : ∀ a0 a1, ∀ t, execEthLinkDown a0 a1 = .next t → t.blur μ = a1.blur μ := by
  intros a0 a1 t h; unfold execEthLinkDown at h; cases h
  simp only [↓blur_2 μ (maskSub rfl hμ), ↓blur_8 μ (maskSub rfl hμ), ↓blur_10 μ (maskSub rfl hμ), ↓blur_40000 μ (maskSub rfl hμ), ↓blur_200000 μ (maskSub rfl hμ), ↓blur_800000 μ (maskSub rfl hμ), ↓apply_ite (State.blur μ), ite_self, ↓State.setEthPort_blur μ (maskSub rfl hμ), ↓State.ptpForget_blur μ (maskSub rfl hμ), ↓State.raise_blur μ (maskSub rfl hμ)]

theorem execPtpEventMessage_blur (μ : Nat) (hμ : 0x800010 &&& μ = 0x800010) : ∀ a0 a1 a2 a3 a4, ∀ t, execPtpEventMessage a0 a1 a2 a3 a4 = .next t → t.blur μ = a4.blur μ := by
  intros a0 a1 a2 a3 a4 t h; unfold execPtpEventMessage at h; cases h
  simp only [↓apply_ite (State.blur μ), ite_self, ↓State.countRx_blur μ (maskSub rfl hμ), ↓State.setPtp_blur μ (maskSub rfl hμ)]

theorem execPtpSync_blur (μ : Nat) (hμ : 0x84001a &&& μ = 0x84001a) : ∀ a0 a1 a2 a3 a4 a5, ∀ t, execPtpSync a0 a1 a2 a3 a4 a5 = .next t → t.blur μ = a5.blur μ := by
  intros a0 a1 a2 a3 a4 a5 t h; unfold execPtpSync at h; cases h
  simp only [↓apply_ite (State.blur μ), ite_self, ↓State.countRx_blur μ (maskSub rfl hμ), ↓State.beatSettle_blur μ (maskSub rfl hμ), ↓State.setPtp_blur μ (maskSub rfl hμ), ↓State.setBeat_blur μ (maskSub rfl hμ)]

theorem execBeatSourceLoss_blur (μ : Nat) (hμ : 0x84001a &&& μ = 0x84001a) : ∀ a0 a1, ∀ t, execBeatSourceLoss a0 a1 = .next t → t.blur μ = a1.blur μ := by
  intros a0 a1 t h; unfold execBeatSourceLoss at h; cases h
  repeat' first | with_reducible rfl | simp only [↓State.beatSettle_blur μ (maskSub rfl hμ), ↓State.setPtp_blur μ (maskSub rfl hμ), ↓State.setFibre_blur μ (maskSub rfl hμ)] | split

theorem State.writeBeatCtrl_blur (μ : Nat) (hμ : 0x84001a &&& μ = 0x84001a) : ∀ a0 a1, (State.writeBeatCtrl a0 a1).1.blur μ = a0.blur μ := by
  intros; unfold State.writeBeatCtrl
  simp only [↓apply_ite (State.blur μ), ite_self, ↓apply_ite Prod.fst, ↓State.reject_blur μ (maskSub rfl hμ), ↓State.beatSettle_blur μ (maskSub rfl hμ), ↓State.setRegF_blur μ (maskSub rfl hμ)]

theorem State.setSched_blur (μ : Nat) (hμ : 0x800000 &&& μ = 0x800000) : ∀ a0 a1 a2, (State.setSched a0 a1 a2).blur μ = a0.blur μ := by
  intros; unfold State.setSched
  simp only [↓State.setBeat_blur μ (maskSub rfl hμ)]

theorem State.fire_blur (μ : Nat) (hμ : 0x800012 &&& μ = 0x800012) : ∀ a0 a1 a2 a3 a4, (State.fire a0 a1 a2 a3 a4).blur μ = a0.blur μ := by
  intros; unfold State.fire
  repeat' first | with_reducible rfl | simp only [↓apply_ite (State.blur μ), ite_self, ↓State.setSched_blur μ (maskSub rfl hμ), ↓State.addReg_blur μ (maskSub rfl hμ), ↓State.send_blur μ (maskSub rfl hμ)] | split

theorem State.fireEntry_blur (μ : Nat) (hμ : 0x800012 &&& μ = 0x800012) : ∀ a0 a1 a2 a3, (State.fireEntry a0 a1 a2 a3).blur μ = a0.blur μ := by
  intros; unfold State.fireEntry
  repeat' first | with_reducible rfl | intro _ | simp only [↓apply_ite (State.blur μ), ite_self, ↓foldl_blur μ, ↓State.setBeat_blur μ (maskSub rfl hμ), ↓State.fire_blur μ (maskSub rfl hμ), ↓State.satReg_blur μ (maskSub rfl hμ)] | split | refine (foldl_blur μ _ ?_ _ _).trans ?_ | refine (foldl1_blur μ _ ?_ _ _).trans ?_

theorem State.fireSlot_blur (μ : Nat) (hμ : 0x800012 &&& μ = 0x800012) : ∀ a0 a1, (State.fireSlot a0 a1).blur μ = a0.blur μ := by
  intros; unfold State.fireSlot
  repeat' first | with_reducible rfl | intro _ | simp only [↓apply_ite (State.blur μ), ite_self, ↓foldl_blur μ, ↓foldl1_blur μ, ↓State.fireEntry_blur μ (maskSub rfl hμ)] | split | refine (foldl_blur μ _ ?_ _ _).trans ?_ | refine (foldl1_blur μ _ ?_ _ _).trans ?_

theorem State.closeDue_blur (μ : Nat) (hμ : 0x2 &&& μ = 0x2) : ∀ a0 a1, (State.closeDue a0 a1).blur μ = a0.blur μ := by
  intros; unfold State.closeDue
  repeat' first | with_reducible rfl | intro _ | simp only [↓apply_ite (State.blur μ), ite_self, ↓foldl_blur μ, ↓foldl1_blur μ, ↓State.send_blur μ (maskSub rfl hμ)] | split | refine (foldl_blur μ _ ?_ _ _).trans ?_ | refine (foldl1_blur μ _ ?_ _ _).trans ?_

theorem State.startSched_blur (μ : Nat) (hμ : 0x800012 &&& μ = 0x800012) : ∀ a0 a1 a2, (State.startSched a0 a1 a2).blur μ = a0.blur μ := by
  intros; unfold State.startSched
  simp only [↓State.setSched_blur μ (maskSub rfl hμ), ↓State.setBeat_blur μ (maskSub rfl hμ), ↓State.fireSlot_blur μ (maskSub rfl hμ)]

theorem State.stopSched_blur (μ : Nat) (hμ : 0x9400b8 &&& μ = 0x9400b8) : ∀ a0 a1, (State.stopSched a0 a1).blur μ = a0.blur μ := by
  intros; unfold State.stopSched
  simp only [↓apply_ite (State.blur μ), ite_self, ↓State.modSlot_blur μ (maskSub rfl hμ), ↓State.setSched_blur μ (maskSub rfl hμ), ↓State.endCkpt_blur μ (maskSub rfl hμ), ↓State.setRegF_blur μ (maskSub rfl hμ)]

theorem State.onEvent_blur (μ : Nat) (hμ : 0x2 &&& μ = 0x2) (s m i act) (h : ∀ t n w, (act t n w).blur μ = t.blur μ) : (State.onEvent s m i act).blur μ = s.blur μ := by
  unfold State.onEvent
  repeat' first | with_reducible rfl | simp only [↓State.deliver_blur μ (maskSub rfl hμ), ↓apply_ite (State.blur μ), ite_self, ↓h] | split

theorem execEventWindow_blur (μ : Nat) (hμ : 0x1002 &&& μ = 0x1002) : ∀ a0 a1, ∀ t, execEventWindow a0 a1 = .next t → t.blur μ = a1.blur μ := by
  intros a0 a1 t h; unfold execEventWindow at h; cases h
  repeat' first | with_reducible rfl | intro _ | simp only [↓blur_2 μ (maskSub rfl hμ), ↓blur_1000 μ (maskSub rfl hμ), ↓apply_ite (State.blur μ), ite_self, ↓State.send_blur μ (maskSub rfl hμ)] | refine (State.onEvent_blur μ (maskSub rfl hμ) _ _ _ _ ?_).trans ?_ | split

theorem execWindowClose_blur (μ : Nat) (hμ : 0x800002 &&& μ = 0x800002) : ∀ a0 a1, ∀ t, execWindowClose a0 a1 = .next t → t.blur μ = a1.blur μ := by
  intros a0 a1 t h; unfold execWindowClose at h; cases h
  repeat' first | with_reducible rfl | intro _ | simp only [↓apply_ite (State.blur μ), ite_self, ↓State.setSched_blur μ (maskSub rfl hμ), ↓State.send_blur μ (maskSub rfl hμ)] | refine (State.onEvent_blur μ (maskSub rfl hμ) _ _ _ _ ?_).trans ?_ | split

theorem execEventCkpt_blur (μ : Nat) (hμ : 0x12 &&& μ = 0x12) : ∀ a0 a1, ∀ t, execEventCkpt a0 a1 = .next t → t.blur μ = a1.blur μ := by
  intros a0 a1 t h; unfold execEventCkpt at h; cases h
  repeat' first | with_reducible rfl | intro _ | simp only [↓State.setRegF_blur μ (maskSub rfl hμ)] | refine (State.onEvent_blur μ (maskSub rfl hμ) _ _ _ _ ?_).trans ?_ | split

theorem execCkptEnd_blur (μ : Nat) (hμ : 0x94003a &&& μ = 0x94003a) : ∀ a0 a1, ∀ t, execCkptEnd a0 a1 = .next t → t.blur μ = a1.blur μ := by
  intros a0 a1 t h; unfold execCkptEnd at h; cases h
  repeat' first | with_reducible rfl | intro _ | simp only [↓State.setSched_blur μ (maskSub rfl hμ), ↓State.endCkpt_blur μ (maskSub rfl hμ), ↓State.setRegF_blur μ (maskSub rfl hμ)] | refine (State.onEvent_blur μ (maskSub rfl hμ) _ _ _ _ ?_).trans ?_ | split

theorem execEventDigest_blur (μ : Nat) (hμ : 0x10101e &&& μ = 0x10101e) : ∀ a0 a1, ∀ t, execEventDigest a0 a1 = .next t → t.blur μ = a1.blur μ := by
  intros a0 a1 t h; unfold execEventDigest at h; cases h
  repeat' first | with_reducible rfl | intro _ | simp only [↓State.releaseMail_blur μ (maskSub rfl hμ)] | refine (State.onEvent_blur μ (maskSub rfl hμ) _ _ _ _ ?_).trans ?_ | split

theorem execSlack_blur (μ : Nat) (hμ : 0x80101e &&& μ = 0x80101e) : ∀ a0 a1 a2 a3, ∀ t, execSlack a0 a1 a2 a3 = .next t → t.blur μ = a3.blur μ := by
  intros a0 a1 a2 a3 t h; unfold execSlack at h; cases h
  simp only [↓apply_ite (State.blur μ), ite_self, ↓State.deliver_blur μ (maskSub rfl hμ), ↓State.raise_blur μ (maskSub rfl hμ), ↓State.satReg_blur μ (maskSub rfl hμ), ↓State.setSched_blur μ (maskSub rfl hμ), ↓State.toModule_blur μ (maskSub rfl hμ)]

theorem execShiftDecision_blur (μ : Nat) (hμ : 0x80101e &&& μ = 0x80101e) : ∀ a0 a1 a2, ∀ t, execShiftDecision a0 a1 a2 = .next t → t.blur μ = a2.blur μ := by
  intros a0 a1 a2 t h; unfold execShiftDecision at h; cases h
  repeat' first | with_reducible rfl | intro _ | simp only [↓apply_ite (State.blur μ), ite_self, ↓foldl_blur μ, ↓foldl1_blur μ, ↓State.deliver_blur μ (maskSub rfl hμ), ↓State.setSched_blur μ (maskSub rfl hμ), ↓State.send_blur μ (maskSub rfl hμ), ↓State.toModule_blur μ (maskSub rfl hμ)] | split | refine (foldl_blur μ _ ?_ _ _).trans ?_ | refine (foldl1_blur μ _ ?_ _ _).trans ?_

theorem execShift_blur (μ : Nat) (hμ : 0x800012 &&& μ = 0x800012) : ∀ a0 a1 a2 a3, ∀ t, execShift a0 a1 a2 a3 = .next t → t.blur μ = a3.blur μ := by
  intros a0 a1 a2 a3 t h; unfold execShift at h; cases h
  simp only [↓State.deliver_blur μ (maskSub rfl hμ), ↓State.satReg_blur μ (maskSub rfl hμ), ↓State.setSched_blur μ (maskSub rfl hμ)]

theorem State.sendSlack_blur (μ : Nat) (hμ : 0x12 &&& μ = 0x12) : ∀ a0 a1 a2 a3, (State.sendSlack a0 a1 a2 a3).blur μ = a0.blur μ := by
  intros; unfold State.sendSlack
  simp only [↓State.send_blur μ (maskSub rfl hμ), ↓State.satReg_blur μ (maskSub rfl hμ)]

theorem State.writeSlack_blur (μ : Nat) (hμ : 0x12 &&& μ = 0x12) : ∀ a0 a1, (State.writeSlack a0 a1).1.blur μ = a0.blur μ := by
  intros; unfold State.writeSlack
  simp only [↓apply_ite (State.blur μ), ite_self, ↓apply_ite Prod.fst, ↓State.reject_blur μ (maskSub rfl hμ), ↓State.sendSlack_blur μ (maskSub rfl hμ)]

theorem State.latchTime_blur (μ : Nat) (hμ : 0x800000 &&& μ = 0x800000) : ∀ a0, (State.latchTime a0).blur μ = a0.blur μ := by
  intros; unfold State.latchTime
  simp only [↓State.setBeat_blur μ (maskSub rfl hμ)]

theorem execBeatTimeSecRead_blur (μ : Nat) (hμ : 0x800000 &&& μ = 0x800000) : ∀ a0, ∀ t, execBeatTimeSecRead a0 = .next t → t.blur μ = a0.blur μ := by
  intros a0 t h; unfold execBeatTimeSecRead at h; cases h
  simp only [↓State.latchTime_blur μ (maskSub rfl hμ)]

theorem State.writeTimeSec_blur (μ : Nat) (hμ : 0x800000 &&& μ = 0x800000) : ∀ a0 a1, (State.writeTimeSec a0 a1).blur μ = a0.blur μ := by
  intros; unfold State.writeTimeSec
  simp only [↓State.setBeat_blur μ (maskSub rfl hμ)]

theorem State.writeTimeNs_blur (μ : Nat) (hμ : 0x800000 &&& μ = 0x800000) : ∀ a0 a1, (State.writeTimeNs a0 a1).blur μ = a0.blur μ := by
  intros; unfold State.writeTimeNs
  simp only [↓State.setBeat_blur μ (maskSub rfl hμ)]

theorem State.clearSched_blur (μ : Nat) (hμ : 0x800000 &&& μ = 0x800000) : ∀ a0 a1, (State.clearSched a0 a1).blur μ = a0.blur μ := by
  intros; unfold State.clearSched
  simp only [↓State.setBeat_blur μ (maskSub rfl hμ)]

theorem State.beatPlan_blur (μ : Nat) (hμ : 0x800080 &&& μ = 0x800080) {s n b t} (h : State.beatPlan s n b = some t) : t.blur μ = s.blur μ := by
  unfold State.beatPlan at h
  dsimp only at h
  repeat' first | contradiction | (cases h; done) | (split at h) | (injection h with h; subst h) | (injection h with h1 h2; subst h2)
  all_goals simp only [↓State.modSlot_blur μ (maskSub rfl hμ), ↓State.setBeat_blur μ (maskSub rfl hμ), ↓State.clearSched_blur μ (maskSub rfl hμ)]

theorem State.setBook_blur (μ : Nat) (hμ : 0x40000000 &&& μ = 0x40000000) : ∀ a0 a1, (State.setBook a0 a1).blur μ = a0.blur μ := by
  intros; unfold State.setBook
  simp only [↓blur_40000000 μ (maskSub rfl hμ)]

theorem State.setFlt_blur (μ : Nat) (hμ : 0x4000000 &&& μ = 0x4000000) : ∀ a0 a1, (State.setFlt a0 a1).blur μ = a0.blur μ := by
  intros; unfold State.setFlt
  simp only [↓blur_4000000 μ (maskSub rfl hμ)]

theorem State.commitBook_blur (μ : Nat) (hμ : 0x40000000 &&& μ = 0x40000000) : ∀ a0, (State.commitBook a0).blur μ = a0.blur μ := by
  intros; unfold State.commitBook
  simp only [↓State.setBook_blur μ (maskSub rfl hμ)]

theorem State.journal_blur (μ : Nat) (hμ : 0x40000002 &&& μ = 0x40000002) : ∀ a0 a1 a2 a3, (State.journal a0 a1 a2 a3).blur μ = a0.blur μ := by
  intros; unfold State.journal
  simp only [↓apply_ite (State.blur μ), ite_self, ↓State.raise_blur μ (maskSub rfl hμ), ↓State.commitBook_blur μ (maskSub rfl hμ), ↓State.setBook_blur μ (maskSub rfl hμ)]

theorem State.watchJournal_blur (μ : Nat) (hμ : 0x40000002 &&& μ = 0x40000002) : ∀ a0 a1 a2, (State.watchJournal a0 a1 a2).blur μ = a0.blur μ := by
  intros; unfold State.watchJournal
  simp only [↓State.journal_blur μ (maskSub rfl hμ)]

theorem State.watchRoom_blur (μ : Nat) (hμ : 0x44000002 &&& μ = 0x44000002) : ∀ a0, (State.watchRoom a0).blur μ = a0.blur μ := by
  intros; unfold State.watchRoom
  repeat' first | with_reducible rfl | simp only [↓apply_ite (State.blur μ), ite_self, ↓State.watchJournal_blur μ (maskSub rfl hμ), ↓State.setFlt_blur μ (maskSub rfl hμ)] | split

theorem State.watchFail_blur (μ : Nat) (hμ : 0x44000002 &&& μ = 0x44000002) : ∀ a0 a1 a2 a3, (State.watchFail a0 a1 a2 a3).blur μ = a0.blur μ := by
  intros; unfold State.watchFail
  repeat' first | with_reducible rfl | simp only [↓apply_ite (State.blur μ), ite_self, ↓State.watchRoom_blur μ (maskSub rfl hμ), ↓State.watchJournal_blur μ (maskSub rfl hμ), ↓State.setFlt_blur μ (maskSub rfl hμ), ↓State.raise_blur μ (maskSub rfl hμ)] | split

theorem State.watchPass_blur (μ : Nat) (hμ : 0x44000002 &&& μ = 0x44000002) : ∀ a0 a1 a2, (State.watchPass a0 a1 a2).blur μ = a0.blur μ := by
  intros; unfold State.watchPass
  repeat' first | with_reducible rfl | simp only [↓apply_ite (State.blur μ), ite_self, ↓State.watchJournal_blur μ (maskSub rfl hμ), ↓State.setFlt_blur μ (maskSub rfl hμ)] | split

theorem State.watchDrop_blur (μ : Nat) (hμ : 0x44000002 &&& μ = 0x44000002) : ∀ a0 a1, (State.watchDrop a0 a1).blur μ = a0.blur μ := by
  intros; unfold State.watchDrop
  repeat' first | with_reducible rfl | simp only [↓State.watchJournal_blur μ (maskSub rfl hμ), ↓State.setFlt_blur μ (maskSub rfl hμ)] | split

theorem State.flushLife_blur (μ : Nat) (hμ : 0x40000000 &&& μ = 0x40000000) : ∀ a0, (State.flushLife a0).blur μ = a0.blur μ := by
  intros; unfold State.flushLife
  simp only [↓State.commitBook_blur μ (maskSub rfl hμ), ↓State.setBook_blur μ (maskSub rfl hμ)]

theorem execLogbookFlush_blur (μ : Nat) (hμ : 0x40000000 &&& μ = 0x40000000) : ∀ a0, ∀ t, execLogbookFlush a0 = .next t → t.blur μ = a0.blur μ := by
  intros a0 t h; unfold execLogbookFlush at h; cases h
  simp only [↓State.flushLife_blur μ (maskSub rfl hμ)]

theorem execCaParityError_blur (μ : Nat) (hμ : 0x10 &&& μ = 0x10) : ∀ a0 a1 a2, ∀ t, execCaParityError a0 a1 a2 = .next t → t.blur μ = a2.blur μ := by
  intros a0 a1 a2 t h; unfold execCaParityError at h; cases h
  simp only [↓State.satReg_blur μ (maskSub rfl hμ)]

theorem execStackUncorrectableRead_blur (μ : Nat) (hμ : 0x20012 &&& μ = 0x20012) : ∀ a0 a1, ∀ t, execStackUncorrectableRead a0 a1 = .next t → t.blur μ = a1.blur μ := by
  intros a0 a1 t h; unfold execStackUncorrectableRead at h; cases h
  simp only [↓blur_2 μ (maskSub rfl hμ), ↓blur_10 μ (maskSub rfl hμ), ↓blur_20000 μ (maskSub rfl hμ), ↓apply_ite (State.blur μ), ite_self, ↓State.satReg_blur μ (maskSub rfl hμ), ↓State.raise_blur μ (maskSub rfl hμ), ↓State.setReg_blur μ (maskSub rfl hμ)]

theorem State.wrapperWrite_blur (μ : Nat) (hμ : 0x12 &&& μ = 0x12) : ∀ a0 a1 a2, (State.wrapperWrite a0 a1 a2).1.blur μ = a0.blur μ := by
  intros; unfold State.wrapperWrite
  simp only [↓apply_ite (State.blur μ), ite_self, ↓apply_ite Prod.fst, ↓State.setRegF_blur μ (maskSub rfl hμ), ↓State.reject_blur μ (maskSub rfl hμ)]

theorem State.noteRepair_blur (μ : Nat) (hμ : 0x40000002 &&& μ = 0x40000002) : ∀ a0 a1, (State.noteRepair a0 a1).blur μ = a0.blur μ := by
  intros; unfold State.noteRepair
  repeat' first | with_reducible rfl | simp only [↓State.journal_blur μ (maskSub rfl hμ)] | split

theorem execWrapperInstructionDone_blur (μ : Nat) (hμ : 0x40000012 &&& μ = 0x40000012) : ∀ a0 a1 a2, ∀ t, execWrapperInstructionDone a0 a1 a2 = .next t → t.blur μ = a2.blur μ := by
  intros a0 a1 a2 t h; unfold execWrapperInstructionDone at h; cases h
  simp only [↓apply_ite (State.blur μ), ite_self, ↓State.setReg_blur μ (maskSub rfl hμ), ↓State.setRegF_blur μ (maskSub rfl hμ), ↓State.noteRepair_blur μ (maskSub rfl hμ)]

theorem State.sampleStacks_blur (μ : Nat) (hμ : 0x20002 &&& μ = 0x20002) : ∀ a0 a1, (State.sampleStacks a0 a1).blur μ = a0.blur μ := by
  intros; unfold State.sampleStacks
  repeat' first | with_reducible rfl | intro _ | simp only [↓blur_2 μ (maskSub rfl hμ), ↓blur_20000 μ (maskSub rfl hμ), ↓apply_ite (State.blur μ), ite_self, ↓foldl_blur μ, ↓foldl1_blur μ, ↓State.raise_blur μ (maskSub rfl hμ)] | split | refine (foldl_blur μ _ ?_ _ _).trans ?_ | refine (foldl1_blur μ _ ?_ _ _).trans ?_

theorem State.sizeStacks_blur (μ : Nat) (hμ : 0x20000 &&& μ = 0x20000) : ∀ a0 a1, (State.sizeStacks a0 a1).blur μ = a0.blur μ := by
  intros; unfold State.sizeStacks
  simp only [↓blur_20000 μ (maskSub rfl hμ), ↓apply_ite (State.blur μ), ite_self]

theorem State.sizeBoard_blur (μ : Nat) (hμ : 0x20002 &&& μ = 0x20002) : ∀ a0 a1, (State.sizeBoard a0 a1).blur μ = a0.blur μ := by
  intros; unfold State.sizeBoard
  simp only [↓blur_2 μ (maskSub rfl hμ), ↓blur_20000 μ (maskSub rfl hμ), ↓apply_ite (State.blur μ), ite_self, ↓foldl_blur μ, ↓foldl1_blur μ, ↓State.raise_blur μ (maskSub rfl hμ)]

theorem State.addFar_blur (μ : Nat) (hμ : 0x60018 &&& μ = 0x60018) : ∀ a0 a1 a2, (State.addFar a0 a1 a2).1.blur μ = a0.blur μ := by
  intros; unfold State.addFar
  simp only [↓blur_8 μ (maskSub rfl hμ), ↓blur_10 μ (maskSub rfl hμ), ↓blur_20000 μ (maskSub rfl hμ), ↓blur_40000 μ (maskSub rfl hμ), ↓apply_ite (State.blur μ), ite_self, ↓apply_ite Prod.fst, ↓foldl_blur μ, ↓foldl1_blur μ, ↓State.freeExtents_blur μ (maskSub rfl hμ)]

theorem State.trainCxl_blur (μ : Nat) (hμ : 0x60018 &&& μ = 0x60018) : ∀ a0 a1 a2 a3 a4 a5 a6 a7, (State.trainCxl a0 a1 a2 a3 a4 a5 a6 a7).blur μ = a0.blur μ := by
  intros; unfold State.trainCxl
  simp only [↓apply_ite (State.blur μ), ite_self, ↓State.addFar_blur μ (maskSub rfl hμ), ↓State.setCxl_blur μ (maskSub rfl hμ)]

theorem State.sizeFar_blur (μ : Nat) (hμ : 0x60018 &&& μ = 0x60018) : ∀ a0 a1 a2, (State.sizeFar a0 a1 a2).blur μ = a0.blur μ := by
  intros; unfold State.sizeFar
  repeat' first | with_reducible rfl | intro _ | simp only [↓blur_8 μ (maskSub rfl hμ), ↓blur_10 μ (maskSub rfl hμ), ↓blur_20000 μ (maskSub rfl hμ), ↓blur_40000 μ (maskSub rfl hμ), ↓apply_ite (State.blur μ), ite_self, ↓foldl_blur μ, ↓foldl1_blur μ, ↓State.setCxl_blur μ (maskSub rfl hμ), ↓State.trainCxl_blur μ (maskSub rfl hμ)] | split | refine (foldl_blur μ _ ?_ _ _).trans ?_ | refine (foldl1_blur μ _ ?_ _ _).trans ?_

theorem execRdimmFail_blur (μ : Nat) (hμ : 0x40012 &&& μ = 0x40012) : ∀ a0 a1, ∀ t, execRdimmFail a0 a1 = .next t → t.blur μ = a1.blur μ := by
  intros a0 a1 t h; unfold execRdimmFail at h; cases h
  simp only [↓State.raise_blur μ (maskSub rfl hμ), ↓State.setReg_blur μ (maskSub rfl hμ), ↓State.damage_blur μ (maskSub rfl hμ)]

theorem execCxlReadTimeout_blur (μ : Nat) (hμ : 0x10 &&& μ = 0x10) : ∀ a0 a1 a2, ∀ t, execCxlReadTimeout a0 a1 a2 = .next t → t.blur μ = a2.blur μ := by
  intros a0 a1 a2 t h; unfold execCxlReadTimeout at h; cases h
  simp only [↓apply_ite (State.blur μ), ite_self, ↓State.satReg_blur μ (maskSub rfl hμ)]

theorem execCxlLinkDown_blur (μ : Nat) (hμ : 0x60002 &&& μ = 0x60002) : ∀ a0 a1, ∀ t, execCxlLinkDown a0 a1 = .next t → t.blur μ = a1.blur μ := by
  intros a0 a1 t h; unfold execCxlLinkDown at h; cases h
  simp only [↓apply_ite (State.blur μ), ite_self, ↓State.raise_blur μ (maskSub rfl hμ), ↓State.setCxl_blur μ (maskSub rfl hμ), ↓State.damage_blur μ (maskSub rfl hμ)]

theorem execDcdAdd_blur (μ : Nat) (hμ : 0x60018 &&& μ = 0x60018) : ∀ a0 a1 a2, ∀ t, execDcdAdd a0 a1 a2 = .next t → t.blur μ = a2.blur μ := by
  intros a0 a1 a2 t h; unfold execDcdAdd at h; cases h
  simp only [↓apply_ite (State.blur μ), ite_self, ↓State.addFar_blur μ (maskSub rfl hμ), ↓State.satReg_blur μ (maskSub rfl hμ)]

theorem execDcdRelease_blur (μ : Nat) (hμ : 0x20010 &&& μ = 0x20010) : ∀ a0 a1 a2 a3, ∀ t, execDcdRelease a0 a1 a2 a3 = .next t → t.blur μ = a3.blur μ := by
  intros a0 a1 a2 a3 t h; unfold execDcdRelease at h; cases h
  simp only [↓blur_10 μ (maskSub rfl hμ), ↓blur_20000 μ (maskSub rfl hμ), ↓apply_ite (State.blur μ), ite_self, ↓foldl_blur μ, ↓foldl1_blur μ, ↓State.satReg_blur μ (maskSub rfl hμ)]

theorem State.rescan_blur (μ : Nat) (hμ : 0x20002 &&& μ = 0x20002) : ∀ a0 a1, (State.rescan a0 a1).1.blur μ = a0.blur μ := by
  intros; unfold State.rescan
  repeat' first | with_reducible rfl | intro _ | simp only [↓blur_2 μ (maskSub rfl hμ), ↓blur_20000 μ (maskSub rfl hμ), ↓apply_ite (State.blur μ), ite_self, ↓apply_ite Prod.fst, ↓foldl_blur μ, ↓foldl1_blur μ, ↓State.reject_blur μ (maskSub rfl hμ), ↓State.setCxl_blur μ (maskSub rfl hμ)] | split | refine (foldl_blur μ _ ?_ _ _).trans ?_ | refine (foldl1_blur μ _ ?_ _ _).trans ?_

theorem execCxlTrainingDone_blur (μ : Nat) (hμ : 0x60018 &&& μ = 0x60018) : ∀ a0 a1 a2 a3 a4 a5 a6 a7, ∀ t, execCxlTrainingDone a0 a1 a2 a3 a4 a5 a6 a7 = .next t → t.blur μ = a7.blur μ := by
  intros a0 a1 a2 a3 a4 a5 a6 a7 t h; unfold execCxlTrainingDone at h; cases h
  simp only [↓apply_ite (State.blur μ), ite_self, ↓State.trainCxl_blur μ (maskSub rfl hμ)]

theorem State.setPower_blur (μ : Nat) (hμ : 0x1000000 &&& μ = 0x1000000) : ∀ a0 a1, (State.setPower a0 a1).blur μ = a0.blur μ := by
  intros; unfold State.setPower
  simp only [↓blur_1000000 μ (maskSub rfl hμ)]

theorem State.setHalf_blur (μ : Nat) (hμ : 0x1000000 &&& μ = 0x1000000) : ∀ a0 a1 a2, (State.setHalf a0 a1 a2).blur μ = a0.blur μ := by
  intros; unfold State.setHalf
  simp only [↓State.setPower_blur μ (maskSub rfl hμ)]

theorem State.setPlan_blur (μ : Nat) (hμ : 0x1000000 &&& μ = 0x1000000) : ∀ a0 a1 a2, (State.setPlan a0 a1 a2).blur μ = a0.blur μ := by
  intros; unfold State.setPlan
  simp only [↓State.setPower_blur μ (maskSub rfl hμ)]

theorem State.alarm_blur (μ : Nat) (hμ : 0x10 &&& μ = 0x10) : ∀ a0 a1, (State.alarm a0 a1).blur μ = a0.blur μ := by
  intros; unfold State.alarm
  simp only [↓State.setRegF_blur μ (maskSub rfl hμ)]

theorem State.settleParity_blur (μ : Nat) (hμ : 0x1000010 &&& μ = 0x1000010) : ∀ a0, (State.settleParity a0).blur μ = a0.blur μ := by
  intros; unfold State.settleParity
  simp only [↓apply_ite (State.blur μ), ite_self, ↓State.setPower_blur μ (maskSub rfl hμ), ↓State.satReg_blur μ (maskSub rfl hμ)]

theorem execOpChangeDone_blur (μ : Nat) (hμ : 0x1000010 &&& μ = 0x1000010) : ∀ a0 a1, ∀ t, execOpChangeDone a0 a1 = .next t → t.blur μ = a1.blur μ := by
  intros a0 a1 t h; unfold execOpChangeDone at h; cases h
  simp only [↓apply_ite (State.blur μ), ite_self, ↓State.settleParity_blur μ (maskSub rfl hμ), ↓State.setHalf_blur μ (maskSub rfl hμ)]

theorem State.writeCap_blur (μ : Nat) (hμ : 0x1000012 &&& μ = 0x1000012) : ∀ a0 a1, (State.writeCap a0 a1).1.blur μ = a0.blur μ := by
  intros; unfold State.writeCap
  simp only [↓apply_ite (State.blur μ), ite_self, ↓apply_ite Prod.fst, ↓State.reject_blur μ (maskSub rfl hμ), ↓State.setRegF_blur μ (maskSub rfl hμ), ↓State.setPower_blur μ (maskSub rfl hμ)]

theorem State.writeRamp_blur (μ : Nat) (hμ : 0x12 &&& μ = 0x12) : ∀ a0 a1, (State.writeRamp a0 a1).1.blur μ = a0.blur μ := by
  intros; unfold State.writeRamp
  simp only [↓apply_ite (State.blur μ), ite_self, ↓apply_ite Prod.fst, ↓State.reject_blur μ (maskSub rfl hμ), ↓State.setRegF_blur μ (maskSub rfl hμ)]

theorem State.settleFloor_blur (μ : Nat) (hμ : 0x12 &&& μ = 0x12) : ∀ a0, (State.settleFloor a0).blur μ = a0.blur μ := by
  intros; unfold State.settleFloor
  simp only [↓apply_ite (State.blur μ), ite_self, ↓State.setRegF_blur μ (maskSub rfl hμ), ↓State.raise_blur μ (maskSub rfl hμ)]

theorem State.charge_blur (μ : Nat) (hμ : 0x10 &&& μ = 0x10) : ∀ a0 a1 a2, (State.charge a0 a1 a2).blur μ = a0.blur μ := by
  intros; unfold State.charge
  repeat' first | with_reducible rfl | simp only [↓apply_ite (State.blur μ), ite_self, ↓State.addReg_blur μ (maskSub rfl hμ)] | split

theorem State.apportion_blur (μ : Nat) (hμ : 0x40000010 &&& μ = 0x40000010) : ∀ a0 a1, (State.apportion a0 a1).blur μ = a0.blur μ := by
  intros; unfold State.apportion
  repeat' first | with_reducible rfl | intro _ | simp only [↓blur_10 μ (maskSub rfl hμ), ↓blur_40000000 μ (maskSub rfl hμ), ↓apply_ite (State.blur μ), ite_self, ↓foldl_blur μ, ↓foldl1_blur μ, ↓State.charge_blur μ (maskSub rfl hμ), ↓State.addReg_blur μ (maskSub rfl hμ)] | split | refine (foldl_blur μ _ ?_ _ _).trans ?_ | refine (foldl1_blur μ _ ?_ _ _).trans ?_

theorem execMainsCycle_blur (μ : Nat) (hμ : 0x41000012 &&& μ = 0x41000012) : ∀ a0 a1, ∀ t, execMainsCycle a0 a1 = .next t → t.blur μ = a1.blur μ := by
  intros a0 a1 t h; unfold execMainsCycle at h; cases h
  simp only [↓apply_ite (State.blur μ), ite_self, ↓foldl_blur μ, ↓foldl1_blur μ, ↓State.apportion_blur μ (maskSub rfl hμ), ↓State.raise_blur μ (maskSub rfl hμ), ↓State.alarm_blur μ (maskSub rfl hμ), ↓State.journal_blur μ (maskSub rfl hμ), ↓State.setPower_blur μ (maskSub rfl hμ), ↓State.settleParity_blur μ (maskSub rfl hμ), ↓State.settleFloor_blur μ (maskSub rfl hμ)]

theorem execInputUndervoltage_blur (μ : Nat) (hμ : 0x1000012 &&& μ = 0x1000012) : ∀ a0, ∀ t, execInputUndervoltage a0 = .next t → t.blur μ = a0.blur μ := by
  intros a0 t h; unfold execInputUndervoltage at h; cases h
  simp only [↓apply_ite (State.blur μ), ite_self, ↓State.raise_blur μ (maskSub rfl hμ), ↓State.alarm_blur μ (maskSub rfl hμ), ↓State.setPower_blur μ (maskSub rfl hμ)]

theorem State.reevaluate_blur (μ : Nat) (hμ : 0x1000000 &&& μ = 0x1000000) : ∀ a0 a1, (State.reevaluate a0 a1).blur μ = a0.blur μ := by
  intros; unfold State.reevaluate
  simp only [↓apply_ite (State.blur μ), ite_self, ↓State.setPower_blur μ (maskSub rfl hμ)]

theorem State.paceTick_blur (μ : Nat) (hμ : 0x1000028 &&& μ = 0x1000028) : ∀ a0, (State.paceTick a0).blur μ = a0.blur μ := by
  intros; unfold State.paceTick
  simp only [↓blur_8 μ (maskSub rfl hμ), ↓blur_20 μ (maskSub rfl hμ), ↓blur_28 μ (maskSub rfl hμ), ↓blur_1000000 μ (maskSub rfl hμ), ↓apply_ite (State.blur μ), ite_self, ↓State.setPower_blur μ (maskSub rfl hμ)]

theorem State.sampleJunctions_blur (μ : Nat) (hμ : 0x1000000 &&& μ = 0x1000000) : ∀ a0 a1, (State.sampleJunctions a0 a1).blur μ = a0.blur μ := by
  intros; unfold State.sampleJunctions
  repeat' first | with_reducible rfl | intro _ | simp only [↓apply_ite (State.blur μ), ite_self, ↓foldl_blur μ, ↓foldl1_blur μ, ↓State.setHalf_blur μ (maskSub rfl hμ), ↓State.setPower_blur μ (maskSub rfl hμ)] | split | refine (foldl_blur μ _ ?_ _ _).trans ?_ | refine (foldl1_blur μ _ ?_ _ _).trans ?_

theorem execDroopCrossing_blur (μ : Nat) (hμ : 0x1000018 &&& μ = 0x1000018) : ∀ a0 a1 a2 a3, ∀ t, execDroopCrossing a0 a1 a2 a3 = .next t → t.blur μ = a3.blur μ := by
  intros a0 a1 a2 a3 t h; unfold execDroopCrossing at h; cases h
  simp only [↓apply_ite (State.blur μ), ite_self, ↓State.satReg_blur μ (maskSub rfl hμ), ↓State.freeCount_blur μ (maskSub rfl hμ), ↓State.setHalf_blur μ (maskSub rfl hμ)]

theorem execStretchRelease_blur (μ : Nat) (hμ : 0x1000010 &&& μ = 0x1000010) : ∀ a0 a1, ∀ t, execStretchRelease a0 a1 = .next t → t.blur μ = a1.blur μ := by
  intros a0 a1 t h; unfold execStretchRelease at h; cases h
  simp only [↓apply_ite (State.blur μ), ite_self, ↓State.setHalf_blur μ (maskSub rfl hμ), ↓State.satReg_blur μ (maskSub rfl hμ)]

theorem execDroopSevere_blur (μ : Nat) (hμ : 0x1000012 &&& μ = 0x1000012) : ∀ a0 a1, ∀ t, execDroopSevere a0 a1 = .next t → t.blur μ = a1.blur μ := by
  intros a0 a1 t h; unfold execDroopSevere at h; cases h
  simp only [↓apply_ite (State.blur μ), ite_self, ↓State.settleParity_blur μ (maskSub rfl hμ), ↓State.raiseRgn_blur μ (maskSub rfl hμ), ↓State.setHalf_blur μ (maskSub rfl hμ)]

theorem State.throttleSlack_blur (μ : Nat) (hμ : 0x1000012 &&& μ = 0x1000012) : ∀ a0 a1, (State.throttleSlack a0 a1).blur μ = a0.blur μ := by
  intros; unfold State.throttleSlack
  repeat' first | with_reducible rfl | simp only [↓apply_ite (State.blur μ), ite_self, ↓State.sendSlack_blur μ (maskSub rfl hμ), ↓State.setPlan_blur μ (maskSub rfl hμ)] | split

theorem State.throttleAll_blur (μ : Nat) (hμ : 0x1000012 &&& μ = 0x1000012) : ∀ a0, (State.throttleAll a0).blur μ = a0.blur μ := by
  intros; unfold State.throttleAll
  repeat' first | with_reducible rfl | intro _ | simp only [↓apply_ite (State.blur μ), ite_self, ↓foldl_blur μ, ↓State.throttleSlack_blur μ (maskSub rfl hμ)] | split | refine (foldl_blur μ _ ?_ _ _).trans ?_ | refine (foldl1_blur μ _ ?_ _ _).trans ?_

theorem State.powerTick_blur (μ : Nat) (hμ : 0x100003a &&& μ = 0x100003a) : ∀ a0 a1 a2, (State.powerTick a0 a1 a2).blur μ = a0.blur μ := by
  intros; unfold State.powerTick
  simp only [↓apply_ite (State.blur μ), ite_self, ↓State.sampleJunctions_blur μ (maskSub rfl hμ), ↓State.settleParity_blur μ (maskSub rfl hμ), ↓State.throttleAll_blur μ (maskSub rfl hμ), ↓State.paceTick_blur μ (maskSub rfl hμ), ↓State.reevaluate_blur μ (maskSub rfl hμ)]

theorem State.powerPlan_blur (μ : Nat) (hμ : 0x1000000 &&& μ = 0x1000000) {s n b t} (h : State.powerPlan s n b = some t) : t.blur μ = s.blur μ := by
  unfold State.powerPlan at h
  dsimp only at h
  repeat' first | contradiction | (cases h; done) | (split at h) | (injection h with h; subst h) | (injection h with h1 h2; subst h2)
  all_goals simp only [↓State.setPlan_blur μ (maskSub rfl hμ)]

theorem State.dropHold_blur (μ : Nat) (hμ : 0x1000000 &&& μ = 0x1000000) : ∀ a0 a1, (State.dropHold a0 a1).blur μ = a0.blur μ := by
  intros; unfold State.dropHold
  simp only [↓State.setPlan_blur μ (maskSub rfl hμ)]

theorem State.takeHold_blur (μ : Nat) (hμ : 0x1000000 &&& μ = 0x1000000) : ∀ a0 a1, (State.takeHold a0 a1).blur μ = a0.blur μ := by
  intros; unfold State.takeHold
  simp only [↓State.setPlan_blur μ (maskSub rfl hμ)]

theorem execEventBallast_blur (μ : Nat) (hμ : 0x1000002 &&& μ = 0x1000002) : ∀ a0 a1, ∀ t, execEventBallast a0 a1 = .next t → t.blur μ = a1.blur μ := by
  intros a0 a1 t h; unfold execEventBallast at h; cases h
  repeat' first | with_reducible rfl | intro _ | simp only [↓State.setPlan_blur μ (maskSub rfl hμ)] | refine (State.onEvent_blur μ (maskSub rfl hμ) _ _ _ _ ?_).trans ?_ | split

theorem execEventRamp_blur (μ : Nat) (hμ : 0x1000002 &&& μ = 0x1000002) : ∀ a0 a1, ∀ t, execEventRamp a0 a1 = .next t → t.blur μ = a1.blur μ := by
  intros a0 a1 t h; unfold execEventRamp at h; cases h
  repeat' first | with_reducible rfl | intro _ | simp only [↓State.setPower_blur μ (maskSub rfl hμ)] | refine (State.onEvent_blur μ (maskSub rfl hμ) _ _ _ _ ?_).trans ?_ | split

theorem State.loseRegion_blur (μ : Nat) (hμ : 0x4467a &&& μ = 0x4467a) : ∀ a0 a1, (State.loseRegion a0 a1).blur μ = a0.blur μ := by
  intros; unfold State.loseRegion
  simp only [↓blur_2 μ (maskSub rfl hμ), ↓blur_8 μ (maskSub rfl hμ), ↓blur_10 μ (maskSub rfl hμ), ↓blur_20 μ (maskSub rfl hμ), ↓blur_28 μ (maskSub rfl hμ), ↓blur_40 μ (maskSub rfl hμ), ↓blur_60 μ (maskSub rfl hμ), ↓blur_68 μ (maskSub rfl hμ), ↓blur_200 μ (maskSub rfl hμ), ↓blur_400 μ (maskSub rfl hμ), ↓blur_440 μ (maskSub rfl hμ), ↓blur_4668 μ (maskSub rfl hμ), ↓blur_40000 μ (maskSub rfl hμ), ↓blur_40020 μ (maskSub rfl hμ), ↓State.loseT0Cells_blur μ (maskSub rfl hμ)]

theorem State.trip_blur (μ : Nat) (hμ : 0x104467a &&& μ = 0x104467a) : ∀ a0 a1 a2, (State.trip a0 a1 a2).blur μ = a0.blur μ := by
  intros; unfold State.trip
  simp only [↓apply_ite (State.blur μ), ite_self, ↓State.satReg_blur μ (maskSub rfl hμ), ↓State.setRegF_blur μ (maskSub rfl hμ), ↓State.setPower_blur μ (maskSub rfl hμ), ↓State.raiseRgn_blur μ (maskSub rfl hμ), ↓State.loseRegion_blur μ (maskSub rfl hμ)]

theorem execBreakerTrip_blur (μ : Nat) (hμ : 0x104467a &&& μ = 0x104467a) : ∀ a0 a1, ∀ t, execBreakerTrip a0 a1 = .next t → t.blur μ = a1.blur μ := by
  intros a0 a1 t h; unfold execBreakerTrip at h; cases h
  simp only [↓State.trip_blur μ (maskSub rfl hμ)]

theorem execJunctionOvertemp_blur (μ : Nat) (hμ : 0x104467a &&& μ = 0x104467a) : ∀ a0 a1, ∀ t, execJunctionOvertemp a0 a1 = .next t → t.blur μ = a1.blur μ := by
  intros a0 a1 t h; unfold execJunctionOvertemp at h; cases h
  simp only [↓State.trip_blur μ (maskSub rfl hμ)]

theorem State.clearBreaker_blur (μ : Nat) (hμ : 0x412 &&& μ = 0x412) : ∀ a0 a1 a2, (State.clearBreaker a0 a1 a2).1.blur μ = a0.blur μ := by
  intros; unfold State.clearBreaker
  simp only [↓apply_ite (State.blur μ), ite_self, ↓apply_ite Prod.fst, ↓State.reject_blur μ (maskSub rfl hμ), ↓State.modRgn_blur μ (maskSub rfl hμ), ↓State.setRegF_blur μ (maskSub rfl hμ)]

theorem execSoftStartDone_blur (μ : Nat) (hμ : 0x410 &&& μ = 0x410) : ∀ a0 a1, ∀ t, execSoftStartDone a0 a1 = .next t → t.blur μ = a1.blur μ := by
  intros a0 a1 t h; unfold execSoftStartDone at h; cases h
  simp only [↓apply_ite (State.blur μ), ite_self, ↓State.modRgn_blur μ (maskSub rfl hμ), ↓State.setRegF_blur μ (maskSub rfl hμ)]

theorem State.streamPlan_blur (μ : Nat) (hμ : 0x80000 &&& μ = 0x80000) {s n b t} (h : State.streamPlan s n b = some t) : t.blur μ = s.blur μ := by
  unfold State.streamPlan at h
  dsimp only at h
  repeat' first | contradiction | (cases h; done) | (split at h) | (injection h with h; subst h) | (injection h with h1 h2; subst h2)
  all_goals simp only [↓State.modStream_blur μ (maskSub rfl hμ)]

theorem State.freeObj_blur (μ : Nat) (hμ : 0x60018 &&& μ = 0x60018) : ∀ a0 a1, (State.freeObj a0 a1).blur μ = a0.blur μ := by
  intros; unfold State.freeObj
  repeat' first | with_reducible rfl | simp only [↓blur_8 μ (maskSub rfl hμ), ↓blur_10 μ (maskSub rfl hμ), ↓blur_20000 μ (maskSub rfl hμ), ↓blur_40000 μ (maskSub rfl hμ), ↓apply_ite (State.blur μ), ite_self, ↓State.freeExtents_blur μ (maskSub rfl hμ), ↓State.delObj_blur μ (maskSub rfl hμ)] | split

theorem State.loadObj_blur (μ : Nat) (hμ : 0x6003a &&& μ = 0x6003a) : ∀ a0 a1 a2, (State.loadObj a0 a1 a2).blur μ = a0.blur μ := by
  intros; unfold State.loadObj
  simp only [↓apply_ite (State.blur μ), ite_self, ↓State.setObj_blur μ (maskSub rfl hμ), ↓State.loseT0_blur μ (maskSub rfl hμ), ↓State.startAlloc_blur μ (maskSub rfl hμ)]

theorem State.setQuotas_blur (μ : Nat) (hμ : 0x10 &&& μ = 0x10) : ∀ a0 a1 a2 a3 a4, (State.setQuotas a0 a1 a2 a3 a4).blur μ = a0.blur μ := by
  intros; unfold State.setQuotas
  simp only [↓State.setRegF_blur μ (maskSub rfl hμ)]

theorem State.applyManifest_blur (μ : Nat) (hμ : 0x20e003a &&& μ = 0x20e003a) : ∀ a0 a1 a2, (State.applyManifest a0 a1 a2).blur μ = a0.blur μ := by
  intros; unfold State.applyManifest
  repeat' first | with_reducible rfl | intro _ | simp only [↓blur_2 μ (maskSub rfl hμ), ↓blur_8 μ (maskSub rfl hμ), ↓blur_10 μ (maskSub rfl hμ), ↓blur_20 μ (maskSub rfl hμ), ↓blur_28 μ (maskSub rfl hμ), ↓blur_20000 μ (maskSub rfl hμ), ↓blur_40000 μ (maskSub rfl hμ), ↓blur_40020 μ (maskSub rfl hμ), ↓blur_80000 μ (maskSub rfl hμ), ↓blur_2000000 μ (maskSub rfl hμ), ↓foldl_blur μ, ↓State.freeObj_blur μ (maskSub rfl hμ), ↓State.loadObj_blur μ (maskSub rfl hμ), ↓State.modStream_blur μ (maskSub rfl hμ), ↓State.setQuotas_blur μ (maskSub rfl hμ)] | split | refine (foldl_blur μ _ ?_ _ _).trans ?_ | refine (foldl1_blur μ _ ?_ _ _).trans ?_

theorem State.manifestPlan_blur (μ : Nat) (hμ : 0x20e003a &&& μ = 0x20e003a) {s n b t} (h : State.manifestPlan s n b = some t) : t.blur μ = s.blur μ := by
  unfold State.manifestPlan at h
  repeat' first | contradiction | (cases h; done) | (split at h) | (injection h with h; subst h) | (injection h with h1 h2; subst h2)
  all_goals simp only [↓State.applyManifest_blur μ (maskSub rfl hμ)]

theorem State.redPlan_blur (μ : Nat) (hμ : 0x100080 &&& μ = 0x100080) {s n b t} (h : State.redPlan s n b = some t) : t.blur μ = s.blur μ := by
  unfold State.redPlan at h
  dsimp only at h
  repeat' first | contradiction | (cases h; done) | (split at h) | (injection h with h; subst h) | (injection h with h1 h2; subst h2)
  all_goals simp only [↓State.modSlot_blur μ (maskSub rfl hμ), ↓State.setRed_blur μ (maskSub rfl hμ)]

theorem State.setLdr_blur (μ : Nat) (hμ : 0x2000000 &&& μ = 0x2000000) : ∀ a0 a1, (State.setLdr a0 a1).blur μ = a0.blur μ := by
  intros; unfold State.setLdr
  simp only [↓blur_2000000 μ (maskSub rfl hμ)]

theorem State.modLdr_blur (μ : Nat) (hμ : 0x2000000 &&& μ = 0x2000000) : ∀ a0 a1, (State.modLdr a0 a1).blur μ = a0.blur μ := by
  intros; unfold State.modLdr
  simp only [↓blur_2000000 μ (maskSub rfl hμ)]

theorem State.setImgState_blur (μ : Nat) (hμ : 0x10 &&& μ = 0x10) : ∀ a0 a1, (State.setImgState a0 a1).blur μ = a0.blur μ := by
  intros; unfold State.setImgState
  simp only [↓State.setRegF_blur μ (maskSub rfl hμ)]

theorem State.unloadRect_blur (μ : Nat) (hμ : 0x68 &&& μ = 0x68) : ∀ a0 a1, (State.unloadRect a0 a1).blur μ = a0.blur μ := by
  intros; unfold State.unloadRect
  simp only [↓blur_8 μ (maskSub rfl hμ), ↓blur_20 μ (maskSub rfl hμ), ↓blur_28 μ (maskSub rfl hμ), ↓blur_40 μ (maskSub rfl hμ), ↓blur_60 μ (maskSub rfl hμ), ↓blur_68 μ (maskSub rfl hμ), ↓apply_ite (State.blur μ), ite_self]

theorem State.clearPlans_blur (μ : Nat) (hμ : 0x19c0000 &&& μ = 0x19c0000) : ∀ a0 a1, (State.clearPlans a0 a1).blur μ = a0.blur μ := by
  intros; unfold State.clearPlans
  simp only [↓State.setStream_blur μ (maskSub rfl hμ), ↓State.clearStream_blur μ (maskSub rfl hμ), ↓State.setPlan_blur μ (maskSub rfl hμ), ↓State.clearSched_blur μ (maskSub rfl hμ), ↓State.setRed_blur μ (maskSub rfl hμ)]

theorem State.clearMeasure_blur (μ : Nat) (hμ : 0x10 &&& μ = 0x10) : ∀ a0 a1, (State.clearMeasure a0 a1).blur μ = a0.blur μ := by
  intros; unfold State.clearMeasure
  simp only [↓State.clearRegs_blur μ (maskSub rfl hμ)]

theorem State.voidManifest_blur (μ : Nat) (hμ : 0x60018 &&& μ = 0x60018) : ∀ a0 a1, (State.voidManifest a0 a1).blur μ = a0.blur μ := by
  intros; unfold State.voidManifest
  repeat' first | with_reducible rfl | intro _ | simp only [↓blur_8 μ (maskSub rfl hμ), ↓blur_10 μ (maskSub rfl hμ), ↓blur_20000 μ (maskSub rfl hμ), ↓blur_40000 μ (maskSub rfl hμ), ↓foldl_blur μ, ↓State.freeExtents_blur μ (maskSub rfl hμ), ↓State.setAllocs_blur μ (maskSub rfl hμ), ↓State.freeObj_blur μ (maskSub rfl hμ), ↓State.setQuotas_blur μ (maskSub rfl hμ)] | split | refine (foldl_blur μ _ ?_ _ _).trans ?_ | refine (foldl1_blur μ _ ?_ _ _).trans ?_

theorem State.voidLoad_blur (μ : Nat) (hμ : 0x19e00fa &&& μ = 0x19e00fa) : ∀ a0, (State.voidLoad a0).blur μ = a0.blur μ := by
  intros; unfold State.voidLoad
  simp only [↓blur_2 μ (maskSub rfl hμ), ↓blur_8 μ (maskSub rfl hμ), ↓blur_10 μ (maskSub rfl hμ), ↓blur_20 μ (maskSub rfl hμ), ↓blur_28 μ (maskSub rfl hμ), ↓blur_40 μ (maskSub rfl hμ), ↓blur_60 μ (maskSub rfl hμ), ↓blur_68 μ (maskSub rfl hμ), ↓blur_80 μ (maskSub rfl hμ), ↓blur_20000 μ (maskSub rfl hμ), ↓blur_40000 μ (maskSub rfl hμ), ↓blur_40020 μ (maskSub rfl hμ), ↓blur_80000 μ (maskSub rfl hμ), ↓blur_100000 μ (maskSub rfl hμ), ↓blur_800000 μ (maskSub rfl hμ), ↓blur_1000000 μ (maskSub rfl hμ), ↓apply_ite (State.blur μ), ite_self, ↓State.unloadRect_blur μ (maskSub rfl hμ), ↓State.setSlot_blur μ (maskSub rfl hμ), ↓State.clearPlans_blur μ (maskSub rfl hμ), ↓State.voidManifest_blur μ (maskSub rfl hμ), ↓State.clearMeasure_blur μ (maskSub rfl hμ)]

theorem State.endLoad_blur (μ : Nat) (hμ : 0x39e00fa &&& μ = 0x39e00fa) : ∀ a0 a1, (State.endLoad a0 a1).blur μ = a0.blur μ := by
  intros; unfold State.endLoad
  simp only [↓State.setImgState_blur μ (maskSub rfl hμ), ↓State.setLdr_blur μ (maskSub rfl hμ), ↓State.voidLoad_blur μ (maskSub rfl hμ)]

theorem State.failLoad_blur (μ : Nat) (hμ : 0x39e00fa &&& μ = 0x39e00fa) : ∀ a0 a1 a2, (State.failLoad a0 a1 a2).blur μ = a0.blur μ := by
  intros; unfold State.failLoad
  simp only [↓State.setReg_blur μ (maskSub rfl hμ), ↓State.endLoad_blur μ (maskSub rfl hμ)]

theorem State.abortLoad_blur (μ : Nat) (hμ : 0x39e00fa &&& μ = 0x39e00fa) : ∀ a0, (State.abortLoad a0).blur μ = a0.blur μ := by
  intros; unfold State.abortLoad
  simp only [↓apply_ite (State.blur μ), ite_self, ↓State.endLoad_blur μ (maskSub rfl hμ)]

theorem State.restartLoad_blur (μ : Nat) (hμ : 0x39e00fa &&& μ = 0x39e00fa) : ∀ a0, (State.restartLoad a0).blur μ = a0.blur μ := by
  intros; unfold State.restartLoad
  simp only [↓apply_ite (State.blur μ), ite_self, ↓State.failLoad_blur μ (maskSub rfl hμ), ↓State.setRegF_blur μ (maskSub rfl hμ), ↓State.setImgState_blur μ (maskSub rfl hμ), ↓State.setLdr_blur μ (maskSub rfl hμ), ↓State.voidLoad_blur μ (maskSub rfl hμ)]

theorem State.startLoad_blur (μ : Nat) (hμ : 0x2000010 &&& μ = 0x2000010) : ∀ a0 a1, (State.startLoad a0 a1).blur μ = a0.blur μ := by
  intros; unfold State.startLoad
  simp only [↓State.setReg_blur μ (maskSub rfl hμ), ↓State.setLdr_blur μ (maskSub rfl hμ)]

theorem State.writeImgCtrl_blur (μ : Nat) (hμ : 0x39e00fa &&& μ = 0x39e00fa) : ∀ a0 a1, (State.writeImgCtrl a0 a1).1.blur μ = a0.blur μ := by
  intros; unfold State.writeImgCtrl
  simp only [↓apply_ite (State.blur μ), ite_self, ↓apply_ite Prod.fst, ↓State.setRegF_blur μ (maskSub rfl hμ), ↓State.abortLoad_blur μ (maskSub rfl hμ), ↓State.reject_blur μ (maskSub rfl hμ), ↓State.startLoad_blur μ (maskSub rfl hμ)]

theorem State.claim_blur (μ : Nat) (hμ : 0xb9c04f8 &&& μ = 0xb9c04f8) : ∀ a0 a1, (State.claim a0 a1).blur μ = a0.blur μ := by
  intros; unfold State.claim
  repeat' first | with_reducible rfl | intro _ | simp only [↓blur_8 μ (maskSub rfl hμ), ↓blur_10 μ (maskSub rfl hμ), ↓blur_20 μ (maskSub rfl hμ), ↓blur_28 μ (maskSub rfl hμ), ↓blur_40 μ (maskSub rfl hμ), ↓blur_60 μ (maskSub rfl hμ), ↓blur_68 μ (maskSub rfl hμ), ↓blur_80 μ (maskSub rfl hμ), ↓blur_400 μ (maskSub rfl hμ), ↓blur_440 μ (maskSub rfl hμ), ↓blur_40000 μ (maskSub rfl hμ), ↓blur_40020 μ (maskSub rfl hμ), ↓blur_80000 μ (maskSub rfl hμ), ↓blur_100000 μ (maskSub rfl hμ), ↓blur_800000 μ (maskSub rfl hμ), ↓blur_1000000 μ (maskSub rfl hμ), ↓blur_2000000 μ (maskSub rfl hμ), ↓blur_8000000 μ (maskSub rfl hμ), ↓foldl_blur μ, ↓State.clearRegs_blur μ (maskSub rfl hμ), ↓State.clearPlans_blur μ (maskSub rfl hμ), ↓State.unloadRect_blur μ (maskSub rfl hμ), ↓State.setSlot_blur μ (maskSub rfl hμ), ↓State.modRgn_blur μ (maskSub rfl hμ), ↓State.modLdr_blur μ (maskSub rfl hμ), ↓State.setReg_blur μ (maskSub rfl hμ), ↓State.clearMeasure_blur μ (maskSub rfl hμ)] | split | refine (foldl_blur μ _ ?_ _ _).trans ?_ | refine (foldl1_blur μ _ ?_ _ _).trans ?_

theorem State.deliverSec_blur (μ : Nat) (hμ : 0x39e00ba &&& μ = 0x39e00ba) {s n x t} (h : State.deliverSec s n x = some t) : t.blur μ = s.blur μ := by
  unfold State.deliverSec at h
  dsimp only at h
  split at h
  · exact State.streamPlan_blur μ (maskSub rfl hμ) h
  · exact State.manifestPlan_blur μ (maskSub rfl hμ) h
  · exact State.redPlan_blur μ (maskSub rfl hμ) h
  · exact State.beatPlan_blur μ (maskSub rfl hμ) h
  · exact State.powerPlan_blur μ (maskSub rfl hμ) h
  · cases h; rfl

theorem State.deliverAll_blur (μ : Nat) (hμ : 0x39e00ba &&& μ = 0x39e00ba) (n) : ∀ l s, (State.deliverAll n l s).1.blur μ = s.blur μ := by
  intro l
  induction l with
  | nil => intros; rfl
  | cons x t ih =>
    intro s; unfold State.deliverAll
    split
    · rw [ih]; exact State.deliverSec_blur μ (maskSub rfl hμ) (by assumption)
    · rfl

theorem State.sendOpens_blur (μ : Nat) (hμ : 0x2000012 &&& μ = 0x2000012) : ∀ a0, (State.sendOpens a0).blur μ = a0.blur μ := by
  intros; unfold State.sendOpens
  simp only [↓apply_ite (State.blur μ), ite_self, ↓State.setImgState_blur μ (maskSub rfl hμ), ↓State.modLdr_blur μ (maskSub rfl hμ), ↓State.sendAll_blur μ (maskSub rfl hμ)]

theorem State.pollLoad_blur (μ : Nat) (hμ : 0x39e00fa &&& μ = 0x39e00fa) : ∀ a0, (State.pollLoad a0).blur μ = a0.blur μ := by
  intros; unfold State.pollLoad
  simp only [↓apply_ite (State.blur μ), ite_self, ↓State.failLoad_blur μ (maskSub rfl hμ), ↓State.sendOpens_blur μ (maskSub rfl hμ)]

theorem execLoadVerifyDone_blur (μ : Nat) (hμ : 0xb9e04fa &&& μ = 0xb9e04fa) : ∀ s t, execLoadVerifyDone s = .next t → t.blur μ = s.blur μ := by
  intro s t h; unfold execLoadVerifyDone at h; cases h
  dsimp only
  split
  · with_reducible rfl
  · split
    · simp only [↓State.failLoad_blur μ (maskSub rfl hμ)]
    · split
      · simp only [↓State.failLoad_blur μ (maskSub rfl hμ)]
      · split <;>
        · rename_i e
          have h := congrArg (fun r : State × Option Nat => r.1.blur μ) e
          simp only [↓State.deliverAll_blur μ (maskSub rfl hμ), ↓apply_ite (State.blur μ), ↓State.claim_blur μ (maskSub rfl hμ), ↓State.setImgState_blur μ (maskSub rfl hμ), ↓State.applyManifest_blur μ (maskSub rfl hμ), ite_self] at h
          simp only [↓State.failLoad_blur μ (maskSub rfl hμ), ↓State.pollLoad_blur μ (maskSub rfl hμ), ← h]

theorem execExtentCopyDone_blur (μ : Nat) (hμ : 0x39e00fa &&& μ = 0x39e00fa) : ∀ a0 a1 a2, ∀ t, execExtentCopyDone a0 a1 a2 = .next t → t.blur μ = a2.blur μ := by
  intros a0 a1 a2 t h; unfold execExtentCopyDone at h; cases h
  simp only [↓State.pollLoad_blur μ (maskSub rfl hμ), ↓State.extentCopyDone_blur μ (maskSub rfl hμ)]

theorem execAllocationRetry_blur (μ : Nat) (hμ : 0x39e00fa &&& μ = 0x39e00fa) : ∀ a0, ∀ t, execAllocationRetry a0 = .next t → t.blur μ = a0.blur μ := by
  intros a0 t h; unfold execAllocationRetry at h; cases h
  simp only [↓State.pollLoad_blur μ (maskSub rfl hμ), ↓State.allocationRetry_blur μ (maskSub rfl hμ)]

theorem execAllocationWaitLimit_blur (μ : Nat) (hμ : 0x39e00fa &&& μ = 0x39e00fa) : ∀ a0 a1, ∀ t, execAllocationWaitLimit a0 a1 = .next t → t.blur μ = a1.blur μ := by
  intros a0 a1 t h; unfold execAllocationWaitLimit at h; cases h
  simp only [↓State.pollLoad_blur μ (maskSub rfl hμ), ↓State.allocationLimit_blur μ (maskSub rfl hμ)]

theorem State.setLoad_blur (μ : Nat) (hμ : 0x60 &&& μ = 0x60) : ∀ a0 a1 a2, (State.setLoad a0 a1 a2).blur μ = a0.blur μ := by
  intros; unfold State.setLoad
  repeat' first | with_reducible rfl | simp only [↓State.modCell_blur μ (maskSub rfl hμ), ↓State.modFm_blur μ (maskSub rfl hμ)] | split

theorem execLoadOpen_blur (μ : Nat) (hμ : 0x2000072 &&& μ = 0x2000072) : ∀ a0 a1, ∀ t, execLoadOpen a0 a1 = .next t → t.blur μ = a1.blur μ := by
  intros a0 a1 t h; unfold execLoadOpen at h; cases h
  simp only [↓apply_ite (State.blur μ), ite_self, ↓State.deliver_blur μ (maskSub rfl hμ), ↓State.setLoad_blur μ (maskSub rfl hμ), ↓State.modLdr_blur μ (maskSub rfl hμ), ↓State.setImgState_blur μ (maskSub rfl hμ)]

theorem execLoadOpenRetry_blur (μ : Nat) (hμ : 0x39e00fa &&& μ = 0x39e00fa) : ∀ a0, ∀ t, execLoadOpenRetry a0 = .next t → t.blur μ = a0.blur μ := by
  intros a0 t h; unfold execLoadOpenRetry at h; cases h
  simp only [↓apply_ite (State.blur μ), ite_self, ↓State.pollLoad_blur μ (maskSub rfl hμ), ↓State.sendAll_blur μ (maskSub rfl hμ), ↓State.modLdr_blur μ (maskSub rfl hμ), ↓State.setImgState_blur μ (maskSub rfl hμ)]

theorem execChunkLead_blur (μ : Nat) (hμ : 0x70 &&& μ = 0x70) : ∀ a0 a1 a2 a3, ∀ t, execChunkLead a0 a1 a2 a3 = .next t → t.blur μ = a3.blur μ := by
  intros a0 a1 a2 a3 t h; unfold execChunkLead at h; cases h
  simp only [↓apply_ite (State.blur μ), ite_self, ↓State.setLoad_blur μ (maskSub rfl hμ), ↓State.setRegF_blur μ (maskSub rfl hμ)]

theorem State.takeChunk_blur (μ : Nat) (hμ : 0x60 &&& μ = 0x60) : ∀ a0 a1 a2 a3, (State.takeChunk a0 a1 a2 a3).blur μ = a0.blur μ := by
  intros; unfold State.takeChunk
  repeat' first | with_reducible rfl | simp only [↓apply_ite (State.blur μ), ite_self, ↓State.setLoad_blur μ (maskSub rfl hμ), ↓State.modCell_blur μ (maskSub rfl hμ), ↓State.modFm_blur μ (maskSub rfl hμ)] | split

theorem execChunkData_blur (μ : Nat) (hμ : 0x60 &&& μ = 0x60) : ∀ a0 a1 a2, ∀ t, execChunkData a0 a1 a2 = .next t → t.blur μ = a2.blur μ := by
  intros a0 a1 a2 t h; unfold execChunkData at h; cases h
  repeat' first | with_reducible rfl | simp only [↓apply_ite (State.blur μ), ite_self, ↓State.setLoad_blur μ (maskSub rfl hμ), ↓State.takeChunk_blur μ (maskSub rfl hμ)] | split

theorem execMiss_blur (μ : Nat) (hμ : 0xa000002 &&& μ = 0xa000002) : ∀ a0 a1 a2, ∀ t, execMiss a0 a1 a2 = .next t → t.blur μ = a2.blur μ := by
  intros a0 a1 a2 t h; unfold execMiss at h; cases h
  simp only [↓blur_2 μ (maskSub rfl hμ), ↓blur_2000000 μ (maskSub rfl hμ), ↓blur_8000000 μ (maskSub rfl hμ), ↓apply_ite (State.blur μ), ite_self, ↓State.deliver_blur μ (maskSub rfl hμ), ↓State.modLdr_blur μ (maskSub rfl hμ)]

theorem State.remapRow_blur (μ : Nat) (hμ : 0x4013a &&& μ = 0x4013a) : ∀ a0 a1, (State.remapRow a0 a1).blur μ = a0.blur μ := by
  intros; unfold State.remapRow
  repeat' first | with_reducible rfl | intro _ | simp only [↓blur_2 μ (maskSub rfl hμ), ↓blur_8 μ (maskSub rfl hμ), ↓blur_10 μ (maskSub rfl hμ), ↓blur_20 μ (maskSub rfl hμ), ↓blur_28 μ (maskSub rfl hμ), ↓blur_100 μ (maskSub rfl hμ), ↓blur_108 μ (maskSub rfl hμ), ↓blur_40000 μ (maskSub rfl hμ), ↓blur_40020 μ (maskSub rfl hμ), ↓foldl_blur μ, ↓foldl1_blur μ, ↓State.loseT0Cells_blur μ (maskSub rfl hμ), ↓State.setCell_blur μ (maskSub rfl hμ)] | split | refine (foldl_blur μ _ ?_ _ _).trans ?_ | refine (foldl1_blur μ _ ?_ _ _).trans ?_

theorem State.suspectCell_blur (μ : Nat) (hμ : 0x4404017a &&& μ = 0x4404017a) : ∀ a0 a1, (State.suspectCell a0 a1).1.blur μ = a0.blur μ := by
  intros; unfold State.suspectCell
  repeat' first | with_reducible rfl | intro _ | simp only [↓apply_ite (State.blur μ), ite_self, ↓apply_ite Prod.fst, ↓foldl_blur μ, ↓foldl1_blur μ, ↓State.watchFail_blur μ (maskSub rfl hμ), ↓State.satReg_blur μ (maskSub rfl hμ), ↓State.raiseCell_blur μ (maskSub rfl hμ), ↓State.fenceCell_blur μ (maskSub rfl hμ), ↓State.remapRow_blur μ (maskSub rfl hμ), ↓State.setLoad_blur μ (maskSub rfl hμ)] | split | refine (foldl_blur μ _ ?_ _ _).trans ?_ | refine (foldl1_blur μ _ ?_ _ _).trans ?_

theorem State.suspectCells_blur (μ : Nat) (hμ : 0x4404017a &&& μ = 0x4404017a) : ∀ l s, (State.suspectCells l s).1.blur μ = s.blur μ := by
  intro l
  induction l with
  | nil => intros; rfl
  | cons c t ih =>
    intro s; unfold State.suspectCells
    have h := State.suspectCell_blur μ (maskSub rfl hμ) s c
    split
    · rename_i e; rw [e] at h; rw [ih]; exact h
    · rename_i e; rw [e] at h; exact h

theorem State.sendConfigure_blur (μ : Nat) (hμ : 0x2000002 &&& μ = 0x2000002) : ∀ a0, (State.sendConfigure a0).blur μ = a0.blur μ := by
  intros; unfold State.sendConfigure
  simp only [↓State.send_blur μ (maskSub rfl hμ), ↓State.modLdr_blur μ (maskSub rfl hμ)]

theorem State.endRounds_blur (μ : Nat) (hμ : 0x479e01fa &&& μ = 0x479e01fa) (s) : (State.endRounds s).blur μ = s.blur μ := by
  unfold State.endRounds
  dsimp only
  split
  · simp only [↓State.failLoad_blur μ (maskSub rfl hμ)]
  · split
    · simp only [↓State.sendConfigure_blur μ (maskSub rfl hμ)]
    · split
      · simp only [↓State.failLoad_blur μ (maskSub rfl hμ)]
      · split <;>
        · rename_i e
          have h := congrArg (fun r : State × Option Nat => r.1.blur μ) e
          simp only [↓State.suspectCells_blur μ (maskSub rfl hμ)] at h
          simp only [↓State.failLoad_blur μ (maskSub rfl hμ), ↓State.setRegF_blur μ (maskSub rfl hμ), ↓State.setImgState_blur μ (maskSub rfl hμ), ↓State.modLdr_blur μ (maskSub rfl hμ), ← h]

theorem execLoadBroadcastDone_blur (μ : Nat) (hμ : 0x39e00fa &&& μ = 0x39e00fa) : ∀ a0, ∀ t, execLoadBroadcastDone a0 = .next t → t.blur μ = a0.blur μ := by
  intros a0 t h; unfold execLoadBroadcastDone at h; cases h
  repeat' first | with_reducible rfl | simp only [↓apply_ite (State.blur μ), ite_self, ↓State.failLoad_blur μ (maskSub rfl hμ), ↓State.setImgState_blur μ (maskSub rfl hμ), ↓State.modLdr_blur μ (maskSub rfl hμ), ↓State.setRegF_blur μ (maskSub rfl hμ)] | split

theorem State.loadCheck_blur (μ : Nat) (hμ : 0x479e01fa &&& μ = 0x479e01fa) : ∀ a0, (State.loadCheck a0).blur μ = a0.blur μ := by
  intros; unfold State.loadCheck
  simp only [↓apply_ite (State.blur μ), ite_self, ↓State.endRounds_blur μ (maskSub rfl hμ), ↓State.sendAll_blur μ (maskSub rfl hμ), ↓State.modLdr_blur μ (maskSub rfl hμ)]

theorem State.loadRound_blur (μ : Nat) (hμ : 0x479e01fa &&& μ = 0x479e01fa) : ∀ a0, (State.loadRound a0).blur μ = a0.blur μ := by
  intros; unfold State.loadRound
  simp only [↓apply_ite (State.blur μ), ite_self, ↓State.endRounds_blur μ (maskSub rfl hμ), ↓State.send_blur μ (maskSub rfl hμ), ↓State.setRegF_blur μ (maskSub rfl hμ), ↓State.modLdr_blur μ (maskSub rfl hμ)]

theorem State.loadWindowEnd_blur (μ : Nat) (hμ : 0x2000010 &&& μ = 0x2000010) : ∀ a0, (State.loadWindowEnd a0).blur μ = a0.blur μ := by
  intros; unfold State.loadWindowEnd
  simp only [↓apply_ite (State.blur μ), ite_self, ↓State.satReg_blur μ (maskSub rfl hμ), ↓State.modLdr_blur μ (maskSub rfl hμ)]

theorem State.configureTarget_blur (μ : Nat) (hμ : 0x60 &&& μ = 0x60) : ∀ a0 a1, (State.configureTarget a0 a1).blur μ = a0.blur μ := by
  intros; unfold State.configureTarget
  repeat' first | with_reducible rfl | simp only [↓State.modCell_blur μ (maskSub rfl hμ), ↓State.modFm_blur μ (maskSub rfl hμ)] | split

theorem State.setMeasure_blur (μ : Nat) (hμ : 0x10 &&& μ = 0x10) : ∀ a0 a1 a2, (State.setMeasure a0 a1 a2).blur μ = a0.blur μ := by
  intros; unfold State.setMeasure
  repeat' first | with_reducible rfl | intro _ | simp only [↓foldl_blur μ, ↓State.setReg_blur μ (maskSub rfl hμ)] | split | refine (foldl_blur μ _ ?_ _ _).trans ?_ | refine (foldl1_blur μ _ ?_ _ _).trans ?_

theorem execLoadConfigure_blur (μ : Nat) (hμ : 0x20004f2 &&& μ = 0x20004f2) : ∀ a0, ∀ t, execLoadConfigure a0 = .next t → t.blur μ = a0.blur μ := by
  intros a0 t h; unfold execLoadConfigure at h; cases h
  repeat' first | with_reducible rfl | intro _ | simp only [↓apply_ite (State.blur μ), ite_self, ↓foldl_blur μ, ↓State.deliver_blur μ (maskSub rfl hμ), ↓State.configureTarget_blur μ (maskSub rfl hμ), ↓State.setReg_blur μ (maskSub rfl hμ), ↓State.setMeasure_blur μ (maskSub rfl hμ), ↓State.modSlot_blur μ (maskSub rfl hμ), ↓State.setImgState_blur μ (maskSub rfl hμ), ↓State.setLdr_blur μ (maskSub rfl hμ), ↓State.clearBarriers_blur μ (maskSub rfl hμ)] | split | refine (foldl_blur μ _ ?_ _ _).trans ?_ | refine (foldl1_blur μ _ ?_ _ _).trans ?_

theorem State.record_blur (μ : Nat) (hμ : 0x44000012 &&& μ = 0x44000012) : ∀ a0 a1, (State.record a0 a1).blur μ = a0.blur μ := by
  intros; unfold State.record
  repeat' first | with_reducible rfl | simp only [↓apply_ite (State.blur μ), ite_self, ↓State.satReg_blur μ (maskSub rfl hμ), ↓State.setFlt_blur μ (maskSub rfl hμ), ↓State.journal_blur μ (maskSub rfl hμ)] | split

theorem State.setJob_blur (μ : Nat) (hμ : 0x8000000 &&& μ = 0x8000000) : ∀ a0 a1 a2, (State.setJob a0 a1 a2).blur μ = a0.blur μ := by
  intros; unfold State.setJob
  simp only [↓blur_8000000 μ (maskSub rfl hμ)]

theorem State.modJob_blur (μ : Nat) (hμ : 0x8000000 &&& μ = 0x8000000) : ∀ a0 a1 a2, (State.modJob a0 a1 a2).blur μ = a0.blur μ := by
  intros; unfold State.modJob
  simp only [↓State.setJob_blur μ (maskSub rfl hμ)]

theorem State.setJobState_blur (μ : Nat) (hμ : 0x10 &&& μ = 0x10) : ∀ a0 a1 a2, (State.setJobState a0 a1 a2).blur μ = a0.blur μ := by
  intros; unfold State.setJobState
  simp only [↓State.setRegF_blur μ (maskSub rfl hμ)]

theorem State.setCause_blur (μ : Nat) (hμ : 0x10 &&& μ = 0x10) : ∀ a0 a1 a2 a3, (State.setCause a0 a1 a2 a3).blur μ = a0.blur μ := by
  intros; unfold State.setCause
  simp only [↓State.setRegF_blur μ (maskSub rfl hμ)]

theorem State.stopJob_blur (μ : Nat) (hμ : 0x19c00fa &&& μ = 0x19c00fa) : ∀ a0 a1, (State.stopJob a0 a1).blur μ = a0.blur μ := by
  intros; unfold State.stopJob
  repeat' first | with_reducible rfl | intro _ | simp only [↓apply_ite (State.blur μ), ite_self, ↓foldl_blur μ, ↓State.sendAll_blur μ (maskSub rfl hμ), ↓State.modFm_blur μ (maskSub rfl hμ), ↓State.dropHold_blur μ (maskSub rfl hμ), ↓State.stopSched_blur μ (maskSub rfl hμ), ↓State.skdStop_blur μ (maskSub rfl hμ)] | split | refine (foldl_blur μ _ ?_ _ _).trans ?_ | refine (foldl1_blur μ _ ?_ _ _).trans ?_

theorem State.cutCommit_blur (μ : Nat) (hμ : 0x1410be &&& μ = 0x1410be) : ∀ a0 a1, (State.cutCommit a0 a1).blur μ = a0.blur μ := by
  intros; unfold State.cutCommit
  simp only [↓apply_ite (State.blur μ), ite_self, ↓State.raise_blur μ (maskSub rfl hμ), ↓State.rollbackUp_blur μ (maskSub rfl hμ), ↓State.rollbackTo_blur μ (maskSub rfl hμ)]

theorem State.startRepair_blur (μ : Nat) (hμ : 0x8000010 &&& μ = 0x8000010) : ∀ a0 a1, (State.startRepair a0 a1).blur μ = a0.blur μ := by
  intros; unfold State.startRepair
  simp only [↓State.modJob_blur μ (maskSub rfl hμ), ↓State.setJobState_blur μ (maskSub rfl hμ)]

theorem State.autoRepair_blur (μ : Nat) (hμ : 0x8000010 &&& μ = 0x8000010) : ∀ a0 a1 a2, (State.autoRepair a0 a1 a2).blur μ = a0.blur μ := by
  intros; unfold State.autoRepair
  simp only [↓apply_ite (State.blur μ), ite_self, ↓State.startRepair_blur μ (maskSub rfl hμ)]

theorem State.flagStep_blur (μ : Nat) (hμ : 0x80 &&& μ = 0x80) : ∀ a0 a1, (State.flagStep a0 a1).blur μ = a0.blur μ := by
  intros; unfold State.flagStep
  simp only [↓State.modSlot_blur μ (maskSub rfl hμ)]

theorem State.faultJob_blur (μ : Nat) (hμ : 0x99c10fe &&& μ = 0x99c10fe) : ∀ a0 a1 a2 a3, (State.faultJob a0 a1 a2 a3).blur μ = a0.blur μ := by
  intros; unfold State.faultJob
  simp only [↓apply_ite (State.blur μ), ite_self, ↓State.stopJob_blur μ (maskSub rfl hμ), ↓State.rollbackUp_blur μ (maskSub rfl hμ), ↓State.rollbackTo_blur μ (maskSub rfl hμ), ↓State.raise_blur μ (maskSub rfl hμ), ↓State.flagStep_blur μ (maskSub rfl hμ), ↓State.setJobState_blur μ (maskSub rfl hμ), ↓State.setCause_blur μ (maskSub rfl hμ), ↓State.modJob_blur μ (maskSub rfl hμ), ↓State.autoRepair_blur μ (maskSub rfl hμ)]

theorem State.jobAction_blur (μ : Nat) (hμ : 0x99c10fe &&& μ = 0x99c10fe) : ∀ a0 a1 a2 a3, (State.jobAction a0 a1 a2 a3).blur μ = a0.blur μ := by
  intros; unfold State.jobAction
  simp only [↓apply_ite (State.blur μ), ite_self, ↓State.faultJob_blur μ (maskSub rfl hμ), ↓State.autoRepair_blur μ (maskSub rfl hμ), ↓State.setJobState_blur μ (maskSub rfl hμ), ↓State.setCause_blur μ (maskSub rfl hμ), ↓State.modJob_blur μ (maskSub rfl hμ)]

theorem State.fenceFor_blur (μ : Nat) (hμ : 0x52 &&& μ = 0x52) : ∀ a0 a1, (State.fenceFor a0 a1).blur μ = a0.blur μ := by
  intros; unfold State.fenceFor
  repeat' first | with_reducible rfl | intro _ | simp only [↓apply_ite (State.blur μ), ite_self, ↓foldl_blur μ, ↓State.abandonBuild_blur μ (maskSub rfl hμ), ↓State.modFm_blur μ (maskSub rfl hμ), ↓State.fenceBy_blur μ (maskSub rfl hμ)] | split | refine (foldl_blur μ _ ?_ _ _).trans ?_ | refine (foldl1_blur μ _ ?_ _ _).trans ?_

theorem State.takeFault_blur (μ : Nat) (hμ : 0x4ddc10fe &&& μ = 0x4ddc10fe) : ∀ a0 a1, (State.takeFault a0 a1).blur μ = a0.blur μ := by
  intros; unfold State.takeFault
  repeat' first | with_reducible rfl | intro _ | simp only [↓blur_2 μ (maskSub rfl hμ), ↓blur_4 μ (maskSub rfl hμ), ↓blur_8 μ (maskSub rfl hμ), ↓blur_10 μ (maskSub rfl hμ), ↓blur_20 μ (maskSub rfl hμ), ↓blur_28 μ (maskSub rfl hμ), ↓blur_40 μ (maskSub rfl hμ), ↓blur_60 μ (maskSub rfl hμ), ↓blur_68 μ (maskSub rfl hμ), ↓blur_80 μ (maskSub rfl hμ), ↓blur_1000 μ (maskSub rfl hμ), ↓blur_40000 μ (maskSub rfl hμ), ↓blur_40020 μ (maskSub rfl hμ), ↓blur_80000 μ (maskSub rfl hμ), ↓blur_100000 μ (maskSub rfl hμ), ↓blur_400000 μ (maskSub rfl hμ), ↓blur_400008 μ (maskSub rfl hμ), ↓blur_800000 μ (maskSub rfl hμ), ↓blur_1000000 μ (maskSub rfl hμ), ↓blur_4000000 μ (maskSub rfl hμ), ↓blur_4000028 μ (maskSub rfl hμ), ↓blur_8000000 μ (maskSub rfl hμ), ↓blur_40000000 μ (maskSub rfl hμ), ↓apply_ite (State.blur μ), ite_self, ↓foldl_blur μ, ↓foldl1_blur μ, ↓State.record_blur μ (maskSub rfl hμ), ↓State.modJob_blur μ (maskSub rfl hμ), ↓State.setCause_blur μ (maskSub rfl hμ), ↓State.watchFail_blur μ (maskSub rfl hμ), ↓State.fenceFor_blur μ (maskSub rfl hμ), ↓State.jobAction_blur μ (maskSub rfl hμ)] | split | refine (foldl_blur μ _ ?_ _ _).trans ?_ | refine (foldl1_blur μ _ ?_ _ _).trans ?_

theorem execFaultNotice_blur (μ : Nat) (hμ : 0x4ddc10fe &&& μ = 0x4ddc10fe) : ∀ a0 a1, ∀ t, execFaultNotice a0 a1 = .next t → t.blur μ = a1.blur μ := by
  intros a0 a1 t h; unfold execFaultNotice at h; cases h
  simp only [↓State.takeFault_blur μ (maskSub rfl hμ), ↓State.deliver_blur μ (maskSub rfl hμ)]

theorem State.armJob_blur (μ : Nat) (hμ : 0x8800000 &&& μ = 0x8800000) : ∀ a0 a1 a2, (State.armJob a0 a1 a2).blur μ = a0.blur μ := by
  intros; unfold State.armJob
  simp only [↓State.setSched_blur μ (maskSub rfl hμ), ↓State.modJob_blur μ (maskSub rfl hμ)]

theorem State.drainJob_blur (μ : Nat) (hμ : 0x12 &&& μ = 0x12) : ∀ a0 a1, (State.drainJob a0 a1).1.blur μ = a0.blur μ := by
  intros; unfold State.drainJob
  simp only [↓apply_ite (State.blur μ), ite_self, ↓apply_ite Prod.fst, ↓State.setJobState_blur μ (maskSub rfl hμ), ↓State.reject_blur μ (maskSub rfl hμ)]

theorem State.writeJobCtrl_blur (μ : Nat) (hμ : 0x8800012 &&& μ = 0x8800012) : ∀ a0 a1, (State.writeJobCtrl a0 a1).1.blur μ = a0.blur μ := by
  intros; unfold State.writeJobCtrl
  simp only [↓apply_ite (State.blur μ), ite_self, ↓apply_ite Prod.fst, ↓State.setRegF_blur μ (maskSub rfl hμ), ↓State.armJob_blur μ (maskSub rfl hμ), ↓State.reject_blur μ (maskSub rfl hμ), ↓State.drainJob_blur μ (maskSub rfl hμ)]

theorem State.beginJob_blur (μ : Nat) (hμ : 0x98c04f2 &&& μ = 0x98c04f2) : ∀ a0 a1 a2, (State.beginJob a0 a1 a2).blur μ = a0.blur μ := by
  intros; unfold State.beginJob
  repeat' first | with_reducible rfl | intro _ | simp only [↓foldl_blur μ, ↓State.clearBarriers_blur μ (maskSub rfl hμ), ↓State.modCell_blur μ (maskSub rfl hμ), ↓State.modFm_blur μ (maskSub rfl hμ), ↓State.sendAll_blur μ (maskSub rfl hμ), ↓State.takeHold_blur μ (maskSub rfl hμ), ↓State.startStream_blur μ (maskSub rfl hμ), ↓State.modJob_blur μ (maskSub rfl hμ), ↓State.startSched_blur μ (maskSub rfl hμ), ↓State.setJobState_blur μ (maskSub rfl hμ)] | split | refine (foldl_blur μ _ ?_ _ _).trans ?_ | refine (foldl1_blur μ _ ?_ _ _).trans ?_

theorem execJobOrigin_blur (μ : Nat) (hμ : 0x98c04f2 &&& μ = 0x98c04f2) : ∀ a0 a1, ∀ t, execJobOrigin a0 a1 = .next t → t.blur μ = a1.blur μ := by
  intros a0 a1 t h; unfold execJobOrigin at h; cases h
  repeat' first | with_reducible rfl | simp only [↓apply_ite (State.blur μ), ite_self, ↓State.deliver_blur μ (maskSub rfl hμ), ↓State.setCause_blur μ (maskSub rfl hμ), ↓State.setReg_blur μ (maskSub rfl hμ), ↓State.beginJob_blur μ (maskSub rfl hμ), ↓State.setRegF_blur μ (maskSub rfl hμ)] | split

theorem State.endDrain_blur (μ : Nat) (hμ : 0x19c10fe &&& μ = 0x19c10fe) : ∀ a0 a1, (State.endDrain a0 a1).blur μ = a0.blur μ := by
  intros; unfold State.endDrain
  simp only [↓State.setJobState_blur μ (maskSub rfl hμ), ↓State.cutCommit_blur μ (maskSub rfl hμ), ↓State.stopJob_blur μ (maskSub rfl hμ)]

theorem execBarrierRelease_blur (μ : Nat) (hμ : 0x19c14fe &&& μ = 0x19c14fe) : ∀ a0 a1 a2, ∀ t, execBarrierRelease a0 a1 a2 = .next t → t.blur μ = a2.blur μ := by
  intros a0 a1 a2 t h; unfold execBarrierRelease at h; cases h
  simp only [↓apply_ite (State.blur μ), ite_self, ↓State.deliver_blur μ (maskSub rfl hμ), ↓State.stepRecord_blur μ (maskSub rfl hμ), ↓State.releaseHalf_blur μ (maskSub rfl hμ), ↓State.endDrain_blur μ (maskSub rfl hμ)]

theorem execRollback_blur (μ : Nat) (hμ : 0x99c10fe &&& μ = 0x99c10fe) : ∀ a0 a1 a2 a3 a4, ∀ t, execRollback a0 a1 a2 a3 a4 = .next t → t.blur μ = a4.blur μ := by
  intros a0 a1 a2 a3 a4 t h; unfold execRollback at h; cases h
  simp only [↓apply_ite (State.blur μ), ite_self, ↓State.tellKids_blur μ (maskSub rfl hμ), ↓State.deliver_blur μ (maskSub rfl hμ), ↓State.rollbackTo_blur μ (maskSub rfl hμ), ↓State.stopJob_blur μ (maskSub rfl hμ), ↓State.setJobState_blur μ (maskSub rfl hμ), ↓State.modJob_blur μ (maskSub rfl hμ)]

theorem execReplayOrigin_blur (μ : Nat) (hμ : 0x98c04f2 &&& μ = 0x98c04f2) : ∀ a0 a1, ∀ t, execReplayOrigin a0 a1 = .next t → t.blur μ = a1.blur μ := by
  intros a0 a1 t h; unfold execReplayOrigin at h; cases h
  repeat' first | with_reducible rfl | simp only [↓apply_ite (State.blur μ), ite_self, ↓State.deliver_blur μ (maskSub rfl hμ), ↓State.satReg_blur μ (maskSub rfl hμ), ↓State.setReg_blur μ (maskSub rfl hμ), ↓State.beginJob_blur μ (maskSub rfl hμ)] | split

theorem State.hostRollback_blur (μ : Nat) (hμ : 0x1410be &&& μ = 0x1410be) : ∀ a0 a1, (State.hostRollback a0 a1).blur μ = a0.blur μ := by
  intros; unfold State.hostRollback
  simp only [↓apply_ite (State.blur μ), ite_self, ↓State.raise_blur μ (maskSub rfl hμ), ↓State.rollbackUp_blur μ (maskSub rfl hμ), ↓State.rollbackTo_blur μ (maskSub rfl hμ)]

theorem State.writeRedCtrl_blur (μ : Nat) (hμ : 0x1410be &&& μ = 0x1410be) : ∀ a0 a1, (State.writeRedCtrl a0 a1).blur μ = a0.blur μ := by
  intros; unfold State.writeRedCtrl
  repeat' first | with_reducible rfl | intro _ | simp only [↓foldl_blur μ, ↓State.hostRollback_blur μ (maskSub rfl hμ), ↓State.setRegF_blur μ (maskSub rfl hμ), ↓State.endCkpt_blur μ (maskSub rfl hμ)] | split | refine (foldl_blur μ _ ?_ _ _).trans ?_ | refine (foldl1_blur μ _ ?_ _ _).trans ?_

theorem State.setRepair_blur (μ : Nat) (hμ : 0x8000000 &&& μ = 0x8000000) : ∀ a0 a1 a2, (State.setRepair a0 a1 a2).blur μ = a0.blur μ := by
  intros; unfold State.setRepair
  simp only [↓State.modJob_blur μ (maskSub rfl hμ)]

theorem State.failRepair_blur (μ : Nat) (hμ : 0x8000012 &&& μ = 0x8000012) : ∀ a0 a1 a2 a3, (State.failRepair a0 a1 a2 a3).blur μ = a0.blur μ := by
  intros; unfold State.failRepair
  simp only [↓apply_ite (State.blur μ), ite_self, ↓State.raise_blur μ (maskSub rfl hμ), ↓State.setJobState_blur μ (maskSub rfl hμ), ↓State.setCause_blur μ (maskSub rfl hμ), ↓State.setRepair_blur μ (maskSub rfl hμ)]

theorem State.endRepair_blur (μ : Nat) (hμ : 0x8000010 &&& μ = 0x8000010) : ∀ a0 a1, (State.endRepair a0 a1).blur μ = a0.blur μ := by
  intros; unfold State.endRepair
  simp only [↓State.satReg_blur μ (maskSub rfl hμ), ↓State.setJobState_blur μ (maskSub rfl hμ), ↓State.modJob_blur μ (maskSub rfl hμ)]

theorem State.openBlocks_blur (μ : Nat) (hμ : 0x8000060 &&& μ = 0x8000060) : ∀ a0 a1 a2 a3, (State.openBlocks a0 a1 a2 a3).blur μ = a0.blur μ := by
  intros; unfold State.openBlocks
  repeat' first | with_reducible rfl | intro _ | simp only [↓foldl_blur μ, ↓State.setLoad_blur μ (maskSub rfl hμ), ↓State.modJob_blur μ (maskSub rfl hμ)] | split | refine (foldl_blur μ _ ?_ _ _).trans ?_ | refine (foldl1_blur μ _ ?_ _ _).trans ?_

theorem State.recoverLost_blur (μ : Nat) (hμ : 0x8000412 &&& μ = 0x8000412) : ∀ a0 a1, (State.recoverLost a0 a1).blur μ = a0.blur μ := by
  intros; unfold State.recoverLost
  repeat' first | with_reducible rfl | intro _ | simp only [↓apply_ite (State.blur μ), ite_self, ↓foldl_blur μ, ↓foldl1_blur μ, ↓State.endRepair_blur μ (maskSub rfl hμ), ↓State.failRepair_blur μ (maskSub rfl hμ), ↓State.clearBreaker_blur μ (maskSub rfl hμ), ↓State.modJob_blur μ (maskSub rfl hμ)] | split | refine (foldl_blur μ _ ?_ _ _).trans ?_ | refine (foldl1_blur μ _ ?_ _ _).trans ?_

theorem State.afterRestarts_blur (μ : Nat) (hμ : 0x8000472 &&& μ = 0x8000472) : ∀ a0 a1, (State.afterRestarts a0 a1).blur μ = a0.blur μ := by
  intros; unfold State.afterRestarts
  repeat' first | with_reducible rfl | simp only [↓apply_ite (State.blur μ), ite_self, ↓State.recoverLost_blur μ (maskSub rfl hμ), ↓State.openBlocks_blur μ (maskSub rfl hμ)] | split

theorem execStagingCheckDone_blur (μ : Nat) (hμ : 0x8000472 &&& μ = 0x8000472) : ∀ a0 a1, ∀ t, execStagingCheckDone a0 a1 = .next t → t.blur μ = a1.blur μ := by
  intros a0 a1 t h; unfold execStagingCheckDone at h; cases h
  repeat' first | with_reducible rfl | simp only [↓apply_ite (State.blur μ), ite_self, ↓State.failRepair_blur μ (maskSub rfl hμ), ↓State.setRepair_blur μ (maskSub rfl hμ), ↓State.afterRestarts_blur μ (maskSub rfl hμ), ↓State.sendAll_blur μ (maskSub rfl hμ)] | split

theorem State.regionRestarted_blur (μ : Nat) (hμ : 0x804057a &&& μ = 0x804057a) : ∀ a0 a1 a2, (State.regionRestarted a0 a1 a2).blur μ = a0.blur μ := by
  intros; unfold State.regionRestarted
  repeat' first | with_reducible rfl | intro _ | simp only [↓apply_ite (State.blur μ), ite_self, ↓foldl_blur μ, ↓State.remapRow_blur μ (maskSub rfl hμ), ↓State.setRepair_blur μ (maskSub rfl hμ), ↓State.afterRestarts_blur μ (maskSub rfl hμ)] | split | refine (foldl_blur μ _ ?_ _ _).trans ?_ | refine (foldl1_blur μ _ ?_ _ _).trans ?_

theorem State.lostReturned_blur (μ : Nat) (hμ : 0x8000072 &&& μ = 0x8000072) : ∀ a0 a1, (State.lostReturned a0 a1).blur μ = a0.blur μ := by
  intros; unfold State.lostReturned
  repeat' first | with_reducible rfl | simp only [↓apply_ite (State.blur μ), ite_self, ↓State.failRepair_blur μ (maskSub rfl hμ), ↓State.openBlocks_blur μ (maskSub rfl hμ)] | split

theorem State.reconfigure_blur (μ : Nat) (hμ : 0x60 &&& μ = 0x60) : ∀ a0 a1, (State.reconfigure a0 a1).blur μ = a0.blur μ := by
  intros; unfold State.reconfigure
  repeat' first | with_reducible rfl | simp only [↓apply_ite (State.blur μ), ite_self, ↓State.modCell_blur μ (maskSub rfl hμ), ↓State.modFm_blur μ (maskSub rfl hμ)] | split

theorem State.endRepairRounds_blur (μ : Nat) (hμ : 0x8000472 &&& μ = 0x8000472) : ∀ a0 a1 a2, (State.endRepairRounds a0 a1 a2).blur μ = a0.blur μ := by
  intros; unfold State.endRepairRounds
  repeat' first | with_reducible rfl | intro _ | simp only [↓apply_ite (State.blur μ), ite_self, ↓foldl_blur μ, ↓State.failRepair_blur μ (maskSub rfl hμ), ↓State.reconfigure_blur μ (maskSub rfl hμ), ↓State.setRepair_blur μ (maskSub rfl hμ), ↓State.recoverLost_blur μ (maskSub rfl hμ), ↓State.endRepair_blur μ (maskSub rfl hμ)] | split | refine (foldl_blur μ _ ?_ _ _).trans ?_ | refine (foldl1_blur μ _ ?_ _ _).trans ?_

theorem State.repairCheck_blur (μ : Nat) (hμ : 0x8000472 &&& μ = 0x8000472) : ∀ a0 a1, (State.repairCheck a0 a1).blur μ = a0.blur μ := by
  intros; unfold State.repairCheck
  repeat' first | with_reducible rfl | simp only [↓apply_ite (State.blur μ), ite_self, ↓State.endRepairRounds_blur μ (maskSub rfl hμ), ↓State.sendAll_blur μ (maskSub rfl hμ), ↓State.setRepair_blur μ (maskSub rfl hμ)] | split

theorem State.repairRound_blur (μ : Nat) (hμ : 0x8000472 &&& μ = 0x8000472) : ∀ a0 a1, (State.repairRound a0 a1).blur μ = a0.blur μ := by
  intros; unfold State.repairRound
  repeat' first | with_reducible rfl | simp only [↓apply_ite (State.blur μ), ite_self, ↓State.endRepairRounds_blur μ (maskSub rfl hμ), ↓State.send_blur μ (maskSub rfl hμ), ↓State.setRepair_blur μ (maskSub rfl hμ)] | split

theorem State.repairWindowEnd_blur (μ : Nat) (hμ : 0x8000000 &&& μ = 0x8000000) : ∀ a0 a1, (State.repairWindowEnd a0 a1).blur μ = a0.blur μ := by
  intros; unfold State.repairWindowEnd
  repeat' first | with_reducible rfl | simp only [↓apply_ite (State.blur μ), ite_self, ↓State.setRepair_blur μ (maskSub rfl hμ)] | split

theorem execLoadCheck_blur (μ : Nat) (hμ : 0x4f9e05fa &&& μ = 0x4f9e05fa) : ∀ a0, ∀ t, execLoadCheck a0 = .next t → t.blur μ = a0.blur μ := by
  intros a0 t h; unfold execLoadCheck at h; cases h
  repeat' first | with_reducible rfl | intro _ | simp only [↓foldl_blur μ, ↓State.repairCheck_blur μ (maskSub rfl hμ), ↓State.loadCheck_blur μ (maskSub rfl hμ), ↓State.deliver_blur μ (maskSub rfl hμ)] | split | refine (foldl_blur μ _ ?_ _ _).trans ?_ | refine (foldl1_blur μ _ ?_ _ _).trans ?_

theorem execRepairRound_blur (μ : Nat) (hμ : 0x4f9e05fa &&& μ = 0x4f9e05fa) : ∀ a0, ∀ t, execRepairRound a0 = .next t → t.blur μ = a0.blur μ := by
  intros a0 t h; unfold execRepairRound at h; cases h
  repeat' first | with_reducible rfl | intro _ | simp only [↓foldl_blur μ, ↓State.repairRound_blur μ (maskSub rfl hμ), ↓State.loadRound_blur μ (maskSub rfl hμ)] | split | refine (foldl_blur μ _ ?_ _ _).trans ?_ | refine (foldl1_blur μ _ ?_ _ _).trans ?_

theorem execMissReportWindowEnd_blur (μ : Nat) (hμ : 0xa000010 &&& μ = 0xa000010) : ∀ a0, ∀ t, execMissReportWindowEnd a0 = .next t → t.blur μ = a0.blur μ := by
  intros a0 t h; unfold execMissReportWindowEnd at h; cases h
  repeat' first | with_reducible rfl | intro _ | simp only [↓foldl_blur μ, ↓State.repairWindowEnd_blur μ (maskSub rfl hμ), ↓State.loadWindowEnd_blur μ (maskSub rfl hμ)] | split | refine (foldl_blur μ _ ?_ _ _).trans ?_ | refine (foldl1_blur μ _ ?_ _ _).trans ?_

theorem State.writeJob_blur (μ : Nat) (hμ : 0x8000012 &&& μ = 0x8000012) : ∀ a0 a1 a2, (State.writeJob a0 a1 a2).1.blur μ = a0.blur μ := by
  intros; unfold State.writeJob
  simp only [↓apply_ite (State.blur μ), ite_self, ↓apply_ite Prod.fst, ↓State.startRepair_blur μ (maskSub rfl hμ), ↓State.reject_blur μ (maskSub rfl hμ)]

theorem State.katStart_blur (μ : Nat) (hμ : 0x4000020 &&& μ = 0x4000020) : ∀ a0 a1 a2, (State.katStart a0 a1 a2).blur μ = a0.blur μ := by
  intros; unfold State.katStart
  repeat' first | with_reducible rfl | simp only [↓apply_ite (State.blur μ), ite_self, ↓State.modCell_blur μ (maskSub rfl hμ), ↓State.setFlt_blur μ (maskSub rfl hμ)] | split

theorem State.katWait_blur (μ : Nat) (hμ : 0x4000000 &&& μ = 0x4000000) : ∀ a0 a1 a2 a3, (State.katWait a0 a1 a2 a3).blur μ = a0.blur μ := by
  intros; unfold State.katWait
  simp only [↓apply_ite (State.blur μ), ite_self, ↓State.setFlt_blur μ (maskSub rfl hμ)]

theorem State.katSoon_blur (μ : Nat) (hμ : 0x4000020 &&& μ = 0x4000020) : ∀ a0 a1 a2 a3, (State.katSoon a0 a1 a2 a3).blur μ = a0.blur μ := by
  intros; unfold State.katSoon
  simp only [↓apply_ite (State.blur μ), ite_self, ↓State.katStart_blur μ (maskSub rfl hμ), ↓State.katWait_blur μ (maskSub rfl hμ)]

theorem State.katPoll_blur (μ : Nat) (hμ : 0x4000020 &&& μ = 0x4000020) : ∀ a0, (State.katPoll a0).blur μ = a0.blur μ := by
  intros; unfold State.katPoll
  repeat' first | with_reducible rfl | intro _ | simp only [↓apply_ite (State.blur μ), ite_self, ↓foldl_blur μ, ↓foldl1_blur μ, ↓State.setFlt_blur μ (maskSub rfl hμ), ↓State.katStart_blur μ (maskSub rfl hμ)] | split | refine (foldl_blur μ _ ?_ _ _).trans ?_ | refine (foldl1_blur μ _ ?_ _ _).trans ?_

theorem execEventKat_blur (μ : Nat) (hμ : 0x4000022 &&& μ = 0x4000022) : ∀ a0 a1, ∀ t, execEventKat a0 a1 = .next t → t.blur μ = a1.blur μ := by
  intros a0 a1 t h; unfold execEventKat at h; cases h
  repeat' first | with_reducible rfl | intro _ | simp only [↓apply_ite (State.blur μ), ite_self, ↓foldl_blur μ, ↓State.katSoon_blur μ (maskSub rfl hμ)] | refine (State.onEvent_blur μ (maskSub rfl hμ) _ _ _ _ ?_).trans ?_ | split | refine (foldl_blur μ _ ?_ _ _).trans ?_ | refine (foldl1_blur μ _ ?_ _ _).trans ?_

theorem State.writeKatRun_blur (μ : Nat) (hμ : 0x4000032 &&& μ = 0x4000032) : ∀ a0 a1, (State.writeKatRun a0 a1).1.blur μ = a0.blur μ := by
  intros; unfold State.writeKatRun
  repeat' first | with_reducible rfl | intro _ | simp only [↓apply_ite (State.blur μ), ite_self, ↓apply_ite Prod.fst, ↓foldl_blur μ, ↓foldl1_blur μ, ↓State.setRegF_blur μ (maskSub rfl hμ), ↓State.reject_blur μ (maskSub rfl hμ), ↓State.katStart_blur μ (maskSub rfl hμ), ↓State.setFlt_blur μ (maskSub rfl hμ)] | split | refine (foldl_blur μ _ ?_ _ _).trans ?_ | refine (foldl1_blur μ _ ?_ _ _).trans ?_

theorem execKatIdleTimer_blur (μ : Nat) (hμ : 0x4000020 &&& μ = 0x4000020) : ∀ a0, ∀ t, execKatIdleTimer a0 = .next t → t.blur μ = a0.blur μ := by
  intros a0 t h; unfold execKatIdleTimer at h; cases h
  repeat' first | with_reducible rfl | intro _ | simp only [↓apply_ite (State.blur μ), ite_self, ↓foldl_blur μ, ↓State.katStart_blur μ (maskSub rfl hμ)] | split | refine (foldl_blur μ _ ?_ _ _).trans ?_ | refine (foldl1_blur μ _ ?_ _ _).trans ?_

theorem execKatWatchTimer_blur (μ : Nat) (hμ : 0x4000020 &&& μ = 0x4000020) : ∀ a0, ∀ t, execKatWatchTimer a0 = .next t → t.blur μ = a0.blur μ := by
  intros a0 t h; unfold execKatWatchTimer at h; cases h
  repeat' first | with_reducible rfl | intro _ | simp only [↓apply_ite (State.blur μ), ite_self, ↓foldl_blur μ, ↓foldl1_blur μ, ↓State.katStart_blur μ (maskSub rfl hμ)] | split | refine (foldl_blur μ _ ?_ _ _).trans ?_ | refine (foldl1_blur μ _ ?_ _ _).trans ?_

theorem execNextTestDue_blur (μ : Nat) (hμ : 0x44000032 &&& μ = 0x44000032) : ∀ a0, ∀ t, execNextTestDue a0 = .next t → t.blur μ = a0.blur μ := by
  intros a0 t h; unfold execNextTestDue at h; cases h
  repeat' first | with_reducible rfl | intro _ | simp only [↓apply_ite (State.blur μ), ite_self, ↓foldl_blur μ, ↓State.katStart_blur μ (maskSub rfl hμ), ↓State.katSoon_blur μ (maskSub rfl hμ), ↓State.journal_blur μ (maskSub rfl hμ), ↓State.setRegF_blur μ (maskSub rfl hμ)] | split | refine (foldl_blur μ _ ?_ _ _).trans ?_ | refine (foldl1_blur μ _ ?_ _ _).trans ?_

theorem State.katEnd_blur (μ : Nat) (hμ : 0x4000020 &&& μ = 0x4000020) : ∀ a0 a1, (State.katEnd a0 a1).blur μ = a0.blur μ := by
  intros; unfold State.katEnd
  repeat' first | with_reducible rfl | simp only [↓State.modCell_blur μ (maskSub rfl hμ), ↓State.setFlt_blur μ (maskSub rfl hμ)] | split

theorem State.katPass_blur (μ : Nat) (hμ : 0x44000002 &&& μ = 0x44000002) : ∀ a0 a1, (State.katPass a0 a1).blur μ = a0.blur μ := by
  intros; unfold State.katPass
  repeat' first | with_reducible rfl | simp only [↓apply_ite (State.blur μ), ite_self, ↓State.watchPass_blur μ (maskSub rfl hμ)] | split

theorem State.katFail_blur (μ : Nat) (hμ : 0x2 &&& μ = 0x2) : ∀ a0 a1 a2, (State.katFail a0 a1 a2).blur μ = a0.blur μ := by
  intros; unfold State.katFail
  repeat' first | with_reducible rfl | simp only [↓State.raiseCell_blur μ (maskSub rfl hμ), ↓State.raiseRgn_blur μ (maskSub rfl hμ), ↓State.raise_blur μ (maskSub rfl hμ)] | split

theorem State.katHost_blur (μ : Nat) (hμ : 0x4000010 &&& μ = 0x4000010) : ∀ a0 a1 a2 a3, (State.katHost a0 a1 a2 a3).blur μ = a0.blur μ := by
  intros; unfold State.katHost
  simp only [↓apply_ite (State.blur μ), ite_self, ↓State.setFlt_blur μ (maskSub rfl hμ), ↓State.setRegF_blur μ (maskSub rfl hμ)]

theorem execTestComplete_blur (μ : Nat) (hμ : 0x44000032 &&& μ = 0x44000032) : ∀ a0 a1 a2 a3, ∀ t, execTestComplete a0 a1 a2 a3 = .next t → t.blur μ = a3.blur μ := by
  intros a0 a1 a2 a3 t h; unfold execTestComplete at h; cases h
  simp only [↓apply_ite (State.blur μ), ite_self, ↓State.setRegF_blur μ (maskSub rfl hμ), ↓State.katEnd_blur μ (maskSub rfl hμ), ↓State.katPass_blur μ (maskSub rfl hμ), ↓State.satReg_blur μ (maskSub rfl hμ), ↓State.katFail_blur μ (maskSub rfl hμ), ↓State.katHost_blur μ (maskSub rfl hμ)]

theorem State.writeWatchSel_blur (μ : Nat) (hμ : 0x44000012 &&& μ = 0x44000012) : ∀ a0 a1, (State.writeWatchSel a0 a1).1.blur μ = a0.blur μ := by
  intros; unfold State.writeWatchSel
  simp only [↓apply_ite (State.blur μ), ite_self, ↓apply_ite Prod.fst, ↓State.setRegF_blur μ (maskSub rfl hμ), ↓State.reject_blur μ (maskSub rfl hμ), ↓State.watchDrop_blur μ (maskSub rfl hμ)]

theorem State.resetHubs_blur (μ : Nat) (hμ : 0x450 &&& μ = 0x450) : ∀ a0 a1 a2, (State.resetHubs a0 a1 a2).blur μ = a0.blur μ := by
  intros; unfold State.resetHubs
  simp only [↓blur_10 μ (maskSub rfl hμ), ↓blur_40 μ (maskSub rfl hμ), ↓blur_400 μ (maskSub rfl hμ), ↓blur_440 μ (maskSub rfl hμ), ↓apply_ite (State.blur μ), ite_self, ↓State.clearRegs_blur μ (maskSub rfl hμ)]

theorem State.cutBoundary_blur (μ : Nat) (hμ : 0x2 &&& μ = 0x2) : ∀ a0 a1 a2 a3, (State.cutBoundary a0 a1 a2 a3).blur μ = a0.blur μ := by
  intros; unfold State.cutBoundary
  simp only [↓blur_2 μ (maskSub rfl hμ)]

theorem State.resetPartition_blur (μ : Nat) (hμ : 0x99c10be &&& μ = 0x99c10be) : ∀ a0 a1, (State.resetPartition a0 a1).blur μ = a0.blur μ := by
  intros; unfold State.resetPartition
  simp only [↓apply_ite (State.blur μ), ite_self, ↓State.hostRollback_blur μ (maskSub rfl hμ), ↓State.dropHold_blur μ (maskSub rfl hμ), ↓State.stopSched_blur μ (maskSub rfl hμ), ↓State.clearStream_blur μ (maskSub rfl hμ), ↓State.modJob_blur μ (maskSub rfl hμ), ↓State.setJobState_blur μ (maskSub rfl hμ), ↓State.setCause_blur μ (maskSub rfl hμ)]

theorem State.resetSlots_blur (μ : Nat) (hμ : 0x99c10be &&& μ = 0x99c10be) : ∀ a0 a1 a2, (State.resetSlots a0 a1 a2).blur μ = a0.blur μ := by
  intros; unfold State.resetSlots
  repeat' first | with_reducible rfl | simp only [↓State.resetPartition_blur μ (maskSub rfl hμ), ↓State.clearStream_blur μ (maskSub rfl hμ)] | split

theorem State.takeCells_blur (μ : Nat) (hμ : 0x4000028 &&& μ = 0x4000028) : ∀ a0 a1 a2 a3, (State.takeCells a0 a1 a2 a3).blur μ = a0.blur μ := by
  intros; unfold State.takeCells
  simp only [↓blur_8 μ (maskSub rfl hμ), ↓blur_20 μ (maskSub rfl hμ), ↓blur_28 μ (maskSub rfl hμ), ↓blur_4000000 μ (maskSub rfl hμ), ↓blur_4000028 μ (maskSub rfl hμ), ↓apply_ite (State.blur μ), ite_self]

theorem State.startReset_blur (μ : Nat) (hμ : 0x1f9e14fe &&& μ = 0x1f9e14fe) : ∀ a0 a1 a2 a3 a4, (State.startReset a0 a1 a2 a3 a4).blur μ = a0.blur μ := by
  intros; unfold State.startReset
  simp only [↓blur_2 μ (maskSub rfl hμ), ↓blur_4 μ (maskSub rfl hμ), ↓blur_8 μ (maskSub rfl hμ), ↓blur_10 μ (maskSub rfl hμ), ↓blur_20 μ (maskSub rfl hμ), ↓blur_28 μ (maskSub rfl hμ), ↓blur_40 μ (maskSub rfl hμ), ↓blur_60 μ (maskSub rfl hμ), ↓blur_68 μ (maskSub rfl hμ), ↓blur_80 μ (maskSub rfl hμ), ↓blur_400 μ (maskSub rfl hμ), ↓blur_440 μ (maskSub rfl hμ), ↓blur_1000 μ (maskSub rfl hμ), ↓blur_20000 μ (maskSub rfl hμ), ↓blur_40000 μ (maskSub rfl hμ), ↓blur_40020 μ (maskSub rfl hμ), ↓blur_80000 μ (maskSub rfl hμ), ↓blur_100000 μ (maskSub rfl hμ), ↓blur_800000 μ (maskSub rfl hμ), ↓blur_1000000 μ (maskSub rfl hμ), ↓blur_2000000 μ (maskSub rfl hμ), ↓blur_4000000 μ (maskSub rfl hμ), ↓blur_4000028 μ (maskSub rfl hμ), ↓blur_8000000 μ (maskSub rfl hμ), ↓blur_10000000 μ (maskSub rfl hμ), ↓blur_10000020 μ (maskSub rfl hμ), ↓apply_ite (State.blur μ), ite_self, ↓State.resetSlots_blur μ (maskSub rfl hμ), ↓State.cutBoundary_blur μ (maskSub rfl hμ), ↓State.resetHubs_blur μ (maskSub rfl hμ), ↓State.takeCells_blur μ (maskSub rfl hμ), ↓State.restartLoad_blur μ (maskSub rfl hμ)]

theorem execReset_blur (μ : Nat) (hμ : 0x1f9e14fe &&& μ = 0x1f9e14fe) : ∀ a0 a1 a2 a3, ∀ t, execReset a0 a1 a2 a3 = .next t → t.blur μ = a3.blur μ := by
  intros a0 a1 a2 a3 t h; unfold execReset at h; cases h
  simp only [↓blur_2 μ (maskSub rfl hμ), ↓blur_4 μ (maskSub rfl hμ), ↓blur_8 μ (maskSub rfl hμ), ↓blur_10 μ (maskSub rfl hμ), ↓blur_20 μ (maskSub rfl hμ), ↓blur_28 μ (maskSub rfl hμ), ↓blur_40 μ (maskSub rfl hμ), ↓blur_60 μ (maskSub rfl hμ), ↓blur_68 μ (maskSub rfl hμ), ↓blur_80 μ (maskSub rfl hμ), ↓blur_400 μ (maskSub rfl hμ), ↓blur_440 μ (maskSub rfl hμ), ↓blur_1000 μ (maskSub rfl hμ), ↓blur_20000 μ (maskSub rfl hμ), ↓blur_40000 μ (maskSub rfl hμ), ↓blur_40020 μ (maskSub rfl hμ), ↓blur_80000 μ (maskSub rfl hμ), ↓blur_100000 μ (maskSub rfl hμ), ↓blur_800000 μ (maskSub rfl hμ), ↓blur_1000000 μ (maskSub rfl hμ), ↓blur_2000000 μ (maskSub rfl hμ), ↓blur_4000000 μ (maskSub rfl hμ), ↓blur_4000028 μ (maskSub rfl hμ), ↓blur_8000000 μ (maskSub rfl hμ), ↓blur_10000000 μ (maskSub rfl hμ), ↓blur_10000020 μ (maskSub rfl hμ), ↓apply_ite (State.blur μ), ite_self, ↓State.deliver_blur μ (maskSub rfl hμ), ↓State.setRegF_blur μ (maskSub rfl hμ), ↓State.startReset_blur μ (maskSub rfl hμ)]

theorem State.endReset_blur (μ : Nat) (hμ : 0x1a04057a &&& μ = 0x1a04057a) : ∀ a0 a1, (State.endReset a0 a1).blur μ = a0.blur μ := by
  intros; unfold State.endReset
  repeat' first | with_reducible rfl | simp only [↓blur_2 μ (maskSub rfl hμ), ↓blur_8 μ (maskSub rfl hμ), ↓blur_10 μ (maskSub rfl hμ), ↓blur_20 μ (maskSub rfl hμ), ↓blur_28 μ (maskSub rfl hμ), ↓blur_40 μ (maskSub rfl hμ), ↓blur_60 μ (maskSub rfl hμ), ↓blur_68 μ (maskSub rfl hμ), ↓blur_100 μ (maskSub rfl hμ), ↓blur_108 μ (maskSub rfl hμ), ↓blur_400 μ (maskSub rfl hμ), ↓blur_440 μ (maskSub rfl hμ), ↓blur_500 μ (maskSub rfl hμ), ↓blur_40000 μ (maskSub rfl hμ), ↓blur_40020 μ (maskSub rfl hμ), ↓blur_2000000 μ (maskSub rfl hμ), ↓blur_8000000 μ (maskSub rfl hμ), ↓blur_10000000 μ (maskSub rfl hμ), ↓blur_10000020 μ (maskSub rfl hμ), ↓apply_ite (State.blur μ), ite_self, ↓State.resetHubs_blur μ (maskSub rfl hμ), ↓State.setLdr_blur μ (maskSub rfl hμ), ↓State.setRegF_blur μ (maskSub rfl hμ), ↓State.regionRestarted_blur μ (maskSub rfl hμ)] | split

theorem execResetQuiet_blur (μ : Nat) (hμ : 0x1a04057a &&& μ = 0x1a04057a) : ∀ a0, ∀ t, execResetQuiet a0 = .next t → t.blur μ = a0.blur μ := by
  intros a0 t h; unfold execResetQuiet at h; cases h
  repeat' first | with_reducible rfl | intro _ | simp only [↓foldl_blur μ, ↓State.endReset_blur μ (maskSub rfl hμ)] | split | refine (foldl_blur μ _ ?_ _ _).trans ?_ | refine (foldl1_blur μ _ ?_ _ _).trans ?_

theorem State.absorbLate_blur (μ : Nat) (hμ : 0xa12 &&& μ = 0xa12) : ∀ a0 a1, (State.absorbLate a0 a1).blur μ = a0.blur μ := by
  intros; unfold State.absorbLate
  repeat' first | with_reducible rfl | simp only [↓apply_ite (State.blur μ), ite_self, ↓State.deliver_blur μ (maskSub rfl hμ), ↓State.modRouter_blur μ (maskSub rfl hμ), ↓State.returnCredit_blur μ (maskSub rfl hμ), ↓State.absorb_blur μ (maskSub rfl hμ), ↓State.satReg_blur μ (maskSub rfl hμ)] | split

theorem execDrainLimitExpiry_blur (μ : Nat) (hμ : 0x10000a32 &&& μ = 0x10000a32) : ∀ a0, ∀ t, execDrainLimitExpiry a0 = .next t → t.blur μ = a0.blur μ := by
  intros a0 t h; unfold execDrainLimitExpiry at h; cases h
  repeat' first | with_reducible rfl | intro _ | simp only [↓blur_2 μ (maskSub rfl hμ), ↓blur_10 μ (maskSub rfl hμ), ↓blur_20 μ (maskSub rfl hμ), ↓blur_200 μ (maskSub rfl hμ), ↓blur_800 μ (maskSub rfl hμ), ↓blur_10000000 μ (maskSub rfl hμ), ↓blur_10000020 μ (maskSub rfl hμ), ↓apply_ite (State.blur μ), ite_self, ↓foldl_blur μ, ↓foldl1_blur μ, ↓State.absorbLate_blur μ (maskSub rfl hμ)] | split | refine (foldl_blur μ _ ?_ _ _).trans ?_ | refine (foldl1_blur μ _ ?_ _ _).trans ?_

theorem State.writeModReset_blur (μ : Nat) (hμ : 0x12 &&& μ = 0x12) (s w) : (State.writeModReset s w).1.blur μ = s.blur μ := by
  unfold State.writeModReset
  dsimp only
  repeat' split
  all_goals simp only [↓State.setRegF_blur μ (maskSub rfl hμ), ↓State.reject_blur μ (maskSub rfl hμ), ↓State.send_blur μ (maskSub rfl hμ)]

theorem State.setAdmitState_blur (μ : Nat) (hμ : 0x10 &&& μ = 0x10) : ∀ a0 a1, (State.setAdmitState a0 a1).blur μ = a0.blur μ := by
  intros; unfold State.setAdmitState
  simp only [↓State.setRegF_blur μ (maskSub rfl hμ)]

theorem State.setAdmitResult_blur (μ : Nat) (hμ : 0x10 &&& μ = 0x10) : ∀ a0 a1, (State.setAdmitResult a0 a1).blur μ = a0.blur μ := by
  intros; unfold State.setAdmitResult
  simp only [↓State.setRegF_blur μ (maskSub rfl hμ)]

theorem State.sendAdmit_blur (μ : Nat) (hμ : 0x101c &&& μ = 0x101c) : ∀ a0 a1, (State.sendAdmit a0 a1).blur μ = a0.blur μ := by
  intros; unfold State.sendAdmit
  simp only [↓State.sendCtrl_blur μ (maskSub rfl hμ)]

theorem State.trainPort_blur (μ : Nat) (hμ : 0x101e &&& μ = 0x101e) : ∀ a0 a1 a2 a3, (State.trainPort a0 a1 a2 a3).blur μ = a0.blur μ := by
  intros; unfold State.trainPort
  simp only [↓apply_ite (State.blur μ), ite_self, ↓State.mapLanes_blur μ (maskSub rfl hμ), ↓State.modSky_blur μ (maskSub rfl hμ), ↓State.setReg_blur μ (maskSub rfl hμ), ↓State.setSky_blur μ (maskSub rfl hμ), ↓State.sendAdmit_blur μ (maskSub rfl hμ)]

theorem execTrainingAttempt_blur (μ : Nat) (hμ : 0x101e &&& μ = 0x101e) : ∀ a0 a1 a2, ∀ t, execTrainingAttempt a0 a1 a2 = .next t → t.blur μ = a2.blur μ := by
  intros a0 a1 a2 t h; unfold execTrainingAttempt at h; cases h
  repeat' first | with_reducible rfl | simp only [↓apply_ite (State.blur μ), ite_self, ↓State.trainPort_blur μ (maskSub rfl hμ)] | split

theorem State.refuseAdmission_blur (μ : Nat) (hμ : 0x3012 &&& μ = 0x3012) : ∀ a0 a1 a2, (State.refuseAdmission a0 a1 a2).blur μ = a0.blur μ := by
  intros; unfold State.refuseAdmission
  repeat' first | with_reducible rfl | intro _ | simp only [↓blur_2 μ (maskSub rfl hμ), ↓blur_10 μ (maskSub rfl hμ), ↓blur_1000 μ (maskSub rfl hμ), ↓blur_2000 μ (maskSub rfl hμ), ↓foldl_blur μ, ↓State.clearPeer_blur μ (maskSub rfl hμ), ↓State.modSky_blur μ (maskSub rfl hμ), ↓State.raise_blur μ (maskSub rfl hμ), ↓State.setAdmitResult_blur μ (maskSub rfl hμ), ↓State.setAdmitState_blur μ (maskSub rfl hμ)] | split | refine (foldl_blur μ _ ?_ _ _).trans ?_ | refine (foldl1_blur μ _ ?_ _ _).trans ?_

theorem State.settleAdmission_blur (μ : Nat) (hμ : 0x1101e &&& μ = 0x1101e) : ∀ a0, (State.settleAdmission a0).blur μ = a0.blur μ := by
  intros; unfold State.settleAdmission
  simp only [↓apply_ite (State.blur μ), ite_self, ↓State.releaseTiles_blur μ (maskSub rfl hμ), ↓State.setAdmitResult_blur μ (maskSub rfl hμ), ↓State.setAdmitState_blur μ (maskSub rfl hμ)]

theorem State.startLeave_blur (μ : Nat) (hμ : 0x301c &&& μ = 0x301c) : ∀ a0, (State.startLeave a0).blur μ = a0.blur μ := by
  intros; unfold State.startLeave
  repeat' first | with_reducible rfl | intro _ | simp only [↓blur_4 μ (maskSub rfl hμ), ↓blur_8 μ (maskSub rfl hμ), ↓blur_10 μ (maskSub rfl hμ), ↓blur_1000 μ (maskSub rfl hμ), ↓blur_2000 μ (maskSub rfl hμ), ↓apply_ite (State.blur μ), ite_self, ↓foldl_blur μ, ↓State.modSky_blur μ (maskSub rfl hμ), ↓State.sendCtrl_blur μ (maskSub rfl hμ)] | split | refine (foldl_blur μ _ ?_ _ _).trans ?_ | refine (foldl1_blur μ _ ?_ _ _).trans ?_

theorem State.leaveTick_blur (μ : Nat) (hμ : 0x3010 &&& μ = 0x3010) : ∀ a0, (State.leaveTick a0).blur μ = a0.blur μ := by
  intros; unfold State.leaveTick
  repeat' first | with_reducible rfl | intro _ | simp only [↓blur_10 μ (maskSub rfl hμ), ↓blur_1000 μ (maskSub rfl hμ), ↓blur_2000 μ (maskSub rfl hμ), ↓apply_ite (State.blur μ), ite_self, ↓foldl_blur μ, ↓State.clearPeer_blur μ (maskSub rfl hμ), ↓State.setSky_blur μ (maskSub rfl hμ), ↓State.setAdmitState_blur μ (maskSub rfl hμ)] | split | refine (foldl_blur μ _ ?_ _ _).trans ?_ | refine (foldl1_blur μ _ ?_ _ _).trans ?_

theorem State.writeSkyAdmit_blur (μ : Nat) (hμ : 0x301c &&& μ = 0x301c) : ∀ a0 a1, (State.writeSkyAdmit a0 a1).1.blur μ = a0.blur μ := by
  intros; unfold State.writeSkyAdmit
  repeat' first | with_reducible rfl | simp only [↓blur_4 μ (maskSub rfl hμ), ↓blur_8 μ (maskSub rfl hμ), ↓blur_10 μ (maskSub rfl hμ), ↓blur_1000 μ (maskSub rfl hμ), ↓blur_2000 μ (maskSub rfl hμ), ↓apply_ite (State.blur μ), ite_self, ↓apply_ite Prod.fst, ↓State.setRegF_blur μ (maskSub rfl hμ), ↓State.startLeave_blur μ (maskSub rfl hμ), ↓State.setAdmitResult_blur μ (maskSub rfl hμ), ↓State.setAdmitState_blur μ (maskSub rfl hμ)] | split

theorem execAdmitReqSend_blur (μ : Nat) (hμ : 0x1301e &&& μ = 0x1301e) : ∀ a0, ∀ t, execAdmitReqSend a0 = .next t → t.blur μ = a0.blur μ := by
  intros a0 t h; unfold execAdmitReqSend at h; cases h
  repeat' first | with_reducible rfl | intro _ | simp only [↓blur_2 μ (maskSub rfl hμ), ↓blur_4 μ (maskSub rfl hμ), ↓blur_8 μ (maskSub rfl hμ), ↓blur_10 μ (maskSub rfl hμ), ↓blur_1000 μ (maskSub rfl hμ), ↓blur_2000 μ (maskSub rfl hμ), ↓blur_10000 μ (maskSub rfl hμ), ↓apply_ite (State.blur μ), ite_self, ↓foldl_blur μ, ↓State.deliver_blur μ (maskSub rfl hμ), ↓State.settleAdmission_blur μ (maskSub rfl hμ), ↓State.sendAdmit_blur μ (maskSub rfl hμ)] | split | refine (foldl_blur μ _ ?_ _ _).trans ?_ | refine (foldl1_blur μ _ ?_ _ _).trans ?_

theorem execAdmitReq_blur (μ : Nat) (hμ : 0x1101e &&& μ = 0x1101e) : ∀ a0 a1 a2 a3, ∀ t, execAdmitReq a0 a1 a2 a3 = .next t → t.blur μ = a3.blur μ := by
  intros a0 a1 a2 a3 t h; unfold execAdmitReq at h; cases h
  repeat' first | with_reducible rfl | simp only [↓apply_ite (State.blur μ), ite_self, ↓State.sendCtrl_blur μ (maskSub rfl hμ), ↓State.drainPort_blur μ (maskSub rfl hμ), ↓State.releaseTiles_blur μ (maskSub rfl hμ), ↓State.setRegF_blur μ (maskSub rfl hμ), ↓State.modSky_blur μ (maskSub rfl hμ)] | split

theorem execAdmitAck_blur (μ : Nat) (hμ : 0x1301e &&& μ = 0x1301e) : ∀ p x s t, execAdmitAck p x s = .next t → t.blur μ = s.blur μ := by
  intro p x s t h
  unfold execAdmitAck at h
  cases h
  dsimp only
  split
  · rfl
  · rw [State.drainPort_blur μ (maskSub rfl hμ), State.releaseTiles_blur μ (maskSub rfl hμ), State.settleAdmission_blur μ (maskSub rfl hμ)]
    refine (blur_2000 μ (maskSub rfl hμ) _ _).trans ?_
    rw [State.setRegF_blur μ (maskSub rfl hμ), State.setSky_blur μ (maskSub rfl hμ)]

theorem execAdmitNak_blur (μ : Nat) (hμ : 0x3012 &&& μ = 0x3012) : ∀ a0 a1 a2, ∀ t, execAdmitNak a0 a1 a2 = .next t → t.blur μ = a2.blur μ := by
  intros a0 a1 a2 t h; unfold execAdmitNak at h; cases h
  simp only [↓apply_ite (State.blur μ), ite_self, ↓State.setRegF_blur μ (maskSub rfl hμ), ↓State.refuseAdmission_blur μ (maskSub rfl hμ)]

theorem execAdmissionTimeout_blur (μ : Nat) (hμ : 0x3012 &&& μ = 0x3012) : ∀ a0, ∀ t, execAdmissionTimeout a0 = .next t → t.blur μ = a0.blur μ := by
  intros a0 t h; unfold execAdmissionTimeout at h; cases h
  repeat' first | with_reducible rfl | simp only [↓apply_ite (State.blur μ), ite_self, ↓State.refuseAdmission_blur μ (maskSub rfl hμ)] | split

theorem execLeave_blur (μ : Nat) (hμ : 0x1101e &&& μ = 0x1101e) : ∀ a0 a1, ∀ t, execLeave a0 a1 = .next t → t.blur μ = a1.blur μ := by
  intros a0 a1 t h; unfold execLeave at h; cases h
  repeat' first | with_reducible rfl | intro _ | simp only [↓apply_ite (State.blur μ), ite_self, ↓foldl_blur μ, ↓State.clearPeer_blur μ (maskSub rfl hμ), ↓State.setSky_blur μ (maskSub rfl hμ), ↓State.sendTile_blur μ (maskSub rfl hμ)] | split | refine (foldl_blur μ _ ?_ _ _).trans ?_ | refine (foldl1_blur μ _ ?_ _ _).trans ?_

theorem State.setRng_blur (μ : Nat) (hμ : 0x20000000 &&& μ = 0x20000000) : ∀ a0 a1, (State.setRng a0 a1).blur μ = a0.blur μ := by
  intros; unfold State.setRng
  simp only [↓blur_20000000 μ (maskSub rfl hμ)]

theorem State.eraseBank_blur (μ : Nat) (hμ : 0x8 &&& μ = 0x8) : ∀ a0, (State.eraseBank a0).2.blur μ = a0.blur μ := by
  intros; unfold State.eraseBank
  simp only [↓State.fresh_blur μ (maskSub rfl hμ)]

theorem State.journalBank_blur (μ : Nat) (hμ : 0x40000002 &&& μ = 0x40000002) : ∀ a0 a1, (State.journalBank a0 a1).blur μ = a0.blur μ := by
  intros; unfold State.journalBank
  simp only [↓State.journal_blur μ (maskSub rfl hμ)]

theorem mboxFail_blur (μ : Nat) (hμ : 0x0 &&& μ = 0x0) : ∀ a0 a1, (mboxFail a0 a1).1.blur μ = a0.blur μ := by
  intros; unfold mboxFail
  repeat' first | with_reducible rfl | skip; fail | split

theorem mboxCert_blur (μ : Nat) (hμ : 0x0 &&& μ = 0x0) : ∀ a0 a1, (mboxCert a0 a1).1.blur μ = a0.blur μ := by
  intros; unfold mboxCert
  simp only [↓apply_ite (State.blur μ), ite_self, ↓apply_ite Prod.fst, ↓mboxFail_blur μ (maskSub rfl hμ)]

theorem mboxAttest_blur (μ : Nat) (hμ : 0x0 &&& μ = 0x0) : ∀ a0 a1, (mboxAttest a0 a1).1.blur μ = a0.blur μ := by
  intros; unfold mboxAttest
  simp only [↓apply_ite (State.blur μ), ite_self, ↓apply_ite Prod.fst, ↓mboxFail_blur μ (maskSub rfl hμ)]

theorem mboxStage_blur (μ : Nat) (hμ : 0x20000008 &&& μ = 0x20000008) : ∀ a0 a1 a2, (mboxStage a0 a1 a2).1.blur μ = a0.blur μ := by
  intros; unfold mboxStage
  repeat' first | with_reducible rfl | simp only [↓apply_ite (State.blur μ), ite_self, ↓apply_ite Prod.fst, ↓mboxFail_blur μ (maskSub rfl hμ), ↓State.eraseBank_blur μ (maskSub rfl hμ), ↓State.setRng_blur μ (maskSub rfl hμ)] | split

theorem execFwStageTimeout_blur (μ : Nat) (hμ : 0x20000000 &&& μ = 0x20000000) : ∀ a0, ∀ t, execFwStageTimeout a0 = .next t → t.blur μ = a0.blur μ := by
  intros a0 t h; unfold execFwStageTimeout at h; cases h
  simp only [↓State.setRng_blur μ (maskSub rfl hμ)]

theorem mboxActivate_blur (μ : Nat) (hμ : 0x60000002 &&& μ = 0x60000002) : ∀ a0 a1, (mboxActivate a0 a1).1.blur μ = a0.blur μ := by
  intros; unfold mboxActivate
  simp only [↓apply_ite (State.blur μ), ite_self, ↓apply_ite Prod.fst, ↓mboxFail_blur μ (maskSub rfl hμ), ↓State.setRng_blur μ (maskSub rfl hμ), ↓State.journalBank_blur μ (maskSub rfl hμ), ↓State.raise_blur μ (maskSub rfl hμ)]

theorem State.journalKey_blur (μ : Nat) (hμ : 0x40000002 &&& μ = 0x40000002) : ∀ a0 a1 a2, (State.journalKey a0 a1 a2).blur μ = a0.blur μ := by
  intros; unfold State.journalKey
  simp only [↓State.journal_blur μ (maskSub rfl hμ)]

theorem mboxOwnerSet_blur (μ : Nat) (hμ : 0x60000002 &&& μ = 0x60000002) : ∀ a0 a1, (mboxOwnerSet a0 a1).1.blur μ = a0.blur μ := by
  intros; unfold mboxOwnerSet
  repeat' first | with_reducible rfl | simp only [↓apply_ite (State.blur μ), ite_self, ↓apply_ite Prod.fst, ↓mboxFail_blur μ (maskSub rfl hμ), ↓State.journalKey_blur μ (maskSub rfl hμ), ↓State.setRng_blur μ (maskSub rfl hμ)] | split

theorem mboxOwnerRevoke_blur (μ : Nat) (hμ : 0x60000002 &&& μ = 0x60000002) : ∀ a0 a1, (mboxOwnerRevoke a0 a1).1.blur μ = a0.blur μ := by
  intros; unfold mboxOwnerRevoke
  repeat' first | with_reducible rfl | simp only [↓apply_ite (State.blur μ), ite_self, ↓apply_ite Prod.fst, ↓mboxFail_blur μ (maskSub rfl hμ), ↓State.journalKey_blur μ (maskSub rfl hμ), ↓State.setRng_blur μ (maskSub rfl hμ)] | split

theorem mboxOwnerRelease_blur (μ : Nat) (hμ : 0x60000002 &&& μ = 0x60000002) : ∀ a0 a1, (mboxOwnerRelease a0 a1).1.blur μ = a0.blur μ := by
  intros; unfold mboxOwnerRelease
  repeat' first | with_reducible rfl | intro _ | simp only [↓apply_ite (State.blur μ), ite_self, ↓apply_ite Prod.fst, ↓foldl_blur μ, ↓foldl1_blur μ, ↓mboxFail_blur μ (maskSub rfl hμ), ↓State.journalKey_blur μ (maskSub rfl hμ), ↓State.setRng_blur μ (maskSub rfl hμ)] | split | refine (foldl_blur μ _ ?_ _ _).trans ?_ | refine (foldl1_blur μ _ ?_ _ _).trans ?_

theorem State.journalLicence_blur (μ : Nat) (hμ : 0x40000002 &&& μ = 0x40000002) : ∀ a0 a1, (State.journalLicence a0 a1).blur μ = a0.blur μ := by
  intros; unfold State.journalLicence
  simp only [↓State.journal_blur μ (maskSub rfl hμ)]

theorem mboxLicence_blur (μ : Nat) (hμ : 0x60000002 &&& μ = 0x60000002) : ∀ a0 a1, (mboxLicence a0 a1).1.blur μ = a0.blur μ := by
  intros; unfold mboxLicence
  repeat' first | with_reducible rfl | simp only [↓apply_ite (State.blur μ), ite_self, ↓apply_ite Prod.fst, ↓mboxFail_blur μ (maskSub rfl hμ), ↓State.journalLicence_blur μ (maskSub rfl hμ), ↓State.setRng_blur μ (maskSub rfl hμ)] | split

theorem mboxLicenceGet_blur (μ : Nat) (hμ : 0x0 &&& μ = 0x0) : ∀ a0 a1, (mboxLicenceGet a0 a1).1.blur μ = a0.blur μ := by
  intros; unfold mboxLicenceGet
  repeat' first | with_reducible rfl | simp only [↓apply_ite (State.blur μ), ite_self, ↓apply_ite Prod.fst, ↓mboxFail_blur μ (maskSub rfl hμ)] | split

theorem execLicenceExpiry_blur (μ : Nat) (hμ : 0x60000002 &&& μ = 0x60000002) : ∀ a0, ∀ t, execLicenceExpiry a0 = .next t → t.blur μ = a0.blur μ := by
  intros a0 t h; unfold execLicenceExpiry at h; cases h
  repeat' first | with_reducible rfl | simp only [↓apply_ite (State.blur μ), ite_self, ↓State.journalLicence_blur μ (maskSub rfl hμ), ↓State.raise_blur μ (maskSub rfl hμ), ↓State.setRng_blur μ (maskSub rfl hμ)] | split

theorem mboxRevoke_blur (μ : Nat) (hμ : 0x60000002 &&& μ = 0x60000002) : ∀ a0 a1, (mboxRevoke a0 a1).1.blur μ = a0.blur μ := by
  intros; unfold mboxRevoke
  repeat' first | with_reducible rfl | simp only [↓apply_ite (State.blur μ), ite_self, ↓apply_ite Prod.fst, ↓mboxFail_blur μ (maskSub rfl hμ), ↓State.journalKey_blur μ (maskSub rfl hμ), ↓State.setRng_blur μ (maskSub rfl hμ)] | split

theorem mboxRun_blur (μ : Nat) (hμ : 0x6000000a &&& μ = 0x6000000a) : ∀ a0 a1 a2 a3, (mboxRun a0 a1 a2 a3).1.blur μ = a0.blur μ := by
  intros; unfold mboxRun
  repeat' first | with_reducible rfl | simp only [↓mboxCert_blur μ (maskSub rfl hμ), ↓mboxAttest_blur μ (maskSub rfl hμ), ↓mboxStage_blur μ (maskSub rfl hμ), ↓mboxActivate_blur μ (maskSub rfl hμ), ↓mboxOwnerSet_blur μ (maskSub rfl hμ), ↓mboxOwnerRevoke_blur μ (maskSub rfl hμ), ↓mboxOwnerRelease_blur μ (maskSub rfl hμ), ↓mboxLicence_blur μ (maskSub rfl hμ), ↓mboxLicenceGet_blur μ (maskSub rfl hμ), ↓mboxRevoke_blur μ (maskSub rfl hμ), ↓mboxFail_blur μ (maskSub rfl hμ)] | split

theorem State.mailboxRun_blur (μ : Nat) (hμ : 0x6020001e &&& μ = 0x6020001e) : ∀ a0 a1 a2, (State.mailboxRun a0 a1 a2).blur μ = a0.blur μ := by
  intros; unfold State.mailboxRun
  repeat' first | with_reducible rfl | simp only [↓apply_ite (State.blur μ), ite_self, ↓State.answerNotReady_blur μ (maskSub rfl hμ), ↓mboxRun_blur μ (maskSub rfl hμ), ↓mboxFail_blur μ (maskSub rfl hμ), ↓State.setRegF_blur μ (maskSub rfl hμ), ↓State.finish_blur μ (maskSub rfl hμ)] | split

theorem State.mailbox_blur (μ : Nat) (hμ : 0x6020001e &&& μ = 0x6020001e) : ∀ a0 a1 a2, (State.mailbox a0 a1 a2).blur μ = a0.blur μ := by
  intros; unfold State.mailbox
  repeat' first | with_reducible rfl | simp only [↓apply_ite (State.blur μ), ite_self, ↓State.mailboxRun_blur μ (maskSub rfl hμ)] | refine (State.kctFront_done_blur μ (maskSub rfl hμ) (by assumption)).trans ?_ | refine (State.kctFront_run_blur μ (maskSub rfl hμ) (by assumption)).trans ?_ | split

theorem State.mailboxRow_blur (μ : Nat) (hμ : 0x6020001e &&& μ = 0x6020001e) : ∀ a0 a1 a2, (State.mailboxRow a0 a1 a2).blur μ = a0.blur μ := by
  intros; unfold State.mailboxRow
  simp only [↓apply_ite (State.blur μ), ite_self, ↓State.mailbox_blur μ (maskSub rfl hμ)]

theorem execGetCert_blur (μ : Nat) (hμ : 0x6020001e &&& μ = 0x6020001e) : ∀ a0 a1, ∀ t, execGetCert a0 a1 = .next t → t.blur μ = a1.blur μ := by
  intros a0 a1 t h; unfold execGetCert at h; cases h
  simp only [↓State.mailboxRow_blur μ (maskSub rfl hμ)]

theorem execAttest_blur (μ : Nat) (hμ : 0x6020001e &&& μ = 0x6020001e) : ∀ a0 a1, ∀ t, execAttest a0 a1 = .next t → t.blur μ = a1.blur μ := by
  intros a0 a1 t h; unfold execAttest at h; cases h
  simp only [↓State.mailboxRow_blur μ (maskSub rfl hμ)]

theorem execFwStage_blur (μ : Nat) (hμ : 0x6020001e &&& μ = 0x6020001e) : ∀ a0 a1, ∀ t, execFwStage a0 a1 = .next t → t.blur μ = a1.blur μ := by
  intros a0 a1 t h; unfold execFwStage at h; cases h
  simp only [↓State.mailboxRow_blur μ (maskSub rfl hμ)]

theorem execFwActivate_blur (μ : Nat) (hμ : 0x6020001e &&& μ = 0x6020001e) : ∀ a0 a1, ∀ t, execFwActivate a0 a1 = .next t → t.blur μ = a1.blur μ := by
  intros a0 a1 t h; unfold execFwActivate at h; cases h
  simp only [↓State.mailboxRow_blur μ (maskSub rfl hμ)]

theorem execOwnerSet_blur (μ : Nat) (hμ : 0x6020001e &&& μ = 0x6020001e) : ∀ a0 a1, ∀ t, execOwnerSet a0 a1 = .next t → t.blur μ = a1.blur μ := by
  intros a0 a1 t h; unfold execOwnerSet at h; cases h
  simp only [↓State.mailboxRow_blur μ (maskSub rfl hμ)]

theorem execOwnerRevoke_blur (μ : Nat) (hμ : 0x6020001e &&& μ = 0x6020001e) : ∀ a0 a1, ∀ t, execOwnerRevoke a0 a1 = .next t → t.blur μ = a1.blur μ := by
  intros a0 a1 t h; unfold execOwnerRevoke at h; cases h
  simp only [↓State.mailboxRow_blur μ (maskSub rfl hμ)]

theorem execOwnerRelease_blur (μ : Nat) (hμ : 0x6020001e &&& μ = 0x6020001e) : ∀ a0 a1, ∀ t, execOwnerRelease a0 a1 = .next t → t.blur μ = a1.blur μ := by
  intros a0 a1 t h; unfold execOwnerRelease at h; cases h
  simp only [↓State.mailboxRow_blur μ (maskSub rfl hμ)]

theorem execLicenceInstall_blur (μ : Nat) (hμ : 0x6020001e &&& μ = 0x6020001e) : ∀ a0 a1, ∀ t, execLicenceInstall a0 a1 = .next t → t.blur μ = a1.blur μ := by
  intros a0 a1 t h; unfold execLicenceInstall at h; cases h
  simp only [↓State.mailboxRow_blur μ (maskSub rfl hμ)]

theorem execLicenceGet_blur (μ : Nat) (hμ : 0x6020001e &&& μ = 0x6020001e) : ∀ a0 a1, ∀ t, execLicenceGet a0 a1 = .next t → t.blur μ = a1.blur μ := by
  intros a0 a1 t h; unfold execLicenceGet at h; cases h
  simp only [↓State.mailboxRow_blur μ (maskSub rfl hμ)]

theorem execRevokeRelease_blur (μ : Nat) (hμ : 0x6020001e &&& μ = 0x6020001e) : ∀ a0 a1, ∀ t, execRevokeRelease a0 a1 = .next t → t.blur μ = a1.blur μ := by
  intros a0 a1 t h; unfold execRevokeRelease at h; cases h
  simp only [↓State.mailboxRow_blur μ (maskSub rfl hμ)]

theorem State.setBoot_blur (μ : Nat) (hμ : 0x400000 &&& μ = 0x400000) : ∀ a0 a1, (State.setBoot a0 a1).blur μ = a0.blur μ := by
  intros; unfold State.setBoot
  simp only [↓blur_400000 μ (maskSub rfl hμ)]

theorem State.setStage_blur (μ : Nat) (hμ : 0x400000 &&& μ = 0x400000) : ∀ a0 a1, (State.setStage a0 a1).blur μ = a0.blur μ := by
  intros; unfold State.setStage
  simp only [↓State.setBoot_blur μ (maskSub rfl hμ)]

theorem State.setInput_blur (μ : Nat) (hμ : 0x400000 &&& μ = 0x400000) : ∀ a0 a1, (State.setInput a0 a1).blur μ = a0.blur μ := by
  intros; unfold State.setInput
  simp only [↓State.setBoot_blur μ (maskSub rfl hμ)]

theorem State.moduleClear_blur (μ : Nat) (hμ : 0x9fbffefa &&& μ = 0x9fbffefa) : ∀ a0, (State.moduleClear a0).blur μ = a0.blur μ := by
  intros; unfold State.moduleClear
  simp only [↓blur_2 μ (maskSub rfl hμ), ↓blur_8 μ (maskSub rfl hμ), ↓blur_10 μ (maskSub rfl hμ), ↓blur_20 μ (maskSub rfl hμ), ↓blur_28 μ (maskSub rfl hμ), ↓blur_40 μ (maskSub rfl hμ), ↓blur_60 μ (maskSub rfl hμ), ↓blur_68 μ (maskSub rfl hμ), ↓blur_80 μ (maskSub rfl hμ), ↓blur_200 μ (maskSub rfl hμ), ↓blur_400 μ (maskSub rfl hμ), ↓blur_440 μ (maskSub rfl hμ), ↓blur_800 μ (maskSub rfl hμ), ↓blur_1000 μ (maskSub rfl hμ), ↓blur_2000 μ (maskSub rfl hμ), ↓blur_4668 μ (maskSub rfl hμ), ↓blur_10000 μ (maskSub rfl hμ), ↓blur_20000 μ (maskSub rfl hμ), ↓blur_40000 μ (maskSub rfl hμ), ↓blur_40020 μ (maskSub rfl hμ), ↓blur_80000 μ (maskSub rfl hμ), ↓blur_100000 μ (maskSub rfl hμ), ↓blur_200000 μ (maskSub rfl hμ), ↓blur_800000 μ (maskSub rfl hμ), ↓blur_1000000 μ (maskSub rfl hμ), ↓blur_2000000 μ (maskSub rfl hμ), ↓blur_4000000 μ (maskSub rfl hμ), ↓blur_4000028 μ (maskSub rfl hμ), ↓blur_8000000 μ (maskSub rfl hμ), ↓blur_10000000 μ (maskSub rfl hμ), ↓blur_10000020 μ (maskSub rfl hμ), ↓blur_14009e6a μ (maskSub rfl hμ), ↓blur_80000000 μ (maskSub rfl hμ), ↓blur_9fbffefa μ (maskSub rfl hμ), ↓State.loseT0Cells_blur μ (maskSub rfl hμ)]

theorem State.bootFrom_blur (μ : Nat) (hμ : 0x9ffffefa &&& μ = 0x9ffffefa) : ∀ a0 a1 a2, (State.bootFrom a0 a1 a2).blur μ = a0.blur μ := by
  intros; unfold State.bootFrom
  simp only [↓State.setRegF_blur μ (maskSub rfl hμ), ↓State.setBoot_blur μ (maskSub rfl hμ), ↓State.moduleClear_blur μ (maskSub rfl hμ)]

theorem State.railsOff_blur (μ : Nat) (hμ : 0x9ffffefa &&& μ = 0x9ffffefa) : ∀ a0, (State.railsOff a0).blur μ = a0.blur μ := by
  intros; unfold State.railsOff
  simp only [↓blur_2 μ (maskSub rfl hμ), ↓blur_8 μ (maskSub rfl hμ), ↓blur_10 μ (maskSub rfl hμ), ↓blur_20 μ (maskSub rfl hμ), ↓blur_28 μ (maskSub rfl hμ), ↓blur_40 μ (maskSub rfl hμ), ↓blur_60 μ (maskSub rfl hμ), ↓blur_68 μ (maskSub rfl hμ), ↓blur_80 μ (maskSub rfl hμ), ↓blur_200 μ (maskSub rfl hμ), ↓blur_400 μ (maskSub rfl hμ), ↓blur_440 μ (maskSub rfl hμ), ↓blur_800 μ (maskSub rfl hμ), ↓blur_1000 μ (maskSub rfl hμ), ↓blur_2000 μ (maskSub rfl hμ), ↓blur_4668 μ (maskSub rfl hμ), ↓blur_10000 μ (maskSub rfl hμ), ↓blur_20000 μ (maskSub rfl hμ), ↓blur_40000 μ (maskSub rfl hμ), ↓blur_40020 μ (maskSub rfl hμ), ↓blur_80000 μ (maskSub rfl hμ), ↓blur_100000 μ (maskSub rfl hμ), ↓blur_200000 μ (maskSub rfl hμ), ↓blur_400000 μ (maskSub rfl hμ), ↓blur_400008 μ (maskSub rfl hμ), ↓blur_800000 μ (maskSub rfl hμ), ↓blur_1000000 μ (maskSub rfl hμ), ↓blur_2000000 μ (maskSub rfl hμ), ↓blur_4000000 μ (maskSub rfl hμ), ↓blur_4000028 μ (maskSub rfl hμ), ↓blur_8000000 μ (maskSub rfl hμ), ↓blur_10000000 μ (maskSub rfl hμ), ↓blur_10000020 μ (maskSub rfl hμ), ↓blur_14009e6a μ (maskSub rfl hμ), ↓blur_80000000 μ (maskSub rfl hμ), ↓blur_9fbffefa μ (maskSub rfl hμ), ↓State.setBoot_blur μ (maskSub rfl hμ), ↓State.moduleClear_blur μ (maskSub rfl hμ)]

theorem State.rangerStart_blur (μ : Nat) (hμ : 0xbffffefa &&& μ = 0xbffffefa) : ∀ a0 a1, (State.rangerStart a0 a1).blur μ = a0.blur μ := by
  intros; unfold State.rangerStart
  simp only [↓apply_ite (State.blur μ), ite_self, ↓State.eraseBank_blur μ (maskSub rfl hμ), ↓State.setRng_blur μ (maskSub rfl hμ), ↓State.bootFrom_blur μ (maskSub rfl hμ)]

theorem State.mapRegion_blur (μ : Nat) (hμ : 0x500 &&& μ = 0x500) : ∀ a0 a1 a2, (State.mapRegion a0 a1 a2).blur μ = a0.blur μ := by
  intros; unfold State.mapRegion
  simp only [↓blur_100 μ (maskSub rfl hμ), ↓blur_400 μ (maskSub rfl hμ), ↓blur_500 μ (maskSub rfl hμ), ↓foldl_blur μ, ↓foldl1_blur μ]

theorem State.disagree_blur (μ : Nat) (hμ : 0x40000002 &&& μ = 0x40000002) : ∀ a0 a1 a2 a3, (State.disagree a0 a1 a2 a3).blur μ = a0.blur μ := by
  intros; unfold State.disagree
  simp only [↓State.journal_blur μ (maskSub rfl hμ), ↓State.raise_blur μ (maskSub rfl hμ)]

theorem State.reconcile_blur (μ : Nat) (hμ : 0x40000002 &&& μ = 0x40000002) : ∀ a0 a1 a2, (State.reconcile a0 a1 a2).blur μ = a0.blur μ := by
  intros; unfold State.reconcile
  repeat' first | with_reducible rfl | intro _ | simp only [↓foldl_blur μ, ↓foldl1_blur μ, ↓State.disagree_blur μ (maskSub rfl hμ)] | split | refine (foldl_blur μ _ ?_ _ _).trans ?_ | refine (foldl1_blur μ _ ?_ _ _).trans ?_

theorem State.raiseHoles_blur (μ : Nat) (hμ : 0x2 &&& μ = 0x2) : ∀ a0 a1 a2, (State.raiseHoles a0 a1 a2).blur μ = a0.blur μ := by
  intros; unfold State.raiseHoles
  repeat' first | with_reducible rfl | intro _ | simp only [↓foldl_blur μ, ↓State.raise_blur μ (maskSub rfl hμ)] | split | refine (foldl_blur μ _ ?_ _ _).trans ?_ | refine (foldl1_blur μ _ ?_ _ _).trans ?_

theorem State.raiseC6_blur (μ : Nat) (hμ : 0x2 &&& μ = 0x2) : ∀ a0 a1 a2, (State.raiseC6 a0 a1 a2).blur μ = a0.blur μ := by
  intros; unfold State.raiseC6
  repeat' first | with_reducible rfl | intro _ | simp only [↓foldl_blur μ, ↓State.raiseCell_blur μ (maskSub rfl hμ), ↓State.raiseRgn_blur μ (maskSub rfl hμ)] | split | refine (foldl_blur μ _ ?_ _ _).trans ?_ | refine (foldl1_blur μ _ ?_ _ _).trans ?_

theorem State.setCruise_blur (μ : Nat) (hμ : 0x10 &&& μ = 0x10) : ∀ a0 a1 a2 a3 a4, (State.setCruise a0 a1 a2 a3 a4).blur μ = a0.blur μ := by
  intros; unfold State.setCruise
  simp only [↓apply_ite (State.blur μ), ite_self, ↓State.setReg_blur μ (maskSub rfl hμ)]

theorem State.cruisePhase_blur (μ : Nat) (hμ : 0x8 &&& μ = 0x8) : ∀ a0 a1 a2, (State.cruisePhase a0 a1 a2).2.blur μ = a0.blur μ := by
  intros; unfold State.cruisePhase
  repeat' first | with_reducible rfl | simp only [↓apply_ite (State.blur μ), ite_self, ↓apply_ite Prod.fst, ↓State.fresh_blur μ (maskSub rfl hμ)] | split

theorem State.cruise_blur (μ : Nat) (hμ : 0x4042051a &&& μ = 0x4042051a) : ∀ a0 a1, (State.cruise a0 a1).blur μ = a0.blur μ := by
  intros; unfold State.cruise
  repeat' first | with_reducible rfl | intro _ | simp only [↓foldl_blur μ, ↓foldl1_blur μ, ↓State.sizeStacks_blur μ (maskSub rfl hμ), ↓State.setReg_blur μ (maskSub rfl hμ), ↓State.reconcile_blur μ (maskSub rfl hμ), ↓State.disagree_blur μ (maskSub rfl hμ), ↓State.raiseHoles_blur μ (maskSub rfl hμ), ↓State.cruisePhase_blur μ (maskSub rfl hμ), ↓State.setCruise_blur μ (maskSub rfl hμ), ↓State.mapRegion_blur μ (maskSub rfl hμ), ↓State.raiseC6_blur μ (maskSub rfl hμ), ↓State.setBoot_blur μ (maskSub rfl hμ)] | split | refine (foldl_blur μ _ ?_ _ _).trans ?_ | refine (foldl1_blur μ _ ?_ _ _).trans ?_

theorem execRegionCruise_blur (μ : Nat) (hμ : 0x48000572 &&& μ = 0x48000572) : ∀ a0 a1 a2 a3, ∀ t, execRegionCruise a0 a1 a2 a3 = .next t → t.blur μ = a3.blur μ := by
  intros a0 a1 a2 a3 t h; unfold execRegionCruise at h; cases h
  repeat' first | with_reducible rfl | intro _ | simp only [↓apply_ite (State.blur μ), ite_self, ↓foldl_blur μ, ↓State.raiseHoles_blur μ (maskSub rfl hμ), ↓State.reconcile_blur μ (maskSub rfl hμ), ↓State.raiseC6_blur μ (maskSub rfl hμ), ↓State.setCruise_blur μ (maskSub rfl hμ), ↓State.mapRegion_blur μ (maskSub rfl hμ), ↓State.lostReturned_blur μ (maskSub rfl hμ)] | split | refine (foldl_blur μ _ ?_ _ _).trans ?_ | refine (foldl1_blur μ _ ?_ _ _).trans ?_

theorem State.endRangerStage_blur (μ : Nat) (hμ : 0x6040001a &&& μ = 0x6040001a) : ∀ a0 a1, (State.endRangerStage a0 a1).blur μ = a0.blur μ := by
  intros; unfold State.endRangerStage
  repeat' first | with_reducible rfl | simp only [↓blur_2 μ (maskSub rfl hμ), ↓blur_8 μ (maskSub rfl hμ), ↓blur_10 μ (maskSub rfl hμ), ↓blur_400000 μ (maskSub rfl hμ), ↓blur_400008 μ (maskSub rfl hμ), ↓blur_20000000 μ (maskSub rfl hμ), ↓blur_40000000 μ (maskSub rfl hμ), ↓apply_ite (State.blur μ), ite_self, ↓State.raise_blur μ (maskSub rfl hμ), ↓State.setRegF_blur μ (maskSub rfl hμ), ↓State.setStage_blur μ (maskSub rfl hμ), ↓State.setRng_blur μ (maskSub rfl hμ), ↓State.journal_blur μ (maskSub rfl hμ), ↓State.alarm_blur μ (maskSub rfl hμ)] | split

theorem State.endMemories_blur (μ : Nat) (hμ : 0x46001a &&& μ = 0x46001a) : ∀ a0 a1, (State.endMemories a0 a1).blur μ = a0.blur μ := by
  intros; unfold State.endMemories
  simp only [↓State.setStage_blur μ (maskSub rfl hμ), ↓State.sizeFar_blur μ (maskSub rfl hμ), ↓State.sizeBoard_blur μ (maskSub rfl hμ), ↓State.sizeStacks_blur μ (maskSub rfl hμ)]

theorem State.endLinks_blur (μ : Nat) (hμ : 0x40101e &&& μ = 0x40101e) : ∀ a0 a1, (State.endLinks a0 a1).blur μ = a0.blur μ := by
  intros; unfold State.endLinks
  repeat' first | with_reducible rfl | intro _ | simp only [↓foldl_blur μ, ↓foldl1_blur μ, ↓State.setStage_blur μ (maskSub rfl hμ), ↓State.trainPort_blur μ (maskSub rfl hμ)] | split | refine (foldl_blur μ _ ?_ _ _).trans ?_ | refine (foldl1_blur μ _ ?_ _ _).trans ?_

theorem State.raiseCounter_blur (μ : Nat) (hμ : 0x60000002 &&& μ = 0x60000002) : ∀ a0, (State.raiseCounter a0).blur μ = a0.blur μ := by
  intros; unfold State.raiseCounter
  repeat' first | with_reducible rfl | simp only [↓apply_ite (State.blur μ), ite_self, ↓State.journalBank_blur μ (maskSub rfl hμ), ↓State.setRng_blur μ (maskSub rfl hμ)] | split

theorem State.bootDone_blur (μ : Nat) (hμ : 0x40400012 &&& μ = 0x40400012) : ∀ a0, (State.bootDone a0).blur μ = a0.blur μ := by
  intros; unfold State.bootDone
  repeat' first | with_reducible rfl | simp only [↓apply_ite (State.blur μ), ite_self, ↓State.setStage_blur μ (maskSub rfl hμ), ↓State.setRegF_blur μ (maskSub rfl hμ), ↓State.journal_blur μ (maskSub rfl hμ)] | split

theorem State.endBoot_blur (μ : Nat) (hμ : 0x60400012 &&& μ = 0x60400012) : ∀ a0, (State.endBoot a0).blur μ = a0.blur μ := by
  intros; unfold State.endBoot
  repeat' first | with_reducible rfl | simp only [↓State.raiseCounter_blur μ (maskSub rfl hμ), ↓State.bootDone_blur μ (maskSub rfl hμ)] | split

theorem execBootStageComplete_blur (μ : Nat) (hμ : 0x6046151e &&& μ = 0x6046151e) : ∀ a0 a1, ∀ t, execBootStageComplete a0 a1 = .next t → t.blur μ = a1.blur μ := by
  intros a0 a1 t h; unfold execBootStageComplete at h; cases h
  simp only [↓apply_ite (State.blur μ), ite_self, ↓State.setBoot_blur μ (maskSub rfl hμ), ↓State.endRangerStage_blur μ (maskSub rfl hμ), ↓State.setStage_blur μ (maskSub rfl hμ), ↓State.endMemories_blur μ (maskSub rfl hμ), ↓State.endLinks_blur μ (maskSub rfl hμ), ↓State.endBoot_blur μ (maskSub rfl hμ), ↓State.cruise_blur μ (maskSub rfl hμ)]

theorem State.precharge_blur (μ : Nat) (hμ : 0x400000 &&& μ = 0x400000) : ∀ a0, (State.precharge a0).blur μ = a0.blur μ := by
  intros; unfold State.precharge
  simp only [↓apply_ite (State.blur μ), ite_self, ↓State.setInput_blur μ (maskSub rfl hμ)]

theorem execPowerContactsMated_blur (μ : Nat) (hμ : 0x40400000 &&& μ = 0x40400000) : ∀ a0, ∀ t, execPowerContactsMated a0 = .next t → t.blur μ = a0.blur μ := by
  intros a0 t h; unfold execPowerContactsMated at h; cases h
  repeat' first | with_reducible rfl | simp only [↓apply_ite (State.blur μ), ite_self, ↓State.setBook_blur μ (maskSub rfl hμ), ↓State.precharge_blur μ (maskSub rfl hμ), ↓State.setBoot_blur μ (maskSub rfl hμ)] | split

theorem execPrechargeComplete_blur (μ : Nat) (hμ : 0x400000 &&& μ = 0x400000) : ∀ a0, ∀ t, execPrechargeComplete a0 = .next t → t.blur μ = a0.blur μ := by
  intros a0 t h; unfold execPrechargeComplete at h; cases h
  simp only [↓apply_ite (State.blur μ), ite_self, ↓State.setBoot_blur μ (maskSub rfl hμ)]

theorem execBusBelow700V_blur (μ : Nat) (hμ : 0x400000 &&& μ = 0x400000) : ∀ a0, ∀ t, execBusBelow700V a0 = .next t → t.blur μ = a0.blur μ := by
  intros a0 t h; unfold execBusBelow700V at h; cases h
  simp only [↓apply_ite (State.blur μ), ite_self, ↓State.setBoot_blur μ (maskSub rfl hμ), ↓State.setInput_blur μ (maskSub rfl hμ)]

theorem execBusRestored_blur (μ : Nat) (hμ : 0x400000 &&& μ = 0x400000) : ∀ a0, ∀ t, execBusRestored a0 = .next t → t.blur μ = a0.blur μ := by
  intros a0 t h; unfold execBusRestored at h; cases h
  simp only [↓apply_ite (State.blur μ), ite_self, ↓State.precharge_blur μ (maskSub rfl hμ), ↓State.setBoot_blur μ (maskSub rfl hμ)]

theorem execPresentLoopChange_blur (μ : Nat) (hμ : 0x400000 &&& μ = 0x400000) : ∀ a0 a1, ∀ t, execPresentLoopChange a0 a1 = .next t → t.blur μ = a1.blur μ := by
  intros a0 a1 t h; unfold execPresentLoopChange at h; cases h
  simp only [↓State.setBoot_blur μ (maskSub rfl hμ)]

theorem execMatedOpen_blur (μ : Nat) (hμ : 0xdffffefa &&& μ = 0xdffffefa) : ∀ a0, ∀ t, execMatedOpen a0 = .next t → t.blur μ = a0.blur μ := by
  intros a0 t h; unfold execMatedOpen at h; cases h
  repeat' first | with_reducible rfl | intro _ | simp only [↓apply_ite (State.blur μ), ite_self, ↓foldl_blur μ, ↓State.journal_blur μ (maskSub rfl hμ), ↓State.record_blur μ (maskSub rfl hμ), ↓State.railsOff_blur μ (maskSub rfl hμ), ↓State.flushLife_blur μ (maskSub rfl hμ), ↓State.setRegF_blur μ (maskSub rfl hμ), ↓State.setBoot_blur μ (maskSub rfl hμ)] | split | refine (foldl_blur μ _ ?_ _ _).trans ?_ | refine (foldl1_blur μ _ ?_ _ _).trans ?_

theorem execInputOvervoltage_blur (μ : Nat) (hμ : 0xdffffefa &&& μ = 0xdffffefa) : ∀ a0, ∀ t, execInputOvervoltage a0 = .next t → t.blur μ = a0.blur μ := by
  intros a0 t h; unfold execInputOvervoltage at h; cases h
  simp only [↓apply_ite (State.blur μ), ite_self, ↓State.railsOff_blur μ (maskSub rfl hμ), ↓State.flushLife_blur μ (maskSub rfl hμ), ↓State.raise_blur μ (maskSub rfl hμ), ↓State.alarm_blur μ (maskSub rfl hμ), ↓State.setRegF_blur μ (maskSub rfl hμ), ↓State.setInput_blur μ (maskSub rfl hμ)]

theorem execInputReclose_blur (μ : Nat) (hμ : 0x400000 &&& μ = 0x400000) : ∀ a0, ∀ t, execInputReclose a0 = .next t → t.blur μ = a0.blur μ := by
  intros a0 t h; unfold execInputReclose at h; cases h
  simp only [↓State.precharge_blur μ (maskSub rfl hμ)]

theorem execStandbyPowerLoss_blur (μ : Nat) (hμ : 0xfffffefa &&& μ = 0xfffffefa) : ∀ a0, ∀ t, execStandbyPowerLoss a0 = .next t → t.blur μ = a0.blur μ := by
  intros a0 t h; unfold execStandbyPowerLoss at h; cases h
  simp only [↓blur_2 μ (maskSub rfl hμ), ↓blur_8 μ (maskSub rfl hμ), ↓blur_10 μ (maskSub rfl hμ), ↓blur_20 μ (maskSub rfl hμ), ↓blur_28 μ (maskSub rfl hμ), ↓blur_40 μ (maskSub rfl hμ), ↓blur_60 μ (maskSub rfl hμ), ↓blur_68 μ (maskSub rfl hμ), ↓blur_80 μ (maskSub rfl hμ), ↓blur_200 μ (maskSub rfl hμ), ↓blur_400 μ (maskSub rfl hμ), ↓blur_440 μ (maskSub rfl hμ), ↓blur_800 μ (maskSub rfl hμ), ↓blur_1000 μ (maskSub rfl hμ), ↓blur_2000 μ (maskSub rfl hμ), ↓blur_4668 μ (maskSub rfl hμ), ↓blur_10000 μ (maskSub rfl hμ), ↓blur_20000 μ (maskSub rfl hμ), ↓blur_40000 μ (maskSub rfl hμ), ↓blur_40020 μ (maskSub rfl hμ), ↓blur_80000 μ (maskSub rfl hμ), ↓blur_100000 μ (maskSub rfl hμ), ↓blur_200000 μ (maskSub rfl hμ), ↓blur_400000 μ (maskSub rfl hμ), ↓blur_400008 μ (maskSub rfl hμ), ↓blur_800000 μ (maskSub rfl hμ), ↓blur_1000000 μ (maskSub rfl hμ), ↓blur_2000000 μ (maskSub rfl hμ), ↓blur_4000000 μ (maskSub rfl hμ), ↓blur_4000028 μ (maskSub rfl hμ), ↓blur_8000000 μ (maskSub rfl hμ), ↓blur_10000000 μ (maskSub rfl hμ), ↓blur_10000020 μ (maskSub rfl hμ), ↓blur_14009e6a μ (maskSub rfl hμ), ↓blur_20000000 μ (maskSub rfl hμ), ↓blur_40000000 μ (maskSub rfl hμ), ↓blur_65800012 μ (maskSub rfl hμ), ↓blur_80000000 μ (maskSub rfl hμ), ↓blur_9fbffefa μ (maskSub rfl hμ), ↓apply_ite (State.blur μ), ite_self, ↓State.railsOff_blur μ (maskSub rfl hμ), ↓State.flushLife_blur μ (maskSub rfl hμ), ↓State.setReg_blur μ (maskSub rfl hμ)]

theorem State.writeRetire_blur (μ : Nat) (hμ : 0x40000012 &&& μ = 0x40000012) : ∀ a0 a1, (State.writeRetire a0 a1).blur μ = a0.blur μ := by
  intros; unfold State.writeRetire
  repeat' first | with_reducible rfl | intro _ | simp only [↓apply_ite (State.blur μ), ite_self, ↓foldl_blur μ, ↓foldl1_blur μ, ↓State.setRegF_blur μ (maskSub rfl hμ), ↓State.flushLife_blur μ (maskSub rfl hμ), ↓State.drainJob_blur μ (maskSub rfl hμ)] | split | refine (foldl_blur μ _ ?_ _ _).trans ?_ | refine (foldl1_blur μ _ ?_ _ _).trans ?_

theorem State.retireTick_blur (μ : Nat) (hμ : 0x301c &&& μ = 0x301c) : ∀ a0, (State.retireTick a0).blur μ = a0.blur μ := by
  intros; unfold State.retireTick
  simp only [↓apply_ite (State.blur μ), ite_self, ↓State.startLeave_blur μ (maskSub rfl hμ)]

theorem State.writeModCtrl_blur (μ : Nat) (hμ : 0xdffffefa &&& μ = 0xdffffefa) : ∀ a0 a1 a2, (State.writeModCtrl a0 a1 a2).1.blur μ = a0.blur μ := by
  intros; unfold State.writeModCtrl
  simp only [↓apply_ite (State.blur μ), ite_self, ↓apply_ite Prod.fst, ↓State.writeRetire_blur μ (maskSub rfl hμ), ↓State.reject_blur μ (maskSub rfl hμ), ↓State.bootFrom_blur μ (maskSub rfl hμ), ↓State.railsOff_blur μ (maskSub rfl hμ), ↓State.flushLife_blur μ (maskSub rfl hμ)]

theorem execWatchdogExpiry_blur (μ : Nat) (hμ : 0xbffffefa &&& μ = 0xbffffefa) : ∀ a0, ∀ t, execWatchdogExpiry a0 = .next t → t.blur μ = a0.blur μ := by
  intros a0 t h; unfold execWatchdogExpiry at h; cases h
  simp only [↓apply_ite (State.blur μ), ite_self, ↓State.rangerStart_blur μ (maskSub rfl hμ)]

theorem State.writeRngCtrl_blur (μ : Nat) (hμ : 0xbffffefa &&& μ = 0xbffffefa) : ∀ a0 a1, (State.writeRngCtrl a0 a1).1.blur μ = a0.blur μ := by
  intros; unfold State.writeRngCtrl
  simp only [↓apply_ite (State.blur μ), ite_self, ↓apply_ite Prod.fst, ↓State.reject_blur μ (maskSub rfl hμ), ↓State.rangerStart_blur μ (maskSub rfl hμ)]

theorem State.setNap_blur (μ : Nat) (hμ : 0x10 &&& μ = 0x10) : ∀ a0 a1, (State.setNap a0 a1).blur μ = a0.blur μ := by
  intros; unfold State.setNap
  simp only [↓State.setRegF_blur μ (maskSub rfl hμ)]

theorem State.writeChrysalis_blur (μ : Nat) (hμ : 0x12 &&& μ = 0x12) : ∀ a0 a1, (State.writeChrysalis a0 a1).1.blur μ = a0.blur μ := by
  intros; unfold State.writeChrysalis
  simp only [↓apply_ite (State.blur μ), ite_self, ↓apply_ite Prod.fst, ↓State.reject_blur μ (maskSub rfl hμ), ↓State.setRegF_blur μ (maskSub rfl hμ), ↓State.setNap_blur μ (maskSub rfl hμ)]

theorem State.sleepCores_blur (μ : Nat) (hμ : 0x14009e6a &&& μ = 0x14009e6a) : ∀ a0, (State.sleepCores a0).blur μ = a0.blur μ := by
  intros; unfold State.sleepCores
  simp only [↓blur_2 μ (maskSub rfl hμ), ↓blur_8 μ (maskSub rfl hμ), ↓blur_20 μ (maskSub rfl hμ), ↓blur_28 μ (maskSub rfl hμ), ↓blur_40 μ (maskSub rfl hμ), ↓blur_60 μ (maskSub rfl hμ), ↓blur_68 μ (maskSub rfl hμ), ↓blur_200 μ (maskSub rfl hμ), ↓blur_400 μ (maskSub rfl hμ), ↓blur_440 μ (maskSub rfl hμ), ↓blur_800 μ (maskSub rfl hμ), ↓blur_1000 μ (maskSub rfl hμ), ↓blur_4000000 μ (maskSub rfl hμ), ↓blur_4000028 μ (maskSub rfl hμ), ↓blur_10000000 μ (maskSub rfl hμ), ↓blur_10000020 μ (maskSub rfl hμ), ↓blur_14009e6a μ (maskSub rfl hμ)]

theorem State.sleepSlot_blur (μ : Nat) (hμ : 0x99c10be &&& μ = 0x99c10be) : ∀ a0 a1, (State.sleepSlot a0 a1).blur μ = a0.blur μ := by
  intros; unfold State.sleepSlot
  simp only [↓apply_ite (State.blur μ), ite_self, ↓State.setJobState_blur μ (maskSub rfl hμ), ↓State.cutCommit_blur μ (maskSub rfl hμ), ↓State.modJob_blur μ (maskSub rfl hμ), ↓State.dropHold_blur μ (maskSub rfl hμ), ↓State.stopSched_blur μ (maskSub rfl hμ), ↓State.clearStream_blur μ (maskSub rfl hμ)]

theorem execChrysalisTarget_blur (μ : Nat) (hμ : 0x5ffe9efe &&& μ = 0x5ffe9efe) : ∀ a0, ∀ t, execChrysalisTarget a0 = .next t → t.blur μ = a0.blur μ := by
  intros a0 t h; unfold execChrysalisTarget at h; cases h
  repeat' first | with_reducible rfl | intro _ | simp only [↓apply_ite (State.blur μ), ite_self, ↓foldl_blur μ, ↓State.deliver_blur μ (maskSub rfl hμ), ↓State.closeWin_blur μ (maskSub rfl hμ), ↓State.abortLoad_blur μ (maskSub rfl hμ), ↓State.abandonMove_blur μ (maskSub rfl hμ), ↓State.sleepSlot_blur μ (maskSub rfl hμ), ↓State.sleepCores_blur μ (maskSub rfl hμ), ↓State.setPower_blur μ (maskSub rfl hμ), ↓State.setRegF_blur μ (maskSub rfl hμ), ↓State.flushLife_blur μ (maskSub rfl hμ), ↓State.setNap_blur μ (maskSub rfl hμ), ↓State.setStage_blur μ (maskSub rfl hμ)] | split | refine (foldl_blur μ _ ?_ _ _).trans ?_ | refine (foldl1_blur μ _ ?_ _ _).trans ?_

theorem execWakeComplete_blur (μ : Nat) (hμ : 0x401010 &&& μ = 0x401010) : ∀ a0, ∀ t, execWakeComplete a0 = .next t → t.blur μ = a0.blur μ := by
  intros a0 t h; unfold execWakeComplete at h; cases h
  simp only [↓blur_10 μ (maskSub rfl hμ), ↓blur_1000 μ (maskSub rfl hμ), ↓blur_400000 μ (maskSub rfl hμ), ↓apply_ite (State.blur μ), ite_self, ↓State.setStage_blur μ (maskSub rfl hμ), ↓State.setNap_blur μ (maskSub rfl hμ)]

theorem State.sendOnce_blur (μ : Nat) (hμ : 0x2 &&& μ = 0x2) : ∀ a0 a1, (State.sendOnce a0 a1).blur μ = a0.blur μ := by
  intros; unfold State.sendOnce
  simp only [↓apply_ite (State.blur μ), ite_self, ↓State.send_blur μ (maskSub rfl hμ)]

theorem State.advanceBeat_blur (μ : Nat) (hμ : 0x800010 &&& μ = 0x800010) : ∀ a0, (State.advanceBeat a0).blur μ = a0.blur μ := by
  intros; unfold State.advanceBeat
  simp only [↓apply_ite (State.blur μ), ite_self, ↓State.setBeat_blur μ (maskSub rfl hμ), ↓State.setReg_blur μ (maskSub rfl hμ)]

theorem State.originsDue_blur (μ : Nat) (hμ : 0x2 &&& μ = 0x2) : ∀ a0 a1, (State.originsDue a0 a1).blur μ = a0.blur μ := by
  intros; unfold State.originsDue
  repeat' first | with_reducible rfl | simp only [↓apply_ite (State.blur μ), ite_self, ↓State.sendOnce_blur μ (maskSub rfl hμ)] | split

theorem State.fireDue_blur (μ : Nat) (hμ : 0x800012 &&& μ = 0x800012) : ∀ a0, (State.fireDue a0).blur μ = a0.blur μ := by
  intros; unfold State.fireDue
  repeat' first | with_reducible rfl | intro _ | simp only [↓apply_ite (State.blur μ), ite_self, ↓foldl_blur μ, ↓foldl1_blur μ, ↓State.fireEntry_blur μ (maskSub rfl hμ), ↓State.satReg_blur μ (maskSub rfl hμ)] | split | refine (foldl_blur μ _ ?_ _ _).trans ?_ | refine (foldl1_blur μ _ ?_ _ _).trans ?_

theorem State.slackDue_blur (μ : Nat) (hμ : 0x2 &&& μ = 0x2) : ∀ a0 a1, (State.slackDue a0 a1).blur μ = a0.blur μ := by
  intros; unfold State.slackDue
  repeat' first | with_reducible rfl | intro _ | simp only [↓apply_ite (State.blur μ), ite_self, ↓foldl_blur μ, ↓foldl1_blur μ, ↓State.sendOnce_blur μ (maskSub rfl hμ)] | split | refine (foldl_blur μ _ ?_ _ _).trans ?_ | refine (foldl1_blur μ _ ?_ _ _).trans ?_

theorem State.beatDue_blur (μ : Nat) (hμ : 0x800012 &&& μ = 0x800012) : ∀ a0, (State.beatDue a0).blur μ = a0.blur μ := by
  intros; unfold State.beatDue
  repeat' first | with_reducible rfl | intro _ | simp only [↓apply_ite (State.blur μ), ite_self, ↓foldl_blur μ, ↓State.originsDue_blur μ (maskSub rfl hμ), ↓State.closeDue_blur μ (maskSub rfl hμ), ↓State.fireDue_blur μ (maskSub rfl hμ), ↓State.slackDue_blur μ (maskSub rfl hμ), ↓State.sendOnce_blur μ (maskSub rfl hμ)] | split | refine (foldl_blur μ _ ?_ _ _).trans ?_ | refine (foldl1_blur μ _ ?_ _ _).trans ?_

theorem State.second_blur (μ : Nat) (hμ : 0x40000000 &&& μ = 0x40000000) : ∀ a0, (State.second a0).blur μ = a0.blur μ := by
  intros; unfold State.second
  repeat' first | with_reducible rfl | intro _ | simp only [↓apply_ite (State.blur μ), ite_self, ↓foldl_blur μ, ↓State.setBook_blur μ (maskSub rfl hμ)] | split | refine (foldl_blur μ _ ?_ _ _).trans ?_ | refine (foldl1_blur μ _ ?_ _ _).trans ?_

theorem State.passTime_blur (μ : Nat) (hμ : 0x40800000 &&& μ = 0x40800000) : ∀ a0, (State.passTime a0).blur μ = a0.blur μ := by
  intros; unfold State.passTime
  simp only [↓apply_ite (State.blur μ), ite_self, ↓State.setBeat_blur μ (maskSub rfl hμ), ↓State.setBook_blur μ (maskSub rfl hμ), ↓State.second_blur μ (maskSub rfl hμ)]

theorem State.thermalCycles_blur (μ : Nat) (hμ : 0x40000000 &&& μ = 0x40000000) : ∀ a0, (State.thermalCycles a0).blur μ = a0.blur μ := by
  intros; unfold State.thermalCycles
  repeat' first | with_reducible rfl | simp only [↓State.setBook_blur μ (maskSub rfl hμ)] | split

theorem execTick_blur (μ : Nat) (hμ : 0x479e34fe &&& μ = 0x479e34fe) : ∀ a0 a1, ∀ t, execTick a0 a1 = .next t → t.blur μ = a1.blur μ := by
  intros a0 a1 t h; unfold execTick at h; cases h
  simp only [↓apply_ite (State.blur μ), ite_self, ↓State.passTime_blur μ (maskSub rfl hμ), ↓State.advanceBeat_blur μ (maskSub rfl hμ), ↓State.beatDue_blur μ (maskSub rfl hμ), ↓State.powerTick_blur μ (maskSub rfl hμ), ↓State.sampleStacks_blur μ (maskSub rfl hμ), ↓State.sampleStarves_blur μ (maskSub rfl hμ), ↓State.leaveTick_blur μ (maskSub rfl hμ), ↓State.retireTick_blur μ (maskSub rfl hμ), ↓State.katPoll_blur μ (maskSub rfl hμ), ↓State.pollLoad_blur μ (maskSub rfl hμ), ↓State.thermalCycles_blur μ (maskSub rfl hμ)]

theorem State.afterRead_blur (μ : Nat) (hμ : 0x4800008 &&& μ = 0x4800008) : ∀ a0 a1, (State.afterRead a0 a1).blur μ = a0.blur μ := by
  intros; unfold State.afterRead
  repeat' first | with_reducible rfl | simp only [↓blur_8 μ (maskSub rfl hμ), ↓blur_800000 μ (maskSub rfl hμ), ↓blur_4000000 μ (maskSub rfl hμ), ↓apply_ite (State.blur μ), ite_self, ↓State.latchTime_blur μ (maskSub rfl hμ), ↓State.setFlt_blur μ (maskSub rfl hμ)] | split

theorem State.writePlain_blur (μ : Nat) (hμ : 0x10 &&& μ = 0x10) : ∀ a0 a1 a2, (State.writePlain a0 a1 a2).blur μ = a0.blur μ := by
  intros; unfold State.writePlain
  repeat' first | with_reducible rfl | simp only [↓State.setReg_blur μ (maskSub rfl hμ)] | split

theorem judged_blur (μ : Nat) (hμ : 0x0 &&& μ = 0x0) (r : State × Bool) : (judged r).1.blur μ = r.1.blur μ := by simp only [judged]

theorem State.writeUnless_blur (μ : Nat) (hμ : 0x12 &&& μ = 0x12) : ∀ a0 a1 a2 a3, (State.writeUnless a0 a1 a2 a3).1.blur μ = a0.blur μ := by
  intros; unfold State.writeUnless
  simp only [↓apply_ite (State.blur μ), ite_self, ↓apply_ite Prod.fst, ↓State.reject_blur μ (maskSub rfl hμ), ↓State.writePlain_blur μ (maskSub rfl hμ)]

theorem State.writeNextTest_blur (μ : Nat) (hμ : 0x40000012 &&& μ = 0x40000012) : ∀ a0 a1, (State.writeNextTest a0 a1).blur μ = a0.blur μ := by
  intros; unfold State.writeNextTest
  simp only [↓apply_ite (State.blur μ), ite_self, ↓State.writePlain_blur μ (maskSub rfl hμ), ↓State.journal_blur μ (maskSub rfl hμ)]

theorem State.writeFabric_blur (μ : Nat) (hμ : 0x412 &&& μ = 0x412) : ∀ a0 a1 a2, (State.writeFabric a0 a1 a2).1.blur μ = a0.blur μ := by
  intros; unfold State.writeFabric
  simp only [↓apply_ite (State.blur μ), ite_self, ↓apply_ite Prod.fst, ↓State.detourClear_blur μ (maskSub rfl hμ), ↓State.writePlain_blur μ (maskSub rfl hμ)]

theorem touched_some_ite {α : Type} {Q : α → Prop} {c : Prop} [Decidable c] {a b : Option α} (h1 : ∀ r, a = some r → Q r)
    (h2 : ∀ r, b = some r → Q r) : ∀ r, (if c then a else b) = some r → Q r := by
  split
  · exact h1
  · exact h2

theorem State.writeFixed_blur (μ : Nat) (hμ : 0xfffffefe &&& μ = 0xfffffefe) {s src a w r} (h : State.writeFixed s src a w = some r) : r.1.blur μ = s.blur μ := by
  revert h
  refine (fun key : ∀ r, State.writeFixed s src a w = some r → r.1.blur μ = s.blur μ => key r) ?_
  clear r
  unfold State.writeFixed
  repeat' refine touched_some_ite (Q := fun r : Wrote => r.1.blur μ = s.blur μ) ?_ ?_
  all_goals rintro r ⟨⟩
  all_goals simp only [judged, ↓State.writeModCtrl_blur μ (maskSub rfl hμ), ↓State.writeModReset_blur μ (maskSub rfl hμ), ↓State.writeJobCtrl_blur μ (maskSub rfl hμ), ↓State.writeRngCtrl_blur μ (maskSub rfl hμ), ↓State.writeBeatCtrl_blur μ (maskSub rfl hμ), ↓State.writeTimeSec_blur μ (maskSub rfl hμ), ↓State.writeTimeNs_blur μ (maskSub rfl hμ), ↓State.writeSlack_blur μ (maskSub rfl hμ), ↓State.writeCap_blur μ (maskSub rfl hμ), ↓State.writeRamp_blur μ (maskSub rfl hμ), ↓State.settleParity_blur μ (maskSub rfl hμ), ↓State.writePlain_blur μ (maskSub rfl hμ), ↓State.writeChrysalis_blur μ (maskSub rfl hμ), ↓State.yrdCommand_blur μ (maskSub rfl hμ), ↓State.skdCtrl_blur μ (maskSub rfl hμ), ↓State.writeRedCtrl_blur μ (maskSub rfl hμ), ↓State.rescan_blur μ (maskSub rfl hμ), ↓State.writeUnless_blur μ (maskSub rfl hμ), ↓State.writeSkyAdmit_blur μ (maskSub rfl hμ), ↓State.writeNextTest_blur μ (maskSub rfl hμ), ↓State.writeImgCtrl_blur μ (maskSub rfl hμ), ↓State.writeKatRun_blur μ (maskSub rfl hμ), ↓State.writeWatchSel_blur μ (maskSub rfl hμ), ↓State.writeRedStep_blur μ (maskSub rfl hμ), ↓State.writeJob_blur μ (maskSub rfl hμ), ↓State.wrapperWrite_blur μ (maskSub rfl hμ), ↓State.writeSkyCtrl_blur μ (maskSub rfl hμ), ↓State.ptpSelect_blur μ (maskSub rfl hμ), ↓State.bulkCtrl_blur μ (maskSub rfl hμ), ↓State.writeFabric_blur μ (maskSub rfl hμ), ↓State.clearBreaker_blur μ (maskSub rfl hμ)]

theorem State.writeWindow_blur (μ : Nat) (hμ : 0x12 &&& μ = 0x12) : ∀ a0 a1 a2 a3, (State.writeWindow a0 a1 a2 a3).1.blur μ = a0.blur μ := by
  intros; unfold State.writeWindow
  simp only [↓State.writeUnless_blur μ (maskSub rfl hμ)]

theorem State.writeArray_blur (μ : Nat) (hμ : 0x8b4143a &&& μ = 0x8b4143a) {s src a w r} (h : State.writeArray s src a w = some r) : r.1.blur μ = s.blur μ := by
  unfold State.writeArray at h
  repeat' split at h
  all_goals first | contradiction | (simp only [Option.some.injEq] at h; subst h)
  all_goals first | with_reducible rfl | simp only [judged, ↓State.writePlain_blur μ (maskSub rfl hμ), ↓State.writeUnless_blur μ (maskSub rfl hμ), ↓State.writeRedStep_blur μ (maskSub rfl hμ), ↓State.writeJob_blur μ (maskSub rfl hμ), ↓State.wrapperWrite_blur μ (maskSub rfl hμ), ↓State.writeSkyCtrl_blur μ (maskSub rfl hμ), ↓State.ptpSelect_blur μ (maskSub rfl hμ), ↓State.bulkCtrl_blur μ (maskSub rfl hμ), ↓State.writeWindow_blur μ (maskSub rfl hμ), ↓State.writeFabric_blur μ (maskSub rfl hμ), ↓State.clearBreaker_blur μ (maskSub rfl hμ)]

theorem State.writeAt_blur (μ : Nat) (hμ : 0xfffffefe &&& μ = 0xfffffefe) (s src a w) : (State.writeAt s src a w).1.blur μ = s.blur μ := by
  unfold State.writeAt
  split
  · exact State.writeFixed_blur μ (maskSub rfl hμ) (by assumption)
  · split
    · exact State.writeArray_blur μ (maskSub rfl hμ) (by assumption)
    · repeat' first | with_reducible rfl | simp only [↓State.setReg_blur μ (maskSub rfl hμ), ↓State.writePlain_blur μ (maskSub rfl hμ), ↓apply_ite (State.blur μ)] | split

theorem State.tagged_blur (μ : Nat) (hμ : 0x2 &&& μ = 0x2) : ∀ a0 a1 a2, (State.tagged a0 a1 a2).blur μ = a0.blur μ := by
  intros; unfold State.tagged
  simp only [↓blur_2 μ (maskSub rfl hμ)]

theorem State.writeReg_blur (μ : Nat) (hμ : 0xfffffefe &&& μ = 0xfffffefe) : ∀ a0 a1 a2 a3, (State.writeReg a0 a1 a2 a3).1.blur μ = a0.blur μ := by
  intros; unfold State.writeReg
  simp only [↓apply_ite (State.blur μ), ite_self, ↓apply_ite Prod.fst, ↓State.reject_blur μ (maskSub rfl hμ), ↓State.writeAt_blur μ (maskSub rfl hμ), ↓State.tagged_blur μ (maskSub rfl hμ)]

theorem State.hostWrite_blur (μ : Nat) (hμ : 0xfffffefe &&& μ = 0xfffffefe) : ∀ a0 a1 a2 a3, (State.hostWrite a0 a1 a2 a3).blur μ = a0.blur μ := by
  intros; unfold State.hostWrite
  simp only [↓State.writeReg_blur μ (maskSub rfl hμ)]

theorem State.kctReg_blur (μ : Nat) (hμ : 0x4800008 &&& μ = 0x4800008) {s a b w t} (h : State.kctReg s a b = .ok (w, t)) : t.blur μ = s.blur μ := by
  unfold State.kctReg at h
  repeat' split at h
  all_goals first | contradiction | (simp only [Except.ok.injEq, Prod.mk.injEq] at h; obtain ⟨-, h⟩ := h; subst h)
  all_goals simp only [↓State.afterRead_blur μ (maskSub rfl hμ)]

theorem State.kctReadRegs_blur (μ : Nat) (hμ : 0x4800008 &&& μ = 0x4800008) (q) : ∀ n s a, (State.kctReadRegs s q n a).1.blur μ = s.blur μ := by
  intro n
  induction n with
  | zero => intros; rfl
  | succ n ih =>
    intros; unfold State.kctReadRegs
    split
    · rfl
    · simp only [ih]; exact State.kctReg_blur μ (maskSub rfl hμ) (by assumption)

theorem State.kctWriteRegs_blur (μ : Nat) (hμ : 0xfffffefe &&& μ = 0xfffffefe) (src) : ∀ l s a, (State.kctWriteRegs s src l a).1.blur μ = s.blur μ := by
  intro l
  induction l with
  | nil => intros; rfl
  | cons w ws ih =>
    intro s a; unfold State.kctWriteRegs
    have h := State.writeReg_blur μ (maskSub rfl hμ) s src a w
    dsimp only
    split
    · exact h
    · exact (ih _ _).trans h

theorem State.answerRegs_blur (μ : Nat) (hμ : 0x20001c &&& μ = 0x20001c) : ∀ a0 a1 a2 a3 a4 a5, (State.answerRegs a0 a1 a2 a3 a4 a5).blur μ = a0.blur μ := by
  intros; unfold State.answerRegs
  simp only [↓apply_ite (State.blur μ), ite_self, ↓State.answerNotReady_blur μ (maskSub rfl hμ), ↓State.retryTime_blur μ (maskSub rfl hμ), ↓State.finish_blur μ (maskSub rfl hμ)]

theorem State.kctRead_blur (μ : Nat) (hμ : 0x4a0001c &&& μ = 0x4a0001c) : ∀ a0 a1 a2, (State.kctRead a0 a1 a2).blur μ = a0.blur μ := by
  intros; unfold State.kctRead
  simp only [↓apply_ite (State.blur μ), ite_self, ↓State.answer_blur μ (maskSub rfl hμ), ↓State.kctReadRegs_blur μ (maskSub rfl hμ), ↓State.answerRegs_blur μ (maskSub rfl hμ)]

theorem State.kctWrite_blur (μ : Nat) (hμ : 0xfffffefe &&& μ = 0xfffffefe) : ∀ a0 a1 a2, (State.kctWrite a0 a1 a2).blur μ = a0.blur μ := by
  intros; unfold State.kctWrite
  simp only [↓apply_ite (State.blur μ), ite_self, ↓State.answer_blur μ (maskSub rfl hμ), ↓State.kctWriteRegs_blur μ (maskSub rfl hμ), ↓State.answerRegs_blur μ (maskSub rfl hμ)]

theorem State.kctRun_blur (μ : Nat) (hμ : 0xfffffefe &&& μ = 0xfffffefe) : ∀ a0 a1 a2, (State.kctRun a0 a1 a2).blur μ = a0.blur μ := by
  intros; unfold State.kctRun
  repeat' first | with_reducible rfl | simp only [↓State.kctOpen_blur μ (maskSub rfl hμ), ↓State.kctClose_blur μ (maskSub rfl hμ), ↓State.kctRead_blur μ (maskSub rfl hμ), ↓State.kctWrite_blur μ (maskSub rfl hμ), ↓State.mailboxRun_blur μ (maskSub rfl hμ), ↓State.bulkData_blur μ (maskSub rfl hμ), ↓State.bulkRead_blur μ (maskSub rfl hμ)] | split

theorem State.kct_blur (μ : Nat) (hμ : 0xfffffefe &&& μ = 0xfffffefe) : ∀ a0 a1 a2, (State.kct a0 a1 a2).blur μ = a0.blur μ := by
  intros; unfold State.kct
  repeat' first | with_reducible rfl | simp only [↓State.kctRun_blur μ (maskSub rfl hμ)] | refine (State.kctFront_done_blur μ (maskSub rfl hμ) (by assumption)).trans ?_ | refine (State.kctFront_run_blur μ (maskSub rfl hμ) (by assumption)).trans ?_ | split

theorem execKctOpen_blur (μ : Nat) (hμ : 0xfffffefe &&& μ = 0xfffffefe) : ∀ a0 a1, ∀ t, execKctOpen a0 a1 = .next t → t.blur μ = a1.blur μ := by
  intros a0 a1 t h; unfold execKctOpen at h; cases h
  simp only [↓apply_ite (State.blur μ), ite_self, ↓State.kct_blur μ (maskSub rfl hμ)]

theorem execKctClose_blur (μ : Nat) (hμ : 0xfffffefe &&& μ = 0xfffffefe) : ∀ a0 a1, ∀ t, execKctClose a0 a1 = .next t → t.blur μ = a1.blur μ := by
  intros a0 a1 t h; unfold execKctClose at h; cases h
  simp only [↓apply_ite (State.blur μ), ite_self, ↓State.kct_blur μ (maskSub rfl hμ)]

theorem execKctRead_blur (μ : Nat) (hμ : 0xfffffefe &&& μ = 0xfffffefe) : ∀ a0 a1, ∀ t, execKctRead a0 a1 = .next t → t.blur μ = a1.blur μ := by
  intros a0 a1 t h; unfold execKctRead at h; cases h
  simp only [↓apply_ite (State.blur μ), ite_self, ↓State.kct_blur μ (maskSub rfl hμ)]

theorem execKctWrite_blur (μ : Nat) (hμ : 0xfffffefe &&& μ = 0xfffffefe) : ∀ a0 a1, ∀ t, execKctWrite a0 a1 = .next t → t.blur μ = a1.blur μ := by
  intros a0 a1 t h; unfold execKctWrite at h; cases h
  simp only [↓apply_ite (State.blur μ), ite_self, ↓State.kct_blur μ (maskSub rfl hμ)]

theorem execRdmaSend_blur (μ : Nat) (hμ : 0xfffffefe &&& μ = 0xfffffefe) : ∀ a0 a1 a2, ∀ t, execRdmaSend a0 a1 a2 = .next t → t.blur μ = a2.blur μ := by
  intros a0 a1 a2 t h; unfold execRdmaSend at h; cases h
  repeat' first | with_reducible rfl | intro _ | simp only [↓State.kct_blur μ (maskSub rfl hμ)] | refine (State.onQp_blur μ (maskSub rfl hμ) _ _ _ ?_).trans ?_ | split

theorem execRegisterWrite_blur (μ : Nat) (hμ : 0xfffffefe &&& μ = 0xfffffefe) : ∀ a0 a1 a2 a3, ∀ t, execRegisterWrite a0 a1 a2 a3 = .next t → t.blur μ = a3.blur μ := by
  intros a0 a1 a2 a3 t h; unfold execRegisterWrite at h; cases h
  simp only [↓State.hostWrite_blur μ (maskSub rfl hμ)]

theorem execAdmitGo_blur (μ : Nat) (hμ : 0xfffffefe &&& μ = 0xfffffefe) : ∀ a0 a1 a2, ∀ t, execAdmitGo a0 a1 a2 = .next t → t.blur μ = a2.blur μ := by
  intros a0 a1 a2 t h; unfold execAdmitGo at h; cases h
  simp only [↓State.hostWrite_blur μ (maskSub rfl hμ)]

theorem execAdmitLeave_blur (μ : Nat) (hμ : 0xfffffefe &&& μ = 0xfffffefe) : ∀ a0 a1 a2, ∀ t, execAdmitLeave a0 a1 a2 = .next t → t.blur μ = a2.blur μ := by
  intros a0 a1 a2 t h; unfold execAdmitLeave at h; cases h
  simp only [↓State.hostWrite_blur μ (maskSub rfl hμ)]

theorem execBeatSlackSend_blur (μ : Nat) (hμ : 0xfffffefe &&& μ = 0xfffffefe) : ∀ a0 a1 a2, ∀ t, execBeatSlackSend a0 a1 a2 = .next t → t.blur μ = a2.blur μ := by
  intros a0 a1 a2 t h; unfold execBeatSlackSend at h; cases h
  simp only [↓State.hostWrite_blur μ (maskSub rfl hμ)]

theorem execModuleReset_blur (μ : Nat) (hμ : 0xfffffefe &&& μ = 0xfffffefe) : ∀ a0 a1 a2, ∀ t, execModuleReset a0 a1 a2 = .next t → t.blur μ = a2.blur μ := by
  intros a0 a1 a2 t h; unfold execModuleReset at h; cases h
  simp only [↓State.hostWrite_blur μ (maskSub rfl hμ)]

theorem execRetire_blur (μ : Nat) (hμ : 0xfffffefe &&& μ = 0xfffffefe) : ∀ a0 a1 a2, ∀ t, execRetire a0 a1 a2 = .next t → t.blur μ = a2.blur μ := by
  intros a0 a1 a2 t h; unfold execRetire at h; cases h
  simp only [↓State.hostWrite_blur μ (maskSub rfl hμ)]

theorem execPowerOff_blur (μ : Nat) (hμ : 0xfffffefe &&& μ = 0xfffffefe) : ∀ a0 a1 a2, ∀ t, execPowerOff a0 a1 a2 = .next t → t.blur μ = a2.blur μ := by
  intros a0 a1 a2 t h; unfold execPowerOff at h; cases h
  simp only [↓State.hostWrite_blur μ (maskSub rfl hμ)]

theorem execPowerOn_blur (μ : Nat) (hμ : 0xfffffefe &&& μ = 0xfffffefe) : ∀ a0 a1 a2, ∀ t, execPowerOn a0 a1 a2 = .next t → t.blur μ = a2.blur μ := by
  intros a0 a1 a2 t h; unfold execPowerOn at h; cases h
  simp only [↓State.hostWrite_blur μ (maskSub rfl hμ)]

theorem execRangerRestart_blur (μ : Nat) (hμ : 0xfffffefe &&& μ = 0xfffffefe) : ∀ a0 a1 a2, ∀ t, execRangerRestart a0 a1 a2 = .next t → t.blur μ = a2.blur μ := by
  intros a0 a1 a2 t h; unfold execRangerRestart at h; cases h
  simp only [↓State.hostWrite_blur μ (maskSub rfl hμ)]

theorem execChrysalisEnter_blur (μ : Nat) (hμ : 0xfffffefe &&& μ = 0xfffffefe) : ∀ a0 a1 a2, ∀ t, execChrysalisEnter a0 a1 a2 = .next t → t.blur μ = a2.blur μ := by
  intros a0 a1 a2 t h; unfold execChrysalisEnter at h; cases h
  simp only [↓State.hostWrite_blur μ (maskSub rfl hμ)]

theorem execChrysalisWake_blur (μ : Nat) (hμ : 0xfffffefe &&& μ = 0xfffffefe) : ∀ a0 a1 a2, ∀ t, execChrysalisWake a0 a1 a2 = .next t → t.blur μ = a2.blur μ := by
  intros a0 a1 a2 t h; unfold execChrysalisWake at h; cases h
  simp only [↓State.hostWrite_blur μ (maskSub rfl hμ)]

theorem execBulkOpen_blur (μ : Nat) (hμ : 0xfffffefe &&& μ = 0xfffffefe) : ∀ a0 a1 a2 a3, ∀ t, execBulkOpen a0 a1 a2 a3 = .next t → t.blur μ = a3.blur μ := by
  intros a0 a1 a2 a3 t h; unfold execBulkOpen at h; cases h
  simp only [↓apply_ite (State.blur μ), ite_self, ↓State.hostWrite_blur μ (maskSub rfl hμ)]

theorem execBulkClose_blur (μ : Nat) (hμ : 0xfffffefe &&& μ = 0xfffffefe) : ∀ a0 a1 a2 a3, ∀ t, execBulkClose a0 a1 a2 a3 = .next t → t.blur μ = a3.blur μ := by
  intros a0 a1 a2 a3 t h; unfold execBulkClose at h; cases h
  simp only [↓apply_ite (State.blur μ), ite_self, ↓State.hostWrite_blur μ (maskSub rfl hμ)]

theorem execDetourClear_blur (μ : Nat) (hμ : 0xfffffefe &&& μ = 0xfffffefe) : ∀ a0 a1 a2 a3, ∀ t, execDetourClear a0 a1 a2 a3 = .next t → t.blur μ = a3.blur μ := by
  intros a0 a1 a2 a3 t h; unfold execDetourClear at h; cases h
  simp only [↓State.hostWrite_blur μ (maskSub rfl hμ)]

theorem execJobStart_blur (μ : Nat) (hμ : 0xfffffefe &&& μ = 0xfffffefe) : ∀ a0 a1 a2, ∀ t, execJobStart a0 a1 a2 = .next t → t.blur μ = a2.blur μ := by
  intros a0 a1 a2 t h; unfold execJobStart at h; cases h
  simp only [↓State.hostWrite_blur μ (maskSub rfl hμ)]

theorem execJobDrain_blur (μ : Nat) (hμ : 0xfffffefe &&& μ = 0xfffffefe) : ∀ a0 a1 a2, ∀ t, execJobDrain a0 a1 a2 = .next t → t.blur μ = a2.blur μ := by
  intros a0 a1 a2 t h; unfold execJobDrain at h; cases h
  simp only [↓State.hostWrite_blur μ (maskSub rfl hμ)]

theorem execSlotRollback_blur (μ : Nat) (hμ : 0xfffffefe &&& μ = 0xfffffefe) : ∀ a0 a1 a2, ∀ t, execSlotRollback a0 a1 a2 = .next t → t.blur μ = a2.blur μ := by
  intros a0 a1 a2 t h; unfold execSlotRollback at h; cases h
  simp only [↓State.hostWrite_blur μ (maskSub rfl hμ)]

theorem execJobRestart_blur (μ : Nat) (hμ : 0xfffffefe &&& μ = 0xfffffefe) : ∀ a0 a1 a2 a3, ∀ t, execJobRestart a0 a1 a2 a3 = .next t → t.blur μ = a3.blur μ := by
  intros a0 a1 a2 a3 t h; unfold execJobRestart at h; cases h
  simp only [↓State.hostWrite_blur μ (maskSub rfl hμ)]

theorem execKatRun_blur (μ : Nat) (hμ : 0xfffffefe &&& μ = 0xfffffefe) : ∀ a0 a1 a2, ∀ t, execKatRun a0 a1 a2 = .next t → t.blur μ = a2.blur μ := by
  intros a0 a1 a2 t h; unfold execKatRun at h; cases h
  simp only [↓State.hostWrite_blur μ (maskSub rfl hμ)]

theorem execWatchRemove_blur (μ : Nat) (hμ : 0xfffffefe &&& μ = 0xfffffefe) : ∀ a0 a1 a2, ∀ t, execWatchRemove a0 a1 a2 = .next t → t.blur μ = a2.blur μ := by
  intros a0 a1 a2 t h; unfold execWatchRemove at h; cases h
  simp only [↓State.hostWrite_blur μ (maskSub rfl hμ)]

theorem execImgStart_blur (μ : Nat) (hμ : 0xfffffefe &&& μ = 0xfffffefe) : ∀ a0 a1 a2, ∀ t, execImgStart a0 a1 a2 = .next t → t.blur μ = a2.blur μ := by
  intros a0 a1 a2 t h; unfold execImgStart at h; cases h
  simp only [↓State.hostWrite_blur μ (maskSub rfl hμ)]

theorem execImgAbort_blur (μ : Nat) (hμ : 0xfffffefe &&& μ = 0xfffffefe) : ∀ a0 a1 a2, ∀ t, execImgAbort a0 a1 a2 = .next t → t.blur μ = a2.blur μ := by
  intros a0 a1 a2 t h; unfold execImgAbort at h; cases h
  simp only [↓State.hostWrite_blur μ (maskSub rfl hμ)]

theorem execPwrCapWrite_blur (μ : Nat) (hμ : 0xfffffefe &&& μ = 0xfffffefe) : ∀ a0 a1 a2, ∀ t, execPwrCapWrite a0 a1 a2 = .next t → t.blur μ = a2.blur μ := by
  intros a0 a1 a2 t h; unfold execPwrCapWrite at h; cases h
  simp only [↓State.hostWrite_blur μ (maskSub rfl hμ)]

theorem execPwrRampWrite_blur (μ : Nat) (hμ : 0xfffffefe &&& μ = 0xfffffefe) : ∀ a0 a1 a2, ∀ t, execPwrRampWrite a0 a1 a2 = .next t → t.blur μ = a2.blur μ := by
  intros a0 a1 a2 t h; unfold execPwrRampWrite at h; cases h
  simp only [↓State.hostWrite_blur μ (maskSub rfl hμ)]

theorem execBreakerClear_blur (μ : Nat) (hμ : 0xfffffefe &&& μ = 0xfffffefe) : ∀ a0 a1 a2 a3, ∀ t, execBreakerClear a0 a1 a2 a3 = .next t → t.blur μ = a3.blur μ := by
  intros a0 a1 a2 a3 t h; unfold execBreakerClear at h; cases h
  simp only [↓State.hostWrite_blur μ (maskSub rfl hμ)]

theorem execRedStepWrite_blur (μ : Nat) (hμ : 0xfffffefe &&& μ = 0xfffffefe) : ∀ a0 a1 a2 a3, ∀ t, execRedStepWrite a0 a1 a2 a3 = .next t → t.blur μ = a3.blur μ := by
  intros a0 a1 a2 a3 t h; unfold execRedStepWrite at h; cases h
  simp only [↓State.hostWrite_blur μ (maskSub rfl hμ)]

theorem execModResetGo_blur (μ : Nat) (hμ : 0xfffffefe &&& μ = 0xfffffefe) : ∀ a0 a1 a2, ∀ t, execModResetGo a0 a1 a2 = .next t → t.blur μ = a2.blur μ := by
  intros a0 a1 a2 t h; unfold execModResetGo at h; cases h
  simp only [↓State.hostWrite_blur μ (maskSub rfl hμ)]

theorem execSkidderStop_blur (μ : Nat) (hμ : 0xfffffefe &&& μ = 0xfffffefe) : ∀ a0 a1 a2, ∀ t, execSkidderStop a0 a1 a2 = .next t → t.blur μ = a2.blur μ := by
  intros a0 a1 a2 t h; unfold execSkidderStop at h; cases h
  simp only [↓State.hostWrite_blur μ (maskSub rfl hμ)]

theorem execSkyRetrainCommand_blur (μ : Nat) (hμ : 0xfffffefe &&& μ = 0xfffffefe) : ∀ a0 a1 a2 a3, ∀ t, execSkyRetrainCommand a0 a1 a2 a3 = .next t → t.blur μ = a3.blur μ := by
  intros a0 a1 a2 a3 t h; unfold execSkyRetrainCommand at h; cases h
  simp only [↓apply_ite (State.blur μ), ite_self, ↓State.hostWrite_blur μ (maskSub rfl hμ)]

theorem execWrapperGo_blur (μ : Nat) (hμ : 0xfffffefe &&& μ = 0xfffffefe) : ∀ a0 a1 a2 a3, ∀ t, execWrapperGo a0 a1 a2 a3 = .next t → t.blur μ = a3.blur μ := by
  intros a0 a1 a2 a3 t h; unfold execWrapperGo at h; cases h
  simp only [↓State.hostWrite_blur μ (maskSub rfl hμ)]

theorem execCxlRescan_blur (μ : Nat) (hμ : 0xfffffefe &&& μ = 0xfffffefe) : ∀ a0 a1 a2, ∀ t, execCxlRescan a0 a1 a2 = .next t → t.blur μ = a2.blur μ := by
  intros a0 a1 a2 t h; unfold execCxlRescan at h; cases h
  simp only [↓State.hostWrite_blur μ (maskSub rfl hμ)]

theorem State.yardWrite_blur (μ : Nat) (hμ : 0xfffffefe &&& μ = 0xfffffefe) : ∀ a0 a1 a2 a3, (State.yardWrite a0 a1 a2 a3).blur μ = a0.blur μ := by
  intros; unfold State.yardWrite
  simp only [↓apply_ite (State.blur μ), ite_self, ↓State.hostWrite_blur μ (maskSub rfl hμ)]

theorem execCreate_blur (μ : Nat) (hμ : 0xfffffefe &&& μ = 0xfffffefe) : ∀ a0 a1 a2, ∀ t, execCreate a0 a1 a2 = .next t → t.blur μ = a2.blur μ := by
  intros a0 a1 a2 t h; unfold execCreate at h; cases h
  simp only [↓State.yardWrite_blur μ (maskSub rfl hμ)]

theorem execDestroy_blur (μ : Nat) (hμ : 0xfffffefe &&& μ = 0xfffffefe) : ∀ a0 a1 a2, ∀ t, execDestroy a0 a1 a2 = .next t → t.blur μ = a2.blur μ := by
  intros a0 a1 a2 t h; unfold execDestroy at h; cases h
  simp only [↓State.yardWrite_blur μ (maskSub rfl hμ)]

theorem execPromote_blur (μ : Nat) (hμ : 0xfffffefe &&& μ = 0xfffffefe) : ∀ a0 a1 a2, ∀ t, execPromote a0 a1 a2 = .next t → t.blur μ = a2.blur μ := by
  intros a0 a1 a2 t h; unfold execPromote at h; cases h
  simp only [↓State.yardWrite_blur μ (maskSub rfl hμ)]

theorem execDemote_blur (μ : Nat) (hμ : 0xfffffefe &&& μ = 0xfffffefe) : ∀ a0 a1 a2, ∀ t, execDemote a0 a1 a2 = .next t → t.blur μ = a2.blur μ := by
  intros a0 a1 a2 t h; unfold execDemote at h; cases h
  simp only [↓State.yardWrite_blur μ (maskSub rfl hμ)]

theorem execPin_blur (μ : Nat) (hμ : 0xfffffefe &&& μ = 0xfffffefe) : ∀ a0 a1 a2, ∀ t, execPin a0 a1 a2 = .next t → t.blur μ = a2.blur μ := by
  intros a0 a1 a2 t h; unfold execPin at h; cases h
  simp only [↓State.yardWrite_blur μ (maskSub rfl hμ)]

theorem execUnpin_blur (μ : Nat) (hμ : 0xfffffefe &&& μ = 0xfffffefe) : ∀ a0 a1 a2, ∀ t, execUnpin a0 a1 a2 = .next t → t.blur μ = a2.blur μ := by
  intros a0 a1 a2 t h; unfold execUnpin at h; cases h
  simp only [↓State.yardWrite_blur μ (maskSub rfl hμ)]

end Sys2Proof.Machine
end

