-- ==== Sys2Proof/Laws/Writes.lean ====
section
/-! SUPPORT. What a write of each register that acts comes to: the arbiter's checks, then the register's own operation. -/

namespace Sys2Proof.Machine

set_option linter.unusedSimpArgs false
open Sys2Proof

/-- What the control space does around a register's own operation `r`: silence, work that Chrysalis forbids, and the tag of a
rejection (R2, R36, R492). -/
def State.through (s : State) (src : Src) (a : Nat) (w : Word) (r : Wrote) : Wrote :=
  if s.regSilent a then (s, Kct.notReady)
  else
    let r : Wrote := if s.boot.stage = 7 ∧ startsWork a w = true then (s.reject, Kct.rejected) else r
    if r.2 = Kct.rejected then (r.1.tagged (srcSession src) a, r.2) else r

theorem State.writeReg_of (s : State) (src : Src) (a : Nat) (w : Word) (h : a % 8 = 0 ∧ inBlock a = true) :
    s.writeReg src a w = s.through src a w (s.writeAt src a w) := by
  unfold State.writeReg State.through
  rw [if_neg (by simp [h.1, h.2])]

theorem writeAt_fixed {s : State} {src a w} {r : Wrote} (h : s.writeFixed src a w = some r) : s.writeAt src a w = r := by
  unfold State.writeAt
  rw [h]

theorem writeAt_array {s : State} {src a w} {r : Wrote} (k : s.writeFixed src a w = none) (h : s.writeArray src a w = some r) :
    s.writeAt src a w = r := by
  unfold State.writeAt
  rw [k]
  simp only [h]

theorem indexIn_hit {base stride n k : Nat} (h : k < n) (hs : 0 < stride) : indexIn base stride n (base + k * stride) = some k := by
  unfold indexIn
  rw [Nat.add_sub_cancel_left, Nat.mul_mod_left, Nat.mul_div_cancel _ hs, if_pos ⟨Nat.le_add_right _ _, rfl, h⟩]

theorem indexIn_miss {base stride n a : Nat} (h : a < base ∨ (a - base) % stride ≠ 0 ∨ n ≤ (a - base) / stride) :
    indexIn base stride n a = none := by
  unfold indexIn
  rw [if_neg]
  omega

theorem State.hostWrite_skyAdmit (s : State) (src : Src) (w : Word) :
    s.hostWrite src Reg.skyAdmit w = (s.through src Reg.skyAdmit w (judged (s.writeSkyAdmit w))).1 := by
  unfold State.hostWrite
  rw [State.writeReg_of s src _ w (by decide), writeAt_fixed rfl]

theorem State.hostWrite_beatSlack (s : State) (src : Src) (w : Word) :
    s.hostWrite src Reg.beatSlack w = (s.through src Reg.beatSlack w (judged (s.writeSlack w))).1 := by
  unfold State.hostWrite
  rw [State.writeReg_of s src _ w (by decide), writeAt_fixed rfl]

theorem State.hostWrite_modCtrl (s : State) (src : Src) (w : Word) :
    s.hostWrite src Reg.modCtrl w = (s.through src Reg.modCtrl w (judged (s.writeModCtrl src w))).1 := by
  unfold State.hostWrite
  rw [State.writeReg_of s src _ w (by decide), writeAt_fixed rfl]

theorem State.hostWrite_rngCtrl (s : State) (src : Src) (w : Word) :
    s.hostWrite src Reg.rngCtrl w = (s.through src Reg.rngCtrl w (judged (s.writeRngCtrl w))).1 := by
  unfold State.hostWrite
  rw [State.writeReg_of s src _ w (by decide), writeAt_fixed rfl]

theorem State.hostWrite_pwrChrysalis (s : State) (src : Src) (w : Word) :
    s.hostWrite src Reg.pwrChrysalis w = (s.through src Reg.pwrChrysalis w (judged (s.writeChrysalis w))).1 := by
  unfold State.hostWrite
  rw [State.writeReg_of s src _ w (by decide), writeAt_fixed rfl]

theorem State.hostWrite_modJobCtrl (s : State) (src : Src) (w : Word) :
    s.hostWrite src Reg.modJobCtrl w = (s.through src Reg.modJobCtrl w (judged (s.writeJobCtrl w))).1 := by
  unfold State.hostWrite
  rw [State.writeReg_of s src _ w (by decide), writeAt_fixed rfl]

theorem State.hostWrite_redCtrl (s : State) (src : Src) (w : Word) :
    s.hostWrite src Reg.redCtrl w = (s.through src Reg.redCtrl w ((s.writeRedCtrl w, Kct.ok))).1 := by
  unfold State.hostWrite
  rw [State.writeReg_of s src _ w (by decide), writeAt_fixed rfl]

theorem State.hostWrite_fltKatRun (s : State) (src : Src) (w : Word) :
    s.hostWrite src Reg.fltKatRun w = (s.through src Reg.fltKatRun w (judged (s.writeKatRun w))).1 := by
  unfold State.hostWrite
  rw [State.writeReg_of s src _ w (by decide), writeAt_fixed rfl]

theorem State.hostWrite_fltWatchSel (s : State) (src : Src) (w : Word) :
    s.hostWrite src Reg.fltWatchSel w = (s.through src Reg.fltWatchSel w (judged (s.writeWatchSel w))).1 := by
  unfold State.hostWrite
  rw [State.writeReg_of s src _ w (by decide), writeAt_fixed rfl]

theorem State.hostWrite_imgCtrl (s : State) (src : Src) (w : Word) :
    s.hostWrite src Reg.imgCtrl w = (s.through src Reg.imgCtrl w (judged (s.writeImgCtrl w))).1 := by
  unfold State.hostWrite
  rw [State.writeReg_of s src _ w (by decide), writeAt_fixed rfl]

theorem State.hostWrite_pwrCap (s : State) (src : Src) (w : Word) :
    s.hostWrite src Reg.pwrCap w = (s.through src Reg.pwrCap w (judged (s.writeCap w))).1 := by
  unfold State.hostWrite
  rw [State.writeReg_of s src _ w (by decide), writeAt_fixed rfl]

theorem State.hostWrite_pwrRamp (s : State) (src : Src) (w : Word) :
    s.hostWrite src Reg.pwrRamp w = (s.through src Reg.pwrRamp w (judged (s.writeRamp w))).1 := by
  unfold State.hostWrite
  rw [State.writeReg_of s src _ w (by decide), writeAt_fixed rfl]

theorem State.hostWrite_modReset (s : State) (src : Src) (w : Word) :
    s.hostWrite src Reg.modReset w = (s.through src Reg.modReset w (judged (s.writeModReset w))).1 := by
  unfold State.hostWrite
  rw [State.writeReg_of s src _ w (by decide), writeAt_fixed rfl]

theorem State.hostWrite_skdCtrl (s : State) (src : Src) (w : Word) :
    s.hostWrite src Reg.skdCtrl w = (s.through src Reg.skdCtrl w ((s.skdCtrl w, Kct.ok))).1 := by
  unfold State.hostWrite
  rw [State.writeReg_of s src _ w (by decide), writeAt_fixed rfl]

theorem State.hostWrite_cxlCtrl (s : State) (src : Src) (w : Word) :
    s.hostWrite src Reg.cxlCtrl w = (s.through src Reg.cxlCtrl w (judged (s.rescan w))).1 := by
  unfold State.hostWrite
  rw [State.writeReg_of s src _ w (by decide), writeAt_fixed rfl]

theorem State.hostWrite_yrdCmd (s : State) (src : Src) (w : Word) :
    s.hostWrite src Reg.yrdCmd w = (s.through src Reg.yrdCmd w (judged (s.yrdCommand w))).1 := by
  unfold State.hostWrite
  rw [State.writeReg_of s src _ w (by decide), writeAt_fixed rfl]

theorem State.hostWrite_bulkCtrl (s : State) (src : Src) (w : Word) (n : Nat) (h : n < 4) :
    s.hostWrite src (Reg.bulkCtrl n) w = (s.through src (Reg.bulkCtrl n) w (s.bulkCtrl (srcSession src) n w)).1 := by
  have ha : ∀ n, n < 4 → Reg.bulkCtrl n % 8 = 0 ∧ inBlock (Reg.bulkCtrl n) = true := by decide
  have hf : ∀ n, n < 4 → [Reg.modCtrl, Reg.modReset, Reg.modJobCtrl, Reg.rngCtrl, Reg.beatCtrl, Reg.beatTimeSec, Reg.beatTimeNs, Reg.beatSlack, Reg.pwrCap, Reg.pwrRamp, Reg.pwrOpLimit, Reg.pwrChrysalis, Reg.yrdCmd, Reg.skdCtrl, Reg.redCtrl, Reg.cxlCtrl, Reg.skyStand, Reg.skyCoord, Reg.skyAdmit, Reg.logNextTest, Reg.imgCtrl, Reg.fltKatRun, Reg.fltWatchSel].contains (Reg.bulkCtrl n) = false := by decide
  have hf := hf n h
  simp only [List.contains_cons, List.contains_nil, Bool.or_eq_false_iff, beq_eq_false_iff_ne, ne_eq] at hf
  unfold State.hostWrite
  rw [State.writeReg_of s src _ w (ha n h), writeAt_array (r := s.bulkCtrl (srcSession src) n w)]
  · simp only [State.writeFixed, hf, if_false, or_self]
  · have h0 : ∀ n, n < 4 → indexIn (Reg.beatOrigin 0) 0x20 8 (Reg.bulkCtrl n) = none := by decide
    have h1 : ∀ n, n < 4 → indexIn (Reg.redStep 0) 0x20 8 (Reg.bulkCtrl n) = none := by decide
    have h2 : ∀ n, n < 4 → indexIn (Reg.fltJob 0) 0x20 8 (Reg.bulkCtrl n) = none := by decide
    have h3 : ∀ n, n < 4 → indexIn (Reg.stkWrapCmd 0) 0x400 24 (Reg.bulkCtrl n) = none := by decide
    have h4 : ∀ n, n < 4 → indexIn (Reg.skyPortCtrl 0) 0x800 16 (Reg.bulkCtrl n) = none := by decide
    have h5 : ∀ n, n < 4 → indexIn (Reg.ethPortCtrl 0) 0x400 2 (Reg.bulkCtrl n) = none := by decide
    have h6 : ∀ n, n < 4 → indexIn (Reg.ethPtp 0) 0x400 2 (Reg.bulkCtrl n) = none := by decide
    have h7 : ∀ n, n < 4 → indexIn (Reg.bulkCtrl 0) 0x40 4 (Reg.bulkCtrl n) = some n := by decide
    simp only [State.writeArray, h0 n h, h1 n h, h2 n h, h3 n h, h4 n h, h5 n h, h6 n h, h7 n h, Option.isSome_none, Bool.or_self, Bool.false_eq_true, if_false]

theorem State.hostWrite_rgnFabricCtrl (s : State) (src : Src) (w : Word) (n : Nat) (h : n < 72) :
    s.hostWrite src (Reg.rgnFabricCtrl n) w = (s.through src (Reg.rgnFabricCtrl n) w (s.writeFabric n w)).1 := by
  have ha : ∀ n, n < 72 → Reg.rgnFabricCtrl n % 8 = 0 ∧ inBlock (Reg.rgnFabricCtrl n) = true := by decide
  have hf : ∀ n, n < 72 → [Reg.modCtrl, Reg.modReset, Reg.modJobCtrl, Reg.rngCtrl, Reg.beatCtrl, Reg.beatTimeSec, Reg.beatTimeNs, Reg.beatSlack, Reg.pwrCap, Reg.pwrRamp, Reg.pwrOpLimit, Reg.pwrChrysalis, Reg.yrdCmd, Reg.skdCtrl, Reg.redCtrl, Reg.cxlCtrl, Reg.skyStand, Reg.skyCoord, Reg.skyAdmit, Reg.logNextTest, Reg.imgCtrl, Reg.fltKatRun, Reg.fltWatchSel].contains (Reg.rgnFabricCtrl n) = false := by decide
  have hf := hf n h
  simp only [List.contains_cons, List.contains_nil, Bool.or_eq_false_iff, beq_eq_false_iff_ne, ne_eq] at hf
  unfold State.hostWrite
  rw [State.writeReg_of s src _ w (ha n h), writeAt_array (r := s.writeFabric n w)]
  · simp only [State.writeFixed, hf, if_false, or_self]
  · have h0 : ∀ n, n < 72 → indexIn (Reg.beatOrigin 0) 0x20 8 (Reg.rgnFabricCtrl n) = none := by decide
    have h1 : ∀ n, n < 72 → indexIn (Reg.redStep 0) 0x20 8 (Reg.rgnFabricCtrl n) = none := by decide
    have h2 : ∀ n, n < 72 → indexIn (Reg.fltJob 0) 0x20 8 (Reg.rgnFabricCtrl n) = none := by decide
    have h3 : ∀ n, n < 72 → indexIn (Reg.stkWrapCmd 0) 0x400 24 (Reg.rgnFabricCtrl n) = none := by decide
    have h4 : ∀ n, n < 72 → indexIn (Reg.skyPortCtrl 0) 0x800 16 (Reg.rgnFabricCtrl n) = none := by decide
    have h5 : ∀ n, n < 72 → indexIn (Reg.ethPortCtrl 0) 0x400 2 (Reg.rgnFabricCtrl n) = none := by decide
    have h6 : ∀ n, n < 72 → indexIn (Reg.ethPtp 0) 0x400 2 (Reg.rgnFabricCtrl n) = none := by decide
    have h7 : ∀ n, n < 72 → indexIn (Reg.bulkCtrl 0) 0x40 4 (Reg.rgnFabricCtrl n) = none := by decide
    have h8 : ∀ n, n < 72 → indexIn (Reg.bulkAddr 0) 0x40 4 (Reg.rgnFabricCtrl n) = none := by decide
    have h9 : ∀ n, n < 72 → indexIn (Reg.bulkLen 0) 0x40 4 (Reg.rgnFabricCtrl n) = none := by decide
    have h10 : ∀ n, n < 72 → indexIn (Reg.bulkStride 0) 0x40 4 (Reg.rgnFabricCtrl n) = none := by decide
    have h11 : ∀ n, n < 72 → indexIn (Reg.rgnFabricCtrl 0) 0x1_0000 72 (Reg.rgnFabricCtrl n) = some n := by decide
    simp only [State.writeArray, h0 n h, h1 n h, h2 n h, h3 n h, h4 n h, h5 n h, h6 n h, h7 n h, h8 n h, h9 n h, h10 n h, h11 n h, Option.isSome_none, Bool.or_self, Bool.false_eq_true, if_false]

theorem State.hostWrite_fltJob (s : State) (src : Src) (w : Word) (n : Nat) (h : n < 8) :
    s.hostWrite src (Reg.fltJob n) w = (s.through src (Reg.fltJob n) w (judged (s.writeJob n w))).1 := by
  have ha : ∀ n, n < 8 → Reg.fltJob n % 8 = 0 ∧ inBlock (Reg.fltJob n) = true := by decide
  have hf : ∀ n, n < 8 → [Reg.modCtrl, Reg.modReset, Reg.modJobCtrl, Reg.rngCtrl, Reg.beatCtrl, Reg.beatTimeSec, Reg.beatTimeNs, Reg.beatSlack, Reg.pwrCap, Reg.pwrRamp, Reg.pwrOpLimit, Reg.pwrChrysalis, Reg.yrdCmd, Reg.skdCtrl, Reg.redCtrl, Reg.cxlCtrl, Reg.skyStand, Reg.skyCoord, Reg.skyAdmit, Reg.logNextTest, Reg.imgCtrl, Reg.fltKatRun, Reg.fltWatchSel].contains (Reg.fltJob n) = false := by decide
  have hf := hf n h
  simp only [List.contains_cons, List.contains_nil, Bool.or_eq_false_iff, beq_eq_false_iff_ne, ne_eq] at hf
  unfold State.hostWrite
  rw [State.writeReg_of s src _ w (ha n h), writeAt_array (r := judged (s.writeJob n w))]
  · simp only [State.writeFixed, hf, if_false, or_self]
  · have h0 : ∀ n, n < 8 → indexIn (Reg.beatOrigin 0) 0x20 8 (Reg.fltJob n) = none := by decide
    have h1 : ∀ n, n < 8 → indexIn (Reg.redStep 0) 0x20 8 (Reg.fltJob n) = none := by decide
    have h2 : ∀ n, n < 8 → indexIn (Reg.fltJob 0) 0x20 8 (Reg.fltJob n) = some n := by decide
    simp only [State.writeArray, h0 n h, h1 n h, h2 n h, Option.isSome_none, Bool.or_self, Bool.false_eq_true, if_false]

theorem State.hostWrite_rgnBreakerClear (s : State) (src : Src) (w : Word) (n : Nat) (h : n < 72) :
    s.hostWrite src (Reg.rgnBreakerClear n) w = (s.through src (Reg.rgnBreakerClear n) w (judged (s.clearBreaker n w))).1 := by
  have ha : ∀ n, n < 72 → Reg.rgnBreakerClear n % 8 = 0 ∧ inBlock (Reg.rgnBreakerClear n) = true := by decide
  have hf : ∀ n, n < 72 → [Reg.modCtrl, Reg.modReset, Reg.modJobCtrl, Reg.rngCtrl, Reg.beatCtrl, Reg.beatTimeSec, Reg.beatTimeNs, Reg.beatSlack, Reg.pwrCap, Reg.pwrRamp, Reg.pwrOpLimit, Reg.pwrChrysalis, Reg.yrdCmd, Reg.skdCtrl, Reg.redCtrl, Reg.cxlCtrl, Reg.skyStand, Reg.skyCoord, Reg.skyAdmit, Reg.logNextTest, Reg.imgCtrl, Reg.fltKatRun, Reg.fltWatchSel].contains (Reg.rgnBreakerClear n) = false := by decide
  have hf := hf n h
  simp only [List.contains_cons, List.contains_nil, Bool.or_eq_false_iff, beq_eq_false_iff_ne, ne_eq] at hf
  unfold State.hostWrite
  rw [State.writeReg_of s src _ w (ha n h), writeAt_array (r := judged (s.clearBreaker n w))]
  · simp only [State.writeFixed, hf, if_false, or_self]
  · have h0 : ∀ n, n < 72 → indexIn (Reg.beatOrigin 0) 0x20 8 (Reg.rgnBreakerClear n) = none := by decide
    have h1 : ∀ n, n < 72 → indexIn (Reg.redStep 0) 0x20 8 (Reg.rgnBreakerClear n) = none := by decide
    have h2 : ∀ n, n < 72 → indexIn (Reg.fltJob 0) 0x20 8 (Reg.rgnBreakerClear n) = none := by decide
    have h3 : ∀ n, n < 72 → indexIn (Reg.stkWrapCmd 0) 0x400 24 (Reg.rgnBreakerClear n) = none := by decide
    have h4 : ∀ n, n < 72 → indexIn (Reg.skyPortCtrl 0) 0x800 16 (Reg.rgnBreakerClear n) = none := by decide
    have h5 : ∀ n, n < 72 → indexIn (Reg.ethPortCtrl 0) 0x400 2 (Reg.rgnBreakerClear n) = none := by decide
    have h6 : ∀ n, n < 72 → indexIn (Reg.ethPtp 0) 0x400 2 (Reg.rgnBreakerClear n) = none := by decide
    have h7 : ∀ n, n < 72 → indexIn (Reg.bulkCtrl 0) 0x40 4 (Reg.rgnBreakerClear n) = none := by decide
    have h8 : ∀ n, n < 72 → indexIn (Reg.bulkAddr 0) 0x40 4 (Reg.rgnBreakerClear n) = none := by decide
    have h9 : ∀ n, n < 72 → indexIn (Reg.bulkLen 0) 0x40 4 (Reg.rgnBreakerClear n) = none := by decide
    have h10 : ∀ n, n < 72 → indexIn (Reg.bulkStride 0) 0x40 4 (Reg.rgnBreakerClear n) = none := by decide
    have h11 : ∀ n, n < 72 → indexIn (Reg.rgnFabricCtrl 0) 0x1_0000 72 (Reg.rgnBreakerClear n) = none := by decide
    have h12 : ∀ n, n < 72 → indexIn (Reg.rgnBreakerClear 0) 0x1_0000 72 (Reg.rgnBreakerClear n) = some n := by decide
    simp only [State.writeArray, h0 n h, h1 n h, h2 n h, h3 n h, h4 n h, h5 n h, h6 n h, h7 n h, h8 n h, h9 n h, h10 n h, h11 n h, h12 n h, Option.isSome_none, Bool.or_self, Bool.false_eq_true, if_false]

theorem State.hostWrite_redStep (s : State) (src : Src) (w : Word) (n : Nat) (h : n < 8) :
    s.hostWrite src (Reg.redStep n) w = (s.through src (Reg.redStep n) w (judged (s.writeRedStep n w))).1 := by
  have ha : ∀ n, n < 8 → Reg.redStep n % 8 = 0 ∧ inBlock (Reg.redStep n) = true := by decide
  have hf : ∀ n, n < 8 → [Reg.modCtrl, Reg.modReset, Reg.modJobCtrl, Reg.rngCtrl, Reg.beatCtrl, Reg.beatTimeSec, Reg.beatTimeNs, Reg.beatSlack, Reg.pwrCap, Reg.pwrRamp, Reg.pwrOpLimit, Reg.pwrChrysalis, Reg.yrdCmd, Reg.skdCtrl, Reg.redCtrl, Reg.cxlCtrl, Reg.skyStand, Reg.skyCoord, Reg.skyAdmit, Reg.logNextTest, Reg.imgCtrl, Reg.fltKatRun, Reg.fltWatchSel].contains (Reg.redStep n) = false := by decide
  have hf := hf n h
  simp only [List.contains_cons, List.contains_nil, Bool.or_eq_false_iff, beq_eq_false_iff_ne, ne_eq] at hf
  unfold State.hostWrite
  rw [State.writeReg_of s src _ w (ha n h), writeAt_array (r := judged (s.writeRedStep n w))]
  · simp only [State.writeFixed, hf, if_false, or_self]
  · have h0 : ∀ n, n < 8 → indexIn (Reg.beatOrigin 0) 0x20 8 (Reg.redStep n) = none := by decide
    have h1 : ∀ n, n < 8 → indexIn (Reg.redStep 0) 0x20 8 (Reg.redStep n) = some n := by decide
    simp only [State.writeArray, h0 n h, h1 n h, Option.isSome_none, Bool.or_self, Bool.false_eq_true, if_false]

theorem State.hostWrite_skyPortCtrl (s : State) (src : Src) (w : Word) (n : Nat) (h : n < 16) :
    s.hostWrite src (Reg.skyPortCtrl n) w = (s.through src (Reg.skyPortCtrl n) w ((s.writeSkyCtrl n w, Kct.ok))).1 := by
  have ha : ∀ n, n < 16 → Reg.skyPortCtrl n % 8 = 0 ∧ inBlock (Reg.skyPortCtrl n) = true := by decide
  have hf : ∀ n, n < 16 → [Reg.modCtrl, Reg.modReset, Reg.modJobCtrl, Reg.rngCtrl, Reg.beatCtrl, Reg.beatTimeSec, Reg.beatTimeNs, Reg.beatSlack, Reg.pwrCap, Reg.pwrRamp, Reg.pwrOpLimit, Reg.pwrChrysalis, Reg.yrdCmd, Reg.skdCtrl, Reg.redCtrl, Reg.cxlCtrl, Reg.skyStand, Reg.skyCoord, Reg.skyAdmit, Reg.logNextTest, Reg.imgCtrl, Reg.fltKatRun, Reg.fltWatchSel].contains (Reg.skyPortCtrl n) = false := by decide
  have hf := hf n h
  simp only [List.contains_cons, List.contains_nil, Bool.or_eq_false_iff, beq_eq_false_iff_ne, ne_eq] at hf
  unfold State.hostWrite
  rw [State.writeReg_of s src _ w (ha n h), writeAt_array (r := (s.writeSkyCtrl n w, Kct.ok))]
  · simp only [State.writeFixed, hf, if_false, or_self]
  · have h0 : ∀ n, n < 16 → indexIn (Reg.beatOrigin 0) 0x20 8 (Reg.skyPortCtrl n) = none := by decide
    have h1 : ∀ n, n < 16 → indexIn (Reg.redStep 0) 0x20 8 (Reg.skyPortCtrl n) = none := by decide
    have h2 : ∀ n, n < 16 → indexIn (Reg.fltJob 0) 0x20 8 (Reg.skyPortCtrl n) = none := by decide
    have h3 : ∀ n, n < 16 → indexIn (Reg.stkWrapCmd 0) 0x400 24 (Reg.skyPortCtrl n) = none := by decide
    have h4 : ∀ n, n < 16 → indexIn (Reg.skyPortCtrl 0) 0x800 16 (Reg.skyPortCtrl n) = some n := by decide
    simp only [State.writeArray, h0 n h, h1 n h, h2 n h, h3 n h, h4 n h, Option.isSome_none, Bool.or_self, Bool.false_eq_true, if_false]

theorem State.hostWrite_stkWrapCmd (s : State) (src : Src) (w : Word) (n : Nat) (h : n < 24) :
    s.hostWrite src (Reg.stkWrapCmd n) w = (s.through src (Reg.stkWrapCmd n) w (judged (s.wrapperWrite n w))).1 := by
  have ha : ∀ n, n < 24 → Reg.stkWrapCmd n % 8 = 0 ∧ inBlock (Reg.stkWrapCmd n) = true := by decide
  have hf : ∀ n, n < 24 → [Reg.modCtrl, Reg.modReset, Reg.modJobCtrl, Reg.rngCtrl, Reg.beatCtrl, Reg.beatTimeSec, Reg.beatTimeNs, Reg.beatSlack, Reg.pwrCap, Reg.pwrRamp, Reg.pwrOpLimit, Reg.pwrChrysalis, Reg.yrdCmd, Reg.skdCtrl, Reg.redCtrl, Reg.cxlCtrl, Reg.skyStand, Reg.skyCoord, Reg.skyAdmit, Reg.logNextTest, Reg.imgCtrl, Reg.fltKatRun, Reg.fltWatchSel].contains (Reg.stkWrapCmd n) = false := by decide
  have hf := hf n h
  simp only [List.contains_cons, List.contains_nil, Bool.or_eq_false_iff, beq_eq_false_iff_ne, ne_eq] at hf
  unfold State.hostWrite
  rw [State.writeReg_of s src _ w (ha n h), writeAt_array (r := judged (s.wrapperWrite n w))]
  · simp only [State.writeFixed, hf, if_false, or_self]
  · have h0 : ∀ n, n < 24 → indexIn (Reg.beatOrigin 0) 0x20 8 (Reg.stkWrapCmd n) = none := by decide
    have h1 : ∀ n, n < 24 → indexIn (Reg.redStep 0) 0x20 8 (Reg.stkWrapCmd n) = none := by decide
    have h2 : ∀ n, n < 24 → indexIn (Reg.fltJob 0) 0x20 8 (Reg.stkWrapCmd n) = none := by decide
    have h3 : ∀ n, n < 24 → indexIn (Reg.stkWrapCmd 0) 0x400 24 (Reg.stkWrapCmd n) = some n := by decide
    simp only [State.writeArray, h0 n h, h1 n h, h2 n h, h3 n h, Option.isSome_none, Bool.or_self, Bool.false_eq_true, if_false]

end Sys2Proof.Machine
end

