-- ==== Sys2Proof/Laws/TouchWrites.lean ====
section
/-! SUPPORT. Which pieces of State the commands that write one register may change. -/

namespace Sys2Proof.Machine

open Sys2Proof

theorem State.through_blur (μ : Nat) (hμ : 0x2 &&& μ = 0x2) (s : State) (src : Src) (a : Nat) (w : Word) (r : Wrote)
    (h : r.1.blur μ = s.blur μ) : (s.through src a w r).1.blur μ = s.blur μ := by
  unfold State.through
  dsimp only
  split
  · rfl
  · split
    · split
      · rw [State.tagged_blur μ (maskSub rfl hμ), State.reject_blur μ (maskSub rfl hμ)]
      · rw [State.reject_blur μ (maskSub rfl hμ)]
    · split
      · rw [State.tagged_blur μ (maskSub rfl hμ)]
        exact h
      · exact h

theorem ite_blur (μ : Nat) {c : Prop} [Decidable c] {a b s : State} (ha : a.blur μ = s.blur μ) (hb : b.blur μ = s.blur μ) :
    (if c then a else b).blur μ = s.blur μ := by
  split
  · exact ha
  · exact hb

theorem execAdmitGo_touch (μ : Nat) (hμ : 0x301e &&& μ = 0x301e) : ∀ src value s, ∀ t, execAdmitGo src value s = .next t → t.blur μ = s.blur μ := by
  intro src value s t h
  unfold execAdmitGo at h
  cases h
  rw [State.hostWrite_skyAdmit]
  refine State.through_blur μ (maskSub rfl hμ) _ _ _ _ _ ?_
  exact State.writeSkyAdmit_blur μ (maskSub rfl hμ) _ _

theorem execAdmitLeave_touch (μ : Nat) (hμ : 0x301e &&& μ = 0x301e) : ∀ src value s, ∀ t, execAdmitLeave src value s = .next t → t.blur μ = s.blur μ := by
  intro src value s t h
  unfold execAdmitLeave at h
  cases h
  rw [State.hostWrite_skyAdmit]
  refine State.through_blur μ (maskSub rfl hμ) _ _ _ _ _ ?_
  exact State.writeSkyAdmit_blur μ (maskSub rfl hμ) _ _

theorem execBeatSlackSend_touch (μ : Nat) (hμ : 0x12 &&& μ = 0x12) : ∀ src value s, ∀ t, execBeatSlackSend src value s = .next t → t.blur μ = s.blur μ := by
  intro src value s t h
  unfold execBeatSlackSend at h
  cases h
  rw [State.hostWrite_beatSlack]
  refine State.through_blur μ (maskSub rfl hμ) _ _ _ _ _ ?_
  exact State.writeSlack_blur μ (maskSub rfl hμ) _ _

theorem execModuleReset_touch (μ : Nat) (hμ : 0xdffffefa &&& μ = 0xdffffefa) : ∀ src value s, ∀ t, execModuleReset src value s = .next t → t.blur μ = s.blur μ := by
  intro src value s t h
  unfold execModuleReset at h
  cases h
  rw [State.hostWrite_modCtrl]
  refine State.through_blur μ (maskSub rfl hμ) _ _ _ _ _ ?_
  exact State.writeModCtrl_blur μ (maskSub rfl hμ) _ _ _

theorem execRetire_touch (μ : Nat) (hμ : 0xdffffefa &&& μ = 0xdffffefa) : ∀ src value s, ∀ t, execRetire src value s = .next t → t.blur μ = s.blur μ := by
  intro src value s t h
  unfold execRetire at h
  cases h
  rw [State.hostWrite_modCtrl]
  refine State.through_blur μ (maskSub rfl hμ) _ _ _ _ _ ?_
  exact State.writeModCtrl_blur μ (maskSub rfl hμ) _ _ _

theorem execPowerOff_touch (μ : Nat) (hμ : 0xdffffefa &&& μ = 0xdffffefa) : ∀ src value s, ∀ t, execPowerOff src value s = .next t → t.blur μ = s.blur μ := by
  intro src value s t h
  unfold execPowerOff at h
  cases h
  rw [State.hostWrite_modCtrl]
  refine State.through_blur μ (maskSub rfl hμ) _ _ _ _ _ ?_
  exact State.writeModCtrl_blur μ (maskSub rfl hμ) _ _ _

theorem execPowerOn_touch (μ : Nat) (hμ : 0xdffffefa &&& μ = 0xdffffefa) : ∀ src value s, ∀ t, execPowerOn src value s = .next t → t.blur μ = s.blur μ := by
  intro src value s t h
  unfold execPowerOn at h
  cases h
  rw [State.hostWrite_modCtrl]
  refine State.through_blur μ (maskSub rfl hμ) _ _ _ _ _ ?_
  exact State.writeModCtrl_blur μ (maskSub rfl hμ) _ _ _

theorem execRangerRestart_touch (μ : Nat) (hμ : 0xbffffefa &&& μ = 0xbffffefa) : ∀ src value s, ∀ t, execRangerRestart src value s = .next t → t.blur μ = s.blur μ := by
  intro src value s t h
  unfold execRangerRestart at h
  cases h
  rw [State.hostWrite_rngCtrl]
  refine State.through_blur μ (maskSub rfl hμ) _ _ _ _ _ ?_
  exact State.writeRngCtrl_blur μ (maskSub rfl hμ) _ _

theorem execChrysalisEnter_touch (μ : Nat) (hμ : 0x12 &&& μ = 0x12) : ∀ src value s, ∀ t, execChrysalisEnter src value s = .next t → t.blur μ = s.blur μ := by
  intro src value s t h
  unfold execChrysalisEnter at h
  cases h
  rw [State.hostWrite_pwrChrysalis]
  refine State.through_blur μ (maskSub rfl hμ) _ _ _ _ _ ?_
  exact State.writeChrysalis_blur μ (maskSub rfl hμ) _ _

theorem execChrysalisWake_touch (μ : Nat) (hμ : 0x12 &&& μ = 0x12) : ∀ src value s, ∀ t, execChrysalisWake src value s = .next t → t.blur μ = s.blur μ := by
  intro src value s t h
  unfold execChrysalisWake at h
  cases h
  rw [State.hostWrite_pwrChrysalis]
  refine State.through_blur μ (maskSub rfl hμ) _ _ _ _ _ ?_
  exact State.writeChrysalis_blur μ (maskSub rfl hμ) _ _

theorem execBulkOpen_touch (μ : Nat) (hμ : 0x20001a &&& μ = 0x20001a) : ∀ src window value s, (window < 4) → ∀ t, execBulkOpen src window value s = .next t → t.blur μ = s.blur μ := by
  intro src window value s hn t h
  unfold execBulkOpen at h
  cases h
  refine ite_blur μ ?_ rfl
  · rw [State.hostWrite_bulkCtrl _ _ _ _ hn]
    refine State.through_blur μ (maskSub rfl hμ) _ _ _ _ _ ?_
    exact State.bulkCtrl_blur μ (maskSub rfl hμ) _ _ _ _

theorem execBulkClose_touch (μ : Nat) (hμ : 0x20001a &&& μ = 0x20001a) : ∀ src window value s, (window < 4) → ∀ t, execBulkClose src window value s = .next t → t.blur μ = s.blur μ := by
  intro src window value s hn t h
  unfold execBulkClose at h
  cases h
  refine ite_blur μ ?_ rfl
  · rw [State.hostWrite_bulkCtrl _ _ _ _ hn]
    refine State.through_blur μ (maskSub rfl hμ) _ _ _ _ _ ?_
    exact State.bulkCtrl_blur μ (maskSub rfl hμ) _ _ _ _

theorem execDetourClear_touch (μ : Nat) (hμ : 0x412 &&& μ = 0x412) : ∀ src region value s, (region < 72) → ∀ t, execDetourClear src region value s = .next t → t.blur μ = s.blur μ := by
  intro src region value s hn t h
  unfold execDetourClear at h
  cases h
  rw [State.hostWrite_rgnFabricCtrl _ _ _ _ hn]
  refine State.through_blur μ (maskSub rfl hμ) _ _ _ _ _ ?_
  exact State.writeFabric_blur μ (maskSub rfl hμ) _ _ _

theorem execJobStart_touch (μ : Nat) (hμ : 0x8800012 &&& μ = 0x8800012) : ∀ src value s, ∀ t, execJobStart src value s = .next t → t.blur μ = s.blur μ := by
  intro src value s t h
  unfold execJobStart at h
  cases h
  rw [State.hostWrite_modJobCtrl]
  refine State.through_blur μ (maskSub rfl hμ) _ _ _ _ _ ?_
  exact State.writeJobCtrl_blur μ (maskSub rfl hμ) _ _

theorem execJobDrain_touch (μ : Nat) (hμ : 0x8800012 &&& μ = 0x8800012) : ∀ src value s, ∀ t, execJobDrain src value s = .next t → t.blur μ = s.blur μ := by
  intro src value s t h
  unfold execJobDrain at h
  cases h
  rw [State.hostWrite_modJobCtrl]
  refine State.through_blur μ (maskSub rfl hμ) _ _ _ _ _ ?_
  exact State.writeJobCtrl_blur μ (maskSub rfl hμ) _ _

theorem execSlotRollback_touch (μ : Nat) (hμ : 0x1410be &&& μ = 0x1410be) : ∀ src value s, ∀ t, execSlotRollback src value s = .next t → t.blur μ = s.blur μ := by
  intro src value s t h
  unfold execSlotRollback at h
  cases h
  rw [State.hostWrite_redCtrl]
  refine State.through_blur μ (maskSub rfl hμ) _ _ _ _ _ ?_
  dsimp only
  exact State.writeRedCtrl_blur μ (maskSub rfl hμ) _ _

theorem execJobRestart_touch (μ : Nat) (hμ : 0x8000012 &&& μ = 0x8000012) : ∀ src slot value s, (slot < 8) → ∀ t, execJobRestart src slot value s = .next t → t.blur μ = s.blur μ := by
  intro src slot value s hn t h
  unfold execJobRestart at h
  cases h
  rw [State.hostWrite_fltJob _ _ _ _ hn]
  refine State.through_blur μ (maskSub rfl hμ) _ _ _ _ _ ?_
  exact State.writeJob_blur μ (maskSub rfl hμ) _ _ _

theorem execKatRun_touch (μ : Nat) (hμ : 0x4000032 &&& μ = 0x4000032) : ∀ src value s, ∀ t, execKatRun src value s = .next t → t.blur μ = s.blur μ := by
  intro src value s t h
  unfold execKatRun at h
  cases h
  rw [State.hostWrite_fltKatRun]
  refine State.through_blur μ (maskSub rfl hμ) _ _ _ _ _ ?_
  exact State.writeKatRun_blur μ (maskSub rfl hμ) _ _

theorem execWatchRemove_touch (μ : Nat) (hμ : 0x44000012 &&& μ = 0x44000012) : ∀ src value s, ∀ t, execWatchRemove src value s = .next t → t.blur μ = s.blur μ := by
  intro src value s t h
  unfold execWatchRemove at h
  cases h
  rw [State.hostWrite_fltWatchSel]
  refine State.through_blur μ (maskSub rfl hμ) _ _ _ _ _ ?_
  exact State.writeWatchSel_blur μ (maskSub rfl hμ) _ _

theorem execImgStart_touch (μ : Nat) (hμ : 0x39e00fa &&& μ = 0x39e00fa) : ∀ src value s, ∀ t, execImgStart src value s = .next t → t.blur μ = s.blur μ := by
  intro src value s t h
  unfold execImgStart at h
  cases h
  rw [State.hostWrite_imgCtrl]
  refine State.through_blur μ (maskSub rfl hμ) _ _ _ _ _ ?_
  exact State.writeImgCtrl_blur μ (maskSub rfl hμ) _ _

theorem execImgAbort_touch (μ : Nat) (hμ : 0x39e00fa &&& μ = 0x39e00fa) : ∀ src value s, ∀ t, execImgAbort src value s = .next t → t.blur μ = s.blur μ := by
  intro src value s t h
  unfold execImgAbort at h
  cases h
  rw [State.hostWrite_imgCtrl]
  refine State.through_blur μ (maskSub rfl hμ) _ _ _ _ _ ?_
  exact State.writeImgCtrl_blur μ (maskSub rfl hμ) _ _

theorem execPwrCapWrite_touch (μ : Nat) (hμ : 0x1000012 &&& μ = 0x1000012) : ∀ src value s, ∀ t, execPwrCapWrite src value s = .next t → t.blur μ = s.blur μ := by
  intro src value s t h
  unfold execPwrCapWrite at h
  cases h
  rw [State.hostWrite_pwrCap]
  refine State.through_blur μ (maskSub rfl hμ) _ _ _ _ _ ?_
  exact State.writeCap_blur μ (maskSub rfl hμ) _ _

theorem execPwrRampWrite_touch (μ : Nat) (hμ : 0x12 &&& μ = 0x12) : ∀ src value s, ∀ t, execPwrRampWrite src value s = .next t → t.blur μ = s.blur μ := by
  intro src value s t h
  unfold execPwrRampWrite at h
  cases h
  rw [State.hostWrite_pwrRamp]
  refine State.through_blur μ (maskSub rfl hμ) _ _ _ _ _ ?_
  exact State.writeRamp_blur μ (maskSub rfl hμ) _ _

theorem execBreakerClear_touch (μ : Nat) (hμ : 0x412 &&& μ = 0x412) : ∀ src region value s, (region < 72) → ∀ t, execBreakerClear src region value s = .next t → t.blur μ = s.blur μ := by
  intro src region value s hn t h
  unfold execBreakerClear at h
  cases h
  rw [State.hostWrite_rgnBreakerClear _ _ _ _ hn]
  refine State.through_blur μ (maskSub rfl hμ) _ _ _ _ _ ?_
  exact State.clearBreaker_blur μ (maskSub rfl hμ) _ _ _

theorem execRedStepWrite_touch (μ : Nat) (hμ : 0x140032 &&& μ = 0x140032) : ∀ src slot value s, (slot < 8) → ∀ t, execRedStepWrite src slot value s = .next t → t.blur μ = s.blur μ := by
  intro src slot value s hn t h
  unfold execRedStepWrite at h
  cases h
  rw [State.hostWrite_redStep _ _ _ _ hn]
  refine State.through_blur μ (maskSub rfl hμ) _ _ _ _ _ ?_
  exact State.writeRedStep_blur μ (maskSub rfl hμ) _ _ _

theorem execModResetGo_touch (μ : Nat) (hμ : 0x12 &&& μ = 0x12) : ∀ src value s, ∀ t, execModResetGo src value s = .next t → t.blur μ = s.blur μ := by
  intro src value s t h
  unfold execModResetGo at h
  cases h
  rw [State.hostWrite_modReset]
  refine State.through_blur μ (maskSub rfl hμ) _ _ _ _ _ ?_
  exact State.writeModReset_blur μ (maskSub rfl hμ) _ _

theorem execSkidderStop_touch (μ : Nat) (hμ : 0xc0002 &&& μ = 0xc0002) : ∀ src value s, ∀ t, execSkidderStop src value s = .next t → t.blur μ = s.blur μ := by
  intro src value s t h
  unfold execSkidderStop at h
  cases h
  rw [State.hostWrite_skdCtrl]
  refine State.through_blur μ (maskSub rfl hμ) _ _ _ _ _ ?_
  dsimp only
  exact State.skdCtrl_blur μ (maskSub rfl hμ) _ _

theorem execSkyRetrainCommand_touch (μ : Nat) (hμ : 0x1012 &&& μ = 0x1012) : ∀ src port value s, (port < 16) → ∀ t, execSkyRetrainCommand src port value s = .next t → t.blur μ = s.blur μ := by
  intro src port value s hn t h
  unfold execSkyRetrainCommand at h
  cases h
  refine ite_blur μ ?_ rfl
  · rw [State.hostWrite_skyPortCtrl _ _ _ _ hn]
    refine State.through_blur μ (maskSub rfl hμ) _ _ _ _ _ ?_
    dsimp only
    exact State.writeSkyCtrl_blur μ (maskSub rfl hμ) _ _ _

theorem execWrapperGo_touch (μ : Nat) (hμ : 0x12 &&& μ = 0x12) : ∀ src stack value s, (stack < 24) → ∀ t, execWrapperGo src stack value s = .next t → t.blur μ = s.blur μ := by
  intro src stack value s hn t h
  unfold execWrapperGo at h
  cases h
  rw [State.hostWrite_stkWrapCmd _ _ _ _ hn]
  refine State.through_blur μ (maskSub rfl hμ) _ _ _ _ _ ?_
  exact State.wrapperWrite_blur μ (maskSub rfl hμ) _ _ _

theorem execCxlRescan_touch (μ : Nat) (hμ : 0x20002 &&& μ = 0x20002) : ∀ src value s, ∀ t, execCxlRescan src value s = .next t → t.blur μ = s.blur μ := by
  intro src value s t h
  unfold execCxlRescan at h
  cases h
  rw [State.hostWrite_cxlCtrl]
  refine State.through_blur μ (maskSub rfl hμ) _ _ _ _ _ ?_
  exact State.rescan_blur μ (maskSub rfl hμ) _ _

theorem execCreate_touch (μ : Nat) (hμ : 0x6001a &&& μ = 0x6001a) : ∀ src value s, ∀ t, execCreate src value s = .next t → t.blur μ = s.blur μ := by
  intro src value s t h
  unfold execCreate at h
  cases h
  unfold State.yardWrite
  refine ite_blur μ ?_ rfl
  · rw [State.hostWrite_yrdCmd]
    refine State.through_blur μ (maskSub rfl hμ) _ _ _ _ _ ?_
    exact State.yrdCommand_blur μ (maskSub rfl hμ) _ _

theorem execDestroy_touch (μ : Nat) (hμ : 0x6001a &&& μ = 0x6001a) : ∀ src value s, ∀ t, execDestroy src value s = .next t → t.blur μ = s.blur μ := by
  intro src value s t h
  unfold execDestroy at h
  cases h
  unfold State.yardWrite
  refine ite_blur μ ?_ rfl
  · rw [State.hostWrite_yrdCmd]
    refine State.through_blur μ (maskSub rfl hμ) _ _ _ _ _ ?_
    exact State.yrdCommand_blur μ (maskSub rfl hμ) _ _

theorem execPromote_touch (μ : Nat) (hμ : 0x6001a &&& μ = 0x6001a) : ∀ src value s, ∀ t, execPromote src value s = .next t → t.blur μ = s.blur μ := by
  intro src value s t h
  unfold execPromote at h
  cases h
  unfold State.yardWrite
  refine ite_blur μ ?_ rfl
  · rw [State.hostWrite_yrdCmd]
    refine State.through_blur μ (maskSub rfl hμ) _ _ _ _ _ ?_
    exact State.yrdCommand_blur μ (maskSub rfl hμ) _ _

theorem execDemote_touch (μ : Nat) (hμ : 0x6001a &&& μ = 0x6001a) : ∀ src value s, ∀ t, execDemote src value s = .next t → t.blur μ = s.blur μ := by
  intro src value s t h
  unfold execDemote at h
  cases h
  unfold State.yardWrite
  refine ite_blur μ ?_ rfl
  · rw [State.hostWrite_yrdCmd]
    refine State.through_blur μ (maskSub rfl hμ) _ _ _ _ _ ?_
    exact State.yrdCommand_blur μ (maskSub rfl hμ) _ _

theorem execPin_touch (μ : Nat) (hμ : 0x6001a &&& μ = 0x6001a) : ∀ src value s, ∀ t, execPin src value s = .next t → t.blur μ = s.blur μ := by
  intro src value s t h
  unfold execPin at h
  cases h
  unfold State.yardWrite
  refine ite_blur μ ?_ rfl
  · rw [State.hostWrite_yrdCmd]
    refine State.through_blur μ (maskSub rfl hμ) _ _ _ _ _ ?_
    exact State.yrdCommand_blur μ (maskSub rfl hμ) _ _

theorem execUnpin_touch (μ : Nat) (hμ : 0x6001a &&& μ = 0x6001a) : ∀ src value s, ∀ t, execUnpin src value s = .next t → t.blur μ = s.blur μ := by
  intro src value s t h
  unfold execUnpin at h
  cases h
  unfold State.yardWrite
  refine ite_blur μ ?_ rfl
  · rw [State.hostWrite_yrdCmd]
    refine State.through_blur μ (maskSub rfl hμ) _ _ _ _ _ ?_
    exact State.yrdCommand_blur μ (maskSub rfl hμ) _ _

/-! ## From a mask to the pieces that stay -/

/-- The place of a piece in a mask. -/
def Part.index : Part → Nat
  | .pending => 0
  | .inFlight => 1
  | .out => 2
  | .freeCtr => 3
  | .regs => 4
  | .cells => 5
  | .fms => 6
  | .slots => 7
  | .spares => 8
  | .routers => 9
  | .rgns => 10
  | .foreign => 11
  | .skys => 12
  | .admission => 13
  | .eras => 14
  | .nap => 15
  | .tilesHeld => 16
  | .tiers => 17
  | .yard => 18
  | .streams => 19
  | .reds => 20
  | .eth => 21
  | .boot => 22
  | .beats => 23
  | .power => 24
  | .ldr => 25
  | .flt => 26
  | .jobs => 27
  | .resets => 28
  | .rng => 29
  | .book => 30
  | .tallyLast => 31

theorem same_of_blur {μ : Nat} {s t : State} (h : t.blur μ = s.blur μ) (p : Part) (hp : μ.testBit p.index = false) : p.same s t := by
  cases p
  · have k := congrArg State.pending h
    have hp : μ.testBit 0 = false := hp
    simpa only [Part.same, State.blur, hp, Bool.false_eq_true, if_false] using k
  · have k := congrArg State.inFlight h
    have hp : μ.testBit 1 = false := hp
    simpa only [Part.same, State.blur, hp, Bool.false_eq_true, if_false] using k
  · have k := congrArg State.out h
    have hp : μ.testBit 2 = false := hp
    simpa only [Part.same, State.blur, hp, Bool.false_eq_true, if_false] using k
  · have k := congrArg State.freeCtr h
    have hp : μ.testBit 3 = false := hp
    simpa only [Part.same, State.blur, hp, Bool.false_eq_true, if_false] using k
  · have k := congrArg State.regs h
    have hp : μ.testBit 4 = false := hp
    simpa only [Part.same, State.blur, hp, Bool.false_eq_true, if_false] using k
  · have k := congrArg State.cells h
    have hp : μ.testBit 5 = false := hp
    simpa only [Part.same, State.blur, hp, Bool.false_eq_true, if_false] using k
  · have k := congrArg State.fms h
    have hp : μ.testBit 6 = false := hp
    simpa only [Part.same, State.blur, hp, Bool.false_eq_true, if_false] using k
  · have k := congrArg State.slots h
    have hp : μ.testBit 7 = false := hp
    simpa only [Part.same, State.blur, hp, Bool.false_eq_true, if_false] using k
  · have k := congrArg State.spares h
    have hp : μ.testBit 8 = false := hp
    simpa only [Part.same, State.blur, hp, Bool.false_eq_true, if_false] using k
  · have k := congrArg State.routers h
    have hp : μ.testBit 9 = false := hp
    simpa only [Part.same, State.blur, hp, Bool.false_eq_true, if_false] using k
  · have k := congrArg State.rgns h
    have hp : μ.testBit 10 = false := hp
    simpa only [Part.same, State.blur, hp, Bool.false_eq_true, if_false] using k
  · have k := congrArg State.foreign h
    have hp : μ.testBit 11 = false := hp
    simpa only [Part.same, State.blur, hp, Bool.false_eq_true, if_false] using k
  · have k := congrArg State.skys h
    have hp : μ.testBit 12 = false := hp
    simpa only [Part.same, State.blur, hp, Bool.false_eq_true, if_false] using k
  · have k := congrArg State.admission h
    have hp : μ.testBit 13 = false := hp
    simpa only [Part.same, State.blur, hp, Bool.false_eq_true, if_false] using k
  · have k := congrArg State.eras h
    have hp : μ.testBit 14 = false := hp
    simpa only [Part.same, State.blur, hp, Bool.false_eq_true, if_false] using k
  · have k := congrArg State.nap h
    have hp : μ.testBit 15 = false := hp
    simpa only [Part.same, State.blur, hp, Bool.false_eq_true, if_false] using k
  · have k := congrArg State.tilesHeld h
    have hp : μ.testBit 16 = false := hp
    simpa only [Part.same, State.blur, hp, Bool.false_eq_true, if_false] using k
  · have k := congrArg State.tiers h
    have hp : μ.testBit 17 = false := hp
    simpa only [Part.same, State.blur, hp, Bool.false_eq_true, if_false] using k
  · have k := congrArg State.yard h
    have hp : μ.testBit 18 = false := hp
    simpa only [Part.same, State.blur, hp, Bool.false_eq_true, if_false] using k
  · have k := congrArg State.streams h
    have hp : μ.testBit 19 = false := hp
    simpa only [Part.same, State.blur, hp, Bool.false_eq_true, if_false] using k
  · have k := congrArg State.reds h
    have hp : μ.testBit 20 = false := hp
    simpa only [Part.same, State.blur, hp, Bool.false_eq_true, if_false] using k
  · have k := congrArg State.eth h
    have hp : μ.testBit 21 = false := hp
    simpa only [Part.same, State.blur, hp, Bool.false_eq_true, if_false] using k
  · have k := congrArg State.boot h
    have hp : μ.testBit 22 = false := hp
    simpa only [Part.same, State.blur, hp, Bool.false_eq_true, if_false] using k
  · have k := congrArg State.beats h
    have hp : μ.testBit 23 = false := hp
    simpa only [Part.same, State.blur, hp, Bool.false_eq_true, if_false] using k
  · have k := congrArg State.power h
    have hp : μ.testBit 24 = false := hp
    simpa only [Part.same, State.blur, hp, Bool.false_eq_true, if_false] using k
  · have k := congrArg State.ldr h
    have hp : μ.testBit 25 = false := hp
    simpa only [Part.same, State.blur, hp, Bool.false_eq_true, if_false] using k
  · have k := congrArg State.flt h
    have hp : μ.testBit 26 = false := hp
    simpa only [Part.same, State.blur, hp, Bool.false_eq_true, if_false] using k
  · have k := congrArg State.jobs h
    have hp : μ.testBit 27 = false := hp
    simpa only [Part.same, State.blur, hp, Bool.false_eq_true, if_false] using k
  · have k := congrArg State.resets h
    have hp : μ.testBit 28 = false := hp
    simpa only [Part.same, State.blur, hp, Bool.false_eq_true, if_false] using k
  · have k := congrArg State.rng h
    have hp : μ.testBit 29 = false := hp
    simpa only [Part.same, State.blur, hp, Bool.false_eq_true, if_false] using k
  · have k := congrArg State.book h
    have hp : μ.testBit 30 = false := hp
    simpa only [Part.same, State.blur, hp, Bool.false_eq_true, if_false] using k
  · have k := congrArg State.tallyLast h
    have hp : μ.testBit 31 = false := hp
    simpa only [Part.same, State.blur, hp, Bool.false_eq_true, if_false] using k

end Sys2Proof.Machine
end

