-- ==== Sys2Proof/Tests/Slice0.lean ====
section
/-! SUPPORT. Tests: ill-formed commands that wf refuses, the worked examples of the spec, and for each statement about commands states and
operands that meet its hypotheses (wit_<statement>), with one case for each of its clauses at the ends of its ranges. Two kinds of premise have
no state here: a licence or a release key's command whose signature is good, since the vendor's release keys are opaque constants of Config. -/

namespace Sys2Proof.Tests

open Sys2Proof Sys2Proof.Machine

set_option Elab.async false

/-! ## Ill-formed commands are refused -/

theorem wf_cell : wf (.stepEnd (287 * 512 + 479) 0) = true ∧ wf (.stepEnd (288 * 512) 0) = false ∧ wf (.stepEnd 480 0) = false := by decide
theorem wf_foreman : wf (.fmnHalt ⟨71, 29⟩) = true ∧ wf (.fmnHalt ⟨72, 0⟩) = false ∧ wf (.fmnHalt ⟨0, 30⟩) = false := by decide
theorem wf_region : wf (.breakerTrip 71) = true ∧ wf (.breakerTrip 72) = false := by decide
theorem wf_half : wf (.stretchRelease 143) = true ∧ wf (.stretchRelease 144) = false := by decide
theorem wf_slot : wf (.streamEnd 7) = true ∧ wf (.streamEnd 8) = false := by decide
theorem wf_sky : wf (.leave 15) = true ∧ wf (.leave 16) = false := by decide
theorem wf_eth : wf (.ethLinkUp 1) = true ∧ wf (.ethLinkUp 2) = false := by decide
theorem wf_qp : wf (.roceDisconnect 63) = true ∧ wf (.roceDisconnect 64) = false := by decide
theorem wf_stack : wf (.wrapperGo .firmware 23 0) = true ∧ wf (.wrapperGo .firmware 24 0) = false := by decide
theorem wf_cxl : wf (.cxlLinkDown 3) = true ∧ wf (.cxlLinkDown 4) = false := by decide
theorem wf_hub : wf (.barrierTimerExpiry (.region 71) 0) = true ∧ wf (.barrierTimerExpiry (.region 72) 0) = false ∧
    wf (.barrierProbe (.foreman ⟨0, 30⟩) 0) = false := by decide
theorem wf_entrant : wf (.barrierEnter (.module 8191) 0 0) = true ∧ wf (.barrierEnter (.module 8192) 0 0) = false ∧ wf (.barrierEnter (.cell 480) 0 0) = false := by
  decide
theorem wf_target : wf (.loadOpen (.cell 0)) = true ∧ wf (.loadOpen (.cell 480)) = false ∧ wf (.loadOpen (.foreman ⟨72, 0⟩)) = false := by decide
theorem wf_unit : wf (.testComplete (.region 71) .region true) = true ∧ wf (.testComplete (.region 72) .region true) = false := by decide
theorem wf_scope : wf (.reset .block .drain 2159) = true ∧ wf (.reset .block .drain 2160) = false ∧ wf (.reset .partition .drain 8) = false ∧
    wf (.reset .cell .drain 480) = false := by decide
theorem wf_address : wf (.registerWrite .firmware 0xFFFF_FFFF 0) = true ∧ wf (.registerWrite .firmware 0x1_0000_0000 0) = false := by decide
theorem wf_fields : wf (.windowFlag 0 7 true) = true ∧ wf (.windowFlag 0 8 true) = false ∧ wf (.looperStart 0 4096) = false ∧ wf (.scalarWrite 0 16 0) = false ∧
    wf (.grant 0 2) = false ∧ wf (.tallyRead 0 15) = false := by decide
theorem wf_units : wf (.rdimmFail 64) = false ∧ wf (.caParityError 768 false) = false ∧ wf (.bulkAckTimer 4) = false ∧ wf (.sessionIdleTimeout 0) = false ∧
    wf (.sessionIdleTimeout 17) = false ∧ wf (.pauseReceived 0 8 true 0) = false := by decide

/-! ## States for the tests -/

/-- Reset with slot 0 holding a loaded image on region 0, all of whose blocks are present and required. -/
def loaded : State :=
  (State.reset.setRgn 0 { RgnSt.reset with map := 0x3FFF_FFFF }).setSlot 0 { SlotSt.reset with state := .loaded, required := [0x3FFF_FFFF] }

/-- Foreman 0 of region 0. -/
def fm0 : FmId := ⟨0, 0⟩

/-- Foreman 0 runs with `w` as its first instruction, the registers `r` from s0 up, and what `g` sets. -/
def fmState (w : Nat) (r : List Word) (g : FmSt → FmSt) : State :=
  let x : FmSt := r.zipIdx.foldl (fun x e => x.setS e.2 e.1) { FmSt.reset with configured := true, prog := .running }
  loaded.setFm fm0 (g { x with fprog := x.fprog.write 0 (toLE 8 w) })

/-- An instruction word of R126. -/
def fmWord (op d a b imm : Nat) : Nat := op * 2 ^ 56 + d * 2 ^ 51 + a * 2 ^ 46 + b * 2 ^ 41 + imm

/-- Cell 0 runs with `b` as its first step, and what `g` sets. -/
def cellState (b : Nat) (g : CellSt → CellSt) : State :=
  let x := { CellSt.reset with looper := .running, configured := true }
  loaded.setCell 0 (g { x with stepMem := x.stepMem.write 0 (toLE 16 b) })

/-- A step of R87: class, bits [123:88] and [87:0]. -/
def stepBits (cls hi lo : Nat) : Nat := cls * 2 ^ 124 + hi * 2 ^ 88 + lo

/-- A run of step `b`, done or not. -/
def runOf (b : Nat) (done : Bool) : Run :=
  { index := 0, bits := BitVec.ofNat 128 b, seq0 := 0, lastIter := true, epoch := 0, exec0 := 0, width := 0, view := .w40, next := 0,
    hold := .none, done := done, heldB := none }

/-- An object of one extent in tier `t` at extent 0, owned by slot 0. -/
def objAt (t : Nat) (st : ObjState) (pins : Nat) : Obj :=
  { owner := 0, charged := 0, shared := true, param := false, tiled := false, pitch := 0, prefer := none, extents := 1, t0 := none, state := st, tier := t,
    place := [(0, 1)], pins := pins, refs := 0, stamp := 0, damaged := false, cb := [], dirty := [] }

/-- A tile header's 32 bytes with its check: of cell 0, one row of four columns of format `fmt`. -/
def hdrBytes (fmt : Nat) : Bytes :=
  let b := toLE 28 ((1 * 2 ^ 184 + 4 * 2 ^ 172 + fmt * 2 ^ 166) / 2 ^ 32)
  toLE 4 (crc32c b).toNat ++ b

/-! ## Witnesses of the statements' hypotheses -/

theorem wit_ForemanArithmetic :
    ∀ e ∈ [(1, 3, 0, 0, 0xFFFF_FFFF), (2, 31, 0, 0, 5), (3, 3, 1, 2, 0), (4, 3, 1, 2, 0), (5, 3, 1, 0, 7), (6, 3, 1, 2, 0), (7, 3, 1, 2, 0), (8, 3, 1, 2, 0),
      (9, 3, 1, 0, 63), (10, 3, 1, 0, 63), (11, 3, 1, 2, 0), (12, 3, 1, 2, 0), (13, 3, 1, 2, 0), (14, 3, 1, 2, 0)],
    ∃ (s : State) (w : FmIns), wfFm fm0 = true ∧ s.fmReady fm0 w ∧ (w.extractLsb' 56 8).toNat = e.1 := by
  intro e h
  refine ⟨fmState (fmWord e.1 e.2.1 e.2.2.1 e.2.2.2.1 e.2.2.2.2) [1, 2, 3] id, BitVec.ofNat 64 (fmWord e.1 e.2.1 e.2.2.1 e.2.2.2.1 e.2.2.2.2), ?_⟩
  revert e
  unfold State.fmReady
  decide

theorem wit_ForemanFlow :
    ∀ e ∈ [(0, 0, 0), (0x10, 0, 8191), (0x11, 0, 5), (0x11, 1, 5), (0x12, 0, 5), (0x12, 1, 5), (0x13, 0, 0)],
    ∃ (s : State) (w : FmIns), s.fmReady fm0 w ∧ (w.extractLsb' 56 8).toNat = e.1 ∧ (w.extractLsb' 46 5).toNat = e.2.1 ∧ (s.fm fm0).s 0 = 0 := by
  intro e h
  refine ⟨fmState (fmWord e.1 0 e.2.1 0 e.2.2) [0, 1] id, BitVec.ofNat 64 (fmWord e.1 0 e.2.1 0 e.2.2), ?_⟩
  revert e
  unfold State.fmReady
  decide

/-- The CURVE table 0 of a foreman with points at the steps given, factor 1.0 each, and the rest unused. -/
def curveMem (steps : List Nat) : Mem :=
  ⟨(List.range 512).zip (steps.flatMap (fun k => toLE 4 k ++ toLE 4 0x3F80_0000) ++ List.replicate (512 - 8 * steps.length) 255), []⟩

theorem wit_ForemanReads :
    (∃ (s : State) (w : FmIns), s.fmReady fm0 w ∧ (w.extractLsb' 56 8).toNat = 0x18 ∧ s.slotOfRegion 0 = some 0) ∧
    (∃ (s : State) (w : FmIns), s.fmReady fm0 w ∧ (w.extractLsb' 56 8).toNat = 0x19 ∧ (s.fm fm0).fcurveEcc = false) ∧
    (∃ (s : State) (w : FmIns), s.fmReady fm0 w ∧ (w.extractLsb' 56 8).toNat = 0x2B ∧ (s.fm fm0).fcurveEcc = false ∧ s.slotOfRegion 0 = some 0 ∧
      (s.fm fm0).fcurve = curveMem [0, 10]) := by
  refine ⟨⟨fmState (fmWord 0x18 3 0 0 0) [] id, BitVec.ofNat 64 (fmWord 0x18 3 0 0 0), ?_⟩,
    ⟨fmState (fmWord 0x19 3 0 0 9) [] id, BitVec.ofNat 64 (fmWord 0x19 3 0 0 9), ?_⟩,
    ⟨fmState (fmWord 0x2B 3 0 0 0) [] (fun x => { x with fcurve := curveMem [0, 10] }), BitVec.ofNat 64 (fmWord 0x2B 3 0 0 0), ?_⟩⟩
  · unfold State.fmReady; decide
  · unfold State.fmReady; decide
  · unfold State.fmReady; decide +kernel

theorem wit_curve : (List.range 64).map (fun k => ofLE ((curveMem [0, 10]).read (8 * k) 4)) = 0 :: 10 :: List.replicate 62 0xFFFF_FFFF := by
  decide +kernel

theorem wit_ForemanLoopers :
    (∀ op ∈ [0x20, 0x21, 0x22, 0x24, 0x23], ∃ (s : State) (w : FmIns), s.fmReady fm0 w ∧ (w.extractLsb' 56 8).toNat = op ∧
      (s.fm fm0).events = [5] ∧ (s.fm fm0).signals = []) ∧
    (∃ (s : State) (w : FmIns), s.fmReady fm0 w ∧ (w.extractLsb' 56 8).toNat = 0x23 ∧ (s.fm fm0).events = []) := by
  constructor
  · intro op h
    refine ⟨fmState (op * 2 ^ 56) [] (fun x => { x with events := [5] }), BitVec.ofNat 64 (op * 2 ^ 56), ?_⟩
    revert op
    unfold State.fmReady
    decide
  · refine ⟨fmState (0x23 * 2 ^ 56) [] id, BitVec.ofNat 64 (0x23 * 2 ^ 56), ?_⟩
    unfold State.fmReady
    decide

def desc0 (mode k cap : Nat) : Nat := mode * 2 ^ 62 + cap * 2 ^ 44 + k * 2 ^ 41 + 7 * 2 ^ 5

theorem wit_ForemanBuilds :
    (∀ e ∈ [(0, 1, 8), (1, 4, 65528)], ∃ (s : State) (w : FmIns), s.fmReady fm0 w ∧ (w.extractLsb' 56 8).toNat = 0x28 ∧
      let d := (s.fm fm0).s (w.extractLsb' 46 5).toNat
      (d.extractLsb' 62 2).toNat < 2 ∧ (d.extractLsb' 41 3).toNat = e.2.1 ∧ (d.extractLsb' 44 16).toNat = e.2.2 ∧ d.getLsbD 60 = false) ∧
    (∀ fmt ∈ [0x00, 0x10], ∃ (s : State) (w : FmIns) (b : Build), s.fmReady fm0 w ∧ (w.extractLsb' 56 8).toNat = 0x29 ∧ (s.fm fm0).build = some b ∧
      (s.fm fm0).svalid 0 = true ∧ tileHdrGood (slice ((s.fm fm0).score 0) 0 32) = true ∧ fmOf (tileHdrOf (slice ((s.fm fm0).score 0) 0 32)).source = fm0 ∧
      (tileHdrOf (slice ((s.fm fm0).score 0) 0 32)).format = fmt ∧ (s.fm fm0).requests = []) ∧
    (∃ (s : State) (w : FmIns) (b : Build), s.fmReady fm0 w ∧ (w.extractLsb' 56 8).toNat = 0x29 ∧ (s.fm fm0).build = some b ∧ (s.fm fm0).svalid 0 = false) ∧
    (∃ (s : State) (w : FmIns) (b : Build), s.fmReady fm0 w ∧ (w.extractLsb' 56 8).toNat = 0x2A ∧ (s.fm fm0).build = some b) ∧
    (∃ s : State, (s.fm fm0).prog = .waiting ∧ (((s.fm fm0).insAt (s.fm fm0).pc).extractLsb' 56 8).toNat = 0x29 ∧ (s.fm fm0).build.isSome = true) ∧
    (∃ s : State, (s.fm fm0).sent.find? (fun e => e.1 == 7) = some (7, 31) ∧ s.regF (Reg.fmnFetchStatus fm0) 63 48 = 7 ∧ s.regF (Reg.fmnFetchStatus fm0) 2 0 = 2) := by
  refine ⟨?_, ?_, ⟨fmState (0x29 * 2 ^ 56) [] (fun x => { x with build := some ⟨0, [], [], none⟩ }), BitVec.ofNat 64 (0x29 * 2 ^ 56), ⟨0, [], [], none⟩, ?_⟩,
    ⟨fmState (0x2A * 2 ^ 56) [] (fun x => { x with build := some ⟨0, [], [], none⟩ }), BitVec.ofNat 64 (0x2A * 2 ^ 56), ⟨0, [], [], none⟩, ?_⟩,
    ⟨fmState (0x29 * 2 ^ 56) [] (fun x => { x with prog := .waiting, build := some ⟨0, [], [], none⟩ }), ?_⟩,
    ⟨(State.reset.setFm fm0 { FmSt.reset with sent := [(7, 31)] }).setReg (Reg.fmnFetchStatus fm0) (BitVec.ofNat 64 (7 * 2 ^ 48 + 2)), ?_⟩⟩
  · intro e h
    refine ⟨fmState (fmWord 0x28 0 1 0 0) [0, BitVec.ofNat 64 (desc0 e.1 e.2.1 e.2.2)] id, BitVec.ofNat 64 (fmWord 0x28 0 1 0 0), ?_⟩
    revert e; unfold State.fmReady; decide
  · intro fmt h
    refine ⟨fmState (0x29 * 2 ^ 56) [] (fun x => { x with build := some ⟨0, [], [], none⟩, svalid0 := true, score0 := hdrBytes fmt }),
      BitVec.ofNat 64 (0x29 * 2 ^ 56), ⟨0, [], [], none⟩, ?_⟩
    revert fmt; unfold State.fmReady; decide +kernel
  · unfold State.fmReady; decide
  · unfold State.fmReady; decide
  · decide
  · decide

theorem wit_LooperSteps :
    (∀ e ∈ [(0, 0), (6, 0), (6, 1), (6, 2), (7, 0), (15, 0)], ∃ (s : State) (b : Step), wfCell 0 = true ∧ s.cellIssues 0 b ∧ b.cls = e.1 ∧
      (b.extractLsb' 84 4).toNat = e.2 ∧ s.slotOfCell 0 = some 0 ∧ (s.cell 0).enginesIdle = true ∧ (s.fm fm0).events = [] ∧ (s.fm fm0).heldRelease = none) ∧
    (∃ (s : State) (b : Step), s.cellIssues 0 b ∧ b.cls = 6 ∧ (b.extractLsb' 84 4).toNat = 2 ∧ 64 ≤ (s.fm fm0).events.length) ∧
    (∃ (s : State) (b : Step), s.cellIssues 0 b ∧ b.cls = 15 ∧ (s.cell 0).enginesIdle = false) := by
  refine ⟨?_, ⟨(cellState (stepBits 6 0 (2 * 2 ^ 84)) id).setFm fm0 { FmSt.reset with events := List.replicate 64 0 },
    BitVec.ofNat 128 (stepBits 6 0 (2 * 2 ^ 84)), ?_⟩,
    ⟨cellState (stepBits 15 0 0) (fun x => { x with vector := ⟨some (runOf 0 false), none⟩ }), BitVec.ofNat 128 (stepBits 15 0 0), ?_⟩⟩
  · intro e h
    refine ⟨cellState (stepBits e.1 0 (e.2 * 2 ^ 84)) id, BitVec.ofNat 128 (stepBits e.1 0 (e.2 * 2 ^ 84)), ?_⟩
    revert e; unfold State.cellIssues State.cellOffers; decide +kernel
  · unfold State.cellIssues State.cellOffers; decide +kernel
  · unfold State.cellIssues State.cellOffers; decide +kernel

/-- The steps that the five gates and conditions hold: bits [123:88] of a NOP, and what the cell lacks. -/
theorem wit_HeldSteps :
    ∀ e ∈ [(2 ^ 35, 3), (2 ^ 34, 4), (2 ^ 32, 5), (2 ^ 33, 6), (2 ^ 26, 8)], ∃ (s : State) (b : Step), s.cellOffers 0 b ∧ (s.cell 0).occ = none ∧ b.cls = 0 ∧
      s.heldBy 0 b = some e.2 := by
  intro e h
  refine ⟨cellState (stepBits 0 e.1 0) (fun x => { x with
    entered := 1, queue := List.replicate 4 ⟨8, .w40, 0, 0, []⟩, vector := ⟨some (runOf 0 false), none⟩ }), BitVec.ofNat 128 (stepBits 0 e.1 0), ?_⟩
  revert e; unfold State.cellOffers; decide +kernel

/-- A LOAD of 16 bytes from near SRAM address 0 to 256, both BF16. -/
def loadStep : Nat := stepBits 3 0 (16 * 2 ^ 52)

theorem wit_EngineSteps :
    (∃ (s : State) (b : Step) (y : CellSt), s.cellIssues 0 b ∧ eccAt (s.cell 0).stepEcc (s.cell 0).pc = none ∧ b.cls = 3 ∧ b.repeats = 0 ∧ (s.cell 0).move = .idle ∧
      b.holdB = false ∧ namesHead b = false ∧
      runExec (s.env 0) (((s.cell 0).issued b).setEng .move { ((s.cell 0).issued b).eng .move with running := some ((s.cell 0).mkRun b) }) ((s.cell 0).mkRun b) = .ok y ∧
      y.looper = .running ∧ y.occ = none ∧ y.notice = none ∧ y.fault = none ∧ y.stopping = none) ∧
    (∃ (s : State) (b : Step), s.cellIssues 0 b ∧ b.cls = 3 ∧ ((s.cell 0).eng .move).running = some (runOf 0 true)) := by
  refine ⟨⟨cellState loadStep id, BitVec.ofNat 128 loadStep, ?_⟩, ⟨cellState loadStep (fun x => { x with move := ⟨some (runOf 0 true), none⟩ }), BitVec.ofNat 128 loadStep, ?_⟩⟩
  · refine ⟨_, ?_, by decide +kernel, by decide +kernel, by decide +kernel, by decide +kernel, by decide +kernel, by decide +kernel, rfl, ?_⟩
    · unfold State.cellIssues State.cellOffers; decide +kernel
    · decide +kernel
  · unfold State.cellIssues State.cellOffers; decide +kernel

theorem wit_LooperCommands :
    (∃ s : State, wfCell 0 = true ∧ (s.cell 0).resetting = none ∧ (s.cell 0).looper = .idle ∧ leAt ((s.cell 0).cfg.read 0x20 32) 0x0C 4 = 0) ∧
    (∃ s : State, (s.cell 0).resetting = none ∧ (s.cell 0).looper = .running ∧ (s.cell 0).occ = none ∧ (s.cell 0).enginesIdle = true ∧
      (s.cell 0).fault = none ∧ (s.cell 0).notice = none) ∧
    (∃ s : State, (s.cell 0).resetting = none ∧ (s.cell 0).looper = .running ∧ (s.cell 0).enginesIdle = false ∧ (s.cell 0).notice = none) ∧
    (∃ (s : State) (r : Run), (s.cell 0).resetting = none ∧ (s.cell 0).occ = some r ∧ r.bits.cls = 7 ∧ (r.bits.extractLsb' 79 4).toNat = 15 ∧
      (s.cell 0).looper = .running ∧ (s.cell 0).fault = none ∧ (s.cell 0).stopping = none ∧ (s.cell 0).notice = none) ∧
    (∀ e ∈ [(2 ^ 35, 3), (2 ^ 32, 5)], ∃ s : State, (s.cell 0).resetting = none ∧ (s.cell 0).looper = .running ∧ (s.cell 0).fault = none ∧ (s.cell 0).stopping = none ∧
      (s.cell 0).occ = none ∧ (s.cell 0).enginesIdle = true ∧ (s.cell 0).notice = none ∧ s.heldBy 0 ((s.cell 0).stepAt (s.cell 0).pc) = some e.2) := by
  refine ⟨⟨cellState 0 (fun x => { x with looper := .idle }), by decide⟩, ⟨cellState 0 id, by decide⟩,
    ⟨cellState 0 (fun x => { x with vector := ⟨some (runOf 0 false), none⟩ }), by decide⟩,
    ⟨cellState 0 (fun x => { x with occ := some (runOf (stepBits 7 0 (15 * 2 ^ 79)) false) }), runOf (stepBits 7 0 (15 * 2 ^ 79)) false, by decide +kernel⟩, ?_⟩
  intro e h
  refine ⟨cellState (stepBits 0 e.1 0) id, ?_⟩
  revert e; decide +kernel

theorem wit_StepsComplete :
    (∀ cls ∈ [0, 15], ∃ (s : State) (r : Run), (s.cell 0).looper = .running ∧ (s.cell 0).fault = none ∧ (s.cell 0).stopping = none ∧ (s.cell 0).notice = none ∧
      (s.cell 0).occ = some r ∧ r.bits.cls = cls ∧ (s.cell 0).enginesIdle = true) ∧
    (∃ (s : State) (r : Run), (s.cell 0).looper = .running ∧ (s.cell 0).notice = none ∧ (s.cell 0).move = ⟨some r, none⟩ ∧ r.done = true ∧ r.bits.cls = 4 ∧
      r.bits.release = false) ∧
    (∃ (s : State) (r : Run), (s.cell 0).looper = .running ∧ (s.cell 0).notice = none ∧ (s.cell 0).exch = ⟨some r, none⟩ ∧ (s.cell 0).exchDone = true ∧
      r.bits.getLsbD 63 = true ∧ s.slotOfCell 0 = some 0) ∧
    (∃ (s : State) (b : Step) (z : CellSt), s.cellIssues 0 b ∧ b.cls = 5 ∧ (s.cell 0).exch = .idle ∧ (s.cell 0).xrun = none ∧
      (s.cell 0).needsEpoch b = true ∧ (s.cell 0).hsEpochs ≤ (s.cell 0).hsEntered ∧
      z = { (s.cell 0).issued b with hsEntered := (s.cell 0).hsEntered + 1, exch := ⟨some ((s.cell 0).mkRun b), none⟩ } ∧
      (checkEntries 0 0 (exchRange b) z).1 = [0] ∧ (checkEntries 0 0 (exchRange b) z).2.2 = none) ∧
    (∃ s : State, s.halfCells 0 0 = [0] ∧ (s.cell 0).hsEpochs < (s.cell 0).hsEntered ∧ (s.cell 0).xrun = none) := by
  refine ⟨?_, ⟨cellState 0 (fun x => { x with move := ⟨some (runOf (stepBits 4 0 0) true), none⟩ }), runOf (stepBits 4 0 0) true, by decide +kernel⟩,
    ⟨cellState 0 (fun x => { x with
        exch := ⟨some (runOf (stepBits 5 0 (2 ^ 63)) false), none⟩, xrun := some ⟨false, 0, true, [], [], 0, [], false, false⟩ }),
      runOf (stepBits 5 0 (2 ^ 63)) false, by decide +kernel⟩,
    ⟨cellState (stepBits 5 0 0) id, BitVec.ofNat 128 (stepBits 5 0 0), ?_⟩,
    ⟨cellState 0 (fun x => { x with hsEntered := 1 }), by decide +kernel⟩⟩
  · intro cls h
    refine ⟨cellState 0 (fun x => { x with occ := some (runOf (stepBits cls 0 0) false) }), runOf (stepBits cls 0 0) false, ?_⟩
    revert cls; decide +kernel
  · refine ⟨_, ?_, by decide +kernel, by decide +kernel, by decide +kernel, by decide +kernel, by decide +kernel, rfl, by decide +kernel, by decide +kernel⟩
    unfold State.cellIssues State.cellOffers; decide +kernel

/-- A CREDIT DATA flit from cell 0 to cell `d`, granule 0, last of its message. -/
def flitTo (d : Nat) : Flit := ⟨List.replicate 64 7, sbSeal (BitVec.ofNat 72 (2 ^ 70 + d * 2 ^ 42 + 2 ^ 10))⟩

/-- Cell 1 runs, and the router of cell 0 holds `k` credits of its east output in use; cell 1 uses `j` of its own. -/
def meshState (k j : Nat) : State :=
  ((cellState 0 id).setCell 1 { CellSt.reset with looper := .running, configured := true }).setRouter 0 { RouterSt.reset with
    used := Tbl.put (linkKey 0 .east .credit) k [] } |>.setRouter 1 { RouterSt.reset with used := Tbl.put (linkKey 1 .east .credit) j [] }

def flitComes (s : State) (f : Flit) : Prop :=
  (s.rgn (regionOf 1)).dark = false ∧ sbGood f.sideband = true ∧ (f.sideband.extractLsb' 70 2).toNat = 1 ∧ neighbor 1 .west = some 0 ∧
  (s.router 0).used.get 0 (linkKey 0 (opposite .west) .credit) ≠ 0

theorem wit_MeshFlits :
    (∀ j ∈ [0, 3], ∃ (s : State) (f : Flit), flitComes s f ∧ s.route 1 f = .hop .east 2 ∧ (s.router 1).used.get 0 (linkKey 1 .east .credit) = j ∧
      j < linkCap 1 .east .credit) ∧
    (∃ (s : State) (f : Flit), flitComes s f ∧ s.route 1 f = .hop .east 2 ∧
      ¬ (s.router 1).used.get 0 (linkKey 1 .east .credit) < linkCap 1 .east .credit) ∧
    (∃ (s : State) (f : Flit), flitComes s f ∧ s.route 1 f = .loc ∧ (f.sideband.extractLsb' 68 2).toNat = 0 ∧ s.localAbsorbs 1 = false ∧ (s.cell 1).xrun = none ∧
      f.data.length = 64) ∧
    (∃ (s : State) (f : Flit), (s.rgn (regionOf 1)).dark = false ∧ sbGood f.sideband = false ∧ (f.sideband.extractLsb' 70 2).toNat = 1 ∧ neighbor 1 .west = some 0 ∧
      s.localRefuses 1 f = false) ∧
    (∃ s : State, (s.router 0).used.get 0 (linkKey 0 .east .credit) ≠ 0 ∧ (s.router 0).wait = [] ∧ (s.cell 0).xrun = none) ∧
    (∃ s : State, (s.router 0).used.get 0 (linkKey 0 .east .credit) = 0 ∧ neighbor 0 .east = some 1 ∧ halfOf 0 = halfOf 1) ∧
    (∃ s : State, (s.router 0).used.get 0 (linkKey 19 .east .credit) = 0 ∧ neighbor 19 .east = some 20 ∧ halfOf 19 ≠ halfOf 20) ∧
    (∃ (s : State) (r : XRun), (s.cell 0).xrun = some r ∧ ¬ (s.router 0).used.get 0 (linkKey 0 .loc .credit) < linkCap 0 .loc .credit ∧ r.todo ≠ [] ∧
      r.started = true) := by
  refine ⟨?_, ⟨meshState 1 4, flitTo 2, ?_⟩, ⟨meshState 1 0, flitTo 1, ?_⟩, ⟨meshState 1 0, ⟨[], 2 ^ 70⟩, by decide +kernel⟩, ⟨meshState 4 0, by decide +kernel⟩,
    ⟨meshState 0 0, by decide +kernel⟩, ⟨meshState 0 0, by decide +kernel⟩,
    ⟨(cellState 0 (fun x => { x with xrun := some ⟨false, 0, true, [0], [0], 0, [], true, false⟩ })).setRouter 0 { RouterSt.reset with
      used := Tbl.put (linkKey 0 .loc .credit) 4 [] }, ⟨false, 0, true, [0], [0], 0, [], true, false⟩, by decide +kernel⟩⟩
  · intro j h
    refine ⟨meshState 1 j, flitTo 2, ?_⟩
    revert j; unfold flitComes; decide +kernel
  · unfold flitComes; decide +kernel
  · unfold flitComes; decide +kernel

theorem wit_DeadRouters :
    (∃ s : State, (5, none) ∈ (s.rgn (regionOf 5)).dead) ∧ (∃ s : State, (5, some Port.east) ∉ (s.rgn (regionOf 5)).dead ∧ (s.rgn (regionOf 5)).dead.length = 3) ∧
    (∃ s : State, (5, some Port.east) ∉ (s.rgn (regionOf 5)).dead ∧ (s.rgn (regionOf 5)).dead.length = 4) ∧
    (∃ s : State, s.boot.stage ≠ 7 ∧ (∀ n, s.slotOfRegion 71 = some n → s.jobRuns n = false)) ∧
    (∃ s : State, s.boot.stage ≠ 7 ∧ s.slotOfRegion 0 = some 0 ∧ s.jobRuns 0 = true) := by
  refine ⟨⟨State.reset.setRgn 0 { RgnSt.reset with dead := [(5, none)] }, by decide⟩,
    ⟨State.reset.setRgn 0 { RgnSt.reset with dead := [(6, none), (7, none), (8, none)] }, by decide⟩,
    ⟨State.reset.setRgn 0 { RgnSt.reset with dead := [(6, none), (7, none), (8, none), (9, none)] }, by decide⟩,
    ⟨State.reset, by decide, ?_⟩, ⟨loaded.setJobState 0 1, by decide +kernel⟩⟩
  intro n h
  revert h
  decide +revert

/-- Cells 0 and 1 run, the hubs of their block and region hold `e` and `b`, and `o` is cell 0's outbox. -/
def hubState (e b : List Entrant) (o : List Nat) : State :=
  let s := (cellState 0 (fun x => { x with outbox := o })).setCell 1 { CellSt.reset with looper := .running, configured := true }
  (s.setFm fm0 { FmSt.reset with configured := true, hub := { HubSt.reset with entered := e } }).setRgn 0
    { RgnSt.reset with map := 0x3FFF_FFFF, hub := { HubSt.reset with entered := b } }

theorem wit_BarrierMessages :
    (∃ s : State, (s.fm fm0).hub.closed = false ∧ .cell 0 ∉ (s.fm fm0).hub.entered ∧ ∃ d ∈ s.blockParts 0 fm0, d ≠ 0 ∧ .cell d ∉ (s.fm fm0).hub.entered) ∧
    (∃ s : State, (s.fm fm0).hub.closed = false ∧ .cell 0 ∉ (s.fm fm0).hub.entered ∧ s.blockParts 0 fm0 = [0, 1] ∧
      ∀ d ∈ s.blockParts 0 fm0, d = 0 ∨ .cell d ∈ (s.fm fm0).hub.entered) ∧
    (∃ s : State, (s.rgn 0).hub.closed = false ∧ (s.rgn 0).hub.owed = none ∧ .block ⟨0, 1⟩ ∉ (s.rgn 0).hub.entered ∧
      ∃ g ∈ s.partBlocks 0 0, g ≠ ⟨0, 1⟩ ∧ .block g ∉ (s.rgn 0).hub.entered) ∧
    (∀ o ∈ [[], [5]], ∃ s : State, (s.rgn 0).hub.closed = false ∧ (s.rgn 0).hub.owed = none ∧ .block fm0 ∉ (s.rgn 0).hub.entered ∧
      (∀ g ∈ s.partBlocks 0 0, g = fm0 ∨ .block g ∈ (s.rgn 0).hub.entered) ∧ (s.owedTiles 0 0).map (fun e => e.2) = o) ∧
    (∃ s : State, (s.slot 0).root.closed = false ∧ (s.slot 0).root.failed = false ∧ .region 1 ∉ (s.slot 0).root.entered ∧ (s.slot 0).sync = [] ∧
      ∃ q ∈ s.partRegions 0, q ≠ 1 ∧ .region q ∉ (s.slot 0).root.entered) ∧
    (∃ s : State, (s.slot 0).root.closed = false ∧ .region 0 ∉ (s.slot 0).root.entered ∧ (s.slot 0).sync = [] ∧ s.partRegions 0 = [0]) ∧
    (∃ s : State, s.jobState 0 ≠ 2 ∧ halfOf 0 = 0 ∧ (s.cell 0).configured = true ∧ (s.cell 0).looper ≠ .snag ∧ (s.cell 0).resetting = none ∧
      (s.cell 0).testing = none ∧ (s.fm fm0).configured = true) := by
  refine ⟨⟨hubState [] [] [], by decide +kernel⟩, ⟨hubState [.cell 1] [] [], by decide +kernel⟩, ⟨hubState [] [] [], by decide +kernel⟩, ?_,
    ⟨hubState [] [] [], by decide +kernel⟩, ⟨hubState [] [] [], by decide +kernel⟩, ⟨hubState [] [] [], by decide +kernel⟩⟩
  intro o h
  refine ⟨hubState [] [] o, ?_⟩
  revert o; decide +kernel

theorem wit_BarrierTimeouts :
    (∃ s : State, s.hubTiming 0 .root = false) ∧
    (∃ s : State, wfFm fm0 = true ∧ (s.fm fm0).hub.closed = false ∧ (s.fm fm0).hub.expired = false ∧ (s.fm fm0).hub.entered ≠ [] ∧
      (s.blockParts 0 fm0).filter (fun c => !(s.fm fm0).hub.entered.contains (.cell c)) = [0]) ∧
    (∃ s : State, s.blockParts 0 fm0 = [0, 1] ∧ ∀ c ∈ s.blockParts 0 fm0, .cell c ∈ (s.fm fm0).hub.entered) ∧
    (∃ s : State, (s.rgn 0).hub.closed = false ∧ (s.rgn 0).hub.entered ≠ [] ∧ (s.rgn 0).hub.expired = false ∧ (s.rgn 0).hub.owed = none) ∧
    (∃ s : State, (s.slot 0).root.timing = true ∧ (s.slot 0).root.expired = false) ∧
    (∃ s : State, (s.fm fm0).hub.answered = true) ∧ (∃ s : State, (s.fm fm0).hub.answered = false) := by
  refine ⟨⟨State.reset, by decide⟩, ⟨hubState [.cell 1] [] [], by decide +kernel⟩, ⟨hubState [.cell 0, .cell 1] [] [], by decide +kernel⟩,
    ⟨hubState [] [.block ⟨0, 1⟩] [], by decide +kernel⟩, ⟨loaded.setSlot 0 { SlotSt.reset with root := { HubSt.reset with entered := [.region 1] } }, by decide +kernel⟩,
    ⟨State.reset, by decide⟩, ⟨State.reset.setFm fm0 { FmSt.reset with hub := { HubSt.reset with answered := false } }, by decide⟩⟩

/-- Slot 0's program runs with the entries `es`, and what `g` sets. -/
def streamState (es : List Nat) (g : StreamSt → StreamSt) : State :=
  loaded.setStream 0 (g { StreamSt.reset with prog := es.map (BitVec.ofNat 256), state := .running })

/-- A stream entry: operation, handle, fills − 1 and target cell 0. -/
def entry (op handle fills : Nat) : Nat := op * 2 ^ 252 + handle * 2 ^ 208 + fills * 2 ^ 120

theorem wit_StreamEntries :
    (∀ op ∈ [1, 2, 4, 5, 15], ∃ (s : State) (e : StreamEntry), (s.stream 0).state = .running ∧ (s.stream 0).pc < (s.stream 0).prog.length ∧
      (s.stream 0).prog.getD (s.stream 0).pc 0 = e ∧ (s.stream 0).ending = false ∧ (s.stream 0).opens = [] ∧ (e.extractLsb' 252 4).toNat = op ∧
      (s.stream 0).lists = [] ∧ (s.stream 0).loops = [] ∧ 0 < (e.extractLsb' 120 16).toNat) ∧
    (∃ (s : State) (e : StreamEntry) (l : HeldList), (s.stream 0).prog.getD (s.stream 0).pc 0 = e ∧ (e.extractLsb' 252 4).toNat = 2 ∧
      (s.stream 0).lists.find? (fun l => l.tag == (e.extractLsb' 81 16).toNat && l.merged) = some l) ∧
    (∀ d ∈ [0, 1], ∃ (s : State) (e : StreamEntry), (s.stream 0).prog.getD (s.stream 0).pc 0 = e ∧ (e.extractLsb' 252 4).toNat = 5 ∧
      (e.extractLsb' 120 16).toNat = 1 ∧ (s.stream 0).loops.find? (fun l => l.1 == (s.stream 0).pc) = some (0, d, 1)) ∧
    (∃ (s : State) (e : StreamEntry) (o : Obj), (s.stream 0).prog.getD (s.stream 0).pc 0 = e ∧ (e.extractLsb' 252 4).toNat = 3 ∧
      s.obj (e.extractLsb' 9 24).toNat = some o ∧ (e.extractLsb' 65 16).toNat = 1 ∧ s.objBadV 9 o 0 18 = false ∧
      (crc32c ((s.objReadV 9 o 0 18).drop 4)).toNat ≠ leAt (s.objReadV 9 o 0 18) 0 4) := by
  refine ⟨?_, ⟨streamState [entry 2 0 0] (fun x => { x with lists := [⟨0, [fm0], [3], false, 0, 0, 0, true⟩] }), BitVec.ofNat 256 (entry 2 0 0),
    ⟨0, [fm0], [3], false, 0, 0, 0, true⟩, by decide +kernel⟩, ?_, ⟨(streamState [entry 3 0 0 + 2 ^ 65 + 9 * 2 ^ 9] id).setObj 9 (objAt 1 .resident 0),
    BitVec.ofNat 256 (entry 3 0 0 + 2 ^ 65 + 9 * 2 ^ 9), objAt 1 .resident 0, by decide +kernel⟩⟩
  · intro op h
    refine ⟨streamState [entry op 0 1] id, BitVec.ofNat 256 (entry op 0 1), ?_⟩
    revert op; decide +kernel
  · intro d h
    refine ⟨streamState [entry 5 0 1] (fun x => { x with loops := [(0, d, 1)] }), BitVec.ofNat 256 (entry 5 0 1), ?_⟩
    revert d; decide +kernel

/-- A fill of 4 bytes for cell 0 into slot `k`, in lane 0. -/
def fill0 (k : Nat) (near : Bool) (lanes : List Nat) : Fill := ⟨0, 0, 0, 0, near, k, 0, [1, 2, 3, 4], lanes, [0], false, false⟩

def open0 : OpenEntry := ⟨0, 0, 0, 2, 0, true, false, none, 0⟩

theorem wit_Fills :
    (∃ (s : State) (oe : OpenEntry) (o : Obj), (s.stream 0).state = .running ∧ (s.stream 0).ending = false ∧
      (s.stream 0).opens.find? (fun o => !(o.needsList && o.list.isNone)) = some oe ∧ oe.index = 0 ∧ oe.refs = true ∧ (s.stream 0).deck = [] ∧
      (s.stream 0).heldIn 0 + 16384 ≤ s.deckShare 0 0 ∧ s.obj 5 = some o ∧ o.tier ≠ 0 ∧ o.owner = 0 ∧
      (s.fillBytes 0 oe ((s.stream 0).prog.getD 0 0) o).toOption = some (List.replicate 64 0) ∧ s.objBadV 5 o 0 64 = false ∧ oe.read + 1 < oe.fills) ∧
    (∃ (s : State) (n : Nat) (f : Fill), s.lanesUsed 0 < 8 ∧ (s.laneWaiters 0).find? (fun e =>
        s.laneClear 0 ((s.stream e.1).deck.filter (fun g => decide (g.number < e.2.number))) e.2) = some (n, f)) ∧
    (∀ e ∈ [(0, false), (1, false), (0, true), (1, true)], ∃ (s : State) (f : Fill), (s.stream 0).deck.find? (fun g => g.number == f.number) = some f ∧ 0 ∈ f.left ∧
      regionOf 0 ∈ f.lanes ∧ (∀ g ∈ (s.stream 0).deck, g.number < f.number → 0 ∉ g.left) ∧ f.left = [0] ∧ f.final = false ∧ s.gatedOn 0 f.slot = false ∧
      (s.cell 0).looper ≠ .snag ∧ (s.cell 0).configured = true ∧ (s.cell 0).resetting = none ∧ f.slot = e.1 ∧ f.near = e.2) := by
  refine ⟨⟨(streamState [entry 4 5 1 + 2 ^ 232 + 2 ^ 65] (fun x => { x with opens := [open0] })).setObj 5 (objAt 1 .resident 0), open0, objAt 1 .resident 0, ?_⟩,
    ⟨(cellState 0 id).setStream 0 { StreamSt.reset with state := .running, deck := [fill0 0 false []] }, 0, fill0 0 false [], by decide +kernel⟩, ?_⟩
  · refine ⟨by decide +kernel, by decide +kernel, by decide +kernel, by decide +kernel, by decide +kernel, by decide +kernel, by decide +kernel, by decide +kernel,
      by decide +kernel, by decide +kernel, by decide +kernel, by decide +kernel, by decide +kernel⟩
  · intro e h
    refine ⟨(cellState 0 id).setStream 0 { StreamSt.reset with state := .running, deck := [fill0 e.1 e.2 [0]] }, fill0 e.1 e.2 [0], ?_⟩
    revert e; decide +kernel

/-- A fetch list of tag 7 with the candidates 3 and 5 and its check. -/
def fetch0 : Bytes :=
  let b := toLE 12 ((7 * 2 ^ 112 + 2 * 2 ^ 69) / 2 ^ 32) ++ toLE 2 5 ++ toLE 2 3
  toLE 4 (crc32c b).toNat ++ b

theorem wit_FetchLists :
    (∃ s : State, s.slotOfRegion fm0.region = some 0 ∧ (s.stream 0).lists = [] ∧ (crc32c (fetch0.drop 4)).toNat = leAt fetch0 0 4 ∧
      natBits 127 112 (ofLE (fetch0.take 16)) = 7) ∧
    (∃ s : State, (s.stream 0).lists.find? (fun l => l.tag == 7 && !l.merged) = none ∧ (s.stream 0).lists.length = 16) ∧
    (∃ (s : State) (l : HeldList), (s.stream 0).lists.find? (fun l => l.tag == 7 && !l.merged) = some l ∧ l.cands.Pairwise (· < ·)) ∧
    (∃ (s : State) (l : HeldList), (s.stream 0).lists.find? (fun l => l.tag == 0 && !l.merged) = some l ∧ (s.stream 0).gatherOf 0 = some 0 ∧
      s.contributors 0 ((s.stream 0).prog.getD 0 0) = [fm0] ∧ (∀ f ∈ s.contributors 0 ((s.stream 0).prog.getD 0 0), f ∈ l.froms)) := by
  refine ⟨⟨loaded, by decide +kernel⟩, ⟨streamState [] (fun x => { x with lists := List.replicate 16 ⟨1, [fm0], [], false, 0, 0, 0, true⟩ }), by decide +kernel⟩,
    ⟨streamState [] (fun x => { x with lists := [⟨7, [⟨0, 1⟩], [2, 4], false, 0, 0, 0, false⟩] }), ⟨7, [⟨0, 1⟩], [2, 4], false, 0, 0, 0, false⟩, by decide +kernel⟩,
    ⟨streamState [entry 2 0 0] (fun x => { x with lists := [⟨0, [fm0], [2, 4], false, 0, 0, 0, false⟩] }), ⟨0, [fm0], [2, 4], false, 0, 0, 0, false⟩, by decide +kernel⟩⟩

theorem wit_SkidderStop : ∃ s : State, s.boot.stage ≠ 7 ∧ (s.stream 0).state = .running ∧ (s.stream 1).state ≠ .running :=
  ⟨streamState [0] id, by decide⟩

/-- A YRD_CMD word. -/
def yrdWord (op d h : Nat) : Word := BitVec.ofNat 64 (op * 2 ^ 60 + d * 2 ^ 58 + h)

/-- T1 and T2 have 8 extents each, all free but those of the objects given; YRD_ARG asks for `e` extents. -/
def yardState (os : List (Nat × Obj)) (as : List Alloc) (e : Nat) : State :=
  let s := loaded.setReg Reg.yrdArg (BitVec.ofNat 64 e)
  let s := { s with tiers := { s.tiers with total1 := 8, total2 := 8, free1 := [(4, 4)], free2 := [(4, 4)] }, yard := { s.yard with allocs := as } }
  os.foldl (fun s o => s.setObj o.1 o.2) s

theorem wit_ObjectCommands :
    (∃ s : State, s.boot.stage = 7) ∧ (∃ s : State, s.boot.stage ≠ 7 ∧ s.regF Reg.yrdCmdStatus 1 0 = 1) ∧
    (∀ op ∈ [1, 2, 3, 4, 5, 6], ∃ (s : State) (v : Word), (v.extractLsb' 60 4).toNat = op ∧ (v.extractLsb' 0 24).toNat = 9 ∧ s.boot.stage ≠ 7 ∧
      s.regF Reg.yrdCmdStatus 1 0 ≠ 1 ∧ s.obj 9 = none) ∧
    (∀ e ∈ [0, 262145], ∃ s : State, s.regF Reg.yrdArg 18 0 = e) ∧
    (∀ e ∈ [1, 4], ∃ (s : State) (v : Word), (v.extractLsb' 58 2).toNat = 1 ∧ s.regF Reg.yrdArg 18 0 = e ∧ s.yard.allocs = [] ∧ s.yard.objs = [] ∧
      e ≤ s.tiers.total 1 ∧ runsCount (runsAlloc e (s.tiers.free 1)).1 = e) ∧
    (∀ x ∈ [(ObjState.resident, 0), (.pinned, 1), (.moving, 0), (.evicting, 0), (.resident, 255)], ∃ (s : State) (o : Obj), s.obj 9 = some o ∧ o.state = x.1 ∧
      o.pins = x.2 ∧ o.refs = 0 ∧ o.tier = 2 ∧ o.all ≤ s.tiers.total 1 ∧ runsCount (runsAlloc o.all (s.tiers.free 1)).1 = o.all ∧ s.yard.allocs = []) := by
  refine ⟨⟨{ State.reset with boot := { BootSt.reset with stage := 7 } }, by decide⟩,
    ⟨State.reset.setReg Reg.yrdCmdStatus 1, by decide +kernel⟩, ?_, ?_, ?_, ?_⟩
  · intro op h
    refine ⟨yardState [] [] 1, yrdWord op 1 9, ?_⟩
    revert op; decide +kernel
  · intro e h
    refine ⟨yardState [] [] e, ?_⟩
    revert e; decide +kernel
  · intro e h
    refine ⟨yardState [] [] e, yrdWord 1 1 9, ?_⟩
    revert e; decide +kernel
  · intro x h
    refine ⟨yardState [(9, objAt 2 x.1 x.2)] [] 0, objAt 2 x.1 x.2, ?_⟩
    revert x; decide +kernel

/-- The promotion of the object at T2 to T1, with `need` extents still to be found. -/
def alloc9 (need : Nat) (cmd : Bool) : Alloc :=
  { handle := 9, kind := .promote, obj := objAt 2 .moving 0, dest := 1, slot := 0, need := need, got := if need = 0 then [(0, 1)] else [], copied := 0, cmd := cmd }

theorem wit_Moves :
    (∃ (s : State) (a : Alloc) (o : Obj), s.running.find? (fun a => a.handle == 9) = some a ∧ s.obj 9 = some o ∧ (∀ b ∈ s.yard.allocs, b.need = 0) ∧ o.tier = 2 ∧
      a.dest = 1 ∧ o.tiled = false ∧ a.copied + 1 = o.all ∧ a.cmd = false ∧ s.yard.dying = [] ∧ s.yard.queued = [] ∧
      s.poolBad 2 (4096 * 63) = false) ∧
    (∃ s : State, s.running.find? (fun a => a.handle == 9) = none) ∧
    (∃ (s : State) (a : Alloc), s.yard.allocs = [a] ∧ a.dest = 1 ∧ a.kind = .promote ∧ 0 < a.need ∧ runsCount (runsAlloc a.need (s.tiers.free 1)).1 = a.need) ∧
    (∃ (s : State) (a : Alloc) (k : Nat) (o : Obj), s.yard.allocs = [a] ∧ a.dest = 1 ∧ s.tiers.free 1 = [] ∧ s.candidate 1 a.slot = some (k, o) ∧ a.need ≤ o.all ∧
      o.all ≤ s.tiers.total 2 ∧ o.all ≤ runsCount (s.tiers.free 2) ∧ runsCount (runsAlloc o.all (s.tiers.free 2)).1 = o.all) ∧
    (∃ (s : State) (a : Alloc), s.yard.allocs.find? (fun a => a.handle == 9 && decide (0 < a.need)) = some a ∧ a.kind = .create ∧ a.cmd = true ∧ a.got = [] ∧
      s.obj 9 = none ∧ s.yard.dying = [] ∧ s.yard.queued = []) := by
  refine ⟨⟨yardState [(9, objAt 2 .moving 0)] [alloc9 0 false] 0, alloc9 0 false, objAt 2 .moving 0, by decide +kernel⟩, ⟨State.reset, by decide⟩,
    ⟨yardState [(9, objAt 2 .moving 0)] [alloc9 1 false] 0, alloc9 1 false, by decide +kernel⟩, ?_,
    ⟨yardState [] [{ alloc9 1 true with kind := .create }] 0, { alloc9 1 true with kind := .create }, by decide +kernel⟩⟩
  let s := yardState [(9, objAt 2 .moving 0), (3, objAt 1 .resident 0)] [alloc9 1 false] 0
  exact ⟨{ s with tiers := { s.tiers with free1 := [] } }, alloc9 1 false, 3, objAt 1 .resident 0, by decide +kernel⟩

theorem wit_StackCommands :
    (∀ n ∈ [1, 64], ∃ s : State, s.tiers.uncorrected.get 0 767 + 1 = n) ∧
    (∃ s : State, s.boot.stage ≠ 7 ∧ s.regF (Reg.stkWrapCmd 23) 62 61 ≠ 1 ∧ s.t1Empty = true ∧ s.loadActive = false ∧ s.anyJob = false) ∧
    (∃ s : State, s.boot.stage ≠ 7 ∧ s.regF (Reg.stkWrapCmd 23) 62 61 = 1) ∧ (∃ s : State, s.boot.stage ≠ 7 ∧ s.t1Empty = false) := by
  refine ⟨?_, ⟨State.reset, by decide +kernel⟩, ⟨State.reset.setReg (Reg.stkWrapCmd 23) (BitVec.ofNat 64 (2 ^ 61)), by decide +kernel⟩,
    ⟨yardState [(9, objAt 1 .resident 0)] [] 0, by decide +kernel⟩⟩
  intro n h
  refine ⟨{ State.reset with tiers := { TierSt.reset with uncorrected := [(767, n - 1)] } }, ?_⟩
  revert n; decide

/-- CXL port 3 in a state, with the far pool `far` and its free extents `free`. -/
def cxlState (st : CxlState) (far : List (Nat × Nat × Nat)) (free : List (Nat × Nat)) : State :=
  { State.reset with tiers := { TierSt.reset with cxl := [(3, { CxlPort.reset with state := st })], far := far, free3 := free, total3 := 4 } }

theorem wit_BoardAndFarMemory :
    (∃ (s : State) (o : Obj), s.yard.allocs = [] ∧ s.yard.objs = [(9, o)] ∧ o.tier = 2 ∧ 0 < o.all) ∧
    (∀ st ∈ [CxlState.active, .training], ∃ s : State, (s.cxl 3).state = st ∧ s.tiers.total3 + 1 ≤ 268435456 ∧ s.yard.allocs = []) ∧
    (∃ s : State, (s.cxl 3).state ≠ .active ∧ (s.cxl 3).state ≠ .training) ∧
    (∃ s : State, s.tiers.far = [(3, 0, 4)] ∧ s.tiers.free3 = [(0, 4)]) ∧ (∃ s : State, s.tiers.far = [(3, 0, 4)] ∧ s.tiers.free3 = []) ∧
    (∃ s : State, s.boot.stage ≠ 7 ∧ s.farHeld 3 = true) ∧ (∃ s : State, s.boot.stage ≠ 7 ∧ s.farHeld 3 = false ∧ (s.cxl 3).state ≠ .unlicensed) := by
  refine ⟨⟨yardState [(9, objAt 2 .resident 0)] [] 0, objAt 2 .resident 0, by decide⟩, ?_, ⟨cxlState .down [] [], by decide⟩, ⟨cxlState .active [(3, 0, 4)] [(0, 4)], by decide⟩,
    ⟨cxlState .active [(3, 0, 4)] [], by decide⟩, ⟨(cxlState .active [(3, 0, 4)] []).setObj 9 (objAt 3 .resident 0), by decide +kernel⟩,
    ⟨cxlState .active [] [], by decide +kernel⟩⟩
  intro st h
  refine ⟨cxlState st [] [], ?_⟩
  revert st; decide

/-- A layer with role `role` (0 receiver, 1 primary, 2 shadow) whose primary is module `m` and shadow `sh`, of `n` positions. -/
def layerPlanOf (role m sh n kind : Nat) : LayerPlan :=
  { kind := kind, role := role, primary := m, shadow := sh, every := 1, phase := 0, master := 0, slab := 9, stateA := 0, stateB := 0, error := 0, record := 0,
    maskObj := 0, stamp := 0, positions := n, cap := n, deadline := 0, grace := 0, contributors := 2, wfmt := 0, masterFmt := 0, stateFmt := 0 }

def freshLayer (role sh : Nat) : LayerSt := LayerSt.fresh (layerPlanOf role State.reset.moduleNo sh 2 0) 0

/-- Slot 0's reducer as `g` sets it, over `loaded`. -/
def redState (g : RedSt → RedSt) : State := loaded.setRed 0 (g RedSt.reset)

/-- Cell 0's outbox holds slot 0, whose bytes begin with `b`. -/
def outboxState (b : Bytes) (s : State) : State :=
  s.setCell 0 { CellSt.reset with outbox := [0], under := CellSt.reset.under.write 0 b }

def routeOf : RoutePlan := { first := 0, last := 0, layer := 0, out := 0, slotFirst := 0, slotCount := 1, base := 0, stride := 1 }

def sentOf (p : Nat) : SentTile := { layer := 0, position := p, step := 1, owners := [0], cell := 0, errAt := 0, payload := [] }

def contribOf (m p : Nat) (f : Bool) : Contribution := { slot := 0, module := m, layer := 0, position := p, step := 1, final := f, payload := [] }

theorem wit_Contributions :
    (∃ (s : State) (c j n : Nat), s.slotOfCell c = some n ∧ j < 64 ∧ j ∈ (s.cell c).outbox ∧ (s.rgn (regionOf c)).hub.owed = none ∧
      (∃ r l, (s.red n).routes.find? (fun r => r.covers c j) = some r ∧ s.layer n r.layer = some l ∧ r.out = 0 ∧ l.plan.primary = s.moduleNo ∧
        l.plan.shadow = 0xFFFF ∧ tileHdrGood ((s.cell c).under.read (((s.cell c).obFirst + j * (s.cell c).obPages) * 4096) 32) = true ∧
        r.index c j ((s.red n).takes.get 0 (c * 64 + j)) < l.plan.positions)) ∧
    (∀ good ∈ [true, false], ∃ (s : State) (c j n : Nat), s.slotOfCell c = some n ∧ j < 64 ∧ j ∈ (s.cell c).outbox ∧ (s.rgn (regionOf c)).hub.owed = none ∧
      tileHdrGood ((s.cell c).under.read (((s.cell c).obFirst + j * (s.cell c).obPages) * 4096) 32) = good ∧
      (s.red n).routes.find? (fun r => r.covers c j) = none) ∧
    (∀ role ∈ [1, 2], ∀ p ∈ [0, 1], ∃ (s : State) (l : LayerSt), s.layer 0 0 = some l ∧ l.plan.role = role ∧ l.set = none ∧ l.contribs = [] ∧ s.stepP 0 = p) ∧
    (∀ streak ∈ [0, 2], ∃ (s : State) (l : LayerSt) (e : SentTile), s.layer 0 0 = some l ∧ (s.red 0).sent = [e] ∧ e.layer = 0 ∧ e.step = 1 ∧
      s.dHold 0 = false ∧ s.refHeld l.plan.error = false ∧ l.late = false ∧ l.streak = streak ∧ (s.red 0).lateDrop = 2 ∧ l.plan.error = 0 ∧
      e.errAt + 16384 ≤ (s.cell e.cell).errPages * 4096) ∧
    (∃ (s : State) (l : LayerSt), s.layer 0 0 = some l ∧ l.plan.role = 1 ∧ l.set = none ∧ l.plan.shadow = 0xFFFF ∧ l.modules 1 ≠ [] ∧ s.stepP 0 = 0 ∧
      (∀ c ∈ l.contribs, c.module = s.moduleNo) ∧ s.moduleNo ∈ (l.modules 1).filter (fun m => l.complete 1 m) ∧ l.plan.kind ≠ 1 ∧
      (l.positionsOf 1 ((l.modules 1).filter (fun m => l.complete 1 m))).length ≤ l.plan.cap) ∧
    (∃ (s : State) (l : LayerSt) (who : List Nat), s.layer 0 0 = some l ∧ l.plan.role = 2 ∧ l.set = none ∧ (∃ m ∈ who, l.complete (s.stepP 0 + 1) m = false)) ∧
    (∃ (s : State) (l : LayerSt), s.layer 0 0 = some l ∧ l.plan.role = 1 ∧ s.dHold 0 = false) ∧
    (∃ (s : State) (l : LayerSt), s.layer 0 0 = some l ∧ l.plan.role = 2 ∧ l.notice = some [7] ∧ l.set = none) := by
  refine ⟨⟨outboxState (hdrBytes 0) (redState (fun y => { y with layers := [freshLayer 1 0xFFFF], routes := [routeOf] })), 0, 0, 0, by decide +kernel, by decide,
      by decide +kernel, by decide +kernel, routeOf, freshLayer 1 0xFFFF, by decide +kernel⟩, ?_, ?_, ?_,
    ⟨redState (fun y => { y with layers := [{ freshLayer 1 0xFFFF with contribs := [contribOf State.reset.moduleNo 1 true] }] }),
      { freshLayer 1 0xFFFF with contribs := [contribOf State.reset.moduleNo 1 true] }, by decide +kernel⟩,
    ⟨redState (fun y => { y with layers := [freshLayer 2 0] }), freshLayer 2 0, [7], by decide +kernel⟩,
    ⟨redState (fun y => { y with layers := [freshLayer 1 0] }), freshLayer 1 0, by decide +kernel⟩,
    ⟨redState (fun y => { y with layers := [{ freshLayer 2 0 with notice := some [7] }] }), { freshLayer 2 0 with notice := some [7] }, by decide +kernel⟩⟩
  · intro good h
    refine ⟨outboxState (if good then hdrBytes 0 else []) (redState id), 0, 0, 0, ?_⟩
    revert good; decide +kernel
  · intro role h p g
    refine ⟨(redState (fun y => { y with layers := [freshLayer role 0xFFFF] })).setReg (Reg.redStep 0) (BitVec.ofNat 64 p), freshLayer role 0xFFFF, ?_⟩
    revert role p; decide +kernel
  · intro k h
    refine ⟨(redState (fun y => { y with layers := [{ freshLayer 0 0xFFFF with streak := k }], sent := [sentOf 0] })).setCell 0 { CellSt.reset with cfg := CellSt.reset.cfg.write 0x10 (toLE 8 4) },
      { freshLayer 0 0xFFFF with streak := k }, sentOf 0, ?_⟩
    revert k; decide +kernel

theorem wit_Commits :
    (∃ (s : State) (l : LayerSt), s.layer 0 0 = some l ∧ l.plan.role = 0 ∧ s.dHold 0 = true) ∧
    (∃ (s : State) (l : LayerSt) (f : Fmt), s.layer 0 0 = some l ∧ l.plan.role = 0 ∧ s.dHold 0 = false ∧ s.refHeld l.plan.slab = false ∧ l.plan.kind = 2 ∧
      fmtOf l.plan.wfmt = some f ∧ s.obj l.plan.slab ≠ none ∧ 1 ≤ s.stepP 0) ∧
    (∃ (s : State) (l : LayerSt), s.layer 0 0 = some l ∧ l.plan.role = 0 ∧ l.lastIn = true ∧ l.version ≠ s.stepP 0 + 1 ∧ s.dHold 0 = false ∧
      (s.red 0).layers = [l] ∧ s.stepP 0 + 1 < s.stepC 0 + (s.slot 0).d ∧ s.stepP 0 + 1 < 2 ^ 32) ∧
    (∀ b ∈ [true, false], ∃ (s : State) (l : LayerSt) (digest : BitVec 128), s.layer 0 0 = some l ∧ l.plan.role = 1 ∧ l.version = s.stepP 0 ∧ l.verify = 3 ∧ s.dHold 0 = false ∧
      decide ((digest.extractLsb' 64 64).toNat = l.last1 ∧ (digest.extractLsb' 0 64).toNat = l.last2) = b ∧ s.stepC 0 ≤ l.lastMatch) ∧
    (∃ s : State, (s.red 0).own = none ∧ (s.red 0).upSent = false ∧ ∀ v ∈ (s.red 0).verdicts, v.2.1 = true) ∧
    (∃ s : State, (s.red 0).own = some true ∧ (s.red 0).upSent = false ∧ (s.red 0).parent = 0xFFFF ∧ (s.red 0).verdicts = [] ∧ (s.red 0).children = 1 ∧
      (s.red 0).timedOut = false ∧ (s.red 0).waiting = none) := by
  let slot2 := fun (s : State) => s.modSlot 0 (fun x => { x with digestInterval := 4 })
  let l1 := { freshLayer 0 0xFFFF with plan := layerPlanOf 0 0 0xFFFF 2 2 }
  refine ⟨⟨(redState (fun y => { y with layers := [freshLayer 0 0xFFFF] })).setReg (Reg.redStep 0) 1, freshLayer 0 0xFFFF, by decide +kernel⟩,
    ⟨((slot2 (redState (fun y => { y with layers := [l1] }))).setReg (Reg.redStep 0) 1).setObj 9 (objAt 2 .resident 0), l1, Fmt.float fBF16, ?_⟩,
    ⟨slot2 (redState (fun y => { y with layers := [{ freshLayer 0 0xFFFF with lastIn := true }] })), { freshLayer 0 0xFFFF with lastIn := true }, by decide +kernel⟩, ?_,
    ⟨State.reset, by decide⟩, ⟨redState (fun y => { y with own := some true, children := 1 }), by decide +kernel⟩⟩
  · have h : fmtOf 0 = some (Fmt.float fBF16) := rfl
    exact ⟨by decide +kernel, by decide +kernel, by decide +kernel, by decide +kernel, by decide +kernel, h, by decide +kernel, by decide +kernel⟩
  · intro b h
    refine ⟨redState (fun y => { y with layers := [{ freshLayer 1 0 with verify := 3 }] }), { freshLayer 1 0 with verify := 3 }, if b then 0 else 1, ?_⟩
    revert b; decide +kernel

/-- Slot 0 with its job in state `st`. -/
def jobState (st : Nat) (replay : Option Nat) : State :=
  (loaded.setReg (Reg.fltJob 0) (BitVec.ofNat 64 (st))).setJob 0 { JobSt.reset with replay := replay }

theorem wit_ConfirmAndRollback :
    (∀ b ∈ [true, false], ∃ s : State, (s.red 0).kids = [] ∧ (s.reg Reg.redCtrl).getLsbD 0 = b ∧ s.stepP 0 ≠ 5) ∧
    (∃ s : State, (s.red 0).kids = [] ∧ s.jobRuns 0 = false ∧ s.jobState 0 ≠ 5) ∧
    (∃ s : State, (s.red 0).kids = [] ∧ s.jobRuns 0 = true ∧ (s.sched 0).state = .idle ∧ (s.stream 0).opens = []) ∧
    (∃ (s : State) (v : Word), s.boot.stage ≠ 7 ∧ (v.extractLsb' 8 8).toNat = 2 ^ 7 ∧ (s.red 7).parent = 0xFFFF ∧ (∀ k, (s.red k).waiting = none) ∧ s.commitCut 7 = false) ∧
    (∃ (s : State) (v : Word), s.boot.stage ≠ 7 ∧ (s.jobRuns 0 = true ∨ s.jobState 0 = 5 ∨ v.extractLsb' 32 32 ≠ v.extractLsb' 0 32)) ∧
    (∃ (s : State) (v : Word), s.boot.stage ≠ 7 ∧ s.jobRuns 0 = false ∧ s.jobState 0 ≠ 5 ∧ v.extractLsb' 32 32 = v.extractLsb' 0 32) ∧
    (∃ (s : State) (o : Nat), (s.job 0).replay = some o ∧ s.jobState 0 = 5 ∧ o < 2 ^ 32 ∧ o ≤ s.beat.toNat) := by
  refine ⟨?_, ⟨State.reset, by decide +kernel⟩, ⟨jobState 1 none, by decide +kernel⟩,
    ⟨State.reset, BitVec.ofNat 64 (2 ^ 15), by decide +kernel, by decide, by decide, fun k => rfl, by decide +kernel⟩,
    ⟨State.reset, 1, by decide +kernel⟩, ⟨State.reset, 0, by decide +kernel⟩, ⟨jobState 5 (some 0), 0, by decide +kernel⟩⟩
  intro b h
  refine ⟨State.reset.setReg Reg.redCtrl (if b then 1 else 0), ?_⟩
  revert b; decide +kernel

/-- A skyline flit with its CRC. -/
def skyFlitOf (header : Word) (payload : Bytes) : SkyFlit := ⟨header, payload, crc64 (toLE 8 header.toNat ++ slice payload 0 240)⟩

/-- Port 0 in state `st`, as `g` sets it. -/
def portState (st : PortState) (g : SkyPort → SkyPort) : State :=
  State.reset.setSky 0 (g { SkyPort.reset with state := st, lanes := 0xFFFF, credits := (2048, 2048, 64) })

def linkedQuiet (s : State) : Prop := ((s.sky 0).state = .up ∨ (s.sky 0).state = .admitted) ∧ (s.sky 0).mesh = [] ∧ (s.sky 0).tiles = [] ∧ (s.sky 0).owed < 63

def goodFlit (f : SkyFlit) (ty seq : Nat) : Prop :=
  (f.crc = crc64 (toLE 8 f.header.toNat ++ slice f.payload 0 240) ∧ f.header.getLsbD 35 = false) ∧ (f.header.extractLsb' 60 4).toNat = ty ∧
  (f.header.extractLsb' 48 12).toNat = seq

theorem skyFlitOf_good (header : Word) (payload : Bytes) (ty seq : Nat) (h : header.getLsbD 35 = false ∧ (header.extractLsb' 60 4).toNat = ty ∧
    (header.extractLsb' 48 12).toNat = seq) : goodFlit (skyFlitOf header payload) ty seq := ⟨⟨rfl, h.1⟩, h.2.1, h.2.2⟩

theorem not_ne (x : Word) : ~~~ x ≠ x := by
  intro h
  have := congrArg (fun y => BitVec.getLsbD y 0) h
  revert this
  simp

/-- A mesh flit that port 0 lets in at once. -/
def meshOk (s : State) (m : Flit) : Prop :=
  sbGood m.sideband = true ∧ s.portAllowed 0 (m.sideband.extractLsb' 42 18).toNat = true ∧ m.sideband.getLsbD 10 = false ∧
    s.inUse (exitCell 0 (m.sideband.extractLsb' 24 18).toNat) (stationKey (attachment 0).1) < 16

theorem wit_SkyFlits :
    (∀ b ∈ [true, false], ∃ (s : State) (f : SkyFlit), linkedQuiet s ∧ f.crc ≠ crc64 (toLE 8 f.header.toNat ++ slice f.payload 0 240) ∧ (s.sky 0).nakSent = b) ∧
    (∀ ty ∈ [0, 3], ∃ (s : State) (f : SkyFlit), linkedQuiet s ∧ goodFlit f ty (s.sky 0).expect) ∧
    (∃ (s : State) (f : SkyFlit), linkedQuiet s ∧ goodFlit f 3 4095 ∧ 4095 ≠ (s.sky 0).expect ∧ 2048 ≤ (4095 + 4096 - (s.sky 0).expect) % 4096) ∧
    (∃ (s : State) (f : SkyFlit), linkedQuiet s ∧ goodFlit f 1 (s.sky 0).expect ∧ (f.header.extractLsb' 21 2).toNat = 1 ∧ (s.sky 0).meshIn = [] ∧
      meshOk s (slotMesh (slice f.payload 0 80))) ∧
    (∃ (s : State) (f : SkyFlit), linkedQuiet s ∧ goodFlit f 2 (s.sky 0).expect ∧
      (((s.sky 0).tileIn ++ slice f.payload 0 240).length < 32 + (tileHdrOf (slice ((s.sky 0).tileIn ++ slice f.payload 0 240) 0 32)).length)) ∧
    (∃ s : State, linkedQuiet s ∧ (s.sky 0).meshIn = [] ∧ 0 < (s.sky 0).owed) ∧
    (∃ (s : State) (g : Nat × Flit), (s.sky 0).state = .admitted ∧ (s.sky 0).mesh = [g] ∧ (s.sky 0).tiles = [] ∧ 0 < (s.sky 0).credits.1 ∧
      (s.sky 0).replay.length < 2048) ∧
    (∀ st ∈ [PortState.dark, .down, .retrain], ∃ s : State, (s.sky 0).state = st ∧ (s.sky 0).tileBusy = false) := by
  have hdr : ∀ ty ∈ [0, 3], goodFlit (skyFlitOf (BitVec.ofNat 64 (ty * 2 ^ 60)) []) ty 0 := by
    intro ty h
    apply skyFlitOf_good
    revert ty; decide
  refine ⟨?_, fun ty h => ⟨portState .up id, _, by unfold linkedQuiet; decide +kernel, hdr ty h⟩,
    ⟨portState .up id, skyFlitOf (BitVec.ofNat 64 (3 * 2 ^ 60 + 4095 * 2 ^ 48)) [], by unfold linkedQuiet; decide +kernel, skyFlitOf_good _ _ _ _ (by decide),
      by decide +kernel⟩,
    ⟨portState .admitted id, skyFlitOf (BitVec.ofNat 64 (2 ^ 60 + 2 ^ 21)) (List.replicate 64 7 ++ toLE 9 (sbSeal (BitVec.ofNat 72 (2 ^ 70))).toNat),
      by unfold linkedQuiet; decide +kernel, skyFlitOf_good _ _ _ _ (by decide +kernel), by decide, by decide +kernel, ?_⟩,
    ⟨portState .admitted id, skyFlitOf (BitVec.ofNat 64 (2 * 2 ^ 60)) (toLE 32 (7680 * 2 ^ 49)), by unfold linkedQuiet; decide +kernel,
      skyFlitOf_good _ _ _ _ (by decide +kernel), ?_⟩,
    ⟨portState .up (fun x => { x with owed := 2 }), by unfold linkedQuiet; decide +kernel⟩,
    ⟨portState .admitted (fun x => { x with mesh := [(5, ⟨[], 0⟩)] }), (5, ⟨[], 0⟩), by decide +kernel⟩,
    fun st h => ⟨portState st id, rfl, rfl⟩⟩
  · intro b h
    refine ⟨portState .up (fun x => { x with nakSent := b }), ⟨0, [], ~~~ crc64 (toLE 8 0 ++ slice [] 0 240)⟩, ?_, not_ne _, ?_⟩
    · revert b; unfold linkedQuiet; decide +kernel
    · revert b; decide +kernel
  · unfold meshOk
    exact ⟨by decide +kernel, by decide +kernel, by decide +kernel, by decide +kernel⟩
  · decide +kernel

theorem wit_SkyPorts :
    (∀ st ∈ [PortState.up, .admitted, .retrain, .down, .dark], ∃ s : State, (s.sky 0).state = st ∧ s.boot.stage ≠ 7 ∧ 8 ≤ (s.sky 0).active) ∧
    (∀ st ∈ [PortState.up, .retrain], ∃ s : State, (s.sky 0).state = st ∧ (s.sky 0).active < 8) ∧
    (∃ s : State, (s.sky 0).state = .up ∧ (s.sky 0).mapped.getLsbD 15 = false ∧
      8 ≤ ({ s.sky 0 with mapped := (s.sky 0).mapped ||| BitVec.ofNat 16 (2 ^ 15), lanes := (s.sky 0).lanes &&& ~~~ (BitVec.ofNat 16 (2 ^ 15)) } : SkyPort).active) ∧
    (∀ k ∈ [1, 2], ∃ s : State, (s.sky 0).state = .retrain ∧ (s.sky 0).tries = k) ∧
    (∃ s : State, (s.sky 0).state = .retrain ∧ ¬ (s.sky 0).active < 8 ∧ (s.sky 0).nakHeld = none ∧ (s.sky 0).mesh = [] ∧ (s.sky 0).tiles = []) ∧
    (∀ b ∈ [true, false], ∃ s : State, s.boot.stage = 4 ∧ (s.sky 0).state = .dark ∧ (s.reg (Reg.skyPortCtrl 0)).getLsbD 1 = b ∧ s.admitted = false ∧
      (s.sky 0).mapped = 0) := by
  refine ⟨fun st h => ⟨portState st id, rfl, by show (0 : Nat) ≠ 7; decide, by show 8 ≤ ((List.range 16).filter (fun k => bit k (0xFFFF : BitVec 16))).length; decide⟩, ?_,
    ⟨portState .up id, by decide +kernel⟩, ?_, ⟨portState .retrain id, by decide +kernel⟩, ?_⟩
  · intro st h
    refine ⟨portState st (fun x => { x with lanes := 0x7F }), ?_⟩
    revert st; decide +kernel
  · intro k h
    refine ⟨portState .retrain (fun x => { x with tries := k }), ?_⟩
    revert k; decide +kernel
  · intro b h
    refine ⟨({ State.reset with boot := { State.reset.boot with stage := 4 } }).setReg (Reg.skyPortCtrl 0) (if b then 2 else 0), ?_⟩
    revert b; decide +kernel

/-- Port 0 up in a module that offers a stand of two modules in X, with SKY_ADMIT at `st`, awaiting answers on the ports `asked`. -/
def standState (st : Nat) (asked : List Nat) (p0 : PortState) : State :=
  { ((portState p0 id).setReg Reg.skyStand (BitVec.ofNat 64 (7 * 2 ^ 32 + 2 ^ 16))).setReg Reg.skyAdmit (BitVec.ofNat 64 st) with admission := ⟨asked, false⟩ }

def standCovered (s : State) : Prop := s.shape.1 * s.shape.2.1 * s.shape.2.2 ≤ tierLimit s.standTier

def standInside (s : State) : Prop := s.offered.1 < s.shape.1 ∧ s.offered.2.1 < s.shape.2.1 ∧ s.offered.2.2 < s.shape.2.2

/-- Reset with the beat locked and register `a` at `v`. -/
def lockedWith (a v : Nat) : State :=
  let s := State.reset.setReg a (BitVec.ofNat 64 v)
  { s with beats := { s.beats with state := .locked } }

/-- The ports that a request goes on. -/
def askPorts (s : State) : List Nat :=
  (List.range 16).filter (fun p => ((s.sky p).state == .up || (s.sky p).state == .admitted) && s.axisUsed p)

/-- A request for stand `id` with `sx` modules in X from the module at `x`. -/
def reqOf (id sx x : Nat) : AdmitReq := ⟨BitVec.ofNat 32 id, sx, 1, 1, x, 0, 0, 0⟩

theorem wit_Admission :
    (∃ v : Word, State.reset.boot.stage ≠ 7 ∧ v.getLsbD 31 = true ∧ v.getLsbD 30 = false) ∧
    (∃ s : State, ¬ standCovered s) ∧ (∃ s : State, standCovered s ∧ s.beats.state = .unlocked) ∧
    (∃ s : State, standCovered s ∧ s.beats.state = .locked ∧ ¬ standInside s) ∧
    (∀ k ∈ [0, 2], ∃ s : State, standCovered s ∧ s.beats.state = .locked ∧ standInside s ∧ s.regF Reg.skyAdmit 1 0 = k) ∧
    (∀ l ∈ [[0], []], ∃ s : State, .admitReqSend ∈ s.inFlight ∧ s.tilesHeld = [] ∧ s.regF Reg.skyAdmit 1 0 = 1 ∧ askPorts s = l) ∧
    (∃ (s : State) (r : Nat → Nat → Nat → AdmitReq), r = reqOf ∧
      (s.sky 0).state = .up ∧ s.regF Reg.skyAdmit 1 0 = 2 ∧ s.admission.leaving = false ∧ s.tilesHeld = [] ∧ (s.sky 0).mesh = [] ∧ (s.sky 0).tiles = [] ∧
        (r 6 2 1).standId ≠ s.admitRequest.standId ∧ (r 7 2 1).standId = s.admitRequest.standId ∧ ((r 7 3 1).sx, (r 7 3 1).sy, (r 7 3 1).sz) ≠ s.shape ∧
        ((r 7 2 1).sx, (r 7 2 1).sy, (r 7 2 1).sz) = s.shape ∧ s.axisUsed 0 = true ∧ ((r 7 2 1).x, (r 7 2 1).y, (r 7 2 1).z) = s.behind 0 ∧
        ((r 7 2 0).x, (r 7 2 0).y, (r 7 2 0).z) ≠ s.behind 0) ∧
    (∀ l ∈ [[0], [8, 0], [8]], ∃ s : State, (s.sky 0).state = .up ∧ s.regF Reg.skyAdmit 1 0 = 1 ∧ s.admission = ⟨l, false⟩ ∧ s.tilesHeld = [] ∧ (s.sky 0).mesh = [] ∧
      (s.sky 0).tiles = []) ∧
    (∃ s : State, s.boot.stage ≠ 7 ∧ s.regF Reg.skyAdmit 1 0 = 2 ∧ s.admission.leaving = false ∧ (s.sky 0).state = .admitted ∧ (s.sky 0).tiles = []) := by
  refine ⟨⟨BitVec.ofNat 64 (2 ^ 31 + 99 * 2 ^ 32), by decide⟩, ⟨standState 0 [] .up, by unfold standCovered; decide +kernel⟩,
    ⟨State.reset, by unfold standCovered; decide +kernel⟩, ⟨lockedWith Reg.skyCoord 1, by unfold standCovered standInside; decide +kernel⟩, ?_, ?_, ⟨standState 2 [] .up, reqOf, rfl, ?_⟩, ?_,
    ⟨standState 2 [] .admitted, by decide +kernel⟩⟩
  · intro k h
    refine ⟨lockedWith Reg.skyAdmit k, ?_⟩
    revert k; unfold standCovered standInside; decide +kernel
  · intro l h
    refine ⟨{ standState 1 [] (if l = [0] then .up else .dark) with inFlight := [.admitReqSend] }, List.mem_singleton.mpr rfl, ?_⟩
    revert l; decide +kernel
  · refine ⟨by decide +kernel, by decide +kernel, rfl, rfl, rfl, rfl, ?_, ?_, by decide +kernel, by decide +kernel, by decide +kernel, by decide +kernel, by decide +kernel⟩
    · exact of_decide_eq_true (p := BitVec.ofNat 32 6 ≠ BitVec.ofNat 32 ((standState 2 [] .up).regF Reg.skyStand 63 32)) (by decide +kernel)
    · exact of_decide_eq_true (p := BitVec.ofNat 32 7 = BitVec.ofNat 32 ((standState 2 [] .up).regF Reg.skyStand 63 32)) (by decide +kernel)
  · intro l h
    refine ⟨standState 1 l .up, ?_⟩
    revert l; decide +kernel

/-- The beat follows the fibre, with `f` as its state. -/
def fibreState (f : FibreSt) : State :=
  ({ State.reset with beats := { BeatSt.reset with state := .locked, active := .fibre, fibre := { f with locked := true } } }).setReg Reg.beatCtrl 1

def onFibre (s : State) : Prop := s.beats.state = .locked ∧ s.beats.active = .fibre ∧ s.beats.fibre.locked = true ∧ s.regF Reg.beatCtrl 1 0 = 1

/-- A cycle frame's check. -/
def frameCheck (c : CycleFrame) : BitVec 32 :=
  crc32c (toLE 8 c.cycle.toNat ++ [c.nominal, c.quality] ++ toLE 4 c.delayNs.toNat ++ toLE 4 c.campusId.toNat ++ toLE 2 c.reserved.toNat)

/-- A cycle frame of cycle 9 with the nominal frequency `hz`, and `d` added to its check. -/
def frameOf (hz : Nat) (d : BitVec 32) : CycleFrame :=
  let c : CycleFrame := ⟨9, BitVec.ofNat 8 hz, 0, 100, 7, 0, 0⟩
  { c with check := frameCheck c + d }

theorem wit_TickCounts : (∃ s : State, s.beats.hold = 0) ∧ (∃ s : State, 0 < s.beats.hold) :=
  ⟨⟨State.reset, rfl⟩, ⟨{ State.reset with beats := { BeatSt.reset with hold := 2 } }, by decide⟩⟩

theorem wit_BeatFibre :
    (∃ s : State, onFibre s ∧ s.beats.fibre.bits = none) ∧
    (∀ e ∈ [(0, 0, 20), (5, 0, 21), (7, 1, 0)], ∃ (s : State) (b : Byte) (skew : Nat), onFibre s ∧ s.beats.fibre.bits = some 255 ∧ s.beats.fibre.badMarks = e.1 ∧
      b.toNat = e.2.1 ∧ skew = e.2.2) ∧
    (∀ hz ∈ [50, 60], ∃ c : CycleFrame, c.check = frameCheck c ∧ c.nominal = BitVec.ofNat 8 hz) ∧
    (∀ k ∈ [0, 1], ∃ (s : State) (c : CycleFrame), onFibre s ∧ s.beats.fibre.badFrames = k ∧ c.check ≠ frameCheck c) := by
  refine ⟨⟨fibreState .reset, by unfold onFibre; decide +kernel⟩, ?_, ?_, ?_⟩
  · intro e h
    refine ⟨fibreState { FibreSt.reset with bits := some 255, badMarks := e.1 }, BitVec.ofNat 8 e.2.1, e.2.2, ?_⟩
    revert e; unfold onFibre; decide +kernel
  · intro hz h
    refine ⟨frameOf hz 0, ?_⟩
    revert hz; decide +kernel
  · intro k h
    refine ⟨fibreState { FibreSt.reset with badFrames := k }, frameOf 50 1, ?_⟩
    revert k; unfold onFibre; decide +kernel

/-- Entry 0 of the beat table is `e`, slot 0's open occurrences are `l`, and `m` is in flight. -/
def eventState (e : Nat) (l : List (Nat × Nat)) (m : Instr) : State :=
  let s := { loaded with inFlight := [m] }
  let s := { s with beats := { s.beats with table := [(0, BitVec.ofNat 128 e), (1, BitVec.ofNat 128 e)] } }
  s.setSched 0 { BeatSlot.reset with opens := l }

theorem wit_BeatEvents :
    (∀ m ∈ [Instr.eventWindow 0, .windowClose 0, .eventBallast 0, .eventRamp 0, .eventCkpt 0, .ckptEnd 0, .eventDigest 0, .eventKat 0],
      ∃ s : State, m ∈ s.inFlight ∧ (s.sched 0).opens = [(0, 99)] ∧ (s.red 0).waiting = none ∧ (s.red 0).mail = []) ∧
    (∃ s : State, .eventKat 0 ∉ s.inFlight) ∧ (∃ s : State, .eventWindow 0 ∈ s.inFlight ∧ ∀ c, (0, c) ∉ (s.sched 0).opens) ∧
    (∃ s : State, .windowClose 0 ∈ s.inFlight ∧ (s.sched 0).opens = [(0, 9), (1, 12)] ∧
      ((s.entryOf 1).extractLsb' 124 4).toNat = 1 ∧ ((s.entryOf 1).extractLsb' 117 3).toNat = ((s.entryOf 0).extractLsb' 117 3).toNat) ∧
    (∃ (s : State) (m : Instr), .eventDigest 0 ∈ s.inFlight ∧ (s.red 0).mail = [(s.moduleNo, m)]) := by
  refine ⟨?_, ⟨State.reset, by decide⟩, ⟨eventState 0 [] (.eventWindow 0), by decide +kernel, fun c => List.not_mem_nil⟩,
    ⟨eventState (2 ^ 124) [(0, 9), (1, 12)] (.windowClose 0), by decide +kernel⟩,
    ⟨(eventState 0 [] (.eventDigest 0)).setRed 0 { RedSt.reset with mail := [(0, .commitMarker 0 0)] }, .commitMarker 0 0, by decide +kernel⟩⟩
  intro m h
  refine ⟨eventState 0 [(0, 99)] m, List.mem_singleton.mpr rfl, ?_⟩
  revert m; decide +kernel

theorem wit_BeatSlack :
    (∀ w ∈ [0, 1, 2, 2 ^ 31 - 1, 2 ^ 31], ∃ s : State, (s.sched 0).members = [] ∧
      decide ((w + 2 ^ 32 - (s.reg Reg.beatCounter).toNat % 2 ^ 32) % 2 ^ 32 ≤ 1 ∨ 2 ^ 31 ≤ (w + 2 ^ 32 - (s.reg Reg.beatCounter).toNat % 2 ^ 32) % 2 ^ 32) =
        decide (w ≤ 1 ∨ 2 ^ 31 ≤ w)) ∧
    (∃ s : State, (s.sched 0).members = [] ∧ (9, 3) ∈ (s.sched 0).slacks ∧ ∀ j, (9, j) ∈ (s.sched 0).slacks → j ≤ 3) ∧
    (∃ s : State, ∀ r ∈ (s.sched 0).slacks, r.1 ≠ 9) ∧
    (∀ k ∈ [0, 1, 4096, 4097], ∃ (s : State) (v : Word), s.boot.stage ≠ 7 ∧ v.getLsbD 63 = true ∧ (v.extractLsb' 60 3).toNat = 0 ∧ (v.extractLsb' 44 13).toNat = k ∧
      (s.sched 0).maxSlack = 4096) := by
  refine ⟨?_, ⟨State.reset.setSched 0 { BeatSlot.reset with slacks := [(9, 2), (9, 3)] }, by decide +kernel, by decide +kernel, ?_⟩,
    ⟨State.reset, by decide +kernel⟩, ?_⟩
  · intro w h
    refine ⟨State.reset, ?_⟩
    revert w; decide +kernel
  · intro j h
    have e : ((State.reset.setSched 0 { BeatSlot.reset with slacks := [(9, 2), (9, 3)] }).sched 0).slacks = [(9, 2), (9, 3)] := by decide +kernel
    rw [e] at h
    simp at h
    omega
  · intro k h
    refine ⟨State.reset.setSched 0 { BeatSlot.reset with maxSlack := 4096 }, BitVec.ofNat 64 (2 ^ 63 + k * 2 ^ 44), ?_⟩
    revert k; decide +kernel

/-- Reset in boot stage `k`. -/
def stageState (k : Nat) : State := { State.reset with boot := { BootSt.reset with stage := k } }

theorem wit_CapAndCycle :
    (∀ v ∈ [79, 80, 840, 841, 4, 5, 200, 201], ∃ w : Word, (w.extractLsb' 0 10).toNat = v) ∧
    (∀ k ∈ [6, 8], ∃ (s : State) (m : CycleMeasure), s.boot.stage = k ∧ 700 ≤ m.flow ∧ m.inlet ≤ 450 ∧ (∀ n, n < 8 → s.occupied n = false) ∧
      s.power.exempt = false ∧ m.mean + 2 < s.power.hold) ∧
    (∃ (s : State) (m : CycleMeasure), s.boot.stage = 6 ∧ m.flow = 700 ∧ m.inlet = 450 ∧ s.power.ceiling < m.floor ∧ s.regF Reg.pwrCap 9 0 < s.power.e) ∧
    (∃ s : State, s.boot.stage = 0) ∧
    (∀ nap ∈ [0, 1, 2], ∃ s : State, (∀ n, n < 8 → s.jobState n ∉ [1, 2, 5, 6]) ∧ s.moduleState = 2 ∧ s.regF Reg.pwrChrysalis 33 32 = nap) := by
  refine ⟨fun v h => ⟨BitVec.ofNat 64 v, by revert v; decide⟩, ?_,
    ⟨{ stageState 6 with power := { State.reset.power with e := 2000 } }, ⟨0, 900, 0, [], 700, 450⟩, by decide +kernel⟩, ⟨State.reset, rfl⟩, ?_⟩
  · intro k h
    refine ⟨{ stageState k with power := { State.reset.power with hold := 100, exempt := false } }, ⟨97, 0, 0, [], 700, 450⟩, ?_⟩
    revert k; decide +kernel
  · intro nap h
    refine ⟨(stageState 6).setReg Reg.pwrChrysalis (BitVec.ofNat 64 (nap * 2 ^ 32)), ?_⟩
    revert nap; decide +kernel

theorem wit_RegionPower :
    (∀ k ∈ [0, 1, 2], ∃ s : State, (s.half 143).stretch = k) ∧ (wfFm ⟨71, 0⟩ = true ∧ 143 / 2 = (⟨71, 0⟩ : FmId).region ∧ 142 / 2 ≠ (⟨70, 0⟩ : FmId).region) ∧
    (∀ k ∈ [0, 1, 2, 3], ∀ n ∈ [2, 3, 15], ∃ s : State, s.boot.stage ≠ 7 ∧ s.regF (Reg.rgnBreaker 71) 1 0 = k ∧ s.regF (Reg.rgnBreaker 71) 7 4 = n ∧ s.yard.objs = []) := by
  refine ⟨?_, by decide, ?_⟩
  · intro k h
    refine ⟨State.reset.setHalf 143 { HalfSt.reset with stretch := k }, ?_⟩
    revert k; decide +kernel
  · intro k h n g
    refine ⟨State.reset.setReg (Reg.rgnBreaker 71) (BitVec.ofNat 64 (n * 16 + k)), ?_⟩
    revert k n; decide +kernel

theorem wit_InputAndChrysalis :
    (∀ k ∈ [0, 1, 2], ∃ s : State, s.boot.input = k ∧ s.boot.mated = true ∧ s.boot.busLow = false) ∧ (∃ s : State, s.boot.mated = false) ∧
    (∀ nap ∈ [0, 1, 3], ∃ s : State, s.regF Reg.pwrChrysalis 33 32 = nap ∧ (∀ k, k < 8 → (s.sched k).state = .idle ∧ s.jobState k ∉ [1, 2, 5, 6]) ∧
      (s.sky 0).state = .up) := by
  refine ⟨?_, ⟨State.reset, rfl⟩, ?_⟩
  · intro k h
    refine ⟨{ State.reset with boot := { BootSt.reset with input := k, mated := true } }, ?_⟩
    revert k; decide +kernel
  · intro nap h
    refine ⟨(State.reset.setSky 0 { SkyPort.reset with state := .up }).setReg Reg.pwrChrysalis (BitVec.ofNat 64 (nap * 2 ^ 32)), ?_⟩
    revert nap; decide +kernel

/-- A record of code `code` of unit 5 outside any slot at tick 0. -/
def recordOf (code : Nat) : FaultRec := ⟨0, code, 2, 0x80, 5, 0, 15, 0, 1, 1, false⟩

def logState (l : List FaultRec) : State := { State.reset with flt := { FltSt.reset with log := l } }

theorem wit_FaultNotices :
    (∀ code ∈ [0x1000, 0x1001], ∃ (s : State) (m : Notice) (r : FaultRec), s.flt.log = [r] ∧
      decide (r.code = m.code ∧ r.unit = m.unit ∧ r.slot = 0x80 ∧ r.beat = s.reg Reg.beatCounter) = decide (code = 0x1000) ∧ m.slot = none) ∧
    (∃ s : State, s.flt.log = []) ∧
    (∃ s : State, s.jobState 0 = 1 ∧ (s.reg Reg.fltPolicy).getLsbD 1 = false) ∧ (∀ k ∈ [0, 3, 4, 5, 7], ∃ s : State, s.jobState 0 = k ∧ k ∉ [1, 2, 6]) := by
  refine ⟨?_, ⟨State.reset, rfl⟩, ⟨(jobState 1 none).setReg Reg.fltPolicy 0, by decide +kernel⟩, ?_⟩
  · intro code h
    refine ⟨logState [recordOf 0x1000], ⟨code, none, 5, 0, 15⟩, recordOf 0x1000, ?_⟩
    revert code; decide +kernel
  · intro k h
    refine ⟨jobState k none, ?_⟩
    revert k; decide +kernel

def fltState (x : FltSt) : State := { loaded with flt := x }

theorem wit_Tests :
    (∀ code ∈ [6, 9, 15], ∃ (s : State) (v : Word), s.boot.stage ≠ 7 ∧ v.getLsbD 63 = true ∧ (v.extractLsb' 56 4).toNat = code ∧ s.flt.host = [] ∧ s.katReducerOk = true) ∧
    (∀ e ∈ [(0, Kat.array), (5, Kat.cell)], ∃ (s : State) (v : Word), s.boot.stage ≠ 7 ∧ v.getLsbD 63 = true ∧ (v.extractLsb' 56 4).toNat = e.1 ∧ s.flt.host = [] ∧
      katOf (v.extractLsb' 56 4).toNat = some e.2 ∧ wfFm ⟨(v.extractLsb' 49 7).toNat, (v.extractLsb' 44 5).toNat⟩ = true ∧
      s.blockLive ⟨(v.extractLsb' 49 7).toNat, (v.extractLsb' 44 5).toNat⟩ = true ∧
      ∀ c ∈ blockCells ⟨(v.extractLsb' 49 7).toNat, (v.extractLsb' 44 5).toNat⟩, s.katCellOk c = true) ∧
    (∃ (s : State) (k : Kat), .eventKat 0 ∈ s.inFlight ∧ katOf ((s.entryOf 0).extractLsb' 20 4).toNat = some k ∧ (s.entryOf 0).getLsbD 7 = false ∧
      wfFm ⟨((s.entryOf 0).extractLsb' 13 7).toNat, ((s.entryOf 0).extractLsb' 8 5).toNat⟩ = true ∧ s.flt.watch = [] ∧ s.flt.waits = []) ∧
    (∀ b ∈ [true, false], ∃ s : State, (s.reg Reg.fltPolicy).getLsbD 3 = b) ∧
    (∃ (s : State) (e : WatchEnt), (s.reg Reg.fltPolicy).getLsbD 3 = true ∧ s.flt.watch = [e] ∧ e.kind = 1 ∧ s.katCellOk e.unit = true) ∧
    (∀ d ∈ [0, 9, 10], ∃ s : State, s.regF Reg.logNextTest 47 0 = d ∧ s.licenceClock = 9) ∧
    (∃ (s : State) (k : Kat), s.katRuns k (.cell 0) = false) ∧
    (∀ k ∈ [Kat.cell, .array], ∃ s : State, (s.cell 0).testing = some k ∧ s.flt.watch = [] ∧ s.flt.host = [(.cell 0, k)]) ∧
    (∃ s : State, 0 ∈ s.flt.regions ∧ s.flt.reducer = true ∧ s.flt.host = []) ∧
    (∃ (s : State) (v : Word), v.getLsbD 63 = true ∧ (v.extractLsb' 0 8).toNat < s.flt.watch.length) ∧
    (∃ (s : State) (v : Word), v.getLsbD 63 = true ∧ s.flt.watch.length ≤ (v.extractLsb' 0 8).toNat) := by
  refine ⟨?_, ?_, ⟨eventState (5 * 2 ^ 20) [] (.eventKat 0), .cell, by decide +kernel⟩, ?_,
    ⟨(fltState { FltSt.reset with watch := [⟨1, 0, 0, 0, 0⟩] }).setReg Reg.fltPolicy 8, ⟨1, 0, 0, 0, 0⟩, by decide +kernel⟩, ?_, ⟨State.reset, .cell, by decide +kernel⟩, ?_,
    ⟨fltState { FltSt.reset with regions := [0], reducer := true }, by decide +kernel⟩,
    ⟨fltState { FltSt.reset with watch := [⟨1, 0, 0, 0, 0⟩] }, BitVec.ofNat 64 (2 ^ 63), by decide +kernel⟩, ⟨State.reset, BitVec.ofNat 64 (2 ^ 63), by decide +kernel⟩⟩
  · intro code h
    refine ⟨State.reset, BitVec.ofNat 64 (2 ^ 63 + code * 2 ^ 56), ?_⟩
    revert code; decide +kernel
  · intro e h
    refine ⟨loaded, BitVec.ofNat 64 (2 ^ 63 + e.1 * 2 ^ 56), ?_⟩
    revert e; decide +kernel
  · intro b h
    refine ⟨State.reset.setReg Reg.fltPolicy (if b then 8 else 0), ?_⟩
    revert b; decide +kernel
  · intro d h
    refine ⟨{ State.reset.setReg Reg.logNextTest (BitVec.ofNat 64 d) with book := { LogSt.reset with seen := 9 } }, ?_⟩
    revert d; decide +kernel
  · intro k h
    refine ⟨(fltState { FltSt.reset with host := [(.cell 0, k)] }).setCell 0 { CellSt.reset with testing := some k }, ?_⟩
    revert k; decide +kernel

def repairOf (k : Nat) : RepairSt := ⟨k, [], [], [], .reset⟩

/-- Slot 0 with an image of 128 bytes staged, whose measure is the slot's. -/
def stagedState : State :=
  (List.range 8).foldl (fun s w => s.setReg (Reg.imgMeasure 0 w) (BitVec.ofNat 64 (ofLE (slice (sha512 []) (8 * w) 8))))
    { loaded with tiers := { loaded.tiers with mem1 := loaded.tiers.mem1.write 0x10 (toLE 8 128) } }

theorem wit_Jobs :
    (∃ (s : State) (v : Word), (v.extractLsb' 59 3).toNat = 0 ∧ s.boot.stage = 6 ∧ v.getLsbD 63 = true ∧ v.getLsbD 62 = false ∧ (s.slot 0).state = .loaded ∧
      s.jobState 0 = 0 ∧ (s.reg Reg.modCtrl).getLsbD 62 = false ∧ (s.job 0).armed = none ∧ (s.sched 0).members = []) ∧
    (∃ (s : State) (v : Word), (v.extractLsb' 59 3).toNat = 7 ∧ s.boot.stage ≠ 7 ∧ v.getLsbD 63 = true ∧ v.getLsbD 62 = false ∧ (s.slot 7).state ≠ .loaded) ∧
    (∀ k ∈ [1, 2], ∃ (s : State) (v : Word), (v.extractLsb' 59 3).toNat = 0 ∧ s.boot.stage ≠ 7 ∧ v.getLsbD 62 = true ∧ v.getLsbD 63 = false ∧ s.jobState 0 = k) ∧
    (∀ o ∈ [none, some 0, some 1], ∃ s : State, (s.job 0).armed = o ∧ (s.reg Reg.beatCounter).toNat = 0) ∧
    (∀ k ∈ [2, 3, 4], ∃ (s : State) (v : Word), s.boot.stage ≠ 7 ∧ v.getLsbD 8 = true ∧ s.jobState 0 = k) ∧
    (∀ k ∈ [1, 2], ∃ (s : State) (p : RepairSt), (s.job 0).repair = some p ∧ p.step = k ∧ s.stagedSame 0 = false) ∧
    (∃ (s : State) (p : RepairSt), (s.job 0).repair = some p ∧ p.step = 1 ∧ s.stagedSame 0 = true ∧ p.blocks = [] ∧ s.fencedCells 0 = [] ∧ s.lostRegions 0 = []) := by
  refine ⟨⟨{ loaded with boot := { BootSt.reset with stage := 6 } }, BitVec.ofNat 64 (2 ^ 63), by decide +kernel⟩,
    ⟨State.reset, BitVec.ofNat 64 (2 ^ 63 + 7 * 2 ^ 59), by decide +kernel⟩, ?_, ?_, ?_, ?_,
    ⟨stagedState.setJob 0 { JobSt.reset with repair := some (repairOf 1) }, repairOf 1, by decide +kernel⟩⟩
  · intro k h
    refine ⟨jobState k none, BitVec.ofNat 64 (2 ^ 62), ?_⟩
    revert k; decide +kernel
  · intro o h
    refine ⟨loaded.setJob 0 { JobSt.reset with armed := o }, ?_⟩
    revert o; decide +kernel
  · intro k h
    refine ⟨jobState k none, 256, ?_⟩
    revert k; decide +kernel
  · intro k h
    refine ⟨loaded.setJob 0 { JobSt.reset with repair := some (repairOf k) }, repairOf k, ?_⟩
    revert k; decide +kernel

/-- Reset with the bring-up state that `g` sets. -/
def bootState (g : BootSt → BootSt) : State := { State.reset with boot := g BootSt.reset }

/-- A stage's findings with nothing wrong. -/
def cleanReport : StageReport := ⟨5, true, true, [], [], [], [], [], false, [], [], [], [], [], [], []⟩

theorem wit_BootStages :
    (∀ k ∈ [0, 2, 3, 4, 5, 6], ∃ (s : State) (r : StageReport), s.boot.stage = k ∧ r.ports = []) ∧
    (∀ sup ∈ [true, false], ∀ asked ∈ [true, false], ∃ (s : State) (r : StageReport) (k : Nat), s.boot.stage = 1 ∧ s.rng.romChoice = some k ∧ r.coolantOk = true ∧
      r.supplyOk = sup ∧ s.boot.asked.1 = asked) ∧
    (∃ s : State, s.boot.stage = 1 ∧ s.rng.romChoice = none) ∧
    (∀ m ∈ [true, false], ∀ low ∈ [true, false], ∀ i ∈ [0, 1, 2], ∃ s : State, s.boot.mated = m ∧ s.boot.busLow = low ∧ s.boot.input = i) ∧
    (∃ s : State, s.boot.mated = true ∧ s.okToRemove = true) ∧ (∃ s : State, s.boot.mated = true ∧ s.okToRemove = false ∧ ∀ n, n < 8 → s.jobState n ≠ 1) := by
  refine ⟨?_, ?_, ⟨{ bootState (fun b => { b with stage := 1 }) with rng := { RngSt.reset with revoked := 0xF } }, by decide +kernel⟩, ?_,
    ⟨bootState (fun b => { b with mated := true }), by decide +kernel⟩, ⟨bootState (fun b => { b with mated := true, stage := 6 }), by decide +kernel⟩⟩
  · intro k h
    exact ⟨bootState (fun b => { b with stage := k }), cleanReport, rfl, rfl⟩
  · intro sup h asked g
    have e : RngSt.reset.romChoice = some 0 := by decide +kernel
    exact ⟨bootState (fun b => { b with stage := 1, asked := (asked, false) }), { cleanReport with supplyOk := sup }, 0, rfl, e, rfl, rfl, rfl⟩
  · intro m h low g i f
    exact ⟨bootState (fun b => { b with mated := m, busLow := low, input := i }), rfl, rfl, rfl⟩

/-- A licence of 128 bytes that ends at `t`. -/
def licenceTo (t : Nat) : Bytes := List.replicate 0x18 0 ++ toLE 8 t ++ List.replicate 96 0

theorem wit_ModuleResets :
    (∀ bits_ ∈ [2 ^ 63, 2 ^ 61, 2 ^ 60], ∀ confirm ∈ [0x5A5A, 0x5A5B], ∃ v : Word, v.getLsbD 62 = false ∧ v = BitVec.ofNat 64 (bits_ + confirm) ∧
      (v.extractLsb' 0 16).toNat = confirm) ∧
    (∀ k ∈ [0, 6], ∀ i ∈ [0, 2], ∃ s : State, s.boot.stage = k ∧ s.boot.input = i ∧ (∀ n, n < 8 → s.jobState n ∉ [1, 2, 5]) ∧ s.regF Reg.skyAdmit 1 0 = 0) ∧
    (∃ s : State, s.jobState 0 = 1 ∧ s.boot.input = 2) ∧
    (∀ b ∈ [true, false], ∃ v : Word, v.getLsbD 63 = false ∧ v.getLsbD 61 = false ∧ v.getLsbD 60 = false ∧ v.getLsbD 62 = b) ∧
    (∃ s : State, (s.reg Reg.modCtrl).getLsbD 62 = false) ∧ (∃ s : State, s.rng.licence = none) ∧
    (∀ t ∈ [0, 9, 10], ∃ (s : State) (l : Bytes), s.rng.licence = some l ∧ l.length = 128 ∧ s.rng.expired = false ∧ ofLE ((l.drop 0x18).take 8) = t ∧
      s.licenceClock = 9 ∧ s.book.permanents < 4194304) := by
  refine ⟨?_, ?_, ⟨{ jobState 1 none with boot := { BootSt.reset with input := 2 } }, by decide +kernel⟩, ?_, ⟨State.reset, by decide +kernel⟩, ⟨State.reset, rfl⟩, ?_⟩
  · intro b h c g
    refine ⟨BitVec.ofNat 64 (b + c), ?_⟩
    revert b c; decide
  · intro k h i g
    have e : (∀ n, n < 8 → State.reset.jobState n ∉ [1, 2, 5]) ∧ State.reset.regF Reg.skyAdmit 1 0 = 0 := by decide +kernel
    exact ⟨bootState (fun b => { b with stage := k, input := i }), rfl, rfl, e⟩
  · intro b h
    refine ⟨if b then BitVec.ofNat 64 (2 ^ 62) else 0, ?_⟩
    revert b; decide
  · intro t h
    refine ⟨{ State.reset with rng := { RngSt.reset with licence := some (licenceTo t) }, book := { LogSt.reset with seen := 9 } }, licenceTo t, rfl, ?_⟩
    revert t; decide +kernel

/-- A reset of region 0 in mode `m`, awaiting nothing. -/
def regionReset (m : ResetMode) : ResetRun := ⟨.region, m, 0, none, true, []⟩

theorem wit_PartialResets :
    (∀ k ∈ [0, 1, 2, 3], ∃ (s : State) (v : Word), s.boot.stage ≠ 7 ∧ v.getLsbD 63 = true ∧ (v.extractLsb' 59 3).toNat = k ∧ s.regF Reg.modResetStatus 1 0 ≠ 1 ∧
      s.scopeOk (if k = 0 then Scope.cell else if k = 1 then .block else if k = 2 then .region else .partition)
        (if k = 3 then (v.extractLsb' 56 3).toNat else (v.extractLsb' 0 18).toNat) = true ∧ s.jobInScope .region 0 = false) ∧
    (∃ s : State, s.regF Reg.modResetStatus 1 0 = 1) ∧
    (∀ k ∈ [Scope.cell, .block], ∃ s : State, s.regF Reg.modResetStatus 1 0 ≠ 1 ∧ s.scopeOk k 0 = true ∧ s.resets = [] ∧ s.loadActive = false ∧
      s.cells.find 0 = some (s.cell 0)) ∧
    (∃ s : State, s.scopeOk .region 71 = true ∧ s.slotOfRegion 71 = none ∧ s.resets = [] ∧ s.loadActive = false) ∧ (∃ s : State, s.scopeOk .region 72 = false) ∧
    (∀ m ∈ [ResetMode.drain, .absorb], ∃ (s : State) (r : ResetRun), s.resets = [r] ∧ r.mode = m ∧ s.quiet r = true ∧ r.repair = none ∧ s.ldr.waits = false) ∧
    (∃ (s : State) (r : ResetRun), s.resets = [r] ∧ r.mode = .drain ∧ s.quiet r = false ∧ s.fabricFlits = []) ∧
    (∃ s : State, (s.rgn 71).held = true ∧ (s.rgn 71).dark = false ∧ s.regF (Reg.rgnBreaker 71) 1 0 = 0 ∧ ∀ n, n < 8 → (s.job n).repair = none) ∧
    (∃ s : State, (s.rgn 71).held = false) := by
  refine ⟨?_, ⟨State.reset.setReg Reg.modResetStatus 1, by decide +kernel⟩, ?_, ⟨State.reset, by decide +kernel⟩, ⟨State.reset, by decide +kernel⟩, ?_,
    ⟨{ cellState 0 (fun x => { x with xrun := some ⟨false, 0, true, [0], [0], 1, [0], true, false⟩ }) with resets := [regionReset .drain] }, regionReset .drain, by decide +kernel⟩,
    ⟨State.reset.setRgn 71 { RgnSt.reset with held := true, dark := false }, by decide +kernel⟩, ⟨State.reset.setRgn 71 { RgnSt.reset with held := false }, by decide +kernel⟩⟩
  · intro k h
    refine ⟨loaded, BitVec.ofNat 64 (2 ^ 63 + k * 2 ^ 59), ?_⟩
    revert k; decide +kernel
  · intro k h
    refine ⟨cellState 0 id, ?_⟩
    revert k; decide +kernel
  · intro m h
    refine ⟨{ loaded with resets := [regionReset m] }, regionReset m, rfl, rfl, ?_⟩
    revert m; decide +kernel

/-- Port 0 up in a READY module, with sessions, queue pairs and windows. -/
def netState (sessions : Tbl Session) (qps : Tbl QpSt) (wins : Tbl WinSt) : State :=
  { stageState 6 with eth := { EthSt.reset with ports := [(0, ⟨true, 0, 0⟩)], sessions := sessions, qps := qps, wins := wins } }

def hostAddr : NetAddr := ⟨true, 5⟩

/-- A KCT frame of the host with its check. -/
def kctFrame (op session seq address count : Nat) (payload : Bytes) : KctFrame :=
  let f : KctFrame := {
    port := 0, source := hostAddr, udp := 9, magic := 0x544B, version := 1, op := BitVec.ofNat 8 op, status := 0, reserved := 0,
    length := BitVec.ofNat 16 payload.length, session := BitVec.ofNat 32 session, seq := BitVec.ofNat 32 seq, address := BitVec.ofNat 64 address,
    count := BitVec.ofNat 16 count, reserved2 := 0, check := 0, payload := payload }
  { f with check := crc32c (kctHeader f) }

def goodKct (s : State) (f : KctFrame) : Prop :=
  (f.port < 2 ∧ (s.ethPort f.port).link = true ∧ s.portMode f.port = .full ∧ (s.reg Reg.ethKct).getLsbD 0 = false) ∧ f.magic = 0x544B ∧
  f.check = crc32c (kctHeader f) ∧ f.version = 1 ∧ f.length.toNat = f.payload.length ∧ f.length.toNat ≤ 8192

/-- The frame is of session 1, which is the sender's and has executed nothing. -/
def freshKct (s : State) (f : KctFrame) : Prop := goodKct s f ∧ f.session.toNat = 1 ∧ s.session 1 = some ⟨f.source, f.udp, none, []⟩

def session1 : Tbl Session := [(1, ⟨hostAddr, 9, none, []⟩)]

theorem wit_KctRequests :
    (∀ op ∈ [1, 2, 0x10, 0x11], ∃ (s : State) (f : KctFrame), f.op = BitVec.ofNat 8 op ∧ goodKct s f ∧ s.session f.session.toNat = none) ∧
    (∃ (s : State) (f : KctFrame), (s.ethPort f.port).link = false) ∧
    (∃ (s : State) (f : KctFrame), f.port < 2 ∧ (s.ethPort f.port).link = true ∧ s.portMode f.port = .full ∧ (s.reg Reg.ethKct).getLsbD 0 = false ∧ f.magic ≠ 0x544B) ∧
    (∀ kept ∈ [[], [kctFrame 0x90 1 7 0 0 []]], ∃ (s : State) (f : KctFrame) (x : Session), goodKct s f ∧ f.op ≠ 1 ∧ s.session f.session.toNat = some x ∧
      x.source = f.source ∧ x.udp = f.udp ∧ x.high = some 7 ∧ f.seq.toNat = 7 ∧ x.kept = kept ∧ ∀ g ∈ x.kept, g.seq = f.seq) ∧
    (∃ (s : State) (f : KctFrame), goodKct s f ∧ f.op = 1 ∧ s.session 1 ≠ none ∧ s.session 2 = none) ∧
    (∃ (s : State) (f : KctFrame), goodKct s f ∧ f.op = 1 ∧ ∀ j, j < 16 → s.session (j + 1) ≠ none) ∧
    (∃ (s : State) (f : KctFrame), freshKct s f ∧ f.op = 2) ∧
    (∀ a ∈ [Reg.pwrCap, Reg.pwrCap + 1, 0xFFFF_FFF8], ∃ (s : State) (f : KctFrame), freshKct s f ∧ f.op = 0x10 ∧ f.address.toNat = a ∧ f.count = 1 ∧ f.payload = [] ∧
      s.regSilent a = false ∧ decide (a % 8 = 0 ∧ inBlock a = true) = decide (a = Reg.pwrCap)) ∧
    (∃ (s : State) (f : KctFrame), freshKct s f ∧ f.op = 0x11 ∧ f.count = 1 ∧ f.payload.length = 8 ∧
      ((s.addReg (Reg.ethRx f.port) 63 0 1).writeReg (.kct f.session.toNat) f.address.toNat (BitVec.ofNat 64 (ofLE f.payload))).2 = 0) ∧
    (∃ (s : State) (a : Nat) (w : Word) (r : RegRow), a % 8 = 0 ∧ inBlock a = true ∧ s.regSilent a = false ∧ s.writeFixed .firmware a w = none ∧
      s.writeArray .firmware a w = none ∧ isClear a = false ∧ startsWork a w = false ∧ regRow a = some r) := by
  refine ⟨?_, ⟨State.reset, kctFrame 1 0 0 0 0 [], by decide +kernel⟩, ⟨netState [] [] [], { kctFrame 1 0 0 0 0 [] with magic := 0 }, by decide +kernel⟩, ?_,
    ⟨netState session1 [] [], kctFrame 1 0 0 0 0 [], by unfold goodKct; decide +kernel⟩,
    ⟨netState ((List.range 16).map (fun k => (k + 1, ⟨hostAddr, 9, none, []⟩))) [] [], kctFrame 1 0 0 0 0 [], by unfold goodKct; decide +kernel⟩,
    ⟨netState session1 [] [], kctFrame 2 1 0 0 0 [], by unfold freshKct goodKct; decide +kernel⟩, ?_,
    ⟨netState session1 [] [], kctFrame 0x11 1 0 Reg.fltPolicy 1 (toLE 8 0), by unfold freshKct goodKct; decide +kernel⟩,
    ⟨State.reset, Reg.fltPolicy, 0, (regRow Reg.fltPolicy).getD ⟨0, [], 0, 0, 0, 0⟩, by decide +kernel⟩⟩
  · intro op h
    refine ⟨netState [] [] [], kctFrame op 1 0 0 0 [], ?_⟩
    revert op; unfold goodKct; decide +kernel
  · intro kept h
    refine ⟨netState [(1, ⟨hostAddr, 9, some 7, kept⟩)] [] [], kctFrame 0x10 1 7 0 0 [], ⟨hostAddr, 9, some 7, kept⟩, ?_⟩
    revert kept; unfold goodKct; decide +kernel
  · intro a h
    refine ⟨netState session1 [] [], kctFrame 0x10 1 0 a 1 [], ?_⟩
    revert a; unfold freshKct goodKct; decide +kernel

/-! The neutral point of Ed25519 as a key and as the point of a signature with scalar 0: it verifies for every message, whatever the serial number. -/

def idKey : Bytes := 1 :: List.replicate 31 0
def idSig : Bytes := idKey ++ List.replicate 32 0

def neutral (q : Ed25519.Point) : Prop := q.x = 0 ∧ q.t = 0 ∧ q.y = q.z

theorem neutral_add (q r : Ed25519.Point) (a : neutral q) (b : neutral r) : neutral (Ed25519.add q r) := by
  obtain ⟨x, y, z, t⟩ := q
  obtain ⟨x', y', z', t'⟩ := r
  obtain ⟨a1, a2, a3⟩ := a
  obtain ⟨b1, b2, b3⟩ := b
  simp only at a1 a2 a3 b1 b2 b3
  subst a1 a2 a3 b1 b2 b3
  have e : ∀ u : Nat, Ed25519.sub u 0 = u % Ed25519.p := by
    intro u
    simp [Ed25519.sub]
  have h : Ed25519.sub (y * y' % Ed25519.p) (y * y' % Ed25519.p) = 0 := by
    simp [Ed25519.sub]
  simp [neutral, Ed25519.add, e, h, Nat.two_mul, Nat.add_mul]

theorem neutral_mul (n k : Nat) : ∀ q, neutral q → neutral (Ed25519.mul n k q) := by
  induction n generalizing k with
  | zero => intro q _; exact ⟨rfl, rfl, rfl⟩
  | succ n ih =>
    intro q h
    have := ih (k / 2) _ (neutral_add q q h h)
    unfold Ed25519.mul
    dsimp only
    split
    · exact neutral_add _ _ this h
    · exact this

theorem neutral_mul_zero (n : Nat) : ∀ q, Ed25519.mul n 0 q = Ed25519.zero := by
  induction n with
  | zero => intro q; rfl
  | succ n ih => intro q; unfold Ed25519.mul; simp [ih]

theorem edVerify_neutral (msg : Bytes) : edVerify idKey msg idSig = true := by
  have d : Ed25519.decode idKey = some Ed25519.zero := by decide +kernel
  have z : neutral Ed25519.zero := ⟨rfl, rfl, rfl⟩
  have a : idSig.take 32 = idKey := by decide
  have b : ofLE (idSig.drop 32) = 0 := by decide
  have c : idSig.length = 64 := by decide
  have o : (0 : Nat) < Ed25519.order := by decide
  unfold edVerify
  rw [a, b]
  simp only [d, c, o, decide_true, Bool.true_and]
  have l := neutral_mul 4 8 _ z
  generalize ofLE (sha512 (idKey ++ idKey ++ msg)) % Ed25519.order = k
  have r := neutral_add _ _ (neutral_mul 4 8 _ z) (neutral_mul 4 8 _ (neutral_mul 256 k _ z))
  rw [neutral_mul_zero]
  simp only [Ed25519.mul8]
  obtain ⟨l1, _, l3⟩ := l
  obtain ⟨r1, _, r3⟩ := r
  simp [Ed25519.same, l1, l3, r1, r3, Nat.mul_comm]

/-- A mailbox request of code `code` in session 1. -/
def mboxFrame (code : Nat) (args : Bytes) : KctFrame := kctFrame 0x20 1 0 0 0 (toLE 2 code ++ [0, 0] ++ toLE 4 args.length ++ List.replicate 8 0 ++ args)

/-- Session 1 is open and the ranger is `r`. -/
def rngState (r : RngSt) : State := { netState session1 [] [] with rng := r }

def mboxHyps (s : State) (f : KctFrame) (args : Bytes) (code : Nat) : Prop :=
  freshKct s f ∧ f.op = 0x20 ∧ leAt f.payload 2 2 = 0 ∧ leAt f.payload 4 4 = args.length ∧ args.length ≤ 8176 ∧ f.payload.drop 16 = args ∧
  f.payload.length = 16 + args.length ∧ leAt f.payload 0 2 = code

theorem wit_Mailbox :
    (∀ e ∈ [(0x01, []), (0x01, [1]), (0x02, List.replicate 32 1), (0x02, []), (0x10, toLE 4 0x100_0000 ++ [1]), (0x11, [1]), (0x30, List.replicate 128 0), (0x31, [])],
      ∃ (s : State) (f : KctFrame), mboxHyps s f e.2 e.1) ∧
    (∀ st ∈ [none, some 1, some 2], ∀ off ∈ [0, 256], ∃ (s : State) (f : KctFrame) (args : Bytes), mboxHyps s f args 0x10 ∧ s.rng.staging = st ∧ 4 ≤ args.length ∧
      leAt args 0 4 = off ∧ off + (args.drop 4).length ≤ 0x100_0000) ∧
    (∀ b ∈ [true, false], ∃ (s : State) (f : KctFrame), mboxHyps s f [] 0x11 ∧ s.rng.bankValid (s.rng.bank (1 - s.rng.running)) = b) ∧
    (∀ l ∈ [none, some (licenceTo 0)], ∃ (s : State) (f : KctFrame), mboxHyps s f [] 0x31 ∧ s.rng.licence = l) ∧
    (∃ (s : State) (f : KctFrame) (e : Nat), mboxHyps s f (List.replicate 128 0) 0x30 ∧ s.licenceCheck (List.replicate 128 0) = some e) ∧
    (∀ rev ∈ [0, 14], ∃ (s : State) (f : KctFrame) (args : Bytes), mboxHyps s f args 0x40 ∧ args.length = 68 ∧ leAt args 0 1 = 0 ∧ leAt args 2 2 = 0 ∧
      s.rng.revoked = BitVec.ofNat 4 rev ∧ leAt args 1 1 = leAt args 0 1) := by
  refine ⟨?_, ?_, ?_, ?_, ⟨rngState .reset, mboxFrame 0x30 (List.replicate 128 0), Mbox.badSignature, by unfold mboxHyps freshKct goodKct; decide +kernel, by decide +kernel⟩, ?_⟩
  · intro e h
    refine ⟨rngState .reset, mboxFrame e.1 e.2, ?_⟩
    revert e; unfold mboxHyps freshKct goodKct; decide +kernel
  · intro st h off g
    refine ⟨rngState { RngSt.reset with staging := st }, mboxFrame 0x10 (toLE 4 off ++ [7, 9]), toLE 4 off ++ [7, 9], ?_⟩
    revert st off; unfold mboxHyps freshKct goodKct; decide +kernel
  · intro b h
    refine ⟨rngState { RngSt.reset with bankB := if b then RngSt.reset.bankA else ⟨.empty, false⟩ }, mboxFrame 0x11 [], ?_⟩
    revert b; unfold mboxHyps freshKct goodKct; decide +kernel
  · intro l h
    refine ⟨rngState { RngSt.reset with licence := l }, mboxFrame 0x31 [], ?_⟩
    revert l; unfold mboxHyps freshKct goodKct; decide +kernel
  · intro rev h
    refine ⟨rngState { RngSt.reset with revoked := BitVec.ofNat 4 rev }, mboxFrame 0x40 (List.replicate 68 0), List.replicate 68 0, ?_⟩
    revert rev; unfold mboxHyps freshKct goodKct; decide +kernel

/-- An owner command's arguments. -/
def ownerBytes (slot signer counter : Nat) (key : Bytes) : Bytes := [BitVec.ofNat 8 slot, BitVec.ofNat 8 signer, 0, 0] ++ toLE 4 counter ++ key ++ idSig

/-- The VALID owner keys of the tests stand in slots 1 and 2. -/
def ownerTbl (two : Bool) : Tbl OwnerSt := (1, ⟨1, idKey⟩) :: (if two then [(2, ⟨1, idKey⟩)] else [])

/-- The signer's slot holds the neutral key, so the neutral signature is good. -/
theorem ownerSigned_neutral (r : RngSt) (code : Nat) (a : OwnerArgs) (h : r.ownerAt a.signer = ⟨1, idKey⟩) (g : a.sig = idSig) :
    r.ownerSigned code a = true := by
  unfold RngSt.ownerSigned
  rw [h, g, edVerify_neutral]
  rfl

/-- Code, slot, counter, whether two keys are VALID: first claims excluded, every signed case of the owner commands. -/
theorem wit_MailboxOwners :
    (∃ (s : State) (f : KctFrame) (args : Bytes) (a : OwnerArgs), mboxHyps s f args 0x20 ∧ ownerArgs args = some a ∧ a.slot = 0 ∧ a.counter = s.rng.owner.toNat + 1 ∧
      ∀ j, j < 4 → (s.rng.ownerAt j).state = 0) ∧
    (∀ code ∈ [0x20, 0x21, 0x22], ∃ (s : State) (f : KctFrame) (args : Bytes) (a : OwnerArgs), mboxHyps s f args code ∧ ownerArgs args = some a ∧
      (s.rng.ownerAt a.signer).state ≠ 1 ∧ ofLE a.key = 0 ∧ a.slot = 0 ∧ s.rng.ownerAt 1 = ⟨1, idKey⟩) ∧
    (∀ e ∈ [(0x20, 0, 1, false), (0x20, 1, 1, false), (0x20, 3, 2, false), (0x21, 1, 2, false), (0x21, 3, 1, false), (0x21, 1, 1, false), (0x21, 1, 1, true), (0x22, 0, 1, false)],
      ∃ (s : State) (f : KctFrame) (args : Bytes) (a : OwnerArgs), mboxHyps s f args e.1 ∧ ownerArgs args = some a ∧ a.slot = e.2.1 ∧ a.counter = e.2.2.1 ∧
        s.rng.owner = 0 ∧ s.rng.owners = ownerTbl e.2.2.2 ∧ ofLE a.key = 0 ∧ s.rng.ownerSigned e.1 a = true) := by
  let key0 : Bytes := List.replicate 32 0
  have z : ofLE (List.replicate 32 (0 : Byte)) = 0 := by decide
  refine ⟨⟨rngState .reset, mboxFrame 0x20 (ownerBytes 0 0 1 idKey), ownerBytes 0 0 1 idKey, ⟨0, 0, 1, idKey, idSig⟩, by unfold mboxHyps freshKct goodKct; decide +kernel⟩, ?_, ?_⟩
  · intro code h
    refine ⟨rngState { RngSt.reset with owners := ownerTbl false }, mboxFrame code (ownerBytes 0 3 1 key0), ownerBytes 0 3 1 key0, ⟨0, 3, 1, key0, idSig⟩, ?_⟩
    revert code; unfold mboxHyps freshKct goodKct; decide +kernel
  · intro e h
    refine ⟨rngState { RngSt.reset with owners := ownerTbl e.2.2.2 }, mboxFrame e.1 (ownerBytes e.2.1 1 e.2.2.1 key0), ownerBytes e.2.1 1 e.2.2.1 key0,
      ⟨e.2.1, 1, e.2.2.1, key0, idSig⟩, ?_, ?_, rfl, rfl, rfl, rfl, z, ownerSigned_neutral _ _ _ ?_ rfl⟩
    · revert e; unfold mboxHyps freshKct goodKct; decide +kernel
    · revert e; decide +kernel
    · cases e.2.2.2 <;> rfl

def qpOf (failed : Bool) (cnp : Option Nat) : QpSt := ⟨0, failed, 800000000000, cnp⟩

def livePort (s : State) (m : PortMode) : Prop := (s.ethPort 0).link = true ∧ s.portMode 0 = m

theorem wit_EthernetPorts :
    (∃ s : State, (s.ethPort 0).link = false ∧ s.portMode 0 = .dark) ∧ (∃ s : State, livePort s .mgmt) ∧
    (∀ ip ∈ [5, 6], ∃ (s : State) (target : NetAddr), livePort s .full ∧ target.v4 = true ∧ s.ownAddr 0 target = decide (ip = 5)) ∧
    (∀ prio ∈ [0, 7], ∃ s : State, livePort s .full ∧ s.regF (Reg.ethPortCtrl 0) 2 0 = 7 ∧ s.regF (Reg.ethPortCtrl 0) 5 3 = 7 ∧ prio < 8) ∧
    (∃ s : State, livePort s .full ∧ (s.reg Reg.ethKct).getLsbD 0 = false ∧ s.qp 0 ≠ none ∧ s.qp 1 = none) ∧
    (∃ s : State, livePort s .full ∧ (s.reg Reg.ethKct).getLsbD 0 = false ∧ ∀ k, k < 64 → s.qp k ≠ none) ∧
    (∀ b ∈ [true, false], ∀ l ∈ [none, some 50000], ∃ (s : State) (x : QpSt), livePort s .full ∧ s.qp 0 = some x ∧ x.port = 0 ∧ x.failed = false ∧ x.lastCnp = l ∧
      (s.reg Reg.ethRoce).getLsbD 0 = b) := by
  refine ⟨⟨State.reset, by decide +kernel⟩, ⟨{ netState [] [] [] with boot := { BootSt.reset with stage := 3 } }, by unfold livePort; decide +kernel⟩, ?_, ?_,
    ⟨netState [] [(0, qpOf false none)] [], by unfold livePort; decide +kernel⟩,
    ⟨netState [] ((List.range 64).map (fun k => (k, qpOf false none))) [], by unfold livePort; decide +kernel⟩, ?_⟩
  · intro ip h
    refine ⟨(netState [] [] []).setReg (Reg.ethIp4 0) (BitVec.ofNat 64 (2 ^ 32 + 5)), ⟨true, BitVec.ofNat 128 ip⟩, ?_⟩
    revert ip; unfold livePort; decide +kernel
  · intro prio h
    refine ⟨(netState [] [] []).setReg (Reg.ethPortCtrl 0) 63, ?_⟩
    revert prio; unfold livePort; decide +kernel
  · intro b h l g
    refine ⟨(netState [] [(0, qpOf false l)] []).setReg Reg.ethRoce (if b then 1 else 0), qpOf false l, ?_⟩
    revert b l; unfold livePort; decide +kernel

/-- A PTP dataset of clock `id` with priority `p`. -/
def announceOf (p id : Nat) : Announce := ⟨p, 6, 0x20, 0, 128, id, 0, 0⟩

/-- Port 0 runs a time receiver, with `b` as the beat unit. -/
def ptpState (b : BeatSt) (ctrl : Nat) : State :=
  { (netState [] [] []).setReg (Reg.ethPtp 0) 1 |>.setReg Reg.beatCtrl (BitVec.ofNat 64 ctrl) with beats := b }

theorem wit_PtpPorts :
    (∃ s : State, s.ptpOn 0 = false) ∧
    (∀ p ∈ [127, 128, 129], ∃ (s : State) (a b : Announce), s.ptpOn 0 = true ∧ s.ptpOn 1 = false ∧ a.domain = s.regF (Reg.ethPtp 0) 15 8 ∧ s.beats.ptp.best.find 0 = some b ∧
      s.beats.ptp.port = some 0 ∧ a.identity ≠ b.identity ∧ Announce.better a b = decide (p = 127)) ∧
    (∃ (s : State) (a : Announce), s.ptpOn 0 = true ∧ a.domain ≠ s.regF (Reg.ethPtp 0) 15 8) ∧
    (∀ port ∈ [none, some 0], ∃ s : State, s.ptpOn 0 = true ∧ s.ptpOn 1 = false ∧ s.beats.ptp.best.find 0 = none ∧ s.beats.ptp.port = port ∧ s.beats.state = .locked ∧
      s.beats.active = .fibre ∧ s.beats.fibre.locked = true ∧ s.regF Reg.beatCtrl 1 0 = 1) ∧
    (∀ bad ∈ [14, 15], ∃ s : State, s.ptpOn 0 = true ∧ s.beats.ptp.port = some 0 ∧ s.beats.state = .locked ∧ s.beats.active = .ptp ∧ s.beats.ptp.locked = true ∧
      s.regF Reg.beatCtrl 1 0 = 2 ∧ s.beats.ptp.bad = bad) := by
  refine ⟨⟨State.reset, by decide +kernel⟩, ?_, ⟨ptpState .reset 3, { announceOf 128 3 with domain := 1 }, by decide +kernel⟩, ?_, ?_⟩
  · intro p h
    refine ⟨ptpState { BeatSt.reset with ptp := { PtpSt.reset with best := [(0, announceOf 128 2)], port := some 0 } } 3, announceOf p 3, announceOf 128 2, ?_⟩
    revert p; decide +kernel
  · intro port h
    refine ⟨ptpState { BeatSt.reset with state := .locked, active := .fibre, fibre := { FibreSt.reset with locked := true }, ptp := { PtpSt.reset with port := port } } 1, ?_⟩
    revert port; decide +kernel
  · intro bad h
    refine ⟨ptpState { BeatSt.reset with state := .locked, active := .ptp, ptp := { PtpSt.reset with port := some 0, locked := true, bad := bad } } 2, ?_⟩
    revert bad; decide +kernel

/-- Window 3 is `x`, over `len` bytes of the staging area. -/
def winState (x : WinSt) (len : Nat) : State :=
  let s := (netState session1 [(0, qpOf false none)] [(3, x)]).setReg (Reg.bulkAddr 3) (BitVec.ofNat 64 stageBase) |>.setReg (Reg.bulkLen 3) (BitVec.ofNat 64 len)
  { s with tiers := { TierSt.reset with total1 := 16 } }

def winOf (st : WinState) (reads : Bool) (accepted : Nat) : WinSt := ⟨st, 1, reads, 77, accepted, 0, 0, none⟩

def notBusy (s : State) (w : Nat) : Prop := ¬ (s.loadActive = true ∧ s.winStaging w = true)

theorem wit_BulkWindows :
    (∀ len ∈ [32, 33, 0], ∃ s : State, s.boot.stage ≠ 7 ∧ (s.win 3).state = .closed ∧ s.winFields 3 = decide (len = 32) ∧ s.winSpace 3 = decide (len ≠ 0) ∧ s.portMode 0 = .full ∧ notBusy s 3) ∧
    (∃ s : State, (s.win 3).state = .closed ∧ s.winFields 3 = true ∧ s.winSpace 3 = false) ∧
    (∃ s : State, s.boot.stage ≠ 7 ∧ (s.win 3).state = .opened ∧ (s.win 3).owner = 1) ∧
    (∀ e ∈ [(WinState.opened, false, 8192, 0, 16384), (.opened, false, 0, 1, 16384), (.opened, false, 0, 0, 32), (.error, false, 0, 0, 32), (.opened, true, 0, 0, 32)],
      ∃ (s : State) (f : KctFrame), freshKct s f ∧ f.op = 0x30 ∧ (f.address.extractLsb' 61 3).toNat = 3 ∧ notBusy s 3 ∧ (f.address.extractLsb' 0 61).toNat = e.2.2.2.1 ∧
        (s.win 3) = winOf e.1 e.2.1 e.2.2.1 ∧ s.winLen 3 = e.2.2.2.2 ∧ (s.win 3).owner = f.session.toNat ∧
        (e.2.2.2.2 = 32 → f.payload.length = 32 ∧ s.streamOpen 3 0 32 = true ∧ (s.win 3).since < 15)) ∧
    (∀ e ∈ [(WinState.opened, false), (.opened, true)], ∃ (s : State) (f : KctFrame), freshKct s f ∧ f.op = 0x31 ∧ (f.address.extractLsb' 61 3).toNat = 3 ∧ notBusy s 3 ∧
      (s.win 3).state = e.1 ∧ (s.win 3).reads = e.2 ∧ (s.win 3).owner = f.session.toNat ∧ f.count = 1 ∧ (f.address.extractLsb' 0 61).toNat = 0 ∧ s.winLen 3 = 32 ∧
      s.streamOpen 3 0 32 = true ∧ ((s.addReg (Reg.ethRx f.port) 63 0 1).streamRead 3 0 32).2 = false) ∧
    (∃ (s : State) (p : Nat × NetAddr × BitVec 16), (s.win 3).peer = some p ∧ 0 < (s.win 3).since ∧ (s.win 3).state = .opened) ∧ (∃ s : State, (s.win 3).peer = none) ∧
    (∀ reads ∈ [true, false], ∃ (s : State) (z : QpSt), s.qp 0 = some z ∧ z.failed = false ∧ z.port < 2 ∧ (s.ethPort z.port).link = true ∧ s.portMode z.port = .full ∧
      s.winOfKey 77 = some 3 ∧ (s.win 3).rkey = 77 ∧ (s.win 3).state = .opened ∧ (s.win 3).reads = reads ∧ notBusy s 3 ∧ (s.ethPort z.port).pausing = 0 ∧
      s.streamOpen 3 0 32 = true ∧ ((s.addReg (Reg.ethRx z.port) 63 0 1).streamRead 3 0 32).2 = false ∧ s.winLen 3 = 32 ∧
      ∀ v, v < 4 → (s.win v).state ≠ .closed → (s.win v).rkey ≠ 78) ∧
    (∃ (s : State) (f : KctFrame), goodKct s f ∧ f.op = 0x01 ∧ s.session 1 = none ∧ s.qp 0 = some (qpOf false none)) := by
  refine ⟨?_, ⟨(winState .reset 32).setReg (Reg.bulkAddr 3) 0, by decide +kernel⟩, ⟨winState (winOf .opened false 0) 32, by decide +kernel⟩, ?_, ?_,
    ⟨winState { winOf .opened false 8192 with since := 1, peer := some (0, hostAddr, 9) } 16384, (0, hostAddr, 9), by decide +kernel⟩, ⟨winState .reset 32, by decide +kernel⟩, ?_,
    ⟨netState [] [(0, qpOf false none)] [], kctFrame 1 0 0 0 0 [], by unfold goodKct; decide +kernel⟩⟩
  · intro len h
    refine ⟨winState .reset len, ?_⟩
    revert len; unfold notBusy; decide +kernel
  · intro e h
    refine ⟨winState (winOf e.1 e.2.1 e.2.2.1) e.2.2.2.2, kctFrame 0x30 1 0 (3 * 2 ^ 61 + e.2.2.2.1) 0 (List.replicate 32 5), ?_⟩
    revert e; unfold notBusy freshKct goodKct; decide +kernel
  · intro e h
    refine ⟨winState (winOf e.1 e.2 0) 32, kctFrame 0x31 1 0 (3 * 2 ^ 61) 1 [], ?_⟩
    revert e; unfold notBusy freshKct goodKct; decide +kernel
  · intro reads h
    refine ⟨winState (winOf .opened reads 0) 32, qpOf false none, ?_⟩
    revert reads; unfold notBusy; decide +kernel

/-! An image for region 0 with a DIRECTORY, one step (END) for cell 0, and the map of block 0, signed by the neutral key; laid out by R44 to R57. -/

def imgMem : Mem :=
  ⟨[(0, 0x4B), (1, 0x4C), (2, 0x4F), (3, 0x41), (4, 0x54), (5, 0x48), (6, 0x49), (7, 0x4D), (8, 0x01), (10, 0x03), (12, 0xDE), (13, 0xA7), (14, 0x52),
   (15, 0xB0), (16, 0x20), (17, 0x02), (24, 0x09), (56, 0x02), (60, 0x01), (256, 0x01), (260, 0x3E), (261, 0x15), (262, 0xA4), (263, 0x31), (264, 0x60),
   (265, 0x01), (272, 0x20), (284, 0x01), (288, 0x02), (292, 0x9F), (293, 0xF5), (294, 0x1E), (295, 0xB1), (296, 0x80), (297, 0x01), (304, 0x10), (312,
   0x01), (316, 0x01), (320, 0x20), (324, 0x14), (325, 0x97), (326, 0x7C), (327, 0xB0), (328, 0x90), (329, 0x01), (336, 0x10), (353, 0x04), (357, 0x27),
   (358, 0x5E), (361, 0x10), (362, 0x10), (369, 0x02), (377, 0x20), (378, 0x10), (381, 0x04), (399, 0xF0), (400, 0x01), (416, 0x4B), (417, 0x4C), (418,
   0x4F), (419, 0x41), (420, 0x54), (421, 0x48), (422, 0x53), (423, 0x47), (424, 0x01)], []⟩

/-- The header with a zero in place of its check. -/
def imgHead : Bytes :=
  [0x4B, 0x4C, 0x4F, 0x41, 0x54, 0x48, 0x49, 0x4D, 0x01, 0, 0x03, 0, 0, 0, 0, 0, 0x20, 0x02, 0, 0, 0, 0, 0, 0, 0x09, 0, 0, 0, 0, 0, 0, 0] ++
  [0, 0, 0, 0, 0, 0, 0, 0, 0, 0, 0, 0, 0, 0, 0, 0, 0, 0, 0, 0, 0, 0, 0, 0, 0x02, 0, 0, 0, 0x01, 0, 0, 0] ++
  List.replicate 192 0

/-- The check of 32 zero bytes goes on from register value `r`. -/
def zeros32 (r : BitVec 32) : BitVec 32 := crcFold 0x82F63B78#32 r (List.replicate 32 0)

theorem crcFold_append (p r : BitVec 32) (a b : Bytes) : crcFold p r (a ++ b) = crcFold p (crcFold p r a) b := by
  unfold crcFold
  exact List.foldl_append

theorem imgHead_crc : crc32c imgHead = 0xB052A7DE#32 := by
  have h1 : crcFold 0x82F63B78#32 0xFFFFFFFF#32 [0x4B, 0x4C, 0x4F, 0x41, 0x54, 0x48, 0x49, 0x4D, 0x01, 0, 0x03, 0, 0, 0, 0, 0, 0x20, 0x02, 0, 0, 0, 0, 0, 0, 0x09, 0, 0, 0, 0, 0, 0, 0] = 0xDE480B24#32 := by decide +kernel
  have h2 : crcFold 0x82F63B78#32 0xDE480B24#32 [0, 0, 0, 0, 0, 0, 0, 0, 0, 0, 0, 0, 0, 0, 0, 0, 0, 0, 0, 0, 0, 0, 0, 0, 0x02, 0, 0, 0, 0x01, 0, 0, 0] = 0x29C63F27#32 := by decide +kernel
  have h3 : zeros32 0x29C63F27#32 = 0x3778E07A#32 := by decide +kernel
  have h4 : zeros32 0x3778E07A#32 = 0x797DF4DF#32 := by decide +kernel
  have h5 : zeros32 0x797DF4DF#32 = 0x22B06050#32 := by decide +kernel
  have h6 : zeros32 0x22B06050#32 = 0x8A0867D1#32 := by decide +kernel
  have h7 : zeros32 0x8A0867D1#32 = 0xB15F430C#32 := by decide +kernel
  have h8 : zeros32 0xB15F430C#32 = 0x4FAD5821#32 := by decide +kernel
  have z : List.replicate 192 (0 : Byte) = List.replicate 32 0 ++ (List.replicate 32 0 ++ (List.replicate 32 0 ++ (List.replicate 32 0 ++
    (List.replicate 32 0 ++ List.replicate 32 0)))) := by decide +kernel
  have e : ∀ r, crcFold 0x82F63B78#32 r (List.replicate 32 0) = zeros32 r := fun r => rfl
  unfold crc32c imgHead
  rw [z]
  simp only [crcFold_append, h1, h2, e, h3, h4, h5, h6, h7, h8]
  decide

/-- A READY module with that image staged, the loader in state `k` for slot 0, and every block of region 0 present. -/
def imgStaged (k : Nat) : State :=
  let s := (stageState 6).setRgn 0 { RgnSt.reset with map := 0x3FFF_FFFF }
  let s := (s.setReg Reg.imgStatus (BitVec.ofNat 64 k)).setReg Reg.imgLen 544
  { s with tiers := { s.tiers with mem1 := imgMem }, rng := { RngSt.reset with owners := [(0, ⟨1, idKey⟩)] } }

theorem imgStaged_header : (imgStaged 1).headerOk = true := by
  have e : splice ((imgStaged 1).imgBytes 0 256) 0x0C [0, 0, 0, 0] = imgHead := by decide +kernel
  unfold State.headerOk
  dsimp only
  rw [e, imgHead_crc]
  decide +kernel

theorem imgStaged_signature : (imgStaged 1).signatureOk = true := by
  have k : (imgStaged 1).rng.owners.get .reset (imgStaged 1).imgOwner = ⟨1, idKey⟩ := by decide +kernel
  have g : slice ((imgStaged 1).imgBytes ((imgStaged 1).imgLength - 128) 128) 8 64 = idSig := by decide +kernel
  unfold State.signatureOk
  dsimp only
  rw [k, g, edVerify_neutral]
  decide +kernel

theorem imgStaged_good : (imgStaged 1).verifyImage 0 = none := by
  have a : (imgStaged 1).lengthOk = true := by decide +kernel
  have b : (imgStaged 1).badSection = none := by decide +kernel
  have c : (imgStaged 1).badCrc (fun _ => true) = none := by decide +kernel
  have d : ¬ ((imgStaged 1).imgFeatures % 8 ≠ (imgStaged 1).imgFeatures.land (imgStaged 1).features % 8 ∨
    (imgStaged 1).standTier < natBits 4 3 (imgStaged 1).imgFeatures) := by decide +kernel
  have e : ¬ ((!([2, 3, 6] : List Nat).contains (imgStaged 1).moduleState) = true ∨ (imgStaged 1).retired = true) := by decide +kernel
  have f : (imgStaged 1).rectBusy 0 (imgStaged 1).imgRect = false := by decide +kernel
  have g : (imgStaged 1).rectRefused 0 (imgStaged 1).imgRect = false := by decide +kernel
  have h : (imgStaged 1).portsRefused 0 = false := by decide +kernel
  have i : (imgStaged 1).mapMiss = none := by decide +kernel
  have j : (imgStaged 1).directoryOk = true := by decide +kernel
  unfold State.verifyImage
  rw [imgStaged_header, imgStaged_signature, a, b, c, f, g, h, i, j]
  simp only [d, e, Bool.not_true, Bool.false_eq_true, or_self, if_false, if_true]

theorem wit_ImageStarts :
    (∀ n ∈ [0, 7, 8, 15], ∃ (s : State) (v : Word), s.boot.stage ≠ 7 ∧ s.loadActive = false ∧ v.getLsbD 0 = true ∧ (v.extractLsb' 8 4).toNat = n) ∧
    (∃ s : State, s.boot.stage = 7) ∧ (∃ (s : State) (v : Word), s.boot.stage ≠ 7 ∧ s.loadActive = true ∧ v.getLsbD 0 = true ∧ v.getLsbD 1 = false) ∧
    (∀ b ∈ [true, false], ∃ (s : State) (v : Word), s.loadActive = true ∧ v.getLsbD 0 = false ∧ v.getLsbD 1 = true ∧ s.ldr.claimed = b) ∧
    (∃ s : State, s.imgState ≠ 1) ∧
    (∃ s : State, s.imgState = 1 ∧ s.ldr.waits = false ∧ s.ldr.claimed = false ∧ s.headerOk = false) ∧
    (∃ s : State, s.imgState = 1 ∧ s.ldr.waits = false ∧ s.ldr.claimed = false ∧ s.headerOk = true ∧ s.lengthOk = true ∧ s.badSection = none ∧
      s.badCrc (fun _ => true) = none ∧ s.signatureOk = false) ∧
    (∃ s : State, s.imgState = 1 ∧ s.ldr.waits = false ∧ s.ldr.claimed = false ∧ s.verifyImage s.imgSlot = none ∧
      (∀ x ∈ s.imgSecs, x.kind ∉ [0x21, 0x22, 0x23, 0x24, 0x25]) ∧ s.ldr.tries = 0 ∧ s.yard.objs = [] ∧ s.yard.allocs = [] ∧ s.yard.failed = [] ∧
      s.imgTargets ≠ []) := by
  refine ⟨?_, ⟨stageState 7, rfl⟩, ⟨imgStaged 3, 1, by decide +kernel⟩, ?_, ⟨State.reset, by decide +kernel⟩,
    ⟨State.reset.setReg Reg.imgStatus 1, by decide +kernel⟩,
    ⟨{ imgStaged 1 with rng := RngSt.reset }, by decide +kernel, by decide +kernel, by decide +kernel, imgStaged_header, by decide +kernel, by decide +kernel,
      by decide +kernel, by decide +kernel⟩,
    ⟨imgStaged 1, by decide +kernel, by decide +kernel, by decide +kernel, ?_, by decide +kernel⟩⟩
  · intro n h
    refine ⟨State.reset, BitVec.ofNat 64 (1 + n * 256), ?_⟩
    revert n; decide +kernel
  · intro b h
    refine ⟨{ imgStaged 3 with ldr := { LdrSt.reset with claimed := b } }, 2, ?_⟩
    revert b; decide +kernel
  · have e : (imgStaged 1).imgSlot = 0 := by decide +kernel
    rw [e]
    exact imgStaged_good

/-- A chunk header of unit `kind`, 16 bytes for unit offset 0, whose rectangle is cell 0. -/
def chunkHdr (kind : Nat) : BitVec 128 := BitVec.ofNat 128 (kind * 2 ^ 74 + 1 * 2 ^ 7)

def chunkCrc (kind : Nat) (bs : Bytes) : BitVec 32 := crc32c (toLE 16 (chunkHdr kind).toNat ++ bs)

/-- The target holds `l`. -/
def aimed (g : Target) (l : LoadSt) : State := (imgStaged 3).setLoad g l

theorem wit_Chunks :
    (∃ s : State, s.imgState ≠ 2) ∧ (∃ s : State, s.takes (.cell 0) = true ∧ s.imgState = 2 ∧ s.ldr.unacked = [.cell 0, .cell 1]) ∧
    (∃ s : State, s.takes (.cell 0) = true ∧ s.imgState = 2 ∧ s.ldr.unacked = [.cell 0]) ∧
    (∀ k ∈ [1, 2, 3], ∃ s : State, s.imgState = 2 ∧ s.ldr.tries = k) ∧
    (∀ k ∈ [3, 4], ∃ s : State, (s.loadOf (.cell 0)).opened = true ∧ s.takes (.cell 0) = true ∧ s.imgState = k) ∧
    (∃ s : State, (s.loadOf (.cell 0)).opened = false ∧ (s.loadOf (.cell 0)).lead = none) ∧ (∃ s : State, s.takes (.cell 0) = false) ∧
    (∀ n ∈ [15, 16], ∃ (s : State) (data : Bytes), (s.loadOf (.cell 0)).lead = some (chunkHdr 2, 0) ∧ s.takes (.cell 0) = true ∧
      ((s.loadOf (.cell 0)).data ++ data).length = n ∧ crc32c (toLE 16 (chunkHdr 2).toNat ++ ((s.loadOf (.cell 0)).data ++ data).take 16) ≠ 0) ∧
    (∀ e ∈ [(1, .cell 0), (2, .cell 0), (3, .cell 0), (4, .cell 0), (5, .cell 0), (6, .cell 0), (1, .foreman fm0), (0x10, .foreman fm0), (0x11, .foreman fm0)],
      ∃ (s : State) (data : Bytes), (s.loadOf e.2).lead = some (chunkHdr e.1, chunkCrc e.1 data) ∧ s.takes e.2 = true ∧ (s.loadOf e.2).data = [] ∧ data.length = 16 ∧
        ((chunkHdr e.1).extractLsb' 74 8).toNat = e.1 ∧ 16 * ((chunkHdr e.1).extractLsb' 7 7).toNat = 16 ∧
        hitsTarget e.1 ((chunkHdr e.1).extractLsb' 56 18).toNat ((chunkHdr e.1).extractLsb' 38 18).toNat e.2 = true ∧ (e.1 ≠ 1 → 16 ≤ unitBytes e.1)) := by
  let l : LoadSt := { LoadSt.reset with opened := true }
  refine ⟨⟨State.reset, by decide +kernel⟩, ⟨{ imgStaged 2 with ldr := { LdrSt.reset with unacked := [.cell 0, .cell 1] } }, by decide +kernel⟩,
    ⟨{ imgStaged 2 with ldr := { LdrSt.reset with unacked := [.cell 0] } }, by decide +kernel⟩, ?_, ?_, ⟨State.reset, by decide +kernel⟩,
    ⟨State.reset.setCell 0 { CellSt.reset with looper := .snag }, by decide +kernel⟩, ?_, ?_⟩
  · intro k h
    refine ⟨{ imgStaged 2 with ldr := { LdrSt.reset with tries := k } }, ?_⟩
    revert k; decide +kernel
  · intro k h
    refine ⟨(imgStaged k).setLoad (.cell 0) l, ?_⟩
    revert k; decide +kernel
  · intro n h
    refine ⟨aimed (.cell 0) { LoadSt.reset with opened := true, lead := some (chunkHdr 2, 0), data := [1, 2, 3] }, List.replicate (n - 3) 0, ?_⟩
    revert n; decide +kernel
  · intro e h
    refine ⟨aimed e.2 { LoadSt.reset with opened := true, lead := some (chunkHdr e.1, chunkCrc e.1 (List.replicate 16 9)) }, List.replicate 16 9, ?_⟩
    revert e; decide +kernel

/-- The loader in state `k` over block 0 of region 0, all of whose targets hold every chunk, with `sus` as suspects. -/
def roundState (k : Nat) (sus : List Target) (g : RoundSt → RoundSt) : State :=
  let l := { LoadSt.reset with opened := true }
  { imgStaged k with
    cells := (blockCells fm0).map (fun c => (c, { CellSt.reset with load := l })), fms := [(fmKey fm0, { FmSt.reset with load := l })], ldr := { LdrSt.reset with claimed := true, suspects := sus, rounds := g ⟨[fm0], 3, false, [], []⟩ } }

def roundsLive (s : State) : Prop := (s.imgState = 4 ∨ s.imgState = 5) ∧ s.ldr.commit = false

/-- The targets that the end of the rounds finds incomplete. -/
def incomplete (s : State) (g : Target) : Prop :=
  (∃ f ∈ s.ldr.rounds.blocks, g ∈ blockTargets f) ∧ (s.takes g = false ∨ s.lacking g = true ∨ g ∈ s.ldr.suspects)

theorem incomplete_iff (s : State) (bad : List Target) (h : s.ldr.rounds.blocks = [fm0]) (all : ∀ g ∈ blockTargets fm0,
    (s.takes g = false ∨ s.lacking g = true ∨ g ∈ s.ldr.suspects) ↔ g ∈ bad) (sub : ∀ g ∈ bad, g ∈ blockTargets fm0) (g : Target) :
    incomplete s g ↔ g ∈ bad := by
  unfold incomplete
  rw [h]
  constructor
  · rintro ⟨⟨f, hf, hg⟩, h⟩
    rw [List.mem_singleton] at hf
    subst hf
    exact (all g hg).mp h
  · intro hg
    exact ⟨⟨fm0, List.mem_singleton.mpr rfl, sub g hg⟩, (all g (sub g hg)).mpr hg⟩

theorem wit_RepairRounds :
    (∃ s : State, (∀ n, n < 8 → (s.job n).repair = none) ∧ s.imgState = 3 ∧ s.badCrc Sec.trail = none) ∧
    (∃ (s : State) (k : Nat), (∀ n, n < 8 → (s.job n).repair = none) ∧ s.imgState = 3 ∧ s.badCrc Sec.trail = some k) ∧
    (∀ k ∈ [4, 5], ∀ sus ∈ [[], [Target.cell 0], [.foreman fm0]], ∃ s : State, (∀ n, n < 8 → (s.job n).repair = none) ∧ roundsLive s ∧ s.imgState = k ∧
      s.ldr.rounds.window = false ∧ Instr.loadCheck ∉ s.inFlight ∧ 3 ≤ s.ldr.rounds.round ∧ (∀ f ∈ s.ldr.rounds.blocks, s.blockLacks f = false) ∧
      s.spareFree 0 = true ∧ ∀ g, incomplete s g ↔ g ∈ sus) ∧
    (∃ s : State, (∀ n, n < 8 → (s.job n).repair = none) ∧ roundsLive s ∧ s.ldr.rounds.window = false ∧ Instr.loadCheck ∉ s.inFlight ∧ s.ldr.rounds.round = 2) ∧
    (∃ s : State, (∀ n, n < 8 → (s.job n).repair = none) ∧ roundsLive s ∧ ∃ f ∈ s.ldr.rounds.blocks, s.blockLacks f = true) ∧
    (∃ s : State, (∀ n, n < 8 → (s.job n).repair = none) ∧ roundsLive s ∧ s.ldr.rounds.window = true ∧ s.ldr.rounds.round = 3 ∧ fm0 ∈ s.ldr.rounds.missing) ∧
    (∃ s : State, (∀ n, n < 8 → (s.job n).repair = none) ∧ s.ldr.commit = true ∧ .cell 0 ∈ s.imgTargets ∧ (s.cell 0).looper ≠ .snag) := by
  refine ⟨⟨State.reset.setReg Reg.imgStatus 3, by decide +kernel⟩,
    ⟨{ imgStaged 3 with tiers := { TierSt.reset with mem1 := imgMem.set 384 1 } }, 1, by decide +kernel⟩, ?_,
    ⟨roundState 4 [] (fun r => { r with round := 2 }), by unfold roundsLive; decide +kernel⟩,
    ⟨{ imgStaged 4 with ldr := { LdrSt.reset with rounds := ⟨[fm0], 1, false, [], []⟩ } }, by unfold roundsLive; decide +kernel⟩,
    ⟨roundState 4 [] (fun r => { r with window := true, missing := [fm0] }), by unfold roundsLive; decide +kernel⟩,
    ⟨{ imgStaged 4 with ldr := { LdrSt.reset with commit := true } }, by decide +kernel⟩⟩
  intro k h sus g
  refine ⟨roundState k sus id, ?_, ?_, ?_, rfl, ?_, Nat.le_refl 3, ?_, ?_, incomplete_iff _ sus rfl ?_ ?_⟩
  all_goals (revert k sus; first | decide +kernel | (unfold roundsLive; decide +kernel))

theorem wit_Frame : wf .powerContactsMated = true ∧ ∃ t, exec .powerContactsMated State.reset = .next t := ⟨rfl, _, rfl⟩

theorem wit_RegisterHoles : (inBlock (Reg.fltPolicy + 4) = true ∧ regRow (Reg.fltPolicy + 4) = none) ∧ inBlock 0xFFFF_FFF8 = false := by decide +kernel

theorem wit_WindowRegisters : ∀ st ∈ [WinState.opened, .full, .error], ∃ s : State, (s.win 3).state ≠ .closed ∧ (s.win 3).state = st := by
  intro st h
  refine ⟨winState (winOf st false 0) 32, ?_⟩
  revert st; decide +kernel

theorem wit_SecurityCounter : ∃ s : State, s.boot.stage = 5 ∧ s.rng.counter < (s.rng.bank s.rng.running).version :=
  ⟨{ stageState 5 with rng := { RngSt.reset with bankA := ⟨factoryHeader.set 0x0B 64, true⟩ } }, by decide +kernel⟩

theorem wit_LoopStackFaults :
    ∀ e ∈ [(0, 1, 4, true), (0, 2, 0, true), (0, 1, 4, false), (2, 2, 0, false), (3, 1, 4, true), (4, 2, 0, true), (5, 1, 4, true), (6, 1, 4, true), (7, 2, 0, true), (15, 0, 1, true)],
      ∃ (s : State) (b : Step), s.cellOffers 0 b ∧ (s.cell 0).occ = none ∧ s.heldBy 0 b = none ∧ eccAt (s.cell 0).stepEcc (s.cell 0).pc ≠ some true ∧
        issueFault (s.env 0) (s.cell 0) b ≠ some 0x1002 ∧ (s.cell 0).notice = none ∧ b.cls = e.1 ∧ b.loop = e.2.1 ∧ (s.cell 0).stack.length = e.2.2.1 ∧
        (s.cell 0).enginesIdle = e.2.2.2 := by
  intro e h
  let w := stepBits e.1 (e.2.1 * 2 ^ 12) 0
  refine ⟨cellState w (fun x => { x with
    stack := List.replicate e.2.2.1 ⟨0, 1, 1⟩, vector := if e.2.2.2 then .idle else ⟨some (runOf 0 false), none⟩ }), BitVec.ofNat 128 w, ?_⟩
  revert e; unfold State.cellOffers; decide +kernel

theorem wit_Step : ∃ (s t : State), s.pending = [.powerContactsMated] ∧ step s = .next t :=
  ⟨{ State.reset with pending := [.powerContactsMated] }, _, rfl, rfl⟩

/-! ## Worked examples of the spec -/

/-- The words of the table carry no bits, so none is a command. -/
theorem test_no_bits : decodeTableWord 64 0xFFFF = none ∧ State.reset.withFetchWord 64 0xFFFF = State.reset := ⟨rfl, rfl⟩

/-- The cell at row 100, column 300 (spec/00_scope.md, "locating one cell"). -/
theorem test_locate : cellAt 100 300 = 0xC92C ∧ regionOf 0xC92C = 31 ∧ fmOf 0xC92C = ⟨31, 2⟩ ∧ halfOf 0xC92C = 63 := by decide

/-- Row 20 of region 31 has position 3 bad, so that cell runs on position 5 (spec/18, "reconciling three block rows"). -/
theorem test_position : blockRowOf 0xC92C = 20 ∧ physPos 3 (300 % 8) = 5 := by decide

/-- Register addresses of spec/00_scope.md and spec/01_module_outline.md. -/
theorem test_addresses : Reg.stkWrapCmd 17 / 0x400 = 0x7_4400 / 0x400 ∧ Reg.skyPortCtrl 9 / 0x800 = 0x9_4800 / 0x800 ∧ inBlock 0x7_6000 = true ∧
    regRow 0x7_6000 = none ∧ inBlock 0xF_0000 = false ∧ Reg.fmnFetchStatus ⟨31, 2⟩ / 0x200 = 0x11F_8400 / 0x200 := by decide +kernel

/-- 1.3 rounded three ways into FP8E4M3 (spec/05_numerics.md). -/
theorem test_round :
    let v := fFP32.decode 0x3FA6_6666
    let to_ := fun (rnd : Rnd) (draw : Nat) => (fE4M3.encode rnd draw false v).1
    to_ .nearest 0 = 0x3A ∧ to_ .zero 0 = 0x3A ∧ to_ .stoch 0x6666_5FFF = 0x3B ∧ to_ .stoch 0x6666_6000 = 0x3A := by decide +kernel

/-- Channel 177 mapped out (spec/11_stacks_board_far_memory.md). -/
theorem test_stack_place : t1Extents 768 = 8_772_677 ∧ t1Extents 767 = 8_761_232 ∧ stackPlace [177] 0xC_B240 = (4, 2_996_092_992) := by decide +kernel

/-- The state after a command. -/
def after (c : Instr) (s : State) : State :=
  match exec c s with
  | .next t => t
  | _ => s

/-- A lowered cap: E goes from 84.0 kW to 76.0 kW with P at 78.0 kW and a limit of 2.0 kW a cycle (spec/16, "a cap lowered to below the floor"). -/
theorem test_cap_ramp :
    let s := (after (.pwrCapWrite .firmware 300) (stageState 6)).setRegF Reg.pwrRamp 9 0 20
    (after (.mainsCycle ⟨780, 112, 0, [], 1400, 300⟩) { s with power := { s.power with e := 840 } }).power.e = 760 := by decide +kernel

/-- 112 L/min at 42 °C allow 59.2 kW (spec/20_physical_interface.md, "reduced flow on a warm day"). -/
theorem test_allowance : (after (.mainsCycle ⟨400, 100, 0, [], 1120, 420⟩) (stageState 6)).power.allow = 592 := by decide +kernel

/-- Commands act first in, first out: the front command runs, the others wait. -/
theorem test_fifo :
    (match step { State.reset with pending := [.powerContactsMated, .busBelow700V] } with
      | .next t => decide (t.pending = [.busBelow700V]) && t.boot.mated && !t.boot.busLow
      | _ => false) = true := by decide +kernel

end Sys2Proof.Tests
end

namespace Sys2Proof.Machine

open Sys2Proof

/-! # Every command answers, keeps the waiting commands and takes nothing back; the state after reset. -/

theorem Held.of_next {s x t : State} (hx : Held s x) (h : (.next x : Host.Outcome State Fault Refusal) = .next t) : Held s t := by
  cases h
  exact hx

/-- No command takes back what `Held` keeps: each arm cites what its operation was proved to leave. -/
theorem exec_held {c : Instr} {s t : State} (h : exec c s = .next t) : Held s t := by
  cases c with
  | registerWrite => exact .of_vault (execRegisterWrite_vault _ _ _ _ _ h)
  | kctOpen => exact .of_next (.ite (State.kct_held _ _ _) (.refl _)) h
  | kctClose => exact .of_next (.ite (State.kct_held _ _ _) (.refl _)) h
  | kctRead => exact .of_next (.ite (State.kct_held _ _ _) (.refl _)) h
  | kctWrite => exact .of_next (.ite (State.kct_held _ _ _) (.refl _)) h
  | sessionIdleTimeout => exact .of_vault (execSessionIdleTimeout_vault _ _ _ h)
  | getCert => exact .of_next (State.mailboxRow_held _ _ _) h
  | attest => exact .of_next (State.mailboxRow_held _ _ _) h
  | fwStage => exact .of_next (State.mailboxRow_held _ _ _) h
  | fwStageTimeout => exact .of_vault (execFwStageTimeout_vault _ _ h)
  | fwActivate => exact .of_next (State.mailboxRow_held _ _ _) h
  | ownerSet => exact .of_next (State.mailboxRow_held _ _ _) h
  | ownerRevoke => exact .of_next (State.mailboxRow_held _ _ _) h
  | ownerRelease => exact .of_next (State.mailboxRow_held _ _ _) h
  | licenceInstall => exact .of_next (State.mailboxRow_held _ _ _) h
  | licenceGet => exact .of_next (State.mailboxRow_held _ _ _) h
  | revokeRelease => exact .of_next (State.mailboxRow_held _ _ _) h
  | bulkData => exact .of_vault (execBulkData_vault _ _ _ _ h)
  | bulkAckTimer => exact .of_vault (execBulkAckTimer_vault _ _ _ h)
  | bulkRead => exact .of_vault (execBulkRead_vault _ _ _ _ h)
  | bulkOpen => exact .of_vault (execBulkOpen_vault _ _ _ _ _ h)
  | bulkClose => exact .of_vault (execBulkClose_vault _ _ _ _ _ h)
  | roceConnect => exact .of_vault (execRoceConnect_vault _ _ _ _ h)
  | rdmaSend => exact execRdmaSend_held _ _ _ _ h
  | rdmaWrite => exact .of_vault (execRdmaWrite_vault _ _ _ _ _ _ _ _ h)
  | rdmaRead => exact .of_vault (execRdmaRead_vault _ _ _ _ _ _ _ h)
  | ecnCeReceived => exact .of_vault (execEcnCeReceived_vault _ _ _ _ h)
  | cnpReceived => exact .of_vault (execCnpReceived_vault _ _ _ h)
  | rateIncreaseTimer => exact .of_vault (execRateIncreaseTimer_vault _ _ _ h)
  | pauseReceived => exact .of_vault (execPauseReceived_vault _ _ _ _ _ _ h)
  | lldpTransmitTimer => exact .of_vault (execLldpTransmitTimer_vault _ _ h)
  | lldpReceived => exact .of_vault (execLldpReceived_vault _ _ _ _ _ h)
  | neighborRequest => exact .of_vault (execNeighborRequest_vault _ _ _ _ _ _ h)
  | ptpEventMessage _ kind => exact .of_vault (execPtpEventMessage_vault _ kind _ _ _ _ h)
  | ptpAnnounce => exact .of_vault (execPtpAnnounce_vault _ _ _ _ h)
  | announceReceiptTimeout => exact .of_vault (execAnnounceReceiptTimeout_vault _ _ _ h)
  | ptpSync => exact .of_vault (execPtpSync_vault _ _ _ _ _ _ _ h)
  | ethLinkDown => exact .of_vault (execEthLinkDown_vault _ _ _ h)
  | ethLinkUp => exact .of_vault (execEthLinkUp_vault _ _ _ h)
  | imgStart => exact .of_vault (execImgStart_vault _ _ _ _ h)
  | imgAbort => exact .of_vault (execImgAbort_vault _ _ _ _ h)
  | loadVerifyDone => exact .of_vault (execLoadVerifyDone_vault _ _ h)
  | loadOpenRetry => exact .of_vault (execLoadOpenRetry_vault _ _ h)
  | loadBroadcastDone => exact .of_vault (execLoadBroadcastDone_vault _ _ h)
  | repairRound => exact .of_vault (execRepairRound_vault _ _ h)
  | missReportWindowEnd => exact .of_vault (execMissReportWindowEnd_vault _ _ h)
  | chunkLead => exact .of_vault (execChunkLead_vault _ _ _ _ _ h)
  | chunkData => exact .of_vault (execChunkData_vault _ _ _ _ h)
  | loadOpen => exact .of_vault (execLoadOpen_vault _ _ _ h)
  | loadCheck => exact .of_vault (execLoadCheck_vault _ _ h)
  | loadConfigure => exact .of_vault (execLoadConfigure_vault _ _ h)
  | miss => exact .of_vault (execMiss_vault _ _ _ _ h)
  | stepNop => exact .of_vault (execStepNop_vault _ _ _ _ h)
  | stepMatrix => exact .of_vault (execStepMatrix_vault _ _ _ _ h)
  | stepVector => exact .of_vault (execStepVector_vault _ _ _ _ h)
  | stepLoad => exact .of_vault (execStepLoad_vault _ _ _ _ h)
  | stepStore => exact .of_vault (execStepStore_vault _ _ _ _ h)
  | stepExchange => exact .of_vault (execStepExchange_vault _ _ _ _ h)
  | gateWait => exact .of_vault (execGateWait_vault _ _ _ _ h)
  | gateBarrierEnter => exact .of_vault (execGateBarrierEnter_vault _ _ _ _ h)
  | gateSignal => exact .of_vault (execGateSignal_vault _ _ _ _ h)
  | stepScalar => exact .of_vault (execStepScalar_vault _ _ _ _ h)
  | stepEnd => exact .of_vault (execStepEnd_vault _ _ _ _ h)
  | stepComplete => exact .of_vault (execStepComplete_vault _ _ _ _ _ h)
  | gateTimeout => exact .of_vault (execGateTimeout_vault _ _ _ h)
  | fmnNop => exact .of_vault (execFmnNop_vault _ _ _ h)
  | fmnLdi => exact .of_vault (execFmnLdi_vault _ _ _ h)
  | fmnLdhi => exact .of_vault (execFmnLdhi_vault _ _ _ h)
  | fmnAdd => exact .of_vault (execFmnAdd_vault _ _ _ h)
  | fmnSub => exact .of_vault (execFmnSub_vault _ _ _ h)
  | fmnAddi => exact .of_vault (execFmnAddi_vault _ _ _ h)
  | fmnAnd => exact .of_vault (execFmnAnd_vault _ _ _ h)
  | fmnOr => exact .of_vault (execFmnOr_vault _ _ _ h)
  | fmnXor => exact .of_vault (execFmnXor_vault _ _ _ h)
  | fmnShl => exact .of_vault (execFmnShl_vault _ _ _ h)
  | fmnShr => exact .of_vault (execFmnShr_vault _ _ _ h)
  | fmnCmplt => exact .of_vault (execFmnCmplt_vault _ _ _ h)
  | fmnCmpeq => exact .of_vault (execFmnCmpeq_vault _ _ _ h)
  | fmnFadd => exact .of_vault (execFmnFadd_vault _ _ _ h)
  | fmnFmul => exact .of_vault (execFmnFmul_vault _ _ _ h)
  | fmnJmp => exact .of_vault (execFmnJmp_vault _ _ _ h)
  | fmnBz => exact .of_vault (execFmnBz_vault _ _ _ h)
  | fmnBnz => exact .of_vault (execFmnBnz_vault _ _ _ h)
  | fmnHalt => exact .of_vault (execFmnHalt_vault _ _ _ h)
  | fmnRdstep => exact .of_vault (execFmnRdstep_vault _ _ _ h)
  | fmnRdcurve => exact .of_vault (execFmnRdcurve_vault _ _ _ h)
  | fmnStart => exact .of_vault (execFmnStart_vault _ _ _ h)
  | fmnStop => exact .of_vault (execFmnStop_vault _ _ _ h)
  | fmnLatch => exact .of_vault (execFmnLatch_vault _ _ _ h)
  | fmnWaitev => exact .of_vault (execFmnWaitev_vault _ _ _ h)
  | fmnWaitdone => exact .of_vault (execFmnWaitdone_vault _ _ _ h)
  | buildBegin => exact .of_vault (execBuildBegin_vault _ _ _ h)
  | score => exact .of_vault (execScore_vault _ _ _ h)
  | buildEnd => exact .of_vault (execBuildEnd_vault _ _ _ h)
  | fmnCurve => exact .of_vault (execFmnCurve_vault _ _ _ h)
  | scoreTimeout => exact .of_vault (execScoreTimeout_vault _ _ _ h)
  | reset => exact .of_vault (execReset_vault _ _ _ _ _ h)
  | fence => exact .of_vault (execFence_vault _ _ _ h)
  | barrierEnter => exact .of_vault (execBarrierEnter_vault _ _ _ _ _ h)
  | barrierRelease => exact .of_vault (execBarrierRelease_vault _ _ _ _ h)
  | barrierTimerExpiry => exact .of_vault (execBarrierTimerExpiry_vault _ _ _ _ h)
  | barrierProbe => exact .of_vault (execBarrierProbe_vault _ _ _ _ h)
  | probeAnswerTimeout f n => exact .of_vault (execProbeAnswerTimeout_vault f n _ _ h)
  | barrierFail => exact .of_vault (execBarrierFail_vault _ _ _ h)
  | windowFlag => exact .of_vault (execWindowFlag_vault _ _ _ _ _ h)
  | faultNotice => exact .of_vault (execFaultNotice_vault _ _ _ h)
  | numericsNotice => exact .of_vault (execNumericsNotice_vault _ _ _ _ h)
  | absorbed => exact .of_vault (execAbsorbed_vault _ _ _ _ _ h)
  | complete => exact .of_vault (execComplete_vault _ _ _ h)
  | looperStart => exact .of_vault (execLooperStart_vault _ _ _ _ h)
  | looperStop => exact .of_vault (execLooperStop_vault _ _ _ _ h)
  | scalarWrite => exact .of_vault (execScalarWrite_vault _ _ _ _ _ h)
  | grant => exact .of_vault (execGrant_vault _ _ _ _ h)
  | countReturn => exact .of_vault (execCountReturn_vault _ _ _ _ _ h)
  | tallyRead => exact .of_vault (execTallyRead_vault _ _ _ _ h)
  | tallyReply => exact .of_vault (execTallyReply_vault _ _ _ _ _ h)
  | tallyClear => exact .of_vault (execTallyClear_vault _ _ _ h)
  | fetchList => exact .of_vault (execFetchList_vault _ _ _ _ h)
  | flitArrive => exact .of_vault (execFlitArrive_vault _ _ _ _ _ _ h)
  | creditReturn => exact .of_vault (execCreditReturn_vault _ _ _ _ _ h)
  | exchangeEpoch => exact .of_vault (execExchangeEpoch_vault _ _ _ _ h)
  | routerDead => exact .of_vault (execRouterDead_vault _ _ _ _ h)
  | detourClear => exact .of_vault (execDetourClear_vault _ _ _ _ _ h)
  | streamDeliver => exact .of_vault (execStreamDeliver_vault _ _ _ h)
  | streamGather => exact .of_vault (execStreamGather_vault _ _ _ h)
  | streamRecorded => exact .of_vault (execStreamRecorded_vault _ _ _ h)
  | streamNear => exact .of_vault (execStreamNear_vault _ _ _ h)
  | streamLoop => exact .of_vault (execStreamLoop_vault _ _ _ h)
  | streamEnd => exact .of_vault (execStreamEnd_vault _ _ _ h)
  | fillReadStart => exact .of_vault (execFillReadStart_vault _ _ _ _ _ h)
  | fillLaneAssign => exact .of_vault (execFillLaneAssign_vault _ _ _ h)
  | fillLanded => exact .of_vault (execFillLanded_vault _ _ _ _ _ _ h)
  | listMerge => exact .of_vault (execListMerge_vault _ _ _ _ h)
  | skidderStop => exact .of_vault (execSkidderStop_vault _ _ _ _ h)
  | tick => exact execTick_held _ _ _ h
  | create => exact .of_vault (execCreate_vault _ _ _ _ h)
  | destroy => exact .of_vault (execDestroy_vault _ _ _ _ h)
  | promote => exact .of_vault (execPromote_vault _ _ _ _ h)
  | demote => exact .of_vault (execDemote_vault _ _ _ _ h)
  | pin => exact .of_vault (execPin_vault _ _ _ _ h)
  | unpin => exact .of_vault (execUnpin_vault _ _ _ _ h)
  | extentCopyDone => exact .of_vault (execExtentCopyDone_vault _ _ _ _ h)
  | allocationRetry => exact .of_vault (execAllocationRetry_vault _ _ h)
  | allocationWaitLimit => exact .of_vault (execAllocationWaitLimit_vault _ _ _ h)
  | caParityError k second => exact .of_vault (execCaParityError_vault k second _ _ h)
  | stackUncorrectableRead => exact .of_vault (execStackUncorrectableRead_vault _ _ _ h)
  | wrapperGo => exact .of_vault (execWrapperGo_vault _ _ _ _ _ h)
  | rdimmFail => exact .of_vault (execRdimmFail_vault _ _ _ h)
  | cxlReadTimeout => exact .of_vault (execCxlReadTimeout_vault _ _ _ _ h)
  | cxlLinkDown => exact .of_vault (execCxlLinkDown_vault _ _ _ h)
  | dcdAdd => exact .of_vault (execDcdAdd_vault _ _ _ _ h)
  | dcdRelease => exact .of_vault (execDcdRelease_vault _ _ _ _ _ h)
  | cxlRescan => exact .of_vault (execCxlRescan_vault _ _ _ _ h)
  | outboxTake => exact .of_vault (execOutboxTake_vault _ _ _ _ h)
  | contribTileArrive => exact .of_vault (execContribTileArrive_vault _ _ _ h)
  | contribAck => exact .of_vault (execContribAck_vault _ _ _ _ _ _ h)
  | lateRefusal => exact .of_vault (execLateRefusal_vault _ _ _ _ _ h)
  | contribSetClose => exact .of_vault (execContribSetClose_vault _ _ _ _ h)
  | contribSetNotice => exact .of_vault (execContribSetNotice_vault _ _ _ _ _ h)
  | setGraceExpiry => exact .of_vault (execSetGraceExpiry_vault _ _ _ _ h)
  | parameterBroadcastTile => exact .of_vault (execParameterBroadcastTile_vault _ _ _ _ _ _ _ _ _ h)
  | commitMarker => exact .of_vault (execCommitMarker_vault _ _ _ _ h)
  | shadowDigest => exact .of_vault (execShadowDigest_vault _ _ _ _ _ _ h)
  | verdictArrive => exact .of_vault (execVerdictArrive_vault _ _ _ _ _ _ _ h)
  | confirm => exact .of_vault (execConfirm_vault _ _ _ _ h)
  | rollback => exact .of_vault (execRollback_vault _ _ _ _ _ _ h)
  | verdictTimeout => exact .of_vault (execVerdictTimeout_vault _ _ _ h)
  | slotRollback => exact .of_vault (execSlotRollback_vault _ _ _ _ h)
  | redStepWrite => exact .of_vault (execRedStepWrite_vault _ _ _ _ _ h)
  | replayOrigin => exact .of_vault (execReplayOrigin_vault _ _ _ h)
  | skyFlitReceive => exact .of_vault (execSkyFlitReceive_vault _ _ _ _ h)
  | skyAckTimer => exact .of_vault (execSkyAckTimer_vault _ _ _ h)
  | meshFlitSendTimer => exact .of_vault (execMeshFlitSendTimer_vault _ _ _ h)
  | portRetrain => exact .of_vault (execPortRetrain_vault _ _ _ _ h)
  | retrainAttemptTimeout => exact .of_vault (execRetrainAttemptTimeout_vault _ _ _ h)
  | trainingAttempt => exact .of_vault (execTrainingAttempt_vault _ _ _ _ h)
  | skyRetrainCommand => exact .of_vault (execSkyRetrainCommand_vault _ _ _ _ _ h)
  | admitGo => exact .of_vault (execAdmitGo_vault _ _ _ _ h)
  | admitReqSend => exact .of_vault (execAdmitReqSend_vault _ _ h)
  | admitReq => exact .of_vault (execAdmitReq_vault _ _ _ _ _ h)
  | admitAck => exact .of_vault (execAdmitAck_vault _ _ _ _ h)
  | admitNak => exact .of_vault (execAdmitNak_vault _ _ _ _ h)
  | admissionTimeout => exact .of_vault (execAdmissionTimeout_vault _ _ h)
  | admitLeave => exact .of_vault (execAdmitLeave_vault _ _ _ _ h)
  | leave => exact .of_vault (execLeave_vault _ _ _ h)
  | tickMarker => exact .of_vault (execTickMarker_vault _ _ _ _ h)
  | cycleFrame => exact .of_vault (execCycleFrame_vault _ _ _ h)
  | beatSourceLoss => exact .of_vault (execBeatSourceLoss_vault _ _ _ h)
  | eventWindow => exact .of_vault (execEventWindow_vault _ _ _ h)
  | windowClose => exact .of_vault (execWindowClose_vault _ _ _ h)
  | eventBallast => exact .of_vault (execEventBallast_vault _ _ _ h)
  | eventRamp => exact .of_vault (execEventRamp_vault _ _ _ h)
  | eventCkpt => exact .of_vault (execEventCkpt_vault _ _ _ h)
  | ckptEnd => exact .of_vault (execCkptEnd_vault _ _ _ h)
  | eventDigest => exact .of_vault (execEventDigest_vault _ _ _ h)
  | eventKat => exact .of_vault (execEventKat_vault _ _ _ h)
  | slack => exact .of_vault (execSlack_vault _ _ _ _ _ h)
  | shiftDecision => exact .of_vault (execShiftDecision_vault _ _ _ _ h)
  | shift => exact .of_vault (execShift_vault _ _ _ _ _ h)
  | beatSlackSend => exact .of_vault (execBeatSlackSend_vault _ _ _ _ h)
  | beatTimeSecRead => exact .of_vault (execBeatTimeSecRead_vault _ _ h)
  | mainsCycle => exact execMainsCycle_held _ _ _ h
  | pwrCapWrite => exact .of_vault (execPwrCapWrite_vault _ _ _ _ h)
  | pwrRampWrite => exact .of_vault (execPwrRampWrite_vault _ _ _ _ h)
  | opChangeDone => exact .of_vault (execOpChangeDone_vault _ _ _ h)
  | breakerTrip => exact .of_vault (execBreakerTrip_vault _ _ _ h)
  | breakerClear => exact .of_vault (execBreakerClear_vault _ _ _ _ _ h)
  | softStartDone => exact .of_vault (execSoftStartDone_vault _ _ _ h)
  | droopCrossing => exact .of_vault (execDroopCrossing_vault _ _ _ _ _ h)
  | stretchRelease => exact .of_vault (execStretchRelease_vault _ _ _ h)
  | droopSevere => exact .of_vault (execDroopSevere_vault _ _ _ h)
  | junctionOvertemp => exact .of_vault (execJunctionOvertemp_vault _ _ _ h)
  | chrysalisEnter => exact .of_vault (execChrysalisEnter_vault _ _ _ _ h)
  | chrysalisWake => exact .of_vault (execChrysalisWake_vault _ _ _ _ h)
  | katRun => exact .of_vault (execKatRun_vault _ _ _ _ h)
  | testComplete => exact .of_vault (execTestComplete_vault _ _ _ _ _ h)
  | watchRemove => exact .of_vault (execWatchRemove_vault _ _ _ _ h)
  | jobRestart => exact .of_vault (execJobRestart_vault _ _ _ _ _ h)
  | bootStageComplete => exact execBootStageComplete_held _ _ _ h
  | regionCruise => exact .of_vault (execRegionCruise_vault _ _ _ _ _ h)
  | moduleReset => exact .of_vault (execModuleReset_vault _ _ _ _ h)
  | retire => exact .of_vault (execRetire_vault _ _ _ _ h)
  | powerOff => exact .of_vault (execPowerOff_vault _ _ _ _ h)
  | powerOn => exact .of_vault (execPowerOn_vault _ _ _ _ h)
  | modResetGo => exact .of_vault (execModResetGo_vault _ _ _ _ h)
  | jobStart => exact .of_vault (execJobStart_vault _ _ _ _ h)
  | jobOrigin => exact .of_vault (execJobOrigin_vault _ _ _ h)
  | jobDrain => exact .of_vault (execJobDrain_vault _ _ _ _ h)
  | rangerRestart => exact .of_vault (execRangerRestart_vault _ _ _ _ h)
  | presentLoopChange => exact .of_vault (execPresentLoopChange_vault _ _ _ h)
  | stagingCheckDone => exact .of_vault (execStagingCheckDone_vault _ _ _ h)
  | wrapperInstructionDone => exact .of_vault (execWrapperInstructionDone_vault _ _ _ _ h)
  | cxlTrainingDone => exact .of_vault (execCxlTrainingDone_vault _ _ _ _ _ _ _ _ _ h)
  | retrainComplete => exact .of_vault (execRetrainComplete_vault _ _ _ _ h)
  | roceDisconnect => exact .of_vault (execRoceDisconnect_vault _ _ _ h)
  | inputUndervoltage => exact .of_vault (execInputUndervoltage_vault _ _ h)
  | inputOvervoltage => exact .of_vault (execInputOvervoltage_vault _ _ h)
  | inputReclose => exact .of_vault (execInputReclose_vault _ _ h)
  | chrysalisTarget => exact .of_vault (execChrysalisTarget_vault _ _ h)
  | wakeComplete => exact .of_vault (execWakeComplete_vault _ _ h)
  | katIdleTimer => exact .of_vault (execKatIdleTimer_vault _ _ h)
  | katWatchTimer => exact .of_vault (execKatWatchTimer_vault _ _ h)
  | nextTestDue => exact .of_vault (execNextTestDue_vault _ _ h)
  | powerContactsMated => exact execPowerContactsMated_held _ _ h
  | prechargeComplete => exact .of_vault (execPrechargeComplete_vault _ _ h)
  | resetQuiet => exact .of_vault (execResetQuiet_vault _ _ h)
  | drainLimitExpiry => exact .of_vault (execDrainLimitExpiry_vault _ _ h)
  | matedOpen => exact .of_vault (execMatedOpen_vault _ _ h)
  | watchdogExpiry => exact .of_vault (execWatchdogExpiry_vault _ _ h)
  | licenceExpiry => exact .of_vault (execLicenceExpiry_vault _ _ h)
  | logbookFlush => exact .of_vault (execLogbookFlush_vault _ _ h)
  | busBelow700V => exact .of_vault (execBusBelow700V_vault _ _ h)
  | busRestored => exact .of_vault (execBusRestored_vault _ _ h)
  | standbyPowerLoss => exact .of_vault (execStandbyPowerLoss_vault _ _ h)

/-- Settles O53: exec starts on the queue's rest, and no command changes the queue. -/
theorem stepFifo : Obligations.StepFifo := by
  unfold Obligations.StepFifo
  intro s t h
  unfold step at h
  split at h
  case h_1 hq =>
    cases h
    rw [hq]
    rfl
  case h_2 c rest hq =>
    rw [hq]
    exact (exec_held h).queue

/-- Settles O50. -/
theorem frontStep : Obligations.FrontStep := by
  unfold Obligations.FrontStep
  constructor
  · intro s c rest hq
    unfold step
    rw [hq]
  · intro s hq
    unfold step
    rw [hq]

/-- Settles O51: every arm of `exec` is a next state, so no operand and no state need be looked at. -/
theorem everyCommandCompletes : Obligations.EveryCommandCompletes := by
  unfold Obligations.EveryCommandCompletes
  intro c s
  cases c <;> exact ⟨_, rfl⟩

/-- Settles O52: the state after reset is closed, so each reading of it is evaluated. -/
theorem resetState : Obligations.ResetState := by
  unfold Obligations.ResetState State.keysIntact
  exact ⟨rfl, rfl, rfl, fun _ => rfl, by decide, by decide, rfl, rfl, rfl, rfl, by decide, by decide, by decide, by decide, by decide,
    by decide, by decide, by decide, by decide, by decide, by decide, by decide, by decide⟩

end Sys2Proof.Machine

namespace Sys2Proof.Machine

open Sys2Proof

/-! # What each command leaves unchanged: the mask of its list of pieces, and the blurred states before and after it. -/

/-- The places of a list of pieces in a mask. -/
def maskOf : List Part → Nat
  | [] => 0
  | p :: l => 2 ^ p.index ||| maskOf l

theorem Part.ofNat_index (p : Part) : Part.ofNat p.index = p := by cases p <;> rfl

theorem Part.index_inj {p q : Part} (h : p.index = q.index) : p = q := by
  rw [← Part.ofNat_index p, h, Part.ofNat_index]

theorem testBit_maskOf {p : Part} {l : List Part} (h : p ∉ l) : (maskOf l).testBit p.index = false := by
  induction l with
  | nil => exact Nat.zero_testBit _
  | cons q l ih =>
    obtain ⟨hq, hl⟩ := not_or.1 (mt List.mem_cons.2 h)
    rw [maskOf, Nat.testBit_or, ih hl, Nat.testBit_two_pow_of_ne fun e => hq (Part.index_inj e.symm), Bool.or_false]

/-- With the pieces of a command's list blurred, the state is the same after it as before. -/
theorem exec_blur {c : Instr} {s t : State} (hw : wf c = true) (h : exec c s = .next t) :
    t.blur (maskOf (touches c)) = s.blur (maskOf (touches c)) := by
  cases c <;> simp only [touches]
  case registerWrite => exact execRegisterWrite_blur _ rfl _ _ _ _ _ h
  case kctOpen => exact execKctOpen_blur _ rfl _ _ _ h
  case kctClose => exact execKctClose_blur _ rfl _ _ _ h
  case kctRead => exact execKctRead_blur _ rfl _ _ _ h
  case kctWrite => exact execKctWrite_blur _ rfl _ _ _ h
  case sessionIdleTimeout => exact execSessionIdleTimeout_blur _ rfl _ _ _ h
  case getCert => exact execGetCert_blur _ rfl _ _ _ h
  case attest => exact execAttest_blur _ rfl _ _ _ h
  case fwStage => exact execFwStage_blur _ rfl _ _ _ h
  case fwStageTimeout => exact execFwStageTimeout_blur _ rfl _ _ h
  case fwActivate => exact execFwActivate_blur _ rfl _ _ _ h
  case ownerSet => exact execOwnerSet_blur _ rfl _ _ _ h
  case ownerRevoke => exact execOwnerRevoke_blur _ rfl _ _ _ h
  case ownerRelease => exact execOwnerRelease_blur _ rfl _ _ _ h
  case licenceInstall => exact execLicenceInstall_blur _ rfl _ _ _ h
  case licenceGet => exact execLicenceGet_blur _ rfl _ _ _ h
  case revokeRelease => exact execRevokeRelease_blur _ rfl _ _ _ h
  case bulkData => exact execBulkData_blur _ rfl _ _ _ _ h
  case bulkAckTimer => exact execBulkAckTimer_blur _ rfl _ _ _ h
  case bulkRead => exact execBulkRead_blur _ rfl _ _ _ _ h
  case bulkOpen => exact execBulkOpen_touch _ rfl _ _ _ _ (of_decide_eq_true hw) _ h
  case bulkClose => exact execBulkClose_touch _ rfl _ _ _ _ (of_decide_eq_true hw) _ h
  case roceConnect => exact execRoceConnect_blur _ rfl _ _ _ _ h
  case rdmaSend => exact execRdmaSend_blur _ rfl _ _ _ _ h
  case rdmaWrite => exact execRdmaWrite_blur _ rfl _ _ _ _ _ _ _ _ h
  case rdmaRead => exact execRdmaRead_blur _ rfl _ _ _ _ _ _ _ h
  case ecnCeReceived => exact execEcnCeReceived_blur _ rfl _ _ _ _ h
  case cnpReceived => exact execCnpReceived_blur _ rfl _ _ _ h
  case rateIncreaseTimer => exact execRateIncreaseTimer_blur _ rfl _ _ _ h
  case pauseReceived => exact execPauseReceived_blur _ rfl _ _ _ _ _ _ h
  case lldpTransmitTimer => exact execLldpTransmitTimer_blur _ rfl _ _ h
  case lldpReceived => exact execLldpReceived_blur _ rfl _ _ _ _ _ h
  case neighborRequest => exact execNeighborRequest_blur _ rfl _ _ _ _ _ _ h
  case ptpEventMessage _ kind _ _ => exact execPtpEventMessage_blur _ rfl _ kind _ _ _ _ h
  case ptpAnnounce => exact execPtpAnnounce_blur _ rfl _ _ _ _ h
  case announceReceiptTimeout => exact execAnnounceReceiptTimeout_blur _ rfl _ _ _ h
  case ptpSync => exact execPtpSync_blur _ rfl _ _ _ _ _ _ _ h
  case ethLinkDown => exact execEthLinkDown_blur _ rfl _ _ _ h
  case ethLinkUp => exact execEthLinkUp_blur _ rfl _ _ _ h
  case imgStart => exact execImgStart_touch _ rfl _ _ _ _ h
  case imgAbort => exact execImgAbort_touch _ rfl _ _ _ _ h
  case loadVerifyDone => exact execLoadVerifyDone_blur _ rfl _ _ h
  case loadOpenRetry => exact execLoadOpenRetry_blur _ rfl _ _ h
  case loadBroadcastDone => exact execLoadBroadcastDone_blur _ rfl _ _ h
  case repairRound => exact execRepairRound_blur _ rfl _ _ h
  case missReportWindowEnd => exact execMissReportWindowEnd_blur _ rfl _ _ h
  case chunkLead => exact execChunkLead_blur _ rfl _ _ _ _ _ h
  case chunkData => exact execChunkData_blur _ rfl _ _ _ _ h
  case loadOpen => exact execLoadOpen_blur _ rfl _ _ _ h
  case loadCheck => exact execLoadCheck_blur _ rfl _ _ h
  case loadConfigure => exact execLoadConfigure_blur _ rfl _ _ h
  case miss => exact execMiss_blur _ rfl _ _ _ _ h
  case stepNop => exact execStepNop_blur _ rfl _ _ _ _ h
  case stepMatrix => exact execStepMatrix_blur _ rfl _ _ _ _ h
  case stepVector => exact execStepVector_blur _ rfl _ _ _ _ h
  case stepLoad => exact execStepLoad_blur _ rfl _ _ _ _ h
  case stepStore => exact execStepStore_blur _ rfl _ _ _ _ h
  case stepExchange => exact execStepExchange_blur _ rfl _ _ _ _ h
  case gateWait => exact execGateWait_blur _ rfl _ _ _ _ h
  case gateBarrierEnter => exact execGateBarrierEnter_blur _ rfl _ _ _ _ h
  case gateSignal => exact execGateSignal_blur _ rfl _ _ _ _ h
  case stepScalar => exact execStepScalar_blur _ rfl _ _ _ _ h
  case stepEnd => exact execStepEnd_blur _ rfl _ _ _ _ h
  case stepComplete => exact execStepComplete_blur _ rfl _ _ _ _ _ h
  case gateTimeout => exact execGateTimeout_blur _ rfl _ _ _ h
  case fmnNop => exact execFmnNop_blur _ rfl _ _ _ h
  case fmnLdi => exact execFmnLdi_blur _ rfl _ _ _ h
  case fmnLdhi => exact execFmnLdhi_blur _ rfl _ _ _ h
  case fmnAdd => exact execFmnAdd_blur _ rfl _ _ _ h
  case fmnSub => exact execFmnSub_blur _ rfl _ _ _ h
  case fmnAddi => exact execFmnAddi_blur _ rfl _ _ _ h
  case fmnAnd => exact execFmnAnd_blur _ rfl _ _ _ h
  case fmnOr => exact execFmnOr_blur _ rfl _ _ _ h
  case fmnXor => exact execFmnXor_blur _ rfl _ _ _ h
  case fmnShl => exact execFmnShl_blur _ rfl _ _ _ h
  case fmnShr => exact execFmnShr_blur _ rfl _ _ _ h
  case fmnCmplt => exact execFmnCmplt_blur _ rfl _ _ _ h
  case fmnCmpeq => exact execFmnCmpeq_blur _ rfl _ _ _ h
  case fmnFadd => exact execFmnFadd_blur _ rfl _ _ _ h
  case fmnFmul => exact execFmnFmul_blur _ rfl _ _ _ h
  case fmnJmp => exact execFmnJmp_blur _ rfl _ _ _ h
  case fmnBz => exact execFmnBz_blur _ rfl _ _ _ h
  case fmnBnz => exact execFmnBnz_blur _ rfl _ _ _ h
  case fmnHalt => exact execFmnHalt_blur _ rfl _ _ _ h
  case fmnRdstep => exact execFmnRdstep_blur _ rfl _ _ _ h
  case fmnRdcurve => exact execFmnRdcurve_blur _ rfl _ _ _ h
  case fmnStart => exact execFmnStart_blur _ rfl _ _ _ h
  case fmnStop => exact execFmnStop_blur _ rfl _ _ _ h
  case fmnLatch => exact execFmnLatch_blur _ rfl _ _ _ h
  case fmnWaitev => exact execFmnWaitev_blur _ rfl _ _ _ h
  case fmnWaitdone => exact execFmnWaitdone_blur _ rfl _ _ _ h
  case buildBegin => exact execBuildBegin_blur _ rfl _ _ _ h
  case score => exact execScore_blur _ rfl _ _ _ h
  case buildEnd => exact execBuildEnd_blur _ rfl _ _ _ h
  case fmnCurve => exact execFmnCurve_blur _ rfl _ _ _ h
  case scoreTimeout => exact execScoreTimeout_blur _ rfl _ _ _ h
  case reset => exact execReset_blur _ rfl _ _ _ _ _ h
  case fence => exact execFence_blur _ rfl _ _ _ h
  case barrierEnter => exact execBarrierEnter_blur _ rfl _ _ _ _ _ h
  case barrierRelease => exact execBarrierRelease_blur _ rfl _ _ _ _ h
  case barrierTimerExpiry => exact execBarrierTimerExpiry_blur _ rfl _ _ _ _ h
  case barrierProbe => exact execBarrierProbe_blur _ rfl _ _ _ _ h
  case probeAnswerTimeout f n => exact execProbeAnswerTimeout_blur _ rfl f n _ _ h
  case barrierFail => exact execBarrierFail_blur _ rfl _ _ _ h
  case windowFlag => exact execWindowFlag_blur _ rfl _ _ _ _ _ h
  case faultNotice => exact execFaultNotice_blur _ rfl _ _ _ h
  case numericsNotice => exact execNumericsNotice_blur _ rfl _ _ _ _ h
  case absorbed => exact execAbsorbed_blur _ rfl _ _ _ _ _ h
  case complete => exact execComplete_blur _ rfl _ _ _ h
  case looperStart => exact execLooperStart_blur _ rfl _ _ _ _ h
  case looperStop => exact execLooperStop_blur _ rfl _ _ _ _ h
  case scalarWrite => exact execScalarWrite_blur _ rfl _ _ _ _ _ h
  case grant => exact execGrant_blur _ rfl _ _ _ _ h
  case countReturn => exact execCountReturn_blur _ rfl _ _ _ _ _ h
  case tallyRead => exact execTallyRead_blur _ rfl _ _ _ _ h
  case tallyReply => exact execTallyReply_blur _ rfl _ _ _ _ _ h
  case tallyClear => exact execTallyClear_blur _ rfl _ _ _ h
  case fetchList => exact execFetchList_blur _ rfl _ _ _ _ h
  case flitArrive => exact execFlitArrive_blur _ rfl _ _ _ _ _ _ h
  case creditReturn => exact execCreditReturn_blur _ rfl _ _ _ _ _ h
  case exchangeEpoch => exact execExchangeEpoch_blur _ rfl _ _ _ _ h
  case routerDead => exact execRouterDead_blur _ rfl _ _ _ _ h
  case detourClear => exact execDetourClear_touch _ rfl _ _ _ _ (of_decide_eq_true hw) _ h
  case streamDeliver => exact execStreamDeliver_blur _ rfl _ _ _ h
  case streamGather => exact execStreamGather_blur _ rfl _ _ _ h
  case streamRecorded => exact execStreamRecorded_blur _ rfl _ _ _ h
  case streamNear => exact execStreamNear_blur _ rfl _ _ _ h
  case streamLoop => exact execStreamLoop_blur _ rfl _ _ _ h
  case streamEnd => exact execStreamEnd_blur _ rfl _ _ _ h
  case fillReadStart => exact execFillReadStart_blur _ rfl _ _ _ _ _ h
  case fillLaneAssign => exact execFillLaneAssign_blur _ rfl _ _ _ h
  case fillLanded => exact execFillLanded_blur _ rfl _ _ _ _ _ _ h
  case listMerge => exact execListMerge_blur _ rfl _ _ _ _ h
  case skidderStop => exact execSkidderStop_touch _ rfl _ _ _ _ h
  case tick => exact execTick_blur _ rfl _ _ _ h
  case create => exact execCreate_touch _ rfl _ _ _ _ h
  case destroy => exact execDestroy_touch _ rfl _ _ _ _ h
  case promote => exact execPromote_touch _ rfl _ _ _ _ h
  case demote => exact execDemote_touch _ rfl _ _ _ _ h
  case pin => exact execPin_touch _ rfl _ _ _ _ h
  case unpin => exact execUnpin_touch _ rfl _ _ _ _ h
  case extentCopyDone => exact execExtentCopyDone_blur _ rfl _ _ _ _ h
  case allocationRetry => exact execAllocationRetry_blur _ rfl _ _ h
  case allocationWaitLimit => exact execAllocationWaitLimit_blur _ rfl _ _ _ h
  case caParityError k second => exact execCaParityError_blur _ rfl k second _ _ h
  case stackUncorrectableRead => exact execStackUncorrectableRead_blur _ rfl _ _ _ h
  case wrapperGo => exact execWrapperGo_touch _ rfl _ _ _ _ (of_decide_eq_true hw) _ h
  case rdimmFail => exact execRdimmFail_blur _ rfl _ _ _ h
  case cxlReadTimeout => exact execCxlReadTimeout_blur _ rfl _ _ _ _ h
  case cxlLinkDown => exact execCxlLinkDown_blur _ rfl _ _ _ h
  case dcdAdd => exact execDcdAdd_blur _ rfl _ _ _ _ h
  case dcdRelease => exact execDcdRelease_blur _ rfl _ _ _ _ _ h
  case cxlRescan => exact execCxlRescan_touch _ rfl _ _ _ _ h
  case outboxTake => exact execOutboxTake_blur _ rfl _ _ _ _ h
  case contribTileArrive => exact execContribTileArrive_blur _ rfl _ _ _ h
  case contribAck => exact execContribAck_blur _ rfl _ _ _ _ _ _ h
  case lateRefusal => exact execLateRefusal_blur _ rfl _ _ _ _ _ h
  case contribSetClose => exact execContribSetClose_blur _ rfl _ _ _ _ h
  case contribSetNotice => exact execContribSetNotice_blur _ rfl _ _ _ _ _ h
  case setGraceExpiry => exact execSetGraceExpiry_blur _ rfl _ _ _ _ h
  case parameterBroadcastTile => exact execParameterBroadcastTile_blur _ rfl _ _ _ _ _ _ _ _ _ h
  case commitMarker => exact execCommitMarker_blur _ rfl _ _ _ _ h
  case shadowDigest => exact execShadowDigest_blur _ rfl _ _ _ _ _ _ h
  case verdictArrive => exact execVerdictArrive_blur _ rfl _ _ _ _ _ _ _ h
  case confirm => exact execConfirm_blur _ rfl _ _ _ _ h
  case rollback => exact execRollback_blur _ rfl _ _ _ _ _ _ h
  case verdictTimeout => exact execVerdictTimeout_blur _ rfl _ _ _ h
  case slotRollback => exact execSlotRollback_touch _ rfl _ _ _ _ h
  case redStepWrite => exact execRedStepWrite_touch _ rfl _ _ _ _ (of_decide_eq_true hw) _ h
  case replayOrigin => exact execReplayOrigin_blur _ rfl _ _ _ h
  case skyFlitReceive => exact execSkyFlitReceive_blur _ rfl _ _ _ _ h
  case skyAckTimer => exact execSkyAckTimer_blur _ rfl _ _ _ h
  case meshFlitSendTimer => exact execMeshFlitSendTimer_blur _ rfl _ _ _ h
  case portRetrain => exact execPortRetrain_blur _ rfl _ _ _ _ h
  case retrainAttemptTimeout => exact execRetrainAttemptTimeout_blur _ rfl _ _ _ h
  case trainingAttempt => exact execTrainingAttempt_blur _ rfl _ _ _ _ h
  case skyRetrainCommand => exact execSkyRetrainCommand_touch _ rfl _ _ _ _ (of_decide_eq_true hw) _ h
  case admitGo => exact execAdmitGo_touch _ rfl _ _ _ _ h
  case admitReqSend => exact execAdmitReqSend_blur _ rfl _ _ h
  case admitReq => exact execAdmitReq_blur _ rfl _ _ _ _ _ h
  case admitAck => exact execAdmitAck_blur _ rfl _ _ _ _ h
  case admitNak => exact execAdmitNak_blur _ rfl _ _ _ _ h
  case admissionTimeout => exact execAdmissionTimeout_blur _ rfl _ _ h
  case admitLeave => exact execAdmitLeave_touch _ rfl _ _ _ _ h
  case leave => exact execLeave_blur _ rfl _ _ _ h
  case tickMarker => exact execTickMarker_blur _ rfl _ _ _ _ h
  case cycleFrame => exact execCycleFrame_blur _ rfl _ _ _ h
  case beatSourceLoss => exact execBeatSourceLoss_blur _ rfl _ _ _ h
  case eventWindow => exact execEventWindow_blur _ rfl _ _ _ h
  case windowClose => exact execWindowClose_blur _ rfl _ _ _ h
  case eventBallast => exact execEventBallast_blur _ rfl _ _ _ h
  case eventRamp => exact execEventRamp_blur _ rfl _ _ _ h
  case eventCkpt => exact execEventCkpt_blur _ rfl _ _ _ h
  case ckptEnd => exact execCkptEnd_blur _ rfl _ _ _ h
  case eventDigest => exact execEventDigest_blur _ rfl _ _ _ h
  case eventKat => exact execEventKat_blur _ rfl _ _ _ h
  case slack => exact execSlack_blur _ rfl _ _ _ _ _ h
  case shiftDecision => exact execShiftDecision_blur _ rfl _ _ _ _ h
  case shift => exact execShift_blur _ rfl _ _ _ _ _ h
  case beatSlackSend => exact execBeatSlackSend_touch _ rfl _ _ _ _ h
  case beatTimeSecRead => exact execBeatTimeSecRead_blur _ rfl _ _ h
  case mainsCycle => exact execMainsCycle_blur _ rfl _ _ _ h
  case pwrCapWrite => exact execPwrCapWrite_touch _ rfl _ _ _ _ h
  case pwrRampWrite => exact execPwrRampWrite_touch _ rfl _ _ _ _ h
  case opChangeDone => exact execOpChangeDone_blur _ rfl _ _ _ h
  case breakerTrip => exact execBreakerTrip_blur _ rfl _ _ _ h
  case breakerClear => exact execBreakerClear_touch _ rfl _ _ _ _ (of_decide_eq_true hw) _ h
  case softStartDone => exact execSoftStartDone_blur _ rfl _ _ _ h
  case droopCrossing => exact execDroopCrossing_blur _ rfl _ _ _ _ _ h
  case stretchRelease => exact execStretchRelease_blur _ rfl _ _ _ h
  case droopSevere => exact execDroopSevere_blur _ rfl _ _ _ h
  case junctionOvertemp => exact execJunctionOvertemp_blur _ rfl _ _ _ h
  case chrysalisEnter => exact execChrysalisEnter_touch _ rfl _ _ _ _ h
  case chrysalisWake => exact execChrysalisWake_touch _ rfl _ _ _ _ h
  case katRun => exact execKatRun_touch _ rfl _ _ _ _ h
  case testComplete => exact execTestComplete_blur _ rfl _ _ _ _ _ h
  case watchRemove => exact execWatchRemove_touch _ rfl _ _ _ _ h
  case jobRestart => exact execJobRestart_touch _ rfl _ _ _ _ (of_decide_eq_true hw) _ h
  case bootStageComplete => exact execBootStageComplete_blur _ rfl _ _ _ h
  case regionCruise => exact execRegionCruise_blur _ rfl _ _ _ _ _ h
  case moduleReset => exact execModuleReset_touch _ rfl _ _ _ _ h
  case retire => exact execRetire_touch _ rfl _ _ _ _ h
  case powerOff => exact execPowerOff_touch _ rfl _ _ _ _ h
  case powerOn => exact execPowerOn_touch _ rfl _ _ _ _ h
  case modResetGo => exact execModResetGo_touch _ rfl _ _ _ _ h
  case jobStart => exact execJobStart_touch _ rfl _ _ _ _ h
  case jobOrigin => exact execJobOrigin_blur _ rfl _ _ _ h
  case jobDrain => exact execJobDrain_touch _ rfl _ _ _ _ h
  case rangerRestart => exact execRangerRestart_touch _ rfl _ _ _ _ h
  case presentLoopChange => exact execPresentLoopChange_blur _ rfl _ _ _ h
  case stagingCheckDone => exact execStagingCheckDone_blur _ rfl _ _ _ h
  case wrapperInstructionDone => exact execWrapperInstructionDone_blur _ rfl _ _ _ _ h
  case cxlTrainingDone => exact execCxlTrainingDone_blur _ rfl _ _ _ _ _ _ _ _ _ h
  case retrainComplete => exact execRetrainComplete_blur _ rfl _ _ _ _ h
  case roceDisconnect => exact execRoceDisconnect_blur _ rfl _ _ _ h
  case inputUndervoltage => exact execInputUndervoltage_blur _ rfl _ _ h
  case inputOvervoltage => exact execInputOvervoltage_blur _ rfl _ _ h
  case inputReclose => exact execInputReclose_blur _ rfl _ _ h
  case chrysalisTarget => exact execChrysalisTarget_blur _ rfl _ _ h
  case wakeComplete => exact execWakeComplete_blur _ rfl _ _ h
  case katIdleTimer => exact execKatIdleTimer_blur _ rfl _ _ h
  case katWatchTimer => exact execKatWatchTimer_blur _ rfl _ _ h
  case nextTestDue => exact execNextTestDue_blur _ rfl _ _ h
  case powerContactsMated => exact execPowerContactsMated_blur _ rfl _ _ h
  case prechargeComplete => exact execPrechargeComplete_blur _ rfl _ _ h
  case resetQuiet => exact execResetQuiet_blur _ rfl _ _ h
  case drainLimitExpiry => exact execDrainLimitExpiry_blur _ rfl _ _ h
  case matedOpen => exact execMatedOpen_blur _ rfl _ _ h
  case watchdogExpiry => exact execWatchdogExpiry_blur _ rfl _ _ h
  case licenceExpiry => exact execLicenceExpiry_blur _ rfl _ _ h
  case logbookFlush => exact execLogbookFlush_blur _ rfl _ _ h
  case busBelow700V => exact execBusBelow700V_blur _ rfl _ _ h
  case busRestored => exact execBusRestored_blur _ rfl _ _ h
  case standbyPowerLoss => exact execStandbyPowerLoss_blur _ rfl _ _ h

/-- Settles O56: the pieces that stay are those outside the mask of the command's list. -/
theorem frame : Obligations.Frame := by
  unfold Obligations.Frame
  intro c s t hw h p hp
  exact same_of_blur (exec_blur hw h) p (testBit_maskOf hp)

end Sys2Proof.Machine

namespace Sys2Proof.Machine

open Sys2Proof

/-! # Reads and writes of addresses where no register lies. -/

/-! ## Where no register lies (R9) -/

/-- The rows of the register map, by the place and the shape of their arrays. -/
def places : List (Nat × List (Nat × Nat)) := regRows.map (fun r => (r.base, r.dims))

theorem regRow_ne_none {a : Nat} {p : Nat × List (Nat × Nat)} (hp : p ∈ places) (hb : p.1 ≤ a) (hd : dimsHit p.2 (a - p.1) = true) :
    regRow a ≠ none := by
  obtain ⟨r, hr, rfl⟩ := List.mem_map.1 hp
  have hit : r.hit a = true := by
    unfold RegRow.hit
    simp only [hd, decide_eq_true hb, Bool.and_self]
  unfold regRow
  exact fun h => List.find?_eq_none.1 h r hr hit

/-- Every live register, every count with a clear bit and every array whose writes act lies in a row of the map. -/
theorem liveRows_places : ∀ p ∈ liveRows.map (fun r => (r.base, r.dims)), p ∈ places := by decide

theorem clearRows_places : ∀ p ∈ clearRows, p ∈ places := by decide

theorem readReg_hole {s : State} {a : Nat} (h : regRow a = none) : s.readReg a = 0 := by
  unfold State.readReg
  split
  case h_1 r hr =>
    have hit := List.find?_some hr
    simp only [Bool.and_eq_true, decide_eq_true_eq] at hit
    exact absurd h (regRow_ne_none (liveRows_places _ (List.mem_map_of_mem (List.mem_of_find?_eq_some hr))) hit.1 hit.2)
  case h_2 => rw [h]; rfl

theorem isClear_hole {a : Nat} (h : regRow a = none) : isClear a = false := by
  unfold isClear
  rw [List.any_eq_false]
  intro p hp hit
  simp only [Bool.and_eq_true, decide_eq_true_eq] at hit
  exact regRow_ne_none (clearRows_places p hp) hit.1 hit.2 h

theorem indexIn_hole {base stride n a : Nat} (hp : (base, [(n, stride)]) ∈ places) (h : regRow a = none) :
    indexIn base stride n a = none := by
  unfold indexIn
  split
  case isTrue hit =>
    obtain ⟨hb, hm, hd⟩ := hit
    exact absurd h (regRow_ne_none hp hb (by simp [dimsHit, hm, hd]))
  case isFalse => rfl

/-- The registers at fixed addresses whose writes act. -/
def actingRegs : List Nat :=
  [Reg.modCtrl, Reg.modReset, Reg.modJobCtrl, Reg.rngCtrl, Reg.beatCtrl, Reg.beatTimeSec, Reg.beatTimeNs, Reg.beatSlack, Reg.pwrCap,
    Reg.pwrRamp, Reg.pwrOpLimit, Reg.pwrChrysalis, Reg.yrdCmd, Reg.skdCtrl, Reg.redCtrl, Reg.cxlCtrl, Reg.skyStand, Reg.skyCoord,
    Reg.skyAdmit, Reg.logNextTest, Reg.imgCtrl, Reg.fltKatRun, Reg.fltWatchSel]

theorem writeFixed_none {s : State} {src : Src} {a : Nat} {w : Word} (h : a ∉ actingRegs) : s.writeFixed src a w = none := by
  simp only [actingRegs, List.mem_cons, List.not_mem_nil, or_false, not_or] at h
  simp only [State.writeFixed, h, if_false, or_self]

theorem actingRegs_rows : ∀ a ∈ actingRegs, regRow a ≠ none := by decide

theorem writeFixed_hole {s : State} {src : Src} {a : Nat} {w : Word} (h : regRow a = none) : s.writeFixed src a w = none :=
  writeFixed_none fun hm => actingRegs_rows a hm h

theorem writeArray_hole {s : State} {src : Src} {a : Nat} {w : Word} (h : regRow a = none) : s.writeArray src a w = none := by
  unfold State.writeArray
  simp only [indexIn_hole (show (Reg.beatOrigin 0, [(8, 0x20)]) ∈ places by decide) h,
    indexIn_hole (show (Reg.redStep 0, [(8, 0x20)]) ∈ places by decide) h,
    indexIn_hole (show (Reg.fltJob 0, [(8, 0x20)]) ∈ places by decide) h,
    indexIn_hole (show (Reg.stkWrapCmd 0, [(24, 0x400)]) ∈ places by decide) h,
    indexIn_hole (show (Reg.skyPortCtrl 0, [(16, 0x800)]) ∈ places by decide) h,
    indexIn_hole (show (Reg.ethPortCtrl 0, [(2, 0x400)]) ∈ places by decide) h,
    indexIn_hole (show (Reg.ethPtp 0, [(2, 0x400)]) ∈ places by decide) h,
    indexIn_hole (show (Reg.bulkCtrl 0, [(4, 0x40)]) ∈ places by decide) h,
    indexIn_hole (show (Reg.bulkAddr 0, [(4, 0x40)]) ∈ places by decide) h,
    indexIn_hole (show (Reg.bulkLen 0, [(4, 0x40)]) ∈ places by decide) h,
    indexIn_hole (show (Reg.bulkStride 0, [(4, 0x40)]) ∈ places by decide) h,
    indexIn_hole (show (Reg.rgnFabricCtrl 0, [(72, 0x1_0000)]) ∈ places by decide) h,
    indexIn_hole (show (Reg.rgnBreakerClear 0, [(72, 0x1_0000)]) ∈ places by decide) h,
    Option.isSome_none, Bool.or_self, Bool.false_eq_true, if_false]

theorem regRow_array {base stride n k : Nat} (hp : (base, [(n, stride)]) ∈ places) (hs : 0 < stride) (hk : k < n) :
    regRow (base + k * stride) ≠ none := fun h => by
  have hit := indexIn_hit (base := base) hk hs
  rw [indexIn_hole hp h] at hit
  cases hit

theorem startsWork_hole {a : Nat} {w : Word} (h : regRow a = none) : startsWork a w = false := by
  have fixed : ∀ b, regRow b ≠ none → (a == b) = false := fun b hb => beq_eq_false_iff_ne.2 fun e => hb (e ▸ h)
  have jobs : (List.range 8).any (fun n => a == Reg.fltJob n) = false := List.any_eq_false.2 fun n hn =>
    Bool.eq_false_iff.1 (fixed _ (regRow_array (base := 0x000E_0100) (by decide) (by decide) (List.mem_range.1 hn)))
  have breakers : (List.range 72).any (fun r => a == Reg.rgnBreakerClear r) = false := List.any_eq_false.2 fun r hr =>
    Bool.eq_false_iff.1 (fixed _ (by
      have e : Reg.rgnBreakerClear r = 0x0100_0408 + r * 0x1_0000 := by unfold Reg.rgnBreakerClear regionBase; omega
      rw [e]
      exact regRow_array (by decide) (by decide) (List.mem_range.1 hr)))
  have windows : (List.range 4).any (fun v => a == Reg.bulkCtrl v) = false := List.any_eq_false.2 fun v hv =>
    Bool.eq_false_iff.1 (fixed _ (regRow_array (base := 0x000A_8018) (by decide) (by decide) (List.mem_range.1 hv)))
  simp only [startsWork, jobs, breakers, windows, fixed Reg.imgCtrl (by decide), fixed Reg.yrdCmd (by decide),
    fixed Reg.modJobCtrl (by decide), fixed Reg.modReset (by decide), fixed Reg.fltKatRun (by decide), fixed Reg.skyAdmit (by decide),
    Bool.false_and, Bool.or_self]

theorem writeAt_hole {s : State} {src : Src} {a : Nat} {w : Word} (h : regRow a = none) : s.writeAt src a w = (s, Kct.ok) := by
  simp only [State.writeAt, writeFixed_hole h, writeArray_hole h, isClear_hole h, State.writePlain, h, Bool.false_eq_true, if_false]

theorem writeReg_unmapped {s : State} {src : Src} {a : Nat} {w : Word} (h : a % 8 ≠ 0 ∨ inBlock a = false) :
    s.writeReg src a w = (s, Kct.badAddress) := by
  unfold State.writeReg
  rw [if_pos h]

theorem hostWrite_hole {s : State} {src : Src} {a : Nat} {w : Word} (h : regRow a = none) : s.hostWrite src a w = s := by
  unfold State.hostWrite
  by_cases hm : a % 8 = 0 ∧ inBlock a = true
  · rw [State.writeReg_of s src a w hm, writeAt_hole h]
    simp [State.through, startsWork_hole h, Kct.ok, Kct.rejected, apply_ite Prod.fst]
  · rw [writeReg_unmapped (by grind)]

/-- Settles O57. -/
theorem registerHoles : Obligations.RegisterHoles := by
  unfold Obligations.RegisterHoles
  intro s a
  refine ⟨fun _ hr => ⟨readReg_hole hr, fun src w => ?_⟩, fun hb => ⟨fun q => ?_, fun src w => writeReg_unmapped (.inr hb)⟩⟩
  · exact congrArg Host.Outcome.next (hostWrite_hole hr)
  · unfold State.kctReg
    rw [if_pos (.inr hb)]
    rfl

end Sys2Proof.Machine

namespace Sys2Proof.Machine

open Sys2Proof

/-! # Rejections and the arbiter, dead routers and the detour table. -/

/-! ## The record of a rejected operation (R2) -/

/-- The record that is raised last takes the session and the address. -/
theorem tagReject_append (sess a : Nat) (l : List Instr) {n : Notice} (hn : n.code = 0x4071) :
    tagReject sess a (l ++ [.faultNotice n]) = l ++ [.faultNotice { n with unit := sess, detail := a % 2 ^ 32 }] := by
  induction l with
  | nil => simp [tagReject, hn]
  | cons m l ih =>
    rw [List.cons_append]
    unfold tagReject
    rw [if_pos (by simp [hn]), ih, List.cons_append]

theorem State.tagged_reject (s : State) (slot : Option Nat) (unit sess a : Nat) (ha : a < 2 ^ 32) :
    (s.reject slot unit).tagged sess a = { s with inFlight := s.inFlight ++ [.faultNotice ⟨0x4071, slot, sess, a, 15⟩] } := by
  unfold State.tagged State.reject State.raise State.send
  rw [tagReject_append sess a s.inFlight rfl, Nat.mod_eq_of_lt ha]

/-! ## Through the control-space arbiter -/

/-- An operation that is let through and not rejected acts as such. -/
theorem State.through_ok {s : State} {src : Src} {a : Nat} {w : Word} {r : Wrote} (hq : s.regSilent a = false)
    (hw : s.boot.stage ≠ 7 ∨ startsWork a w = false) (hr : r.2 ≠ Kct.rejected) : s.through src a w r = r := by
  have hn : ¬ (s.boot.stage = 7 ∧ startsWork a w = true) := by
    rintro ⟨h, h'⟩
    exact hw.elim (· h) (by simp [h'])
  simp [State.through, hq, hn, hr]

/-- An operation that is let through and rejected leaves the record of its rejection, tagged. -/
theorem State.through_rejected {s t : State} {src : Src} {a : Nat} {w : Word} (hq : s.regSilent a = false) (h7 : s.boot.stage ≠ 7) :
    s.through src a w (t, Kct.rejected) = (t.tagged (srcSession src) a, Kct.rejected) := by
  simp [State.through, hq, h7]

theorem fmRange_rgnFabricCtrl {q : Nat} (hq : q < 72) : fmRange (Reg.rgnFabricCtrl q) = none := by
  have e : (Reg.rgnFabricCtrl q - 0x0100_0000) % 0x1_0000 = 0x200 := by unfold Reg.rgnFabricCtrl regionBase; omega
  unfold fmRange
  split
  · dsimp only
    rw [e]
    rfl
  · rfl

theorem State.regSilent_rgnFabricCtrl {s : State} {q : Nat} (hq : q < 72) (h7 : s.boot.stage ≠ 7) :
    s.regSilent (Reg.rgnFabricCtrl q) = false := by
  simp [State.regSilent, fmRange_rgnFabricCtrl hq, h7]

/-! ## The detour table (R291 to R296) -/

theorem State.onlyRgn_modRgn {s t : State} {r : Nat} (h : t.rgns = s.rgns) (f : RgnSt → RgnSt) : s.onlyRgn (t.modRgn r f) r := by
  intro m hm
  unfold State.modRgn
  rw [State.rgn_setRgn_other t hm]
  unfold State.rgn
  rw [h]

theorem State.rgn_modRgn {s t : State} (h : t.rgns = s.rgns) (r : Nat) (f : RgnSt → RgnSt) : (t.modRgn r f).rgn r = f (s.rgn r) := by
  unfold State.modRgn
  rw [State.rgn_setRgn]
  unfold State.rgn
  rw [h]

theorem State.detourClear_none {s : State} {r : Nat} {w : Word} (hw : w.getLsbD 0 = true)
    (hj : ∀ n, s.slotOfRegion r = some n → s.jobRuns n = false) :
    s.detourClear r w = (s.modRgn r (fun x => { x with dead := [], detourNone := false }), true) := by
  have hb : bit 0 w = true := hw
  unfold State.detourClear
  rw [hb]
  split
  · contradiction
  · split
    · rename_i n hn
      rw [hj n hn]
      rfl
    · rfl

theorem State.detourClear_busy {s : State} {r n : Nat} {w : Word} (hw : w.getLsbD 0 = true) (hs : s.slotOfRegion r = some n)
    (hj : s.jobRuns n = true) : s.detourClear r w = (s.reject (some n) r, false) := by
  have hb : bit 0 w = true := hw
  simp [State.detourClear, hb, hs, hj]

/-- What a dead router or link of cell `c` brings at once: 0x3003 with detail `d`, the fence of the cell, and 0x2002 (R291). -/
def State.deadTold (s : State) (c d : Nat) : State := (s.raiseRgn 0x3003 (regionOf c) d).fenceBy c

theorem State.deadTold_inFlight (s : State) (c d : Nat) : (s.deadTold c d).inFlight = s.inFlight ++
    [.faultNotice ⟨0x3003, s.slotOfRegion (regionOf c), regionOf c + 0x1F * 256, d, 15⟩, .fence c,
      .faultNotice ⟨0x2002, s.slotOfCell c, c, 0, s.posOfCell c⟩] := by
  simp only [State.deadTold, State.fenceBy, State.raiseCell, State.raiseRgn, State.raise, State.send, List.append_assoc]
  rfl

/-- The entry made, or the table full (R292, R293). -/
def State.detourEnter (s : State) (c : Nat) (link : Option Port) : State :=
  if 4 ≤ (s.rgn (regionOf c)).dead.length then
    (s.modRgn (regionOf c) (fun x => { x with detourNone := true })).raiseRgn 0x3004 (regionOf c) 0
  else s.modRgn (regionOf c) (fun x => { x with dead := x.dead ++ [(c, link)] })

/-- The flits in the router of `c`, and those on their way to it, are lost (R291). -/
def State.routerLost (s : State) (c : Nat) : State :=
  { s.modRouter c (fun x => { x with wait := [], slips := [] }) with
    inFlight := s.inFlight.filter (fun m => match m with
      | .flitArrive d _ _ _ => d != c
      | _ => true) }

theorem execRouterDead_repeated {s : State} {c : Nat} {link : Option Port} (h : (c, link) ∈ (s.rgn (regionOf c)).dead) :
    execRouterDead c link s = .next s := by
  unfold execRouterDead
  dsimp only
  rw [if_pos (List.contains_iff_mem.2 h)]

theorem execRouterDead_link {s : State} {c : Nat} {p : Port} (h : (c, some p) ∉ (s.rgn (regionOf c)).dead) :
    execRouterDead c (some p) s =
      .next ((s.deadTold c (field 17 0 c + (2 ^ 18 + field 21 20 (portNum p)))).detourEnter c (some p)) := by
  unfold execRouterDead
  dsimp only
  rw [if_neg (mt List.contains_iff_mem.1 h)]
  rfl

theorem execRouterDead_router {s : State} {c : Nat} (h : (c, none) ∉ (s.rgn (regionOf c)).dead) :
    execRouterDead c none s = .next (((s.deadTold c (field 17 0 c + 0)).routerLost c).detourEnter c none) := by
  unfold execRouterDead
  dsimp only
  rw [if_neg (mt List.contains_iff_mem.1 h)]
  rfl

theorem State.detourEnter_room {s : State} {c : Nat} {link : Option Port} (h : (s.rgn (regionOf c)).dead.length < 4) :
    s.detourEnter c link = s.modRgn (regionOf c) (fun x => { x with dead := x.dead ++ [(c, link)] }) := if_neg (by omega)

theorem State.detourEnter_full {s : State} {c : Nat} {link : Option Port} (h : 4 ≤ (s.rgn (regionOf c)).dead.length) :
    s.detourEnter c link =
      (s.modRgn (regionOf c) (fun x => { x with detourNone := true })).raiseRgn 0x3004 (regionOf c) 0 := if_pos h

theorem State.not_flitArrive_routerLost (s : State) (c : Nat) (p : Port) (f : Flit) (loses : Bool) :
    .flitArrive c p f loses ∉ (s.routerLost c).inFlight := by
  unfold State.routerLost
  simp

theorem State.router_routerLost (s : State) (c : Nat) :
    ((s.routerLost c).router c).wait = [] ∧ ((s.routerLost c).router c).slips = [] ∧
      ∀ d, d ≠ c → (s.routerLost c).router d = s.router d := by
  have own : (s.routerLost c).router c = { s.router c with wait := [], slips := [] } := Tbl.get_put ..
  rw [own]
  exact ⟨rfl, rfl, fun d hd => Tbl.get_put_other _ hd _ _⟩

/-- A write of RGN_FABRIC_CTRL that clears the table is taken. -/
theorem execDetourClear_idle {s : State} {src : Src} {q : Nat} {w : Word} (hq : q < 72) (h7 : s.boot.stage ≠ 7)
    (hw : w.getLsbD 0 = true) (hj : ∀ n, s.slotOfRegion q = some n → s.jobRuns n = false) :
    execDetourClear src q w s = .next ((s.modRgn q (fun x => { x with dead := [], detourNone := false })).writePlain (Reg.rgnFabricCtrl q) w) := by
  unfold execDetourClear
  rw [State.hostWrite_rgnFabricCtrl s src w q hq]
  simp only [State.writeFabric, State.detourClear_none hw hj, if_true]
  rw [State.through_ok (State.regSilent_rgnFabricCtrl hq h7) (.inl h7) (by decide : Kct.ok ≠ Kct.rejected)]

theorem execDetourClear_busy {s : State} {src : Src} {q n : Nat} {w : Word} (hq : q < 72) (h7 : s.boot.stage ≠ 7)
    (hw : w.getLsbD 0 = true) (hs : s.slotOfRegion q = some n) (hj : s.jobRuns n = true) :
    execDetourClear src q w s =
      .next { s with inFlight := s.inFlight ++ [.faultNotice ⟨0x4071, some n, srcSession src, Reg.rgnFabricCtrl q, 15⟩] } := by
  unfold execDetourClear
  rw [State.hostWrite_rgnFabricCtrl s src w q hq]
  simp only [State.writeFabric, State.detourClear_busy hw hs hj, Bool.false_eq_true, if_false]
  rw [State.through_rejected (State.regSilent_rgnFabricCtrl hq h7) h7,
    State.tagged_reject _ _ _ _ _ (by unfold Reg.rgnFabricCtrl regionBase; omega)]

theorem State.writePlain_cases (s : State) (a : Nat) (w : Word) :
    s.writePlain a w = s ∨ ∃ v, s.writePlain a w = s.setReg a v := by
  unfold State.writePlain
  split
  · exact .inr ⟨_, rfl⟩
  · exact .inl rfl

@[simp] theorem State.rgn_writePlain (s : State) (a : Nat) (w : Word) (r : Nat) : (s.writePlain a w).rgn r = s.rgn r := by
  rcases State.writePlain_cases s a w with e | ⟨v, e⟩ <;> rw [e]
  rfl

@[simp] theorem State.inFlight_writePlain (s : State) (a : Nat) (w : Word) : (s.writePlain a w).inFlight = s.inFlight := by
  rcases State.writePlain_cases s a w with e | ⟨v, e⟩ <;> rw [e]
  rfl

theorem State.onlyRegs_writePlain {s t : State} {a : Nat} (w : Word) (h : t.regs = s.regs) : s.onlyRegs (t.writePlain a w) [a] := by
  intro b hb
  have hne : b ≠ a := fun e => hb (by simp [e])
  have ht : t.reg b = s.reg b := by unfold State.reg; rw [h]
  rcases State.writePlain_cases t a w with e | ⟨v, e⟩
  · rw [e, ht]
  · rw [e, State.reg_setReg_other _ hne, ht]

/-- Settles O12. -/
theorem deadRouters : Obligations.DeadRouters := by
  unfold Obligations.DeadRouters
  intro s c link
  dsimp only
  refine ⟨execRouterDead_repeated, ?_, ?_, ?_, ?_, ?_⟩
  · rintro p rfl hm hl
    refine ⟨_, execRouterDead_link hm, ?_⟩
    rw [State.detourEnter_room (s := s.deadTold c _) hl]
    exact ⟨State.deadTold_inFlight s c _, State.rgn_modRgn rfl _ _, State.onlyRgn_modRgn rfl _, rfl⟩
  · rintro rfl hm hl
    refine ⟨_, execRouterDead_router hm, ?_⟩
    rw [State.detourEnter_room (s := (s.deadTold c _).routerLost c) hl]
    obtain ⟨hwait, hslips, hother⟩ := State.router_routerLost (s.deadTold c (field 17 0 c + 0)) c
    exact ⟨congrArg RgnSt.dead (State.rgn_modRgn rfl _ _), State.onlyRgn_modRgn rfl _, hwait, hslips,
      State.not_flitArrive_routerLost _ c, hother⟩
  · rintro p rfl hm hl
    refine ⟨_, execRouterDead_link hm, ?_⟩
    rw [State.detourEnter_full (s := s.deadTold c _) hl]
    exact ⟨congrArg (· ++ _) (State.deadTold_inFlight s c _), (State.raiseRgn_rgn ..).trans (State.rgn_modRgn rfl _ _),
      fun m hm => (State.raiseRgn_rgn ..).trans (State.onlyRgn_modRgn (s := s) (t := s.deadTold c _) rfl _ m hm)⟩
  · intro src q v hq h7 hv hj
    refine ⟨_, execDetourClear_idle hq h7 hv hj, ?_, ?_, ?_, State.onlyRegs_writePlain v rfl⟩
    · rw [State.rgn_writePlain, State.rgn_modRgn rfl]
    · intro m hm
      rw [State.rgn_writePlain]
      exact State.onlyRgn_modRgn rfl _ m hm
    · rw [State.inFlight_writePlain]
      rfl
  · intro src q v n hq h7 hv hs hj
    exact execDetourClear_busy hq h7 hv hs hj

end Sys2Proof.Machine

namespace Sys2Proof.Machine

open Sys2Proof

/-! # The tick: the beat counter and the calendar. -/

/-! ## The clock: what the beat unit alone changes -/

/-- The beat counter, what is due to it, the calendar, and the source with its lock. -/
def State.clock (s : State) : Word × Nat × Nat × Calendar × BeatState × BeatSource × FibreSt × PtpSt :=
  (s.reg Reg.beatCounter, s.beats.hold, s.beats.jump, s.beats.cal, s.beats.state, s.beats.active, s.beats.fibre, s.beats.ptp)

/-- An operation that touches neither the register bank nor the beat unit keeps the clock. -/
theorem clock_of_blur {s t : State} (h : t.blur 0xff7fffef = s.blur 0xff7fffef) : t.clock = s.clock := by
  have hr : t.regs = s.regs := same_of_blur h .regs rfl
  have hb : t.beats = s.beats := same_of_blur h .beats rfl
  simp only [State.clock, State.reg, hr, hb]

theorem ite_clock {c : Prop} [Decidable c] {a b s : State} (ha : a.clock = s.clock) (hb : b.clock = s.clock) :
    (if c then a else b).clock = s.clock := by
  split
  · exact ha
  · exact hb

theorem foldl_clock {β : Type} {g : State → β → State} (h : ∀ s x, (g s x).clock = s.clock) (l : List β) (s : State) :
    (l.foldl g s).clock = s.clock := by
  induction l generalizing s with
  | nil => rfl
  | cons x l ih => exact (ih _).trans (h s x)

theorem State.setReg_clock (s : State) {a : Nat} (h : a ≠ Reg.beatCounter) (w : Word) : (s.setReg a w).clock = s.clock := by
  simp only [State.clock, State.reg_setReg_other s h.symm]
  rfl

theorem State.setRegF_clock (s : State) {a : Nat} (h : a ≠ Reg.beatCounter) (hi lo v : Nat) : (s.setRegF a hi lo v).clock = s.clock :=
  State.setReg_clock s h _

theorem State.satReg_clock (s : State) {a : Nat} (h : a ≠ Reg.beatCounter) (hi lo v : Nat) : (s.satReg a hi lo v).clock = s.clock :=
  State.setReg_clock s h _

theorem State.addReg_clock (s : State) {a : Nat} (h : a ≠ Reg.beatCounter) (hi lo v : Nat) : (s.addReg a hi lo v).clock = s.clock :=
  State.setReg_clock s h _

theorem State.send_clock (s : State) (m : Instr) : (s.send m).clock = s.clock := rfl
theorem State.setPlan_clock (s : State) (n : Nat) (x : PlanSt) : (s.setPlan n x).clock = s.clock := rfl
theorem State.setSlot_clock (s : State) (n : Nat) (x : SlotSt) : (s.setSlot n x).clock = s.clock := rfl
theorem State.setStream_clock (s : State) (n : Nat) (x : StreamSt) : (s.setStream n x).clock = s.clock := rfl
theorem State.setRed_clock (s : State) (n : Nat) (x : RedSt) : (s.setRed n x).clock = s.clock := rfl
theorem State.setObj_clock (s : State) (h : Nat) (o : Obj) : (s.setObj h o).clock = s.clock := rfl
theorem State.clearSched_clock (s : State) (n : Nat) : (s.clearSched n).clock = s.clock := rfl

theorem Tbl.find_filter {α : Type} {p : Nat → Bool} {k : Nat} (h : p k = true) (t : Tbl α) :
    Tbl.find k (t.filter (fun e => p e.1)) = Tbl.find k t := by
  induction t with
  | nil => rfl
  | cons e t ih =>
    obtain ⟨j, v⟩ := e
    by_cases hj : j = k
    · subst hj
      simp [Tbl.find, h]
    · by_cases hp : p j = true <;> simp [Tbl.find, hj, hp, ih]

theorem State.clearRegs_clock (s : State) {p : Nat → Bool} (h : p Reg.beatCounter = false) : (s.clearRegs p).clock = s.clock := by
  have hr : (s.clearRegs p).reg Reg.beatCounter = s.reg Reg.beatCounter := by
    unfold State.reg State.clearRegs
    rw [Tbl.find_filter (p := fun a => !p a) (by simp [h])]
  simp only [State.clock, hr]
  rfl

/-! ## What falls due at a tick keeps the clock -/

theorem State.fire_clock (s : State) (n i close : Nat) (e : BeatEntry) : (s.fire n i close e).clock = s.clock := by
  unfold State.fire
  dsimp only
  have opened : ∀ x, (if BeatEntry.action e = 1 ∨ BeatEntry.action e = 4 then s.setSched n x else s).clock = s.clock :=
    fun x => ite_clock rfl rfl
  have counted : ∀ x, ((if BeatEntry.action e = 1 ∨ BeatEntry.action e = 4 then s.setSched n x else s).addReg Reg.beatEvents 31 0 1).clock =
      s.clock := fun x => (State.addReg_clock _ (by decide) 31 0 1).trans (opened x)
  split
  · exact counted _
  · exact counted _

theorem State.fireEntry_clock (s : State) (n i : Nat) (e : BeatEntry) : (s.fireEntry n i e).clock = s.clock := by
  unfold State.fireEntry
  refine ite_clock rfl ?_
  dsimp only
  have fired : ∀ (l : List Nat) (g : Nat → Nat) (t : State), (l.foldl (fun s k => s.fire n i (g k) e) t).clock = t.clock :=
    fun l g => foldl_clock (fun s k => State.fire_clock s n i _ e) l
  refine ite_clock ?_ ?_
  · rw [fired]; rfl
  · rw [State.satReg_clock _ (by decide), fired]; rfl

theorem State.fireDue_clock (s : State) : s.fireDue.clock = s.clock := by
  unfold State.fireDue
  have fired := foldl_clock (g := fun (s : State) (e : Nat × BeatEntry) =>
      if (s.sched (BeatEntry.slot e.2)).state = .running then s.fireEntry (BeatEntry.slot e.2) e.1 e.2 else s)
    (fun s e => ite_clock (State.fireEntry_clock s _ _ _) rfl) s.beats.table s
  exact ite_clock ((State.satReg_clock _ (by decide) _ _ _).trans fired) fired

theorem State.sendOnce_clock (s : State) (m : Instr) : (s.sendOnce m).clock = s.clock := clock_of_blur (State.sendOnce_blur _ rfl s m)

theorem State.sendOnceIf_clock {c : Prop} [Decidable c] {s t : State} (m : Instr) (h : t.clock = s.clock) :
    (if c then t.sendOnce m else t).clock = s.clock := ite_clock ((State.sendOnce_clock t m).trans h) h

theorem State.beatDue_clock (s : State) : s.beatDue.clock = s.clock := by
  unfold State.beatDue
  refine State.sendOnceIf_clock _ (State.sendOnceIf_clock _ ?_)
  rw [foldl_clock fun s n => clock_of_blur (State.slackDue_blur _ rfl s n),
    foldl_clock fun s n => clock_of_blur (State.closeDue_blur _ rfl s n), State.fireDue_clock,
    foldl_clock fun s n => clock_of_blur (State.originsDue_blur _ rfl s n)]

/-! ## The tick's other parts keep the clock -/

theorem Reg.rgnStarve_ne (r : Nat) : Reg.rgnStarve r ≠ Reg.beatCounter := by unfold Reg.rgnStarve regionBase Reg.beatCounter; omega

theorem State.sampleStarve_clock (s : State) (r : Nat) : (s.sampleStarve r).clock = s.clock := by
  unfold State.sampleStarve
  dsimp only
  refine ite_clock ?_ rfl
  have counted := State.satReg_clock s (Reg.rgnStarve_ne r) 31 0 1
  exact ite_clock (c := (decide (16 ≤ (s.rgn r).run + 1) && !(s.rgn r).asking) = true)
    ((State.satReg_clock _ (Reg.rgnStarve_ne r) 47 32 1).trans counted) counted

theorem State.sampleStarves_clock (s : State) : s.sampleStarves.clock = s.clock :=
  foldl_clock (fun s r => ite_clock (State.sampleStarve_clock s r) rfl) _ s

theorem State.settleParity_clock (s : State) : s.settleParity.clock = s.clock :=
  ite_clock (State.satReg_clock _ (by decide) _ _ _) rfl

theorem State.sendSlack_clock (s : State) (n w k : Nat) : (s.sendSlack n w k).clock = s.clock := by
  unfold State.sendSlack
  rw [State.send_clock, State.satReg_clock s (by unfold Reg.beatSlackTally Reg.beatCounter; omega)]

theorem State.throttleSlack_clock (s : State) (n : Nat) : (s.throttleSlack n).clock = s.clock := by
  unfold State.throttleSlack
  dsimp only
  split
  · exact ite_clock (State.sendSlack_clock s n _ _) rfl
  · rfl

theorem State.throttleAll_clock (s : State) : s.throttleAll.clock = s.clock :=
  foldl_clock (fun s n => ite_clock (State.throttleSlack_clock s n) rfl) _ s

theorem State.powerTick_clock (s : State) (power : Nat) (junction : List (Nat × Nat)) : (s.powerTick power junction).clock = s.clock := by
  have sampled : (s.sampleJunctions junction).clock = s.clock := clock_of_blur (State.sampleJunctions_blur _ rfl s junction)
  unfold State.powerTick
  refine ite_clock sampled ?_
  rw [State.settleParity_clock, State.throttleAll_clock, clock_of_blur (State.paceTick_blur _ rfl _),
    clock_of_blur (State.reevaluate_blur _ rfl _ _), sampled]

/-! ## Loads that end at a tick -/

theorem State.finishCreate_clock (s : State) (a : Alloc) : (s.finishCreate a).clock = s.clock := by
  have made : ∀ t : State, ((t.loseExtents a.dest a.got).setObj a.handle
      { a.obj with place := a.got, tier := a.dest, stamp := (t.loseExtents a.dest a.got).beat }).clock = t.clock :=
    fun t => (State.setObj_clock _ _ _).trans (clock_of_blur (State.loseExtents_blur _ rfl t _ _))
  unfold State.finishCreate State.endCmd
  exact ite_clock ((State.setRegF_clock _ (by decide) _ _ _).trans (made _)) (made _)

theorem State.serve_clock (s : State) (t : Nat) : (s.serve t).clock = s.clock := by
  unfold State.serve
  refine foldl_clock (fun s a => ite_clock ?_ rfl) _ s
  exact ite_clock (State.finishCreate_clock _ _) rfl

theorem State.freeExtents_clock (s : State) (t : Nat) (runs : List (Nat × Nat)) : (s.freeExtents t runs).clock = s.clock :=
  ite_clock rfl (State.serve_clock _ t)

theorem State.freeObj_clock (s : State) (h : Nat) : (s.freeObj h).clock = s.clock := by
  unfold State.freeObj
  split
  · exact ite_clock rfl (State.freeExtents_clock _ _ _)
  · rfl

theorem Reg.yrdQuota_ne (n t : Nat) : Reg.yrdQuota n t ≠ Reg.beatCounter := by unfold Reg.yrdQuota Reg.beatCounter; omega

theorem State.setQuotas_clock (s : State) (n q1 q2 q3 : Nat) : (s.setQuotas n q1 q2 q3).clock = s.clock := by
  unfold State.setQuotas
  rw [State.setRegF_clock _ (Reg.yrdQuota_ne n 3), State.setRegF_clock _ (Reg.yrdQuota_ne n 2), State.setRegF_clock _ (Reg.yrdQuota_ne n 1)]

theorem State.voidManifest_clock (s : State) (n : Nat) : (s.voidManifest n).clock = s.clock := by
  unfold State.voidManifest
  refine (State.setQuotas_clock _ n 0 0 0).trans ?_
  refine (foldl_clock State.freeObj_clock _ _).trans ?_
  exact foldl_clock (g := fun (s : State) a => (s.setAllocs (s.yard.allocs.erase a)).freeExtents a.dest a.got)
    (fun s a => State.freeExtents_clock _ _ _) _ s

theorem State.clearPlans_clock (s : State) (n : Nat) : (s.clearPlans n).clock = s.clock := by
  unfold State.clearPlans
  rw [State.setPlan_clock, State.clearSched_clock, State.setRed_clock, State.setStream_clock,
    clock_of_blur (State.clearStream_blur _ rfl s n)]

theorem State.clearMeasure_clock (s : State) (n : Nat) : (s.clearMeasure n).clock = s.clock :=
  State.clearRegs_clock s (by
    have id : Reg.beatCounter ≠ Reg.imgPartId n := by unfold Reg.beatCounter Reg.imgPartId; omega
    have measure : ¬ Reg.imgMeasure n 0 ≤ Reg.beatCounter := by unfold Reg.beatCounter Reg.imgMeasure; omega
    simp [id, measure])

theorem State.setAdmission_clock (s : State) (x : AdmitSt) : { s with admission := x }.clock = s.clock := rfl
theorem State.setInFlight_clock (s : State) (l : List Instr) : { s with inFlight := l }.clock = s.clock := rfl

theorem State.voidLoad_clock (s : State) : s.voidLoad.clock = s.clock := by
  unfold State.voidLoad
  refine ite_clock ?_ rfl
  dsimp only
  rw [State.setInFlight_clock, State.clearMeasure_clock, State.setSlot_clock, State.clearPlans_clock, State.voidManifest_clock,
    clock_of_blur (State.unloadRect_blur _ rfl s _)]

theorem State.failLoad_clock (s : State) (e : ImgErr) (seq : Nat) : (s.failLoad e seq).clock = s.clock := by
  unfold State.failLoad State.endLoad State.setImgState
  rw [State.setReg_clock _ (by decide), State.setRegF_clock _ (by decide)]
  exact State.voidLoad_clock s

theorem State.sendOpens_clock (s : State) : s.sendOpens.clock = s.clock := by
  unfold State.sendOpens State.setImgState
  exact ite_clock (State.setRegF_clock _ (by decide) _ _ _) rfl

theorem State.pollLoad_clock (s : State) : s.pollLoad.clock = s.clock := by
  unfold State.pollLoad
  exact ite_clock rfl (ite_clock (State.failLoad_clock s _ _) (ite_clock rfl (State.sendOpens_clock s)))

/-! ## The stand's leave at a tick -/

theorem Reg.skyTx_ne (p : Nat) : Reg.skyTx p ≠ Reg.beatCounter := by unfold Reg.skyTx Reg.beatCounter; omega

theorem Reg.skyPortStatus_ne (p : Nat) : Reg.skyPortStatus p ≠ Reg.beatCounter := by unfold Reg.skyPortStatus Reg.beatCounter; omega

theorem State.sendSky_clock (s : State) (p type slots : Nat) (payload : Bytes) (nak : Bool) :
    (s.sendSky p type slots payload nak).clock = s.clock := by
  unfold State.sendSky
  exact ite_clock rfl (State.addReg_clock _ (Reg.skyTx_ne p) 63 0 1)

theorem State.sendCtrl_clock (s : State) (p : Nat) (m : Instr) : (s.sendCtrl p m).clock = s.clock := by
  unfold State.sendCtrl
  exact ite_clock (State.sendSky_clock _ p 4 0 _ _) rfl

theorem State.startLeave_clock (s : State) : s.startLeave.clock = s.clock := by
  unfold State.startLeave
  refine ite_clock rfl ?_
  exact foldl_clock (g := fun (s : State) p => (s.sendCtrl p (.leave (partnerPort p))).modSky p _)
    (fun s p => State.sendCtrl_clock s p _) _ s

theorem State.retireTick_clock (s : State) : s.retireTick.clock = s.clock := ite_clock (State.startLeave_clock s) rfl

theorem State.leaveTick_clock (s : State) : s.leaveTick.clock = s.clock := by
  have left : ∀ (s : State) p, (
      if !(s.sky p).leaving then s
      else if (s.sky p).state = .quiesced then (s.setSky p ((s.sky p).goDown .dark)).clearPeer p
      else if (s.sky p).replay.isEmpty then s.setSky p { s.sky p with state := .quiesced }
      else s).clock = s.clock := fun s p =>
    ite_clock rfl (ite_clock (State.setRegF_clock (s.setSky p _) (Reg.skyPortStatus_ne p) 47 32 0) (ite_clock rfl rfl))
  have all := foldl_clock left (List.range 16) s
  unfold State.leaveTick State.setAdmitState
  refine ite_clock rfl (ite_clock all ?_)
  rw [State.setAdmission_clock, State.setRegF_clock _ (by decide), all]

theorem State.katPoll_clock (s : State) : s.katPoll.clock = s.clock := clock_of_blur (State.katPoll_blur _ rfl s)

theorem State.thermalCycles_clock (s : State) : s.thermalCycles.clock = s.clock :=
  clock_of_blur (State.thermalCycles_blur _ rfl s)

/-- After the counter and the time have advanced, nothing in a tick changes the clock. -/
theorem execTick_clock {m : Samples} {s t : State} (h : execTick m s = .next t) : t.clock = s.advanceBeat.passTime.clock := by
  unfold execTick at h
  cases h
  dsimp only
  rw [State.leaveTick_clock, State.retireTick_clock, State.katPoll_clock, State.pollLoad_clock, State.thermalCycles_clock,
    State.powerTick_clock, clock_of_blur (State.sampleStacks_blur _ rfl _ _), State.sampleStarves_clock]
  exact ite_clock rfl (State.beatDue_clock _)

/-- The calendar advances by the time given (R534). -/
theorem Calendar.advance_ps (c : Calendar) (p : Nat) :
    (c.advance p).sec * 1000000000000 + (c.advance p).ps = c.sec * 1000000000000 + c.ps + p := by
  unfold Calendar.advance
  dsimp only
  omega

/-- The counter has moved: nothing that the tick's length rests on has. -/
theorem State.advanceBeat_tickPeriod (s : State) : s.advanceBeat.tickPeriod = s.tickPeriod := by
  unfold State.advanceBeat
  dsimp only
  split
  · rfl
  · have hn : ∀ (b : BeatSt) w, ((s.setBeat b).setReg Reg.beatCounter w).nominalHz = s.nominalHz := fun b w => by
      unfold State.nominalHz
      rw [State.reg_setReg_other _ (by decide)]
      rfl
    unfold State.tickPeriod
    rw [hn]
    rfl

theorem State.passTime_beats (s : State) : s.passTime.beats = { s.beats with cal := s.beats.cal.advance s.tickPeriod } := by
  unfold State.passTime
  exact (apply_ite State.beats _ _ _).trans (ite_self _)

theorem State.passTime_reg (s : State) (a : Nat) : s.passTime.reg a = s.reg a := by
  unfold State.passTime
  exact (apply_ite (State.reg · a) _ _ _).trans (ite_self _)

theorem State.advanceBeat_held {s : State} (h : 0 < s.beats.hold) : s.advanceBeat = s.setBeat { s.beats with hold := s.beats.hold - 1 } :=
  if_pos h

theorem State.advanceBeat_free {s : State} (h : s.beats.hold = 0) :
    s.advanceBeat = (s.setBeat { s.beats with jump := 0 }).setReg Reg.beatCounter (s.beat + BitVec.ofNat 64 (1 + s.beats.jump)) :=
  if_neg (by omega)

/-- Settles O29: the counter and the calendar move first, and nothing else in a tick changes the clock. -/
theorem tickCounts : Obligations.TickCounts := by
  unfold Obligations.TickCounts
  intro s m
  obtain ⟨t, ht⟩ : ∃ t, exec (.tick m) s = .next t := ⟨_, rfl⟩
  have kept := execTick_clock ht
  simp only [State.clock, Prod.mk.injEq, State.passTime_reg, State.passTime_beats, State.advanceBeat_tickPeriod] at kept
  obtain ⟨hreg, hhold, hjump, hcal, hstate, hactive, hfibre, hptp⟩ := kept
  have waiting : t.pending = s.pending := (exec_held ht).queue
  refine ⟨t, ht, ?_⟩
  rw [hreg, hhold, hjump, hcal, hstate, hactive, hfibre, hptp, Calendar.advance_ps]
  rcases Nat.eq_zero_or_pos s.beats.hold with h | h
  · rw [State.advanceBeat_free h]
    exact ⟨fun _ => ⟨State.reg_setReg _ _ _, rfl, h⟩, fun hp => absurd h (by omega), rfl, rfl, rfl, rfl, rfl, rfl, rfl, rfl, waiting⟩
  · rw [State.advanceBeat_held h]
    exact ⟨fun hz => absurd hz (by omega), fun _ => ⟨rfl, Nat.sub_add_cancel h, rfl⟩, rfl, rfl, rfl, rfl, rfl, rfl, rfl, rfl, waiting⟩

end Sys2Proof.Machine

namespace Sys2Proof.Machine

open Sys2Proof

/-! # KCT requests: the front end, sessions, reads and writes, and register writes. -/

/-! ## Requests on a live port (R483, R488, R489) -/

/-- The port of `f` carries frames in FULL mode, and the access list is off. -/
structure State.Hears (s : State) (f : KctFrame) : Prop where
  link : (s.ethPort f.port).link = true
  full : s.portMode f.port = .full
  unlisted : (s.reg Reg.ethKct).getLsbD 0 = false

/-- The frame is heard and well formed, and its operation is one of R484. -/
structure State.Takes (s : State) (f : KctFrame) : Prop extends s.Hears f where
  magic : f.magic = 0x544B
  check : f.check = crc32c (kctHeader f)
  version : f.version = 1
  length : f.length.toNat = f.payload.length
  short : f.length.toNat ≤ 8192
  known : f.op ∈ kctOps

/-- What the front end makes of a frame other than OPEN once its session is looked for (R483, R488). -/
def State.inSession (s : State) (f : KctFrame) : Front :=
  match s.sessionOf f with
  | none => .done (s.answer none f (replyOf Kct.badSession))
  | some x =>
    if f.op = 0x30 ∨ f.op = 0x31 then .run s
    else match x.high with
      | none => .run s
      | some h =>
        if h < f.seq.toNat then .run s
        else match x.kept.find? (fun g => g.seq == f.seq) with
          | some g => .done (s.sendAnswer none { g with port := f.port, source := f.source, udp := f.udp })
          | none => .done (s.answer none f (replyOf Kct.sequence))

section
variable {s : State} {f : KctFrame}

theorem State.Hears.portLive (h : s.Hears f) : s.portLive f.port = true := by simp [State.portLive, h.link, h.full]

theorem State.Hears.aclOk (h : s.Hears f) : (s.countRx f.port).aclOk f.source = true := by
  have off : bit 0 ((s.countRx f.port).reg Reg.ethKct) = false := by
    unfold State.countRx
    rw [State.reg_addReg_other s (by unfold Reg.ethKct Reg.ethRx; omega)]
    exact h.unlisted
  simp [State.aclOk, off]

theorem State.Hears.full_countRx (h : s.Hears f) : (s.countRx f.port).portMode f.port = .full := by
  rw [← h.full]
  unfold State.portMode State.countRx
  rw [State.reg_addReg_other s (by unfold Reg.ethPortCtrl Reg.ethRx; omega)]
  rfl

theorem State.Hears.served (h : s.Hears f) (op : Byte) :
    opServed ((s.countRx f.port).portMode f.port) (s.countRx f.port).boot.stage op = true := by
  rw [h.full_countRx]
  rfl

theorem State.sessionOf_countRx (s : State) (q : Nat) (f : KctFrame) : (s.countRx q).sessionOf f = s.sessionOf f := rfl

theorem State.sessionOf_eq_some {x : Session} (hx : s.session f.session.toNat = some x) (hs : x.source = f.source) (hu : x.udp = f.udp) :
    s.sessionOf f = some x := by
  simp [State.sessionOf, hx, hs, hu]

theorem State.sessionOf_eq_none (h : ∀ x, s.session f.session.toNat = some x → ¬ (x.source = f.source ∧ x.udp = f.udp)) :
    s.sessionOf f = none := by
  unfold State.sessionOf
  split
  case h_1 x hx => exact if_neg (h x hx)
  case h_2 => rfl

/-- A frame with a wrong magic or check goes no further. -/
theorem kctFront_bad (h : s.Hears f) (bad : f.magic ≠ 0x544B ∨ f.check ≠ crc32c (kctHeader f)) :
    s.kctFront none f = .done ((s.countRx f.port).satReg (Reg.ethDrops f.port) 62 48 1) := by
  unfold State.kctFront
  rw [h.portLive]
  exact if_pos bad

/-- A frame that passes the checks of the port is an OPEN, or is looked up in its session. -/
theorem kctFront_takes (h : s.Takes f) :
    s.kctFront none f = if f.op = 1 then .run (s.countRx f.port) else (s.countRx f.port).inSession f := by
  have bad : ¬ (f.magic ≠ 0x544B ∨ f.check ≠ crc32c (kctHeader f)) := by simp [h.magic, h.check]
  have shape : ¬ (f.version ≠ 1 ∨ 8192 < f.length.toNat ∨ f.length.toNat ≠ f.payload.length ∨ !kctOps.contains f.op) := by
    simp [h.version, h.length, h.length ▸ h.short, h.known]
  unfold State.kctFront
  simp only [h.portLive, Option.isNone_none, if_true, if_neg bad, h.aclOk, if_neg shape, h.served, Bool.not_true, Bool.false_eq_true,
    if_false]
  rfl

theorem kct_unheard (h : (s.ethPort f.port).link = false) : s.kct none f = s := by
  simp [State.kct, State.kctFront, State.portLive, h]

theorem kct_bad (h : s.Hears f) (bad : f.magic ≠ 0x544B ∨ f.check ≠ crc32c (kctHeader f)) :
    s.kct none f = (s.countRx f.port).satReg (Reg.ethDrops f.port) 62 48 1 := by
  unfold State.kct
  rw [kctFront_bad h bad]

theorem kct_open (h : s.Takes f) (hop : f.op = 1) : s.kct none f = (s.countRx f.port).kctOpen none f := by
  simp [State.kct, kctFront_takes h, hop, State.kctRun]

/-- Without its session a request is answered with BAD_SESSION. -/
theorem kct_stranger (h : s.Takes f) (hop : f.op ≠ 1) (hx : s.sessionOf f = none) :
    s.kct none f = (s.countRx f.port).answer none f (replyOf Kct.badSession) := by
  unfold State.kct
  rw [kctFront_takes h, if_neg hop, State.inSession, State.sessionOf_countRx, hx]

/-- The first request of a session is executed. -/
theorem kct_first {x : Session} (h : s.Takes f) (hop : f.op ≠ 1) (hx : s.sessionOf f = some x) (hh : x.high = none) :
    s.kct none f = (s.countRx f.port).kctRun none f := by
  unfold State.kct
  rw [kctFront_takes h, if_neg hop, State.inSession, State.sessionOf_countRx, hx]
  dsimp only
  rw [hh]
  dsimp only
  rw [ite_self]

section
variable {x : Session} {high : Nat}

/-- A request of a known number is not executed: its session keeps its answer, or it is answered with SEQUENCE. -/
theorem kct_repeated (h : s.Takes f) (hop : f.op ≠ 1) (bulk : f.op ≠ 0x30 ∧ f.op ≠ 0x31) (hx : s.sessionOf f = some x)
    (hh : x.high = some high) (old : f.seq.toNat ≤ high) :
    (∀ g, x.kept.find? (fun g => g.seq == f.seq) = some g →
      s.kct none f = (s.countRx f.port).sendAnswer none { g with port := f.port, source := f.source, udp := f.udp }) ∧
    (x.kept.find? (fun g => g.seq == f.seq) = none → s.kct none f = (s.countRx f.port).answer none f (replyOf Kct.sequence)) := by
  have front : s.kctFront none f = (s.countRx f.port).inSession f := by rw [kctFront_takes h, if_neg hop]
  have sess : (s.countRx f.port).sessionOf f = some x := hx
  have single : ¬ (f.op = 0x30 ∨ f.op = 0x31) := not_or.2 bulk
  constructor
  · intro g hg
    simp only [State.kct, front, State.inSession, sess, if_neg single, hh, if_neg (Nat.not_lt.2 old), hg]
  · intro hg
    simp only [State.kct, front, State.inSession, sess, if_neg single, hh, if_neg (Nat.not_lt.2 old), hg]

end

end

/-! ## Answers -/

/-- Beyond the counts of frames of port `q` and what goes out, nothing has changed. -/
def State.IdleOn (s : State) (q : Nat) (t : State) : Prop :=
  s.onlyRegs t [Reg.ethRx q, Reg.ethTx q] ∧ t.eth = s.eth ∧ t = { s with regs := t.regs, out := t.out }

/-- A frame of port `q` counted, and one more register changed. -/
theorem onlyRegs_counted {s x t : State} {q b : Nat} (hx : x.regs = (s.countRx q).regs) (ht : ∀ a, a ≠ b → t.reg a = x.reg a) :
    s.onlyRegs t [Reg.ethRx q, b] := by
  intro a ha
  simp only [List.mem_cons, List.not_mem_nil, or_false, not_or] at ha
  have counted : (s.countRx q).reg a = s.reg a := State.reg_addReg_other s ha.1 63 0 1
  rw [ht a ha.2, ← counted]
  unfold State.reg
  rw [hx]

theorem onlyRegs_sendAnswer {s x : State} {q : Nat} {g : KctFrame} (hx : x.regs = (s.countRx q).regs) (hg : g.port = q) :
    s.onlyRegs (x.sendAnswer none g) [Reg.ethRx q, Reg.ethTx q] :=
  onlyRegs_counted hx fun _ ha => State.reg_addReg_other _ (hg ▸ ha) 63 0 1

theorem onlyRegs_drop (s : State) (q : Nat) :
    s.onlyRegs ((s.countRx q).satReg (Reg.ethDrops q) 62 48 1) [Reg.ethRx q, Reg.ethDrops q] :=
  onlyRegs_counted rfl fun _ ha => State.reg_satReg_other _ ha 62 48 1

theorem regF_drop (s : State) (q : Nat) : ((s.countRx q).satReg (Reg.ethDrops q) 62 48 1).regF (Reg.ethDrops q) 62 48 =
    min (s.regF (Reg.ethDrops q) 62 48 + 1) 0x7FFF := by
  have before : (s.countRx q).regF (Reg.ethDrops q) 62 48 = s.regF (Reg.ethDrops q) 62 48 := by
    unfold State.regF State.countRx
    rw [State.reg_addReg_other s (by unfold Reg.ethDrops Reg.ethRx; omega)]
  rw [State.regF_satReg _ _ (by decide) (by decide), before]
  rfl

theorem sendAnswer_eq (u : State) (g : KctFrame) : u.sendAnswer none g =
    { u with regs := (u.sendAnswer none g).regs, out := (u.sendAnswer none g).out } := rfl

theorem out_sendAnswer (u : State) (g : KctFrame) : (u.sendAnswer none g).out = u.out ++ [.kct g] := rfl

theorem sendAnswer_countRx (s : State) (q : Nat) (g : KctFrame) {t : State} (h : (s.countRx q).sendAnswer none g = t) :
    t = { s with regs := t.regs, out := t.out } := by
  subst h
  exact sendAnswer_eq _ g

theorem sendAnswer_setSession (s : State) (q k : Nat) (x : Session) (g : KctFrame) {t : State}
    (h : ((s.countRx q).setSession k x).sendAnswer none g = t) :
    t = { s with regs := t.regs, out := t.out, eth := { s.eth with sessions := t.eth.sessions } } := by
  subst h
  exact sendAnswer_eq _ g

theorem idleOn_sendAnswer (s : State) {q : Nat} {g : KctFrame} (hg : g.port = q) : s.IdleOn q ((s.countRx q).sendAnswer none g) :=
  ⟨onlyRegs_sendAnswer rfl hg, rfl, sendAnswer_countRx s q g rfl⟩

/-- `g` answers `f` with this status. -/
def Answers (f g : KctFrame) (status : Nat) : Prop :=
  g.status.toNat = status ∧ g.op = f.op ||| 0x80 ∧ g.seq = f.seq ∧ g.source = f.source ∧ g.udp = f.udp ∧ g.port = f.port

theorem kctAnswer_answers (f : KctFrame) (sess : Nat) {r : Reply} (h : r.status < 256) : Answers f (kctAnswer f sess r) r.status :=
  ⟨(BitVec.toNat_ofNat ..).trans (Nat.mod_eq_of_lt h), rfl, rfl, rfl, rfl, rfl⟩

/-- The requests that a host sends one at a time, by their operation (R484). -/
def requests (f : KctFrame) : List (Byte × Instr) :=
  [(0x01#8, .kctOpen f), (0x02#8, .kctClose f), (0x10#8, .kctRead f), (0x11#8, .kctWrite f)]

theorem exec_requests {f : KctFrame} {p : Byte × Instr} (hp : p ∈ requests f) (hop : f.op = p.1) (s : State) :
    exec p.2 s = .next (s.kct none f) ∧ f.op ∈ kctOps ∧ f.op ≠ 0x30 ∧ f.op ≠ 0x31 := by
  simp only [requests, List.mem_cons, List.not_mem_nil, or_false] at hp
  have mine : ofOp f p.1 = true := by simp [ofOp, hop]
  rw [hop]
  rcases hp with rfl | rfl | rfl | rfl <;> exact ⟨congrArg Host.Outcome.next (if_pos mine), by simp [kctOps], by simp, by simp⟩

/-! ## Sessions (R487) -/

theorem foldl_eth {β : Type} {g : State → β → State} (h : ∀ s x, g s x = { s with eth := (g s x).eth }) (l : List β) (s : State) :
    l.foldl g s = { s with eth := (l.foldl g s).eth } := by
  induction l generalizing s with
  | nil => rfl
  | cons x l ih =>
    refine (ih (g s x)).trans ?_
    rw [List.foldl_cons, h s x]

/-- A window once session `k` has ended: closed if it was the session's. -/
def WinSt.drop (k : Nat) (x : WinSt) : WinSt :=
  if x.state ≠ .closed ∧ x.owner = k then { x with state := .closed, owner := 0, since := 0, peer := none } else x

theorem WinSt.drop_drop (k : Nat) (x : WinSt) : (x.drop k).drop k = x.drop k := by
  unfold WinSt.drop
  by_cases h : x.state ≠ .closed ∧ x.owner = k
  · simp [h]
  · simp only [if_neg h]

/-- Window `w` closes when it is session `k`'s. -/
def State.dropWin (k : Nat) (s : State) (w : Nat) : State :=
  if (s.win w).state ≠ .closed ∧ (s.win w).owner = k then s.closeWin w else s

theorem State.dropWin_eth (k : Nat) (s : State) (w : Nat) : s.dropWin k w = { s with eth := (s.dropWin k w).eth } := by
  unfold State.dropWin
  split <;> rfl

theorem State.sessions_dropWin (k : Nat) (s : State) (w : Nat) : (s.dropWin k w).eth.sessions = s.eth.sessions := by
  unfold State.dropWin
  split <;> rfl

theorem State.win_dropWin (k : Nat) (s : State) (w v : Nat) :
    (s.dropWin k w).win v = if v = w then (s.win v).drop k else s.win v := by
  unfold State.dropWin WinSt.drop
  by_cases hv : v = w
  · subst hv
    rw [if_pos rfl]
    split
    · exact Tbl.get_put ..
    · rfl
  · rw [if_neg hv]
    split
    · exact Tbl.get_put_other _ hv _ _
    · rfl

theorem State.sessions_foldl_dropWin (k : Nat) (l : List Nat) (s : State) : (l.foldl (State.dropWin k) s).eth.sessions = s.eth.sessions := by
  induction l generalizing s with
  | nil => rfl
  | cons w l ih => exact (ih _).trans (State.sessions_dropWin k s w)

theorem State.win_foldl_dropWin (k : Nat) (l : List Nat) (s : State) (v : Nat) :
    (l.foldl (State.dropWin k) s).win v = if v ∈ l then (s.win v).drop k else s.win v := by
  induction l generalizing s with
  | nil => simp
  | cons w l ih =>
    rw [List.foldl_cons, ih, State.win_dropWin]
    by_cases hw : v = w <;> by_cases hl : v ∈ l <;> simp [hw, hl, WinSt.drop_drop]

/-- Session `k` has ended, its windows are closed, and the other sessions and windows are as before. -/
def State.Shut (s t : State) (k : Nat) : Prop :=
  t.session k = none ∧ (∀ j, j ≠ k → t.session j = s.session j) ∧
    (∀ w, w < 4 → (s.win w).state ≠ .closed → (s.win w).owner = k → (t.win w).state = .closed) ∧
    (∀ w, w < 4 → (s.win w).owner ≠ k → t.win w = s.win w)

theorem State.closeSession_eq (s : State) (k : Nat) :
    s.closeSession k = (List.range 4).foldl (State.dropWin k) { s with eth := { s.eth with sessions := s.eth.sessions.del k } } := rfl

theorem State.closeSession_eth (s : State) (k : Nat) : s.closeSession k = { s with eth := (s.closeSession k).eth } := by
  rw [State.closeSession_eq]
  exact foldl_eth (State.dropWin_eth k) _ _

theorem State.shut_closeSession (s : State) (k : Nat) : s.Shut (s.closeSession k) k := by
  have sessions : (s.closeSession k).eth.sessions = s.eth.sessions.del k := by
    rw [State.closeSession_eq, State.sessions_foldl_dropWin]
  have wins : ∀ w, w < 4 → (s.closeSession k).win w = (s.win w).drop k := fun w hw => by
    rw [State.closeSession_eq, State.win_foldl_dropWin, if_pos (List.mem_range.2 hw)]
    rfl
  generalize s.closeSession k = t at sessions wins
  refine ⟨?_, fun j hj => ?_, fun w hw ho hk => ?_, fun w hw hk => ?_⟩
  · rw [State.session, sessions, Tbl.find_del]
  · rw [State.session, sessions, Tbl.find_del_other hj, State.session]
  · rw [wins w hw, WinSt.drop, if_pos ⟨ho, hk⟩]
  · rw [wins w hw, WinSt.drop, if_neg (fun h => hk h.2)]

theorem State.closeSession_out (s : State) (k : Nat) : (s.closeSession k).out = s.out := by rw [State.closeSession_eth]

theorem State.closeSession_regs (s : State) (k : Nat) : (s.closeSession k).regs = s.regs := by rw [State.closeSession_eth]

theorem State.Shut.sendAnswer {s u t : State} {k : Nat} (h : u.Shut t k) (hu : u.eth = s.eth) (g : KctFrame) :
    s.Shut (t.sendAnswer none g) k := by
  obtain ⟨gone, others, closed, kept⟩ := h
  simp only [State.session, State.win, hu] at gone others closed kept
  exact ⟨gone, others, closed, kept⟩

/-! ## OPEN, READ and WRITE (R485, R487, R488) -/

theorem kctOpen_free {s : State} {f : KctFrame} {n : Nat} (hn : n < 16) (lower : ∀ j, j < n → s.session (j + 1) ≠ none)
    (free : s.session (n + 1) = none) : s.kctOpen none f =
      (s.setSession (n + 1) ⟨f.source, f.udp, none, []⟩).sendAnswer none (kctAnswer f (n + 1) (replyOf Kct.ok)) := by
  have found : (List.range 16).find? (fun k => (s.session (k + 1)).isNone) = some n :=
    List.find?_range_eq_some.2 ⟨by simp [free], List.mem_range.2 hn,
      fun j hj => by simpa using Option.isSome_iff_ne_none.2 (lower j hj)⟩
  unfold State.kctOpen
  rw [found]

theorem kctOpen_busy {s : State} {f : KctFrame} (full : ∀ j, j < 16 → s.session (j + 1) ≠ none) :
    s.kctOpen none f = s.answer none f (replyOf Kct.busy) := by
  have none_free : (List.range 16).find? (fun k => (s.session (k + 1)).isNone) = none :=
    List.find?_eq_none.2 fun j hj => by simpa using full j (List.mem_range.1 hj)
  unfold State.kctOpen
  rw [none_free]

section
variable {s : State} {f : KctFrame} {x : Session}

/-- An executed request's answer goes out and is kept; the high number rises; all else is as before (R488). -/
theorem finish_of (hx : s.session f.session.toNat = some x) (r : Reply) : s.finish none f r =
    (s.setSession f.session.toNat { x with
      high := some f.seq.toNat, kept := kctAnswer f f.session.toNat r :: x.kept.take 255 }).sendAnswer none (kctAnswer f f.session.toNat r) := by
  unfold State.finish
  rw [hx]
  rfl

theorem kctRead_one_bad (one : f.count = 1) (bare : f.payload = [])
    (h : f.address.toNat % 8 ≠ 0 ∨ inBlock f.address.toNat = false) :
    s.kctRead none f = s.finish none f ⟨Kct.badAddress, f.address.toNat, 0, []⟩ := by
  have reg : s.kctReg f.port f.address.toNat = .error Kct.badAddress := if_pos h
  simp [State.kctRead, one, bare, State.kctReadRegs, reg, State.answerRegs, Kct.badAddress, Kct.notReady]

/-- What the read of one register answers. -/
def Reply.ofRead (s : State) (a : Nat) : Reply := ⟨Kct.ok, a, 1, toLE 8 (s.readReg a).toNat⟩

theorem kctRead_one (full : s.portMode f.port = .full) (one : f.count = 1) (bare : f.payload = []) (aligned : f.address.toNat % 8 = 0)
    (mapped : inBlock f.address.toNat = true) (answers : s.regSilent f.address.toNat = false) :
    s.kctRead none f = (s.afterRead f.address.toNat).finish none f (.ofRead s f.address.toNat) := by
  have reg : s.kctReg f.port f.address.toNat = .ok (s.readReg f.address.toNat, s.afterRead f.address.toNat) := by
    simp [State.kctReg, aligned, mapped, full, answers]
  simp [State.kctRead, one, bare, State.kctReadRegs, reg, State.answerRegs, Kct.ok, Kct.notReady, Reply.ofRead]

theorem leAt_whole {b : Bytes} : leAt b 0 b.length = ofLE b := by simp [leAt, slice]

theorem kctWrite_one (one : f.count = 1) (word : f.payload.length = 8)
    (done : (s.writeReg (.kct f.session.toNat) f.address.toNat (BitVec.ofNat 64 (ofLE f.payload))).2 = 0) : s.kctWrite none f =
      (s.writeReg (.kct f.session.toNat) f.address.toNat (BitVec.ofNat 64 (ofLE f.payload))).1.finish none f
        ⟨Kct.ok, f.address.toNat, 1, []⟩ := by
  have value : leAt f.payload 0 8 = ofLE f.payload := by rw [← word, leAt_whole]
  simp [State.kctWrite, one, word, value, State.kctWriteRegs, done, State.answerRegs, Kct.ok, Kct.notReady]

end

/-- What a read brings with it lies in the free counter, the beat unit and the fault unit. -/
theorem afterRead_same {p : Part} (hp : Nat.testBit 0x4800008 p.index = false) (s : State) (a : Nat) : p.same s (s.afterRead a) :=
  same_of_blur (State.afterRead_blur 0x4800008 rfl s a) p hp

/-- The session of `f` keeps the answer `g` and takes the request's number; no other session or window changes. -/
def State.Keeps (s : State) (f : KctFrame) (x : Session) (t : State) (g : KctFrame) : Prop :=
  t.session f.session.toNat = some { x with high := some f.seq.toNat, kept := g :: x.kept.take 255 } ∧
    (∀ j, j ≠ f.session.toNat → t.session j = s.session j) ∧ t.eth.wins = s.eth.wins

theorem keeps_finish {s u : State} {f : KctFrame} {x : Session} (hu : u.eth = s.eth) (hx : s.session f.session.toNat = some x) (r : Reply) :
    s.Keeps f x (u.finish none f r) (kctAnswer f f.session.toNat r) := by
  have same : ∀ j, u.session j = s.session j := fun j => by unfold State.session; rw [hu]
  rw [finish_of ((same _).trans hx)]
  exact ⟨Tbl.find_put .., fun j hj => (Tbl.find_put_other hj _ _).trans (same j), (congrArg EthSt.wins hu : u.eth.wins = s.eth.wins)⟩

theorem out_finish (s : State) (f : KctFrame) (r : Reply) :
    (s.finish none f r).out = s.out ++ [.kct (kctAnswer f f.session.toNat r)] := by
  unfold State.finish
  refine (out_sendAnswer _ _).trans (congrArg (· ++ _) ?_)
  split
  · rfl
  · rfl

theorem finish_same {p : Part} (hp : p ∉ [Part.out, .regs, .eth]) (s : State) (f : KctFrame) (r : Reply) :
    p.same s (s.finish none f r) :=
  same_of_blur (State.finish_blur (maskOf [.out, .regs, .eth]) rfl s none f r) p (testBit_maskOf hp)

/-! ## Register writes (R9, R10) -/

theorem writeReg_silent {s : State} {src : Src} {a : Nat} {w : Word} (ha : a % 8 = 0) (hb : inBlock a = true)
    (h : s.regSilent a = true) : s.writeReg src a w = (s, Kct.notReady) := by
  rw [State.writeReg_of s src a w ⟨ha, hb⟩]
  exact if_pos h

theorem hostWrite_unreached {s : State} {src : Src} {a : Nat} {w : Word} (h : a % 8 ≠ 0 ∨ inBlock a = false ∨ s.regSilent a = true) :
    s.hostWrite src a w = s := by
  unfold State.hostWrite
  by_cases ha : a % 8 = 0 ∧ inBlock a = true
  · rw [writeReg_silent ha.1 ha.2 (by simpa [ha.1, ha.2] using h)]
  · rw [writeReg_unmapped (by rw [not_and_or] at ha; simpa using ha)]

theorem hostWrite_plain {s : State} {src : Src} {a : Nat} {w : Word} {r : RegRow} (ha : a % 8 = 0) (hb : inBlock a = true)
    (hq : s.regSilent a = false) (hfixed : s.writeFixed src a w = none) (harray : s.writeArray src a w = none) (hclear : isClear a = false)
    (hwork : startsWork a w = false) (hrow : regRow a = some r) : s.hostWrite src a w = s.setReg a (r.write (s.reg a) w) := by
  unfold State.hostWrite
  rw [State.writeReg_of s src a w ⟨ha, hb⟩]
  have plain : s.writeAt src a w = (s.setReg a (r.write (s.reg a) w), Kct.ok) := by
    simp [State.writeAt, hfixed, harray, hclear, State.writePlain, hrow]
  rw [plain, State.through_ok hq (.inr hwork) (by decide : Kct.ok ≠ Kct.rejected)]

theorem RegRow.write_bit (r : RegRow) (old w : Word) {j : Nat} (hj : j < 64) : (r.write old w).getLsbD j =
    if (BitVec.ofNat 64 r.w1c).getLsbD j = true ∧ w.getLsbD j = true then false
    else if (BitVec.ofNat 64 (r.rw ||| r.rws)).getLsbD j = true then w.getLsbD j else old.getLsbD j := by
  unfold RegRow.write
  dsimp only
  simp only [BitVec.getLsbD_and, BitVec.getLsbD_or, BitVec.getLsbD_not, hj, decide_true, Bool.true_and]
  generalize old.getLsbD j = o, w.getLsbD j = v, (BitVec.ofNat 64 (r.rw ||| r.rws)).getLsbD j = m, (BitVec.ofNat 64 r.w1c).getLsbD j = c
  decide +revert

/-! ## Each request and its answer -/

/-- A request that is answered and brings no more. -/
theorem answered_idle {s : State} {m : Instr} {f : KctFrame} {r : Reply} (hr : r.status < 256)
    (run : exec m s = .next ((s.countRx f.port).answer none f r)) :
    ∃ t g, (exec m s = .next t ∧ t.out = s.out ++ [.kct g] ∧ Answers f g r.status) ∧ s.IdleOn f.port t :=
  ⟨_, kctAnswer f f.session.toNat r, ⟨run, rfl, kctAnswer_answers f _ hr⟩, idleOn_sendAnswer s rfl⟩

theorem execKctOpen_of {s : State} {f : KctFrame} (h : s.Takes f) (hop : f.op = 1) :
    exec (.kctOpen f) s = .next ((s.countRx f.port).kctOpen none f) := by
  rw [(exec_requests (p := (0x01, .kctOpen f)) (by simp [requests]) hop s).1, kct_open h hop]

theorem open_answered {s : State} {f : KctFrame} {n : Nat} (h : s.Takes f) (hop : f.op = 1) (hn : n < 16)
    (lower : ∀ j, j < n → s.session (j + 1) ≠ none) (free : s.session (n + 1) = none) :
    ∃ t g, exec (.kctOpen f) s = .next t ∧ t.out = s.out ++ [.kct g] ∧ Answers f g 0 ∧ g.session.toNat = n + 1 ∧
      t.session (n + 1) = some ⟨f.source, f.udp, none, []⟩ ∧ (∀ j, j ≠ n + 1 → t.session j = s.session j) ∧
      s.onlyRegs t [Reg.ethRx f.port, Reg.ethTx f.port] ∧
      t = { s with regs := t.regs, out := t.out, eth := { s.eth with sessions := t.eth.sessions } } := by
  refine ⟨_, kctAnswer f (n + 1) (replyOf Kct.ok), (execKctOpen_of h hop).trans (congrArg _ (kctOpen_free hn lower free)), ?_, ?_, ?_, ?_,
    ?_, ?_, ?_⟩
  · rfl
  · exact kctAnswer_answers f _ (by decide : Kct.ok < 256)
  · exact (BitVec.toNat_ofNat ..).trans (Nat.mod_eq_of_lt (by omega))
  · exact Tbl.find_put ..
  · exact fun _ hj => Tbl.find_put_other hj _ _
  · exact onlyRegs_sendAnswer rfl rfl
  · exact sendAnswer_setSession _ _ _ _ _ rfl

section
variable {s : State} {f : KctFrame} {x : Session}

/-- The first request of its session, of one of the single operations, is executed. -/
theorem exec_first {p : Byte × Instr} (hp : p ∈ requests f) (hop : f.op = p.1) (h1 : f.op ≠ 1) (h : s.Takes f)
    (hx : s.sessionOf f = some x) (hh : x.high = none) : exec p.2 s = .next ((s.countRx f.port).kctRun none f) := by
  rw [(exec_requests hp hop s).1, kct_first h h1 hx hh]

theorem execKctClose_first (h : s.Takes f) (hx : s.sessionOf f = some x) (hh : x.high = none) (hop : f.op = 2) :
    exec (.kctClose f) s = .next ((s.countRx f.port).kctClose none f) := by
  rw [exec_first (p := (0x02, .kctClose f)) (by simp [requests]) hop (by simp [hop]) h hx hh]
  simp [State.kctRun, hop]

theorem execKctRead_first (h : s.Takes f) (hx : s.sessionOf f = some x) (hh : x.high = none) (hop : f.op = 0x10) :
    exec (.kctRead f) s = .next ((s.countRx f.port).kctRead none f) := by
  rw [exec_first (p := (0x10, .kctRead f)) (by simp [requests]) hop (by simp [hop]) h hx hh]
  simp [State.kctRun, hop]

theorem execKctWrite_first (h : s.Takes f) (hx : s.sessionOf f = some x) (hh : x.high = none) (hop : f.op = 0x11) :
    exec (.kctWrite f) s = .next ((s.countRx f.port).kctWrite none f) := by
  rw [exec_first (p := (0x11, .kctWrite f)) (by simp [requests]) hop (by simp [hop]) h hx hh]
  simp [State.kctRun, hop]

theorem close_answered (h : s.Takes f) (hx : s.sessionOf f = some x) (hh : x.high = none) (hop : f.op = 2) :
    ∃ t g, exec (.kctClose f) s = .next t ∧ t.out = s.out ++ [.kct g] ∧ Answers f g 0 ∧ s.Shut t f.session.toNat ∧
      s.onlyRegs t [Reg.ethRx f.port, Reg.ethTx f.port] := by
  refine ⟨_, kctAnswer f f.session.toNat (replyOf Kct.ok), execKctClose_first h hx hh hop, ?_⟩
  unfold State.kctClose
  have out := State.closeSession_out (s.countRx f.port) f.session.toNat
  have regs := State.closeSession_regs (s.countRx f.port) f.session.toNat
  have shut := State.shut_closeSession (s.countRx f.port) f.session.toNat
  generalize (s.countRx f.port).closeSession f.session.toNat = u at out regs shut
  exact ⟨congrArg (· ++ _) out, kctAnswer_answers f _ (by decide : Kct.ok < 256), shut.sendAnswer rfl _, onlyRegs_sendAnswer regs rfl⟩

theorem read_refused (h : s.Takes f) (hx : s.sessionOf f = some x) (hh : x.high = none) (hop : f.op = 0x10)
    (hk : s.session f.session.toNat = some x) (one : f.count = 1) (bare : f.payload = [])
    (outside : f.address.toNat % 8 ≠ 0 ∨ inBlock f.address.toNat = false) :
    ∃ t g, exec (.kctRead f) s = .next t ∧ t.out = s.out ++ [.kct g] ∧ Answers f g 1 ∧ g.count = 0 ∧ g.payload = [] ∧ s.Keeps f x t g := by
  refine ⟨_, _, (execKctRead_first h hx hh hop).trans (congrArg _ (kctRead_one_bad one bare outside)), out_finish .., ?_⟩
  exact ⟨kctAnswer_answers f _ (by decide : Kct.badAddress < 256), rfl, rfl, keeps_finish (u := s.countRx f.port) rfl hk _⟩

theorem read_answered (h : s.Takes f) (hx : s.sessionOf f = some x) (hh : x.high = none) (hop : f.op = 0x10)
    (hk : s.session f.session.toNat = some x) (one : f.count = 1) (bare : f.payload = []) (aligned : f.address.toNat % 8 = 0)
    (mapped : inBlock f.address.toNat = true) (heard : s.regSilent f.address.toNat = false) :
    ∃ t g, exec (.kctRead f) s = .next t ∧ t.out = s.out ++ [.kct g] ∧ Answers f g 0 ∧ g.count = 1 ∧
      g.payload = toLE 8 ((s.countRx f.port).readReg f.address.toNat).toNat ∧ s.Keeps f x t g ∧ t.cells = s.cells ∧ t.yard = s.yard := by
  have value := kctRead_one h.full_countRx one bare aligned mapped heard
  refine ⟨_, kctAnswer f f.session.toNat (.ofRead (s.countRx f.port) f.address.toNat), (execKctRead_first h hx hh hop).trans (congrArg _ value), ?_⟩
  have same : ∀ {p : Part}, Nat.testBit 0x4800008 p.index = false →
      p.same (s.countRx f.port) ((s.countRx f.port).afterRead f.address.toNat) := fun hp => afterRead_same hp _ _
  have out : _ = s.out := same (p := .out) rfl
  have eth : _ = s.eth := same (p := .eth) rfl
  have cells : _ = s.cells := same (p := .cells) rfl
  have yard : _ = s.yard := same (p := .yard) rfl
  generalize (s.countRx f.port).afterRead f.address.toNat = u at out eth cells yard
  refine ⟨(out_finish ..).trans (congrArg (· ++ _) out), kctAnswer_answers f _ (by decide : Kct.ok < 256), rfl, rfl,
    keeps_finish eth hk _, ?_, ?_⟩
  · exact (finish_same (p := .cells) (by decide) u f _).trans cells
  · exact (finish_same (p := .yard) (by decide) u f _).trans yard

theorem write_answered (h : s.Takes f) (hx : s.sessionOf f = some x) (hh : x.high = none) (hop : f.op = 0x11) (one : f.count = 1)
    (word : f.payload.length = 8) {u : Wrote}
    (hu : (s.countRx f.port).writeReg (.kct f.session.toNat) f.address.toNat (BitVec.ofNat 64 (ofLE f.payload)) = u) (done : u.2 = 0) :
    ∃ t g, exec (.kctWrite f) s = .next t ∧ t.out = u.1.out ++ [.kct g] ∧ g.status = 0 ∧ g.count = 1 ∧
      ∀ p, p ∉ [Part.out, .regs, .eth] → p.same u.1 t := by
  subst hu
  exact ⟨_, _, (execKctWrite_first h hx hh hop).trans (congrArg _ (kctWrite_one one word done)), out_finish .., rfl, rfl,
    fun p hp => finish_same hp _ _ _⟩

end

/-- Settles O42: the front end case by case, then each request behind it, the silent session, and the register write. -/
theorem kctRequests : Obligations.KctRequests := by
  unfold Obligations.KctRequests
  intro s
  refine ⟨fun f => ?_, fun k => ⟨fun h => ?_, fun h => ?_⟩, fun src a w => ⟨fun h => ?_, fun r ha hb hq hfixed harray hclear hwork hrow => ?_⟩⟩
  · intro q k a check live good msgs said idle bound
    have hears : live → s.Hears f := fun ⟨_, link, full, acl⟩ => ⟨link, full, acl⟩
    have takes : good → f.op ∈ kctOps → s.Takes f := fun ⟨hl, magic, check, version, length, short⟩ known =>
      ⟨hears hl, magic, check, version, length, short, known⟩
    refine ⟨fun p hp hop => ?_, fun hgood hop => ?_, fun x hgood hx hbound hh => ?_⟩
    · obtain ⟨run, known, single⟩ := exec_requests hp hop s
      refine ⟨fun hlink => ?_, fun hlive bad => ?_, fun hgood hop1 strange => ?_, fun x h hgood hop1 hx hbound hh old => ?_⟩
      · rw [run, kct_unheard hlink]
      · exact ⟨_, run.trans (congrArg _ (kct_bad (hears hlive) bad)), onlyRegs_drop s q, regF_drop s q, rfl⟩
      · have stranger := kct_stranger (takes hgood known) hop1 (State.sessionOf_eq_none strange)
        exact answered_idle (by decide : Kct.badSession < 256) (run.trans (congrArg _ stranger))
      · obtain ⟨kept, gone⟩ := kct_repeated (takes hgood known) hop1 single (State.sessionOf_eq_some hx hbound.1 hbound.2) hh old
        refine ⟨fun hno => ?_, fun g l hkept hseq => ?_⟩
        · have none_kept : x.kept.find? (fun g => g.seq == f.seq) = none := List.find?_eq_none.2 fun g hg => by simpa using hno g hg
          exact answered_idle (by decide : Kct.sequence < 256) (run.trans (congrArg _ (gone none_kept)))
        · have first_kept : x.kept.find? (fun g => g.seq == f.seq) = some g := by simp [hkept, hseq]
          exact ⟨_, run.trans (congrArg _ (kept g first_kept)), idleOn_sendAnswer s rfl, rfl⟩
    · refine ⟨fun n hn lower free => ?_, fun full => ?_⟩
      · obtain ⟨t, g, run, out, answer, opened⟩ := open_answered (takes hgood (by simp [hop, kctOps])) hop hn lower free
        exact ⟨t, g, ⟨run, out, answer⟩, opened⟩
      · have run := execKctOpen_of (takes hgood (by simp [hop, kctOps])) hop
        exact answered_idle (by decide : Kct.busy < 256) (run.trans (congrArg _ (kctOpen_busy full)))
    · have mine := State.sessionOf_eq_some hx hbound.1 hbound.2
      refine ⟨fun hop => ?_, fun hop one bare => ⟨fun outside => ?_, fun aligned mapped heard => ?_⟩, fun hop one word done => ?_⟩
      · obtain ⟨t, g, run, out, answer, shut⟩ := close_answered (takes hgood (by simp [hop, kctOps])) mine hh hop
        exact ⟨t, g, ⟨run, out, answer⟩, shut⟩
      · obtain ⟨t, g, run, out, answer, kept⟩ := read_refused (takes hgood (by simp [hop, kctOps])) mine hh hop hx one bare outside
        exact ⟨t, g, ⟨run, out, answer⟩, kept⟩
      · obtain ⟨t, g, run, out, answer, kept⟩ := read_answered (takes hgood (by simp [hop, kctOps])) mine hh hop hx one bare aligned mapped heard
        exact ⟨t, g, ⟨run, out, answer⟩, kept⟩
      · exact write_answered (takes hgood (by simp [hop, kctOps])) mine hh hop one word rfl done
  · exact congrArg Host.Outcome.next (if_neg (by simp [h]))
  · exact ⟨_, congrArg Host.Outcome.next (if_pos (Option.isSome_iff_ne_none.2 h)), State.shut_closeSession s k, State.closeSession_eth s k⟩
  · exact congrArg Host.Outcome.next (hostWrite_unreached h)
  · refine ⟨_, congrArg Host.Outcome.next (hostWrite_plain ha hb hq hfixed harray hclear hwork hrow), fun b hb => ?_, fun j hj => ?_, rfl⟩
    · exact State.reg_setReg_other s (by simpa using hb) _
    · rw [State.reg_setReg]
      exact RegRow.write_bit r _ w hj

end Sys2Proof.Machine

namespace Sys2Proof.Machine

open Sys2Proof

/-! # Looper commands and the messages of one cell. -/

/-! ## Writing one cell -/

theorem Tbl.put_put {α : Type} (k : Nat) (v w : α) (t : Tbl α) : Tbl.put k v (Tbl.put k w t) = Tbl.put k v t := by
  induction t with
  | nil => simp [Tbl.put]
  | cons e t ih =>
    obtain ⟨j, u⟩ := e
    by_cases below : k < j
    · simp [Tbl.put, below]
    · by_cases same : j = k
      · simp [Tbl.put, same]
      · simp [Tbl.put, below, same, ih]

@[simp] theorem State.setCell_setCell (s : State) (c : Nat) (x y : CellSt) : (s.setCell c x).setCell c y = s.setCell c y := by
  simp [State.setCell, Tbl.put_put]

theorem State.onlyCells_setCell (s : State) (c : Nat) (x : CellSt) : s.onlyCells (s.setCell c x) [c] := fun d hd =>
  State.cell_setCell_other s (by simpa using hd) x

/-- A message to a cell that is not resetting acts on the state that it was taken from. -/
theorem State.toCell_of {s : State} {c : Nat} (h : (s.cell c).resetting = none) (m : Instr) (act : State → State) :
    s.toCell m c act = act (s.deliver m) := by simp [State.toCell, h]

/-- A message that leaves `y` at cell `c` takes itself from those in flight and changes nothing else. -/
theorem becomes_of_setCell {s : State} {i : Instr} {c : Nat} {y : CellSt} (h : exec i s = .next ((s.deliver i).setCell c y)) :
    ∃ t, exec i s = .next t ∧ t.cell c = y ∧ s.onlyCells t [c] ∧ t = { s.deliver i with cells := t.cells } :=
  ⟨_, h, State.cell_setCell .., State.onlyCells_setCell (s.deliver i) c y, rfl⟩

theorem CellSt.clearLanding_eq (x : CellSt) (b : Bool) :
    x.clearLanding b = { x with valid0 := x.valid0 && !b, valid1 := x.valid1 && !b } := by
  cases b <;> simp [CellSt.clearLanding]

/-! ## Settling (R117, R120) -/

/-- The looper runs, each of its steps has completed, and it has no notice to send. -/
structure CellSt.Drained (x : CellSt) : Prop where
  running : x.looper = .running
  occ : x.occ = none
  engines : x.enginesIdle = true
  notice : x.notice = none

section
variable {s : State} {c : Nat} {x : CellSt}

/-- A looper that neither stops nor halts, with no notice to send, stays as it is. -/
theorem State.settle_steady (notice : (s.cell c).notice = none) (fault : (s.cell c).fault = none)
    (stopping : (s.cell c).stopping = none) : s.settle c = s := by
  simp [State.settle, notice, fault, stopping]

/-- A looper with a step that has not completed waits. -/
theorem State.settle_busy (notice : (s.cell c).notice = none) (busy : (s.cell c).occ ≠ none ∨ (s.cell c).enginesIdle = false) :
    s.settle c = s := by
  have waits : (s.cell c).looper ≠ .running ∨ (s.cell c).occ.isSome = true ∨ (!(s.cell c).enginesIdle) = true :=
    .inr (busy.imp Option.isSome_iff_ne_none.2 (by simp [·]))
  simp only [State.settle, notice, if_pos waits]

theorem State.settle_stops (h : x.Drained) {b : Bool} (fault : x.fault = none) (stopping : x.stopping = some b) :
    (s.setCell c x).settle c = s.setCell c (({ x with looper := .idle, stopping := none } : CellSt).clearLanding b) := by
  simp [State.settle, h.running, h.occ, h.engines, h.notice, fault, stopping]

theorem State.settle_halts (h : x.Drained) {code idx extra : Nat} (fault : x.fault = some (code, idx, extra))
    (stopping : x.stopping = none) :
    (s.setCell c x).settle c =
      (s.setCell c { x with looper := .halted, fault := none }).raiseCell code c (idx + extra * 2 ^ 16) := by
  simp [State.settle, h.running, h.occ, h.engines, h.notice, fault, stopping]

/-! ## START, STOP and FENCE (R117) -/

theorem curveRate_flat {d : Bytes} (h : leAt d 0x0C 4 = 0) (n : Nat) : curveRate d n = none := by
  unfold curveRate
  exact if_pos h

theorem execLooperStart_of (h : (s.cell c).resetting = none) (n : Nat) :
    exec (.looperStart c n) s = .next ((s.deliver (.looperStart c n)).startLooper c n) :=
  congrArg Host.Outcome.next (State.toCell_of h _ _)

theorem execLooperStop_of (h : (s.cell c).resetting = none) (b : Bool) :
    exec (.looperStop c b) s = .next ((s.deliver (.looperStop c b)).stopLooper c b) :=
  congrArg Host.Outcome.next (State.toCell_of h _ _)

theorem State.startLooper_idle (idle : (s.cell c).looper = .idle) (n : Nat) :
    ∃ latch, (leAt ((s.cell c).cfg.read 0x20 32) 0x0C 4 = 0 → latch = (s.cell c).latch) ∧
      s.startLooper c n = s.setCell c { s.cell c with
        looper := .running, pc := n, stack := [], epoch := (s.cell c).epoch + 1, execNo := 0, latch := latch } := by
  unfold State.startLooper
  dsimp only
  rw [if_neg (not_not.2 idle)]
  refine ⟨_, fun flat => ?_, rfl⟩
  rw [curveRate_flat flat]

theorem State.startLooper_other (other : (s.cell c).looper ≠ .idle) (n : Nat) : s.startLooper c n = s := if_pos other

theorem State.stopLooper_running (running : (s.cell c).looper = .running) (b : Bool) :
    s.stopLooper c b = (s.setCell c { s.cell c with stopping := some (b || (s.cell c).stopping.getD false) }).settle c := by
  unfold State.stopLooper
  dsimp only
  split
  · rfl
  · next halted => exact absurd (running.symm.trans halted) (by decide)
  · next other _ => exact absurd running other

theorem State.stopLooper_drained (h : (s.cell c).Drained) (fault : (s.cell c).fault = none) (b : Bool) :
    s.stopLooper c b = s.setCell c (({ s.cell c with looper := .idle, stopping := none } : CellSt).clearLanding
      (b || (s.cell c).stopping.getD false)) := by
  rw [State.stopLooper_running h.running]
  exact State.settle_stops (x := { s.cell c with stopping := some (b || (s.cell c).stopping.getD false) })
    ⟨h.running, h.occ, h.engines, h.notice⟩ fault rfl

theorem State.stopLooper_busy (running : (s.cell c).looper = .running) (busy : (s.cell c).occ ≠ none ∨ (s.cell c).enginesIdle = false)
    (notice : (s.cell c).notice = none) (b : Bool) :
    s.stopLooper c b = s.setCell c { s.cell c with stopping := some (b || (s.cell c).stopping.getD false) } := by
  rw [State.stopLooper_running running]
  exact State.settle_busy (by rwa [State.cell_setCell]) (by rwa [State.cell_setCell])

theorem State.stopLooper_halted (halted : (s.cell c).looper = .halted) (b : Bool) :
    s.stopLooper c b = s.setCell c (({ s.cell c with looper := .idle } : CellSt).clearLanding b) := by
  unfold State.stopLooper
  dsimp only
  split
  · next running => exact absurd (running.symm.trans halted) (by decide)
  · rfl
  · next other => exact absurd halted other

theorem State.stopLooper_still (halted : (s.cell c).looper ≠ .halted) (running : (s.cell c).looper ≠ .running) (b : Bool) :
    s.stopLooper c b = s.setCell c ((s.cell c).clearLanding b) := by
  unfold State.stopLooper
  dsimp only
  split
  · contradiction
  · contradiction
  · rfl

theorem State.cell_fenceCell (s : State) (c : Nat) :
    (s.fenceCell c).cell c = { (s.cell c).dropWork s.freeCtr with looper := .snag } := State.cell_modCell ..

theorem State.onlyCells_fenceCell (s : State) (c : Nat) : s.onlyCells (s.fenceCell c) [c] :=
  State.onlyCells_setCell s.fresh.2 c _

/-! ## The latch (R227) -/

/-- The cell once entry `e` of its latch takes `v`. -/
def CellSt.setLatch (x : CellSt) (e : Nat) (v : Word) : CellSt := { x with latch := x.latch.setIfInBounds e v }

theorem CellSt.setLatch_same (x : CellSt) {e : Nat} (h : e < 16) (v : Word) : (x.setLatch e v).latch[e]? = some v := by
  simp [CellSt.setLatch, h]

theorem CellSt.setLatch_other (x : CellSt) {e k : Nat} (h : k ≠ e) (v : Word) : (x.setLatch e v).latch[k]? = x.latch[k]? :=
  Vector.getElem?_setIfInBounds_ne h.symm

theorem execScalarWrite_free (h : (s.cell c).resetting = none) (free : (s.cell c).occ = none) (e : Nat) (v : Word) :
    exec (.scalarWrite c e v) s = .next ((s.deliver (.scalarWrite c e v)).setCell c ((s.cell c).setLatch e v)) := by
  refine congrArg Host.Outcome.next ((State.toCell_of h _ _).trans ?_)
  dsimp only
  split
  · next occ => exact absurd (free.symm.trans occ) (by simp)
  · rfl

theorem CellSt.releaseAt_eq (x : CellSt) (b : Step) :
    x.releaseAt b = { x with valid0 := (x.releaseAt b).valid0, valid1 := (x.releaseAt b).valid1 } := by
  unfold CellSt.releaseAt
  split
  · unfold CellSt.setValid
    split <;> rfl
  · rfl

/-- A SCALAR that waits for the entry completes with the write. -/
theorem execScalarWrite_awaited (h : (s.cell c).resetting = none) {r : Run} (occ : (s.cell c).occ = some r) (scalar : r.bits.cls = 7)
    (fault : (s.cell c).fault = none) (stopping : (s.cell c).stopping = none) (notice : (s.cell c).notice = none) {e : Nat}
    (entry : bits 82 79 r.bits = e) (v : Word) :
    exec (.scalarWrite c e v) s = .next ((s.deliver (.scalarWrite c e v)).setCell c
      (({ (s.cell c).setLatch e v with occ := none } : CellSt).releaseAt r.bits)) := by
  refine congrArg Host.Outcome.next ((State.toCell_of h _ _).trans ?_)
  dsimp only
  split
  · next q running =>
    obtain rfl : r = q := Option.some.inj (occ.symm.trans running)
    rw [if_pos ⟨scalar, entry⟩]
    refine State.settle_steady ?_ ?_ ?_ <;> rw [State.cell_setCell, CellSt.releaseAt_eq] <;> assumption
  · next free => exact absurd (occ.symm.trans free) (by simp)

@[simp] theorem State.fm_modFm (s : State) (f : FmId) (g : FmSt → FmSt) : (s.modFm f g).fm f = g (s.fm f) := State.fm_setFm ..

/-! ## Messages between cells, foremen and the ranger (R32, R118, R123) -/

theorem done_or_bit (d : BitVec 64) (p : Nat) {k : Nat} (hk : k < 64) :
    (d ||| BitVec.ofNat 64 (2 ^ p)).getLsbD k = (d.getLsbD k || k == p) := by
  rw [BitVec.getLsbD_or, BitVec.getLsbD_ofNat, Nat.testBit_two_pow]
  simp [hk, Bool.beq_eq_decide_eq, eq_comm]

theorem wfFm_fmOf {c : Nat} (h : wfCell c = true) : wfFm (fmOf c) = true := by
  simp only [wfCell, Bool.and_eq_true, decide_eq_true_eq] at h
  obtain ⟨hrow, hcol⟩ := h
  unfold wfFm fmOf regionOf rowOf colOf
  rw [Bool.and_eq_true, decide_eq_true_eq, decide_eq_true_eq]
  dsimp only
  omega

/-! ## Gate timeouts (R109) -/

/-- Cell `c` waits at the gate that a timeout tells by `k`: 1 the landing gate, 2 the window gate. -/
def State.WaitsAt (s : State) (c k : Nat) : Prop :=
  s.heldBy c ((s.cell c).stepAt (s.cell c).pc) = some 3 ∧ k = 1 ∨ s.heldBy c ((s.cell c).stepAt (s.cell c).pc) = some 5 ∧ k = 2

theorem execGateTimeout_held {k : Nat} (h : (s.cell c).Drained) (fault : (s.cell c).fault = none) (stopping : (s.cell c).stopping = none)
    (waits : s.WaitsAt c k) :
    exec (.gateTimeout c) s = .next ((s.setCell c ((s.cell c).withFault 0x1004 (s.cell c).pc k)).settle c) := by
  refine congrArg Host.Outcome.next ?_
  rcases waits with ⟨held, rfl⟩ | ⟨held, rfl⟩ <;> simp [h.running, h.occ, fault, stopping, held]

theorem CellSt.withFault_none {x : CellSt} (h : x.fault = none) (code idx extra : Nat) :
    x.withFault code idx extra = { x with fault := some (code, idx, extra) } := by simp [CellSt.withFault, h]

theorem execGateTimeout_halts {k : Nat} (h : (s.cell c).Drained) (fault : (s.cell c).fault = none) (stopping : (s.cell c).stopping = none)
    (waits : s.WaitsAt c k) :
    exec (.gateTimeout c) s =
      .next ((s.setCell c { s.cell c with looper := .halted }).raiseCell 0x1004 c ((s.cell c).pc + k * 2 ^ 16)) := by
  have cleared : ({ s.cell c with looper := .halted, fault := none } : CellSt) = { s.cell c with looper := .halted } := by simp [fault]
  rw [execGateTimeout_held h fault stopping waits, CellSt.withFault_none fault, ← cleared]
  exact congrArg Host.Outcome.next (State.settle_halts (x := { s.cell c with fault := some (0x1004, (s.cell c).pc, k) })
    ⟨h.running, h.occ, h.engines, h.notice⟩ rfl stopping)

end

/-- Settles O9, message by message. -/
theorem looperCommands : Obligations.LooperCommands := by
  unfold Obligations.LooperCommands
  intro s c hc h
  dsimp only
  have delivered : ∀ i, ((s.deliver i).cell c).resetting = none := fun _ => h
  refine ⟨fun n idle flat => ?_, fun n idle => ?_, fun n other => ?_, fun b running occ engines fault notice => ?_,
    fun b running busy notice => ?_, fun b halted => ?_, fun b halted running => ?_, ?_, fun e v he occ => ?_,
    fun r v occ scalar running fault stopping notice => ?_, ?_, fun k => ?_, ?_, fun k v hk => ?_,
    fun k running fault stopping occ engines notice waits => ?_⟩
  · obtain ⟨latch, kept, start⟩ := State.startLooper_idle (s := s.deliver (.looperStart c n)) idle n
    exact becomes_of_setCell ((execLooperStart_of h n).trans (by rw [start, kept flat]; rfl))
  · obtain ⟨latch, -, start⟩ := State.startLooper_idle (s := s.deliver (.looperStart c n)) idle n
    obtain ⟨t, run, cell, only, -⟩ := becomes_of_setCell ((execLooperStart_of h n).trans (congrArg _ start))
    exact ⟨t, run, only, by rw [cell]; rfl⟩
  · exact (execLooperStart_of h n).trans (congrArg _ (State.startLooper_other (s := s.deliver (.looperStart c n)) other n))
  · have stop := State.stopLooper_drained (s := s.deliver (.looperStop c b)) ⟨running, occ, engines, notice⟩ fault b
    exact becomes_of_setCell ((execLooperStop_of h b).trans (congrArg _ (stop.trans (congrArg _ (CellSt.clearLanding_eq ..)))))
  · exact becomes_of_setCell ((execLooperStop_of h b).trans (congrArg _ (State.stopLooper_busy (s := s.deliver _) running busy notice b)))
  · have stop := State.stopLooper_halted (s := s.deliver (.looperStop c b)) halted b
    exact becomes_of_setCell ((execLooperStop_of h b).trans (congrArg _ (stop.trans (congrArg _ (CellSt.clearLanding_eq _ b)))))
  · have stop := State.stopLooper_still (s := s.deliver (.looperStop c b)) halted running b
    exact becomes_of_setCell ((execLooperStop_of h b).trans (congrArg _ (stop.trans (congrArg _ (CellSt.clearLanding_eq _ b)))))
  · refine ⟨_, congrArg Host.Outcome.next (State.toCell_of h (.fence c) _), ?_⟩
    rw [State.cell_fenceCell]
    exact ⟨rfl, rfl, rfl, rfl, rfl, rfl, rfl, rfl, rfl, rfl, State.onlyCells_fenceCell _ c, rfl⟩
  · obtain ⟨t, run, cell, only, frame⟩ := becomes_of_setCell (execScalarWrite_free h occ e v)
    refine ⟨t, run, ?_, fun k hk => ?_, ?_, only, frame⟩ <;> rw [cell]
    · exact CellSt.setLatch_same _ he v
    · exact CellSt.setLatch_other _ hk v
    · rfl
  · obtain ⟨t, run, cell, only, -⟩ := becomes_of_setCell
      (execScalarWrite_awaited h occ scalar fault stopping notice (bits_extract 82 79 _) v)
    have latch : (t.cell c).latch = ((s.cell c).setLatch (r.bits.extractLsb' 79 4).toNat v).latch := by rw [cell, CellSt.releaseAt_eq]
    refine ⟨t, run, ?_, ?_, ?_, only⟩
    · rw [latch]
      exact CellSt.setLatch_same _ (r.bits.extractLsb' 79 4).isLt v
    · rw [cell, CellSt.releaseAt_eq]
    · rw [latch, cell]
      rfl
  · refine ⟨_, rfl, ?_, State.onlyFm_setFm (wfFm_fmOf hc) _ (State.onlyFm_refl s _), fun k hk => ?_, rfl⟩
    · exact (State.fm_setFm ..).trans (by rw [State.fm_modFm]; rfl)
    · rw [State.fm_modFm]
      exact done_or_bit _ _ hk
  · exact congrArg Host.Outcome.next (State.toCell_of h (.tallyRead c k) _)
  · exact becomes_of_setCell (congrArg Host.Outcome.next (State.toCell_of h (.tallyClear c) _))
  · refine ⟨_, rfl, Tbl.get_put .., fun d j hj hne => Tbl.get_put_other _ (fun same => hne ?_) _ _, rfl⟩
    rw [Prod.mk.injEq]
    omega
  · exact ⟨_, execGateTimeout_halts ⟨running, occ, engines, notice⟩ fault stopping waits, State.cell_setCell ..,
      State.onlyCells_setCell s c _, rfl⟩

end Sys2Proof.Machine

namespace Sys2Proof.Machine

open Sys2Proof

/-! # Barriers: entries at the hubs, releases, window flags and numerics notices. -/

/-! ## Hubs and participants (R280 to R282) -/

/-- The hub with one more entrant and its word. -/
def HubSt.join (h : HubSt) (e : Entrant) (w : BitVec 32) : HubSt :=
  { h with entered := h.entered ++ [e], word := mergeWords h.word w }

theorem HubSt.enter_new {h : HubSt} {e : Entrant} (opened : h.closed = false) (new : e ∉ h.entered) (w : BitVec 32) :
    h.enter e w = h.join e w := by
  simp [HubSt.enter, HubSt.join, opened, new]

/-- All of a list have entered once `e` joins, where each but `e` has entered before. -/
theorem HubSt.all_join {α : Type} (h : HubSt) (e : Entrant) (w : BitVec 32) (g : α → Entrant) (l : List α) :
    (l.all fun d => (h.join e w).entered.contains (g d)) = true ↔ ∀ d ∈ l, g d = e ∨ g d ∈ h.entered := by
  simp [HubSt.join, or_comm]

theorem State.barrierCells_of_parts {s : State} {n : Nat} {l : List Nat} (h : (s.slot n).parts = some l) : s.barrierCells n = l := by
  unfold State.barrierCells
  rw [h]

/-- The slot's participants fixed as of now (R281). -/
def State.fixParts (s : State) (n : Nat) : State := s.modSlot n (fun x => { x with parts := some (s.barrierCells n) })

section
variable (s : State) (n : Nat)

@[simp] theorem State.slot_fixParts : (s.fixParts n).slot n = { s.slot n with parts := some (s.barrierCells n) } := State.slot_setSlot ..

theorem State.onlySlot_setSlot (x : SlotSt) : s.onlySlot (s.setSlot n x) n := fun _ h => State.slot_setSlot_other s h x

@[simp] theorem State.barrierCells_fixParts : (s.fixParts n).barrierCells n = s.barrierCells n := by
  refine State.barrierCells_of_parts ?_
  rw [State.slot_fixParts]

@[simp] theorem State.blockParts_fixParts (f : FmId) : (s.fixParts n).blockParts n f = s.blockParts n f := by
  simp [State.blockParts]

@[simp] theorem State.partBlocks_fixParts (r : Nat) : (s.fixParts n).partBlocks n r = s.partBlocks n r := by
  simp [State.partBlocks]

@[simp] theorem State.owedTiles_fixParts (r : Nat) : (s.fixParts n).owedTiles n r = s.owedTiles n r := by
  unfold State.owedTiles State.slotCells
  rw [State.slot_fixParts]
  rfl

end

/-! ## Numerics words (R191) -/

theorem regF_regMerge (s : State) (a : Nat) (w : BitVec 32) :
    (regMerge s a w).regF a 31 0 = (mergeWords (BitVec.ofNat 32 (s.regF a 31 0)) w).toNat := by
  unfold regMerge
  rw [State.regF_setRegF s a (by omega) (by omega)]
  exact Nat.mod_eq_of_lt (BitVec.isLt _)

theorem onlyRegs_regMerge (s : State) (a : Nat) (w : BitVec 32) : s.onlyRegs (regMerge s a w) [a] := fun b hb =>
  State.reg_setRegF_other s (by simpa using hb) _ _ _

theorem regF_regMerge_other (s : State) {a b : Nat} (h : b ≠ a) (w : BitVec 32) (hi lo : Nat) :
    (regMerge s a w).regF b hi lo = s.regF b hi lo := State.regF_setRegF_other s h ..

theorem Reg.fmnNumerics_ne_rgnNumerics (c : Nat) : Reg.fmnNumerics (fmOf c) ≠ Reg.rgnNumerics (regionOf c) := by
  unfold Reg.fmnNumerics Reg.rgnNumerics fmBase fmOf
  dsimp only
  omega

section
variable (s : State) (a : Nat) (w : BitVec 32)

theorem regMerge_eq : ∃ v, regMerge s a w = s.setReg a v := ⟨_, rfl⟩

@[simp] theorem regMerge_inFlight : (regMerge s a w).inFlight = s.inFlight := State.setRegF_inFlight ..
@[simp] theorem regMerge_cells : (regMerge s a w).cells = s.cells := State.setRegF_cells ..
@[simp] theorem regMerge_fm (f : FmId) : (regMerge s a w).fm f = s.fm f := State.setRegF_fm ..
@[simp] theorem regMerge_rgn (r : Nat) : (regMerge s a w).rgn r = s.rgn r := State.setRegF_rgn ..
@[simp] theorem regMerge_slot (n : Nat) : (regMerge s a w).slot n = s.slot n := State.setRegF_slot ..

@[simp] theorem regMerge_blockParts (n : Nat) (f : FmId) : (regMerge s a w).blockParts n f = s.blockParts n f := by
  obtain ⟨v, e⟩ := regMerge_eq s a w
  rw [e]
  rfl

@[simp] theorem regMerge_partBlocks (n r : Nat) : (regMerge s a w).partBlocks n r = s.partBlocks n r := by
  obtain ⟨v, e⟩ := regMerge_eq s a w
  rw [e]
  rfl

@[simp] theorem regMerge_owedTiles (n r : Nat) : (regMerge s a w).owedTiles n r = s.owedTiles n r := by
  obtain ⟨v, e⟩ := regMerge_eq s a w
  rw [e]
  rfl

end

/-! ## A cell at its foreman -/

section
variable {s : State} {n c : Nat} {w : BitVec 32}

theorem State.enterBlock_waits (opened : (s.fm (fmOf c)).hub.closed = false) (new : .cell c ∉ (s.fm (fmOf c)).hub.entered)
    (missing : ∃ d ∈ s.blockParts n (fmOf c), d ≠ c ∧ .cell d ∉ (s.fm (fmOf c)).hub.entered) :
    s.enterBlock n c w =
      (regMerge s (Reg.fmnNumerics (fmOf c)) w).modFm (fmOf c) (fun x => { x with hub := (s.fm (fmOf c)).hub.join (.cell c) w }) := by
  obtain ⟨d, part, other, absent⟩ := missing
  unfold State.enterBlock
  dsimp only
  rw [regMerge_fm, regMerge_blockParts, HubSt.enter_new opened new, if_neg]
  rw [HubSt.all_join]
  intro all
  exact (all d part).elim (fun same => other (Entrant.cell.inj same)) absent

theorem State.enterBlock_last (opened : (s.fm (fmOf c)).hub.closed = false) (new : .cell c ∉ (s.fm (fmOf c)).hub.entered)
    (all : ∀ d ∈ s.blockParts n (fmOf c), d = c ∨ .cell d ∈ (s.fm (fmOf c)).hub.entered) :
    s.enterBlock n c w = ((regMerge s (Reg.fmnNumerics (fmOf c)) w).modFm (fmOf c) (fun x =>
      { x with hub := ((s.fm (fmOf c)).hub.join (.cell c) w).close })).send
        (.barrierEnter (.block (fmOf c)) n (mergeWords (s.fm (fmOf c)).hub.word w)) := by
  unfold State.enterBlock
  dsimp only
  rw [regMerge_fm, regMerge_blockParts, HubSt.enter_new opened new, if_pos]
  · rfl
  · exact (HubSt.all_join ..).2 fun d part => (all d part).imp_left (congrArg _)

end

/-! ## A block at its region station -/

@[simp] theorem State.setRgn_setRgn (s : State) (r : Nat) (x y : RgnSt) : (s.setRgn r x).setRgn r y = s.setRgn r y := by
  simp [State.setRgn, Tbl.put_put]

/-- A station that owes tiles, or does not yet know what it owes, sends nothing. -/
theorem State.tryForward_waits {s : State} {n r : Nat} (h : (s.rgn r).hub.owed ≠ some []) : s.tryForward n r = s := by
  unfold State.tryForward
  dsimp only
  split
  · contradiction
  · rfl

/-- The station once it has sent its entry upward: its word has gone with it. -/
def RgnSt.forwarded (x : RgnSt) : RgnSt := { x with hub := { x.hub.close with word := x.word }, word := 0 }

theorem State.tryForward_paid (s : State) (n r : Nat) {x : RgnSt} (h : x.hub.owed = some []) :
    (s.setRgn r x).tryForward n r = (s.setRgn r x.forwarded).send (.barrierEnter (.region r) n x.word) := by
  unfold State.tryForward
  dsimp only
  rw [State.rgn_setRgn, h, State.setRgn_setRgn]
  rfl

section
variable {s : State} {n : Nat} {f : FmId} {w : BitVec 32}

/-- The station of region `r` with the word `w` merged and the hub `h`. -/
def RgnSt.gathers (x : RgnSt) (w : BitVec 32) (h : HubSt) : RgnSt := { x with word := mergeWords x.word w, hub := h }

theorem State.enterRegion_waits (opened : (s.rgn f.region).hub.closed = false) (unowed : (s.rgn f.region).hub.owed = none)
    (new : .block f ∉ (s.rgn f.region).hub.entered)
    (missing : ∃ g ∈ s.partBlocks n f.region, g ≠ f ∧ .block g ∉ (s.rgn f.region).hub.entered) :
    s.enterRegion n f w = (regMerge s (Reg.rgnNumerics f.region) w).setRgn f.region
      ((s.rgn f.region).gathers w ((s.rgn f.region).hub.join (.block f) w)) := by
  obtain ⟨g, part, other, absent⟩ := missing
  have not_all : ¬ ((s.partBlocks n f.region).all fun g => ((s.rgn f.region).hub.join (.block f) w).entered.contains (.block g)) = true :=
    fun all => ((HubSt.all_join ..).1 all g part).elim (fun same => other (Entrant.block.inj same)) absent
  unfold State.enterRegion
  dsimp only
  rw [regMerge_rgn, regMerge_partBlocks, HubSt.enter_new opened new, if_neg (by simp only [not_all, Bool.and_false]; trivial)]
  refine State.tryForward_waits ?_
  simp [HubSt.join, unowed]

theorem State.enterRegion_last (opened : (s.rgn f.region).hub.closed = false) (unowed : (s.rgn f.region).hub.owed = none)
    (new : .block f ∉ (s.rgn f.region).hub.entered)
    (all : ∀ g ∈ s.partBlocks n f.region, g = f ∨ .block g ∈ (s.rgn f.region).hub.entered) :
    s.enterRegion n f w = ((regMerge s (Reg.rgnNumerics f.region) w).setRgn f.region ((s.rgn f.region).gathers w
      { (s.rgn f.region).hub.join (.block f) w with owed := some (s.owedTiles n f.region) })).tryForward n f.region := by
  have whole := (HubSt.all_join (s.rgn f.region).hub (.block f) w .block (s.partBlocks n f.region)).2 fun g part =>
    (all g part).imp_left (congrArg _)
  have none_owed : ((s.rgn f.region).hub.join (.block f) w).owed.isNone = true := by simp [HubSt.join, unowed]
  unfold State.enterRegion
  dsimp only
  rw [regMerge_rgn, regMerge_partBlocks, HubSt.enter_new opened new, if_pos (by rw [none_owed, whole]; rfl), regMerge_owedTiles]
  rfl

/-- A region that owes no tiles sends its entry with its last block. -/
theorem State.enterRegion_forwards (opened : (s.rgn f.region).hub.closed = false) (unowed : (s.rgn f.region).hub.owed = none)
    (new : .block f ∉ (s.rgn f.region).hub.entered)
    (all : ∀ g ∈ s.partBlocks n f.region, g = f ∨ .block g ∈ (s.rgn f.region).hub.entered) (paid : s.owedTiles n f.region = []) :
    s.enterRegion n f w = ((regMerge s (Reg.rgnNumerics f.region) w).setRgn f.region ((s.rgn f.region).gathers w
      { (s.rgn f.region).hub.join (.block f) w with owed := some [] }).forwarded).send
        (.barrierEnter (.region f.region) n (mergeWords (s.rgn f.region).word w)) := by
  rw [State.enterRegion_last opened unowed new all, paid]
  exact State.tryForward_paid _ n f.region rfl

/-- A region that owes tiles keeps them in its hub. -/
theorem State.enterRegion_owes (opened : (s.rgn f.region).hub.closed = false) (unowed : (s.rgn f.region).hub.owed = none)
    (new : .block f ∉ (s.rgn f.region).hub.entered)
    (all : ∀ g ∈ s.partBlocks n f.region, g = f ∨ .block g ∈ (s.rgn f.region).hub.entered) (owes : s.owedTiles n f.region ≠ []) :
    s.enterRegion n f w = (regMerge s (Reg.rgnNumerics f.region) w).setRgn f.region ((s.rgn f.region).gathers w
      { (s.rgn f.region).hub.join (.block f) w with owed := some (s.owedTiles n f.region) }) := by
  rw [State.enterRegion_last opened unowed new all]
  exact State.tryForward_waits (by rw [State.rgn_setRgn]; simpa [RgnSt.gathers] using owes)

end

/-! ## A region at the module root -/

section
variable {s : State} {n r : Nat} {w : BitVec 32}

@[simp] theorem State.setSlot_setSlot (s : State) (n : Nat) (x y : SlotSt) : (s.setSlot n x).setSlot n y = s.setSlot n y := by
  simp [State.setSlot, Tbl.put_put]

/-- The regions with participants depend on the slot's rectangle and the participants alone. -/
theorem State.partRegions_setSlot {x : SlotSt} {l : List Nat} (parts : x.parts = some l) (same : s.barrierCells n = l)
    (rect : x.rect = (s.slot n).rect) : (s.setSlot n x).partRegions n = s.partRegions n := by
  have cells : (s.setSlot n x).barrierCells n = l := State.barrierCells_of_parts (by rw [State.slot_setSlot, parts])
  unfold State.partRegions
  rw [cells, same, State.slot_setSlot, rect]

@[simp] theorem State.partRegions_fixParts (s : State) (n : Nat) : (s.fixParts n).partRegions n = s.partRegions n :=
  State.partRegions_setSlot rfl rfl rfl

/-- The slot with region `r` entered at its root. -/
def SlotSt.rootJoin (x : SlotSt) (r : Nat) (w : BitVec 32) : SlotSt := { x with root := x.root.join (.region r) w }

theorem State.enterRoot_of (opened : (s.slot n).root.closed = false) (new : .region r ∉ (s.slot n).root.entered)
    (alone : (s.slot n).sync = []) : s.enterRoot n r w = (s.setSlot n ((s.slot n).rootJoin r w)).tryRelease n := by
  unfold State.enterRoot
  simp only [HubSt.enter_new opened new, SlotSt.rootJoin, alone, List.foldl_nil, ite_self]

/-- All the regions with participants have entered at the root of a slot without a sync group. -/
def State.RootFull (s : State) (n : Nat) : Prop := ∀ q ∈ s.partRegions n, .region q ∈ (s.slot n).root.entered

theorem State.tryRelease_waits (missing : ¬ s.RootFull n) : s.tryRelease n = s := by
  have not_all : ((s.partRegions n).all fun q => (s.slot n).root.entered.contains (.region q)) = false := by
    simpa [State.RootFull] using missing
  exact if_pos (by simp only [not_all, Bool.false_and, Bool.not_false, Bool.or_true, Bool.true_or])

theorem State.tryRelease_full (whole : (s.slot n).root.failed = false) (full : s.RootFull n) (some_in : (s.slot n).root.entered ≠ [])
    (alone : (s.slot n).sync = []) :
    s.tryRelease n = (s.setSlot n { s.slot n with
      root := .reset, parts := none, releases := (s.slot n).releases + 1, summary := some (s.slot n).root.word }).sendAll
        (((s.slot n).rect.regions.flatMap (fun q => [2 * q, 2 * q + 1])).map (.barrierRelease n)) := by
  exact if_neg (by simp only [State.RootFull] at full; simpa [whole, some_in, alone] using full)

end

end Sys2Proof.Machine

namespace Sys2Proof.Machine

open Sys2Proof

/-! # Barrier releases at a clock half. -/

/-! ## A table whose entries change in place -/

theorem Tbl.find_map {α β : Type} (g : Nat → α → β) (k : Nat) (t : Tbl α) :
    Tbl.find k (t.map fun e => (e.1, g e.1 e.2)) = (Tbl.find k t).map (g k) := by
  induction t with
  | nil => rfl
  | cons e t ih =>
    obtain ⟨j, v⟩ := e
    by_cases same : j = k
    · simp [Tbl.find, same]
    · simp [Tbl.find, same, ih]

/-! ## Cells and foremen that no table lists are not configured -/

theorem State.freshCell_configured (s : State) (c : Nat) : (s.freshCell c).configured = false := by
  unfold State.freshCell
  dsimp only
  split <;> split
  · rfl
  · split <;> rfl
  · rfl
  · dsimp only [CellSt.slept]
    split <;> rfl

theorem State.freshFm_configured (s : State) (f : FmId) : (s.freshFm f).configured = false := by
  unfold State.freshFm
  split <;> rfl

/-! ## A release at one cell and at one foreman (R128, R282) -/

/-- Cell `c` after a release at `half`: a configured cell of the half that is no snag and not resetting has one more pass. -/
def CellSt.atRelease (half c : Nat) (x : CellSt) : CellSt :=
  if halfOf c = half && x.configured && x.looper != .snag && x.resetting.isNone then
    if x.testing.isSome then { x with heldPass := x.heldPass + 1 } else { x with passed := x.passed + 1 }
  else x

theorem CellSt.atRelease_passes {half c : Nat} {x : CellSt} (half_of : halfOf c = half) (configured : x.configured = true)
    (looper : x.looper ≠ .snag) (resetting : x.resetting = none) (testing : x.testing = none) :
    x.atRelease half c = { x with passed := x.passed + 1 } := by
  simp [CellSt.atRelease, half_of, configured, looper, resetting, testing]

theorem CellSt.atRelease_stays {half c : Nat} {x : CellSt} (h : halfOf c ≠ half ∨ x.looper = .snag ∨ x.configured = false) :
    x.atRelease half c = x := by
  refine if_neg ?_
  rcases h with h | h | h <;> simp [h]

/-- Foreman `f` after release `n` at `half`. -/
def FmSt.atRelease (half n : Nat) (f : FmId) (x : FmSt) : FmSt :=
  if fmHalf f = half && x.configured then { x.queueRelease n with hub := x.hub.released } else x

theorem FmSt.atRelease_passes {half n : Nat} {f : FmId} {x : FmSt} (half_of : fmHalf f = half) (configured : x.configured = true) :
    x.atRelease half n f = { x.queueRelease n with hub := x.hub.released } := by simp [FmSt.atRelease, half_of, configured]

theorem FmSt.queueRelease_configured (x : FmSt) (n : Nat) : (x.queueRelease n).configured = x.configured := by
  unfold FmSt.queueRelease
  split
  · rfl
  · split <;> rfl

theorem FmSt.atRelease_configured (half n : Nat) (f : FmId) (x : FmSt) : (x.atRelease half n f).configured = x.configured := by
  unfold FmSt.atRelease
  split
  · exact FmSt.queueRelease_configured x n
  · rfl

theorem HubSt.released_closed {h : HubSt} (closed : h.closed = true) : h.released = .reset := if_pos closed

/-! ## The parts of a release -/

/-- The passes of the cells of `half` and the RELEASE events of its foremen. -/
def State.passTables (s : State) (n half : Nat) : State :=
  { s with
    cells := s.cells.map (fun e => (e.1, e.2.atRelease half e.1))
    fms := s.fms.map (fun e => (e.1, e.2.atRelease half (s.slot n).releases (fmOfKey e.1))) }

/-- One more release in the register that `status` gives for each foreman of a list. -/
def State.countPasses (s : State) (status : FmId → Nat) (l : List FmId) : State := l.foldl (fun s f => s.addReg (status f) 63 32 1) s

/-- The configured foremen of `half`. -/
def State.halfFms (s : State) (half : Nat) : List FmId := (regionFms (half / 2)).filter (fun f => fmHalf f == half && (s.fm f).configured)

/-- A count of clocks that is kept where `b` says so. -/
def State.freeCountIf (s : State) (b : Bool) (a hi lo : Nat) : State := if b then s.freeCount a hi lo else s

/-- The region's words of the superstep, in the registers `last` and `stall`, at a release of the station `y` (R191, R298). -/
def State.releaseRegs (s : State) (y : RgnSt) (last stall : Nat) : State :=
  let s := s.setReg last (BitVec.ofNat 64 (field 63 32 (s.regF last 63 32 + 1) + field 31 0 y.hub.word.toNat))
  let s := s.setReg stall (BitVec.ofNat 64 (field 15 0 (min y.slips 0xFFFF)))
  (s.freeCountIf y.synced stall 63 40).freeCountIf y.waited stall 39 16

/-- The station of a region after a release. -/
def RgnSt.released (y : RgnSt) : RgnSt := { y with hub := y.hub.released, slips := 0, synced := false, waited := false }

theorem State.releaseHalf_eq (s : State) (n half : Nat) :
    s.releaseHalf n half =
      let r := half / 2
      let u := (s.passTables n half).countPasses Reg.fmnBarrierStatus ((s.passTables n half).halfFms half)
      if half % 2 = 0 then (u.releaseRegs (u.rgn r) (Reg.rgnNumericsLast r) (Reg.rgnXchgStall r)).setRgn r (u.rgn r).released else u := by
  have cells : (fun (e : Nat × CellSt) => (e.1, e.2.atRelease half e.1)) = fun e =>
      let y := e.2
      if halfOf e.1 = half && y.configured && y.looper != .snag && y.resetting.isNone then
        (e.1, if y.testing.isSome then { y with heldPass := y.heldPass + 1 } else { y with passed := y.passed + 1 })
      else e := by
    funext e
    dsimp only [CellSt.atRelease]
    split <;> rfl
  have fms : (fun (e : Nat × FmSt) => (e.1, e.2.atRelease half (s.slot n).releases (fmOfKey e.1))) = fun e =>
      if fmHalf (fmOfKey e.1) = half && e.2.configured then
        (e.1, { e.2.queueRelease (s.slot n).releases with hub := e.2.hub.released })
      else e := by
    funext e
    dsimp only [FmSt.atRelease]
    split <;> rfl
  unfold State.passTables
  rw [cells, fms]
  rfl

/-! ## The registers of a release -/

section
variable {s : State} {status : FmId → Nat} {l : List FmId}

theorem State.countPasses_same (s : State) (status : FmId → Nat) (l : List FmId) {p : Part} (hp : Nat.testBit 0x10 p.index = false) :
    p.same s (s.countPasses status l) :=
  same_of_blur (foldl_blur _ _ (fun s f => State.addReg_blur _ rfl s (status f) 63 32 1) l s) p hp

theorem State.reg_countPasses_other {a : Nat} (h : ∀ f ∈ l, a ≠ status f) : (s.countPasses status l).reg a = s.reg a := by
  induction l generalizing s with
  | nil => rfl
  | cons f l ih =>
    exact (ih (List.forall_mem_cons.1 h).2).trans (State.reg_addReg_other s (h f (List.mem_cons_self ..)) ..)

theorem State.regF_countPasses (once : (l.map status).Nodup) {f : FmId} (hf : f ∈ l) :
    (s.countPasses status l).regF (status f) 63 32 = (s.regF (status f) 63 32 + 1) % 2 ^ 32 := by
  induction l generalizing s with
  | nil => exact absurd hf (List.not_mem_nil)
  | cons g l ih =>
    obtain ⟨alone, once⟩ := List.nodup_cons.1 once
    change ((s.addReg (status g) 63 32 1).countPasses status l).regF _ _ _ = _
    rcases List.mem_cons.1 hf with rfl | later
    · have apart : ∀ g ∈ l, status f ≠ status g := fun g hg same => alone (same ▸ List.mem_map_of_mem hg)
      rw [State.regF, State.reg_countPasses_other apart]
      exact State.regF_addReg s _ (by omega) (by omega) 1
    · have apart : status f ≠ status g := fun same => alone (same ▸ List.mem_map_of_mem later)
      rw [ih once later, State.regF, State.reg_addReg_other s apart]
      rfl

end

theorem State.regF_freeCountIf (s : State) (b : Bool) (a : Nat) {hi lo hj lj : Nat} (h1 : lo ≤ hi) (h2 : hi < 64)
    (hd : hj < lo ∨ hi < lj) : (s.freeCountIf b a hi lo).regF a hj lj = s.regF a hj lj := by
  cases b
  · rfl
  · exact State.regF_setRegF_field s.fresh.2 a h1 h2 hd _

theorem State.reg_freeCountIf_other (s : State) (b : Bool) {a c : Nat} (h : c ≠ a) (hi lo : Nat) :
    (s.freeCountIf b a hi lo).reg c = s.reg c := by
  cases b
  · rfl
  · exact State.reg_setRegF_other s.fresh.2 h hi lo _

theorem State.freeCountIf_blur (s : State) (b : Bool) (a hi lo : Nat) : (s.freeCountIf b a hi lo).blur 0x18 = s.blur 0x18 :=
  ite_blur _ (State.freeCount_blur _ rfl s a hi lo) rfl

section
variable (s : State) (y : RgnSt) {last stall : Nat}

theorem State.releaseRegs_same (last stall : Nat) {p : Part} (hp : Nat.testBit 0x18 p.index = false) :
    p.same s (s.releaseRegs y last stall) := by
  refine same_of_blur ?_ p hp
  unfold State.releaseRegs
  rw [State.freeCountIf_blur, State.freeCountIf_blur, State.setReg_blur _ rfl, State.setReg_blur _ rfl]

theorem State.reg_releaseRegs_other {a : Nat} (hl : a ≠ last) (hs : a ≠ stall) : (s.releaseRegs y last stall).reg a = s.reg a := by
  unfold State.releaseRegs
  rw [State.reg_freeCountIf_other _ _ hs, State.reg_freeCountIf_other _ _ hs, State.reg_setReg_other _ hs, State.reg_setReg_other _ hl]

theorem State.reg_releaseRegs_last (apart : last ≠ stall) : (s.releaseRegs y last stall).reg last =
    BitVec.ofNat 64 (field 63 32 (s.regF last 63 32 + 1) + field 31 0 y.hub.word.toNat) := by
  unfold State.releaseRegs
  rw [State.reg_freeCountIf_other _ _ apart, State.reg_freeCountIf_other _ _ apart, State.reg_setReg_other _ apart, State.reg_setReg]

theorem State.regF_releaseRegs_stall : (s.releaseRegs y last stall).regF stall 15 0 = min y.slips 0xFFFF := by
  unfold State.releaseRegs
  rw [State.regF_freeCountIf _ _ _ (by omega) (by omega) (.inl (by omega)),
    State.regF_freeCountIf _ _ _ (by omega) (by omega) (.inl (by omega)), State.regF, State.reg_setReg]
  simp only [bits, natBits, field, BitVec.toNat_ofNat]
  omega

end

theorem bits_two_fields (x y : Nat) :
    bits 63 32 (BitVec.ofNat 64 (field 63 32 x + field 31 0 y)) = x % 2 ^ 32 ∧
      bits 31 0 (BitVec.ofNat 64 (field 63 32 x + field 31 0 y)) = y % 2 ^ 32 := by
  simp only [bits, natBits, field, BitVec.toNat_ofNat]
  omega

/-! ## What a release leaves -/

section
variable (s : State) (n half : Nat)

theorem State.releaseHalf_tables : (s.releaseHalf n half).cells = (s.passTables n half).cells ∧
    (s.releaseHalf n half).fms = (s.passTables n half).fms := by
  rw [State.releaseHalf_eq]
  generalize (s.passTables n half).halfFms half = l
  generalize s.passTables n half = u
  have cells : (u.countPasses Reg.fmnBarrierStatus l).cells = u.cells := u.countPasses_same _ l (p := .cells) (by decide)
  have fms : (u.countPasses Reg.fmnBarrierStatus l).fms = u.fms := u.countPasses_same _ l (p := .fms) (by decide)
  dsimp only
  split
  · exact ⟨(State.releaseRegs_same _ _ _ _ (p := .cells) (by decide)).trans cells,
      (State.releaseRegs_same _ _ _ _ (p := .fms) (by decide)).trans fms⟩
  · exact ⟨cells, fms⟩

theorem State.releaseHalf_same {p : Part} (hp : Nat.testBit 0x478 p.index = false) : p.same s (s.releaseHalf n half) :=
  same_of_blur (State.releaseHalf_blur _ rfl s n half) p hp

theorem State.cell_releaseHalf (c : Nat) : (s.releaseHalf n half).cell c = (s.cell c).atRelease half c := by
  have eras : (s.releaseHalf n half).eras = s.eras := s.releaseHalf_same n half (p := .eras) (by decide)
  have nap : (s.releaseHalf n half).nap = s.nap := s.releaseHalf_same n half (p := .nap) (by decide)
  have fresh : (s.releaseHalf n half).freshCell c = s.freshCell c := by simp only [State.freshCell, eras, nap]
  unfold State.cell
  rw [(s.releaseHalf_tables n half).1, State.passTables, Tbl.find_map (fun k x => CellSt.atRelease half k x), fresh]
  cases s.cells.find c with
  | some x => rfl
  | none => exact (CellSt.atRelease_stays (.inr (.inr (s.freshCell_configured c)))).symm

theorem fmOfKey_fmKey {f : FmId} (hf : wfFm f = true) : fmOfKey (fmKey f) = f := by
  unfold wfFm at hf
  simp only [Bool.and_eq_true, decide_eq_true_eq] at hf
  unfold fmOfKey fmKey
  congr 1 <;> omega

theorem State.fm_of_passTables {t : State} (fms : t.fms = (s.passTables n half).fms) (eras : t.eras = s.eras) {f : FmId}
    (hf : wfFm f = true) : t.fm f = (s.fm f).atRelease half (s.slot n).releases f := by
  have fresh : t.freshFm f = s.freshFm f := by simp only [State.freshFm, eras]
  unfold State.fm
  rw [fms, State.passTables, Tbl.find_map (fun k x => FmSt.atRelease half (s.slot n).releases (fmOfKey k) x), fresh]
  cases s.fms.find (fmKey f) with
  | some x => exact congrArg (fun g => FmSt.atRelease half (s.slot n).releases g x) (fmOfKey_fmKey hf)
  | none => exact (if_neg (by simp [s.freshFm_configured f])).symm

theorem State.fm_releaseHalf {f : FmId} (hf : wfFm f = true) :
    (s.releaseHalf n half).fm f = (s.fm f).atRelease half (s.slot n).releases f :=
  s.fm_of_passTables n half (s.releaseHalf_tables n half).2 (s.releaseHalf_same n half (p := .eras) (by decide)) hf

theorem Reg.fmnBarrierStatus_ne_rgn (f : FmId) (r : Nat) :
    Reg.fmnBarrierStatus f ≠ Reg.rgnNumericsLast r ∧ Reg.fmnBarrierStatus f ≠ Reg.rgnXchgStall r := by
  unfold Reg.fmnBarrierStatus Reg.rgnNumericsLast Reg.rgnXchgStall fmBase regionBase
  omega

theorem Reg.rgnNumericsLast_ne_stall (r : Nat) : Reg.rgnNumericsLast r ≠ Reg.rgnXchgStall r := by
  unfold Reg.rgnNumericsLast Reg.rgnXchgStall
  omega

theorem Reg.regions_high (f : FmId) (r : Nat) :
    0x0100_0000 ≤ Reg.fmnBarrierStatus f ∧ 0x0100_0000 ≤ Reg.rgnNumericsLast r ∧ 0x0100_0000 ≤ Reg.rgnXchgStall r := by
  unfold Reg.fmnBarrierStatus Reg.rgnNumericsLast Reg.rgnXchgStall fmBase regionBase
  omega

/-- Apart from the region's own words, a release counts at the foremen's registers alone. -/
theorem State.reg_releaseHalf_counts {a : Nat} (last : a ≠ Reg.rgnNumericsLast (half / 2)) (stall : a ≠ Reg.rgnXchgStall (half / 2)) :
    (s.releaseHalf n half).reg a =
      ((s.passTables n half).countPasses Reg.fmnBarrierStatus ((s.passTables n half).halfFms half)).reg a := by
  rw [State.releaseHalf_eq]
  dsimp only
  split
  · rw [State.setRgn_reg]
    exact State.reg_releaseRegs_other _ _ last stall
  · rfl

theorem State.reg_releaseHalf_low {a : Nat} (low : a < 0x0100_0000) : (s.releaseHalf n half).reg a = s.reg a := by
  obtain ⟨-, last, stall⟩ := Reg.regions_high ⟨0, 0⟩ (half / 2)
  rw [State.reg_releaseHalf_counts s n half (by omega) (by omega)]
  exact State.reg_countPasses_other fun f _ => by have := (Reg.regions_high f 0).1; omega

theorem rowOf_cellAt {r c : Nat} (h : c < 512) : rowOf (cellAt r c) = r := by unfold rowOf cellAt; omega

theorem colOf_cellAt {r c : Nat} (h : c < 512) : colOf (cellAt r c) = c := by unfold colOf cellAt; omega

theorem regionOf_blockCell {f : FmId} (hf : wfFm f = true) : regionOf (blockCell f) = f.region := by
  unfold wfFm at hf
  simp only [Bool.and_eq_true, decide_eq_true_eq] at hf
  unfold regionOf blockCell regionRow regionCol
  rw [rowOf_cellAt (by omega), colOf_cellAt (by omega)]
  omega

theorem halfOf_region (c : Nat) : halfOf c / 2 = regionOf c := by
  unfold halfOf
  split <;> omega

theorem fmHalf_region {f : FmId} (hf : wfFm f = true) : fmHalf f / 2 = f.region :=
  (halfOf_region _).trans (regionOf_blockCell hf)

theorem regionFms_status_nodup (r : Nat) (p : FmId → Bool) : (((regionFms r).filter p).map Reg.fmnBarrierStatus).Nodup := by
  have all : ((regionFms r).map Reg.fmnBarrierStatus).Nodup := by
    unfold regionFms
    rw [List.map_map]
    refine List.Nodup.map (fun a b same => ?_) List.nodup_range
    simp only [Function.comp, Reg.fmnBarrierStatus, fmBase] at same
    omega
  exact all.sublist (List.filter_sublist.map _)

theorem State.regF_releaseHalf_status {f : FmId} (hf : wfFm f = true) (half_of : fmHalf f = half)
    (configured : (s.fm f).configured = true) :
    (s.releaseHalf n half).regF (Reg.fmnBarrierStatus f) 63 32 = (s.regF (Reg.fmnBarrierStatus f) 63 32 + 1) % 2 ^ 32 := by
  have listed : f ∈ (s.passTables n half).halfFms half := by
    refine List.mem_filter.2 ⟨List.mem_map.2 ⟨f.block, ?_, ?_⟩, ?_⟩
    · unfold wfFm at hf
      simp only [Bool.and_eq_true, decide_eq_true_eq] at hf
      exact List.mem_range.2 hf.2
    · rw [← half_of, fmHalf_region hf]
    · rw [s.fm_of_passTables n half rfl rfl hf, FmSt.atRelease_configured]
      simp [half_of, configured]
  obtain ⟨last, stall⟩ := Reg.fmnBarrierStatus_ne_rgn f (half / 2)
  rw [State.regF, State.reg_releaseHalf_counts s n half last stall]
  exact State.regF_countPasses (regionFms_status_nodup _ _) listed

theorem State.rgn_countPasses (l : List FmId) (r : Nat) :
    ((s.passTables n half).countPasses Reg.fmnBarrierStatus l).rgn r = s.rgn r := by
  have rgns := State.countPasses_same (s.passTables n half) Reg.fmnBarrierStatus l (p := .rgns) (by decide)
  exact congrArg (Tbl.get _ r) rgns

theorem State.rgn_releaseHalf_other {r : Nat} (h : r ≠ half / 2) : (s.releaseHalf n half).rgn r = s.rgn r := by
  rw [State.releaseHalf_eq]
  dsimp only
  split
  · rw [State.rgn_setRgn_other _ h]
    exact (congrArg (Tbl.get _ r) (State.releaseRegs_same _ _ _ _ (p := .rgns) (by decide))).trans (s.rgn_countPasses n half _ r)
  · exact s.rgn_countPasses n half _ r

/-! ## The region's station, with the west half -/

section
variable (west : half % 2 = 0)
include west

theorem State.releaseHalf_west : ∃ u : State, (∀ a, (∀ f, a ≠ Reg.fmnBarrierStatus f) → u.reg a = s.reg a) ∧
    s.releaseHalf n half = (u.releaseRegs (s.rgn (half / 2)) (Reg.rgnNumericsLast (half / 2)) (Reg.rgnXchgStall (half / 2))).setRgn
      (half / 2) (s.rgn (half / 2)).released := by
  let t := s.passTables n half
  refine ⟨t.countPasses Reg.fmnBarrierStatus (t.halfFms half),
    fun a apart => State.reg_countPasses_other (s := t) fun f _ => apart f, ?_⟩
  rw [State.releaseHalf_eq]
  dsimp only
  rw [if_pos west, s.rgn_countPasses n half]

theorem State.rgn_releaseHalf : (s.releaseHalf n half).rgn (half / 2) = (s.rgn (half / 2)).released := by
  obtain ⟨u, -, release⟩ := s.releaseHalf_west n half west
  rw [release, State.rgn_setRgn]

theorem State.regF_releaseHalf_last :
    (s.releaseHalf n half).regF (Reg.rgnNumericsLast (half / 2)) 63 32 = (s.regF (Reg.rgnNumericsLast (half / 2)) 63 32 + 1) % 2 ^ 32 ∧
      (s.releaseHalf n half).regF (Reg.rgnNumericsLast (half / 2)) 31 0 = (s.rgn (half / 2)).hub.word.toNat := by
  obtain ⟨u, kept, release⟩ := s.releaseHalf_west n half west
  have before : u.regF (Reg.rgnNumericsLast (half / 2)) 63 32 = s.regF (Reg.rgnNumericsLast (half / 2)) 63 32 :=
    congrArg (bits 63 32) (kept _ fun f => (Reg.fmnBarrierStatus_ne_rgn f _).1.symm)
  have word := State.reg_releaseRegs_last u (s.rgn (half / 2)) (Reg.rgnNumericsLast_ne_stall (half / 2))
  rw [release]
  change bits 63 32 (State.reg (State.releaseRegs ..) _) = _ ∧ bits 31 0 (State.reg (State.releaseRegs ..) _) = _
  rw [word, before]
  obtain ⟨count, numerics⟩ := bits_two_fields (s.regF (Reg.rgnNumericsLast (half / 2)) 63 32 + 1) (s.rgn (half / 2)).hub.word.toNat
  exact ⟨count, numerics.trans (Nat.mod_eq_of_lt (BitVec.isLt _))⟩

theorem State.regF_releaseHalf_stall :
    (s.releaseHalf n half).regF (Reg.rgnXchgStall (half / 2)) 15 0 = min (s.rgn (half / 2)).slips 0xFFFF := by
  obtain ⟨u, -, release⟩ := s.releaseHalf_west n half west
  rw [release]
  exact State.regF_releaseRegs_stall u _

end

end

/-! ## The step record (R605) -/

section
variable {s : State} {n : Nat}

theorem State.stepRecord_none (h : (s.slot n).summary = none) : s.stepRecord n = s := by
  unfold State.stepRecord
  dsimp only
  rw [h]

theorem State.stepRecord_some {w : BitVec 32} (h : (s.slot n).summary = some w) :
    s.stepRecord n = s.setSlot n { s.slot n with
      summary := none
      records := (⟨(s.slot n).releases, s.stepP n + 1, w, false, decide (0 < s.regF (Reg.fltJob n) 31 24), false⟩ ::
        (s.slot n).records).take 1024 } := by
  unfold State.stepRecord
  dsimp only
  rw [h]

theorem State.stepRecord_eq (s : State) (n : Nat) : s.stepRecord n = { s with slots := (s.stepRecord n).slots } := by
  unfold State.stepRecord
  dsimp only
  split <;> rfl

theorem State.onlySlot_stepRecord (s : State) (n : Nat) : s.onlySlot (s.stepRecord n) n := by
  intro m hm
  cases h : (s.slot n).summary with
  | none => rw [State.stepRecord_none h]
  | some w => rw [State.stepRecord_some h, State.slot_setSlot_other s hm]

theorem State.summary_stepRecord (s : State) (n : Nat) : ((s.stepRecord n).slot n).summary = none := by
  cases h : (s.slot n).summary with
  | none => rw [State.stepRecord_none h, h]
  | some w => rw [State.stepRecord_some h, State.slot_setSlot]

@[simp] theorem State.cell_stepRecord (s : State) (n c : Nat) : (s.stepRecord n).cell c = s.cell c := by rw [State.stepRecord_eq]; rfl
@[simp] theorem State.fm_stepRecord (s : State) (n : Nat) (f : FmId) : (s.stepRecord n).fm f = s.fm f := by rw [State.stepRecord_eq]; rfl
@[simp] theorem State.rgn_stepRecord (s : State) (n r : Nat) : (s.stepRecord n).rgn r = s.rgn r := by rw [State.stepRecord_eq]; rfl
@[simp] theorem State.reg_stepRecord (s : State) (n a : Nat) : (s.stepRecord n).reg a = s.reg a := by rw [State.stepRecord_eq]; rfl

end

end Sys2Proof.Machine

namespace Sys2Proof.Machine

open Sys2Proof

/-! # The messages of a barrier, one command at a time. -/

/-! ## Entries (R191, R281, R282) -/

/-- The state in which an entry acts: its message delivered and the participants fixed. -/
def State.entering (s : State) (e : Entrant) (n : Nat) (w : BitVec 32) : State := (s.deliver (.barrierEnter e n w)).fixParts n

section
variable (s : State) (e : Entrant) (n : Nat) (w : BitVec 32)

@[simp] theorem State.entering_fm (f : FmId) : (s.entering e n w).fm f = s.fm f := rfl
@[simp] theorem State.entering_rgn (r : Nat) : (s.entering e n w).rgn r = s.rgn r := rfl
@[simp] theorem State.entering_reg (a : Nat) : (s.entering e n w).reg a = s.reg a := rfl
@[simp] theorem State.entering_regF (a hi lo : Nat) : (s.entering e n w).regF a hi lo = s.regF a hi lo := rfl
@[simp] theorem State.entering_cells : (s.entering e n w).cells = s.cells := rfl
@[simp] theorem State.entering_inFlight : (s.entering e n w).inFlight = s.inFlight.erase (.barrierEnter e n w) := rfl

@[simp] theorem State.entering_slot : (s.entering e n w).slot n = { s.slot n with parts := some (s.barrierCells n) } :=
  State.slot_fixParts ..

theorem State.onlySlot_entering : s.onlySlot (s.entering e n w) n := State.onlySlot_setSlot (s.deliver _) n _

@[simp] theorem State.blockParts_entering (f : FmId) : (s.entering e n w).blockParts n f = s.blockParts n f :=
  State.blockParts_fixParts ..

@[simp] theorem State.partBlocks_entering (r : Nat) : (s.entering e n w).partBlocks n r = s.partBlocks n r :=
  State.partBlocks_fixParts ..

@[simp] theorem State.partRegions_entering : (s.entering e n w).partRegions n = s.partRegions n := State.partRegions_fixParts ..

@[simp] theorem State.owedTiles_entering (r : Nat) : (s.entering e n w).owedTiles n r = s.owedTiles n r :=
  State.owedTiles_fixParts ..

end

section
variable {s : State} {n : Nat} {w : BitVec 32}

theorem exec_barrierEnter_cell (c : Nat) :
    exec (.barrierEnter (.cell c) n w) s = .next ((s.entering (.cell c) n w).enterBlock n c w) := rfl

theorem exec_barrierEnter_block (f : FmId) :
    exec (.barrierEnter (.block f) n w) s = .next ((s.entering (.block f) n w).enterRegion n f w) := rfl

theorem exec_barrierEnter_region (r : Nat) :
    exec (.barrierEnter (.region r) n w) s = .next ((s.entering (.region r) n w).enterRoot n r w) := rfl

/-- What each case of an entry at foreman `f` leaves beside the foreman's hub. -/
def State.BlockEntered (s : State) (n : Nat) (w : BitVec 32) (f : FmId) (t : State) : Prop :=
  s.onlyFm t f ∧ t.slot n = { s.slot n with parts := some (s.barrierCells n) } ∧ s.onlySlot t n ∧
  t.regF (Reg.fmnNumerics f) 31 0 = (mergeWords (BitVec.ofNat 32 (s.regF (Reg.fmnNumerics f) 31 0)) w).toNat ∧
  s.onlyRegs t [Reg.fmnNumerics f] ∧ t.cells = s.cells

theorem State.BlockEntered.send {f : FmId} {t : State} (h : s.BlockEntered n w f t) (m : Instr) : s.BlockEntered n w f (t.send m) := h

theorem blockEntered (e : Entrant) {f : FmId} (hf : wfFm f = true) (g : FmSt → FmSt) :
    s.BlockEntered n w f ((regMerge (s.entering e n w) (Reg.fmnNumerics f) w).modFm f g) := by
  refine ⟨State.onlyFm_setFm hf _ fun g _ _ => by simp, by simp, fun m hm => ?_, ?_, fun b hb => ?_, by simp⟩
  · rw [State.modFm_slot, regMerge_slot, s.onlySlot_entering e n w m hm]
  · rw [State.modFm_regF, regF_regMerge, State.entering_regF]
  · rw [State.modFm_reg, onlyRegs_regMerge _ _ _ b hb, State.entering_reg]

/-- What each case of an entry at region `r` leaves beside the region's station. -/
def State.RegionEntered (s : State) (w : BitVec 32) (r : Nat) (t : State) : Prop :=
  s.onlyRgn t r ∧ t.regF (Reg.rgnNumerics r) 31 0 = (mergeWords (BitVec.ofNat 32 (s.regF (Reg.rgnNumerics r) 31 0)) w).toNat ∧
  s.onlyRegs t [Reg.rgnNumerics r]

theorem State.RegionEntered.send {r : Nat} {t : State} (h : s.RegionEntered w r t) (m : Instr) : s.RegionEntered w r (t.send m) := h

theorem regionEntered (e : Entrant) (n r : Nat) (x : RgnSt) :
    s.RegionEntered w r ((regMerge (s.entering e n w) (Reg.rgnNumerics r) w).setRgn r x) := by
  refine ⟨fun q hq => ?_, ?_, fun b hb => ?_⟩
  · rw [State.rgn_setRgn_other _ hq, regMerge_rgn, State.entering_rgn]
  · rw [State.setRgn_regF, regF_regMerge, State.entering_regF]
  · rw [State.setRgn_reg, onlyRegs_regMerge _ _ _ b hb, State.entering_reg]

/-- The root is full once region `r` joins, where every other region has entered before. -/
theorem State.rootFull_join {l : List Nat} (parts : (s.slot n).parts = some l) (r : Nat) :
    (s.setSlot n ((s.slot n).rootJoin r w)).RootFull n ↔ ∀ q ∈ s.partRegions n, q = r ∨ .region q ∈ (s.slot n).root.entered := by
  unfold State.RootFull
  rw [State.partRegions_setSlot (x := (s.slot n).rootJoin r w) parts (State.barrierCells_of_parts parts) rfl, State.slot_setSlot]
  simp [SlotSt.rootJoin, HubSt.join, or_comm]

end

/-! ## Window flags (R106, R528) -/

theorem getLsbD_eq_bits {n : Nat} (w : BitVec n) (k : Nat) : w.getLsbD k = decide (bits k k w = 1) := by
  simp [bits, natBits, BitVec.getLsbD, Nat.testBit_eq_decide_div_mod_eq]

theorem getLsbD_setBits {n k : Nat} (h : k < n) (on : Bool) (w : BitVec n) : (setBits k k (ofBool on) w).getLsbD k = on := by
  rw [getLsbD_eq_bits, bits_setBits (Nat.le_refl k) h]
  cases on <;> simp [ofBool]

theorem getLsbD_setBits_other {n k j : Nat} (h : k < n) (hj : j ≠ k) (v : Nat) (w : BitVec n) :
    (setBits k k v w).getLsbD j = w.getLsbD j := by
  rw [getLsbD_eq_bits, getLsbD_eq_bits, bits_setBits_other (Nat.le_refl k) h (by omega)]


section
variable {s : State} {n : Nat} {w : BitVec 32}

theorem fm_entered {e : Entrant} {f : FmId} {h : HubSt} :
    ((regMerge (s.entering e n w) (Reg.fmnNumerics f) w).modFm f fun x => { x with hub := h }).fm f = { s.fm f with hub := h } := by
  rw [State.fm_modFm, regMerge_fm, State.entering_fm]

theorem cellEntry_waits {c : Nat} (hc : wfCell c = true) (opened : (s.fm (fmOf c)).hub.closed = false)
    (new : .cell c ∉ (s.fm (fmOf c)).hub.entered)
    (missing : ∃ d ∈ s.blockParts n (fmOf c), d ≠ c ∧ .cell d ∉ (s.fm (fmOf c)).hub.entered) :
    ∃ t, exec (.barrierEnter (.cell c) n w) s = .next t ∧ t.inFlight = s.inFlight.erase (.barrierEnter (.cell c) n w) ∧
      t.fm (fmOf c) = { s.fm (fmOf c) with hub := (s.fm (fmOf c)).hub.join (.cell c) w } ∧ s.BlockEntered n w (fmOf c) t := by
  have step := State.enterBlock_waits (s := s.entering (.cell c) n w) (n := n) (w := w) opened new (by simpa using missing)
  rw [exec_barrierEnter_cell, step]
  exact ⟨_, rfl, by simp, fm_entered, blockEntered _ (wfFm_fmOf hc) _⟩

theorem cellEntry_last {c : Nat} (hc : wfCell c = true) (opened : (s.fm (fmOf c)).hub.closed = false)
    (new : .cell c ∉ (s.fm (fmOf c)).hub.entered)
    (all : ∀ d ∈ s.blockParts n (fmOf c), d = c ∨ .cell d ∈ (s.fm (fmOf c)).hub.entered) :
    ∃ t, exec (.barrierEnter (.cell c) n w) s = .next t ∧
      t.inFlight = s.inFlight.erase (.barrierEnter (.cell c) n w) ++
        [.barrierEnter (.block (fmOf c)) n (mergeWords (s.fm (fmOf c)).hub.word w)] ∧
      t.fm (fmOf c) = { s.fm (fmOf c) with hub := ((s.fm (fmOf c)).hub.join (.cell c) w).close } ∧ s.BlockEntered n w (fmOf c) t := by
  have step := State.enterBlock_last (s := s.entering (.cell c) n w) (n := n) (w := w) opened new (by simpa using all)
  rw [exec_barrierEnter_cell, step]
  refine ⟨_, rfl, by simp, ?_, (blockEntered (.cell c) (wfFm_fmOf hc) _).send _⟩
  rw [State.send_fm]
  exact fm_entered

/-- What a station holds once block `f` has entered: the word and the join, with what it owes where it knows that. -/
def RgnSt.entered (x : RgnSt) (f : FmId) (w : BitVec 32) (owed : Option (List (Nat × Nat))) : RgnSt :=
  x.gathers w { x.hub.join (.block f) w with owed := owed }

theorem RgnSt.hub_gathers (x : RgnSt) (w : BitVec 32) (h : HubSt) : (x.gathers w h).hub = h := rfl

theorem HubSt.closed_owes (h : HubSt) (e : Entrant) (w : BitVec 32) (owed : Option (List (Nat × Nat))) :
    ({ h.join e w with owed := owed } : HubSt).closed = h.closed := rfl

theorem RgnSt.closed_entered (x : RgnSt) (f : FmId) (w : BitVec 32) (owed : Option (List (Nat × Nat))) :
    (x.entered f w owed).hub.closed = x.hub.closed := by
  rw [RgnSt.entered, RgnSt.hub_gathers, HubSt.closed_owes]

section
variable {f : FmId} (opened : (s.rgn f.region).hub.closed = false) (unowed : (s.rgn f.region).hub.owed = none)
  (new : .block f ∉ (s.rgn f.region).hub.entered)
include opened unowed new

theorem blockEntry_waits (missing : ∃ g ∈ s.partBlocks n f.region, g ≠ f ∧ .block g ∉ (s.rgn f.region).hub.entered) :
    ∃ t, exec (.barrierEnter (.block f) n w) s = .next t ∧ t.inFlight = s.inFlight.erase (.barrierEnter (.block f) n w) ∧
      t.rgn f.region = (s.rgn f.region).gathers w ((s.rgn f.region).hub.join (.block f) w) ∧ s.RegionEntered w f.region t := by
  have step := State.enterRegion_waits (s := s.entering (.block f) n w) (n := n) (w := w) opened unowed new (by simpa using missing)
  rw [exec_barrierEnter_block, step]
  refine ⟨_, rfl, by simp, ?_, regionEntered ..⟩
  rw [State.rgn_setRgn, State.entering_rgn]

section
variable (all : ∀ g ∈ s.partBlocks n f.region, g = f ∨ .block g ∈ (s.rgn f.region).hub.entered)
include all

theorem blockEntry_forwards (paid : s.owedTiles n f.region = []) :
    ∃ t, exec (.barrierEnter (.block f) n w) s = .next t ∧
      t.inFlight = s.inFlight.erase (.barrierEnter (.block f) n w) ++
        [.barrierEnter (.region f.region) n (mergeWords (s.rgn f.region).word w)] ∧
      t.rgn f.region = ((s.rgn f.region).entered f w (some [])).forwarded ∧ s.RegionEntered w f.region t := by
  have step := State.enterRegion_forwards (s := s.entering (.block f) n w) (n := n) (w := w) opened unowed new (by simpa using all)
    (by simpa using paid)
  rw [exec_barrierEnter_block, step]
  refine ⟨_, rfl, by simp, ?_, (regionEntered ..).send _⟩
  rw [State.send_rgn, State.rgn_setRgn, State.entering_rgn]
  rfl

theorem blockEntry_owes (owes : s.owedTiles n f.region ≠ []) :
    ∃ t, exec (.barrierEnter (.block f) n w) s = .next t ∧ t.inFlight = s.inFlight.erase (.barrierEnter (.block f) n w) ∧
      t.rgn f.region = (s.rgn f.region).entered f w (some (s.owedTiles n f.region)) ∧ s.RegionEntered w f.region t := by
  have step := State.enterRegion_owes (s := s.entering (.block f) n w) (n := n) (w := w) opened unowed new (by simpa using all)
    (by simpa using owes)
  rw [exec_barrierEnter_block, step]
  refine ⟨_, rfl, by simp, ?_, regionEntered ..⟩
  rw [State.rgn_setRgn, State.entering_rgn, State.owedTiles_entering]
  rfl

end

end

section
variable {r : Nat} (opened : (s.slot n).root.closed = false) (new : .region r ∉ (s.slot n).root.entered) (alone : (s.slot n).sync = [])

/-- The slot with its participants fixed. -/
def State.slotFixed (s : State) (n : Nat) : SlotSt := { s.slot n with parts := some (s.barrierCells n) }

theorem rootFull_regionEntry : ((s.entering (.region r) n w).setSlot n ((s.slotFixed n).rootJoin r w)).RootFull n ↔
    ∀ q ∈ s.partRegions n, q = r ∨ .region q ∈ (s.slot n).root.entered := by
  have slot := State.entering_slot s (.region r) n w
  have full := State.rootFull_join (s := s.entering (.region r) n w) (n := n) (w := w) (congrArg SlotSt.parts slot) r
  rw [slot, State.partRegions_entering] at full
  exact full

theorem State.onlySlot_regionEntry (x : SlotSt) : s.onlySlot ((s.entering (.region r) n w).setSlot n x) n := fun m hm => by
  rw [State.slot_setSlot_other _ hm, s.onlySlot_entering _ n w m hm]

include opened new alone

theorem exec_regionEntry : exec (.barrierEnter (.region r) n w) s =
    .next (((s.entering (.region r) n w).setSlot n ((s.slotFixed n).rootJoin r w)).tryRelease n) := by
  have slot := State.entering_slot s (.region r) n w
  rw [exec_barrierEnter_region, State.enterRoot_of (by rwa [slot]) (by rwa [slot]) (by rwa [slot]), slot]
  rfl

theorem regionEntry_waits (missing : ∃ q ∈ s.partRegions n, q ≠ r ∧ .region q ∉ (s.slot n).root.entered) :
    ∃ t, exec (.barrierEnter (.region r) n w) s = .next t ∧ t.inFlight = s.inFlight.erase (.barrierEnter (.region r) n w) ∧
      t.slot n = (s.slotFixed n).rootJoin r w ∧ s.onlySlot t n := by
  obtain ⟨q, part, other, absent⟩ := missing
  rw [exec_regionEntry opened new alone, State.tryRelease_waits]
  · exact ⟨_, rfl, by simp, State.slot_setSlot .., State.onlySlot_regionEntry _⟩
  · exact fun full => (rootFull_regionEntry.1 full q part).elim other absent

theorem regionEntry_releases (whole : (s.slot n).root.failed = false)
    (all : ∀ q ∈ s.partRegions n, q = r ∨ .region q ∈ (s.slot n).root.entered) :
    ∃ t, exec (.barrierEnter (.region r) n w) s = .next t ∧
      t.inFlight = s.inFlight.erase (.barrierEnter (.region r) n w) ++
        ((s.slot n).rect.regions.flatMap fun q => [2 * q, 2 * q + 1]).map (.barrierRelease n) ∧
      t.slot n = { s.slot n with parts := none, root := .reset, releases := (s.slot n).releases + 1,
                                 summary := some (mergeWords (s.slot n).root.word w) } ∧ s.onlySlot t n := by
  have joined := State.slot_setSlot (s.entering (.region r) n w) n ((s.slotFixed n).rootJoin r w)
  rw [exec_regionEntry opened new alone, State.tryRelease_full (by rw [joined]; exact whole)
    (rootFull_regionEntry.2 all) (by rw [joined]; exact List.concat_ne_nil _ _) (by rw [joined]; exact alone),
    joined, State.setSlot_setSlot]
  refine ⟨_, rfl, by simp; rfl, ?_, fun m hm => ?_⟩
  · rw [State.sendAll_slot, State.slot_setSlot]
    rfl
  · rw [State.sendAll_slot]
    exact State.onlySlot_regionEntry _ m hm

end

/-! ## Flags and notices (R106, R191, R528) -/

theorem numericsNotice_merges (c : Nat) :
    let a := Reg.fmnNumerics (fmOf c)
    let b := Reg.rgnNumerics (regionOf c)
    let word := fun (a : Nat) => (mergeWords (BitVec.ofNat 32 (s.regF a 31 0)) w).toNat
    ∃ t, exec (.numericsNotice c w) s = .next t ∧ t.regF a 31 0 = word a ∧ t.regF b 31 0 = word b ∧ s.onlyRegs t [a, b] ∧
      t.rgn (regionOf c) = { s.rgn (regionOf c) with word := mergeWords (s.rgn (regionOf c)).word w } ∧
      s.onlyRgn t (regionOf c) ∧ t = { s.deliver (.numericsNotice c w) with regs := t.regs, rgns := t.rgns } := by
  have apart := Reg.fmnNumerics_ne_rgnNumerics c
  have step : exec (.numericsNotice c w) s = .next ((regMerge (regMerge (s.deliver (.numericsNotice c w)) (Reg.fmnNumerics (fmOf c)) w)
    (Reg.rgnNumerics (regionOf c)) w).modRgn (regionOf c) fun x => { x with word := mergeWords x.word w }) := rfl
  rw [step]
  generalize Reg.fmnNumerics (fmOf c) = a at apart ⊢
  generalize Reg.rgnNumerics (regionOf c) = b at apart ⊢
  dsimp only
  refine ⟨_, rfl, ?_, ?_, fun d hd => ?_, ?_, ?_, ?_⟩
  · rw [State.modRgn_regF, regF_regMerge_other _ apart, regF_regMerge]
    rfl
  · rw [State.modRgn_regF, regF_regMerge, regF_regMerge_other _ apart.symm]
    rfl
  · simp only [List.mem_cons, List.not_mem_nil, or_false, not_or] at hd
    rw [State.modRgn_reg, onlyRegs_regMerge _ _ _ d (by simpa using hd.2), onlyRegs_regMerge _ _ _ d (by simpa using hd.1)]
    rfl
  · rw [State.modRgn, State.rgn_setRgn, regMerge_rgn, regMerge_rgn]
    rfl
  · intro q hq
    rw [State.modRgn, State.rgn_setRgn_other _ hq, regMerge_rgn, regMerge_rgn]
    rfl
  · rfl

theorem windowFlag_sets {k : Nat} (hk : k < 8) (on : Bool) :
    ∃ t, exec (.windowFlag n k on) s = .next t ∧ (t.slot n).wflags.getLsbD k = on ∧
      (∀ j, j ≠ k → (t.slot n).wflags.getLsbD j = (s.slot n).wflags.getLsbD j) ∧
      t.slot n = { s.slot n with wflags := (t.slot n).wflags } ∧ s.onlySlot t n ∧
      t = { s.deliver (.windowFlag n k on) with slots := t.slots } := by
  have slot : ((s.deliver (.windowFlag n k on)).modSlot n fun x => { x with wflags := setBits k k (ofBool on) x.wflags }).slot n =
      { s.slot n with wflags := setBits k k (ofBool on) (s.slot n).wflags } := State.slot_setSlot ..
  refine ⟨_, rfl, ?_, fun j hj => ?_, ?_, State.onlySlot_setSlot (s.deliver _) n _, rfl⟩ <;> rw [slot]
  · exact getLsbD_setBits hk on _
  · exact getLsbD_setBits_other hk hj _ _

end

/-! ## The release of one half (R128, R195, R282, R298, R605) -/

/-- The state a release leaves, with the step's record written. -/
def State.afterRelease (s : State) (n half : Nat) : State := ((s.deliver (.barrierRelease n half)).releaseHalf n half).stepRecord n

section
variable (s : State) (n half : Nat)

theorem State.reg_afterRelease (a : Nat) :
    (s.afterRelease n half).reg a = ((s.deliver (.barrierRelease n half)).releaseHalf n half).reg a := State.reg_stepRecord ..

theorem State.regF_afterRelease (a hi lo : Nat) :
    (s.afterRelease n half).regF a hi lo = ((s.deliver (.barrierRelease n half)).releaseHalf n half).regF a hi lo :=
  congrArg (bits hi lo) (s.reg_afterRelease n half a)

theorem State.regF_afterRelease_low {a : Nat} (low : a < 0x0100_0000) (hi lo : Nat) :
    (s.afterRelease n half).regF a hi lo = s.regF a hi lo :=
  congrArg (bits hi lo) ((s.reg_afterRelease n half a).trans (State.reg_releaseHalf_low (s.deliver _) n half low))

theorem State.cell_afterRelease (c : Nat) : (s.afterRelease n half).cell c = (s.cell c).atRelease half c :=
  (State.cell_stepRecord ..).trans (State.cell_releaseHalf (s.deliver _) n half c)

theorem State.fm_afterRelease {f : FmId} (hf : wfFm f = true) :
    (s.afterRelease n half).fm f = (s.fm f).atRelease half (s.slot n).releases f :=
  (State.fm_stepRecord ..).trans (State.fm_releaseHalf (s.deliver _) n half hf)

theorem State.slot_releaseHalf (m : Nat) : ((s.deliver (.barrierRelease n half)).releaseHalf n half).slot m = s.slot m :=
  congrArg (Tbl.get SlotSt.reset m) (State.releaseHalf_same (s.deliver _) n half (p := .slots) (by decide))

theorem State.onlySlot_afterRelease : s.onlySlot (s.afterRelease n half) n := fun m hm =>
  (State.onlySlot_stepRecord _ n m hm).trans (s.slot_releaseHalf n half m)

theorem State.inFlight_afterRelease : (s.afterRelease n half).inFlight = s.inFlight.erase (.barrierRelease n half) :=
  (congrArg State.inFlight (State.stepRecord_eq _ n)).trans (State.releaseHalf_same (s.deliver _) n half (p := .inFlight) (by decide))

theorem State.routers_afterRelease : (s.afterRelease n half).routers = s.routers :=
  (congrArg State.routers (State.stepRecord_eq _ n)).trans (State.releaseHalf_same (s.deliver _) n half (p := .routers) (by decide))

theorem State.onlyRgn_afterRelease : s.onlyRgn (s.afterRelease n half) (half / 2) := fun _ hr =>
  (State.rgn_stepRecord ..).trans (State.rgn_releaseHalf_other (s.deliver _) n half hr)

theorem State.regF_afterRelease_status {f : FmId} (hf : wfFm f = true) (half_of : fmHalf f = half)
    (configured : (s.fm f).configured = true) : (s.afterRelease n half).regF (Reg.fmnBarrierStatus f) 63 32 =
      (s.regF (Reg.fmnBarrierStatus f) 63 32 + 1) % 2 ^ 32 :=
  (s.regF_afterRelease n half ..).trans (State.regF_releaseHalf_status (s.deliver _) n half hf half_of configured)

section
variable (west : half % 2 = 0)
include west

theorem State.rgn_afterRelease : (s.afterRelease n half).rgn (half / 2) = (s.rgn (half / 2)).released :=
  (State.rgn_stepRecord ..).trans (State.rgn_releaseHalf (s.deliver _) n half west)

theorem State.regF_afterRelease_last :
    (s.afterRelease n half).regF (Reg.rgnNumericsLast (half / 2)) 63 32 =
      (s.regF (Reg.rgnNumericsLast (half / 2)) 63 32 + 1) % 2 ^ 32 ∧
    (s.afterRelease n half).regF (Reg.rgnNumericsLast (half / 2)) 31 0 = (s.rgn (half / 2)).hub.word.toNat := by
  rw [State.regF_afterRelease, State.regF_afterRelease]
  exact State.regF_releaseHalf_last (s.deliver _) n half west

theorem State.regF_afterRelease_stall :
    (s.afterRelease n half).regF (Reg.rgnXchgStall (half / 2)) 15 0 = min (s.rgn (half / 2)).slips 0xFFFF :=
  (s.regF_afterRelease n half ..).trans (State.regF_releaseHalf_stall (s.deliver _) n half west)

end

theorem State.slot_afterRelease_none (h : (s.slot n).summary = none) : (s.afterRelease n half).slot n = s.slot n := by
  rw [State.afterRelease, State.stepRecord_none (by rw [State.slot_releaseHalf, h]), State.slot_releaseHalf]

/-- The registers of a job and of its reduction lie below those of the regions. -/
theorem Reg.slots_low {n : Nat} (hn : n < 8) : Reg.fltJob n < 0x0100_0000 ∧ Reg.redStep n < 0x0100_0000 := by
  unfold Reg.fltJob Reg.redStep
  omega

end

section
variable {s : State} {n half : Nat} (hn : n < 8)
include hn

theorem State.records_afterRelease {w : BitVec 32} (h : (s.slot n).summary = some w) :
    ((s.afterRelease n half).slot n).records =
      (⟨(s.slot n).releases, s.stepP n + 1, w, false, decide (0 < s.regF (Reg.fltJob n) 31 24), false⟩ ::
        (s.slot n).records).take 1024 := by
  obtain ⟨job, step⟩ := Reg.slots_low hn
  have kept : ∀ {a : Nat}, a < 0x0100_0000 → ∀ hi lo,
      ((s.deliver (.barrierRelease n half)).releaseHalf n half).regF a hi lo = s.regF a hi lo := fun low hi lo =>
    congrArg (bits hi lo) (State.reg_releaseHalf_low (s.deliver _) n half low)
  rw [State.afterRelease, State.stepRecord_some (by rw [State.slot_releaseHalf, h]), State.slot_setSlot, State.slot_releaseHalf,
    State.stepP, kept step, kept job]
  rfl

variable (running : s.jobState n ≠ 2)
include running

/-- A release that ends no drain. -/
theorem exec_barrierRelease : exec (.barrierRelease n half) s = .next (s.afterRelease n half) := by
  have no_drain : ((s.afterRelease n half).jobState n == 2) = false :=
    beq_false_of_ne fun drains => running ((s.regF_afterRelease_low n half (Reg.slots_low hn).1 3 0).symm.trans drains)
  refine congrArg Host.Outcome.next (if_neg ?_)
  rw [show ((((s.deliver (.barrierRelease n half)).releaseHalf n half).stepRecord n).jobState n == 2) = false from no_drain]
  simp

end

/-- Settles O13, message by message: the three hubs of the tree, the flags and notices, and the release. -/
theorem barrierMessages : Obligations.BarrierMessages := by
  unfold Obligations.BarrierMessages
  refine ⟨fun s n w _ => ⟨fun c hc opened new => ⟨fun missing => ?_, fun all => ?_⟩,
    fun f _ opened unowed new => ⟨fun missing => ?_, fun all paid => ?_, fun all owes => ?_⟩,
    fun r opened whole new alone => ⟨regionEntry_waits opened new alone, regionEntry_releases opened new alone whole⟩,
    fun k on hk => windowFlag_sets hk on, fun c _ => numericsNotice_merges c⟩, fun s n half hn _ running => ?_⟩
  · obtain ⟨t, step, inFlight, fm, entered⟩ := cellEntry_waits (n := n) (w := w) hc opened new missing
    exact ⟨t, step, inFlight, fm, entered⟩
  · obtain ⟨t, step, inFlight, fm, only, slot, -, word, regs, cells⟩ := cellEntry_last (n := n) (w := w) hc opened new all
    exact ⟨t, step, inFlight, by rw [fm]; rfl, by rw [fm]; rfl, only, slot, word, regs, cells⟩
  · obtain ⟨t, step, inFlight, rgn, only, word, regs⟩ := blockEntry_waits (n := n) (w := w) opened unowed new missing
    exact ⟨t, step, inFlight, rgn, only, word, regs⟩
  · obtain ⟨t, step, inFlight, rgn, only, word, regs⟩ := blockEntry_forwards (n := n) (w := w) opened unowed new all paid
    exact ⟨t, step, inFlight, by rw [rgn]; rfl, by rw [rgn]; rfl, by rw [rgn]; rfl, by rw [rgn]; rfl, only, word, regs⟩
  · obtain ⟨t, step, inFlight, rgn, only, -⟩ := blockEntry_owes (n := n) (w := w) opened unowed new all owes
    exact ⟨t, step, inFlight, by rw [rgn]; rfl, by rw [rgn, RgnSt.closed_entered, opened], by rw [rgn]; rfl, only⟩
  · refine ⟨_, exec_barrierRelease hn running, s.inFlight_afterRelease n half, fun c half_of configured looper resetting testing => ?_,
      fun c stays => ?_, fun f hf half_of configured => ?_, fun west => ?_, s.onlyRgn_afterRelease n half,
      State.summary_stepRecord .., fun w => State.records_afterRelease hn, s.slot_afterRelease_none n half,
      s.onlySlot_afterRelease n half, s.routers_afterRelease n half⟩
    · rw [State.cell_afterRelease, CellSt.atRelease_passes half_of configured looper resetting testing]
    · rw [State.cell_afterRelease, CellSt.atRelease_stays stays]
    · rw [State.fm_afterRelease s n half hf, FmSt.atRelease_passes half_of configured]
      exact ⟨rfl, HubSt.released_closed, s.regF_afterRelease_status n half hf half_of configured⟩
    · rw [State.rgn_afterRelease s n half west]
      obtain ⟨steps, word⟩ := s.regF_afterRelease_last n half west
      exact ⟨HubSt.released_closed, rfl, s.regF_afterRelease_stall n half west, steps, word⟩

end Sys2Proof.Machine

namespace Sys2Proof.Machine

open Sys2Proof

/-! # Partial resets and the cruise of a region. -/

/-! ## What a write of MOD_RESET orders (R616) -/

/-- The reset that a value of MOD_RESET orders. -/
def resetOrder (w : Word) : Scope × ResetMode × Nat :=
  let k := scopeOf (bits 61 59 w)
  (k, if bit 62 w then .absorb else .drain, if k = .partition then bits 58 56 w else bits 17 0 w)

theorem resetOrder_congr {v w : Word} (high : bits 62 56 v = bits 62 56 w) (low : bits 17 0 v = bits 17 0 w) :
    resetOrder v = resetOrder w := by
  have kind : bits 61 59 v = bits 61 59 w := by simp only [bits, natBits] at high ⊢; omega
  have slot : bits 58 56 v = bits 58 56 w := by simp only [bits, natBits] at high ⊢; omega
  have mode : bit 62 v = bit 62 w := by
    unfold bit
    rw [getLsbD_eq_bits, getLsbD_eq_bits]
    simp only [bits, natBits] at high ⊢
    congr 2
    omega
  simp only [resetOrder, kind, slot, mode, low]

theorem scopeOf_eq {k : Nat} (hk : k < 4) :
    scopeOf k = if k = 0 then .cell else if k = 1 then .block else if k = 2 then .region else .partition := by
  interval_cases k <;> rfl

theorem scopeOf_partition {k : Nat} (hk : k < 4) : scopeOf k = .partition ↔ k = 3 := by
  interval_cases k <;> decide

/-- The state with the value in MOD_RESET. -/
def State.modResetSet (s : State) (v : Word) : State :=
  (s.setRegF Reg.modReset 62 56 (bits 62 56 v)).setRegF Reg.modReset 17 0 (bits 17 0 v)

/-- The order names something, and a scope below the partition holds no live job. -/
def State.resetNamed (s : State) (v : Word) : Prop :=
  bits 61 59 v < 4 ∧ s.scopeOk (resetOrder v).1 (resetOrder v).2.2 = true ∧
    ((resetOrder v).1 = .partition ∨ s.jobInScope (resetOrder v).1 (resetOrder v).2.2 = false)

/-- A write of a field, of a state that differs from `s` in registers alone. -/
theorem State.setRegF_same {s t : State} (h : t = { s with regs := t.regs }) (a hi lo v : Nat) :
    t.setRegF a hi lo v = { s with regs := (t.setRegF a hi lo v).regs } := by
  generalize t.regs = l at h
  subst h
  rfl

section
variable (s : State) (v : Word)

theorem State.reg_modResetSet {b : Nat} (h : b ≠ Reg.modReset) : (s.modResetSet v).reg b = s.reg b := by
  rw [State.modResetSet, State.reg_setRegF_other _ h, State.reg_setRegF_other _ h]

theorem State.orderedReset_modResetSet : (s.modResetSet v).orderedReset = resetOrder v := by
  have fields : ∀ w : Word, resetOrder (setBits 17 0 (bits 17 0 v) (setBits 62 56 (bits 62 56 v) w)) = resetOrder v := fun w =>
    resetOrder_congr
      (by rw [bits_setBits_other (by omega) (by omega) (by omega), bits_setBits (by omega) (by omega), bits, natBits, Nat.mod_mod])
      (by rw [bits_setBits (by omega) (by omega), bits, natBits, Nat.mod_mod])
  have word : (s.modResetSet v).reg Reg.modReset = setBits 17 0 (bits 17 0 v) (setBits 62 56 (bits 62 56 v) (s.reg Reg.modReset)) := by
    rw [State.modResetSet, State.setRegF, State.reg_setReg, State.setRegF, State.reg_setReg]
  show resetOrder ((s.modResetSet v).reg Reg.modReset) = _
  rw [word, fields]

theorem State.modResetSet_same : s.modResetSet v = { s with regs := (s.modResetSet v).regs } :=
  State.setRegF_same (State.setRegF_same rfl ..) ..

theorem State.scopeOk_regs (l : Tbl Word) (k : Scope) (t : Nat) : ({ s with regs := l } : State).scopeOk k t = s.scopeOk k t := by
  cases k <;> rfl

theorem State.scopeOk_modResetSet (k : Scope) (t : Nat) : (s.modResetSet v).scopeOk k t = s.scopeOk k t := by
  rw [s.modResetSet_same v, State.scopeOk_regs]

theorem State.jobState_modResetSet (n : Nat) : (s.modResetSet v).jobState n = s.jobState n :=
  congrArg (bits 3 0) (s.reg_modResetSet v (by unfold Reg.fltJob Reg.modReset; omega))

theorem State.jobInScope_congr {s t : State} (slots : t.slots = s.slots) (jobs : ∀ n, t.jobState n = s.jobState n) (k : Scope) (n : Nat) :
    t.jobInScope k n = s.jobInScope k n := by
  have slot : t.slot = s.slot := by
    funext m
    rw [State.slot, State.slot, slots]
  have occupied : t.occupied = s.occupied := by
    funext m
    rw [State.occupied, State.occupied, slot]
  have regions : t.scopeRegions k n = s.scopeRegions k n := by
    unfold State.scopeRegions
    rw [occupied, slot]
  have holder : t.slotOfRegion = s.slotOfRegion := by
    funext r
    rw [State.slotOfRegion, State.slotOfRegion, occupied, slot]
  have jobState : t.jobState = s.jobState := funext jobs
  unfold State.jobInScope
  rw [regions, holder, jobState]

theorem State.slots_modResetSet : (s.modResetSet v).slots = s.slots := by
  rw [State.modResetSet, State.setRegF_slots, State.setRegF_slots]

theorem State.jobInScope_modResetSet (k : Scope) (t : Nat) : (s.modResetSet v).jobInScope k t = s.jobInScope k t :=
  State.jobInScope_congr (s.slots_modResetSet v) (s.jobState_modResetSet v) k t

end

section
variable {s : State} {v : Word}

theorem State.writeModReset_plain (h : v.getLsbD 63 = false) : s.writeModReset v = (s.modResetSet v, true) :=
  if_pos (by rw [bit, h]; rfl)

/-- A write with GO, by what it orders. -/
theorem State.writeModReset_go (h : v.getLsbD 63 = true) :
    s.writeModReset v =
      if s.regF Reg.modResetStatus 1 0 = 1 then ((s.modResetSet v).reject, false)
      else if 4 ≤ bits 61 59 v || !s.scopeOk (resetOrder v).1 (resetOrder v).2.2 ||
          ((resetOrder v).1 != .partition && s.jobInScope (resetOrder v).1 (resetOrder v).2.2) then
        (((s.modResetSet v).setRegF Reg.modResetStatus 1 0 3).reject, false)
      else ((((s.modResetSet v).setRegF Reg.modResetStatus 7 4 (bits 61 59 v)).setRegF Reg.modResetStatus 1 0 1).send
        (.reset (resetOrder v).1 (resetOrder v).2.1 (resetOrder v).2.2), true) := by
  have status : (s.modResetSet v).regF Reg.modResetStatus 1 0 = s.regF Reg.modResetStatus 1 0 :=
    congrArg (bits 1 0) (s.reg_modResetSet v (by decide))
  rw [← status, ← s.scopeOk_modResetSet v, ← s.jobInScope_modResetSet v, ← s.orderedReset_modResetSet v]
  exact if_neg (by rw [bit, h]; decide)

/-- What a refused order leaves, its notice apart. -/
def State.resetRefused (s t : State) : Prop :=
  s.onlyRegs t [Reg.modReset, Reg.modResetStatus] ∧ t = { s with regs := t.regs }

theorem State.onlyRegs_modResetSet (s : State) (v : Word) : s.onlyRegs (s.modResetSet v) [Reg.modReset] := fun _ hb =>
  s.reg_modResetSet v (by simpa using hb)

theorem State.resetRefused_status (hi lo k : Nat) : s.resetRefused ((s.modResetSet v).setRegF Reg.modResetStatus hi lo k) := by
  refine ⟨fun b hb => ?_, State.setRegF_same (s.modResetSet_same v) ..⟩
  simp only [List.mem_cons, List.not_mem_nil, or_false, not_or] at hb
  rw [State.reg_setRegF_other _ hb.2, s.reg_modResetSet v hb.1]

theorem State.resetRefused_set : s.resetRefused (s.modResetSet v) :=
  ⟨fun b hb => s.reg_modResetSet v (by simp only [List.mem_cons, not_or] at hb; exact hb.1), s.modResetSet_same v⟩

/-- The refusal of an order leaves a state that differs in the two registers and the notice alone. -/
theorem State.writeModReset_refused (h : v.getLsbD 63 = true) (refused : s.regF Reg.modResetStatus 1 0 = 1 ∨ ¬ s.resetNamed v) :
    ∃ u, s.writeModReset v = (u.reject, false) ∧ s.resetRefused u := by
  rw [State.writeModReset_go h]
  split
  case isTrue => exact ⟨_, rfl, State.resetRefused_set⟩
  case isFalse free =>
    split
    case isTrue => exact ⟨_, rfl, State.resetRefused_status 1 0 3⟩
    case isFalse open_ =>
      refine absurd ?_ (refused.resolve_left free)
      simp only [Bool.or_eq_true, Bool.and_eq_true, Bool.not_eq_true', decide_eq_true_eq, bne_iff_ne, not_or, not_and,
        Bool.not_eq_true, Bool.not_eq_false] at open_
      obtain ⟨⟨kind, ok⟩, jobless⟩ := open_
      exact ⟨by omega, ok, or_iff_not_imp_left.2 jobless⟩

theorem State.writeModReset_taken (h : v.getLsbD 63 = true) (free : s.regF Reg.modResetStatus 1 0 ≠ 1) (named : s.resetNamed v) :
    s.writeModReset v = ((((s.modResetSet v).setRegF Reg.modResetStatus 7 4 (bits 61 59 v)).setRegF Reg.modResetStatus 1 0 1).send
      (.reset (resetOrder v).1 (resetOrder v).2.1 (resetOrder v).2.2), true) := by
  obtain ⟨kind, ok, jobless⟩ := named
  rw [State.writeModReset_go h, if_neg free, if_neg]
  simp only [ok, Bool.or_eq_true, Bool.and_eq_true, decide_eq_true_eq, bne_iff_ne, Bool.not_true, Bool.false_eq_true, or_false, not_or,
    not_and]
  exact ⟨by omega, fun below live => by simp [jobless.resolve_left below] at live⟩

end

section
variable {s : State} {v : Word} (src : Src) (works : s.boot.stage ≠ 7)

theorem State.regSilent_modReset {s : State} (works : s.boot.stage ≠ 7) : s.regSilent Reg.modReset = false := by
  have range : fmRange Reg.modReset = none := by decide
  simp [State.regSilent, range, works]

include works

theorem modResetGo_of_ok {u : State} (write : s.writeModReset v = (u, true)) : exec (.modResetGo src v) s = .next u := by
  have through := State.through_ok (src := src) (w := v) (r := (u, Kct.ok)) (State.regSilent_modReset works) (.inl works)
    (show Kct.ok ≠ Kct.rejected by decide)
  show Host.Outcome.next (s.hostWrite src Reg.modReset v) = _
  rw [State.hostWrite_modReset, write]
  exact congrArg (fun r => Host.Outcome.next r.1) through

theorem modResetGo_of_rejected {u : State} (write : s.writeModReset v = (u.reject, false)) :
    exec (.modResetGo src v) s =
      .next { u with inFlight := u.inFlight ++ [.faultNotice ⟨0x4071, none, srcSession src, Reg.modReset, 15⟩] } := by
  have through := State.through_rejected (src := src) (w := v) (t := u.reject) (State.regSilent_modReset works) works
  show Host.Outcome.next (s.hostWrite src Reg.modReset v) = _
  rw [State.hostWrite_modReset, write, ← State.tagged_reject u none 0 _ _ (by decide)]
  exact congrArg (fun r => Host.Outcome.next r.1) through

theorem modResetGo_plain (h : v.getLsbD 63 = false) : ∃ t, exec (.modResetGo src v) s = .next t ∧ s.onlyRegs t [Reg.modReset] ∧
    t = { s with regs := t.regs } :=
  ⟨_, modResetGo_of_ok src works (State.writeModReset_plain h), s.onlyRegs_modResetSet v, s.modResetSet_same v⟩

theorem modResetGo_refused (h : v.getLsbD 63 = true) (refused : s.regF Reg.modResetStatus 1 0 = 1 ∨ ¬ s.resetNamed v) :
    ∃ t u d, exec (.modResetGo src v) s = .next t ∧ s.onlyRegs t [Reg.modReset, Reg.modResetStatus] ∧
      t = { s with regs := t.regs, inFlight := s.inFlight ++ [.faultNotice ⟨0x4071, none, u, d, 15⟩] } := by
  obtain ⟨u, write, only, same⟩ := State.writeModReset_refused h refused
  refine ⟨_, srcSession src, Reg.modReset, modResetGo_of_rejected src works write, only, ?_⟩
  generalize u.regs = l at same ⊢
  subst same
  rfl

theorem modResetGo_taken (h : v.getLsbD 63 = true) (free : s.regF Reg.modResetStatus 1 0 ≠ 1) (named : s.resetNamed v) :
    ∃ t, exec (.modResetGo src v) s = .next t ∧ t.regF Reg.modResetStatus 1 0 = 1 ∧ t.regF Reg.modResetStatus 7 4 = bits 61 59 v ∧
      s.onlyRegs t [Reg.modReset, Reg.modResetStatus] ∧
      t = { s with regs := t.regs, inFlight := s.inFlight ++ [.reset (resetOrder v).1 (resetOrder v).2.1 (resetOrder v).2.2] } := by
  have same := State.setRegF_same (State.setRegF_same (s.modResetSet_same v) Reg.modResetStatus 7 4 (bits 61 59 v)) Reg.modResetStatus 1 0 1
  have only := (State.resetRefused_status (s := s) (v := v) 7 4 (bits 61 59 v)).1
  have kind := named.1
  refine ⟨_, modResetGo_of_ok src works (State.writeModReset_taken h free named), ?_, ?_, fun b hb => ?_, ?_⟩
  · rw [State.send_regF, State.regF_setRegF _ _ (by omega) (by omega)]
    rfl
  · rw [State.send_regF, State.regF_setRegF_field _ _ (by omega) (by omega) (.inr (by omega)),
      State.regF_setRegF _ _ (by omega) (by omega)]
    omega
  · have other : b ≠ Reg.modResetStatus := by
      rintro rfl
      exact hb (by simp)
    rw [State.send_reg, State.reg_setRegF_other _ other, only b hb]
  · generalize ((s.modResetSet v).setRegF Reg.modResetStatus 7 4 (bits 61 59 v)).setRegF Reg.modResetStatus 1 0 1 = u at same ⊢
    generalize u.regs = l at same ⊢
    subst same
    rfl

end

theorem resetOrder_eq {v : Word} (kind : bits 61 59 v < 4) : resetOrder v =
    (if bits 61 59 v = 0 then .cell else if bits 61 59 v = 1 then .block else if bits 61 59 v = 2 then .region else .partition,
      if v.getLsbD 62 = true then .absorb else .drain, if bits 61 59 v = 3 then bits 58 56 v else bits 17 0 v) := by
  rw [resetOrder]
  simp only [scopeOf_partition kind]
  rw [scopeOf_eq kind]
  rfl

end Sys2Proof.Machine

namespace Sys2Proof.Machine

open Sys2Proof

/-! ## A reset takes its scope (R122, R616) -/

/-- A map that also sees the entries' places keeps the keys. -/
theorem Tbl.find_zipIdx_map {α β : Type} (g : Nat → α → Nat → β) {k : Nat} {x : α} {t : Tbl α} (h : Tbl.find k t = some x)
    (i : Nat) :
    ∃ j, Tbl.find k ((t.zipIdx i).map fun e => (e.1.1, g e.1.1 e.1.2 e.2)) = some (g k x j) := by
  induction t generalizing i with
  | nil => exact absurd h (by simp)
  | cons e t ih =>
    by_cases here : e.1 = k
    · refine ⟨i, ?_⟩
      simp only [Tbl.find, here, if_true, Option.some.injEq] at h
      simp [Tbl.find, here, h]
    · simp only [Tbl.find, if_neg here] at h
      obtain ⟨j, found⟩ := ih h (i + 1)
      exact ⟨j, by simpa [Tbl.find, here] using found⟩

/-- A scope below the partition does not depend on the state. -/
theorem State.inScope_below {k : Scope} (below : k ≠ .partition) (s t : State) (n c : Nat) : s.inScope k n c = t.inScope k n c := by
  cases k
  case partition => contradiction
  all_goals rfl

/-- The state with the scope taken, but for the record of the run. -/
def State.taken (s : State) (k : Scope) (mode : ResetMode) (n : Nat) : State :=
  ((s.cutBoundary k n mode).takeCells k n mode).resetHubs k n

theorem State.taken_same (s : State) (k : Scope) (mode : ResetMode) (n : Nat) {p : Part} (hp : Nat.testBit 0x400047a p.index = false) :
    p.same s (s.taken k mode n) := by
  refine same_of_blur ?_ p hp
  rw [State.taken, State.resetHubs_blur _ rfl, State.takeCells_blur _ rfl, State.cutBoundary_blur _ rfl]

theorem State.resetHubs_cells (s : State) (k : Scope) (n : Nat) : (s.resetHubs k n).cells = s.cells :=
  same_of_blur (State.resetHubs_blur 0x450 rfl s k n) .cells rfl

theorem State.find_taken {s : State} {k : Scope} (below : k ≠ .partition) (mode : ResetMode) (n : Nat) {c : Nat} {x : CellSt}
    (found : s.cells.find c = some x) : ∃ j, (s.taken k mode n).cells.find c =
      some (if s.inScope k n c = true then x.take mode (k == .region || k == .partition) (s.freeCtr + 17 * j) else x) := by
  obtain ⟨j, image⟩ := Tbl.find_zipIdx_map (fun d y j => if (s.cutBoundary k n mode).inScope k n d then
    y.take mode (k == .region || k == .partition) (s.freeCtr + 17 * j) else y) found 0
  rw [State.inScope_below below _ s] at image
  refine ⟨j, ?_⟩
  rw [State.taken, State.resetHubs_cells]
  exact image

/-- A looper after a reset of a scope below the partition: a region's clears a snag. -/
theorem LoopSt.afterReset_below {k : Scope} (below : k ≠ .partition) (l : LoopSt) :
    l.afterReset (k == .region || k == .partition) =
      if l = .unconfigured then .unconfigured else if l = .snag ∧ k ≠ .region then .snag else .idle := by
  cases k
  case partition => contradiction
  all_goals cases l <;> rfl

section
variable {s : State} {k : Scope} {n : Nat}

theorem State.resetSlots_none (below : k ≠ .partition) (empty : k = .region → s.slotOfRegion n = none) : s.resetSlots k n = s := by
  cases k with
  | partition => contradiction
  | region =>
    unfold State.resetSlots
    dsimp only
    rw [empty rfl]
  | cell => rfl
  | block => rfl

/-- The record of a reset as it starts. -/
def State.resetRun (s : State) (k : Scope) (mode : ResetMode) (n : Nat) (host : Bool) : ResetRun :=
  let repair := if k = .region then (List.range 8).find? (fun m => match s.repair m with
      | some p => p.step == 3 && p.regions.contains n
      | none => false) else none
  ⟨k, mode, n, repair, host, if mode = .drain then s.flitsInto k n else []⟩

/-- A reset below the partition that meets no load and no slot. -/
theorem State.startReset_below (below : k ≠ .partition) (empty : k = .region → s.slotOfRegion n = none) (idle : s.loadActive = false)
    (mode : ResetMode) (host : Bool) :
    s.startReset k mode n host = { s.taken k mode n with resets := s.resets ++ [s.resetRun k mode n host] } := by
  have resets : (s.taken k mode n).resets = s.resets := s.taken_same k mode n (p := .resets) rfl
  have slots : (s.cutBoundary k n mode).resetSlots k n = s.cutBoundary k n mode := State.resetSlots_none below empty
  unfold State.startReset
  dsimp only
  rw [idle, slots, Bool.false_and, Bool.false_and, if_neg Bool.false_ne_true, ← resets]
  rfl

/-- What a reset leaves of a cell in its scope. -/
theorem CellSt.take_below (below : k ≠ .partition) (x : CellSt) (mode : ResetMode) (j : Nat) :
    let y := x.take mode (k == .region || k == .partition) j
    y.resetting = some mode ∧
      y.looper = (if x.looper = .unconfigured then .unconfigured else if x.looper = .snag ∧ k ≠ .region then .snag else .idle) ∧
      y.array = .idle ∧ y.vector = .idle ∧ y.move = .idle ∧ y.exch = .idle ∧ y.queue = [] ∧ y.stack = [] ∧ y.valid0 = false ∧
      y.valid1 = false ∧ y.stepMem = x.stepMem ∧ y.xchgMem = x.xchgMem ∧ y.cfg = x.cfg ∧ y.under = x.under ∧ y.near = x.near ∧
      y.configured = x.configured :=
  ⟨rfl, LoopSt.afterReset_below below _, rfl, rfl, rfl, rfl, rfl, rfl, rfl, rfl, rfl, rfl, rfl, rfl, rfl, rfl⟩

section
variable (mode : ResetMode) (unordered : s.regF Reg.modResetStatus 1 0 ≠ 1)
include unordered

theorem exec_reset : exec (.reset k mode n) s = .next (
    let s := s.deliver (.reset k mode n)
    if !s.scopeOk k n then s
    else if s.resets.any (fun r => r.scope == k && r.target == n) then
      { s with resets := s.resets.map (fun r => if r.scope = k ∧ r.target = n then { r with host := r.host || false } else r) }
    else s.startReset k mode n false) := by
  have host : ((s.deliver (.reset k mode n)).regF Reg.modResetStatus 1 0 == 1) = false := beq_false_of_ne unordered
  show execReset k mode n s = _
  unfold execReset
  dsimp only
  rw [host, Bool.false_and, Bool.false_and, if_neg Bool.false_ne_true]

theorem reset_unnamed (bad : s.scopeOk k n = false) : exec (.reset k mode n) s = .next (s.deliver (.reset k mode n)) := by
  have bad' : (s.deliver (.reset k mode n)).scopeOk k n = false := bad
  rw [exec_reset mode unordered]
  exact congrArg _ (if_pos (by rw [bad']; rfl))

theorem reset_starts (named : s.scopeOk k n = true) (single : ∀ r ∈ s.resets, ¬ (r.scope = k ∧ r.target = n))
    (below : k ≠ .partition) (idle : s.loadActive = false) (empty : k = .region → s.slotOfRegion n = none) :
    exec (.reset k mode n) s = .next { (s.deliver (.reset k mode n)).taken k mode n with
      resets := s.resets ++ [(s.deliver (.reset k mode n)).resetRun k mode n false] } := by
  have named' : (s.deliver (.reset k mode n)).scopeOk k n = true := named
  have single' : (s.deliver (.reset k mode n)).resets.any (fun r => r.scope == k && r.target == n) = false := by
    simpa using fun r h e => not_and.1 (single r h) e
  rw [exec_reset mode unordered]
  dsimp only
  rw [named', single', State.startReset_below (s := s.deliver (.reset k mode n)) below empty idle]
  rfl

end

end

/-! ## Completion and the drain limit (R618, R619) -/

theorem State.inScope_congr {s t : State} (slots : t.slots = s.slots) (k : Scope) (n c : Nat) : t.inScope k n c = s.inScope k n c := by
  have slot : t.slot = s.slot := by
    funext m
    rw [State.slot, State.slot, slots]
  unfold State.inScope State.occupied
  rw [slot]

theorem State.reg_clearRegs (s : State) {p : Nat → Bool} {a : Nat} (kept : p a = false) : (s.clearRegs p).reg a = s.reg a := by
  unfold State.reg State.clearRegs
  rw [Tbl.find_filter (p := fun b => !p b) (by simp [kept])]

/-- The registers outside the foremen's ranges outlast what a reset leaves of its hubs. -/
theorem State.reg_resetHubs (s : State) (k : Scope) (n : Nat) {a : Nat} (outside : fmRange a = none) :
    (s.resetHubs k n).reg a = s.reg a := by
  unfold State.resetHubs
  rw [State.reg_clearRegs _ (by rw [outside])]
  rfl

/-- A change of the cells in a scope. -/
def scopeMap (inside : Nat → Bool) (g : CellSt → CellSt) (t : Tbl CellSt) : Tbl CellSt :=
  t.map fun e => (e.1, if inside e.1 then g e.2 else e.2)

theorem find_scopeMap (inside : Nat → Bool) (g : CellSt → CellSt) {t : Tbl CellSt} {c : Nat} {x : CellSt} (found : t.find c = some x) :
    (scopeMap inside g t).find c = some (if inside c = true then g x else x) := by
  rw [scopeMap, Tbl.find_map (fun d y => if inside d then g y else y), found]
  rfl

/-- A cell whose reset is over, or goes on in the mode given, without its exchange. -/
def CellSt.resets (x : CellSt) (mode : Option ResetMode) : CellSt := { x with resetting := mode, xrun := none }

/-- The hubs as the only reset, now complete, leaves them. -/
def State.hubsEnded (s : State) (r : ResetRun) : State := ({ s with resets := [] } : State).resetHubs r.scope r.target

/-- The cells, hubs and runs once the only reset has completed. -/
def State.ended (s : State) (r : ResetRun) : State :=
  { s.hubsEnded r with cells := scopeMap ((s.hubsEnded r).inScope r.scope r.target) (fun x => x.resets none) (s.hubsEnded r).cells }

section
variable {s : State} {r : ResetRun}

theorem State.hubsEnded_same {p : Part} (hp : Nat.testBit 0x10000450 p.index = false) : p.same s (s.hubsEnded r) := by
  refine same_of_blur ?_ p hp
  rw [State.hubsEnded, State.resetHubs_blur _ rfl]
  exact blur_10000000 0x10000450 rfl ..

theorem State.resets_hubsEnded : (s.hubsEnded r).resets = [] :=
  same_of_blur (State.resetHubs_blur 0x450 rfl { s with resets := [] } r.scope r.target) .resets rfl

theorem State.ended_same {p : Part} (hp : Nat.testBit 0x10000470 p.index = false) : p.same s (s.ended r) := by
  refine same_of_blur ?_ p hp
  have cells : (s.ended r).blur 0x10000470 = (s.hubsEnded r).blur 0x10000470 := blur_20 0x10000470 rfl ..
  rw [cells, State.hubsEnded, State.resetHubs_blur _ rfl]
  exact blur_10000000 0x10000470 rfl ..

theorem State.find_ended {c : Nat} {x : CellSt} (found : s.cells.find c = some x) : (s.ended r).cells.find c =
    some (if s.inScope r.scope r.target c = true then x.resets none else x) := by
  have slots : (s.hubsEnded r).slots = s.slots := State.hubsEnded_same (p := .slots) rfl
  have cells : (s.hubsEnded r).cells = s.cells := State.hubsEnded_same (p := .cells) rfl
  rw [← State.inScope_congr slots]
  exact find_scopeMap ((s.hubsEnded r).inScope r.scope r.target) (fun y => y.resets none) ((congrArg (Tbl.find c) cells).trans found)

theorem State.reg_ended {a : Nat} (outside : fmRange a = none) : (s.ended r).reg a = s.reg a :=
  State.reg_resetHubs { s with resets := [] } r.scope r.target outside

theorem State.endReset_only (only : s.resets = [r]) (unrepaired : r.repair = none) (started : s.ldr.waits = false) :
    s.endReset r = if r.host then (s.ended r).setRegF Reg.modResetStatus 1 0 2 else s.ended r := by
  have erased : s.resets.erase r = [] := by simp [only]
  have free : ∀ c, (s.hubsEnded r).resetOver c = none := fun c => by
    rw [State.resetOver, State.resets_hubsEnded, List.find?_nil, Option.map_none]
  have cells : ({ s.hubsEnded r with cells := (s.hubsEnded r).cells.map fun e => (e.1,
      if (s.hubsEnded r).inScope r.scope r.target e.1 then
        { e.2 with resetting := (s.hubsEnded r).resetOver e.1, xrun := none } else e.2) } : State) = s.ended r := by
    simp only [free]
    rfl
  have waits : (s.hubsEnded r).ldr.waits = false :=
    (congrArg LdrSt.waits (State.hubsEnded_same (s := s) (r := r) (p := .ldr) rfl)).trans started
  unfold State.endReset
  dsimp only
  rw [unrepaired, erased, ← State.hubsEnded]
  simp only [waits, Bool.false_and, Bool.false_eq_true, if_false, cells]

end

/-- The only reset completes. -/
theorem resetQuiet_ends {s : State} {r : ResetRun} (only : s.resets = [r]) (quiet : s.quiet r = true) (unrepaired : r.repair = none)
    (started : s.ldr.waits = false) :
    exec .resetQuiet s = .next (if r.host then (s.ended r).setRegF Reg.modResetStatus 1 0 2 else s.ended r) := by
  have all_quiet : s.resets.filter s.quiet = [r] := by simp [only, quiet]
  show Host.Outcome.next ((s.resets.filter s.quiet).foldl State.endReset s) = _
  rw [all_quiet, List.foldl_cons, List.foldl_nil, State.endReset_only only unrepaired started]

theorem resetQuiet_waits {s : State} (busy : ∀ r ∈ s.resets, s.quiet r = false) : exec .resetQuiet s = .next s := by
  have none_quiet : s.resets.filter s.quiet = [] := List.filter_eq_nil_iff.2 fun r hr => by simp [busy r hr]
  show Host.Outcome.next ((s.resets.filter s.quiet).foldl State.endReset s) = _
  rw [none_quiet, List.foldl_nil]

theorem drainLimitExpiry_waits {s : State} (done : ∀ r ∈ s.resets, r.mode = .drain → s.quiet r = true) :
    exec .drainLimitExpiry s = .next s := by
  have none_late : s.resets.filter (fun r => r.mode == .drain && !s.quiet r) = [] :=
    List.filter_eq_nil_iff.2 fun r hr => by simpa using done r hr
  show execDrainLimitExpiry s = _
  unfold execDrainLimitExpiry
  rw [none_late, List.foldl_nil]

/-- A reset that the drain limit turns into ABSORB. -/
def State.absorbed (s : State) (r : ResetRun) : State :=
  { s with
    resets := [{ r with mode := .absorb, awaits := [] }]
    cells := scopeMap (s.inScope r.scope r.target) (fun x => x.resets (some .absorb)) s.cells }

theorem drainLimitExpiry_absorbs {s : State} {r : ResetRun} (only : s.resets = [r]) (drains : r.mode = .drain) (busy : s.quiet r = false)
    (clear : s.fabricFlits = []) : exec .drainLimitExpiry s = .next (s.absorbed r) := by
  have late : s.resets.filter (fun r => r.mode == .drain && !s.quiet r) = [r] := by simp [only, drains, busy]
  show execDrainLimitExpiry s = _
  unfold execDrainLimitExpiry
  rw [late, List.foldl_cons, List.foldl_nil, clear, List.filter_nil, List.foldl_nil, only]
  simp only [List.map_cons, List.map_nil, if_pos]
  rfl

end Sys2Proof.Machine

namespace Sys2Proof.Machine

open Sys2Proof

/-! ## The cruise of a region (R613 to R615, R632) -/

/-- A table after one write per row, at keys that tell the rows apart. -/
theorem Tbl.get_foldl_set {α : Type} [DecidableEq α] (d : α) {key : Nat → Nat} (apart : ∀ a b, key a = key b → a = b)
    (f : Nat → α) (l : List Nat) (row : Nat) (t : Tbl α) :
    Tbl.get d (key row) (l.foldl (fun t a => Tbl.set d (key a) (f a) t) t) = if row ∈ l then f row else Tbl.get d (key row) t := by
  induction l generalizing t with
  | nil => simp
  | cons a l ih =>
    rw [List.foldl_cons, ih]
    by_cases here : row = a
    · subst here
      simp
    · rw [Tbl.get_set_other d d fun same => here (apart _ _ same)]
      simp [here]

/-- RGN_CRUISE as a cruise leaves it. -/
def cruiseWord (ms phase : Nat) (lost : Bool) : Word :=
  BitVec.ofNat 64 (field 63 48 (min ms 65535) + field 47 32 phase + (if lost then 3 else 2))

theorem bits_cruiseWord (ms : Nat) {phase : Nat} (small : phase < 65536) (lost : Bool) :
    bits 2 0 (cruiseWord ms phase lost) = (if lost = true then 3 else 2) ∧ bits 63 48 (cruiseWord ms phase lost) = min ms 65535 ∧
      bits 47 32 (cruiseWord ms phase lost) = phase := by
  simp only [cruiseWord, bits, natBits, field, BitVec.toNat_ofNat]
  split <;> omega

section
variable {s t : State} (flt : t.flt = s.flt) (r : StageReport) (g : Nat)
include flt

theorem State.rowBad_congr (row : Nat) : t.rowBad r g row = s.rowBad r g row := by
  simp only [State.rowBad, State.markedAt, flt]

theorem State.blockHole_congr : t.blockHole r = s.blockHole r := by
  funext f
  simp only [State.blockHole, State.rowBad_congr flt, flt]

theorem State.spareCode_congr (row : Nat) : t.spareCode r g row = s.spareCode r g row := by
  unfold State.spareCode
  rw [State.blockHole_congr flt, State.rowBad_congr flt]

variable (regs : t.regs = s.regs)
include regs

omit flt in
theorem State.breaker_congr : t.breaker g = s.breaker g := by
  simp only [State.breaker, State.regF, State.reg, regs]

theorem State.regionLost_congr : t.regionLost r g = s.regionLost r g := by
  simp only [State.regionLost, State.breakerOpen, State.breaker_congr g regs, State.blockHole_congr flt]

theorem State.cruiseMap_congr : t.cruiseMap r g = s.cruiseMap r g := by
  simp only [State.cruiseMap, State.regionLost_congr flt r g regs, State.blockHole_congr flt]

end

/-- The region's disagreements and holes told, before its maps change. -/
def State.cruiseTold (s : State) (r : StageReport) (g : Nat) : State := (s.reconcile r [g]).raiseHoles r [g]

/-- The region mapped by the cruise. -/
def State.cruised (s : State) (g phase : Nat) (r : StageReport) : State :=
  (((s.cruiseTold r g).mapRegion r g).setCruise g r.elapsedMs phase ((s.cruiseTold r g).regionLost r g)).raiseC6 r [g]

theorem State.reg_congr {s t : State} (regs : t.regs = s.regs) (a : Nat) : t.reg a = s.reg a := by
  unfold State.reg
  rw [regs]

/-- The station with the cruise's findings. -/
def State.mappedRgn (s : State) (r : StageReport) (g : Nat) : RgnSt :=
  { s.rgn g with
    map := BitVec.ofNat 30 (s.cruiseMap r g), dark := s.breakerOpen g, held := s.regionLost r g,
    dead := (r.thoraxDead.filter fun q => regionOf (cellAt q 239) == g).map fun q => (cellAt q 239, some Port.east), detourNone := false }

section
variable (s : State) (g phase : Nat) (r : StageReport)

theorem State.spares_mapRegion : (s.mapRegion r g).spares =
    (List.range 240).foldl (fun t row => Tbl.set 9 (g * 240 + row) (s.spareCode r g row) t) s.spares := by rw [State.mapRegion]

theorem State.spareOf_mapRegion {row : Nat} (h : row < 240) : (s.mapRegion r g).spareOf g row = s.spareCode r g row := by
  have written := Tbl.get_foldl_set 9 (key := fun a => g * 240 + a) (fun _ _ => Nat.add_left_cancel) (s.spareCode r g) (List.range 240)
    row s.spares
  rw [State.spareOf, State.spares_mapRegion, written, if_pos (List.mem_range.2 h)]

theorem State.cruiseTold_same {p : Part} (hp : Nat.testBit 0x40000002 p.index = false) : p.same s (s.cruiseTold r g) := by
  refine same_of_blur ?_ p hp
  rw [State.cruiseTold, State.raiseHoles_blur _ rfl, State.reconcile_blur _ rfl]

theorem State.cruised_same {p : Part} (hp : Nat.testBit 0x40000512 p.index = false) : p.same s (s.cruised g phase r) := by
  refine same_of_blur ?_ p hp
  rw [State.cruised, State.raiseC6_blur _ rfl, State.setCruise_blur _ rfl, State.mapRegion_blur _ rfl, State.cruiseTold,
    State.raiseHoles_blur _ rfl, State.reconcile_blur _ rfl]

/-- The maps and RGN_CRUISE are as before the notices of phase C6. -/
theorem State.cruised_maps {p : Part} (hp : Nat.testBit 0x2 p.index = false) :
    p.same (((s.cruiseTold r g).mapRegion r g).setCruise g r.elapsedMs phase ((s.cruiseTold r g).regionLost r g)) (s.cruised g phase r) :=
  same_of_blur (State.raiseC6_blur 0x2 rfl _ r [g]) p hp

theorem State.reg_cruised (a : Nat) : (s.cruised g phase r).reg a =
    (((s.cruiseTold r g).mapRegion r g).setCruise g r.elapsedMs phase ((s.cruiseTold r g).regionLost r g)).reg a :=
  State.reg_congr (s.cruised_maps g phase r (p := .regs) rfl) a

theorem State.regionLost_told : (s.cruiseTold r g).regionLost r g = s.regionLost r g :=
  State.regionLost_congr (s.cruiseTold_same g r (p := .flt) rfl) r g (s.cruiseTold_same g r (p := .regs) rfl)

theorem State.reg_cruised_same : (s.cruised g phase r).reg (Reg.rgnCruise g) = cruiseWord r.elapsedMs phase (s.regionLost r g) := by
  rw [State.reg_cruised, State.setCruise, State.reg_setReg, State.regionLost_told, cruiseWord]

theorem State.onlyRegs_cruised : s.onlyRegs (s.cruised g phase r) [Reg.rgnCruise g] := fun a other => by
  have told : (s.cruiseTold r g).regs = s.regs := s.cruiseTold_same g r (p := .regs) rfl
  have mapped : ((s.cruiseTold r g).mapRegion r g).regs = (s.cruiseTold r g).regs :=
    same_of_blur (State.mapRegion_blur 0x500 rfl _ r g) .regs rfl
  rw [State.reg_cruised, State.setCruise, State.reg_setReg_other _ (by simpa using other), State.reg_congr mapped, State.reg_congr told]

theorem State.spareOf_cruised {row : Nat} (h : row < 240) : (s.cruised g phase r).spareOf g row = s.spareCode r g row := by
  have spares : (s.cruised g phase r).spares = ((s.cruiseTold r g).mapRegion r g).spares :=
    Eq.trans (s.cruised_maps g phase r (p := .spares) rfl) (same_of_blur (State.setCruise_blur 0x10 rfl ..) .spares rfl)
  have row_set := State.spareOf_mapRegion (s.cruiseTold r g) g r h
  rw [State.spareCode_congr (s.cruiseTold_same g r (p := .flt) rfl)] at row_set
  rwa [State.spareOf, spares, ← State.spareOf]

theorem State.rgns_cruised : (s.cruised g phase r).rgns = (s.cruiseTold r g).rgns.put g ((s.cruiseTold r g).mappedRgn r g) :=
  s.cruised_maps g phase r (p := .rgns) rfl

theorem State.onlyRgn_cruised : s.onlyRgn (s.cruised g phase r) g := fun q other => by
  have told : (s.cruiseTold r g).rgns = s.rgns := s.cruiseTold_same g r (p := .rgns) rfl
  rw [State.rgn, State.rgns_cruised, Tbl.get_put_other _ other, told, State.rgn]

/-- What the cruise finds of the region. -/
theorem State.rgn_cruised : ((s.cruised g phase r).rgn g).map = BitVec.ofNat 30 (s.cruiseMap r g) ∧
    ((s.cruised g phase r).rgn g).held = s.regionLost r g ∧ ((s.cruised g phase r).rgn g).dark = s.breakerOpen g := by
  have flt : (s.cruiseTold r g).flt = s.flt := s.cruiseTold_same g r (p := .flt) rfl
  have regs : (s.cruiseTold r g).regs = s.regs := s.cruiseTold_same g r (p := .regs) rfl
  rw [State.rgn, State.rgns_cruised, Tbl.get_put, ← State.cruiseMap_congr flt r g regs, ← State.regionLost_congr flt r g regs,
    State.breakerOpen, ← State.breaker_congr g regs]
  exact ⟨rfl, rfl, rfl⟩

/-- Without a repair that waits for the region, the cruise is all that happens. -/
theorem exec_regionCruise (inside : g < 72) (held : (s.rgn g).held = true) (lit : (s.rgn g).dark = false) (shut : s.breaker g = 0)
    (unrepaired : ∀ n, n < 8 → (s.job n).repair = none) : exec (.regionCruise g phase r) s = .next (s.cruised g phase r) := by
  have jobs : (s.cruised g phase r).jobs = s.jobs := s.cruised_same g phase r (p := .jobs) rfl
  have kept : ∀ l : List Nat, (∀ n ∈ l, n < 8) → l.foldl (fun u n => if (u.slot n).rect.has g then u.lostReturned n else u)
      (s.cruised g phase r) = s.cruised g phase r := fun l small => by
    induction l with
    | nil => rfl
    | cons n l ih =>
      have none_waits : (s.cruised g phase r).lostReturned n = s.cruised g phase r := by
        have repair : (s.cruised g phase r).repair n = none := by
          rw [State.repair, State.job, jobs]
          exact unrepaired n (small n (List.mem_cons_self ..))
        unfold State.lostReturned
        rw [repair]
      rw [List.foldl_cons, none_waits, ite_self]
      exact ih fun m hm => small m (List.mem_cons_of_mem _ hm)
  show execRegionCruise g phase r s = _
  unfold execRegionCruise
  rw [if_neg (by simp [held, lit, shut]; omega)]
  exact congrArg _ (kept _ fun n hn => List.mem_range.1 hn)

theorem regionCruise_idle (idle : 71 < g ∨ (s.rgn g).held = false ∨ (s.rgn g).dark = true ∨ s.breaker g ≠ 0) :
    exec (.regionCruise g phase r) s = .next s :=
  congrArg Host.Outcome.next (if_pos (by simpa using idle))

end

end Sys2Proof.Machine

namespace Sys2Proof.Machine

open Sys2Proof

/-! ## The orders and the ends of resets -/

section
variable {s : State} {v : Word}

/-- What an order names, in the fields of the value written. -/
theorem State.resetNamed_iff {k target : Nat} {kind : Scope} (number : bits 61 59 v = k)
    (order : k < 4 → (resetOrder v).1 = kind ∧ (resetOrder v).2.2 = target) (partition : k < 4 → (kind = .partition ↔ k = 3)) :
    (k < 4 ∧ s.scopeOk kind target = true ∧ (k = 3 ∨ s.jobInScope kind target = false)) ↔ s.resetNamed v := by
  unfold State.resetNamed
  rw [number]
  refine and_congr_right fun small => ?_
  obtain ⟨first, third⟩ := order small
  rw [first, third, partition small]

end

/-- The only reset, once its boundary is quiet: its cells are free, and an ordered one says so in MOD_RESET_STATUS. -/
theorem resetQuiet_completes {s : State} {r : ResetRun} (only : s.resets = [r]) (quiet : s.quiet r = true) (unrepaired : r.repair = none)
    (started : s.ldr.waits = false) : ∃ t, exec .resetQuiet s = .next t ∧ t.resets = [] ∧
      (∀ c x, s.cells.find c = some x →
        t.cells.find c = some (if s.inScope r.scope r.target c = true then x.resets none else x)) ∧
      (r.host = true → t.regF Reg.modResetStatus 1 0 = 2) ∧ (r.host = false → t.reg Reg.modResetStatus = s.reg Reg.modResetStatus) ∧
      t.slots = s.slots ∧ t.jobs = s.jobs ∧ t.inFlight = s.inFlight := by
  have same := @State.ended_same s r
  have resets : (s.ended r).resets = [] := State.resets_hubsEnded (s := s) (r := r)
  have status : (s.ended r).reg Reg.modResetStatus = s.reg Reg.modResetStatus := State.reg_ended (by decide)
  rw [resetQuiet_ends only quiet unrepaired started]
  cases host : r.host with
  | true =>
    refine ⟨_, congrArg _ (if_pos rfl), ?_, fun c x found => ?_, fun _ => ?_, (fun h => nomatch h), ?_, ?_, ?_⟩
    · rw [State.setRegF_resets, resets]
    · rw [State.setRegF_cells, State.find_ended found]
    · rw [State.regF_setRegF _ _ (by omega) (by omega)]
      rfl
    · rw [State.setRegF_slots]
      exact same (p := .slots) rfl
    · rw [State.setRegF_jobs]
      exact same (p := .jobs) rfl
    · rw [State.setRegF_inFlight]
      exact same (p := .inFlight) rfl
  | false =>
    exact ⟨_, congrArg _ (if_neg Bool.false_ne_true), resets, fun c x => State.find_ended, (fun h => nomatch h),
      fun _ => status, same (p := .slots) rfl, same (p := .jobs) rfl, same (p := .inFlight) rfl⟩

/-- Settles O41, clause by clause: MOD_RESET, a reset's start, its end, the drain limit and the cruise of a region. -/
theorem partialResets : Obligations.PartialResets := by
  unfold Obligations.PartialResets
  intro s
  refine ⟨fun src v works => ?_, fun k mode n unordered => ⟨reset_unnamed mode unordered, fun named single below idle empty => ?_⟩,
    resetQuiet_waits,
    fun r only quiet unrepaired started => resetQuiet_completes only quiet unrepaired started,
    drainLimitExpiry_waits, fun r only drains busy clear => ?_,
    fun g phase r => ⟨regionCruise_idle s g phase r, fun inside held lit shut unrepaired small => ?_⟩⟩
  · have number : bits 61 59 v = (v.extractLsb' 59 3).toNat := bits_extract 61 59 v
    have slot : bits 58 56 v = (v.extractLsb' 56 3).toNat := bits_extract 58 56 v
    have cell : bits 17 0 v = (v.extractLsb' 0 18).toNat := bits_extract 17 0 v
    dsimp only
    rw [← number, ← slot, ← cell]
    have order := resetOrder_eq (v := v)
    have named := State.resetNamed_iff (s := s) (v := v) rfl
      (fun small => ⟨congrArg (fun o => o.1) (order small), congrArg (fun o => o.2.2) (order small)⟩)
      (fun small => by rw [← scopeOf_eq small, scopeOf_partition small])
    refine ⟨modResetGo_plain src works, fun go free name => ?_, fun go refused => ?_⟩
    · obtain ⟨t, step, busy, kind, only, same⟩ := modResetGo_taken src works go free (named.1 name)
      rw [order name.1] at same
      exact ⟨t, step, busy, kind, only, same⟩
    · exact modResetGo_refused src works go (refused.imp_right (mt named.2))
  · have step := reset_starts mode unordered named single below idle empty
    have same := @State.taken_same (s.deliver (.reset k mode n)) k mode n
    refine ⟨_, _, step, rfl, rfl, rfl, rfl, rfl, same (p := .slots) rfl, same (p := .jobs) rfl, same (p := .streams) rfl,
      same (p := .tiers) rfl, same (p := .routers) rfl, fun c x found outside => ?_, fun c x found inside => ?_⟩
    all_goals
      obtain ⟨j, image⟩ := State.find_taken (s := s.deliver (.reset k mode n)) below mode n found
      rw [State.inScope_below below _ s] at image
    · rwa [outside] at image
    · rw [inside, if_pos rfl] at image
      exact ⟨_, image, CellSt.take_below below x mode _⟩
  · exact ⟨_, drainLimitExpiry_absorbs only drains busy clear, rfl, 
      fun c x => find_scopeMap (s.inScope r.scope r.target) (fun y => y.resets (some .absorb)), rfl⟩
  · obtain ⟨map, held', dark⟩ := s.rgn_cruised g phase r
    obtain ⟨state, ms, phase'⟩ := bits_cruiseWord r.elapsedMs small (s.regionLost r g)
    have word := s.reg_cruised_same g phase r
    refine ⟨_, exec_regionCruise s g phase r inside held lit shut unrepaired, map, held', ?_, s.onlyRgn_cruised g phase r, ?_, ?_, ?_,
      s.onlyRegs_cruised g phase r, fun row => s.spareOf_cruised g phase r, s.cruised_same g phase r (p := .jobs) rfl,
      s.cruised_same g phase r (p := .cells) rfl⟩
    · rw [dark, State.breakerOpen, State.breaker, shut]
      rfl
    all_goals
      rw [State.regF, word]
      assumption

end Sys2Proof.Machine

namespace Sys2Proof.Machine

open Sys2Proof

/-! # Load-open and chunks at a target. -/

/-! ## IMG_STATUS and the counts beside it (R79) -/

theorem State.onlyRegs_setRegF (s : State) (a hi lo v : Nat) : s.onlyRegs (s.setRegF a hi lo v) [a] := fun _ hb =>
  State.reg_setRegF_other s (by simpa using hb) hi lo v

theorem State.onlyRegs_setReg (s : State) (a : Nat) (w : Word) : s.onlyRegs (s.setReg a w) [a] := fun _ hb =>
  State.reg_setReg_other s (by simpa using hb) w

theorem State.regF_lt (s : State) (a hi lo : Nat) : s.regF a hi lo < 2 ^ (hi + 1 - lo) := Nat.mod_lt _ (Nat.two_pow_pos _)

section
variable (s : State)

theorem State.imgState_setImgState {k : Nat} (h : k < 16) : (s.setImgState k).imgState = k :=
  (State.regF_setRegF s Reg.imgStatus (by omega) (by omega) k).trans (Nat.mod_eq_of_lt h)

theorem State.regF_setImgState_high (k hi : Nat) {lo : Nat} (h : 4 ≤ lo) :
    (s.setImgState k).regF Reg.imgStatus hi lo = s.regF Reg.imgStatus hi lo :=
  State.regF_setRegF_field s Reg.imgStatus (by omega) (by omega) (.inr (by omega)) k

theorem State.reg_setImgState {a : Nat} (h : a ≠ Reg.imgStatus) (k : Nat) : (s.setImgState k).reg a = s.reg a :=
  State.reg_setRegF_other s h 3 0 k

theorem State.onlyRegs_setImgState (k : Nat) : s.onlyRegs (s.setImgState k) [Reg.imgStatus] := State.onlyRegs_setRegF s _ 3 0 k

/-! ## What the loader keeps at a target -/

/-- The loader's part of target `g` is `l`; nothing else of the target and no other cell or foreman has changed. -/
def State.aimed (s t : State) (g : Target) (l : LoadSt) : Prop :=
  (∀ c, g = .cell c → t.cell c = { s.cell c with load := l } ∧ s.onlyCells t [c] ∧ t.fms = s.fms) ∧
  (∀ f, g = .foreman f → t.fm f = { s.fm f with load := l } ∧ s.onlyFm t f ∧ t.cells = s.cells)

theorem State.aimed_setLoad {g : Target} (hg : wfTarget g = true) (l : LoadSt) : s.aimed (s.setLoad g l) g l := by
  cases g with
  | cell c =>
    refine ⟨?_, fun f h => by contradiction⟩
    rintro _ ⟨⟩
    exact ⟨State.cell_setCell .., State.onlyCells_setCell s c _, rfl⟩
  | foreman f =>
    refine ⟨fun c h => by contradiction, ?_⟩
    rintro _ ⟨⟩
    exact ⟨State.fm_setFm .., State.onlyFm_setFm hg _ (State.onlyFm_refl s f), rfl⟩

@[simp] theorem State.setFm_setFm (f : FmId) (x y : FmSt) : (s.setFm f x).setFm f y = s.setFm f y := by
  simp [State.setFm, Tbl.put_put]

@[simp] theorem State.setLoad_setLoad (g : Target) (k l : LoadSt) : (s.setLoad g k).setLoad g l = s.setLoad g l := by
  cases g <;> simp [State.setLoad, State.modCell, State.modFm]

@[simp] theorem State.loadOf_setLoad (g : Target) (l : LoadSt) : (s.setLoad g l).loadOf g = l := by
  cases g <;> simp [State.setLoad, State.loadOf]

theorem State.setLoad_same (g : Target) (l : LoadSt) :
    s.setLoad g l = { s with cells := (s.setLoad g l).cells, fms := (s.setLoad g l).fms } := by
  cases g <;> rfl

@[simp] theorem State.setLoad_regs (g : Target) (l : LoadSt) : (s.setLoad g l).regs = s.regs := by cases g <;> rfl

@[simp] theorem State.setLoad_ldr (g : Target) (l : LoadSt) : (s.setLoad g l).ldr = s.ldr := by cases g <;> rfl

@[simp] theorem State.setLoad_tiers (g : Target) (l : LoadSt) : (s.setLoad g l).tiers = s.tiers := by cases g <;> rfl

@[simp] theorem State.takes_deliver (m : Instr) (g : Target) : (s.deliver m).takes g = s.takes g := by cases g <;> rfl

@[simp] theorem State.takes_setLoad (g : Target) (l : LoadSt) : (s.setLoad g l).takes g = s.takes g := by
  cases g <;> simp [State.setLoad, State.takes]

end

/-! ## Load-open (R51, R63) -/

section
variable {s : State} {g : Target}

/-- Load-open has reached target `g`, which has acknowledged it. -/
def State.acked (s : State) (g : Target) : State :=
  ((s.deliver (.loadOpen g)).setLoad g (.opening s.imgChunks s.imgDirs)).modLdr
    (fun l => { l with unacked := s.ldr.unacked.filter (fun u => u != g) })

theorem exec_loadOpen : exec (.loadOpen g) s = .next (
    if s.takes g = false ∨ s.imgState ≠ 2 then s.deliver (.loadOpen g)
    else if (s.ldr.unacked.filter (fun u => u != g)).isEmpty then (s.acked g).setImgState 3 else s.acked g) := by
  simp only [exec, execLoadOpen, State.takes_deliver, Bool.not_eq_true', State.setLoad_ldr]
  rfl

theorem loadOpen_idle (h : s.takes g = false ∨ s.imgState ≠ 2) :
    exec (.loadOpen g) s = .next { s with inFlight := s.inFlight.erase (.loadOpen g) } := by
  rw [exec_loadOpen, if_pos h]
  rfl

theorem State.ldr_acked : (s.acked g).ldr = { s.ldr with unacked := s.ldr.unacked.filter (fun u => u != g) } := by cases g <;> rfl

theorem State.mem_acked (u : Target) : u ∈ (s.acked g).ldr.unacked ↔ u ∈ s.ldr.unacked ∧ u ≠ g := by
  rw [State.ldr_acked]
  simp

theorem State.regs_acked : (s.acked g).regs = s.regs := by cases g <;> rfl

theorem State.acked_same : s.acked g = { s with
    inFlight := s.inFlight.erase (.loadOpen g), cells := (s.acked g).cells, fms := (s.acked g).fms, ldr := (s.acked g).ldr } := by
  cases g <;> rfl

theorem State.aimed_acked (hg : wfTarget g = true) : s.aimed (s.acked g) g (.opening s.imgChunks s.imgDirs) :=
  State.aimed_setLoad (s.deliver (.loadOpen g)) hg _

/-- Load-open is taken while another target is silent. -/
theorem loadOpen_waits (takes : s.takes g = true) (delivers : s.imgState = 2) (silent : ∃ u ∈ s.ldr.unacked, u ≠ g) :
    exec (.loadOpen g) s = .next (s.acked g) := by
  obtain ⟨u, hu, other⟩ := silent
  rw [exec_loadOpen, if_neg (by simp [takes, delivers]), if_neg]
  simpa using ⟨u, hu, other⟩

/-- The last acknowledgement. -/
theorem loadOpen_last (takes : s.takes g = true) (delivers : s.imgState = 2) (last : ∀ u ∈ s.ldr.unacked, u = g) :
    exec (.loadOpen g) s = .next ((s.acked g).setImgState 3) := by
  rw [exec_loadOpen, if_neg (by simp [takes, delivers]), if_pos]
  simpa using last

end

/-! ## The retry of load-open (R63) -/

section
variable {s : State}

theorem loadOpenRetry_idle (h : s.imgState ≠ 2) : exec .loadOpenRetry s = .next s := by
  simp [exec, execLoadOpenRetry, h]

theorem loadOpenRetry_again (delivers : s.imgState = 2) (begun : 0 < s.ldr.tries) (more : s.ldr.tries < 3) :
    exec .loadOpenRetry s = .next ((s.modLdr (fun l => { l with tries := l.tries + 1 })).sendAll
      ((s.ldr.unacked.filter (fun t => !s.inFlight.contains (.loadOpen t))).map Instr.loadOpen)) := by
  simp [exec, execLoadOpenRetry, delivers, begun.ne', more]

theorem loadOpenRetry_over (delivers : s.imgState = 2) (spent : 3 ≤ s.ldr.tries) :
    exec .loadOpenRetry s =
      .next ((s.modLdr (fun l => { l with suspects := l.suspects ++ l.unacked, unacked := [] })).setImgState 3) := by
  simp [exec, execLoadOpenRetry, delivers, show s.ldr.tries ≠ 0 by omega, show ¬ s.ldr.tries < 3 by omega]

/-- Every silent target has its load-open in flight once it has been sent again. -/
theorem mem_resent {u : Target} (h : u ∈ s.ldr.unacked) : Instr.loadOpen u ∈
    s.inFlight ++ (s.ldr.unacked.filter (fun t => !s.inFlight.contains (.loadOpen t))).map Instr.loadOpen := by
  by_cases there : Instr.loadOpen u ∈ s.inFlight
  · exact List.mem_append_left _ there
  · exact List.mem_append_right _ (List.mem_map_of_mem (List.mem_filter.2 ⟨h, by simpa using there⟩))

end

/-! ## The lead of a chunk (R53) -/

section
variable {s : State} {g : Target} (h : ChunkHdr) (crc : BitVec 32)

/-- The lead has reached the target, which waits for the payload. -/
def State.led (s : State) (g : Target) (h : ChunkHdr) (crc : BitVec 32) : State :=
  s.setLoad g { s.loadOf g with lead := some (h, crc), data := [] }

theorem chunkLead_idle (no : (s.loadOf g).opened = false ∨ s.takes g = false) : exec (.chunkLead g h crc) s = .next s := by
  simp [exec, execChunkLead, no]

theorem State.reg_led (a : Nat) : (s.led g h crc).reg a = s.reg a := State.reg_congr (State.setLoad_regs s g _) a

theorem chunkLead_kept (opened : (s.loadOf g).opened = true) (takes : s.takes g = true) :
    exec (.chunkLead g h crc) s = .next (
      if s.imgState = 3 then
        (s.led g h crc).setRegF Reg.imgProgress 31 0 (max (s.regF Reg.imgProgress 31 0) (ChunkHdr.seq h + 1))
      else s.led g h crc) := by
  have state : (s.led g h crc).imgState = s.imgState := congrArg (bits 3 0) (State.reg_led h crc _)
  have progress : (s.led g h crc).regF Reg.imgProgress 31 0 = s.regF Reg.imgProgress 31 0 := congrArg (bits 31 0) (State.reg_led h crc _)
  rw [← state, ← progress]
  exact congrArg Host.Outcome.next (if_neg (by simp [opened, takes]))

theorem State.led_same : s.led g h crc = { s with cells := (s.led g h crc).cells, fms := (s.led g h crc).fms } :=
  State.setLoad_same s g _

end

/-! ## The fields of a chunk's header (R52) -/

theorem ChunkHdr.seq_eq (h : ChunkHdr) : ChunkHdr.seq h = (h.extractLsb' 106 22).toNat := bits_extract 127 106 h
theorem ChunkHdr.kind_eq (h : ChunkHdr) : ChunkHdr.kind h = (h.extractLsb' 74 8).toNat := bits_extract 81 74 h
theorem ChunkHdr.nw_eq (h : ChunkHdr) : ChunkHdr.nw h = (h.extractLsb' 56 18).toNat := bits_extract 73 56 h
theorem ChunkHdr.se_eq (h : ChunkHdr) : ChunkHdr.se h = (h.extractLsb' 38 18).toNat := bits_extract 55 38 h
theorem ChunkHdr.offset_eq (h : ChunkHdr) : ChunkHdr.offset h = 16 * (h.extractLsb' 14 24).toNat := congrArg (16 * ·) (bits_extract 37 14 h)
theorem ChunkHdr.len_eq (h : ChunkHdr) : ChunkHdr.len h = 16 * (h.extractLsb' 7 7).toNat := congrArg (16 * ·) (bits_extract 13 7 h)

/-! ## The payload of a chunk (R53, R55) -/

/-- The target without the chunk that it was receiving. -/
def LoadSt.dropped (l : LoadSt) : LoadSt := { l with lead := none, data := [] }

/-- The target with chunk `q` among those held. -/
def LoadSt.holding (l : LoadSt) (q : Nat) : LoadSt := { l with held := if l.held.contains q then l.held else l.held ++ [q] }

section
variable {s : State} {g : Target} {h : ChunkHdr} {crc : BitVec 32} (data : Bytes)

theorem chunkData_idle (none : (s.loadOf g).lead = none) : exec (.chunkData g data) s = .next s := by
  simp [exec, execChunkData, none]

variable (lead : (s.loadOf g).lead = some (h, crc))
include lead

theorem exec_chunkData : exec (.chunkData g data) s = .next (
    let bs := (s.loadOf g).data ++ data
    if s.takes g = false then s.setLoad g (s.loadOf g).dropped
    else if bs.length < ChunkHdr.len h then s.setLoad g { s.loadOf g with data := bs }
    else if crc32c (toLE 16 h.toNat ++ bs.take (ChunkHdr.len h)) = crc ∧
        hitsTarget (ChunkHdr.kind h) (ChunkHdr.nw h) (ChunkHdr.se h) g = true then
      (s.setLoad g (s.loadOf g).dropped).takeChunk g h (bs.take (ChunkHdr.len h))
    else s.setLoad g (s.loadOf g).dropped) := by
  simp only [exec, execChunkData, lead, Bool.not_eq_true']
  rfl

theorem chunkData_closed (closed : s.takes g = false) : exec (.chunkData g data) s = .next (s.setLoad g (s.loadOf g).dropped) := by
  rw [exec_chunkData data lead]
  exact congrArg Host.Outcome.next (if_pos closed)

theorem chunkData_waits (takes : s.takes g = true) (short : ((s.loadOf g).data ++ data).length < ChunkHdr.len h) :
    exec (.chunkData g data) s = .next (s.setLoad g { s.loadOf g with data := (s.loadOf g).data ++ data }) := by
  rw [exec_chunkData data lead]
  exact congrArg Host.Outcome.next ((if_neg (by simp [takes])).trans (if_pos short))

theorem exec_chunkData_whole (takes : s.takes g = true) (whole : ChunkHdr.len h ≤ ((s.loadOf g).data ++ data).length) :
    exec (.chunkData g data) s = .next (
      let bs := ((s.loadOf g).data ++ data).take (ChunkHdr.len h)
      if crc32c (toLE 16 h.toNat ++ bs) = crc ∧ hitsTarget (ChunkHdr.kind h) (ChunkHdr.nw h) (ChunkHdr.se h) g = true then
        (s.setLoad g (s.loadOf g).dropped).takeChunk g h bs
      else s.setLoad g (s.loadOf g).dropped) := by
  rw [exec_chunkData data lead]
  exact congrArg Host.Outcome.next ((if_neg (by simp [takes])).trans (if_neg (by omega)))

end

/-! ## A chunk that a target takes (R51, R55) -/

section
variable {s : State} {g : Target} {h : ChunkHdr} {bs : Bytes} (l : LoadSt)

theorem State.takeChunk_directory (kind : ChunkHdr.kind h = 1) :
    (s.setLoad g l).takeChunk g h bs = s.setLoad g ((l.holding (ChunkHdr.seq h)).takeRuns g bs) := by
  unfold State.takeChunk
  rw [State.loadOf_setLoad]
  exact (if_pos kind).trans (State.setLoad_setLoad ..)

theorem State.takeChunk_outside (kind : ChunkHdr.kind h ≠ 1) (far : unitBytes (ChunkHdr.kind h) < ChunkHdr.offset h + bs.length) :
    (s.setLoad g l).takeChunk g h bs = s.setLoad g l := (if_neg kind).trans (if_pos far)

theorem State.takeChunk_cell {c : Nat} (kind : ChunkHdr.kind h ≠ 1) (within : ChunkHdr.offset h + bs.length ≤ unitBytes (ChunkHdr.kind h)) :
    (s.setLoad (.cell c) l).takeChunk (.cell c) h bs =
      s.setCell c ({ s.cell c with load := l.holding (ChunkHdr.seq h) }.writeUnit (ChunkHdr.kind h) (ChunkHdr.offset h) bs) := by
  unfold State.takeChunk
  rw [State.loadOf_setLoad]
  refine (if_neg kind).trans ((if_neg (by omega)).trans ?_)
  rw [State.setLoad_setLoad]
  simp only [State.setLoad, State.modCell, State.setCell_setCell, State.cell_setCell]
  rfl

theorem State.takeChunk_foreman {f : FmId} (kind : ChunkHdr.kind h ≠ 1)
    (within : ChunkHdr.offset h + bs.length ≤ unitBytes (ChunkHdr.kind h)) :
    (s.setLoad (.foreman f) l).takeChunk (.foreman f) h bs =
      s.setFm f ({ s.fm f with load := l.holding (ChunkHdr.seq h) }.writeUnit (ChunkHdr.kind h) (ChunkHdr.offset h) bs) := by
  unfold State.takeChunk
  rw [State.loadOf_setLoad]
  refine (if_neg kind).trans ((if_neg (by omega)).trans ?_)
  rw [State.setLoad_setLoad]
  simp only [State.setLoad, State.modFm, State.setFm_setFm, State.fm_setFm]
  rfl

end

/-! ## The run table (R51) -/

theorem LoadSt.takeRuns_same (l : LoadSt) (g : Target) (bs : Bytes) : l.takeRuns g bs = { l with runs := (l.takeRuns g bs).runs } := rfl

theorem LoadSt.mem_takeRuns (l : LoadSt) (g : Target) (bs : Bytes) {r : RunDesc} (h : r ∈ l.runs.take 512) : r ∈ (l.takeRuns g bs).runs := by
  dsimp only [LoadSt.takeRuns]
  rw [List.take_append]
  exact List.mem_append_left _ h

theorem LoadSt.length_takeRuns (l : LoadSt) (g : Target) (bs : Bytes) : (l.takeRuns g bs).runs.length ≤ 512 := List.length_take_le ..

/-! ## A payload written at a target -/

section
variable {s : State} {m : Instr}

/-- A chunk that leaves `y` at cell `c`, in the form that `Y` gives it by the state after it. -/
theorem chunk_leaves_cell {c : Nat} {y : CellSt} (h : exec m s = .next (s.setCell c y)) (Y : State → CellSt) (hy : y = Y (s.setCell c y)) :
    ∃ t, exec m s = .next t ∧ (t.cell c = Y t ∧ s.onlyCells t [c] ∧ t.fms = s.fms) ∧ t = { s with cells := t.cells, fms := t.fms } :=
  ⟨_, h, ⟨(State.cell_setCell ..).trans hy, State.onlyCells_setCell s c y, rfl⟩, rfl⟩

/-- A chunk that leaves `y` at foreman `f`, in the form that `Y` gives it by the state after it. -/
theorem chunk_leaves_foreman {f : FmId} {y : FmSt} (hf : wfFm f = true) (h : exec m s = .next (s.setFm f y)) (Y : State → FmSt)
    (hy : y = Y (s.setFm f y)) :
    ∃ t, exec m s = .next t ∧ (t.fm f = Y t ∧ s.onlyFm t f ∧ t.cells = s.cells) ∧ t = { s with cells := t.cells, fms := t.fms } :=
  ⟨_, h, ⟨(State.fm_setFm ..).trans hy, State.onlyFm_setFm hf y (State.onlyFm_refl s f), rfl⟩, rfl⟩

end

/-- Settles O48, command by command: load-open, its retry, a chunk's lead and its payload. -/
theorem chunks : Obligations.Chunks := by
  unfold Obligations.Chunks
  intro s g hg old e aim
  refine ⟨loadOpen_idle, fun takes delivers => ?_, loadOpenRetry_idle, fun delivers begun more => ?_, fun delivers spent => ?_,
    fun h crc => ⟨chunkLead_idle h crc, fun opened takes => ?_⟩, fun data => chunkData_idle data, fun data h crc lead => ?_⟩
  case refine_1 =>
    have ldr : (s.acked g).ldr = { s.ldr with unacked := (s.acked g).ldr.unacked } := by rw [State.ldr_acked]
    by_cases last : ∀ u ∈ s.ldr.unacked, u = g
    · refine ⟨_, loadOpen_last takes delivers last, State.aimed_acked hg, ldr, State.mem_acked, ?_, fun _ => ⟨?_, ?_, ?_⟩, ?_⟩
      · rintro ⟨u, hu, other⟩
        exact absurd (last u hu) other
      · exact State.imgState_setImgState _ (by decide)
      · exact (State.regF_setImgState_high _ 3 63 (by omega)).trans (congrArg (bits 63 4) (State.reg_congr State.regs_acked _))
      · exact fun a ha => (State.onlyRegs_setImgState _ 3 a ha).trans (State.reg_congr State.regs_acked a)
      · cases g <;> rfl
    · have silent : ∃ u ∈ s.ldr.unacked, u ≠ g := by simpa using last
      exact ⟨_, loadOpen_waits takes delivers silent, State.aimed_acked hg, ldr, State.mem_acked, fun _ => State.regs_acked,
        fun h => absurd h last, by cases g <;> rfl⟩
  case refine_2 => exact ⟨_, loadOpenRetry_again delivers begun more, rfl, fun u hu => mem_resent hu, rfl⟩
  case refine_3 =>
    exact ⟨_, loadOpenRetry_over delivers spent, State.imgState_setImgState _ (by decide),
      State.regF_setImgState_high _ 3 63 (by omega), rfl, State.onlyRegs_setImgState _ 3, rfl⟩
  case refine_4 =>
    refine ⟨_, chunkLead_kept h crc opened takes, ?_⟩
    by_cases casts : s.imgState = 3
    · rw [if_pos casts]
      have small : max (s.regF Reg.imgProgress 31 0) (ChunkHdr.seq h + 1) < 2 ^ 32 := by
        have before := State.regF_lt s Reg.imgProgress 31 0
        have number : ChunkHdr.seq h < 2 ^ 22 := Nat.mod_lt _ (by omega)
        omega
      refine ⟨State.aimed_setLoad s hg _, fun h => absurd casts h, fun _ => ⟨?_, ?_, fun a ha => ?_⟩, by cases g <;> rfl⟩
      · rw [State.regF_setRegF _ _ (by omega) (by omega), ← ChunkHdr.seq_eq]
        exact Nat.mod_eq_of_lt small
      · rw [State.regF_setRegF_field _ _ (by omega) (by omega) (.inr (by omega))]
        exact congrArg (bits 63 32) (State.reg_led h crc _)
      · exact (State.onlyRegs_setRegF _ _ 31 0 _ a ha).trans (State.reg_led h crc a)
    · rw [if_neg casts]
      exact ⟨State.aimed_setLoad s hg _, fun _ => State.setLoad_regs .., fun h => absurd h casts, by cases g <;> rfl⟩
  case refine_5 =>
    have same : ∀ l, s.setLoad g l = { s with cells := (s.setLoad g l).cells, fms := (s.setLoad g l).fms } := State.setLoad_same s g
    rw [← ChunkHdr.len_eq, ← ChunkHdr.offset_eq, ← ChunkHdr.kind_eq, ← ChunkHdr.seq_eq, ← ChunkHdr.nw_eq, ← ChunkHdr.se_eq]
    intro len off kind seq bs whole good held fresh becomes
    have taken : good → exec (.chunkData g data) s = .next ((s.setLoad g old.dropped).takeChunk g h bs) := fun hg => by
      rw [exec_chunkData_whole data lead hg.1.1 hg.1.2]
      exact congrArg Host.Outcome.next (if_pos hg.2)
    have count : good → bs.length = len := fun hg => List.length_take_of_le hg.1.2
    refine ⟨fun closed => ?_, fun takes short => ?_, fun whole bad => ?_, fun good directory => ?_, fun good other far => ?_,
      fun c cell good within => ?_, fun f foreman good within => ?_⟩
    · exact ⟨_, chunkData_closed data lead closed, State.aimed_setLoad s hg _, same _⟩
    · exact ⟨_, chunkData_waits data lead takes short, State.aimed_setLoad s hg _, same _⟩
    · refine ⟨_, (exec_chunkData_whole data lead whole.1 whole.2).trans (congrArg Host.Outcome.next (if_neg fun h => bad ⟨whole, h⟩)),
        State.aimed_setLoad s hg _, same _⟩
    · refine ⟨_, (taken good).trans (congrArg _ (State.takeChunk_directory _ directory)), ⟨?_, ?_, ?_⟩, same _⟩
      · rw [State.loadOf_setLoad]
        exact State.aimed_setLoad s hg _
      · rw [State.loadOf_setLoad]
        exact fun r hr => LoadSt.mem_takeRuns _ g bs hr
      · rw [State.loadOf_setLoad]
        exact LoadSt.length_takeRuns ..
    · refine ⟨_, (taken good).trans (congrArg _ (State.takeChunk_outside _ other ?_)), State.aimed_setLoad s hg _, same _⟩
      rw [count good]
      exact far
    · subst cell
      have stored : kind ≠ 1 → exec (.chunkData (.cell c) data) s =
          .next (s.setCell c ({ s.cell c with load := old.dropped.holding seq }.writeUnit kind off bs)) := fun other =>
        (taken good).trans (congrArg _ (State.takeChunk_cell _ other (by rw [count good]; exact within)))
      refine ⟨fun k => chunk_leaves_cell (stored (by omega)) _ ?_, fun k => chunk_leaves_cell (stored (by omega)) _ ?_,
        fun k => chunk_leaves_cell (stored (by omega)) _ ?_, fun k => chunk_leaves_cell (stored (by omega)) _ ?_,
        fun k => chunk_leaves_cell (stored (by omega)) _ ?_⟩
      all_goals
        simp only [State.cell_setCell]
        rw [k]
        rfl
    · subst foreman
      have stored : kind ≠ 1 → exec (.chunkData (.foreman f) data) s =
          .next (s.setFm f ({ s.fm f with load := old.dropped.holding seq }.writeUnit kind off bs)) := fun other =>
        (taken good).trans (congrArg _ (State.takeChunk_foreman _ other (by rw [count good]; exact within)))
      refine ⟨fun k => chunk_leaves_foreman hg (stored (by omega)) _ ?_, fun k => chunk_leaves_foreman hg (stored (by omega)) _ ?_⟩
      all_goals
        simp only [State.fm_setFm]
        rw [k]
        rfl

end Sys2Proof.Machine

namespace Sys2Proof.Machine

open Sys2Proof

/-! # A load started, aborted and verified. -/

/-! ## IMG_CTRL through the arbiter (R63, R69, R492) -/

/-- The state with the slot of a value in IMG_CTRL. -/
def State.imgCtrlSet (s : State) (v : Word) : State := s.setRegF Reg.imgCtrl 11 8 (bits 11 8 v)

theorem State.regSilent_imgCtrl (s : State) : s.regSilent Reg.imgCtrl = false := by
  have range : fmRange Reg.imgCtrl = none := by decide
  have below : decide (Reg.imgCtrl ≤ 0x0005_FFFF) = false := by decide
  simp only [State.regSilent, range, below, Bool.and_false, Bool.or_self]

theorem startsWork_imgCtrl (v : Word) : startsWork Reg.imgCtrl v = v.getLsbD 0 := by
  have jobs : (List.range 8).any (fun n => Reg.imgCtrl == Reg.fltJob n) = false := by decide
  have breakers : (List.range 72).any (fun r => Reg.imgCtrl == Reg.rgnBreakerClear r) = false := by decide
  have windows : (List.range 4).any (fun v => Reg.imgCtrl == Reg.bulkCtrl v) = false := by decide
  have others : (Reg.imgCtrl == Reg.yrdCmd || Reg.imgCtrl == Reg.modJobCtrl || Reg.imgCtrl == Reg.modReset ||
      Reg.imgCtrl == Reg.fltKatRun || Reg.imgCtrl == Reg.skyAdmit) = false := by decide
  simp only [Bool.or_eq_false_iff] at others
  obtain ⟨⟨⟨⟨cmd, job⟩, reset⟩, kat⟩, stand⟩ := others
  simp only [startsWork, jobs, breakers, windows, cmd, job, reset, kat, stand, bit, beq_self_eq_true, Bool.true_and, Bool.false_and,
    Bool.or_false]

section
variable {s : State} {src : Src} {v : Word} {m : Instr} (hm : m ∈ [Instr.imgStart src v, .imgAbort src v])
include hm

theorem exec_imgCtrl : exec m s = .next (s.through src Reg.imgCtrl v (judged (s.writeImgCtrl v))).1 := by
  rw [← State.hostWrite_imgCtrl]
  simp only [List.mem_cons, List.not_mem_nil, or_false] at hm
  rcases hm with rfl | rfl <;> rfl

/-- A value that would start a load is rejected in Chrysalis. -/
theorem imgCtrl_asleep (asleep : s.boot.stage = 7) (start : v.getLsbD 0 = true) : exec m s =
    .next { s with inFlight := s.inFlight ++ [.faultNotice ⟨0x4071, none, srcSession src, Reg.imgCtrl, 15⟩] } := by
  rw [exec_imgCtrl hm, State.through, State.regSilent_imgCtrl]
  simp only [asleep, startsWork_imgCtrl, start, and_self, if_true, Bool.false_eq_true, if_false]
  exact congrArg Host.Outcome.next (State.tagged_reject s none 0 _ _ (by decide))

theorem imgCtrl_taken {u : State} (works : s.boot.stage ≠ 7 ∨ v.getLsbD 0 = false) (write : s.writeImgCtrl v = (u, true)) :
    exec m s = .next u := by
  rw [exec_imgCtrl hm, write, State.through_ok s.regSilent_imgCtrl (works.imp_right (startsWork_imgCtrl v).trans)
    (show Kct.ok ≠ Kct.rejected by decide)]
  rfl

theorem imgCtrl_rejected {u : State} {n : Nat} (works : s.boot.stage ≠ 7) (write : s.writeImgCtrl v = (u.reject none n, false)) :
    exec m s = .next { u with inFlight := u.inFlight ++ [.faultNotice ⟨0x4071, none, srcSession src, Reg.imgCtrl, 15⟩] } := by
  rw [exec_imgCtrl hm, write, ← State.tagged_reject u none n _ _ (by decide)]
  exact congrArg (fun r => Host.Outcome.next r.1) (State.through_rejected s.regSilent_imgCtrl works)

end

/-! ## What a value of IMG_CTRL asks for (R63, R69, R76) -/

section
variable {s : State} {v : Word}

theorem State.regF_imgStatus_set (s : State) (v : Word) (hi lo : Nat) : (s.imgCtrlSet v).regF Reg.imgStatus hi lo = s.regF Reg.imgStatus hi lo :=
  State.regF_setRegF_other s (by decide) ..

theorem State.loadActive_set (s : State) (v : Word) : (s.imgCtrlSet v).loadActive = s.loadActive := by
  unfold State.loadActive
  rw [State.regF_imgStatus_set]

theorem State.writeImgCtrl_eq (s : State) (v : Word) : s.writeImgCtrl v =
    let t := if v.getLsbD 1 = true then (s.imgCtrlSet v).abortLoad else s.imgCtrlSet v
    if v.getLsbD 0 = false then (t, true)
    else if t.loadActive = true ∨ 8 ≤ bits 11 8 v then (t.reject none (bits 11 8 v), false)
    else (t.startLoad (bits 11 8 v), true) := by
  unfold State.writeImgCtrl bit
  simp only [Bool.not_eq_true']
  rfl

/-- Without an abort that finds a load, a value leaves IMG_CTRL set. -/
theorem State.abort_idle (h : s.loadActive = false ∨ v.getLsbD 1 = false) :
    (if v.getLsbD 1 = true then (s.imgCtrlSet v).abortLoad else s.imgCtrlSet v) = s.imgCtrlSet v := by
  rcases h with idle | no
  · have still : (s.imgCtrlSet v).abortLoad = s.imgCtrlSet v := if_neg (by simp [State.loadActive_set, idle])
    rw [still, ite_self]
  · exact if_neg (by rw [no]; decide)

theorem State.writeImgCtrl_starts (idle : s.loadActive = false) (start : v.getLsbD 0 = true) (slot : bits 11 8 v < 8) :
    s.writeImgCtrl v = ((s.imgCtrlSet v).startLoad (bits 11 8 v), true) := by
  rw [State.writeImgCtrl_eq, State.abort_idle (.inl idle)]
  refine (if_neg (by rw [start]; decide)).trans (if_neg ?_)
  rw [State.loadActive_set, idle]
  simp [slot]

theorem State.writeImgCtrl_refused (start : v.getLsbD 0 = true)
    (h : s.loadActive = false ∧ 8 ≤ bits 11 8 v ∨ s.loadActive = true ∧ v.getLsbD 1 = false) :
    s.writeImgCtrl v = ((s.imgCtrlSet v).reject none (bits 11 8 v), false) := by
  rw [State.writeImgCtrl_eq, State.abort_idle (h.imp And.left And.right)]
  refine (if_neg (by rw [start]; decide)).trans (if_pos ?_)
  rw [State.loadActive_set]
  exact h.symm.imp And.left And.right

theorem State.writeImgCtrl_plain (idle : s.loadActive = false) (no : v.getLsbD 0 = false) : s.writeImgCtrl v = (s.imgCtrlSet v, true) := by
  rw [State.writeImgCtrl_eq, State.abort_idle (.inl idle)]
  exact if_pos no

theorem State.writeImgCtrl_aborts (active : s.loadActive = true) (no : v.getLsbD 0 = false) (abort : v.getLsbD 1 = true) :
    s.writeImgCtrl v = ((s.imgCtrlSet v).endLoad 8, true) := by
  rw [State.writeImgCtrl_eq, if_pos abort]
  refine (if_pos no).trans (congrArg (·, true) (if_pos ?_))
  rw [State.loadActive_set, active]

/-! ## IMG_CTRL and what stays beside it -/

theorem State.regF_imgCtrlSet (s : State) (v : Word) : (s.imgCtrlSet v).regF Reg.imgCtrl 11 8 = (v.extractLsb' 8 4).toNat := by
  unfold State.imgCtrlSet
  rw [State.regF_setRegF _ _ (by omega) (by omega), ← bits_extract 11 8 v]
  exact Nat.mod_eq_of_lt (Nat.mod_lt _ (by omega))

theorem State.onlyRegs_imgCtrlSet (s : State) (v : Word) : s.onlyRegs (s.imgCtrlSet v) [Reg.imgCtrl] := State.onlyRegs_setRegF s _ 11 8 _

end

/-! ## A load begins (R63, R79) -/

theorem State.regF_reg {s t : State} {a : Nat} (h : t.reg a = s.reg a) (hi lo : Nat) : t.regF a hi lo = s.regF a hi lo :=
  congrArg (bits hi lo) h

theorem State.imgSlot_lt (s : State) : s.imgSlot < 8 := State.regF_lt s Reg.imgStatus 6 4

section
variable (s : State) {n : Nat}

theorem State.startLoad_same : s.startLoad n = { s with regs := (s.startLoad n).regs, ldr := .reset } := by
  unfold State.startLoad
  dsimp only [State.setLdr, State.setReg]

theorem State.reg_startLoad_status : (s.startLoad n).reg Reg.imgStatus = BitVec.ofNat 64 (field 6 4 n + 1) := by
  unfold State.startLoad
  dsimp only
  rw [State.setLdr_reg, State.reg_setReg_other _ (by decide), State.reg_setReg_other _ (by decide), State.reg_setReg_other _ (by decide),
    State.reg_setReg]

theorem State.reg_startLoad_error : (s.startLoad n).reg Reg.imgError = 0xFFFF_0000_0000_0000 := by
  unfold State.startLoad
  dsimp only
  rw [State.setLdr_reg, State.reg_setReg_other _ (by decide), State.reg_setReg_other _ (by decide), State.reg_setReg]
  decide

theorem State.reg_startLoad_progress : (s.startLoad n).reg Reg.imgProgress = 0 := by
  unfold State.startLoad
  dsimp only
  rw [State.setLdr_reg, State.reg_setReg_other _ (by decide), State.reg_setReg]

theorem State.reg_startLoad_repair : (s.startLoad n).reg Reg.imgRepair = 0 := by
  unfold State.startLoad
  dsimp only
  rw [State.setLdr_reg, State.reg_setReg]

theorem State.onlyRegs_startLoad : s.onlyRegs (s.startLoad n) [Reg.imgStatus, Reg.imgError, Reg.imgProgress, Reg.imgRepair] := by
  intro a ha
  simp only [List.mem_cons, List.not_mem_nil, or_false, not_or] at ha
  obtain ⟨status, error, progress, repair⟩ := ha
  unfold State.startLoad
  dsimp only
  rw [State.setLdr_reg, State.reg_setReg_other _ repair, State.reg_setReg_other _ progress, State.reg_setReg_other _ error,
    State.reg_setReg_other _ status]

/-- IMG_STATUS as a start leaves it: VERIFYING with the slot, and every other field 0. -/
theorem bits_startLoad_status {n : Nat} (h : n < 8) :
    bits 3 0 (BitVec.ofNat 64 (field 6 4 n + 1)) = 1 ∧ bits 6 4 (BitVec.ofNat 64 (field 6 4 n + 1)) = n ∧
      bits 63 7 (BitVec.ofNat 64 (field 6 4 n + 1)) = 0 := by
  interval_cases n <;> decide

end

/-! ## What a load undoes once its slot is claimed (R68) -/

section
variable (s : State)

theorem State.voidLoad_unclaimed (h : s.ldr.claimed = false) : s.voidLoad = s := if_neg (by simp [h])

theorem State.endLoad_unclaimed (h : s.ldr.claimed = false) (k : Nat) : s.endLoad k = (s.setLdr .reset).setImgState k := by
  rw [State.endLoad, State.voidLoad_unclaimed s h]

/-- The rectangle of the load unconfigured, its objects freed and its plans void. -/
def State.unloaded (s : State) : State :=
  ((s.unloadRect (s.slot s.imgSlot).rect).voidManifest s.imgSlot).clearPlans s.imgSlot

theorem State.voidLoad_claimed (h : s.ldr.claimed = true) : s.voidLoad =
    { (s.unloaded.setSlot s.imgSlot .reset).clearMeasure s.imgSlot with inFlight := s.unloaded.inFlight.filter (fun m => !loaderMsg m) } :=
  if_pos h

theorem State.unloaded_same {p : Part} (hp : Nat.testBit 0x19e0078 p.index = false) : p.same s s.unloaded := by
  refine same_of_blur ?_ p hp
  rw [State.unloaded, State.clearPlans_blur _ rfl, State.voidManifest_blur _ rfl, State.unloadRect_blur _ rfl]

/-- A listed cell of an unloaded rectangle. -/
theorem State.find_unloadRect {c : Nat} {x : CellSt} (found : s.cells.find c = some x) {r : Rect} (inside : r.has (regionOf c) = true) :
    ∃ k, (s.unloadRect r).cells.find c = some (x.unload k) := by
  obtain ⟨j, image⟩ := Tbl.find_zipIdx_map (fun d y j => if r.has (regionOf d) then y.unload (s.freeCtr + j) else y) found 0
  rw [if_pos inside] at image
  exact ⟨s.freeCtr + j, image⟩

theorem State.cell_of_find {t : State} {c : Nat} {x : CellSt} (found : t.cells.find c = some x) : t.cell c = x := by
  simp [State.cell, found]

theorem State.cells_unloaded : s.unloaded.cells = (s.unloadRect (s.slot s.imgSlot).rect).cells := by
  refine same_of_blur (μ := 0x19e0018) ?_ .cells rfl
  rw [State.unloaded, State.clearPlans_blur _ rfl, State.voidManifest_blur _ rfl]

theorem State.red_clearPlans (n : Nat) : (s.clearPlans n).red n = .reset :=
  State.red_setRed ((s.clearStream n).setStream n .reset) n .reset

theorem Tbl.find_filter_out {α : Type} {p : Nat → Bool} {k : Nat} (h : p k = false) (t : Tbl α) :
    Tbl.find k (t.filter (fun e => p e.1)) = none := by
  induction t with
  | nil => rfl
  | cons e t ih =>
    rw [List.filter_cons]
    split
    case isTrue kept =>
      have other : e.1 ≠ k := fun same => by simp [← same, kept] at h
      simpa [Tbl.find, other] using ih
    case isFalse => exact ih

theorem State.reg_clearRegs_cleared {p : Nat → Bool} {a : Nat} (h : p a = true) : (s.clearRegs p).reg a = resetOf a := by
  unfold State.reg State.clearRegs
  rw [Tbl.find_filter_out (p := fun b => !p b) (by simp [h])]

theorem resetOf_imgPartId {n : Nat} (h : n < 8) : resetOf (Reg.imgPartId n) = 0 := by
  interval_cases n <;> decide

theorem State.reg_clearMeasure_partId {n : Nat} (h : n < 8) : (s.clearMeasure n).reg (Reg.imgPartId n) = 0 :=
  (State.reg_clearRegs_cleared s (by simp)).trans (resetOf_imgPartId h)

/-- An end of a load whose slot was claimed. -/
structure State.Voided (s t : State) : Prop where
  slot : t.slot s.imgSlot = .reset
  others : s.onlySlot t s.imgSlot
  red : t.red s.imgSlot = .reset
  partId : t.reg (Reg.imgPartId s.imgSlot) = 0
  flt : t.flt = s.flt
  cells : t.cells = (s.unloadRect (s.slot s.imgSlot).rect).cells
  inFlight : ∀ m ∈ t.inFlight, loaderMsg m = false

theorem State.voided_voidLoad (h : s.ldr.claimed = true) : s.Voided s.voidLoad := by
  rw [State.voidLoad_claimed s h]
  have slots : s.unloaded.slots = s.slots := State.unloaded_same s (p := .slots) rfl
  have flt : s.unloaded.flt = s.flt := State.unloaded_same s (p := .flt) rfl
  have red : s.unloaded.red s.imgSlot = .reset := by
    rw [State.unloaded]
    exact State.red_clearPlans _ _
  have cells := s.cells_unloaded
  generalize s.unloaded = u at slots flt red cells ⊢
  refine ⟨State.slot_setSlot u _ _, fun m hm => ?_, red, ?_, flt, cells, fun m hm => ?_⟩
  · have same : u.slot m = s.slot m := congrArg (fun l => l.get .reset m) slots
    exact (State.slot_setSlot_other u hm _).trans same
  · exact (State.reg_congr (s := (u.setSlot s.imgSlot .reset).clearMeasure s.imgSlot) rfl _).trans
      (State.reg_clearMeasure_partId _ s.imgSlot_lt)
  · simpa using (List.mem_filter.1 hm).2

theorem State.Voided.ended {s t : State} (h : s.Voided t) (k : Nat) : s.Voided ((t.setLdr .reset).setImgState k) where
  slot := h.slot
  others := h.others
  red := h.red
  partId := (State.reg_setImgState _ (by unfold Reg.imgPartId Reg.imgStatus; omega) k).trans h.partId
  flt := h.flt
  cells := h.cells
  inFlight := h.inFlight

theorem State.Voided.cell {s t : State} (h : s.Voided t) {c : Nat} {x : CellSt} (found : s.cells.find c = some x)
    (inside : (s.slot s.imgSlot).rect.has (regionOf c) = true) :
    (t.cell c).configured = false ∧ (x.looper ≠ .snag → (t.cell c).looper = .unconfigured) := by
  obtain ⟨k, image⟩ := State.find_unloadRect s found inside
  rw [State.cell_of_find (h.cells ▸ image)]
  exact ⟨rfl, fun free => if_neg free⟩

end

/-! ## A load that fails (R59, R68, R79) -/

section
variable (s : State) (x : ImgErr)

theorem State.reg_failLoad_error : (s.failLoad x).reg Reg.imgError =
    BitVec.ofNat 64 (2 ^ 48 * (x.sec % 2 ^ 16) + 2 ^ 30 * (x.cell % 2 ^ 18) + x.code % 2 ^ 8) := by
  unfold State.failLoad
  rw [State.reg_setReg]
  simp only [field]
  exact congrArg (BitVec.ofNat 64) (by omega)

theorem State.imgState_failLoad : (s.failLoad x).imgState = 7 :=
  (State.regF_reg (State.reg_setReg_other _ (by decide) _) 3 0).trans (State.imgState_setImgState _ (by decide))

theorem State.ldr_failLoad : (s.failLoad x).ldr = .reset := by
  rw [State.failLoad, State.endLoad, State.setReg_ldr, State.setImgState, State.setRegF_ldr, State.setLdr_ldr]

theorem State.failLoad_unclaimed (h : s.ldr.claimed = false) : s.failLoad x = ((s.setLdr .reset).setImgState 7).setReg Reg.imgError
    (BitVec.ofNat 64 (field 63 48 x.sec + field 47 30 x.cell + field 29 8 0 + field 7 0 x.code)) := by
  unfold State.failLoad
  rw [State.endLoad_unclaimed s h]

end

/-! ## The checks of VERIFYING (R63) -/

section
variable {s : State}

theorem loadVerifyDone_idle (h : s.imgState ≠ 1 ∨ s.ldr.waits = true) : exec .loadVerifyDone s = .next s :=
  congrArg Host.Outcome.next (if_pos h)

theorem loadVerifyDone_fails (verifying : s.imgState = 1) (ready : s.ldr.waits = false) {x : ImgErr}
    (bad : s.verifyImage s.imgSlot = some x) : exec .loadVerifyDone s = .next (s.failLoad x) := by
  simp only [exec, execLoadVerifyDone, verifying, ready, bad, ne_eq, not_true, Bool.false_eq_true, or_self, if_false]

/-- The slot claimed for an image that passes, with the objects of a manifest that it does not have. -/
def State.placed (s : State) : State :=
  let u := (s.setImgState 2).claim s.imgSlot
  if (u.secOf 0x22).isSome then u else u.applyManifest s.imgSlot []

theorem loadVerifyDone_passes (verifying : s.imgState = 1) (ready : s.ldr.waits = false) (good : s.verifyImage s.imgSlot = none)
    (near : s.manifestFar (s.payload 0x22) = false) {u : State} (delivered : State.deliverAll s.imgSlot s.placed.imgSecs s.placed = (u, none)) :
    exec .loadVerifyDone s = .next u.pollLoad := by
  unfold State.placed at delivered
  simp only [exec, execLoadVerifyDone, verifying, ready, good, near, delivered, ne_eq, not_true, Bool.false_eq_true, or_self, if_false]

theorem State.verifyImage_form (n : Nat) (h : s.headerOk = false ∨ s.lengthOk = false) : s.verifyImage n = some ⟨0x01, 0xFFFF, 0⟩ :=
  if_pos (by simpa using h)

theorem State.verifyImage_unsigned (n : Nat) (header : s.headerOk = true) (length : s.lengthOk = true) (table : s.badSection = none)
    (crc : s.badCrc (fun _ => true) = none) (unsigned : s.signatureOk = false) : s.verifyImage n = some ⟨0x04, 0xFFFF, 0⟩ := by
  simp only [State.verifyImage, header, length, table, crc, unsigned, Bool.not_true, Bool.not_false, Bool.false_eq_true, or_self, if_false,
    if_true]

end

/-! ## The image lies in the staging area alone -/

section
variable {s t : State}

/-- A state that holds nothing but the memory tiers of `s`, where the image lies (R60). -/
def State.staging (s : State) : State := { State.reset with tiers := s.tiers }

theorem State.staging_congr (h : t.tiers = s.tiers) : t.staging = s.staging := by
  unfold State.staging
  rw [h]

theorem State.imgTargets_congr (h : t.tiers = s.tiers) : t.imgTargets = s.imgTargets :=
  show t.staging.imgTargets = s.staging.imgTargets by rw [State.staging_congr h]

theorem State.imgSecs_congr (h : t.tiers = s.tiers) : t.imgSecs = s.imgSecs :=
  show t.staging.imgSecs = s.staging.imgSecs by rw [State.staging_congr h]

theorem State.imgN_congr (h : t.tiers = s.tiers) : t.imgN = s.imgN :=
  show t.staging.imgN = s.staging.imgN by rw [State.staging_congr h]

theorem State.imgRequired_congr (h : t.tiers = s.tiers) : t.imgRequired = s.imgRequired :=
  show t.staging.imgRequired = s.staging.imgRequired by rw [State.staging_congr h]

theorem ofLE_lt (bs : Bytes) : ofLE bs < 256 ^ bs.length := by
  induction bs with
  | nil => simp [ofLE]
  | cons b bs ih =>
    have low : b.toNat < 256 := b.isLt
    rw [ofLE, List.length_cons, Nat.pow_succ]
    omega

theorem State.imgN_lt (s : State) (off n : Nat) : s.imgN off n < 256 ^ n := by
  have len : (s.imgBytes off n).length = n := by simp [State.imgBytes, Mem.read]
  exact (ofLE_lt _).trans_eq (by rw [len])

end

end Sys2Proof.Machine

namespace Sys2Proof.Machine

open Sys2Proof

/-! # An image that passes takes its slot. -/

/-! ## A slot claimed (R63, R336) -/

section
variable {s : State} (h : s.yard.objs = [])
include h

theorem State.entryRefs_none (e : StreamEntry) (up : Bool) : s.entryRefs e up = s := by
  have none : ∀ k f, s.modObj k f = s := fun k f => by simp [State.modObj, State.obj, h]
  simp [State.entryRefs, State.refObj, none]

theorem State.dropRefs_none (n : Nat) : s.dropRefs n = s := by
  unfold State.dropRefs
  induction (s.stream n).opens with
  | nil => rfl
  | cons o l ih =>
    have step : (if o.refs then s.entryRefs ((s.stream n).entryAt o.index) false else s) = s := by
      rw [State.entryRefs_none h, ite_self]
    rw [List.foldl_cons, step]
    exact ih

theorem State.yard_clearPlans (n : Nat) : (s.clearPlans n).yard = s.yard := by
  simp only [State.clearPlans, State.setPlan, State.setPower_yard, State.clearSched, State.setBeat_yard, State.setRed_yard,
    State.setStream_yard, State.clearStream, State.stopStream, State.modStream_yard, State.dropRefs_none h]

end

section
variable (s : State) (n : Nat)

/-- The state in which the registers, units and plans of the slot's earlier image are gone. -/
def State.emptied : State := ((s.clearRegs (loadClears n s.imgRect)).unloadRect s.imgRect).clearPlans n

/-- The slot as LOADING, by the header and the map of the staged image. -/
def State.loadingSlot (r : Rect) : SlotSt :=
  { SlotSt.reset with
    state := .loading, rect := r, ports := BitVec.ofNat 16 s.imgPorts, features := BitVec.ofNat 32 s.imgFeatures,
    granted := BitVec.ofNat 6 s.features, gateTimeout := s.imgN 0x2C 4, seed := BitVec.ofNat 64 (s.imgN 0x30 8),
    owner := s.imgOwner, required := s.imgRequired }

/-- The barrier hubs of a rectangle's regions begun anew. -/
def State.rgnsBegun (r : Rect) : State :=
  r.regions.foldl (fun s k => s.modRgn k (fun x => { x with hub := .reset, word := 0, slips := 0, synced := false, waited := false })) s

/-- The state in which the slot is LOADING, but for its measure and progress. -/
def State.slotClaimed : State :=
  let u := ((s.emptied n).setSlot n ((s.emptied n).loadingSlot s.imgRect)).rgnsBegun s.imgRect
  { u with jobs := u.jobs.put n .reset }

theorem State.claim_eq : s.claim n = (((s.slotClaimed n).clearMeasure n).setReg Reg.imgProgress
    (BitVec.ofNat 64 (field 63 32 (s.slotClaimed n).imgChunks))).modLdr (fun l => { l with claimed := true }) := by
  unfold State.claim State.slotClaimed State.rgnsBegun State.emptied State.loadingSlot
  rfl

theorem State.claim_same {p : Part} (hp : Nat.testBit 0x2000010 p.index = false) : p.same (s.slotClaimed n) (s.claim n) := by
  refine same_of_blur ?_ p hp
  rw [State.claim_eq, State.modLdr_blur _ rfl, State.setReg_blur _ rfl, State.clearMeasure_blur _ rfl]

theorem State.rgnsBegun_same (r : Rect) {p : Part} (hp : Nat.testBit 0x400 p.index = false) : p.same s (s.rgnsBegun r) :=
  same_of_blur (foldl_blur _ _ (fun _ _ => State.modRgn_blur _ rfl _ _ _) _ _) p hp

theorem State.emptied_same {p : Part} (hp : Nat.testBit 0x19c0078 p.index = false) : p.same s (s.emptied n) := by
  refine same_of_blur ?_ p hp
  rw [State.emptied, State.clearPlans_blur _ rfl, State.unloadRect_blur _ rfl, State.clearRegs_blur _ rfl]

end

section
variable (s : State) {n : Nat}

theorem State.slots_slotClaimed : (s.slotClaimed n).slots = s.slots.put n ((s.emptied n).loadingSlot s.imgRect) := by
  have rgns : (s.slotClaimed n).slots = ((s.emptied n).setSlot n ((s.emptied n).loadingSlot s.imgRect)).slots :=
    State.rgnsBegun_same _ s.imgRect (p := .slots) rfl
  have before : (s.emptied n).slots = s.slots := State.emptied_same s n (p := .slots) rfl
  rw [rgns, State.setSlot, before]

theorem State.regs_slotClaimed : (s.slotClaimed n).regs = (s.clearRegs (loadClears n s.imgRect)).regs := by
  have rgns : (s.slotClaimed n).regs = (s.emptied n).regs := State.rgnsBegun_same _ s.imgRect (p := .regs) rfl
  have plans : (s.emptied n).regs = ((s.clearRegs (loadClears n s.imgRect)).unloadRect s.imgRect).regs :=
    same_of_blur (State.clearPlans_blur 0x19c0000 rfl _ n) .regs rfl
  exact rgns.trans plans

theorem State.cells_slotClaimed : (s.slotClaimed n).cells = (s.unloadRect s.imgRect).cells := by
  have rgns : (s.slotClaimed n).cells = (s.emptied n).cells := State.rgnsBegun_same _ s.imgRect (p := .cells) rfl
  have plans : (s.emptied n).cells = ((s.clearRegs (loadClears n s.imgRect)).unloadRect s.imgRect).cells :=
    same_of_blur (State.clearPlans_blur 0x19c0000 rfl _ n) .cells rfl
  exact rgns.trans plans

theorem State.tiers_slotClaimed : (s.slotClaimed n).tiers = s.tiers := by
  have rgns : (s.slotClaimed n).tiers = (s.emptied n).tiers := State.rgnsBegun_same _ s.imgRect (p := .tiers) rfl
  exact rgns.trans (State.emptied_same s n (p := .tiers) rfl)

theorem State.ldr_slotClaimed : (s.slotClaimed n).ldr = s.ldr := by
  have rgns : (s.slotClaimed n).ldr = (s.emptied n).ldr := State.rgnsBegun_same _ s.imgRect (p := .ldr) rfl
  exact rgns.trans (State.emptied_same s n (p := .ldr) rfl)

theorem State.yard_slotClaimed (h : s.yard.objs = []) : (s.slotClaimed n).yard = s.yard := by
  have rgns : (s.slotClaimed n).yard = (s.emptied n).yard := State.rgnsBegun_same _ s.imgRect (p := .yard) rfl
  exact rgns.trans (State.yard_clearPlans (s := (s.clearRegs (loadClears n s.imgRect)).unloadRect s.imgRect) h n)

end

theorem loadClears_imgStatus {n : Nat} (h : n < 8) (r : Rect) : loadClears n r Reg.imgStatus = false := by
  have outside : (decide (0x0100_0000 ≤ Reg.imgStatus)) = false := by decide
  simp only [loadClears, outside, Bool.and_false, Bool.false_and, Bool.or_false]
  interval_cases n <;> decide

/-- The slot of the load claimed as LOADING in DELIVERING, with the rectangle unconfigured and no object of a manifest. -/
structure State.Claims (s t : State) : Prop where
  state : t.imgState = 2
  number : t.imgSlot = s.imgSlot
  tiers : t.tiers = s.tiers
  slots : t.slots = s.slots.put s.imgSlot (s.loadingSlot s.imgRect)
  yard : t.yard = s.yard
  claimed : t.ldr.claimed = true
  tries : t.ldr.tries = s.ldr.tries
  progress : t.reg Reg.imgProgress = BitVec.ofNat 64 (2 ^ 32 * (s.imgChunks % 2 ^ 32))
  cells : t.cells = (s.unloadRect s.imgRect).cells

theorem State.loadingSlot_congr {s t : State} (tiers : t.tiers = s.tiers) (rng : t.rng = s.rng) (r : Rect) : t.loadingSlot r = s.loadingSlot r := by
  have image : t.imgN = s.imgN := State.imgN_congr tiers
  have map : t.imgRequired = s.imgRequired := State.imgRequired_congr tiers
  unfold State.loadingSlot State.imgPorts State.imgFeatures State.imgOwner State.features
  rw [image, map, rng]

section
variable {s : State} (h : s.yard.objs = [])
include h

theorem State.claims_claim : s.Claims ((s.setImgState 2).claim s.imgSlot) := by
  have small := s.imgSlot_lt
  have status : ((s.setImgState 2).claim s.imgSlot).reg Reg.imgStatus = (s.setImgState 2).reg Reg.imgStatus := by
    rw [State.claim_eq, State.modLdr_reg, State.reg_setReg_other _ (by decide), State.clearMeasure, State.reg_clearRegs,
      State.reg_congr (State.regs_slotClaimed _), State.reg_clearRegs _ (loadClears_imgStatus small _)]
    have id : Reg.imgStatus ≠ Reg.imgPartId s.imgSlot := by unfold Reg.imgStatus Reg.imgPartId; omega
    have measure : ¬ Reg.imgMeasure s.imgSlot 0 ≤ Reg.imgStatus := by unfold Reg.imgStatus Reg.imgMeasure; omega
    simp [id, measure]
  have emptied : ((s.setImgState 2).emptied s.imgSlot).tiers = s.tiers := State.emptied_same (s.setImgState 2) _ (p := .tiers) rfl
  have licence : ((s.setImgState 2).emptied s.imgSlot).rng = s.rng := State.emptied_same (s.setImgState 2) _ (p := .rng) rfl
  have tiers : ((s.setImgState 2).slotClaimed s.imgSlot).tiers = s.tiers := State.tiers_slotClaimed (s.setImgState 2)
  have slots := State.slots_slotClaimed (s.setImgState 2) (n := s.imgSlot)
  rw [State.loadingSlot_congr emptied licence] at slots
  have ldr : ((s.setImgState 2).claim s.imgSlot).ldr = { s.ldr with claimed := true } := by
    rw [State.claim_eq, State.modLdr, State.setReg_ldr, State.clearMeasure, State.clearRegs_ldr, State.ldr_slotClaimed]
    rfl
  have same {p : Part} (hp : Nat.testBit 0x2000010 p.index = false) := State.claim_same (s.setImgState 2) s.imgSlot hp
  constructor
  case state => exact (State.regF_reg status 3 0).trans (State.imgState_setImgState s (by decide))
  case number => exact (State.regF_reg status 6 4).trans (State.regF_setImgState_high s 2 6 (by omega))
  case tiers => exact (same (p := .tiers) rfl).trans tiers
  case slots => exact (same (p := .slots) rfl).trans slots
  case yard => exact (same (p := .yard) rfl).trans (State.yard_slotClaimed (s.setImgState 2) h)
  case claimed => rw [ldr]
  case tries => rw [ldr]
  case progress =>
    have chunks : ((s.setImgState 2).slotClaimed s.imgSlot).imgChunks = s.imgChunks := congrArg (· 0x38 4) (State.imgN_congr tiers)
    rw [State.claim_eq, State.modLdr_reg, State.reg_setReg, chunks, field]
    exact congrArg (BitVec.ofNat 64) (by omega)
  case cells => exact (same (p := .cells) rfl).trans (State.cells_slotClaimed (s.setImgState 2))

/-- The manifest of an image without one leaves the slot's quotas and prefetches void. -/
theorem State.applyManifest_none (n : Nat) : s.applyManifest n [] =
    (({ s with ldr := { s.ldr with made := [] } } : State).modStream n (fun x => { x with prefetch := [] })).setQuotas n 0 0 0 := by
  have freed : s.unattached n [] = [] := by simp [State.unattached, h]
  have objects : manObjs [] = [] := by decide
  have prefetches : leAt [] 4 4 = 0 := by decide
  have quotas : leAt [] 0x10 4 = 0 ∧ leAt [] 0x14 4 = 0 ∧ leAt [] 0x18 4 = 0 := by decide
  simp only [State.applyManifest, objects, List.map_nil, freed, List.filter_nil, List.foldl_nil, prefetches, List.range_zero, quotas]

end

/-- The registers past the quotas of the slots outlast a change of one slot's. -/
theorem State.reg_setQuotas (s : State) {n a : Nat} (hn : n < 8) (h : 0x0004_0300 ≤ a) (q1 q2 q3 : Nat) :
    (s.setQuotas n q1 q2 q3).reg a = s.reg a := by
  have apart : ∀ t, t < 4 → a ≠ Reg.yrdQuota n t := fun t ht => by unfold Reg.yrdQuota; omega
  rw [State.setQuotas, State.reg_setRegF_other _ (apart 3 (by decide)), State.reg_setRegF_other _ (apart 2 (by decide)),
    State.reg_setRegF_other _ (apart 1 (by decide))]

theorem State.Claims.manifest {s u : State} (h : s.Claims u) (empty : s.yard.objs = []) : s.Claims (u.applyManifest s.imgSlot []) := by
  rw [State.applyManifest_none (h.yard ▸ empty)]
  have reg {a : Nat} (ha : 0x0004_0300 ≤ a) := State.reg_setQuotas
    (({ u with ldr := { u.ldr with made := [] } } : State).modStream s.imgSlot (fun x => { x with prefetch := [] })) s.imgSlot_lt ha 0 0 0
  exact {
    state := (State.regF_reg (reg (by decide)) 3 0).trans h.state
    number := (State.regF_reg (reg (by decide)) 6 4).trans h.number
    tiers := h.tiers
    slots := h.slots
    yard := h.yard
    claimed := h.claimed
    tries := h.tries
    progress := (reg (by decide)).trans h.progress
    cells := h.cells }

/-! ## An image without direct sections but the map (R63 steps 3 and 4) -/

/-- Sections that no unit but a target takes are passed over. -/
theorem State.deliverAll_none (n : Nat) (l : List Sec) (s : State) (h : ∀ x ∈ l, x.kind ∉ [0x21, 0x22, 0x23, 0x24, 0x25]) :
    State.deliverAll n l s = (s, none) := by
  induction l with
  | nil => rfl
  | cons x l ih =>
    have passed : s.deliverSec n x = some s := by
      have kind := h x List.mem_cons_self
      simp only [List.mem_cons, List.not_mem_nil, or_false, not_or] at kind
      unfold State.deliverSec
      split <;> simp_all
    rw [State.deliverAll, passed]
    exact ih fun y hy => h y (List.mem_cons_of_mem _ hy)

section
variable {s : State} (plain : ∀ x ∈ s.imgSecs, x.kind ∉ [0x21, 0x22, 0x23, 0x24, 0x25])
include plain

theorem State.secOf_manifest : s.secOf 0x22 = none := by
  refine List.find?_eq_none.2 fun x hx => ?_
  have kind := plain x hx
  simp only [List.mem_cons, not_or] at kind
  simpa using kind.2.1

theorem State.manifestFar_none : s.manifestFar (s.payload 0x22) = false := by
  have objects : manObjs [] = [] := by decide
  have prefetches : leAt [] 4 4 = 0 := by decide
  have payload : s.payload 0x22 = [] := by rw [State.payload, State.secOf_manifest plain]
  simp [payload, State.manifestFar, objects, prefetches]

theorem State.claims_placed (empty : s.yard.objs = []) : s.Claims s.placed := by
  have claims := State.claims_claim empty
  have section_ : ((s.setImgState 2).claim s.imgSlot).secOf 0x22 = none :=
    State.secOf_manifest (by rw [State.imgSecs_congr claims.tiers]; exact plain)
  unfold State.placed
  simp only [section_, Option.isSome_none, Bool.false_eq_true, if_false]
  exact claims.manifest empty

/-- A passing image without direct sections but the map claims its slot and sends load-open to its targets. -/
theorem loadVerifyDone_opens (verifying : s.imgState = 1) (ready : s.ldr.waits = false) (good : s.verifyImage s.imgSlot = none)
    (first : s.ldr.tries = 0) (objs : s.yard.objs = []) (allocs : s.yard.allocs = []) (failed : s.yard.failed = [])
    (some_ : s.imgTargets ≠ []) : exec .loadVerifyDone s = .next
      ((s.placed.modLdr (fun l => { l with unacked := s.imgTargets, tries := 1 })).sendAll (s.imgTargets.map Instr.loadOpen)) := by
  have claims := State.claims_placed plain objs
  have targets := State.imgTargets_congr claims.tiers
  have delivered := State.deliverAll_none s.imgSlot s.placed.imgSecs s.placed (by rw [State.imgSecs_congr claims.tiers]; exact plain)
  rw [loadVerifyDone_passes verifying ready good (State.manifestFar_none plain) delivered]
  unfold State.pollLoad State.loadWaits State.sendOpens
  simp [claims.state, claims.tries, first, claims.yard, failed, allocs, targets, some_]

end

/-- Settles O47, by what the value of IMG_CTRL asks for and by the first check that an image fails. -/
theorem imageStarts : Obligations.ImageStarts := by
  unfold Obligations.ImageStarts
  intro s a e regsOf
  refine ⟨?_, ?_, ?_⟩
  · intro src v m hm n start abort rejected
    have slot : bits 11 8 v = n := bits_extract 11 8 v
    have ctrl : ∀ t : State, t.reg a = (s.imgCtrlSet v).reg a → ∀ l, (s.imgCtrlSet v).onlyRegs t l → regsOf t v l := fun t same l only =>
      ⟨(State.regF_reg same 11 8).trans (s.regF_imgCtrlSet v), fun b hb => by
        rw [List.mem_cons, not_or] at hb
        exact (only b hb.2).trans (s.onlyRegs_imgCtrlSet v b (by simpa using hb.1))⟩
    have noStart : ¬ start → v.getLsbD 0 = false := Bool.eq_false_iff.2
    refine ⟨fun asleep go => ⟨_, imgCtrl_asleep hm asleep go, rfl, rfl⟩, fun works idle go small => ?_, fun works idle go big => ?_,
      fun works active go no => ?_, fun idle no => ?_, fun active no cut => ⟨fun unclaimed => ?_, fun claimed => ?_⟩⟩
    · have only := (s.imgCtrlSet v).onlyRegs_startLoad (n := bits 11 8 v)
      have status := (s.imgCtrlSet v).reg_startLoad_status (n := bits 11 8 v)
      obtain ⟨state, number, rest⟩ := bits_startLoad_status (n := bits 11 8 v) (slot.le.trans_lt small)
      exact ⟨_, imgCtrl_taken hm (.inl works) (State.writeImgCtrl_starts idle go (slot.le.trans_lt small)), ctrl _ (only a (by decide)) _ only,
        (congrArg (bits 3 0) status).trans state, (congrArg (bits 6 4) status).trans (number.trans slot),
        (congrArg (bits 63 7) status).trans rest, (s.imgCtrlSet v).reg_startLoad_error,
        (s.imgCtrlSet v).reg_startLoad_progress, (s.imgCtrlSet v).reg_startLoad_repair,
        (s.imgCtrlSet v).startLoad_same⟩
    · exact ⟨_, imgCtrl_rejected hm works (State.writeImgCtrl_refused go (.inl ⟨idle, big.trans slot.ge⟩)), ctrl _ rfl _ fun _ _ => rfl, rfl⟩
    · exact ⟨_, imgCtrl_rejected hm works (State.writeImgCtrl_refused go (.inr ⟨active, Bool.eq_false_iff.2 no⟩)),
        ctrl _ rfl _ fun _ _ => rfl, rfl⟩
    · exact ⟨_, imgCtrl_taken hm (.inr (noStart no)) (State.writeImgCtrl_plain idle (noStart no)), ctrl _ rfl _ fun _ _ => rfl, rfl⟩
    · have write := State.writeImgCtrl_aborts active (noStart no) cut
      rw [State.endLoad_unclaimed (s.imgCtrlSet v) unclaimed] at write
      have only := ((s.imgCtrlSet v).setLdr .reset).onlyRegs_setImgState 8
      exact ⟨_, imgCtrl_taken hm (.inr (noStart no)) write, ctrl _ (only a (by decide)) _ only, State.imgState_setImgState _ (by decide),
        (State.regF_setImgState_high _ 8 63 (by omega)).trans (s.regF_imgStatus_set v 63 4), rfl⟩
    · have number : (s.imgCtrlSet v).imgSlot = s.imgSlot := s.regF_imgStatus_set v 6 4
      have void := (State.voided_voidLoad (s.imgCtrlSet v) claimed).ended 8
      obtain ⟨emptied, others, red, partId, flt, -, messages⟩ := void
      rw [number] at emptied others red partId
      refine ⟨_, imgCtrl_taken hm (.inr (noStart no)) (State.writeImgCtrl_aborts active (noStart no) cut),
        State.imgState_setImgState _ (by decide), rfl, emptied, others, red, partId, congrArg FltSt.watch flt, fun c x found inside => ?_,
        messages⟩
      exact ((State.voided_voidLoad (s.imgCtrlSet v) claimed).ended 8).cell found (number ▸ inside)
  · exact loadVerifyDone_idle
  · intro verifying ready unclaimed failed
    have fails : ∀ x, s.verifyImage s.imgSlot = some x → failed x := by
      intro x bad
      have word := State.reg_failLoad_error s x
      have form := State.failLoad_unclaimed s x unclaimed
      refine ⟨_, loadVerifyDone_fails verifying ready bad, State.imgState_failLoad s x, ?_, word, ?_, ?_⟩
      · rw [form, State.regF_reg (State.reg_setReg_other _ (by decide) _)]
        exact State.regF_setImgState_high _ 7 63 (by omega)
      · intro b hb
        simp only [List.mem_cons, List.not_mem_nil, or_false, not_or] at hb
        rw [form, State.reg_setReg_other _ hb.2]
        exact State.reg_setImgState _ hb.1 7
      · rw [form]
        rfl
    refine ⟨fails, fun h => fails _ (State.verifyImage_form _ h), fun header length table crc unsigned =>
      fails _ (State.verifyImage_unsigned _ header length table crc unsigned), fun good plain first objs allocs failed some_ => ?_⟩
    have claims := State.claims_placed plain objs
    have slot : s.placed.slot s.imgSlot = s.loadingSlot s.imgRect := by
      rw [State.slot, claims.slots]
      exact Tbl.get_put ..
    have opens := loadVerifyDone_opens plain verifying ready good first objs allocs failed some_
    generalize s.placed = u at claims slot opens
    refine ⟨_, opens, claims.state, ?_, ?_, ?_, ?_, ?_, ?_,
      claims.claimed, rfl, rfl, fun g hg => List.mem_append_right _ (List.mem_map_of_mem hg), claims.progress, fun c x found inside => ?_⟩
    · exact congrArg SlotSt.state slot
    · exact congrArg SlotSt.rect slot
    · exact (congrArg (fun x => x.ports.toNat) slot).trans (Nat.mod_eq_of_lt (State.imgN_lt s 0x28 2))
    · exact congrArg SlotSt.owner slot
    · exact congrArg SlotSt.required slot
    · intro n hn
      show u.slot n = _
      rw [State.slot, claims.slots]
      exact Tbl.get_put_other _ hn _ _
    · obtain ⟨k, image⟩ := State.find_unloadRect s found inside
      have cell : u.cell c = x.unload k := State.cell_of_find (claims.cells ▸ image)
      exact congrArg CellSt.configured cell

end Sys2Proof.Machine

namespace Sys2Proof.Machine

open Sys2Proof

/-! # Repair rounds of a load, and its commit. -/

/-! ## No slot is in repair (R588) -/

theorem foldl_still {α β : Type} {g : α → β → α} {a : α} {l : List β} (h : ∀ x ∈ l, g a x = a) : l.foldl g a = a := by
  induction l with
  | nil => rfl
  | cons x l ih =>
    rw [List.foldl_cons, h x List.mem_cons_self]
    exact ih fun y hy => h y (List.mem_cons_of_mem _ hy)

section
variable {s : State} (sound : ∀ n, n < 8 → (s.job n).repair = none)
include sound

theorem State.repair_none {u : State} (jobs : u.jobs = s.jobs) {n : Nat} (hn : n ∈ allSlots) : u.repair n = none := by
  have same : u.job n = s.job n := congrArg (fun l => l.get .reset n) jobs
  rw [State.repair, same]
  exact sound n (by simpa [allSlots] using hn)

theorem exec_repairRound : exec .repairRound s = .next s.loadRound := by
  have jobs : s.loadRound.jobs = s.jobs := same_of_blur (State.loadRound_blur 0x479e01fa rfl s) .jobs rfl
  exact congrArg Host.Outcome.next (foldl_still fun n hn => by rw [State.repairRound, State.repair_none sound jobs hn])

theorem exec_loadCheck : exec .loadCheck s = .next (s.deliver .loadCheck).loadCheck := by
  have jobs : (s.deliver .loadCheck).loadCheck.jobs = s.jobs :=
    same_of_blur (State.loadCheck_blur 0x479e01fa rfl (s.deliver .loadCheck)) .jobs rfl
  exact congrArg Host.Outcome.next (foldl_still fun n hn => by rw [State.repairCheck, State.repair_none sound jobs hn])

theorem exec_missReportWindowEnd : exec .missReportWindowEnd s = .next s.loadWindowEnd := by
  have jobs : s.loadWindowEnd.jobs = s.jobs := same_of_blur (State.loadWindowEnd_blur 0x2000010 rfl s) .jobs rfl
  exact congrArg Host.Outcome.next (foldl_still fun n hn => by rw [State.repairWindowEnd, State.repair_none sound jobs hn])

end

/-! ## The broadcast ends (R62, R63) -/

section
variable {s : State}

theorem loadBroadcastDone_idle (h : s.imgState ≠ 3) : exec .loadBroadcastDone s = .next s := congrArg Host.Outcome.next (if_pos h)

theorem loadBroadcastDone_changed (casts : s.imgState = 3) {k : Nat} (changed : s.badCrc Sec.trail = some k) :
    exec .loadBroadcastDone s = .next (s.failLoad { code := 0x03, sec := k }) := by
  simp only [exec, execLoadBroadcastDone, casts, changed, ne_eq, not_true, if_false]

/-- The registers and the loader's state alone may differ. -/
def State.LoaderOnly (s t : State) : Prop := t = { s with regs := t.regs, ldr := t.ldr }

theorem State.LoaderOnly.trans {t u : State} (h : s.LoaderOnly t) (k : t.LoaderOnly u) : s.LoaderOnly u := by
  unfold State.LoaderOnly at h k ⊢
  rw [h] at k
  rw [k]

theorem State.loaderOnly_setRegF (s : State) (a hi lo v : Nat) : s.LoaderOnly (s.setRegF a hi lo v) := rfl

theorem State.loaderOnly_modLdr (s : State) (f : LdrSt → LdrSt) : s.LoaderOnly (s.modLdr f) := rfl

/-- The load with every chunk sent, its rounds to begin. -/
def State.broadcast (s : State) : State :=
  ((s.setRegF Reg.imgProgress 31 0 s.imgChunks).modLdr (fun l => { l with rounds := { RoundSt.reset with blocks := s.imgFms } })).setImgState 4

theorem loadBroadcastDone_checks (casts : s.imgState = 3) (sound : s.badCrc Sec.trail = none) :
    exec .loadBroadcastDone s = .next s.broadcast := by
  simp only [exec, execLoadBroadcastDone, casts, sound, ne_eq, not_true, if_false]
  rfl

theorem State.imgState_broadcast : s.broadcast.imgState = 4 := State.imgState_setImgState _ (by decide)

theorem State.regF_broadcast_status : s.broadcast.regF Reg.imgStatus 63 4 = s.regF Reg.imgStatus 63 4 := by
  rw [State.broadcast, State.regF_setImgState_high _ 4 63 (by omega), State.modLdr_regF,
    State.regF_setRegF_other s (by decide)]

theorem State.reg_broadcast {a : Nat} (h : a ≠ Reg.imgStatus) :
    s.broadcast.reg a = (s.setRegF Reg.imgProgress 31 0 s.imgChunks).reg a := by
  rw [State.broadcast, State.reg_setImgState _ h, State.modLdr_reg]

theorem State.regF_broadcast_sent : s.broadcast.regF Reg.imgProgress 31 0 = s.imgChunks := by
  rw [State.regF_reg (State.reg_broadcast (by decide)), State.regF_setRegF _ _ (by omega) (by omega)]
  exact Nat.mod_eq_of_lt (State.imgN_lt s 0x38 4)

theorem State.regF_broadcast_rest : s.broadcast.regF Reg.imgProgress 63 32 = s.regF Reg.imgProgress 63 32 := by
  rw [State.regF_reg (State.reg_broadcast (by decide)), State.regF_setRegF_field s _ (by omega) (by omega) (by omega)]

theorem State.onlyRegs_broadcast : s.onlyRegs s.broadcast [Reg.imgStatus, Reg.imgProgress] := by
  intro a ha
  simp only [List.mem_cons, List.not_mem_nil, or_false, not_or] at ha
  obtain ⟨status, progress⟩ := ha
  rw [State.reg_broadcast status, State.reg_setRegF_other s progress]

theorem State.ldr_broadcast : s.broadcast.ldr = { s.ldr with rounds := ⟨s.imgFms, 0, false, [], []⟩ } := by
  rw [State.broadcast, State.setImgState, State.setRegF_ldr]
  rfl

theorem State.loaderOnly_broadcast : s.LoaderOnly s.broadcast :=
  ((State.loaderOnly_setRegF _ _ _ _ _).trans (State.loaderOnly_modLdr _ _)).trans (State.loaderOnly_setRegF _ _ _ _ _)

end

/-! ## Rounds (R64) -/

section
variable {s : State}

/-- The load checks its targets, by the state of IMG_STATUS and the commit. -/
theorem State.loadRounds_iff : s.loadRounds = true ↔ (s.imgState = 4 ∨ s.imgState = 5) ∧ s.ldr.commit = false := by
  simp [State.loadRounds]

theorem State.loadRounds_of_not (h : ¬ ((s.imgState = 4 ∨ s.imgState = 5) ∧ s.ldr.commit = false)) : s.loadRounds = false :=
  Bool.eq_false_iff.2 fun live => h (State.loadRounds_iff.1 live)

/-- The load in its next round, the check on its way. -/
def State.nextRound (s : State) : State :=
  ((s.modLdr (fun l => { l with rounds := { s.ldr.rounds with round := s.ldr.rounds.round + 1 } })).setRegF Reg.imgStatus 9 8
    (s.ldr.rounds.round + 1)).send .loadCheck

theorem State.ldr_nextRound : s.nextRound.ldr = { s.ldr with rounds := { s.ldr.rounds with round := s.ldr.rounds.round + 1 } } := by
  rw [State.nextRound, State.send_ldr, State.setRegF_ldr]
  rfl

theorem State.reg_nextRound (a : Nat) : s.nextRound.reg a = (s.setRegF Reg.imgStatus 9 8 (s.ldr.rounds.round + 1)).reg a := by
  rw [State.nextRound, State.send_reg]
  rfl

theorem State.regF_nextRound (more : s.ldr.rounds.round < 3) : s.nextRound.regF Reg.imgStatus 9 8 = s.ldr.rounds.round + 1 :=
  ((State.regF_reg (State.reg_nextRound _) 9 8).trans (State.regF_setRegF s _ (by omega) (by omega) _)).trans
    (Nat.mod_eq_of_lt (by omega))

theorem State.regF_nextRound_other {hi lo : Nat} (apart : hi < 8 ∨ 9 < lo) :
    s.nextRound.regF Reg.imgStatus hi lo = s.regF Reg.imgStatus hi lo :=
  (State.regF_reg (State.reg_nextRound _) hi lo).trans (State.regF_setRegF_field s _ (by omega) (by omega) apart _)

theorem State.onlyRegs_nextRound : s.onlyRegs s.nextRound [Reg.imgStatus] := fun a ha =>
  (State.reg_nextRound a).trans (State.onlyRegs_setRegF s _ 9 8 _ a ha)

theorem State.nextRound_same :
    s.nextRound = { s with ldr := s.nextRound.ldr, regs := s.nextRound.regs, inFlight := s.inFlight ++ [.loadCheck] } := rfl

theorem State.loadRound_idle (h : s.loadRounds = false ∨ s.ldr.rounds.window = true ∨ Instr.loadCheck ∈ s.inFlight) : s.loadRound = s :=
  if_pos (by simpa using h)

section
variable (live : s.loadRounds = true) (closed : s.ldr.rounds.window = false) (none : Instr.loadCheck ∉ s.inFlight)
include live closed none

theorem State.loadRound_begins (more : s.ldr.rounds.round < 3) : s.loadRound = s.nextRound :=
  (if_neg (by simp [live, closed, none])).trans (if_neg (by omega))

theorem State.loadRound_ends (spent : 3 ≤ s.ldr.rounds.round) : s.loadRound = s.endRounds :=
  (if_neg (by simp [live, closed, none])).trans (if_pos spent)

end

theorem State.loadCheck_idle (idle : s.loadRounds = false) : s.loadCheck = s := if_pos (by simp [idle])

theorem State.loadCheck_whole (live : s.loadRounds = true) (whole : ∀ f ∈ s.ldr.rounds.blocks, s.blockLacks f = false) :
    s.loadCheck = s.endRounds :=
  (if_neg (by simp [live])).trans (if_pos (by simpa using whole))

theorem State.loadCheck_lacks (live : s.loadRounds = true) (lacks : ∃ f ∈ s.ldr.rounds.blocks, s.blockLacks f = true) : s.loadCheck =
    (s.modLdr (fun l => { l with rounds := l.rounds.checked (s.ldr.rounds.blocks.filter s.blockLacks) })).sendAll
      (((s.ldr.rounds.blocks.filter s.blockLacks).filter (fun f => s.takes (.foreman f))).map s.missMsg) :=
  (if_neg (by simp [live])).trans (if_neg (by simpa using lacks))

theorem State.loadWindowEnd_idle (h : s.loadRounds = false ∨ s.ldr.rounds.window = false) : s.loadWindowEnd = s := if_pos (by simpa using h)

/-- The end of the report window, with what is resent counted or not. -/
theorem State.loadWindowEnd_counts (live : s.loadRounds = true) (opened : s.ldr.rounds.window = true) : s.loadWindowEnd =
    (if s.imgState = 4 then s.satReg Reg.imgRepair (16 * (s.ldr.rounds.round - 1) + 15) (16 * (s.ldr.rounds.round - 1))
        (s.ldr.rounds.missing.map (fun f => s.resendCount f s.ldr.rounds.reports)).sum else s).modLdr
      (fun l => { l with rounds := { s.ldr.rounds with window := false, missing := [], reports := [] } }) :=
  if_neg (by simp [live, opened])

end

/-! ## The report of a block (R64) -/

section
variable {s : State} (f : FmId) (lists : List MissList)

/-- The rounds with the report of a block that is awaited. -/
def RoundSt.told (r : RoundSt) (f : FmId) (lists : List MissList) : RoundSt :=
  if r.window = true ∧ r.missing.contains f = true then { r with reports := r.reports ++ [(f, lists)] } else r

theorem RoundSt.told_awaited {r : RoundSt} (h : r.window = true ∧ f ∈ r.missing) :
    r.told f lists = { r with reports := r.reports ++ [(f, lists)] } :=
  if_pos (by simpa using h)

theorem RoundSt.told_other {r : RoundSt} (h : r.window = false ∨ f ∉ r.missing) : r.told f lists = r :=
  if_neg (by rcases h with h | h <;> simp [h])

/-- The state with a block's report, for the load and for every repair. -/
def State.reported (s : State) (f : FmId) (lists : List MissList) : State :=
  { (s.deliver (.miss f lists)).modLdr (fun l => { l with rounds := l.rounds.told f lists }) with
    jobs := s.jobs.map (fun e => (e.1, { e.2 with repair := e.2.repair.map (fun p => { p with rounds := p.rounds.told f lists }) })) }

theorem exec_miss : exec (.miss f lists) s = .next (s.reported f lists) := rfl

/-- A slot without a repair is as it was. -/
theorem State.job_reported {n : Nat} (h : (s.job n).repair = none) : (s.reported f lists).job n = s.job n := by
  have image := Tbl.find_map (fun _ (x : JobSt) =>
    { x with repair := x.repair.map (fun (p : RepairSt) => { p with rounds := p.rounds.told f lists }) }) n s.jobs
  unfold State.job Tbl.get at h ⊢
  have found : (s.reported f lists).jobs.find n = _ := image
  rw [found]
  revert h
  cases s.jobs.find n with
  | none => exact fun _ => rfl
  | some x =>
    intro (h : x.repair = none)
    show ({ x with repair := x.repair.map _ } : JobSt) = x
    rw [h]
    cases x
    cases h
    rfl

end

end Sys2Proof.Machine

namespace Sys2Proof.Machine

open Sys2Proof

/-! ## The rounds end (R64 to R66) -/

/-- The targets of the rounds' blocks that are fenced, lack chunks or were silent. -/
def State.badTargets (s : State) : List Target :=
  (s.ldr.rounds.blocks.flatMap blockTargets).filter (fun g => s.unsound g || s.ldr.suspects.contains g)

/-- A target that the rounds leave incomplete, by the words of the statement. -/
def State.Bad (s : State) (g : Target) : Prop :=
  (∃ f ∈ s.ldr.rounds.blocks, g ∈ blockTargets f) ∧ (s.takes g = false ∨ s.lacking g = true ∨ g ∈ s.ldr.suspects)

theorem State.mem_badTargets {s : State} {g : Target} : g ∈ s.badTargets ↔ s.Bad g := by
  simp [State.badTargets, State.Bad, State.unsound, or_assoc]

theorem Target.mem_fmOf {l : List Target} {f : FmId} : f ∈ l.filterMap Target.fmOf ↔ .foreman f ∈ l := by
  simp only [List.mem_filterMap]
  constructor
  · rintro ⟨g, hg, of⟩
    cases g with
    | cell c => cases of
    | foreman k =>
      cases of
      exact hg
  · exact fun h => ⟨_, h, rfl⟩

theorem Target.mem_cellOf {l : List Target} {c : Nat} : c ∈ l.filterMap Target.cellOf ↔ .cell c ∈ l := by
  simp only [List.mem_filterMap]
  constructor
  · rintro ⟨g, hg, of⟩
    cases g with
    | foreman k => cases of
    | cell d =>
      cases of
      exact hg
  · exact fun h => ⟨_, h, rfl⟩

theorem foreman_mem_blockTargets {f k : FmId} : Target.foreman k ∈ blockTargets f ↔ k = f := by simp [blockTargets]

section
variable {s : State}

theorem State.endRounds_sound (sound : ∀ g, ¬ s.Bad g) : s.endRounds = s.sendConfigure := by
  have none : s.badTargets = [] := List.eq_nil_iff_forall_not_mem.2 fun g hg => sound g (State.mem_badTargets.1 hg)
  unfold State.badTargets at none
  simp only [State.endRounds, none, List.filterMap_nil, List.isEmpty_nil, if_true]

/-- A block whose foreman is incomplete (R66). -/
theorem State.endRounds_foreman {f : FmId} (block : s.ldr.rounds.blocks = [f]) (bad : s.Bad (.foreman f)) :
    s.endRounds = s.failLoad { code := 0x0C, cell := blockCell f } := by
  have first : ∃ rest, s.badTargets.filterMap Target.fmOf = f :: rest := by
    have some : f ∈ s.badTargets.filterMap Target.fmOf := Target.mem_fmOf.2 (State.mem_badTargets.2 bad)
    have all : ∀ k ∈ s.badTargets.filterMap Target.fmOf, k = f := fun k hk => by
      obtain ⟨⟨x, hx, of⟩, -⟩ := State.mem_badTargets.1 (Target.mem_fmOf.1 hk)
      rw [block, List.mem_singleton] at hx
      exact foreman_mem_blockTargets.1 (hx ▸ of)
    cases list : s.badTargets.filterMap Target.fmOf with
    | nil => simp [list] at some
    | cons k rest =>
      cases all k (list ▸ List.mem_cons_self)
      exact ⟨rest, rfl⟩
  obtain ⟨rest, first⟩ := first
  unfold State.badTargets at first
  simp only [State.endRounds, first]

section
variable {c : Nat} (only : ∀ g, s.Bad g ↔ g = .cell c)
include only

theorem State.badFms_nil : s.badTargets.filterMap Target.fmOf = [] :=
  List.eq_nil_iff_forall_not_mem.2 fun k hk => by
    cases (only _).1 (State.mem_badTargets.1 (Target.mem_fmOf.1 hk))

theorem State.mem_badCells {d : Nat} : d ∈ s.badTargets.filterMap Target.cellOf ↔ d = c := by
  rw [Target.mem_cellOf, State.mem_badTargets, only, Target.cell.injEq]

theorem State.badCells_head : ∃ rest, s.badTargets.filterMap Target.cellOf = c :: rest := by
  have some := (State.mem_badCells only).2 rfl
  cases list : s.badTargets.filterMap Target.cellOf with
  | nil => simp [list] at some
  | cons d rest =>
    cases (State.mem_badCells only).1 (list ▸ List.mem_cons_self)
    exact ⟨rest, rfl⟩

/-- A cell incomplete after its block was loaded again (R66, R73). -/
theorem State.endRounds_again (reload : s.imgState = 5) : s.endRounds = s.failLoad { code := 0x0B, cell := c } := by
  obtain ⟨rest, cells⟩ := State.badCells_head only
  have fms := State.badFms_nil only
  unfold State.badTargets at cells fms
  simp only [State.endRounds, fms, cells, List.isEmpty_cons, Bool.false_eq_true, if_false, reload, if_true, List.headD_cons]

end

end

/-- A suspect once it is recorded and fenced (R65). -/
def State.suspected (s : State) (c : Nat) : State :=
  (((s.satReg Reg.imgRepair 55 48 1).watchFail 1 c 0x2002).fenceCell c).raiseCell 0x2002 c 0

/-- A suspect's row on other silicon, its cells expecting the image anew (R65). -/
def State.respared (s : State) (c : Nat) : State :=
  (List.range (8 - colOf c % 8)).foldl (fun u k => u.setLoad (.cell (c + k)) (LoadSt.opening s.imgChunks s.imgDirs)) (s.remapRow c)

theorem State.suspectCell_eq (s : State) (c : Nat) : s.suspectCell c =
    if (s.suspected c).spareFree c then ((s.suspected c).respared c, none) else (s.suspected c, some c) := rfl

theorem State.suspected_same (s : State) (c : Nat) {p : Part} (hp : Nat.testBit 0x4400003a p.index = false) : p.same s (s.suspected c) := by
  refine same_of_blur ?_ p hp
  unfold State.suspected
  rw [State.raiseCell_blur 0x4400003a rfl, State.fenceCell_blur 0x4400003a rfl, State.watchFail_blur 0x4400003a rfl,
    State.satReg_blur 0x4400003a rfl]

theorem State.spareFree_suspected (s : State) (c : Nat) : (s.suspected c).spareFree c = s.spareFree c := by
  have spares : (s.suspected c).spares = s.spares := s.suspected_same c (p := .spares) rfl
  unfold State.spareFree State.spareOf
  rw [spares]

section
variable {s : State} {c : Nat} (only : ∀ g, s.Bad g ↔ g = .cell c)
include only

/-- A cell without a spare in its row (R66, R73). -/
theorem State.endRounds_spent (first : s.imgState ≠ 5) (spent : s.spareFree c = false) :
    s.endRounds = (s.suspected c).failLoad { code := 0x0B, cell := c } := by
  obtain ⟨rest, cells⟩ := State.badCells_head only
  have fms := State.badFms_nil only
  have answer : State.suspectCells (c :: rest) s = (s.suspected c, some c) := by
    rw [State.suspectCells, State.suspectCell_eq, State.spareFree_suspected, spent]
    rfl
  unfold State.badTargets at cells fms
  simp only [State.endRounds, fms, cells, List.isEmpty_cons, Bool.false_eq_true, if_false, first, answer]

end

theorem cellOfPos_injective {f : FmId} {p q : Nat} (h : cellOfPos f p = cellOfPos f q) : p = q := by
  unfold cellOfPos at h
  omega

theorem blockTargets_nodup (f : FmId) : (blockTargets f).Nodup := by
  refine List.nodup_cons.2 ⟨by simp, ?_⟩
  exact (List.nodup_range.map fun _ _ => cellOfPos_injective).map fun _ _ => Target.cell.inj

/-- The load with the block of a suspect to be loaded again (R65). -/
def State.reloading (s : State) (f : FmId) : State :=
  ((s.modLdr (fun l => { l with suspects := [], rounds := { RoundSt.reset with blocks := [f] } })).setImgState 5).setRegF
    Reg.imgStatus 9 8 0

section
variable {s : State} {c : Nat} (only : ∀ g, s.Bad g ↔ g = .cell c)
include only

theorem State.badCells_one (block : s.ldr.rounds.blocks = [fmOf c]) : s.badTargets.filterMap Target.cellOf = [c] := by
  have nodup : (s.badTargets.filterMap Target.cellOf).Nodup := by
    refine List.Nodup.filterMap ?_ (List.Nodup.filter _ ?_)
    · intro a b x ha hb
      cases a <;> cases b <;> simp_all [Target.cellOf]
    · rw [block, List.flatMap_singleton]
      exact blockTargets_nodup _
  refine List.perm_singleton.1 ((List.perm_ext_iff_of_nodup nodup (List.nodup_singleton c)).2 fun d => ?_)
  rw [State.mem_badCells only, List.mem_singleton]

/-- A cell with a spare in its row (R65). -/
theorem State.endRounds_spare (block : s.ldr.rounds.blocks = [fmOf c]) (first : s.imgState ≠ 5) (spare : s.spareFree c = true) :
    s.endRounds = ((s.suspected c).respared c).reloading (fmOf c) := by
  have cells := State.badCells_one only block
  have fms := State.badFms_nil only
  have answer : State.suspectCells [c] s = ((s.suspected c).respared c, none) := by
    rw [State.suspectCells, State.suspectCell_eq, State.spareFree_suspected, spare]
    rfl
  unfold State.badTargets at cells fms
  simp only [State.endRounds, fms, cells, List.isEmpty_cons, Bool.false_eq_true, if_false, first, answer]
  rfl

end

end Sys2Proof.Machine

namespace Sys2Proof.Machine

open Sys2Proof

/-! ## A suspect with a spare (R21, R65, R343) -/

/-- What one element sets and every other keeps holds after the whole list. -/
theorem foldl_reaches {α β : Type} {g : α → β → α} {P : α → Prop} {l : List β} {x : β} (mem : x ∈ l) (sets : ∀ a, P (g a x))
    (keeps : ∀ a y, P a → P (g a y)) (a : α) : P (l.foldl g a) := by
  obtain ⟨front, back, rfl⟩ := List.append_of_mem mem
  rw [List.foldl_append, List.foldl_cons]
  exact List.foldlRecOn back g (sets _) fun b hb y _ => keeps b y hb

/-- YRD_FAULT alone of the registers may have changed, and no message is lost. -/
structure State.Damaged (s t : State) : Prop where
  regs : s.onlyRegs t [Reg.yrdFault]
  sent : ∀ m ∈ s.inFlight, m ∈ t.inFlight

theorem State.Damaged.of_same {s t : State} (regs : t.regs = s.regs) (inFlight : t.inFlight = s.inFlight) : s.Damaged t where
  regs := fun a _ => State.reg_congr regs a
  sent := fun _ h => inFlight ▸ h

theorem State.Damaged.trans {s t u : State} (h : s.Damaged t) (k : t.Damaged u) : s.Damaged u where
  regs := fun a ha => (k.regs a ha).trans (h.regs a ha)
  sent := fun m hm => k.sent m (h.sent m hm)

theorem State.Damaged.of_blur {μ : Nat} {s t : State} (h : t.blur μ = s.blur μ) (regs : μ.testBit 4 = false) (sent : μ.testBit 1 = false) :
    s.Damaged t := .of_same (same_of_blur h .regs regs) (same_of_blur h .inFlight sent)

theorem State.damaged_yrdRaise (s : State) (code h x : Nat) : s.Damaged (s.yrdRaise code h x) where
  regs := fun a ha => by
    rw [State.yrdRaise, State.raise_reg]
    exact State.onlyRegs_setReg s _ _ a ha
  sent := fun m hm => by
    rw [State.yrdRaise, State.raise_inFlight, State.setReg_inFlight]
    exact List.mem_append_left _ hm

theorem State.damaged_loseT0Cells (s : State) (cells : Nat → Bool) : s.Damaged (s.loseT0Cells cells) := by
  unfold State.loseT0Cells
  refine List.foldlRecOn _ _ (.of_same rfl rfl) fun t ht e _ => ht.trans ?_
  dsimp only
  split
  case h_2 => exact .of_same rfl rfl
  case h_1 p _ =>
    split
    case isFalse => exact .of_same rfl rfl
    case isTrue =>
      refine State.Damaged.trans (.of_blur (μ := 0x40028) ?_ rfl rfl) (State.damaged_yrdRaise _ _ _ _)
      rw [State.modObj_blur 0x40028 rfl]
      refine foldl_blur 0x40028 _ (fun u f => foldl_blur 0x40028 _ (fun v c => ?_) _ u) _ t
      rw [State.modCell_blur 0x40028 rfl, State.fresh_blur 0x40028 rfl]

/-- The cells that follow the suspect in its row, powered down. -/
def State.unpowerCells (s : State) (k : Nat) (l : List (Nat × Nat)) : State :=
  l.foldl (fun s e => s.setCell e.1 (CellSt.unpowered (k + 24 * e.2))) s

theorem State.unpowerCells_blur (s : State) (k : Nat) (l : List (Nat × Nat)) : (s.unpowerCells k l).blur 0x20 = s.blur 0x20 :=
  foldl_blur 0x20 _ (fun u _ => State.setCell_blur 0x20 rfl u _ _) l s

theorem State.configured_unpowerCells {c j : Nat} {l : List (Nat × Nat)} (mem : (c, j) ∈ l) (s : State) (k : Nat) :
    ((s.unpowerCells k l).cell c).configured = false := by
  refine foldl_reaches (P := fun u : State => (u.cell c).configured = false) mem (fun u => ?_) (fun u e hu => ?_) s
  · rw [State.cell_setCell]
    rfl
  · by_cases h : c = e.1
    · rw [h, State.cell_setCell]
      rfl
    · rwa [State.cell_setCell_other _ h]

/-- The cells of the row from the suspect on, in their order. -/
def movedCells (c : Nat) : List Nat := (List.range (8 - colOf c % 8)).map (fun k => c + k)

theorem zero_mem_moved (c : Nat) : 0 ∈ List.range (8 - colOf c % 8) := List.mem_range.2 (by omega)

theorem suspect_mem_moved (c : Nat) : ∃ j, (c, j) ∈ (movedCells c).zipIdx := by
  have mem : c ∈ movedCells c := List.mem_map.2 ⟨0, zero_mem_moved c, rfl⟩
  obtain ⟨j, bound, at'⟩ := List.mem_iff_getElem.1 mem
  exact ⟨j, List.mem_iff_getElem.2 ⟨j, by simpa using bound, by simp [at']⟩⟩

/-- The suspect's row with its spare taken. -/
def State.spareTaken (s : State) (c : Nat) : State :=
  { s with spares := s.spares.set 9 (regionOf c * 240 + blockRowOf c) (colOf c % 8), freeCtr := s.freeCtr + 192 }

theorem State.remapRow_eq (s : State) (c : Nat) : s.remapRow c =
    ((s.loseT0Cells (fun d => (movedCells c).contains d)).spareTaken c).unpowerCells
      (s.loseT0Cells (fun d => (movedCells c).contains d)).freeCtr (movedCells c).zipIdx := rfl

theorem State.damaged_remapRow (s : State) (c : Nat) : s.Damaged (s.remapRow c) := by
  have taken (u : State) : u.Damaged (u.spareTaken c) := .of_same rfl rfl
  have unpowered (u : State) (k : Nat) (l : List (Nat × Nat)) : u.Damaged (u.unpowerCells k l) :=
    .of_blur (State.unpowerCells_blur u k l) rfl rfl
  rw [State.remapRow_eq]
  exact ((s.damaged_loseT0Cells _).trans (taken _)).trans (unpowered _ _ _)

theorem State.spareOf_remapRow (s : State) (c : Nat) : (s.remapRow c).spareOf (regionOf c) (blockRowOf c) = colOf c % 8 := by
  rw [State.remapRow_eq]
  generalize s.loseT0Cells _ = u
  have spares : ((u.spareTaken c).unpowerCells u.freeCtr (movedCells c).zipIdx).spares = (u.spareTaken c).spares :=
    same_of_blur (State.unpowerCells_blur ..) .spares rfl
  rw [State.spareOf, spares]
  exact Tbl.get_set ..

theorem State.configured_remapRow (s : State) (c : Nat) : ((s.remapRow c).cell c).configured = false := by
  obtain ⟨j, mem⟩ := suspect_mem_moved c
  rw [State.remapRow_eq]
  exact State.configured_unpowerCells mem _ _

section
variable {s : State} {c : Nat}

/-- The row's cells expect the image anew. -/
theorem State.respared_blur {μ : Nat} (hμ : 0x60 &&& μ = 0x60) : (s.respared c).blur μ = (s.remapRow c).blur μ :=
  foldl_blur μ _ (fun u _ => State.setLoad_blur μ hμ u _ _) _ _

theorem State.damaged_respared : s.Damaged (s.respared c) :=
  (s.damaged_remapRow c).trans (.of_blur (State.respared_blur (μ := 0x60) rfl) rfl rfl)

theorem State.ldr_respared : (s.respared c).ldr = s.ldr :=
  same_of_blur ((State.respared_blur rfl).trans (State.remapRow_blur 0x4017a rfl s c)) .ldr rfl

theorem State.spareOf_respared : (s.respared c).spareOf (regionOf c) (blockRowOf c) = colOf c % 8 := by
  have same : (s.respared c).spares = (s.remapRow c).spares := same_of_blur (State.respared_blur (μ := 0x60) rfl) .spares rfl
  rw [State.spareOf, same]
  exact s.spareOf_remapRow c

theorem State.configured_respared : ((s.respared c).cell c).configured = false := by
  refine List.foldlRecOn (motive := fun u : State => (u.cell c).configured = false) _ _ (s.configured_remapRow c) fun u hu k _ => ?_
  by_cases h : c = c + k
  · rw [← h]
    exact (congrArg CellSt.configured (State.cell_modCell u c _)).trans hu
  · exact (congrArg CellSt.configured (State.cell_modCell_other u h _)).trans hu

theorem State.load_respared : ((s.respared c).cell c).load = LoadSt.opening s.imgChunks s.imgDirs := by
  refine foldl_reaches (P := fun u : State => (u.cell c).load = LoadSt.opening s.imgChunks s.imgDirs) (zero_mem_moved c) (fun u => ?_)
    (fun u k hu => ?_) _
  · exact congrArg CellSt.load (State.cell_modCell u c _)
  · by_cases h : c = c + k
    · rw [← h]
      exact congrArg CellSt.load (State.cell_modCell u c _)
    · exact (congrArg CellSt.load (State.cell_modCell_other u h _)).trans hu

theorem State.regF_suspected :
    (s.suspected c).regF Reg.imgRepair 55 48 = min (s.regF Reg.imgRepair 55 48 + 1) 255 := by
  have regs : (s.suspected c).regs = (s.satReg Reg.imgRepair 55 48 1).regs := by
    refine same_of_blur (μ := 0x4400002a) ?_ .regs rfl
    unfold State.suspected
    rw [State.raiseCell_blur 0x4400002a rfl, State.fenceCell_blur 0x4400002a rfl, State.watchFail_blur 0x4400002a rfl]
  exact (State.regF_reg (State.reg_congr regs _) 55 48).trans (State.regF_satReg s Reg.imgRepair (by omega) (by omega) 1)

theorem State.notice_suspected :
    Instr.faultNotice ⟨0x2002, s.slotOfCell c, c, 0, s.posOfCell c⟩ ∈ (s.suspected c).inFlight := by
  have fenced (u : State) (slots : u.slots = s.slots) (spares : u.spares = s.spares) :
      u.slotOfCell c = s.slotOfCell c ∧ u.posOfCell c = s.posOfCell c := by
    constructor
    · unfold State.slotOfCell State.slotOfRegion State.occupied State.slot
      rw [slots]
    · unfold State.posOfCell State.spareOf
      rw [spares]
  have same {p : Part} (hp : Nat.testBit 0x4400003a p.index = false) :
      p.same s (((s.satReg Reg.imgRepair 55 48 1).watchFail 1 c 0x2002).fenceCell c) := by
    refine same_of_blur ?_ p hp
    rw [State.fenceCell_blur 0x4400003a rfl, State.watchFail_blur 0x4400003a rfl, State.satReg_blur 0x4400003a rfl]
  obtain ⟨slot, pos⟩ := fenced _ (same (p := .slots) rfl) (same (p := .spares) rfl)
  rw [← slot, ← pos]
  exact List.mem_append_right _ List.mem_cons_self

end

/-! ## What the loader says of a suspect's block (R65, R79) -/

section
variable {s : State} {f : FmId}

theorem State.imgState_reloading : (s.reloading f).imgState = 5 :=
  (State.regF_setRegF_field _ Reg.imgStatus (by omega) (by omega) (.inl (by omega)) 0).trans (State.imgState_setImgState _ (by decide))

theorem State.regF_reloading : (s.reloading f).regF Reg.imgStatus 9 8 = 0 := State.regF_setRegF _ Reg.imgStatus (by omega) (by omega) 0

theorem State.reg_reloading {a : Nat} (h : a ≠ Reg.imgStatus) : (s.reloading f).reg a = s.reg a :=
  (State.reg_setRegF_other _ h 9 8 0).trans (State.reg_setImgState _ h 5)

theorem State.ldr_reloading : (s.reloading f).ldr = { s.ldr with suspects := [], rounds := ⟨[f], 0, false, [], []⟩ } := by
  unfold State.reloading
  rw [State.setRegF_ldr, State.setImgState, State.setRegF_ldr]
  rfl

theorem State.reloading_blur : (s.reloading f).blur 0x2000010 = s.blur 0x2000010 := by
  unfold State.reloading
  rw [State.setRegF_blur 0x2000010 rfl, State.setImgState_blur 0x2000010 rfl, State.modLdr_blur 0x2000010 rfl]

end

end Sys2Proof.Machine

namespace Sys2Proof.Machine

open Sys2Proof

/-! ## The configure broadcast (R63 step 8) -/

theorem CellSt.configure_configure (x : CellSt) : x.configure.configure = x.configure := by
  by_cases fenced : x.looper = .snag
  · have same : x.configure = x := if_pos fenced
    rw [same, same]
  · simp [CellSt.configure, fenced]

section
variable {s : State}

theorem State.cell_configureTargets (c : Nat) (l : List Target) (s : State) :
    (l.foldl State.configureTarget s).cell c = if Target.cell c ∈ l then (s.cell c).configure else s.cell c := by
  induction l generalizing s with
  | nil => rfl
  | cons g l ih =>
    rw [List.foldl_cons, ih]
    by_cases h : g = .cell c
    · subst h
      have now : (s.configureTarget (.cell c)).cell c = (s.cell c).configure := State.cell_modCell ..
      rw [now, CellSt.configure_configure]
      simp
    · have now : (s.configureTarget g).cell c = s.cell c := by
        cases g with
        | foreman f => rfl
        | cell d => exact State.cell_modCell_other s (fun e : c = d => h (e ▸ rfl)) _
      rw [now]
      simp [Ne.symm h]

/-- The foreman is listed and configured. -/
def State.FmUp (s : State) (f : FmId) : Prop := ∃ x, s.fms.find (fmKey f) = some x ∧ x.configured = true

theorem State.FmUp.configured {f : FmId} (h : s.FmUp f) : (s.fm f).configured = true := by
  obtain ⟨x, found, up⟩ := h
  unfold State.fm
  rw [found]
  exact up

theorem State.FmUp.modFm {f : FmId} (h : s.FmUp f) (k : FmId) {g : FmSt → FmSt} (keeps : ∀ x, x.configured = true → (g x).configured = true) :
    (s.modFm k g).FmUp f := by
  by_cases key : fmKey f = fmKey k
  · obtain ⟨x, found, up⟩ := h
    have here : s.fm k = x := by
      unfold State.fm
      rw [← key, found]
    exact ⟨g (s.fm k), by rw [key]; exact Tbl.find_put .., by rw [here]; exact keeps x up⟩
  · obtain ⟨x, found, up⟩ := h
    exact ⟨x, (Tbl.find_put_other key _ _).trans found, up⟩

theorem State.fmUp_configureTargets {f : FmId} {l : List Target} (mem : .foreman f ∈ l) (s : State) :
    (l.foldl State.configureTarget s).FmUp f := by
  refine foldl_reaches (P := fun u : State => u.FmUp f) mem (fun u => ⟨_, Tbl.find_put .., rfl⟩) (fun u g hu => ?_) s
  cases g with
  | cell c => exact hu
  | foreman k => exact hu.modFm k fun _ _ => rfl

/-- The hubs of a slot's foremen begin anew; no foreman loses its configuration. -/
theorem State.FmUp.clearBarriers {f : FmId} (h : s.FmUp f) (n : Nat) : (s.clearBarriers n).FmUp f := by
  unfold State.clearBarriers
  refine List.foldlRecOn (motive := fun u : State => u.FmUp f) _ _ ?_ fun u hu _ _ => hu
  exact List.foldlRecOn (motive := fun u : State => u.FmUp f) _ _ h fun u hu k _ => hu.modFm k fun _ up => up

theorem State.slots_clearBarriers (n : Nat) :
    (s.clearBarriers n).slots = (s.setSlot n { s.slot n with parts := none, root := .reset, summary := none }).slots := by
  have hubs (u : State) (fs : List FmId) (rs : List Nat) (f : FmSt → FmSt) (r : RgnSt → RgnSt) :
      (rs.foldl (fun v k => v.modRgn k r) (fs.foldl (fun v k => v.modFm k f) u)).blur 0x440 = u.blur 0x440 :=
    (foldl_blur 0x440 _ (fun v k => State.modRgn_blur 0x440 rfl v k r) rs _).trans
      (foldl_blur 0x440 _ (fun v k => State.modFm_blur 0x440 rfl v k f) fs u)
  exact same_of_blur (hubs _ _ _ _ _) .slots rfl

/-! ## The measurement (R63 step 8) -/

theorem State.reg_setMeasure {w : Nat} (h : w < 8) (n : Nat) (d : Bytes) :
    (s.setMeasure n d).reg (Reg.imgMeasure n w) = BitVec.ofNat 64 (leAt d (8 * w) 8) := by
  refine foldl_reaches (P := fun u : State => u.reg (Reg.imgMeasure n w) = BitVec.ofNat 64 (leAt d (8 * w) 8)) (List.mem_range.2 h)
    (fun u => State.reg_setReg ..) (fun u v hu => ?_) s
  by_cases same : v = w
  · rw [same, State.reg_setReg]
  · rwa [State.reg_setReg_other _ (by unfold Reg.imgMeasure; omega)]

theorem State.onlyRegs_setMeasure (n : Nat) (d : Bytes) : s.onlyRegs (s.setMeasure n d) ((List.range 8).map (Reg.imgMeasure n)) := by
  intro a ha
  refine List.foldlRecOn (motive := fun u : State => u.reg a = s.reg a) _ _ rfl fun u hu w hw => ?_
  rwa [State.reg_setReg_other _ fun e : a = Reg.imgMeasure n w => ha (e ▸ List.mem_map_of_mem hw)]

/-! ## The load commits (R63 step 8, R79) -/

/-- The module with every target of the load configured. -/
def State.allConfigured (s : State) : State := s.imgTargets.foldl State.configureTarget (s.deliver .loadConfigure)

/-- The image measured for a slot. -/
def State.measured (s : State) (n : Nat) : State :=
  (s.setMeasure n s.imgDigest).setReg (Reg.imgPartId n) (BitVec.ofNat 64 (s.imgN 0x18 8))

/-- The slot LOADED and measured, its barriers begun anew. -/
def State.loadedSlot (s : State) (n : Nat) : State :=
  ((s.measured n).modSlot n (fun x => { x with state := .loaded })).clearBarriers n

theorem loadConfigure_idle (h : s.ldr.commit = false) : exec .loadConfigure s = .next (s.deliver .loadConfigure) :=
  congrArg Host.Outcome.next (if_pos (by simpa using h))

theorem loadConfigure_commits (h : s.ldr.commit = true) :
    exec .loadConfigure s = .next (((s.allConfigured.loadedSlot s.imgSlot).setLdr .reset).setImgState 6) :=
  congrArg Host.Outcome.next (if_neg (by simpa using h))

theorem State.imgDigest_congr {s t : State} (h : t.tiers = s.tiers) : t.imgDigest = s.imgDigest :=
  show t.staging.imgDigest = s.staging.imgDigest by rw [State.staging_congr h]

theorem State.allConfigured_blur : s.allConfigured.blur 0x62 = s.blur 0x62 :=
  (foldl_blur 0x62 _ (fun u g => State.configureTarget_blur 0x62 rfl u g) _ _).trans (State.deliver_blur 0x62 rfl s _)

theorem State.measured_blur (n : Nat) : (s.measured n).blur 0x10 = s.blur 0x10 := by
  unfold State.measured
  rw [State.setReg_blur 0x10 rfl, State.setMeasure_blur 0x10 rfl]

theorem State.loadedSlot_same (n : Nat) {p : Part} (hp : Nat.testBit 0x4d0 p.index = false) : p.same s (s.loadedSlot n) := by
  refine same_of_blur ?_ p hp
  unfold State.loadedSlot State.measured
  rw [State.clearBarriers_blur 0x4d0 rfl, State.modSlot_blur 0x4d0 rfl, State.setReg_blur 0x4d0 rfl, State.setMeasure_blur 0x4d0 rfl]

theorem State.cell_congr {s t : State} (cells : t.cells = s.cells) (eras : t.eras = s.eras) (nap : t.nap = s.nap) (c : Nat) :
    t.cell c = s.cell c := by
  have fresh : t.freshCell c = s.freshCell c := by
    unfold State.freshCell
    rw [eras, nap]
  unfold State.cell
  rw [cells, fresh]

theorem State.cell_loadedSlot (n c : Nat) : (s.loadedSlot n).cell c = s.cell c :=
  State.cell_congr (s.loadedSlot_same n (p := .cells) rfl) (s.loadedSlot_same n (p := .eras) rfl)
    (s.loadedSlot_same n (p := .nap) rfl) c

theorem State.FmUp.loadedSlot {f : FmId} (h : s.FmUp f) (n : Nat) : (s.loadedSlot n).FmUp f := by
  have fms : (s.measured n).fms = s.fms := same_of_blur (s.measured_blur n) .fms rfl
  have up : (s.measured n).FmUp f := by rwa [State.FmUp, fms]
  generalize measured : s.measured n = u at up
  rw [State.loadedSlot, measured]
  exact State.FmUp.clearBarriers (s := u.modSlot n _) up n

theorem State.slots_loadedSlot (n : Nat) : (s.loadedSlot n).slots =
    s.slots.put n { s.slot n with state := .loaded, parts := none, root := .reset, summary := none } := by
  have slots : (s.measured n).slots = s.slots := same_of_blur (s.measured_blur n) .slots rfl
  have slot : (s.measured n).slot n = s.slot n := congrArg (fun l => l.get .reset n) slots
  rw [State.loadedSlot, State.slots_clearBarriers, State.modSlot, State.slot_setSlot, slot]
  generalize s.measured n = u at slots
  rw [← slots]
  exact Tbl.put_put ..

theorem State.regs_loadedSlot (n : Nat) : (s.loadedSlot n).regs = (s.measured n).regs := by
  refine same_of_blur (μ := 0x4c0) ?_ .regs rfl
  unfold State.loadedSlot
  rw [State.clearBarriers_blur 0x4c0 rfl, State.modSlot_blur 0x4c0 rfl]

theorem State.reg_measured {n w : Nat} (slot : n < 8) (h : w < 8) :
    (s.measured n).reg (Reg.imgMeasure n w) = BitVec.ofNat 64 (leAt s.imgDigest (8 * w) 8) :=
  (State.reg_setReg_other _ (by unfold Reg.imgMeasure Reg.imgPartId; omega) _).trans (State.reg_setMeasure h n _)

theorem State.onlyRegs_measured (n : Nat) : s.onlyRegs (s.measured n) (Reg.imgPartId n :: (List.range 8).map (Reg.imgMeasure n)) := by
  intro a ha
  obtain ⟨id, measure⟩ := not_or.1 (mt List.mem_cons.2 ha)
  exact (State.reg_setReg_other _ id _).trans (State.onlyRegs_setMeasure n _ a measure)

/-- A load that has committed. -/
structure State.Committed (s t : State) : Prop where
  state : t.imgState = 6
  status : t.regF Reg.imgStatus 63 4 = s.regF Reg.imgStatus 63 4
  ldr : t.ldr = .reset
  slots : t.slots = s.slots.put s.imgSlot { s.slot s.imgSlot with state := .loaded, parts := none, root := .reset, summary := none }
  cells : ∀ c, .cell c ∈ s.imgTargets → t.cell c = (s.cell c).configure
  fms : ∀ f, .foreman f ∈ s.imgTargets → (t.fm f).configured = true
  measure : ∀ w, w < 8 → t.reg (Reg.imgMeasure s.imgSlot w) = BitVec.ofNat 64 (leAt s.imgDigest (8 * w) 8)
  partId : t.reg (Reg.imgPartId s.imgSlot) = BitVec.ofNat 64 (s.imgN 0x18 8)
  regs : s.onlyRegs t (Reg.imgStatus :: Reg.imgPartId s.imgSlot :: (List.range 8).map (Reg.imgMeasure s.imgSlot))

section
variable {s t : State} (done : s.Committed t)
include done

theorem State.Committed.slot : t.slot s.imgSlot =
    { s.slot s.imgSlot with state := .loaded, parts := none, root := .reset, summary := none } := by
  rw [State.slot, done.slots, Tbl.get, Tbl.find_put]
  rfl

theorem State.Committed.onlySlot : s.onlySlot t s.imgSlot := fun n other => by
  rw [State.slot, done.slots, Tbl.get, Tbl.find_put_other other]
  rfl

theorem State.Committed.cell {c : Nat} (target : .cell c ∈ s.imgTargets) (free : (s.cell c).looper ≠ .snag) :
    (t.cell c).looper = .idle ∧ (t.cell c).configured = true ∧ (t.cell c).near = (s.cell c).near ∧
      (t.cell c).stepMem = (s.cell c).stepMem ∧ (t.cell c).execNo = 0 := by
  rw [done.cells c target, CellSt.configure, if_neg free]
  exact ⟨rfl, rfl, rfl, rfl, rfl⟩

end

theorem State.committed : s.Committed (((s.allConfigured.loadedSlot s.imgSlot).setLdr .reset).setImgState 6) := by
  have same {p : Part} (hp : Nat.testBit 0x62 p.index = false) : p.same s s.allConfigured := same_of_blur s.allConfigured_blur p hp
  have tiers : s.allConfigured.tiers = s.tiers := same (p := .tiers) rfl
  have slots : s.allConfigured.slots = s.slots := same (p := .slots) rfl
  have regs : s.allConfigured.regs = s.regs := same (p := .regs) rfl
  have cells : ∀ c, .cell c ∈ s.imgTargets → s.allConfigured.cell c = (s.cell c).configure := fun c hc =>
    (State.cell_configureTargets c s.imgTargets _).trans (if_pos hc)
  have fms : ∀ f, .foreman f ∈ s.imgTargets → s.allConfigured.FmUp f := fun f hf => State.fmUp_configureTargets hf _
  have low := s.imgSlot_lt
  generalize s.allConfigured = u at *
  have reg (a : Nat) : ((u.loadedSlot s.imgSlot).setLdr .reset).reg a = (u.measured s.imgSlot).reg a :=
    State.reg_congr (State.regs_loadedSlot _) a
  have kept : s.onlyRegs (u.measured s.imgSlot) (Reg.imgPartId s.imgSlot :: (List.range 8).map (Reg.imgMeasure s.imgSlot)) :=
    fun a ha => (State.onlyRegs_measured _ a ha).trans (State.reg_congr regs a)
  have measure (w : Nat) : Reg.imgMeasure s.imgSlot w ≠ Reg.imgStatus := by unfold Reg.imgMeasure Reg.imgStatus; omega
  have partId : Reg.imgPartId s.imgSlot ≠ Reg.imgStatus := by unfold Reg.imgPartId Reg.imgStatus; omega
  constructor
  case state => exact State.imgState_setImgState _ (by decide)
  case status =>
    refine (State.regF_setImgState_high _ 6 63 (by omega)).trans (State.regF_reg ((reg _).trans (kept _ ?_)) 63 4)
    simp [partId.symm, fun w => measure w]
  case ldr => rw [State.setImgState, State.setRegF_ldr, State.setLdr_ldr]
  case slots =>
    have slot : u.slot s.imgSlot = s.slot s.imgSlot := congrArg (fun l => l.get .reset s.imgSlot) slots
    rw [State.setImgState, State.setRegF_slots, State.setLdr_slots, State.slots_loadedSlot, slots, slot]
  case cells =>
    intro c hc
    rw [State.setImgState, State.setRegF_cell, State.setLdr_cell, State.cell_loadedSlot]
    exact cells c hc
  case fms =>
    intro f hf
    rw [State.setImgState, State.setRegF_fm, State.setLdr_fm]
    exact ((fms f hf).loadedSlot _).configured
  case measure =>
    intro w hw
    rw [State.reg_setImgState _ (measure w), reg, State.reg_measured low hw, State.imgDigest_congr tiers]
  case partId =>
    rw [State.reg_setImgState _ partId, reg, State.measured, State.reg_setReg, State.imgN_congr tiers]
  case regs =>
    intro a ha
    obtain ⟨status, others⟩ := not_or.1 (mt List.mem_cons.2 ha)
    rw [State.reg_setImgState _ status, reg, kept a others]

end

end Sys2Proof.Machine

namespace Sys2Proof.Machine

open Sys2Proof

/-! ## What the statement says of a suspect, of a failure and of a check -/

theorem blockCell_lt {f : FmId} (h : wfFm f = true) : blockCell f < 2 ^ 18 := by
  simp only [wfFm, Bool.and_eq_true, decide_eq_true_eq] at h
  unfold blockCell cellAt regionRow regionCol
  omega

/-- A suspect's block loaded again on other silicon (R65, R79). -/
structure State.Reloaded (s t : State) (c : Nat) : Prop where
  state : t.imgState = 5
  round : t.regF Reg.imgStatus 9 8 = 0
  ldr : t.ldr = { s.ldr with suspects := [], rounds := ⟨[fmOf c], 0, false, [], []⟩ }
  count : t.regF Reg.imgRepair 55 48 = min (s.regF Reg.imgRepair 55 48 + 1) 255
  spare : t.spareOf (regionOf c) (blockRowOf c) = colOf c % 8
  configured : (t.cell c).configured = false
  load : (t.cell c).load = LoadSt.opening s.imgChunks s.imgDirs
  notice : Instr.faultNotice ⟨0x2002, s.slotOfCell c, c, 0, s.posOfCell c⟩ ∈ t.inFlight

theorem State.reloaded (s : State) (c : Nat) : s.Reloaded (((s.suspected c).respared c).reloading (fmOf c)) c := by
  have tiers : (s.suspected c).tiers = s.tiers := s.suspected_same c (p := .tiers) rfl
  have ldr : ((s.suspected c).respared c).ldr = s.ldr := State.ldr_respared.trans (s.suspected_same c (p := .ldr) rfl)
  have load : (((s.suspected c).respared c).cell c).load = LoadSt.opening s.imgChunks s.imgDirs := by
    rw [State.load_respared, State.imgChunks, State.imgDirs, State.imgN_congr tiers]
    rfl
  have damaged : (s.suspected c).Damaged ((s.suspected c).respared c) := State.damaged_respared
  have spare : ((s.suspected c).respared c).spareOf (regionOf c) (blockRowOf c) = colOf c % 8 := State.spareOf_respared
  have configured : (((s.suspected c).respared c).cell c).configured = false := State.configured_respared
  have count : (s.suspected c).regF Reg.imgRepair 55 48 = _ := State.regF_suspected
  have notice : _ ∈ (s.suspected c).inFlight := State.notice_suspected
  generalize (s.suspected c).respared c = u at *
  have same {p : Part} (hp : Nat.testBit 0x2000010 p.index = false) : p.same u (u.reloading (fmOf c)) :=
    same_of_blur State.reloading_blur p hp
  have cell : (u.reloading (fmOf c)).cell c = u.cell c :=
    State.cell_congr (same (p := .cells) rfl) (same (p := .eras) rfl) (same (p := .nap) rfl) c
  have spares : (u.reloading (fmOf c)).spares = u.spares := same (p := .spares) rfl
  have inFlight : (u.reloading (fmOf c)).inFlight = u.inFlight := same (p := .inFlight) rfl
  constructor
  case state => exact State.imgState_reloading
  case round => exact State.regF_reloading
  case ldr => rw [State.ldr_reloading, ldr]
  case count =>
    have reg : (u.reloading (fmOf c)).reg Reg.imgRepair = (s.suspected c).reg Reg.imgRepair :=
      (State.reg_reloading (by decide)).trans (damaged.regs _ (by decide))
    exact (State.regF_reg reg 55 48).trans count
  case spare => rwa [State.spareOf, spares]
  case configured => rwa [cell]
  case load => rwa [cell]
  case notice =>
    rw [inFlight]
    exact damaged.sent _ notice

/-- A load that has failed with a code at a cell (R59, R79). -/
structure State.FailedAt (t : State) (code cell : Nat) : Prop where
  state : t.imgState = 7
  ldr : t.ldr = .reset
  error : t.reg Reg.imgError = BitVec.ofNat 64 (2 ^ 48 * 0xFFFF + 2 ^ 30 * cell + code)

theorem State.failedAt (s : State) {code cell : Nat} (small : code < 2 ^ 8) (low : cell < 2 ^ 18) :
    (s.failLoad { code := code, cell := cell }).FailedAt code cell where
  state := State.imgState_failLoad ..
  ldr := State.ldr_failLoad ..
  error := by
    rw [State.reg_failLoad_error]
    dsimp only
    exact congrArg (BitVec.ofNat 64) (by omega)

section
variable {s : State}

/-- A check that finds blocks lacking chunks, with their lists on the way (R64). -/
theorem State.loadCheck_opens (live : s.loadRounds = true) (lacks : ∃ f ∈ s.ldr.rounds.blocks, s.blockLacks f = true) :
    let t := s.loadCheck
    t.ldr.rounds.window = true ∧ (∀ f, f ∈ t.ldr.rounds.missing ↔ f ∈ s.ldr.rounds.blocks ∧ s.blockLacks f = true) ∧
      t.ldr = { s.ldr with rounds := { s.ldr.rounds with window := true, missing := t.ldr.rounds.missing, reports := [] } } ∧
      (∀ f ∈ t.ldr.rounds.missing, s.takes (.foreman f) = true → s.missMsg f ∈ t.inFlight) ∧
      t = { s with ldr := t.ldr, inFlight := t.inFlight } := by
  have nonempty : (s.ldr.rounds.blocks.filter s.blockLacks).isEmpty = false := by simpa using lacks
  intro t
  have form : t = (s.modLdr (fun l =>
      { l with rounds := { l.rounds with window := true, missing := s.ldr.rounds.blocks.filter s.blockLacks, reports := [] } })).sendAll
    (((s.ldr.rounds.blocks.filter s.blockLacks).filter (fun f => s.takes (.foreman f))).map s.missMsg) := by
    refine (State.loadCheck_lacks live lacks).trans ?_
    simp only [RoundSt.checked, nonempty, Bool.not_false]
  rw [form]
  exact ⟨rfl, fun f => List.mem_filter, rfl,
    fun f missing takes => List.mem_append_right _ (List.mem_map_of_mem (List.mem_filter.2 ⟨missing, takes⟩)), rfl⟩

/-- The end of the report window (R64, R79). -/
theorem State.loadWindowEnd_closes (live : s.loadRounds = true) (opened : s.ldr.rounds.window = true) (first : 1 ≤ s.ldr.rounds.round)
    (last : s.ldr.rounds.round ≤ 3) :
    let t := s.loadWindowEnd
    let lo := 16 * (s.ldr.rounds.round - 1)
    let resent := (s.ldr.rounds.missing.map (fun f => s.resendCount f s.ldr.rounds.reports)).sum
    t.ldr = { s.ldr with rounds := { s.ldr.rounds with window := false, missing := [], reports := [] } } ∧
      (s.imgState = 5 → t.regs = s.regs) ∧
      (s.imgState = 4 → t.regF Reg.imgRepair (lo + 15) lo = min (s.regF Reg.imgRepair (lo + 15) lo + resent) 65535 ∧
        s.onlyRegs t [Reg.imgRepair]) ∧
      t = { s with ldr := t.ldr, regs := t.regs } := by
  intro t lo resent
  have form : t = (if s.imgState = 4 then s.satReg Reg.imgRepair (lo + 15) lo resent else s).modLdr
    (fun l => { l with rounds := { s.ldr.rounds with window := false, missing := [], reports := [] } }) :=
    State.loadWindowEnd_counts live opened
  by_cases reloads : s.imgState = 4
  · rw [if_pos reloads] at form
    rw [form]
    refine ⟨rfl, fun h => by omega, fun _ => ⟨?_, fun a ha => State.reg_satReg_other s (by simpa using ha) _ _ _⟩, rfl⟩
    have count := State.regF_satReg s Reg.imgRepair (hi := lo + 15) (lo := lo) (by omega) (by omega) resent
    rw [show lo + 15 + 1 - lo = 16 by omega] at count
    exact count
  · rw [if_neg reloads] at form
    rw [form]
    exact ⟨rfl, fun _ => rfl, fun h => absurd h reloads, rfl⟩

end

end Sys2Proof.Machine

namespace Sys2Proof.Machine

open Sys2Proof

/-! ## O49 -/

section
variable {s : State} (sound : ∀ n, n < 8 → (s.job n).repair = none)
include sound

/-- The rounds end with the third round, and with a check after which no block lacks a chunk (R64, R65). -/
theorem exec_endsRounds {m : Instr} (live : s.loadRounds = true)
    (ends : (m = .repairRound ∧ s.ldr.rounds.window = false ∧ Instr.loadCheck ∉ s.inFlight ∧ 3 ≤ s.ldr.rounds.round) ∨
      (m = .loadCheck ∧ ∀ f ∈ s.ldr.rounds.blocks, s.blockLacks f = false)) :
    ∃ l, exec m s = .next (State.endRounds { s with inFlight := l }) := by
  rcases ends with ⟨rfl, closed, no, spent⟩ | ⟨rfl, whole⟩
  · refine ⟨s.inFlight, ?_⟩
    rw [exec_repairRound sound, State.loadRound_ends live closed no spent]
  · refine ⟨s.inFlight.erase .loadCheck, ?_⟩
    rw [exec_loadCheck sound, State.loadCheck_whole (s := s.deliver .loadCheck) live whole]
    rfl

end

/-- Settles O49: the loader's part of each command is what the rounds' rule for that case gives, since no slot is in repair; the end
of the rounds turns on the incomplete targets of the blocks at hand. -/
theorem repairRounds : Obligations.RepairRounds := by
  unfold Obligations.RepairRounds
  intro s sound e r live bad failed waiting checking
  have rounds : s.loadRounds = true ↔ live := State.loadRounds_iff
  have idle (h : ¬ live) : s.loadRounds = false := State.loadRounds_of_not h
  have fails {m : Instr} {u : State} {code cell : Nat} (runs : exec m s = .next u) (at' : u.FailedAt code cell) : failed m code cell :=
    ⟨u, runs, at'.state, at'.ldr, at'.error⟩
  refine ⟨loadBroadcastDone_idle, fun casts whole => ?broadcast, fun k casts changed => ?changed, fun still => ?stays,
    fun on closed no more => ?begins, fun off => ?off, fun on lacks => ?lacks, fun m on ends => ?ends, fun f lists => ?report, fun still => ?shut, fun on opened first last => ?counted, loadConfigure_idle,
    fun commits => ?commits⟩
  case broadcast =>
    exact ⟨_, loadBroadcastDone_checks casts whole, State.imgState_broadcast, State.regF_broadcast_status, State.regF_broadcast_sent,
      State.regF_broadcast_rest, State.onlyRegs_broadcast, State.ldr_broadcast, State.loaderOnly_broadcast⟩
  case changed =>
    refine ⟨_, loadBroadcastDone_changed casts changed, State.imgState_failLoad .., State.ldr_failLoad .., ?_⟩
    exact State.reg_failLoad_error ..
  case stays =>
    rw [exec_repairRound sound, State.loadRound_idle (still.imp_left idle)]
  case begins =>
    rw [exec_repairRound sound, State.loadRound_begins (rounds.2 on) closed no more]
    exact ⟨_, rfl, State.ldr_nextRound, State.regF_nextRound more, State.regF_nextRound_other (by omega),
      State.regF_nextRound_other (by omega), State.onlyRegs_nextRound, State.nextRound_same⟩
  case off =>
    rw [exec_loadCheck sound, State.loadCheck_idle (s := s.deliver .loadCheck) (idle off)]
    rfl
  case lacks =>
    rw [exec_loadCheck sound]
    obtain ⟨window, missing, ldr, sent, same⟩ := State.loadCheck_opens (s := s.deliver .loadCheck) (rounds.2 on) lacks
    exact ⟨_, rfl, window, missing, ldr, sent, same⟩
  case ends =>
    obtain ⟨l, runs⟩ := exec_endsRounds sound (rounds.2 on) ends
    refine ⟨fun none => ?_, fun f block fm worn => ?_, fun c only low last => ?_, fun c only block cell first spare => ?_⟩
    · rw [State.endRounds_sound (s := { s with inFlight := l }) none] at runs
      exact ⟨_, runs, rfl, List.mem_append_right _ List.mem_cons_self, rfl⟩
    · rw [State.endRounds_foreman (s := { s with inFlight := l }) block worn] at runs
      exact fails runs (State.failedAt _ (by decide) (blockCell_lt fm))
    · by_cases again : s.imgState = 5
      · rw [State.endRounds_again (s := { s with inFlight := l }) only again] at runs
        exact fails runs (State.failedAt _ (by decide) low)
      · rw [State.endRounds_spent (s := { s with inFlight := l }) only again (last.resolve_left again)] at runs
        exact fails runs (State.failedAt _ (by decide) low)
    · rw [State.endRounds_spare (s := { s with inFlight := l }) only block (fun again => by cases first.symm.trans again) spare] at runs
      have done := State.reloaded { s with inFlight := l } c
      exact ⟨_, runs, done.state, done.round, done.ldr, done.count, done.spare, done.configured, done.load, _, done.notice⟩
  case report =>
    refine ⟨_, exec_miss f lists, fun n hn => State.job_reported f lists (sound n hn), fun awaited => ?_, fun other => ?_, rfl⟩
    · exact congrArg (fun r => { s.ldr with rounds := r }) (RoundSt.told_awaited f lists awaited)
    · exact congrArg (fun r => { s.ldr with rounds := r }) (RoundSt.told_other f lists other)
  case shut =>
    rw [exec_missReportWindowEnd sound, State.loadWindowEnd_idle (still.imp_left idle)]
  case counted =>
    rw [exec_missReportWindowEnd sound]
    exact ⟨_, rfl, State.loadWindowEnd_closes (rounds.2 on) opened first last⟩
  case commits =>
    have done := s.committed
    refine ⟨_, loadConfigure_commits commits, done.state, done.status, done.ldr, ?_, ?_, done.onlySlot,
      fun c target free => done.cell target free, done.fms, done.measure, done.partId, done.regs⟩
    · rw [done.slot]
    · rw [done.slot]

end Sys2Proof.Machine

namespace Sys2Proof.Machine

open Sys2Proof

/-! # Foreman programs: arithmetic, flow, reads and the block's loopers. -/

/-! ## The fields of an instruction (R127) -/

theorem FmIns.op_extract (w : FmIns) : w.op = (w.extractLsb' 56 8).toNat := bits_extract 63 56 w
theorem FmIns.d_extract (w : FmIns) : w.d = (w.extractLsb' 51 5).toNat := bits_extract 55 51 w
theorem FmIns.a_extract (w : FmIns) : w.a = (w.extractLsb' 46 5).toNat := bits_extract 50 46 w
theorem FmIns.b_extract (w : FmIns) : w.b = (w.extractLsb' 41 5).toNat := bits_extract 45 41 w
theorem FmIns.imm_extract (w : FmIns) : w.imm = (w.extractLsb' 0 32).toNat := bits_extract 31 0 w

theorem FmIns.imm_low (w : FmIns) : w.imm % 64 = ((w.extractLsb' 0 32).extractLsb' 0 6).toNat := by
  rw [w.imm_extract, BitVec.extractLsb'_toNat (x := w.extractLsb' 0 32)]
  rfl

theorem signed_toNat {n : Nat} (h : 0 < n) (x : BitVec n) : signed n x.toNat = x.toInt := by
  have double : 2 * 2 ^ (n - 1) = 2 ^ n := by rw [← Nat.pow_succ']; congr 1; omega
  unfold signed
  rw [BitVec.toInt_eq_toNat_cond, Nat.mod_eq_of_lt x.isLt]
  by_cases low : x.toNat < 2 ^ (n - 1)
  · rw [if_pos low, if_pos (by omega)]
  · rw [if_neg low, if_neg (by omega)]
    push_cast
    rfl

theorem FmIns.simm_signExtend (w : FmIns) : w.simm = (w.extractLsb' 0 32).signExtend 64 := by
  unfold FmIns.simm
  rw [FmIns.imm_extract, signed_toNat (by omega)]
  rfl

/-- The high half of a register replaced, the low half kept. -/
theorem setBits_high (x : BitVec 32) (old : Word) : setBits 63 32 x.toNat old = x ++ old.extractLsb' 0 32 := by
  have := x.isLt
  have := old.isLt
  apply BitVec.eq_of_toNat_eq
  rw [toNat_setBits (by omega) (by omega), BitVec.toNat_append, BitVec.extractLsb'_toNat,
    ← Nat.shiftLeft_add_eq_or_of_lt (Nat.mod_lt _ (Nat.two_pow_pos 32)), Nat.shiftLeft_eq, Nat.shiftRight_zero]
  omega

/-! ## What an instruction that is ready leaves -/

section
variable {s : State} {f : FmId} {w : FmIns} (hf : wfFm f = true) (ready : s.fmReady f w) {op : Nat} (is : (w.extractLsb' 56 8).toNat = op)
  {act : State → FmSt → FmIns → State}
include ready is

theorem State.fmnStep_acts : s.fmnStep f op act = act (s.setFm f (s.fm f).fetched) (s.fm f).fetched w :=
  State.fmnStep_ready ready (w.op_extract.trans is) act

include hf

/-- An instruction that puts one value into s[d] and goes on. -/
theorem State.fmnStep_writes {value : Word} (writes : act (s.setFm f (s.fm f).fetched) (s.fm f).fetched w =
      (s.setFm f (s.fm f).fetched).setFm f (((s.fm f).fetched.setS w.d value).nextPc)) :
    ∃ t, Host.Outcome.next (s.fmnStep f op act) = (.next t : Host.Outcome State Fault Refusal) ∧
      s.fmWrote t f (w.extractLsb' 51 5).toNat value := by
  refine ⟨_, rfl, ?_⟩
  have reg := State.fmnReg_ready hf ready rfl (fun _ _ _ => value)
  unfold State.fmnReg at reg
  rwa [State.fmnStep_ready ready rfl, ← writes, ← State.fmnStep_acts (act := act) ready is, FmIns.d_extract] at reg

/-- An instruction that writes no register and leaves the program at `pc` in state `p`. -/
theorem State.fmnStep_goes {pc : Nat} {p : ProgSt} (goes : act (s.setFm f (s.fm f).fetched) (s.fm f).fetched w =
      (s.setFm f (s.fm f).fetched).setFm f { (s.fm f).fetched with pc := pc, prog := p }) :
    ∃ t, Host.Outcome.next (s.fmnStep f op act) = (.next t : Host.Outcome State Fault Refusal) ∧ s.fmWent t f pc p := by
  refine ⟨_, rfl, ?_⟩
  rw [State.fmnStep_acts ready is, goes]
  exact State.fmnWent_ready hf pc p

theorem State.fmnReg_writes {v : State → FmSt → FmIns → Word} {value : Word}
    (computes : v (s.setFm f (s.fm f).fetched) (s.fm f).fetched w = value) :
    ∃ t, Host.Outcome.next (s.fmnReg f op v) = (.next t : Host.Outcome State Fault Refusal) ∧
      s.fmWrote t f (w.extractLsb' 51 5).toNat value :=
  State.fmnStep_writes hf ready is (by rw [computes])

end

/-- Settles O1: each operation is one register write, so what is left is the value, read at the fields of the word. -/
theorem foremanArithmetic : Obligations.ForemanArithmetic := by
  unfold Obligations.ForemanArithmetic
  intro s f w hf ready
  have low (x : Word) : x.setWidth 32 = x.extractLsb' 0 32 := BitVec.setWidth_eq_extractLsb' (by omega)
  dsimp only
  refine ⟨fun is => State.fmnReg_writes hf ready is w.simm_signExtend, fun is => State.fmnReg_writes hf ready is ?ldhi,
    fun is => State.fmnReg_writes hf ready is ?add, fun is => State.fmnReg_writes hf ready is ?sub,
    fun is => State.fmnReg_writes hf ready is ?addi, fun is => State.fmnReg_writes hf ready is ?and,
    fun is => State.fmnReg_writes hf ready is ?or, fun is => State.fmnReg_writes hf ready is ?xor,
    fun is => State.fmnReg_writes hf ready is ?shl, fun is => State.fmnReg_writes hf ready is ?shr,
    fun is => State.fmnReg_writes hf ready is ?lt, fun is => State.fmnReg_writes hf ready is ?eq,
    fun is => State.fmnReg_writes hf ready is ?fadd, fun is => State.fmnReg_writes hf ready is ?fmul⟩ <;>
    simp only [FmSt.fetched_s, FmIns.a_extract, FmIns.b_extract, FmIns.d_extract, FmIns.simm_signExtend, FmIns.imm_low]
  case ldhi => rw [FmIns.imm_extract, setBits_high]
  case lt => simp only [BitVec.slt_iff_toInt_lt]
  case fadd => rw [low, low]
  case fmul => rw [low, low]

/-- Settles O2: where the program goes on; a branch looks at s[a]. -/
theorem foremanFlow : Obligations.ForemanFlow := by
  unfold Obligations.ForemanFlow
  intro s f w hf ready
  dsimp only
  refine ⟨fun is => State.fmnStep_goes hf ready is ?nop, fun is => State.fmnStep_goes hf ready is ?jmp,
    fun is => State.fmnStep_goes hf ready is ?bz, fun is => State.fmnStep_goes hf ready is ?bnz,
    fun is => State.fmnStep_goes hf ready is ?halt⟩ <;>
    simp only [FmSt.nextPc, FmSt.fetched_s, FmIns.a_extract, FmIns.imm_extract, FmSt.fetched_pc]
  case bz => split <;> rfl
  case bnz => split <;> rfl

/-! ## Curves (R444) -/

section
variable {p : Nat → Nat × BitVec 32}

/-- Steps `a` and on ascend: each is below the next, or both are unused. -/
theorem ascending_range' {a n : Nat}
    (rises : ∀ k, a ≤ k → k + 1 < a + n → (p k).1 < (p (k + 1)).1 ∨ ((p k).1 = 0xFFFF_FFFF ∧ (p (k + 1)).1 = 0xFFFF_FFFF)) :
    ascending ((List.range' a n).map p) = true := by
  induction n generalizing a with
  | zero => rfl
  | succ n ih =>
    cases n with
    | zero => rfl
    | succ n =>
      have rest := ih (a := a + 1) (fun k low high => rises k (by omega) (by omega))
      simp only [List.range'_succ, List.map_cons] at rest ⊢
      simpa [ascending, rest] using rises a (by omega) (by omega)

/-- Points that are used and not above the step are passed. -/
theorem curveAt_pass {now a m n : Nat} (passed : ∀ j, a < j → j ≤ a + m → (p j).1 ≠ 0xFFFF_FFFF ∧ (p j).1 ≤ now) :
    curveAt now (p a) ((List.range' (a + 1) (m + n)).map p) = curveAt now (p (a + m)) ((List.range' (a + m + 1) n).map p) := by
  induction m generalizing a with
  | zero => simp
  | succ m ih =>
    obtain ⟨used, low⟩ := passed (a + 1) (by omega) (by omega)
    have rest := ih (a := a + 1) (fun j low high => passed j (by omega) (by omega))
    rw [show m + 1 + n = m + n + 1 by omega, List.range'_succ, List.map_cons, curveAt, if_neg used, if_neg (by omega), rest,
      show a + 1 + m = a + (m + 1) by omega]

/-- Every point up to a used one is used, and not above it. -/
theorem used_below {k : Nat} (used : (p k).1 ≠ 0xFFFF_FFFF) (bound : ∀ j, (p j).1 ≤ 0xFFFF_FFFF)
    (rises : ∀ j, j < k → (p j).1 < (p (j + 1)).1 ∨ ((p j).1 = 0xFFFF_FFFF ∧ (p (j + 1)).1 = 0xFFFF_FFFF)) :
    ∀ j, j ≤ k → (p j).1 ≠ 0xFFFF_FFFF ∧ (p j).1 ≤ (p k).1 := by
  induction k with
  | zero =>
    intro j hj
    rw [Nat.le_zero.1 hj]
    exact ⟨used, le_rfl⟩
  | succ k ih =>
    have below : (p k).1 < (p (k + 1)).1 := (rises k (by omega)).resolve_right fun unused => used unused.2
    intro j hj
    by_cases last : j = k + 1
    · subst last; exact ⟨used, le_rfl⟩
    · have := bound (k + 1)
      obtain ⟨usedJ, lowJ⟩ := ih (by omega) (fun j hj => rises j (by omega)) j (by omega)
      exact ⟨usedJ, by omega⟩

end

/-- Point `k` of group `g`. -/
def curvePoint (m : Mem) (g k : Nat) : Nat × BitVec 32 :=
  (ofLE (m.read (g * 512 + 8 * k) 4), BitVec.ofNat 32 (ofLE (m.read (g * 512 + 8 * k + 4) 4)))

theorem curvePoints_eq (m : Mem) (g : Nat) : curvePoints m g = (List.range' 0 64).map (curvePoint m g) := by
  rw [← List.range_eq_range']
  rfl

theorem curvePoint_le (m : Mem) (g k : Nat) : (curvePoint m g k).1 ≤ 0xFFFF_FFFF := by
  have := ofLE_lt (m.read (g * 512 + 8 * k) 4)
  rw [show (m.read (g * 512 + 8 * k) 4).length = 4 by simp [Mem.read]] at this
  exact Nat.le_of_lt_succ this

theorem curveFactor_before {m : Mem} {g now : Nat} (h : now < (curvePoint m g 0).1) :
    curveFactor (curvePoints m g) now = (curvePoint m g 0).2 := by
  rw [curvePoints_eq]
  exact if_pos h

/-- The steps of a group's points ascend, the unused ones last. -/
def curveRises (m : Mem) (g : Nat) : Prop := ∀ k, k < 63 → (curvePoint m g k).1 < (curvePoint m g (k + 1)).1 ∨
  ((curvePoint m g k).1 = 0xFFFF_FFFF ∧ (curvePoint m g (k + 1)).1 = 0xFFFF_FFFF)

theorem ascending_curvePoints {m : Mem} {g : Nat} (rises : curveRises m g) : ascending (curvePoints m g) = true := by
  rw [curvePoints_eq]
  exact ascending_range' (fun k _ high => rises k (by omega))

/-- The curve at a step from point `k` on, before the points above it. -/
theorem curveFactor_from {m : Mem} {g now k : Nat} (hk : k < 64) (used : (curvePoint m g k).1 ≠ 0xFFFF_FFFF) (low : (curvePoint m g k).1 ≤ now)
    (rises : curveRises m g) :
    curveFactor (curvePoints m g) now = curveAt now (curvePoint m g k) ((List.range' (k + 1) (63 - k)).map (curvePoint m g)) := by
  have below := used_below used (curvePoint_le m g) (fun j hj => rises j (by omega))
  have first := (below 0 (by omega)).2
  have pass := curveAt_pass (p := curvePoint m g) (now := now) (a := 0) (m := k) (n := 63 - k) (fun j _ hj => by
    obtain ⟨usedJ, lowJ⟩ := below j (by omega)
    exact ⟨usedJ, by omega⟩)
  rw [show k + (63 - k) = 63 by omega, Nat.zero_add, Nat.zero_add] at pass
  rw [curvePoints_eq, ← pass]
  exact if_neg (by omega)

/-- The last used point's factor holds from it on. -/
theorem curveFactor_last {m : Mem} {g now k : Nat} (hk : k < 64) (used : (curvePoint m g k).1 ≠ 0xFFFF_FFFF) (low : (curvePoint m g k).1 ≤ now)
    (rises : curveRises m g) (last : k < 63 → (curvePoint m g (k + 1)).1 = 0xFFFF_FFFF) :
    curveFactor (curvePoints m g) now = (curvePoint m g k).2 := by
  rw [curveFactor_from hk used low rises]
  by_cases end_ : k = 63
  · subst end_
    rfl
  · rw [show 63 - k = 62 - k + 1 by omega, List.range'_succ, List.map_cons, curveAt, if_pos (last (by omega))]

/-- Between two used points the factor is interpolated. -/
theorem curveFactor_between {m : Mem} {g now k : Nat} (hk : k < 63) (used : (curvePoint m g (k + 1)).1 ≠ 0xFFFF_FFFF)
    (low : (curvePoint m g k).1 ≤ now) (high : now < (curvePoint m g (k + 1)).1) (rises : curveRises m g) :
    curveFactor (curvePoints m g) now =
      fadd32 (curvePoint m g k).2 (fmul32 (fsub32 (curvePoint m g (k + 1)).2 (curvePoint m g k).2)
        (fdiv32 (ofNat32 (now - (curvePoint m g k).1)) (ofNat32 ((curvePoint m g (k + 1)).1 - (curvePoint m g k).1)))) := by
  have bound := curvePoint_le m g (k + 1)
  rw [curveFactor_from (by omega) (by omega) low rises, show 63 - k = 62 - k + 1 by omega, List.range'_succ, List.map_cons, curveAt,
    if_neg used, if_pos high]

/-- Settles O3: RDSTEP and RDCURVE are one register write; CURVE walks the points up to the last one that is not above P + 1. -/
theorem foremanReads : Obligations.ForemanReads := by
  unfold Obligations.ForemanReads
  intro s f w hf ready
  have now {n : Nat} (slot : s.slotOfRegion f.region = some n) : (s.setFm f (s.fm f).fetched).stepNow f.region = s.stepP n + 1 := by
    unfold State.stepNow
    rw [State.setFm_slotOfRegion, slot]
    rfl
  refine ⟨fun n is slot => State.fmnReg_writes hf ready is (congrArg _ (now slot)),
    fun is sound => State.fmnStep_writes hf ready is ?rdcurve, fun n is sound slot rises _ => ?curve⟩
  case rdcurve => rw [if_neg (by simp [sound]), FmSt.fetched_fcurve, FmIns.imm_extract]
  case curve =>
    obtain ⟨t, runs, wrote⟩ : ∃ t, exec (.fmnCurve f) s = .next t ∧ s.fmWrote t f _ _ := State.fmnStep_writes hf ready is (by
      dsimp only
      rw [if_neg (by simp [sound]), FmSt.fetched_fcurve, FmIns.imm_extract, if_neg (by rw [ascending_curvePoints rises]; decide), now slot])
    have ⟨value, _⟩ := wrote
    refine ⟨t, runs, by rwa [value], fun before => ?_, fun k hk used last low => ?_, fun k hk used low high => ?_⟩ <;> rw [value]
    · exact congrArg _ (curveFactor_before before)
    · exact congrArg _ (curveFactor_last hk used low rises last)
    · exact congrArg _ (curveFactor_between hk used low high rises)

/-! ## The loopers of a block (R127, R128) -/

/-- A mask made of the bits of a list of cells, over what it held. -/
theorem getLsbD_doneMask (cs : List Nat) (m : BitVec 64) {k : Nat} (hk : k < 64) :
    (cs.foldl (fun m c => m ||| BitVec.ofNat 64 (2 ^ posOf c)) m).getLsbD k = (m.getLsbD k || cs.any (fun c => posOf c == k)) := by
  induction cs generalizing m with
  | nil => simp
  | cons c cs ih => rw [List.foldl_cons, ih, done_or_bit _ _ hk, List.any_cons, Bool.or_assoc, Bool.beq_comm]

/-- A legal instruction's immediate is at most what its operation takes (R127, R129). -/
theorem FmIns.imm_le {w : FmIns} (legal : w.legal = true) {op m : Nat} {d a b : Bool} (is : (w.extractLsb' 56 8).toNat = op)
    (fields : fmnFields op = some (d, a, b, m)) : w.imm ≤ m := by
  unfold FmIns.legal at legal
  rw [w.op_extract, is, fields] at legal
  simp only [Bool.and_eq_true, decide_eq_true_eq] at legal
  obtain ⟨-, le⟩ := legal
  exact le

theorem FmIns.imm_extractLow (w : FmIns) {k : Nat} (small : w.imm < 2 ^ k) :
    ((w.extractLsb' 0 32).extractLsb' 0 k).toNat = w.imm := by
  rw [w.imm_extract] at small ⊢
  rw [BitVec.extractLsb'_toNat (x := w.extractLsb' 0 32), Nat.shiftRight_zero, Nat.mod_eq_of_lt small]

/-- Bit 0 of an immediate of one bit. -/
theorem FmIns.imm_bit {w : FmIns} (small : w.imm ≤ 1) : decide (w.imm = 1) = (w.extractLsb' 0 32).getLsbD 0 := by
  rw [w.imm_extract] at small ⊢
  rw [BitVec.getLsbD, Nat.testBit_zero]
  exact decide_eq_decide.2 (by omega)

/-- The foreman's queue with the oldest event gone: a held release enters in its place. -/
theorem State.takeEvent_free {s : State} {f : FmId} {e : Word} {l : List Word} (events : (s.fm f).events = e :: l)
    (signals : (s.fm f).signals = []) :
    s.takeEvent f = some (e, s.setFm f { s.fm f with events := l ++ (s.fm f).heldRelease.toList, heldRelease := none }) := by
  unfold State.takeEvent
  simp only [events, signals]
  cases held : (s.fm f).heldRelease with
  | none => simp [← signals]
  | some h => rfl

theorem FmSt.nextPc_fetched (x : FmSt) : x.fetched.nextPc = { x.fetched with pc := x.pc + 1, prog := .running } := by
  rw [FmSt.nextPc, FmSt.fetched_pc]

theorem FmSt.stays_fetched (x : FmSt) (p : ProgSt) : { x.fetched with prog := p } = { x.fetched with pc := x.pc, prog := p } := by
  rw [← x.fetched_pc]

/-- An instruction that sends messages, writes no register and goes on. -/
theorem State.fmnStep_sends {s : State} {f : FmId} {w : FmIns} (hf : wfFm f = true) (ready : s.fmReady f w) {op : Nat}
    (is : (w.extractLsb' 56 8).toNat = op) {act : State → FmSt → FmIns → State} {ms : List Instr}
    (sends : act (s.setFm f (s.fm f).fetched) (s.fm f).fetched w =
      ((s.setFm f (s.fm f).fetched).setFm f (s.fm f).fetched.nextPc).sendAll ms) :
    ∃ t, Host.Outcome.next (s.fmnStep f op act) = (.next t : Host.Outcome State Fault Refusal) ∧
      s.fmWent t f ((s.fm f).pc + 1) .running ∧ t.inFlight = s.inFlight ++ ms := by
  refine ⟨_, rfl, ?_⟩
  rw [State.fmnStep_acts ready is, sends, FmSt.nextPc_fetched]
  obtain ⟨fm, only⟩ := State.fmnWent_ready (s := s) hf ((s.fm f).pc + 1) .running
  exact ⟨⟨fm, only⟩, rfl⟩

theorem State.takeEvent_none {s : State} {f : FmId} (events : (s.fm f).events = []) : s.takeEvent f = none := by
  unfold State.takeEvent
  simp only [events]

/-- The foreman once its oldest event `e` is in s[d]: `l` and then a held release wait behind it. -/
def FmSt.tookEvent (x : FmSt) (d : Nat) (e : Word) (l : List Word) : FmSt :=
  (({ x with events := l ++ x.heldRelease.toList, heldRelease := none } : FmSt).setS d e).nextPc

theorem execFmnWaitev_event {s : State} {f : FmId} {w : FmIns} (ready : s.fmReady f w) (is : (w.extractLsb' 56 8).toNat = 0x23)
    {e : Word} {l : List Word} (events : (s.fm f).events = e :: l) (signals : (s.fm f).signals = []) :
    exec (.fmnWaitev f) s = .next (s.setFm f ((s.fm f).fetched.tookEvent (w.extractLsb' 51 5).toNat e l)) := by
  have taken := State.takeEvent_free (s := s.setFm f (s.fm f).fetched) (f := f) (e := e) (l := l)
    (by rwa [State.fm_setFm, FmSt.fetched_events]) (by rwa [State.fm_setFm, FmSt.fetched_signals])
  refine congrArg Host.Outcome.next ((State.fmnStep_acts ready is).trans ?_)
  rw [taken, State.fm_setFm, State.setFm_setFm]
  dsimp only [State.modFm]
  rw [State.fm_setFm, State.setFm_setFm, FmIns.d_extract]
  rfl

/-- Settles O4: each operation acts on the cells of the mask; WAITEV takes the oldest event. -/
theorem foremanLoopers : Obligations.ForemanLoopers := by
  unfold Obligations.ForemanLoopers
  intro s f w hf ready
  have ⟨_, _, _, _, _, legal⟩ := ready
  have only (x : FmSt) : s.onlyFm ((s.setFm f (s.fm f).fetched).setFm f x) f :=
    State.onlyFm_setFm hf _ (State.onlyFm_setFm hf _ (State.onlyFm_refl s f))
  refine ⟨fun is => ?start, fun is => State.fmnStep_sends hf ready is ?stop, fun is => State.fmnStep_sends hf ready is ?latch,
    fun is => ?waitdone, fun e l is events signals => ?event, fun is events => State.fmnStep_goes hf ready is ?empty⟩
  case start =>
    refine ⟨_, congrArg Host.Outcome.next (State.fmnStep_acts ready is), ?_⟩
    simp only [State.sendAll_fm, State.fm_setFm, State.sendAll_inFlight, State.setFm_inFlight, FmSt.fetched_s, FmIns.a_extract, FmIns.b_extract]
    refine ⟨?_, ?_, fun k hk => ?_, only _⟩
    · rw [bits_extract]
      rfl
    · rw [FmSt.fetched_eq]
      rfl
    · rw [BitVec.getLsbD_and, BitVec.getLsbD_not, getLsbD_doneMask _ _ hk, FmSt.fetched_done, decide_eq_true hk, Bool.true_and,
        show (0 : Word).getLsbD k = false from BitVec.getLsbD_zero, Bool.false_or]
      rfl
  case stop =>
    rw [FmIns.imm_bit (FmIns.imm_le legal is rfl), FmSt.fetched_s, FmIns.b_extract]
    rfl
  case latch =>
    have imm := FmIns.imm_le legal is rfl
    rw [FmIns.imm_extractLow w (by omega), FmSt.fetched_s, FmIns.a_extract]
    rfl
  case waitdone =>
    have at' : ((maskCells f ((s.fm f).fetched.s w.b)).filter (s.setFm f (s.fm f).fetched).live).all (fun c => bit (posOf c) (s.fm f).fetched.done) =
        (((blockCells f).filter (fun c => ((s.fm f).s (w.extractLsb' 41 5).toNat).getLsbD (posOf c))).filter
          (fun c => (s.cell c).configured && (s.cell c).looper != .snag)).all (fun c => (s.fm f).done.getLsbD (posOf c)) := by
      rw [FmSt.fetched_s, FmIns.b_extract, FmSt.fetched_done]
      rfl
    split
    case isTrue all =>
      refine State.fmnStep_goes hf ready is ?_
      rw [at', if_pos all, FmSt.nextPc_fetched]
    case isFalse some_ =>
      refine State.fmnStep_goes hf ready is ?_
      rw [at', if_neg some_, FmSt.stays_fetched]
  case event =>
    refine ⟨_, execFmnWaitev_event ready is events signals, ?_⟩
    rw [State.fm_setFm]
    refine ⟨FmSt.s_setS _ (w.extractLsb' 51 5).isLt e, fun k hk => ?_, ?_, ?_, State.onlyFm_setFm hf _ (State.onlyFm_refl s f), rfl⟩
    · exact (FmSt.s_setS_other _ hk e).trans ((s.fm f).fetched_s k)
    · rw [FmSt.fetched_eq]
      rfl
    · rw [FmSt.fetched_eq]
      rfl
  case empty =>
    rw [State.takeEvent_none (by rwa [State.fm_setFm, FmSt.fetched_events]), FmSt.stays_fetched]

end Sys2Proof.Machine

namespace Sys2Proof.Machine

open Sys2Proof

/-! # The looper's next step: held, refused, or issued. -/

/-! ## An entry read with a corrected error (R119) -/

/-- The cell once its next step is read: a corrected error is counted and its mark is gone. -/
def CellSt.corrected (x : CellSt) : CellSt :=
  if (eccAt x.stepEcc x.pc).isSome then { x.tally 12 1 with stepEcc := x.stepEcc.filter (fun m => m.1 != x.pc) } else x

theorem CellSt.corrected_same (x : CellSt) : ∃ tallies marks, x.corrected = { x with tallies := tallies, stepEcc := marks } := by
  unfold CellSt.corrected
  split
  · exact ⟨_, _, rfl⟩
  · exact ⟨_, _, rfl⟩

theorem CellSt.corrected_sound {x : CellSt} (sound : eccAt x.stepEcc x.pc = none) : x.corrected = x := by
  simp [CellSt.corrected, sound]

theorem CellSt.tally_get (x : CellSt) (k n : Nat) : (x.tally k n).tallies.get 0 k = x.tallies.get 0 k + BitVec.ofNat 64 n :=
  Tbl.get_set ..

theorem CellSt.tally_get_other (x : CellSt) {j k : Nat} (h : j ≠ k) (n : Nat) : (x.tally k n).tallies.get 0 j = x.tallies.get 0 j :=
  Tbl.get_set_other _ _ h ..

theorem CellSt.corrected_issues (x : CellSt) : x.corrected.tallies.get 0 0 = x.tallies.get 0 0 := by
  unfold CellSt.corrected
  split
  · exact x.tally_get_other (by decide) 1
  · rfl

theorem CellSt.mkRun_corrected (x : CellSt) (b : Step) : x.corrected.mkRun b = x.mkRun b := by
  obtain ⟨tallies, marks, read⟩ := x.corrected_same
  rw [read]
  rfl

theorem issueFault_corrected (env : CellEnv) (x : CellSt) (b : Step) : issueFault env x.corrected b = issueFault env x b := by
  obtain ⟨tallies, marks, read⟩ := x.corrected_same
  rw [read]
  rfl

/-! ## The offer (R99, R100, R119, R121) -/

section
variable {s : State} {c cls held : Nat} {b : Step} {want : Step → Bool}

theorem State.heldBy_free (free : s.heldBy c b = none) : (s.cell c).occ = none := by
  unfold State.heldBy at free
  by_contra busy
  rw [if_pos (Option.isSome_iff_ne_none.2 busy)] at free
  exact absurd free (by simp)

variable (offers : s.cellOffers c b) (is : b.cls = cls) (wanted : want b = true)
include offers is wanted

/-- The looper runs and the step is one of the class offered: the gates come next. -/
theorem State.offer_gates : s.offer c cls held want =
    match s.heldBy c b with
    | some t => .no (s.setCell c ((s.cell c).tally t held))
    | none => if eccAt (s.cell c).stepEcc (s.cell c).pc = some true then
        .no ((s.setCell c ((s.cell c).withFault 0x1001 (s.cell c).pc 0)).settle c)
      else match issueFault (s.env c) (s.cell c).corrected b with
        | some code => .no ((s.setCell c ((s.cell c).corrected.withFault code (s.cell c).pc 0)).settle c)
        | none => .go (s.setCell c ((s.cell c).corrected.issued b)) b ((s.cell c).corrected.mkRun b) := by
  obtain ⟨running, fault, stopping, paced, low, rfl⟩ := offers
  unfold State.offer CellSt.corrected
  dsimp only
  rw [if_neg (by simp [running, fault, stopping, paced]), if_neg (by omega), if_neg (by simp [is, wanted])]
  cases s.heldBy c ((s.cell c).stepAt (s.cell c).pc) with
  | some t => rfl
  | none =>
    dsimp only
    cases eccAt (s.cell c).stepEcc (s.cell c).pc with
    | none => rfl
    | some double => cases double <;> rfl

theorem State.offer_held {k : Nat} (holds : s.heldBy c b = some k) :
    s.offer c cls held want = .no (s.setCell c ((s.cell c).tally k held)) := by
  rw [State.offer_gates offers is wanted, holds]

theorem State.offer_refused (free : s.heldBy c b = none) (sound : eccAt (s.cell c).stepEcc (s.cell c).pc ≠ some true) {code : Nat}
    (refuses : issueFault (s.env c) (s.cell c) b = some code) :
    s.offer c cls held want = .no ((s.setCell c ((s.cell c).corrected.withFault code (s.cell c).pc 0)).settle c) := by
  rw [State.offer_gates offers is wanted, free]
  dsimp only
  rw [if_neg sound, issueFault_corrected, refuses]

omit offers in
theorem State.offer_issues (issues : s.cellIssues c b) :
    s.offer c cls held want = .go (s.setCell c ((s.cell c).corrected.issued b)) b ((s.cell c).mkRun b) := by
  obtain ⟨offers, free, sound, legal, -⟩ := issues
  rw [State.offer_gates offers is wanted, free]
  dsimp only
  rw [if_neg sound, issueFault_corrected, legal, CellSt.mkRun_corrected]

end

/-! ## The command of a step's class -/

/-- The command that offers step `b` of cell `c`: that of its class, and of its kind where it is a GATE (R87, R97). -/
def offersStep (c held : Nat) (b : Step) (i : Instr) : Prop :=
  i = .stepNop c held ∧ b.cls = 0 ∨ i = .stepMatrix c held ∧ b.cls = 1 ∨ i = .stepVector c held ∧ b.cls = 2 ∨
    i = .stepLoad c held ∧ b.cls = 3 ∨ i = .stepStore c held ∧ b.cls = 4 ∨ i = .stepExchange c held ∧ b.cls = 5 ∨
    i = .gateWait c held ∧ b.cls = 6 ∧ (b.extractLsb' 84 4).toNat = 0 ∨
    i = .gateBarrierEnter c held ∧ b.cls = 6 ∧ (b.extractLsb' 84 4).toNat = 1 ∨
    i = .gateSignal c held ∧ b.cls = 6 ∧ (b.extractLsb' 84 4).toNat = 2 ∨
    i = .stepScalar c held ∧ b.cls = 7 ∨ i = .stepEnd c held ∧ b.cls = 15

section
variable {s t : State} {c held : Nat} {b : Step} {i : Instr}

theorem wants_gate {k : Nat} (kind : (b.extractLsb' 84 4).toNat = k) : decide (bits 87 84 b = k) = true :=
  decide_eq_true ((bits_extract 87 84 b).trans kind)

/-- A step that the looper does not issue: its command leaves what the offer leaves. -/
theorem exec_notIssued (step : offersStep c held b i)
    (no : ∀ {cls : Nat} {want : Step → Bool}, b.cls = cls → want b = true → s.offer c cls held want = .no t) : exec i s = .next t := by
  have engine {cls : Nat} (is : b.cls = cls) (e : Engine) : s.issueEngine c cls held e = t := by rw [State.issueEngine, no is rfl]
  have gate {k : Nat} (is : b.cls = 6) (kind : (b.extractLsb' 84 4).toNat = k) (act : State → Step → Run → State) :
      s.gate c held k act = t := by rw [State.gate, no is (wants_gate kind)]
  rcases step with ⟨rfl, is⟩ | ⟨rfl, is⟩ | ⟨rfl, is⟩ | ⟨rfl, is⟩ | ⟨rfl, is⟩ | ⟨rfl, is⟩ | ⟨rfl, is, kind⟩ | ⟨rfl, is, kind⟩ |
    ⟨rfl, is, kind⟩ | ⟨rfl, is⟩ | ⟨rfl, is⟩
  · exact congrArg Host.Outcome.next (by rw [no is rfl])
  · exact congrArg Host.Outcome.next (engine is .array)
  · exact congrArg Host.Outcome.next (engine is .vector)
  · exact congrArg Host.Outcome.next (engine is .move)
  · exact congrArg Host.Outcome.next (engine is .move)
  · exact congrArg Host.Outcome.next (by rw [no is rfl])
  · exact congrArg Host.Outcome.next (gate is kind _)
  · exact congrArg Host.Outcome.next (gate is kind _)
  · exact congrArg Host.Outcome.next (gate is kind _)
  · exact congrArg Host.Outcome.next (by rw [no is rfl])
  · exact congrArg Host.Outcome.next (by rw [no is rfl])

/-! ## Held steps (R100, R105, R106, R124) -/

/-- What may hold step `b`: a landing slot, the barrier, a beat window, the queue, and engines that it waits for. -/
def State.landingHolds (s : State) (c : Nat) (b : Step) : Prop := ∃ l ∈ landSlots (s.cell c) b, (s.cell c).valid l = false
def State.barrierHolds (s : State) (c : Nat) (b : Step) : Prop := b.getLsbD 122 = true ∧ (s.cell c).passed ≠ (s.cell c).entered
def State.windowHolds (s : State) (c : Nat) (b : Step) : Prop :=
  b.getLsbD 120 = true ∧ s.windowFlag c (b.extractLsb' 115 3).toNat = false
def State.queueHolds (s : State) (c : Nat) (b : Step) : Prop := b.getLsbD 121 = true ∧ 4 ≤ (s.cell c).queue.length
def State.engineHolds (s : State) (c : Nat) (b : Step) : Prop :=
  (b.getLsbD 114 = true ∧ (s.cell c).enginesIdle = false) ∨ ∃ e, engineOf b.cls = some e ∧ ((s.cell c).eng e).pending ≠ none

/-- The tally of the first that holds step `b`. -/
def State.firstHeld (s : State) (c : Nat) (b : Step) (k : Nat) : Prop :=
  (s.landingHolds c b ∧ k = 3) ∨ (¬ s.landingHolds c b ∧ s.barrierHolds c b ∧ k = 4) ∨
    (¬ s.landingHolds c b ∧ ¬ s.barrierHolds c b ∧ s.windowHolds c b ∧ k = 5) ∨
    (¬ s.landingHolds c b ∧ ¬ s.barrierHolds c b ∧ ¬ s.windowHolds c b ∧ s.queueHolds c b ∧ k = 6) ∨
    (¬ s.landingHolds c b ∧ ¬ s.barrierHolds c b ∧ ¬ s.windowHolds c b ∧ ¬ s.queueHolds c b ∧ s.engineHolds c b ∧ k = 8)

theorem State.heldBy_first {k : Nat} (free : (s.cell c).occ = none) (first : s.firstHeld c b k) : s.heldBy c b = some k := by
  have landing : (landSlots (s.cell c) b).any (fun l => !(s.cell c).valid l) = true ↔ s.landingHolds c b := by
    simp [State.landingHolds]
  have barrier : (b.gBarrier && (s.cell c).passed != (s.cell c).entered) = true ↔ s.barrierHolds c b := by
    simp [State.barrierHolds, Step.gBarrier, bit]
  have window : (b.gWindow && !s.windowFlag c b.window) = true ↔ s.windowHolds c b := by
    rw [Step.window, bits_extract]
    simp [State.windowHolds, Step.gWindow, bit]
  have queue : (b.gQueue && decide (4 ≤ (s.cell c).queue.length)) = true ↔ s.queueHolds c b := by
    simp [State.queueHolds, Step.gQueue, bit]
  unfold State.heldBy
  dsimp only
  rw [if_neg (by simp [free])]
  rcases first with ⟨h, rfl⟩ | ⟨n1, h, rfl⟩ | ⟨n1, n2, h, rfl⟩ | ⟨n1, n2, n3, h, rfl⟩ | ⟨n1, n2, n3, n4, h, rfl⟩
  · rw [if_pos (landing.2 h)]
  · rw [if_neg (mt landing.1 n1), if_pos (barrier.2 h)]
  · rw [if_neg (mt landing.1 n1), if_neg (mt barrier.1 n2), if_pos (window.2 h)]
  · rw [if_neg (mt landing.1 n1), if_neg (mt barrier.1 n2), if_neg (mt window.1 n3), if_pos (queue.2 h)]
  · rw [if_neg (mt landing.1 n1), if_neg (mt barrier.1 n2), if_neg (mt window.1 n3), if_neg (mt queue.1 n4)]
    rcases h with ⟨sync, busy⟩ | ⟨e, engine, pending⟩
    · rw [if_pos (by simp [Step.sync, bit, sync, busy])]
    · split
      · rfl
      · rw [engine]
        exact if_pos (Option.isSome_iff_ne_none.2 pending)

end

/-- Settles O7: the first gate that holds is the tally of `heldBy`, and the offer of a held step adds to that tally alone. -/
theorem heldSteps : Obligations.HeldSteps := by
  unfold Obligations.HeldSteps
  intro s c held k b offers free x landing barrier window queue waits first i step
  have holds : s.heldBy c b = some k := State.heldBy_first free first
  refine ⟨_, exec_notIssued step (fun is wanted => State.offer_held offers is wanted holds), rfl, State.onlyCells_setCell s c _, ?_⟩
  rw [State.cell_setCell]
  exact ⟨rfl, x.tally_get k held, fun j other => x.tally_get_other other held⟩

/-! ## Refused steps (R113, R120, R121) -/

section
variable {s : State} {c : Nat} {b : Step}

/-- A step that is legal but for the loop stack, and breaks a rule of R113. -/
theorem issueFault_loopStack {env : CellEnv} {x : CellSt} (legal : issueFault env x b ≠ some 0x1002)
    (breaks : (b.loop = 1 ∧ 4 ≤ x.stack.length) ∨ (b.loop = 2 ∧ x.stack = []) ∨ (b.cls = 0xF ∧ x.stack ≠ [])) :
    issueFault env x b = some 0x1003 := by
  obtain ⟨illegal, order⟩ : ∃ illegal : Bool, issueFault env x b =
      if illegal then some 0x1002
      else if b.loop = 1 ∧ 4 ≤ x.stack.length then some 0x1003
      else if b.loop = 2 ∧ x.stack.isEmpty then some 0x1003
      else if b.cls = 0xF ∧ !x.stack.isEmpty then some 0x1003
      else none := ⟨_, rfl⟩
  have formed : ¬ illegal = true := fun bad => legal (by rw [order, if_pos bad])
  rw [order, if_neg formed]
  rcases breaks with push | ⟨return_, empty⟩ | ⟨end_, open_⟩
  · rw [if_pos push]
  · split
    · rfl
    · rw [if_pos ⟨return_, by simp [empty]⟩]
  · split
    · rfl
    · split
      · rfl
      · rw [if_pos ⟨end_, by simp [open_]⟩]

/-- A fault noted at a looper whose engines are idle halts it with the notice. -/
theorem State.settle_noted {x : CellSt} (drained : x.Drained) (fault : x.fault = none) (stopping : x.stopping = none) (code idx : Nat) :
    (s.setCell c { x with fault := some (code, idx, 0) }).settle c = (s.setCell c { x with looper := .halted }).raiseCell code c idx := by
  have cleared : ({ x with looper := .halted, fault := none } : CellSt) = { x with looper := .halted } := by simp [fault]
  rw [State.settle_halts (x := { x with fault := some (code, idx, 0) }) ⟨drained.running, drained.occ, drained.engines, drained.notice⟩ rfl
    stopping, ← cleared, Nat.zero_mul, Nat.add_zero]

end

/-- Settles O60: the loop stack's fault is noted at the step, and the looper halts with its notice once the engines are idle. -/
theorem loopStackFaults : Obligations.LoopStackFaults := by
  unfold Obligations.LoopStackFaults
  intro s c held b offers free gates sound legal notice x breaks i step
  have refuses := issueFault_loopStack legal breaks
  have runs := exec_notIssued step (fun is wanted => State.offer_refused offers is wanted gates sound refuses)
  obtain ⟨running, fault, stopping, -, -, -⟩ := offers
  obtain ⟨tallies, marks, read⟩ := x.corrected_same
  rw [read, CellSt.withFault_none (x := { x with tallies := tallies, stepEcc := marks }) fault] at runs
  cases engines : x.enginesIdle with
  | true =>
    rw [State.settle_noted (x := { x with tallies := tallies, stepEcc := marks }) ⟨running, free, engines, notice⟩ fault stopping] at runs
    refine ⟨_, runs, State.onlyCells_setCell s c _, rfl, fun _ => ⟨rfl, ?_⟩, fun busy => absurd busy (by decide)⟩
    rw [State.raiseCell_cell, State.cell_setCell]
  | false =>
    rw [State.settle_busy (by rw [State.cell_setCell]; exact notice) (.inr (by rw [State.cell_setCell]; exact engines))] at runs
    refine ⟨_, runs, State.onlyCells_setCell s c _, rfl, fun idle => absurd idle (by decide), fun _ => ⟨rfl, ?_⟩⟩
    rw [State.cell_setCell]

/-! ## Issued steps (R99, R111, R112) -/

section
variable (x : CellSt) (b : Step)

theorem CellSt.loopAfter_same : ∃ pc stack, x.loopAfter b = { x with pc := pc, stack := stack } := by
  unfold CellSt.loopAfter
  split
  · exact ⟨_, _, rfl⟩
  · split
    · split
      · exact ⟨_, _, rfl⟩
      · exact ⟨_, _, rfl⟩
    · exact ⟨_, _, rfl⟩
  · exact ⟨_, _, rfl⟩

theorem CellSt.issued_wentOn : x.wentOn (x.issued b) b := by
  unfold CellSt.issued
  dsimp only
  generalize before : ({ x with width := (x.mkRun b).width, view := (x.mkRun b).view,
                                execNo := x.execNo + BitVec.ofNat 32 (b.repeats + 1) } : CellSt).tally 0 (b.repeats + 1) = y
  have pc : y.pc = x.pc := before ▸ rfl
  have stack : y.stack = x.stack := before ▸ rfl
  have execNo : y.execNo = x.execNo + BitVec.ofNat 32 (b.repeats + 1) := before ▸ rfl
  have tally : y.tallies.get 0 0 = x.tallies.get 0 0 + BitVec.ofNat 64 (b.repeats + 1) := before ▸ x.tally_get 0 _
  obtain ⟨pc', stack', after⟩ := y.loopAfter_same b
  refine ⟨fun plain => ?_, fun push => ?_, fun e l return_ top last => ?_, fun e l return_ top more => ?_, ?_, ?_⟩
  · simp [CellSt.loopAfter, plain, pc, stack]
  · simp [CellSt.loopAfter, push, pc, stack]
  · simp [CellSt.loopAfter, return_, pc, stack, top, last]
  · simp [CellSt.loopAfter, return_, stack, top, more]
  · rw [after]
    exact execNo
  · rw [after]
    exact tally

/-- A step that is no LOAD leaves the accumulator layout as it issues (R201). -/
theorem CellSt.issued_same (other : b.cls ≠ 3) : ∃ pc stack execNo tallies,
    x.issued b = { x with pc := pc, stack := stack, execNo := execNo, tallies := tallies } := by
  have layout : (x.mkRun b).width = x.width ∧ (x.mkRun b).view = x.view := by simp [CellSt.mkRun, other]
  obtain ⟨width, view⟩ := layout
  unfold CellSt.issued
  dsimp only
  rw [width, view]
  obtain ⟨pc, stack, after⟩ :=
    (({ x with execNo := x.execNo + BitVec.ofNat 32 (b.repeats + 1) } : CellSt).tally 0 (b.repeats + 1)).loopAfter_same b
  exact ⟨pc, stack, _, _, after⟩

end

theorem CellSt.wentOn_from {x y z : CellSt} {b : Step} (pc : y.pc = x.pc) (stack : y.stack = x.stack) (execNo : y.execNo = x.execNo)
    (issued : y.tallies.get 0 0 = x.tallies.get 0 0) (went : y.wentOn z b) : x.wentOn z b := by
  unfold CellSt.wentOn at went ⊢
  rwa [pc, stack, execNo, issued] at went

/-- Cell `z` is `x` but for where its looper stands and what it has counted: all that an issue changes. -/
def CellSt.sameButLooper (x z : CellSt) : Prop :=
  z = { x with pc := z.pc, stack := z.stack, execNo := z.execNo, tallies := z.tallies, stepEcc := z.stepEcc }

/-- A step of a class that occupies the looper issues: the offer with the cell as the issue leaves it. -/
theorem State.offer_steps {s : State} {c held : Nat} {b : Step} (issues : s.cellIssues c b) (other : b.cls ≠ 3) :
    ∃ z, (s.cell c).wentOn z b ∧ (s.cell c).sameButLooper z ∧ ∀ {cls : Nat} {want : Step → Bool}, b.cls = cls → want b = true →
      s.offer c cls held want = .go (s.setCell c z) b ((s.cell c).mkRun b) := by
  refine ⟨(s.cell c).corrected.issued b, ?_, ?_, fun is wanted => State.offer_issues is wanted issues⟩
  · obtain ⟨_, _, read⟩ := (s.cell c).corrected_same
    exact CellSt.wentOn_from (read ▸ rfl) (read ▸ rfl) (read ▸ rfl) (s.cell c).corrected_issues ((s.cell c).corrected.issued_wentOn b)
  · obtain ⟨pc, stack, execNo, tallies, after⟩ := (s.cell c).corrected.issued_same b other
    obtain ⟨_, _, read⟩ := (s.cell c).corrected_same
    rw [CellSt.sameButLooper, after, read]

/-! ## Leaving the looper (R102, R108) -/

section
variable (x : CellSt) (b : Step)

@[simp] theorem CellSt.releaseAt_pc : (x.releaseAt b).pc = x.pc := by rw [CellSt.releaseAt_eq]
@[simp] theorem CellSt.releaseAt_stack : (x.releaseAt b).stack = x.stack := by rw [CellSt.releaseAt_eq]
@[simp] theorem CellSt.releaseAt_execNo : (x.releaseAt b).execNo = x.execNo := by rw [CellSt.releaseAt_eq]
@[simp] theorem CellSt.releaseAt_tallies : (x.releaseAt b).tallies = x.tallies := by rw [CellSt.releaseAt_eq]
@[simp] theorem CellSt.releaseAt_stepEcc : (x.releaseAt b).stepEcc = x.stepEcc := by rw [CellSt.releaseAt_eq]
@[simp] theorem CellSt.releaseAt_notice : (x.releaseAt b).notice = x.notice := by rw [CellSt.releaseAt_eq]
@[simp] theorem CellSt.releaseAt_fault : (x.releaseAt b).fault = x.fault := by rw [CellSt.releaseAt_eq]
@[simp] theorem CellSt.releaseAt_stopping : (x.releaseAt b).stopping = x.stopping := by rw [CellSt.releaseAt_eq]

/-- A release does not look at the looper's state. -/
theorem CellSt.releaseAt_looper (l : LoopSt) (p : Option Bool) :
    ({ x.releaseAt b with looper := l, stopping := p } : CellSt) = ({ x with looper := l, stopping := p } : CellSt).releaseAt b := by
  unfold CellSt.releaseAt
  split
  · unfold CellSt.setValid
    split <;> rfl
  · rfl

theorem CellSt.wentOn_releaseAt {x z : CellSt} {b r : Step} (went : x.wentOn z b) : x.wentOn (z.releaseAt r) b := by
  unfold CellSt.wentOn at went ⊢
  simpa only [CellSt.releaseAt_pc, CellSt.releaseAt_stack, CellSt.releaseAt_execNo, CellSt.releaseAt_tallies] using went

theorem CellSt.sameButLooper_releaseAt {x z : CellSt} {b : Step} (same : x.sameButLooper z) :
    z.releaseAt b = ({ x with pc := (z.releaseAt b).pc, stack := (z.releaseAt b).stack, execNo := (z.releaseAt b).execNo,
                              tallies := (z.releaseAt b).tallies, stepEcc := (z.releaseAt b).stepEcc } : CellSt).released b := by
  simp only [CellSt.releaseAt_pc, CellSt.releaseAt_stack, CellSt.releaseAt_execNo, CellSt.releaseAt_tallies, CellSt.releaseAt_stepEcc]
  rw [← same]
  rfl

end

theorem CellSt.clearLanding_false (x : CellSt) : x.clearLanding false = x := rfl

section
variable {s : State} {c : Nat}

theorem State.modCell_setCell (x : CellSt) (f : CellSt → CellSt) : (s.setCell c x).modCell c f = s.setCell c (f x) := by
  rw [State.modCell, State.cell_setCell, State.setCell_setCell]

/-- A cell with no notice, fault or stop stays as it is. -/
theorem State.setCell_settle {x : CellSt} (notice : x.notice = none) (fault : x.fault = none) (stopping : x.stopping = none) :
    (s.setCell c x).settle c = s.setCell c x :=
  State.settle_steady (by rwa [State.cell_setCell]) (by rwa [State.cell_setCell]) (by rwa [State.cell_setCell])

theorem State.setCell_send_settle {x : CellSt} (notice : x.notice = none) (fault : x.fault = none) (stopping : x.stopping = none) (m : Instr) :
    ((s.setCell c x).send m).settle c = (s.setCell c x).send m :=
  State.settle_steady ((State.cell_setCell s c x).symm ▸ notice) ((State.cell_setCell s c x).symm ▸ fault)
    ((State.cell_setCell s c x).symm ▸ stopping)

theorem State.send_modCell (m : Instr) (g : CellSt → CellSt) : (s.send m).modCell c g = (s.modCell c g).send m := rfl

theorem State.setCell_enterBarrier {n : Nat} (slot : s.slotOfCell c = some n) (x : CellSt) :
    (s.setCell c x).enterBarrier c =
      (s.setCell c { x with entered := x.entered + 1, word := 0, noticed := false }).send (.barrierEnter (.cell c) n x.word) := by
  unfold State.enterBarrier
  rw [State.cell_setCell]
  dsimp only
  rw [State.setCell_setCell, show (s.setCell c x).slotOfCell c = some n from slot]

/-- An END in a looper that neither faults nor stops: it is idle and says so (R118). -/
theorem State.endLooper_ends (fault : (s.cell c).fault = none) (stopping : (s.cell c).stopping = none) (b : Step) :
    s.endLooper c b =
      (s.setCell c (({ s.cell c with occ := none, looper := .idle } : CellSt).releaseAt b)).send (.complete c) := by
  have still (x : CellSt) (h : x.stopping = none) :
      ({ x with occ := none, looper := .idle, stopping := none } : CellSt) = { x with occ := none, looper := .idle } := by rw [← h]
  have keeps : (s.cell c).stopping.getD false = false := by rw [stopping, Option.getD_none]
  unfold State.endLooper
  dsimp only
  rw [if_neg (by simp [fault]), keeps, CellSt.clearLanding_false]
  exact congrArg (fun y : CellSt => (s.setCell c y).send (.complete c))
    ((CellSt.releaseAt_looper { s.cell c with occ := none } b .idle none).trans (congrArg (fun y : CellSt => y.releaseAt b) (still _ stopping)))

/-- A SIGNAL whose foreman has room: its event enters the queue and its step completes (R128). -/
theorem State.setCell_queueSignal_room {x : CellSt} {r : Run} (occ : x.occ = some r) {code : Nat} (room : (s.fm (fmOf c)).events.length < 64)
    (free : (s.fm (fmOf c)).heldRelease = none) :
    (s.setCell c x).queueSignal c code =
      (s.setFm (fmOf c) { s.fm (fmOf c) with events := (s.fm (fmOf c)).events ++ [signalEvent c code] }).setCell c
        (({ x with occ := none } : CellSt).releaseAt r.bits) := by
  unfold State.queueSignal
  dsimp only
  rw [State.setCell_fm, if_neg (by simp [room, free])]
  refine (State.modCell_setCell (s := s.setFm _ _) x _).trans ?_
  rw [occ]

/-- A SIGNAL without room waits at the foreman. -/
theorem State.setCell_queueSignal_full (x : CellSt) {code : Nat}
    (full : 64 ≤ (s.fm (fmOf c)).events.length ∨ (s.fm (fmOf c)).heldRelease ≠ none) :
    (s.setCell c x).queueSignal c code =
      (s.setFm (fmOf c) { s.fm (fmOf c) with signals := (s.fm (fmOf c)).signals ++ [(c, code)] }).setCell c x := by
  unfold State.queueSignal
  dsimp only
  rw [State.setCell_fm, if_pos (full.imp_right Option.isSome_iff_ne_none.2)]
  rfl

end

/-- Settles O6: class by class, the cell that the issue leaves and what the step does with it. -/
theorem looperSteps : Obligations.LooperSteps := by
  unfold Obligations.LooperSteps
  intro s c held b hc issues x f event same left
  have ⟨⟨running, fault, stopping, _⟩, gates, _, _, notice⟩ := issues
  have free : x.occ = none := State.heldBy_free gates
  have only (y : CellSt) : s.onlyCells (s.setCell c y) [c] := State.onlyCells_setCell s c y
  -- the cell as the issue leaves it, and what the offer of its class says
  have step (other : b.cls ≠ 3) := State.offer_steps (held := held) issues other
  refine ⟨fun is => ?nop, fun is kind => ?wait, fun n is kind slot => ?enter, fun is kind room release => ?signal,
    fun is kind full => ?waits, fun is => ?scalar, fun is idle => ?end_, fun is busy => ?ends⟩
  all_goals
    obtain ⟨z, went, steps, offer⟩ := step (by omega)
    have frame := steps
    unfold CellSt.sameButLooper at frame
    have zNotice : z.notice = none := (congrArg CellSt.notice frame).trans notice
    have zFault : z.fault = none := (congrArg CellSt.fault frame).trans fault
    have zStopping : z.stopping = none := (congrArg CellSt.stopping frame).trans stopping
    have leaves {t : State} {y z' : CellSt} (cell : t.cell c = z'.releaseAt b) (only : s.onlyCells t [c]) (went : x.wentOn z' b)
        (steps : y.sameButLooper z') : left t y := by
      refine ⟨?_, only, ?_⟩
      · rw [cell]
        exact CellSt.wentOn_releaseAt went
      · rw [cell]
        exact CellSt.sameButLooper_releaseAt steps
    have stays {t : State} {o : Option Run} (cell : t.cell c = { z with occ := o }) (only : s.onlyCells t [c]) : same t o := by
      refine ⟨?_, only, ?_⟩
      · rw [cell]
        exact went
      · rw [cell]
        exact congrArg (fun y : CellSt => { y with occ := o }) frame
  case nop =>
    refine ⟨s.setCell c { z with occ := some (x.mkRun b) }, congrArg Host.Outcome.next ?_, stays (State.cell_setCell ..) (only _), rfl⟩
    rw [offer is rfl]
    exact State.modCell_setCell ..
  case wait =>
    refine ⟨s.setCell c (z.releaseAt b), congrArg Host.Outcome.next ?_, leaves (State.cell_setCell ..) (only _) went steps, rfl⟩
    rw [State.gate, offer is (wants_gate kind)]
    dsimp only
    rw [State.modCell_setCell, State.setCell_settle (by simpa) (by simpa) (by simpa)]
  case enter =>
    refine ⟨(s.setCell c (({ z with entered := z.entered + 1, word := 0, noticed := false } : CellSt).releaseAt b)).send
      (.barrierEnter (.cell c) n z.word), congrArg Host.Outcome.next ?_, leaves (State.cell_setCell ..) (only _) went ?_, ?_⟩
    · rw [State.gate, offer is (wants_gate kind)]
      dsimp only
      rw [State.setCell_enterBarrier slot, State.send_modCell, State.modCell_setCell,
        State.setCell_send_settle (by simpa) (by simpa) (by simpa)]
    · exact congrArg (fun y : CellSt => { y with entered := y.entered + 1, word := 0, noticed := false }) frame
    · exact congrArg (fun w => s.inFlight ++ [.barrierEnter (.cell c) n w]) (congrArg CellSt.word frame)
  case signal =>
    have done : ({ z with occ := none } : CellSt) = z := by rw [← (congrArg CellSt.occ frame).trans free]
    have queued := State.setCell_queueSignal_room (s := s) (x := { z with occ := some (x.mkRun b) }) (c := c) (code := (b.extractLsb' 76 8).toNat)
      rfl room release
    refine ⟨(s.setFm f { s.fm f with events := (s.fm f).events ++ [event] }).setCell c (z.releaseAt b), congrArg Host.Outcome.next ?_,
      leaves (State.cell_setCell ..) (State.onlyCells_setCell (s.setFm f _) c _) went steps, rfl, State.fm_setFm .., ?_⟩
    · rw [State.gate, offer is (wants_gate kind)]
      dsimp only
      rw [State.modCell_setCell, bits_extract]
      refine (congrArg (State.settle · c) (queued.trans (by rw [done]))).trans ?_
      exact State.setCell_settle (by simpa) (by simpa) (by simpa)
    · exact State.onlyFm_setFm (wfFm_fmOf hc) _ (State.onlyFm_refl s _)
  case waits =>
    have waiting := State.setCell_queueSignal_full (s := s) { z with occ := some (x.mkRun b) } (code := (b.extractLsb' 76 8).toNat) full
    refine ⟨(s.setFm f { s.fm f with signals := (s.fm f).signals ++ [(c, (b.extractLsb' 76 8).toNat)] }).setCell c
        { z with occ := some (x.mkRun b) }, congrArg Host.Outcome.next ?_,
      stays (State.cell_setCell ..) (State.onlyCells_setCell (s.setFm f _) c _), rfl, State.fm_setFm .., ?_⟩
    · rw [State.gate, offer is (wants_gate kind)]
      dsimp only
      rw [State.modCell_setCell, bits_extract]
      refine (congrArg (State.settle · c) waiting).trans ?_
      exact State.setCell_settle zNotice zFault zStopping
    · exact State.onlyFm_setFm (wfFm_fmOf hc) _ (State.onlyFm_refl s _)
  case scalar =>
    refine ⟨(s.setCell c { z with occ := some (x.mkRun b) }).send
        (.scalarWrite c (b.extractLsb' 79 4).toNat ((s.fm f).s (b.extractLsb' 83 5).toNat)), congrArg Host.Outcome.next ?_,
      stays (State.cell_setCell ..) (only _), rfl⟩
    rw [offer is rfl]
    dsimp only
    rw [State.modCell_setCell, bits_extract, bits_extract]
    rfl
  case end_ =>
    have ended : ({ z with occ := none, looper := .idle } : CellSt) = { z with looper := .idle } := by
      rw [← (congrArg CellSt.occ frame).trans free]
    refine ⟨(s.setCell c (({ z with looper := .idle } : CellSt).releaseAt b)).send (.complete c), congrArg Host.Outcome.next ?_,
      leaves (State.cell_setCell ..) (only _) went ?_, rfl⟩
    · rw [offer is rfl]
      dsimp only
      rw [State.cell_setCell, if_pos ((congrArg CellSt.enginesIdle frame).trans idle), 
        State.endLooper_ends (by rwa [State.cell_setCell]) (by rwa [State.cell_setCell]), State.cell_setCell, State.setCell_setCell, ended]
    · exact congrArg (fun y : CellSt => { y with looper := .idle }) frame
  case ends =>
    refine ⟨s.setCell c { z with occ := some (x.mkRun b) }, congrArg Host.Outcome.next ?_, stays (State.cell_setCell ..) (only _), rfl⟩
    rw [offer is rfl]
    dsimp only
    rw [State.cell_setCell, if_neg (by rw [(congrArg CellSt.enginesIdle frame).trans busy]; decide)]
    exact State.modCell_setCell ..

end Sys2Proof.Machine

namespace Sys2Proof.Machine

open Sys2Proof

/-! # Steps that complete, and the exchange epoch. -/

/-! ## The looper's own steps (R102, R103, R118) -/

section
variable {s : State} {c : Nat} {r : Run}

theorem State.completeLooper_nop (occ : (s.cell c).occ = some r) (nop : r.bits.cls = 0) (notice : (s.cell c).notice = none)
    (fault : (s.cell c).fault = none) (stopping : (s.cell c).stopping = none) :
    s.completeLooper c = s.setCell c (({ s.cell c with occ := none } : CellSt).releaseAt r.bits) := by
  unfold State.completeLooper
  simp only [occ, nop, if_true]
  exact State.setCell_settle (by simpa) (by simpa) (by simpa)

theorem State.completeLooper_end (occ : (s.cell c).occ = some r) (end_ : r.bits.cls = 0xF) (idle : (s.cell c).enginesIdle = true)
    (fault : (s.cell c).fault = none) (stopping : (s.cell c).stopping = none) :
    s.completeLooper c =
      (s.setCell c (({ s.cell c with occ := none, looper := .idle } : CellSt).releaseAt r.bits)).send (.complete c) := by
  unfold State.completeLooper
  simp only [occ, end_, idle]
  exact State.endLooper_ends fault stopping r.bits

/-! ## An engine's step (R100, R102) -/

/-- The cell with the outbox tiles of a completed STORE visible (R423). -/
def CellSt.shown (x : CellSt) (b : Step) : CellSt :=
  if b.cls = 4 then { x with outbox := x.outbox ++ x.outNew, outNew := [] } else x

theorem CellSt.eng_shown (x : CellSt) (b : Step) (e : Engine) : (x.shown b).eng e = x.eng e := by
  unfold CellSt.shown
  split
  · cases e <;> rfl
  · rfl

theorem CellSt.eng_setEng (x : CellSt) {e : Engine} (real : e ≠ .looper) (v : EngSt) : (x.setEng e v).eng e = v := by
  cases e with
  | looper => exact absurd rfl real
  | array => rfl
  | vector => rfl
  | move => rfl
  | exchange => rfl

@[simp] theorem CellSt.shown_notice (x : CellSt) (b : Step) : (x.shown b).notice = x.notice := apply_ite CellSt.notice _ _ _ |>.trans (ite_self _)
@[simp] theorem CellSt.shown_fault (x : CellSt) (b : Step) : (x.shown b).fault = x.fault := apply_ite CellSt.fault _ _ _ |>.trans (ite_self _)
@[simp] theorem CellSt.shown_stopping (x : CellSt) (b : Step) : (x.shown b).stopping = x.stopping :=
  apply_ite CellSt.stopping _ _ _ |>.trans (ite_self _)
@[simp] theorem CellSt.setEng_notice (x : CellSt) (e : Engine) (v : EngSt) : (x.setEng e v).notice = x.notice := by cases e <;> rfl
@[simp] theorem CellSt.setEng_fault (x : CellSt) (e : Engine) (v : EngSt) : (x.setEng e v).fault = x.fault := by cases e <;> rfl
@[simp] theorem CellSt.setEng_stopping (x : CellSt) (e : Engine) (v : EngSt) : (x.setEng e v).stopping = x.stopping := by cases e <;> rfl

/-- A step whose executions are made, with none behind it, leaves its engine. -/
theorem State.complete_leaves {e : Engine} (real : e ≠ .looper) (on : (s.cell c).eng e = ⟨some r, none⟩) (done : r.done = true)
    (keeps : r.bits.release = false) (other : r.bits.cls ≠ 1) (notice : (s.cell c).notice = none)
    (fault : (s.cell c).fault = none) (stopping : (s.cell c).stopping = none) (wait : Nat) :
    s.complete c e wait = s.setCell c (((s.cell c).shown r.bits).setEng e .idle) := by
  have shown : (if r.bits.cls = 4 then { s.cell c with outbox := (s.cell c).outbox ++ (s.cell c).outNew, outNew := [] } else s.cell c) =
      (s.cell c).shown r.bits := rfl
  have gone : (((s.cell c).shown r.bits).setEng e .idle).eng e = .idle := CellSt.eng_setEng _ real _
  have drives (y : CellSt) (idle : y.eng e = .idle) : (s.setCell c y).drive c e = s.setCell c y := by
    unfold State.drive
    dsimp only
    rw [State.cell_setCell, idle]
    rfl
  unfold State.complete
  simp only [on, done, keeps, other, if_true, Bool.not_true, Bool.false_and, Bool.false_eq_true, if_false, false_and, shown, CellSt.eng_shown,
    State.setCell_setCell]
  exact (congrArg (State.settle · c) (drives _ gone)).trans
    (State.setCell_settle (by simpa) (by simpa) (by simpa))

end

/-! ## An EXCHANGE step completes (R108, R190, R276) -/

section
variable {s : State} {c : Nat} {r : Run}

/-- With no step behind it, the engine begins nothing. -/
theorem State.startExchange_free {t : State} (free : (t.cell c).exch.running = none) : t.startExchange c = t := by
  unfold State.startExchange
  dsimp only
  rw [free]

/-- Nothing is left to send of an EXCHANGE that may complete. -/
theorem State.pump_done (done : (s.cell c).exchDone = true) (n : Nat) : s.pump n c = s := by
  unfold CellSt.exchDone at done
  split at done
  case h_2 => exact absurd done (by decide)
  case h_1 q _ xrun =>
    simp only [Bool.and_eq_true, List.isEmpty_iff] at done
    obtain ⟨⟨started, todo⟩, -⟩ := done
    cases n with
    | zero => rfl
    | succ n =>
      unfold State.pump
      simp only [xrun, todo, ite_self]

/-- The cell without its EXCHANGE step. -/
def CellSt.exchanged (x : CellSt) (b : Step) : CellSt := ({ x with exch := .idle, xrun := none } : CellSt).releaseAt b

theorem CellSt.exchanged_same (x : CellSt) (b : Step) : x.exchanged b =
    { x with exch := .idle, xrun := none, valid0 := (x.exchanged b).valid0, valid1 := (x.exchanged b).valid1 } := CellSt.releaseAt_eq ..

variable (on : (s.cell c).exch = ⟨some r, none⟩) (done : (s.cell c).exchDone = true) (fault : (s.cell c).fault = none)
include on done fault

theorem State.completeExchange_done (wait : Nat) : s.completeExchange c wait =
    (State.startExchange (if r.bits.getLsbD 63 then (s.setCell c ((s.cell c).exchanged r.bits)).enterBarrier c
      else s.setCell c ((s.cell c).exchanged r.bits)) c).settle c := by
  have running : (s.cell c).exch.running = some r := by rw [on]
  have pending : (s.cell c).exch.pending = none := by rw [on]
  have sound : ((s.cell c).fault.map (fun f => f.2.1) == some r.index) = false := by rw [fault]; rfl
  unfold State.completeExchange
  rw [State.pump_done done]
  dsimp only
  rw [running]
  dsimp only
  rw [if_neg (by rw [done]; decide), sound, pending, Bool.not_false, Bool.and_true]
  rfl

variable (notice : (s.cell c).notice = none) (stopping : (s.cell c).stopping = none)
include notice stopping

theorem State.completeExchange_leaves (plain : r.bits.getLsbD 63 = false) (wait : Nat) :
    s.completeExchange c wait = s.setCell c ((s.cell c).exchanged r.bits) := by
  rw [State.completeExchange_done on done fault, plain, if_neg (by decide),
    State.startExchange_free (by rw [State.cell_setCell, CellSt.exchanged_same]; rfl)]
  exact State.setCell_settle (by rwa [CellSt.exchanged_same]) (by rwa [CellSt.exchanged_same]) (by rwa [CellSt.exchanged_same])

/-- An EXCHANGE with bit 63 enters the barrier as it completes. -/
theorem State.completeExchange_enters (enters : r.bits.getLsbD 63 = true) {n : Nat} (slot : s.slotOfCell c = some n) (wait : Nat) :
    s.completeExchange c wait =
      (s.setCell c { (s.cell c).exchanged r.bits with entered := (s.cell c).entered + 1, word := 0, noticed := false }).send
        (.barrierEnter (.cell c) n (s.cell c).word) := by
  have entered : ((s.cell c).exchanged r.bits).entered = (s.cell c).entered := by rw [CellSt.exchanged_same]
  have word : ((s.cell c).exchanged r.bits).word = (s.cell c).word := by rw [CellSt.exchanged_same]
  have idle : ((s.cell c).exchanged r.bits).exch.running = none := by rw [CellSt.exchanged_same]; rfl
  rw [State.completeExchange_done on done fault, if_pos enters, State.setCell_enterBarrier slot, entered, word,
    State.startExchange_free (by rw [State.send_cell, State.cell_setCell]; exact idle)]
  exact State.setCell_send_settle (by rwa [CellSt.exchanged_same]) (by rwa [CellSt.exchanged_same]) (by rwa [CellSt.exchanged_same]) _

end

/-! ## An EXCHANGE step that waits for its epoch (R273, R275, R276) -/

section
variable {s : State} {c : Nat}

/-- The check of a range changes nothing in the cell but its marks and the count of those corrected. -/
theorem checkEntries_same (c : Nat) (ports : BitVec 16) (l : List Nat) (x : CellSt) : ∃ tallies marks,
    (checkEntries c ports l x).2.1 = { x with tallies := tallies, xchgEcc := marks } := by
  induction l generalizing x with
  | nil => exact ⟨_, _, rfl⟩
  | cons k l ih =>
    have next (y : CellSt) (same : ∃ tallies marks, y = { x with tallies := tallies, xchgEcc := marks }) :
        ∃ tallies marks, (if (y.xEntry k).illegal c ports then ([], y, some 0x100A)
          else (k :: (checkEntries c ports l y).1, (checkEntries c ports l y).2) : List Nat × CellSt × Option Nat).2.1 =
            { x with tallies := tallies, xchgEcc := marks } := by
      split
      · exact same
      · obtain ⟨_, _, rfl⟩ := same
        exact ih _
    unfold checkEntries
    split
    · exact ⟨_, _, rfl⟩
    · split
      · exact ⟨_, _, rfl⟩
      · refine next _ ?_
        split
        · exact ⟨_, _, rfl⟩
        · exact ⟨_, _, rfl⟩

theorem CellSt.settleRecv_same {x : CellSt} {q : XRun} (xrun : x.xrun = some q) : ∃ arrivals recvs,
    x.settleRecv = { x with arrivals := arrivals, xrun := some { q with recvs := recvs } } := by
  unfold CellSt.settleRecv
  rw [xrun]
  exact ⟨_, _, rfl⟩

/-- A step whose range holds a COMPILED entry has begun: it waits for the epoch, and has sent nothing. -/
theorem State.startExchange_waits {x y : CellSt} {r : Run} {ks : List Nat} {ports : BitVec 16} (running : x.exch.running = some r)
    (free : x.xrun = none) (ports_of : (match s.slotOfCell c with | some n => (s.slot n).ports | none => 0) = ports)
    (checked : checkEntries c ports (exchRange r.bits) x = (ks, y, none)) (need : x.needsEpoch r.bits = true) (behind : x.hsEpochs < x.hsEntered) :
    ∃ q arrivals tallies marks, (s.setCell c x).startExchange c = s.setCell c
        { x with tallies := tallies, xchgEcc := marks, arrivals := arrivals, xrun := some q } ∧
      q.needEpoch = true ∧ q.started = false ∧ q.number = x.hsEntered ∧
      q.entries = ks.filter (fun k => (y.xEntry k).kind == 0 || (y.xEntry k).kind == 2) := by
  obtain ⟨tallies, marks, same⟩ := checkEntries_same c ports (exchRange r.bits) x
  rw [checked] at same
  dsimp only at same
  unfold State.startExchange
  rw [State.cell_setCell]
  dsimp only
  rw [running, free]
  dsimp only
  subst ports_of
  -- the match of the ports is the model's own here, and that of the premise above
  erw [checked]
  dsimp only
  subst same
  rw [if_pos (by rw [need, decide_eq_true behind]; rfl), State.setCell_setCell, need]
  obtain ⟨arrivals, recvs, settled⟩ := CellSt.settleRecv_same (x := { x with tallies := tallies, xchgEcc := marks, xrun := some _ }) rfl
  rw [settled]
  exact ⟨_, arrivals, tallies, marks, rfl, rfl, rfl, rfl, rfl⟩

end

/-! ## An EXCHANGE step issues (R273) -/

theorem CellSt.place_free {x : CellSt} (free : x.exch = .idle) (r : Run) : x.place .exchange r = { x with exch := ⟨some r, none⟩ } := by
  unfold CellSt.place
  dsimp only
  rw [show x.eng .exchange = .idle from free]
  rfl

section
variable {s : State} {c held : Nat} {b : Step}

/-- The EXCHANGE step on its free engine, entered into the half sync. -/
theorem exec_stepExchange (issues : s.cellIssues c b) (is : b.cls = 5) (sound : eccAt (s.cell c).stepEcc (s.cell c).pc = none)
    (free : (s.cell c).exch = .idle) (need : (s.cell c).needsEpoch b = true) :
    exec (.stepExchange c held) s = .next ((s.setCell c { (s.cell c).issued b with
      hsEntered := (s.cell c).hsEntered + 1, exch := ⟨some ((s.cell c).mkRun b), none⟩ }).startExchange c) := by
  obtain ⟨pc, stack, execNo, tallies, after⟩ := (s.cell c).issued_same b (by omega)
  have needs : ((s.cell c).issued b).needsEpoch b = true := by rw [after]; exact need
  have place := CellSt.place_free (x := { (s.cell c).issued b with hsEntered := ((s.cell c).issued b).hsEntered + 1 })
    (by rw [after]; exact free) ((s.cell c).mkRun b)
  have entered : ((s.cell c).issued b).hsEntered = (s.cell c).hsEntered := by rw [after]
  refine congrArg Host.Outcome.next ?_
  rw [State.offer_issues is rfl issues, CellSt.corrected_sound sound]
  dsimp only
  rw [State.modCell_setCell, if_pos needs, place, entered]

end

/-! ## The exchange epoch (R273, R274) -/

/-- The exchange epoch at a cell that has entered. -/
def CellSt.epoched (x : CellSt) : CellSt := { x with hsEpochs := x.hsEpochs + 1 }

/-- A change of each cell of a list of distinct cells. -/
theorem State.cell_foldl_modCell (f : CellSt → CellSt) {l : List Nat} (distinct : l.Nodup) (s : State) (d : Nat) :
    (l.foldl (fun s c => s.modCell c f) s).cell d = if d ∈ l then f (s.cell d) else s.cell d := by
  induction l generalizing s with
  | nil => rfl
  | cons c l ih =>
    obtain ⟨fresh, distinct⟩ := List.nodup_cons.1 distinct
    rw [List.foldl_cons, ih distinct]
    by_cases at_ : d = c
    · rw [at_, if_neg fresh, if_pos List.mem_cons_self, State.cell_modCell]
    · simp [State.cell_modCell_other s at_, List.mem_cons, at_]

theorem State.foldl_modCell_same (f : CellSt → CellSt) (l : List Nat) (s : State) :
    ∃ cells, l.foldl (fun s c => s.modCell c f) s = { s with cells := cells } := by
  induction l generalizing s with
  | nil => exact ⟨_, rfl⟩
  | cons c l ih =>
    obtain ⟨cells, rest⟩ := ih (s.modCell c f)
    exact ⟨cells, rest⟩

/-- The epoch as it comes to cell `c`: a step that waits for it begins to send. -/
def State.takeEpoch (s : State) (c : Nat) : State :=
  let s := s.modCell c CellSt.epoched
  match (s.cell c).xrun with
  | some r => if r.needEpoch && !r.started && decide (r.number ≤ (s.cell c).hsEpochs) then s.startSends c else s
  | none => s

theorem State.takeEpoch_quiet {s : State} {c : Nat} (quiet : (s.cell c).xrun = none) : s.takeEpoch c = s.modCell c CellSt.epoched := by
  have still : ((s.modCell c CellSt.epoched).cell c).xrun = none := by rw [State.cell_modCell]; exact quiet
  unfold State.takeEpoch
  dsimp only
  rw [still]

/-- Where no cell has an EXCHANGE at work, the epoch begins no sending. -/
theorem State.foldl_takeEpoch {l : List Nat} {s : State} (none_ : ∀ c ∈ l, (s.cell c).xrun = none) :
    l.foldl State.takeEpoch s = l.foldl (fun s c => s.modCell c CellSt.epoched) s := by
  induction l generalizing s with
  | nil => rfl
  | cons c l ih =>
    rw [List.foldl_cons, List.foldl_cons, State.takeEpoch_quiet (none_ c List.mem_cons_self)]
    refine ih fun d mem => ?_
    by_cases at_ : d = c
    · rw [at_, State.cell_modCell]
      exact none_ c List.mem_cons_self
    · rw [State.cell_modCell_other s at_]
      exact none_ d (List.mem_cons_of_mem c mem)

section
variable {s : State} {half n : Nat}

theorem exec_exchangeEpoch_waits (waits : ∃ c ∈ s.halfCells n half, (s.cell c).hsEntered ≤ (s.cell c).hsEpochs) :
    exec (.exchangeEpoch half n) s = .next s := by
  obtain ⟨c, mem, behind⟩ := waits
  refine congrArg Host.Outcome.next (if_pos ?_)
  rw [Bool.or_eq_true, List.any_eq_true]
  exact .inr ⟨c, mem, decide_eq_true behind⟩

/-- The half's region counts as synced, and no router of the half as slipped. -/
def State.halfSynced (s : State) (half : Nat) : State :=
  { s.modRgn (half / 2) (fun x => { x with synced := true }) with
    routers := s.routers.map fun e => if halfOf e.1 = half then (e.1, { e.2 with slipped := false }) else e }

theorem exec_exchangeEpoch_comes (some_ : s.halfCells n half ≠ [])
    (entered : ∀ c ∈ s.halfCells n half, (s.cell c).hsEpochs < (s.cell c).hsEntered)
    (quiet : ∀ c ∈ s.halfCells n half, (s.cell c).xrun = none) :
    exec (.exchangeEpoch half n) s =
      .next ((s.halfCells n half).foldl (fun s c => s.modCell c CellSt.epoched) (s.halfSynced half)) := by
  refine congrArg Host.Outcome.next ((if_neg ?_).trans (State.foldl_takeEpoch (s := s.halfSynced half) quiet))
  rw [Bool.or_eq_true, List.any_eq_true, not_or, List.isEmpty_iff]
  refine ⟨some_, fun ⟨c, mem, behind⟩ => ?_⟩
  exact absurd (of_decide_eq_true behind) (Nat.not_le_of_lt (entered c mem))

end

/-- Settles O10: each completion is the cell without its step; the half sync's entry waits with nothing sent, and the epoch is a change
of each participant. -/
theorem stepsComplete : Obligations.StepsComplete := by
  unfold Obligations.StepsComplete
  refine ⟨?completes, ?issues, ?epoch⟩
  case completes =>
    intro s c wait r _ fault stopping notice x leaves
    have left {e : Engine} {y : CellSt} (runs : exec (.stepComplete c e wait) s = .next (s.setCell c y)) : leaves e y :=
      ⟨_, runs, rfl, State.cell_setCell .., State.onlyCells_setCell s c _⟩
    have engine {e : Engine} (real : e ≠ .looper) (runs : exec (.stepComplete c e wait) s = .next (s.complete c e wait))
        (on : x.eng e = ⟨some r, none⟩) (done : r.done = true) (keeps : r.bits.release = false) (other : r.bits.cls ≠ 1) :
        leaves e ((x.shown r.bits).setEng e .idle) :=
      left (runs.trans (congrArg Host.Outcome.next (State.complete_leaves real on done keeps other notice fault stopping wait)))
    refine ⟨fun occ nop => ?_, fun occ end_ idle => ?_, fun on done is keeps => ?_, fun on done is keeps => ?_, fun on done is keeps => ?_,
      fun on done plain => ?_, fun n on done enters slot => ?_⟩
    · exact left (congrArg Host.Outcome.next (State.completeLooper_nop occ nop notice fault stopping))
    · exact ⟨_, congrArg Host.Outcome.next (State.completeLooper_end occ end_ idle fault stopping), State.cell_setCell ..,
        State.onlyCells_setCell s c _, rfl⟩
    · have shown := engine (e := .vector) (by decide) rfl on done keeps (by omega)
      rwa [CellSt.shown, if_neg (by omega)] at shown
    · have shown := engine (e := .move) (by decide) rfl on done keeps (by omega)
      rwa [CellSt.shown, if_neg (by omega)] at shown
    · have shown := engine (e := .move) (by decide) rfl on done keeps (by omega)
      rwa [CellSt.shown, if_pos is] at shown
    · exact left (congrArg Host.Outcome.next (State.completeExchange_leaves on done fault notice stopping plain wait))
    · refine ⟨_, congrArg Host.Outcome.next (State.completeExchange_enters on done fault notice stopping enters slot wait),
        State.onlyCells_setCell s c _, State.cell_setCell s c _, rfl⟩
  case issues =>
    intro s c held b y ks issues is sound free quiet x z ports need behind checked
    obtain ⟨pc, stack, execNo, tallies, after⟩ := x.issued_same b (by omega)
    have zQuiet : z.xrun = none := (congrArg CellSt.xrun after).trans quiet
    have zNeed : z.needsEpoch b = true := by
      show ({ x.issued b with hsEntered := x.hsEntered + 1, exch := ⟨some (x.mkRun b), none⟩ } : CellSt).needsEpoch b = true
      rw [after]
      exact need
    have zBehind : z.hsEpochs < z.hsEntered := by
      have epochs : z.hsEpochs = x.hsEpochs := (congrArg CellSt.hsEpochs after :)
      rw [epochs]
      exact Nat.lt_succ_of_le behind
    obtain ⟨q, arrivals, tallies, marks, waits, needs, notStarted, number, entries⟩ :=
      State.startExchange_waits (s := s) (c := c) (x := z) (ports := ports) rfl zQuiet rfl checked zNeed zBehind
    refine ⟨_, q, exec_stepExchange issues is sound free need |>.trans (congrArg Host.Outcome.next waits), ?_, ?_, needs, notStarted, number,
      entries, ?_, ?_, State.onlyCells_setCell s c _, rfl⟩
    all_goals rw [State.cell_setCell]
    exact (congrArg CellSt.near after :)
  case epoch =>
    intro s half n cs
    refine ⟨exec_exchangeEpoch_waits, fun some_ distinct entered quiet => ?_⟩
    refine ⟨_, exec_exchangeEpoch_comes some_ entered quiet, fun c mem => ?_, fun c away => ?_, ?_, ?_⟩
    · rw [State.cell_foldl_modCell _ distinct, if_pos mem]
      rfl
    · rw [State.cell_foldl_modCell _ distinct, if_neg away]
      rfl
    · obtain ⟨cells, same⟩ := State.foldl_modCell_same CellSt.epoched cs (s.halfSynced half)
      rw [same]
      exact congrArg RgnSt.synced (State.rgn_setRgn s (half / 2) _)
    · obtain ⟨cells, same⟩ := State.foldl_modCell_same CellSt.epoched cs (s.halfSynced half)
      rw [same]
      rfl

end Sys2Proof.Machine

namespace Sys2Proof.Machine

open Sys2Proof

/-! # The occurrences of the event table. -/

/-! ## The fields of an entry (R525) -/

section
variable (e : BeatEntry)

theorem BeatEntry.action_extract : BeatEntry.action e = (e.extractLsb' 124 4).toNat := bits_extract 127 124 e
theorem BeatEntry.slot_extract : BeatEntry.slot e = (e.extractLsb' 121 3).toNat := bits_extract 123 121 e
theorem BeatEntry.flag_extract : BeatEntry.flag e = (e.extractLsb' 117 3).toNat := bits_extract 119 117 e

theorem BeatEntry.slot_lt : (e.extractLsb' 121 3).toNat < 8 := BitVec.isLt _

/-- The 10-bit level that an entry carries. -/
theorem BeatEntry.level : natBits 9 0 (BeatEntry.arg e) = (e.extractLsb' 0 10).toNat := by
  rw [BeatEntry.arg, bits_extract, BitVec.extractLsb'_toNat, BitVec.extractLsb'_toNat]
  simp only [natBits, Nat.shiftRight_zero]
  omega

end

/-! ## One bit of a register -/

theorem setBits_one {n : Nat} (h : n < 64) (w : Word) : setBits n n 1 w = w ||| BitVec.ofNat 64 (2 ^ n) := by
  refine BitVec.eq_of_getLsbD_eq fun j hj => ?_
  rw [done_or_bit _ _ hj]
  by_cases at_ : j = n
  · rw [at_, beq_self_eq_true, Bool.or_true]
    exact getLsbD_setBits h true w
  · rw [getLsbD_setBits_other h at_, beq_false_of_ne at_, Bool.or_false]

theorem setBits_zero {n : Nat} (h : n < 64) (w : Word) : setBits n n 0 w = w &&& ~~~BitVec.ofNat 64 (2 ^ n) := by
  refine BitVec.eq_of_getLsbD_eq fun j hj => ?_
  have mask : (BitVec.ofNat 64 (2 ^ n)).getLsbD j = (j == n) := by
    rw [BitVec.getLsbD_ofNat, Nat.testBit_two_pow]
    simp [hj, Bool.beq_eq_decide_eq, eq_comm]
  rw [BitVec.getLsbD_and, BitVec.getLsbD_not, mask]
  by_cases at_ : j = n
  · rw [at_, beq_self_eq_true]
    exact (getLsbD_setBits h false w).trans (by simp)
  · rw [getLsbD_setBits_other h at_, beq_false_of_ne at_]
    simp [hj]

/-! ## What an occurrence does when its message comes (R528, log 77) -/

section
variable {s : State} {m : Instr} {i : Nat} {act : State → Nat → BeatEntry → State}

theorem State.onEvent_absent (absent : m ∉ s.inFlight) : s.onEvent m i act = s :=
  if_neg (by simpa using absent)

theorem State.onEvent_comes (comes : m ∈ s.inFlight) :
    s.onEvent m i act = act (s.deliver m) ((s.entryOf i).extractLsb' 121 3).toNat (s.entryOf i) := by
  rw [← BeatEntry.slot_extract]
  exact if_pos (by simpa using comes)

end

/-! ## The schedule of a slot -/

section
variable (s : State) (n : Nat) (x : BeatSlot)

@[simp] theorem State.sched_setSched : (s.setSched n x).sched n = x := Tbl.get_put ..
theorem State.sched_setSched_other {m : Nat} (h : m ≠ n) : (s.setSched n x).sched m = s.sched m := Tbl.get_put_other _ h ..

/-- The first open occurrence of entry `i` closes. -/
theorem BeatSlot.shut_head {x : BeatSlot} {i c : Nat} {rest : List (Nat × Nat)} (first : x.opens = (i, c) :: rest) :
    x.shut i = { x with opens := rest } := by
  unfold BeatSlot.shut
  rw [first, List.find?_cons_of_pos (by simp)]
  simp

end

/-! ## A new beat window begins at the stations (R468) -/

theorem State.sky_map_warned (s : State) (p : Nat) :
    ({ s with skys := s.skys.map (fun e => (e.1, { e.2 with warned := false })) } : State).sky p = { s.sky p with warned := false } := by
  have found := Tbl.find_map (fun _ (x : SkyPort) => { x with warned := false }) p s.skys
  simp only [State.sky, Tbl.get, found]
  cases Tbl.find p s.skys <;> rfl

/-! ## The slot's pending messages (R525) -/

theorem State.toModule_here (s : State) (m : Instr) : s.toModule s.moduleNo m = s.send m := if_pos rfl

theorem State.releaseMail_reds (s : State) (n : Nat) : (s.releaseMail n).reds = (s.modRed n (fun x => { x with mail := [] })).reds :=
  same_of_blur (foldl_blur 0x101e _ (fun s (e : Nat × Instr) => State.toModule_blur 0x101e rfl s e.1 e.2) (s.red n).mail _) .reds rfl

theorem State.releaseMail_red (s : State) (n : Nat) : (s.releaseMail n).red n = { s.red n with mail := [] } := by
  rw [State.red, State.releaseMail_reds]
  exact State.red_setRed ..

theorem State.releaseMail_one {s : State} {n : Nat} {m : Instr} (mail : (s.red n).mail = [(s.moduleNo, m)]) :
    s.releaseMail n = (s.modRed n (fun x => { x with mail := [] })).send m := by
  unfold State.releaseMail
  rw [mail, List.foldl_cons, List.foldl_nil]
  exact State.toModule_here (s.modRed n _) m

theorem State.releaseMail_none {s : State} {n : Nat} (mail : (s.red n).mail = []) :
    s.releaseMail n = s.modRed n (fun x => { x with mail := [] }) := by
  unfold State.releaseMail
  rw [mail, List.foldl_nil]

theorem State.onlyRed_releaseMail (s : State) (n : Nat) : s.onlyRed (s.releaseMail n) n := by
  intro m other
  rw [State.red, State.releaseMail_reds]
  exact State.red_setRed_other s other _

/-- With no confirmation that waits for it, the end of a checkpoint does no more. -/
theorem State.endCkpt_free {s : State} {n : Nat} (free : (s.red n).waiting = none) : s.endCkpt n = s := by
  unfold State.endCkpt
  rw [free]

/-! ## Each action of the table -/

section
variable (s : State) (i : Nat)

/-- Without its message no occurrence has an effect (R528). -/
theorem exec_event_absent {m : Instr} (absent : m ∉ s.inFlight)
    (event : m ∈ [Instr.eventWindow i, .windowClose i, .eventBallast i, .eventRamp i, .eventCkpt i, .ckptEnd i, .eventDigest i, .eventKat i]) :
    exec m s = .next s := by
  simp only [List.mem_cons, List.not_mem_nil, or_false] at event
  rcases event with rfl | rfl | rfl | rfl | rfl | rfl | rfl | rfl
  all_goals exact congrArg Host.Outcome.next (State.onEvent_absent absent)

end

section
variable {s : State} {i c : Nat} {rest : List (Nat × Nat)}

/-- The slot's schedule with `opens` still open. -/
def State.leftOpen (s : State) (n : Nat) (opens : List (Nat × Nat)) : State := s.setSched n { s.sched n with opens := opens }

/-- The open occurrence is a WINDOW on flag `k`. -/
def State.opensFlag (s : State) (k : Nat) (o : Nat × Nat) : Bool :=
  BeatEntry.action (s.entryOf o.1) == 1 && BeatEntry.flag (s.entryOf o.1) == k

theorem State.opensFlag_iff {k : Nat} {o : Nat × Nat} : s.opensFlag k o = true ↔
    ((s.entryOf o.1).extractLsb' 124 4).toNat = 1 ∧ ((s.entryOf o.1).extractLsb' 117 3).toNat = k := by
  rw [State.opensFlag, BeatEntry.action_extract, BeatEntry.flag_extract, Bool.and_eq_true, beq_iff_eq, beq_iff_eq]

theorem exec_windowClose (comes : .windowClose i ∈ s.inFlight)
    (first : (s.sched ((s.entryOf i).extractLsb' 121 3).toNat).opens = (i, c) :: rest) :
    let t := (s.deliver (.windowClose i)).leftOpen ((s.entryOf i).extractLsb' 121 3).toNat rest
    let flag := ((s.entryOf i).extractLsb' 117 3).toNat
    exec (.windowClose i) s = .next (if rest.any (s.opensFlag flag) then t
      else t.send (.windowFlag ((s.entryOf i).extractLsb' 121 3).toNat flag false)) := by
  refine congrArg Host.Outcome.next ((State.onEvent_comes comes).trans ?_)
  have shut := BeatSlot.shut_head first
  dsimp only
  rw [BeatEntry.flag_extract]
  erw [shut]
  rw [State.sched_setSched]
  rfl

theorem exec_ckptEnd (comes : .ckptEnd i ∈ s.inFlight) (free : (s.red ((s.entryOf i).extractLsb' 121 3).toNat).waiting = none)
    (first : (s.sched ((s.entryOf i).extractLsb' 121 3).toNat).opens = (i, c) :: rest) :
    exec (.ckptEnd i) s = .next (((s.deliver (.ckptEnd i)).leftOpen ((s.entryOf i).extractLsb' 121 3).toNat rest).setRegF Reg.redCtrl
      ((s.entryOf i).extractLsb' 121 3).toNat ((s.entryOf i).extractLsb' 121 3).toNat 0) := by
  refine congrArg Host.Outcome.next ((State.onEvent_comes comes).trans ?_)
  have shut := BeatSlot.shut_head first
  dsimp only
  erw [shut]
  exact State.endCkpt_free free

end

/-- Settles O31: an occurrence is one change of the state that its message is taken from. -/
theorem beatEvents : Obligations.BeatEvents := by
  unfold Obligations.BeatEvents
  intro s i e n flag arg x sameFlag shut ckpt
  have small : n < 64 := Nat.lt_trans (BeatEntry.slot_lt e) (by decide)
  have shuts {m : Instr} {rest : List (Nat × Nat)} {t : State} (beats : t.beats = ((s.deliver m).leftOpen n rest).beats) : shut t rest := by
    have sched (k : Nat) : t.sched k = ((s.deliver m).leftOpen n rest).sched k := congrArg (fun b => b.slots.get .reset k) beats
    refine ⟨(sched n).trans (State.sched_setSched ..), fun k other => (sched k).trans (State.sched_setSched_other _ _ _ other), ?_⟩
    rw [beats]
    rfl
  refine ⟨fun m event absent => exec_event_absent s i absent event, fun comes => ?window, fun comes c rest first => ?close,
    fun comes => ?ballast, fun comes => ?ramp, fun comes => ?ckpt, fun comes free c rest first => ?ckptEnd, fun comes => ?digest⟩
  case window =>
    refine ⟨_, congrArg Host.Outcome.next (State.onEvent_comes comes), ?_, fun p => ?_, fun ⟨c, mem⟩ => ?_, fun none_ => ?_⟩
    · dsimp only
      split <;> rfl
    · dsimp only
      split
      · exact State.sky_map_warned (s.deliver _) p
      · exact State.sky_map_warned (s.deliver _) p
    · refine (congrArg State.inFlight (if_pos (List.any_eq_true.2 ⟨(i, c), mem, beq_self_eq_true i⟩))).trans ?_
      rw [BeatEntry.flag_extract]
      rfl
    · refine congrArg State.inFlight (if_neg fun open_ => ?_)
      obtain ⟨⟨j, c⟩, mem, same⟩ := List.any_eq_true.1 open_
      exact none_ c (eq_of_beq same ▸ mem)
  case close =>
    have run := exec_windowClose comes first
    have any : rest.any (s.opensFlag flag) = true ↔ ∃ o ∈ rest, sameFlag o :=
      List.any_eq_true.trans (exists_congr fun o => and_congr_right fun _ => State.opensFlag_iff)
    by_cases open_ : rest.any (s.opensFlag flag) = true
    · refine ⟨_, run.trans (congrArg Host.Outcome.next (if_pos open_)), shuts rfl, rfl, fun _ => rfl, fun none_ => ?_⟩
      obtain ⟨o, mem, same⟩ := any.1 open_
      exact absurd same (none_ o mem)
    · exact ⟨_, run.trans (congrArg Host.Outcome.next (if_neg open_)), shuts rfl, rfl, fun some_ => absurd (any.2 some_) open_, fun _ => rfl⟩
  case ballast =>
    refine ⟨_, congrArg Host.Outcome.next (State.onEvent_comes comes), ?_, fun m other => Tbl.get_put_other _ other .., rfl, rfl⟩
    rw [BeatEntry.level]
    exact Tbl.get_put ..
  case ramp =>
    refine congrArg Host.Outcome.next ((State.onEvent_comes comes).trans ?_)
    rw [BeatEntry.level]
    rfl
  case ckpt =>
    refine ⟨_, congrArg Host.Outcome.next (State.onEvent_comes comes), ?_, fun a other => ?_, rfl⟩
    · exact (State.reg_setReg ..).trans (setBits_one small _)
    · exact State.reg_setRegF_other _ (by simpa using other) ..
  case ckptEnd =>
    refine ⟨_, exec_ckptEnd comes free first, ?_, fun a other => ?_, shuts rfl, rfl⟩
    · exact (State.reg_setReg ..).trans (setBits_zero small _)
    · exact State.reg_setRegF_other _ (by simpa using other) ..
  case digest =>
    refine ⟨_, congrArg Host.Outcome.next (State.onEvent_comes comes), ?_, State.releaseMail_red (s.deliver _) n,
      State.onlyRed_releaseMail (s.deliver _) n, fun m mail => ?_, fun mail => ?_⟩
    · rw [State.releaseMail_red]
    · rw [State.releaseMail_one (s := s.deliver (.eventDigest i)) mail]
      rfl
    · rw [State.releaseMail_none (s := s.deliver (.eventDigest i)) mail]
      exact ⟨rfl, rfl⟩

end Sys2Proof.Machine

namespace Sys2Proof.Machine

open Sys2Proof

/-! # Jobs: start, drain, origin, restart and the staging check. -/

/-! ## A register's own operation through the arbiter (R2) -/

section
variable {s u : State} {src : Src} {a : Nat} {w : Word} (open_ : s.regSilent a = false) (works : s.boot.stage ≠ 7)
include open_ works

theorem State.through_taken : (s.through src a w (judged (u, true))).1 = u :=
  congrArg Prod.fst (State.through_ok open_ (.inl works) (show Kct.ok ≠ Kct.rejected by decide))

theorem State.through_refused (n : Nat) (low : a < 2 ^ 32) : (s.through src a w (judged (u.reject (some n), false))).1 =
    { u with inFlight := u.inFlight ++ [.faultNotice ⟨0x4071, some n, srcSession src, a, 15⟩] } := by
  rw [← State.tagged_reject u (some n) 0 _ _ low]
  exact congrArg Prod.fst (State.through_rejected (t := u.reject (some n)) open_ works)

end

theorem State.regSilent_modJobCtrl {s : State} (works : s.boot.stage ≠ 7) : s.regSilent Reg.modJobCtrl = false := by
  have range : fmRange Reg.modJobCtrl = none := by decide
  simp [State.regSilent, range, works]

theorem State.regSilent_fltJob {s : State} {n : Nat} (slot : n < 8) (works : s.boot.stage ≠ 7) : s.regSilent (Reg.fltJob n) = false := by
  have range : ∀ n, n < 8 → fmRange (Reg.fltJob n) = none := by decide
  simp [State.regSilent, range n slot, works]

/-! ## Start and drain (R622, R623) -/

@[simp] theorem State.job_setJob (s : State) (n : Nat) (x : JobSt) : (s.setJob n x).job n = x := Tbl.get_put ..
theorem State.job_setJob_other (s : State) {n m : Nat} (h : m ≠ n) (x : JobSt) : (s.setJob n x).job m = s.job m := Tbl.get_put_other _ h ..

/-- The state with the fields of MOD_JOB_CTRL that a write holds. -/
def State.jobCtrlSet (s : State) (v : Word) : State :=
  (s.setRegF Reg.modJobCtrl 61 59 (bits 61 59 v)).setRegF Reg.modJobCtrl 11 0 (bits 11 0 v)

/-- The origin tick as R527 gives it, and what a start needs (R622). -/
def State.startOrigin (s : State) (n : Nat) : Nat :=
  if (s.reg (Reg.beatOrigin n)).toNat ≤ (s.reg Reg.beatCounter).toNat then (s.reg Reg.beatCounter).toNat + 1
  else (s.reg (Reg.beatOrigin n)).toNat

def State.startFree (s : State) (n : Nat) : Prop :=
  (s.slot n).state = .loaded ∧ s.jobState n ∈ [0, 4, 7] ∧ (s.reg Reg.modCtrl).getLsbD 62 = false ∧
    (s.boot.stage = 6 ∨ s.boot.stage = 8) ∧ (s.job n).armed = none ∧
    ((s.sched n).members = [] ∨ s.beats.state = .locked ∨ s.beats.state = .holdover)

theorem State.mayStart_iff (s : State) (n : Nat) : s.mayStart n = true ↔ s.startFree n := by
  have retired : s.retired = (s.reg Reg.modCtrl).getLsbD 62 := rfl
  simp only [State.mayStart, State.startFree, retired, Bool.and_eq_true, Bool.or_eq_true, beq_iff_eq, List.contains_iff_mem, Bool.not_eq_true',
    Option.isNone_iff_eq_none, List.isEmpty_iff, and_assoc, or_assoc]

theorem Reg.fltJob_ne (n : Nat) : Reg.fltJob n ≠ Reg.modJobCtrl := by unfold Reg.fltJob Reg.modJobCtrl; omega

theorem State.mayStart_of_regs {s t : State} {n : Nat} (same : t = { s with regs := t.regs }) (state : t.jobState n = s.jobState n)
    (retired : t.retired = s.retired) : t.mayStart n = s.mayStart n := by
  have others : t.slot n = s.slot n ∧ t.boot = s.boot ∧ t.job n = s.job n ∧ t.sched n = s.sched n ∧ t.beats = s.beats := by
    generalize t.regs = regs at same
    subst same
    exact ⟨rfl, rfl, rfl, rfl, rfl⟩
  obtain ⟨slot, boot, job, sched, beats⟩ := others
  unfold State.mayStart
  rw [state, retired, slot, boot, job, sched, beats]

section
variable (s : State) (v : Word)

theorem State.reg_jobCtrlSet {a : Nat} (other : a ≠ Reg.modJobCtrl) : (s.jobCtrlSet v).reg a = s.reg a :=
  (State.reg_setRegF_other _ other ..).trans (State.reg_setRegF_other _ other ..)

theorem State.onlyRegs_jobCtrlSet : s.onlyRegs (s.jobCtrlSet v) [Reg.modJobCtrl] := fun _ other =>
  s.reg_jobCtrlSet v (by simpa using other)

theorem State.jobState_jobCtrlSet (n : Nat) : (s.jobCtrlSet v).jobState n = s.jobState n :=
  congrArg (bits 3 0) (s.reg_jobCtrlSet v (Reg.fltJob_ne n))

theorem State.jobCtrlSet_same : s.jobCtrlSet v = { s with regs := (s.jobCtrlSet v).regs } :=
  State.setRegF_same (State.setRegF_same rfl ..) ..

/-- A write sets the register's fields, and then starts, drains or both. -/
theorem State.writeJobCtrl_set : s.writeJobCtrl v =
    (let u := s.jobCtrlSet v
     let a := if !bit 63 v then (u, true)
       else if u.mayStart (bits 61 59 v) then (u.armJob (bits 61 59 v) (bits 11 0 v), true)
       else (u.reject (some (bits 61 59 v)), false)
     if !bit 62 v then a
     else
       let b := a.1.drainJob (bits 61 59 v)
       (b.1, a.2 && b.2)) := rfl

theorem State.mayStart_jobCtrlSet (n : Nat) : (s.jobCtrlSet v).mayStart n = s.mayStart n :=
  State.mayStart_of_regs (s.jobCtrlSet_same v) (s.jobState_jobCtrlSet v n) (congrArg (bit 62) (s.reg_jobCtrlSet v (by decide)))

theorem State.originTick_jobCtrlSet (n : Nat) : (s.jobCtrlSet v).originTick n = s.startOrigin n := by
  have origin := s.reg_jobCtrlSet v (a := Reg.beatOrigin n) (by unfold Reg.beatOrigin Reg.modJobCtrl; omega)
  have beat := s.reg_jobCtrlSet v (a := Reg.beatCounter) (by decide)
  unfold State.originTick State.beat State.startOrigin
  rw [origin, beat]

/-- The state after such a write, but for the register's own value. -/
theorem State.jobCtrlSet_keeps (n : Nat) : ∃ t, s.jobCtrlSet v = t ∧ s.onlyRegs t [Reg.modJobCtrl] ∧ t.originTick n = s.startOrigin n ∧
    ∃ regs, t = { s with regs := regs } :=
  ⟨_, rfl, s.onlyRegs_jobCtrlSet v, s.originTick_jobCtrlSet v n, _, s.jobCtrlSet_same v⟩

variable {s v}

theorem State.writeJobCtrl_start (start : v.getLsbD 63 = true) (noDrain : v.getLsbD 62 = false) :
    s.writeJobCtrl v = if s.mayStart (bits 61 59 v) then ((s.jobCtrlSet v).armJob (bits 61 59 v) (bits 11 0 v), true)
      else ((s.jobCtrlSet v).reject (some (bits 61 59 v)), false) := by
  have go : bit 63 v = true := start
  have stay : bit 62 v = false := noDrain
  rw [← State.mayStart_jobCtrlSet s v, State.writeJobCtrl_set]
  generalize s.jobCtrlSet v = u
  simp only [go, stay, Bool.not_true, Bool.not_false, Bool.false_eq_true, if_true, if_false]

theorem State.writeJobCtrl_drain (drain : v.getLsbD 62 = true) (noStart : v.getLsbD 63 = false) :
    s.writeJobCtrl v = (s.jobCtrlSet v).drainJob (bits 61 59 v) := by
  have go : bit 62 v = true := drain
  have stay : bit 63 v = false := noStart
  rw [State.writeJobCtrl_set]
  generalize s.jobCtrlSet v = u
  simp only [go, stay, Bool.not_true, Bool.not_false, Bool.false_eq_true, if_true, if_false, Bool.true_and, Prod.mk.eta]

end

section
variable {s u : State} {src : Src} {v : Word} (works : s.boot.stage ≠ 7)
include works

theorem State.hostWrite_modJobCtrl_taken (write : s.writeJobCtrl v = (u, true)) : s.hostWrite src Reg.modJobCtrl v = u := by
  rw [State.hostWrite_modJobCtrl, write]
  exact State.through_taken (State.regSilent_modJobCtrl works) works

theorem State.hostWrite_modJobCtrl_refused {n : Nat} (write : s.writeJobCtrl v = (u.reject (some n), false)) :
    s.hostWrite src Reg.modJobCtrl v =
      { u with inFlight := u.inFlight ++ [.faultNotice ⟨0x4071, some n, srcSession src, Reg.modJobCtrl, 15⟩] } := by
  rw [State.hostWrite_modJobCtrl, write]
  exact State.through_refused (State.regSilent_modJobCtrl works) works n (by decide)

end

/-! ## Restart (R584) -/

section
variable {s u : State} {src : Src} {n : Nat} {v : Word}

theorem State.writeJob_restart (restart : v.getLsbD 8 = true) :
    s.writeJob n v = if s.jobState n = 3 ∨ s.jobState n = 4 then (s.startRepair n, true) else (s.reject (some n), false) := by
  have go : bit 8 v = true := restart
  unfold State.writeJob
  simp only [go, Bool.not_true, Bool.false_eq_true, if_false]

theorem State.writeJob_plain (plain : v.getLsbD 8 = false) : s.writeJob n v = (s, true) := by
  have stay : bit 8 v = false := plain
  unfold State.writeJob
  rw [stay]
  rfl

variable (slot : n < 8) (works : s.boot.stage ≠ 7)
include slot works

theorem State.hostWrite_fltJob_taken (write : s.writeJob n v = (u, true)) : s.hostWrite src (Reg.fltJob n) v = u := by
  rw [State.hostWrite_fltJob s src v n slot, write]
  exact State.through_taken (State.regSilent_fltJob slot works) works

theorem State.hostWrite_fltJob_refused (write : s.writeJob n v = (u.reject (some n), false)) :
    s.hostWrite src (Reg.fltJob n) v =
      { u with inFlight := u.inFlight ++ [.faultNotice ⟨0x4071, some n, srcSession src, Reg.fltJob n, 15⟩] } := by
  rw [State.hostWrite_fltJob s src v n slot, write]
  exact State.through_refused (State.regSilent_fltJob slot works) works n (by unfold Reg.fltJob; omega)

end

/-! ## The state of a job (R581) -/

section
variable (s : State) (n k : Nat)

theorem State.jobState_setJobState (small : k < 16) : (s.setJobState n k).jobState n = k :=
  (State.regF_setRegF s _ (by decide) (by decide) k).trans (Nat.mod_eq_of_lt small)

theorem State.regF_setJobState {hi lo : Nat} (above : 3 < lo) : (s.setJobState n k).regF (Reg.fltJob n) hi lo = s.regF (Reg.fltJob n) hi lo :=
  State.regF_setRegF_field s _ (by decide) (by decide) (.inr above) k

/-- The cause that FLT_JOB shows. -/
theorem State.cause_setCause (code idx : Nat) (fits : code < 2 ^ 16) : (s.setCause n code idx).regF (Reg.fltJob n) 63 48 = code :=
  (State.regF_setRegF_field _ _ (by decide) (by decide) (.inr (by decide)) idx).trans
    ((State.regF_setRegF s _ (by decide) (by decide) code).trans (Nat.mod_eq_of_lt fits))

theorem State.onlyRegs_setCause (code idx : Nat) : s.onlyRegs (s.setCause n code idx) [Reg.fltJob n] := fun a other => by
  have apart : a ≠ Reg.fltJob n := by simpa using other
  exact (State.reg_setRegF_other _ apart ..).trans (State.reg_setRegF_other s apart ..)

theorem State.onlyRegs_setJobState : s.onlyRegs (s.setJobState n k) [Reg.fltJob n] := fun _ other =>
  State.reg_setRegF_other s (by simpa using other) ..

/-- A job shown in state `k`. -/
theorem State.setJobState_keeps (small : k < 16) : ∃ u, s.setJobState n k = u ∧ u.jobState n = k ∧
    u.regF (Reg.fltJob n) 63 4 = s.regF (Reg.fltJob n) 63 4 ∧ s.onlyRegs u [Reg.fltJob n] ∧ ∃ regs, u = { s with regs := regs } :=
  ⟨_, rfl, s.jobState_setJobState n k small, s.regF_setJobState n k (by decide), s.onlyRegs_setJobState n k, _, State.setRegF_same rfl ..⟩

/-- A job shown as REPAIRED, and counted. -/
theorem State.repaired_keeps : ∃ u, (s.setJobState n 7).satReg (Reg.fltJob n) 23 16 1 = u ∧ u.jobState n = 7 ∧
    u.regF (Reg.fltJob n) 23 16 = min (s.regF (Reg.fltJob n) 23 16 + 1) 255 ∧ s.onlyRegs u [Reg.fltJob n] ∧
    ∃ regs, u = { s with regs := regs } := by
  have count := State.regF_satReg (s.setJobState n 7) (Reg.fltJob n) (show 16 ≤ 23 by decide) (by decide) 1
  rw [s.regF_setJobState n 7 (by decide)] at count
  exact ⟨_, rfl, (State.regF_setRegF_field _ _ (by decide) (by decide) (.inl (by decide)) _).trans (s.jobState_setJobState n 7 (by decide)), count,
    fun a other => (State.reg_satReg_other _ (by simpa using other) ..).trans (s.onlyRegs_setJobState n 7 a other), _,
    State.setRegF_same (State.setRegF_same rfl ..) ..⟩

end

/-- A job shown as FAULTED with its cause. -/
theorem State.faulted_keeps (s : State) (n code : Nat) (fits : code < 2 ^ 16) : ∃ u, (s.setCause n code 0).setJobState n 3 = u ∧
    u.jobState n = 3 ∧ u.regF (Reg.fltJob n) 63 48 = code ∧ s.onlyRegs u [Reg.fltJob n] ∧ ∃ regs, u = { s with regs := regs } :=
  ⟨_, rfl, State.jobState_setJobState _ n 3 (by decide), (State.regF_setJobState _ n 3 (by decide)).trans (s.cause_setCause n code 0 fits),
    fun a other => (State.onlyRegs_setJobState _ n 3 a other).trans (s.onlyRegs_setCause n code 0 a other), _,
    State.setRegF_same (State.setRegF_same (State.setRegF_same rfl ..) ..) ..⟩

/-! ## The staging check (R584 steps 1 and 2) -/

theorem State.recoverLost_none {s : State} {n : Nat} (lost : s.lostRegions n = []) : s.recoverLost n = s.endRepair n := by
  unfold State.recoverLost
  rw [lost]
  rfl

section
variable {s : State} {n : Nat} {p : RepairSt} (repair : (s.job n).repair = some p)
include repair

theorem exec_stagingCheckDone_late (late : p.step ≠ 1) : exec (.stagingCheckDone n) s = .next s := by
  refine congrArg Host.Outcome.next ?_
  rw [State.repair, repair]
  exact if_pos late

theorem exec_stagingCheckDone_differs (first : p.step = 1) (differs : s.stagedSame n = false) :
    exec (.stagingCheckDone n) s =
      .next ((((s.setRepair n none).setCause n 0x40A4 0).setJobState n 3).raise 0x40A4 (some n) 0 0) := by
  refine congrArg Host.Outcome.next ?_
  rw [State.repair, repair]
  dsimp only
  rw [if_neg (by omega), differs, Bool.not_false, if_pos rfl, State.failRepair, if_neg (by decide)]

/-- With nothing fenced and nothing lost the repair has nothing to do. -/
theorem exec_stagingCheckDone_clean (first : p.step = 1) (same : s.stagedSame n = true) (blocks : p.blocks = [])
    (fenced : s.fencedCells n = []) (lost : s.lostRegions n = []) :
    exec (.stagingCheckDone n) s = .next ((s.setRepair n (some { p with step := 3, regions := [] })).endRepair n) := by
  have hw : s.fencedHw n = [] := by rw [State.fencedHw, fenced, List.filter_nil]
  have regions : (s.slot n).rect.regions.filter (fun r => (s.fencedCells n).any (fun c => regionOf c == r) && (s.breaker r == 0)) = [] := by
    rw [fenced]
    exact List.filter_eq_nil_iff.2 fun r _ => by simp
  have going : (s.setRepair n (some { p with step := 3, regions := [] })).repair n = some { p with step := 3, regions := [] } :=
    congrArg JobSt.repair (State.job_setJob ..)
  have lost' : (s.setRepair n (some { p with step := 3, regions := [] })).lostRegions n = [] := lost
  refine congrArg Host.Outcome.next ?_
  rw [State.repair, repair]
  dsimp only
  rw [if_neg (by omega), same, hw, regions]
  simp only [Bool.not_true, Bool.false_eq_true, if_false, List.isEmpty_nil, if_true, State.sparesServe, List.all_nil]
  unfold State.afterRestarts
  rw [going]
  exact (if_pos (List.isEmpty_iff.2 blocks)).trans (State.recoverLost_none lost')

end
/-! ## The schedule fires (R527, R528) -/

/-- Occurrences of the schedule of slot `n` that fire: BEAT_EVENTS alone of the registers counts, the schedule goes on from its origin,
and no message is lost. -/
structure State.Fires (n : Nat) (s t : State) : Prop where
  regs : s.onlyRegs t [Reg.beatEvents]
  state : (t.sched n).state = (s.sched n).state
  origin : (t.sched n).origin = (s.sched n).origin
  shift : (t.sched n).shift = (s.sched n).shift
  sent : ∀ m ∈ s.inFlight, m ∈ t.inFlight

section
variable {s t u : State} {n : Nat}

theorem State.Fires.refl (n : Nat) (s : State) : State.Fires n s s := ⟨fun _ _ => rfl, rfl, rfl, rfl, fun _ h => h⟩

theorem State.Fires.trans (h : State.Fires n s t) (k : State.Fires n t u) : State.Fires n s u :=
  ⟨fun a other => (k.regs a other).trans (h.regs a other), k.state.trans h.state, k.origin.trans h.origin, k.shift.trans h.shift,
    fun m mem => k.sent m (h.sent m mem)⟩

theorem State.Fires.ite {c : Prop} [Decidable c] (ht : State.Fires n s t) (hu : State.Fires n s u) : State.Fires n s (if c then t else u) := by
  split
  · exact ht
  · exact hu

theorem State.Fires.foldl {β : Type} {g : State → β → State} (h : ∀ s x, State.Fires n s (g s x)) (l : List β) (s : State) :
    State.Fires n s (l.foldl g s) :=
  List.foldlRecOn (motive := fun t => State.Fires n s t) l g (.refl n s) fun t ht x _ => ht.trans (h t x)

theorem State.Fires.count (h : State.Fires n s t) {v : State} (regs : t.onlyRegs v [Reg.beatEvents]) (beats : v.beats = t.beats)
    (flight : v.inFlight = t.inFlight) : State.Fires n s v := by
  have sched : v.sched n = t.sched n := congrArg (fun b => b.slots.get .reset n) beats
  exact h.trans ⟨regs, by rw [sched], by rw [sched], by rw [sched], fun m mem => flight ▸ mem⟩

theorem State.Fires.send (h : State.Fires n s t) (m : Instr) : State.Fires n s (t.send m) :=
  h.trans ⟨fun _ _ => rfl, rfl, rfl, rfl, fun _ mem => List.mem_append_left _ mem⟩

theorem State.onlyRegs_addReg (s : State) (a hi lo v : Nat) : s.onlyRegs (s.addReg a hi lo v) [a] := fun _ other =>
  State.reg_addReg_other s (by simpa using other) ..

theorem State.onlyRegs_satReg (s : State) (a hi lo v : Nat) : s.onlyRegs (s.satReg a hi lo v) [a] := fun _ other =>
  State.reg_satReg_other s (by simpa using other) ..

theorem State.fires_fire (s : State) (n i close : Nat) (e : BeatEntry) : State.Fires n s (s.fire n i close e) := by
  have opened (l : List (Nat × Nat)) :
      State.Fires n s (if BeatEntry.action e = 1 ∨ BeatEntry.action e = 4 then s.setSched n { s.sched n with opens := l } else s) := by
    split
    · exact ⟨fun _ _ => rfl, by rw [State.sched_setSched], by rw [State.sched_setSched], by rw [State.sched_setSched], fun _ h => h⟩
    · exact .refl n s
  have counted (l : List (Nat × Nat)) :=
    (opened l).count (State.onlyRegs_addReg _ Reg.beatEvents 31 0 1) (State.addReg_beats ..) (State.addReg_inFlight ..)
  unfold State.fire
  dsimp only
  split
  · exact (counted _).send _
  · exact counted _

theorem State.fires_fireEntry (s : State) (n i : Nat) (e : BeatEntry) : State.Fires n s (s.fireEntry n i e) := by
  have next (l : Tbl Nat) : State.Fires n s (s.setBeat { s.beats with next := l }) := ⟨fun _ _ => rfl, rfl, rfl, rfl, fun _ h => h⟩
  have fired (l : Tbl Nat) (live : List Nat) (close : Nat → Nat) :=
    (next l).trans (.foldl (fun t k => State.fires_fire t n i (close k) e) live _)
  unfold State.fireEntry
  dsimp only
  exact .ite (.refl n s) (.ite (fired _ _ _)
    ((fired _ _ _).count (State.onlyRegs_satReg _ Reg.beatEvents 62 48 _) (State.satReg_beats ..) (State.satReg_inFlight ..)))

theorem State.fires_fireSlot (s : State) (n : Nat) : State.Fires n s (s.fireSlot n) := by
  unfold State.fireSlot
  exact .ite (.foldl (fun t (e : Nat × BeatEntry) => State.fires_fireEntry t n e.1 e.2) _ s) (.refl n s)

/-- The schedule of slot `n` from its origin, before its first occurrences. -/
def State.schedBegun (s : State) (n origin : Nat) : State :=
  let s := s.setSched n { s.sched n with state := .running, origin := origin, opens := [], shift := 0, slacks := [] }
  s.setBeat { s.beats with next := s.beats.next.filter (fun (e : Nat × Nat) => BeatEntry.slot (s.entryOf e.1) != n) }

theorem State.sched_schedBegun (s : State) (n origin : Nat) : (s.schedBegun n origin).sched n =
    { s.sched n with state := .running, origin := origin, opens := [], shift := 0, slacks := [] } := Tbl.get_put ..

theorem State.startSched_begun (s : State) (n origin : Nat) : s.startSched n origin = (s.schedBegun n origin).fireSlot n := rfl

theorem State.reg_schedBegun (s : State) (n origin a : Nat) : (s.schedBegun n origin).reg a = s.reg a := rfl

theorem State.schedBegun_blur {μ : Nat} (hμ : 0x800000 &&& μ = 0x800000) (s : State) (n origin : Nat) :
    (s.schedBegun n origin).blur μ = s.blur μ :=
  (State.setBeat_blur μ hμ _ _).trans (State.setSched_blur μ hμ s n _)

end

/-! ## The targets of a job's slot -/

theorem Tbl.mem_of_find {α : Type} {t : Tbl α} {k : Nat} {x : α} (found : t.find k = some x) : (k, x) ∈ t := by
  induction t with
  | nil => exact absurd found (by simp)
  | cons e t ih =>
    obtain ⟨j, v⟩ := e
    by_cases same : j = k
    · have head : v = x := by simpa [Tbl.find, same] using found
      rw [same, head]
      exact List.mem_cons_self
    · exact List.mem_cons_of_mem _ (ih (by simpa [Tbl.find, same] using found))

section
variable {s : State} {n c : Nat} {f : FmId}

/-- The cell is listed and configured. -/
def State.CellUp (s : State) (c : Nat) : Prop := ∃ x, s.cells.find c = some x ∧ x.configured = true

theorem State.CellUp.modCell (h : s.CellUp c) (d : Nat) {g : CellSt → CellSt} (keeps : ∀ x, x.configured = true → (g x).configured = true) :
    (s.modCell d g).CellUp c := by
  obtain ⟨x, found, up⟩ := h
  by_cases same : c = d
  · have here : s.cell d = x := by rw [← same, State.cell, found]
    exact ⟨g (s.cell d), by rw [same]; exact Tbl.find_put .., by rw [here]; exact keeps x up⟩
  · exact ⟨x, (Tbl.find_put_other same _ _).trans found, up⟩

theorem State.CellUp.mem_slotCells (h : s.CellUp c) (inside : (s.slot n).rect.has (regionOf c) = true) : c ∈ s.slotCells n := by
  obtain ⟨x, found, up⟩ := h
  exact List.mem_map.2 ⟨(c, x), List.mem_filter.2 ⟨Tbl.mem_of_find found, by simp [up, inside]⟩, rfl⟩

theorem State.FmUp.mem_slotFms (h : s.FmUp f) (wf : wfFm f = true) (inside : (s.slot n).rect.has f.region = true) : f ∈ s.slotFms n := by
  obtain ⟨x, found, up⟩ := h
  exact List.mem_map.2 ⟨(fmKey f, x), List.mem_filter.2 ⟨Tbl.mem_of_find found, by simp [up, inside, fmOfKey_fmKey wf]⟩, fmOfKey_fmKey wf⟩

end

/-! ## Foreman programs begin (R126) -/

/-- The foreman's program is at its start. -/
structure FmSt.Begun (x : FmSt) : Prop where
  prog : x.prog = .running
  pc : x.pc = 0
  zero : ∀ k, x.s k = 0

theorem FmSt.begin_begun {x : FmSt} (up : x.begin.configured = true) : x.begin.Begun := by
  unfold FmSt.begin at up ⊢
  split
  case isTrue =>
    refine ⟨rfl, rfl, fun k => ?_⟩
    unfold FmSt.s
    by_cases small : k < 32
    · simp [small]
    · simp [small]
  case isFalse down => rw [if_neg down] at up; exact absurd up down

theorem FmSt.begin_configured (x : FmSt) : x.begin.configured = x.configured := by
  unfold FmSt.begin
  split <;> rfl

/-- A configured foreman of the list has begun, and stays configured. -/
theorem State.begun_foldl {f : FmId} {l : List FmId} (mem : f ∈ l) {s : State} (up : s.FmUp f) :
    ((l.foldl (fun s f => s.modFm f FmSt.begin) s).fm f).Begun := by
  have stays : (l.foldl (fun s f => s.modFm f FmSt.begin) s).FmUp f :=
    List.foldlRecOn (motive := fun t : State => t.FmUp f) _ _ up fun t ht k _ => ht.modFm k fun x on => (x.begin_configured).trans on
  obtain ⟨x, found, on⟩ := stays
  have begun := foldl_reaches (P := fun t : State => ∀ x, t.fms.find (fmKey f) = some x → x.configured = true → x.Begun) mem
    (fun t x found on => ?_) (fun t k ht x found on => ?_) s x found on
  · unfold State.fm
    rwa [found]
  · obtain rfl : (t.fm f).begin = x := Option.some.inj ((Tbl.find_put ..).symm.trans found)
    exact FmSt.begin_begun on
  · by_cases key : fmKey f = fmKey k
    · obtain rfl : (t.fm k).begin = x := Option.some.inj ((Tbl.find_put ..).symm.trans (key ▸ found))
      exact FmSt.begin_begun on
    · exact ht x ((Tbl.find_put_other key _ _).symm.trans found) on

/-! ## A job begins at its origin (R126, R313, R527, R556, R622) -/

section
variable (s : State) (n : Nat)

/-- The slot's barriers and its cells' counts begun anew. -/
def State.counted : State :=
  ((s.clearBarriers n).slotCells n).foldl (fun s c => s.modCell c CellSt.countAnew) (s.clearBarriers n)

/-- The slot's foreman programs at their start too. -/
def State.readied : State := ((s.counted n).slotFms n).foldl (fun s f => s.modFm f FmSt.begin) (s.counted n)

/-- Every configured looper is sent its START. -/
def State.ordered : State :=
  (s.readied n).sendAll (((s.readied n).slotCells n).map (fun c => Instr.looperStart c ((s.readied n).job n).index))

/-- The job begun but for FLT_JOB and its schedule. -/
def State.jobOrdered : State := (((s.ordered n).startStream n).takeHold n).modJob n (fun x => { x with armed := none, replay := none })

theorem State.beginJob_started (o : Nat) : s.beginJob n o = ((s.jobOrdered n).setJobState n 1).startSched n o := rfl

theorem State.beginJob_begun (o : Nat) : s.beginJob n o = (((s.jobOrdered n).setJobState n 1).schedBegun n o).fireSlot n := by
  rw [State.beginJob_started, State.startSched_begun]

section
variable {μ : Nat}

theorem State.counted_blur (hμ : 0x4e0 &&& μ = 0x4e0) : (s.counted n).blur μ = s.blur μ :=
  (foldl_blur μ _ (fun s c => State.modCell_blur μ (maskSub rfl hμ) s c _) _ _).trans (State.clearBarriers_blur μ (maskSub rfl hμ) s n)

theorem State.readied_counted (hμ : 0x40 &&& μ = 0x40) : (s.readied n).blur μ = (s.counted n).blur μ :=
  foldl_blur μ _ (fun s f => State.modFm_blur μ hμ s f _) _ _

theorem State.ordered_blur (hμ : 0x4e2 &&& μ = 0x4e2) : (s.ordered n).blur μ = s.blur μ :=
  (State.sendAll_blur μ (maskSub rfl hμ) _ _).trans
    ((s.readied_counted n (maskSub rfl hμ)).trans (s.counted_blur n (maskSub rfl hμ)))

/-- What the start of the job leaves of the state once its targets are ready. -/
theorem State.beginJob_readied (o : Nat) (hμ : 0x98c0012 &&& μ = 0x98c0012) : (s.beginJob n o).blur μ = (s.readied n).blur μ := by
  rw [State.beginJob_begun, State.fireSlot_blur μ (maskSub rfl hμ), State.schedBegun_blur (maskSub rfl hμ),
    State.setJobState_blur μ (maskSub rfl hμ), State.jobOrdered, State.modJob_blur μ (maskSub rfl hμ), State.takeHold_blur μ (maskSub rfl hμ),
    State.startStream_blur μ (maskSub rfl hμ)]
  exact State.sendAll_blur μ (maskSub rfl hμ) _ _

end

end

section
variable {s : State} {n : Nat}

theorem State.rect_of_slots {t : State} (slots : t.slots = (s.clearBarriers n).slots) : (t.slot n).rect = (s.slot n).rect := by
  have here : t.slot n = { s.slot n with parts := none, root := .reset, summary := none } := by
    unfold State.slot
    rw [slots, State.slots_clearBarriers]
    exact State.slot_setSlot ..
  rw [here]

theorem State.rect_counted : ((s.counted n).slot n).rect = (s.slot n).rect :=
  State.rect_of_slots (same_of_blur (foldl_blur 0x20 _ (fun s c => State.modCell_blur 0x20 rfl s c _) _ _) .slots rfl)

theorem State.rect_readied : ((s.readied n).slot n).rect = (s.slot n).rect := by
  have same : (s.readied n).slots = (s.counted n).slots := same_of_blur (s.readied_counted n (μ := 0x40) rfl) .slots rfl
  exact (by unfold State.slot; rw [same] : ((s.readied n).slot n).rect = ((s.counted n).slot n).rect).trans State.rect_counted

theorem State.CellUp.readied {c : Nat} (h : s.CellUp c) (n : Nat) : (s.readied n).CellUp c := by
  have cleared : (s.clearBarriers n).cells = s.cells := same_of_blur (State.clearBarriers_blur 0x4c0 rfl s n) .cells rfl
  have same : (s.readied n).cells = (s.counted n).cells := same_of_blur (s.readied_counted n (μ := 0x40) rfl) .cells rfl
  have counted : (s.counted n).CellUp c :=
    List.foldlRecOn (motive := fun t : State => t.CellUp c) _ _ (by unfold State.CellUp; rw [cleared]; exact h) fun t ht d _ =>
      ht.modCell d fun _ up => up
  unfold State.CellUp
  rw [same]
  exact counted

theorem State.begun_readied {f : FmId} (h : s.FmUp f) (wf : wfFm f = true) (inside : (s.slot n).rect.has f.region = true) :
    ((s.readied n).fm f).Begun := by
  have same : (s.counted n).fms = (s.clearBarriers n).fms :=
    same_of_blur (foldl_blur 0x20 _ (fun s c => State.modCell_blur 0x20 rfl s c _) _ _) .fms rfl
  have up : (s.counted n).FmUp f := by
    unfold State.FmUp
    rw [same]
    exact h.clearBarriers n
  exact State.begun_foldl (up.mem_slotFms wf (by rw [State.rect_counted]; exact inside)) up

/-- The START of every configured looper of the slot is on its way. -/
theorem State.started_ordered {c : Nat} (h : s.CellUp c) (inside : (s.slot n).rect.has (regionOf c) = true) :
    .looperStart c (s.job n).index ∈ (s.ordered n).inFlight := by
  have jobs : (s.readied n).jobs = s.jobs :=
    same_of_blur ((s.readied_counted n (μ := 0x4e0) rfl).trans (s.counted_blur n rfl)) .jobs rfl
  have index : ((s.readied n).job n).index = (s.job n).index := by
    unfold State.job
    rw [jobs]
  have listed : c ∈ (s.readied n).slotCells n := (h.readied n).mem_slotCells (by rw [State.rect_readied]; exact inside)
  rw [← index]
  exact List.mem_append_right _ (List.mem_map.2 ⟨c, listed, rfl⟩)

/-- A stream program begins at its first entry (R313). -/
theorem State.stream_startStream (s : State) (n : Nat) (some_ : (s.stream n).prog ≠ []) :
    ((s.startStream n).stream n).state = .running ∧ ((s.startStream n).stream n).pc = 0 := by
  have streams : (s.dropRefs n).streams = s.streams := same_of_blur (State.dropRefs_blur 0x40000 rfl s n) .streams rfl
  have prog : ((s.dropRefs n).stream n).prog ≠ [] := by
    unfold State.stream
    rwa [streams]
  have cleared : (s.clearStream n).stream n =
      { (s.dropRefs n).stream n with state := .idle, opens := [], ending := false, deck := [], pc := 0, loops := [], lists := [] } := by
    unfold State.clearStream State.stopStream State.modStream
    dsimp only
    rw [State.stream_setStream, State.stream_setStream]
    rfl
  unfold State.startStream State.modStream
  dsimp only
  rw [State.stream_setStream, cleared, if_neg (by simpa using prog)]
  exact ⟨rfl, rfl⟩

end

/-! ## The origin tick (R527, R566, R622) -/

section
variable (s : State) (n : Nat)

/-- The job's energy, cause and replay count begun anew. -/
def State.jobFresh : State := ((s.setReg (Reg.pwrEnergyJob n) 0).setCause n 0 0).setRegF (Reg.fltJob n) 31 24 0

theorem Reg.pwrEnergyJob_ne : Reg.pwrEnergyJob n ≠ Reg.fltJob n := by unfold Reg.pwrEnergyJob Reg.fltJob; omega

theorem State.jobFresh_keeps : ∃ u, s.jobFresh n = u ∧ u.reg (Reg.pwrEnergyJob n) = 0 ∧ u.regF (Reg.fltJob n) 63 48 = 0 ∧
    u.regF (Reg.fltJob n) 31 24 = 0 ∧ ∃ regs, u = { s with regs := regs } := by
  refine ⟨_, rfl, ?_, ?_, State.regF_setRegF _ _ (by decide) (by decide) 0, _,
    State.setRegF_same (State.setRegF_same (State.setRegF_same rfl ..) ..) ..⟩
  · exact (State.reg_setRegF_other _ (Reg.pwrEnergyJob_ne n) ..).trans
      ((State.reg_setRegF_other _ (Reg.pwrEnergyJob_ne n) ..).trans
        ((State.reg_setRegF_other _ (Reg.pwrEnergyJob_ne n) ..).trans (State.reg_setReg ..)))
  · exact (State.regF_setRegF_field _ _ (by decide) (by decide) (.inr (by decide)) 0).trans
      (State.cause_setCause _ n 0 0 (by norm_num))

variable {s n}

theorem exec_jobOrigin_idle (idle : (s.job n).armed = none) : exec (.jobOrigin n) s = .next (s.deliver (.jobOrigin n)) := by
  refine congrArg Host.Outcome.next ?_
  dsimp only
  rw [show ((s.deliver (.jobOrigin n)).job n).armed = none from idle]

theorem exec_jobOrigin_early {o : Nat} (armed : (s.job n).armed = some o) (early : (s.reg Reg.beatCounter).toNat < o) :
    exec (.jobOrigin n) s = .next (s.deliver (.jobOrigin n)) := by
  refine congrArg Host.Outcome.next ?_
  dsimp only
  rw [show ((s.deliver (.jobOrigin n)).job n).armed = some o from armed]
  exact if_pos early

theorem exec_jobOrigin_due {o : Nat} (armed : (s.job n).armed = some o) (due : o ≤ (s.reg Reg.beatCounter).toNat) :
    exec (.jobOrigin n) s = .next (((s.deliver (.jobOrigin n)).jobFresh n).beginJob n o) := by
  refine congrArg Host.Outcome.next ?_
  dsimp only
  rw [show ((s.deliver (.jobOrigin n)).job n).armed = some o from armed]
  exact if_neg (Nat.not_lt_of_le due)

end

/-! ## What a job's begin leaves -/

section
variable (s : State) (n o : Nat)

theorem State.fires_beginJob : State.Fires n (((s.jobOrdered n).setJobState n 1).schedBegun n o) (s.beginJob n o) := by
  rw [State.beginJob_begun]
  exact State.fires_fireSlot _ n

theorem State.jobOrdered_held {μ : Nat} (hμ : 0x8000000 &&& μ = 0x8000000) :
    (s.jobOrdered n).blur μ = (((s.ordered n).startStream n).takeHold n).blur μ := by
  rw [State.jobOrdered, State.modJob_blur μ hμ]

theorem State.jobOrdered_blur {μ : Nat} (hμ : 0x90c04e2 &&& μ = 0x90c04e2) : (s.jobOrdered n).blur μ = s.blur μ :=
  (s.jobOrdered_held n (maskSub rfl hμ)).trans ((State.takeHold_blur μ (maskSub rfl hμ) _ n).trans
    ((State.startStream_blur μ (maskSub rfl hμ) _ n).trans (s.ordered_blur n (maskSub rfl hμ))))

/-- The begin of a job but for its registers, its schedule and what its first occurrences send. -/
theorem State.beginJob_ordered {μ : Nat} (hμ : 0x800012 &&& μ = 0x800012) : (s.beginJob n o).blur μ = (s.jobOrdered n).blur μ := by
  rw [State.beginJob_begun, State.fireSlot_blur μ (maskSub rfl hμ), State.schedBegun_blur (maskSub rfl hμ),
    State.setJobState_blur μ (maskSub rfl hμ)]

theorem State.reg_beginJob {a : Nat} (notJob : a ≠ Reg.fltJob n) (notEvents : a ≠ Reg.beatEvents) : (s.beginJob n o).reg a = s.reg a := by
  have regs : (s.jobOrdered n).regs = s.regs := same_of_blur (s.jobOrdered_blur n (μ := 0x90c04e2) rfl) .regs rfl
  rw [(s.fires_beginJob n o).regs a (by simpa using notEvents), State.reg_schedBegun, State.onlyRegs_setJobState _ n 1 a (by simpa using notJob),
    State.reg_congr regs a]

theorem State.regF_beginJob (hi lo : Nat) :
    (s.beginJob n o).regF (Reg.fltJob n) hi lo = ((s.jobOrdered n).setJobState n 1).regF (Reg.fltJob n) hi lo := by
  have apart : Reg.fltJob n ≠ Reg.beatEvents := by unfold Reg.fltJob Reg.beatEvents; omega
  rw [State.regF, (s.fires_beginJob n o).regs (Reg.fltJob n) (by simpa using apart), State.reg_schedBegun, State.regF]

theorem State.jobState_beginJob : (s.beginJob n o).jobState n = 1 :=
  (s.regF_beginJob n o 3 0).trans (State.jobState_setJobState _ n 1 (by decide))

theorem State.cause_beginJob {hi lo : Nat} (above : 3 < lo) : (s.beginJob n o).regF (Reg.fltJob n) hi lo = s.regF (Reg.fltJob n) hi lo := by
  have regs : (s.jobOrdered n).regs = s.regs := same_of_blur (s.jobOrdered_blur n (μ := 0x90c04e2) rfl) .regs rfl
  exact (s.regF_beginJob n o hi lo).trans ((State.regF_setJobState _ n 1 above).trans (congrArg (bits hi lo) (State.reg_congr regs _)))

theorem State.job_beginJob : (s.beginJob n o).job n = { s.job n with armed := none, replay := none } := by
  have jobs : (((s.ordered n).startStream n).takeHold n).jobs = s.jobs :=
    same_of_blur ((State.takeHold_blur 0x10c04e2 rfl _ n).trans
      ((State.startStream_blur 0x10c04e2 rfl _ n).trans (s.ordered_blur n rfl))) .jobs rfl
  have begun : (s.beginJob n o).jobs = (s.jobOrdered n).jobs := same_of_blur (s.beginJob_ordered n o (μ := 0x800012) rfl) .jobs rfl
  have before : (((s.ordered n).startStream n).takeHold n).job n = s.job n := congrArg (Tbl.get JobSt.reset n) jobs
  have made : (s.jobOrdered n).job n = { s.job n with armed := none, replay := none } := by
    rw [State.jobOrdered, State.modJob, State.job_setJob, before]
  exact (congrArg (Tbl.get JobSt.reset n) begun).trans made

theorem State.sched_beginJob : ((s.beginJob n o).sched n).state = .running ∧ ((s.beginJob n o).sched n).origin = o ∧
    ((s.beginJob n o).sched n).shift = 0 := by
  have begun := s.fires_beginJob n o
  have sched := ((s.jobOrdered n).setJobState n 1).sched_schedBegun n o
  exact ⟨begun.state.trans (by rw [sched]), begun.origin.trans (by rw [sched]), begun.shift.trans (by rw [sched])⟩

theorem State.plan_takeHold : (s.takeHold n).plan n = { s.plan n with hold := (s.plan n).level } := Tbl.get_put ..

theorem State.hold_beginJob : ((s.beginJob n o).plan n).hold = (s.plan n).level := by
  have begun : (s.beginJob n o).power = (((s.ordered n).startStream n).takeHold n).power :=
    same_of_blur ((s.beginJob_ordered n o rfl).trans (s.jobOrdered_held n (μ := 0x8800012) rfl)) .power rfl
  have before : ((s.ordered n).startStream n).power = s.power :=
    same_of_blur ((State.startStream_blur 0xc04e2 rfl _ n).trans (s.ordered_blur n rfl)) .power rfl
  have made : (((s.ordered n).startStream n).takeHold n).plan n =
      { ((s.ordered n).startStream n).plan n with hold := (((s.ordered n).startStream n).plan n).level } := State.plan_takeHold ..
  have plan : (s.beginJob n o).plan n = (((s.ordered n).startStream n).takeHold n).plan n := by
    unfold State.plan
    rw [begun]
  rw [plan, made]
  unfold State.plan
  rw [before]

theorem State.stream_beginJob (some_ : (s.stream n).prog ≠ []) :
    ((s.beginJob n o).stream n).state = .running ∧ ((s.beginJob n o).stream n).pc = 0 := by
  have begun : (s.beginJob n o).streams = ((s.ordered n).startStream n).streams :=
    same_of_blur ((s.beginJob_ordered n o (μ := 0x9800012) rfl).trans ((s.jobOrdered_held n rfl).trans
      (State.takeHold_blur 0x9800012 rfl _ n))) .streams rfl
  have before : (s.ordered n).streams = s.streams := same_of_blur (s.ordered_blur n (μ := 0x4e2) rfl) .streams rfl
  have stream : (s.beginJob n o).stream n = ((s.ordered n).startStream n).stream n := congrArg (Tbl.get StreamSt.reset n) begun
  rw [stream]
  refine State.stream_startStream _ n ?_
  unfold State.stream
  rwa [before]

theorem State.begun_beginJob {f : FmId} (up : s.FmUp f) (wf : wfFm f = true) (inside : (s.slot n).rect.has f.region = true) :
    ((s.beginJob n o).fm f).Begun := by
  have same : (s.beginJob n o).fm f = (s.readied n).fm f := by
    have fms : (s.beginJob n o).fms = (s.readied n).fms := same_of_blur (s.beginJob_readied n o (μ := 0x98c0012) rfl) .fms rfl
    have eras : (s.beginJob n o).eras = (s.readied n).eras := same_of_blur (s.beginJob_readied n o (μ := 0x98c0012) rfl) .eras rfl
    unfold State.fm State.freshFm
    rw [fms, eras]
  rw [same]
  exact State.begun_readied up wf inside

theorem State.started_beginJob {c : Nat} (up : s.CellUp c) (inside : (s.slot n).rect.has (regionOf c) = true) :
    .looperStart c (s.job n).index ∈ (s.beginJob n o).inFlight := by
  have blur : (((s.jobOrdered n).setJobState n 1).schedBegun n o).blur 0x98c0010 = (s.ordered n).blur 0x98c0010 := by
    rw [State.schedBegun_blur rfl, State.setJobState_blur 0x98c0010 rfl, State.jobOrdered_held _ _ rfl, State.takeHold_blur 0x98c0010 rfl,
      State.startStream_blur 0x98c0010 rfl]
  have sent : (((s.jobOrdered n).setJobState n 1).schedBegun n o).inFlight = (s.ordered n).inFlight := same_of_blur blur .inFlight rfl
  refine (s.fires_beginJob n o).sent _ ?_
  rw [sent]
  exact State.started_ordered up inside

end
/-! ## Each request of a job -/

/-- A rejected request: the notice, and of the registers no more than those of `l`. -/
def State.refusedJob (s : State) (n : Nat) (m : Instr) (l : List Nat) : Prop := ∃ t u d, exec m s = .next t ∧ s.onlyRegs t l ∧
  t = { s with regs := t.regs, inFlight := s.inFlight ++ [.faultNotice ⟨0x4071, some n, u, d, 15⟩] }

section
variable {s : State} {n : Nat} {src : Src} {v : Word}

section
variable (field : (v.extractLsb' 59 3).toNat = n) (works : s.boot.stage ≠ 7)
include field works

theorem refusedJob_modJobCtrl {m : Instr} (writes : exec m s = .next (s.hostWrite src Reg.modJobCtrl v))
    (write : s.writeJobCtrl v = ((s.jobCtrlSet v).reject (some (bits 61 59 v)), false)) : s.refusedJob n m [Reg.modJobCtrl] := by
  rw [bits_extract, field] at write
  obtain ⟨t, set, only, -, regs, rfl⟩ := s.jobCtrlSet_keeps v n
  rw [set] at write
  exact ⟨_, srcSession src, Reg.modJobCtrl, writes.trans (congrArg Host.Outcome.next (State.hostWrite_modJobCtrl_refused works write)),
    only, rfl⟩

theorem jobStart_taken (start : v.getLsbD 63 = true) (noDrain : v.getLsbD 62 = false) (free : s.startFree n) :
    exec (.jobStart src v) s = .next ((s.jobCtrlSet v).armJob n (v.extractLsb' 0 12).toNat) := by
  have write := State.writeJobCtrl_start (s := s) start noDrain
  rw [bits_extract, field, if_pos ((s.mayStart_iff n).2 free), bits_extract] at write
  exact congrArg Host.Outcome.next (State.hostWrite_modJobCtrl_taken works write)

theorem jobStart_refused (start : v.getLsbD 63 = true) (noDrain : v.getLsbD 62 = false) (busy : ¬ s.startFree n) :
    s.refusedJob n (.jobStart src v) [Reg.modJobCtrl] := by
  have write := State.writeJobCtrl_start (s := s) start noDrain
  rw [if_neg (by rwa [bits_extract, field, State.mayStart_iff])] at write
  exact refusedJob_modJobCtrl field works rfl write

theorem jobDrain_taken (drain : v.getLsbD 62 = true) (noStart : v.getLsbD 63 = false) (runs : s.jobState n = 1) :
    exec (.jobDrain src v) s = .next ((s.jobCtrlSet v).setJobState n 2) := by
  have write := State.writeJobCtrl_drain (s := s) drain noStart
  rw [bits_extract, field, State.drainJob, State.jobState_jobCtrlSet, if_pos runs] at write
  exact congrArg Host.Outcome.next (State.hostWrite_modJobCtrl_taken works write)

theorem jobDrain_refused (drain : v.getLsbD 62 = true) (noStart : v.getLsbD 63 = false) (idle : s.jobState n ≠ 1) :
    s.refusedJob n (.jobDrain src v) [Reg.modJobCtrl] := by
  have write := State.writeJobCtrl_drain (s := s) drain noStart
  rw [State.drainJob, State.jobState_jobCtrlSet, if_neg (by rwa [bits_extract, field])] at write
  exact refusedJob_modJobCtrl field works rfl write

end

section
variable (slot : n < 8) (works : s.boot.stage ≠ 7)
include slot works

theorem jobRestart_plain (plain : v.getLsbD 8 = false) : exec (.jobRestart src n v) s = .next s :=
  congrArg Host.Outcome.next (State.hostWrite_fltJob_taken slot works (State.writeJob_plain plain))

theorem jobRestart_taken (restart : v.getLsbD 8 = true) (down : s.jobState n = 3 ∨ s.jobState n = 4) :
    exec (.jobRestart src n v) s = .next (s.startRepair n) :=
  congrArg Host.Outcome.next (State.hostWrite_fltJob_taken slot works ((State.writeJob_restart restart).trans (if_pos down)))

theorem jobRestart_refused (restart : v.getLsbD 8 = true) (up : ¬ (s.jobState n = 3 ∨ s.jobState n = 4)) :
    s.refusedJob n (.jobRestart src n v) [] :=
  ⟨_, srcSession src, Reg.fltJob n, congrArg Host.Outcome.next (State.hostWrite_fltJob_refused slot works
    ((State.writeJob_restart restart).trans (if_neg up))), fun _ _ => rfl, rfl⟩

end

end

theorem State.CellUp.of_listed {s : State} {c : Nat} (listed : s.cells.find c ≠ none) (up : (s.cell c).configured = true) : s.CellUp c := by
  obtain ⟨x, found⟩ := Option.ne_none_iff_exists'.1 listed
  have here : s.cell c = x := by rw [State.cell, found]
  exact ⟨x, found, here ▸ up⟩

theorem State.FmUp.of_listed {s : State} {f : FmId} (listed : s.fms.find (fmKey f) ≠ none) (up : (s.fm f).configured = true) : s.FmUp f := by
  obtain ⟨x, found⟩ := Option.ne_none_iff_exists'.1 listed
  have here : s.fm f = x := by rw [State.fm, found]
  exact ⟨x, found, here ▸ up⟩

/-- Settles O38: each request is one write through the arbiter, and the origin is the begin of the job's targets, stream, hold level and
schedule, each framed by the pieces that the others leave. -/
theorem jobs : Obligations.Jobs := by
  unfold Obligations.Jobs
  intro s n slot a x rejected
  refine ⟨fun src v field works => ⟨fun start noDrain => ⟨fun free => ?start, fun busy => ?_⟩,
    fun drain noStart => ⟨fun runs => ?drain, fun idle => ?_⟩⟩, ?origin, fun src v works => ⟨fun plain => ?_, fun restart down => ?restart,
    fun restart up1 up2 => ?_⟩, ⟨fun none_ => ?_, fun p repair => ⟨fun late => ?_, fun first differs => ?fails,
    fun first same blocks fenced lost => ?ends⟩⟩⟩
  case start =>
    obtain ⟨t, set, only, origin, regs, rfl⟩ := s.jobCtrlSet_keeps v n
    have run := jobStart_taken (src := src) field works start noDrain free
    rw [set, State.armJob, origin] at run
    exact ⟨_, run, State.job_setJob .., fun k other => State.job_setJob_other _ other _, State.sched_setSched ..,
      fun k other => State.sched_setSched_other _ _ _ other, only, rfl⟩
  case drain =>
    obtain ⟨t, set, only, -, regs, rfl⟩ := s.jobCtrlSet_keeps v n
    have run := jobDrain_taken (src := src) field works drain noStart runs
    rw [set] at run
    obtain ⟨u, is, state, above, job, regs, rfl⟩ := State.setJobState_keeps { s with regs := regs } n 2 (by decide)
    rw [is] at run
    refine ⟨_, run, state, above.trans (congrArg (bits 63 4) (only a (by simpa using Reg.fltJob_ne n))), fun b other => ?_, rfl⟩
    simp only [List.mem_cons, List.not_mem_nil, or_false, not_or] at other
    obtain ⟨notCtrl, notJob⟩ := other
    exact (job b (by simpa using notJob)).trans (only b (by simpa using notCtrl))
  case origin =>
    refine ⟨exec_jobOrigin_idle, fun o armed early => exec_jobOrigin_early armed early, fun o armed due => ?_⟩
    obtain ⟨u, fresh, energy, cause, count, regs, same⟩ := (s.deliver (.jobOrigin n)).jobFresh_keeps n
    have run := exec_jobOrigin_due armed due
    rw [fresh] at run
    have job : u.job n = s.job n := by rw [same]; rfl
    have rect : u.slot n = s.slot n := by rw [same]; rfl
    have stream : u.stream n = s.stream n := by rw [same]; rfl
    have plan : u.plan n = s.plan n := by rw [same]; rfl
    have cellUp {c : Nat} (up : s.CellUp c) : u.CellUp c := by rw [same]; exact up
    have fmUp {f : FmId} (up : s.FmUp f) : u.FmUp f := by rw [same]; exact up
    obtain ⟨running, origin, shift⟩ := u.sched_beginJob n o
    refine ⟨_, run, u.jobState_beginJob n o, ?_, ?_, ?_, ?_, running, origin, shift, fun c listed up inside => ?_,
      fun f wf listed up inside => ?_, fun some_ => ?_, ?_⟩
    · rw [← job]
      exact u.job_beginJob n o
    · exact (u.reg_beginJob n o (Reg.pwrEnergyJob_ne n) (by unfold Reg.pwrEnergyJob Reg.beatEvents; omega)).trans energy
    · exact (u.cause_beginJob n o (by decide)).trans cause
    · exact (u.cause_beginJob n o (by decide)).trans count
    · rw [← job]
      exact u.started_beginJob n o (cellUp (.of_listed listed up)) (by rwa [rect])
    · obtain ⟨prog, pc, zero⟩ := u.begun_beginJob n o (fmUp (.of_listed listed up)) wf (by rwa [rect])
      exact ⟨prog, pc, zero⟩
    · exact u.stream_beginJob n o (by rwa [stream])
    · rw [← plan]
      exact u.hold_beginJob n o
  case restart =>
    obtain ⟨u, is, state, above, only, regs, rfl⟩ := s.setJobState_keeps n 6 (by decide)
    have run := jobRestart_taken (src := src) slot works restart down
    rw [State.startRepair, is] at run
    exact ⟨_, run, state, above, State.job_setJob .., fun k other => State.job_setJob_other _ other _, only, rfl⟩
  case fails =>
    obtain ⟨u, is, state, cause, only, regs, rfl⟩ := (s.setRepair n none).faulted_keeps n 0x40A4 (by norm_num)
    have run := exec_stagingCheckDone_differs repair first differs
    rw [is] at run
    exact ⟨_, run, state, cause, State.job_setJob .., only, rfl⟩
  case ends =>
    obtain ⟨u, is, state, count, only, regs, rfl⟩ := State.repaired_keeps
      ((s.setRepair n (some { p with step := 3, regions := [] })).modJob n fun x => { x with repair := none, hw := [] }) n
    have run := exec_stagingCheckDone_clean repair first same blocks fenced lost
    rw [State.endRepair, is] at run
    refine ⟨_, run, state, count, (State.job_setJob ..).trans ?_, only, rfl⟩
    rw [State.setRepair, State.modJob, State.job_setJob]
  · exact jobStart_refused field works start noDrain busy
  · exact jobDrain_refused field works drain noStart idle
  · exact jobRestart_plain slot works plain
  · exact jobRestart_refused slot works restart (not_or.2 ⟨up1, up2⟩)
  · refine congrArg Host.Outcome.next ?_
    rw [State.repair, none_]
  · exact exec_stagingCheckDone_late repair late

end Sys2Proof.Machine

namespace Sys2Proof.Machine

open Sys2Proof

/-! # The input's voltage, and entering and leaving Chrysalis. -/

/-! ## What an operation keeps -/

section
variable {β : Type} {φ : State → β} {s t u : State}

theorem ite_keeps {c : Prop} [Decidable c] (ht : φ t = φ s) (hu : φ u = φ s) : φ (if c then t else u) = φ s := by
  split
  · exact ht
  · exact hu

theorem foldl_keeps {γ : Type} {g : State → γ → State} (h : ∀ s x, φ (g s x) = φ s) (l : List γ) (s : State) : φ (l.foldl g s) = φ s :=
  List.foldlRecOn (motive := fun t => φ t = φ s) l g rfl fun t ht x _ => (h t x).trans ht

theorem foldl_fst_keeps {γ δ : Type} {g : State × δ → γ → State × δ} (h : ∀ p x, φ (g p x).1 = φ p.1) (l : List γ) (p : State × δ) :
    φ (l.foldl g p).1 = φ p.1 :=
  List.foldlRecOn (motive := fun q => φ q.1 = φ p.1) l g rfl fun q hq x _ => (h q x).trans hq

end

/-- Operations that leave the register bank leave each register. -/
theorem reg_of_blur {s t : State} (h : t.blur 0xffffffef = s.blur 0xffffffef) (a : Nat) : t.reg a = s.reg a :=
  State.reg_congr (same_of_blur h .regs rfl) a

theorem State.reg_raise (s : State) (code : Nat) (slot : Option Nat) (unit detail position a : Nat) :
    (s.raise code slot unit detail position).reg a = s.reg a := rfl

/-! ## Registers outside the yarder's and the loader's -/

/-- A register that neither the yarder nor the loader writes. -/
def Reg.calm (a : Nat) : Prop := (a < 0x0004_0000 ∨ 0x0005_0000 ≤ a) ∧ (a < 0x000D_0000 ∨ 0x000E_0000 ≤ a)

theorem Reg.calm_pwrChrysalis : Reg.calm Reg.pwrChrysalis := by unfold Reg.calm Reg.pwrChrysalis; omega
theorem Reg.calm_fltJob (n : Nat) : Reg.calm (Reg.fltJob n) := by unfold Reg.calm Reg.fltJob; omega

section
variable {a : Nat} (calm : Reg.calm a) (s : State)
include calm

theorem State.endCmd_calm (result : Nat) : (s.endCmd result).reg a = s.reg a :=
  State.reg_setRegF_other s (by unfold Reg.calm at calm; unfold Reg.yrdCmdStatus; omega) ..

theorem State.finishCreate_calm (x : Alloc) : (s.finishCreate x).reg a = s.reg a := by
  have made (t : State) : ((t.loseExtents x.dest x.got).setObj x.handle
      { x.obj with place := x.got, tier := x.dest, stamp := (t.loseExtents x.dest x.got).beat }).reg a = t.reg a :=
    (reg_of_blur (State.setObj_blur _ rfl ..) a).trans (reg_of_blur (State.loseExtents_blur _ rfl t _ _) a)
  unfold State.finishCreate
  exact ite_keeps (φ := fun t => t.reg a) ((State.endCmd_calm calm _ 0).trans (made _)) (made _)

theorem State.serve_calm (t : Nat) : (s.serve t).reg a = s.reg a := by
  refine foldl_keeps (φ := fun u => u.reg a) (fun u x => ite_keeps (φ := fun u => u.reg a) ?_ rfl) _ s
  exact ite_keeps (φ := fun u => u.reg a) (State.finishCreate_calm calm _ _) rfl

theorem State.freeExtents_calm (t : Nat) (runs : List (Nat × Nat)) : (s.freeExtents t runs).reg a = s.reg a :=
  ite_keeps (φ := fun t => t.reg a) rfl (State.serve_calm calm _ t)

theorem State.evictFor_calm (n : Nat) (s : State) (t : Nat) : (State.evictFor n s t).reg a = s.reg a := by
  induction n generalizing s t with
  | zero => rfl
  | succ n ih =>
    have counted (u : State) : (u.addReg Reg.yrdTally 31 0 1).reg a = u.reg a :=
      State.reg_addReg_other u (by unfold Reg.calm at calm; unfold Reg.yrdTally; omega) ..
    unfold State.evictFor
    refine ite_keeps (φ := fun t => t.reg a) rfl ?_
    split
    · rfl
    · dsimp only
      rw [ih, ih, State.serve_calm calm]
      exact counted _

theorem State.buryObj_calm (h : Nat) : (s.buryObj h).reg a = s.reg a := by
  unfold State.buryObj
  split
  · split
    · exact State.freeExtents_calm calm _ _ _
    · rfl
  · rfl

theorem State.yrdTally_calm (hi lo k : Nat) : (s.satReg Reg.yrdTally hi lo k).reg a = s.reg a :=
  State.reg_satReg_other s (by unfold Reg.calm at calm; unfold Reg.yrdTally; omega) ..

theorem State.yrdRaise_calm (code h x : Nat) : (s.yrdRaise code h x).reg a = s.reg a := by
  have apart : a ≠ Reg.yrdFault := by unfold Reg.calm at calm; unfold Reg.yrdFault; omega
  unfold State.yrdRaise
  rw [State.reg_raise]
  exact State.reg_setReg_other s apart _

theorem State.failAlloc_calm (x : Alloc) : (s.failAlloc x).reg a = s.reg a := by
  have failed (u : State) : ((u.satReg Reg.yrdTally 62 48 1).yrdRaise 0x4030 x.handle 0).reg a = u.reg a :=
    (State.yrdRaise_calm calm _ _ _ _).trans (State.yrdTally_calm calm u 62 48 1)
  obtain ⟨u, told, kept⟩ : ∃ u, ((s.setAllocs (s.yard.allocs.erase x)).satReg Reg.yrdTally 62 48 1).yrdRaise 0x4030 x.handle 0 = u ∧
    u.reg a = s.reg a := ⟨_, rfl, failed _⟩
  unfold State.failAlloc
  dsimp only
  rw [State.buryObj_calm calm, State.freeExtents_calm calm, told, ← kept]
  refine ite_keeps (φ := fun v => v.reg a) ((State.endCmd_calm calm _ 3).trans ?_) ?_
  all_goals
    split
    · rfl
    · rfl
    · exact reg_of_blur (State.modObj_blur _ rfl ..) a

theorem State.startAlloc_calm (x : Alloc) : (s.startAlloc x).reg a = s.reg a := by
  unfold State.startAlloc
  refine ite_keeps (φ := fun u => u.reg a) (State.failAlloc_calm calm _ x) (ite_keeps (φ := fun u => u.reg a) ?_ ?_)
  · rw [State.evictFor_calm calm, State.yrdTally_calm calm, State.serve_calm calm]
    rfl
  · rw [State.serve_calm calm]
    rfl

theorem State.moveObj_calm (h t n : Nat) (up cmd : Bool) : (s.moveObj h t n up cmd).1.reg a = s.reg a := by
  have moved (o : Obj) (kind : AllocKind) : (s.startMove h o t n kind cmd).reg a = s.reg a := State.startAlloc_calm calm _ _
  unfold State.moveObj
  split
  · rfl
  · split
    · rfl
    · split
      · split <;> rfl
      · split
        · split <;> rfl
        · rfl
      · split
        · rfl
        · exact moved _ _
      · rfl

theorem State.startQueued_calm (h : Nat) : (s.startQueued h).reg a = s.reg a := by
  unfold State.startQueued
  split
  · dsimp only
    split
    · exact ite_keeps (φ := fun t => t.reg a) ((State.endCmd_calm calm _ _).trans (State.moveObj_calm calm _ _ _ _ _ _))
        (State.moveObj_calm calm _ _ _ _ _ _)
    · exact State.moveObj_calm calm _ _ _ _ _ _
  · rfl

omit calm in
/-- The bytes of a move go back without a register. -/
theorem takeBack_reg (t x b : Nat) : (takeBack s t x).1.reg b = s.reg b := reg_of_blur (takeBack_blur _ rfl ..) b

/-- A move given back leaves the other registers. -/
theorem State.abandonMove_calm (x : Alloc) : (s.abandonMove x).reg a = s.reg a := by
  have copied (u : State) (o : Obj) (st sx dt dx : Nat) : (u.copyExtent o st sx dt dx).reg a = u.reg a :=
    reg_of_blur (State.copyExtent_blur _ rfl ..) a
  have open_ (u : State) : u.endCmdOpen.reg a = u.reg a := State.endCmd_calm calm _ _
  have found (u : State) (h : Nat) (f : Obj → Obj) : (u.modObj h f).reg a = u.reg a := reg_of_blur (State.modObj_blur _ rfl ..) a
  have set (u : State) (l : List Alloc) : (u.setAllocs l).reg a = u.reg a := reg_of_blur (State.setAllocs_blur _ rfl ..) a
  unfold State.abandonMove
  dsimp only
  rw [State.startQueued_calm calm, State.buryObj_calm calm, State.evictFor_calm calm, State.freeExtents_calm calm]
  refine Eq.trans (ite_keeps (φ := fun v => v.reg a) (open_ _) rfl) ?_
  rw [found, set]
  refine foldl_fst_keeps (φ := fun v => v.reg a) (fun p i => ?_) _ _
  split
  · exact copied _ _ _ _ _ _
  · exact (copied _ _ _ _ _ _).trans (takeBack_reg _ _ _ a)

end

/-! ## A load void (R68, R69) -/

section
variable {a : Nat} (calm : Reg.calm a) (s : State)
include calm

theorem State.freeObj_calm (h : Nat) : (s.freeObj h).reg a = s.reg a := by
  unfold State.freeObj
  split
  · refine ite_keeps (φ := fun u => u.reg a) rfl ?_
    exact (State.freeExtents_calm calm _ _ _).trans (reg_of_blur (State.delObj_blur _ rfl ..) a)
  · rfl

theorem State.setQuotas_calm {n : Nat} (slot : n < 8) (q1 q2 q3 : Nat) : (s.setQuotas n q1 q2 q3).reg a = s.reg a := by
  have apart (t : Nat) (small : t < 4) : a ≠ Reg.yrdQuota n t := by unfold Reg.calm at calm; unfold Reg.yrdQuota; omega
  unfold State.setQuotas
  rw [State.reg_setRegF_other _ (apart 3 (by decide)), State.reg_setRegF_other _ (apart 2 (by decide)),
    State.reg_setRegF_other _ (apart 1 (by decide))]

theorem State.voidManifest_calm {n : Nat} (slot : n < 8) : (s.voidManifest n).reg a = s.reg a := by
  unfold State.voidManifest
  dsimp only
  rw [State.setQuotas_calm calm _ slot]
  refine Eq.trans (foldl_keeps (φ := fun u => u.reg a) (fun u h => State.freeObj_calm calm u h) _ _) ?_
  exact foldl_keeps (φ := fun u => u.reg a) (g := fun (u : State) x => (u.setAllocs (u.yard.allocs.erase x)).freeExtents x.dest x.got)
    (fun u x => (State.freeExtents_calm calm _ _ _).trans (reg_of_blur (State.setAllocs_blur _ rfl ..) a)) _ s

omit calm in
theorem State.reg_clearPlans (n b : Nat) : (s.clearPlans n).reg b = s.reg b := reg_of_blur (State.clearPlans_blur _ rfl s n) b

theorem State.clearMeasure_calm {n : Nat} (slot : n < 8) : (s.clearMeasure n).reg a = s.reg a := by
  unfold Reg.calm at calm
  have id : a ≠ Reg.imgPartId n := by unfold Reg.imgPartId; omega
  have measure : Reg.imgMeasure n 0 ≤ a → Reg.imgMeasure n 8 ≤ a := by unfold Reg.imgMeasure; omega
  exact State.reg_clearRegs s (by simpa [id] using measure)

theorem State.voidLoad_calm : s.voidLoad.reg a = s.reg a := by
  have slot := s.imgSlot_lt
  have flight (u : State) (l : List Instr) : ({ u with inFlight := l } : State).reg a = u.reg a := rfl
  unfold State.voidLoad
  refine ite_keeps (φ := fun u => u.reg a) ?_ rfl
  dsimp only
  rw [flight, State.clearMeasure_calm calm _ slot, reg_of_blur (State.setSlot_blur _ rfl _ _ _), State.reg_clearPlans,
    State.voidManifest_calm calm _ slot, reg_of_blur (State.unloadRect_blur _ rfl s _)]

theorem State.abortLoad_calm : s.abortLoad.reg a = s.reg a := by
  have apart : a ≠ Reg.imgStatus := by unfold Reg.calm at calm; unfold Reg.imgStatus; omega
  unfold State.abortLoad State.endLoad
  refine ite_keeps (φ := fun u => u.reg a) ((State.reg_setImgState _ apart 8).trans ?_) rfl
  exact (reg_of_blur (State.setLdr_blur _ rfl ..) a).trans (State.voidLoad_calm calm s)

end

section
variable (s : State)

/-- What a void load leaves of the beat and the power unit is what its plans leave. -/
theorem State.voidLoad_plans (claimed : s.ldr.claimed = true) : ∃ u : State, u.beats = s.beats ∧ u.power = s.power ∧
    s.voidLoad.beats = (u.clearPlans s.imgSlot).beats ∧ s.voidLoad.power = (u.clearPlans s.imgSlot).power := by
  have before : ((s.unloadRect (s.slot s.imgSlot).rect).voidManifest s.imgSlot).blur 0x60078 = s.blur 0x60078 :=
    (State.voidManifest_blur 0x60078 rfl _ _).trans (State.unloadRect_blur 0x60078 rfl s _)
  have after (u : State) : ((u.setSlot s.imgSlot .reset).clearMeasure s.imgSlot).blur 0x90 = u.blur 0x90 :=
    (State.clearMeasure_blur 0x90 rfl _ _).trans (State.setSlot_blur 0x90 rfl u _ _)
  refine ⟨_, same_of_blur before .beats rfl, same_of_blur before .power rfl, ?_, ?_⟩
  · rw [State.voidLoad, if_pos claimed]
    exact same_of_blur (after _) .beats rfl
  · rw [State.voidLoad, if_pos claimed]
    exact same_of_blur (after _) .power rfl

theorem State.sched_of_beats {s t : State} (same : t.beats = s.beats) (k : Nat) : t.sched k = s.sched k :=
  congrArg (fun b => b.slots.get .reset k) same

theorem State.sched_clearPlans (n k : Nat) : (s.clearPlans n).sched k = if k = n then .reset else s.sched k := by
  have before : (((s.clearStream n).setStream n .reset).setRed n .reset).blur 0x1c0000 = s.blur 0x1c0000 :=
    (State.setRed_blur 0x1c0000 rfl _ _ _).trans ((State.setStream_blur 0x1c0000 rfl _ _ _).trans (State.clearStream_blur 0x1c0000 rfl s n))
  have cleared (u : State) : (u.clearSched n).sched k = if k = n then .reset else u.sched k := by
    by_cases same : k = n
    · rw [if_pos same, same]
      exact Tbl.get_put ..
    · rw [if_neg same]
      exact Tbl.get_put_other _ same ..
  unfold State.clearPlans
  dsimp only
  rw [State.sched_of_beats (same_of_blur (State.setPlan_blur 0x1000000 rfl _ _ _) .beats rfl), cleared,
    State.sched_of_beats (same_of_blur before .beats rfl)]

/-- The plans alone of the power unit are void. -/
theorem State.power_clearPlans (n : Nat) : ∃ plans, (s.clearPlans n).power = { s.power with plans := plans } := by
  have before : ((((s.clearStream n).setStream n .reset).setRed n .reset).clearSched n).blur 0x9c0000 = s.blur 0x9c0000 :=
    (State.clearSched_blur 0x9c0000 rfl _ _).trans ((State.setRed_blur 0x9c0000 rfl _ _ _).trans
      ((State.setStream_blur 0x9c0000 rfl _ _ _).trans (State.clearStream_blur 0x9c0000 rfl s n)))
  have power : ((((s.clearStream n).setStream n .reset).setRed n .reset).clearSched n).power = s.power := same_of_blur before .power rfl
  have set (u : State) (x : PlanSt) : (u.setPlan n x).power = { u.power with plans := u.power.plans.put n x } := rfl
  refine ⟨s.power.plans.put n .reset, ?_⟩
  unfold State.clearPlans
  dsimp only
  rw [set, power]

/-- The schedule of a slot is idle after a load void where it was idle before. -/
theorem State.sched_abortLoad {k : Nat} (idle : (s.sched k).state = .idle) : (s.abortLoad.sched k).state = .idle := by
  have void : (s.voidLoad.sched k).state = .idle := by
    by_cases claimed : s.ldr.claimed = true
    · obtain ⟨u, beats, -, voidBeats, -⟩ := s.voidLoad_plans claimed
      rw [State.sched_of_beats voidBeats, State.sched_clearPlans, State.sched_of_beats beats]
      split
      · rfl
      · exact idle
    · rwa [State.voidLoad, if_neg claimed]
  have ended : (s.endLoad 8).sched k = s.voidLoad.sched k :=
    State.sched_of_beats (same_of_blur ((State.setImgState_blur 0x2000010 rfl _ _).trans (State.setLdr_blur 0x2000010 rfl _ _)) .beats rfl) k
  unfold State.abortLoad
  split
  · rwa [ended]
  · exact idle

theorem State.power_abortLoad : ∃ plans, s.abortLoad.power = { s.power with plans := plans } := by
  have void : ∃ plans, s.voidLoad.power = { s.power with plans := plans } := by
    by_cases claimed : s.ldr.claimed = true
    · obtain ⟨u, -, power, -, voidPower⟩ := s.voidLoad_plans claimed
      rw [voidPower, ← power]
      exact u.power_clearPlans _
    · rw [State.voidLoad, if_neg claimed]
      exact ⟨_, rfl⟩
  have ended : (s.endLoad 8).power = s.voidLoad.power :=
    same_of_blur ((State.setImgState_blur 0x2000010 rfl _ _).trans (State.setLdr_blur 0x2000010 rfl _ _)) .power rfl
  unfold State.abortLoad
  split
  · rwa [ended]
  · exact ⟨_, rfl⟩

end

/-! ## Slots that stop (R122, R260, R331, R440) -/

section
variable {a : Nat} (below : a < 0x0006_0000) (s : State) (n : Nat)
include below

theorem State.freeCount_below (b hi lo : Nat) (above : 0x0006_0000 ≤ b) : (s.freeCount b hi lo).reg a = s.reg a :=
  State.reg_setRegF_other _ (by omega) ..

theorem State.sendSky_below (p type slots : Nat) (payload : Bytes) (nak : Bool) : (s.sendSky p type slots payload nak).reg a = s.reg a := by
  have counted (u : State) : (u.addReg (Reg.skyTx p) 63 0 1).reg a = u.reg a := State.reg_addReg_other u (by unfold Reg.skyTx; omega) ..
  unfold State.sendSky
  exact ite_keeps (φ := fun u => u.reg a) rfl (counted _)

theorem State.toModule_below (m : Nat) (msg : Instr) : (s.toModule m msg).reg a = s.reg a := by
  have trail (p : Option Nat) : (s.sendTrail m p msg).reg a = s.reg a := by
    unfold State.sendTrail
    dsimp only
    split
    · refine ite_keeps (φ := fun u => u.reg a) ((State.sendSky_below below _ _ _ _ _ _).trans ?_) rfl
      exact (reg_of_blur (State.modSky_blur _ rfl ..) a).trans (reg_of_blur (State.freeBytes_blur _ rfl ..) a)
    · rfl
  unfold State.toModule
  refine ite_keeps (φ := fun u => u.reg a) rfl ?_
  split
  · exact trail _
  · exact trail _

theorem State.rollbackTo_below : (s.rollbackTo n).reg a = s.reg a := by
  have versions (u : State) (f : Obj → Obj) (g : CellSt → CellSt) : (u.slotVersions n f g).reg a = u.reg a :=
    reg_of_blur (State.slotVersions_blur _ rfl ..) a
  have steps (u : State) (c : Nat) : ((u.setRegF (Reg.redStep n) 31 0 c).satReg (Reg.redRounds n) 62 48 1).reg a = u.reg a :=
    (State.reg_satReg_other _ (by unfold Reg.redRounds; omega) ..).trans (State.reg_setRegF_other u (by unfold Reg.redStep; omega) ..)
  unfold State.rollbackTo
  dsimp only
  rw [reg_of_blur (State.modSlot_blur _ rfl ..), reg_of_blur (State.modRed_blur _ rfl ..), steps, versions]
  exact ite_keeps (φ := fun u => u.reg a) (State.freeCount_below below s _ 63 48 (by unfold Reg.redSlotStatus; omega)) rfl

theorem State.rollbackUp_below (step : Nat) : (s.rollbackUp n step).reg a = s.reg a := by
  unfold State.rollbackUp
  exact ite_keeps (φ := fun u => u.reg a) (State.toModule_below below s _ _) rfl

theorem State.cutCommit_below : (s.cutCommit n).reg a = s.reg a := by
  unfold State.cutCommit
  refine ite_keeps (φ := fun u => u.reg a) ?_ rfl
  dsimp only
  rw [State.reg_raise, State.rollbackUp_below below, State.rollbackTo_below below]

theorem State.confirmTo_below (v : Nat) : (s.confirmTo n v).reg a = s.reg a := by
  have versions (u : State) : (u.slotVersions n Obj.flip CellSt.flip).reg a = u.reg a := reg_of_blur (State.slotVersions_blur _ rfl ..) a
  unfold State.confirmTo
  dsimp only
  rw [State.reg_setRegF_other _ (by unfold Reg.fltJob; omega), State.reg_addReg_other _ (by unfold Reg.redRounds; omega),
    reg_of_blur (State.modRed_blur _ rfl ..), State.reg_setRegF_other _ (by unfold Reg.redStep; omega), versions]
  exact ite_keeps (φ := fun u => u.reg a) (State.freeCount_below below s _ 63 48 (by unfold Reg.redSlotStatus; omega)) rfl

theorem State.endCkpt_below : (s.endCkpt n).reg a = s.reg a := by
  unfold State.endCkpt
  split
  · exact ite_keeps (φ := fun u => u.reg a) rfl
      ((State.confirmTo_below below _ n _).trans (State.freeCount_below below s _ 63 48 (by unfold Reg.redSlotStatus; omega)))
  · rfl

theorem State.stopSched_below : (s.stopSched n).reg a = s.reg a := by
  have stopped (u : State) : ((u.setRegF Reg.redCtrl n n 0).endCkpt n).reg a = u.reg a :=
    (State.endCkpt_below below _ n).trans (State.reg_setRegF_other u (by unfold Reg.redCtrl; omega) ..)
  unfold State.stopSched
  exact ite_keeps (φ := fun u => u.reg a) rfl (ite_keeps (φ := fun u => u.reg a) (stopped _) rfl)

theorem State.sleepSlot_below : (s.sleepSlot n).reg a = s.reg a := by
  have stopped (u : State) (k : Nat) : (u.setJobState n k).reg a = u.reg a := State.reg_setRegF_other u (by unfold Reg.fltJob; omega) ..
  unfold State.sleepSlot
  dsimp only
  rw [reg_of_blur (State.dropHold_blur _ rfl ..), State.stopSched_below below, reg_of_blur (State.clearStream_blur _ rfl ..),
    reg_of_blur (State.modJob_blur _ rfl ..)]
  exact ite_keeps (φ := fun u => u.reg a) ((stopped _ 4).trans (State.cutCommit_below below s n)) rfl

end

/-! ## Schedules that stop (R529) -/

section
variable (s : State) (n : Nat)

theorem State.sched_stopSched_other {k : Nat} (other : k ≠ n) : (s.stopSched n).sched k = s.sched k := by
  have stopped (u : State) : (u.setRegF Reg.redCtrl n n 0 |>.endCkpt n).sched k = u.sched k :=
    State.sched_of_beats (same_of_blur ((State.endCkpt_blur 0x140038 rfl _ n).trans (State.setRegF_blur 0x140038 rfl u ..)) .beats rfl) k
  have marked (x : BeatSlot) (f : SlotSt → SlotSt) : ((s.setSched n x).modSlot n f).sched k = s.sched k :=
    s.sched_setSched_other n x other
  unfold State.stopSched
  exact ite_keeps (φ := fun u => u.sched k) rfl (ite_keeps (φ := fun u => u.sched k) ((stopped _).trans (marked _ _)) (marked _ _))

theorem State.sched_stopSched : ((s.stopSched n).sched n).state ≠ .running := by
  have stopped (u : State) : (u.setRegF Reg.redCtrl n n 0 |>.endCkpt n).sched n = u.sched n :=
    State.sched_of_beats (same_of_blur ((State.endCkpt_blur 0x140038 rfl _ n).trans (State.setRegF_blur 0x140038 rfl u ..)) .beats rfl) n
  have marked (f : SlotSt → SlotSt) :
      (((s.setSched n { s.sched n with state := .stopped, opens := [], slacks := [] }).modSlot n f).sched n).state ≠ .running := by
    have here : ((s.setSched n { s.sched n with state := .stopped, opens := [], slacks := [] }).modSlot n f).sched n =
        { s.sched n with state := .stopped, opens := [], slacks := [] } := State.sched_setSched ..
    rw [here]
    exact (by decide : SchedState.stopped ≠ .running)
  unfold State.stopSched
  dsimp only
  split
  case isTrue idle => rw [idle]; decide
  case isFalse =>
    split
    · rw [stopped]
      exact marked _
    · exact marked _

theorem State.stopSched_idle (idle : (s.sched n).state = .idle) : s.stopSched n = s := if_pos idle

end

/-! ## A slot asleep (R567) -/

section
variable (s : State) (n : Nat)

/-- The slot before its schedule stops: no job, and no stream program. -/
def State.slotHalted : State :=
  ((if s.jobActive n then (s.cutCommit n).setJobState n 4 else s).modJob n
    (fun x => { x with armed := none, replay := none, repair := none })).clearStream n

theorem State.sleepSlot_halted : s.sleepSlot n = ((s.slotHalted n).stopSched n).dropHold n := rfl

theorem State.slotHalted_blur : (s.slotHalted n).blur 0x81c10be = s.blur 0x81c10be := by
  unfold State.slotHalted
  rw [State.clearStream_blur 0x81c10be rfl, State.modJob_blur 0x81c10be rfl]
  refine ite_keeps (φ := fun u : State => u.blur 0x81c10be) ?_ rfl
  exact (State.setJobState_blur 0x81c10be rfl _ n 4).trans (State.cutCommit_blur 0x81c10be rfl s n)

theorem State.sched_slotHalted (k : Nat) : (s.slotHalted n).sched k = s.sched k :=
  State.sched_of_beats (same_of_blur (s.slotHalted_blur n) .beats rfl) k

theorem State.sched_sleepSlot_other {k : Nat} (other : k ≠ n) : (s.sleepSlot n).sched k = s.sched k := by
  rw [State.sleepSlot_halted, State.sched_of_beats (same_of_blur (State.dropHold_blur 0x1000000 rfl _ n) .beats rfl),
    State.sched_stopSched_other _ n other, State.sched_slotHalted]

theorem State.sched_sleepSlot : ((s.sleepSlot n).sched n).state ≠ .running := by
  rw [State.sleepSlot_halted, State.sched_of_beats (same_of_blur (State.dropHold_blur 0x1000000 rfl _ n) .beats rfl)]
  exact State.sched_stopSched _ n

/-- Of the power unit a slot asleep has dropped its hold level alone. -/
theorem State.power_sleepSlot : ∃ plans, (s.sleepSlot n).power = { s.power with plans := plans } := by
  have before : ((s.slotHalted n).stopSched n).power = s.power :=
    (same_of_blur (State.stopSched_blur 0x9400b8 rfl _ n) .power rfl : _ = (s.slotHalted n).power).trans
      (same_of_blur (s.slotHalted_blur n) .power rfl)
  have dropped (u : State) : (u.dropHold n).power = { u.power with plans := u.power.plans.put n { u.plan n with hold := 0 } } := rfl
  rw [State.sleepSlot_halted, dropped, before]
  exact ⟨_, rfl⟩

/-- No slot has a schedule or a job at work. -/
def State.jobless : Prop := ∀ k, k < 8 → (s.sched k).state = .idle ∧ s.jobState k ∉ [1, 2, 5, 6]

variable {s n}

theorem State.jobless.of_kept {t : State} (h : s.jobless) (sched : ∀ k, (s.sched k).state = .idle → (t.sched k).state = .idle)
    (jobs : ∀ k, t.reg (Reg.fltJob k) = s.reg (Reg.fltJob k)) : t.jobless := fun k slot => by
  obtain ⟨idle, job⟩ := h k slot
  have same : t.jobState k = s.jobState k := congrArg (bits 3 0) (jobs k)
  exact ⟨sched k idle, by rwa [same]⟩

/-- A slot without a job falls asleep without a message, a register or a schedule. -/
theorem State.sleepSlot_jobless (h : s.jobless) (slot : n < 8) : (s.sleepSlot n).blur 0x90c0000 = s.blur 0x90c0000 := by
  obtain ⟨idle, job⟩ := h n slot
  have active : s.jobActive n = false := by
    unfold State.jobActive
    rwa [Bool.eq_false_iff, ne_eq, List.contains_iff_mem]
  have still : (s.slotHalted n).stopSched n = s.slotHalted n := State.stopSched_idle _ n (by rwa [State.sched_slotHalted])
  rw [State.sleepSlot_halted, still, State.dropHold_blur 0x90c0000 rfl, State.slotHalted, State.clearStream_blur 0x90c0000 rfl,
    State.modJob_blur 0x90c0000 rfl, if_neg (by rw [active]; decide)]

end

/-! ## The slots asleep -/

/-- Every slot asleep. -/
def State.slotsAsleep (s : State) : State := (List.range 8).foldl State.sleepSlot s

section
variable (s : State)

theorem State.slotsAsleep_blur : s.slotsAsleep.blur 0x99c10be = s.blur 0x99c10be :=
  foldl_blur 0x99c10be _ (fun s n => State.sleepSlot_blur 0x99c10be rfl s n) _ s

theorem State.slotsAsleep_below {a : Nat} (below : a < 0x0006_0000) : s.slotsAsleep.reg a = s.reg a :=
  foldl_keeps (φ := fun u => u.reg a) (fun u n => State.sleepSlot_below below u n) _ s

theorem State.sched_slotsAsleep {k : Nat} (slot : k < 8) : (s.slotsAsleep.sched k).state ≠ .running := by
  refine foldl_reaches (P := fun u : State => (u.sched k).state ≠ .running) (List.mem_range.2 slot) (fun u => u.sched_sleepSlot k)
    (fun u n still => ?_) s
  by_cases same : k = n
  · rw [same]
    exact u.sched_sleepSlot n
  · rwa [u.sched_sleepSlot_other n same]

/-- What the power unit measures: the lane of Chrysalis leaves it. -/
def State.gauges (s : State) : Nat × Tbl HalfSt := (s.power.e, s.power.halves)

theorem State.gauges_of_plans {s t : State} (kept : ∃ plans, t.power = { s.power with plans := plans }) : t.gauges = s.gauges := by
  obtain ⟨plans, power⟩ := kept
  rw [State.gauges, power]
  rfl

theorem State.gauges_slotsAsleep : s.slotsAsleep.gauges = s.gauges :=
  foldl_keeps (φ := State.gauges) (fun u n => State.gauges_of_plans (u.power_sleepSlot n)) _ s

theorem State.slotsAsleep_jobless (h : s.jobless) : s.slotsAsleep.skys = s.skys := by
  refine (List.foldlRecOn (motive := fun t : State => t.jobless ∧ t.skys = s.skys) _ _ ⟨h, rfl⟩ fun t ht n mem => ?_).2
  obtain ⟨quiet, skys⟩ := ht
  have blur := State.sleepSlot_jobless quiet (List.mem_range.1 mem)
  refine ⟨quiet.of_kept (fun k idle => ?_) fun k => State.reg_congr (same_of_blur blur .regs rfl) _, (same_of_blur blur .skys rfl).trans skys⟩
  rwa [State.sched_of_beats (same_of_blur blur .beats rfl)]

end

/-! ## What the host had begun is given up (R471, R502, R69, R352) -/

/-- The windows closed, the load aborted and the moves given back. -/
def State.undone (s : State) : State :=
  let s := ((List.range 4).foldl State.closeWin s).abortLoad
  (s.yard.allocs.filter (fun a => a.kind == .promote || a.kind == .demote || a.kind == .evict)).foldl State.abandonMove s

section
variable (s : State)

theorem State.closed_blur : ((List.range 4).foldl State.closeWin s).blur 0x200000 = s.blur 0x200000 :=
  foldl_blur 0x200000 _ (fun u w => State.closeWin_blur 0x200000 rfl u w) _ s

theorem State.undone_aborted {μ : Nat} (hμ : 0x6003a &&& μ = 0x6003a) :
    s.undone.blur μ = ((List.range 4).foldl State.closeWin s).abortLoad.blur μ :=
  foldl_blur μ _ (fun u x => State.abandonMove_blur μ hμ u x) _ _

theorem State.undone_blur : s.undone.blur 0x3be00fa = s.blur 0x3be00fa :=
  (s.undone_aborted rfl).trans ((State.abortLoad_blur 0x3be00fa rfl _).trans
    (foldl_blur 0x3be00fa _ (fun u w => State.closeWin_blur 0x3be00fa rfl u w) _ s))

theorem State.undone_calm {a : Nat} (calm : Reg.calm a) : s.undone.reg a = s.reg a := by
  unfold State.undone
  dsimp only
  refine (foldl_keeps (φ := fun u => u.reg a) (fun u x => State.abandonMove_calm calm u x) _ _).trans ?_
  exact (State.abortLoad_calm calm _).trans (State.reg_congr (same_of_blur s.closed_blur .regs rfl) a)

theorem State.sched_undone {k : Nat} (idle : (s.sched k).state = .idle) : (s.undone.sched k).state = .idle := by
  rw [State.sched_of_beats (same_of_blur (s.undone_aborted (μ := 0x6003a) rfl) .beats rfl)]
  refine State.sched_abortLoad _ ?_
  rwa [State.sched_of_beats (same_of_blur s.closed_blur .beats rfl)]

theorem State.gauges_undone : s.undone.gauges = s.gauges := by
  have moved : s.undone.power = ((List.range 4).foldl State.closeWin s).abortLoad.power :=
    same_of_blur (s.undone_aborted (μ := 0x6003a) rfl) .power rfl
  have closed : ((List.range 4).foldl State.closeWin s).power = s.power := same_of_blur s.closed_blur .power rfl
  refine State.gauges_of_plans ?_
  rw [moved, ← closed]
  exact State.power_abortLoad _

theorem State.jobless_undone (h : s.jobless) : s.undone.jobless :=
  h.of_kept (fun _ idle => s.sched_undone idle) fun k => s.undone_calm (Reg.calm_fltJob k)

/-- Every window is closed. -/
theorem State.win_undone {w : Nat} (window : w < 4) : (s.undone.win w).state = .closed := by
  have closed : (((List.range 4).foldl State.closeWin s).win w).state = .closed := by
    refine foldl_reaches (P := fun u : State => (u.win w).state = .closed) (List.mem_range.2 window) (fun u => ?_) (fun u v still => ?_) s
    · exact congrArg WinSt.state (Tbl.get_put ..)
    · by_cases same : w = v
      · rw [same]
        exact congrArg WinSt.state (Tbl.get_put ..)
      · exact (congrArg WinSt.state (Tbl.get_put_other _ same ..)).trans still
  have kept : s.undone.eth = ((List.range 4).foldl State.closeWin s).eth :=
    same_of_blur ((s.undone_aborted (μ := 0x39e00fa) rfl).trans (State.abortLoad_blur 0x39e00fa rfl _)) .eth rfl
  rw [State.win, kept]
  exact closed

end

/-! ## The cores asleep (R122, R471) -/

/-- A port in its low-power idle remembers the state to which it wakes. -/
theorem SkyPort.doze_carries {x : SkyPort} (carries : x.state = .up ∨ x.state = .admitted) :
    x.doze.state = .idleLp ∧ x.doze.back = x.state := by
  unfold SkyPort.doze
  rcases carries with up | admitted
  · rw [up]
    exact ⟨rfl, rfl⟩
  · rw [admitted]
    exact ⟨rfl, rfl⟩

theorem State.sky_map {s t : State} {f : SkyPort → SkyPort} (mapped : t.skys = s.skys.map (fun e => (e.1, f e.2))) (dark : f .reset = .reset)
    (p : Nat) : t.sky p = f (s.sky p) := by
  have found := Tbl.find_map (fun _ x => f x) p s.skys
  unfold State.sky Tbl.get
  rw [mapped, found]
  cases Tbl.find p s.skys with
  | none => exact dark.symm
  | some x => rfl

theorem State.sky_sleepCores (s : State) (p : Nat) : s.sleepCores.sky p = (s.sky p).doze := State.sky_map (f := SkyPort.doze) rfl rfl p

/-! ## The target of Chrysalis (R567) -/

/-- The ballast ended, a partial reset and a host's test given up. -/
def State.nodded (s : State) : State :=
  let s := s.setPower { s.power with ballast := 0, exempt := true }
  let s := if s.regF Reg.modResetStatus 1 0 = 1 then s.setRegF Reg.modResetStatus 1 0 2 else s
  if s.regF Reg.fltKatStatus 1 0 = 1 then s.setRegF Reg.fltKatStatus 1 0 0 else s

/-- The cores asleep, with the slots and what the host had begun. -/
def State.dormant (s : State) : State := s.undone.slotsAsleep.sleepCores

section
variable (s : State)

theorem State.nodded_keeps : ∃ regs, s.nodded = { s with power := { s.power with ballast := 0, exempt := true }, regs := regs } := by
  have cleared {u : State} (kept : ∃ regs, u = { s with power := { s.power with ballast := 0, exempt := true }, regs := regs }) (a k : Nat) :
      ∃ regs, (if u.regF a 1 0 = 1 then u.setRegF a 1 0 k else u) =
        { s with power := { s.power with ballast := 0, exempt := true }, regs := regs } := by
    obtain ⟨regs, rfl⟩ := kept
    split
    · exact ⟨_, rfl⟩
    · exact ⟨_, rfl⟩
  exact cleared (cleared ⟨_, rfl⟩ Reg.modResetStatus 2) Reg.fltKatStatus 0

theorem State.reg_nodded {a : Nat} (notReset : a ≠ Reg.modResetStatus) (notTest : a ≠ Reg.fltKatStatus) : s.nodded.reg a = s.reg a := by
  have cleared (u : State) {b : Nat} (other : a ≠ b) (k : Nat) : (if u.regF b 1 0 = 1 then u.setRegF b 1 0 k else u).reg a = u.reg a :=
    ite_keeps (φ := fun u => u.reg a) (State.reg_setRegF_other u other ..) rfl
  unfold State.nodded
  dsimp only
  rw [cleared _ notTest, cleared _ notReset]
  rfl

theorem exec_chrysalisTarget_awake (awake : s.regF Reg.pwrChrysalis 33 32 ≠ 1) :
    exec .chrysalisTarget s = .next (s.deliver .chrysalisTarget) :=
  congrArg Host.Outcome.next (if_pos awake)

theorem exec_chrysalisTarget_sleeps (entering : s.regF Reg.pwrChrysalis 33 32 = 1) :
    exec .chrysalisTarget s = .next ((((s.deliver .chrysalisTarget).dormant.nodded.setStage 7).setNap 2).flushLife) :=
  congrArg Host.Outcome.next ((if_neg (not_not.2 entering)).trans (by rw [State.dormant, State.slotsAsleep, State.undone, State.nodded]))

/-- A new state of PWR_CHRYSALIS. -/
theorem State.setNap_keeps {k : Nat} (small : k < 4) : ∃ t, s.setNap k = t ∧ t.regF Reg.pwrChrysalis 33 32 = k ∧
    t.regF Reg.pwrChrysalis 31 0 = s.regF Reg.pwrChrysalis 31 0 ∧ s.onlyRegs t [Reg.pwrChrysalis] ∧ ∃ regs, t = { s with regs := regs } :=
  ⟨_, rfl, (State.regF_setRegF s _ (by decide) (by decide) k).trans (Nat.mod_eq_of_lt small),
    State.regF_setRegF_field s _ (by decide) (by decide) (.inl (by decide)) k, State.onlyRegs_setRegF s _ 33 32 k, _, State.setRegF_same rfl ..⟩

/-- What falling asleep adds to the dormant module. -/
theorem State.asleep_keeps : ∃ t, ((s.nodded.setStage 7).setNap 2).flushLife = t ∧ t.regF Reg.pwrChrysalis 33 32 = 2 ∧
    t.regF Reg.pwrChrysalis 31 0 = s.regF Reg.pwrChrysalis 31 0 ∧ t.book.flash = s.book.life ∧ ∃ regs book, t = { s with
      power := { s.power with ballast := 0, exempt := true }, regs := regs, boot := { s.boot with stage := 7 }, book := book } := by
  have low : (s.nodded.setStage 7).regF Reg.pwrChrysalis 31 0 = s.regF Reg.pwrChrysalis 31 0 :=
    congrArg (bits 31 0) (s.reg_nodded (by decide) (by decide))
  obtain ⟨v, is, nap, level, -, regs, same⟩ := (s.nodded.setStage 7).setNap_keeps (k := 2) (by decide)
  obtain ⟨regs', nodded⟩ := s.nodded_keeps
  rw [low] at level
  rw [nodded] at same
  have life : v.book.life = s.book.life := by rw [same]; rfl
  rw [is]
  refine ⟨_, rfl, nap, level, life, regs, v.flushLife.book, ?_⟩
  rw [same]
  rfl

theorem State.dormant_blur : s.dormant.blur 0x1fbe9efe = s.blur 0x1fbe9efe :=
  (State.sleepCores_blur 0x1fbe9efe rfl _).trans
    ((foldl_blur 0x1fbe9efe _ (fun s n => State.sleepSlot_blur 0x1fbe9efe rfl s n) _ _).trans
      ((foldl_blur 0x1fbe9efe _ (fun u x => State.abandonMove_blur 0x1fbe9efe rfl u x) _ _).trans
        ((State.abortLoad_blur 0x1fbe9efe rfl _).trans
          (foldl_blur 0x1fbe9efe _ (fun u w => State.closeWin_blur 0x1fbe9efe rfl u w) _ s))))

theorem State.dormant_cores : s.dormant.routers = [] ∧ s.dormant.foreign = [] ∧ s.dormant.resets = [] ∧ s.dormant.nap.isSome = true := by
  unfold State.dormant
  generalize s.undone.slotsAsleep = w
  exact ⟨rfl, rfl, rfl, rfl⟩

theorem State.dormant_log : s.dormant.flt.log = s.flt.log := by
  have flt : s.undone.slotsAsleep.flt = s.flt :=
    (same_of_blur s.undone.slotsAsleep_blur .flt rfl : s.undone.slotsAsleep.flt = s.undone.flt).trans (same_of_blur s.undone_blur .flt rfl)
  have log (w : State) : w.sleepCores.flt.log = w.flt.log := rfl
  rw [State.dormant, log, flt]

theorem State.gauges_dormant : s.dormant.gauges = s.gauges := by
  have cores (w : State) : w.sleepCores.gauges = w.gauges := rfl
  rw [State.dormant, cores, State.gauges_slotsAsleep, State.gauges_undone]

theorem State.dormant_low : s.dormant.reg Reg.pwrChrysalis = s.reg Reg.pwrChrysalis :=
  (State.reg_congr (same_of_blur (State.sleepCores_blur 0x14009e6a rfl _) .regs rfl) _).trans
    ((s.undone.slotsAsleep_below (by decide)).trans (s.undone_calm Reg.calm_pwrChrysalis))

theorem State.sched_dormant {k : Nat} (slot : k < 8) : (s.dormant.sched k).state ≠ .running := by
  rw [State.dormant, State.sched_of_beats (same_of_blur (State.sleepCores_blur 0x14009e6a rfl _) .beats rfl)]
  exact State.sched_slotsAsleep _ slot

theorem State.win_dormant {w : Nat} (window : w < 4) : (s.dormant.win w).state = .closed := by
  have eth : s.dormant.eth = s.undone.eth :=
    (same_of_blur (State.sleepCores_blur 0x14009e6a rfl _) .eth rfl).trans (same_of_blur s.undone.slotsAsleep_blur .eth rfl)
  rw [State.win, eth]
  exact s.win_undone window

theorem State.sky_dormant (h : s.jobless) (p : Nat) : s.dormant.sky p = (s.sky p).doze := by
  have skys : s.undone.slotsAsleep.skys = s.skys :=
    (State.slotsAsleep_jobless _ (s.jobless_undone h)).trans (same_of_blur s.undone_blur .skys rfl)
  have sky : s.undone.slotsAsleep.sky p = s.sky p := congrArg (Tbl.get SkyPort.reset p) skys
  rw [State.dormant, State.sky_sleepCores, sky]

end

/-! ## The input's voltage (R561, R667, R668) -/

section
variable (s : State)

/-- Bit 3 of PWR_ALARM. -/
theorem State.alarm_keeps : ∃ t, s.alarm 3 = t ∧ t.reg Reg.pwrAlarm = s.reg Reg.pwrAlarm ||| 8#64 ∧ s.onlyRegs t [Reg.pwrAlarm] ∧
    ∃ regs, t = { s with regs := regs } :=
  ⟨_, rfl, (State.reg_setReg ..).trans (setBits_one (by decide) _), State.onlyRegs_setRegF s _ 3 3 1, _, State.setRegF_same rfl ..⟩

/-- The input switch open, and the cause of the reset that follows. -/
theorem State.inputOpen_keeps : ∃ t, (s.setInput 0).setRegF Reg.modResetCause 3 0 0 = t ∧ t.regF Reg.modResetCause 3 0 = 0 ∧
    ∃ regs, t = { s with boot := { s.boot with input := 0 }, regs := regs } :=
  ⟨_, rfl, State.regF_setRegF _ _ (by decide) (by decide) 0, _, State.setRegF_same (s := s.setInput 0) rfl ..⟩

theorem exec_inputUndervoltage_on (on : s.boot.input = 2) : exec .inputUndervoltage s =
    .next (((s.setPower { s.power with ceiling := s.power.floor, hold := min s.power.hold s.power.floor }).alarm 3).raise 0x4092 none 0 0) :=
  congrArg Host.Outcome.next (if_neg (not_not.2 on))

theorem exec_inputOvervoltage_on (on : s.boot.input = 2) : exec .inputOvervoltage s =
    .next (((((s.flushLife.railsOff).setInput 0).setRegF Reg.modResetCause 3 0 0).alarm 3).raise 0x4092 none 0 0) :=
  congrArg Host.Outcome.next (if_neg (not_not.2 on))

/-- A module whose rails are off: OFF, cleared, with its contacts and its logs as they were. -/
structure State.Off (s t : State) : Prop where
  stage : t.boot.stage = 0
  mated : t.boot.mated = s.boot.mated
  present : t.boot.present = s.boot.present
  cells : t.cells = []
  slots : t.slots = []
  jobs : t.jobs = []
  beats : t.beats = { BeatSt.reset with cal := s.beats.cal }
  log : t.flt.log = s.flt.log
  watch : t.flt.watch = s.flt.watch
  book : t.book = s.book
  draw : t.power.p = 0

theorem State.off_railsOff : s.Off s.railsOff := by
  obtain ⟨u, lost, boot, beats, flt, book⟩ : ∃ u, s.loseT0Cells (fun _ => true) = u ∧ u.boot = s.boot ∧ u.beats = s.beats ∧
      u.flt = s.flt ∧ u.book = s.book := by
    have kept := State.loseT0Cells_blur 0x4003a rfl s (fun _ => true)
    exact ⟨_, rfl, same_of_blur kept .boot rfl, same_of_blur kept .beats rfl, same_of_blur kept .flt rfl, same_of_blur kept .book rfl⟩
  unfold State.railsOff State.moduleClear
  rw [lost]
  dsimp only [State.setBoot]
  exact ⟨rfl, rfl, rfl, rfl, rfl, rfl, by rw [beats], by rw [flt], by rw [flt], book, rfl⟩

end

/-! ## Waking (R471, R569) -/

section
variable (s : State)

/-- The port in the state to which it wakes. -/
def SkyPort.woken (x : SkyPort) : SkyPort := if x.state = .idleLp then { x with state := x.back } else x

theorem exec_wakeComplete_asleep (waking : s.regF Reg.pwrChrysalis 33 32 = 3) : exec .wakeComplete s =
    .next ((({ s with skys := s.skys.map fun e => (e.1, e.2.woken) } : State).setNap 0).setStage (if s.boot.degraded ≠ 0 then 8 else 6)) := 
  congrArg Host.Outcome.next (if_neg (not_not.2 waking))

theorem State.precharge_begins (mated : s.boot.mated = true) (bus : s.boot.busLow = false) (open_ : s.boot.input = 0) :
    s.precharge = { s with boot := { s.boot with input := 1 } } :=
  if_pos (by simp [mated, bus, open_])

theorem State.precharge_rests (rests : s.boot.mated = false ∨ s.boot.busLow = true ∨ s.boot.input ≠ 0) : s.precharge = s := by
  refine if_neg fun begins => ?_
  simp only [Bool.and_eq_true, Bool.not_eq_true', beq_iff_eq] at begins
  obtain ⟨⟨mated, bus⟩, open_⟩ := begins
  simp [mated, bus, open_] at rests

end

/-- What the sleep of the slots and cores leaves of the module. -/
structure State.Dormant (s t : State) : Prop where
  boot : t.boot = s.boot
  low : t.regF Reg.pwrChrysalis 31 0 = s.regF Reg.pwrChrysalis 31 0
  routers : t.routers = []
  foreign : t.foreign = []
  resets : t.resets = []
  nap : t.nap.isSome = true
  energy : t.power.e = s.power.e
  halves : t.power.halves = s.power.halves
  log : t.flt.log = s.flt.log
  life : t.book.life = s.book.life
  sky : s.jobless → ∀ p, t.sky p = (s.sky p).doze
  sched : ∀ k, k < 8 → (t.sched k).state ≠ .running
  win : ∀ w, w < 4 → (t.win w).state = .closed

theorem State.dormant_holds (s : State) : s.Dormant s.dormant := by
  obtain ⟨routers, foreign, resets, nap⟩ := s.dormant_cores
  obtain ⟨energy, halves⟩ := Prod.mk.inj (s.gauges_dormant : (s.dormant.power.e, s.dormant.power.halves) = (s.power.e, s.power.halves))
  have book : s.dormant.book = s.book := same_of_blur s.dormant_blur .book rfl
  exact {
    boot := same_of_blur s.dormant_blur .boot rfl
    low := congrArg (bits 31 0) s.dormant_low
    routers := routers
    foreign := foreign
    resets := resets
    nap := nap
    energy := energy
    halves := halves
    log := s.dormant_log
    life := by rw [book]
    sky := fun h p => s.sky_dormant h p
    sched := fun _ slot => s.sched_dormant slot
    win := fun _ window => s.win_dormant window }

/-- Settles O35: each lane is cut into steps whose frames say what they leave; the target of Chrysalis undoes what the host had begun,
puts the slots and the cores to sleep, and no step of it writes PWR_CHRYSALIS but the last. -/
theorem inputAndChrysalis : Obligations.InputAndChrysalis := by
  unfold Obligations.InputAndChrysalis
  intro s a n under
  refine ⟨fun off => ⟨?_, ?_⟩, fun on => ?under, fun on => ?opens, fun ⟨mated, bus, open_⟩ => ?_, fun rests => ?_,
    exec_chrysalisTarget_awake s, fun entering => ?sleeps, fun awake => ?_, fun waking => ?wakes⟩
  case under =>
    obtain ⟨t, alarmed, bits, only, regs, rfl⟩ := State.alarm_keeps
      (s.setPower { s.power with ceiling := s.power.floor, hold := min s.power.hold s.power.floor })
    have run := exec_inputUndervoltage_on s on
    rw [alarmed] at run
    exact ⟨_, run, rfl, bits, only, rfl⟩
  case opens =>
    obtain ⟨u, off, cleared⟩ : ∃ u, s.flushLife.railsOff = u ∧ s.flushLife.Off u := ⟨_, rfl, State.off_railsOff _⟩
    obtain ⟨v, opened, cause, regs, same⟩ := u.inputOpen_keeps
    obtain ⟨t, alarmed, alarm, only, regs', kept⟩ := v.alarm_keeps
    have run := exec_inputOvervoltage_on s on
    rw [off, opened, alarmed] at run
    subst same
    have told : (t.reg a).getLsbD 3 = true := by
      rw [alarm, BitVec.getLsbD_or]
      exact Bool.or_true _
    have reset : t.regF Reg.modResetCause 3 0 = 0 := (congrArg (bits 3 0) (only _ (by decide))).trans cause
    subst kept
    exact ⟨_, run, cleared.stage, rfl, cleared.mated, cleared.present, told, reset, ⟨_, rfl⟩, cleared.cells, cleared.slots, cleared.jobs,
      cleared.beats, cleared.log, cleared.watch, by rw [cleared.book]; rfl, cleared.draw⟩
  case sleeps =>
    obtain ⟨d, dormant, h⟩ : ∃ d, (s.deliver .chrysalisTarget).dormant = d ∧ (s.deliver .chrysalisTarget).Dormant d :=
      ⟨_, rfl, State.dormant_holds _⟩
    obtain ⟨t, asleep, nap, level, flash, regs, book, same⟩ := d.asleep_keeps
    have run := exec_chrysalisTarget_sleeps s entering
    rw [dormant, asleep] at run
    rw [h.low] at level
    rw [h.life] at flash
    subst same
    refine ⟨_, run, congrArg (fun b : BootSt => { b with stage := 7 }) h.boot, nap, level, h.routers, h.foreign, h.resets, rfl, rfl, h.energy,
      h.halves, h.nap, h.log, flash, fun p idle carries => ?_, h.sched, h.win⟩
    have sky := h.sky idle p
    obtain ⟨state, back⟩ := SkyPort.doze_carries carries
    exact ⟨(congrArg SkyPort.state sky).trans state, (congrArg SkyPort.back sky).trans back⟩
  case wakes =>
    obtain ⟨t, is, nap, level, only, regs, same⟩ :=
      ({ s with skys := s.skys.map fun e => (e.1, e.2.woken) } : State).setNap_keeps (k := 0) (by decide)
    have run := exec_wakeComplete_asleep s waking
    rw [is] at run
    have stage : (if s.boot.degraded ≠ 0 then 8 else 6) = if s.boot.degraded = 0 then 6 else 8 := ite_not ..
    rw [stage] at run
    subst same
    exact ⟨_, run, nap, level, only, rfl, fun p => State.sky_map (f := SkyPort.woken) rfl rfl p, rfl⟩
  · exact congrArg Host.Outcome.next (if_pos off)
  · exact congrArg Host.Outcome.next (if_pos off)
  · exact congrArg Host.Outcome.next (s.precharge_begins mated bus open_)
  · exact congrArg Host.Outcome.next (s.precharge_rests rests)
  · exact congrArg Host.Outcome.next (if_pos awake)

end Sys2Proof.Machine

namespace Sys2Proof.Machine

open Sys2Proof

/-! # Stream programs: the entries as the skidder reaches them. -/

/-! ## The fields of an entry (R306) -/

theorem StreamEntry.op_extract (e : StreamEntry) : e.op = (e.extractLsb' 252 4).toNat := bits_extract 255 252 e
theorem StreamEntry.kind_extract (e : StreamEntry) : e.kind = (e.extractLsb' 243 1).toNat := bits_extract 243 243 e
theorem StreamEntry.handle_extract (e : StreamEntry) : e.handle = (e.extractLsb' 208 24).toNat := bits_extract 231 208 e
theorem StreamEntry.offset_extract (e : StreamEntry) : e.offset = (e.extractLsb' 172 36).toNat := bits_extract 207 172 e
theorem StreamEntry.target_extract (e : StreamEntry) : e.target = (e.extractLsb' 172 13).toNat := bits_extract 184 172 e
theorem StreamEntry.fills_extract (e : StreamEntry) : e.fills = (e.extractLsb' 120 16).toNat + 1 := congrArg (· + 1) (bits_extract 135 120 e)
theorem StreamEntry.listTag_extract (e : StreamEntry) : e.listTag = (e.extractLsb' 81 16).toNat := bits_extract 96 81 e
theorem StreamEntry.cap_extract (e : StreamEntry) : e.cap = (e.extractLsb' 65 16).toNat := bits_extract 80 65 e
theorem StreamEntry.recHandle_extract (e : StreamEntry) : e.recHandle = (e.extractLsb' 9 24).toNat := bits_extract 32 9 e
theorem StreamEntry.recSlot_extract (e : StreamEntry) : e.recSlot = (e.extractLsb' 0 9).toNat := bits_extract 8 0 e

/-! ## Writing one stream program or one object -/

@[simp] theorem State.setStream_setStream (s : State) (n : Nat) (x y : StreamSt) : (s.setStream n x).setStream n y = s.setStream n y := by
  simp [State.setStream, Tbl.put_put]

theorem State.onlyStream_setStream (s : State) (n : Nat) (x : StreamSt) : s.onlyStream (s.setStream n x) n := fun _ other =>
  State.stream_setStream_other s other x

/-- A command that leaves `y` as the program of slot `n` changes nothing else. -/
theorem opens_of_setStream {s : State} {i : Instr} {n : Nat} {y : StreamSt} (h : exec i s = .next (s.setStream n y)) :
    ∃ t, exec i s = .next t ∧ t.stream n = y ∧ s.onlyStream t n ∧ t = { s with streams := t.streams } :=
  ⟨_, h, State.stream_setStream .., State.onlyStream_setStream s n y, rfl⟩

@[simp] theorem State.obj_setObj (s : State) (h : Nat) (o : Obj) : (s.setObj h o).obj h = some o := Tbl.find_put h o s.yard.objs

theorem State.obj_setObj_other (s : State) {h k : Nat} (other : k ≠ h) (o : Obj) : (s.setObj h o).obj k = s.obj k :=
  Tbl.find_put_other other o s.yard.objs

/-- A used object is stamped with the beat. -/
theorem State.useObj_some {s : State} {h : Nat} {o : Obj} (some_ : s.obj h = some o) : s.useObj h = s.setObj h { o with stamp := s.beat } := by
  simp only [State.useObj, State.modObj, some_]

/-! ## Reaching an entry (R307, R310, R313) -/

/-- The program runs and reaches entry `e`, its open entries waiting for their lists. -/
def StreamSt.reaches (x : StreamSt) (e : StreamEntry) : Prop :=
  (x.state = .running ∨ x.state = .waitList) ∧ x.pc < x.prog.length ∧ x.prog.getD x.pc 0 = e ∧ x.ending = false ∧
    ∀ o ∈ x.opens, o.needsList = true ∧ o.list = none

section
variable {s : State} {n : Nat} {x : StreamSt} {e : StreamEntry}

theorem StreamSt.runs_of (h : x.state = .running ∨ x.state = .waitList) : x.runs = true := by
  rcases h with h | h <;> rw [StreamSt.runs, h] <;> rfl

theorem StreamSt.reaches.entry (h : x.reaches e) : x.entryAt x.pc = e := by
  obtain ⟨-, -, here, -⟩ := h
  exact here

theorem StreamSt.reaches.waits_any (h : x.reaches e) : x.opens.any (fun o => o.needsList && o.list.isNone) = !x.opens.isEmpty := by
  obtain ⟨-, -, -, -, waits⟩ := h
  cases opens : x.opens with
  | nil => rfl
  | cons o l =>
    obtain ⟨needs, none_⟩ := waits o (by rw [opens]; exact List.mem_cons_self ..)
    simp [needs, none_]

theorem State.streamStep_acts (reached : (s.stream n).reaches e) {op : Nat} (is : (e.extractLsb' 252 4).toNat = op)
    (act : State → StreamEntry → State) : s.streamStep n op act = act s e := by
  have ⟨live, inside, _, goes, waits⟩ := reached
  have mayOpen : (s.stream n).mayOpen = true := List.all_eq_true.2 fun o ho => by
    obtain ⟨needs, none_⟩ := waits o ho
    rw [needs, none_]
    rfl
  unfold State.streamStep
  simp only [reached.entry]
  refine if_pos ?_
  rw [StreamSt.runs_of live, mayOpen, goes, decide_eq_true inside, e.op_extract, is, beq_self_eq_true]
  rfl

theorem State.streamStep_rests (running : (s.stream n).state ≠ .running) (waitList : (s.stream n).state ≠ .waitList) (op : Nat)
    (act : State → StreamEntry → State) : s.streamStep n op act = s := by
  have runs : (s.stream n).runs = false := by simp [StreamSt.runs, running, waitList]
  unfold State.streamStep
  simp only [runs, Bool.false_and]
  rfl

/-- Entry `e` opened for reading, without a list. -/
def StreamSt.entryOpened (x : StreamSt) (e : StreamEntry) : OpenEntry :=
  { index := x.pc, iter := x.iterAt x.pc, read := 0, fills := (e.extractLsb' 120 16).toNat + 1, pos := (e.extractLsb' 172 36).toNat,
    refs := false, needsList := false, list := none, kind := 0 }

/-- The program past its entry, which `o` reads. -/
def StreamSt.opening (x : StreamSt) (o : OpenEntry) : StreamSt :=
  { x with pc := x.pc + 1, opens := x.opens ++ [o],
           state := if o.needsList && o.list.isNone then .waitList else if x.opens = [] then .running else .waitList }

theorem StreamSt.refresh_opened (reached : x.reaches e) (o : OpenEntry) :
    ({ x with pc := x.pc + 1, opens := x.opens ++ [o] } : StreamSt).refresh = x.opening o := by
  have any := reached.waits_any
  obtain ⟨live, -⟩ := reached
  have runs : ({ x with pc := x.pc + 1, opens := x.opens ++ [o] } : StreamSt).runs = true := StreamSt.runs_of live
  rw [StreamSt.refresh, if_pos runs]
  simp only [List.any_append, any, List.any_cons, List.any_nil, Bool.or_false, StreamSt.opening]
  cases o.needsList && o.list.isNone <;> cases x.opens <;> rfl

theorem State.openEntry_reached (reached : (s.stream n).reaches e) (needs : Bool) (list : Option (List Nat)) (kind : Nat) :
    s.openEntry n needs list kind = s.setStream n ((s.stream n).opening
      { (s.stream n).entryOpened e with needsList := needs, list := list, kind := kind }) := by
  unfold State.openEntry State.modStream
  simp only [reached.entry, StreamSt.refresh_opened reached, e.fills_extract, e.offset_extract]
  rfl

/-- What STREAM_RECORDED checks of the record `bs` of entry `e` (R258, R319). -/
def recordGood (e : StreamEntry) (bs : Bytes) : Bool :=
  (crc32c (bs.drop 4)).toNat == leAt bs 0 4 && natBits 127 112 (ofLE (bs.take 16)) == (e.extractLsb' 81 16).toNat &&
    natBits 68 53 (ofLE (bs.take 16)) == (e.extractLsb' 65 16).toNat

theorem recordGood_iff (e : StreamEntry) (bs : Bytes) : recordGood e bs = true ↔ (crc32c (bs.drop 4)).toNat = leAt bs 0 4 ∧
    natBits 127 112 (ofLE (bs.take 16)) = (e.extractLsb' 81 16).toNat ∧ natBits 68 53 (ofLE (bs.take 16)) = (e.extractLsb' 65 16).toNat := by
  simp only [recordGood, Bool.and_eq_true, beq_iff_eq, and_assoc]

/-- A skidder fault: the program is halted with nothing open and nothing in the deck, and the notice is on its way (R330, R333). -/
theorem State.skdFault_keeps (s : State) (n code entry : Nat) : ∃ t, s.skdFault n code entry = t ∧
    t.stream n = { s.stream n with state := .halted, opens := [], ending := false, deck := [] } ∧ s.onlyStream t n ∧
    s.onlyRegs t [Reg.skdFault] ∧
    t.inFlight = s.inFlight ++ [.faultNotice ⟨code, some n, ((s.stream n).entryAt entry).handle, entry, 15⟩] := by
  obtain ⟨u, set⟩ : ∃ u, s.setReg Reg.skdFault (BitVec.ofNat 64 (field 63 40 ((s.stream n).entryAt entry).handle + field 39 27 entry +
    field 26 24 n + field 15 0 code)) = u := ⟨_, rfl⟩
  have kept := State.dropRefs_blur 0x40000 rfl u n
  have streams : (u.dropRefs n).streams = u.streams := same_of_blur kept .streams rfl
  have inFlight : (u.dropRefs n).inFlight = u.inFlight := same_of_blur kept .inFlight rfl
  have stream (m : Nat) : (u.dropRefs n).stream m = u.stream m := by
    unfold State.stream
    rw [streams]
  have reg (a : Nat) : (u.dropRefs n).reg a = u.reg a := reg_of_blur (State.dropRefs_blur _ rfl u n) a
  refine ⟨_, rfl, ?_⟩
  unfold State.skdFault State.stopStream State.modStream
  dsimp only
  rw [set]
  subst set
  refine ⟨?_, fun m other => ?_, fun a other => ?_, ?_⟩
  · rw [State.raise_stream, State.stream_setStream, stream, State.setReg_stream]
    rfl
  · rw [State.raise_stream, State.stream_setStream_other _ other, stream, State.setReg_stream]
  · rw [State.reg_raise]
    exact (reg a).trans (State.onlyRegs_setReg s _ _ a other)
  · rw [State.raise_inFlight, State.setStream_inFlight, inFlight, State.setReg_inFlight]

/-! ## Each entry (R307, R313, R317 to R319) -/

section
variable (reached : (s.stream n).reaches e)
include reached

theorem exec_streamDeliver (is : (e.extractLsb' 252 4).toNat = 1) :
    exec (.streamDeliver n) s = .next (s.setStream n ((s.stream n).opening ((s.stream n).entryOpened e))) :=
  congrArg Host.Outcome.next ((State.streamStep_acts reached is _).trans (State.openEntry_reached reached false none 0))

theorem exec_streamNear (is : (e.extractLsb' 252 4).toNat = 4) :
    exec (.streamNear n) s = .next (s.setStream n ((s.stream n).opening ((s.stream n).entryOpened e))) :=
  congrArg Host.Outcome.next ((State.streamStep_acts reached is _).trans (State.openEntry_reached reached false none 0))

theorem exec_streamGather_waits (is : (e.extractLsb' 252 4).toNat = 2)
    (none_ : (s.stream n).lists.find? (fun l => l.tag == (e.extractLsb' 81 16).toNat && l.merged) = none) :
    exec (.streamGather n) s = .next (s.setStream n ((s.stream n).opening { (s.stream n).entryOpened e with needsList := true })) := by
  refine congrArg Host.Outcome.next ((State.streamStep_acts reached is _).trans ?_)
  dsimp only
  rw [e.listTag_extract, none_]
  exact State.openEntry_reached reached true none 0

theorem exec_streamGather_takes (is : (e.extractLsb' 252 4).toNat = 2) {l : HeldList}
    (held : (s.stream n).lists.find? (fun l => l.tag == (e.extractLsb' 81 16).toNat && l.merged) = some l) :
    exec (.streamGather n) s = .next (s.setStream n (({ s.stream n with lists := (s.stream n).lists.erase l } : StreamSt).opening
      { (s.stream n).entryOpened e with needsList := true, list := some (l.full (e.extractLsb' 65 16).toNat), kind := l.kind })) := by
  refine congrArg Host.Outcome.next ((State.streamStep_acts reached is _).trans ?_)
  dsimp only
  rw [e.listTag_extract, held, e.cap_extract]
  unfold State.modStream
  have taken : ((s.setStream n { s.stream n with lists := (s.stream n).lists.erase l }).stream n).reaches e := by
    rw [State.stream_setStream]
    exact reached
  refine (State.openEntry_reached taken ..).trans ?_
  rw [State.setStream_setStream, State.stream_setStream]
  rfl

/-- A record that lies in its object and reads soundly is used when it is good, and else a fault. -/
theorem exec_streamRecorded (is : (e.extractLsb' 252 4).toNat = 3) {o : Obj} (some_ : s.obj (e.extractLsb' 9 24).toNat = some o) :
    let x := s.stream n
    let cap := (e.extractLsb' 65 16).toNat
    let at_ := recordAt ((e.extractLsb' 0 9).toNat + x.iterAt x.pc) cap
    let bs := s.objReadV (e.extractLsb' 9 24).toNat o at_ (16 + 2 * cap)
    at_ + (16 + 2 * cap) ≤ o.extents * extentBytes → s.objBadV (e.extractLsb' 9 24).toNat o at_ (16 + 2 * cap) = false →
    exec (.streamRecorded n) s = .next (
      if recordGood e bs then
        (s.setObj (e.extractLsb' 9 24).toNat { o with stamp := s.beat }).setStream n (x.opening { x.entryOpened e with
          needsList := true, list := some ((List.range cap).map (fun k => leAt bs (16 + 2 * k) 2)), kind := (e.extractLsb' 243 1).toNat })
      else s.skdFault n 0x4022 x.pc) := by
  intro x cap at_ bs fits sound
  refine congrArg Host.Outcome.next ((State.streamStep_acts reached is _).trans ?_)
  dsimp only
  rw [e.recHandle_extract, some_, e.cap_extract, e.recSlot_extract, e.listTag_extract, e.kind_extract]
  refine (if_neg (Nat.not_lt.2 fits)).trans ((if_neg (Bool.eq_false_iff.1 sound)).trans ?_)
  change (if (!recordGood e bs) = true then _ else _) = _
  cases good : recordGood e bs with
  | false => rfl
  | true =>
    rw [State.useObj_some some_]
    exact State.openEntry_reached (s := s.setObj _ _) reached ..

theorem exec_streamLoop (is : (e.extractLsb' 252 4).toNat = 5) :
    let x := s.stream n
    let done := ((x.loops.find? (fun l => l.1 == x.pc)).map (fun l => l.2.1)).getD 0
    let rest := x.loops.filter (fun l => l.1 != x.pc)
    exec (.streamLoop n) s = .next (s.setStream n (
      if done < (e.extractLsb' 120 16).toNat then
        { x with pc := (e.extractLsb' 172 13).toNat, loops := (x.pc, done + 1, (e.extractLsb' 120 16).toNat) :: rest }
      else { x with pc := x.pc + 1, loops := rest })) := by
  refine congrArg Host.Outcome.next ((State.streamStep_acts reached is _).trans ?_)
  dsimp only
  rw [e.fills_extract, e.target_extract]
  rfl

theorem exec_streamEnd (is : (e.extractLsb' 252 4).toNat = 15) :
    exec (.streamEnd n) s = .next (if (s.stream n).opens = [] then s.setStream n { s.stream n with state := .done } else s) := by
  refine congrArg Host.Outcome.next ((State.streamStep_acts reached is _).trans ?_)
  exact if_congr List.isEmpty_iff rfl rfl

end

theorem exec_stream_rests (running : (s.stream n).state ≠ .running) (waitList : (s.stream n).state ≠ .waitList) :
    ∀ i ∈ ([.streamDeliver n, .streamNear n, .streamGather n, .streamRecorded n, .streamLoop n, .streamEnd n] : List Instr),
      exec i s = .next s := by
  have rests (op : Nat) (act : State → StreamEntry → State) :
      Host.Outcome.next (s.streamStep n op act) = (.next s : Host.Outcome State Fault Refusal) :=
    congrArg Host.Outcome.next (State.streamStep_rests running waitList op act)
  simp only [List.forall_mem_cons, List.not_mem_nil, false_imp_iff, implies_true, and_true]
  exact ⟨rests .., rests .., rests .., rests .., rests .., rests ..⟩

end

/-- Settles O15: a program that reaches its entry offers it to its command alone; the entry opened joins those that wait for lists. -/
theorem streamEntries : Obligations.StreamEntries := by
  unfold Obligations.StreamEntries
  intro s n e x op fills cap tag rec_ ready fresh live opened
  refine ⟨fun reached is => opens_of_setStream (exec_streamDeliver reached is), fun reached is => opens_of_setStream (exec_streamNear reached is),
    fun reached is none_ => opens_of_setStream (exec_streamGather_waits reached is none_),
    fun l reached is held => opens_of_setStream (exec_streamGather_takes reached is held),
    fun o reached is some_ fits sound => ⟨fun good => ?good, fun bad => ?bad⟩, fun reached is => ?loop,
    fun reached is none_ => opens_of_setStream ((exec_streamEnd reached is).trans (congrArg _ (if_pos none_))),
    fun reached is some_ => (exec_streamEnd reached is).trans (congrArg _ (if_neg some_)), exec_stream_rests⟩
  case good =>
    have run := (exec_streamRecorded reached is some_ fits sound).trans (congrArg _ (if_pos ((recordGood_iff e _).2 good)))
    exact ⟨_, run, State.stream_setStream .., State.onlyStream_setStream (s.setObj _ _) n _, State.obj_setObj ..,
      fun h other => State.obj_setObj_other s other _, rfl⟩
  case bad =>
    have run := (exec_streamRecorded reached is some_ fits sound).trans (congrArg _ (if_neg fun good => bad ((recordGood_iff e _).1 good)))
    obtain ⟨t, halted, stream, only, regs, inFlight⟩ := s.skdFault_keeps n 0x4022 x.pc
    rw [halted] at run
    rw [StreamSt.reaches.entry reached, e.handle_extract] at inFlight
    exact ⟨t, run, by rw [stream], by rw [stream], by rw [stream], by rw [stream], only, regs, inFlight⟩
  case loop =>
    have run := exec_streamLoop reached is
    refine ⟨fun none_ more => opens_of_setStream (run.trans ?_), fun q d k some_ more => opens_of_setStream (run.trans ?_),
      fun q d k some_ last => opens_of_setStream (run.trans ?_)⟩
    · rw [none_]
      exact congrArg _ (congrArg _ (if_pos more))
    · rw [some_]
      exact congrArg _ (congrArg _ (if_pos more))
    · rw [some_]
      exact congrArg _ (congrArg _ (if_neg (Nat.not_lt.2 last)))

end Sys2Proof.Machine

namespace Sys2Proof.Machine

open Sys2Proof

/-! # Fetch lists at the skidder: a block's list arrives, and the lists of a tag merge. -/

/-! ## A set of candidates in ascending order (R253) -/

theorem mem_insertAsc {a c : Nat} {l : List Nat} : c ∈ insertAsc a l ↔ c = a ∨ c ∈ l := by
  induction l with
  | nil => simp [insertAsc]
  | cons d l ih =>
    unfold insertAsc
    split
    · exact List.mem_cons
    · split
      case isTrue same => simp [same]
      case isFalse => rw [List.mem_cons, ih, List.mem_cons, or_left_comm]

theorem pairwise_insertAsc (a : Nat) {l : List Nat} (ascends : l.Pairwise (· < ·)) : (insertAsc a l).Pairwise (· < ·) := by
  induction l with
  | nil => exact List.pairwise_singleton ..
  | cons d l ih =>
    obtain ⟨above, rest⟩ := List.pairwise_cons.1 ascends
    unfold insertAsc
    split
    case isTrue below =>
      exact List.pairwise_cons.2 ⟨List.forall_mem_cons.2 ⟨below, fun c hc => below.trans (above c hc)⟩, ascends⟩
    case isFalse notBelow =>
      split
      case isTrue => exact ascends
      case isFalse other =>
        refine List.pairwise_cons.2 ⟨fun c hc => ?_, ih rest⟩
        rcases mem_insertAsc.1 hc with same | held
        · omega
        · exact above c held

theorem mem_foldl_insertAsc {c : Nat} (got l : List Nat) : c ∈ got.foldl (fun a c => insertAsc c a) l ↔ c ∈ l ∨ c ∈ got := by
  induction got generalizing l with
  | nil => simp
  | cons a got ih => rw [List.foldl_cons, ih, mem_insertAsc, List.mem_cons, or_comm (a := c = a), or_assoc]

theorem pairwise_foldl_insertAsc (got : List Nat) {l : List Nat} (ascends : l.Pairwise (· < ·)) :
    (got.foldl (fun a c => insertAsc c a) l).Pairwise (· < ·) := by
  induction got generalizing l with
  | nil => exact ascends
  | cons a got ih => exact ih (pairwise_insertAsc a ascends)

/-! ## A block's list arrives (R254, R255, R318, R319) -/

/-- The tag of a list's header, the candidates that the list holds, and whether its check is good (R254). -/
def listTagOf (list : Bytes) : Nat := natBits 127 112 (ofLE (list.take 16))
def listCands (list : Bytes) : List Nat :=
  ((List.range (natBits 84 69 (ofLE (list.take 16)))).map (fun k => leAt list (16 + 2 * k) 2)).filter (fun c => c != 0xFFFF)
def listGood (list : Bytes) : Prop := (crc32c (list.drop 4)).toNat = leAt list 0 4

/-- What is held for the tag of a list before any block's list has joined. -/
def heldNone (list : Bytes) : HeldList :=
  let h := ofLE (list.take 16)
  ⟨listTagOf list, [], [], false, natBits 111 88 h, natBits 87 87 h, natBits 86 86 h, false⟩

/-- The lists held for a tag once the list of block `f` has joined them. -/
def HeldList.joined (l : HeldList) (f : FmId) (list : Bytes) : HeldList :=
  { l with froms := l.froms ++ [f], cands := (listCands list).foldl (fun a c => insertAsc c a) l.cands,
           trunc := l.trunc || bit 85 (BitVec.ofNat 128 (ofLE (list.take 16))) }

section
variable {s : State} {f : FmId} {list : Bytes} {n : Nat} (slot : s.slotOfRegion f.region = some n)
include slot

theorem exec_fetchList_waits (new : (s.stream n).lists.find? (fun l => l.tag == listTagOf list && !l.merged) = none)
    (full : 16 ≤ (s.stream n).lists.length) : exec (.fetchList f list) s = .next s := by
  refine congrArg Host.Outcome.next ?_
  dsimp only
  rw [slot]
  dsimp only
  rw [← listTagOf, new]
  exact if_pos (by simpa using full)

/-- A list that finds its tag held, or room for it, is checked and joins. -/
theorem exec_fetchList_taken {old : Option HeldList}
    (find : (s.stream n).lists.find? (fun l => l.tag == listTagOf list && !l.merged) = old)
    (room : old ≠ none ∨ (s.stream n).lists.length < 16) :
    (listGood list → exec (.fetchList f list) s = .next ((s.deliver (.fetchList f list)).setStream n { s.stream n with
      lists := (s.stream n).lists.filter (fun k => some k != old) ++ [(old.getD (heldNone list)).joined f list] })) ∧
    (¬ listGood list → exec (.fetchList f list) s = .next ((s.deliver (.fetchList f list)).skdFault n 0x4022 (s.stream n).pc)) := by
  have goes : ¬ (old.isNone && decide (16 ≤ (s.stream n).lists.length)) = true := by
    simp only [Bool.and_eq_true, Option.isNone_iff_eq_none, decide_eq_true_eq]
    rintro ⟨new, full⟩
    exact room.elim (· new) (Nat.not_lt.2 full)
  have taken : exec (.fetchList f list) s = .next (if (crc32c (list.drop 4)).toNat ≠ leAt list 0 4
      then (s.deliver (.fetchList f list)).skdFault n 0x4022 (s.stream n).pc
      else (s.deliver (.fetchList f list)).setStream n { s.stream n with
        lists := (s.stream n).lists.filter (fun k => some k != old) ++ [(old.getD (heldNone list)).joined f list] }) := by
    refine congrArg Host.Outcome.next ?_
    dsimp only
    rw [slot]
    dsimp only
    rw [← listTagOf, find, if_neg goes]
    rfl
  exact ⟨fun good => taken.trans (congrArg _ (if_neg (not_not.2 good))), fun bad => taken.trans (congrArg _ (if_pos bad))⟩

end

/-! ## The lists of a tag merge (R255, R317) -/

/-- A saturating count leaves every other field of its register alone. -/
theorem State.regF_satReg_field (s : State) (a : Nat) {hi lo hj lj : Nat} (h1 : lo ≤ hi) (h2 : hi < 64) (apart : hj < lo ∨ hi < lj)
    (v : Nat) : (s.satReg a hi lo v).regF a hj lj = s.regF a hj lj := by
  unfold State.satReg State.regF satField
  rw [State.reg_setReg, bits_setBits_other h1 h2 apart]

/-- The count goes to each contributor, and the merge is counted in SKD_LISTS. -/
theorem State.mergeCounted_keeps (s : State) (ms : List Instr) (n : Nat) (trunc : Bool) :
    ∃ u, ((s.sendAll ms).addReg (Reg.skdLists n) 31 0 1).satReg (Reg.skdLists n) 47 32 (ofBool trunc) = u ∧
      u.regF (Reg.skdLists n) 31 0 = (s.regF (Reg.skdLists n) 31 0 + 1) % 2 ^ 32 ∧
      u.regF (Reg.skdLists n) 47 32 = min (s.regF (Reg.skdLists n) 47 32 + ofBool trunc) 0xFFFF ∧
      s.onlyRegs u [Reg.skdLists n] ∧ ∃ regs, u = { s with regs := regs, inFlight := s.inFlight ++ ms } := by
  refine ⟨_, rfl, ?_, ?_, fun a other => ?_, _, rfl⟩
  · exact (State.regF_satReg_field _ _ (by omega) (by omega) (.inl (by omega)) _).trans (State.regF_addReg _ _ (by omega) (by omega) 1)
  · refine (State.regF_satReg _ _ (by omega) (by omega) _).trans ?_
    rw [State.addReg, State.regF_setRegF_field _ _ (by omega) (by omega) (.inr (by omega))]
    rfl
  · have other : a ≠ Reg.skdLists n := fun same => other (List.mem_singleton.2 same)
    exact (State.reg_satReg_other _ other 47 32 _).trans (State.reg_addReg_other _ other 31 0 1)

/-- The merged list of an entry with capacity `cap`: the lowest candidates stay. -/
def HeldList.mergedTo (l : HeldList) (cap : Nat) : HeldList :=
  { l with cands := l.cands.take cap, trunc := l.trunc || decide (cap < l.cands.length), merged := true }

/-- The program once the lists `l` have merged to `m`: the entry `k` that waits takes it, or it is held. -/
def StreamSt.merged (x : StreamSt) (k cap : Nat) (l m : HeldList) : StreamSt :=
  let waits := x.opens.find? (fun o => o.index == k && o.needsList && o.list.isNone)
  ({ x with
      lists := x.lists.filter (fun q => q != l) ++ (if waits.isSome then [] else [m]),
      opens := x.opens.map (fun o => if waits.isSome ∧ o.index = k then { o with list := some (m.full cap), kind := m.kind } else o) } :
    StreamSt).refresh

section
variable {x : StreamSt} {k cap : Nat} {l m : HeldList}

theorem StreamSt.merged_held (opens : x.opens = []) (running : x.state = .running) :
    x.merged k cap l m = { x with lists := x.lists.filter (fun q => q != l) ++ [m] } := by
  obtain ⟨prog, state, pc, loops, opens, deck, number, lists, prefetch, ending⟩ := x
  subst opens running
  rfl

theorem StreamSt.merged_given {o : OpenEntry} (opens : x.opens = [o]) (is : o.index = k) (needs : o.needsList = true) (none_ : o.list = none)
    (waitList : x.state = .waitList) :
    x.merged k cap l m = { x with state := .running, lists := x.lists.filter (fun q => q != l),
                                  opens := [{ o with list := some (m.full cap), kind := m.kind }] } := by
  obtain ⟨prog, state, pc, loops, opens, deck, number, lists, prefetch, ending⟩ := x
  subst opens waitList
  simp [StreamSt.merged, StreamSt.refresh, StreamSt.runs, is, needs, none_]

variable {s : State} {n tag : Nat} (held : (s.stream n).lists.find? (fun l => l.tag == tag && !l.merged) = some l)
  (gather : (s.stream n).gatherOf tag = some k)
include held gather

theorem exec_listMerge_waits (missing : ∃ f ∈ s.contributors n ((s.stream n).prog.getD k 0), f ∉ l.froms) :
    exec (.listMerge n tag) s = .next s := by
  obtain ⟨f, contributes, missing⟩ := missing
  refine congrArg Host.Outcome.next ?_
  dsimp only
  rw [held, gather]
  refine if_pos ?_
  rw [Bool.not_eq_true', List.all_eq_false]
  exact ⟨f, contributes, by simpa using missing⟩

/-- A merge without a record: each contributor is told the count, and the program takes the list. -/
theorem exec_listMerge_merges (all : ∀ f ∈ s.contributors n ((s.stream n).prog.getD k 0), f ∈ l.froms)
    (plain : (((s.stream n).prog.getD k 0).extractLsb' 9 24).toNat = 0) :
    let cap := (((s.stream n).prog.getD k 0).extractLsb' 65 16).toNat
    let m := l.mergedTo cap
    exec (.listMerge n tag) s = .next ((((s.sendAll
      ((s.contributors n ((s.stream n).prog.getD k 0)).map (fun f => .countReturn f tag m.cands.length))).addReg
        (Reg.skdLists n) 31 0 1).satReg (Reg.skdLists n) 47 32 (ofBool m.trunc)).setStream n ((s.stream n).merged k cap l m)) := by
  have contained : ¬ (!(s.contributors n ((s.stream n).prog.getD k 0)).all (fun f => l.froms.contains f)) = true := by
    simpa using all
  refine congrArg Host.Outcome.next ?_
  dsimp only
  rw [held, gather]
  refine (if_neg contained).trans ?_
  rw [StreamSt.entryAt, StreamEntry.recHandle_extract, if_pos plain, StreamEntry.cap_extract]
  rfl

end

/-- Settles O17: a list joins in ascending order; a merge keeps the lowest candidates, tells each contributor and gives the list on. -/
theorem fetchLists : Obligations.FetchLists := by
  unfold Obligations.FetchLists
  refine ⟨fun s f list n slot => ?arrives, fun s n tag k l => ?merges⟩
  case arrives =>
    intro x m h tag good got
    refine ⟨exec_fetchList_waits slot, fun new room good => ?new, fun l held good ascends tagged => ?joins, fun room bad => ?bad⟩
    case new =>
      have run := (exec_fetchList_taken slot new (.inr room)).1 good
      have all : x.lists.filter (fun k => some k != none) = x.lists := List.filter_eq_self.2 fun _ _ => rfl
      rw [all] at run
      exact ⟨_, _, run, State.stream_setStream .., State.onlyStream_setStream (s.deliver m) n _, rfl, rfl, rfl,
        fun c => (mem_foldl_insertAsc _ _).trans (by simp [heldNone, listCands, got, h]),
        pairwise_foldl_insertAsc _ List.Pairwise.nil, rfl⟩
    case joins =>
      have run := (exec_fetchList_taken slot held (.inl (Option.some_ne_none l))).1 good
      exact ⟨_, l.joined f list, run, by rw [State.stream_setStream]; exact List.mem_append_right _ (List.mem_singleton.2 rfl), tagged, rfl,
        fun c => mem_foldl_insertAsc _ _, pairwise_foldl_insertAsc _ ascends, State.onlyStream_setStream (s.deliver m) n _, rfl⟩
    case bad =>
      have run := (exec_fetchList_taken slot rfl (.inr room)).2 bad
      obtain ⟨t, halted, stream, only, -, inFlight⟩ := (s.deliver m).skdFault_keeps n 0x4022 x.pc
      rw [halted] at run
      rw [StreamEntry.handle_extract] at inFlight
      exact ⟨t, run, by rw [stream], only, inFlight⟩
  case merges =>
    intro x e cap who m held gather
    refine ⟨exec_listMerge_waits held gather, fun all plain => ?_⟩
    obtain ⟨u, counted, merges, truncs, only, regs, rfl⟩ := s.mergeCounted_keeps (who.map (fun f => .countReturn f tag m.cands.length)) n m.trunc
    have run := (exec_listMerge_merges held gather all plain).trans
      (congrArg (fun u => Host.Outcome.next (State.setStream u n (x.merged k cap l m))) counted)
    exact ⟨_, run, rfl, merges, truncs, only, State.onlyStream_setStream _ n _, rfl,
      fun opens running => (State.stream_setStream ..).trans (StreamSt.merged_held opens running),
      fun o opens is needs none_ waitList => (State.stream_setStream ..).trans (StreamSt.merged_given opens is needs none_ waitList)⟩

end Sys2Proof.Machine

namespace Sys2Proof.Machine

open Sys2Proof

/-! # Fetch-list builds of a foreman. -/

/-! ## The fields of a descriptor, and FMN_FETCH_STATUS at BUILD_BEGIN (R251, R262) -/

theorem descMode_extract (d : Word) : descMode d = (d.extractLsb' 62 2).toNat := bits_extract 63 62 d
theorem descKind_extract (d : Word) : descKind d = (d.extractLsb' 61 1).toNat := bits_extract 61 61 d
theorem descCap_extract (d : Word) : descCap d = (d.extractLsb' 44 16).toNat := bits_extract 59 44 d
theorem descK_extract (d : Word) : descK d = (d.extractLsb' 41 3).toNat := bits_extract 43 41 d
theorem descTag_extract (d : Word) : descTag d = (d.extractLsb' 5 16).toNat := bits_extract 20 5 d
theorem descReg_extract (d : Word) : descReg d = (d.extractLsb' 0 5).toNat := bits_extract 4 0 d

theorem descSource_zero {d : Word} (clear : d.getLsbD 60 = false) : descSource d = 0 := by
  have small : descSource d < 2 := Nat.mod_lt _ (by omega)
  rw [getLsbD_eq_bits, decide_eq_false_iff_not] at clear
  have : descSource d ≠ 1 := clear
  omega

/-- The status word of a build that opens. -/
def statusBegun (tag cap kind source : Nat) : Word :=
  BitVec.ofNat 64 (field 63 48 tag + field 31 16 cap + field 6 6 kind + field 5 5 source + field 2 0 1)

theorem bits_statusBegun {tag cap kind : Nat} (tagFits : tag < 2 ^ 16) (capFits : cap < 2 ^ 16) (kindFits : kind < 2) :
    bits 63 48 (statusBegun tag cap kind 0) = tag ∧ bits 47 32 (statusBegun tag cap kind 0) = 0 ∧
      bits 31 16 (statusBegun tag cap kind 0) = cap ∧ bits 7 7 (statusBegun tag cap kind 0) = 0 ∧
      bits 6 6 (statusBegun tag cap kind 0) = kind ∧ bits 5 5 (statusBegun tag cap kind 0) = 0 ∧
      bits 2 0 (statusBegun tag cap kind 0) = 1 := by
  simp only [statusBegun, bits, natBits, field, BitVec.toNat_ofNat, Nat.reduceAdd, Nat.reduceSub, Nat.reducePow]
  omega

theorem Reg.fmnFetchStatus_ne_tally (f : FmId) : Reg.fmnFetchStatus f ≠ Reg.fmnFetchTally f := by
  unfold Reg.fmnFetchStatus Reg.fmnFetchTally
  omega

/-! ## What the end of a build writes of its registers (R262) -/

/-- A register written after changes of registers alone. -/
theorem State.setReg_regs {s t : State} (same : ∃ regs, t = { s with regs := regs }) (a : Nat) (w : Word) :
    ∃ regs, t.setReg a w = { s with regs := regs } := by
  obtain ⟨regs, rfl⟩ := same
  exact ⟨_, rfl⟩

section
variable (s : State) (f : FmId)

theorem State.buildBegun_keeps {d : Word} : ∃ u, s.setReg (Reg.fmnFetchStatus f) (statusBegun (descTag d) (descCap d) (descKind d) 0) = u ∧
    u.regF (Reg.fmnFetchStatus f) 63 48 = descTag d ∧ u.regF (Reg.fmnFetchStatus f) 47 32 = 0 ∧
    u.regF (Reg.fmnFetchStatus f) 31 16 = descCap d ∧ u.regF (Reg.fmnFetchStatus f) 7 7 = 0 ∧
    u.regF (Reg.fmnFetchStatus f) 6 6 = descKind d ∧ u.regF (Reg.fmnFetchStatus f) 5 5 = 0 ∧
    u.regF (Reg.fmnFetchStatus f) 2 0 = 1 ∧ s.onlyRegs u [Reg.fmnFetchStatus f] ∧ ∃ regs, u = { s with regs := regs } := by
  have begun := bits_statusBegun (tag := descTag d) (cap := descCap d) (kind := descKind d)
    (Nat.mod_lt _ (by omega)) (Nat.mod_lt _ (by omega)) (Nat.mod_lt _ (by omega))
  refine ⟨_, rfl, ?_⟩
  simp only [State.regF, State.reg_setReg]
  obtain ⟨tag, zero, cap, f7, kind, f5, state⟩ := begun
  exact ⟨tag, zero, cap, f7, kind, f5, state, State.onlyRegs_setReg s _ _, _, rfl⟩

/-- BUILD_END in FMN_FETCH_STATUS and FMN_FETCH_TALLY: the list is sent, and counted with its truncation. -/
def State.listSent (trunc : Bool) : State :=
  (((s.setRegF (Reg.fmnFetchStatus f) 7 7 (ofBool trunc)).setRegF (Reg.fmnFetchStatus f) 2 0 2).addReg (Reg.fmnFetchTally f) 62 32 1).satReg
    (Reg.fmnFetchTally f) 31 16 (ofBool trunc)

theorem State.listSent_keeps (trunc : Bool) : ∃ u, s.listSent f trunc = u ∧
    u.regF (Reg.fmnFetchStatus f) 7 7 = ofBool trunc ∧ u.regF (Reg.fmnFetchStatus f) 2 0 = 2 ∧
    u.regF (Reg.fmnFetchTally f) 62 32 = (s.regF (Reg.fmnFetchTally f) 62 32 + 1) % 2 ^ 31 ∧
    u.regF (Reg.fmnFetchTally f) 31 16 = min (s.regF (Reg.fmnFetchTally f) 31 16 + ofBool trunc) 0xFFFF ∧
    u.regF (Reg.fmnFetchTally f) 15 0 = s.regF (Reg.fmnFetchTally f) 15 0 ∧
    s.onlyRegs u [Reg.fmnFetchStatus f, Reg.fmnFetchTally f] ∧ ∃ regs, u = { s with regs := regs } := by
  have apart := Reg.fmnFetchStatus_ne_tally f
  have small : ofBool trunc % 2 ^ 1 = ofBool trunc := by cases trunc <;> rfl
  have status (hi lo : Nat) : (s.listSent f trunc).regF (Reg.fmnFetchStatus f) hi lo =
      ((s.setRegF (Reg.fmnFetchStatus f) 7 7 (ofBool trunc)).setRegF (Reg.fmnFetchStatus f) 2 0 2).regF (Reg.fmnFetchStatus f) hi lo :=
    State.regF_reg ((State.reg_satReg_other _ apart 31 16 _).trans (State.reg_addReg_other _ apart 62 32 1)) hi lo
  have tally (hi lo : Nat) : ((s.setRegF (Reg.fmnFetchStatus f) 7 7 (ofBool trunc)).setRegF (Reg.fmnFetchStatus f) 2 0 2).regF
      (Reg.fmnFetchTally f) hi lo = s.regF (Reg.fmnFetchTally f) hi lo :=
    (State.regF_setRegF_other _ apart.symm 2 0 2 hi lo).trans (State.regF_setRegF_other _ apart.symm 7 7 _ hi lo)
  refine ⟨_, rfl, (status 7 7).trans ?_, (status 2 0).trans (State.regF_setRegF _ _ (by omega) (by omega) 2), ?_, ?_, ?_, fun a other => ?_,
    State.setReg_regs (State.setReg_regs (State.setReg_regs (State.setReg_regs ⟨_, rfl⟩ _ _) _ _) _ _) _ _⟩
  · rw [State.regF_setRegF_field _ _ (by omega) (by omega) (.inr (by omega)), State.regF_setRegF _ _ (by omega) (by omega), small]
  · refine (State.regF_satReg_field _ _ (by omega) (by omega) (.inr (by omega)) _).trans ?_
    rw [State.regF_addReg _ _ (by omega) (by omega), tally]
  · refine (State.regF_satReg _ _ (by omega) (by omega) _).trans ?_
    rw [State.addReg, State.regF_setRegF_field _ _ (by omega) (by omega) (.inl (by omega)), tally]
    rfl
  · refine (State.regF_satReg_field _ _ (by omega) (by omega) (.inl (by omega)) _).trans ?_
    rw [State.addReg, State.regF_setRegF_field _ _ (by omega) (by omega) (.inl (by omega)), tally]
  · simp only [List.mem_cons, List.not_mem_nil, or_false, not_or] at other
    obtain ⟨notStatus, notTally⟩ := other
    calc (s.listSent f trunc).reg a
      _ = ((s.setRegF (Reg.fmnFetchStatus f) 7 7 (ofBool trunc)).setRegF (Reg.fmnFetchStatus f) 2 0 2).reg a :=
        (State.reg_satReg_other _ notTally 31 16 _).trans (State.reg_addReg_other _ notTally 62 32 1)
      _ = s.reg a := (State.reg_setRegF_other _ notStatus 2 0 2).trans (State.reg_setRegF_other _ notStatus 7 7 _)

/-- An abandoned build in FMN_FETCH_STATUS and FMN_FETCH_TALLY. -/
def State.buildLost : State := (s.setRegF (Reg.fmnFetchStatus f) 2 0 4).satReg (Reg.fmnFetchTally f) 15 0 1

theorem State.buildLost_keeps : ∃ u, s.buildLost f = u ∧ u.regF (Reg.fmnFetchStatus f) 2 0 = 4 ∧
    u.regF (Reg.fmnFetchTally f) 15 0 = min (s.regF (Reg.fmnFetchTally f) 15 0 + 1) 0xFFFF ∧
    s.onlyRegs u [Reg.fmnFetchStatus f, Reg.fmnFetchTally f] ∧ ∃ regs, u = { s with regs := regs } := by
  have apart := Reg.fmnFetchStatus_ne_tally f
  refine ⟨_, rfl, ?_, ?_, fun a other => ?_, State.setReg_regs (State.setReg_regs ⟨_, rfl⟩ _ _) _ _⟩
  · exact (State.regF_reg (State.reg_satReg_other _ apart 15 0 1) 2 0).trans (State.regF_setRegF _ _ (by omega) (by omega) 4)
  · refine (State.regF_satReg _ _ (by omega) (by omega) 1).trans ?_
    rw [State.regF_setRegF_other _ apart.symm]
    rfl
  · simp only [List.mem_cons, List.not_mem_nil, or_false, not_or] at other
    obtain ⟨notStatus, notTally⟩ := other
    exact (State.reg_satReg_other _ notTally 15 0 1).trans (State.reg_setRegF_other _ notStatus 2 0 4)

/-- The merged count in FMN_FETCH_STATUS. -/
def State.countBack (count : Nat) : State := (s.setRegF (Reg.fmnFetchStatus f) 47 32 count).setRegF (Reg.fmnFetchStatus f) 2 0 3

theorem State.countBack_keeps (count : Nat) : ∃ u, s.countBack f count = u ∧ u.regF (Reg.fmnFetchStatus f) 47 32 = count % 2 ^ 16 ∧
    u.regF (Reg.fmnFetchStatus f) 2 0 = 3 ∧ s.onlyRegs u [Reg.fmnFetchStatus f] ∧ ∃ regs, u = { s with regs := regs } := by
  refine ⟨_, rfl, ?_, State.regF_setRegF _ _ (by omega) (by omega) 3, fun a other => ?_,
    State.setReg_regs (State.setReg_regs ⟨_, rfl⟩ _ _) _ _⟩
  · exact (State.regF_setRegF_field _ _ (by omega) (by omega) (.inr (by omega)) 3).trans (State.regF_setRegF _ _ (by omega) (by omega) count)
  · have other : a ≠ Reg.fmnFetchStatus f := fun same => other (List.mem_singleton.2 same)
    exact (State.reg_setRegF_other _ other 2 0 3).trans (State.reg_setRegF_other _ other 47 32 count)

end

/-! ## The score landing and its grants (R249, R277) -/

@[simp] theorem FmSt.fetched_score (x : FmSt) (k : Nat) : x.fetched.score k = x.score k := by rw [FmSt.fetched_eq]; rfl
@[simp] theorem FmSt.fetched_svalid (x : FmSt) (k : Nat) : x.fetched.svalid k = x.svalid k := by rw [FmSt.fetched_eq]; rfl

theorem FmSt.setSvalid_same (x : FmSt) (k : Nat) (v : Bool) :
    x.setSvalid k v = { x with svalid0 := (x.setSvalid k v).svalid0, svalid1 := (x.setSvalid k v).svalid1 } := by
  unfold FmSt.setSvalid
  split <;> rfl

theorem FmSt.svalid_setSvalid (x : FmSt) (k : Nat) (v : Bool) : (x.setSvalid k v).svalid k = v := by
  unfold FmSt.setSvalid FmSt.svalid
  split <;> simp_all

theorem FmSt.svalid_setSvalid_other (x : FmSt) {k : Nat} (slot : k ≤ 1) (v : Bool) : (x.setSvalid k v).svalid (1 - k) = x.svalid (1 - k) := by
  rcases Nat.le_one_iff_eq_zero_or_eq_one.1 slot with rfl | rfl <;> rfl

theorem State.tryGrant_none {s : State} {f : FmId} (requests : (s.fm f).requests = []) (k : Nat) : s.tryGrant f k = s := by
  unfold State.tryGrant
  simp only [requests, List.find?_nil, ite_self]

/-! ## One score of a THRESH build (R252) -/

/-- The scores of a tile are read as binary16 brain floats or as binary32. -/
def TileHdr.scoreFmt (h : TileHdr) : FloatFmt := if h.format = 0 then fBF16 else fFP32

/-- A score selects its candidate in a THRESH build with descriptor `d`. -/
def selects (d : Word) (h : TileHdr) (score : Nat) : Prop :=
  (h.scoreFmt.decode score).isNan = false ∧ Num.lt (h.scoreFmt.decode score) (fBF16.decode (d.extractLsb' 21 16).toNat) = false

/-- The build after one score of the tile with header `h`. -/
def Build.addScore (h : TileHdr) (b : Build) (e : Nat × Nat × Nat) : Build :=
  let v := h.scoreFmt.decode e.2.2
  let c := h.offset + e.2.1
  if v.isNan then b
  else if descMode b.desc = 0 then
    (if Num.lt v (fBF16.decode (descThresh b.desc)) || (fBF16.decode (descThresh b.desc)).isNan then b
     else { b with picked := insertAsc c b.picked })
  else { b with picks := addPick (descK b.desc) b.picks ⟨posOf h.source * 64 + e.1, e.2.2, h.format, c⟩ }

theorem Build.add_eq (b : Build) (h : TileHdr) (bs : Bytes) :
    b.add h bs = (tileScores h bs).foldl (Build.addScore h) { b with stepTag := some (b.stepTag.getD h.stepTag) } := rfl

section
variable {h : TileHdr} {b : Build}

theorem Build.desc_addScore (e : Nat × Nat × Nat) : (b.addScore h e).desc = b.desc := by
  unfold Build.addScore
  dsimp only
  split
  · rfl
  · split
    · split <;> rfl
    · rfl

variable {c : Nat}

theorem Build.mem_picked_addScore (thresh : descMode b.desc = 0) (number : (fBF16.decode (b.desc.extractLsb' 21 16).toNat).isNan = false)
    (e : Nat × Nat × Nat) :
    c ∈ (b.addScore h e).picked ↔ c ∈ b.picked ∨ (selects b.desc h e.2.2 ∧ c = h.offset + e.2.1) := by
  have level : descThresh b.desc = (b.desc.extractLsb' 21 16).toNat := bits_extract 36 21 b.desc
  unfold Build.addScore selects
  dsimp only
  rw [if_pos thresh, level, number, Bool.or_false]
  cases (h.scoreFmt.decode e.2.2).isNan with
  | true => simp
  | false =>
    cases Num.lt (h.scoreFmt.decode e.2.2) (fBF16.decode (b.desc.extractLsb' 21 16).toNat) with
    | true => simp
    | false => simp [mem_insertAsc, or_comm]

theorem Build.mem_picked_foldl (l : List (Nat × Nat × Nat)) (b : Build) (thresh : descMode b.desc = 0)
    (number : (fBF16.decode (b.desc.extractLsb' 21 16).toNat).isNan = false) :
    c ∈ (l.foldl (Build.addScore h) b).picked ↔ c ∈ b.picked ∨ ∃ e ∈ l, selects b.desc h e.2.2 ∧ c = h.offset + e.2.1 := by
  induction l generalizing b with
  | nil => simp
  | cons e l ih =>
    have desc := Build.desc_addScore (h := h) (b := b) e
    rw [List.foldl_cons, ih _ (by rwa [desc]) (by rwa [desc]), desc, Build.mem_picked_addScore thresh number, or_assoc,
      List.exists_mem_cons_iff]

/-- The scores of a tile are its elements row by row. -/
theorem mem_tileScores {bs : Bytes} {e : Nat × Nat × Nat} : e ∈ tileScores h bs ↔ ∃ row col, row < h.rows ∧ col < h.cols ∧
    e = (row, col, leAt bs (32 + (row * h.cols + col) * (if h.format = 0 then 2 else 4)) (if h.format = 0 then 2 else 4)) := by
  unfold tileScores
  simp only [List.mem_map, List.mem_range]
  constructor
  · rintro ⟨i, inside, rfl⟩
    have some_ : 0 < h.cols := Nat.pos_of_mul_pos_left (Nat.zero_lt_of_lt inside)
    exact ⟨i / h.cols, i % h.cols, Nat.div_lt_of_lt_mul (by rwa [Nat.mul_comm]), Nat.mod_lt _ some_, by rw [Nat.div_add_mod']⟩
  · rintro ⟨row, col, rowFits, colFits, rfl⟩
    have some_ : 0 < h.cols := Nat.zero_lt_of_lt colFits
    refine ⟨row * h.cols + col, ?_, ?_⟩
    · calc row * h.cols + col < row * h.cols + h.cols := Nat.add_lt_add_left colFits _
        _ = (row + 1) * h.cols := (Nat.succ_mul ..).symm
        _ ≤ h.rows * h.cols := Nat.mul_le_mul_right _ rowFits
    · rw [Nat.mul_comm row, Nat.mul_add_div some_, Nat.div_eq_of_lt colFits, Nat.add_zero, Nat.mul_add_mod, Nat.mod_eq_of_lt colFits]

/-- A tile adds to a THRESH build the candidates that some row scores at least the threshold. -/
theorem Build.mem_picked_add {bs : Bytes} (thresh : descMode b.desc = 0)
    (number : (fBF16.decode (b.desc.extractLsb' 21 16).toNat).isNan = false) :
    c ∈ (b.add h bs).picked ↔ c ∈ b.picked ∨ ∃ row col, row < h.rows ∧ col < h.cols ∧ c = h.offset + col ∧
      selects b.desc h (leAt bs (32 + (row * h.cols + col) * (if h.format = 0 then 2 else 4)) (if h.format = 0 then 2 else 4)) := by
  rw [Build.add_eq]
  refine (Build.mem_picked_foldl _ { b with stepTag := some (b.stepTag.getD h.stepTag) } thresh number).trans (or_congr_right ⟨?_, ?_⟩)
  · rintro ⟨e, he, selected, same⟩
    obtain ⟨row, col, rowFits, colFits, rfl⟩ := mem_tileScores.1 he
    exact ⟨row, col, rowFits, colFits, same, selected⟩
  · rintro ⟨row, col, rowFits, colFits, same, selected⟩
    exact ⟨_, mem_tileScores.2 ⟨row, col, rowFits, colFits, rfl⟩, selected, same⟩

end

/-! ## BUILD_BEGIN, SCORE and BUILD_END (R250, R252 to R254, R259) -/

section
variable {s : State} {f : FmId} {w : FmIns}

/-- The foreman past an instruction that leaves the build `b` open, or none. -/
def FmSt.builds (x : FmSt) (b : Option Build) : FmSt := { x.fetched.nextPc with build := b }

theorem FmSt.of_builds {x y : FmSt} {b : Option Build} (h : y = x.builds b) :
    y = { x with pc := x.pc + 1, prog := .running, build := y.build, fprogEcc := y.fprogEcc } := by
  rw [h, FmSt.builds, FmSt.fetched_eq]
  rfl

/-- The foreman past a BUILD_END whose list awaits its count for register `sent.2`. -/
def FmSt.ends (x : FmSt) (sent : Nat × Nat) : FmSt := { x.builds none with sent := x.sent ++ [sent] }

theorem FmSt.of_ends {x y : FmSt} {sent : Nat × Nat} (h : y = x.ends sent) :
    y = { x with pc := x.pc + 1, prog := .running, build := none, fprogEcc := y.fprogEcc, sent := x.sent ++ [sent] } := by
  rw [h, FmSt.ends, FmSt.builds, FmSt.fetched_eq]
  rfl

/-- The foreman past a SCORE that freed slot `k`. -/
def FmSt.scored (x : FmSt) (k : Nat) (b : Build) : FmSt := { (x.fetched.setSvalid k false).nextPc with build := some b }

theorem FmSt.of_scored {x y : FmSt} {k : Nat} {b : Build} (h : y = x.scored k b) :
    y = { x with pc := x.pc + 1, prog := .running, build := y.build, fprogEcc := y.fprogEcc, svalid0 := y.svalid0, svalid1 := y.svalid1 } := by
  rw [h, FmSt.scored, FmSt.setSvalid_same, FmSt.fetched_eq]
  rfl

variable (ready : s.fmReady f w)
include ready

theorem exec_buildBegin (is : (w.extractLsb' 56 8).toNat = 0x28) :
    let d := (s.fm f).s (w.extractLsb' 46 5).toNat
    descOk d = true → d.getLsbD 60 = false → exec (.buildBegin f) s = .next (
      (s.setFm f ((s.fm f).builds (some ⟨d, [], [], none⟩))).setReg (Reg.fmnFetchStatus f)
        (statusBegun (descTag d) (descCap d) (descKind d) 0)) := by
  intro d ok clear
  refine congrArg Host.Outcome.next ((State.fmnStep_acts ready is).trans ?_)
  dsimp only
  rw [FmSt.fetched_s, w.a_extract, State.setFm_setFm, descSource_zero clear]
  exact if_neg (not_or.2 ⟨Bool.eq_false_iff.1 (congrArg (!·) ok), fun source => absurd source.1 (by decide)⟩)

/-- A SCORE that finds its slot valid, and in it a good tile of its block, adds the tile and runs on. -/
theorem exec_score_adds (is : (w.extractLsb' 56 8).toNat = 0x29) {b : Build} (build : (s.fm f).build = some b) :
    let k := (w.extractLsb' 0 32).toNat
    let h := tileHdrOf (slice ((s.fm f).score k) 0 32)
    (s.fm f).svalid k = true → tileHdrGood (slice ((s.fm f).score k) 0 32) = true → (h.format = 0x00 ∨ h.format = 0x10) →
      fmOf h.source = f → h.offset + h.cols ≤ 65535 → (s.fm f).requests = [] → exec (.score f) s = .next (
        s.setFm f ((s.fm f).scored k (b.add h ((s.fm f).score k)))) := by
  intro k h valid good format source fits requests
  refine congrArg Host.Outcome.next ((State.fmnStep_acts ready is).trans ?_)
  have known : (h.format == 0x00 || h.format == 0x10) = true := by simpa using format
  have sound : (!tileHdrGood (slice ((s.fm f).score k) 0 32) || !(h.format == 0x00 || h.format == 0x10) || fmOf h.source != f ||
      decide (65535 < h.offset + h.cols)) = false := by
    simp [good, known, source, fits]
  rw [FmSt.fetched_build, build]
  dsimp only
  rw [FmSt.fetched_svalid, FmSt.fetched_score, w.imm_extract, State.setFm_setFm]
  refine (if_neg (Bool.eq_false_iff.1 (congrArg (!·) valid))).trans ?_
  refine (congrArg (State.tryGrant · f k) (if_neg (Bool.eq_false_iff.1 sound))).trans ?_
  simp only [State.modFm, State.fm_setFm, State.setFm_setFm]
  refine State.tryGrant_none ?_ k
  rw [State.fm_setFm, FmSt.setSvalid_same]
  exact (FmSt.fetched_requests _).trans requests

theorem exec_score_waits (is : (w.extractLsb' 56 8).toNat = 0x29) {b : Build} (build : (s.fm f).build = some b)
    (empty : (s.fm f).svalid (w.extractLsb' 0 32).toNat = false) :
    exec (.score f) s = .next (s.setFm f { (s.fm f).fetched with pc := (s.fm f).pc, prog := .waiting }) := by
  refine congrArg Host.Outcome.next ((State.fmnStep_acts ready is).trans ?_)
  rw [FmSt.fetched_build, build]
  dsimp only
  rw [FmSt.fetched_svalid, w.imm_extract, State.setFm_setFm]
  refine (if_pos (congrArg (!·) empty)).trans ?_
  rw [← build, ← FmSt.fetched_build (s.fm f)]
  exact congrArg (s.setFm f) (FmSt.stays_fetched ..)

theorem exec_buildEnd (is : (w.extractLsb' 56 8).toNat = 0x2A) {b : Build} (build : (s.fm f).build = some b) :
    exec (.buildEnd f) s = .next (((s.setFm f ((s.fm f).ends ((b.desc.extractLsb' 5 16).toNat, (b.desc.extractLsb' 0 5).toNat))).listSent f
      b.list.2).send (.fetchList f b.list.1)) := by
  refine congrArg Host.Outcome.next ((State.fmnStep_acts ready is).trans ?_)
  dsimp only
  rw [FmSt.fetched_build, build]
  dsimp only
  rw [State.setFm_setFm, FmSt.fetched_sent, descTag_extract, descReg_extract]
  rfl

end

/-! ## A SCORE that waits too long, and the count that returns (R255, R259, R261) -/

section
variable {s : State} {f : FmId}

/-- A fault of an open build abandons it, is counted and raised (R259, R262). -/
theorem State.fetchFault_open (open_ : (s.fm f).build.isSome = true) : s.fetchFault f =
    ((s.setFm f { s.fm f with build := none }).buildLost f).raise 0x2006 (s.slotOfRegion f.region) (blockCell f) 0 := by
  unfold State.fetchFault State.abandonBuild
  rw [if_pos open_]
  rfl

theorem exec_scoreTimeout (waiting : (s.fm f).prog = .waiting) (is : (((s.fm f).insAt (s.fm f).pc).extractLsb' 56 8).toNat = 0x29)
    (open_ : (s.fm f).build.isSome = true) :
    exec (.scoreTimeout f) s = .next (((s.setFm f { (s.fm f).nextPc with build := none }).buildLost f).raise 0x2006
      (s.slotOfRegion f.region) (blockCell f) 0) := by
  refine congrArg Host.Outcome.next ((if_pos ⟨waiting, (FmIns.op_extract _).trans is, open_⟩).trans ?_)
  rw [State.fetchFault_open (by rw [State.fm_setFm]; exact open_), State.fm_setFm, State.setFm_setFm, State.setFm_slotOfRegion]

/-- The foreman once the count of list `e` is in its register. -/
def FmSt.counted (x : FmSt) (e : Nat × Nat) (count : Nat) : FmSt :=
  { x.setS e.2 (BitVec.ofNat 64 count) with sent := x.sent.erase e }

theorem FmSt.of_counted {x y : FmSt} {e : Nat × Nat} {count : Nat} (h : y = x.counted e count) :
    y = { x with sregs := y.sregs, sent := x.sent.erase e } := by
  rw [h]
  rfl

theorem exec_countReturn {tag count reg : Nat} (sent : (s.fm f).sent.find? (fun e => e.1 == tag) = some (tag, reg))
    (last : s.regF (Reg.fmnFetchStatus f) 63 48 = tag) (awaited : s.regF (Reg.fmnFetchStatus f) 2 0 = 2) :
    exec (.countReturn f tag count) s =
      .next (((s.deliver (.countReturn f tag count)).setFm f ((s.fm f).counted (tag, reg) count)).countBack f count) := by
  refine congrArg Host.Outcome.next ?_
  dsimp only
  rw [State.deliver_fm, sent]
  exact if_pos ⟨last, awaited⟩

end

/-- Settles O5: each command of a build is one change of its foreman, with the fields it writes of the two registers. -/
theorem foremanBuilds : Obligations.ForemanBuilds := by
  unfold Obligations.ForemanBuilds
  intro s f w hf x op d k status tally
  have only (y : FmSt) : s.onlyFm (s.setFm f y) f := State.onlyFm_setFm hf y (State.onlyFm_refl s f)
  refine ⟨fun ready is mode atLeast atMost cap aligned clear => ?begin_, fun b ready is build valid good format source fits requests => ?adds,
    fun b ready is build empty => ?waits, fun b ready is build => ?end_, fun waiting is open_ => ?timeout,
    fun tag count reg sent small last awaited => ?count⟩
  case begin_ =>
    have ok : descOk d = true := by
      simp only [descOk, descMode_extract, descK_extract, descCap_extract, Bool.and_eq_true, decide_eq_true_eq]
      exact ⟨⟨⟨⟨mode, atLeast⟩, atMost⟩, cap⟩, aligned⟩
    have run := exec_buildBegin ready is ok clear
    obtain ⟨u, begun, tag, zero, room, f7, kind, f5, state, regs, held, rfl⟩ :=
      (s.setFm f (x.builds (some ⟨d, [], [], none⟩))).buildBegun_keeps f (d := d)
    rw [begun] at run
    have fm := s.fm_setFm f (x.builds (some ⟨d, [], [], none⟩))
    exact ⟨_, run, congrArg FmSt.build fm, FmSt.of_builds fm, tag.trans (descTag_extract d), zero, room.trans (descCap_extract d), f7,
      kind.trans (descKind_extract d), f5, state, only _, regs, rfl⟩
  case adds =>
    have ⟨_, _, _, _, _, legal⟩ := ready
    have slot : k ≤ 1 := w.imm_extract.symm.trans_le (FmIns.imm_le legal is rfl)
    have fm := s.fm_setFm f (x.scored k (b.add (tileHdrOf (slice (x.score k) 0 32)) (x.score k)))
    refine ⟨_, exec_score_adds ready is build valid good format source fits requests, ?_, congrArg FmSt.build fm, FmSt.of_scored fm, ?_,
      fun mode number c => ?_, only _, rfl, rfl⟩
    · rw [fm]
      exact FmSt.svalid_setSvalid x.fetched k false
    · rw [fm]
      exact (FmSt.svalid_setSvalid_other x.fetched slot false).trans (x.fetched_svalid _)
    · exact Build.mem_picked_add ((descMode_extract _).trans mode) number
  case waits =>
    have fm := s.fm_setFm f { x.fetched with pc := x.pc, prog := .waiting }
    refine ⟨_, exec_score_waits ready is build empty, ⟨?_, only _⟩, rfl, rfl⟩
    rw [fm, FmSt.fetched_eq]
  case end_ =>
    have run := exec_buildEnd ready is build
    obtain ⟨u, sent, truncated, state, lists, truncs, faults, regs, held, rfl⟩ :=
      (s.setFm f (x.ends ((b.desc.extractLsb' 5 16).toNat, (b.desc.extractLsb' 0 5).toNat))).listSent_keeps f b.list.2
    rw [sent] at run
    exact ⟨_, run, rfl, FmSt.of_ends (s.fm_setFm f _), truncated, state, lists, truncs, faults, only _, regs⟩
  case timeout =>
    have run := exec_scoreTimeout waiting is open_
    obtain ⟨u, lost, state, faults, regs, held, rfl⟩ := (s.setFm f { x.nextPc with build := none }).buildLost_keeps f
    rw [lost] at run
    exact ⟨_, run, s.fm_setFm f _, rfl, state, faults, only _, regs⟩
  case count =>
    have run := exec_countReturn (count := count) sent last awaited
    obtain ⟨u, back, counts, state, regs, held, rfl⟩ :=
      ((s.deliver (.countReturn f tag count)).setFm f (x.counted (tag, reg) count)).countBack_keeps f count
    rw [back] at run
    have fm := (s.deliver (.countReturn f tag count)).fm_setFm f (x.counted (tag, reg) count)
    exact ⟨_, run, (congrArg (FmSt.s · reg) fm).trans (x.s_setS small _),
      fun j other => (congrArg (FmSt.s · j) fm).trans (x.s_setS_other other _),
      FmSt.of_counted fm, counts, state, only _, regs, rfl⟩

end Sys2Proof.Machine

namespace Sys2Proof.Machine

open Sys2Proof

/-! # Flits, credits, grants and absorption notices of the mesh. -/

/-! ## Routers and the credits in use (R268) -/

@[simp] theorem State.router_setRouter (s : State) (c : Nat) (x : RouterSt) : (s.setRouter c x).router c = x := by
  simp [State.setRouter, State.router]

theorem State.router_setRouter_other (s : State) {c d : Nat} (other : d ≠ c) (x : RouterSt) : (s.setRouter c x).router d = s.router d := by
  simp [State.setRouter, State.router, Tbl.get_put_other _ other]

@[simp] theorem State.setRouter_setRouter (s : State) (c : Nat) (x y : RouterSt) : (s.setRouter c x).setRouter c y = s.setRouter c y := by
  simp [State.setRouter, Tbl.put_put]

/-- A router with the use of one credit set to `n`. -/
def RouterSt.using (x : RouterSt) (key n : Nat) : RouterSt := { x with used := x.used.set 0 key n }

theorem RouterSt.of_using {x y : RouterSt} {key n : Nat} (h : y = x.using key n) :
    y = { x with used := y.used } ∧ y.used.get 0 key = n ∧ ∀ k, k ≠ key → y.used.get 0 k = x.used.get 0 k := by
  subst h
  exact ⟨rfl, Tbl.get_set 0 key n x.used, fun k other => Tbl.get_set_other 0 0 other n x.used⟩

/-! ## Sidebands (R267) -/

theorem sbClass_credit {b : BitVec 72} (class_ : (b.extractLsb' 70 2).toNat = 1) : sbClass b = some .credit := by
  have one : bits 71 70 b = 1 := (bits_extract 71 70 b).trans class_
  rw [sbClass, one]
  rfl

theorem sbKind_extract (b : BitVec 72) : sbKind b = (b.extractLsb' 68 2).toNat := bits_extract 69 68 b
theorem sbXtag_extract (b : BitVec 72) : sbXtag b = (b.extractLsb' 64 4).toNat := bits_extract 67 64 b
theorem sbGranule_extract (b : BitVec 72) : sbGranule b = (b.extractLsb' 11 13).toNat := bits_extract 23 11 b
theorem sbSrc_extract (b : BitVec 72) : sbSrc b = (b.extractLsb' 24 18).toNat := bits_extract 41 24 b

/-! ## A CREDIT flit arrives (R267 to R270, R288) -/

section
variable {s : State} {c : Nat} {p : Port} {f : Flit} {u : Nat}

theorem State.returnCredit_neighbor (from_ : neighbor c p = some u) :
    s.returnCredit c p .credit = s.send (.creditReturn u (opposite p) .credit) := by
  unfold State.returnCredit
  simp only [from_]

theorem State.dropForeign_foreign (s : State) (f : Flit) : ∃ foreign, s.dropForeign f = { s with foreign := foreign } := by
  unfold State.dropForeign
  split
  · exact ⟨_, rfl⟩
  · exact ⟨_, rfl⟩

/-- A CREDIT flit with good parity arrives from router `u`, which holds its credit, at a powered router. -/
def State.creditComes (s : State) (c : Nat) (p : Port) (f : Flit) (u : Nat) : Prop :=
  (s.rgn (regionOf c)).dark = false ∧ sbGood f.sideband = true ∧ (f.sideband.extractLsb' 70 2).toNat = 1 ∧ neighbor c p = some u ∧
    (s.router u).used.get 0 (linkKey u (opposite p) .credit) ≠ 0

/-- Unless its cell refuses it, the flit is offered to its output. -/
theorem exec_flitArrive_offers (comes : s.creditComes c p f u) (taken : (s.localRefuses c f && s.route c f == .loc) = false) :
    exec (.flitArrive c p f false) s = .next ((s.deliver (.flitArrive c p f false)).offerFlit c p f .credit) := by
  obtain ⟨powered, good, class_, from_, held⟩ := comes
  have upstream_ : upstream c p .credit = (u, linkKey u (opposite p) .credit) := by rw [upstream, from_]
  refine congrArg Host.Outcome.next ((if_neg (Bool.eq_false_iff.1 powered)).trans ((if_neg (Bool.eq_false_iff.1 taken)).trans ?_))
  refine (if_neg (Bool.eq_false_iff.1 (congrArg (!·) good))).trans ?_
  rw [sbClass_credit class_]
  dsimp only
  rw [upstream_]
  exact congrArg (State.offerFlit · c p f .credit) (if_neg held)

theorem State.offerFlit_goes {q : Port} {n : Nat} (from_ : neighbor c p = some u) (route : s.route c f = .hop q n)
    (credit : (s.router c).used.get 0 (linkKey c q .credit) < linkCap c q .credit) :
    s.offerFlit c p f .credit = ((s.setRouter c ((s.router c).using (linkKey c q .credit)
      ((s.router c).used.get 0 (linkKey c q .credit) + 1))).send (.flitArrive n (opposite q) f false)).send
        (.creditReturn u (opposite p) .credit) := by
  have has : s.hasCredit c q .credit = true := decide_eq_true credit
  unfold State.offerFlit
  simp only [route, has, if_true]
  exact State.returnCredit_neighbor from_

theorem State.offerFlit_waits {q : Port} {n : Nat} (route : s.route c f = .hop q n)
    (full : ¬ (s.router c).used.get 0 (linkKey c q .credit) < linkCap c q .credit) :
    s.offerFlit c p f .credit = (s.noteHeld c n).modRouter c (fun x => { x with wait := x.wait ++ [(p, f)] }) := by
  have none_ : s.hasCredit c q .credit = false := decide_eq_false full
  unfold State.offerFlit
  simp only [route, none_, Bool.false_eq_true, if_false]

/-- The cell with a DATA flit of tag `tag` written from byte `at_` on and counted. -/
def CellSt.received (x : CellSt) (at_ tag : Nat) (data : Bytes) : CellSt :=
  { x with near := x.near.write at_ data, arrivals := x.arrivals.set 0 tag ((x.arrivals.get 0 tag + 1) % 65536) }

theorem CellSt.of_received {x y : CellSt} {at_ tag : Nat} {data : Bytes} (h : y = x.received at_ tag data) :
    (∀ k, k < data.length → y.near.byte (at_ + k) = data.getD k 0) ∧
    (∀ a, a < at_ ∨ at_ + data.length ≤ a → y.near.byte a = x.near.byte a) ∧
    y.arrivals.get 0 tag = (x.arrivals.get 0 tag + 1) % 65536 ∧ (∀ j, j ≠ tag → y.arrivals.get 0 j = x.arrivals.get 0 j) ∧
    y = { x with near := y.near, arrivals := y.arrivals } := by
  subst h
  refine ⟨fun k inside => ?_, fun a outside => Mem.byte_write_other x.near at_ data outside, Tbl.get_set 0 tag _ x.arrivals,
    fun j other => Tbl.get_set_other 0 0 other _ x.arrivals, rfl⟩
  rw [List.getD_eq_getElem _ _ inside]
  exact Mem.byte_write x.near at_ data k inside

theorem slice_all {bs : Bytes} {n : Nat} (length : bs.length = n) : slice bs 0 n = bs := by
  subst length
  simp [slice]

theorem CellSt.settleRecv_none {x : CellSt} (still : x.xrun = none) : x.settleRecv = x := by
  unfold CellSt.settleRecv
  rw [still]

theorem State.offerFlit_delivers (from_ : neighbor c p = some u) (route : s.route c f = .loc)
    (data : (f.sideband.extractLsb' 68 2).toNat = 0) (accepts : s.localAbsorbs c = false) (still : (s.cell c).xrun = none)
    (length : f.data.length = 64) :
    ∃ foreign, s.offerFlit c p f .credit = ((({ s with foreign := foreign } : State).setCell c ((s.cell c).received
      ((f.sideband.extractLsb' 11 13).toNat * 64) (f.sideband.extractLsb' 64 4).toNat f.data)).send (.creditReturn u (opposite p) .credit)) := by
  obtain ⟨foreign, dropped⟩ := s.dropForeign_foreign f
  have kind : sbKind f.sideband = 0 := (sbKind_extract _).trans data
  have delivered : s.localDeliver c f = ({ s with foreign := foreign } : State).setCell c ((s.cell c).received
      ((f.sideband.extractLsb' 11 13).toNat * 64) (f.sideband.extractLsb' 64 4).toNat f.data) := by
    unfold State.localDeliver
    simp only [accepts, kind, dropped, slice_all length, sbGranule_extract, sbXtag_extract, Bool.false_eq_true, if_false]
    exact congrArg (State.setCell _ c) (CellSt.settleRecv_none still)
  refine ⟨foreign, ?_⟩
  unfold State.offerFlit
  simp only [route]
  rw [State.returnCredit_neighbor from_, delivered]

theorem exec_flitArrive_spoiled (powered : (s.rgn (regionOf c)).dark = false) (bad : sbGood f.sideband = false)
    (class_ : (f.sideband.extractLsb' 70 2).toNat = 1) (from_ : neighbor c p = some u) (takes : s.localRefuses c f = false) :
    ∃ foreign, exec (.flitArrive c p f false) s = .next ((({ s.deliver (.flitArrive c p f false) with foreign := foreign } : State).send
      (.creditReturn u (opposite p) .credit)).raise 0x100C (s.slotOfCell c) c
        (portNum p + field 25 8 (f.sideband.extractLsb' 24 18).toNat) (s.posOfCell c)) := by
  obtain ⟨foreign, dropped⟩ := ((s.deliver (.flitArrive c p f false)).send (.creditReturn u (opposite p) .credit)).dropForeign_foreign f
  have taken : (s.localRefuses c f && s.route c f == .loc) = false := by rw [takes]; rfl
  refine ⟨foreign, congrArg Host.Outcome.next ((if_neg (Bool.eq_false_iff.1 powered)).trans ((if_neg (Bool.eq_false_iff.1 taken)).trans ?_))⟩
  refine (if_pos (congrArg (!·) bad)).trans ?_
  rw [sbClass_credit class_]
  dsimp only
  rw [State.returnCredit_neighbor from_, dropped, routerDetail, sbSrc_extract]
  rfl

end

/-! ## Credits that return (R268, R288) -/

section
variable {s : State} {c : Nat} {p : Port}

theorem State.pump_none (still : (s.cell c).xrun = none) (n : Nat) : s.pump n c = s := by
  cases n with
  | zero => rfl
  | succ n =>
    unfold State.pump
    simp only [still]

/-- Where no flit waits, none is offered again. -/
theorem State.retryWaiting_none {x : RouterSt} (none_ : x.wait = []) : (s.setRouter c x).retryWaiting c = s.setRouter c x := by
  have same : { x with wait := [] } = x := by rw [← none_]
  unfold State.retryWaiting State.modRouter
  simp only [State.router_setRouter, none_, List.filter_nil, List.append_nil, List.foldl_nil, State.setRouter_setRouter, same]

theorem exec_creditReturn_idle (held : (s.router c).used.get 0 (linkKey c p .credit) ≠ 0) (none_ : (s.router c).wait = [])
    (still : (s.cell c).xrun = none) : exec (.creditReturn c p .credit) s = .next ((s.deliver (.creditReturn c p .credit)).setRouter c
      ((s.router c).using (linkKey c p .credit) ((s.router c).used.get 0 (linkKey c p .credit) - 1))) := by
  refine congrArg Host.Outcome.next ((if_neg held).trans ?_)
  refine (congrArg (State.pump 5 · c) (State.retryWaiting_none (s := s.deliver (.creditReturn c p .credit)) (c := c)
    (x := (s.router c).using (linkKey c p .credit) ((s.router c).used.get 0 (linkKey c p .credit) - 1)) none_)).trans ?_
  exact State.pump_none (s := (s.deliver (.creditReturn c p .credit)).setRouter c _) still 5

theorem exec_creditReturn_over {n : Nat} (none_ : (s.router c).used.get 0 (linkKey c p .credit) = 0) (next : neighbor c p = some n) :
    exec (.creditReturn c p .credit) s = .next
      (if halfOf c = halfOf n then (s.deliver (.creditReturn c p .credit)).raise 0x1008 (s.slotOfCell c) c (portNum p) (s.posOfCell c)
       else (s.deliver (.creditReturn c p .credit)).raise 0x3002 (s.slotOfRegion (regionOf c)) (regionOf c + 0x1F * 256) 0) := by
  refine congrArg Host.Outcome.next ((if_pos none_).trans ?_)
  rw [next]
  by_cases same : halfOf c = halfOf n
  · rw [if_pos same]
    exact if_neg (by simp [sameHalf, same])
  · rw [if_neg same]
    exact if_pos (by simp [sameHalf, same])

/-! ## Grants and absorption notices (R277, R289) -/

/-- A granted entry without a credit at the local port sends nothing. -/
theorem State.pump_full {r : XRun} (run : (s.cell c).xrun = some r) (granted : r.granted = true) (todo : r.todo ≠ [])
    (full : ¬ (s.router c).used.get 0 (linkKey c .loc .credit) < linkCap c .loc .credit) (n : Nat) : s.pump n c = s := by
  have none_ : s.hasCredit c .loc .credit = false := decide_eq_false full
  cases n with
  | zero => rfl
  | succ n =>
    obtain ⟨k, t, todo⟩ := List.exists_cons_of_ne_nil todo
    unfold State.pump
    simp [run, granted, todo, none_]

theorem exec_grant_full {r : XRun} (run : (s.cell c).xrun = some r) (todo : r.todo ≠ [])
    (full : ¬ (s.router c).used.get 0 (linkKey c .loc .credit) < linkCap c .loc .credit) (slot : Nat) :
    exec (.grant c slot) s = .next ((s.deliver (.grant c slot)).setCell c { s.cell c with xrun := some { r with granted := true } }) := by
  refine congrArg Host.Outcome.next ?_
  dsimp only
  rw [State.deliver_cell, run]
  exact State.pump_full (s := (s.deliver (.grant c slot)).setCell c _) (r := { r with granted := true })
    (congrArg CellSt.xrun (State.cell_setCell ..)) rfl todo full 5

end

/-- Settles O11: a flit takes a credit forward and gives one back; a returned credit, a grant and a notice each change one count. -/
theorem meshFlits : Obligations.MeshFlits := by
  unfold Obligations.MeshFlits
  intro s c p f u b flit uses back comes
  refine ⟨fun q n comes route credit => ?goes, fun q n comes route full => ?waits, fun comes route data accepts still length => ?delivers,
    fun powered bad class_ from_ takes => ?spoiled, ⟨fun held none_ still => ?idle, fun n none_ next => exec_creditReturn_over none_ next⟩,
    fun r slot run full todo started => ?granted, fun dest tag => ?absorbed⟩
  case goes =>
    have ⟨_, _, _, from_, _⟩ := comes
    have taken : (s.localRefuses c f && s.route c f == .loc) = false := by rw [route]; exact Bool.and_false _
    have run := (exec_flitArrive_offers comes taken).trans (congrArg Host.Outcome.next (State.offerFlit_goes from_ route credit))
    obtain ⟨same, one, others⟩ := RouterSt.of_using ((s.deliver flit).router_setRouter c ((s.router c).using (linkKey c q .credit)
      (uses c (linkKey c q .credit) + 1)))
    exact ⟨_, run, List.append_assoc .., same, one, others, fun d other => State.router_setRouter_other _ other _, rfl, rfl⟩
  case waits =>
    have taken : (s.localRefuses c f && s.route c f == .loc) = false := by rw [route]; exact Bool.and_false _
    have run := (exec_flitArrive_offers comes taken).trans (congrArg Host.Outcome.next (State.offerFlit_waits route full))
    have kept := State.noteHeld_blur 0x418 rfl (s.deliver flit) c n
    have routers : ((s.deliver flit).noteHeld c n).routers = s.routers := same_of_blur kept .routers rfl
    have router (d : Nat) : ((s.deliver flit).noteHeld c n).router d = s.router d := by
      unfold State.router
      rw [routers]
    exact ⟨_, run, same_of_blur kept .inFlight rfl,
      (State.router_setRouter ..).trans (congrArg (fun x : RouterSt => { x with wait := x.wait ++ [(p, f)] }) (router c)),
      fun d other => (State.router_setRouter_other _ other _).trans (router d), same_of_blur kept .cells rfl⟩
  case delivers =>
    intro at_ tag
    have ⟨_, _, _, from_, _⟩ := comes
    have taken : (s.localRefuses c f && s.route c f == .loc) = false := by
      have kind : (sbKind f.sideband == 1) = false := by rw [sbKind_extract, data]; rfl
      rw [State.localRefuses, kind]
      rfl
    obtain ⟨foreign, delivered⟩ := State.offerFlit_delivers (s := s.deliver flit) from_ route data accepts still length
    have run := (exec_flitArrive_offers comes taken).trans (congrArg Host.Outcome.next delivered)
    obtain ⟨inside, outside, one, others, same⟩ := CellSt.of_received
      (({ s.deliver flit with foreign := foreign } : State).cell_setCell c ((s.cell c).received at_ tag f.data))
    rw [length] at inside outside
    exact ⟨_, run, rfl, inside, outside, one, others, same, State.onlyCells_setCell ({ s.deliver flit with foreign := foreign }) c _⟩
  case spoiled =>
    obtain ⟨foreign, run⟩ := exec_flitArrive_spoiled powered bad class_ from_ takes
    exact ⟨_, run, List.append_assoc .., rfl, rfl⟩
  case idle =>
    obtain ⟨same, gone, others⟩ := RouterSt.of_using ((s.deliver (.creditReturn c p .credit)).router_setRouter c
      ((s.router c).using (linkKey c p .credit) (uses c (linkKey c p .credit) - 1)))
    exact ⟨_, exec_creditReturn_idle held none_ still, gone, others, fun d other => State.router_setRouter_other _ other _, rfl⟩
  case granted =>
    exact ⟨_, exec_grant_full run todo full slot, State.cell_setCell .., State.onlyCells_setCell (s.deliver (.grant c slot)) c _, rfl⟩
  case absorbed =>
    exact ⟨_, rfl, State.regF_satReg _ _ (by omega) (by omega) 1, State.regF_satReg_field _ _ (by omega) (by omega) (.inr (by omega)) 1,
      State.onlyRegs_satReg _ _ _ _ _, rfl⟩

end Sys2Proof.Machine

namespace Sys2Proof.Machine

open Sys2Proof

/-! # Barriers that time out: messages in turn, foremen changed alike, and the root's failure. -/

/-! ## Messages sent one after another -/

/-- Steps that only send, whatever is already under way, send their messages in turn. -/
theorem foldl_sends {β : Type} {s : State} {g : State → β → State} {m : β → List Instr}
    (sends : ∀ ms x, g (s.sendAll ms) x = s.sendAll (ms ++ m x)) (l : List β) : l.foldl g s = s.sendAll (l.flatMap m) := by
  have after : ∀ ms, l.foldl g (s.sendAll ms) = s.sendAll (ms ++ l.flatMap m) := by
    induction l with
    | nil => simp
    | cons x l ih =>
      intro ms
      rw [List.foldl_cons, sends, ih, List.flatMap_cons, List.append_assoc]
  have start : s.sendAll [] = s := by simp [State.sendAll]
  simpa only [start, List.nil_append] using after []

theorem foldl_sends_one {β : Type} {s : State} {g : State → β → State} {m : β → Instr}
    (sends : ∀ ms x, g (s.sendAll ms) x = s.sendAll (ms ++ [m x])) (l : List β) : l.foldl g s = s.sendAll (l.map m) := by
  rw [foldl_sends sends, List.map_eq_flatMap]

theorem State.sendAll_sendAll (s : State) (l m : List Instr) : (s.sendAll l).sendAll m = s.sendAll (l ++ m) := by
  simp [State.sendAll]

theorem State.sendAll_send (s : State) (l : List Instr) (m : Instr) : (s.sendAll l).send m = s.sendAll (l ++ [m]) :=
  s.sendAll_sendAll l [m]

/-- The fence of cell `c` and its 0x2002 (R284). -/
def State.fenced (s : State) (c : Nat) : List Instr := [.fence c, .faultNotice ⟨0x2002, s.slotOfCell c, c, 0, s.posOfCell c⟩]

theorem State.foldl_fenceBy (s : State) (l : List Nat) : l.foldl State.fenceBy s = s.sendAll (l.flatMap s.fenced) := by
  refine foldl_sends (fun ms c => ?_) l
  have fence : (s.sendAll ms).fenceBy c = (s.sendAll ms).sendAll (s.fenced c) := (s.sendAll ms).sendAll_send [.fence c] _
  rw [fence, State.sendAll_sendAll]

/-! ## Several foremen changed alike -/

/-- The foremen of a list, each changed by `g`. -/
def State.modFms (s : State) (l : List FmId) (g : FmSt → FmSt) : State := l.foldl (fun s f => s.modFm f g) s

section
variable (s : State) (l : List FmId) (g : FmSt → FmSt)

theorem State.modFms_same : s.modFms l g = { s with fms := (s.modFms l g).fms } := by
  obtain ⟨fms, same⟩ : ∃ fms, s.modFms l g = { s with fms := fms } :=
    List.foldlRecOn (motive := fun t : State => ∃ fms, t = { s with fms := fms }) l _ ⟨_, rfl⟩ fun t ⟨fms, same⟩ k _ =>
      ⟨fms.put (fmKey k) (g (t.fm k)), by rw [same]; rfl⟩
  rw [same]

theorem State.inFlight_modFms : (s.modFms l g).inFlight = s.inFlight := by rw [State.modFms_same]

theorem State.slot_modFms (n : Nat) : (s.modFms l g).slot n = s.slot n := by
  rw [State.modFms_same]
  rfl

theorem State.modFms_concat (f : FmId) : s.modFms (l ++ [f]) g = (s.modFms l g).modFm f g := List.foldl_concat ..

/-- A message sent after each change has been sent once all are changed. -/
theorem State.foldl_modFm_send (m : FmId → Instr) :
    l.foldl (fun s f => (s.modFm f g).send (m f)) s = (s.modFms l g).sendAll (l.map m) := by
  induction l using List.reverseRecOn with
  | nil => simp [State.modFms, State.sendAll]
  | append_singleton l f ih =>
    rw [List.foldl_concat, ih, State.modFms_concat, List.map_append]
    exact State.sendAll_send ((s.modFms l g).modFm f g) (l.map m) (m f)

end

/-- A change that may be made twice is made once to each foreman of the list. -/
theorem State.fm_modFms {f : FmId} (hf : wfFm f = true) {g : FmSt → FmSt} (twice : ∀ x, g (g x) = g x) {l : List FmId}
    (keyed : ∀ k ∈ l, fmOfKey (fmKey k) = k) (s : State) : (s.modFms l g).fm f = if f ∈ l then g (s.fm f) else s.fm f := by
  induction l using List.reverseRecOn with
  | nil => rfl
  | append_singleton l k ih =>
    have before := ih fun j hj => keyed j (List.mem_append_left _ hj)
    rw [State.modFms_concat]
    by_cases same : f = k
    · rw [same] at before ⊢
      rw [State.fm_modFm, before]
      split <;> simp [twice]
    · have apart : fmKey f ≠ fmKey k := fun key => same (by rw [← fmOfKey_fmKey hf, key, keyed k (by simp)])
      rw [State.modFm, State.fm_setFm_other _ apart, before]
      simp [same]

theorem State.keyed_slotFms (s : State) (n : Nat) : ∀ k ∈ s.slotFms n, fmOfKey (fmKey k) = k := by
  intro k listed
  obtain ⟨e, -, rfl⟩ := List.mem_map.1 listed
  exact congrArg fmOfKey (Nat.div_add_mod' e.1 30)

theorem wfFm_of_regionFms {r : Nat} (hr : r < 72) {f : FmId} (listed : f ∈ regionFms r) : wfFm f = true := by
  obtain ⟨b, block, rfl⟩ := List.mem_map.1 listed
  simpa [wfFm, hr] using block

/-! ## A timeout counted in a register, and another field written -/

theorem State.satReg_setReg_same (s : State) (a hi lo v b : Nat) (w : Word) :
    ∃ regs, (s.satReg a hi lo v).setReg b w = { s with regs := regs } := ⟨_, rfl⟩

theorem State.satReg_setRegF_same (s : State) (a hi lo v hj lj w : Nat) :
    ∃ regs, (s.satReg a hi lo v).setRegF a hj lj w = { s with regs := regs } := ⟨_, rfl⟩

/-! ## The root fails (R284, log 35) -/

/-- BARRIER_FAIL, where the root of slot `n` has not sent it yet. -/
def State.failNotice (s : State) (n : Nat) : List Instr := if (s.slot n).root.failed then [] else [.barrierFail n]

theorem State.failNotice_congr {s t : State} {n : Nat} (h : t.slot n = s.slot n) : t.failNotice n = s.failNotice n := by
  rw [State.failNotice, h, State.failNotice]

/-- The slot with its root failed. -/
def SlotSt.rootFailed (x : SlotSt) : SlotSt := { x with root := { x.root with failed := true } }

section
variable (s : State) (n : Nat)

theorem State.failBarrier_cases : (s.slot n).root.failed = true ∧ s.failBarrier n = s ∨
    (s.slot n).root.failed = false ∧ s.failBarrier n = (s.setSlot n (s.slot n).rootFailed).send (.barrierFail n) := by
  cases failed : (s.slot n).root.failed with
  | true => exact .inl ⟨rfl, if_pos failed⟩
  | false => exact .inr ⟨rfl, if_neg (by simp [failed])⟩

theorem State.failBarrier_same :
    s.failBarrier n = { s with slots := (s.failBarrier n).slots, inFlight := (s.failBarrier n).inFlight } := by
  obtain ⟨-, same⟩ | ⟨-, sent⟩ := s.failBarrier_cases n
  · rw [same]
  · rw [sent]
    rfl

theorem State.fm_failBarrier (f : FmId) : (s.failBarrier n).fm f = s.fm f := by
  rw [State.failBarrier_same]
  rfl

theorem State.inFlight_failBarrier : (s.failBarrier n).inFlight = s.inFlight ++ s.failNotice n := by
  unfold State.failNotice
  obtain ⟨failed, same⟩ | ⟨whole, sent⟩ := s.failBarrier_cases n
  · rw [same, if_pos failed, List.append_nil]
  · rw [sent, if_neg (by simp [whole])]
    rfl

theorem State.slot_failBarrier : (s.failBarrier n).slot n = (s.slot n).rootFailed := by
  obtain ⟨failed, same⟩ | ⟨-, sent⟩ := s.failBarrier_cases n
  · rw [same, SlotSt.rootFailed, ← failed]
  · rw [sent, State.send_slot, State.slot_setSlot]

theorem State.onlySlot_failBarrier : s.onlySlot (s.failBarrier n) n := by
  obtain ⟨-, same⟩ | ⟨-, sent⟩ := s.failBarrier_cases n
  · rw [same]
    exact fun _ _ => rfl
  · rw [sent]
    exact s.onlySlot_setSlot n _

end

theorem exec_barrierTimerExpiry_timing {s : State} {n : Nat} {h : Hub} (timing : s.hubTiming n h = true) :
    exec (.barrierTimerExpiry h n) s = .next ((s.probe n h).failBarrier n) := congrArg Host.Outcome.next (if_pos timing)

theorem exec_barrierTimerExpiry_idle {s : State} {n : Nat} {h : Hub} (idle : s.hubTiming n h = false) :
    exec (.barrierTimerExpiry h n) s = .next s := congrArg Host.Outcome.next (if_neg (by simp [idle]))

/-- A hub that holds an entry and has not closed is timing. -/
theorem HubSt.timing_of {h : HubSt} (opened : h.closed = false) (holds : h.entered ≠ []) : h.timing = true := by
  simp [HubSt.timing, opened, holds]

end Sys2Proof.Machine

namespace Sys2Proof.Machine

open Sys2Proof

/-! # Barriers that time out: expiries and probes at each hub, silent foremen, and BARRIER_FAIL. -/

/-! ## At a foreman (R283, R284) -/

/-- The foreman has answered its probe. -/
def FmSt.answers (x : FmSt) : FmSt := { x with hub := { x.hub with answered := true } }

/-- The foreman has answered, and has reported its missing cells. -/
def FmSt.expires (x : FmSt) : FmSt := { x with hub := { x.hub with answered := true, expired := true } }

/-- The participants of block `f` that have not entered. -/
def State.missingCells (s : State) (n : Nat) (f : FmId) : List Nat :=
  (s.blockParts n f).filter (fun c => !(s.fm f).hub.entered.contains (.cell c))

/-- The foreman with its timeout counted and the missing cells recorded. -/
def State.blockExpired (s : State) (f : FmId) (miss : List Nat) : State :=
  ((s.setFm f (s.fm f).expires).satReg (Reg.fmnBarrierStatus f) 31 16 1).setReg (Reg.fmnBarrierMissing f)
    (BitVec.ofNat 64 (miss.foldl (fun a c => a + 2 ^ posOf c) 0))

/-- What an expiry leaves at foreman `f` beside its messages. -/
def State.BlockExpired (s : State) (f : FmId) (miss : List Nat) (t : State) : Prop :=
  t.fm f = (s.fm f).expires ∧ s.onlyFm t f ∧
  t.regF (Reg.fmnBarrierStatus f) 31 16 = min (s.regF (Reg.fmnBarrierStatus f) 31 16 + 1) 0xFFFF ∧
  t.reg (Reg.fmnBarrierMissing f) = BitVec.ofNat 64 (miss.foldl (fun a d => a + 2 ^ posOf d) 0) ∧
  s.onlyRegs t [Reg.fmnBarrierStatus f, Reg.fmnBarrierMissing f] ∧ t.cells = s.cells

theorem Reg.fmnBarrierStatus_ne_missing (f : FmId) : Reg.fmnBarrierStatus f ≠ Reg.fmnBarrierMissing f := by
  unfold Reg.fmnBarrierStatus Reg.fmnBarrierMissing
  omega

section
variable {s : State} {n : Nat} {f : FmId}

theorem State.blockExpired_expired (hf : wfFm f = true) (miss : List Nat) : s.BlockExpired f miss (s.blockExpired f miss) := by
  refine ⟨?_, fun g hg other => ?_, ?_, ?_, fun a other => ?_, ?_⟩ <;> rw [State.blockExpired]
  · rw [State.setReg_fm, State.satReg_fm, State.fm_setFm]
  · rw [State.setReg_fm, State.satReg_fm, State.onlyFm_setFm hf _ (s.onlyFm_refl f) g hg other]
  · rw [State.regF, State.reg_setReg_other _ (Reg.fmnBarrierStatus_ne_missing f)]
    exact State.regF_satReg _ _ (by omega) (by omega) 1
  · rw [State.reg_setReg]
  · simp only [List.mem_cons, List.not_mem_nil, or_false, not_or] at other
    rw [State.reg_setReg_other _ other.2, State.reg_satReg_other _ other.1, State.setFm_reg]
  · rw [State.setReg_cells, State.satReg_cells, State.setFm_cells]

theorem State.BlockExpired.sendAll {miss : List Nat} {t : State} (h : s.BlockExpired f miss t) (ms : List Instr) :
    s.BlockExpired f miss (t.sendAll ms) := h

theorem State.BlockExpired.failBarrier {miss : List Nat} {t : State} (h : s.BlockExpired f miss t) :
    s.BlockExpired f miss (t.failBarrier n) := by
  rw [State.failBarrier_same]
  exact h

theorem State.blockParts_setFm (x : FmSt) : (s.setFm f x).blockParts n f = s.blockParts n f := rfl

/-- The fault of the first missing cell, and the fence of each. -/
def State.missingTold (s : State) (n : Nat) : List Nat → List Instr
  | [] => []
  | c :: l => .faultNotice ⟨0x2001, some n, c, (c :: l).length, s.posOfCell c⟩ :: (c :: l).flatMap s.fenced

theorem State.fences_missing (s : State) (n c : Nat) (l : List Nat) :
    (c :: l).foldl State.fenceBy (s.raise 0x2001 (some n) c (c :: l).length (s.posOfCell c)) = s.sendAll (s.missingTold n (c :: l)) := by
  rw [State.foldl_fenceBy]
  exact State.sendAll_sendAll s [_] _

theorem State.blockExpired_same (s : State) (f : FmId) (miss : List Nat) :
    ∃ fms regs, s.blockExpired f miss = { s with fms := fms, regs := regs } := by
  obtain ⟨regs, same⟩ := State.satReg_setReg_same (s.setFm f (s.fm f).expires) (Reg.fmnBarrierStatus f) 31 16 1
    (Reg.fmnBarrierMissing f) (BitVec.ofNat 64 (miss.foldl (fun a c => a + 2 ^ posOf c) 0))
  rw [State.blockExpired, same]
  exact ⟨_, regs, rfl⟩

theorem State.missingTold_blockExpired (s : State) (f : FmId) (miss : List Nat) (n : Nat) (l : List Nat) :
    (s.blockExpired f miss).missingTold n l = s.missingTold n l := by
  obtain ⟨fms, regs, same⟩ := s.blockExpired_same f miss
  rw [same]
  cases l <;> rfl

theorem State.missingCells_none (all : ∀ c ∈ s.blockParts n f, .cell c ∈ (s.fm f).hub.entered) : s.missingCells n f = [] := by
  simpa [State.missingCells] using all

theorem State.probeForeman_none (none_missing : s.missingCells n f = []) :
    s.probeForeman n f = s.setFm f (s.fm f).answers := by
  have miss : (if (s.fm f).hub.closed then [] else s.missingCells n f) = [] := ite_eq_left_iff.2 fun _ => none_missing
  unfold State.missingCells at miss
  unfold State.probeForeman
  simp only [State.blockParts_setFm, miss]
  rfl

theorem State.probeForeman_expires (opened : (s.fm f).hub.closed = false) (fresh : (s.fm f).hub.expired = false) {c : Nat} {l : List Nat}
    (missing : s.missingCells n f = c :: l) :
    s.probeForeman n f = (s.blockExpired f (c :: l)).sendAll (s.missingTold n (c :: l)) := by
  have expires (x : FmSt) : (s.setFm f x).modFm f (fun x => { x with hub := { x.hub with expired := true } }) =
      s.setFm f { x with hub := { x.hub with expired := true } } := by
    rw [State.modFm, State.fm_setFm, State.setFm_setFm]
  have miss : (if (s.fm f).hub.closed then [] else s.missingCells n f) = c :: l := by rw [opened, ← missing]; rfl
  have first : ¬ (s.fm f).hub.expired = true := by simp [fresh]
  unfold State.missingCells at miss
  unfold State.probeForeman
  simp only [State.blockParts_setFm, miss, if_neg first, expires]
  exact (State.fences_missing _ n c l).trans (by rw [← s.missingTold_blockExpired]; rfl)

section
variable (hf : wfFm f = true) (opened : (s.fm f).hub.closed = false) (fresh : (s.fm f).hub.expired = false) {c : Nat} {l : List Nat}
  (missing : s.missingCells n f = c :: l)
include hf opened fresh missing

/-- The foreman's expiry reports its missing cells and fails the barrier. -/
theorem foremanExpiry_tells (holds : (s.fm f).hub.entered ≠ []) :
    ∃ t, exec (.barrierTimerExpiry (.foreman f) n) s = .next t ∧ s.BlockExpired f (c :: l) t ∧
      t.inFlight = s.inFlight ++ s.missingTold n (c :: l) ++ s.failNotice n ∧ (t.slot n).root.failed = true := by
  have timing : s.hubTiming n (.foreman f) = true := by simp [State.hubTiming, HubSt.timing_of opened holds, fresh]
  refine ⟨_, exec_barrierTimerExpiry_timing timing, ?_⟩
  have expired := s.blockExpired_expired hf (c :: l)
  obtain ⟨fms, regs, same⟩ := s.blockExpired_same f (c :: l)
  rw [State.probe, State.probeForeman_expires opened fresh missing]
  rw [same] at expired ⊢
  refine ⟨(expired.sendAll _).failBarrier, State.inFlight_failBarrier _ n, ?_⟩
  rw [State.slot_failBarrier]
  rfl

/-- A probe has the foreman report its missing cells. -/
theorem foremanProbe_tells : ∃ t, exec (.barrierProbe (.foreman f) n) s = .next t ∧ s.BlockExpired f (c :: l) t ∧
    t.slots = s.slots ∧ t.inFlight = s.inFlight.erase (.barrierProbe (.foreman f) n) ++ s.missingTold n (c :: l) := by
  refine ⟨_, rfl, ?_⟩
  have expired := (s.deliver (.barrierProbe (.foreman f) n)).blockExpired_expired hf (c :: l)
  obtain ⟨fms, regs, same⟩ := (s.deliver (.barrierProbe (.foreman f) n)).blockExpired_same f (c :: l)
  rw [State.probe, State.probeForeman_expires (s := s.deliver _) opened fresh missing]
  rw [same] at expired ⊢
  exact ⟨expired.sendAll _, rfl, rfl⟩

end

/-- A probe at a foreman with no missing cell only answers. -/
theorem foremanProbe_answers (hf : wfFm f = true) (all : ∀ c ∈ s.blockParts n f, .cell c ∈ (s.fm f).hub.entered) :
    ∃ t, exec (.barrierProbe (.foreman f) n) s = .next t ∧ t.fm f = (s.fm f).answers ∧ s.onlyFm t f ∧
      t = { s.deliver (.barrierProbe (.foreman f) n) with fms := t.fms } := by
  refine ⟨_, rfl, ?_⟩
  rw [State.probe, State.probeForeman_none (s := s.deliver _) (State.missingCells_none (s := s.deliver _) all)]
  exact ⟨State.fm_setFm .., State.onlyFm_setFm hf _ (s.onlyFm_refl f), rfl⟩

end

/-! ## At a region station (R283) -/

/-- The foreman has been asked and has not answered. -/
def FmSt.asked (x : FmSt) : FmSt := { x with hub := { x.hub with answered := false } }

/-- The station has sent its probes. -/
def RgnSt.expires (x : RgnSt) : RgnSt := { x with hub := { x.hub with expired := true } }

/-- The blocks with participants whose entry the station does not hold. -/
def State.missingBlocks (s : State) (n r : Nat) : List FmId :=
  (s.partBlocks n r).filter (fun f => !(s.rgn r).hub.entered.contains (.block f))

/-- The station with its timeout counted and no block marked silent. -/
def State.regionExpired (s : State) (r : Nat) : State :=
  ((s.setRgn r (s.rgn r).expires).satReg (Reg.rgnBarrierStatus r) 63 32 1).setRegF (Reg.rgnBarrierStatus r) 29 0 0

/-- What an expiry leaves at the station of region `r` beside its probes. -/
def State.RegionExpired (s : State) (r : Nat) (t : State) : Prop :=
  t.rgn r = (s.rgn r).expires ∧ s.onlyRgn t r ∧
  t.regF (Reg.rgnBarrierStatus r) 63 32 = min (s.regF (Reg.rgnBarrierStatus r) 63 32 + 1) (2 ^ 32 - 1) ∧
  t.regF (Reg.rgnBarrierStatus r) 29 0 = 0 ∧ s.onlyRegs t [Reg.rgnBarrierStatus r]

section
variable (s : State) (n r : Nat)

theorem State.regionExpired_same : ∃ rgns regs, s.regionExpired r = { s with rgns := rgns, regs := regs } := by
  obtain ⟨regs, same⟩ := State.satReg_setRegF_same (s.setRgn r (s.rgn r).expires) (Reg.rgnBarrierStatus r) 63 32 1 29 0 0
  rw [State.regionExpired, same]
  exact ⟨_, regs, rfl⟩

theorem State.regionExpired_expired : s.RegionExpired r (s.regionExpired r) := by
  refine ⟨?_, fun q other => ?_, ?_, ?_, fun a other => ?_⟩
  · rw [State.regionExpired, State.setRegF_rgn, State.satReg_rgn, State.rgn_setRgn]
  · rw [State.regionExpired, State.setRegF_rgn, State.satReg_rgn, State.rgn_setRgn_other _ other]
  · rw [State.regionExpired, State.regF_setRegF_field _ _ (by omega) (by omega) (.inr (by omega)),
      State.regF_satReg _ _ (by omega) (by omega), State.setRgn_regF]
  · exact State.regF_setRegF _ _ (by omega) (by omega) 0
  · have apart : a ≠ Reg.rgnBarrierStatus r := by simpa using other
    rw [State.regionExpired, State.reg_setRegF_other _ apart, State.reg_satReg_other _ apart, State.setRgn_reg]

variable {s n r}

theorem State.RegionExpired.of_same {t u : State} (h : s.RegionExpired r t) (rgns : u.rgns = t.rgns) (regs : u.regs = t.regs) :
    s.RegionExpired r u := by
  obtain ⟨rgn, only, count, marks, others⟩ := h
  have rgn_same (q : Nat) : u.rgn q = t.rgn q := congrArg (Tbl.get RgnSt.reset q) rgns
  refine ⟨(rgn_same r).trans rgn, fun q other => (rgn_same q).trans (only q other), ?_, ?_,
    fun a other => (State.reg_congr regs a).trans (others a other)⟩
  · rwa [State.regF, State.reg_congr regs]
  · rwa [State.regF, State.reg_congr regs]

theorem State.probeRegion_expires (opened : (s.rgn r).hub.closed = false) (fresh : (s.rgn r).hub.expired = false)
    (unowed : (s.rgn r).hub.owed = none) : s.probeRegion n r = ((s.regionExpired r).modFms (s.missingBlocks n r) FmSt.asked).sendAll
      ((s.missingBlocks n r).map fun f => .barrierProbe (.foreman f) n) := by
  rw [← State.foldl_modFm_send]
  exact if_neg (by simp [opened, fresh, unowed])

theorem wfFm_of_missing (hr : r < 72) {f : FmId} (missing : f ∈ s.missingBlocks n r) : wfFm f = true :=
  wfFm_of_regionFms hr (List.mem_of_mem_filter (List.mem_of_mem_filter missing))

theorem State.fm_modFms_asked (hr : r < 72) (t : State) {f : FmId} (missing : f ∈ s.missingBlocks n r) :
    (t.modFms (s.missingBlocks n r) FmSt.asked).fm f = (t.fm f).asked := by
  rw [State.fm_modFms (wfFm_of_missing hr missing) (g := FmSt.asked) (fun _ => rfl)
    (fun k hk => fmOfKey_fmKey (wfFm_of_missing hr hk)), if_pos missing]

/-- The station's expiry probes the missing blocks and fails the barrier. -/
theorem regionExpiry_probes (hr : r < 72) (opened : (s.rgn r).hub.closed = false) (holds : (s.rgn r).hub.entered ≠ [])
    (fresh : (s.rgn r).hub.expired = false) (unowed : (s.rgn r).hub.owed = none) :
    ∃ t, exec (.barrierTimerExpiry (.region r) n) s = .next t ∧
      t.inFlight = s.inFlight ++ (s.missingBlocks n r).map (fun f => .barrierProbe (.foreman f) n) ++ s.failNotice n ∧
      (∀ f ∈ s.missingBlocks n r, t.fm f = (s.fm f).asked) ∧ s.RegionExpired r t := by
  have timing : s.hubTiming n (.region r) = true := by simp [State.hubTiming, HubSt.timing_of opened holds, fresh]
  refine ⟨_, exec_barrierTimerExpiry_timing timing, ?_⟩
  have expired := s.regionExpired_expired r
  obtain ⟨rgns, regs, same⟩ := s.regionExpired_same r
  rw [State.probe, State.probeRegion_expires opened fresh unowed]
  rw [same] at expired ⊢
  refine ⟨?_, fun f missing => ?_, ?_⟩
  · rw [State.inFlight_failBarrier, State.sendAll_inFlight, State.inFlight_modFms, State.failNotice_congr (s := s)]
    rw [State.sendAll_slot, State.slot_modFms]
    rfl
  · rw [State.fm_failBarrier, State.sendAll_fm, State.fm_modFms_asked hr _ missing]
    rfl
  · refine expired.of_same ?_ ?_
    · rw [State.failBarrier_same, State.sendAll_rgns, State.modFms_same]
    · rw [State.failBarrier_same, State.sendAll_regs, State.modFms_same]

end

/-! ## At the module root (R283, R284) -/

/-- The root's timer has expired. -/
def SlotSt.rootExpires (x : SlotSt) : SlotSt := { x with root := { x.root with expired := true } }

/-- What the root's expiry sends: for each missing region a probe, or 0x4001 where the region has lost its power, and 0x4001
for each missing module of the sync group. -/
def State.rootAsks (s : State) (n : Nat) : List Instr :=
  ((s.partRegions n).filter (fun r => !(s.slot n).root.entered.contains (.region r))).map
    (fun r => if (s.rgn r).dark then .faultNotice ⟨0x4001, some n, r, 0, 15⟩ else .barrierProbe (.region r) n) ++
  ((s.slot n).sync.filter (fun m => !(s.slot n).root.entered.contains (.module m))).map
    (fun m => .faultNotice ⟨0x4001, some n, m, 0, 15⟩)

section
variable {s : State} {n : Nat}

theorem State.partRegions_setRoot (h : HubSt) : (s.setSlot n { s.slot n with root := h }).partRegions n = s.partRegions n := by
  simp only [State.partRegions, State.barrierCells, State.slotCells, State.requiredCell, State.slot_setSlot]
  rfl

theorem State.foldl_askRegions (s : State) (n : Nat) (l : List Nat) :
    l.foldl (fun s r => if (s.rgn r).dark then s.raise 0x4001 (some n) r 0 else s.send (.barrierProbe (.region r) n)) s =
      s.sendAll (l.map fun r => if (s.rgn r).dark then .faultNotice ⟨0x4001, some n, r, 0, 15⟩ else .barrierProbe (.region r) n) := by
  refine foldl_sends_one (fun ms r => ?_) l
  rw [State.sendAll_rgn]
  split <;> exact s.sendAll_send ms _

theorem State.foldl_raiseModules (s : State) (n : Nat) (l : List Nat) :
    l.foldl (fun s m => s.raise 0x4001 (some n) m 0) s = s.sendAll (l.map fun m => .faultNotice ⟨0x4001, some n, m, 0, 15⟩) := by
  refine foldl_sends_one (fun ms m => ?_) l
  exact s.sendAll_send ms _

theorem State.probeRoot_expires : s.probeRoot n = (s.setSlot n (s.slot n).rootExpires).sendAll (s.rootAsks n) := by
  simp only [State.probeRoot, State.foldl_askRegions, State.foldl_raiseModules, State.sendAll_sendAll, State.partRegions_setRoot]
  rfl

/-- The root's expiry asks for what is missing and fails the barrier. -/
theorem rootExpiry_asks (timing : (s.slot n).root.timing = true) (fresh : (s.slot n).root.expired = false) :
    ∃ t, exec (.barrierTimerExpiry .root n) s = .next t ∧ t.slot n = (s.slot n).rootExpires.rootFailed ∧ s.onlySlot t n ∧
      t.inFlight = s.inFlight ++ s.rootAsks n ++ s.failNotice n ∧ t = { s with slots := t.slots, inFlight := t.inFlight } := by
  have running : s.hubTiming n .root = true := by simp [State.hubTiming, timing, fresh]
  refine ⟨_, exec_barrierTimerExpiry_timing running, ?_⟩
  rw [State.probe, State.probeRoot_expires]
  refine ⟨?_, fun m other => ?_, ?_, State.failBarrier_same _ n⟩
  · rw [State.slot_failBarrier, State.sendAll_slot, State.slot_setSlot]
  · rw [State.onlySlot_failBarrier _ n m other, State.sendAll_slot, State.slot_setSlot_other _ other]
  · rw [State.inFlight_failBarrier, State.failNotice, State.sendAll_slot, State.slot_setSlot]
    rfl

end

/-! ## Probes that are not answered (R283) -/

theorem getLsbD_or_bit_other (w : Word) {p k : Nat} (h : k ≠ p) : (w ||| BitVec.ofNat 64 (2 ^ p)).getLsbD k = w.getLsbD k := by
  rw [BitVec.getLsbD_or, BitVec.getLsbD_ofNat, Nat.testBit_two_pow_of_ne h.symm, Bool.and_false, Bool.or_false]

section
variable {s : State} {f : FmId}

theorem exec_probeAnswerTimeout_answered (n : Nat) (answered : (s.fm f).hub.answered = true) :
    exec (.probeAnswerTimeout f n) s = .next s := congrArg Host.Outcome.next (if_pos answered)

theorem exec_probeAnswerTimeout_silent (n : Nat) (silent : (s.fm f).hub.answered = false) :
    exec (.probeAnswerTimeout f n) s = .next (((s.setFm f (s.fm f).answers).setReg (Reg.rgnBarrierStatus f.region)
      (s.reg (Reg.rgnBarrierStatus f.region) ||| BitVec.ofNat 64 (2 ^ f.block))).raiseRgn 0x3001 f.region 0 f.block) :=
  congrArg Host.Outcome.next (if_neg (by simp [silent]))

end

theorem State.inFlight_raiseRgn (s : State) (code r detail block : Nat) : (s.raiseRgn code r detail block).inFlight =
    s.inFlight ++ [.faultNotice ⟨code, s.slotOfRegion r, r + block * 256, detail, 15⟩] := rfl

/-- A foreman that stays silent is marked in its region's register, with 0x3001. -/
theorem probeAnswerTimeout_marks {s : State} {n : Nat} {f : FmId} (hf : wfFm f = true) (silent : (s.fm f).hub.answered = false) :
    let a := Reg.rgnBarrierStatus f.region
    ∃ t, exec (.probeAnswerTimeout f n) s = .next t ∧ t.fm f = (s.fm f).answers ∧ s.onlyFm t f ∧
      (t.reg a).getLsbD f.block = true ∧ (∀ k, k ≠ f.block → (t.reg a).getLsbD k = (s.reg a).getLsbD k) ∧ s.onlyRegs t [a] ∧
      t.inFlight = s.inFlight ++ [.faultNotice ⟨0x3001, s.slotOfRegion f.region, f.region + f.block * 256, 0, 15⟩] := by
  have block : f.block < 64 := by
    simp only [wfFm, Bool.and_eq_true, decide_eq_true_eq] at hf
    omega
  refine ⟨_, exec_probeAnswerTimeout_silent n silent, ?_, fun g hg other => ?_, ?_, fun k other => ?_, fun a other => ?_, ?_⟩
  · rw [State.raiseRgn_fm, State.setReg_fm, State.fm_setFm]
  · rw [State.raiseRgn_fm, State.setReg_fm, State.onlyFm_setFm hf _ (s.onlyFm_refl f) g hg other]
  · rw [State.raiseRgn_reg, State.reg_setReg, done_or_bit _ _ block, beq_self_eq_true, Bool.or_true]
  · rw [State.raiseRgn_reg, State.reg_setReg, getLsbD_or_bit_other _ other]
  · rw [State.raiseRgn_reg, State.onlyRegs_setReg _ _ _ a other, State.setFm_reg]
  · rw [State.inFlight_raiseRgn, State.setReg_inFlight, State.setReg_slotOfRegion, State.setFm_inFlight, State.setFm_slotOfRegion]

/-! ## BARRIER_FAIL (R284, R299) -/

/-- The foreman's hub reports FAILED. -/
def FmSt.fails (x : FmSt) : FmSt := { x with hub := { x.hub with failed := true } }

/-- The slot's root has failed, its message delivered. -/
def State.rootFails (s : State) (n : Nat) : State := (s.deliver (.barrierFail n)).modSlot n SlotSt.rootFailed

section
variable {s : State} {n : Nat}

theorem exec_barrierFail : exec (.barrierFail n) s = .next ((s.rootFails n).modFms ((s.rootFails n).slotFms n) FmSt.fails) := rfl

/-- A configured foreman is listed. -/
theorem State.FmUp.of_configured {f : FmId} (configured : (s.fm f).configured = true) : s.FmUp f := by
  refine .of_listed (fun unlisted => ?_) configured
  rw [State.fm, unlisted] at configured
  exact Bool.false_ne_true ((s.freshFm_configured f).symm.trans configured)

theorem State.mem_slotFms_rootFails {f : FmId} (hf : wfFm f = true) (configured : (s.fm f).configured = true)
    (inside : (s.slot n).rect.has f.region = true) : f ∈ (s.rootFails n).slotFms n := by
  have up : (s.rootFails n).FmUp f := State.FmUp.of_configured configured
  refine up.mem_slotFms hf ?_
  rw [State.rootFails, State.modSlot, State.slot_setSlot]
  exact inside

theorem barrierFail_fails : ∃ t, exec (.barrierFail n) s = .next t ∧ t.slot n = (s.slot n).rootFailed ∧ s.onlySlot t n ∧
    (∀ f, wfFm f = true → (s.fm f).configured = true → (s.slot n).rect.has f.region = true → t.fm f = (s.fm f).fails) ∧
    t = { s.deliver (.barrierFail n) with slots := t.slots, fms := t.fms } := by
  refine ⟨_, exec_barrierFail, ?_, ?_, fun f hf configured inside => ?_, ?_⟩
  · rw [State.modFms_same]
    exact State.slot_setSlot ..
  · rw [State.modFms_same]
    exact State.onlySlot_setSlot (s.deliver _) n _
  · rw [State.fm_modFms hf (g := FmSt.fails) (fun _ => rfl) (State.keyed_slotFms _ n),
      if_pos (State.mem_slotFms_rootFails hf configured inside)]
    rfl
  · rw [State.modFms_same]
    rfl

end

/-- Settles O14, hub by hub: what each expiry and probe sends and leaves, then the silent foreman and BARRIER_FAIL. -/
theorem barrierTimeouts : Obligations.BarrierTimeouts := by
  unfold Obligations.BarrierTimeouts
  intro s n
  refine ⟨fun h => exec_barrierTimerExpiry_idle, fun f c l hf opened fresh missing =>
      ⟨foremanExpiry_tells hf opened fresh missing, foremanProbe_tells hf opened fresh missing⟩,
    fun f => foremanProbe_answers, fun r hr opened holds fresh unowed => ?_, fun timing fresh => ?_,
    fun f => exec_probeAnswerTimeout_answered n, fun f => probeAnswerTimeout_marks, ?_⟩
  · obtain ⟨t, step, inFlight, asked, rgn, only, count, marks, regs⟩ := regionExpiry_probes (n := n) hr opened holds fresh unowed
    exact ⟨t, step, inFlight, asked, rgn, only, count, marks, regs⟩
  · obtain ⟨t, step, slot, only, inFlight, same⟩ := rootExpiry_asks timing fresh
    refine ⟨t, step, by rw [slot]; rfl, by rw [slot]; rfl, only, by rw [same], by rw [same], by rw [same], ?_⟩
    rw [inFlight, State.rootAsks, ← List.append_assoc]
    rfl
  · obtain ⟨t, step, slot, only, fails, same⟩ := barrierFail_fails (s := s) (n := n)
    exact ⟨t, step, slot, only, by rw [same]; rfl, fails, same⟩

end Sys2Proof.Machine

namespace Sys2Proof.Machine

open Sys2Proof

/-! # Stream programs that stop or halt, and SKD_CTRL. -/

/-! ## Stopping and halting a program (R330, R331) -/

/-- A program that stops in state `st`: nothing is open, and the deck keeps the fills whose delivery has begun, or with `all`
none. -/
def StreamSt.stopped (x : StreamSt) (st : StreamState) (all : Bool) : StreamSt :=
  { x with state := st, opens := [], ending := false, deck := if all then [] else x.deck.filter (fun f => !f.lanes.isEmpty) }

section
variable (s : State) (n : Nat)

theorem State.dropRefs_stream (m : Nat) : (s.dropRefs n).stream m = s.stream m := by
  have streams : (s.dropRefs n).streams = s.streams := same_of_blur (State.dropRefs_blur 0x40000 rfl s n) .streams rfl
  unfold State.stream
  rw [streams]

theorem State.stopStream_stream (st : StreamState) (all : Bool) : (s.stopStream n st all).stream n = (s.stream n).stopped st all := by
  unfold State.stopStream State.modStream
  rw [State.stream_setStream, State.dropRefs_stream]
  rfl

theorem State.onlyStream_stopStream (st : StreamState) (all : Bool) : s.onlyStream (s.stopStream n st all) n := fun m other =>
  (State.stream_setStream_other _ other _).trans (s.dropRefs_stream n m)

/-- The word that a skidder fault leaves in SKD_FAULT (R333). -/
theorem State.skdFault_reg (code entry : Nat) : (s.skdFault n code entry).reg Reg.skdFault =
    BitVec.ofNat 64 (field 63 40 ((s.stream n).entryAt entry).handle + field 39 27 entry + field 26 24 n + field 15 0 code) := by
  unfold State.skdFault
  rw [State.reg_raise, reg_of_blur (State.stopStream_blur _ rfl ..), State.reg_setReg]

theorem State.skdFault_cells (code entry : Nat) : (s.skdFault n code entry).cells = s.cells :=
  same_of_blur (State.skdFault_blur 0xc0012 rfl s n code entry) .cells rfl

end

/-! ## SKD_CTRL (R331, R332) -/

/-- SKD_CTRL stops a program that runs or waits for a list. -/
def StreamSt.skdStopped (x : StreamSt) : StreamSt := if x.runs then x.stopped .stopped false else x

section
variable (s : State) (n : Nat)

theorem State.skdStop_stream : (s.skdStop n).stream n = (s.stream n).skdStopped := by
  unfold State.skdStop StreamSt.skdStopped StreamSt.runs
  cases state : (s.stream n).state
  case running => exact s.stopStream_stream n .stopped false
  case waitList => exact s.stopStream_stream n .stopped false
  all_goals rfl

theorem State.onlyStream_skdStop : s.onlyStream (s.skdStop n) n := by
  unfold State.skdStop
  split
  · exact s.onlyStream_stopStream n .stopped false
  · exact s.onlyStream_stopStream n .stopped false
  · exact fun m other => rfl

end

/-- Slots stopped one after another: each one named stops once. -/
theorem State.foldl_skdStop_stream {l : List Nat} (once : l.Nodup) (s : State) (n : Nat) :
    (l.foldl State.skdStop s).stream n = if n ∈ l then (s.stream n).skdStopped else s.stream n := by
  induction l generalizing s with
  | nil => rfl
  | cons k l ih =>
    obtain ⟨fresh, once⟩ := List.nodup_cons.1 once
    rw [List.foldl_cons, ih once]
    by_cases same : n = k
    · subst same
      rw [if_neg fresh, if_pos (List.mem_cons_self ..), State.skdStop_stream]
    · rw [State.onlyStream_skdStop s k n same]
      simp only [List.mem_cons, same, false_or]

theorem State.skdCtrl_stream (s : State) (v : Word) (n : Nat) :
    (s.skdCtrl v).stream n = if n < 8 ∧ v.getLsbD n = true then (s.stream n).skdStopped else s.stream n := by
  unfold State.skdCtrl
  rw [State.foldl_skdStop_stream (List.nodup_range.filter _)]
  simp only [List.mem_filter, List.mem_range, bit]

theorem exec_skidderStop {s : State} (works : s.boot.stage ≠ 7) (src : Src) (v : Word) : exec (.skidderStop src v) s = .next (s.skdCtrl v) := by
  have range : fmRange Reg.skdCtrl = none := by decide
  have open_ : s.regSilent Reg.skdCtrl = false := by simp [State.regSilent, range, works]
  refine congrArg Host.Outcome.next ((s.hostWrite_skdCtrl src v).trans ?_)
  exact congrArg Prod.fst (State.through_ok open_ (.inl works) (show Kct.ok ≠ Kct.rejected by decide))

/-- Settles O18: the write stops each slot it names once, and a slot that neither runs nor waits has nothing to stop. -/
theorem skidderStop : Obligations.SkidderStop := by
  unfold Obligations.SkidderStop
  intro s src v works
  have kept := State.skdCtrl_blur 0xc0000 rfl s v
  refine ⟨_, exec_skidderStop works src v, same_of_blur kept .inFlight rfl, same_of_blur kept .cells rfl, same_of_blur kept .regs rfl,
    fun n slot named live => ?_, fun n spared => ?_⟩
  · rw [State.skdCtrl_stream, if_pos ⟨slot, named⟩, StreamSt.skdStopped, if_pos (StreamSt.runs_of live)]
    rfl
  · rw [State.skdCtrl_stream]
    rcases spared with unnamed | beyond | ⟨running, waitList⟩
    · exact if_neg fun ⟨_, named⟩ => by simp [unnamed] at named
    · exact if_neg fun ⟨slot, _⟩ => absurd slot (Nat.not_lt.2 beyond)
    · have rests : (s.stream n).skdStopped = s.stream n := if_neg (by simp [StreamSt.runs, running, waitList])
      rw [rests, ite_self]

end Sys2Proof.Machine

namespace Sys2Proof.Machine

open Sys2Proof

/-! # Fills: read into the deck, given a lane, landed. -/

/-! ## More fields of an entry (R306) -/

theorem StreamEntry.slot_extract (e : StreamEntry) : e.slot = (e.extractLsb' 242 1).toNat := bits_extract 242 242 e
theorem StreamEntry.prefetch_extract (e : StreamEntry) : e.prefetch = (e.extractLsb' 232 6).toNat := bits_extract 237 232 e
theorem StreamEntry.first_extract (e : StreamEntry) : e.first = (e.extractLsb' 154 18).toNat := bits_extract 171 154 e
theorem StreamEntry.last_extract (e : StreamEntry) : e.last = (e.extractLsb' 136 18).toNat := bits_extract 153 136 e
theorem StreamEntry.granule_extract (e : StreamEntry) : e.granule = (e.extractLsb' 81 13).toNat := bits_extract 93 81 e

theorem StreamEntry.alternate_extract (e : StreamEntry) : e.alternate = true ↔ (e.extractLsb' 241 1).toNat = 1 := by
  have bit : e.alternate = (e.extractLsb' 241 1).getLsbD 0 := by simp [StreamEntry.alternate, Sys2Proof.Machine.bit]
  rw [bit]
  generalize e.extractLsb' 241 1 = b
  revert b
  decide

/-! ## A fill read (R304, R305, R309, R310, R330) -/

/-- A whole register counts modulo 2⁶⁴. -/
theorem State.reg_addReg_whole (s : State) (a v : Nat) : (s.addReg a 63 0 v).reg a = s.reg a + BitVec.ofNat 64 v := by
  refine BitVec.eq_of_toNat_eq ?_
  rw [State.addReg, State.setRegF, State.reg_setReg, toNat_setBits (by omega) (by omega)]
  have whole : s.regF a 63 0 = (s.reg a).toNat := by
    unfold State.regF bits natBits
    have := (s.reg a).isLt
    omega
  have small := (s.reg a).isLt
  rw [whole, BitVec.toNat_add, BitVec.toNat_ofNat]
  omega

/-- The next fill of the open entry `o`, that holds `bs` (R309, R310, R320). -/
def StreamSt.nextFill (x : StreamSt) (o : OpenEntry) (bs : Bytes) : Fill :=
  let e := x.entryAt o.index
  { number := x.number, entry := o.index, first := e.first, last := e.last, near := e.op == 4,
    slot := if e.alternate then (e.slot + o.read) % 2 else e.slot, granule := if e.op = 4 then e.granule else 0, bytes := bs, lanes := [],
    left := rectCells e.first e.last, late := false, final := false }

theorem StreamSt.nextFill_extract (x : StreamSt) (o : OpenEntry) (bs : Bytes) :
    let e := x.prog.getD o.index 0
    let op := (e.extractLsb' 252 4).toNat
    let first := (e.extractLsb' 154 18).toNat
    let last := (e.extractLsb' 136 18).toNat
    let slot := (e.extractLsb' 242 1).toNat
    x.nextFill o bs = {
      number := x.number, entry := o.index, first := first, last := last, near := op == 4,
      slot := if (e.extractLsb' 241 1).toNat = 1 then (slot + o.read) % 2 else slot,
      granule := if op = 4 then (e.extractLsb' 81 13).toNat else 0, bytes := bs, lanes := [],
      left := rectCells first last, late := false, final := false } := by
  simp only [StreamSt.nextFill, StreamEntry.op_extract, StreamEntry.first_extract, StreamEntry.last_extract, StreamEntry.slot_extract,
    StreamEntry.granule_extract, StreamEntry.alternate_extract]
  rfl

/-- The open entry past a fill of `len` bytes. -/
def OpenEntry.past (o : OpenEntry) (len : Nat) : OpenEntry := { o with read := o.read + 1, pos := o.pos + len, refs := true }

/-- The program with the next fill of `o`, not its last, in the deck. -/
def StreamSt.fillRead (x : StreamSt) (o : OpenEntry) (bs : Bytes) : StreamSt :=
  { x with deck := x.deck ++ [x.nextFill o bs], number := x.number + 1,
           opens := x.opens.map (fun p => if p.index = o.index then p.past bs.length else p) }

/-- The open entry `o` is the one to read, and the prefetch depth and the deck's share allow its next fill (R310). -/
structure State.FillDue (s : State) (n : Nat) (o : OpenEntry) : Prop where
  live : (s.stream n).state = .running ∨ (s.stream n).state = .waitList
  goes : (s.stream n).ending = false
  turn : (s.stream n).opens.find? (fun o => !(o.needsList && o.list.isNone)) = some o
  refs : o.refs = true
  depth : ((s.stream n).deck.filter (fun f => f.entry == o.index)).length ≤ ((s.stream n).entryAt o.index).prefetch
  share : (s.stream n).heldIn (wingOf (regionOf ((s.stream n).entryAt o.index).first)) + 16384 ≤
    s.deckShare n (wingOf (regionOf ((s.stream n).entryAt o.index).first))

section
variable {s : State} {n : Nat} {oe : OpenEntry} {o : Obj} (due : s.FillDue n oe)
include due

/-- Nothing keeps a fill that is due from its read. -/
theorem State.FillDue.allowed : ¬ (oe.index ≠ oe.index ∨ (!(s.stream n).runs) = true ∨ (s.stream n).ending = true ∨
    ((s.stream n).entryAt oe.index).prefetch < ((s.stream n).deck.filter (fun f => f.entry == oe.index)).length ∨
    s.deckShare n (wingOf (regionOf ((s.stream n).entryAt oe.index).first)) <
      (s.stream n).heldIn (wingOf (regionOf ((s.stream n).entryAt oe.index).first)) + 16384) := by
  simp [StreamSt.runs_of due.live, due.goes, due.depth, due.share]

variable (some_ : s.obj ((s.stream n).entryAt oe.index).handle = some o)
include some_

/-- A tier read error halts the program (R330). -/
theorem exec_fillReadStart_bad (tier : o.tier ≠ 2) : exec (.fillReadStart n oe.index true) s = .next (s.skdFault n 0x4023 oe.index) := by
  refine congrArg Host.Outcome.next ?_
  dsimp only
  rw [due.turn]
  dsimp only
  rw [if_neg due.allowed, if_neg (by simp [due.refs]), if_pos due.refs, some_]
  dsimp only
  rw [if_pos rfl, State.countBoard, if_neg tier]

/-- A fill that reads soundly, not its entry's last, joins the deck, is counted and stamps its object (R304, R309, R310). -/
theorem exec_fillReadStart_reads {bs : Bytes} (placed : o.tier ≠ 0) (reach : o.owner = n ∨ o.shared = true)
    (read : s.fillBytes n oe ((s.stream n).entryAt oe.index) o = .ok bs)
    (sound : s.objBadV ((s.stream n).entryAt oe.index).handle o oe.pos bs.length = false) (more : oe.read + 1 < oe.fills) :
    exec (.fillReadStart n oe.index false) s = .next (((s.addReg (Reg.skdBytes n) 63 0 bs.length).setObj
      ((s.stream n).entryAt oe.index).handle { o with stamp := s.beat }).setStream n ((s.stream n).fillRead oe bs)) := by
  have reachable : o.reachable n = true := by simpa [Obj.reachable] using reach
  have last : decide (oe.read + 1 = oe.fills) = false := decide_eq_false (by omega)
  have stamped : (s.addReg (Reg.skdBytes n) 63 0 bs.length).useObj ((s.stream n).entryAt oe.index).handle =
      (s.addReg (Reg.skdBytes n) 63 0 bs.length).setObj ((s.stream n).entryAt oe.index).handle { o with stamp := s.beat } := by
    have beat : (s.addReg (Reg.skdBytes n) 63 0 bs.length).beat = s.beat :=
      State.reg_addReg_other s (by unfold Reg.beatCounter Reg.skdBytes; omega) 63 0 _
    rw [State.useObj_some (show (s.addReg _ 63 0 _).obj _ = some o from some_), beat]
  refine congrArg Host.Outcome.next ?_
  dsimp only
  rw [due.turn]
  dsimp only
  rw [if_neg due.allowed, if_neg (by simp [due.refs]), if_pos due.refs, some_]
  dsimp only
  rw [if_neg Bool.false_ne_true, if_neg (by simp [placed, reachable]), read]
  dsimp only
  rw [if_neg (by simp [sound]), last, if_neg Bool.false_ne_true, stamped]
  have opens : (s.stream n).opens.flatMap (fun p => if p.index = oe.index then [p.past bs.length] else [p]) =
      (s.stream n).opens.map (fun p => if p.index = oe.index then p.past bs.length else p) := by
    rw [List.map_eq_flatMap]
    congr 1
    funext p
    split <;> rfl
  exact congrArg (fun l => State.setStream _ n { s.stream n with
    deck := (s.stream n).deck ++ [(s.stream n).nextFill oe bs], number := (s.stream n).number + 1, opens := l }) opens

end

/-! ## Lanes (R302, R303) -/

/-- The deck with a lane of region `r` given to fill `k`. -/
def StreamSt.laneGiven (x : StreamSt) (k r : Nat) : StreamSt :=
  { x with deck := x.deck.map (fun g => if g.number = k then { g with lanes := g.lanes ++ [r] } else g) }

section
variable {s : State} {r : Nat}

theorem exec_fillLaneAssign_full (full : 8 ≤ s.lanesUsed r) : exec (.fillLaneAssign r) s = .next s := congrArg Host.Outcome.next (if_pos full)

theorem exec_fillLaneAssign_gives {n : Nat} {f : Fill} (room : s.lanesUsed r < 8) (first : (s.laneWaiters r).find? (fun e =>
      s.laneClear r ((s.stream e.1).deck.filter (fun g => decide (g.number < e.2.number))) e.2) = some (n, f)) :
    exec (.fillLaneAssign r) s = .next (s.setStream n ((s.stream n).laneGiven f.number r)) := by
  refine congrArg Host.Outcome.next ((if_neg (Nat.not_le.2 room)).trans ?_)
  rw [first]
  rfl

end

/-! ## What a landing writes in its cell (R320, R321) -/

theorem getD_splice_zero (bs v : Bytes) {k : Nat} (inside : k < v.length) : (splice bs 0 v).getD k 0 = v.getD k 0 := by
  have start : splice bs 0 v = v ++ bs.drop (0 + v.length) := by simp [splice, slice]
  rw [start, List.getD_append _ _ _ _ inside]

section
variable {x : CellSt} {f : Fill} (keeps : x.discards = false)
include keeps

theorem CellSt.land_landing (landing : f.near = false) :
    x.land f = (x.setLand f.slot (splice (x.landSlot f.slot) 0 f.bytes)).setValid f.slot true := by
  simp [CellSt.land, keeps, landing]

theorem CellSt.land_near (near : f.near = true) :
    x.land f = ({ x with near := x.near.write (f.granule * 64) f.bytes } : CellSt).setValid f.slot true := by
  simp [CellSt.land, keeps, near]

/-- A LANDING fill for slot 0. -/
theorem CellSt.land_slot0 (landing : f.near = false) (slot : f.slot = 0) : x.land f = { x with land0 := (x.land f).land0, valid0 := true } ∧
    ∀ k, k < f.bytes.length → (x.land f).land0.getD k 0 = f.bytes.getD k 0 := by
  rw [CellSt.land_landing keeps landing, slot]
  exact ⟨rfl, fun k => getD_splice_zero _ f.bytes⟩

/-- A LANDING fill for slot 1. -/
theorem CellSt.land_slot1 (landing : f.near = false) (slot : f.slot = 1) : x.land f = { x with land1 := (x.land f).land1, valid1 := true } ∧
    ∀ k, k < f.bytes.length → (x.land f).land1.getD k 0 = f.bytes.getD k 0 := by
  rw [CellSt.land_landing keeps landing, slot]
  exact ⟨rfl, fun k => getD_splice_zero _ f.bytes⟩

/-- A NEAR fill writes its bytes from its granule on, and no other byte. -/
theorem CellSt.land_near_bytes (near : f.near = true) :
    (∀ k, k < f.bytes.length → (x.land f).near.byte (f.granule * 64 + k) = f.bytes.getD k 0) ∧
    (∀ a, a < f.granule * 64 ∨ f.granule * 64 + f.bytes.length ≤ a → (x.land f).near.byte a = x.near.byte a) := by
  have written : (x.land f).near = x.near.write (f.granule * 64) f.bytes := by
    rw [CellSt.land_near keeps near, CellSt.setValid]
    split <;> rfl
  rw [written]
  refine ⟨fun k inside => ?_, fun a => Mem.byte_write_other x.near _ f.bytes⟩
  rw [List.getD_eq_getElem _ _ inside, Mem.byte_write]

theorem CellSt.land_near0 (near : f.near = true) (slot : f.slot = 0) : x.land f = { x with near := (x.land f).near, valid0 := true } := by
  rw [CellSt.land_near keeps near, slot]
  rfl

theorem CellSt.land_near1 (near : f.near = true) (slot : f.slot = 1) : x.land f = { x with near := (x.land f).near, valid1 := true } := by
  rw [CellSt.land_near keeps near, slot]
  rfl

end

/-! ## Landings (R311, R320, R324, R325) -/

/-- Fill `f` of the program is the next of its deck to reach cell `c`, in a lane of the cell's region. -/
def StreamSt.lands (x : StreamSt) (c : Nat) (f : Fill) : Prop :=
  x.deck.find? (fun g => g.number == f.number) = some f ∧ c ∈ f.left ∧ regionOf c ∈ f.lanes ∧
    ∀ g ∈ x.deck, g.number < f.number → c ∉ g.left

section
variable {s : State} {n c : Nat} {f : Fill}

theorem exec_fillLanded_gone (gone : (s.stream n).deck.find? (fun g => g.number == f.number) = none) (bad : Bool) :
    exec (.fillLanded n f.number c bad) s = .next s := by
  refine congrArg Host.Outcome.next ?_
  dsimp only
  rw [gone]

variable (lands : (s.stream n).lands c f)
include lands

/-- No earlier fill, and no missing lane, keeps the fill from its cell. -/
theorem StreamSt.lands.goes : ¬ ((!f.left.contains c) = true ∨ (!f.lanes.contains (regionOf c)) = true ∨
    (s.stream n).deck.any (fun g => decide (g.number < f.number) && g.left.contains c) = true) := by
  obtain ⟨-, target, lane, first⟩ := lands
  simpa [target, lane] using first

theorem exec_fillLanded_parity : exec (.fillLanded n f.number c true) s = .next (s.skdFault n 0x4024 f.entry) := by
  have ⟨held, _⟩ := lands
  refine congrArg Host.Outcome.next ?_
  dsimp only
  rw [held]
  exact (if_neg lands.goes).trans (if_pos rfl)

/-- A fill that lands in its last cell, no gate waiting for it, leaves the deck and is counted. -/
theorem exec_fillLanded_last (left : f.left = [c]) (final : f.final = false) (ungated : s.gatedOn c f.slot = false) :
    exec (.fillLanded n f.number c false) s = .next (((s.modCell c (fun y => y.land f)).setStream n { s.stream n with
      deck := (s.stream n).deck.filter (fun h => h.number != f.number) }).addReg (Reg.skdProg n) 31 0 1) := by
  have ⟨held, _⟩ := lands
  have late : (s.gatedOn c f.slot && !f.late) = false := by rw [ungated, Bool.false_and]
  have emptied : (f.left.erase c).isEmpty = true := by rw [left, List.erase_cons_head]; rfl
  refine congrArg Host.Outcome.next ?_
  dsimp only
  rw [held]
  refine (if_neg lands.goes).trans ((if_neg Bool.false_ne_true).trans ?_)
  rw [late, if_neg Bool.false_ne_true, if_pos emptied, final, if_neg Bool.false_ne_true]
  rfl

/-- What such a landing leaves: the bytes in the cell, the deck without the fill, and one more fill delivered in SKD_PROG. -/
theorem fillLanded_last (left : f.left = [c]) (final : f.final = false) (ungated : s.gatedOn c f.slot = false) :
    ∃ t, (exec (.fillLanded n f.number c false) s = .next t ∧
      t.stream n = { s.stream n with deck := (s.stream n).deck.filter (fun h => h.number != f.number) } ∧ s.onlyStream t n ∧
      s.onlyCells t [c] ∧ t.regF (Reg.skdProg n) 31 0 = (s.regF (Reg.skdProg n) 31 0 + 1) % 2 ^ 32 ∧ s.onlyRegs t [Reg.skdProg n] ∧
      t = { s with streams := t.streams, cells := t.cells, regs := t.regs }) ∧ t.cell c = (s.cell c).land f := by
  refine ⟨_, ⟨exec_fillLanded_last lands left final ungated, ?_, ?_, ?_, State.regF_addReg _ _ (by omega) (by omega) 1,
    State.onlyRegs_addReg _ _ 31 0 1, rfl⟩, ?_⟩
  · rw [State.addReg_stream, State.stream_setStream]
  · exact State.onlyStream_setStream (s.modCell c _) n _
  · exact State.onlyCells_setCell s c _
  · rw [State.addReg_cell, State.setStream_cell, State.cell_modCell]

end

/-- Settles O16: a read joins the deck or halts the program; a lane goes to the first waiter; a landing writes its cell, slot by slot. -/
theorem fills : Obligations.Fills := by
  unfold Obligations.Fills
  refine ⟨fun s n entry oe o => ?reads, fun s r => ?lanes, fun s n c f => ?lands⟩
  case reads =>
    intro x e h op first w live goes turn index refs depth share some_
    subst index
    have prefetch : (x.entryAt oe.index).prefetch = (e.extractLsb' 232 6).toNat := StreamEntry.prefetch_extract _
    have from_ : (x.entryAt oe.index).first = first := StreamEntry.first_extract _
    have handle : (x.entryAt oe.index).handle = h := StreamEntry.handle_extract _
    have due : s.FillDue n oe := ⟨live, goes, turn, refs, prefetch ▸ depth, from_ ▸ share⟩
    rw [← handle] at some_
    refine ⟨fun bs placed reach read kind sound more => ?_, fun tier => ?_⟩
    · have run := exec_fillReadStart_reads due some_ placed reach read (handle ▸ sound) more
      rw [handle] at run
      refine ⟨_, run, ?_, ?_, State.onlyStream_setStream (State.setObj _ _ _) n _, State.obj_setObj ..,
        fun k other => State.obj_setObj_other _ other _, State.reg_addReg_whole s _ _, State.onlyRegs_addReg s _ 63 0 _, rfl⟩
      · rw [State.stream_setStream, ← StreamSt.nextFill_extract]
        rfl
      · rw [State.stream_setStream]
        rfl
    · have run := exec_fillReadStart_bad due some_ tier
      obtain ⟨t, halted, stream, only, regs, inFlight⟩ := s.skdFault_keeps n 0x4023 oe.index
      have word := s.skdFault_reg n 0x4023 oe.index
      rw [halted] at run word
      rw [handle] at inFlight word
      exact ⟨t, run, by rw [stream], by rw [stream], by rw [stream], only, inFlight, regs, word.trans rfl⟩
  case lanes =>
    refine ⟨exec_fillLaneAssign_full, fun n f room first => ?_⟩
    exact ⟨_, exec_fillLaneAssign_gives room first, State.stream_setStream .., State.onlyStream_setStream s n _, rfl⟩
  case lands =>
    intro x y lands ends done
    have ended (landing : lands) (last : ends) : ∃ t, done t ∧ t.cell c = y.land f ∧ y.discards = false := by
      obtain ⟨left, final, ungated, looper, configured, resetting⟩ := last
      obtain ⟨t, landed, cell⟩ := fillLanded_last landing left final ungated
      exact ⟨t, landed, cell, by simp [CellSt.discards, looper, configured, resetting]⟩
    refine ⟨fun landing last kind slot => ?_, fun landing last kind slot => ?_, fun landing last kind slot => ?_,
      fun landing last kind slot => ?_, fun landing => ?_, exec_fillLanded_gone⟩
    · obtain ⟨t, landed, cell, keeps⟩ := ended landing last
      exact ⟨t, landed, by rw [cell]; exact CellSt.land_slot0 keeps kind slot⟩
    · obtain ⟨t, landed, cell, keeps⟩ := ended landing last
      exact ⟨t, landed, by rw [cell]; exact CellSt.land_slot1 keeps kind slot⟩
    · obtain ⟨t, landed, cell, keeps⟩ := ended landing last
      exact ⟨t, landed, by rw [cell]; exact ⟨CellSt.land_near1 keeps kind slot, CellSt.land_near_bytes keeps kind⟩⟩
    · obtain ⟨t, landed, cell, keeps⟩ := ended landing last
      exact ⟨t, landed, by rw [cell]; exact ⟨CellSt.land_near0 keeps kind slot, CellSt.land_near_bytes keeps kind⟩⟩
    · have run := exec_fillLanded_parity landing
      obtain ⟨t, halted, stream, only, -, inFlight⟩ := s.skdFault_keeps n 0x4024 f.entry
      have cells := s.skdFault_cells n 0x4024 f.entry
      rw [halted] at run cells
      rw [StreamEntry.handle_extract] at inFlight
      exact ⟨t, run, cells, by rw [stream], by rw [stream], only, inFlight⟩

end Sys2Proof.Machine
